-- ==== Sys2Proof/Word.lean ====
section
/-! DEFINITION. The words the controller's registers, clerks and messages are made of. -/

namespace Sys2Proof

/-- A 64-bit register word (R395) or clerk scalar register (R37). -/
abbrev Word := BitVec 64

/-- One byte of a memory or of a message. -/
abbrev Byte := BitVec 8

/-- A 128-bit handle register, the width of an `h` register of R37. -/
abbrev Handle := BitVec 128

/-- A 512-bit descriptor register, the width of a `d` register of R37. -/
abbrev Desc := BitVec 512

end Sys2Proof
end

