-- ==== Sys2Proof/Terms.lean ====
section
/-! DEFINITION. The operands of the commands: who asks, what a message carries, what a measurement reads. -/

namespace Sys2Proof

/-- Who makes a register access or asks for work (R332): Bursar firmware, a Sinil connection, or a host head, through function 0 or
through the virtual function of a context. -/
inductive Requester
  | firmware | sinil (port conn : Nat) | host (head : Nat) (vf : Option Nat)
  deriving DecidableEq, Repr

/-- Which completion reaches a Receipt slot: the operation's own result or its cancellation (R48). -/
inductive CompSrc
  | own | cancel
  deriving DecidableEq, Repr

/-- A watched handshake link (R10): hub to hub, or hub to stack. -/
inductive LinkId
  | d2d (a b : Nat) | stack (m : Nat)
  deriving DecidableEq, Repr

/-- A frame header (Table 13-6). -/
structure FrameHdr where
  queue : Nat
  first : Bool
  last : Bool
  len : Nat
  msg : Nat
  offset : Nat
  counter : Nat
  epoch : Nat
  conn : Nat
  deriving DecidableEq, Repr

/-- Cell control (Table 13-5). -/
structure CellCtl where
  seq : Nat
  queue : Nat
  sof : Bool
  eof : Bool
  ctrl : Bool
  deriving DecidableEq, Repr

/-- Whom a Sinil connection asks to be bound to (R332): a context, or the operator. -/
inductive BindTo
  | ctx (n : Nat) | operator
  deriving DecidableEq, Repr

/-- An SPDM transport (Table 14-6): PCIe DOE, or a Sinil operator connection. -/
inductive SpdmPath
  | doe | sinil (port conn : Nat)
  deriving DecidableEq, Repr

/-- What a PMBus poll reads (R368). -/
structure PsuAnswer where
  vin : Nat
  pout : Nat
  statusWord : Nat
  statusInput : Nat
  deriving DecidableEq, Repr

/-- A firmware image as the boot ROM or a live restart finds it (R343, R391): its key index, security version, whether the public key
matches the ROM digest and the signature verifies, the oldest running version its handover accepts, and its digest. -/
structure FwImage where
  keyIndex : Nat
  svn : Nat
  keyMatches : Bool
  sigOk : Bool
  handoverFrom : Nat
  digest : Word
  deriving DecidableEq, Repr

/-- A unit the start-up self-test finds failed (Table 16-2). -/
inductive FailedUnit
  | hub (h : Nat) | stack (m : Nat) | text (h : Nat) | channel (ch : Nat) | port (p : Nat)
  deriving DecidableEq, Repr

/-- A register access (R395): a write or a read of some width at an offset of the window. -/
inductive RegAcc
  | write (off width : Nat) (v : Word) | read (off width : Nat)
  deriving DecidableEq, Repr

/-- An IEEE 1588 message on a Sinil port (R374): an announce with its grandmaster's clockClass, priorities and traceability, or an
offset computed from a sync exchange. -/
inductive PtpMsg
  | announce (domain clockClass prio1 prio2 : Nat) (traceable : Bool) | sync (domain : Nat) (offset : Int) | delayReq (domain : Nat)
  deriving DecidableEq, Repr

/-- A session as a MOVE carries it to its destination (R72): its owner, format, model and customer, its Passbook as token, kind and
truncation mark, its KV pieces as kind, layer, page and bytes, and the
written granules of its blob area. -/
structure SsnCopy where
  ctx : Nat
  kvFmt : Nat
  model : Nat
  customer : Nat
  reservedLen : Nat
  kvKept : Bool
  passbook : List (Nat × Nat × Bool)
  pieces : List (Nat × Nat × Nat × List Byte)
  blob : List (Nat × List Byte)
  deriving DecidableEq, Repr

/-- What the planner predicts of a session as it forms a step (R125, R134): when its next token would be released, the time one token of
its work adds to the step, and whether every layer will be resident in time (R81). -/
structure StepCand where
  sess : Nat
  tokenAt : Nat
  perTokNs : Nat
  residentInTime : Bool
  deriving DecidableEq, Repr

/-- Whose flash write it is (R234, R247). -/
inductive FlashOwner
  | request (tag : Word) | park (sess : Nat) | passbook (sess : Nat) | directory | ledger | vectors (coll : Nat) | vecData (coll : Nat) | stmt (job : Nat)
  | granule (region g : Nat) | flushCopy (sess : Nat) | domainLog
  deriving DecidableEq, Repr

/-- What the NAND devices of a channel answer during negotiation (Table 9-1): LUNs ready (a mask), the ONFI signature, a parameter page
copy whose CRC passes, ONFI 5.1 with NV-LPDDR4, the geometry, whether every LUN has it, the features of R226, the rate code training
settles at (0: not even 800 MT/s), and the published partner figures. -/
structure NandAnswer where
  ready : Nat
  signature : Bool
  pageOk : Bool
  onfi51 : Bool
  planes : Nat
  bitsPerCell : Nat
  blocks : Nat
  pages : Nat
  pageBytes : Nat
  spareBytes : Nat
  uniform : Bool
  features : Bool
  rate : Nat
  time : Word
  time2 : Word
  deriving DecidableEq, Repr

/-- How the codewords of a unit decode (R239): with a hard decode, a number of retry levels, a soft decode, die parity, or not at all. -/
inductive Decode
  | hard | retry (levels : Nat) | soft | parity | lost
  deriving DecidableEq, Repr

/-- What the other members' shapes answer to a restore (R267): the same shape, another, or a member missing without a spare. -/
inductive RestoreAnswer
  | same | differs | missing
  deriving DecidableEq, Repr

/-- A shard of a Statement taken over (Table 10-6): id, space, dedup, address offset and bytes. -/
structure ShardSpec where
  id : Nat
  space : Nat
  dedup : Bool
  off : Nat
  bytes : Nat
  deriving DecidableEq, Repr

/-- What a stack engine meets beside the KV it reads: nothing, a tile fault (R98), an UNCORRECTABLE in its control region, or one in staging or
scratch SRAM (R115). -/
inductive EngineMeets
  | nothing | tileFault | controlError | sramError
  deriving DecidableEq, Repr

/-- Meta0-State of a CXL.mem request (Table 11-2). -/
inductive Meta0
  | inv | shared | any
  deriving DecidableEq, Repr

/-- What an agent's samples of the last 1 ms show (R284): the lowest bucket and the highest queue occupancy in percent, and whether it was
held at some sample. -/
structure AgentLoad where
  agent : Nat
  bucketMin : Nat
  occMax : Nat
  held : Bool
  deriving DecidableEq, Repr

/-- A domain message header (Table 12-5). -/
structure DHdr where
  requester : Nat
  size : Nat
  op : Nat
  serial : Nat
  resent : Bool
  epoch : Nat
  tenant : Word
  addr : Nat
  deriving DecidableEq, Repr

/-- What a domain request asks of its line (R296): a load, a store under a byte mask, or an atomic. -/
inductive DBody
  | load | store (mask : Nat) (data : List Byte) | atomic (operand cmp : Nat)
  deriving DecidableEq, Repr

/-- States of a member (Table 12-1); an absent member has no row. -/
inductive MemberSt
  | joining | member | leaving
  deriving DecidableEq, Repr

/-- A member of the domain map (Table 12-1). -/
structure Member where
  st : MemberSt
  /-- a DXS-2612 -/
  small : Bool
  inc : Nat
  shareGib : Nat
  deriving DecidableEq, Repr

/-- A bucket-table entry (Table 12-4): STATE 0 normal, 1 moving, 2 degraded, 3 lost. -/
structure Bucket where
  primary : Nat
  secondary : Nat
  parity : Nat
  st : Nat
  fromM : Nat
  noneLost : Bool
  deriving DecidableEq, Repr

/-- A region record (Table 12-3), with the epoch of its creation. -/
structure DomRegion where
  tenant : Word
  base : Nat
  granules : Nat
  protect : Nat
  owner : Option Nat
  ownerInc : Nat
  lapsed : Option Nat
  version : Nat
  pubEpoch : Nat
  gen : Nat
  created : Nat
  deriving DecidableEq, Repr

/-- Escrow operations (Table 12-10). -/
inductive EscOp
  | acq | pub (v : Nat) | rel
  deriving DecidableEq, Repr

/-- New holders the leader gives a bucket (R295): bucket, PRIMARY, SECONDARY, PARITY. -/
structure Assign where
  bucket : Nat
  primary : Nat
  secondary : Nat
  parity : Nat
  deriving DecidableEq, Repr

/-- One entry of the domain map's log (R289). -/
inductive MapChange
  | join (m : Nat) (small : Bool) (shareGib : Nat) (paths : List (Nat × Nat × Nat)) (moves : List Assign)
  | leave (m : Nat) (moves : List Assign)
  | remove (m : Nat) (assign : List Assign)
  | cutover (bucket : Nat)
  | copied (bucket : Nat)
  | noneBacked (bucket : Nat)
  | params (mapCfg grantCfg : Word)
  | regionCreate (i : Nat) (r : DomRegion) (issuer : Nat)
  | regionDelete (i : Nat)
  | escrow (i : Nat) (op : EscOp) (issuer key : Nat)
  | pairing (m partner : Nat)
  | cfPeer (m job peer : Nat)
  /-- the domain time master (R373) -/
  | timeMaster (m : Nat)
  /-- a fabric port of a member leaves or joins the path table, for one receiver where it joins (R289, R312) -/
  | pathGone (m port : Nat)
  | pathFound (m dest port : Nat)
  /-- what the leader sends a new member: the map as it stands -/
  | snapshot (members : List (Nat × Member)) (buckets : List (Nat × Bucket)) (regions : List (Nat × DomRegion))
    (paths : List ((Nat × Nat) × Nat)) (mapCfg grantCfg : Word) (founder : Nat)
  deriving DecidableEq, Repr

end Sys2Proof
end

