-- ==== Sys2Proof/Syntax.lean ====
section
/-! DEFINITION. The commands of the block: one constructor per row of the table of operations and events. -/

namespace Sys2Proof

/-- One constructor per row of spec/opcode_table.json. A quantity the controller measures, or that a partner sends, is an operand. -/
inductive Instr
  /-- `LINK_HANDSHAKE_TIMEOUT` (R10) -/
  | linkHandshakeTimeout (l : LinkId)
  /-- `HUB_HEARTBEAT_MISS` (R10) -/
  | hubHeartbeatMiss (h : Nat)
  /-- `HUB_DECLARED_FAILED` (R11) -/
  | hubDeclaredFailed (h : Nat)
  /-- `STACK_TAKEN_OFFLINE` (R23) -/
  | stackTakenOffline (m : Nat)
  /-- `PATROL_SCRUB` (R22) -/
  | patrolScrub (key : Nat)
  /-- `ROW_SPARE_COPY` (R23) -/
  | rowSpareCopy (m layer bank : Nat) (frames : List Nat)
  /-- `TSV_LANE_REMAP` (R23) -/
  | tsvLaneRemap (m : Nat)
  /-- `LAYER_RETIRE` (R23) -/
  | layerRetire (m layer : Nat) (frames : List Nat)
  /-- `PACE_SAMPLE` (R15) -/
  | paceSample (n value : Nat)
  /-- `JUNCTION_ABOVE_105` (R18) -/
  | junctionAbove105 (h tC : Nat)
  /-- `CORNER_RECOVERED` (R19) -/
  | cornerRecovered (mv : Nat) (tC : List Nat)
  /-- `JUNCTION_115` (R18) -/
  | junction115 (h tC : Nat)
  /-- `CORE_VOLTAGE_LOW` (R19) -/
  | coreVoltageLow (mv : Nat)
  /-- `CORE_SUPERVISOR_RESET` (R19) -/
  | coreSupervisorReset (mv : Nat)
  /-- `STANDBY_ENTRY` (R4) -/
  | standbyEntry (mv : Nat)
  /-- `STANDBY_EXIT` (R4) -/
  | standbyExit (mv : Nat)
  /-- `IMG_LOAD` (R26) -/
  | imgLoad (rq : Requester) (v : Word)
  /-- `IMG_VERIFY_DONE` (R26) -/
  | imgVerifyDone
  /-- `IMG_UNLOAD` (R29) -/
  | imgUnload (rq : Requester) (v : Word)
  /-- `RUN_START` (R31) -/
  | runStart (rq : Requester) (v : Word)
  /-- `RUN_CANCEL` (R34) -/
  | runCancel (rq : Requester) (tag : Word)
  /-- `RUN_DRAIN_DONE` (R51) -/
  | runDrainDone (c : Nat)
  /-- `OPERATION_COMPLETE` (R48) -/
  | operationComplete (c slot : Nat) (src : CompSrc)
  /-- `RUN_TIME_LIMIT` (R56) -/
  | runTimeLimit (c : Nat)
  /-- `HANDLER_GRACE_EXPIRY` (R56) -/
  | handlerGraceExpiry (c : Nat)
  /-- `ALU` (R202) -/
  | alu (c : Nat)
  /-- `ALUI` (R202) -/
  | alui (c : Nat)
  /-- `LI` (R202) -/
  | li (c : Nat)
  /-- `LIH` (R202) -/
  | lih (c : Nat)
  /-- `CMP` (R203) -/
  | cmp (c : Nat)
  /-- `CMPI` (R203) -/
  | cmpi (c : Nat)
  /-- `PLOG` (R203) -/
  | plog (c : Nat)
  /-- `BR` (R204) -/
  | br (c : Nat)
  /-- `JR` (R204) -/
  | jr (c : Nat)
  /-- `DINS` (R205) -/
  | dins (c : Nat)
  /-- `DEXT` (R205) -/
  | dext (c : Nat)
  /-- `OPEN` (R211) -/
  | openObj (c : Nat)
  /-- `BIND` (R212) -/
  | bind (c : Nat)
  /-- `DROP` (R40) -/
  | drop (c : Nat)
  /-- `PARK` (R72) -/
  | park (c : Nat)
  /-- `REVIVE` (R72) -/
  | revive (c : Nat)
  /-- `MOVE` (R72) -/
  | move (c : Nat)
  /-- `PIN` (R72) -/
  | pin (c : Nat)
  /-- `UNPIN` (R72) -/
  | unpin (c : Nat)
  /-- `HINT` (R71) -/
  | hint (c : Nat)
  /-- `ATTN` (R215) -/
  | attn (c : Nat)
  /-- `ATTN_MERGE` (R216) -/
  | attnMerge (c : Nat)
  /-- `SUBMIT` (R121) -/
  | submit (c stepUs pageRate finishUs : Nat)
  /-- `CANCEL` (R121) -/
  | cancel (c : Nat)
  /-- `DISPATCH_KERNEL` (R217) -/
  | dispatchKernel (c : Nat)
  /-- `MINT` (R148) -/
  | mint (c : Nat)
  /-- `CLEAR_BIND` (R218) -/
  | clearBind (c : Nat)
  /-- `CLEAR_UNBIND` (R218) -/
  | clearUnbind (c : Nat)
  /-- `CLEAR_MASK` (R218) -/
  | clearMask (c : Nat)
  /-- `CLEAR_ADVANCE` (R218) -/
  | clearAdvance (c : Nat)
  /-- `SAMPLE_CONFIG` (R218) -/
  | sampleConfig (c : Nat)
  /-- `SAMPLE_PROBE` (R218) -/
  | sampleProbe (c : Nat)
  /-- `CHANGE_CONFIG` (R218) -/
  | changeConfig (c : Nat)
  /-- `CHANGE_TEXT` (R218) -/
  | changeText (c : Nat)
  /-- `SEARCH` (R185) -/
  | search (c : Nat)
  /-- `VINSERT` (R181) -/
  | vinsert (c : Nat)
  /-- `VDELETE` (R181) -/
  | vdelete (c : Nat)
  /-- `CHARGE` (R219) -/
  | charge (c : Nat)
  /-- `CREDIT` (R219) -/
  | credit (c : Nat)
  /-- `RENT` (R219) -/
  | rent (c : Nat)
  /-- `ESC_ACQ` (R304) -/
  | escAcq (c : Nat)
  /-- `ESC_PUB` (R304) -/
  | escPub (c : Nat)
  /-- `ESC_REL` (R304) -/
  | escRel (c : Nat)
  /-- `STMT_BEGIN` (R256) -/
  | stmtBegin (c : Nat) (coordSame : Bool)
  /-- `STMT_ADD` (R257) -/
  | stmtAdd (c : Nat)
  /-- `STMT_COMMIT` (R263) -/
  | stmtCommit (c : Nat)
  /-- `LD` (R206) -/
  | ld (c : Nat)
  /-- `ST` (R206) -/
  | st (c : Nat)
  /-- `AMO` (R206) -/
  | amo (c : Nat)
  /-- `FENCE_M` (R207) -/
  | fenceM (c : Nat)
  /-- `FENCE_N` (R207) -/
  | fenceN (c : Nat)
  /-- `FENCE_D` (R207) -/
  | fenceD (c : Nat)
  /-- `WAIT` (R214) -/
  | wait (c : Nat)
  /-- `WAIT_TIMEOUT` (R214) -/
  | waitTimeout (c : Nat)
  /-- `SIGNAL` (R213) -/
  | signal (c : Nat)
  /-- `YIELD` (R213) -/
  | yield (c : Nat)
  /-- `YIELD_TIMEOUT` (R213) -/
  | yieldTimeout (c : Nat)
  /-- `TRAP_EXIT` (R222) -/
  | trapExit (c : Nat)
  /-- `BREAK` (R222) -/
  | brk (c : Nat)
  /-- `FREEZE` (R222) -/
  | freeze (c : Nat)
  /-- `INDEX_REUSE_HOLD_END` (R59) -/
  | indexReuseHoldEnd (i : Nat)
  /-- `DIR_REBUILD` (R61) -/
  | dirRebuild (m : Nat)
  /-- `PASSBOOK_FLASH_WRITE` (R64) -/
  | passbookFlashWrite (i : Nat)
  /-- `PASSBOOK_COPY_REBUILD` (R65) -/
  | passbookCopyRebuild (i : Nat)
  /-- `PARK_COMMIT` (R75) -/
  | parkCommit (i : Nat)
  /-- `REVIVE_LAYER_RESIDENT` (R81) -/
  | reviveLayerResident (i layer : Nat) (remote : List (List Byte))
  /-- `MOVE_DESTINATION_ANSWER` (R74) -/
  | moveDestinationAnswer (i status aux : Nat) (w1 : Word)
  /-- `T1_RECLAIM` (R79) -/
  | t1Reclaim
  /-- `REVIVE_HOLD_EXPIRY` (R82) -/
  | reviveHoldExpiry (i : Nat)
  /-- `PHASE_SWITCH` (R84) -/
  | phaseSwitch (rq : Requester) (v : Word)
  /-- `PHASE_TIME_LIMIT` (R84) -/
  | phaseTimeLimit
  /-- `PHASE_DONE` (R84) -/
  | phaseDone
  /-- `SESSION_REBUILD_DONE` (R85) -/
  | sessionRebuildDone (i : Nat) (pages : List (Nat × Nat × List Byte))
  /-- `ATQ` (R104) -/
  | atq (p ctx addr : Nat) (msg : List Byte)
  /-- `KVU` (R104) -/
  | kvu (p ctx addr : Nat) (msg : List Byte)
  /-- `LDN` (R128) -/
  | ldn (p : Nat) (msg : List Byte)
  /-- `LGT` (R128) -/
  | lgt (p : Nat) (msg : List Byte)
  /-- `HSV` (R130) -/
  | hsv (p : Nat) (msg : List Byte)
  /-- `ENGINE_DESCRIPTOR_EXEC` (R98) -/
  | engineDescriptorExec (m : Nat) (meets : EngineMeets)
  /-- `PARTIAL_MERGE` (R99) -/
  | partialMerge (pslot stack : Nat)
  /-- `ATR_SUPPLEMENT` (R106) -/
  | atrSupplement (op : Nat)
  /-- `MODEL_REG` (R118) -/
  | modelReg (rq : Requester) (v : Word)
  /-- `MODEL_UNREG` (R118) -/
  | modelUnreg (rq : Requester) (v : Word)
  /-- `GROUP_CFG_WRITE` (R119) -/
  | groupCfgWrite (rq : Requester) (g : Nat) (v : Word)
  /-- `STEP_FORM` (R124) -/
  | stepForm (g : Nat) (half : Bool) (baseNs watts : Nat) (cands : List StepCand)
  /-- `GROUP_TIMEOUT` (R128) -/
  | groupTimeout (g : Nat) (half : Bool)
  /-- `STEP_COMMIT` (R94) -/
  | stepCommit (g : Nat) (half : Bool)
  /-- `STEP_REPORT_SEND` (R140) -/
  | stepReportSend (n : Nat)
  /-- `ROLE_EVAL` (R132) -/
  | roleEval (model dp dd : Nat) (backlog : List (Nat × Nat))
  /-- `LEDGER_TICK` (R139) -/
  | ledgerTick
  /-- `CTX_REPORT_WRITE` (R141) -/
  | ctxReportWrite (rq : Requester) (n : Nat) (v : Word)
  /-- `TBL_LOAD` (R146) -/
  | tblLoad (rq : Requester) (v : Word)
  /-- `TBL_UNLOAD` (R146) -/
  | tblUnload (rq : Requester) (v : Word)
  /-- `COLL_CREATE` (R176) -/
  | collCreate (rq : Requester) (v : Word)
  /-- `COLL_DROP` (R194) -/
  | collDrop (rq : Requester) (v : Word)
  /-- `COLL_INDEX_FREE` (R194) -/
  | collIndexFree (coll : Nat)
  /-- `VSR_CFG_WRITE` (R190) -/
  | vsrCfgWrite (rq : Requester) (v : Word)
  /-- `VECTOR_FOLD` (R183) -/
  | vectorFold (coll endUs : Nat)
  /-- `WEIGH_PASS` (R186) -/
  | weighPass (ch : Nat)
  /-- `ASSAY` (R188) -/
  | assay (op : Nat)
  /-- `SKETCH_REBUILD` (R192) -/
  | sketchRebuild (coll part page : Nat)
  /-- `CHANNEL_NEGOTIATE` (R225) -/
  | channelNegotiate (ch : Nat) (a : NandAnswer)
  /-- `FLASH_WRITE` (R234) -/
  | flashWrite (own : FlashOwner) (extent first : Nat) (data : List (List Byte)) (till : Bool)
  /-- `FLASH_PROGRAM_DONE` (R234) -/
  | flashProgramDone (id : Nat)
  /-- `JOURNAL_BUFFER_WRITE` (R233) -/
  | journalBufferWrite (h : Nat)
  /-- `MAP_CHECKPOINT` (R233) -/
  | mapCheckpoint
  /-- `FLASH_READ` (R251) -/
  | flashRead (unit : Nat) (d : Decode)
  /-- `LUN_FAILED` (R240) -/
  | lunFailed (ch lun : Nat)
  /-- `LUN_REBUILD` (R240) -/
  | lunRebuild (ch lun : Nat)
  /-- `TILL_FOLD` (R237) -/
  | tillFold
  /-- `GARBAGE_COLLECTION` (R241) -/
  | garbageCollection
  /-- `WEAR_LEVEL` (R242) -/
  | wearLevel
  /-- `READ_DISTURB_REFRESH` (R242) -/
  | readDisturbRefresh (sb : Nat)
  /-- `RETENTION_SCAN` (R242) -/
  | retentionScan (weak : List Nat)
  /-- `BLOCK_REPLACE` (R245) -/
  | blockReplace (ch plane sb : Nat) (erase : Bool)
  /-- `ORDINARY_DISCARD` (R249) -/
  | ordinaryDiscard (first n : Nat)
  /-- `SECURE_DISCARD` (R250) -/
  | secureDiscard (rq : Requester) (v : Word)
  /-- `JOB_CREATE` (R254) -/
  | jobCreate (rq : Requester) (v : Word) (granted : Bool)
  /-- `JOB_DELETE` (R269) -/
  | jobDelete (rq : Requester) (v : Word)
  /-- `RESTORE` (R267) -/
  | restore (rq : Requester) (v : Word) (others : RestoreAnswer) (remote : List (List Byte))
  /-- `JOB_PEER_WRITE` (R266) -/
  | jobPeerWrite (rq : Requester) (job : Nat) (v : Word) (granted : Bool)
  /-- `BACKGROUND_COPY` (R258) -/
  | backgroundCopy (job : Nat)
  /-- `COPY_BEFORE_WRITE` (R260) -/
  | copyBeforeWrite (page : Nat)
  /-- `CF_PAGE` (R262) -/
  | cfPage (peer : Nat) (tag : Word) (rank slot seq : Nat) (data : List Byte) (tagOk : Bool)
  /-- `CF_PAGE_REFUSAL` (R262) -/
  | cfPageRefusal (job seq : Nat)
  /-- `CF_ACK` (R261) -/
  | cfAck (job : Nat) (refs : List (Nat × Nat × Nat))
  /-- `COMMIT_NOTICE` (R263) -/
  | commitNotice (tag : Word) (rank step : Nat) (part : List Byte)
  /-- `SHAPE_DIGEST` (R263) -/
  | shapeDigest (job step : Nat) (shape : List Byte)
  /-- `STATEMENT_FLUSH` (R265) -/
  | statementFlush (job : Nat)
  /-- `FLASH_COMMIT_NOTICE` (R265) -/
  | flashCommitNotice (tag : Word) (rank step : Nat)
  /-- `ROLLBACK` (R268) -/
  | rollback (job step : Nat) (remote : List (List Byte))
  /-- `TAKEOVER` (R268) -/
  | takeover (desc : List Byte) (peer step : Nat) (shape : List Byte) (shards : List ShardSpec) (data : List (List Byte))
  /-- `REGION_CREATE` (R271) -/
  | regionCreate (rq : Requester) (v : Word)
  /-- `REGION_DELETE` (R272) -/
  | regionDelete (rq : Requester) (v : Word)
  /-- `REGION_TEMP` (R285) -/
  | regionTemp (rq : Requester) (v : Word)
  /-- `CXL_MEM_READ` (R275) -/
  | cxlMemRead (head tag off : Nat) (m : Meta0)
  /-- `CXL_MEM_WRITE` (R275) -/
  | cxlMemWrite (head tag off : Nat) (m : Meta0) (mask : Nat) (data : List Byte)
  /-- `BIRSP` (R275) -/
  | birsp (head line : Nat) (shared : Bool) (wb : Option (List Byte))
  /-- `MRD` (R276) -/
  | mrd (p : Nat) (w0 w1 : Word)
  /-- `MWR` (R276) -/
  | mwr (p : Nat) (w0 w1 mask : Word) (data : List Byte)
  /-- `MAT` (R276) -/
  | mat (p : Nat) (w0 w1 : Word) (operand cmp : Nat)
  /-- `RCA` (R276) -/
  | rca (p : Nat) (w0 w1 : Word) (data : List Byte)
  /-- `RECALL_TIMEOUT` (R281) -/
  | recallTimeout (line a : Nat)
  /-- `AGENT_FAILED` (R286) -/
  | agentFailed (a : Nat)
  /-- `DIRECTORY_SWEEP` (R286) -/
  | directorySweep (h : Nat)
  /-- `LOAD_LEVEL_UPDATE` (R284) -/
  | loadLevelUpdate (samples : List AgentLoad)
  /-- `COLD_GRANULE_PARK` (R285) -/
  | coldGranulePark (region g : Nat)
  /-- `GRANULE_FAULT_IN` (R285) -/
  | granuleFaultIn (region g : Nat)
  /-- `MAP_CHANGE_PROPOSE` (R290) -/
  | mapChangePropose (c : MapChange)
  /-- `MAP_COMMIT` (R290) -/
  | mapCommit (epoch : Nat) (holders : List Nat)
  /-- `MAP_ADOPT` (R290) -/
  | mapAdopt (epoch : Nat) (c : MapChange)
  /-- `LEADER_HEARTBEAT` (R291) -/
  | leaderHeartbeat
  /-- `HEARTBEAT_RECEIVE` (R291) -/
  | heartbeatReceive (leader epoch : Nat)
  /-- `LEASE_EXPIRY` (R291) -/
  | leaseExpiry
  /-- `SUSPECT_EXPIRY` (R291) -/
  | suspectExpiry (m : Nat) (assign : List Assign)
  /-- `ELECTION_TIMEOUT` (R290) -/
  | electionTimeout (answers : List (Nat × Nat))
  /-- `ISOLATE_TIMEOUT` (R291) -/
  | isolateTimeout
  /-- `DFB_REGION_CREATE` (R292) -/
  | dfbRegionCreate (rq : Requester) (v : Word)
  /-- `DFB_REGION_DELETE` (R293) -/
  | dfbRegionDelete (rq : Requester) (v : Word)
  /-- `DFB_JOIN` (R301) -/
  | dfbJoin (rq : Requester) (v : Word) (refused : Bool)
  /-- `DFB_LEAVE` (R301) -/
  | dfbLeave (rq : Requester) (v : Word)
  /-- `MAP_CFG_WRITE` (R308) -/
  | mapCfgWrite (rq : Requester) (grant : Bool) (v : Word)
  /-- `DLD` (R297) -/
  | dld (h : DHdr)
  /-- `DST` (R297) -/
  | dst (h : DHdr) (mask : Nat) (data : List Byte)
  /-- `DAT` (R297) -/
  | dat (h : DHdr) (operand cmp : Nat)
  /-- `DRS` (R300) -/
  | drs (serial epoch status : Nat) (data : List Byte)
  /-- `DFW` (R299) -/
  | dfw (h : DHdr) (body : DBody)
  /-- `DUP` (R297) -/
  | dup (h : DHdr) (sender mask : Nat) (line : List Byte) (old : List Byte)
  /-- `DUA` (R297) -/
  | dua (holder requester serial : Nat)
  /-- `DOMAIN_REQ_TIMEOUT` (R300) -/
  | domainReqTimeout (serial : Nat)
  /-- `BUCKET_CUTOVER` (R301) -/
  | bucketCutover (bucket : Nat)
  /-- `NONE_POISON_BACKING` (R302) -/
  | nonePoisonBacking (bucket : Nat)
  /-- `T4_REVOKE` (R306) -/
  | t4Revoke
  /-- `RECLAIM_DEADLINE` (R306) -/
  | reclaimDeadline (peer : Nat)
  /-- `PORT_SIGNAL_DETECT` (R310) -/
  | portSignalDetect (p : Nat)
  /-- `LANE_LOCK` (R310) -/
  | laneLock (p : Nat) (widths rates : List Nat) (propNs : Nat)
  /-- `TRAIN_TIMEOUT` (R310) -/
  | trainTimeout (p : Nat)
  /-- `TRAIN_RETRY` (R310) -/
  | trainRetry (p : Nat)
  /-- `CAPABILITY_BLOCK` (R311) -/
  | capabilityBlock (p : Nat) (w0 w1 : Word)
  /-- `KEYS_DONE` (R339) -/
  | keysDone (p : Nat) (ok : Bool)
  /-- `CREDIT_ADVERT` (R316) -/
  | creditAdvert (p : Nat) (cells : List Nat)
  /-- `RETRAIN_TRIGGER` (R310) -/
  | retrainTrigger (p : Nat) (laneLost : Bool)
  /-- `RETRAIN_END` (R310) -/
  | retrainEnd (p : Nat) (ok : Bool) (lanes : Nat)
  /-- `PORT_FAILED` (R312) -/
  | portFailed (p : Nat)
  /-- `PORT_CFG_WRITE` (R310) -/
  | portCfgWrite (rq : Requester) (p : Nat) (v : Word)
  /-- `CODEWORD_UNCORRECTABLE` (R315) -/
  | codewordUncorrectable (p seq : Nat)
  /-- `RETRY_REQUEST` (R315) -/
  | retryRequest (p seq : Nat)
  /-- `ACK_TIMER` (R315) -/
  | ackTimer (p : Nat)
  /-- `CELL_ACK` (R315) -/
  | cellAck (p seq : Nat)
  /-- `CREDIT_RETURN` (R316) -/
  | creditReturn (p q : Nat)
  /-- `FRAME_RECEIVE` (R317) -/
  | frameReceive (p : Nat) (h : FrameHdr) (payload : List Byte)
  /-- `FRAME_TAG_FAIL` (R318) -/
  | frameTagFail (p : Nat) (h : FrameHdr)
  /-- `REKEY_START` (R319) -/
  | rekeyStart (p : Nat)
  /-- `REKEY_FRAME` (R319) -/
  | rekeyFrame (p epoch : Nat) (answer : Bool)
  /-- `HIST_SEL_WRITE` (R324) -/
  | histSelWrite (rq : Requester) (v : Word)
  /-- `GATE_SWAP_REQUEST` (R325) -/
  | gateSwapRequest (rq : Requester) (p : Nat) (v : Word)
  /-- `GATE_SWAP` (R325) -/
  | gateSwap (p : Nat)
  /-- `CTX_INSTALL` (R330) -/
  | ctxInstall (rq : Requester) (v : Word)
  /-- `CTX_RETIRE` (R336) -/
  | ctxRetire (rq : Requester) (v : Word)
  /-- `CTX_RETIRE_DISCARD` (R336) -/
  | ctxRetireDiscard (rq : Requester) (v : Word)
  /-- `CONTEXT_SWEEP` (R336) -/
  | contextSweep (n : Nat)
  /-- `OWNER_KEY_WRITE` (R332) -/
  | ownerKeyWrite (rq : Requester) (v : Word)
  /-- `JOBKEY_LOAD` (R339) -/
  | jobkeyLoad (rq : Requester) (v : Word)
  /-- `FW_FLOOR_COMMIT` (R343) -/
  | fwFloorCommit (rq : Requester) (v : Word)
  /-- `KEY_FLOOR_COMMIT` (R343) -/
  | keyFloorCommit (rq : Requester) (v : Word)
  /-- `CTX_FLOOR_WRITE` (R344) -/
  | ctxFloorWrite (rq : Requester) (n : Nat) (v : Word)
  /-- `SINIL_BIND` (R332) -/
  | sinilBind (port conn : Nat) (tgt : BindTo) (sig : List Byte)
  /-- `GET_VERSION` (R345) -/
  | getVersion (t : SpdmPath)
  /-- `GET_CAPABILITIES` (R345) -/
  | getCapabilities (t : SpdmPath) (minor : Nat)
  /-- `NEGOTIATE_ALGORITHMS` (R345) -/
  | negotiateAlgorithms (t : SpdmPath) (extAsym hash dhe aead : Bool)
  /-- `GET_DIGESTS` (R345) -/
  | getDigests (t : SpdmPath)
  /-- `GET_CERTIFICATE` (R345) -/
  | getCertificate (t : SpdmPath) (slot offset len : Nat)
  /-- `CHALLENGE` (R345) -/
  | challenge (t : SpdmPath) (slot : Nat) (nonce : List Byte)
  /-- `GET_MEASUREMENTS` (R346) -/
  | getMeasurements (t : SpdmPath) (index : Nat) (signed : Bool)
  /-- `KEY_EXCHANGE` (R345) -/
  | keyExchange (t : SpdmPath) (reqId : Nat)
  /-- `FINISH` (R345) -/
  | finish (t : SpdmPath) (sid : Nat) (ok : Bool)
  /-- `KEY_UPDATE` (R345) -/
  | keyUpdate (t : SpdmPath) (sid op : Nat)
  /-- `HEARTBEAT` (R345) -/
  | heartbeat (t : SpdmPath) (sid : Nat)
  /-- `END_SESSION` (R345) -/
  | endSession (t : SpdmPath) (sid : Nat)
  /-- `IDE_KM` (R347) -/
  | ideKm (t : SpdmPath) (sid head stream : Nat) (selective : Bool) (tdi : Option Nat)
  /-- `IDE_INTEGRITY_FAIL` (R347) -/
  | ideIntegrityFail (head stream : Nat)
  /-- `LOCK_INTERFACE_REQUEST` (R348) -/
  | lockInterfaceRequest (n : Nat)
  /-- `START_INTERFACE_REQUEST` (R348) -/
  | startInterfaceRequest (n : Nat)
  /-- `STOP_INTERFACE_REQUEST` (R348) -/
  | stopInterfaceRequest (n : Nat)
  /-- `VSUP_WARNING` (R363) -/
  | vsupWarning (rackFault : Bool)
  /-- `VSUP_POWER_FAIL` (R364) -/
  | vsupPowerFail
  /-- `VSUP_RECOVERY` (R362) -/
  | vsupRecovery
  /-- `VIN_RESET` (R390) -/
  | vinReset
  /-- `OVERVOLTAGE` (R354) -/
  | overvoltage
  /-- `FLUSH_DONE` (R362) -/
  | flushDone (tier1Us tier2Ms : Nat)
  /-- `TIER2_CUT` (R365) -/
  | tier2Cut (written : List Nat)
  /-- `RESUMING_DONE` (R367) -/
  | resumingDone
  /-- `PSU_POLL` (R368) -/
  | psuPoll (ans : Option PsuAnswer)
  /-- `BANK_MEASURE` (R356) -/
  | bankMeasure (currentCa tempC : Nat)
  /-- `BANK_TEST_WRITE` (R356) -/
  | bankTestWrite (rq : Requester) (v : Word)
  /-- `BANK_MEASURE_RETRY` (R356) -/
  | bankMeasureRetry (currentCa tempC : Nat)
  /-- `BUDGET_RECOMPUTE` (R358) -/
  | budgetRecompute (vbankCv : Nat)
  /-- `FREEZE_PIN` (R375) -/
  | freezePin (low : Bool)
  /-- `DBG_FREEZE` (R375) -/
  | dbgFreeze (rq : Requester) (v : Word)
  /-- `FRZ_CTRL_FREEZE` (R375) -/
  | frzCtrlFreeze
  /-- `FRZ_CTRL_RELEASE` (R377) -/
  | frzCtrlRelease (elapsedNs : Nat)
  /-- `FRZ_CTRL_SELECT` (R379) -/
  | frzCtrlSelect (v : Word)
  /-- `FRZ_CTRL_READOUT` (R381) -/
  | frzCtrlReadout
  /-- `FRZ_READ` (R381) -/
  | frzRead (n : Nat)
  /-- `EXTEST` (R378) -/
  | extest (tap : Nat)
  /-- `IDCODE` (R378) -/
  | idcode (tap : Nat)
  /-- `SAMPLE_PRELOAD` (R378) -/
  | samplePreload (tap : Nat)
  /-- `CLAMP` (R378) -/
  | clamp (tap : Nat)
  /-- `HIGHZ` (R378) -/
  | highz (tap : Nat)
  /-- `BYPASS` (R378) -/
  | bypass (tap code : Nat)
  /-- `REFERENCE_CHANGE` (R370) -/
  | referenceChange (lockA lockB : Bool)
  /-- `OFFSET_DISCIPLINE` (R371) -/
  | offsetDiscipline (off : Int)
  /-- `PPS_SECOND` (R372) -/
  | ppsSecond
  /-- `NODE_TIME_FRAME` (R372) -/
  | nodeTimeFrame (p : Nat)
  /-- `PTM_REQUEST` (R372) -/
  | ptmRequest
  /-- `DOMAIN_TIME_EXCHANGE` (R373) -/
  | domainTimeExchange (offset : Int)
  /-- `PTP_MESSAGE` (R374) -/
  | ptpMessage (port : Nat) (m : PtpMsg)
  /-- `POWER_ON_BRINGUP` (R383) -/
  | powerOnBringup (romPass pufOk : List Nat)
  /-- `FIRMWARE_FETCH` (R384) -/
  | firmwareFetch (img : Option FwImage)
  /-- `BOOT_SOURCE_SILENCE` (R384) -/
  | bootSourceSilence
  /-- `SINIL_BOOT_RETRY` (R384) -/
  | sinilBootRetry
  /-- `MAP_REPLAY` (R387) -/
  | mapReplay (lost : Bool)
  /-- `SELF_TEST` (R389) -/
  | selfTest (failed : List FailedUnit)
  /-- `SERVICE_OPEN` (R383) -/
  | serviceOpen
  /-- `RESET_PIN` (R390) -/
  | resetPin
  /-- `GLB_RESET_MODULE` (R390) -/
  | glbResetModule (rq : Requester) (v : Word)
  /-- `GLB_RESET_HUB` (R393) -/
  | glbResetHub (rq : Requester) (v : Word)
  /-- `GLB_RESET_CLEAR_REPAIR` (R394) -/
  | glbResetClearRepair (rq : Requester) (v : Word)
  /-- `HUB_RETURN` (R393) -/
  | hubReturn (h : Nat) (romOk seedOk : Bool) (failed : List FailedUnit)
  /-- `FW_ACTIVATE` (R391) -/
  | fwActivate (rq : Requester) (v : Word) (img : FwImage)
  /-- `LIVE_RESTART_PAUSE` (R391) -/
  | liveRestartPause
  /-- `EVENT_NOTICE` (R408) -/
  | eventNotice (b : Nat)
  /-- `TIM_NOW_READ` (R409) -/
  | timNowRead (rq : Requester) (frac : Nat)
  /-- `KVA_ENG_ERR_READ` (R117) -/
  | kvaEngErrRead (rq : Requester) (m : Nat)
  /-- `FLS_CH_ERR_READ` (R252) -/
  | flsChErrRead (rq : Requester) (ch : Nat)
  /-- `STM_STALL_MAX_READ` (R269) -/
  | stmStallMaxRead (rq : Requester)
  /-- `NMC_RECALL_MAX_READ` (R288) -/
  | nmcRecallMaxRead (rq : Requester)
  /-- `LNK_PORT_ERR_READ` (R328) -/
  | lnkPortErrRead (rq : Requester) (p : Nat)
  /-- `PWR_DIRTY_MAX_READ` (R382) -/
  | pwrDirtyMaxRead (rq : Requester)
  /-- `GLB_ACCESS_ERR_READ` (R403) -/
  | glbAccessErrRead (rq : Requester)
  /-- `DBG_TRACE_DROPPED_READ` (R410) -/
  | dbgTraceDroppedRead (rq : Requester)
  /-- `TLR_EVT_WRITE` (R399) -/
  | tlrEvtWrite (rq : Requester) (v : Word)
  /-- `SSN_EVT_WRITE` (R399) -/
  | ssnEvtWrite (rq : Requester) (v : Word)
  /-- `KVA_EVT_WRITE` (R399) -/
  | kvaEvtWrite (rq : Requester) (v : Word)
  /-- `SCH_EVT_WRITE` (R399) -/
  | schEvtWrite (rq : Requester) (v : Word)
  /-- `TXT_EVT_WRITE` (R399) -/
  | txtEvtWrite (rq : Requester) (v : Word)
  /-- `VSR_EVT_WRITE` (R399) -/
  | vsrEvtWrite (rq : Requester) (v : Word)
  /-- `FLS_EVT_WRITE` (R399) -/
  | flsEvtWrite (rq : Requester) (v : Word)
  /-- `STM_EVT_WRITE` (R399) -/
  | stmEvtWrite (rq : Requester) (v : Word)
  /-- `NMC_EVT_WRITE` (R399) -/
  | nmcEvtWrite (rq : Requester) (v : Word)
  /-- `DFB_EVT_WRITE` (R399) -/
  | dfbEvtWrite (rq : Requester) (v : Word)
  /-- `LNK_EVT_WRITE` (R399) -/
  | lnkEvtWrite (rq : Requester) (v : Word)
  /-- `SEC_EVT_WRITE` (R399) -/
  | secEvtWrite (rq : Requester) (v : Word)
  /-- `PWR_EVT_WRITE` (R399) -/
  | pwrEvtWrite (rq : Requester) (v : Word)
  /-- `GLB_EVT_WRITE` (R399) -/
  | glbEvtWrite (rq : Requester) (v : Word)
  /-- `TIM_EVT_WRITE` (R399) -/
  | timEvtWrite (rq : Requester) (v : Word)
  /-- `DBG_EVT_WRITE` (R399) -/
  | dbgEvtWrite (rq : Requester) (v : Word)
  /-- `REGISTER_WRITE` (R400) -/
  | registerWrite (rq : Requester) (acc : RegAcc)
  /-- `UNDEFINED_ENCODING` (R198) -/
  | undefinedEncoding (c : Nat)
  /-- `THERMAL_RESET_RELEASE` (R18) -/
  | thermalResetRelease (tC : List Nat)
  /-- `CELL_RECEIVE` (R315) -/
  | cellReceive (p : Nat) (ctl : CellCtl)
  /-- `CREDIT_RETURN_ARRIVAL` (R316) -/
  | creditReturnArrival (p q n : Nat)
  /-- `CELL_BOUNDARY_SERVICE` (R322) -/
  | cellBoundaryService (p : Nat)
  /-- `QUEUE_DEPTH_SAMPLE` (R324) -/
  | queueDepthSample
  /-- `TIME_ERROR_LIMIT` (R372) -/
  | timeErrorLimit (errNs : Nat)
  /-- `BANK_MEASUREMENT_END` (R356) -/
  | bankMeasurementEnd (cMf esr tempC : Nat)
  /-- `HOST_HEAD_RETRAINED` (R286) -/
  | hostHeadRetrained (head : Nat)
  /-- `INGRESS_HOLD_RELEASE` (R283) -/
  | ingressHoldRelease (a : Nat)
  /-- `ANNOUNCE_INTERVAL` (R374) -/
  | announceInterval (port : Nat)
  /-- `MOVE_COPY_ARRIVAL` (R72) -/
  | moveCopyArrival (src : Nat) (ident : Word) (copy : SsnCopy)
  /-- `T4_ROOM_REQUEST` (R306) -/
  | t4RoomRequest (peer pages : Nat)
  /-- `T4_PIECE_STORE` (R306) -/
  | t4PieceStore (peer : Nat) (ident : Word) (pages : List (List Byte))
  /-- `T4_FETCH` (R72) -/
  | t4Fetch (peer : Nat) (ident : Word)
  /-- `T4_REVOCATION_NOTICE` (R306) -/
  | t4RevocationNotice (peer order : Nat)
  /-- `COUNTERFOIL_SLOT_REQUEST` (R254) -/
  | counterfoilSlotRequest (peer : Nat) (tag : Word) (rank slotBytes : Nat)
  /-- `SESSION_COUNTERFOIL_PAGE` (R64) -/
  | sessionCounterfoilPage (peer : Nat) (ident : Word) (kv : Bool) (layer page : Nat) (data : List Byte)
  /-- `COUNTERFOIL_FETCH` (R268) -/
  | counterfoilFetch (peer : Nat) (tag : Word) (rank slot : Nat)
  /-- `MEMBER_NOTICE_ARRIVAL` (R264) -/
  | memberNoticeArrival (tag : Word) (rank step controller : Nat) (desc : List Byte) (shards : List (Nat × Nat × Bool × List Byte))
  /-- `VOTE_REQUEST` (R290) -/
  | voteRequest (candidate logLen : Nat)
  /-- `LOG_ENTRY_APPEND` (R290) -/
  | logEntryAppend (leader epoch : Nat) (c : MapChange)
  /-- `HEARTBEAT_ANSWER` (R291) -/
  | heartbeatAnswer (m : Nat)
  deriving DecidableEq, Repr

end Sys2Proof
end

