-- ==== Sys2Proof/Decode.lean ====
section
/-! DEFINITION. The command a word of spec/opcode_table.json spells. The table gives its rows no bits: a command of this block comes from outside,
as a register access, a message, a pin or an event, and not as an encoded word. (The Keagon words of R198 are read in Machine/Operands.lean.) -/

namespace Sys2Proof

/-- The command that `nbits` bits of value `w` spell: none of them spells one, for no row of the table has bits (log 92). -/
def decodeTableWord (_nbits _w : Nat) : Option Instr := none

end Sys2Proof
end

