-- ==== Sys2Proof/Machine/Mem.lean ====
section
/-! DEFINITION. Memory as a canonical list of cells, and little-endian numbers over bytes. Every memory the spec gives the
controller (hub SRAM, context-private granules, clerk stacks, the node shared window, domain backing, KV frames and blob
areas) is one range of keys of one list; a key no cell lists reads as zero (DESIGN CHOICE, log 4). -/

namespace Sys2Proof.Machine

/-- The byte at key `a`. -/
def memRead : List Host.Cell → Nat → Byte
  | [], _ => 0
  | (x, v) :: rest, a => if x = a then v else memRead rest a

/-- Memory after byte `b` is written at key `a`; the canonical form is kept. -/
def memWrite : List Host.Cell → Nat → Byte → List Host.Cell
  | [], a, b => if b = 0 then [] else [(a, b)]
  | (x, v) :: rest, a, b =>
    if a < x then (if b = 0 then (x, v) :: rest else (a, b) :: (x, v) :: rest)
    else if a = x then (if b = 0 then rest else (a, b) :: rest)
    else (x, v) :: memWrite rest a b

/-- The canonical form: keys strictly rising, and no cell equal to what an unlisted key reads as. -/
def Memory.wf : List Host.Cell → Bool
  | [] => true
  | [(_, v)] => decide (v ≠ 0)
  | (x, v) :: (y, w) :: rest => decide (v ≠ 0) && decide (x < y) && Memory.wf ((y, w) :: rest)

/-- `n` bytes from key `a` upward. -/
def readBytes (m : List Host.Cell) (a : Nat) : Nat → List Byte
  | 0 => []
  | n + 1 => memRead m a :: readBytes m (a + 1) n

/-- Memory after `bs` is written from key `a` upward. -/
def writeBytes : List Host.Cell → Nat → List Byte → List Host.Cell
  | m, _, [] => m
  | m, a, b :: bs => writeBytes (memWrite m a b) (a + 1) bs

/-- Memory with keys `lo` to `hi - 1` zero. -/
def memZero (m : List Host.Cell) (lo hi : Nat) : List Host.Cell :=
  m.filter (fun p => !(decide (lo ≤ p.1) && decide (p.1 < hi)))

/-- The little-endian number in `bs`. -/
def leNat : List Byte → Nat
  | [] => 0
  | b :: bs => b.toNat + 256 * leNat bs

/-- `n` little-endian bytes of `v`. -/
def natLe : Nat → Nat → List Byte
  | 0, _ => []
  | n + 1, v => BitVec.ofNat 8 v :: natLe n (v / 256)

/-- `n` bytes of a list from offset `o`, zero past its end. -/
def takeAt (bs : List Byte) (o n : Nat) : List Byte :=
  let t := (bs.drop o).take n
  t ++ List.replicate (n - t.length) 0

/-- The little-endian number in `n` bytes at offset `o` of a list. -/
def leAt (bs : List Byte) (o n : Nat) : Nat := leNat ((bs.drop o).take n)

/-- Bits `lo + w - 1` down to `lo` of a number. -/
def bits (v lo w : Nat) : Nat := v / 2 ^ lo % 2 ^ w

/-- Bit `i` of a number. -/
def bit (v i : Nat) : Bool := decide (v / 2 ^ i % 2 = 1)

/-- A number as a truth value's number. -/
def b2n (b : Bool) : Nat := if b then 1 else 0

/-- Hub-SRAM keys: the 48-bit hub-SRAM addresses of the registers. -/
def keyHub (a : Nat) : Nat := a % 2 ^ 48
/-- Context-private keys (R41, R424): context and private offset. -/
def keyPriv (ctx off : Nat) : Nat := 2 ^ 56 + (ctx % 64) * 2 ^ 46 + off % 2 ^ 46
/-- Clerk-stack keys: offset within the stack window of R41. -/
def keyStack (off : Nat) : Nat := 2 ^ 57 + off % 2 ^ 28
/-- Node shared window keys (R270). -/
def keyNode (off : Nat) : Nat := 2 ^ 58 + off % 2 ^ 46
/-- Keys of domain bytes this controller holds as home (R293). -/
def keyDom (off : Nat) : Nat := 2 ^ 59 + off % 2 ^ 46
/-- Keys of domain bytes this controller holds as mirror or parity holder (R297). -/
def keyDomCopy (off : Nat) : Nat := 2 ^ 60 + off % 2 ^ 46
/-- Keys of a stack's KV frames (R68): stack, frame and byte. -/
def keyKv (stack frame off : Nat) : Nat := 2 ^ 61 + (stack % 32) * 2 ^ 36 + (frame % 2 ^ 20) * 2 ^ 16 + off % 2 ^ 16
/-- Keys of a session's blob area (R63): session index and offset. -/
def keyBlob (sess off : Nat) : Nat := 2 ^ 62 + (sess % 2 ^ 24) * 2 ^ 23 + off % 2 ^ 23

end Sys2Proof.Machine
end

