-- ==== Sys2Proof/Machine/Num.lean ====
section
/-! DEFINITION. FP32 and BF16 numbers (IEEE 754, round to nearest even): exact values as scaled integers, and add, multiply, divide, square
root and comparison. -/

namespace Sys2Proof.Machine

/-- An FP32 number's bits. -/
abbrev F32 := BitVec 32

/-- Sign. -/
def fSign (x : F32) : Bool := x.getLsbD 31
/-- Biased exponent. -/
def fExp (x : F32) : Nat := bits x.toNat 23 8
/-- Fraction. -/
def fFrac (x : F32) : Nat := bits x.toNat 0 23
/-- NaN. -/
def fIsNaN (x : F32) : Bool := decide (fExp x = 255) && decide (fFrac x ≠ 0)
/-- An infinity. -/
def fIsInf (x : F32) : Bool := decide (fExp x = 255) && decide (fFrac x = 0)
/-- A finite number. -/
def fFinite (x : F32) : Bool := decide (fExp x ≠ 255)
/-- Zero of either sign. -/
def fIsZero (x : F32) : Bool := decide (x.toNat % 2 ^ 31 = 0)
/-- The default NaN. -/
def fNaN : F32 := 0x7FC00000
/-- An infinity of a sign. -/
def fInf (neg : Bool) : F32 := if neg then 0xFF800000 else 0x7F800000
/-- A zero of a sign. -/
def fZero (neg : Bool) : F32 := if neg then 0x80000000 else 0
/-- The number with its sign turned. -/
def fNeg (x : F32) : F32 := x ^^^ 0x80000000
/-- One. -/
def fOne : F32 := 0x3F800000

/-- The magnitude of a finite number is `fMant x * 2 ^ (fScale x) / 2 ^ 149`. -/
def fMant (x : F32) : Nat := if fExp x = 0 then fFrac x else 2 ^ 23 + fFrac x
/-- See `fMant`. -/
def fScale (x : F32) : Nat := if fExp x = 0 then 0 else fExp x - 1

/-- A finite number's value times 2^149, exactly. -/
def fInt (x : F32) : Int :=
  let m : Int := (fMant x * 2 ^ fScale x : Nat)
  if fSign x then -m else m

/-- Bits of a positive number. -/
def bitLen (n : Nat) : Nat := if n = 0 then 0 else Nat.log2 n + 1

/-- Round `m / 2 ^ k`, with `sticky` for a remainder below it, to nearest even. -/
def rne (m k : Nat) (sticky : Bool) : Nat :=
  let q := m / 2 ^ k
  let r := m % 2 ^ k
  let half := 2 ^ k / 2
  if k = 0 then q
  else if half < r || (r = half && (sticky || q % 2 = 1)) then q + 1 else q

/-- The FP32 number nearest to ± `m * 2 ^ p / 2 ^ d` (d at least 149), with `sticky` for a remainder below the last bit of `m`. -/
def fRound (neg : Bool) (m p d : Nat) (sticky : Bool) : F32 :=
  if m = 0 && !sticky then fZero neg
  else
    let m' := (m * 2 ^ (p + 30) * 2) + (if sticky then 1 else 0)
    let d' := d + 31
    -- value = m' / 2 ^ d'; the unit of the result is 2 ^ (e - 149) with e at least 0
    let e := bitLen m' - (24 + (d' - 149))
    let q := rne m' (d' - 149 + e) false
    let q' := if q = 2 ^ 24 then 2 ^ 23 else q
    let e' := if q = 2 ^ 24 then e + 1 else e
    let body := if q' < 2 ^ 23 then q' else (e' + 1) * 2 ^ 23 + (q' - 2 ^ 23)
    if 255 * 2 ^ 23 ≤ body then fInf neg else BitVec.ofNat 32 (body + if neg then 2 ^ 31 else 0)

/-- The FP32 number nearest to `v / 2 ^ d`. -/
def fOfInt (v : Int) (d : Nat) : F32 := fRound (decide (v < 0)) v.natAbs 0 d false

/-- x + y. -/
def fAdd (x y : F32) : F32 :=
  if fIsNaN x || fIsNaN y then fNaN
  else if fIsInf x then (if fIsInf y && (fSign x != fSign y) then fNaN else x)
  else if fIsInf y then y
  else
    let v := fInt x + fInt y
    if v = 0 then fZero (fSign x && fSign y) else fOfInt v 149

/-- x − y. -/
def fSub (x y : F32) : F32 := fAdd x (fNeg y)

/-- x × y. -/
def fMul (x y : F32) : F32 :=
  let neg := fSign x != fSign y
  if fIsNaN x || fIsNaN y then fNaN
  else if fIsInf x then (if fIsZero y then fNaN else fInf neg)
  else if fIsInf y then (if fIsZero x then fNaN else fInf neg)
  else fRound neg (fMant x * fMant y) (fScale x + fScale y) 298 false

/-- x ÷ y. -/
def fDiv (x y : F32) : F32 :=
  let neg := fSign x != fSign y
  if fIsNaN x || fIsNaN y then fNaN
  else if fIsInf x then (if fIsInf y then fNaN else fInf neg)
  else if fIsInf y then fZero neg
  else if fIsZero y then (if fIsZero x then fNaN else fInf neg)
  else
    let a := fMant x * 2 ^ fScale x * 2 ^ 330
    let b := fMant y * 2 ^ fScale y
    fRound neg (a / b) 0 330 (decide (a % b ≠ 0))

/-- ⌊√n⌋, bit by bit. -/
def isqrt : Nat → Nat → Nat → Nat
  | 0, _, r => r
  | k + 1, n, r => if (r + 2 ^ k) * (r + 2 ^ k) ≤ n then isqrt k n (r + 2 ^ k) else isqrt k n r

/-- The FP32 number nearest to the square root of `n / 2 ^ (2 d)`. -/
def fSqrtOf (n d : Nat) : F32 :=
  let m := n * 2 ^ 400
  let r := isqrt (bitLen m / 2 + 1) m 0
  fRound false r 0 (d + 200) (decide (r * r ≠ m))

/-- √x of a number that is not negative. -/
def fSqrt (x : F32) : F32 :=
  if fIsNaN x || (fSign x && !(fIsZero x)) then fNaN else if fIsInf x || fIsZero x then x
  else fSqrtOf (fMant x * 2 ^ fScale x * 2 ^ 149) 149

/-- x < y; false for a NaN. -/
def fLt (x y : F32) : Bool :=
  if fIsNaN x || fIsNaN y then false
  else
    let k := fun (z : F32) => if fSign z then -((z.toNat % 2 ^ 31 : Nat) : Int) else ((z.toNat % 2 ^ 31 : Nat) : Int)
    decide (k x < k y)

/-- x ≤ y; false for a NaN. -/
def fLe (x y : F32) : Bool := !(fIsNaN x) && !(fIsNaN y) && !(fLt y x)

/-- A natural number in FP32. -/
def fOfNat (n : Nat) : F32 := fRound false (n * 2 ^ 149) 0 149 false

/-- A BF16 number widened. -/
def fOfBf16 (b : BitVec 16) : F32 := b ++ (0 : BitVec 16)

/-- The BF16 number nearest to x, to nearest even. -/
def bf16Of (x : F32) : BitVec 16 :=
  if fIsNaN x then 0x7FC0
  else
    let n := x.toNat
    BitVec.ofNat 16 ((n + 0x7FFF + n / 2 ^ 16 % 2) / 2 ^ 16)

/-- A signed byte in FP32. -/
def fOfI8 (b : Byte) : F32 := fOfInt (b.toInt * (2 ^ 149 : Nat)) 149

/-- FP32 numbers from little-endian bytes. -/
def f32At (bs : List Byte) (i : Nat) : F32 := BitVec.ofNat 32 (leAt bs (4 * i) 4)

/-- Little-endian bytes of an FP32 number. -/
def f32Le (x : F32) : List Byte := natLe 4 x.toNat

/-- The sum of products of two lists in element order. -/
def fDot : List F32 → List F32 → F32 → F32
  | a :: as_, b :: bs, acc => fDot as_ bs (fAdd acc (fMul a b))
  | _, _, acc => acc

/-- The sum of squared differences in element order. -/
def fDist : List F32 → List F32 → F32 → F32
  | a :: as_, b :: bs, acc => let d := fSub a b; fDist as_ bs (fAdd acc (fMul d d))
  | _, _, acc => acc

/-- ‖x‖ in FP32: the nearest number to the exact norm (DEDUCED, log 29). -/
def fNorm (xs : List F32) : F32 := fSqrtOf ((xs.map (fun x => (fInt x).natAbs * (fInt x).natAbs)).sum) 149

end Sys2Proof.Machine
end

