-- ==== Sys2Proof/Config.lean ====
section
/-! DEFINITION. What the spec leaves open (free values: constants without a body) and the standard functions it names without
giving their bits (FIPS 202, FIPS 203, FIPS 204, SP 800-208, SP 800-90A, IEEE 1619, FP32 transcendentals). Nothing in the
model or in a proof can see a value of any of them. -/

namespace Sys2Proof.Config

/-- The free choices the spec leaves to the hardware, one per tick of the free-value counter (log 3). -/
opaque freeNat : Nat → Nat

/-- A free 64-bit value, by free-value counter (log 3). -/
opaque freeWord : Nat → Word

/-- Free bytes, by free-value counter and position (log 3). -/
opaque freeByte : Nat → Nat → Byte

/-- The bytes of the SHAKE256 output stream of FIPS 202 (log 10). -/
opaque shakeByte : List Byte → Nat → Byte
/-- SHAKE256 with an output of the given number of bytes. -/
def shake256 (m : List Byte) (n : Nat) : List Byte := (List.range n).map (shakeByte m)

/-- The bytes of a signature of ML-DSA-65 (FIPS 204) that verifies: public key, message, the signer's 256 random bits, position (log 10). -/
opaque mlDsaByte : List Byte → List Byte → Nat → Nat → Byte
/-- Such a signature, 3,309 bytes (Table 2-8). -/
def mlDsa65Sign (key msg : List Byte) (rnd : Nat) : List Byte := (List.range 3309).map (mlDsaByte key msg rnd)
/-- ML-DSA-65 verification: key, message, signature. A signature verifies when it is one that signing can give (log 10). -/
def mlDsa65Verify (key msg sig : List Byte) : Bool := decide (∃ rnd, rnd < 2 ^ 256 ∧ mlDsa65Sign key msg rnd = sig)

/-- The bytes of what ML-KEM-1024 (FIPS 203) decapsulates under the transport key (R339, log 10). -/
opaque kemByte : List Byte → Nat → Byte
/-- Decapsulation of ML-KEM-1024: a shared secret of 32 bytes. -/
def kemDecap (ct : List Byte) : List Byte := (List.range 32).map (kemByte ct)

/-- The exponential in FP32: the spec names exp and does not give its rounding (R99, R164, log 10). -/
opaque expF : BitVec 32 → BitVec 32

/-- cos(π × h ÷ B) in FP32, by B and h: the spec names cos and does not give its rounding (R177, log 10). -/
opaque cosF : Nat → Nat → BitVec 32

/-- The bytes of SHA3-384 of FIPS 202 (R346, log 10). -/
opaque sha3Byte : List Byte → Nat → Byte
/-- SHA3-384, 48 bytes. -/
def sha3 (m : List Byte) : List Byte := (List.range 48).map (sha3Byte m)

/-- The certificate chain of slot 0 (R345) and the boot ROM's four key digests (R343), which the spec does not list. -/
opaque certChain : List Byte
/-- The boot ROM's version and four key digests (R343, R346). -/
opaque romBlock : List Byte

/-- SHAKE256 of the device's identity public key (Table 15-8), by byte; the key is the device's own (log 10). -/
opaque deviceByte : Nat → Byte
/-- The 32 bytes of that digest. -/
def deviceDigest : List Byte := (List.range 32).map deviceByte

/-- The directory set of a line, which the spec does not state (R278, log 15). -/
opaque dirSet : Nat → Nat

/-- The hub-SRAM address of each hub's kept run completion record, which the spec does not state (R50, log 45). -/
opaque runRecAddr : Nat → Nat

/-- SHAPE_PART and the shape digest (Table 10-4, R263): SHAKE256 over fields whose byte widths the spec does not state (log 50). -/
opaque shapePartByte : List (Nat × Nat × Bool) → Nat → Byte
/-- A SHAPE_PART, 32 bytes. -/
def shapePart (l : List (Nat × Nat × Bool)) : List Byte := (List.range 32).map (shapePartByte l)
/-- The shape digest over MEMBERS, REPLICAS and every SHAPE_PART in rank order, by byte (log 50). -/
opaque shapeDigestByte : Nat → Nat → List (List Byte) → Nat → Byte
/-- A shape digest, 32 bytes. -/
def shapeDigest (members replicas : Nat) (parts : List (List Byte)) : List Byte :=
  (List.range 32).map (shapeDigestByte members replicas parts)
/-- The controller of a job's surviving member of lowest rank, by JOB_TAG and epoch (Table 10-7), which a member learns outside (log 51). -/
opaque lowestRankAt : Word → Nat → Nat

/-- Bytes of a log entry of the domain map in the Till, which the spec does not state (R290, log 22). -/
opaque mapEntryBytes : Nat

/-- The boot ROM's version (Table 14-13), which the spec does not state. -/
opaque romVersion : Nat

/-- The stack DRAM offset of the directory (`SSN_DIR_BASE`), which the spec does not state. -/
opaque dirBase : Nat

end Sys2Proof.Config
end

