-- ==== Sys2Proof/Machine/LinkTables.lean ====
section
/-! DEFINITION. Default shaping of the egress queues (Table 13-8) as `LNK_Q_SHAPE` holds it (Table 13-14). -/

namespace Sys2Proof.Machine

/-- An `LNK_Q_SHAPE` word from RATE (thousandths of C), BURST_KIB, QUANTUM (64 bytes) and RXBUF_KIB. -/
def shapeWord (rate burst quantum rxbuf : Nat) : Word :=
  BitVec.ofNat 64 (rate + burst * 2 ^ 16 + quantum * 2 ^ 32 + rxbuf * 2 ^ 48)

/-- RXBUF of each queue, KiB (Table 13-8), for a port index of R309. -/
def rxbufDefault (p : Nat) : Nat := if p < 8 then 256 else if p < 20 then 512 else 64

/-- The default of queue `q` of port `p` (Table 13-8). BURST of an unshaped queue and QUANTUM of a strict one, which the table
does not give, are 0 (DESIGN CHOICE, log 7). -/
def queueShapeReset (p q : Nat) : Word :=
  let rx := rxbufDefault p
  match q with
  | 0 => if p < 8 then shapeWord 50 16 0 rx else shapeWord 100 16 0 rx
  | 1 => if p < 8 then shapeWord 750 64 0 rx else if p < 20 then shapeWord 200 64 0 rx else shapeWord 100 16 0 rx
  | 2 => if p < 20 then shapeWord 100 64 0 rx else shapeWord 600 64 0 rx
  | 3 => shapeWord 0 0 256 rx
  | _ => shapeWord 0 0 128 rx

end Sys2Proof.Machine
end

