-- ==== Sys2Proof/Machine/RegName.lean ====
section
/-! DEFINITION. The register map: every register of the register tables (R402, Tables 2-14, 3-15, 4-13, 5-12, 6-17, 7-9,
9-8, 10-9, 11-11, 12-14, 13-11, 14-9, 15-11, 17-3, 17-7 and 17-9), its block, its offset, its instances, its access type,
the bits a write can change (R397) and its value at reset; the fields of the registers and the event bits. -/

namespace Sys2Proof.Machine

/-- Access types of the register tables (Scope, Numbers and notation). -/
inductive RegAccess
  | ro | rw | w1c | rc | wo
  deriving DecidableEq, Repr

/-- Every register of the register window (R402). -/
inductive Reg
  | tlrIsaVer  -- `TLR_ISA_VER` (R57, Table 2-14)
  | tlrImgLoad  -- `TLR_IMG_LOAD` (R57, Table 2-14)
  | tlrImgStatus  -- `TLR_IMG_STATUS` (R57, Table 2-14)
  | tlrImgUnload  -- `TLR_IMG_UNLOAD` (R57, Table 2-14)
  | tlrRunStart  -- `TLR_RUN_START` (R57, Table 2-14)
  | tlrRunStatus  -- `TLR_RUN_STATUS` (R57, Table 2-14)
  | tlrRunCancel  -- `TLR_RUN_CANCEL` (R57, Table 2-14)
  | tlrRcptLost  -- `TLR_RCPT_LOST` (R57, Table 2-14)
  | tlrEvt  -- `TLR_EVT` (R57, Table 2-14)
  | tlrRunHub  -- `TLR_RUN_HUB` (R57, Table 2-14)
  | tlrImgSlot  -- `TLR_IMG_SLOT` (R57, Table 2-14)
  | tlrClkState  -- `TLR_CLK_STATE` (R57, Table 2-14)
  | tlrClkRcptIss  -- `TLR_CLK_RCPT_ISS` (R57, Table 2-14)
  | tlrClkRcptCon  -- `TLR_CLK_RCPT_CON` (R57, Table 2-14)
  | tlrClkOrphan  -- `TLR_CLK_ORPHAN` (R57, Table 2-14)
  | tlrClkTrap  -- `TLR_CLK_TRAP` (R57, Table 2-14)
  | tlrClkTrapAddr  -- `TLR_CLK_TRAP_ADDR` (R57, Table 2-14)
  | ssnParkCfg  -- `SSN_PARK_CFG` (R86, Table 3-15)
  | ssnReviveCfg  -- `SSN_REVIVE_CFG` (R86, Table 3-15)
  | ssnPlaceCfg  -- `SSN_PLACE_CFG` (R86, Table 3-15)
  | ssnKvPool  -- `SSN_KV_POOL` (R86, Table 3-15)
  | ssnPrefillRate  -- `SSN_PREFILL_RATE` (R86, Table 3-15)
  | ssnCfoilCfg  -- `SSN_CFOIL_CFG` (R86, Table 3-15)
  | ssnPhase  -- `SSN_PHASE` (R86, Table 3-15)
  | ssnPhaseStatus  -- `SSN_PHASE_STATUS` (R86, Table 3-15)
  | ssnEvt  -- `SSN_EVT` (R86, Table 3-15)
  | ssnSessKnown  -- `SSN_SESS_KNOWN` (R86, Table 3-15)
  | ssnSessActive  -- `SSN_SESS_ACTIVE` (R86, Table 3-15)
  | ssnSessPbOnly  -- `SSN_SESS_PB_ONLY` (R86, Table 3-15)
  | ssnDirBase  -- `SSN_DIR_BASE` (R86, Table 3-15)
  | ssnPgTotal  -- `SSN_PG_TOTAL` (R86, Table 3-15)
  | ssnPgFree  -- `SSN_PG_FREE` (R86, Table 3-15)
  | ssnPgAlloc  -- `SSN_PG_ALLOC` (R86, Table 3-15)
  | ssnPgTransit  -- `SSN_PG_TRANSIT` (R86, Table 3-15)
  | kvaEngStatus  -- `KVA_ENG_STATUS` (R117, Table 4-13)
  | kvaEngBytes  -- `KVA_ENG_BYTES` (R117, Table 4-13)
  | kvaEngFlop  -- `KVA_ENG_FLOP` (R117, Table 4-13)
  | kvaEngDesc  -- `KVA_ENG_DESC` (R117, Table 4-13)
  | kvaEngErr  -- `KVA_ENG_ERR` (R117, Table 4-13)
  | kvaEngErrAddr  -- `KVA_ENG_ERR_ADDR` (R117, Table 4-13)
  | kvaCfg  -- `KVA_CFG` (R117, Table 4-13)
  | kvaEvt  -- `KVA_EVT` (R117, Table 4-13)
  | kvaAttnDone  -- `KVA_ATTN_DONE` (R117, Table 4-13)
  | kvaAttnPartial  -- `KVA_ATTN_PARTIAL` (R117, Table 4-13)
  | kvaRebuild  -- `KVA_REBUILD` (R117, Table 4-13)
  | kvaDigestLate  -- `KVA_DIGEST_LATE` (R117, Table 4-13)
  | schStepCfg  -- `SCH_STEP_CFG` (R145, Table 5-12)
  | schPlanCfg  -- `SCH_PLAN_CFG` (R145, Table 5-12)
  | schRoleCfg  -- `SCH_ROLE_CFG` (R145, Table 5-12)
  | schGoalCfg  -- `SCH_GOAL_CFG` (R145, Table 5-12)
  | schAdmitCfg  -- `SCH_ADMIT_CFG` (R145, Table 5-12)
  | schRampCfg  -- `SCH_RAMP_CFG` (R145, Table 5-12)
  | schModelReg  -- `SCH_MODEL_REG` (R145, Table 5-12)
  | schModelStatus  -- `SCH_MODEL_STATUS` (R145, Table 5-12)
  | schModelUnreg  -- `SCH_MODEL_UNREG` (R145, Table 5-12)
  | schEvt  -- `SCH_EVT` (R145, Table 5-12)
  | schStepsDone  -- `SCH_STEPS_DONE` (R145, Table 5-12)
  | schQueue  -- `SCH_QUEUE` (R145, Table 5-12)
  | schPhaseMap  -- `SCH_PHASE_MAP` (R145, Table 5-12)
  | schCustSel  -- `SCH_CUST_SEL` (R145, Table 5-12)
  | schGroupCfg  -- `SCH_GROUP_CFG` (R145, Table 5-12)
  | schGroupTime  -- `SCH_GROUP_TIME` (R145, Table 5-12)
  | schGroupPower  -- `SCH_GROUP_POWER` (R145, Table 5-12)
  | schGroupStatus  -- `SCH_GROUP_STATUS` (R145, Table 5-12)
  | schCtxReport  -- `SCH_CTX_REPORT` (R145, Table 5-12)
  | schCustData  -- `SCH_CUST_DATA` (R145, Table 5-12)
  | txtCfg  -- `TXT_CFG` (R174, Table 6-17)
  | txtTblLoad  -- `TXT_TBL_LOAD` (R174, Table 6-17)
  | txtTblStatus  -- `TXT_TBL_STATUS` (R174, Table 6-17)
  | txtTblUnload  -- `TXT_TBL_UNLOAD` (R174, Table 6-17)
  | txtEvt  -- `TXT_EVT` (R174, Table 6-17)
  | txtMintBytes  -- `TXT_MINT_BYTES` (R174, Table 6-17)
  | txtMintInvalid  -- `TXT_MINT_INVALID` (R174, Table 6-17)
  | txtMintTrunc  -- `TXT_MINT_TRUNC` (R174, Table 6-17)
  | txtSampled  -- `TXT_SAMPLED` (R174, Table 6-17)
  | txtClrDead  -- `TXT_CLR_DEAD` (R174, Table 6-17)
  | txtStopFinish  -- `TXT_STOP_FINISH` (R174, Table 6-17)
  | txtNanLogit  -- `TXT_NAN_LOGIT` (R174, Table 6-17)
  | txtVocabSlot  -- `TXT_VOCAB_SLOT` (R174, Table 6-17)
  | txtGramSlot  -- `TXT_GRAM_SLOT` (R174, Table 6-17)
  | txtArea  -- `TXT_AREA` (R174, Table 6-17)
  | vsrCfg  -- `VSR_CFG` (R197, Table 7-9)
  | vsrCollCreate  -- `VSR_COLL_CREATE` (R197, Table 7-9)
  | vsrCollStatus  -- `VSR_COLL_STATUS` (R197, Table 7-9)
  | vsrCollDrop  -- `VSR_COLL_DROP` (R197, Table 7-9)
  | vsrEvt  -- `VSR_EVT` (R197, Table 7-9)
  | vsrVectors  -- `VSR_VECTORS` (R197, Table 7-9)
  | vsrSearches  -- `VSR_SEARCHES` (R197, Table 7-9)
  | vsrPartial  -- `VSR_PARTIAL` (R197, Table 7-9)
  | vsrDegraded  -- `VSR_DEGRADED` (R197, Table 7-9)
  | vsrSketchRebuild  -- `VSR_SKETCH_REBUILD` (R197, Table 7-9)
  | vsrCollId  -- `VSR_COLL_ID` (R197, Table 7-9)
  | flsCfg  -- `FLS_CFG` (R252, Table 9-8)
  | flsGcCfg  -- `FLS_GC_CFG` (R252, Table 9-8)
  | flsRefreshCfg  -- `FLS_REFRESH_CFG` (R252, Table 9-8)
  | flsPoolStatus  -- `FLS_POOL_STATUS` (R252, Table 9-8)
  | flsAdv0  -- `FLS_ADV0` (R252, Table 9-8)
  | flsAdv  -- `FLS_ADV` (R252, Table 9-8)
  | flsMapped  -- `FLS_MAPPED` (R252, Table 9-8)
  | flsSbA  -- `FLS_SB_A` (R252, Table 9-8)
  | flsSbB  -- `FLS_SB_B` (R252, Table 9-8)
  | flsSbTotal  -- `FLS_SB_TOTAL` (R252, Table 9-8)
  | flsEvt  -- `FLS_EVT` (R252, Table 9-8)
  | flsSdisc  -- `FLS_SDISC` (R252, Table 9-8)
  | flsSdiscStatus  -- `FLS_SDISC_STATUS` (R252, Table 9-8)
  | flsRebuild  -- `FLS_REBUILD` (R252, Table 9-8)
  | flsLost  -- `FLS_LOST` (R252, Table 9-8)
  | flsWrIn  -- `FLS_WR_IN` (R252, Table 9-8)
  | flsWrNand  -- `FLS_WR_NAND` (R252, Table 9-8)
  | flsDurableLeft  -- `FLS_DURABLE_LEFT` (R252, Table 9-8)
  | flsChStatus  -- `FLS_CH_STATUS` (R252, Table 9-8)
  | flsChParam  -- `FLS_CH_PARAM` (R252, Table 9-8)
  | flsChTime  -- `FLS_CH_TIME` (R252, Table 9-8)
  | flsChTime2  -- `FLS_CH_TIME2` (R252, Table 9-8)
  | flsChErr  -- `FLS_CH_ERR` (R252, Table 9-8)
  | flsChBytesRd  -- `FLS_CH_BYTES_RD` (R252, Table 9-8)
  | flsChBytesWr  -- `FLS_CH_BYTES_WR` (R252, Table 9-8)
  | flsChReserve  -- `FLS_CH_RESERVE` (R252, Table 9-8)
  | stmCfg  -- `STM_CFG` (R269, Table 10-9)
  | stmJobCreate  -- `STM_JOB_CREATE` (R269, Table 10-9)
  | stmJobStatus  -- `STM_JOB_STATUS` (R269, Table 10-9)
  | stmJobDelete  -- `STM_JOB_DELETE` (R269, Table 10-9)
  | stmRestore  -- `STM_RESTORE` (R269, Table 10-9)
  | stmRestoreStatus  -- `STM_RESTORE_STATUS` (R269, Table 10-9)
  | stmEvt  -- `STM_EVT` (R269, Table 10-9)
  | stmStalls  -- `STM_STALLS` (R269, Table 10-9)
  | stmStallMax  -- `STM_STALL_MAX` (R269, Table 10-9)
  | stmJobId  -- `STM_JOB_ID` (R269, Table 10-9)
  | stmJobStep  -- `STM_JOB_STEP` (R269, Table 10-9)
  | stmJobFlash  -- `STM_JOB_FLASH` (R269, Table 10-9)
  | stmJobPages  -- `STM_JOB_PAGES` (R269, Table 10-9)
  | stmJobPeer  -- `STM_JOB_PEER` (R269, Table 10-9)
  | stmJobState  -- `STM_JOB_STATE` (R269, Table 10-9)
  | nmcCfg  -- `NMC_CFG` (R288, Table 11-11)
  | nmcWindow  -- `NMC_WINDOW` (R288, Table 11-11)
  | nmcRegionCreate  -- `NMC_REGION_CREATE` (R288, Table 11-11)
  | nmcRegionStatus  -- `NMC_REGION_STATUS` (R288, Table 11-11)
  | nmcRegionDelete  -- `NMC_REGION_DELETE` (R288, Table 11-11)
  | nmcEvt  -- `NMC_EVT` (R288, Table 11-11)
  | nmcDirUsed  -- `NMC_DIR_USED` (R288, Table 11-11)
  | nmcPoisoned  -- `NMC_POISONED` (R288, Table 11-11)
  | nmcRecalls  -- `NMC_RECALLS` (R288, Table 11-11)
  | nmcRecallMax  -- `NMC_RECALL_MAX` (R288, Table 11-11)
  | nmcRegionTemp  -- `NMC_REGION_TEMP` (R288, Table 11-11)
  | nmcAgentCfg  -- `NMC_AGENT_CFG` (R288, Table 11-11)
  | nmcAgentBw  -- `NMC_AGENT_BW` (R288, Table 11-11)
  | nmcAgentStatus  -- `NMC_AGENT_STATUS` (R288, Table 11-11)
  | nmcAgentBytes  -- `NMC_AGENT_BYTES` (R288, Table 11-11)
  | nmcRegionId  -- `NMC_REGION_ID` (R288, Table 11-11)
  | nmcRegionBase  -- `NMC_REGION_BASE` (R288, Table 11-11)
  | dfbCfg  -- `DFB_CFG` (R308, Table 12-14)
  | dfbMapCfg  -- `DFB_MAP_CFG` (R308, Table 12-14)
  | dfbGrantCfg  -- `DFB_GRANT_CFG` (R308, Table 12-14)
  | dfbStatus  -- `DFB_STATUS` (R308, Table 12-14)
  | dfbEpoch  -- `DFB_EPOCH` (R308, Table 12-14)
  | dfbMembers  -- `DFB_MEMBERS` (R308, Table 12-14)
  | dfbJoin  -- `DFB_JOIN` (R308, Table 12-14)
  | dfbLeave  -- `DFB_LEAVE` (R308, Table 12-14)
  | dfbRegionCreate  -- `DFB_REGION_CREATE` (R308, Table 12-14)
  | dfbRegionStatus  -- `DFB_REGION_STATUS` (R308, Table 12-14)
  | dfbRegionDelete  -- `DFB_REGION_DELETE` (R308, Table 12-14)
  | dfbEvt  -- `DFB_EVT` (R308, Table 12-14)
  | dfbEscOwned  -- `DFB_ESC_OWNED` (R308, Table 12-14)
  | dfbForwarded  -- `DFB_FORWARDED` (R308, Table 12-14)
  | dfbMoved  -- `DFB_MOVED` (R308, Table 12-14)
  | dfbResent  -- `DFB_RESENT` (R308, Table 12-14)
  | dfbShareUsed  -- `DFB_SHARE_USED` (R308, Table 12-14)
  | dfbT4  -- `DFB_T4` (R308, Table 12-14)
  | dfbBuckets  -- `DFB_BUCKETS` (R308, Table 12-14)
  | dfbRegionId  -- `DFB_REGION_ID` (R308, Table 12-14)
  | lnkCfg  -- `LNK_CFG` (R328, Table 13-11)
  | lnkEvt  -- `LNK_EVT` (R328, Table 13-11)
  | lnkClassMap  -- `LNK_CLASS_MAP` (R328, Table 13-11)
  | lnkHistSel  -- `LNK_HIST_SEL` (R328, Table 13-11)
  | lnkHistData  -- `LNK_HIST_DATA` (R328, Table 13-11)
  | lnkPolice  -- `LNK_POLICE` (R328, Table 13-11)
  | lnkPortCfg  -- `LNK_PORT_CFG` (R328, Table 13-11)
  | lnkPortStatus  -- `LNK_PORT_STATUS` (R328, Table 13-11)
  | lnkPortKey  -- `LNK_PORT_KEY` (R328, Table 13-11)
  | lnkPortCounter  -- `LNK_PORT_COUNTER` (R328, Table 13-11)
  | lnkPortErr  -- `LNK_PORT_ERR` (R328, Table 13-11)
  | lnkPortRetry  -- `LNK_PORT_RETRY` (R328, Table 13-11)
  | lnkGateCfg  -- `LNK_GATE_CFG` (R328, Table 13-11)
  | lnkGateBase  -- `LNK_GATE_BASE` (R328, Table 13-11)
  | lnkGateStatus  -- `LNK_GATE_STATUS` (R328, Table 13-11)
  | lnkGateEnt  -- `LNK_GATE_ENT` (R328, Table 13-11)
  | lnkQShape  -- `LNK_Q_SHAPE` (R328, Table 13-11)
  | lnkQIss  -- `LNK_Q_ISS` (R328, Table 13-11)
  | lnkQRet  -- `LNK_Q_RET` (R328, Table 13-11)
  | lnkQRxuse  -- `LNK_Q_RXUSE` (R328, Table 13-11)
  | lnkQDepth  -- `LNK_Q_DEPTH` (R328, Table 13-11)
  | lnkQCredit  -- `LNK_Q_CREDIT` (R328, Table 13-11)
  | secStatus  -- `SEC_STATUS` (R352, Table 14-9)
  | secOwner  -- `SEC_OWNER` (R352, Table 14-9)
  | secCtxInstall  -- `SEC_CTX_INSTALL` (R352, Table 14-9)
  | secCtxStatus  -- `SEC_CTX_STATUS` (R352, Table 14-9)
  | secCtxRetire  -- `SEC_CTX_RETIRE` (R352, Table 14-9)
  | secJobkey  -- `SEC_JOBKEY` (R352, Table 14-9)
  | secQuietCfg  -- `SEC_QUIET_CFG` (R352, Table 14-9)
  | secXmssNext  -- `SEC_XMSS_NEXT` (R352, Table 14-9)
  | secXmssRes  -- `SEC_XMSS_RES` (R352, Table 14-9)
  | secFw  -- `SEC_FW` (R352, Table 14-9)
  | secFwCommit  -- `SEC_FW_COMMIT` (R352, Table 14-9)
  | secEvt  -- `SEC_EVT` (R352, Table 14-9)
  | secSweeps  -- `SEC_SWEEPS` (R352, Table 14-9)
  | secPeerAnchor  -- `SEC_PEER_ANCHOR` (R352, Table 14-9)
  | secCtxTenant  -- `SEC_CTX_TENANT` (R352, Table 14-9)
  | secCtxState  -- `SEC_CTX_STATE` (R352, Table 14-9)
  | secCtxQuiet  -- `SEC_CTX_QUIET` (R352, Table 14-9)
  | secCtxFloor  -- `SEC_CTX_FLOOR` (R352, Table 14-9)
  | secCtxJobkeys  -- `SEC_CTX_JOBKEYS` (R352, Table 14-9)
  | pwrStatus  -- `PWR_STATUS` (R382, Table 15-11)
  | pwrVolts  -- `PWR_VOLTS` (R382, Table 15-11)
  | pwrInput  -- `PWR_INPUT` (R382, Table 15-11)
  | pwrChgCfg  -- `PWR_CHG_CFG` (R382, Table 15-11)
  | pwrHoldCfg  -- `PWR_HOLD_CFG` (R382, Table 15-11)
  | pwrBank  -- `PWR_BANK` (R382, Table 15-11)
  | pwrBankLimit  -- `PWR_BANK_LIMIT` (R382, Table 15-11)
  | pwrBudget  -- `PWR_BUDGET` (R382, Table 15-11)
  | pwrDirty  -- `PWR_DIRTY` (R382, Table 15-11)
  | pwrDirtyMax  -- `PWR_DIRTY_MAX` (R382, Table 15-11)
  | pwrFlushLast  -- `PWR_FLUSH_LAST` (R382, Table 15-11)
  | pwrPmbusCfg  -- `PWR_PMBUS_CFG` (R382, Table 15-11)
  | pwrPsu  -- `PWR_PSU` (R382, Table 15-11)
  | pwrTest  -- `PWR_TEST` (R382, Table 15-11)
  | pwrEvt  -- `PWR_EVT` (R382, Table 15-11)
  | glbIdent  -- `GLB_IDENT` (R403, Table 17-3)
  | glbVersion  -- `GLB_VERSION` (R403, Table 17-3)
  | glbStatus  -- `GLB_STATUS` (R403, Table 17-3)
  | glbCore  -- `GLB_CORE` (R403, Table 17-3)
  | glbBootStatus  -- `GLB_BOOT_STATUS` (R403, Table 17-3)
  | glbRecovery  -- `GLB_RECOVERY` (R403, Table 17-3)
  | glbReset  -- `GLB_RESET` (R403, Table 17-3)
  | glbFwActivate  -- `GLB_FW_ACTIVATE` (R403, Table 17-3)
  | glbEvt  -- `GLB_EVT` (R403, Table 17-3)
  | glbEvtSummary  -- `GLB_EVT_SUMMARY` (R403, Table 17-3)
  | glbEvtCfg  -- `GLB_EVT_CFG` (R403, Table 17-3)
  | glbAccessErr  -- `GLB_ACCESS_ERR` (R403, Table 17-3)
  | glbEvtMask  -- `GLB_EVT_MASK` (R403, Table 17-3)
  | glbPace  -- `GLB_PACE` (R403, Table 17-3)
  | glbPaceMin  -- `GLB_PACE_MIN` (R403, Table 17-3)
  | timStatus  -- `TIM_STATUS` (R409, Table 17-7)
  | timNow  -- `TIM_NOW` (R409, Table 17-7)
  | timNowFrac  -- `TIM_NOW_FRAC` (R409, Table 17-7)
  | timRun  -- `TIM_RUN` (R409, Table 17-7)
  | timCfg  -- `TIM_CFG` (R409, Table 17-7)
  | timOffset  -- `TIM_OFFSET` (R409, Table 17-7)
  | timPtpCfg  -- `TIM_PTP_CFG` (R409, Table 17-7)
  | timPtpStatus  -- `TIM_PTP_STATUS` (R409, Table 17-7)
  | timEvt  -- `TIM_EVT` (R409, Table 17-7)
  | dbgFreeze  -- `DBG_FREEZE` (R410, Table 17-9)
  | dbgFrzStatus  -- `DBG_FRZ_STATUS` (R410, Table 17-9)
  | dbgReadoutCfg  -- `DBG_READOUT_CFG` (R410, Table 17-9)
  | dbgTraceCfg  -- `DBG_TRACE_CFG` (R410, Table 17-9)
  | dbgTraceDropped  -- `DBG_TRACE_DROPPED` (R410, Table 17-9)
  | dbgEvt  -- `DBG_EVT` (R410, Table 17-9)
  deriving DecidableEq, Repr

/-- Where a register lies (R402) and how it is written (R395 to R399): instance `i` of the first index and `j` of the
second lies at block offset `base + i * stride1 + j * stride2`. -/
structure RegSpec where
  block   : Nat
  base    : Nat
  count1  : Nat
  stride1 : Nat
  count2  : Nat
  stride2 : Nat
  access  : RegAccess
  /-- the bits a write can change: reserved fields ignore writes (R397) -/
  mask    : Nat
  /-- the value at reset -/
  reset   : Nat
  deriving DecidableEq, Repr

/-- The row of a register in its register table. A reset of `set at bring-up` stands as 0 until the bring-up steps write
it (DESIGN CHOICE, log 6). -/
def Reg.spec : Reg → RegSpec
  | .tlrIsaVer => ⟨14, 0x0, 1, 0x0, 1, 0x0, .ro, 0x0, 0x2070300⟩
  | .tlrImgLoad => ⟨14, 0x8, 1, 0x0, 1, 0x0, .wo, 0x0, 0x0⟩
  | .tlrImgStatus => ⟨14, 0x10, 1, 0x0, 1, 0x0, .ro, 0x0, 0x0⟩
  | .tlrImgUnload => ⟨14, 0x18, 1, 0x0, 1, 0x0, .wo, 0x0, 0x0⟩
  | .tlrRunStart => ⟨14, 0x20, 1, 0x0, 1, 0x0, .wo, 0x0, 0x0⟩
  | .tlrRunStatus => ⟨14, 0x28, 1, 0x0, 1, 0x0, .ro, 0x0, 0x0⟩
  | .tlrRunCancel => ⟨14, 0x30, 1, 0x0, 1, 0x0, .wo, 0x0, 0x0⟩
  | .tlrRcptLost => ⟨14, 0x38, 1, 0x0, 1, 0x0, .ro, 0x0, 0x0⟩
  | .tlrEvt => ⟨14, 0x40, 1, 0x0, 1, 0x0, .w1c, 0x7F, 0x0⟩
  | .tlrRunHub => ⟨14, 0x80, 4, 0x8, 1, 0x0, .ro, 0x0, 0x0⟩
  | .tlrImgSlot => ⟨14, 0x100, 64, 0x8, 1, 0x0, .ro, 0x0, 0x0⟩
  | .tlrClkState => ⟨14, 0x100000, 4096, 0x100, 1, 0x0, .ro, 0x0, 0x0⟩
  | .tlrClkRcptIss => ⟨14, 0x100008, 4096, 0x100, 1, 0x0, .ro, 0x0, 0x0⟩
  | .tlrClkRcptCon => ⟨14, 0x100010, 4096, 0x100, 1, 0x0, .ro, 0x0, 0x0⟩
  | .tlrClkOrphan => ⟨14, 0x100018, 4096, 0x100, 1, 0x0, .ro, 0x0, 0x0⟩
  | .tlrClkTrap => ⟨14, 0x100020, 4096, 0x100, 1, 0x0, .ro, 0x0, 0x0⟩
  | .tlrClkTrapAddr => ⟨14, 0x100028, 4096, 0x100, 1, 0x0, .ro, 0x0, 0x0⟩
  | .ssnParkCfg => ⟨4, 0x0, 1, 0x0, 1, 0x0, .rw, 0xFFFFFFFF, 0x7D0⟩
  | .ssnReviveCfg => ⟨4, 0x8, 1, 0x0, 1, 0x0, .rw, 0xFFFFFF, 0x191064⟩
  | .ssnPlaceCfg => ⟨4, 0x10, 1, 0x0, 1, 0x0, .rw, 0xFFFFFFFFFFFFFFFF, 0xA195A5F25824040⟩
  | .ssnKvPool => ⟨4, 0x18, 1, 0x0, 1, 0x0, .rw, 0xFFFFFFFF, 0x280040⟩
  | .ssnPrefillRate => ⟨4, 0x20, 1, 0x0, 1, 0x0, .ro, 0x0, 0x0⟩
  | .ssnCfoilCfg => ⟨4, 0x28, 1, 0x0, 1, 0x0, .rw, 0x3F, 0x0⟩
  | .ssnPhase => ⟨4, 0x30, 1, 0x0, 1, 0x0, .wo, 0x0, 0x0⟩
  | .ssnPhaseStatus => ⟨4, 0x38, 1, 0x0, 1, 0x0, .ro, 0x0, 0x0⟩
  | .ssnEvt => ⟨4, 0x40, 1, 0x0, 1, 0x0, .w1c, 0x7F, 0x0⟩
  | .ssnSessKnown => ⟨4, 0x48, 1, 0x0, 1, 0x0, .ro, 0x0, 0x0⟩
  | .ssnSessActive => ⟨4, 0x50, 1, 0x0, 1, 0x0, .ro, 0x0, 0x0⟩
  | .ssnSessPbOnly => ⟨4, 0x58, 1, 0x0, 1, 0x0, .ro, 0x0, 0x0⟩
  | .ssnDirBase => ⟨4, 0x60, 1, 0x0, 1, 0x0, .ro, 0x0, 0x0⟩
  | .ssnPgTotal => ⟨4, 0x100, 24, 0x20, 1, 0x0, .ro, 0x0, 0x0⟩
  | .ssnPgFree => ⟨4, 0x108, 24, 0x20, 1, 0x0, .ro, 0x0, 0x0⟩
  | .ssnPgAlloc => ⟨4, 0x110, 24, 0x20, 1, 0x0, .ro, 0x0, 0x0⟩
  | .ssnPgTransit => ⟨4, 0x118, 24, 0x20, 1, 0x0, .ro, 0x0, 0x0⟩
  | .kvaEngStatus => ⟨5, 0x0, 24, 0x10000, 1, 0x0, .ro, 0x0, 0x2000⟩
  | .kvaEngBytes => ⟨5, 0x8, 24, 0x10000, 1, 0x0, .ro, 0x0, 0x0⟩
  | .kvaEngFlop => ⟨5, 0x10, 24, 0x10000, 1, 0x0, .ro, 0x0, 0x0⟩
  | .kvaEngDesc => ⟨5, 0x18, 24, 0x10000, 1, 0x0, .ro, 0x0, 0x0⟩
  | .kvaEngErr => ⟨5, 0x20, 24, 0x10000, 1, 0x0, .rc, 0x0, 0x0⟩
  | .kvaEngErrAddr => ⟨5, 0x28, 24, 0x10000, 1, 0x0, .ro, 0x0, 0x0⟩
  | .kvaCfg => ⟨5, 0x200000, 1, 0x0, 1, 0x0, .rw, 0x3FFF, 0x3800⟩
  | .kvaEvt => ⟨5, 0x200008, 1, 0x0, 1, 0x0, .w1c, 0x3F, 0x0⟩
  | .kvaAttnDone => ⟨5, 0x200010, 1, 0x0, 1, 0x0, .ro, 0x0, 0x0⟩
  | .kvaAttnPartial => ⟨5, 0x200018, 1, 0x0, 1, 0x0, .ro, 0x0, 0x0⟩
  | .kvaRebuild => ⟨5, 0x200020, 1, 0x0, 1, 0x0, .ro, 0x0, 0x0⟩
  | .kvaDigestLate => ⟨5, 0x200028, 1, 0x0, 1, 0x0, .ro, 0x0, 0x0⟩
  | .schStepCfg => ⟨6, 0x0, 1, 0x0, 1, 0x0, .rw, 0x1FFFFFFFFFF, 0x109C40061A8⟩
  | .schPlanCfg => ⟨6, 0x8, 1, 0x0, 1, 0x0, .rw, 0x1FFFFFFFFFFFFF, 0x10000198000100⟩
  | .schRoleCfg => ⟨6, 0x10, 1, 0x0, 1, 0x0, .rw, 0xFFFFFFFFF, 0x30A190032⟩
  | .schGoalCfg => ⟨6, 0x18, 1, 0x0, 1, 0x0, .rw, 0xFFFFFFFFFFFF, 0x6407D03250⟩
  | .schAdmitCfg => ⟨6, 0x20, 1, 0x0, 1, 0x0, .rw, 0xFFFFFFFFFFFF, 0x4E2100000200⟩
  | .schRampCfg => ⟨6, 0x28, 1, 0x0, 1, 0x0, .rw, 0x1FFFFFFFF, 0x103E800C8⟩
  | .schModelReg => ⟨6, 0x30, 1, 0x0, 1, 0x0, .wo, 0x0, 0x0⟩
  | .schModelStatus => ⟨6, 0x38, 1, 0x0, 1, 0x0, .ro, 0x0, 0x0⟩
  | .schModelUnreg => ⟨6, 0x40, 1, 0x0, 1, 0x0, .wo, 0x0, 0x0⟩
  | .schEvt => ⟨6, 0x48, 1, 0x0, 1, 0x0, .w1c, 0x3FF, 0x0⟩
  | .schStepsDone => ⟨6, 0x50, 1, 0x0, 1, 0x0, .ro, 0x0, 0x0⟩
  | .schQueue => ⟨6, 0x58, 1, 0x0, 1, 0x0, .ro, 0x0, 0x0⟩
  | .schPhaseMap => ⟨6, 0x60, 1, 0x0, 1, 0x0, .rw, 0xFFFFFFFFFFFFFFFF, 0x0⟩
  | .schCustSel => ⟨6, 0x68, 1, 0x0, 1, 0x0, .rw, 0xFFFF, 0x0⟩
  | .schGroupCfg => ⟨6, 0x100, 8, 0x40, 1, 0x0, .rw, 0xFFFFFFF, 0x0⟩
  | .schGroupTime => ⟨6, 0x108, 8, 0x40, 1, 0x0, .rw, 0xFFFFFFFFFFFFFFFF, 0x0⟩
  | .schGroupPower => ⟨6, 0x110, 8, 0x40, 1, 0x0, .rw, 0xFFFFFFFF, 0x0⟩
  | .schGroupStatus => ⟨6, 0x118, 8, 0x40, 1, 0x0, .ro, 0x0, 0x0⟩
  | .schCtxReport => ⟨6, 0x400, 64, 0x8, 1, 0x0, .rw, 0x3FFFFFFFF, 0x0⟩
  | .schCustData => ⟨6, 0x800, 16, 0x8, 1, 0x0, .rw, 0xFFFFFFFFFFFFFFFF, 0x0⟩
  | .txtCfg => ⟨7, 0x0, 1, 0x0, 1, 0x0, .rw, 0xFF, 0x1⟩
  | .txtTblLoad => ⟨7, 0x8, 1, 0x0, 1, 0x0, .wo, 0x0, 0x0⟩
  | .txtTblStatus => ⟨7, 0x10, 1, 0x0, 1, 0x0, .ro, 0x0, 0x0⟩
  | .txtTblUnload => ⟨7, 0x18, 1, 0x0, 1, 0x0, .wo, 0x0, 0x0⟩
  | .txtEvt => ⟨7, 0x20, 1, 0x0, 1, 0x0, .w1c, 0xFF, 0x0⟩
  | .txtMintBytes => ⟨7, 0x28, 1, 0x0, 1, 0x0, .ro, 0x0, 0x0⟩
  | .txtMintInvalid => ⟨7, 0x30, 1, 0x0, 1, 0x0, .ro, 0x0, 0x0⟩
  | .txtMintTrunc => ⟨7, 0x38, 1, 0x0, 1, 0x0, .ro, 0x0, 0x0⟩
  | .txtSampled => ⟨7, 0x40, 1, 0x0, 1, 0x0, .ro, 0x0, 0x0⟩
  | .txtClrDead => ⟨7, 0x48, 1, 0x0, 1, 0x0, .ro, 0x0, 0x0⟩
  | .txtStopFinish => ⟨7, 0x50, 1, 0x0, 1, 0x0, .ro, 0x0, 0x0⟩
  | .txtNanLogit => ⟨7, 0x58, 1, 0x0, 1, 0x0, .ro, 0x0, 0x0⟩
  | .txtVocabSlot => ⟨7, 0x100, 16, 0x8, 1, 0x0, .ro, 0x0, 0x0⟩
  | .txtGramSlot => ⟨7, 0x180, 16, 0x8, 1, 0x0, .ro, 0x0, 0x0⟩
  | .txtArea => ⟨7, 0x200, 4, 0x8, 1, 0x0, .ro, 0x0, 0x0⟩
  | .vsrCfg => ⟨8, 0x0, 1, 0x0, 1, 0x0, .rw, 0xFFFFFFFFFF01, 0x1000003200⟩
  | .vsrCollCreate => ⟨8, 0x8, 1, 0x0, 1, 0x0, .wo, 0x0, 0x0⟩
  | .vsrCollStatus => ⟨8, 0x10, 1, 0x0, 1, 0x0, .ro, 0x0, 0x0⟩
  | .vsrCollDrop => ⟨8, 0x18, 1, 0x0, 1, 0x0, .wo, 0x0, 0x0⟩
  | .vsrEvt => ⟨8, 0x20, 1, 0x0, 1, 0x0, .w1c, 0xFF, 0x0⟩
  | .vsrVectors => ⟨8, 0x28, 1, 0x0, 1, 0x0, .ro, 0x0, 0x0⟩
  | .vsrSearches => ⟨8, 0x30, 1, 0x0, 1, 0x0, .ro, 0x0, 0x0⟩
  | .vsrPartial => ⟨8, 0x38, 1, 0x0, 1, 0x0, .ro, 0x0, 0x0⟩
  | .vsrDegraded => ⟨8, 0x40, 1, 0x0, 1, 0x0, .ro, 0x0, 0x0⟩
  | .vsrSketchRebuild => ⟨8, 0x48, 1, 0x0, 1, 0x0, .ro, 0x0, 0x0⟩
  | .vsrCollId => ⟨8, 0x100, 1024, 0x8, 1, 0x0, .ro, 0x0, 0x0⟩
  | .flsCfg => ⟨9, 0x0, 1, 0x0, 1, 0x0, .rw, 0xFF01FFFFFFFF, 0x610104020704⟩
  | .flsGcCfg => ⟨9, 0x8, 1, 0x0, 1, 0x0, .rw, 0xFFFFFFFFFFFFFFFF, 0x1914324B19020514⟩
  | .flsRefreshCfg => ⟨9, 0x10, 1, 0x0, 1, 0x0, .rw, 0xFFFFFFFFFFF, 0x30703E80064⟩
  | .flsPoolStatus => ⟨9, 0x18, 1, 0x0, 1, 0x0, .ro, 0x0, 0x0⟩
  | .flsAdv0 => ⟨9, 0x20, 1, 0x0, 1, 0x0, .ro, 0x0, 0x0⟩
  | .flsAdv => ⟨9, 0x28, 1, 0x0, 1, 0x0, .ro, 0x0, 0x0⟩
  | .flsMapped => ⟨9, 0x30, 1, 0x0, 1, 0x0, .ro, 0x0, 0x0⟩
  | .flsSbA => ⟨9, 0x38, 1, 0x0, 1, 0x0, .ro, 0x0, 0x0⟩
  | .flsSbB => ⟨9, 0x40, 1, 0x0, 1, 0x0, .ro, 0x0, 0x0⟩
  | .flsSbTotal => ⟨9, 0x48, 1, 0x0, 1, 0x0, .ro, 0x0, 0x0⟩
  | .flsEvt => ⟨9, 0x50, 1, 0x0, 1, 0x0, .w1c, 0x1FF, 0x0⟩
  | .flsSdisc => ⟨9, 0x58, 1, 0x0, 1, 0x0, .wo, 0x0, 0x0⟩
  | .flsSdiscStatus => ⟨9, 0x60, 1, 0x0, 1, 0x0, .ro, 0x0, 0x0⟩
  | .flsRebuild => ⟨9, 0x68, 1, 0x0, 1, 0x0, .ro, 0x0, 0x0⟩
  | .flsLost => ⟨9, 0x70, 1, 0x0, 1, 0x0, .ro, 0x0, 0x0⟩
  | .flsWrIn => ⟨9, 0x78, 1, 0x0, 1, 0x0, .ro, 0x0, 0x0⟩
  | .flsWrNand => ⟨9, 0x80, 1, 0x0, 1, 0x0, .ro, 0x0, 0x0⟩
  | .flsDurableLeft => ⟨9, 0x88, 1, 0x0, 1, 0x0, .ro, 0x0, 0x0⟩
  | .flsChStatus => ⟨9, 0x100000, 32, 0x10000, 1, 0x0, .ro, 0x0, 0x0⟩
  | .flsChParam => ⟨9, 0x100008, 32, 0x10000, 1, 0x0, .ro, 0x0, 0x0⟩
  | .flsChTime => ⟨9, 0x100010, 32, 0x10000, 1, 0x0, .ro, 0x0, 0x0⟩
  | .flsChTime2 => ⟨9, 0x100018, 32, 0x10000, 1, 0x0, .ro, 0x0, 0x0⟩
  | .flsChErr => ⟨9, 0x100020, 32, 0x10000, 1, 0x0, .rc, 0x0, 0x0⟩
  | .flsChBytesRd => ⟨9, 0x100028, 32, 0x10000, 1, 0x0, .ro, 0x0, 0x0⟩
  | .flsChBytesWr => ⟨9, 0x100030, 32, 0x10000, 1, 0x0, .ro, 0x0, 0x0⟩
  | .flsChReserve => ⟨9, 0x100038, 32, 0x10000, 1, 0x0, .ro, 0x0, 0x0⟩
  | .stmCfg => ⟨13, 0x0, 1, 0x0, 1, 0x0, .rw, 0xFFFF, 0x190A⟩
  | .stmJobCreate => ⟨13, 0x8, 1, 0x0, 1, 0x0, .wo, 0x0, 0x0⟩
  | .stmJobStatus => ⟨13, 0x10, 1, 0x0, 1, 0x0, .ro, 0x0, 0x0⟩
  | .stmJobDelete => ⟨13, 0x18, 1, 0x0, 1, 0x0, .wo, 0x0, 0x0⟩
  | .stmRestore => ⟨13, 0x20, 1, 0x0, 1, 0x0, .wo, 0x0, 0x0⟩
  | .stmRestoreStatus => ⟨13, 0x28, 1, 0x0, 1, 0x0, .ro, 0x0, 0x0⟩
  | .stmEvt => ⟨13, 0x30, 1, 0x0, 1, 0x0, .w1c, 0x1FF, 0x0⟩
  | .stmStalls => ⟨13, 0x38, 1, 0x0, 1, 0x0, .ro, 0x0, 0x0⟩
  | .stmStallMax => ⟨13, 0x40, 1, 0x0, 1, 0x0, .rc, 0x0, 0x0⟩
  | .stmJobId => ⟨13, 0x100, 16, 0x40, 1, 0x0, .ro, 0x0, 0x0⟩
  | .stmJobStep => ⟨13, 0x108, 16, 0x40, 1, 0x0, .ro, 0x0, 0x0⟩
  | .stmJobFlash => ⟨13, 0x110, 16, 0x40, 1, 0x0, .ro, 0x0, 0x0⟩
  | .stmJobPages => ⟨13, 0x118, 16, 0x40, 1, 0x0, .ro, 0x0, 0x0⟩
  | .stmJobPeer => ⟨13, 0x120, 16, 0x40, 1, 0x0, .rw, 0x1F, 0x0⟩
  | .stmJobState => ⟨13, 0x128, 16, 0x40, 1, 0x0, .ro, 0x0, 0x0⟩
  | .nmcCfg => ⟨10, 0x0, 1, 0x0, 1, 0x0, .rw, 0x1FFFF, 0x1003C⟩
  | .nmcWindow => ⟨10, 0x8, 1, 0x0, 1, 0x0, .rw, 0x7FF, 0x20⟩
  | .nmcRegionCreate => ⟨10, 0x10, 1, 0x0, 1, 0x0, .wo, 0x0, 0x0⟩
  | .nmcRegionStatus => ⟨10, 0x18, 1, 0x0, 1, 0x0, .ro, 0x0, 0x0⟩
  | .nmcRegionDelete => ⟨10, 0x20, 1, 0x0, 1, 0x0, .wo, 0x0, 0x0⟩
  | .nmcEvt => ⟨10, 0x28, 1, 0x0, 1, 0x0, .w1c, 0x3F, 0x0⟩
  | .nmcDirUsed => ⟨10, 0x30, 1, 0x0, 1, 0x0, .ro, 0x0, 0x0⟩
  | .nmcPoisoned => ⟨10, 0x38, 1, 0x0, 1, 0x0, .ro, 0x0, 0x0⟩
  | .nmcRecalls => ⟨10, 0x40, 1, 0x0, 1, 0x0, .ro, 0x0, 0x0⟩
  | .nmcRecallMax => ⟨10, 0x48, 1, 0x0, 1, 0x0, .rc, 0x0, 0x0⟩
  | .nmcRegionTemp => ⟨10, 0x50, 1, 0x0, 1, 0x0, .wo, 0x0, 0x0⟩
  | .nmcAgentCfg => ⟨10, 0x100, 10, 0x20, 1, 0x0, .rw, 0xFFFFFFFFFFFF, 0x3E8000003E8⟩
  | .nmcAgentBw => ⟨10, 0x108, 10, 0x20, 1, 0x0, .rw, 0xFFFFFFFFFFFF, 0x40000000000⟩
  | .nmcAgentStatus => ⟨10, 0x110, 10, 0x20, 1, 0x0, .ro, 0x0, 0x0⟩
  | .nmcAgentBytes => ⟨10, 0x118, 10, 0x20, 1, 0x0, .ro, 0x0, 0x0⟩
  | .nmcRegionId => ⟨10, 0x10000, 4096, 0x10, 1, 0x0, .ro, 0x0, 0x0⟩
  | .nmcRegionBase => ⟨10, 0x10008, 4096, 0x10, 1, 0x0, .ro, 0x0, 0x0⟩
  | .dfbCfg => ⟨11, 0x0, 1, 0x0, 1, 0x0, .rw, 0xFFFFF, 0xC800⟩
  | .dfbMapCfg => ⟨11, 0x8, 1, 0x0, 1, 0x0, .rw, 0xFFFFFFFF07FFFFFF, 0x3E807D0050C0A08⟩
  | .dfbGrantCfg => ⟨11, 0x10, 1, 0x0, 1, 0x0, .rw, 0xFFFFFFFFFF, 0x5F03E8505A⟩
  | .dfbStatus => ⟨11, 0x18, 1, 0x0, 1, 0x0, .ro, 0x0, 0x0⟩
  | .dfbEpoch => ⟨11, 0x20, 1, 0x0, 1, 0x0, .ro, 0x0, 0x0⟩
  | .dfbMembers => ⟨11, 0x28, 1, 0x0, 1, 0x0, .ro, 0x0, 0x0⟩
  | .dfbJoin => ⟨11, 0x30, 1, 0x0, 1, 0x0, .wo, 0x0, 0x0⟩
  | .dfbLeave => ⟨11, 0x38, 1, 0x0, 1, 0x0, .wo, 0x0, 0x0⟩
  | .dfbRegionCreate => ⟨11, 0x40, 1, 0x0, 1, 0x0, .wo, 0x0, 0x0⟩
  | .dfbRegionStatus => ⟨11, 0x48, 1, 0x0, 1, 0x0, .ro, 0x0, 0x0⟩
  | .dfbRegionDelete => ⟨11, 0x50, 1, 0x0, 1, 0x0, .wo, 0x0, 0x0⟩
  | .dfbEvt => ⟨11, 0x58, 1, 0x0, 1, 0x0, .w1c, 0x3FF, 0x0⟩
  | .dfbEscOwned => ⟨11, 0x60, 1, 0x0, 1, 0x0, .ro, 0x0, 0x0⟩
  | .dfbForwarded => ⟨11, 0x68, 1, 0x0, 1, 0x0, .ro, 0x0, 0x0⟩
  | .dfbMoved => ⟨11, 0x70, 1, 0x0, 1, 0x0, .ro, 0x0, 0x0⟩
  | .dfbResent => ⟨11, 0x78, 1, 0x0, 1, 0x0, .ro, 0x0, 0x0⟩
  | .dfbShareUsed => ⟨11, 0x80, 1, 0x0, 1, 0x0, .ro, 0x0, 0x0⟩
  | .dfbT4 => ⟨11, 0x88, 1, 0x0, 1, 0x0, .ro, 0x0, 0x0⟩
  | .dfbBuckets => ⟨11, 0x90, 1, 0x0, 1, 0x0, .ro, 0x0, 0x0⟩
  | .dfbRegionId => ⟨11, 0x100, 16384, 0x8, 1, 0x0, .ro, 0x0, 0x0⟩
  | .lnkCfg => ⟨12, 0x0, 1, 0x0, 1, 0x0, .rw, 0xFFFFF, 0x30E10⟩
  | .lnkEvt => ⟨12, 0x8, 1, 0x0, 1, 0x0, .w1c, 0x1FF, 0x0⟩
  | .lnkClassMap => ⟨12, 0x10, 1, 0x0, 1, 0x0, .rw, 0xFFFFFFFFFF, 0xCBA9876543⟩
  | .lnkHistSel => ⟨12, 0x18, 1, 0x0, 1, 0x0, .rw, 0x1FFFFFFF, 0x0⟩
  | .lnkHistData => ⟨12, 0x100, 8, 0x8, 1, 0x0, .ro, 0x0, 0x0⟩
  | .lnkPolice => ⟨12, 0x200, 64, 0x8, 1, 0x0, .rw, 0xFFFFFFFF, 0x0⟩
  | .lnkPortCfg => ⟨12, 0x100000, 22, 0x10000, 1, 0x0, .rw, 0x3FF, 0x0⟩
  | .lnkPortStatus => ⟨12, 0x100008, 22, 0x10000, 1, 0x0, .ro, 0x0, 0x0⟩
  | .lnkPortKey => ⟨12, 0x100010, 22, 0x10000, 1, 0x0, .ro, 0x0, 0x0⟩
  | .lnkPortCounter => ⟨12, 0x100018, 22, 0x10000, 1, 0x0, .ro, 0x0, 0x0⟩
  | .lnkPortErr => ⟨12, 0x100020, 22, 0x10000, 1, 0x0, .rc, 0x0, 0x0⟩
  | .lnkPortRetry => ⟨12, 0x100028, 22, 0x10000, 1, 0x0, .ro, 0x0, 0x0⟩
  | .lnkGateCfg => ⟨12, 0x100030, 22, 0x10000, 1, 0x0, .rw, 0x3FF, 0x0⟩
  | .lnkGateBase => ⟨12, 0x100038, 22, 0x10000, 1, 0x0, .rw, 0xFFFFFFFFFFFFFFFF, 0x0⟩
  | .lnkGateStatus => ⟨12, 0x100040, 22, 0x10000, 1, 0x0, .ro, 0x0, 0x0⟩
  | .lnkGateEnt => ⟨12, 0x100800, 22, 0x10000, 256, 0x8, .rw, 0xFFFFFFFFF, 0x0⟩
  | .lnkQShape => ⟨12, 0x101000, 22, 0x10000, 16, 0x40, .rw, 0xFFFFFFFFFFFF03FF, 0x0⟩
  | .lnkQIss => ⟨12, 0x101008, 22, 0x10000, 16, 0x40, .ro, 0x0, 0x0⟩
  | .lnkQRet => ⟨12, 0x101010, 22, 0x10000, 16, 0x40, .ro, 0x0, 0x0⟩
  | .lnkQRxuse => ⟨12, 0x101018, 22, 0x10000, 16, 0x40, .ro, 0x0, 0x0⟩
  | .lnkQDepth => ⟨12, 0x101020, 22, 0x10000, 16, 0x40, .ro, 0x0, 0x0⟩
  | .lnkQCredit => ⟨12, 0x101028, 22, 0x10000, 16, 0x40, .ro, 0x0, 0x0⟩
  | .secStatus => ⟨3, 0x0, 1, 0x0, 1, 0x0, .ro, 0x0, 0x0⟩
  | .secOwner => ⟨3, 0x8, 1, 0x0, 1, 0x0, .wo, 0x0, 0x0⟩
  | .secCtxInstall => ⟨3, 0x10, 1, 0x0, 1, 0x0, .wo, 0x0, 0x0⟩
  | .secCtxStatus => ⟨3, 0x18, 1, 0x0, 1, 0x0, .ro, 0x0, 0x0⟩
  | .secCtxRetire => ⟨3, 0x20, 1, 0x0, 1, 0x0, .wo, 0x0, 0x0⟩
  | .secJobkey => ⟨3, 0x28, 1, 0x0, 1, 0x0, .wo, 0x0, 0x0⟩
  | .secQuietCfg => ⟨3, 0x30, 1, 0x0, 1, 0x0, .rw, 0xFFF1, 0x2BC1⟩
  | .secXmssNext => ⟨3, 0x38, 1, 0x0, 1, 0x0, .ro, 0x0, 0x0⟩
  | .secXmssRes => ⟨3, 0x40, 1, 0x0, 1, 0x0, .ro, 0x0, 0x0⟩
  | .secFw => ⟨3, 0x48, 1, 0x0, 1, 0x0, .ro, 0x0, 0x0⟩
  | .secFwCommit => ⟨3, 0x50, 1, 0x0, 1, 0x0, .wo, 0x0, 0x0⟩
  | .secEvt => ⟨3, 0x58, 1, 0x0, 1, 0x0, .w1c, 0x1FF, 0x0⟩
  | .secSweeps => ⟨3, 0x60, 1, 0x0, 1, 0x0, .ro, 0x0, 0x0⟩
  | .secPeerAnchor => ⟨3, 0x100, 22, 0x20, 4, 0x8, .rw, 0xFFFFFFFFFFFFFFFF, 0x0⟩
  | .secCtxTenant => ⟨3, 0x1000, 64, 0x40, 1, 0x0, .ro, 0x0, 0x0⟩
  | .secCtxState => ⟨3, 0x1008, 64, 0x40, 1, 0x0, .ro, 0x0, 0x0⟩
  | .secCtxQuiet => ⟨3, 0x1010, 64, 0x40, 1, 0x0, .ro, 0x0, 0x0⟩
  | .secCtxFloor => ⟨3, 0x1018, 64, 0x40, 1, 0x0, .rw, 0xFFFFFFFF, 0x0⟩
  | .secCtxJobkeys => ⟨3, 0x1020, 64, 0x40, 1, 0x0, .ro, 0x0, 0x0⟩
  | .pwrStatus => ⟨1, 0x0, 1, 0x0, 1, 0x0, .ro, 0x0, 0x0⟩
  | .pwrVolts => ⟨1, 0x8, 1, 0x0, 1, 0x0, .ro, 0x0, 0x0⟩
  | .pwrInput => ⟨1, 0x10, 1, 0x0, 1, 0x0, .ro, 0x0, 0x0⟩
  | .pwrChgCfg => ⟨1, 0x18, 1, 0x0, 1, 0x0, .rw, 0xFF01FFFFFFFF, 0x180100C81450⟩
  | .pwrHoldCfg => ⟨1, 0x20, 1, 0x0, 1, 0x0, .rw, 0xFFFF03FFFFFF, 0x9603500DAC⟩
  | .pwrBank => ⟨1, 0x28, 1, 0x0, 1, 0x0, .ro, 0x0, 0x0⟩
  | .pwrBankLimit => ⟨1, 0x30, 1, 0x0, 1, 0x0, .rw, 0xFFFFFFFFFFFF, 0x12C00003E80⟩
  | .pwrBudget => ⟨1, 0x38, 1, 0x0, 1, 0x0, .ro, 0x0, 0x0⟩
  | .pwrDirty => ⟨1, 0x40, 1, 0x0, 1, 0x0, .ro, 0x0, 0x0⟩
  | .pwrDirtyMax => ⟨1, 0x48, 1, 0x0, 1, 0x0, .rc, 0x0, 0x0⟩
  | .pwrFlushLast => ⟨1, 0x50, 1, 0x0, 1, 0x0, .ro, 0x0, 0x0⟩
  | .pwrPmbusCfg => ⟨1, 0x58, 1, 0x0, 1, 0x0, .rw, 0xFFFF, 0xA58⟩
  | .pwrPsu => ⟨1, 0x60, 1, 0x0, 1, 0x0, .ro, 0x0, 0x0⟩
  | .pwrTest => ⟨1, 0x68, 1, 0x0, 1, 0x0, .wo, 0x0, 0x0⟩
  | .pwrEvt => ⟨1, 0x70, 1, 0x0, 1, 0x0, .w1c, 0x1FFF, 0x0⟩
  | .glbIdent => ⟨0, 0x0, 1, 0x0, 1, 0x0, .ro, 0x0, 0x1482456B01004824⟩
  | .glbVersion => ⟨0, 0x8, 1, 0x0, 1, 0x0, .ro, 0x0, 0x30203000300⟩
  | .glbStatus => ⟨0, 0x10, 1, 0x0, 1, 0x0, .ro, 0x0, 0x0⟩
  | .glbCore => ⟨0, 0x18, 1, 0x0, 1, 0x0, .ro, 0x0, 0x0⟩
  | .glbBootStatus => ⟨0, 0x20, 1, 0x0, 1, 0x0, .ro, 0x0, 0x0⟩
  | .glbRecovery => ⟨0, 0x28, 1, 0x0, 1, 0x0, .ro, 0x0, 0x0⟩
  | .glbReset => ⟨0, 0x30, 1, 0x0, 1, 0x0, .wo, 0x0, 0x0⟩
  | .glbFwActivate => ⟨0, 0x38, 1, 0x0, 1, 0x0, .wo, 0x0, 0x0⟩
  | .glbEvt => ⟨0, 0x40, 1, 0x0, 1, 0x0, .w1c, 0x7F, 0x0⟩
  | .glbEvtSummary => ⟨0, 0x48, 1, 0x0, 1, 0x0, .ro, 0x0, 0x0⟩
  | .glbEvtCfg => ⟨0, 0x50, 1, 0x0, 1, 0x0, .rw, 0x7FFFFFFFFFFFF, 0x5000000001⟩
  | .glbAccessErr => ⟨0, 0x58, 1, 0x0, 1, 0x0, .rc, 0x0, 0x0⟩
  | .glbEvtMask => ⟨0, 0x80, 16, 0x8, 1, 0x0, .rw, 0xFFFFFFFFFFFFFFFF, 0x0⟩
  | .glbPace => ⟨0, 0x10000, 466, 0x10, 1, 0x0, .ro, 0x0, 0x0⟩
  | .glbPaceMin => ⟨0, 0x10008, 466, 0x10, 1, 0x0, .ro, 0x0, 0x0⟩
  | .timStatus => ⟨2, 0x0, 1, 0x0, 1, 0x0, .ro, 0x0, 0x0⟩
  | .timNow => ⟨2, 0x8, 1, 0x0, 1, 0x0, .ro, 0x0, 0x0⟩
  | .timNowFrac => ⟨2, 0x10, 1, 0x0, 1, 0x0, .ro, 0x0, 0x0⟩
  | .timRun => ⟨2, 0x18, 1, 0x0, 1, 0x0, .ro, 0x0, 0x0⟩
  | .timCfg => ⟨2, 0x20, 1, 0x0, 1, 0x0, .rw, 0x7FF, 0x645⟩
  | .timOffset => ⟨2, 0x28, 1, 0x0, 1, 0x0, .ro, 0x0, 0x0⟩
  | .timPtpCfg => ⟨2, 0x30, 1, 0x0, 1, 0x0, .rw, 0x3FFFFFF, 0x2020300⟩
  | .timPtpStatus => ⟨2, 0x38, 1, 0x0, 1, 0x0, .ro, 0x0, 0x0⟩
  | .timEvt => ⟨2, 0x40, 1, 0x0, 1, 0x0, .w1c, 0x3F, 0x0⟩
  | .dbgFreeze => ⟨15, 0x0, 1, 0x0, 1, 0x0, .wo, 0x0, 0x0⟩
  | .dbgFrzStatus => ⟨15, 0x8, 1, 0x0, 1, 0x0, .ro, 0x0, 0x0⟩
  | .dbgReadoutCfg => ⟨15, 0x10, 1, 0x0, 1, 0x0, .rw, 0x1FFFFFF, 0x0⟩
  | .dbgTraceCfg => ⟨15, 0x18, 1, 0x0, 1, 0x0, .rw, 0xFFFFFFFFFF, 0x0⟩
  | .dbgTraceDropped => ⟨15, 0x20, 1, 0x0, 1, 0x0, .rc, 0x0, 0x0⟩
  | .dbgEvt => ⟨15, 0x28, 1, 0x0, 1, 0x0, .w1c, 0x7, 0x0⟩

/-- The registers of block 0, in the order of their table. -/
def Reg.inBlock0 : List Reg :=
  [Reg.glbIdent, Reg.glbVersion, Reg.glbStatus, Reg.glbCore, Reg.glbBootStatus, Reg.glbRecovery, Reg.glbReset, Reg.glbFwActivate, Reg.glbEvt, Reg.glbEvtSummary, Reg.glbEvtCfg, Reg.glbAccessErr, Reg.glbEvtMask, Reg.glbPace, Reg.glbPaceMin]

/-- The registers of block 1, in the order of their table. -/
def Reg.inBlock1 : List Reg :=
  [Reg.pwrStatus, Reg.pwrVolts, Reg.pwrInput, Reg.pwrChgCfg, Reg.pwrHoldCfg, Reg.pwrBank, Reg.pwrBankLimit, Reg.pwrBudget, Reg.pwrDirty, Reg.pwrDirtyMax, Reg.pwrFlushLast, Reg.pwrPmbusCfg, Reg.pwrPsu, Reg.pwrTest, Reg.pwrEvt]

/-- The registers of block 2, in the order of their table. -/
def Reg.inBlock2 : List Reg :=
  [Reg.timStatus, Reg.timNow, Reg.timNowFrac, Reg.timRun, Reg.timCfg, Reg.timOffset, Reg.timPtpCfg, Reg.timPtpStatus, Reg.timEvt]

/-- The registers of block 3, in the order of their table. -/
def Reg.inBlock3 : List Reg :=
  [Reg.secStatus, Reg.secOwner, Reg.secCtxInstall, Reg.secCtxStatus, Reg.secCtxRetire, Reg.secJobkey, Reg.secQuietCfg, Reg.secXmssNext, Reg.secXmssRes, Reg.secFw, Reg.secFwCommit, Reg.secEvt, Reg.secSweeps, Reg.secPeerAnchor, Reg.secCtxTenant, Reg.secCtxState, Reg.secCtxQuiet, Reg.secCtxFloor, Reg.secCtxJobkeys]

/-- The registers of block 4, in the order of their table. -/
def Reg.inBlock4 : List Reg :=
  [Reg.ssnParkCfg, Reg.ssnReviveCfg, Reg.ssnPlaceCfg, Reg.ssnKvPool, Reg.ssnPrefillRate, Reg.ssnCfoilCfg, Reg.ssnPhase, Reg.ssnPhaseStatus, Reg.ssnEvt, Reg.ssnSessKnown, Reg.ssnSessActive, Reg.ssnSessPbOnly, Reg.ssnDirBase, Reg.ssnPgTotal, Reg.ssnPgFree, Reg.ssnPgAlloc, Reg.ssnPgTransit]

/-- The registers of block 5, in the order of their table. -/
def Reg.inBlock5 : List Reg :=
  [Reg.kvaEngStatus, Reg.kvaEngBytes, Reg.kvaEngFlop, Reg.kvaEngDesc, Reg.kvaEngErr, Reg.kvaEngErrAddr, Reg.kvaCfg, Reg.kvaEvt, Reg.kvaAttnDone, Reg.kvaAttnPartial, Reg.kvaRebuild, Reg.kvaDigestLate]

/-- The registers of block 6, in the order of their table. -/
def Reg.inBlock6 : List Reg :=
  [Reg.schStepCfg, Reg.schPlanCfg, Reg.schRoleCfg, Reg.schGoalCfg, Reg.schAdmitCfg, Reg.schRampCfg, Reg.schModelReg, Reg.schModelStatus, Reg.schModelUnreg, Reg.schEvt, Reg.schStepsDone, Reg.schQueue, Reg.schPhaseMap, Reg.schCustSel, Reg.schGroupCfg, Reg.schGroupTime, Reg.schGroupPower, Reg.schGroupStatus, Reg.schCtxReport, Reg.schCustData]

/-- The registers of block 7, in the order of their table. -/
def Reg.inBlock7 : List Reg :=
  [Reg.txtCfg, Reg.txtTblLoad, Reg.txtTblStatus, Reg.txtTblUnload, Reg.txtEvt, Reg.txtMintBytes, Reg.txtMintInvalid, Reg.txtMintTrunc, Reg.txtSampled, Reg.txtClrDead, Reg.txtStopFinish, Reg.txtNanLogit, Reg.txtVocabSlot, Reg.txtGramSlot, Reg.txtArea]

/-- The registers of block 8, in the order of their table. -/
def Reg.inBlock8 : List Reg :=
  [Reg.vsrCfg, Reg.vsrCollCreate, Reg.vsrCollStatus, Reg.vsrCollDrop, Reg.vsrEvt, Reg.vsrVectors, Reg.vsrSearches, Reg.vsrPartial, Reg.vsrDegraded, Reg.vsrSketchRebuild, Reg.vsrCollId]

/-- The registers of block 9, in the order of their table. -/
def Reg.inBlock9 : List Reg :=
  [Reg.flsCfg, Reg.flsGcCfg, Reg.flsRefreshCfg, Reg.flsPoolStatus, Reg.flsAdv0, Reg.flsAdv, Reg.flsMapped, Reg.flsSbA, Reg.flsSbB, Reg.flsSbTotal, Reg.flsEvt, Reg.flsSdisc, Reg.flsSdiscStatus, Reg.flsRebuild, Reg.flsLost, Reg.flsWrIn, Reg.flsWrNand, Reg.flsDurableLeft, Reg.flsChStatus, Reg.flsChParam, Reg.flsChTime, Reg.flsChTime2, Reg.flsChErr, Reg.flsChBytesRd, Reg.flsChBytesWr, Reg.flsChReserve]

/-- The registers of block 10, in the order of their table. -/
def Reg.inBlock10 : List Reg :=
  [Reg.nmcCfg, Reg.nmcWindow, Reg.nmcRegionCreate, Reg.nmcRegionStatus, Reg.nmcRegionDelete, Reg.nmcEvt, Reg.nmcDirUsed, Reg.nmcPoisoned, Reg.nmcRecalls, Reg.nmcRecallMax, Reg.nmcRegionTemp, Reg.nmcAgentCfg, Reg.nmcAgentBw, Reg.nmcAgentStatus, Reg.nmcAgentBytes, Reg.nmcRegionId, Reg.nmcRegionBase]

/-- The registers of block 11, in the order of their table. -/
def Reg.inBlock11 : List Reg :=
  [Reg.dfbCfg, Reg.dfbMapCfg, Reg.dfbGrantCfg, Reg.dfbStatus, Reg.dfbEpoch, Reg.dfbMembers, Reg.dfbJoin, Reg.dfbLeave, Reg.dfbRegionCreate, Reg.dfbRegionStatus, Reg.dfbRegionDelete, Reg.dfbEvt, Reg.dfbEscOwned, Reg.dfbForwarded, Reg.dfbMoved, Reg.dfbResent, Reg.dfbShareUsed, Reg.dfbT4, Reg.dfbBuckets, Reg.dfbRegionId]

/-- The registers of block 12, in the order of their table. -/
def Reg.inBlock12 : List Reg :=
  [Reg.lnkCfg, Reg.lnkEvt, Reg.lnkClassMap, Reg.lnkHistSel, Reg.lnkHistData, Reg.lnkPolice, Reg.lnkPortCfg, Reg.lnkPortStatus, Reg.lnkPortKey, Reg.lnkPortCounter, Reg.lnkPortErr, Reg.lnkPortRetry, Reg.lnkGateCfg, Reg.lnkGateBase, Reg.lnkGateStatus, Reg.lnkGateEnt, Reg.lnkQShape, Reg.lnkQIss, Reg.lnkQRet, Reg.lnkQRxuse, Reg.lnkQDepth, Reg.lnkQCredit]

/-- The registers of block 13, in the order of their table. -/
def Reg.inBlock13 : List Reg :=
  [Reg.stmCfg, Reg.stmJobCreate, Reg.stmJobStatus, Reg.stmJobDelete, Reg.stmRestore, Reg.stmRestoreStatus, Reg.stmEvt, Reg.stmStalls, Reg.stmStallMax, Reg.stmJobId, Reg.stmJobStep, Reg.stmJobFlash, Reg.stmJobPages, Reg.stmJobPeer, Reg.stmJobState]

/-- The registers of block 14, in the order of their table. -/
def Reg.inBlock14 : List Reg :=
  [Reg.tlrIsaVer, Reg.tlrImgLoad, Reg.tlrImgStatus, Reg.tlrImgUnload, Reg.tlrRunStart, Reg.tlrRunStatus, Reg.tlrRunCancel, Reg.tlrRcptLost, Reg.tlrEvt, Reg.tlrRunHub, Reg.tlrImgSlot, Reg.tlrClkState, Reg.tlrClkRcptIss, Reg.tlrClkRcptCon, Reg.tlrClkOrphan, Reg.tlrClkTrap, Reg.tlrClkTrapAddr]

/-- The registers of block 15, in the order of their table. -/
def Reg.inBlock15 : List Reg :=
  [Reg.dbgFreeze, Reg.dbgFrzStatus, Reg.dbgReadoutCfg, Reg.dbgTraceCfg, Reg.dbgTraceDropped, Reg.dbgEvt]

/-- The registers of a block. -/
def Reg.inBlock : Nat → List Reg
  | 0 => Reg.inBlock0
  | 1 => Reg.inBlock1
  | 2 => Reg.inBlock2
  | 3 => Reg.inBlock3
  | 4 => Reg.inBlock4
  | 5 => Reg.inBlock5
  | 6 => Reg.inBlock6
  | 7 => Reg.inBlock7
  | 8 => Reg.inBlock8
  | 9 => Reg.inBlock9
  | 10 => Reg.inBlock10
  | 11 => Reg.inBlock11
  | 12 => Reg.inBlock12
  | 13 => Reg.inBlock13
  | 14 => Reg.inBlock14
  | 15 => Reg.inBlock15
  | _ => []

/-- A field of a register: bits `lo + width - 1` down to `lo`. -/
structure Fld where
  reg   : Reg
  lo    : Nat
  width : Nat
  deriving DecidableEq, Repr

/-- `TLR_IMG_SLOT.IMAGE_ID`, bits [63:0]. -/
def Fld.tlrImgSlot_imageId : Fld := ⟨.tlrImgSlot, 0, 64⟩
/-- `TLR_CLK_TRAP.TRAP_PC`, bits [63:24]. -/
def Fld.tlrClkTrap_trapPc : Fld := ⟨.tlrClkTrap, 24, 40⟩
/-- `TLR_IMG_STATUS.REASON`, bits [15:8]. -/
def Fld.tlrImgStatus_reason : Fld := ⟨.tlrImgStatus, 8, 8⟩
/-- `TLR_IMG_STATUS.SLOT`, bits [7:2]. -/
def Fld.tlrImgStatus_slot : Fld := ⟨.tlrImgStatus, 2, 6⟩
/-- `TLR_IMG_STATUS.STATE`, bits [1:0]. -/
def Fld.tlrImgStatus_state : Fld := ⟨.tlrImgStatus, 0, 2⟩
/-- `TLR_CLK_STATE.CONTEXT`, bits [47:42]. -/
def Fld.tlrClkState_context : Fld := ⟨.tlrClkState, 42, 6⟩
/-- `TLR_CLK_STATE.IMG_SLOT`, bits [41:36]. -/
def Fld.tlrClkState_imgSlot : Fld := ⟨.tlrClkState, 36, 6⟩
/-- `TLR_CLK_STATE.ENTRY`, bits [35:32]. -/
def Fld.tlrClkState_entry : Fld := ⟨.tlrClkState, 32, 4⟩
/-- `TLR_CLK_STATE.TRAP_CLASS`, bits [31:24]. -/
def Fld.tlrClkState_trapClass : Fld := ⟨.tlrClkState, 24, 8⟩
/-- `TLR_CLK_STATE.OUTSTANDING`, bits [23:17]. -/
def Fld.tlrClkState_outstanding : Fld := ⟨.tlrClkState, 17, 7⟩
/-- `TLR_CLK_STATE.PRIO`, bits [16:15]. -/
def Fld.tlrClkState_prio : Fld := ⟨.tlrClkState, 15, 2⟩
/-- `TLR_CLK_STATE.HANDLER`, bits [3:3]. -/
def Fld.tlrClkState_handler : Fld := ⟨.tlrClkState, 3, 1⟩
/-- `TLR_CLK_STATE.STATE`, bits [2:0]. -/
def Fld.tlrClkState_state : Fld := ⟨.tlrClkState, 0, 3⟩
/-- `SSN_KV_POOL.RESERVE_GIB`, bits [15:0]. -/
def Fld.ssnKvPool_reserveGib : Fld := ⟨.ssnKvPool, 0, 16⟩
/-- `SSN_KV_POOL.PRIVATE_GIB`, bits [31:16]. -/
def Fld.ssnKvPool_privateGib : Fld := ⟨.ssnKvPool, 16, 16⟩
/-- `SSN_CFOIL_CFG.PARTNER`, bits [4:0]. -/
def Fld.ssnCfoilCfg_partner : Fld := ⟨.ssnCfoilCfg, 0, 5⟩
/-- `SSN_CFOIL_CFG.ENABLE`, bits [5:5]. -/
def Fld.ssnCfoilCfg_enable : Fld := ⟨.ssnCfoilCfg, 5, 1⟩
/-- `SSN_PARK_CFG.HOLD_MS`, bits [31:0]. -/
def Fld.ssnParkCfg_holdMs : Fld := ⟨.ssnParkCfg, 0, 32⟩
/-- `SSN_REVIVE_CFG.MARGIN_US`, bits [23:14]. -/
def Fld.ssnReviveCfg_marginUs : Fld := ⟨.ssnReviveCfg, 14, 10⟩
/-- `SSN_REVIVE_CFG.AHEAD`, bits [13:10]. -/
def Fld.ssnReviveCfg_ahead : Fld := ⟨.ssnReviveCfg, 10, 4⟩
/-- `SSN_REVIVE_CFG.HOLD_US`, bits [9:0]. -/
def Fld.ssnReviveCfg_holdUs : Fld := ⟨.ssnReviveCfg, 0, 10⟩
/-- `SSN_PLACE_CFG.STACK_MIN`, bits [63:56]. -/
def Fld.ssnPlaceCfg_stackMin : Fld := ⟨.ssnPlaceCfg, 56, 8⟩
/-- `SSN_PLACE_CFG.PIN_PCT`, bits [55:48]. -/
def Fld.ssnPlaceCfg_pinPct : Fld := ⟨.ssnPlaceCfg, 48, 8⟩
/-- `SSN_PLACE_CFG.T1_LOW`, bits [47:40]. -/
def Fld.ssnPlaceCfg_t1Low : Fld := ⟨.ssnPlaceCfg, 40, 8⟩
/-- `SSN_PLACE_CFG.T1_HIGH`, bits [39:32]. -/
def Fld.ssnPlaceCfg_t1High : Fld := ⟨.ssnPlaceCfg, 32, 8⟩
/-- `SSN_PLACE_CFG.PEER_GBPS`, bits [31:20]. -/
def Fld.ssnPlaceCfg_peerGbps : Fld := ⟨.ssnPlaceCfg, 20, 12⟩
/-- `SSN_PLACE_CFG.FLASH_GBPS`, bits [19:8]. -/
def Fld.ssnPlaceCfg_flashGbps : Fld := ⟨.ssnPlaceCfg, 8, 12⟩
/-- `SSN_PLACE_CFG.SHORT_TOKENS`, bits [7:0]. -/
def Fld.ssnPlaceCfg_shortTokens : Fld := ⟨.ssnPlaceCfg, 0, 8⟩
/-- `SSN_PHASE.KEEP_GIB`, bits [63:32]. -/
def Fld.ssnPhase_keepGib : Fld := ⟨.ssnPhase, 32, 32⟩
/-- `SSN_PHASE.TIME_LIMIT_MS`, bits [31:8]. -/
def Fld.ssnPhase_timeLimitMs : Fld := ⟨.ssnPhase, 8, 24⟩
/-- `SSN_PHASE.CONTEXT`, bits [5:0]. -/
def Fld.ssnPhase_context : Fld := ⟨.ssnPhase, 0, 6⟩
/-- `SSN_PHASE_STATUS.PB_ONLY`, bits [63:40]. -/
def Fld.ssnPhaseStatus_pbOnly : Fld := ⟨.ssnPhaseStatus, 40, 24⟩
/-- `SSN_PHASE_STATUS.WRITTEN`, bits [39:16]. -/
def Fld.ssnPhaseStatus_written : Fld := ⟨.ssnPhaseStatus, 16, 24⟩
/-- `SSN_PHASE_STATUS.CONTEXT`, bits [15:8]. -/
def Fld.ssnPhaseStatus_context : Fld := ⟨.ssnPhaseStatus, 8, 8⟩
/-- `SSN_PHASE_STATUS.STATE`, bits [1:0]. -/
def Fld.ssnPhaseStatus_state : Fld := ⟨.ssnPhaseStatus, 0, 2⟩
/-- `KVA_CFG.TRIM_EN`, bits [13:13]. -/
def Fld.kvaCfg_trimEn : Fld := ⟨.kvaCfg, 13, 1⟩
/-- `KVA_CFG.SPARSE_EN`, bits [12:12]. -/
def Fld.kvaCfg_sparseEn : Fld := ⟨.kvaCfg, 12, 1⟩
/-- `KVA_CFG.QBLOCK_MAX`, bits [11:0]. -/
def Fld.kvaCfg_qblockMax : Fld := ⟨.kvaCfg, 0, 12⟩
/-- `KVA_ENG_STATUS.QUEUE`, bits [63:32]. -/
def Fld.kvaEngStatus_queue : Fld := ⟨.kvaEngStatus, 32, 32⟩
/-- `KVA_ENG_STATUS.TILES`, bits [15:8]. -/
def Fld.kvaEngStatus_tiles : Fld := ⟨.kvaEngStatus, 8, 8⟩
/-- `KVA_ENG_STATUS.BANK`, bits [2:2]. -/
def Fld.kvaEngStatus_bank : Fld := ⟨.kvaEngStatus, 2, 1⟩
/-- `KVA_ENG_STATUS.STATE`, bits [1:0]. -/
def Fld.kvaEngStatus_state : Fld := ⟨.kvaEngStatus, 0, 2⟩
/-- `KVA_ENG_ERR.NAN_OUT`, bits [63:48]. -/
def Fld.kvaEngErr_nanOut : Fld := ⟨.kvaEngErr, 48, 16⟩
/-- `KVA_ENG_ERR.NAN_BLOCKS`, bits [47:32]. -/
def Fld.kvaEngErr_nanBlocks : Fld := ⟨.kvaEngErr, 32, 16⟩
/-- `KVA_ENG_ERR.POISON`, bits [31:16]. -/
def Fld.kvaEngErr_poison : Fld := ⟨.kvaEngErr, 16, 16⟩
/-- `KVA_ENG_ERR.UNCORR`, bits [15:0]. -/
def Fld.kvaEngErr_uncorr : Fld := ⟨.kvaEngErr, 0, 16⟩
/-- `SCH_MODEL_STATUS.INDEX`, bits [9:0]. -/
def Fld.schModelStatus_index : Fld := ⟨.schModelStatus, 0, 10⟩
/-- `SCH_MODEL_STATUS.REASON`, bits [23:16]. -/
def Fld.schModelStatus_reason : Fld := ⟨.schModelStatus, 16, 8⟩
/-- `SCH_MODEL_STATUS.STATE`, bits [25:24]. -/
def Fld.schModelStatus_state : Fld := ⟨.schModelStatus, 24, 2⟩
/-- `SCH_GROUP_TIME.A_FIX`, bits [31:0]. -/
def Fld.schGroupTime_aFix : Fld := ⟨.schGroupTime, 0, 32⟩
/-- `SCH_GROUP_TIME.A_TOK`, bits [63:32]. -/
def Fld.schGroupTime_aTok : Fld := ⟨.schGroupTime, 32, 32⟩
/-- `SCH_GROUP_POWER.IDLE_W`, bits [15:0]. -/
def Fld.schGroupPower_idleW : Fld := ⟨.schGroupPower, 0, 16⟩
/-- `SCH_GROUP_POWER.BUSY_W`, bits [31:16]. -/
def Fld.schGroupPower_busyW : Fld := ⟨.schGroupPower, 16, 16⟩
/-- `SCH_CTX_REPORT.ENABLE`, bits [0:0]. -/
def Fld.schCtxReport_enable : Fld := ⟨.schCtxReport, 0, 1⟩
/-- `SCH_CTX_REPORT.PORT`, bits [1:1]. -/
def Fld.schCtxReport_port : Fld := ⟨.schCtxReport, 1, 1⟩
/-- `SCH_CTX_REPORT.CONNECTION`, bits [33:2]. -/
def Fld.schCtxReport_connection : Fld := ⟨.schCtxReport, 2, 32⟩
/-- `SCH_STEP_CFG.HALVES`, bits [40:40]. -/
def Fld.schStepCfg_halves : Fld := ⟨.schStepCfg, 40, 1⟩
/-- `SCH_STEP_CFG.LIMIT_US`, bits [39:20]. -/
def Fld.schStepCfg_limitUs : Fld := ⟨.schStepCfg, 20, 20⟩
/-- `SCH_STEP_CFG.TARGET_US`, bits [19:0]. -/
def Fld.schStepCfg_targetUs : Fld := ⟨.schStepCfg, 0, 20⟩
/-- `SCH_PLAN_CFG.STEP_TOKENS`, bits [52:36]. -/
def Fld.schPlanCfg_stepTokens : Fld := ⟨.schPlanCfg, 36, 17⟩
/-- `SCH_PLAN_CFG.PF_FILL`, bits [35:28]. -/
def Fld.schPlanCfg_pfFill : Fld := ⟨.schPlanCfg, 28, 8⟩
/-- `SCH_PLAN_CFG.CHUNK_MAX`, bits [27:14]. -/
def Fld.schPlanCfg_chunkMax : Fld := ⟨.schPlanCfg, 14, 14⟩
/-- `SCH_PLAN_CFG.CHUNK_MIN`, bits [13:0]. -/
def Fld.schPlanCfg_chunkMin : Fld := ⟨.schPlanCfg, 0, 14⟩
/-- `SCH_ROLE_CFG.CONFIRM`, bits [35:32]. -/
def Fld.schRoleCfg_confirm : Fld := ⟨.schRoleCfg, 32, 4⟩
/-- `SCH_ROLE_CFG.EVAL_MS`, bits [31:24]. -/
def Fld.schRoleCfg_evalMs : Fld := ⟨.schRoleCfg, 24, 8⟩
/-- `SCH_ROLE_CFG.HYST`, bits [23:16]. -/
def Fld.schRoleCfg_hyst : Fld := ⟨.schRoleCfg, 16, 8⟩
/-- `SCH_ROLE_CFG.DWELL_MS`, bits [15:0]. -/
def Fld.schRoleCfg_dwellMs : Fld := ⟨.schRoleCfg, 0, 16⟩
/-- `SCH_GOAL_CFG.TBT_DEF_MS`, bits [47:32]. -/
def Fld.schGoalCfg_tbtDefMs : Fld := ⟨.schGoalCfg, 32, 16⟩
/-- `SCH_GOAL_CFG.TTFT_DEF_MS`, bits [31:16]. -/
def Fld.schGoalCfg_ttftDefMs : Fld := ⟨.schGoalCfg, 16, 16⟩
/-- `SCH_GOAL_CFG.BOOST_MAX_PCT`, bits [15:8]. -/
def Fld.schGoalCfg_boostMaxPct : Fld := ⟨.schGoalCfg, 8, 8⟩
/-- `SCH_GOAL_CFG.RISK_PCT`, bits [7:0]. -/
def Fld.schGoalCfg_riskPct : Fld := ⟨.schGoalCfg, 0, 8⟩
/-- `SCH_ADMIT_CFG.RETRY_MAX_MS`, bits [47:33]. -/
def Fld.schAdmitCfg_retryMaxMs : Fld := ⟨.schAdmitCfg, 33, 15⟩
/-- `SCH_ADMIT_CFG.QUEUE_MAX`, bits [32:16]. -/
def Fld.schAdmitCfg_queueMax : Fld := ⟨.schAdmitCfg, 16, 17⟩
/-- `SCH_ADMIT_CFG.GEN_TOKENS`, bits [15:0]. -/
def Fld.schAdmitCfg_genTokens : Fld := ⟨.schAdmitCfg, 0, 16⟩
/-- `SCH_RAMP_CFG.ENABLE`, bits [32:32]. -/
def Fld.schRampCfg_enable : Fld := ⟨.schRampCfg, 32, 1⟩
/-- `SCH_RAMP_CFG.STEP_MAX_W`, bits [31:16]. -/
def Fld.schRampCfg_stepMaxW : Fld := ⟨.schRampCfg, 16, 16⟩
/-- `SCH_RAMP_CFG.SLEW_W_PER_MS`, bits [15:0]. -/
def Fld.schRampCfg_slewWPerMs : Fld := ⟨.schRampCfg, 0, 16⟩
/-- `SCH_GROUP_CFG.FIXED_ROLE`, bits [27:25]. -/
def Fld.schGroupCfg_fixedRole : Fld := ⟨.schGroupCfg, 25, 3⟩
/-- `SCH_GROUP_CFG.ENABLE`, bits [24:24]. -/
def Fld.schGroupCfg_enable : Fld := ⟨.schGroupCfg, 24, 1⟩
/-- `SCH_GROUP_CFG.MODEL`, bits [23:8]. -/
def Fld.schGroupCfg_model : Fld := ⟨.schGroupCfg, 8, 16⟩
/-- `SCH_GROUP_CFG.PORTS`, bits [7:0]. -/
def Fld.schGroupCfg_ports : Fld := ⟨.schGroupCfg, 0, 8⟩
/-- `SCH_GROUP_STATUS.STEP_US`, bits [63:32]. -/
def Fld.schGroupStatus_stepUs : Fld := ⟨.schGroupStatus, 32, 32⟩
/-- `SCH_GROUP_STATUS.SINCE_MS`, bits [31:16]. -/
def Fld.schGroupStatus_sinceMs : Fld := ⟨.schGroupStatus, 16, 16⟩
/-- `SCH_GROUP_STATUS.HALF_B`, bits [4:4]. -/
def Fld.schGroupStatus_halfB : Fld := ⟨.schGroupStatus, 4, 1⟩
/-- `SCH_GROUP_STATUS.HALF_A`, bits [3:3]. -/
def Fld.schGroupStatus_halfA : Fld := ⟨.schGroupStatus, 3, 1⟩
/-- `SCH_GROUP_STATUS.ROLE`, bits [2:0]. -/
def Fld.schGroupStatus_role : Fld := ⟨.schGroupStatus, 0, 3⟩
/-- `TXT_TBL_UNLOAD.KIND`, bits [4:4]. -/
def Fld.txtTblUnload_kind : Fld := ⟨.txtTblUnload, 4, 1⟩
/-- `TXT_CFG.SPLIT_MIB`, bits [7:0]. -/
def Fld.txtCfg_splitMib : Fld := ⟨.txtCfg, 0, 8⟩
/-- `TXT_TBL_STATUS.REASON`, bits [15:8]. -/
def Fld.txtTblStatus_reason : Fld := ⟨.txtTblStatus, 8, 8⟩
/-- `TXT_TBL_STATUS.SLOT`, bits [7:4]. -/
def Fld.txtTblStatus_slot : Fld := ⟨.txtTblStatus, 4, 4⟩
/-- `TXT_TBL_STATUS.KIND`, bits [3:3]. -/
def Fld.txtTblStatus_kind : Fld := ⟨.txtTblStatus, 3, 1⟩
/-- `TXT_TBL_STATUS.STATE`, bits [1:0]. -/
def Fld.txtTblStatus_state : Fld := ⟨.txtTblStatus, 0, 2⟩
/-- `VSR_CFG.FOLD_ENTRIES`, bits [47:16]. -/
def Fld.vsrCfg_foldEntries : Fld := ⟨.vsrCfg, 16, 32⟩
/-- `VSR_CFG.CHAN_SHARE`, bits [15:8]. -/
def Fld.vsrCfg_chanShare : Fld := ⟨.vsrCfg, 8, 8⟩
/-- `VSR_CFG.TEST_MODE`, bits [0:0]. -/
def Fld.vsrCfg_testMode : Fld := ⟨.vsrCfg, 0, 1⟩
/-- `VSR_COLL_STATUS.INDEX`, bits [25:16]. -/
def Fld.vsrCollStatus_index : Fld := ⟨.vsrCollStatus, 16, 10⟩
/-- `VSR_COLL_STATUS.REASON`, bits [15:8]. -/
def Fld.vsrCollStatus_reason : Fld := ⟨.vsrCollStatus, 8, 8⟩
/-- `VSR_COLL_STATUS.STATE`, bits [1:0]. -/
def Fld.vsrCollStatus_state : Fld := ⟨.vsrCollStatus, 0, 2⟩
/-- `FLS_SB_A.FREE`, bits [31:0]. -/
def Fld.flsSbA_free : Fld := ⟨.flsSbA, 0, 32⟩
/-- `FLS_SB_A.FULL`, bits [63:32]. -/
def Fld.flsSbA_full : Fld := ⟨.flsSbA, 32, 32⟩
/-- `FLS_SB_B.OPEN`, bits [31:0]. -/
def Fld.flsSbB_open : Fld := ⟨.flsSbB, 0, 32⟩
/-- `FLS_SB_B.RETIRED`, bits [63:32]. -/
def Fld.flsSbB_retired : Fld := ⟨.flsSbB, 32, 32⟩
/-- `FLS_SB_TOTAL.TOTAL`, bits [31:0]. -/
def Fld.flsSbTotal_total : Fld := ⟨.flsSbTotal, 0, 32⟩
/-- `FLS_SDISC.ALL`, bits [24:24]. -/
def Fld.flsSdisc_all : Fld := ⟨.flsSdisc, 24, 1⟩
/-- `FLS_SDISC.CONTEXT`, bits [30:25]. -/
def Fld.flsSdisc_context : Fld := ⟨.flsSdisc, 25, 6⟩
/-- `FLS_CFG.REOPEN_PCT`, bits [47:40]. -/
def Fld.flsCfg_reopenPct : Fld := ⟨.flsCfg, 40, 8⟩
/-- `FLS_CFG.TILL_EN`, bits [32:32]. -/
def Fld.flsCfg_tillEn : Fld := ⟨.flsCfg, 32, 1⟩
/-- `FLS_CFG.DUR_GIB`, bits [31:24]. -/
def Fld.flsCfg_durGib : Fld := ⟨.flsCfg, 24, 8⟩
/-- `FLS_CFG.RESERVE_PCT`, bits [23:16]. -/
def Fld.flsCfg_reservePct : Fld := ⟨.flsCfg, 16, 8⟩
/-- `FLS_CFG.OP_PCT`, bits [15:8]. -/
def Fld.flsCfg_opPct : Fld := ⟨.flsCfg, 8, 8⟩
/-- `FLS_CFG.TILL_PCT`, bits [7:0]. -/
def Fld.flsCfg_tillPct : Fld := ⟨.flsCfg, 0, 8⟩
/-- `FLS_GC_CFG.REBUILD_SHARE`, bits [63:56]. -/
def Fld.flsGcCfg_rebuildShare : Fld := ⟨.flsGcCfg, 56, 8⟩
/-- `FLS_GC_CFG.WL_GAP`, bits [55:48]. -/
def Fld.flsGcCfg_wlGap : Fld := ⟨.flsGcCfg, 48, 8⟩
/-- `FLS_GC_CFG.FOLD_LOW`, bits [47:40]. -/
def Fld.flsGcCfg_foldLow : Fld := ⟨.flsGcCfg, 40, 8⟩
/-- `FLS_GC_CFG.FOLD_HIGH`, bits [39:32]. -/
def Fld.flsGcCfg_foldHigh : Fld := ⟨.flsGcCfg, 32, 8⟩
/-- `FLS_GC_CFG.GC_SHARE`, bits [31:24]. -/
def Fld.flsGcCfg_gcShare : Fld := ⟨.flsGcCfg, 24, 8⟩
/-- `FLS_GC_CFG.GC_FLOOR`, bits [23:16]. -/
def Fld.flsGcCfg_gcFloor : Fld := ⟨.flsGcCfg, 16, 8⟩
/-- `FLS_GC_CFG.GC_URGENT`, bits [15:8]. -/
def Fld.flsGcCfg_gcUrgent : Fld := ⟨.flsGcCfg, 8, 8⟩
/-- `FLS_GC_CFG.GC_LOW`, bits [7:0]. -/
def Fld.flsGcCfg_gcLow : Fld := ⟨.flsGcCfg, 0, 8⟩
/-- `FLS_REFRESH_CFG.RETRY_REFRESH`, bits [43:40]. -/
def Fld.flsRefreshCfg_retryRefresh : Fld := ⟨.flsRefreshCfg, 40, 4⟩
/-- `FLS_REFRESH_CFG.SCAN_DAYS`, bits [39:32]. -/
def Fld.flsRefreshCfg_scanDays : Fld := ⟨.flsRefreshCfg, 32, 8⟩
/-- `FLS_REFRESH_CFG.READ_LIMIT_SLC`, bits [31:16]. -/
def Fld.flsRefreshCfg_readLimitSlc : Fld := ⟨.flsRefreshCfg, 16, 16⟩
/-- `FLS_REFRESH_CFG.READ_LIMIT_NATIVE`, bits [15:0]. -/
def Fld.flsRefreshCfg_readLimitNative : Fld := ⟨.flsRefreshCfg, 0, 16⟩
/-- `FLS_POOL_STATUS.ADV_PERMILLE`, bits [25:16]. -/
def Fld.flsPoolStatus_advPermille : Fld := ⟨.flsPoolStatus, 16, 10⟩
/-- `FLS_POOL_STATUS.REBUILDING`, bits [4:4]. -/
def Fld.flsPoolStatus_rebuilding : Fld := ⟨.flsPoolStatus, 4, 1⟩
/-- `FLS_POOL_STATUS.FOLDING`, bits [3:3]. -/
def Fld.flsPoolStatus_folding : Fld := ⟨.flsPoolStatus, 3, 1⟩
/-- `FLS_POOL_STATUS.GC_URGENT`, bits [2:2]. -/
def Fld.flsPoolStatus_gcUrgent : Fld := ⟨.flsPoolStatus, 2, 1⟩
/-- `FLS_POOL_STATUS.STATE`, bits [1:0]. -/
def Fld.flsPoolStatus_state : Fld := ⟨.flsPoolStatus, 0, 2⟩
/-- `FLS_CH_STATUS.LUN_FAILED`, bits [63:32]. -/
def Fld.flsChStatus_lunFailed : Fld := ⟨.flsChStatus, 32, 32⟩
/-- `FLS_CH_STATUS.REASON`, bits [15:12]. -/
def Fld.flsChStatus_reason : Fld := ⟨.flsChStatus, 12, 4⟩
/-- `FLS_CH_STATUS.LUNS`, bits [11:6]. -/
def Fld.flsChStatus_luns : Fld := ⟨.flsChStatus, 6, 6⟩
/-- `FLS_CH_STATUS.RATE`, bits [5:2]. -/
def Fld.flsChStatus_rate : Fld := ⟨.flsChStatus, 2, 4⟩
/-- `FLS_CH_STATUS.STATE`, bits [1:0]. -/
def Fld.flsChStatus_state : Fld := ⟨.flsChStatus, 0, 2⟩
/-- `FLS_CH_ERR.ERASE_FAIL`, bits [63:56]. -/
def Fld.flsChErr_eraseFail : Fld := ⟨.flsChErr, 56, 8⟩
/-- `FLS_CH_ERR.PROG_FAIL`, bits [55:48]. -/
def Fld.flsChErr_progFail : Fld := ⟨.flsChErr, 48, 8⟩
/-- `FLS_CH_ERR.PARITY`, bits [47:32]. -/
def Fld.flsChErr_parity : Fld := ⟨.flsChErr, 32, 16⟩
/-- `FLS_CH_ERR.SOFT`, bits [31:16]. -/
def Fld.flsChErr_soft : Fld := ⟨.flsChErr, 16, 16⟩
/-- `FLS_CH_ERR.RETRY`, bits [15:0]. -/
def Fld.flsChErr_retry : Fld := ⟨.flsChErr, 0, 16⟩
/-- `STM_JOB_STATUS.INDEX`, bits [3:0]. -/
def Fld.stmJobStatus_index : Fld := ⟨.stmJobStatus, 0, 4⟩
/-- `STM_JOB_STATUS.REASON`, bits [15:8]. -/
def Fld.stmJobStatus_reason : Fld := ⟨.stmJobStatus, 8, 8⟩
/-- `STM_JOB_STATUS.STATE`, bits [17:16]. -/
def Fld.stmJobStatus_state : Fld := ⟨.stmJobStatus, 16, 2⟩
/-- `STM_RESTORE.SOURCE`, bits [4:4]. -/
def Fld.stmRestore_source : Fld := ⟨.stmRestore, 4, 1⟩
/-- `STM_JOB_PAGES.PENDING`, bits [31:0]. -/
def Fld.stmJobPages_pending : Fld := ⟨.stmJobPages, 0, 32⟩
/-- `STM_JOB_PAGES.COPIED`, bits [63:32]. -/
def Fld.stmJobPages_copied : Fld := ⟨.stmJobPages, 32, 32⟩
/-- `STM_JOB_PEER.CF_PEER`, bits [4:0]. -/
def Fld.stmJobPeer_cfPeer : Fld := ⟨.stmJobPeer, 0, 5⟩
/-- `STM_JOB_STATE.OPEN`, bits [0:0]. -/
def Fld.stmJobState_open : Fld := ⟨.stmJobState, 0, 1⟩
/-- `STM_JOB_STATE.SLOT`, bits [1:1]. -/
def Fld.stmJobState_slot : Fld := ⟨.stmJobState, 1, 1⟩
/-- `STM_JOB_STATE.CF_MISSING`, bits [2:2]. -/
def Fld.stmJobState_cfMissing : Fld := ⟨.stmJobState, 2, 1⟩
/-- `STM_JOB_STATE.FLUSHING`, bits [3:3]. -/
def Fld.stmJobState_flushing : Fld := ⟨.stmJobState, 3, 1⟩
/-- `STM_CFG.CF_SHARE`, bits [15:8]. -/
def Fld.stmCfg_cfShare : Fld := ⟨.stmCfg, 8, 8⟩
/-- `STM_CFG.COPY_SHARE`, bits [7:0]. -/
def Fld.stmCfg_copyShare : Fld := ⟨.stmCfg, 0, 8⟩
/-- `STM_RESTORE_STATUS.STEP`, bits [63:32]. -/
def Fld.stmRestoreStatus_step : Fld := ⟨.stmRestoreStatus, 32, 32⟩
/-- `STM_RESTORE_STATUS.REASON`, bits [15:8]. -/
def Fld.stmRestoreStatus_reason : Fld := ⟨.stmRestoreStatus, 8, 8⟩
/-- `STM_RESTORE_STATUS.STATE`, bits [1:0]. -/
def Fld.stmRestoreStatus_state : Fld := ⟨.stmRestoreStatus, 0, 2⟩
/-- `NMC_WINDOW.GIB`, bits [10:0]. -/
def Fld.nmcWindow_gib : Fld := ⟨.nmcWindow, 0, 11⟩
/-- `NMC_REGION_TEMP.TEMP`, bits [13:12]. -/
def Fld.nmcRegionTemp_temp : Fld := ⟨.nmcRegionTemp, 12, 2⟩
/-- `NMC_REGION_TEMP.HOST_PARK`, bits [14:14]. -/
def Fld.nmcRegionTemp_hostPark : Fld := ⟨.nmcRegionTemp, 14, 1⟩
/-- `NMC_CFG.COLD_EN`, bits [16:16]. -/
def Fld.nmcCfg_coldEn : Fld := ⟨.nmcCfg, 16, 1⟩
/-- `NMC_CFG.COLD_S`, bits [15:0]. -/
def Fld.nmcCfg_coldS : Fld := ⟨.nmcCfg, 0, 16⟩
/-- `NMC_AGENT_CFG.TMO_US`, bits [47:32]. -/
def Fld.nmcAgentCfg_tmoUs : Fld := ⟨.nmcAgentCfg, 32, 16⟩
/-- `NMC_AGENT_CFG.RSP_NS`, bits [31:0]. -/
def Fld.nmcAgentCfg_rspNs : Fld := ⟨.nmcAgentCfg, 0, 32⟩
/-- `NMC_AGENT_BW.BURST_KIB`, bits [47:32]. -/
def Fld.nmcAgentBw_burstKib : Fld := ⟨.nmcAgentBw, 32, 16⟩
/-- `NMC_AGENT_BW.WR_GBPS`, bits [31:16]. -/
def Fld.nmcAgentBw_wrGbps : Fld := ⟨.nmcAgentBw, 16, 16⟩
/-- `NMC_AGENT_BW.RD_GBPS`, bits [15:0]. -/
def Fld.nmcAgentBw_rdGbps : Fld := ⟨.nmcAgentBw, 0, 16⟩
/-- `NMC_AGENT_STATUS.LINES_X`, bits [39:8]. -/
def Fld.nmcAgentStatus_linesX : Fld := ⟨.nmcAgentStatus, 8, 32⟩
/-- `NMC_AGENT_STATUS.HELD`, bits [4:4]. -/
def Fld.nmcAgentStatus_held : Fld := ⟨.nmcAgentStatus, 4, 1⟩
/-- `NMC_AGENT_STATUS.LOAD`, bits [3:2]. -/
def Fld.nmcAgentStatus_load : Fld := ⟨.nmcAgentStatus, 2, 2⟩
/-- `NMC_AGENT_STATUS.STATE`, bits [1:0]. -/
def Fld.nmcAgentStatus_state : Fld := ⟨.nmcAgentStatus, 0, 2⟩
/-- `NMC_REGION_STATUS.STATE`, bits [25:24]. -/
def Fld.nmcRegionStatus_state : Fld := ⟨.nmcRegionStatus, 24, 2⟩
/-- `NMC_REGION_STATUS.REASON`, bits [23:16]. -/
def Fld.nmcRegionStatus_reason : Fld := ⟨.nmcRegionStatus, 16, 8⟩
/-- `NMC_REGION_STATUS.INDEX`, bits [11:0]. -/
def Fld.nmcRegionStatus_index : Fld := ⟨.nmcRegionStatus, 0, 12⟩
/-- `DFB_BUCKETS.PRIMARY`, bits [12:0]. -/
def Fld.dfbBuckets_primary : Fld := ⟨.dfbBuckets, 0, 13⟩
/-- `DFB_BUCKETS.SECONDARY`, bits [25:13]. -/
def Fld.dfbBuckets_secondary : Fld := ⟨.dfbBuckets, 13, 13⟩
/-- `DFB_CFG.DOMAIN_EN`, bits [19:19]. -/
def Fld.dfbCfg_domainEn : Fld := ⟨.dfbCfg, 19, 1⟩
/-- `DFB_CFG.MOVE_SHARE`, bits [18:11]. -/
def Fld.dfbCfg_moveShare : Fld := ⟨.dfbCfg, 11, 8⟩
/-- `DFB_CFG.SHARE_GIB`, bits [10:0]. -/
def Fld.dfbCfg_shareGib : Fld := ⟨.dfbCfg, 0, 11⟩
/-- `DFB_MAP_CFG.REQ_TMO_US`, bits [63:48]. -/
def Fld.dfbMapCfg_reqTmoUs : Fld := ⟨.dfbMapCfg, 48, 16⟩
/-- `DFB_MAP_CFG.ISOLATE_MS`, bits [47:32]. -/
def Fld.dfbMapCfg_isolateMs : Fld := ⟨.dfbMapCfg, 32, 16⟩
/-- `DFB_MAP_CFG.VOTERS`, bits [26:24]. -/
def Fld.dfbMapCfg_voters : Fld := ⟨.dfbMapCfg, 24, 3⟩
/-- `DFB_MAP_CFG.ELECT_MS`, bits [23:16]. -/
def Fld.dfbMapCfg_electMs : Fld := ⟨.dfbMapCfg, 16, 8⟩
/-- `DFB_MAP_CFG.SUSPECT_MS`, bits [15:8]. -/
def Fld.dfbMapCfg_suspectMs : Fld := ⟨.dfbMapCfg, 8, 8⟩
/-- `DFB_MAP_CFG.LEASE_MS`, bits [7:0]. -/
def Fld.dfbMapCfg_leaseMs : Fld := ⟨.dfbMapCfg, 0, 8⟩
/-- `DFB_GRANT_CFG.HIGH_PCT`, bits [39:32]. -/
def Fld.dfbGrantCfg_highPct : Fld := ⟨.dfbGrantCfg, 32, 8⟩
/-- `DFB_GRANT_CFG.RECLAIM_MS`, bits [31:16]. -/
def Fld.dfbGrantCfg_reclaimMs : Fld := ⟨.dfbGrantCfg, 16, 16⟩
/-- `DFB_GRANT_CFG.LEND_PCT`, bits [15:8]. -/
def Fld.dfbGrantCfg_lendPct : Fld := ⟨.dfbGrantCfg, 8, 8⟩
/-- `DFB_GRANT_CFG.FILL_PCT`, bits [7:0]. -/
def Fld.dfbGrantCfg_fillPct : Fld := ⟨.dfbGrantCfg, 0, 8⟩
/-- `DFB_STATUS.V2_DOMAIN`, bits [16:16]. -/
def Fld.dfbStatus_v2Domain : Fld := ⟨.dfbStatus, 16, 1⟩
/-- `DFB_STATUS.QUORUM`, bits [15:15]. -/
def Fld.dfbStatus_quorum : Fld := ⟨.dfbStatus, 15, 1⟩
/-- `DFB_STATUS.VOTER`, bits [14:14]. -/
def Fld.dfbStatus_voter : Fld := ⟨.dfbStatus, 14, 1⟩
/-- `DFB_STATUS.LEADER_VALID`, bits [13:13]. -/
def Fld.dfbStatus_leaderValid : Fld := ⟨.dfbStatus, 13, 1⟩
/-- `DFB_STATUS.LEADER`, bits [12:8]. -/
def Fld.dfbStatus_leader : Fld := ⟨.dfbStatus, 8, 5⟩
/-- `DFB_STATUS.SELF`, bits [7:3]. -/
def Fld.dfbStatus_self : Fld := ⟨.dfbStatus, 3, 5⟩
/-- `DFB_STATUS.STATE`, bits [2:0]. -/
def Fld.dfbStatus_state : Fld := ⟨.dfbStatus, 0, 3⟩
/-- `DFB_REGION_STATUS.STATE`, bits [25:24]. -/
def Fld.dfbRegionStatus_state : Fld := ⟨.dfbRegionStatus, 24, 2⟩
/-- `DFB_REGION_STATUS.REASON`, bits [23:16]. -/
def Fld.dfbRegionStatus_reason : Fld := ⟨.dfbRegionStatus, 16, 8⟩
/-- `DFB_REGION_STATUS.INDEX`, bits [13:0]. -/
def Fld.dfbRegionStatus_index : Fld := ⟨.dfbRegionStatus, 0, 14⟩
/-- `LNK_CFG.REKEY_S`, bits [15:0]. -/
def Fld.lnkCfg_rekeyS : Fld := ⟨.lnkCfg, 0, 16⟩
/-- `LNK_CFG.RETRAIN_MAX`, bits [19:16]. -/
def Fld.lnkCfg_retrainMax : Fld := ⟨.lnkCfg, 16, 4⟩
/-- `LNK_POLICE.RATE`, bits [15:0]. -/
def Fld.lnkPolice_rate : Fld := ⟨.lnkPolice, 0, 16⟩
/-- `LNK_POLICE.BURST_KIB`, bits [31:16]. -/
def Fld.lnkPolice_burstKib : Fld := ⟨.lnkPolice, 16, 16⟩
/-- `LNK_PORT_ERR.AUTH_FAIL`, bits [63:48]. -/
def Fld.lnkPortErr_authFail : Fld := ⟨.lnkPortErr, 48, 16⟩
/-- `LNK_GATE_STATUS.ERR`, bits [1:1]. -/
def Fld.lnkGateStatus_err : Fld := ⟨.lnkGateStatus, 1, 1⟩
/-- `LNK_GATE_ENT.OPEN`, bits [15:0]. -/
def Fld.lnkGateEnt_open : Fld := ⟨.lnkGateEnt, 0, 16⟩
/-- `LNK_GATE_ENT.DURATION`, bits [35:16]. -/
def Fld.lnkGateEnt_duration : Fld := ⟨.lnkGateEnt, 16, 20⟩
/-- `LNK_PORT_CFG.MIN_LANES`, bits [9:4]. -/
def Fld.lnkPortCfg_minLanes : Fld := ⟨.lnkPortCfg, 4, 6⟩
/-- `LNK_PORT_CFG.MAX_RATE`, bits [3:3]. -/
def Fld.lnkPortCfg_maxRate : Fld := ⟨.lnkPortCfg, 3, 1⟩
/-- `LNK_PORT_CFG.REACH`, bits [2:2]. -/
def Fld.lnkPortCfg_reach : Fld := ⟨.lnkPortCfg, 2, 1⟩
/-- `LNK_PORT_CFG.PLAIN_OK`, bits [1:1]. -/
def Fld.lnkPortCfg_plainOk : Fld := ⟨.lnkPortCfg, 1, 1⟩
/-- `LNK_PORT_CFG.ENABLE`, bits [0:0]. -/
def Fld.lnkPortCfg_enable : Fld := ⟨.lnkPortCfg, 0, 1⟩
/-- `LNK_PORT_STATUS.PROP_NS`, bits [63:48]. -/
def Fld.lnkPortStatus_propNs : Fld := ⟨.lnkPortStatus, 48, 16⟩
/-- `LNK_PORT_STATUS.FEATURES`, bits [47:32]. -/
def Fld.lnkPortStatus_features : Fld := ⟨.lnkPortStatus, 32, 16⟩
/-- `LNK_PORT_STATUS.REASON`, bits [31:24]. -/
def Fld.lnkPortStatus_reason : Fld := ⟨.lnkPortStatus, 24, 8⟩
/-- `LNK_PORT_STATUS.SUITE`, bits [23:20]. -/
def Fld.lnkPortStatus_suite : Fld := ⟨.lnkPortStatus, 20, 4⟩
/-- `LNK_PORT_STATUS.MINOR`, bits [19:16]. -/
def Fld.lnkPortStatus_minor : Fld := ⟨.lnkPortStatus, 16, 4⟩
/-- `LNK_PORT_STATUS.MAJOR`, bits [15:12]. -/
def Fld.lnkPortStatus_major : Fld := ⟨.lnkPortStatus, 12, 4⟩
/-- `LNK_PORT_STATUS.REACH`, bits [11:11]. -/
def Fld.lnkPortStatus_reach : Fld := ⟨.lnkPortStatus, 11, 1⟩
/-- `LNK_PORT_STATUS.RATE`, bits [10:10]. -/
def Fld.lnkPortStatus_rate : Fld := ⟨.lnkPortStatus, 10, 1⟩
/-- `LNK_PORT_STATUS.LANES`, bits [9:4]. -/
def Fld.lnkPortStatus_lanes : Fld := ⟨.lnkPortStatus, 4, 6⟩
/-- `LNK_PORT_STATUS.STATE`, bits [3:0]. -/
def Fld.lnkPortStatus_state : Fld := ⟨.lnkPortStatus, 0, 4⟩
/-- `LNK_Q_SHAPE.RXBUF_KIB`, bits [63:48]. -/
def Fld.lnkQShape_rxbufKib : Fld := ⟨.lnkQShape, 48, 16⟩
/-- `LNK_Q_SHAPE.QUANTUM`, bits [47:32]. -/
def Fld.lnkQShape_quantum : Fld := ⟨.lnkQShape, 32, 16⟩
/-- `LNK_Q_SHAPE.BURST_KIB`, bits [31:16]. -/
def Fld.lnkQShape_burstKib : Fld := ⟨.lnkQShape, 16, 16⟩
/-- `LNK_Q_SHAPE.RATE`, bits [9:0]. -/
def Fld.lnkQShape_rate : Fld := ⟨.lnkQShape, 0, 10⟩
/-- `LNK_GATE_CFG.SWAP`, bits [9:9]. -/
def Fld.lnkGateCfg_swap : Fld := ⟨.lnkGateCfg, 9, 1⟩
/-- `LNK_GATE_CFG.LEN`, bits [8:1]. -/
def Fld.lnkGateCfg_len : Fld := ⟨.lnkGateCfg, 1, 8⟩
/-- `LNK_GATE_CFG.ENABLE`, bits [0:0]. -/
def Fld.lnkGateCfg_enable : Fld := ⟨.lnkGateCfg, 0, 1⟩
/-- `LNK_HIST_SEL.CLEAR`, bits [28:28]. -/
def Fld.lnkHistSel_clear : Fld := ⟨.lnkHistSel, 28, 1⟩
/-- `LNK_HIST_SEL.CUSTOMER`, bits [27:12]. -/
def Fld.lnkHistSel_customer : Fld := ⟨.lnkHistSel, 12, 16⟩
/-- `LNK_HIST_SEL.QUEUE`, bits [11:8]. -/
def Fld.lnkHistSel_queue : Fld := ⟨.lnkHistSel, 8, 4⟩
/-- `LNK_HIST_SEL.PORT`, bits [7:3]. -/
def Fld.lnkHistSel_port : Fld := ⟨.lnkHistSel, 3, 5⟩
/-- `LNK_HIST_SEL.KIND`, bits [2:0]. -/
def Fld.lnkHistSel_kind : Fld := ⟨.lnkHistSel, 0, 3⟩
/-- `SEC_CTX_RETIRE.DISCARD`, bits [6:6]. -/
def Fld.secCtxRetire_discard : Fld := ⟨.secCtxRetire, 6, 1⟩
/-- `SEC_XMSS_NEXT.NEXT`, bits [39:0]. -/
def Fld.secXmssNext_next : Fld := ⟨.secXmssNext, 0, 40⟩
/-- `SEC_XMSS_RES.NEXT_RES`, bits [39:0]. -/
def Fld.secXmssRes_nextRes : Fld := ⟨.secXmssRes, 0, 40⟩
/-- `SEC_STATUS.PUF_FALLBACK`, bits [8:8]. -/
def Fld.secStatus_pufFallback : Fld := ⟨.secStatus, 8, 1⟩
/-- `SEC_STATUS.MRAM_COPIES`, bits [7:4]. -/
def Fld.secStatus_mramCopies : Fld := ⟨.secStatus, 4, 4⟩
/-- `SEC_STATUS.OWNED`, bits [2:2]. -/
def Fld.secStatus_owned : Fld := ⟨.secStatus, 2, 1⟩
/-- `SEC_STATUS.ID_STATE`, bits [1:0]. -/
def Fld.secStatus_idState : Fld := ⟨.secStatus, 0, 2⟩
/-- `SEC_CTX_STATUS.STATE`, bits [17:16]. -/
def Fld.secCtxStatus_state : Fld := ⟨.secCtxStatus, 16, 2⟩
/-- `SEC_CTX_STATUS.REASON`, bits [15:8]. -/
def Fld.secCtxStatus_reason : Fld := ⟨.secCtxStatus, 8, 8⟩
/-- `SEC_CTX_STATUS.INDEX`, bits [5:0]. -/
def Fld.secCtxStatus_index : Fld := ⟨.secCtxStatus, 0, 6⟩
/-- `SEC_QUIET_CFG.VCORE_MV`, bits [15:4]. -/
def Fld.secQuietCfg_vcoreMv : Fld := ⟨.secQuietCfg, 4, 12⟩
/-- `SEC_QUIET_CFG.HOLD_V`, bits [0:0]. -/
def Fld.secQuietCfg_holdV : Fld := ⟨.secQuietCfg, 0, 1⟩
/-- `SEC_FW.ROM_VER`, bits [39:36]. -/
def Fld.secFw_romVer : Fld := ⟨.secFw, 36, 4⟩
/-- `SEC_FW.KEY_FLOOR`, bits [35:34]. -/
def Fld.secFw_keyFloor : Fld := ⟨.secFw, 34, 2⟩
/-- `SEC_FW.KEY_INDEX`, bits [33:32]. -/
def Fld.secFw_keyIndex : Fld := ⟨.secFw, 32, 2⟩
/-- `SEC_FW.FW_FLOOR`, bits [31:16]. -/
def Fld.secFw_fwFloor : Fld := ⟨.secFw, 16, 16⟩
/-- `SEC_FW.SVN`, bits [15:0]. -/
def Fld.secFw_svn : Fld := ⟨.secFw, 0, 16⟩
/-- `SEC_CTX_STATE.TDI`, bits [13:12]. -/
def Fld.secCtxState_tdi : Fld := ⟨.secCtxState, 12, 2⟩
/-- `SEC_CTX_STATE.QT`, bits [11:7]. -/
def Fld.secCtxState_qt : Fld := ⟨.secCtxState, 7, 5⟩
/-- `SEC_CTX_STATE.HOSTS`, bits [6:5]. -/
def Fld.secCtxState_hosts : Fld := ⟨.secCtxState, 5, 2⟩
/-- `SEC_CTX_STATE.QUIET`, bits [4:4]. -/
def Fld.secCtxState_quiet : Fld := ⟨.secCtxState, 4, 1⟩
/-- `SEC_CTX_STATE.CONF`, bits [3:3]. -/
def Fld.secCtxState_conf : Fld := ⟨.secCtxState, 3, 1⟩
/-- `SEC_CTX_STATE.FREEZE`, bits [2:2]. -/
def Fld.secCtxState_freeze : Fld := ⟨.secCtxState, 2, 1⟩
/-- `SEC_CTX_STATE.STATE`, bits [1:0]. -/
def Fld.secCtxState_state : Fld := ⟨.secCtxState, 0, 2⟩
/-- `PWR_VOLTS.VIN`, bits [15:0]. -/
def Fld.pwrVolts_vin : Fld := ⟨.pwrVolts, 0, 16⟩
/-- `PWR_VOLTS.VSUP`, bits [31:16]. -/
def Fld.pwrVolts_vsup : Fld := ⟨.pwrVolts, 16, 16⟩
/-- `PWR_VOLTS.VBANK`, bits [47:32]. -/
def Fld.pwrVolts_vbank : Fld := ⟨.pwrVolts, 32, 16⟩
/-- `PWR_BANK.ESR`, bits [47:32]. -/
def Fld.pwrBank_esr : Fld := ⟨.pwrBank, 32, 16⟩
/-- `PWR_BANK_LIMIT.C_MIN`, bits [31:0]. -/
def Fld.pwrBankLimit_cMin : Fld := ⟨.pwrBankLimit, 0, 32⟩
/-- `PWR_BANK_LIMIT.ESR_MAX`, bits [47:32]. -/
def Fld.pwrBankLimit_esrMax : Fld := ⟨.pwrBankLimit, 32, 16⟩
/-- `PWR_PMBUS_CFG.ENABLE`, bits [7:7]. -/
def Fld.pwrPmbusCfg_enable : Fld := ⟨.pwrPmbusCfg, 7, 1⟩
/-- `PWR_PMBUS_CFG.INTERVAL_MS`, bits [15:8]. -/
def Fld.pwrPmbusCfg_intervalMs : Fld := ⟨.pwrPmbusCfg, 8, 8⟩
/-- `PWR_PSU.POUT`, bits [15:0]. -/
def Fld.pwrPsu_pout : Fld := ⟨.pwrPsu, 0, 16⟩
/-- `PWR_PSU.STATUS_WORD`, bits [31:16]. -/
def Fld.pwrPsu_statusWord : Fld := ⟨.pwrPsu, 16, 16⟩
/-- `PWR_PSU.VIN`, bits [47:32]. -/
def Fld.pwrPsu_vin : Fld := ⟨.pwrPsu, 32, 16⟩
/-- `PWR_STATUS.DEFICIT`, bits [7:7]. -/
def Fld.pwrStatus_deficit : Fld := ⟨.pwrStatus, 7, 1⟩
/-- `PWR_STATUS.BANK_LOW`, bits [6:6]. -/
def Fld.pwrStatus_bankLow : Fld := ⟨.pwrStatus, 6, 1⟩
/-- `PWR_STATUS.TIER2`, bits [5:5]. -/
def Fld.pwrStatus_tier2 : Fld := ⟨.pwrStatus, 5, 1⟩
/-- `PWR_STATUS.CHARGING`, bits [4:4]. -/
def Fld.pwrStatus_charging : Fld := ⟨.pwrStatus, 4, 1⟩
/-- `PWR_STATUS.HU_EN`, bits [3:3]. -/
def Fld.pwrStatus_huEn : Fld := ⟨.pwrStatus, 3, 1⟩
/-- `PWR_STATUS.STATE`, bits [2:0]. -/
def Fld.pwrStatus_state : Fld := ⟨.pwrStatus, 0, 3⟩
/-- `PWR_CHG_CFG.TEST_H`, bits [47:40]. -/
def Fld.pwrChgCfg_testH : Fld := ⟨.pwrChgCfg, 40, 8⟩
/-- `PWR_CHG_CFG.ENABLE`, bits [32:32]. -/
def Fld.pwrChgCfg_enable : Fld := ⟨.pwrChgCfg, 32, 1⟩
/-- `PWR_CHG_CFG.CHG_MAX_W`, bits [31:16]. -/
def Fld.pwrChgCfg_chgMaxW : Fld := ⟨.pwrChgCfg, 16, 16⟩
/-- `PWR_CHG_CFG.CHG_SET_CV`, bits [15:0]. -/
def Fld.pwrChgCfg_chgSetCv : Fld := ⟨.pwrChgCfg, 0, 16⟩
/-- `PWR_HOLD_CFG.ARRAY_W`, bits [47:32]. -/
def Fld.pwrHoldCfg_arrayW : Fld := ⟨.pwrHoldCfg, 32, 16⟩
/-- `PWR_HOLD_CFG.PMBUS_HOLD`, bits [25:25]. -/
def Fld.pwrHoldCfg_pmbusHold : Fld := ⟨.pwrHoldCfg, 25, 1⟩
/-- `PWR_HOLD_CFG.FULL_EN`, bits [24:24]. -/
def Fld.pwrHoldCfg_fullEn : Fld := ⟨.pwrHoldCfg, 24, 1⟩
/-- `PWR_HOLD_CFG.MARGIN_PCT`, bits [23:16]. -/
def Fld.pwrHoldCfg_marginPct : Fld := ⟨.pwrHoldCfg, 16, 8⟩
/-- `PWR_HOLD_CFG.V_MIN`, bits [15:0]. -/
def Fld.pwrHoldCfg_vMin : Fld := ⟨.pwrHoldCfg, 0, 16⟩
/-- `GLB_IDENT.JTAG`, bits [63:32]. -/
def Fld.glbIdent_jtag : Fld := ⟨.glbIdent, 32, 32⟩
/-- `GLB_RESET.KIND`, bits [3:0]. -/
def Fld.glbReset_kind : Fld := ⟨.glbReset, 0, 4⟩
/-- `GLB_RESET.TARGET`, bits [8:4]. -/
def Fld.glbReset_target : Fld := ⟨.glbReset, 4, 5⟩
/-- `GLB_FW_ACTIVATE.SOURCE`, bits [1:0]. -/
def Fld.glbFwActivate_source : Fld := ⟨.glbFwActivate, 0, 2⟩
/-- `GLB_STATUS.TRIAL`, bits [11:11]. -/
def Fld.glbStatus_trial : Fld := ⟨.glbStatus, 11, 1⟩
/-- `GLB_STATUS.RESTART`, bits [10:10]. -/
def Fld.glbStatus_restart : Fld := ⟨.glbStatus, 10, 1⟩
/-- `GLB_STATUS.BOOT_HUB`, bits [9:8]. -/
def Fld.glbStatus_bootHub : Fld := ⟨.glbStatus, 8, 2⟩
/-- `GLB_STATUS.HUBS`, bits [7:4]. -/
def Fld.glbStatus_hubs : Fld := ⟨.glbStatus, 4, 4⟩
/-- `GLB_STATUS.REG_HUB`, bits [3:2]. -/
def Fld.glbStatus_regHub : Fld := ⟨.glbStatus, 2, 2⟩
/-- `GLB_STATUS.CORNER_EXCEEDED`, bits [1:1]. -/
def Fld.glbStatus_cornerExceeded : Fld := ⟨.glbStatus, 1, 1⟩
/-- `GLB_STATUS.SERVICE`, bits [0:0]. -/
def Fld.glbStatus_service : Fld := ⟨.glbStatus, 0, 1⟩
/-- `GLB_BOOT_STATUS.CHANNELS`, bits [63:32]. -/
def Fld.glbBootStatus_channels : Fld := ⟨.glbBootStatus, 32, 32⟩
/-- `GLB_BOOT_STATUS.STACKS`, bits [31:8]. -/
def Fld.glbBootStatus_stacks : Fld := ⟨.glbBootStatus, 8, 24⟩
/-- `GLB_BOOT_STATUS.HUBS`, bits [7:4]. -/
def Fld.glbBootStatus_hubs : Fld := ⟨.glbBootStatus, 4, 4⟩
/-- `GLB_BOOT_STATUS.SELFTEST_FAIL`, bits [3:3]. -/
def Fld.glbBootStatus_selftestFail : Fld := ⟨.glbBootStatus, 3, 1⟩
/-- `GLB_BOOT_STATUS.CLEAN`, bits [2:2]. -/
def Fld.glbBootStatus_clean : Fld := ⟨.glbBootStatus, 2, 1⟩
/-- `GLB_BOOT_STATUS.SOURCE`, bits [1:0]. -/
def Fld.glbBootStatus_source : Fld := ⟨.glbBootStatus, 0, 2⟩
/-- `GLB_EVT_CFG.HOLDOFF_US`, bits [50:35]. -/
def Fld.glbEvtCfg_holdoffUs : Fld := ⟨.glbEvtCfg, 35, 16⟩
/-- `GLB_EVT_CFG.CONNECTION`, bits [34:3]. -/
def Fld.glbEvtCfg_connection : Fld := ⟨.glbEvtCfg, 3, 32⟩
/-- `GLB_EVT_CFG.SINIL_PORT`, bits [2:2]. -/
def Fld.glbEvtCfg_sinilPort : Fld := ⟨.glbEvtCfg, 2, 1⟩
/-- `GLB_EVT_CFG.SINIL_EN`, bits [1:1]. -/
def Fld.glbEvtCfg_sinilEn : Fld := ⟨.glbEvtCfg, 1, 1⟩
/-- `GLB_EVT_CFG.MSIX_EN`, bits [0:0]. -/
def Fld.glbEvtCfg_msixEn : Fld := ⟨.glbEvtCfg, 0, 1⟩
/-- `TIM_CFG.PPS_EN`, bits [0:0]. -/
def Fld.timCfg_ppsEn : Fld := ⟨.timCfg, 0, 1⟩
/-- `TIM_CFG.REF_PREF`, bits [1:1]. -/
def Fld.timCfg_refPref : Fld := ⟨.timCfg, 1, 1⟩
/-- `TIM_CFG.STEP_EN`, bits [2:2]. -/
def Fld.timCfg_stepEn : Fld := ⟨.timCfg, 2, 1⟩
/-- `TIM_CFG.SLEW_PPM`, bits [10:3]. -/
def Fld.timCfg_slewPpm : Fld := ⟨.timCfg, 3, 8⟩
/-- `TIM_PTP_CFG.DOMAIN`, bits [6:0]. -/
def Fld.timPtpCfg_domain : Fld := ⟨.timPtpCfg, 0, 7⟩
/-- `TIM_PTP_CFG.ENABLE`, bits [7:7]. -/
def Fld.timPtpCfg_enable : Fld := ⟨.timPtpCfg, 7, 1⟩
/-- `TIM_PTP_CFG.PRIORITY1`, bits [17:10]. -/
def Fld.timPtpCfg_priority1 : Fld := ⟨.timPtpCfg, 10, 8⟩
/-- `TIM_PTP_CFG.PRIORITY2`, bits [25:18]. -/
def Fld.timPtpCfg_priority2 : Fld := ⟨.timPtpCfg, 18, 8⟩
/-- `TIM_STATUS.CLOCK_CLASS`, bits [45:38]. -/
def Fld.timStatus_clockClass : Fld := ⟨.timStatus, 38, 8⟩
/-- `TIM_STATUS.MASTER_VALID`, bits [37:37]. -/
def Fld.timStatus_masterValid : Fld := ⟨.timStatus, 37, 1⟩
/-- `TIM_STATUS.MASTER`, bits [36:32]. -/
def Fld.timStatus_master : Fld := ⟨.timStatus, 32, 5⟩
/-- `TIM_STATUS.ERROR_NS`, bits [31:16]. -/
def Fld.timStatus_errorNs : Fld := ⟨.timStatus, 16, 16⟩
/-- `TIM_STATUS.DOMAIN_LOCKED`, bits [5:5]. -/
def Fld.timStatus_domainLocked : Fld := ⟨.timStatus, 5, 1⟩
/-- `TIM_STATUS.SLEWING`, bits [4:4]. -/
def Fld.timStatus_slewing : Fld := ⟨.timStatus, 4, 1⟩
/-- `TIM_STATUS.TRACEABLE`, bits [3:3]. -/
def Fld.timStatus_traceable : Fld := ⟨.timStatus, 3, 1⟩
/-- `TIM_STATUS.TIME_VALID`, bits [2:2]. -/
def Fld.timStatus_timeValid : Fld := ⟨.timStatus, 2, 1⟩
/-- `TIM_STATUS.SOURCE`, bits [1:0]. -/
def Fld.timStatus_source : Fld := ⟨.timStatus, 0, 2⟩
/-- `DBG_FRZ_STATUS.CAUSE`, bits [3:2]. -/
def Fld.dbgFrzStatus_cause : Fld := ⟨.dbgFrzStatus, 2, 2⟩
/-- `DBG_READOUT_CFG.LANE_EN`, bits [24:24]. -/
def Fld.dbgReadoutCfg_laneEn : Fld := ⟨.dbgReadoutCfg, 24, 1⟩
/-- `DBG_TRACE_CFG.ENABLE`, bits [0:0]. -/
def Fld.dbgTraceCfg_enable : Fld := ⟨.dbgTraceCfg, 0, 1⟩
/-- `DBG_TRACE_CFG.CONNECTION`, bits [39:8]. -/
def Fld.dbgTraceCfg_connection : Fld := ⟨.dbgTraceCfg, 8, 32⟩

/-- One event bit of an event register (R399, R407). -/
structure Evt where
  reg : Reg
  bit : Nat
  deriving DecidableEq, Repr

/-- `TLR_EVT.LOAD_DONE`. -/
def Evt.tlr_loadDone : Evt := ⟨.tlrEvt, 0⟩
/-- `TLR_EVT.LOAD_REFUSED`. -/
def Evt.tlr_loadRefused : Evt := ⟨.tlrEvt, 1⟩
/-- `TLR_EVT.RUN_QUEUE_FULL`. -/
def Evt.tlr_runQueueFull : Evt := ⟨.tlrEvt, 2⟩
/-- `TLR_EVT.LATE_CANCEL`. -/
def Evt.tlr_lateCancel : Evt := ⟨.tlrEvt, 3⟩
/-- `TLR_EVT.RCPT_LOST`. -/
def Evt.tlr_rcptLost : Evt := ⟨.tlrEvt, 4⟩
/-- `TLR_EVT.CANCEL_NOMATCH`. -/
def Evt.tlr_cancelNomatch : Evt := ⟨.tlrEvt, 5⟩
/-- `TLR_EVT.RUNQ_REDISPATCH`. -/
def Evt.tlr_runqRedispatch : Evt := ⟨.tlrEvt, 6⟩
/-- `SSN_EVT.SESSION_LOST`. -/
def Evt.ssn_sessionLost : Evt := ⟨.ssnEvt, 0⟩
/-- `SSN_EVT.T1_HIGH`. -/
def Evt.ssn_t1High : Evt := ⟨.ssnEvt, 1⟩
/-- `SSN_EVT.PARK_NO_SPACE`. -/
def Evt.ssn_parkNoSpace : Evt := ⟨.ssnEvt, 2⟩
/-- `SSN_EVT.REVIVE_PREEMPT`. -/
def Evt.ssn_revivePreempt : Evt := ⟨.ssnEvt, 3⟩
/-- `SSN_EVT.PB_SINGLE`. -/
def Evt.ssn_pbSingle : Evt := ⟨.ssnEvt, 4⟩
/-- `SSN_EVT.PHASE_BUSY`. -/
def Evt.ssn_phaseBusy : Evt := ⟨.ssnEvt, 5⟩
/-- `SSN_EVT.DIR_REBUILD`. -/
def Evt.ssn_dirRebuild : Evt := ⟨.ssnEvt, 6⟩
/-- `KVA_EVT.UNCORR_ATTN`. -/
def Evt.kva_uncorrAttn : Evt := ⟨.kvaEvt, 0⟩
/-- `KVA_EVT.POISON_ATTN`. -/
def Evt.kva_poisonAttn : Evt := ⟨.kvaEvt, 1⟩
/-- `KVA_EVT.ENGINE_FAULT`. -/
def Evt.kva_engineFault : Evt := ⟨.kvaEvt, 2⟩
/-- `KVA_EVT.NAN_SEEN`. -/
def Evt.kva_nanSeen : Evt := ⟨.kvaEvt, 3⟩
/-- `KVA_EVT.DIGEST_LATE`. -/
def Evt.kva_digestLate : Evt := ⟨.kvaEvt, 4⟩
/-- `KVA_EVT.MSG_REFUSED`. -/
def Evt.kva_msgRefused : Evt := ⟨.kvaEvt, 5⟩
/-- `SCH_EVT.ADMIT_DEFER`. -/
def Evt.sch_admitDefer : Evt := ⟨.schEvt, 0⟩
/-- `SCH_EVT.BUDGET`. -/
def Evt.sch_budget : Evt := ⟨.schEvt, 1⟩
/-- `SCH_EVT.RENT_DEBT`. -/
def Evt.sch_rentDebt : Evt := ⟨.schEvt, 2⟩
/-- `SCH_EVT.GROUP_TIMEOUT`. -/
def Evt.sch_groupTimeout : Evt := ⟨.schEvt, 3⟩
/-- `SCH_EVT.ROLE_CHANGE`. -/
def Evt.sch_roleChange : Evt := ⟨.schEvt, 4⟩
/-- `SCH_EVT.RPT_BACKPRESSURE`. -/
def Evt.sch_rptBackpressure : Evt := ⟨.schEvt, 5⟩
/-- `SCH_EVT.HSV_MISSING`. -/
def Evt.sch_hsvMissing : Evt := ⟨.schEvt, 6⟩
/-- `SCH_EVT.RAMP_HOLD`. -/
def Evt.sch_rampHold : Evt := ⟨.schEvt, 7⟩
/-- `SCH_EVT.CFG_REFUSED`. -/
def Evt.sch_cfgRefused : Evt := ⟨.schEvt, 8⟩
/-- `SCH_EVT.RPT_DISABLED`. -/
def Evt.sch_rptDisabled : Evt := ⟨.schEvt, 9⟩
/-- `TXT_EVT.LOAD_DONE`. -/
def Evt.txt_loadDone : Evt := ⟨.txtEvt, 0⟩
/-- `TXT_EVT.LOAD_REFUSED`. -/
def Evt.txt_loadRefused : Evt := ⟨.txtEvt, 1⟩
/-- `TXT_EVT.MINT_INVALID`. -/
def Evt.txt_mintInvalid : Evt := ⟨.txtEvt, 2⟩
/-- `TXT_EVT.MINT_TRUNC`. -/
def Evt.txt_mintTrunc : Evt := ⟨.txtEvt, 3⟩
/-- `TXT_EVT.CLR_DEAD`. -/
def Evt.txt_clrDead : Evt := ⟨.txtEvt, 4⟩
/-- `TXT_EVT.NAN_LOGIT`. -/
def Evt.txt_nanLogit : Evt := ⟨.txtEvt, 5⟩
/-- `TXT_EVT.NO_FINITE`. -/
def Evt.txt_noFinite : Evt := ⟨.txtEvt, 6⟩
/-- `TXT_EVT.STOP`. -/
def Evt.txt_stop : Evt := ⟨.txtEvt, 7⟩
/-- `VSR_EVT.CREATE_DONE`. -/
def Evt.vsr_createDone : Evt := ⟨.vsrEvt, 0⟩
/-- `VSR_EVT.CREATE_REFUSED`. -/
def Evt.vsr_createRefused : Evt := ⟨.vsrEvt, 1⟩
/-- `VSR_EVT.FOLD_DONE`. -/
def Evt.vsr_foldDone : Evt := ⟨.vsrEvt, 2⟩
/-- `VSR_EVT.SEARCH_DEFER`. -/
def Evt.vsr_searchDefer : Evt := ⟨.vsrEvt, 3⟩
/-- `VSR_EVT.PARTIAL`. -/
def Evt.vsr_partial : Evt := ⟨.vsrEvt, 4⟩
/-- `VSR_EVT.DEGRADED`. -/
def Evt.vsr_degraded : Evt := ⟨.vsrEvt, 5⟩
/-- `VSR_EVT.SKETCH_LOST`. -/
def Evt.vsr_sketchLost : Evt := ⟨.vsrEvt, 6⟩
/-- `VSR_EVT.CFG_REFUSED`. -/
def Evt.vsr_cfgRefused : Evt := ⟨.vsrEvt, 7⟩
/-- `FLS_EVT.POOL_CLOSED`. -/
def Evt.fls_poolClosed : Evt := ⟨.flsEvt, 0⟩
/-- `FLS_EVT.READ_ONLY`. -/
def Evt.fls_readOnly : Evt := ⟨.flsEvt, 1⟩
/-- `FLS_EVT.TILL_SPILL`. -/
def Evt.fls_tillSpill : Evt := ⟨.flsEvt, 2⟩
/-- `FLS_EVT.GC_URGENT`. -/
def Evt.fls_gcUrgent : Evt := ⟨.flsEvt, 3⟩
/-- `FLS_EVT.LUN_FAILED`. -/
def Evt.fls_lunFailed : Evt := ⟨.flsEvt, 4⟩
/-- `FLS_EVT.UNIT_LOST`. -/
def Evt.fls_unitLost : Evt := ⟨.flsEvt, 5⟩
/-- `FLS_EVT.SB_RETIRED`. -/
def Evt.fls_sbRetired : Evt := ⟨.flsEvt, 6⟩
/-- `FLS_EVT.SDISC_DONE`. -/
def Evt.fls_sdiscDone : Evt := ⟨.flsEvt, 7⟩
/-- `FLS_EVT.CH_REFUSED`. -/
def Evt.fls_chRefused : Evt := ⟨.flsEvt, 8⟩
/-- `STM_EVT.COMMIT`. -/
def Evt.stm_commit : Evt := ⟨.stmEvt, 0⟩
/-- `STM_EVT.ROLLBACK`. -/
def Evt.stm_rollback : Evt := ⟨.stmEvt, 1⟩
/-- `STM_EVT.TAKEOVER_DONE`. -/
def Evt.stm_takeoverDone : Evt := ⟨.stmEvt, 2⟩
/-- `STM_EVT.CF_LOST`. -/
def Evt.stm_cfLost : Evt := ⟨.stmEvt, 3⟩
/-- `STM_EVT.CF_REFUSED`. -/
def Evt.stm_cfRefused : Evt := ⟨.stmEvt, 4⟩
/-- `STM_EVT.REPLICA_DIVERGE`. -/
def Evt.stm_replicaDiverge : Evt := ⟨.stmEvt, 5⟩
/-- `STM_EVT.FLUSH_HOLD`. -/
def Evt.stm_flushHold : Evt := ⟨.stmEvt, 6⟩
/-- `STM_EVT.FLUSH_REFUSED`. -/
def Evt.stm_flushRefused : Evt := ⟨.stmEvt, 7⟩
/-- `STM_EVT.SLOT_POISON`. -/
def Evt.stm_slotPoison : Evt := ⟨.stmEvt, 8⟩
/-- `NMC_EVT.CREATE_DONE`. -/
def Evt.nmc_createDone : Evt := ⟨.nmcEvt, 0⟩
/-- `NMC_EVT.CREATE_REFUSED`. -/
def Evt.nmc_createRefused : Evt := ⟨.nmcEvt, 1⟩
/-- `NMC_EVT.ACCESS_REFUSED`. -/
def Evt.nmc_accessRefused : Evt := ⟨.nmcEvt, 2⟩
/-- `NMC_EVT.AGENT_FAILED`. -/
def Evt.nmc_agentFailed : Evt := ⟨.nmcEvt, 3⟩
/-- `NMC_EVT.RECALL_RETRY`. -/
def Evt.nmc_recallRetry : Evt := ⟨.nmcEvt, 4⟩
/-- `NMC_EVT.DIR_EVICT`. -/
def Evt.nmc_dirEvict : Evt := ⟨.nmcEvt, 5⟩
/-- `DFB_EVT.JOIN_DONE`. -/
def Evt.dfb_joinDone : Evt := ⟨.dfbEvt, 0⟩
/-- `DFB_EVT.JOIN_REFUSED`. -/
def Evt.dfb_joinRefused : Evt := ⟨.dfbEvt, 1⟩
/-- `DFB_EVT.MEMBER_REMOVED`. -/
def Evt.dfb_memberRemoved : Evt := ⟨.dfbEvt, 2⟩
/-- `DFB_EVT.ISOLATED`. -/
def Evt.dfb_isolated : Evt := ⟨.dfbEvt, 3⟩
/-- `DFB_EVT.QUORUM_LOST`. -/
def Evt.dfb_quorumLost : Evt := ⟨.dfbEvt, 4⟩
/-- `DFB_EVT.DATA_LOST`. -/
def Evt.dfb_dataLost : Evt := ⟨.dfbEvt, 5⟩
/-- `DFB_EVT.CREATE_REFUSED`. -/
def Evt.dfb_createRefused : Evt := ⟨.dfbEvt, 6⟩
/-- `DFB_EVT.NO_SPACE`. -/
def Evt.dfb_noSpace : Evt := ⟨.dfbEvt, 7⟩
/-- `DFB_EVT.BORROWER_LATE`. -/
def Evt.dfb_borrowerLate : Evt := ⟨.dfbEvt, 8⟩
/-- `DFB_EVT.LAPSE`. -/
def Evt.dfb_lapse : Evt := ⟨.dfbEvt, 9⟩
/-- `LNK_EVT.PORT_UP`. -/
def Evt.lnk_portUp : Evt := ⟨.lnkEvt, 0⟩
/-- `LNK_EVT.PORT_REFUSED`. -/
def Evt.lnk_portRefused : Evt := ⟨.lnkEvt, 1⟩
/-- `LNK_EVT.RETRAIN`. -/
def Evt.lnk_retrain : Evt := ⟨.lnkEvt, 2⟩
/-- `LNK_EVT.PORT_FAILED`. -/
def Evt.lnk_portFailed : Evt := ⟨.lnkEvt, 3⟩
/-- `LNK_EVT.AUTH_FAIL`. -/
def Evt.lnk_authFail : Evt := ⟨.lnkEvt, 4⟩
/-- `LNK_EVT.REKEY_LATE`. -/
def Evt.lnk_rekeyLate : Evt := ⟨.lnkEvt, 5⟩
/-- `LNK_EVT.POLICE_DROP`. -/
def Evt.lnk_policeDrop : Evt := ⟨.lnkEvt, 6⟩
/-- `LNK_EVT.GATE_ERR`. -/
def Evt.lnk_gateErr : Evt := ⟨.lnkEvt, 7⟩
/-- `LNK_EVT.FALLBACK`. -/
def Evt.lnk_fallback : Evt := ⟨.lnkEvt, 8⟩
/-- `SEC_EVT.INSTALL_DONE`. -/
def Evt.sec_installDone : Evt := ⟨.secEvt, 0⟩
/-- `SEC_EVT.INSTALL_REFUSED`. -/
def Evt.sec_installRefused : Evt := ⟨.secEvt, 1⟩
/-- `SEC_EVT.SWEEP_DONE`. -/
def Evt.sec_sweepDone : Evt := ⟨.secEvt, 2⟩
/-- `SEC_EVT.ID_LOW`. -/
def Evt.sec_idLow : Evt := ⟨.secEvt, 3⟩
/-- `SEC_EVT.ID_EXHAUSTED`. -/
def Evt.sec_idExhausted : Evt := ⟨.secEvt, 4⟩
/-- `SEC_EVT.MRAM_COPY`. -/
def Evt.sec_mramCopy : Evt := ⟨.secEvt, 5⟩
/-- `SEC_EVT.FW_REFUSED`. -/
def Evt.sec_fwRefused : Evt := ⟨.secEvt, 6⟩
/-- `SEC_EVT.TDI_ERROR`. -/
def Evt.sec_tdiError : Evt := ⟨.secEvt, 7⟩
/-- `SEC_EVT.KEYS_FAIL`. -/
def Evt.sec_keysFail : Evt := ⟨.secEvt, 8⟩
/-- `PWR_EVT.HOLD`. -/
def Evt.pwr_hold : Evt := ⟨.pwrEvt, 0⟩
/-- `PWR_EVT.DIP`. -/
def Evt.pwr_dip : Evt := ⟨.pwrEvt, 1⟩
/-- `PWR_EVT.POWER_FAIL`. -/
def Evt.pwr_powerFail : Evt := ⟨.pwrEvt, 2⟩
/-- `PWR_EVT.FLUSH_DONE`. -/
def Evt.pwr_flushDone : Evt := ⟨.pwrEvt, 3⟩
/-- `PWR_EVT.RESUMED`. -/
def Evt.pwr_resumed : Evt := ⟨.pwrEvt, 4⟩
/-- `PWR_EVT.TIER2_CUT`. -/
def Evt.pwr_tier2Cut : Evt := ⟨.pwrEvt, 5⟩
/-- `PWR_EVT.BANK_AGED`. -/
def Evt.pwr_bankAged : Evt := ⟨.pwrEvt, 6⟩
/-- `PWR_EVT.BANK_TEST_LATE`. -/
def Evt.pwr_bankTestLate : Evt := ⟨.pwrEvt, 7⟩
/-- `PWR_EVT.DEFICIT`. -/
def Evt.pwr_deficit : Evt := ⟨.pwrEvt, 8⟩
/-- `PWR_EVT.BANK_LOW`. -/
def Evt.pwr_bankLow : Evt := ⟨.pwrEvt, 9⟩
/-- `PWR_EVT.PSU_FAULT`. -/
def Evt.pwr_psuFault : Evt := ⟨.pwrEvt, 10⟩
/-- `PWR_EVT.OVERVOLT`. -/
def Evt.pwr_overvolt : Evt := ⟨.pwrEvt, 11⟩
/-- `PWR_EVT.FREEZE_DEFERRED`. -/
def Evt.pwr_freezeDeferred : Evt := ⟨.pwrEvt, 12⟩
/-- `GLB_EVT.CORNER_EXCEEDED`. -/
def Evt.glb_cornerExceeded : Evt := ⟨.glbEvt, 0⟩
/-- `GLB_EVT.ACCESS_ERR`. -/
def Evt.glb_accessErr : Evt := ⟨.glbEvt, 1⟩
/-- `GLB_EVT.HUB_FAILED`. -/
def Evt.glb_hubFailed : Evt := ⟨.glbEvt, 2⟩
/-- `GLB_EVT.STACK_OFFLINE`. -/
def Evt.glb_stackOffline : Evt := ⟨.glbEvt, 3⟩
/-- `GLB_EVT.SELFTEST_FAIL`. -/
def Evt.glb_selftestFail : Evt := ⟨.glbEvt, 4⟩
/-- `GLB_EVT.RESTART_DONE`. -/
def Evt.glb_restartDone : Evt := ⟨.glbEvt, 5⟩
/-- `GLB_EVT.FW_TRIAL_END`. -/
def Evt.glb_fwTrialEnd : Evt := ⟨.glbEvt, 6⟩
/-- `TIM_EVT.REF_LOST`. -/
def Evt.tim_refLost : Evt := ⟨.timEvt, 0⟩
/-- `TIM_EVT.HOLDOVER`. -/
def Evt.tim_holdover : Evt := ⟨.timEvt, 1⟩
/-- `TIM_EVT.VALID_DROP`. -/
def Evt.tim_validDrop : Evt := ⟨.timEvt, 2⟩
/-- `TIM_EVT.STEP`. -/
def Evt.tim_step : Evt := ⟨.timEvt, 3⟩
/-- `TIM_EVT.MASTER_CHANGE`. -/
def Evt.tim_masterChange : Evt := ⟨.timEvt, 4⟩
/-- `TIM_EVT.TRACEABLE_LOST`. -/
def Evt.tim_traceableLost : Evt := ⟨.timEvt, 5⟩
/-- `DBG_EVT.FROZEN`. -/
def Evt.dbg_frozen : Evt := ⟨.dbgEvt, 0⟩
/-- `DBG_EVT.RELEASED`. -/
def Evt.dbg_released : Evt := ⟨.dbgEvt, 1⟩
/-- `DBG_EVT.TRACE_DROP`. -/
def Evt.dbg_traceDrop : Evt := ⟨.dbgEvt, 2⟩

end Sys2Proof.Machine
end

