-- ==== Sys2Proof/Machine/Tbl.lean ====
section
/-! DEFINITION. Finite tables held as plain data: at most one row per key, the latest write first. -/

namespace Sys2Proof.Machine

/-- A finite table from keys to values, as rows. -/
structure Tbl (α β : Type) where
  rows : List (α × β)
  deriving DecidableEq, Repr

/-- The value in the first of `rows` whose key is `k`. -/
def rowsLook {α β : Type} [DecidableEq α] : List (α × β) → α → Option β
  | [], _ => none
  | (a, b) :: rest, k => if a = k then some b else rowsLook rest k

/-- The empty table. -/
def Tbl.empty {α β : Type} : Tbl α β := ⟨[]⟩

/-- The row of key `k`, if there is one. -/
def Tbl.look {α β : Type} [DecidableEq α] (t : Tbl α β) (k : α) : Option β := rowsLook t.rows k

/-- The row of key `k`, or `d` where there is none. -/
def Tbl.lookD {α β : Type} [DecidableEq α] (t : Tbl α β) (k : α) (d : β) : β := (t.look k).getD d

/-- The table without the row of `k`. -/
def Tbl.del {α β : Type} [DecidableEq α] (t : Tbl α β) (k : α) : Tbl α β :=
  ⟨t.rows.filter (fun p => decide (p.1 ≠ k))⟩

/-- The table with the row of `k` holding `v`. -/
def Tbl.put {α β : Type} [DecidableEq α] (t : Tbl α β) (k : α) (v : β) : Tbl α β :=
  ⟨(k, v) :: (t.del k).rows⟩

/-- Change the row of `k`, if there is one. -/
def Tbl.upd {α β : Type} [DecidableEq α] (t : Tbl α β) (k : α) (f : β → β) : Tbl α β :=
  match t.look k with
  | none => t
  | some v => t.put k (f v)

/-- Change every row's value. -/
def Tbl.mapVals {α β : Type} (t : Tbl α β) (f : α → β → β) : Tbl α β :=
  ⟨t.rows.map (fun p => (p.1, f p.1 p.2))⟩

/-- The rows that satisfy `p`. -/
def Tbl.keep {α β : Type} (t : Tbl α β) (p : α → β → Bool) : Tbl α β :=
  ⟨t.rows.filter (fun r => p r.1 r.2)⟩

/-- How many rows satisfy `p`. -/
def Tbl.countIf {α β : Type} (t : Tbl α β) (p : α → β → Bool) : Nat :=
  (t.rows.filter (fun r => p r.1 r.2)).length

/-- The keys of the rows that satisfy `p`. -/
def Tbl.keysIf {α β : Type} (t : Tbl α β) (p : α → β → Bool) : List α :=
  (t.rows.filter (fun r => p r.1 r.2)).map (·.1)

/-- Whether some row satisfies `p`. -/
def Tbl.any {α β : Type} (t : Tbl α β) (p : α → β → Bool) : Bool :=
  t.rows.any (fun r => p r.1 r.2)

/-- Whether the table has a row for `k`. -/
def Tbl.has {α β : Type} [DecidableEq α] (t : Tbl α β) (k : α) : Bool := (t.look k).isSome

/-- Number of rows. -/
def Tbl.size {α β : Type} (t : Tbl α β) : Nat := t.rows.length

/-- The lowest number below `n` that is no key of the table. -/
def lowestFree (used : Nat → Bool) : Nat → Nat → Option Nat
  | _, 0 => none
  | i, n + 1 => if used i then lowestFree used (i + 1) n else some i

end Sys2Proof.Machine
end

