-- ==== Sys2Proof/Machine/State.lean ====
section
/-! DEFINITION. The state of the controller as plain data, the reasons a step can stop, and the state right after reset. -/

namespace Sys2Proof.Machine

/-! ### Hubs, stacks and the power governor (00, 01) -/

/-- Where a hub stands: held in reset before bring-up, in service, declared failed and not yet fenced (R10), failed and fenced (R11),
or out of service after a failed check (R383, R389). -/
inductive HubSt
  | held | inService | declared | failed | out
  deriving DecidableEq, Repr

/-- Repairs of a stack (R23), as the MRAM repair record of R394 also keeps them. -/
structure StackRep where
  /-- retired layers -/
  layers : List Nat
  /-- spare rows used, by layer and bank -/
  rows : Tbl (Nat × Nat) Nat
  /-- spare TSV lanes used -/
  lanes : Nat
  /-- retired page frames of rows and layers (R68) -/
  frames : List Nat
  /-- taken offline for a base-die fault -/
  baseFault : Bool
  deriving DecidableEq, Repr

/-- The module: hubs, stacks, internal links and the governor's state. -/
structure Arch where
  hubs : Tbl Nat HubSt
  stacksOff : List Nat
  repairs : Tbl Nat StackRep
  /-- die-to-die links declared failed, lower hub first, with the hub their traffic is rerouted through (R10) -/
  linksDown : List ((Nat × Nat) × Option Nat)
  stackLinksDown : List Nat
  /-- samples of the last 1 ms per pace instance: time and value (R15) -/
  pace : Tbl Nat (List (Nat × Nat))
  standby : Bool
  /-- the planner cuts admission of new steps (R18, R19) -/
  cut : Bool
  /-- held in reset after a 115 °C trip (R18) -/
  heldThermal : Bool
  /-- the host port is lost until the module is reset: Q1 has failed (R7) -/
  hostLost : Bool
  /-- hub whose reference supplies the timebase (R12) -/
  timebaseHub : Option Nat
  deriving DecidableEq, Repr

/-! ### Keagon: images, runs, clerks (02, 08) -/

/-- Clerk states (Table 2-4), numbered as `TLR_CLK_STATE.STATE`. -/
inductive ClerkSt
  | free | ready | waiting | draining | lost | frozen
  deriving DecidableEq, Repr

/-- A loaded image (R24, R25, R29); the code is held as it stands in the image areas, after the translation of R223. -/
structure Image where
  ident : Word
  ctx : Nat
  keySlot : Nat
  /-- a 2.x image run in compatibility mode (R27, R28) -/
  compat : Bool
  /-- FLAGS bit 0: ENTRY[15] is the trap entry -/
  trapEntry : Bool
  /-- FLAGS bit 1: the image asks for the FREEZE right -/
  wantsFreeze : Bool
  rollback : Nat
  entryCount : Nat
  entries : List Nat
  code : List Word
  rodata : List Byte
  /-- default run time limit in µs; 0 none -/
  timeLimit : Nat
  /-- bytes of the whole image, for check 9 of R26 -/
  bytes : Nat
  /-- released by `TLR_IMG_UNLOAD`, waiting for its last run (R29) -/
  draining : Bool
  deriving DecidableEq, Repr

/-- A staged load under verification (R26). -/
structure ImgLoad where
  slot : Nat
  /-- the bytes read from the staged copy -/
  bytes : List Byte
  requester : Requester
  deriving DecidableEq, Repr

/-- A run request (Table 2-2) with its requester. -/
structure RunReq where
  slot : Nat
  entry : Nat
  /-- preferred hub 0 to 3, or 4 for any -/
  hub : Nat
  prio : Nat
  /-- µs; 0 uses the header's limit -/
  timeLimit : Nat
  tag : Word
  args : List Word
  requester : Requester
  deriving DecidableEq, Repr

/-- A run completion record (Table 2-10). -/
structure RunRec where
  tag : Word
  exit : Word
  cause : Nat
  trapClass : Nat
  trapCode : Nat
  orphans : Nat
  trapPc : Word
  deriving DecidableEq, Repr

/-- The work a Receipt stands for, so that a cancellation or a failure reaches it. -/
inductive OpKind
  | open | park (sess : Nat) | revive (sess : Nat) | move (sess : Nat) | pin (sess : Nat)
  | attn (opNo : Nat) | attnMerge | submit (sess : Nat) | cancel (sess : Nat) | kernel (opNo : Nat)
  | text | search (opNo : Nat) | vwrite (coll : Nat) (opNo : Nat) | ledger
  | escrow (region : Nat) (opNo : Nat) | stmtBegin (job : Nat) | stmtAdd (job : Nat) | stmtCommit (job : Nat)
  deriving DecidableEq, Repr

/-- A Receipt slot (R46 to R48). -/
structure Slot where
  /-- SERIAL of the last issue from this slot, 30 bits -/
  serial : Nat
  occupied : Bool
  complete : Bool
  word0 : Word
  word1 : Word
  /-- the handle register and the handle an OPEN writes at its WAIT (R211) -/
  openH : Option (Nat × Handle)
  /-- the handle instances the operation was issued through (R40) -/
  via : List Nat
  op : OpKind
  /-- the operation's own result, not yet written into the slot -/
  result : Option (Word × Word)
  /-- a cancellation under way, with its ABORTED cause -/
  cancel : Option Nat
  deriving DecidableEq, Repr

/-- What a clerk waits for. -/
inductive WaitFor
  | receipt (slot : Nat) | signal (index : Nat)
  deriving DecidableEq, Repr

/-- Why a READY clerk's short instruction is not done yet (R45): a recall of a line (R279), a parked granule (R63, R285), a domain
request (R296), a write held for a Statement's copier (R260), or the FENCE.D it waits in (R43). -/
inductive Stall
  | recall (serial : Nat) | granule (g : Nat) | domain (serial : Nat) | copyHold (page : Nat) | fenceD
  deriving DecidableEq, Repr

/-- A run on a clerk. -/
structure Run where
  slot : Nat
  ctx : Nat
  entry : Nat
  prio : Nat
  tag : Word
  requester : Requester
  /-- timebase ns at which the time limit is reached -/
  deadline : Option Nat
  /-- timebase ns at which the handler's extra 1 ms ends (R56) -/
  grace : Option Nat
  startedAt : Nat
  /-- the completion record being made while DRAINING; ORPHANS is final at 0 occupied slots -/
  ending : Option RunRec
  /-- Receipts consumed on the clerk's behalf for this run (R49) -/
  orphans : Nat
  deriving DecidableEq, Repr

/-- A clerk (R30, R36, R37). Registers no row lists read zero, false or empty. -/
structure Clerk where
  st : ClerkSt
  /-- the state kept while FROZEN -/
  kept : ClerkSt
  pc : Word
  sreg : Tbl Nat Word
  /-- handle registers with the instance number of each handle (R40) -/
  hreg : Tbl Nat (Handle × Nat)
  preg : Tbl Nat Bool
  dreg : Tbl Nat Desc
  slots : Tbl Nat Slot
  run : Option Run
  /-- running the trap entry (R56) -/
  handler : Bool
  waitFor : Option WaitFor
  /-- when the current WAIT or YIELD times out -/
  waitUntil : Option Nat
  /-- an access of the clerk that is not done yet (R45): why it stalls in READY -/
  stall : Option Stall
  /-- context of the last run placed here, for the Sweep of R35 -/
  lastCtx : Option Nat
  deriving DecidableEq, Repr

/-- A signal of R212. -/
structure Signal where
  gen : Nat
  live : Bool
  ctx : Nat
  count : Nat
  /-- handles held to it -/
  refs : Nat
  /-- stalled YIELDs in arrival order: clerk, amount, predicate -/
  waiters : List (Nat × Nat × Nat)
  deriving DecidableEq, Repr

/-- The Keagon side of the controller. -/
structure Tlr where
  images : Tbl Nat Image
  loads : List ImgLoad
  /-- clerks with a row; a clerk without one is FREE and never used since reset -/
  clerks : Tbl Nat Clerk
  /-- waiting run requests per hub, in order of service (R32) -/
  queues : Tbl Nat (List RunReq)
  /-- completion record kept on each hub (R50), and the hub of the latest one -/
  runRecs : Tbl Nat RunRec
  lastRecHub : Option Nat
  /-- runs ended per hub in the last 10 ms, as (end time, duration), for R32 -/
  durations : Tbl Nat (List (Nat × Nat))
  signals : Tbl Nat Signal
  /-- handle instances issued so far -/
  handleCtr : Nat
  /-- private granules mapped in each context, by context and granule (R42, R424) -/
  granules : List (Nat × Nat)
  /-- operation numbers given so far -/
  opCtr : Nat
  deriving DecidableEq, Repr

/-! ### Sessions (03) -/

/-- Session states (Table 3-7); a FREE session has no row. -/
inductive SsnSt
  | active | parking | parked | reviving | moving | rebuilding
  deriving DecidableEq, Repr

/-- How a KV page's frame is counted under R68. -/
inductive PgUse
  | live | reserved | clean | transit
  deriving DecidableEq, Repr

/-- One frame of the session's page table (R68, R80, R93): `kind` 0 KV, 1 digest, 2 recurrent state, 3 page-table page. -/
structure KvPage where
  kind : Nat
  layer : Nat
  blk : Nat
  stack : Nat
  frame : Nat
  use : PgUse
  deriving DecidableEq, Repr

/-- A Passbook entry (Table 3-5): `kind` 0 prompt, 1 generated, 2 tool result. -/
structure PbEntry where
  token : Nat
  kind : Nat
  trunc : Bool
  deriving DecidableEq, Repr

/-- The movement operation under way on a session. -/
structure MoveOp where
  /-- clerk, Receipt slot and serial -/
  clerk : Nat
  slot : Nat
  serial : Nat
  /-- 1 PARK, 2 REVIVE, 3 MOVE, 4 PIN -/
  op : Nat
  /-- the state before the operation -/
  prev : SsnSt
  /-- the tier chosen (0xFF Passbook-only), or the MOVE's destination -/
  target : Nat
  /-- NO_STREAM of a REVIVE, KEEP of a MOVE, DISCARD of a PARK -/
  flag : Bool
  deriving DecidableEq, Repr

/-- A placement under way (R76): the tier chosen, flash writes not yet programmed, the extent they go to, the T4 peer, and whether the
tier's charge of a recompute applies. -/
structure Placing where
  target : Nat
  wait : Nat
  ext : Option Nat
  peer : Option Nat
  deriving DecidableEq, Repr

/-- A piece that is not in T1: its kind, layer and page as in `KvPage`, its place among the session's parked pieces, and its first flash
unit (tiers 2 and 3). -/
structure PkPage where
  kind : Nat
  layer : Nat
  blk : Nat
  unit : Nat
  deriving DecidableEq, Repr

/-- A rebuild under way (R85). -/
structure Rebuild where
  back : SsnSt
  /-- first position with a lost page and no Counterfoil copy -/
  t0 : Option Nat
  /-- lost pages the Counterfoil holds -/
  fetch : List (Nat × Nat)
  deriving DecidableEq, Repr

/-- Per-layer fields of the page-table root (Table 4-3). -/
structure LayerSt where
  resident : Bool
  activeB : Bool
  poisoned : Bool
  kvLen : Nat
  kvWritten : Nat
  digested : Nat
  deriving DecidableEq, Repr

/-- The open request of a session (Table 5-3), with the Receipt of its SUBMIT. -/
structure ReqBlk where
  tag : Word
  customer : Nat
  model : Nat
  maxNew : Nat
  ttftGoalUs : Nat
  tbtGoalUs : Nat
  submitTime : Nat
  lastTokenTime : Nat
  inputLeft : Nat
  inputLen : Nat
  generated : Nat
  openRes : Nat
  waitUs : Nat
  preempts : Nat
  finish : Nat
  startLayer : Nat
  input : Word
  kind : Nat
  clerk : Nat
  slot : Nat
  serial : Nat
  /-- waiting since this time with work pending and in no step (R139) -/
  waitSince : Nat
  /-- a CANCEL asks the request to end at the next layer boundary (R121) -/
  cancelling : Bool
  /-- it has waited because its context's reports are disabled (R141) -/
  rptWaited : Bool
  deriving DecidableEq, Repr

/-- Sampler, Clearing and Changer state of a session (Tables 6-10 to 6-13). -/
structure TextSt where
  temp : BitVec 32
  topP : BitVec 32
  minP : BitVec 32
  topK : Nat
  rep : BitVec 32
  freq : BitVec 32
  pres : BitVec 32
  penWindow : Nat
  penScope : Nat
  seedMode : Bool
  /-- entropy input and nonce of the DRBG's instantiation, and its generate calls (R166) -/
  seed : List Byte
  nonce : List Byte
  drbgPos : Nat
  /-- count table: slot to token and COUNT (R165) -/
  counts : Tbl Nat (Nat × Nat)
  bias : List (Nat × BitVec 32)
  stops : List (List Byte)
  showSpecial : Bool
  /-- Clearing: bound grammar slot, and the frames with the top frame first -/
  grammar : Option Nat
  frames : List Nat
  /-- Changer: pending bytes, match vectors D, held-back bytes, STOPPED -/
  pend : List Byte
  dvec : List Word
  held : List Byte
  stopped : Bool
  deriving DecidableEq, Repr

/-- A session: its directory entry (Table 3-3), its SCB (Table 3-4), its Passbook and its page table. -/
structure Session where
  gen : Nat
  ctx : Nat
  st : SsnSt
  cls : Nat
  pinned : Bool
  pinTier : Nat
  kvKept : Bool
  cfoilKv : Bool
  boost : Bool
  /-- KV_FMT: 0 BF16, 1 FP8, 2 KV4 -/
  kvFmt : Nat
  model : Nat
  customer : Nat
  reservedLen : Nat
  kvTier : Nat
  pbATier : Nat
  pbBTier : Nat
  cleanT1 : Bool
  expWait : Nat
  expResume : Nat
  parkedAt : Nat
  cfPeer : Nat
  cfValid : Bool
  /-- KV pages the Counterfoil holds, by layer and page -/
  mirrored : List (Nat × Nat)
  cfIndex : Nat
  lastStep : Nat
  /-- the Passbook, oldest entry first, and how many entries each copy holds; `none`: the copy is lost (R65) -/
  passbook : List PbEntry
  pbA : Option Nat
  pbB : Option Nat
  /-- stacks of the Passbook pages of copies A and B in DRAM by page (R64); a copy B on the Counterfoil has stack 99 -/
  pbAt : List (Nat × Nat)
  /-- Passbook entries on flash, entries being written there with the writes outstanding, and the extents of both copies -/
  pbFlash : Nat
  pbWriting : Nat × Nat
  pbExts : List Nat
  /-- KV pieces outside T1, and the extent they lie in -/
  parked : List PkPage
  kvExt : Option Nat
  placing : Option Placing
  pages : List KvPage
  layers : Tbl Nat LayerSt
  /-- both directory copies, A on stack i mod 24 and B on the next hub's (R61), by stack now holding them -/
  dirA : Option Nat
  dirB : Option Nat
  /-- contexts mapping the blob area, with its private offset and the handles held (R63) -/
  blobMap : Option (Nat × Nat)
  blobRefs : Nat
  /-- SCB and text page in T0 (R66) -/
  inT0 : Bool
  lastInStep : Nat
  text : TextSt
  req : Option ReqBlk
  op : Option MoveOp
  rebuild : Option Rebuild
  /-- recompute of a Passbook-only session or a rebuild still to prefill: tokens left, and whether W_RECOMP is charged -/
  recompute : Option (Nat × Bool)
  /-- layer at which the session was displaced for lateness; not admitted before it is resident (R82) -/
  lateLayer : Option Nat
  /-- layer being held since (R82) -/
  heldSince : Option (Nat × Nat)
  /-- hidden-state rows stored by an HSV: layer and bytes (R130) -/
  hsv : Option (Nat × List Byte)
  /-- pieces being brought back as clean copies before a REVIVE asks for them (R72) -/
  preRevive : Bool
  /-- T4 grant holder of its pieces -/
  t4Peer : Option Nat
  deriving DecidableEq, Repr

/-- A phase switch under way (R84). -/
structure Phase where
  ctx : Nat
  keepGib : Nat
  deadline : Nat
  written : Nat
  pbOnly : Nat
  deriving DecidableEq, Repr

/-- The Counterfoil of a paired controller's session (R64): Passbook pages by number, KV pages by layer and page, and their frames. -/
structure CfSession where
  pb : Tbl Nat (List Byte)
  kv : Tbl (Nat × Nat) (List Byte)
  frames : Tbl (Nat × Nat) (Nat × Nat)
  deriving DecidableEq, Repr

/-- The session store. -/
structure Ssn where
  sessions : Tbl Nat Session
  /-- generation of an index that has been used, and when it was freed (R59) -/
  gens : Tbl Nat Nat
  freedAt : Tbl Nat Nat
  phase : Option Phase
  /-- directory copies being rebuilt, by lost stack (R61) -/
  dirLost : List Nat
  /-- frames in use by stack: KV, Statement slots, Counterfoils and T4 pieces -/
  used : Tbl Nat (List Nat)
  /-- pages handed over by a phase switch (R84): stack and frame -/
  handed : List (Nat × Nat)
  /-- pieces held for a paired controller (R64): controller and session; Passbook pages and KV pages by layer and page -/
  cf : Tbl (Nat × Word) CfSession
  deriving DecidableEq, Repr

/-! ### Attention beside memory (04) -/

/-- A page descriptor (Table 4-5) with the session it belongs to and, for OP 3, the encoded records it writes. -/
structure PgDesc where
  op : Nat
  fmt : Nat
  layer : Nat
  stack : Nat
  frame : Nat
  fill : Nat
  last : Bool
  tokenBase : Nat
  first : Nat
  lastRec : Nat
  qcount : Nat
  model : Nat
  qpos : Nat
  pslot : Nat
  ctx : Nat
  sess : Nat
  /-- a query row it serves holds a NaN -/
  nanQ : Bool
  /-- block-sparse decode: the positions attended (R101); `none`: every visible one -/
  only : Option (List Nat)
  rows : List (List Byte)
  deriving DecidableEq, Repr

/-- A merge slot at the serving hub (R95, R99): the stacks that will return a partial and those that have. -/
structure MergeSlot where
  attn : Nat
  entry : Nat
  /-- the slot of a digest build: session with its generation, layer and block -/
  digest : Option (Nat × Nat × Nat × Nat)
  expect : List Nat
  arrived : List Nat
  deriving DecidableEq, Repr

/-- One session entry of an attention message under service. -/
structure AttnEntry where
  slot : Nat
  sess : Option Nat
  qlen : Nat
  kvlen : Nat
  /-- final status of Table 2-11, once known -/
  status : Option Nat
  held : Bool
  /-- its descriptors have been emitted; merge slots still open -/
  walked : Bool
  left : Nat
  /-- byte offset of its block in the message -/
  off : Nat
  /-- output rows (BF16 bytes) once merged -/
  rows : List Byte
  /-- outputs that a stored NaN reaches (R113): row, head, element (`none`: the whole head) -/
  nans : List (Nat × Nat × Option Nat)
  deriving DecidableEq, Repr

/-- An ATTN under way (R107, R215). -/
structure AttnOp where
  clerk : Nat
  slot : Nat
  serial : Nat
  ctx : Nat
  port : Nat
  group : Nat
  layer : Nat
  step : Nat
  kvu : Bool
  partials : Word
  /-- the address of the message, and its bytes as ATTN read them -/
  addr : Nat
  msg : List Byte
  native : Bool
  entries : List AttnEntry
  firstSent : Bool
  /-- its last response, or its partial records, have gone -/
  finished : Bool
  deriving DecidableEq, Repr

/-- A stack engine (R97, R98, R335). -/
structure Engine where
  queue : List PgDesc
  /-- scratch bank in use, and the last context of banks A and B (none: swept) -/
  bankB : Bool
  ctxA : Option Nat
  ctxB : Option Nat
  /-- flop since reset, exactly -/
  flop : Nat
  deriving DecidableEq, Repr

/-- An attention message placed by the link (R215). -/
structure RecvMsg where
  port : Nat
  kvu : Bool
  layer : Nat
  step : Nat
  bytes : Nat
  deriving DecidableEq, Repr

/-- The attention side. -/
structure Kva where
  engines : Tbl Nat Engine
  merges : Tbl Nat MergeSlot
  ops : Tbl Nat AttnOp
  /-- received messages by context and private address -/
  inbox : Tbl (Nat × Nat) RecvMsg
  mergeCtr : Nat
  deriving DecidableEq, Repr

/-! ### Step planning and the Ledger (05) -/

/-- A layer form entry (Table 4-1). -/
structure LayerForm where
  kind : Nat
  trim : Bool
  softcapEn : Bool
  hq : Nat
  hkv : Nat
  dh : Nat
  dv : Nat
  window : Nat
  sinks : Nat
  sparseB : Nat
  localBlocks : Nat
  sparseMin : Nat
  scale : BitVec 32
  softcap : BitVec 32
  kScale : BitVec 32
  vScale : BitVec 32
  /-- a reserved bit of the entry is set -/
  resvBad : Bool
  deriving DecidableEq, Repr

/-- A kernel table entry (Table 5-1). -/
structure Kernel where
  ident : Nat
  boundary : Bool
  attn : Bool
  args : List Byte
  deriving DecidableEq, Repr

/-- A registered model (R118). -/
structure Model where
  kvFmt : Nat
  dModel : Nat
  forms : List LayerForm
  vocab : Word
  vocabSize : Nat
  kernels : List Kernel
  /-- asked to be freed by `SCH_MODEL_UNREG`, and still named by a session -/
  unreg : Bool
  deriving DecidableEq, Repr

/-- Roles of a dispatch group (R131), numbered as `SCH_GROUP_STATUS.ROLE`. -/
inductive Role
  | off | decode | prefill | mixed | external | switching
  deriving DecidableEq, Repr

/-- A dispatch group (R119). -/
structure Group where
  role : Role
  target : Role
  since : Nat
  stepA : Option Nat
  stepB : Option Nat
  lastStepUs : Nat
  /-- consecutive evaluations of R132 above and below the threshold -/
  above : Nat
  below : Nat
  /-- context whose job drives it while EXTERNAL, and the node region mapped for it (R142) -/
  extCtx : Nat
  extRegion : Option Nat
  /-- ENABLE has been written since an R128 timeout last took the group to OFF -/
  armed : Bool
  deriving DecidableEq, Repr

/-- A session's part in a step. -/
structure StepSess where
  sess : Nat
  ctx : Nat
  ident : Word
  tag : Word
  new : Nat
  /-- the token IDs it feeds, and how many of them are input tokens -/
  toks : List Nat
  inputN : Nat
  decode : Bool
  recompute : Bool
  startLayer : Nat
  pos : Nat
  hsr : Bool
  wantLogits : Bool
  boosted : Bool
  customer : Nat
  reserve : Nat
  /-- status if it has left the step, with the layer it was displaced at -/
  status : Option Nat
  displacedAt : Option Nat
  /-- token sampled, text released, bytes held and finish code, from the text path -/
  token : Option Nat
  textOut : List Byte
  heldN : Nat
  finish : Nat
  newText : Option TextSt
  committed : Bool
  deriving DecidableEq, Repr

/-- A step in flight (R120, R128). -/
structure Step where
  no : Nat
  group : Nat
  halfB : Bool
  start : Nat
  sessions : List StepSess
  /-- highest layer or kernel whose descriptor has been sent, and when -/
  layer : Nat
  sentAt : Nat
  /-- layers whose answering message has arrived -/
  answered : List Nat
  atrSent : List Nat
  /-- logit shards received: shard, rows of BF16 values by session slot -/
  lgt : List (Nat × List (Nat × List (BitVec 16)))
  textDone : Bool
  deriving DecidableEq, Repr

/-- A Ledger customer record (Table 5-7); `bound` is the context of R38. -/
structure Customer where
  balance : Int
  reserved : Nat
  cap : Nat
  refill : Nat
  wPrompt : Nat
  wGen : Nat
  wRecomp : Nat
  rent : Word
  lastUpdate : Nat
  charged : Nat
  rentTotal : Nat
  credited : Nat
  refilled : Nat
  waitUs : Nat
  preempts : Nat
  deferred : Nat
  requests : Nat
  refused : Nat
  bound : Option Nat
  /-- when rent was last charged -/
  rentAt : Nat
  /-- changed since the Till write of R136 -/
  dirty : Bool
  deriving DecidableEq, Repr

/-- One entry of a step report (Table 5-9). -/
structure ReportEntry where
  ident : Word
  tag : Word
  status : Nat
  finish : Nat
  first : Bool
  boosted : Bool
  tokens : List Nat
  text : List Byte
  held : Nat
  deriving DecidableEq, Repr

/-- A step report (R140). -/
structure Report where
  ctx : Nat
  group : Nat
  halfB : Bool
  step : Nat
  start : Nat
  release : Nat
  entries : List ReportEntry
  deriving DecidableEq, Repr

/-- A KERNEL dispatch under way (R217), by operation number. -/
structure KernelOp where
  clerk : Nat
  slot : Nat
  serial : Nat
  ctx : Nat
  group : Nat
  step : Nat
  buf : Nat
  room : Nat
  sentAt : Nat
  deriving DecidableEq, Repr

/-- The planner and the Ledger. -/
structure Sch where
  models : Tbl Nat Model
  groups : Tbl Nat Group
  steps : Tbl Nat Step
  stepCtr : Nat
  customers : Tbl Nat Customer
  reports : List Report
  kernels : Tbl Nat KernelOp
  /-- finish times of requests over the last second (R123) -/
  finishes : List Nat
  /-- node power estimate at recent starts, for R143: time and watts -/
  power : List (Nat × Nat)
  /-- the planner runs on Q2's copy -/
  plannerOnQ2 : Bool
  /-- prefill tokens committed over the last 10 s: time and count (R78) -/
  prefills : List (Nat × Nat)
  /-- the flash extent of the Ledger's records (R136) -/
  ledgerExt : Option Nat
  deriving DecidableEq, Repr

/-! ### Text path (06) -/

/-- A loaded Mint or Clearing table: its bytes as staged (R147, R156), and whether it has been unloaded for new bindings (R146). -/
structure Table where
  data : List Byte
  unloading : Bool
  deriving DecidableEq, Repr

/-- The loaded tables by slot: vocabularies and grammars. -/
structure Txt where
  vocabs : Tbl Nat Table
  grams : Tbl Nat Table
  deriving DecidableEq, Repr

/-! ### Flash (09) -/

/-- A map entry (Table 9-3): STATE 2 when `lost`; the superblock and the unit's place in it stand for LUN, BLOCK, PAGE, PLANE and CW. -/
structure MapEnt where
  lost : Bool
  spread : Bool
  till : Bool
  chan : Nat
  sb : Nat
  slot : Nat
  deriving DecidableEq, Repr

/-- An extent (R231). -/
structure Extent where
  owner : Option Nat
  spread : Bool
  salt : List Byte
  base : Nat
  units : Nat
  chan : Option Nat
  deriving DecidableEq, Repr

/-- Superblock states (R243). -/
inductive SbSt
  | free | opened | full | retired
  deriving DecidableEq, Repr

/-- A superblock (R229, R241 to R243): number lun × blocks per plane + block. -/
structure Sb where
  st : SbSt
  slc : Bool
  /-- units programmed since its erase, and VALID -/
  used : Nat
  valid : Nat
  /-- wear in thousandths of a native cycle, and the highest read counter of its blocks -/
  wear : Nat
  reads : Nat
  closedAt : Nat
  /-- extents that have had data here since the erase (R250) -/
  held : List Nat
  /-- channels of its stripe group -/
  chans : List Nat
  deriving DecidableEq, Repr

/-- A write that has passed the pool check and has not switched its entries (R234). -/
structure FlashWr where
  id : Nat
  owner : FlashOwner
  extent : Nat
  first : Nat
  data : List (List Byte)
  till : Bool
  /-- new units of it, P of R246 -/
  fresh : Nat
  /-- the entries it found when it reached the map, to see a later arrival (R234) -/
  seen : List (Option MapEnt)
  deriving DecidableEq, Repr

/-- A journal record not yet programmed: the unit, and the entry and the contents it had (R233). -/
structure JRec where
  unit : Nat
  old : Option MapEnt
  data : List Byte
  deriving DecidableEq, Repr

/-- The flash pool. -/
structure Fls where
  map : Tbl Nat MapEnt
  /-- plaintext of mapped units; at rest it is under the extent's key (R235, log 12) -/
  data : Tbl Nat (List Byte)
  extents : Tbl Nat Extent
  nextExtent : Nat
  nextUnit : Nat
  sbs : Tbl Nat Sb
  /-- superblocks formatted in SLC mode: the lowest this many (log 13) -/
  slcFormat : Nat
  formatted : Bool
  writes : List FlashWr
  wrCtr : Nat
  /-- journal buffers by hub: records and when the first came (R233) -/
  jbufs : Tbl Nat (List JRec × Nat)
  journalBytes : Nat
  checkpointSlot : Nat
  seq : Nat
  /-- Reserve blocks left by channel and plane (R244) -/
  reserve : Tbl (Nat × Nat) Nat
  /-- failed LUNs being rebuilt: channel, LUN, and the units still waiting -/
  rebuild : List (Nat × Nat × List Nat)
  folding : Bool
  /-- erases are suspended (R363), and channel commands held (R364) -/
  held : Bool
  /-- secure discard: superblocks not yet erased (R250) -/
  sdisc : List Nat
  /-- ADV0, ADV, the superblock totals and the pool state as the committed checkpoint keeps them over a reset (R243, R245, R387) -/
  kept : Option (Word × Word × Word × Nat)
  deriving DecidableEq, Repr

/-! ### Node memory (11) -/

/-- A node region (R270, R271); the index's GEN stands beside. -/
structure Region where
  gen : Nat
  ctx : Nat
  /-- 0 WARM, 1 HOT, 2 COLD -/
  temp : Nat
  hostPark : Bool
  readM : Nat
  writeM : Nat
  /-- first granule of the window, and how many -/
  base : Nat
  granules : Nat
  /-- the stack set it was placed on (R80, R285) -/
  stks : List Nat
  /-- dispatch group of a phase switch (R142), whose pages back it -/
  phase : Option Nat
  /-- deleted, its recalls not yet answered (R272) -/
  dying : Bool
  deriving DecidableEq, Repr

/-- Who makes a request of the window (R279). -/
inductive NSrc
  | clerk (c : Nat) | host (head tag : Nat) | port (p tag : Nat)
  deriving DecidableEq, Repr

/-- What a request asks: a read with hold 0 none, 1 shared, 2 exclusive; a write under a byte mask; an atomic; or a clerk's LD, ST or
AMO. -/
inductive NOp
  | read (hold : Nat) | write (mask : Nat) (data : List Byte) (release : Bool) | atomic (size op operand cmp : Nat) | clerk (write : Bool)
  deriving DecidableEq, Repr

/-- A request under way: its node offset, its arrival number, and whether it must wait for the port's earlier ones. -/
structure NReq where
  src : NSrc
  op : NOp
  off : Nat
  serial : Nat
  ordered : Bool
  deriving DecidableEq, Repr

/-- States of a directory entry (Table 11-5). -/
inductive DirSt
  | shared | excl | px
  deriving DecidableEq, Repr

/-- A directory entry (Table 11-5), with the order of its allocation. -/
structure DirEnt where
  st : DirSt
  sharers : List Nat
  owner : Nat
  rcl : Bool
  order : Nat
  deriving DecidableEq, Repr

/-- A recall in flight to an agent (R279 to R281). -/
structure Recall where
  downgrade : Bool
  firstAt : Nat
  sentAt : Nat
  resent : Bool
  deriving DecidableEq, Repr

/-- The node shared window and its directory. -/
structure Nmc where
  /-- granules of the window, fixed at bring-up (R270) -/
  window : Nat
  regions : Tbl Nat Region
  /-- GEN of an index that has been used -/
  gens : Tbl Nat Nat
  /-- directory entries by line: node offset / 64 -/
  dir : Tbl Nat DirEnt
  dirCtr : Nat
  /-- recalls by line and agent -/
  recalls : Tbl (Nat × Nat) Recall
  /-- requests that wait for a line's recalls, in arrival order -/
  waiting : Tbl Nat (List NReq)
  /-- requests that wait for a parked granule, by region and granule -/
  faults : Tbl (Nat × Nat) (List NReq)
  /-- ORDERED requests that wait for the port's earlier ones -/
  ordered : List NReq
  /-- requests held at ingress by agent (R283) -/
  held : Tbl Nat (List NReq)
  /-- read and write buckets by agent in bytes, and when they were filled -/
  buckets : Tbl Nat (Nat × Nat × Nat)
  /-- outstanding node-port requests: port, tag, arrival number -/
  openTags : List (Nat × Nat × Nat)
  serial : Nat
  /-- bytes read and written by agent -/
  xfer : Tbl Nat (Nat × Nat)
  /-- hubs still to sweep for a failed agent (R286) -/
  sweeps : Tbl Nat (List Nat)
  /-- parked granules: region, granule, and the extent that holds it (R285) -/
  parked : Tbl (Nat × Nat) Nat
  /-- last access of a granule -/
  touched : Tbl (Nat × Nat) Nat
  deriving DecidableEq, Repr

/-! ### Statements (10) -/

/-- A job member's descriptor (Table 10-1). -/
structure JobDesc where
  ctx : Nat
  members : Nat
  rank : Nat
  replicas : Nat
  peer : Nat
  spare : Option Nat
  coord : Nat
  tag : Word
  slotBytes : Nat
  flushN : Nat
  jobKey : Nat
  deriving DecidableEq, Repr

/-- A shard of a Statement (Tables 10-2, 10-6), with its copied pages and their digests (R258, R259). -/
structure Shard where
  id : Nat
  space : Nat
  dedup : Bool
  off : Nat
  bytes : Nat
  /-- first slot page -/
  first : Nat
  copied : List Nat
  digests : Tbl Nat (List Byte)
  ref : Bool
  writer : Nat
  writerRank : Nat
  deriving DecidableEq, Repr

/-- What a slot holds (Table 10-4): the Statement's step, shards, times, member commit record and poisoned pages. -/
structure Statement where
  step : Nat
  beginAt : Nat
  shards : List Shard
  header : Bool
  mcr : Option Nat
  poisoned : List Nat
  deriving DecidableEq, Repr

/-- A job commit record (Table 10-5). -/
structure JobRec where
  step : Nat
  slot : Nat
  cfMissing : Bool
  flash : Bool
  shape : List Byte
  time : Nat
  seq : Nat
  deriving DecidableEq, Repr

/-- A Receipt: clerk, slot, serial. -/
structure Rcpt where
  clerk : Nat
  slot : Nat
  serial : Nat
  deriving DecidableEq, Repr

/-- A job member (R253 to R268). -/
structure StmJob where
  gen : Nat
  desc : JobDesc
  /-- pages of slots A and B: stack and frame (R255) -/
  pagesA : List (Nat × Nat)
  pagesB : List (Nat × Nat)
  slotA : Option Statement
  slotB : Option Statement
  openSlot : Option Nat
  record : Option JobRec
  /-- a BEGIN that waits for its slot, ADDs that wait for recalls, and the COMMIT -/
  begin : Option (Rcpt × Nat)
  adds : List (Rcpt × Shard)
  commit : Option Rcpt
  /-- the Counterfoil: refusals of a page in a row, and a peer handled as lost (R262, R266) -/
  refusals : Tbl Nat Nat
  cfLost : Bool
  /-- the run that opened the Statement: clerk and start (R221) -/
  opener : Option (Nat × Nat)
  /-- step being flushed; the Statement going to flash with its extents and the writes outstanding; the flash restore point (R265) -/
  flushing : Option Nat
  flashNew : Option (Statement × List Nat × Nat)
  flashCur : Option (Statement × List Nat)
  deriving DecidableEq, Repr

/-- A member's notice as its coordinator keeps it (R261, R264): step, shards as id, bytes, dedup and digest. -/
structure StmNotice where
  step : Nat
  controller : Nat
  shards : List (Nat × Nat × Bool × List Byte)
  deriving DecidableEq, Repr

/-- What a coordinator holds of a job. -/
structure StmCoord where
  notices : Tbl Nat StmNotice
  commits : Tbl Nat (Nat × List Byte)
  flashes : Tbl Nat Nat
  descs : Tbl Nat (Nat × JobDesc)
  deriving DecidableEq, Repr

/-- Counterfoil slots lent to a peer's member (R255, R262): its frames, and pages by slot and sequence. -/
structure CfStore where
  frames : List (Nat × Nat)
  pages : Tbl (Nat × Nat) (List Byte)
  record : Option JobRec
  deriving DecidableEq, Repr

/-- A write held for a copy (R260). -/
inductive HoldWho
  | clerk (c : Nat) | node (q : NReq)
  deriving DecidableEq, Repr

/-- The Statement side. -/
structure Stm where
  jobs : Tbl Nat StmJob
  gens : Tbl Nat Nat
  coords : Tbl Word StmCoord
  /-- Counterfoil slots held for peers: controller, JOB_TAG, rank -/
  stores : Tbl (Nat × Word × Nat) CfStore
  /-- held writes by page key, in arrival order, and since when -/
  holds : Tbl Nat (List (HoldWho × Nat))
  deriving DecidableEq, Repr

/-! ### Vector search (07) -/

/-- A sketch entry (Table 7-4): `part` is its partition, or 0x20000 + the number of its fresh partition; `epoch` 0 once folded. -/
structure VEntry where
  key : Nat
  tag : Nat
  attr : Nat
  norm : BitVec 32
  sketch : Nat
  epoch : Nat
  slot : Nat
  part : Nat
  deriving DecidableEq, Repr

/-- A SEARCH descriptor (Table 7-6). -/
structure VQuery where
  widen : Bool
  attrEn : Bool
  hamming : Bool
  k : Nat
  nprobe : Nat
  widenMax : Nat
  rerank : Nat
  tagReq : Nat
  tagExcl : Nat
  attrLo : Nat
  attrHi : Nat
  query : List (BitVec 32)
  output : Word
  deriving DecidableEq, Repr

/-- A candidate of a Weigh list: its key, its entry and h. -/
structure VCand where
  rank : BitVec 32
  h : Nat
  ent : VEntry
  deriving DecidableEq, Repr

/-- A Weigh pass queued on a channel (R186, R187): the operation, its pages as partition and page, and the last key of the list it
continues. -/
structure VPass where
  op : Nat
  pages : List (Nat × Nat)
  after : Option (BitVec 32 × Nat)
  deriving DecidableEq, Repr

/-- A SEARCH under way, in its snapshot (R182, R185). -/
structure VSearch where
  rcpt : Rcpt
  hub : Nat
  ctx : Nat
  coll : Nat
  q : VQuery
  startedAt : Nat
  executing : Bool
  /-- snapshot: epoch Q and the directory version, entries and tombstones, and lost pages -/
  epoch : Nat
  ver : Nat
  entries : List VEntry
  tombs : List (Nat × Nat)
  lost : List (Nat × Nat)
  /-- partitions in centroid order, how many are probed, and how many of them by widening -/
  order : List Nat
  probed : Nat
  added : Nat
  /-- passes still to come, full channels with their last key, and the merged candidates -/
  waiting : Nat
  full : List (Nat × (BitVec 32 × Nat) × List (Nat × Nat))
  cands : List VCand
  maxPages : Nat
  assay : Bool
  deriving DecidableEq, Repr

/-- A write of a collection not yet durable: VINSERT or VDELETE. -/
structure VWrite where
  no : Nat
  rcpt : Rcpt
  count : Nat
  epoch : Nat
  /-- flash writes not yet programmed, and its bytes of the working-region journal -/
  writes : List Nat
  jbytes : Nat
  deriving DecidableEq, Repr

/-- A fold under way (R183): the fresh partition folded, its BASE, the epoch it folds at, and its predicted end. -/
structure VFold where
  fresh : Nat
  base : Nat
  epoch : Nat
  endAt : Nat
  deriving DecidableEq, Repr

/-- A collection (R175, R176). -/
structure Coll where
  gen : Nat
  ctx : Nat
  metric : Nat
  elem : Nat
  bBits : Nat
  dim : Nat
  npart : Nat
  centroids : Word
  seed : Word
  maxVectors : Nat
  elemScale : BitVec 32
  work : Word
  workBytes : Nat
  /-- E, entries in order of arrival, tombstones, and the vector log by slot -/
  epoch : Nat
  entries : List VEntry
  tombs : List (Nat × Nat)
  log : Tbl Nat (List Byte)
  /-- extents of the vector log in order, of sketch pages by partition and page, and of the working-region journal -/
  exts : List Nat
  pages : Tbl (Nat × Nat) Nat
  jext : Option Nat
  /-- the directory version, and what a fold has consumed of earlier ones: the version that ends it, its extents and tombstones -/
  ver : Nat
  stale : List (Nat × List Nat × Nat)
  /-- fresh partitions: the open one, its BASE, and the fold -/
  fresh : Nat
  base : Nat
  fold : Option VFold
  writes : List VWrite
  /-- sketch pages awaiting rebuild (R192) -/
  lost : List (Nat × Nat)
  dropping : Bool
  /-- flash units a drop has discarded -/
  gone : List Nat
  deriving DecidableEq, Repr

/-- The vector side. -/
structure Vsr where
  colls : Tbl Nat Coll
  gens : Tbl Nat Nat
  searches : Tbl Nat VSearch
  opCtr : Nat
  /-- Weigh passes by channel, in arrival order -/
  passes : Tbl Nat (List VPass)
  /-- durations of SEARCHes that ended in the last 10 ms by hub: end and duration (R193) -/
  durations : Tbl Nat (List (Nat × Nat))
  deriving DecidableEq, Repr

/-! ### Domain fabric (12) -/

/-- The domain map (Table 12-1); buckets without a row have the founder as their home. -/
structure DomMap where
  epoch : Nat
  members : Tbl Nat Member
  mapCfg : Word
  grantCfg : Word
  paths : Tbl (Nat × Nat) Nat
  founder : Nat
  buckets : Tbl Nat Bucket
  regions : Tbl Nat DomRegion
  gens : Tbl Nat Nat
  pairs : Tbl Nat Nat
  cfPeers : Tbl (Nat × Nat) Nat
  /-- the domain time master (R373) -/
  master : Option Nat
  /-- keys of committed Escrow operations and the version each produced (R304) -/
  escDone : Tbl (Nat × Nat) Nat
  deriving DecidableEq, Repr

/-- A domain request of a clerk under way (R300). `kind` 0 LD, 1 ST, 2 AMO. -/
structure DomReq where
  clerk : Nat
  /-- start time of the run that issued it, its instruction's place and address -/
  runAt : Nat
  pc : Word
  addr : Word
  kind : Nat
  body : DBody
  size : Nat
  op : Nat
  off : Nat
  tenant : Word
  /-- MOVED answers met -/
  moved : Nat
  /-- sent to, on which of its ports, when, and how many times re-sent at this epoch -/
  sentTo : Option Nat
  port : Nat
  sentAt : Nat
  tries : Nat
  resent : Bool
  /-- held since: until the next adopted epoch, or while isolated -/
  heldAt : Option Nat
  /-- waits for an earlier request of the clerk to the line -/
  behind : Bool
  /-- a MOVED named this epoch, not yet adopted -/
  waitEpoch : Nat
  deriving DecidableEq, Repr

/-- A write a home has applied and not yet answered (R297): the DUAs still to come, and the answer. -/
structure HomeWait where
  waitFor : List Nat
  status : Nat
  data : List Byte
  deriving DecidableEq, Repr

/-- An Escrow operation under way (R304, R305). -/
structure EscWait where
  clerk : Nat
  slot : Nat
  serial : Nat
  region : Nat
  op : EscOp
  /-- an ESC.PUB that still waits for the clerk's domain stores -/
  fencing : Bool
  heldAt : Option Nat
  /-- operation number: its key at the leader -/
  key : Nat
  /-- a change for it has been proposed -/
  sent : Bool
  deriving DecidableEq, Repr

/-- T4 room lent or borrowed (R306): the other member, pages, order, when it was revoked, and the borrower's session. -/
structure T4Grant where
  peer : Nat
  sess : Nat
  pages : Nat
  order : Nat
  revokedAt : Option Nat
  late : Bool
  deriving DecidableEq, Repr

/-- A piece stored here for a borrower (R306): its session and its pages' frames. -/
structure T4Piece where
  peer : Nat
  ident : Word
  frames : List (Nat × Nat)
  deriving DecidableEq, Repr

/-- The domain side. -/
structure Dfb where
  map : DomMap
  /-- appended entries by epoch, above the adopted one, and the highest committed epoch known -/
  log : Tbl Nat MapChange
  committed : Nat
  /-- the leader's records: voters that hold an entry; when each voter last answered a heartbeat and each member was last heard -/
  holders : Tbl Nat (List Nat)
  answeredAt : Tbl Nat Nat
  heardAt : Tbl Nat Nat
  leading : Bool
  lastBeat : Nat
  leaseUntil : Nat
  reqs : Tbl Nat DomReq
  /-- answers that have reached this controller's own requests and are not yet taken: serial, status, data -/
  answers : List (Nat × Nat × List Byte)
  reqCtr : Nat
  /-- requests that carry an epoch not yet adopted (Table 12-7) -/
  early : List (DHdr × DBody)
  homeWait : Tbl (Nat × Nat) HomeWait
  /-- DUP keys: requester, incarnation, serial; old value, and when (R297) -/
  keys : Tbl (Nat × Nat × Nat) (List Byte × Nat)
  /-- buckets moved away: epoch, when adopted, new home (R299) -/
  movedAway : Tbl Nat (Nat × Nat × Nat)
  /-- buckets taken over in the current epoch -/
  takenOver : List Nat
  /-- NONE lines lost with a removed home: epoch of the removal by bucket, and lines written whole since (R302) -/
  noneLostAt : Tbl Nat Nat
  noneOk : List Nat
  /-- buckets whose MIRROR and PARITY lines are lost, and those whose PARITY lines are not rebuilt here -/
  dataLost : List Nat
  unbuilt : List Nat
  /-- contribution in granules, fixed at bring-up, and backed frames -/
  share : Nat
  frames : List Nat
  esc : List EscWait
  lent : List T4Grant
  borrowed : List T4Grant
  grantCtr : Nat
  pieces : List T4Piece
  deriving DecidableEq, Repr

/-! ### Links (13) -/

/-- A frame waiting in an egress queue or being sent (R314, R322). -/
structure Frame where
  hdr : FrameHdr
  /-- cells of it not yet sent; the frame has started when fewer than its cells are left -/
  left : Nat
  at_ : Nat
  deriving DecidableEq, Repr

/-- A message being rebuilt from a queue's frames (R314); a policed message is discarded to its end (R323). -/
structure RxMsg where
  msg : Nat
  conn : Nat
  bytes : List Byte
  dropping : Bool
  deriving DecidableEq, Repr

/-- A port (R309 to R326); its settled mode stands in `LNK_PORT_STATUS`, its keys' epochs in `LNK_PORT_KEY`. -/
structure Port where
  /-- when the present state was entered, and when a refused port trains again -/
  since : Nat
  retryAt : Option Nat
  /-- retrain attempts made, and whether the retrain runs KEYS again (R318) -/
  attempts : Nat
  rekeys : Bool
  /-- lane rates both sides train at, kept for a version 2.x partner -/
  rates : List Nat
  /-- the port's consequences of FAILED have been carried out (R312) -/
  handled : Bool
  /-- sender: epochs in use, time of the first use, a REKEY sent and not answered, the old key kept -/
  epochAt : Nat
  rekeying : Bool
  oldTx : Bool
  /-- receiver: last COUNTER accepted by epoch (R317) -/
  lastCtr : Tbl Nat Nat
  oldRx : Bool
  /-- cells -/
  seqTx : Nat
  seqRx : Nat
  /-- the retry buffer, oldest first, and cells to be sent again ahead of new ones (R315) -/
  retryBuf : List CellCtl
  resend : List CellCtl
  /-- SEQ named by a retry request and not yet arrived again -/
  discardTo : Option Nat
  unacked : Nat
  unackedAt : Option Nat
  /-- times of uncorrectable codewords within the last 1 ms -/
  badAt : List Nat
  /-- frames whose tag has failed once: queue, message, offset (R318) -/
  tagFails : List (Nat × Nat × Nat)
  /-- credits at the partner by queue; receive cells freed and not yet returned, and when the first was -/
  avail : Tbl Nat Nat
  freed : Tbl Nat Nat
  freedAt : Tbl Nat Nat
  /-- egress queues, first frame in front; message serials; shaper credit in 1/80 bytes and when it was last grown -/
  queues : Tbl Nat (List Frame)
  msgTx : Tbl Nat Nat
  credit : Tbl Nat Int
  creditAt : Nat
  /-- deficit round robin: queue being served and deficits -/
  drrQ : Nat
  deficit : Tbl Nat Nat
  rx : Tbl (Nat × Nat) RxMsg
  /-- the active gate list: OPEN and DURATION in 10 ns (R325), and a swap waiting for the cycle start -/
  gates : List (Nat × Nat)
  swap : Option (List (Nat × Nat))
  deriving DecidableEq, Repr

/-- The links. -/
structure Lnk where
  ports : Tbl Nat Port
  /-- depth and delay histograms by port and queue; TTFT and TBT by customer (R324, R133) -/
  depth : Tbl (Nat × Nat) (List Nat)
  delay : Tbl (Nat × Nat) (List Nat)
  ttft : Tbl Nat (List Nat)
  tbt : Tbl Nat (List Nat)
  /-- policing buckets by context, in 1/1000 bytes, and when they were last filled (R323) -/
  police : Tbl Nat (Int × Nat)
  deriving DecidableEq, Repr

/-! ### Contexts, keys and attestation (14) -/

/-- A context's install fields (Table 14-2); TENANT, QUIET, the floor and the published state are in the `SEC_CTX` registers. -/
structure CtxRec where
  seq : Nat
  /-- 1 RESIDENT, 2 SWEEPING, 3 RESERVED; 0 an erased record -/
  state : Nat
  discard : Bool
  tenant : Word
  flags : Nat
  hosts : Nat
  control : List (List Byte)
  images : List (List Byte)
  qt : Nat
  qstacks : Nat
  qchannels : Nat
  qgroups : Nat
  /-- the tenant secret; erased on RESERVED (R331) -/
  secret : Option (List Byte)
  deriving DecidableEq, Repr

/-- A context that is not FREE (R329). -/
structure Ctx where
  record : CtxRec
  /-- step of R336 under way while SWEEPING, 1 to 6 -/
  sweepStep : Nat
  /-- job-key epochs by slot, and the secrets of the loaded slots (R339) -/
  jobEpochs : Tbl Nat Nat
  jobKeys : Tbl Nat (List Byte)
  /-- QUIET: the Tellers of each hub it holds, by number within the hub (R350) -/
  tellers : List Nat
  deriving DecidableEq, Repr

/-- One hub's MRAM (R340, R392, R394). -/
structure Mram where
  nextRes : Nat
  fwFloor : Nat
  keyFloor : Nat
  ctxFloors : Tbl Nat Nat
  ctxRecs : Tbl Nat CtxRec
  repairs : Tbl Nat StackRep
  /-- preferred firmware slot of the boot record -/
  prefer : Option Nat
  /-- operator key -/
  owner : Option (List Byte)
  /-- charger set-point, 10 mV (Table 16-1) -/
  chgSetCv : Nat
  deriving DecidableEq, Repr

/-- A Sinil connection and what it is bound to (R332). -/
structure Conn where
  bound : Option BindTo
  deriving DecidableEq, Repr

/-- An SPDM responder's state on one transport (R345). -/
structure Spdm where
  minor : Option Nat
  caps : Bool
  algs : Bool
  /-- open sessions: number and whether FINISH has completed it, and key updates done -/
  sessions : List (Nat × Bool × Nat)
  nextId : Nat
  deriving DecidableEq, Repr

/-- An IDE stream of a host head (R347), and the context whose TDI is bound to it. -/
structure IdeStream where
  selective : Bool
  tdi : Option Nat
  insecure : Bool
  deriving DecidableEq, Repr

/-- Security state. -/
structure Sec where
  /-- NEXT, the next leaf index (R342) -/
  next : Nat
  ctxs : Tbl Nat Ctx
  mram : Tbl Nat Mram
  conns : Tbl (Nat × Nat) Conn
  spdm : Tbl SpdmPath Spdm
  ide : Tbl (Nat × Nat) IdeStream
  headsInsecure : List Nat
  /-- last context each shared unit served, by unit type of Table 14-3 and instance (R334) -/
  unitLast : Tbl (Nat × Nat) Nat
  /-- retry-after values held for 1 ms: context, ladder, value, until (R349) -/
  ladders : Tbl (Nat × Nat) (Nat × Nat)
  deriving DecidableEq, Repr

/-! ### Power, time and freeze (15) -/

/-- Sources of dirty durable bytes (Table 15-1). -/
inductive DirtySrc
  | passbook | ledger | journal | parity | vectors | domainMap | held
  deriving DecidableEq, Repr

/-- A reset that waits for the end of a flush (R390). -/
inductive ResetWait
  | thermal | module | unclean | hub (h : Nat)
  deriving DecidableEq, Repr

/-- The power supervisors (R353 to R369); the state and HU_EN stand in `PWR_STATUS`. -/
structure Pwr where
  /-- the HOLD was entered on a rack-supply input fault that still stands (R368) -/
  holdRack : Bool
  rackFault : Bool
  pollMiss : Nat
  /-- VSUP has met the recovery level since its last fall (R362) -/
  recovered : Bool
  /-- FLUSH was entered on power-fail -/
  onPowerFail : Bool
  pendingReset : Option ResetWait
  dirty : Tbl DirtySrc Nat
  chargerOn : Bool
  /-- bank: measured yet, a measurement under way, retries, temperature at the last one -/
  measured : Bool
  measuring : Bool
  retries : Nat
  /-- a measurement is asked for through `PWR_TEST`; when the last one ended -/
  asked : Bool
  measuredAt : Nat
  lastTemp : Nat
  vbank : Nat
  /-- flush: tier 2 copies as session and extent (R365), and whether tier 2 was cut -/
  copies : List (Nat × Nat)
  cut : Bool
  /-- ports in service before the flush (R367) -/
  portsBefore : List Nat
  deriving DecidableEq, Repr

/-- The timebase (R370 to R374). `now` of the state is run time; node time is `now + nodeOff`. -/
structure Tim where
  nodeOff : Int
  lockA : Bool
  lockB : Bool
  /-- parts of 10^6 of a ns slewed so far -/
  slewAcc : Nat
  pps : Nat
  /-- last announce heard on each Sinil port: priority 1, clockClass, priority 2, traceable -/
  announce : Tbl Nat (Nat × Nat × Nat × Bool)
  deriving DecidableEq, Repr

/-- Freeze and JTAG (R375 to R381). -/
structure Frz where
  frozen : Bool
  deferred : Option (Nat × Nat × Nat)
  cause : Nat
  clerk : Nat
  code : Nat
  pinLow : Bool
  /-- node time held at the freeze, and hubs captured -/
  heldTime : Nat
  hubs : Nat
  /-- read-out position in bytes, and the first free value of the image's open contents -/
  pos : Nat
  seed : Nat
  /-- instruction of each TAP (Table 15-7) -/
  ir : Tbl Nat Nat
  deriving DecidableEq, Repr

/-! ### Bring-up and firmware (16) -/

/-- What the controller's own extents on flash hold when a reset comes, and are read back from (R365, R388), in decoded form
(DESIGN CHOICE, log 69). -/
structure Saved where
  sessions : Tbl Nat Session
  gens : Tbl Nat Nat
  customers : Tbl Nat Customer
  ledgerExt : Option Nat
  colls : Tbl Nat Coll
  collGens : Tbl Nat Nat
  jobs : Tbl Nat StmJob
  jobGens : Tbl Nat Nat
  /-- the domain map of a voter's log, and the controller's own number -/
  map : DomMap
  self : Nat
  deriving DecidableEq, Repr

/-- Bring-up and firmware. -/
structure Boot where
  /-- steps of Table 16-1 that have ended -/
  done : List Nat
  clean : Bool
  /-- source being tried: 0 slot A, 1 slot B, 2 and 3 Sinil ports; sources that have failed; when the source last sent -/
  trying : Option Nat
  failed : List Nat
  lastData : Nat
  /-- firmware source, running slot and digest -/
  source : Nat
  slot : Nat
  digest : Word
  /-- Sinil ports in boot mode -/
  bootPorts : List Nat
  /-- what a reset left on flash, until it is read back; Passbook entries cut after an unclean reset that the Counterfoil holds (R388) -/
  saved : Option Saved
  cutPb : Tbl Nat (List PbEntry)
  /-- a live restart: the new image, its slot, and whether the pause is over -/
  restart : Option (FwImage × Nat)
  /-- text units and channels the self-test took out; a unit failed -/
  textOut : List Nat
  chanOut : List Nat
  /-- hubs whose reset is under way (R393) -/
  returning : List Nat
  /-- ports the self-test took out -/
  portOut : List Nat
  fault : Bool
  flashUp : Bool
  deriving DecidableEq, Repr

/-! ### Trace (17) -/

/-- A trace record (Table 17-10). -/
structure TraceRec where
  time : Nat
  source : Nat
  ctx : Nat
  ctxValid : Bool
  inst : Nat
  value : Nat
  deriving DecidableEq, Repr

/-! ### Messages the controller sends -/

/-- A message, cell or pin event that leaves the controller (the MODEL's own record of what it sent). -/
inductive Out
  /-- an access of the register window is answered (R395, R396) -/
  | regAnswer (rq : Requester) (denied : Bool) (v : Word)
  /-- a run completion record goes to its requester (R50) -/
  | runRecord (rq : Requester) (rec : RunRec)
  /-- a handshake link is declared failed (R10) -/
  | linkFail (l : LinkId)
  /-- an image load ends: OK, or the refusal of R26 -/
  | loadAnswer (rq : Requester) (slot status : Nat)
  /-- a session's pieces go to the destination of a MOVE (R72) -/
  | sessMove (dest : Nat) (ident : Word) (copy : SsnCopy)
  /-- the destination of a MOVE answers (R74) -/
  | moveAnswer (src : Nat) (ident : Word) (status aux : Nat) (w1 : Word)
  /-- a Passbook or KV page goes to the Counterfoil (R64) -/
  | sessCf (peer : Nat) (ident : Word) (kv : Bool) (layer page : Nat) (data : List Byte)
  /-- T4 room is asked of a peer (R306) -/
  | t4Ask (peer pages : Nat)
  /-- pieces go to a T4 peer -/
  | t4Store (peer : Nat) (ident : Word) (pages : List (List Byte))
  /-- pieces are asked back from a T4 peer (R72) -/
  | t4Recall (peer : Nat) (ident : Word)
  /-- lost KV pages are asked of the Counterfoil (R85) -/
  | cfKvAsk (peer : Nat) (ident : Word) (pages : List (Nat × Nat))
  /-- an ATR or a KVA: entries as slot, QLEN, KVLEN, status (R103, R106) -/
  | atr (p : Nat) (kva : Bool) (flags layer status step : Nat) (entries : List (Nat × Nat × Nat × Nat)) (rows : List (List Byte))
  /-- a dispatch descriptor to every port of a group: session table as slot, NEW, START_LAYER, POS, HSR, WANT_LOGITS (R127) -/
  | stepDesc (g : Nat) (half : Bool) (kernel : Bool) (index step : Nat) (logits : Bool) (table : List (Nat × Nat × Nat × Nat × Bool × Bool)) (tokens : List Nat) (arg : List Byte)
  /-- hidden-state rows of a displaced session to every port of its group (R130) -/
  | hsr (g step slot : Nat) (rows : List Byte)
  /-- a KERNEL dispatch to every port of its group (R217) -/
  | kernelDesc (g : Nat) (desc : Desc) (tables : List Byte)
  /-- a step report (R140) -/
  | stepReport (port conn : Nat) (r : Report)
  /-- a flash write ends with a status of Table 2-11 -/
  | flashWrote (owner : FlashOwner) (status : Nat)
  /-- a read of a mapping unit answers -/
  | flashData (unit : Nat) (status : Nat) (data : List Byte)
  /-- a sealed Counterfoil page (R262) -/
  | cfPageOut (peer : Nat) (tag : Word) (rank slot seq : Nat) (data : List Byte)
  /-- a Counterfoil page is stored, or refused (R262) -/
  | cfPageAnswer (peer : Nat) (tag : Word) (rank seq : Nat) (ok : Bool)
  /-- a member notice (R261) -/
  | memberNotice (coord : Nat) (tag : Word) (rank step : Nat) (shards : List (Nat × Nat × Bool × List Byte))
  /-- a commit notice (R261) -/
  | commitNoticeOut (coord : Nat) (tag : Word) (rank step : Nat) (part : List Byte)
  /-- the shape digest to a member (R263) -/
  | shapeOut (tag : Word) (rank step : Nat) (shape : List Byte)
  /-- a job commit record to the peer (R263) -/
  | jobRecordOut (peer : Nat) (tag : Word) (rank step : Nat)
  /-- a member's flash commit (R265) -/
  | flashNotice (coord : Nat) (tag : Word) (rank step : Nat)
  /-- ROLLBACK to a survivor (R268) -/
  | rollbackOut (tag : Word) (rank step : Nat)
  /-- TAKEOVER to a spare (R268) -/
  | takeoverOut (spare : Nat) (tag : Word) (rank step : Nat)
  /-- two Counterfoil slots are asked for (R254) -/
  | cfSlotAsk (peer : Nat) (tag : Word) (rank bytes : Nat)
  /-- Counterfoil slots are granted or refused (R254) -/
  | cfSlotAnswer (peer : Nat) (tag : Word) (rank : Nat) (ok : Bool)
  /-- Counterfoil pages go back (R268) -/
  | cfPagesOut (peer : Nat) (tag : Word) (rank : Nat) (pages : List (List Byte))
  /-- the coordinator holds every member's flash commit (R265) -/
  | flashAllOut (tag : Word) (rank step : Nat)
  /-- a recall: BISnpInv or BISnpData to a head, RCL to a node port (R279) -/
  | recallMsg (agent line : Nat) (downgrade : Bool)
  /-- a response to a node-port memory request (Table 11-3) -/
  | mrs (p tag hold load status : Nat) (data : List Byte)
  /-- an S2M DRS (R274) -/
  | cxlData (head tag load : Nat) (poison : Bool) (data : List Byte)
  /-- an S2M NDR Cmp (R282) -/
  | cxlCmp (head tag load : Nat)
  /-- a change is proposed to the leader (R290) -/
  | propose (c : MapChange)
  /-- the leader sends an entry to the voters (R290) -/
  | append_ (epoch : Nat) (c : MapChange)
  /-- a voter holds an entry (R290) -/
  | appendAck (leader epoch : Nat)
  /-- the leader sends a commit to every member on Q0 (R290) -/
  | commit_ (epoch : Nat) (c : MapChange)
  /-- a heartbeat to a member over two paths (R291) -/
  | heartbeat (m epoch : Nat)
  /-- a heartbeat is answered (R291) -/
  | beatAck (leader : Nat)
  /-- a voter stands for leader (R290) -/
  | voteAsk (logLen : Nat)
  /-- a voter answers a candidate (R290) -/
  | voteAnswer (candidate logLen : Nat) (ok : Bool)
  /-- a controller asks to join (R301) -/
  | joinAsk (contact self : Nat)
  /-- the leader refuses a join (R301) -/
  | joinRefused (m : Nat)
  /-- a domain request (R296) -/
  | domReq (dest port : Nat) (h : DHdr) (b : DBody)
  /-- a DRS (R296) -/
  | domAns (dest serial epoch status : Nat) (data : List Byte)
  /-- a DFW (R299) -/
  | domFwd (dest : Nat) (h : DHdr) (b : DBody)
  /-- a DUP (R297) -/
  | domUpd (dest : Nat) (h : DHdr) (parity : Bool) (mask : Nat) (line old : List Byte)
  /-- a DUA (R297) -/
  | domUpdAns (dest requester serial : Nat)
  /-- T4 room is granted or refused (R306) -/
  | t4Answer (peer pages : Nat) (ok : Bool)
  /-- pieces go back to their borrower (R72) -/
  | t4Pieces (peer : Nat) (ident : Word) (pages : List (List Byte))
  /-- a grant is revoked (R306) -/
  | t4Revoked (peer order : Nat)
  /-- the leader answers an Escrow operation that changes nothing (R304) -/
  | escAnswer (issuer key status word1 : Nat)
  /-- a cell leaves port `p` (R313) -/
  | cell (p : Nat) (c : CellCtl)
  /-- an acknowledge control cell (R315) -/
  | ackCell (p seq : Nat)
  /-- a retry request naming a SEQ (R315) -/
  | retryCell (p seq : Nat)
  /-- a credit return (R316) -/
  | creditCell (p q n : Nat)
  /-- the controller's capability block (Table 13-4) -/
  | capBlock (p : Nat) (w0 w1 : Word)
  /-- the controller's credit advertisement (R316) -/
  | advert (p : Nat) (cells : List Nat)
  /-- a REKEY link-control frame, or its answer (R319) -/
  | rekey (p epoch : Nat) (answer : Bool)
  /-- a message received whole on a port, handed to its block (R314) -/
  | message (p q conn : Nat) (bytes : List Byte)
  /-- a connection is answered ADMIT_DEFER with a retry-after (R323) -/
  | policed (p conn retryNs : Nat)
  /-- an SPDM response code and body (R345); 0x7F is ERROR -/
  | spdm (t : SpdmPath) (code : Nat) (body : List Byte)
  /-- the answer to a TDISP request (R348) -/
  | tdisp (n state : Nat) (ok : Bool)
  /-- a Sinil connection is closed (R336) or dropped (R312) -/
  | connClosed (p conn : Nat)
  /-- the answer to a binding challenge (R332) -/
  | bindAnswer (p conn : Nat) (ok : Bool)
  /-- a time frame on a node link (R372) -/
  | timeFrame (p : Nat) (t : Int)
  /-- PPS_OUT rises (R372) -/
  | pps (t : Int)
  /-- a PTM response (R372) -/
  | ptm (t : Int)
  /-- an IEEE 1588 message: 0 announce, 1 sync, 2 follow-up, 3 delay response (R374) -/
  | ptp (port kind : Nat) (t : Int) (prio1 clockClass prio2 : Nat)
  /-- a two-way time frame to the domain time master (R373) -/
  | domainTime (t : Int)
  /-- the four reads of a rack-supply poll (R368) -/
  | pmbusPoll (addr : Nat)
  /-- freeze image bytes, through TDO or the read-out lane (R379, R381) -/
  | image (bytes : List Byte)
  /-- what a TAP shifts out for an instruction (R378) -/
  | tdo (tap code : Nat) (v : Word)
  /-- a Sinil port asks for a firmware image in boot mode (R384) -/
  | boot (port : Nat)
  /-- a notice on MSI-X vector `b` (R408) -/
  | msix (b : Nat)
  /-- an event frame on a Sinil connection (R408) -/
  | eventFrame (port conn : Nat) (summary : Word) (t : Int)
  /-- a notice to Bursar firmware (R408) -/
  | fwNotice (b : Nat)
  /-- a trace record exported (R411) -/
  | traceFrame (conn : Nat) (r : TraceRec)
  deriving DecidableEq, Repr

/-! ### The state -/

/-- The state of the controller. -/
structure State where
  /-- commands waiting, first in front (the MODEL's own queue) -/
  pending : List Instr
  /-- run time in ns since reset (R370, R371; DESIGN CHOICE 0, log 2) -/
  now : Nat
  /-- the MODEL's own counter of free values (log 3) -/
  freeCtr : Nat
  /-- messages the controller has sent, oldest first (the MODEL's own record) -/
  out : List Out
  /-- every byte-addressed memory of the controller (log 4) -/
  mem : List Host.Cell
  /-- symbols in error by codeword key (R20) -/
  badSyms : Tbl Nat Nat
  /-- poisoned 64-byte lines by line key (R22) -/
  poison : List Nat
  /-- registers that do not hold their reset value -/
  regs : Tbl (Reg × Nat) Word
  /-- blocks whose latch P_b is set (R407) -/
  latches : List Nat
  /-- time of the last notice of each block (R408) -/
  noticeAt : Tbl Nat Nat
  /-- trace rings by hub, oldest first (R411) -/
  traceRings : Tbl Nat (List TraceRec)
  /-- hubs, stacks and internal links (01) -/
  arch : Arch
  /-- images, runs and clerks (02, 08) -/
  tlr : Tlr
  /-- sessions (03) -/
  ssn : Ssn
  /-- attention beside memory (04) -/
  kva : Kva
  /-- step planning and the Ledger (05) -/
  sch : Sch
  /-- text path (06) -/
  txt : Txt
  /-- links (13) -/
  lnk : Lnk
  /-- contexts, keys and attestation (14) -/
  sec : Sec
  /-- power (15) -/
  pwr : Pwr
  /-- time (15) -/
  tim : Tim
  /-- freeze and JTAG (15) -/
  frz : Frz
  /-- bring-up and firmware (16) -/
  boot : Boot
  /-- flash (09) -/
  fls : Fls
  /-- node memory (11) -/
  nmc : Nmc
  /-- domain fabric (12) -/
  dfb : Dfb
  /-- statements (10) -/
  stm : Stm
  /-- vector search (07) -/
  vsr : Vsr
  deriving DecidableEq, Repr

/-- Why a step faults: it never does. What the spec calls an error of a command it also answers, with a status, a trap, a counted access or an event
bit, and the controller goes on, so there is no constructor. -/
inductive Fault
  deriving DecidableEq, Repr

/-- Why a step is refused. -/
inductive Refusal
  /-- a command without a meaning, rejected by its name; every command has one, so no arm of `exec` raises it; safe -/
  | notModelled (mnemonic : String)
  deriving DecidableEq, Repr

/-! ### Reset -/

/-- `Arch` right after reset. -/
def Arch.init : Arch :=
  { hubs := .empty, stacksOff := [], repairs := .empty, linksDown := [], stackLinksDown := [], pace := .empty, standby := false,
    cut := false, heldThermal := false, hostLost := false, timebaseHub := none }

/-- `Tlr` right after reset. -/
def Tlr.init : Tlr :=
  { images := .empty, loads := [], clerks := .empty, queues := .empty, runRecs := .empty, lastRecHub := none, durations := .empty,
    signals := .empty, handleCtr := 0, granules := [], opCtr := 0 }

/-- `Ssn` right after reset. -/
def Ssn.init : Ssn :=
  { sessions := .empty, gens := .empty, freedAt := .empty, phase := none, dirLost := [], used := .empty, handed := [], cf := .empty }

/-- `Kva` right after reset. -/
def Kva.init : Kva :=
  { engines := .empty, merges := .empty, ops := .empty, inbox := .empty, mergeCtr := 0 }

/-- `Sch` right after reset. -/
def Sch.init : Sch :=
  { models := .empty, groups := .empty, steps := .empty, stepCtr := 0, customers := .empty, reports := [], kernels := .empty,
    finishes := [], power := [], plannerOnQ2 := false, prefills := [], ledgerExt := none }

/-- `Txt` right after reset. -/
def Txt.init : Txt := { vocabs := .empty, grams := .empty }

/-- `Lnk` right after reset. -/
def Lnk.init : Lnk :=
  { ports := .empty, depth := .empty, delay := .empty, ttft := .empty, tbt := .empty, police := .empty }

/-- `Sec` right after reset. -/
def Sec.init : Sec :=
  { next := 0, ctxs := .empty, mram := .empty, conns := .empty, spdm := .empty, ide := .empty, headsInsecure := [], unitLast := .empty,
    ladders := .empty }

/-- `Pwr` right after reset. -/
def Pwr.init : Pwr :=
  { holdRack := false, rackFault := false, pollMiss := 0, recovered := false, onPowerFail := false, pendingReset := none,
    dirty := .empty, chargerOn := false, measured := false, measuring := false, retries := 0, asked := false, measuredAt := 0, lastTemp := 0, vbank := 0,
    copies := [], cut := false, portsBefore := [] }

/-- `Tim` right after reset. -/
def Tim.init : Tim := { nodeOff := 0, lockA := false, lockB := false, slewAcc := 0, pps := 0, announce := .empty }

/-- `Frz` right after reset. -/
def Frz.init : Frz :=
  { frozen := false, deferred := none, cause := 0, clerk := 0, code := 0, pinLow := false, heldTime := 0, hubs := 0, pos := 0, seed := 0,
    ir := .empty }

/-- `Boot` right after reset. -/
def Boot.init : Boot :=
  { done := [], clean := false, trying := none, failed := [], lastData := 0, source := 0, slot := 0, digest := 0, bootPorts := [],
    saved := none, cutPb := .empty, restart := none, textOut := [], chanOut := [], returning := [], portOut := [], fault := false, flashUp := false }

/-- `Fls` right after reset. -/
def Fls.init : Fls :=
  { map := .empty, data := .empty, extents := .empty, nextExtent := 0, nextUnit := 0, sbs := .empty, slcFormat := 0, formatted := false,
    writes := [], wrCtr := 0, jbufs := .empty, journalBytes := 0, checkpointSlot := 0, seq := 0, reserve := .empty, rebuild := [],
    folding := false, held := false, sdisc := [], kept := none }

/-- `Nmc` right after reset. -/
def Nmc.init : Nmc :=
  { window := 0, regions := .empty, gens := .empty, dir := .empty, dirCtr := 0, recalls := .empty, waiting := .empty, faults := .empty,
    ordered := [], held := .empty, buckets := .empty, openTags := [], serial := 0, xfer := .empty, sweeps := .empty, parked := .empty,
    touched := .empty }

/-- `DomMap` right after reset. -/
def DomMap.init : DomMap :=
  { epoch := 0, members := .empty, mapCfg := 0x03E807D0050C0A08, grantCfg := 0x5F03E8505A, paths := .empty, founder := 0,
    buckets := .empty, regions := .empty, gens := .empty, pairs := .empty, cfPeers := .empty, master := none, escDone := .empty }

/-- `Dfb` right after reset. -/
def Dfb.init : Dfb :=
  { map := DomMap.init, log := .empty, committed := 0, holders := .empty, answeredAt := .empty, heardAt := .empty, leading := false,
    lastBeat := 0, leaseUntil := 0, reqs := .empty, answers := [], reqCtr := 0, early := [], homeWait := .empty, keys := .empty, movedAway := .empty,
    takenOver := [], noneLostAt := .empty, noneOk := [], dataLost := [], unbuilt := [], share := 0, frames := [], esc := [],
    lent := [], borrowed := [], grantCtr := 0, pieces := [] }

/-- `Stm` right after reset. -/
def Stm.init : Stm := { jobs := .empty, gens := .empty, coords := .empty, stores := .empty, holds := .empty }

/-- `Vsr` right after reset. -/
def Vsr.init : Vsr :=
  { colls := .empty, gens := .empty, searches := .empty, opCtr := 0, passes := .empty, durations := .empty }

/-- The machine right after reset, before bring-up has written anything (log 6). -/
def State.reset : State :=
  { pending := [], now := 0, freeCtr := 0, out := [], mem := [], badSyms := .empty, poison := [], regs := .empty, latches := [], noticeAt := .empty, traceRings := .empty, arch := Arch.init, tlr := Tlr.init, ssn := Ssn.init, kva := Kva.init, sch := Sch.init, txt := Txt.init, lnk := Lnk.init, sec := Sec.init, pwr := Pwr.init, tim := Tim.init, frz := Frz.init, boot := Boot.init, fls := Fls.init, nmc := Nmc.init, dfb := Dfb.init, stm := Stm.init, vsr := Vsr.init }

end Sys2Proof.Machine
end

