-- ==== Sys2Proof/Machine/Ops.lean ====
section
/-! DEFINITION. Named operations over registers, event bits, memory and free values, used by every family. -/

namespace Sys2Proof.Machine

/-! ### Registers (R395 to R399) -/

/-- A register's value at reset, where it depends on the instance: `LNK_PORT_CFG` (Table 13-11) and `LNK_Q_SHAPE` (Table 13-8). -/
def Reg.resetAt (r : Reg) (i : Nat) : Word :=
  match r with
  | .lnkPortCfg => if i < 8 then 0x81 else if i < 20 then 0x41 else 0x11
  | .lnkQShape => queueShapeReset (i / 16) (i % 16)
  | .lnkQCredit => BitVec.ofNat 64 (bits (queueShapeReset (i / 16) (i % 16)).toNat 16 16 * 1024)
  | _ => BitVec.ofNat 64 r.spec.reset

/-- The value register `r` instance `i` holds. -/
def State.rd (s : State) (r : Reg) (i : Nat := 0) : Word :=
  match s.regs.look (r, i) with
  | some v => v
  | none => r.resetAt i

/-- Set register `r` instance `i`. -/
def State.wr (s : State) (r : Reg) (i : Nat) (v : Word) : State :=
  { s with regs := s.regs.put (r, i) v }

/-- A field of a register word. -/
def Fld.get (f : Fld) (v : Word) : Nat := bits v.toNat f.lo f.width

/-- A register word with a field set. -/
def Fld.set (f : Fld) (v : Word) (x : Nat) : Word :=
  let m : Word := BitVec.ofNat 64 ((2 ^ f.width - 1) * 2 ^ f.lo)
  (v &&& ~~~m) ||| (BitVec.ofNat 64 ((x % 2 ^ f.width) * 2 ^ f.lo))

/-- A register's field. -/
def State.fld (s : State) (f : Fld) (i : Nat := 0) : Nat := f.get (s.rd f.reg i)

/-- Set a register's field. -/
def State.setFld (s : State) (f : Fld) (i x : Nat) : State := s.wr f.reg i (f.set (s.rd f.reg i) x)

/-- Add to a register that counts, modulo 2^64. -/
def State.count (s : State) (r : Reg) (i n : Nat) : State := s.wr r i (s.rd r i + BitVec.ofNat 64 n)

/-- Add to a saturating field of a register (R399). -/
def State.countSat (s : State) (f : Fld) (i n : Nat) : State :=
  s.setFld f i (min (s.fld f i + n) (2 ^ f.width - 1))

/-! ### Event bits (R399, R407) -/

/-- Set an event bit. A masked bit that goes from 0 to 1 sets the block's latch P_b (R407). -/
def State.raise (s : State) (e : Evt) : State :=
  let v := s.rd e.reg
  let b := e.reg.spec.block
  let s' := s.wr e.reg 0 (v ||| BitVec.ofNat 64 (2 ^ e.bit))
  if !(bit v.toNat e.bit) && bit (s.rd .glbEvtMask b).toNat e.bit then
    { s' with latches := if s'.latches.contains b then s'.latches else b :: s'.latches }
  else s'

/-- A W1C write: the bits written as 1 are cleared (R399). -/
def State.w1c (s : State) (r : Reg) (v : Word) : State := s.wr r 0 (s.rd r &&& ~~~v)

/-! ### Free values -/

/-- A free number; the counter advances so that the next one is another. -/
def State.freshNat (s : State) : Nat := Config.freeNat s.freeCtr

/-- The free-value counter, advanced. -/
def State.bump (s : State) : State := { s with freeCtr := s.freeCtr + 1 }

/-- A free choice from a list: which one is not stated. -/
def pickFree (ctr : Nat) : List Nat → Option Nat
  | [] => none
  | [a] => some a
  | a :: b :: rest => (a :: b :: rest)[Config.freeNat ctr % (rest.length + 2)]?

/-! ### Memory -/

/-- Bytes of memory by key. -/
def State.bytesAt (s : State) (key n : Nat) : List Byte := readBytes s.mem key n

/-- The little-endian number at a key. -/
def State.numAt (s : State) (key n : Nat) : Nat := leNat (s.bytesAt key n)

/-- Write bytes at a key. -/
def State.putBytes (s : State) (key : Nat) (bs : List Byte) : State := { s with mem := writeBytes s.mem key bs }

/-- A message leaves the controller. -/
def State.send (s : State) (o : Out) : State := { s with out := s.out ++ [o] }

/-- Several messages leave the controller, in order. -/
def State.sendAll (s : State) (os : List Out) : State := { s with out := s.out ++ os }

/-- Apply an operation for each element, in order. -/
def State.each {α : Type} (s : State) (l : List α) (f : State → α → State) : State := l.foldl f s

/-! ### Blocks -/

/-- Change the Keagon side. -/
def State.onTlr (s : State) (f : Tlr → Tlr) : State := { s with tlr := f s.tlr }
/-- Change the session store. -/
def State.onSsn (s : State) (f : Ssn → Ssn) : State := { s with ssn := f s.ssn }
/-- Change the attention side. -/
def State.onKva (s : State) (f : Kva → Kva) : State := { s with kva := f s.kva }
/-- Change the planner and the Ledger. -/
def State.onSch (s : State) (f : Sch → Sch) : State := { s with sch := f s.sch }
/-- Change the links. -/
def State.onLnk (s : State) (f : Lnk → Lnk) : State := { s with lnk := f s.lnk }
/-- Change the security state. -/
def State.onSec (s : State) (f : Sec → Sec) : State := { s with sec := f s.sec }
/-- Change the power state. -/
def State.onPwr (s : State) (f : Pwr → Pwr) : State := { s with pwr := f s.pwr }
/-- Change the module's hubs, stacks and links. -/
def State.onArch (s : State) (f : Arch → Arch) : State := { s with arch := f s.arch }
/-- Change the bring-up state. -/
def State.onBoot (s : State) (f : Boot → Boot) : State := { s with boot := f s.boot }
/-- Change node memory. -/
def State.onNmc (s : State) (f : Nmc → Nmc) : State := { s with nmc := f s.nmc }
/-- Change the domain side. -/
def State.onDfb (s : State) (f : Dfb → Dfb) : State := { s with dfb := f s.dfb }
/-- Change the Statement side. -/
def State.onStm (s : State) (f : Stm → Stm) : State := { s with stm := f s.stm }
/-- Change the vector side. -/
def State.onVsr (s : State) (f : Vsr → Vsr) : State := { s with vsr := f s.vsr }
/-- Change signal `i`, if it exists. -/
def State.updSignal (s : State) (i : Nat) (f : Signal → Signal) : State :=
  s.onTlr (fun t => { t with signals := t.signals.upd i f })
/-- Change session `i`, if it exists. -/
def State.updSession (s : State) (i : Nat) (f : Session → Session) : State :=
  s.onSsn (fun t => { t with sessions := t.sessions.upd i f })
/-- Node time in ns (R370, R371): run time and what discipline and freezes have added. -/
def State.nodeTime (s : State) : Int := (s.now : Int) + s.tim.nodeOff
/-- Node time as a number. -/
def State.nodeNs (s : State) : Nat := s.nodeTime.toNat

/-! ### Hubs and stacks (Table 1-2) -/

/-- The hub of a stack. -/
def hubOfStack (m : Nat) : Nat := m / 6
/-- The hub of a clerk (R30). -/
def hubOfClerk (c : Nat) : Nat := c / 1024
/-- The hub of a node port index 0 to 7, fabric port index 8 to 19, or Sinil port index 20, 21 (Table 1-2). -/
def hubOfPort (p : Nat) : Nat := if p < 8 then p / 2 else if p < 20 then (p - 8) / 3 else if p = 20 then 0 else 2
/-- The hub of a flash channel. -/
def hubOfChannel (ch : Nat) : Nat := ch / 8

/-- A hub is in service. -/
def State.hubUp (s : State) (h : Nat) : Bool := decide (s.arch.hubs.lookD h .held = .inService)

/-- The host port, on Q1, is there: a failure of Q1 loses it until the module is reset (R7). -/
def State.hostUp (s : State) : Bool := s.hubUp 1 && !s.arch.hostLost

/-- Hubs in service, lowest first. -/
def State.hubsUp (s : State) : List Nat := (List.range 4).filter s.hubUp

/-- A stack is in service: its hub is, and it has not been taken offline (R11, R23). -/
def State.stackUp (s : State) (m : Nat) : Bool :=
  decide (m < 24) && s.hubUp (hubOfStack m) && !(s.arch.stacksOff.contains m)

/-- Stacks in service. -/
def State.stacksUp (s : State) : List Nat := (List.range 24).filter s.stackUp

end Sys2Proof.Machine
end

