-- ==== Sys2Proof/Machine/Flags.lean ====
section
/-! DEFINITION. Completion status codes (Table 2-11), trap classes (Table 2-12) and the words of a completion. -/

namespace Sys2Proof.Machine

/-- Completion status codes (R53, Table 2-11). -/
inductive Status
  | ok | partialS | noSpace | budget | admitDefer | moved | conflict | poison | uncorrectable
  | denied | truncated | degraded | preempted | aborted
  deriving DecidableEq, Repr

/-- The code of a status. -/
def Status.code : Status → Nat
  | .ok => 0x0000 | .partialS => 0x0001 | .noSpace => 0x0010 | .budget => 0x0011 | .admitDefer => 0x0012
  | .moved => 0x0020 | .conflict => 0x0021 | .poison => 0x0030 | .uncorrectable => 0x0031 | .denied => 0x0040
  | .truncated => 0x0050 | .degraded => 0x0060 | .preempted => 0x0070 | .aborted => 0x00F0

/-- Word 0 of a completion: status in [15:0], auxiliary value in [63:16] (R46). -/
def word0 (st : Status) (aux : Nat) : Word := BitVec.ofNat 64 (st.code + aux % 2 ^ 48 * 2 ^ 16)

/-- Trap classes (R55, Table 2-12). -/
inductive TrapClass
  | illegal | privilege | capability | address | receipt | stack | memory | machineCheck | brk | watchdog | lost
  deriving DecidableEq, Repr

/-- The number of a trap class. -/
def TrapClass.code : TrapClass → Nat
  | .illegal => 1 | .privilege => 2 | .capability => 3 | .address => 4 | .receipt => 5 | .stack => 6
  | .memory => 7 | .machineCheck => 8 | .brk => 9 | .watchdog => 10 | .lost => 11

/-- Whether the trap entry takes the class. -/
def TrapClass.entryTakes : TrapClass → Bool
  | .capability | .address | .memory | .brk | .watchdog => true
  | _ => false

/-- Whether a trap record of the class holds an address (R55). -/
def TrapClass.hasAddr : TrapClass → Bool
  | .address | .stack | .memory | .machineCheck => true
  | _ => false

end Sys2Proof.Machine
end

