-- ==== Sys2Proof/Machine/Operands.lean ====
section
/-! DEFINITION. Keagon instruction words: the fields of Tables 8-1 and 8-2, which words are defined (R198 to R201), the ALU
and comparison functions (Table 8-4, R203) and the translation of 2.x words (R223). -/

namespace Sys2Proof.Machine

/-- Bits `lo + w - 1` down to `lo` of an instruction word. -/
def wf (v : Word) (lo w : Nat) : Nat := bits v.toNat lo w

/-- MAJOR, bits [63:56]. -/
def wMajor (v : Word) : Nat := wf v 56 8
/-- GINV, bit 55. -/
def wGinv (v : Word) : Bool := v.getLsbD 55
/-- GPRED, bits [54:52]. -/
def wGpred (v : Word) : Nat := wf v 52 3
/-- RD (also RL and RS), bits [51:47]. -/
def wRD (v : Word) : Nat := wf v 47 5
/-- RA of RR, RI, BR, MEM and WT, bits [46:42]. -/
def wRA (v : Word) : Nat := wf v 42 5
/-- RB of RR and MEM, and RE of WT, bits [41:37]. -/
def wRB (v : Word) : Nat := wf v 37 5
/-- RC of MEM and FN of RR, bits [36:32]. -/
def wRC (v : Word) : Nat := wf v 32 5
/-- FN of RR, bits [36:32]. -/
def wFnRR (v : Word) : Nat := wf v 32 5
/-- FN of RI, bits [41:37]. -/
def wFnRI (v : Word) : Nat := wf v 37 5
/-- IMM of RI and BR, sign-extended (R199). -/
def wImm32 (v : Word) : Word := (v.extractLsb' 0 32).signExtend 64
/-- DREG of DX, bits [46:43]. -/
def wDreg (v : Word) : Nat := wf v 43 4
/-- WORD of DX, bits [42:40]. -/
def wWordIx (v : Word) : Nat := wf v 40 3
/-- SIZE of MEM, bits [31:29]. -/
def wSize (v : Word) : Nat := wf v 29 3
/-- OFF of MEM, sign-extended (R199). -/
def wOff (v : Word) : Word := (v.extractLsb' 0 26).signExtend 64
/-- H of LONG, bits [46:44]. -/
def wH (v : Word) : Nat := wf v 44 3
/-- H2 of LONG, bits [43:41]. -/
def wH2 (v : Word) : Nat := wf v 41 3
/-- D of LONG, bits [40:37]. -/
def wD (v : Word) : Nat := wf v 37 4
/-- RA of LONG, bits [36:32]. -/
def wLRA (v : Word) : Nat := wf v 32 5
/-- RB of LONG, bits [31:27]. -/
def wLRB (v : Word) : Nat := wf v 27 5
/-- SUB of LONG, bits [26:24]. -/
def wSub (v : Word) : Nat := wf v 24 3
/-- IMM of LONG, bits [23:0], not extended. -/
def wImm24 (v : Word) : Nat := wf v 0 24
/-- PD of WT, bits [36:34]. -/
def wPDw (v : Word) : Nat := wf v 34 3
/-- H of WT, bits [33:31]. -/
def wHw (v : Word) : Nat := wf v 31 3
/-- USE_H of WT, bit 30. -/
def wUseH (v : Word) : Bool := v.getLsbD 30
/-- TIMEOUT of WT, bits [29:0], in µs. -/
def wTimeout (v : Word) : Nat := wf v 0 30
/-- CODE of SYS, bits [31:0]. -/
def wCode (v : Word) : Nat := wf v 0 32

/-- An even scalar register s2 to s30, as a 16-byte form names its pair (R201). -/
def pairOk (r : Nat) : Bool := decide (r % 2 = 0) && decide (2 ≤ r)

/-- Fields of the LONG format an instruction uses; the others must be zero (R198, R209). -/
structure LongUse where
  rd : Bool := false
  h : Bool := false
  h2 : Bool := false
  d : Bool := false
  ra : Bool := false
  rb : Bool := false
  /-- bits of IMM used, from bit 0 -/
  imm : Nat := 0
  deriving DecidableEq, Repr

/-- The unused fields of a LONG word are zero, and a long instruction's RD is not s0 (R198, R201); SUB is checked apart. -/
def LongUse.ok (u : LongUse) (v : Word) : Bool :=
  (if u.rd then decide (wRD v ≠ 0) else decide (wRD v = 0)) && (u.h || decide (wH v = 0)) && (u.h2 || decide (wH2 v = 0)) &&
  (u.d || decide (wD v = 0)) && (u.ra || decide (wLRA v = 0)) && (u.rb || decide (wLRB v = 0)) &&
  decide (wImm24 v < 2 ^ u.imm)

/-- What a LONG instruction uses, by major opcode and SUB; `none` where the sub-function is not defined (Tables 8-7, 8-10, R217, R218). -/
def longUse (major sub : Nat) : Option LongUse :=
  match major, sub with
  | 0x10, 0 => some { rd := true, h := true, ra := true, imm := 12 }
  | 0x11, 0 => some { h := true, h2 := true, imm := 8 }
  | 0x12, 0 => some { h := true }
  | 0x18, 0 => some { rd := true, h := true, d := true }
  | 0x19, 0 => some { rd := true, h := true, d := true }
  | 0x1A, 0 => some { rd := true, h := true, d := true }
  | 0x1B, 0 => some { rd := true, h := true, d := true }
  | 0x1C, 0 => some { h := true, d := true }
  | 0x20, 0 => some { rd := true, h := true, d := true }
  | 0x21, 0 => some { rd := true, d := true }
  | 0x28, 0 => some { rd := true, h := true, d := true }
  | 0x28, 1 => some { rd := true, h := true, d := true, ra := true, rb := true, imm := 24 }
  | 0x30, 0 => some { rd := true, h := true, d := true }
  | 0x31, 0 => some { rd := true, h := true, h2 := true }
  | 0x31, 1 => some { rd := true, h := true }
  | 0x31, 2 => some { rd := true, h := true, ra := true }
  | 0x31, 3 => some { rd := true, h := true, rb := true }
  | 0x32, 0 => some { rd := true, h := true, ra := true, rb := true }
  | 0x32, 1 => some { rd := true, h := true, ra := true }
  | 0x33, 0 => some { rd := true, h := true, ra := true, imm := 6 }
  | 0x33, 1 => some { rd := true, h := true, d := true }
  | 0x38, 0 => some { rd := true, h := true, d := true }
  | 0x39, 0 => some { rd := true, h := true, d := true }
  | 0x3A, 0 => some { rd := true, h := true, d := true }
  | 0x40, 0 => some { rd := true, h := true, ra := true }
  | 0x40, 1 => some { rd := true, h := true, ra := true }
  | 0x41, 0 => some { rd := true, h := true, ra := true }
  | 0x42, 0 => some { rd := true, h := true, ra := true }
  | 0x50, 0 => some { rd := true, h := true }
  | 0x51, 0 => some { rd := true, h := true, ra := true }
  | 0x52, 0 => some { rd := true, h := true }
  | 0x58, 0 => some { rd := true, h := true, ra := true }
  | 0x59, 0 => some { rd := true, h := true, d := true }
  | 0x5A, 0 => some { rd := true, h := true }
  | 0x61, 0 => some { h := true, ra := true }
  | _, _ => none

/-- Whether a 64-bit word is a defined 3.0 instruction (R198 to R201, Tables 8-2 to 8-5). The guard plays no part. -/
def legalWord (v : Word) : Bool :=
  match wMajor v with
  | 0x01 => decide (wf v 0 32 = 0) && decide (wFnRR v ≤ 19)
  | 0x02 => decide (wf v 32 5 = 0) && decide (wFnRI v ≤ 19)
  | 0x03 => decide (wf v 32 15 = 0)
  | 0x04 => decide (wf v 32 15 = 0)
  | 0x05 => decide (wf v 0 32 = 0) && decide (wf v 50 2 = 0) && decide (wFnRR v ≤ 6)
  | 0x06 => decide (wf v 32 5 = 0) && decide (wf v 50 2 = 0) && decide (wFnRI v ≤ 6)
  | 0x07 => decide (wf v 0 32 = 0) && decide (wf v 50 2 = 0) && decide (wf v 45 2 = 0) && decide (wf v 40 2 = 0) &&
      decide (wFnRR v ≤ 3)
  | 0x08 => decide (wf v 32 10 = 0) && decide (wRA v = 0)
  | 0x09 => decide (wf v 32 10 = 0)
  | 0x0A => decide (wf v 0 40 = 0)
  | 0x0B => decide (wf v 0 40 = 0)
  | 0x48 => decide (wRB v = 0) && decide (wRC v = 0) && decide (wSize v ≤ 5) && !(v.getLsbD 28) &&
      (!(v.getLsbD 26) || decide (wSize v ≤ 2)) && (decide (wSize v ≠ 4) || pairOk (wRD v)) &&
      (decide (wSize v ≠ 5) || decide (wRD v < 16))
  | 0x49 => decide (wRD v = 0) && decide (wRC v = 0) && decide (wSize v ≤ 5) && decide (wf v 26 3 = 0) &&
      (decide (wSize v ≠ 4) || pairOk (wRB v)) && (decide (wSize v ≠ 5) || decide (wRB v < 16))
  | 0x4A => (decide (wSize v = 3) || decide (wSize v = 4)) && decide (wf v 26 2 ≤ 2) && !(v.getLsbD 28) &&
      (decide (wf v 26 2 = 2) || decide (wRC v = 0)) &&
      (decide (wSize v ≠ 4) || (pairOk (wRD v) && pairOk (wRB v) && (decide (wf v 26 2 ≠ 2) || pairOk (wRC v))))
  | 0x4B => decide (wf v 32 20 = 0) && decide (wCode v ≤ 2)
  | 0x60 => !(wUseH v) && decide (wHw v = 0)
  | 0x62 => decide (wRD v = 0) && decide (wRB v = 0) &&
      (wUseH v || (decide (wRA v = 0) && decide (wPDw v = 0) && decide (wHw v = 0) && decide (wTimeout v = 0)))
  | 0x70 => decide (wf v 32 20 = 0) && decide (wCode v ≤ 0xFFFF)
  | 0x71 => decide (wf v 32 20 = 0) && decide (wCode v ≤ 0xFFFF)
  | m =>
    match longUse m (wSub v) with
    | none => false
    | some u => u.ok v

/-- A compatibility run's writes to d8 to d15 raise ILLEGAL (R28): DINS and a 64-byte LD into them. -/
def writesHighD (v : Word) : Bool :=
  (decide (wMajor v = 0x0A) && decide (8 ≤ wDreg v)) ||
  (decide (wMajor v = 0x48) && decide (wSize v = 5) && decide (8 ≤ wRD v))

/-- ALU functions (Table 8-4); values above 19 are ILLEGAL and never reach here. -/
def aluOp (fn : Nat) (a b : Word) : Word :=
  match fn with
  | 0 => a + b
  | 1 => a - b
  | 2 => a &&& b
  | 3 => a ||| b
  | 4 => a ^^^ b
  | 5 => a <<< (b.toNat % 64)
  | 6 => a >>> (b.toNat % 64)
  | 7 => a.sshiftRight (b.toNat % 64)
  | 8 => a * b
  | 9 => BitVec.ofNat 64 (a.toNat * b.toNat / 2 ^ 64)
  | 10 => if b = 0 then BitVec.allOnes 64 else BitVec.ofNat 64 (a.toNat / b.toNat)
  | 11 => if b = 0 then a else BitVec.ofNat 64 (a.toNat % b.toNat)
  | 12 => if a.toNat ≤ b.toNat then a else b
  | 13 => if a.toNat ≤ b.toNat then b else a
  | 14 => if a.toInt ≤ b.toInt then a else b
  | 15 => if a.toInt ≤ b.toInt then b else a
  | 16 => BitVec.ofNat 64 ((List.range 64).filter (fun i => a.getLsbD i)).length
  | 17 => BitVec.ofNat 64 ((List.range 64).takeWhile (fun i => !(a.getLsbD (63 - i)))).length
  | 18 => BitVec.ofNat 64 ((List.range 64).takeWhile (fun i => !(a.getLsbD i))).length
  | _ => a &&& ~~~b

/-- Comparison relations (R203). -/
def cmpOp (fn : Nat) (a b : Word) : Bool :=
  match fn with
  | 0 => decide (a = b)
  | 1 => decide (a ≠ b)
  | 2 => decide (a.toInt < b.toInt)
  | 3 => decide (b.toInt ≤ a.toInt)
  | 4 => decide (a.toNat < b.toNat)
  | 5 => decide (b.toNat ≤ a.toNat)
  | _ => decide (a &&& b ≠ 0)

/-- Predicate functions of PLOG (R203). -/
def plogOp (fn : Nat) (a b : Bool) : Bool :=
  match fn with
  | 0 => a && b
  | 1 => a || b
  | 2 => a ^^ b
  | _ => a && !b

/-- 64-bit word `i` of a descriptor register (R205). -/
def descWord (d : Desc) (i : Nat) : Word := d.extractLsb' (64 * i) 64

/-- A descriptor register with word `i` replaced (R205). -/
def descSet (d : Desc) (i : Nat) (v : Word) : Desc :=
  let m : Desc := (BitVec.allOnes 64).setWidth 512 <<< (64 * i)
  (d &&& ~~~m) ||| (v.setWidth 512 <<< (64 * i))

/-- Bits `lo + w - 1` down to `lo` of a descriptor. -/
def dbits (d : Desc) (lo w : Nat) : Nat := bits d.toNat lo w

/-- Bytes of an access by SIZE (R206). -/
def sizeBytes (n : Nat) : Nat :=
  match n with
  | 0 => 1 | 1 => 2 | 2 => 4 | 3 => 8 | 4 => 16 | _ => 64

/-- Put a value into bits `lo` upward of a word that is zero there. -/
def atBit (v lo : Nat) : Nat := v * 2 ^ lo

/-- The 3.0 guard bits of a 2.x word: its predicate in [55:53], not inverted; `none` when [52] is set (R223). -/
def guard2x (v : Word) : Option Nat := if v.getLsbD 52 then none else some (wf v 53 3)

/-- The 3.0 word of a 2.x word, or the all-zero word where the 2.x word is undefined (R223, Table 8-12). -/
def translate2x (v : Word) : Word :=
  match guard2x v with
  | none => 0
  | some g =>
    let top := atBit (wMajor v) 56 + atBit g 52
    let low := wf v 0 52
    let m := wMajor v
    let out : Nat :=
      if m = 0x42 || m = 0x50 || m = 0x51 || m = 0x52 || m = 0x58 || m = 0x59 || m = 0x5A then 0
      else if m = 0x4E || m = 0x4F then
        if wf v 16 26 ≠ 0 || wf v 50 2 ≠ 0 then 0
        else
          let off := ((v.extractLsb' 0 16).signExtend 26).toNat
          let ra := atBit (wRA v) 42
          let d := wf v 47 3
          if m = 0x4E then atBit 0x48 56 + atBit g 52 + atBit d 47 + ra + atBit 5 29 + off
          else atBit 0x49 56 + atBit g 52 + ra + atBit d 37 + atBit 5 29 + off
      else if m = 0x48 || m = 0x49 || m = 0x4A then
        if wf v 16 10 ≠ 0 || v.getLsbD 31 then 0
        else top + (low - wf v 0 26) + ((v.extractLsb' 0 16).signExtend 26).toNat
      else if m = 0x60 then
        top + (low - wf v 0 30) + min (wTimeout v * 10) (2 ^ 30 - 1)
      else if (longUse m (wSub v)).isSome then
        if v.getLsbD 37 then 0
        else top + (low - atBit (wf v 37 4) 37) + atBit (wf v 38 3) 37
      else top + low
    let w := BitVec.ofNat 64 out
    if legalWord w then w else 0

end Sys2Proof.Machine
end

