-- ==== Sys2Proof/Machine/StmBase.lean ====
section
/-! DEFINITION. Job members and their slots (R253 to R259), and what becomes of a Statement left open (R221, R266). -/

namespace Sys2Proof.Machine

/-- Slot pages a shard occupies. -/
def Shard.count (h : Shard) : Nat := (h.bytes + 65535) / 65536

/-- The Statement a job has open. -/
def StmJob.openStm (x : StmJob) : Option Statement :=
  match x.openSlot with
  | some 0 => x.slotA
  | some _ => x.slotB
  | none => none

/-- A job's slot `k` replaced. -/
def StmJob.setSlot (x : StmJob) (k : Nat) (v : Option Statement) : StmJob :=
  if k = 0 then { x with slotA := v } else { x with slotB := v }

/-- A job's slot `k`. -/
def StmJob.slot (x : StmJob) (k : Nat) : Option Statement := if k = 0 then x.slotA else x.slotB

/-- A job's pages of slot `k`. -/
def StmJob.slotPages (x : StmJob) (k : Nat) : List (Nat × Nat) := if k = 0 then x.pagesA else x.pagesB

/-- Change job `j`, if it exists. -/
def State.updJob (s : State) (j : Nat) (f : StmJob → StmJob) : State := s.onStm (fun x => { x with jobs := x.jobs.upd j f })

/-- Pages of a Statement, and those copied (R259). -/
def Statement.counts (v : Statement) : Nat × Nat :=
  ((v.shards.map (fun h => h.count)).sum, (v.shards.map (fun h => h.copied.length)).sum)

/-- `STM_JOB_PAGES` and `STM_JOB_STATE` show what the job's slots hold (R259). -/
def State.publishJob (s : State) (j : Nat) : State :=
  match s.stm.jobs.look j with
  | none => s
  | some x =>
    let c := match x.openStm with
      | none => (0, 0)
      | some v => v.counts
    let s := s.wr .stmJobPages j (BitVec.ofNat 64 ((c.1 - c.2) + c.2 * 2 ^ 32))
    let slot := match x.openSlot, x.record with
      | some k, _ => k
      | none, some r => r.slot
      | none, none => 0
    let missing := match x.record with
      | some r => r.cfMissing
      | none => false
    s.wr .stmJobState j (BitVec.ofNat 64 (b2n x.openSlot.isSome + slot * 2 + b2n missing * 4 + b2n x.flushing.isSome * 8))

/-- An open Statement without a member commit record is discarded (Table 10-7): the slot is left half written. -/
def State.dropStatement (s : State) (j : Nat) : State :=
  match s.stm.jobs.look j with
  | none => s
  | some x =>
    let done := match x.openStm with
      | some v => v.mcr.isSome
      | none => true
    if done then s
    else (s.updJob j (fun x => { x.setSlot (x.openSlot.getD 0) none with openSlot := none, adds := [], commit := none, opener := none })).publishJob j

/-- The Statements a run of clerk `c` opened are discarded as it ends (R221). -/
def State.dropOpened (s : State) (c startedAt : Nat) : State :=
  (s.stm.jobs.keysIf (fun _ x => decide (x.opener = some (c, startedAt)))).foldl (fun s j => s.dropStatement j) s

end Sys2Proof.Machine
end

