-- ==== Sys2Proof/Machine/Clerk.lean ====
section
/-! DEFINITION. Clerks: registers, Receipts, traps, the end of a run, and the issue of an instruction (R35 to R56, R198, R209). -/

namespace Sys2Proof.Machine

/-- A clerk that has never had a run: FREE, with every register zero or empty. -/
def Clerk.idle : Clerk :=
  { st := .free, kept := .free, pc := 0, sreg := .empty, hreg := .empty, preg := .empty, dreg := .empty, slots := .empty,
    run := none, handler := false, waitFor := none, waitUntil := none, stall := none, lastCtx := none }

/-- A Receipt slot never used since its clerk was swept. -/
def Slot.idle : Slot :=
  { serial := 0, occupied := false, complete := false, word0 := 0, word1 := 0, openH := none, via := [], op := .open,
    result := none, cancel := none }

/-- Clerk `c`. -/
def State.clerk (s : State) (c : Nat) : Clerk := s.tlr.clerks.lookD c Clerk.idle

/-- The state with clerk `c` replaced. -/
def State.setClerk (s : State) (c : Nat) (cl : Clerk) : State :=
  { s with tlr := { s.tlr with clerks := s.tlr.clerks.put c cl } }

/-- Scalar register `i`: s0 reads zero (R37). -/
def Clerk.s (cl : Clerk) (i : Nat) : Word := if i = 0 then 0 else cl.sreg.lookD i 0

/-- Write scalar register `i`: a write to s0 is discarded (R37). -/
def Clerk.setS (cl : Clerk) (i : Nat) (v : Word) : Clerk := if i = 0 then cl else { cl with sreg := cl.sreg.put i v }

/-- Predicate `i`: p0 reads true (R37). -/
def Clerk.p (cl : Clerk) (i : Nat) : Bool := if i = 0 then true else cl.preg.lookD i false

/-- Write predicate `i`: a write to p0 is discarded (R37, R203). -/
def Clerk.setP (cl : Clerk) (i : Nat) (b : Bool) : Clerk := if i = 0 then cl else { cl with preg := cl.preg.put i b }

/-- Handle register `i` (R37); 0 is empty. -/
def Clerk.h (cl : Clerk) (i : Nat) : Handle := (cl.hreg.lookD i (0, 0)).1

/-- Descriptor register `i`; in compatibility mode d8 to d15 read as zero (R28). -/
def Clerk.d (cl : Clerk) (compat : Bool) (i : Nat) : Desc := if compat && decide (8 ≤ i) then 0 else cl.dreg.lookD i 0

/-- Receipt slot `k`. -/
def Clerk.slot (cl : Clerk) (k : Nat) : Slot := cl.slots.lookD k Slot.idle

/-- The clerk with Receipt slot `k` replaced. -/
def Clerk.setSlot (cl : Clerk) (k : Nat) (sl : Slot) : Clerk := { cl with slots := cl.slots.put k sl }

/-- The slots that hold a Receipt. -/
def Clerk.busySlots (cl : Clerk) : List Nat := (List.range 64).filter (fun k => (cl.slot k).occupied)

/-- The free slots. -/
def Clerk.freeSlots (cl : Clerk) : List Nat := (List.range 64).filter (fun k => !(cl.slot k).occupied)

/-! ### Handles (Table 2-6) -/

/-- CONTEXT of a handle. -/
def hCtx (h : Handle) : Nat := bits h.toNat 122 6
/-- TYPE of a handle; 0 is empty. -/
def hType (h : Handle) : Nat := bits h.toNat 118 4
/-- RIGHTS of a handle. -/
def hRights (h : Handle) : Nat := bits h.toNat 110 8
/-- OBJECT of a handle. -/
def hObj (h : Handle) : Word := h.extractLsb' 0 64
/-- A handle from its fields. -/
def mkHandle (ctx ty rights : Nat) (obj : Word) : Handle :=
  BitVec.ofNat 128 (ctx % 64 * 2 ^ 122 + ty % 16 * 2 ^ 118 + rights % 256 * 2 ^ 110 + obj.toNat)

/-- Rights of Table 2-6, as masks. -/
def rtRead : Nat := 0x01
/-- Right 1: write. -/
def rtWrite : Nat := 0x02
/-- Right 2: move. -/
def rtMove : Nat := 0x04
/-- Right 3: compute. -/
def rtCompute : Nat := 0x08
/-- Right 4: charge. -/
def rtCharge : Nat := 0x10
/-- Right 5: publish. -/
def rtPublish : Nat := 0x20
/-- Right 6: delete. -/
def rtDelete : Nat := 0x40
/-- Right 7: grant. -/
def rtGrant : Nat := 0x80

/-- A rights mask holds every right of another. -/
def hasRights (have_ need : Nat) : Bool := decide (have_ &&& need = need)

/-- Index of a signal identifier, bits [57:46] (R212). -/
def sigIndex (o : Word) : Nat := bits o.toNat 46 12
/-- GEN of a signal identifier, bits [45:0] (R212). -/
def sigGen (o : Word) : Nat := bits o.toNat 0 46
/-- CONTEXT of a signal identifier, bits [63:58] (R212). -/
def sigCtx (o : Word) : Nat := bits o.toNat 58 6
/-- A signal identifier. -/
def sigIdent (ctx ix gen : Nat) : Word := BitVec.ofNat 64 (ctx % 64 * 2 ^ 58 + ix % 4096 * 2 ^ 46 + gen % 2 ^ 46)

/-- HOME of a session identifier (Table 3-1). -/
def ssnHome (o : Word) : Nat := bits o.toNat 59 5
/-- CONTEXT of a session identifier. -/
def ssnCtx (o : Word) : Nat := bits o.toNat 53 6
/-- INDEX of a session identifier. -/
def ssnIndex (o : Word) : Nat := bits o.toNat 29 24
/-- GEN of a session identifier. -/
def ssnGen (o : Word) : Nat := bits o.toNat 0 29
/-- A session identifier (Table 3-1). -/
def ssnIdent (home ctx ix gen : Nat) : Word :=
  BitVec.ofNat 64 (home % 32 * 2 ^ 59 + ctx % 64 * 2 ^ 53 + ix % 2 ^ 24 * 2 ^ 29 + gen % 2 ^ 29)

/-! ### Receipts (R46 to R49) -/

/-- The Receipt tag of slot `k` of clerk `c` (Table 2-9). -/
def rcptTag (c k serial : Nat) : Word :=
  BitVec.ofNat 64 (c / 16 % 256 * 2 ^ 40 + c % 16 * 2 ^ 36 + k % 64 * 2 ^ 30 + serial % 2 ^ 30)

/-- One handle fewer to a signal; the last frees its index and advances its GEN (R212). -/
def Signal.release (g : Signal) : Signal :=
  if g.refs ≤ 1 then { g with live := false, gen := (g.gen + 1) % 2 ^ 46, refs := 0, count := 0, waiters := [] }
  else { g with refs := g.refs - 1 }

/-- What emptying a handle register does to its object: signals lose a reference (R212), and a session's blob mapping ends with its
last handle (R63). -/
def State.releaseHandle (s : State) (h : Handle) : State :=
  if hType h = 11 then
    s.updSignal (sigIndex (hObj h)) (fun g => if g.gen = sigGen (hObj h) then g.release else g)
  else if hType h = 1 then
    s.updSession (ssnIndex (hObj h)) (fun x =>
      if x.gen = ssnGen (hObj h) then
        (if x.blobRefs ≤ 1 then { x with blobRefs := 0, blobMap := none } else { x with blobRefs := x.blobRefs - 1 })
      else x)
  else s

/-- One more handle held to an object. -/
def State.holdHandle (s : State) (h : Handle) : State :=
  if hType h = 11 then
    s.updSignal (sigIndex (hObj h)) (fun g => if g.gen = sigGen (hObj h) then { g with refs := g.refs + 1 } else g)
  else if hType h = 1 then
    s.updSession (ssnIndex (hObj h)) (fun x => if x.gen = ssnGen (hObj h) then { x with blobRefs := x.blobRefs + 1 } else x)
  else s

/-- Write a handle into register `i`, or empty it with the zero handle; the handle held there before is released, and the
new one gets an instance number of its own, so that DROP reaches only operations issued through it (R40). -/
def State.setHandle (s : State) (c i : Nat) (h : Handle) : State :=
  let old := (s.clerk c).h i
  let s := (s.holdHandle h).releaseHandle old
  let n := s.tlr.handleCtr + 1
  let cl := s.clerk c
  let s := s.setClerk c { cl with hreg := if h = 0 then cl.hreg.del i else cl.hreg.put i (h, n) }
  { s with tlr := { s.tlr with handleCtr := n } }

/-- Free slot `k` and count its Receipt as consumed (R47). -/
def State.consumeSlot (s : State) (c k : Nat) : State :=
  let cl := s.clerk c
  let sl := cl.slot k
  let sl := { sl with occupied := false, complete := false, openH := none, via := [], result := none, cancel := none }
  (s.setClerk c (cl.setSlot k sl)).count .tlrClkRcptCon c 1

/-- A created signal whose OPEN is consumed at run end without a handle is freed (R211). -/
def State.freeUnheldSignal (s : State) (h : Handle) : State :=
  if hType h = 11 then
    s.updSignal (sigIndex (hObj h)) (fun g => if g.gen = sigGen (hObj h) && g.refs = 0 then g.release else g)
  else if hType h = 1 then
    s.updSession (ssnIndex (hObj h))
      (fun x => if x.gen = ssnGen (hObj h) && x.blobRefs = 0 then { x with blobMap := none } else x)
  else s

/-- Consume slot `k` on behalf of a DRAINING clerk (R49). -/
def State.orphanSlot (s : State) (c k : Nat) : State :=
  let oh := ((s.clerk c).slot k).openH
  let s := (s.consumeSlot c k).count .tlrClkOrphan c 1
  let cl := s.clerk c
  let s := s.setClerk c { cl with run := cl.run.map (fun r => { r with orphans := r.orphans + 1 }) }
  match oh with
  | some (_, h) => s.freeUnheldSignal h
  | none => s

/-- The first completion reaches slot `k` and is final (R48). A DRAINING clerk's Receipt is consumed for it (R49); a clerk that
waits on the slot is woken (R35, R46). -/
def State.completeSlot (s : State) (c k : Nat) (w0 w1 : Word) : State :=
  let cl := s.clerk c
  let sl := cl.slot k
  let cl' := cl.setSlot k { sl with complete := true, word0 := w0, word1 := w1, result := none, cancel := none }
  match cl.st with
  | .draining => (s.setClerk c cl').orphanSlot c k
  | .waiting =>
    if cl.waitFor = some (.receipt k) then s.setClerk c { cl' with st := .ready, waitFor := none, waitUntil := none }
    else s.setClerk c cl'
  | _ => s.setClerk c cl'

/-- The operation that holds Receipt (`c`, `k`, `serial`) has its own result; it reaches the slot with `OPERATION_COMPLETE`. -/
def State.postResult (s : State) (c k serial : Nat) (w0 w1 : Word) : State :=
  let cl := s.clerk c
  let sl := cl.slot k
  if sl.occupied && decide (sl.serial = serial) then s.setClerk c (cl.setSlot k { sl with result := some (w0, w1) }) else s

/-- A cancellation is sent after the operation of slot `k` with an ABORTED cause (R40, R49, R52). -/
def State.postCancel (s : State) (c k cause : Nat) : State :=
  let cl := s.clerk c
  let sl := cl.slot k
  if sl.occupied && !sl.complete && sl.cancel.isNone then s.setClerk c (cl.setSlot k { sl with cancel := some cause }) else s

/-! ### Traps and the end of a run (R49 to R51, R55, R56) -/

/-- Write the trap record of R55. -/
def State.trapRecord (s : State) (c : Nat) (cls : TrapClass) (code : Nat) (pc : Word) (addr : Word) : State :=
  (s.wr .tlrClkTrap c (BitVec.ofNat 64 (cls.code + code % 2 ^ 16 * 2 ^ 8 + pc.toNat % 2 ^ 40 * 2 ^ 24))).wr .tlrClkTrapAddr c
    (if cls.hasAddr then addr else 0)

/-- A trace record, when tracing is enabled for its source (R411): dropped and counted when the hub's 256 KiB ring is full. -/
def State.trace (s : State) (hub source ctx : Nat) (ctxValid : Bool) (inst value : Nat) : State :=
  let cfg := (s.rd .dbgTraceCfg).toNat
  if bit cfg 0 && bit cfg source then
    let ring := s.traceRings.lookD hub []
    if ring.length < 16384 then
      { s with traceRings := s.traceRings.put hub (ring ++ [⟨s.nodeNs, source, ctx, ctxValid, inst, value⟩]) }
    else (s.countSat ⟨.dbgTraceDropped, 0, 64⟩ 0 1).raise Evt.dbg_traceDrop
  else s

/-- Serve the waiters of signal `ix` strictly in arrival order (R213): while the first one's amount is there, it is taken, the
waiter's predicate is set and its clerk goes on. -/
def serveSignal (ix : Nat) : Nat → State → State
  | 0, s => s
  | fuel + 1, s =>
    match s.tlr.signals.look ix with
    | none => s
    | some g =>
      match g.waiters with
      | [] => s
      | (c, amount, pd) :: rest =>
        if g.count < amount then s
        else
          let cl := (s.clerk c).setP pd true
          let s := s.setClerk c { cl with st := .ready, waitFor := none, waitUntil := none, pc := cl.pc + 8 }
          serveSignal ix fuel (s.updSignal ix (fun g => { g with count := g.count - amount, waiters := rest }))

/-- Take clerk `c` out of every signal's queue; those behind it are served (R213). -/
def State.leaveSignals (s : State) (c : Nat) : State :=
  match (s.clerk c).waitFor with
  | some (.signal ix) =>
    let s := s.updSignal ix (fun g => { g with waiters := g.waiters.filter (fun w => decide (w.1 ≠ c)) })
    serveSignal ix 4096 s
  | _ => s

/-- The run of clerk `c` ends: DRAINING, its handles emptied, its complete Receipts consumed and the others cancelled with ABORTED
cause 3 (R49, R51). -/
def State.endRun (s : State) (c : Nat) (rec : RunRec) : State :=
  let cl := s.clerk c
  match cl.run with
  | none => s
  | some r =>
    let s := (List.range 8).foldl (fun s i => if (s.clerk c).h i = 0 then s else s.setHandle c i 0) s
    let s := (s.leaveSignals c).dropOpened c r.startedAt
    let cl := s.clerk c
    let ended := { r with ending := some rec, deadline := none, grace := none }
    let s := s.setClerk c { cl with st := .draining, waitFor := none, waitUntil := none, stall := none, run := some ended }
    (s.clerk c).busySlots.foldl (fun s k =>
      if ((s.clerk c).slot k).complete then s.orphanSlot c k else s.postCancel c k 3) s

/-- Raise a trap (R55, R56): the record is written; a class the trap entry takes starts it when there is one and HANDLER is
clear; any other trap ends the run with CAUSE 1, or CAUSE 2 for a WATCHDOG. -/
def State.trap (s : State) (c : Nat) (cls : TrapClass) (code : Nat) (pc addr : Word) : State :=
  let s := s.trapRecord c cls code pc addr
  let cl := s.clerk c
  match cl.run with
  | none => s
  | some r =>
    let s := s.trace (hubOfClerk c) 1 r.ctx true c (cls.code + code % 2 ^ 16 * 2 ^ 8)
    match s.tlr.images.look r.slot with
    | none => s
    | some img =>
      if cls.entryTakes && img.trapEntry && !cl.handler then
        let entry : Word := BitVec.ofNat 64 (img.entries.getD 15 0)
        let cl := { cl with pc := entry, handler := true, st := .ready, waitFor := none, waitUntil := none, stall := none }
        let cl := ((((cl.setS 1 (BitVec.ofNat 64 cls.code)).setS 2 (BitVec.ofNat 64 code)).setS 3 pc).setS 4
          (if cls.hasAddr then addr else 0))
        let grace := if cls = .watchdog then some (s.now + 1000000) else r.grace
        let dl := if cls = .watchdog then none else r.deadline
        s.setClerk c { cl with run := some { r with grace := grace, deadline := dl } }
      else
        s.endRun c (RunRec.mk r.tag 0 (if cls = .watchdog then 2 else 1) cls.code (code % 2 ^ 16) 0 pc)

/-! ### Issue -/

/-- What an instruction sees as it issues: the clerk, its run and image, and the word it fetched. -/
structure Ix where
  c : Nat
  cl : Clerk
  run : Run
  img : Image
  w : Word
  deriving DecidableEq, Repr

/-- The word at a byte offset of an image's code: all zero at or past CODE_SIZE (R198), and at an offset that is no multiple of 8. -/
def Image.wordAt (img : Image) (pc : Word) : Word :=
  if pc.toNat % 8 = 0 then (img.code[pc.toNat / 8]?).getD 0 else 0

/-- FLUSH or DARK: Tellers do not issue (R364, R367), and writes that start work are refused (R400). -/
def State.flushing (s : State) : Bool :=
  decide (s.fld Fld.pwrStatus_state = 2) || decide (s.fld Fld.pwrStatus_state = 3)

/-- The clerk's next instruction, when the clerk can issue: READY, not stalled, the module running, in no flush and not in standby (R4), and its
hub in service. -/
def State.issuer (s : State) (c : Nat) : Option Ix :=
  let cl := s.clerk c
  if cl.st = .ready && cl.stall.isNone && s.hubUp (hubOfClerk c) && !s.frz.frozen && !s.flushing && !s.arch.standby then
    match cl.run with
    | none => none
    | some r =>
      match s.tlr.images.look r.slot with
      | none => none
      | some img => some ⟨c, cl, r, img, img.wordAt cl.pc⟩
  else none

/-- The word is defined for the run's mode (R198, R28). -/
def Ix.legal (ix : Ix) : Bool := legalWord ix.w && !(ix.img.compat && writesHighD ix.w)

/-- The guard of R37. -/
def Ix.guard (ix : Ix) : Bool := (ix.cl.p (wGpred ix.w)) ^^ (wGinv ix.w)

/-- The clerk goes on with the next word. -/
def State.advance (s : State) (c : Nat) : State :=
  let cl := s.clerk c
  s.setClerk c { cl with pc := cl.pc + 8 }

/-- Issue of an instruction: when clerk `c` can issue and its next word is a defined word that satisfies `p`, a false guard skips it
and a true one runs `k`; otherwise the event is not this instruction's, and nothing happens. -/
def State.onWord (s : State) (c : Nat) (p : Ix → Bool) (k : Ix → State) : State :=
  match s.issuer c with
  | none => s
  | some ix => if ix.legal && p ix then (if ix.guard then k ix else s.advance c) else s

/-- The clerk after a scalar instruction: the clerk given, with the next word as its pc. -/
def State.retire (s : State) (c : Nat) (cl : Clerk) : State := s.setClerk c { cl with pc := cl.pc + 8 }

end Sys2Proof.Machine
end

