-- ==== Sys2Proof/Machine/Access.lean ====
section
/-! DEFINITION. Who may make a register access (R332, R333), where a register lies (R398, R402), and what becomes of a write to a
write-only register (R396, R400). -/

namespace Sys2Proof.Machine

/-- An answer of the machine goes on with a next state. -/
abbrev Ans := Host.Outcome State Fault Refusal

/-- What happens in a clocked domain that a freeze gates (R375): nothing while the module is frozen. -/
def State.whenLive (s : State) (t : State) : Ans := .next (if s.frz.frozen then s else t)

/-- The offset of register `r` instance `i` in the register window (R402). -/
def Reg.offset (r : Reg) (i : Nat) : Nat :=
  let q := r.spec
  q.block * 0x400000 + q.base + i / q.count2 * q.stride1 + i % q.count2 * q.stride2

/-- The hub that owns a per-instance register (R398): by stack, port, channel, clerk or agent; `none` for a register of the register
hub. -/
def Reg.hubOf (r : Reg) (i : Nat) : Option Nat :=
  match r with
  | .ssnPgTotal | .ssnPgFree | .ssnPgAlloc | .ssnPgTransit => some (hubOfStack i)
  | .kvaEngStatus | .kvaEngBytes | .kvaEngFlop | .kvaEngDesc | .kvaEngErr | .kvaEngErrAddr => some (hubOfStack i)
  | .flsChStatus | .flsChErr => some (hubOfChannel i)
  | .tlrClkState | .tlrClkRcptIss | .tlrClkRcptCon | .tlrClkOrphan | .tlrClkTrap | .tlrClkTrapAddr => some (hubOfClerk i)
  | .nmcAgentCfg | .nmcAgentBw | .nmcAgentStatus | .nmcAgentBytes => some (if i < 2 then 1 else hubOfPort (i - 2))
  | .lnkPortCfg | .lnkPortStatus | .lnkPortKey | .lnkPortCounter | .lnkPortErr | .lnkPortRetry | .lnkGateCfg | .lnkGateBase
  | .lnkGateStatus => some (hubOfPort i)
  | .lnkGateEnt => some (hubOfPort (i / 256))
  | .lnkQShape | .lnkQIss | .lnkQRet | .lnkQRxuse | .lnkQDepth | .lnkQCredit => some (hubOfPort (i / 16))
  | _ => none

/-- A register that belongs to an instance is reachable while its hub is in service (R400). -/
def State.regReach (s : State) (r : Reg) (i : Nat) : Bool :=
  match r.hubOf i with
  | none => true
  | some h => s.hubUp h

/-- STATE of a context (Table 14-1). -/
def State.ctxState (s : State) (n : Nat) : Nat := s.fld Fld.secCtxState_state n

/-- A context is RESIDENT. -/
def State.resident (s : State) (n : Nat) : Bool := decide (s.ctxState n = 1)

/-- The requester is the operator: a Sinil connection bound under the operator key (R332). -/
def State.isOperator (s : State) (rq : Requester) : Bool :=
  match rq with
  | .sinil p c => match s.sec.conns.look (p, c) with
    | some k => decide (k.bound = some .operator)
    | none => false
  | _ => false

/-- The requester is authenticated for context `n` (R332): a Sinil connection bound to it, a host head in its HOSTS (through its own
virtual function with the TDI in RUN where CONF is set), or firmware. -/
def State.actsFor (s : State) (rq : Requester) (n : Nat) : Bool :=
  match rq with
  | .firmware => true
  | .sinil p c => match s.sec.conns.look (p, c) with
    | some k => decide (k.bound = some (.ctx n))
    | none => false
  | .host head vf =>
    decide (n < 64) && (s.ctxState n != 0) && bit (s.fld Fld.secCtxState_hosts n) head &&
    (if s.fld Fld.secCtxState_conf n = 1 then decide (vf = some n) && decide (s.fld Fld.secCtxState_tdi n = 2)
     else decide (vf = none) || decide (vf = some n))

/-- A requester's path to the register window is there: a host's runs through the host port (R7). -/
def State.rqUp (s : State) (rq : Requester) : Bool :=
  match rq with
  | .host _ _ => s.hostUp
  | _ => true

/-- The requester is the operator or firmware. -/
def State.isModule (s : State) (rq : Requester) : Bool := decide (rq = .firmware) || s.isOperator rq

/-- Discard and count an access (R396): the count saturates, and the offset and cause of the last one stand beside it. -/
def State.countAccess (s : State) (off cause : Nat) : State :=
  let n := min (bits (s.rd .glbAccessErr).toNat 0 32 + 1) (2 ^ 32 - 1)
  (s.wr .glbAccessErr 0 (BitVec.ofNat 64 (n + off % 2 ^ 30 * 2 ^ 32 + cause % 4 * 2 ^ 62))).raise Evt.glb_accessErr

/-- A counted access of a requester is answered DENIED (R396). -/
def State.discardAccess (s : State) (rq : Requester) (off cause : Nat) : State :=
  (s.countAccess off cause).send (.regAnswer rq true 0)

/-- A write of `v` to write-only register `r` instance `i`: unreachable while frozen (R400); refused as cause 2 where `allowed` is
false (R333), as cause 1 where the address field's low bits `low` are not zero (R396), as cause 3 in FLUSH and DARK (R400); otherwise
it starts its work. -/
def State.woWrite (s : State) (rq : Requester) (r : Reg) (i : Nat) (allowed : Bool) (low : Nat) (k : State → State) : State :=
  if s.frz.frozen || !(s.rqUp rq) then s
  else if !(s.regReach r i) then s
  else if !allowed then s.discardAccess rq (r.offset i) 2
  else if low ≠ 0 then s.discardAccess rq (r.offset i) 1
  else if s.flushing then s.discardAccess rq (r.offset i) 3
  else k s

/-- The low six bits of an address register's word (R396). -/
def low6 (v : Word) : Nat := v.toNat % 64

/-- A write of the writable bits of an RW register: reserved bits ignore it (R397). -/
def State.rwWrite (s : State) (r : Reg) (i : Nat) (v : Word) : State :=
  let m : Word := BitVec.ofNat 64 r.spec.mask
  s.wr r i ((s.rd r i &&& ~~~m) ||| (v &&& m))

/-- A write to an RW register of a requester: unreachable while frozen, ignored while the register's hub is out of service (R400),
cause 2 where R333 does not allow it (R396). -/
def State.cfgWrite (s : State) (rq : Requester) (r : Reg) (i : Nat) (allowed : Bool) (k : State → State) : State :=
  if s.frz.frozen || !(s.rqUp rq) then s
  else if !(s.regReach r i) then s
  else if !allowed then s.discardAccess rq (r.offset i) 2
  else k s

/-- A value of a retry ladder (R349): the next value at or above `t` µs; the last one past its end. -/
def ladderUp (ladder : List Nat) (t : Nat) : Nat :=
  match ladder.find? (fun v => decide (t ≤ v)) with
  | some v => v
  | none => ladder.getLastD 0

/-- The ladder of R32, R60, R193 and R323, in µs. -/
def ladderFast : List Nat := [10, 100, 1000, 10000]

/-- The retry-after context `n` receives on ladder `k`: a value is held for 1 ms (R349). -/
def State.retryAfter (s : State) (n k : Nat) (ladder : List Nat) (t : Nat) : State × Nat :=
  match s.sec.ladders.look (n, k) with
  | some (v, till) =>
    if s.now < till then (s, v)
    else (s.onSec (fun x => { x with ladders := x.ladders.put (n, k) (ladderUp ladder t, s.now + 1000000) }), ladderUp ladder t)
  | none => (s.onSec (fun x => { x with ladders := x.ladders.put (n, k) (ladderUp ladder t, s.now + 1000000) }), ladderUp ladder t)

/-- A shared unit is swept when it passes to another context (R334): counted in `SEC_SWEEPS`, traced, and remembered. -/
def State.unitServe (s : State) (ty inst ctx : Nat) : State :=
  match s.sec.unitLast.look (ty, inst) with
  | none => s.onSec (fun x => { x with unitLast := x.unitLast.put (ty, inst) ctx })
  | some c =>
    if c = ctx then s
    else ((s.count .secSweeps 0 1).trace 0 6 ctx true 0 ty).onSec (fun x => { x with unitLast := x.unitLast.put (ty, inst) ctx })

end Sys2Proof.Machine
end

