-- ==== Sys2Proof/Machine/Store.lean ====
section
/-! DEFINITION. Memory under its codes (R20 to R22): which codeword a byte lies in, what a read of a failed codeword answers, and
partial and whole writes; the placement hash of R80. -/

namespace Sys2Proof.Machine

/-- Whether a key lies in SRAM: hub SRAM and the clerk stacks; every other memory is stack DRAM (R424). -/
def inSram (key : Nat) : Bool := decide (key < 2 ^ 56) || (decide (2 ^ 57 ≤ key) && decide (key < 2 ^ 58))

/-- Bytes of the codeword at a key: 32 in SRAM, 64 in stack DRAM (Table 1-9). -/
def cwBytes (key : Nat) : Nat := if inSram key then 32 else 64

/-- The first key of the codeword that holds a key. -/
def cwOf (key : Nat) : Nat := key / cwBytes key * cwBytes key

/-- The codewords an access of `n` bytes at a key touches. -/
def cwsOf (key n : Nat) : List Nat :=
  let b := cwBytes key
  let lo := key / b
  let hi := (key + n - 1) / b
  if n = 0 then [] else (List.range (hi + 1 - lo)).map (fun i => (lo + i) * b)

/-- Mark a DRAM line poisoned (R21). -/
def State.poisonLine (s : State) (cw : Nat) : State :=
  { s with poison := if s.poison.contains cw then s.poison else cw :: s.poison }

/-- Free bytes stand for a codeword's contents past the detection limit of its code (R22, log 3). -/
def State.scramble (s : State) (cw : Nat) : State :=
  (s.putBytes cw ((List.range (cwBytes cw)).map (Config.freeByte s.freeCtr))).bump

/-- Read codeword `cw`: its status (R22). Past the detection limit the outcome is not defined: a free choice between UNCORRECTABLE,
POISON and wrong data. -/
def State.readCw (s : State) (cw : Nat) : State × Status :=
  if s.poison.contains cw then (s, .poison)
  else
    let n := s.badSyms.lookD cw 0
    if n ≤ 1 then (s, .ok)
    else if inSram cw then
      if n = 2 then (s, .uncorrectable)
      else
        match Config.freeNat s.freeCtr % 2 with
        | 0 => (s.bump, .uncorrectable)
        | _ => (s.bump.scramble cw, .ok)
    else if n ≤ 3 then (s.poisonLine cw, .uncorrectable)
    else
      match Config.freeNat s.freeCtr % 3 with
      | 0 => (s.bump.poisonLine cw, .uncorrectable)
      | 1 => (s.bump, .poison)
      | _ => (s.bump.scramble cw, .ok)

/-- Read codewords in order; the first failure is the status. -/
def State.readCws (s : State) : List Nat → State × Status
  | [] => (s, .ok)
  | c :: cs =>
    let r := s.readCw c
    if r.2 = .ok then r.1.readCws cs else r

/-- Read `n` bytes at a key: the bytes, or the status of the first failed codeword. -/
def State.readMem (s : State) (key n : Nat) : State × Status × List Byte :=
  let r := s.readCws (cwsOf key n)
  (r.1, r.2, if r.2 = .ok then r.1.bytesAt key n else [])

/-- A whole write clears a codeword's failure without reading it (R22). -/
def State.mendCw (s : State) (cw : Nat) : State :=
  { s with badSyms := s.badSyms.del cw, poison := s.poison.filter (fun c => decide (c ≠ cw)) }

/-- Codewords of a range that the range covers only in part. -/
def partCws (key n : Nat) : List Nat :=
  (cwsOf key n).filter (fun c => !(decide (key ≤ c) && decide (c + cwBytes c ≤ key + n)))

/-- Write bytes at a key: a codeword covered in part is read first, and a failure refuses the whole write (R22). -/
def State.writeMem (s : State) (key : Nat) (bs : List Byte) : State × Status :=
  let r := s.readCws (partCws key bs.length)
  if r.2 = .ok then (((cwsOf key bs.length).foldl State.mendCw r.1).putBytes key bs, .ok) else (r.1, r.2)

/-- Keys `lo` to `hi - 1` are zeroed: whole writes, so that no failure stays (R22). -/
def State.zeroRange (s : State) (lo hi : Nat) : State :=
  { s with mem := memZero s.mem lo hi
           badSyms := s.badSyms.keep (fun k _ => decide (k < lo) || decide (hi ≤ k))
           poison := s.poison.filter (fun k => decide (k < lo) || decide (hi ≤ k)) }

/-- The place in the stack set that R80 computes for page `b` of layer `layer` of index `i`, in a set of `size` stacks. -/
def stackHash (i layer b size : Nat) : Nat :=
  let m := 2 ^ 64
  let h := ((i * 0x9E3779B97F4A7C15) % m) ^^^ ((layer * 0xC2B2AE3D27D4EB4F) % m) ^^^ ((b * 0x165667B19E3779F9) % m)
  let h := h ^^^ (h / 2 ^ 29)
  (h / 2 ^ 32) % max 1 size

/-- The stack set S of a context (R80, R350): a quiet context's own stacks in service, otherwise those no quiet context holds. -/
def State.stackSet (s : State) (n : Nat) : List Nat :=
  let quiet : List Nat := (List.range 64).filter (fun k => s.ctxState k != 0 && s.ctxState k != 3 && s.fld Fld.secCtxState_quiet k = 1)
  let mask := fun k => bits (s.rd .secCtxQuiet k).toNat 0 24
  if quiet.contains n then s.stacksUp.filter (fun m => bit (mask n) m)
  else s.stacksUp.filter (fun m => quiet.all (fun k => !(bit (mask k) m)))

/-- The first choice of R80. -/
def State.stackChoice (s : State) (ctx i layer b : Nat) : Nat :=
  let l := s.stackSet ctx
  (l[stackHash i layer b l.length]?).getD 0

end Sys2Proof.Machine
end

