-- ==== Sys2Proof/Machine/MemAcc.lean ====
section
/-! DEFINITION. The data part of LD, ST and AMO (R206): register forms of each SIZE, the access of memory at a key, and how a failed one
traps (R22, R45). -/

namespace Sys2Proof.Machine

/-- The address of a MEM word: s[RA] + OFF (R206). -/
def Ix.addr (ix : Ix) : Word := ix.cl.s (wRA ix.w) + wOff ix.w

/-- Width of the access in bytes. -/
def Ix.memBytes (ix : Ix) : Nat := sizeBytes (wSize ix.w)

/-- Bytes of register `r` in the form of SIZE: a scalar, a pair with the low half in the even register, or a descriptor (R206). -/
def Clerk.regBytes (cl : Clerk) (compat : Bool) (size r : Nat) : List Byte :=
  match size with
  | 4 => natLe 8 (cl.s r).toNat ++ natLe 8 (cl.s (r + 1)).toNat
  | 5 => natLe 64 (cl.d compat r).toNat
  | _ => natLe (sizeBytes size) (cl.s r).toNat

/-- The clerk with register `r` in the form of SIZE holding `bs`; SX sign-extends sizes 1 to 4 (R206). -/
def Clerk.setRegBytes (cl : Clerk) (size r : Nat) (sx : Bool) (bs : List Byte) : Clerk :=
  let v := leNat bs
  match size with
  | 4 => (cl.setS r (BitVec.ofNat 64 v)).setS (r + 1) (BitVec.ofNat 64 (v / 2 ^ 64))
  | 5 => { cl with dreg := cl.dreg.put r (BitVec.ofNat 512 v) }
  | _ =>
    let n := 8 * sizeBytes size
    cl.setS r (if sx && bit v (n - 1) then BitVec.ofNat 64 (v + (2 ^ 64 - 2 ^ n)) else BitVec.ofNat 64 v)

/-- The value an atomic writes (R206, R276): 0 ADD, 1 SWAP, 2 CAS, modulo the width. -/
def amoNew (op bytes old b c : Nat) : Nat :=
  match op with
  | 0 => (old + b) % 2 ^ (8 * bytes)
  | 1 => b
  | _ => if old = c then b else old

/-- A short access of the clerk ended other than OK: MEMORY with the status, or MACHINE_CHECK for a word of its stack (R22, R45). -/
def State.memTrap (s : State) (ix : Ix) (stack : Bool) (st : Status) : State :=
  if stack && decide (st = .uncorrectable) then s.trap ix.c .machineCheck 0 ix.cl.pc ix.addr
  else s.trap ix.c .memory st.code ix.cl.pc ix.addr

/-- LD, ST or AMO on memory at a key. -/
def State.clerkMem (s : State) (ix : Ix) (key : Nat) (stack : Bool) : State :=
  let n := ix.memBytes
  match wMajor ix.w with
  | 0x48 =>
    let r := s.readMem key n
    if r.2.1 = .ok then r.1.retire ix.c (ix.cl.setRegBytes (wSize ix.w) (wRD ix.w) (ix.w.getLsbD 26) r.2.2)
    else r.1.memTrap ix stack r.2.1
  | 0x49 =>
    let r := s.writeMem key (ix.cl.regBytes ix.img.compat (wSize ix.w) (wRB ix.w))
    if r.2 = .ok then r.1.retire ix.c ix.cl else r.1.memTrap ix stack r.2
  | _ =>
    let r := s.readMem key n
    if r.2.1 = .ok then
      let new := amoNew (wf ix.w 26 2) n (leNat r.2.2) (leNat (ix.cl.regBytes false (wSize ix.w) (wRB ix.w)))
        (leNat (ix.cl.regBytes false (wSize ix.w) (wRC ix.w)))
      let w := r.1.writeMem key (natLe n new)
      if w.2 = .ok then w.1.retire ix.c (ix.cl.setRegBytes (wSize ix.w) (wRD ix.w) false r.2.2) else w.1.memTrap ix stack w.2
    else r.1.memTrap ix stack r.2.1

/-- The clerk's instruction as it stands stalled in READY (R45). -/
def State.stalledIx (s : State) (c : Nat) : Option Ix :=
  let cl := s.clerk c
  match cl.run with
  | none => none
  | some r => (s.tlr.images.look r.slot).map (fun img => ⟨c, cl, r, img, img.wordAt cl.pc⟩)

/-- The stall of clerk `c` ends and its access is made at a key. -/
def State.wakeMem (s : State) (c key : Nat) : State :=
  let s := s.setClerk c { s.clerk c with stall := none }
  match s.stalledIx c with
  | none => s
  | some ix => s.clerkMem ix key false

end Sys2Proof.Machine
end

