-- ==== Sys2Proof/Machine/DomMap.lean ====
section
/-! DEFINITION. The domain map: what each change of its log does to it, voters, buckets, homes and paths, and Escrow's table (R289 to R295,
R302 to R304, Table 12-10). -/

namespace Sys2Proof.Machine

/-- Voters asked for: 0 and 2 are treated as 1 and 3, 4 as 3, above 5 as 5 (Table 12-16). -/
def votersWanted (n : Nat) : Nat := if n = 0 || n = 1 then 1 else if n ≤ 4 then 3 else 5

/-- A field of a word. -/
def wbits (w : Word) (lo n : Nat) : Nat := bits w.toNat lo n

/-- LEASE_MS; 0 is treated as 1. -/
def DomMap.leaseMs (m : DomMap) : Nat := max 1 (wbits m.mapCfg 0 8)
/-- SUSPECT_MS, at least LEASE_MS + 2. -/
def DomMap.suspectMs (m : DomMap) : Nat := max (m.leaseMs + 2) (wbits m.mapCfg 8 8)
/-- ELECT_MS, at least LEASE_MS + 2. -/
def DomMap.electMs (m : DomMap) : Nat := max (m.leaseMs + 2) (wbits m.mapCfg 16 8)
/-- ISOLATE_MS. -/
def DomMap.isolateMs (m : DomMap) : Nat := wbits m.mapCfg 32 16
/-- REQ_TMO_US, at least 100. -/
def DomMap.reqTmoUs (m : DomMap) : Nat := max 100 (wbits m.mapCfg 48 16)
/-- FILL_PCT, at most 100. -/
def DomMap.fillPct (m : DomMap) : Nat := min 100 (wbits m.grantCfg 0 8)
/-- LEND_PCT. -/
def DomMap.lendPct (m : DomMap) : Nat := wbits m.grantCfg 8 8
/-- RECLAIM_MS. -/
def DomMap.reclaimMs (m : DomMap) : Nat := wbits m.grantCfg 16 16

/-- Members by number, lowest first. -/
def DomMap.memberNos (m : DomMap) : List Nat := (List.range 32).filter m.members.has

/-- A member is a DXS-2612. -/
def DomMap.isSmall (m : DomMap) (i : Nat) : Bool :=
  match m.members.look i with
  | some x => x.small
  | none => false

/-- The voters: the VOTERS lowest-numbered DXS-4824 members (R290). -/
def DomMap.voters (m : DomMap) : List Nat :=
  (m.memberNos.filter (fun i => !(m.isSmall i))).take (votersWanted (wbits m.mapCfg 24 3))

/-- A majority of the voters is among `l`. -/
def DomMap.majority (m : DomMap) (l : List Nat) : Bool := decide (m.voters.length < 2 * (m.voters.filter l.contains).length)

/-- Bucket `k`. -/
def DomMap.bucket (m : DomMap) (k : Nat) : Bucket := m.buckets.lookD k ⟨m.founder, m.founder, m.founder, 0, 0, false⟩

/-- The home of a bucket: its old home until a moving bucket cuts over (R299, R301; DEDUCED, log 21). -/
def DomMap.home (m : DomMap) (k : Nat) : Nat := let b := m.bucket k; if b.st = 1 then b.fromM else b.primary

/-- The 64-bit hash of R294. -/
def domHash (x : Nat) : Nat := let h := x * 0x9E3779B97F4A7C15 % 2 ^ 64; h ^^^ (h / 2 ^ 31)

/-- The hash and the bucket of a domain offset (R294). -/
def domPlace (protect off : Nat) : Nat × Nat :=
  let blk := off / 4096
  if protect = 2 then
    let h := domHash (blk / 4)
    (h, 4 * (h / 2 ^ 20 % 1024) + blk % 4)
  else
    let h := domHash blk
    (h, h / 2 ^ 20 % 4096)

/-- The copy holder of a line of a bucket under a protection (R294). -/
def DomMap.copyOf (m : DomMap) (protect k : Nat) : Option Nat :=
  if protect = 1 then some (m.bucket k).secondary else if protect = 2 then some (m.bucket (k / 4 * 4)).parity else none

/-- The region that holds a domain offset. -/
def DomMap.regionAt (m : DomMap) (off : Nat) : Option (Nat × DomRegion) :=
  m.regions.rows.find? (fun r => decide (r.2.base * 65536 ≤ off) && decide (off < (r.2.base + r.2.granules) * 65536))

/-- An identifier of a domain region (R292). -/
def domIdent (i gen : Nat) : Word := BitVec.ofNat 64 (i % 2 ^ 14 * 2 ^ 48 + gen % 2 ^ 48)


end Sys2Proof.Machine

namespace Sys2Proof

/-- A region's version line offset (R293). -/
def versionOff (r : DomRegion) : Nat := (r.base + r.granules) * 65536 - 64

/-- The version line's bytes (R293). -/
def versionLine (r : DomRegion) : Nat :=
  r.version % 2 ^ 64 + r.pubEpoch % 2 ^ 64 * 2 ^ 64 +
  (match r.owner with
   | some o => o % 32 * 2 ^ 128 + 2 ^ 133
   | none => 0)

/-- Table 12-10: status, word 1 and whether the operation is a change, for an issuer at an epoch. -/
def escEval (r : DomRegion) (op : EscOp) (issuer epoch : Nat) : Nat × Nat × Bool :=
  match op with
  | .acq => match r.owner with
    | none => (0, r.version, true)
    | some o => if o = issuer then (0, r.version, false) else (0x0021, r.version, false)
  | .pub v =>
    if r.lapsed = some issuer then (0x0020, epoch, false)
    else if r.owner = some issuer && v = r.version then (0, v + 1, true)
    else (0x0021, r.version, false)
  | .rel =>
    if r.lapsed = some issuer then (0x0020, epoch, false)
    else if r.owner = some issuer then (0, r.version, true) else (0, r.version, false)

end Sys2Proof

namespace Sys2Proof.Machine

/-- A bucket takes new holders (R295): a changed home makes it move; a changed copy holder leaves it degraded until filled. -/
def DomMap.assign (m : DomMap) (a : Assign) : DomMap :=
  let b := m.bucket a.bucket
  let b' : Bucket :=
    if a.primary ≠ m.home a.bucket then { b with primary := a.primary, secondary := a.secondary, parity := a.parity, st := 1, fromM := m.home a.bucket }
    else if a.secondary ≠ b.secondary || a.parity ≠ b.parity then { b with secondary := a.secondary, parity := a.parity, st := if b.st = 0 then 2 else b.st }
    else b
  { m with buckets := m.buckets.put a.bucket b' }

/-- What the removal of a member does to one bucket (Table 12-9). -/
def DomMap.loseHolder (m : DomMap) (c : Nat) (assign : List Assign) (k : Nat) : Bucket :=
  let b := m.bucket k
  let pick := assign.find? (fun a => decide (a.bucket = k))
  let par := (m.bucket (k / 4 * 4)).parity
  if m.home k = c then
    let p := match pick with
      | some a => a.primary
      | none => b.secondary
    let sec := match pick with
      | some a => a.secondary
      | none => b.secondary
    let pr := match pick with
      | some a => a.parity
      | none => b.parity
    { primary := p, secondary := sec, parity := pr, st := if b.st = 2 || b.st = 3 then 3 else 2, fromM := 0, noneLost := true }
  else if b.secondary = c || par = c || b.primary = c then
    match pick with
    | some a => { b with primary := m.home k, secondary := a.secondary, parity := a.parity, st := if b.st = 3 then 3 else 2, fromM := 0 }
    | none => { b with primary := m.home k, st := if b.st = 3 then 3 else 2, fromM := 0 }
  else b

/-- Ownerships of a controller end: by removal they lapse, on leaving they are released (Table 12-8, Table 12-9). -/
def DomMap.endOwner (m : DomMap) (c : Nat) (lapse : Bool) : DomMap :=
  let rs := m.regions.mapVals (fun _ r =>
    if r.owner = some c then { r with owner := none, lapsed := if lapse then some c else r.lapsed } else r)
  { m with regions := rs }

/-- After a cut-over: a joining member without a moving bucket is a member, and a leaving one without buckets is absent (Table 12-8). -/
def DomMap.settleMembers (m : DomMap) : DomMap :=
  let moving := fun i => (List.range 4096).any (fun k => let b := m.bucket k; decide (b.st = 1) && decide (b.primary = i))
  let holds := fun i => (List.range 4096).any (fun k => decide (m.home k = i))
  let gone := m.memberNos.filter (fun i => match m.members.look i with
    | some x => decide (x.st = .leaving) && !(holds i)
    | none => false)
  let ms := m.members.mapVals (fun i x => if x.st = .joining && !(moving i) then { x with st := .member } else x)
  let m := { m with members := ms.keep (fun i _ => !(gone.contains i)) }
  gone.foldl (fun m i => m.endOwner i false) m

/-- The map after a change that makes epoch `e` (R289). -/
def DomMap.apply (m : DomMap) (e : Nat) (c : MapChange) : DomMap :=
  let m := { m with epoch := e }
  match c with
  | .join i small share paths moves =>
    let first := m.members.size = 0
    let m := { m with
      members := m.members.put i ⟨if first then .member else .joining, small, e, share⟩
      founder := if first then i else m.founder
      paths := paths.foldl (fun t p => t.put (p.1, p.2.1) p.2.2) m.paths }
    let m := moves.foldl (fun m a => m.assign a) m
    if first || !(moves.isEmpty) then m else m.settleMembers
  | .leave i moves =>
    let m := { m with members := m.members.upd i (fun x => { x with st := .leaving }) }
    let m := moves.foldl (fun m a => m.assign a) m
    if moves.isEmpty then m.settleMembers else m
  | .remove i assign =>
    let bs := (List.range 4096).foldl (fun (t : Tbl Nat Bucket) k =>
      let b := m.loseHolder i assign k
      if b = m.bucket k then t else t.put k b) m.buckets
    ({ m with members := m.members.del i, buckets := bs, master := if m.master = some i then none else m.master }).endOwner i true
  | .cutover k => ({ m with buckets := m.buckets.put k { m.bucket k with st := 0, fromM := 0 } }).settleMembers
  | .copied k => { m with buckets := m.buckets.put k { m.bucket k with st := if (m.bucket k).st = 2 then 0 else (m.bucket k).st } }
  | .noneBacked k => { m with buckets := m.buckets.put k { m.bucket k with noneLost := false } }
  | .params a b => { m with mapCfg := a, grantCfg := b }
  | .regionCreate i r _ => { m with regions := m.regions.put i { r with created := e }, gens := m.gens.put i r.gen }
  | .regionDelete i => { m with regions := m.regions.del i, gens := m.gens.put i ((m.gens.lookD i 0 + 1) % 2 ^ 48) }
  | .escrow i op issuer key =>
    match m.regions.look i with
    | none => m
    | some r =>
      let v := escEval r op issuer m.epoch
      let inc := match m.members.look issuer with
        | some x => x.inc
        | none => 0
      let r' : DomRegion := match op with
        | .acq => { r with owner := some issuer, ownerInc := inc, lapsed := none }
        | .pub _ => { r with version := v.2.1, pubEpoch := e }
        | .rel => { r with owner := none }
      if v.2.2 then { m with regions := m.regions.put i r', escDone := m.escDone.put (issuer, key) v.2.1 } else m
  | .pairing i p => { m with pairs := m.pairs.put i p }
  | .cfPeer i j p => { m with cfPeers := if p < 32 then m.cfPeers.put (i, j) p else m.cfPeers.del (i, j) }
  | .timeMaster i => { m with master := some i }
  | .pathGone i p => { m with paths := m.paths.mapVals (fun k v => if k.1 = i && bit v p then v - 2 ^ p else v) }
  | .pathFound i d p => { m with paths := m.paths.put (i, d) (m.paths.lookD (i, d) 0 ||| 2 ^ p) }
  | .snapshot ms bs rs ps a b f =>
    { m with members := ⟨ms⟩, buckets := ⟨bs⟩, regions := ⟨rs⟩, paths := ⟨ps⟩, mapCfg := a, grantCfg := b, founder := f }

end Sys2Proof.Machine
end

