-- ==== Sys2Proof/Machine/Lnk.lean ====
section
/-! DEFINITION. Node, fabric and Sinil ports: negotiation, cells and retry, credits, keys, queues and service, policing, telemetry
and gates (R309 to R328). -/

namespace Sys2Proof.Machine

/-! ### Port kinds and state -/

/-- A port right after reset. -/
def Port.idle : Port :=
  { since := 0, retryAt := none, attempts := 0, rekeys := false, rates := [], handled := false, epochAt := 0, rekeying := false,
    oldTx := false, lastCtr := .empty, oldRx := false, seqTx := 0, seqRx := 0, retryBuf := [], resend := [], discardTo := none,
    unacked := 0, unackedAt := none, badAt := [], tagFails := [], avail := .empty, freed := .empty, freedAt := .empty,
    queues := .empty, msgTx := .empty, credit := .empty, creditAt := 0, drrQ := 3, deficit := .empty, rx := .empty, gates := [],
    swap := none }

/-- Port `p`. -/
def State.port (s : State) (p : Nat) : Port := s.lnk.ports.lookD p Port.idle

/-- Replace port `p`. -/
def State.setPort (s : State) (p : Nat) (x : Port) : State := s.onLnk (fun l => { l with ports := l.ports.put p x })

/-- Change port `p`. -/
def State.updPort (s : State) (p : Nat) (f : Port → Port) : State := s.setPort p (f (s.port p))

/-- State of a port (Table 13-2): 0 DOWN, 1 TRAIN, 2 CAPS, 3 KEYS, 4 CREDIT, 5 UP, 6 RETRAIN, 7 FAILED. -/
def State.portSt (s : State) (p : Nat) : Nat := s.fld Fld.lnkPortStatus_state p

/-- ENABLE of a port. -/
def State.portEnabled (s : State) (p : Nat) : Bool := decide (s.fld Fld.lnkPortCfg_enable p = 1)

/-- A port enters a state: published, timed and traced (R310, R411). -/
def State.portTo (s : State) (p st : Nat) : State :=
  ((s.setFld Fld.lnkPortStatus_state p st).updPort p (fun x => { x with since := s.now })).trace (hubOfPort p) 4 0 false p st

/-- Link kind of the capability block: 1 node, 2 fabric, 3 Sinil. -/
def portKind (p : Nat) : Nat := if p < 8 then 1 else if p < 20 then 2 else 3

/-- Widths allowed, greatest first (Table 13-1). -/
def portWidths (p : Nat) : List Nat := if p < 8 then [32, 16, 8] else if p < 20 then [12, 8, 4] else [2, 1]

/-- MIN_LANES as the controller acts on it: a value not listed is treated as the next larger width (Table 13-12). -/
def State.minLanes (s : State) (p : Nat) : Nat :=
  let v := s.fld Fld.lnkPortCfg_minLanes p
  match (portWidths p).reverse.find? (fun w => decide (v ≤ w)) with
  | some w => w
  | none => (portWidths p).headD 0

/-- Refusal of a port: DOWN with a REASON, and training again after 1 s (Table 13-2). -/
def State.refusePort (s : State) (p reason : Nat) : State :=
  (((s.setFld Fld.lnkPortStatus_reason p reason).portTo p 0).updPort p (fun x => { x with retryAt := some (s.now + 1000000000) })).raise
    Evt.lnk_portRefused

/-- Bring-up has come to a port (Table 16-1): Sinil ports at step 5, or in boot mode; node and fabric ports at step 12. -/
def State.portBooted (s : State) (p : Nat) : Bool :=
  if 20 ≤ p then s.boot.bootPorts.contains p || s.boot.done.contains 5 else s.boot.done.contains 11

/-- A port that can train: bring-up has come to it, its hub is in service, the self-test left it in, and no flush has its SerDes off (R364, R383,
R389, R393). -/
def State.portPowered (s : State) (p : Nat) : Bool :=
  decide (p < 22) && s.portBooted p && s.hubUp (hubOfPort p) && !(s.boot.portOut.contains p) && (decide (20 ≤ p) || !s.flushing)

/-- `PORT_SIGNAL_DETECT`: DOWN with ENABLE set and a signal goes to TRAIN (Table 13-2). -/
def execPortSignalDetect (p : Nat) (s : State) : Ans :=
  s.whenLive (if s.portSt p = 0 && s.portEnabled p && s.portPowered p && decide ((s.port p).retryAt = none) then s.portTo p 1 else s)

/-- The greatest lanes × rate among pairs of width and rate code (0: 224 Gb/s, 1: 112 Gb/s); a tie goes to the higher rate (R311). -/
def bestMode (ws rs : List Nat) : Option (Nat × Nat) :=
  (ws.flatMap (fun w => rs.map (fun r => (w, r)))).foldl (fun best m =>
    match best with
    | none => some m
    | some b =>
      let score := fun (x : Nat × Nat) => x.1 * (if x.2 = 0 then 2 else 1)
      if score b < score m then some m else if score b = score m && decide (m.2 < b.2) then some m else best) none

/-- `LANE_LOCK`: lanes lock at the widths and rates both sides train at; TRAIN goes to CAPS, or is refused below MIN_LANES
(Table 13-2, R311). -/
def execLaneLock (p : Nat) (widths rates : List Nat) (propNs : Nat) (s : State) : Ans :=
  s.whenLive (if s.portSt p = 1 then
    let rs := rates.filter (fun r => decide (r = 1) || (decide (r = 0) && decide (s.fld Fld.lnkPortCfg_maxRate p = 0)))
    match bestMode (widths.filter (fun w => (portWidths p).contains w)) rs with
    | none => s
    | some (w, r) =>
      if w < s.minLanes p then s.refusePort p 2
      else
        let s := (((s.setFld Fld.lnkPortStatus_lanes p w).setFld Fld.lnkPortStatus_rate p r).setFld Fld.lnkPortStatus_propNs p
          (min propNs 65535)).setFld Fld.lnkPortStatus_reason p 0
        (s.updPort p (fun x => { x with rates := rs })).portTo p 2
  else s)

/-- `TRAIN_TIMEOUT`: no lock within 20 ms (Table 13-2). -/
def execTrainTimeout (p : Nat) (s : State) : Ans :=
  s.whenLive (if s.portSt p = 1 && decide ((s.port p).since + 20000000 ≤ s.now) then s.refusePort p 1 else s)

/-- `TRAIN_RETRY`: training is retried 1 s after a refusal while ENABLE is set. -/
def execTrainRetry (p : Nat) (s : State) : Ans :=
  s.whenLive (match (s.port p).retryAt with
    | none => s
    | some t =>
      if decide (t ≤ s.now) && s.portSt p = 0 && s.portEnabled p && s.portPowered p then
        (s.updPort p (fun x => { x with retryAt := none })).portTo p 1
      else s)

/-! ### The common mode (R311, Tables 13-3 and 13-4) -/

/-- Versions as major × 256 + minor: lowest accepted and highest offered (Table 13-3). -/
def portVersions (p : Nat) : Nat × Nat := if p < 20 then (0x200, 0x300) else (0x300, 0x302)

/-- The controller's feature mask (Table 13-4). -/
def portFeatures (p : Nat) : Nat := if p < 20 then 0xF else 0x3

/-- Features a settled version leaves (Table 13-3). -/
def featuresAt (p ver : Nat) : Nat :=
  if p < 8 then (if ver < 0x300 then 0x8 else 0xF)
  else if p < 20 then (if ver < 0x300 then 0 else 0xF)
  else if ver = 0x300 then 0 else if ver = 0x301 then 0x1 else 0x3

/-- The suite both sides use, or `none` (R311): 1 when both offer it; 0 on a node port with PLAIN_OK whose partner offers no other, and
on a Sinil port in boot mode. -/
def State.suiteFor (s : State) (p partner : Nat) : Option Nat :=
  if s.boot.bootPorts.contains p then (if bit partner 0 then some 0 else none)
  else if bit partner 1 then some 1
  else if p < 8 && decide (s.fld Fld.lnkPortCfg_plainOk p = 1) && decide (partner = 1) then some 0
  else none

/-- The controller's own capability block (Table 13-4). -/
def State.ownCaps (s : State) (p : Nat) : Word × Word :=
  let v := portVersions p
  let reach := if p < 8 then (if s.fld Fld.lnkPortCfg_reach p = 0 then 1 else 2) else 0
  let suites := if s.boot.bootPorts.contains p then 1
    else 2 + (if p < 8 && decide (s.fld Fld.lnkPortCfg_plainOk p = 1) then 1 else 0)
  (BitVec.ofNat 64 (portKind p + v.1 / 256 * 2 ^ 8 + v.1 % 256 * 2 ^ 16 + v.2 / 256 * 2 ^ 24 + v.2 % 256 * 2 ^ 32 + reach * 2 ^ 40),
   BitVec.ofNat 64 (portFeatures p + suites * 2 ^ 16 +
     (if 8 ≤ p && p < 20 then s.fld Fld.dfbStatus_self 0 * 2 ^ 32 else 0)))

/-- `CAPABILITY_BLOCK`: the partner's block arrives and the common mode is chosen, or the port is refused with REASON 7, 3, 5 or 4. -/
def execCapabilityBlock (p : Nat) (w0 w1 : Word) (s : State) : Ans :=
  s.whenLive (if s.portSt p = 2 then
    let a := w0.toNat
    let b := w1.toNat
    let s := s.send (.capBlock p (s.ownCaps p).1 (s.ownCaps p).2)
    let lo := bits a 8 8 * 256 + bits a 16 8
    let hi := bits a 24 8 * 256 + bits a 32 8
    let own := portVersions p
    let ver := min hi own.2
    if bits a 0 2 ≠ portKind p then s.refusePort p 7
    else if ver < lo || ver < own.1 then s.refusePort p 3
    else if p < 8 && !(bit (bits a 40 2) (s.fld Fld.lnkPortCfg_reach p)) then s.refusePort p 5
    else
      match s.suiteFor p (bits b 16 16) with
      | none => s.refusePort p 4
      | some suite =>
        let feat := (bits b 0 16) &&& (portFeatures p) &&& (featuresAt p ver)
        let s := ((s.setFld Fld.lnkPortStatus_major p (ver / 256)).setFld Fld.lnkPortStatus_minor p (ver % 256)).setFld
          Fld.lnkPortStatus_features p feat
        let s := (s.setFld Fld.lnkPortStatus_suite p suite).setFld Fld.lnkPortStatus_reach p
          (if p < 8 then s.fld Fld.lnkPortCfg_reach p else 0)
        let s := if p < 8 && ver < 0x300 then s.setFld Fld.lnkPortStatus_rate p 1 else s
        let s := if ver < own.2 then s.raise Evt.lnk_fallback else s
        s.portTo p 3
  else s)

/-! ### Credits (R316) -/

/-- Receive buffer of a port in KiB (R316). -/
def portBufKib (p : Nat) : Nat := if p < 8 then 4096 else if p < 20 then 8192 else 1024

/-- The cells an advertisement gives each queue: as advertised, or 1 ÷ 16 of the port's buffer when it breaks a limit (R316). -/
def advertCells (p : Nat) (cells : List Nat) : List Nat :=
  let sixteenth := portBufKib p * 1024 / 16 / 640
  if cells.length = 16 && cells.all (fun n => decide (8 ≤ n)) && decide (cells.sum * 640 ≤ portBufKib p * 1024) then cells
  else List.replicate 16 sixteenth

/-- What the controller advertises: RXBUF_KIB of each queue in cells (R316). -/
def State.ownAdvert (s : State) (p : Nat) : List Nat :=
  advertCells p ((List.range 16).map (fun q => s.fld Fld.lnkQShape_rxbufKib (p * 16 + q) * 1024 / 640))

/-- `CREDIT_ADVERT`: advertisements are exchanged and the port goes UP (Table 13-2); a node port is then an agent in service, unless a
sweep for it has not ended (R286). -/
def execCreditAdvert (p : Nat) (cells : List Nat) (s : State) : Ans :=
  s.whenLive (if s.portSt p = 4 then
    let given := advertCells p cells
    let avail := (List.range 16).foldl (fun (t : Tbl Nat Nat) q => t.put q (given.getD q 0)) Tbl.empty
    let s := (s.send (.advert p (s.ownAdvert p))).updPort p (fun x =>
      { x with avail := avail, freed := .empty, freedAt := .empty, retryBuf := [], resend := [], seqTx := 0, seqRx := 0,
               discardTo := none, unacked := 0, unackedAt := none, badAt := [], handled := false })
    let s := if p < 8 && !(s.nmc.sweeps.has (p + 2)) then s.setFld Fld.nmcAgentStatus_state (p + 2) 1 else s
    (s.portTo p 5).raise Evt.lnk_portUp
  else s)

/-- `CREDIT_RETURN`: freed cells go back as credits after 64 cells, or 1 µs after the first free (R316). -/
def execCreditReturn (p q : Nat) (s : State) : Ans :=
  let x := s.port p
  let n := x.freed.lookD q 0
  s.whenLive (if 0 < n && (decide (64 ≤ n) || decide (x.freedAt.lookD q 0 + 1000 ≤ s.now)) then
    (s.updPort p (fun x => { x with freed := x.freed.del q, freedAt := x.freedAt.del q })).send (.creditCell p q n)
  else s)

/-- `CREDIT_RETURN_ARRIVAL`: RETURNED rises and the queue has the credits again (R316). -/
def execCreditReturnArrival (p q n : Nat) (s : State) : Ans :=
  s.whenLive (if q < 16 then
    (s.count .lnkQRet (p * 16 + q) n).updPort p (fun x => { x with avail := x.avail.put q (x.avail.lookD q 0 + n) })
  else s)

/-! ### Retrain, enable and keys -/

/-- UP goes to RETRAIN (Table 13-2). -/
def State.toRetrain (s : State) (p : Nat) (rekeys : Bool) : State :=
  (s.updPort p (fun x => { x with attempts := 0, rekeys := rekeys })).portTo p 6

/-- `RETRAIN_TRIGGER`: a lost lane, or 16 uncorrectable codewords within 1 ms, takes an UP port to RETRAIN (Table 13-2). -/
def execRetrainTrigger (p : Nat) (laneLost : Bool) (s : State) : Ans :=
  s.whenLive (if s.portSt p = 5 &&
      (laneLost || decide (16 ≤ ((s.port p).badAt.filter (fun t => decide (s.now < t + 1000000))).length)) then s.toRetrain p false
  else s)

/-- RETRAIN_MAX, where 0 is treated as 1. -/
def State.retrainMax (s : State) : Nat := max 1 (s.fld Fld.lnkCfg_retrainMax)

/-- `RETRAIN_END`: an attempt succeeds within 5 ms at a width of at least MIN_LANES, is retried, or exhausts RETRAIN_MAX; a retrain after
a tag failure runs KEYS again (Table 13-2, R318). -/
def execRetrainEnd (p : Nat) (ok : Bool) (lanes : Nat) (s : State) : Ans :=
  s.whenLive (if s.portSt p = 6 then
    if ok && (portWidths p).contains lanes && decide (s.minLanes p ≤ lanes) && decide (s.now ≤ (s.port p).since + 5000000) then
      let s := (s.setFld Fld.lnkPortStatus_lanes p lanes).raise Evt.lnk_retrain
      let s := s.updPort p (fun x => { x with resend := x.retryBuf, badAt := [], discardTo := none })
      if (s.port p).rekeys then s.portTo p 3 else s.portTo p 5
    else
      let n := (s.port p).attempts + 1
      let s := s.updPort p (fun x => { x with attempts := n, since := s.now })
      if n < s.retrainMax then s
      else ((s.setFld Fld.lnkPortStatus_reason p 8).portTo p 7).raise Evt.lnk_portFailed
  else s)

/-- The frames queued on a port are discarded (Table 13-2, R312). -/
def State.dropFrames (s : State) (p : Nat) : State :=
  (List.range 16).foldl (fun s q => s.wr .lnkQDepth (p * 16 + q) 0)
    (s.updPort p (fun x => { x with queues := .empty, resend := [], retryBuf := [], rx := .empty }))

/-- A port goes DOWN and forgets its mode. -/
def State.portDown (s : State) (p : Nat) : State :=
  ((s.dropFrames p).updPort p (fun x => { x with retryAt := none, attempts := 0, rekeying := false, rekeys := false })).portTo p 0

/-- The transmit epoch (`LNK_PORT_KEY`). -/
def State.txEpoch (s : State) (p : Nat) : Nat := bits (s.rd .lnkPortKey p).toNat 0 32
/-- The receive epoch. -/
def State.rxEpoch (s : State) (p : Nat) : Nat := bits (s.rd .lnkPortKey p).toNat 32 32
/-- Set both epochs. -/
def State.setEpochs (s : State) (p tx rx : Nat) : State :=
  s.wr .lnkPortKey p (BitVec.ofNat 64 (tx % 2 ^ 32 + rx % 2 ^ 32 * 2 ^ 32))

/-- New keys of both directions: key epoch 0, COUNTER 0 (Table 13-2, R317). -/
def State.freshKeys (s : State) (p : Nat) : State :=
  ((s.setEpochs p 0 0).wr .lnkPortCounter p 0).updPort p (fun x =>
    { x with lastCtr := .empty, epochAt := s.now, rekeying := false, oldTx := false, oldRx := false })

/-- The port's suite. -/
def State.suite (s : State) (p : Nat) : Nat := s.fld Fld.lnkPortStatus_suite p

/-- REKEY_S as acted on (Table 13-11). -/
def State.rekeyS (s : State) : Nat := min 3600 (max 1 (s.fld Fld.lnkCfg_rekeyS))

/-- The sender starts a rekey of port `p` at once (R319, R336); at EPOCH 2^32 − 1 the full exchange of KEYS takes its place. -/
def State.rekeyPort (s : State) (p : Nat) : State :=
  if s.portSt p = 5 && s.suite p = 1 && !((s.port p).rekeying) then
    (s.updPort p (fun x => { x with rekeying := true })).send (.rekey p ((s.txEpoch p + 1) % 2 ^ 32) false)
  else s

/-- `REKEY_START`: COUNTER has reached 2^40 − 2^32, or the epoch has been in use for REKEY_S (R319). -/
def execRekeyStart (p : Nat) (s : State) : Ans :=
  s.whenLive (if decide (2 ^ 40 - 2 ^ 32 ≤ (s.rd .lnkPortCounter p).toNat) ||
      decide ((s.port p).epochAt + s.rekeyS * 1000000000 ≤ s.now) then s.rekeyPort p else s)

/-- `REKEY_FRAME`: the receiver installs the next receive key and answers; the partner's answer lets the sender switch (R319). -/
def execRekeyFrame (p epoch : Nat) (answer : Bool) (s : State) : Ans :=
  s.whenLive (if s.portSt p = 5 && s.suite p = 1 then
    if answer then
      if (s.port p).rekeying && decide (epoch = s.txEpoch p + 1) then
        ((s.setEpochs p epoch (s.rxEpoch p)).wr .lnkPortCounter p 0).updPort p (fun x =>
          { x with rekeying := false, oldTx := true, epochAt := s.now })
      else s
    else if epoch = s.rxEpoch p + 1 then
      ((s.setEpochs p (s.txEpoch p) epoch).updPort p (fun x => { x with oldRx := true })).send (.rekey p epoch true)
    else s
  else s)

/-! ### Cells (R313, R315) -/

/-- The receiver sends an acknowledgement of what it has accepted; an old receive key is given up with it (R315, R319). -/
def State.sendAck (s : State) (p : Nat) : State :=
  (s.send (.ackCell p (((s.port p).seqRx + 8191) % 8192))).updPort p (fun x =>
    { x with unacked := 0, unackedAt := none, oldRx := x.oldRx && (x.lastCtr.look (s.rxEpoch p)).isNone })

/-- `CELL_RECEIVE`: a codeword's cell is accepted in SEQ order; cells that follow a retry request are discarded until the named SEQ
arrives; every 32nd is acknowledged (R315). -/
def execCellReceive (p : Nat) (ctl : CellCtl) (s : State) : Ans :=
  s.whenLive (let x := s.port p
    if ctl.ctrl then s
    else if ctl.seq ≠ x.seqRx % 8192 then s
    else
      let s := s.updPort p (fun x => { x with seqRx := (x.seqRx + 1) % 8192, discardTo := none, unacked := x.unacked + 1,
                                              unackedAt := some (x.unackedAt.getD s.now) })
      let s := s.count .lnkQRxuse (p * 16 + ctl.queue % 16) 1
      if 32 ≤ (s.port p).unacked then s.sendAck p else s)

/-- `ACK_TIMER`: 0.5 µs after the first cell not yet acknowledged (R315). -/
def execAckTimer (p : Nat) (s : State) : Ans :=
  s.whenLive (match (s.port p).unackedAt with
    | none => s
    | some t => if t + 500 ≤ s.now then s.sendAck p else s)

/-- `CODEWORD_UNCORRECTABLE`: the codeword is discarded and counted, and a retry request names its SEQ (R315). -/
def execCodewordUncorrectable (p seq : Nat) (s : State) : Ans :=
  s.whenLive (let e := (s.rd .lnkPortErr p).toNat
    let n := min (bits e 32 16 + 1) 65535
    let s := s.wr .lnkPortErr p (BitVec.ofNat 64 (bits e 0 32 + n * 2 ^ 32 + bits e 48 16 * 2 ^ 48))
    let s := s.updPort p (fun x => { x with discardTo := some (seq % 8192), badAt := s.now :: x.badAt.take 15 })
    s.send (.retryCell p (seq % 8192)))

/-- `RETRY_REQUEST`: the cells from the named SEQ onward are sent again, in order, ahead of new ones (R315). -/
def execRetryRequest (p seq : Nat) (s : State) : Ans :=
  s.whenLive (let again := (s.port p).retryBuf.dropWhile (fun c => decide (c.seq ≠ seq))
    if again = [] then s
    else (s.updPort p (fun x => { x with resend := again })).count .lnkPortRetry p 1)

/-- `CELL_ACK`: cells up to the acknowledged SEQ leave the retry buffer (R315). -/
def execCellAck (p seq : Nat) (s : State) : Ans :=
  s.whenLive (s.updPort p (fun x =>
    if x.retryBuf.any (fun c => decide (c.seq = seq)) then
      { x with retryBuf := (x.retryBuf.dropWhile (fun c => decide (c.seq ≠ seq))).drop 1 }
    else x))

/-! ### Queues and service (R321 to R326) -/

/-- The queue of a traffic class (R321). -/
def State.classQueue (s : State) (cls : Nat) : Nat :=
  if cls < 3 then cls
  else
    let q := bits (s.rd .lnkClassMap).toNat (4 * (cls - 3)) 4
    if q < 3 then 15 else q

/-- Cells of a frame with `n` payload bytes (R314). -/
def frameCells (n : Nat) : Nat := (n + 48 + 639) / 640

/-- The frames of a message of `n` bytes from offset `off` (R314). -/
def cutFrames (q msg conn at_ : Nat) : Nat → Nat → Nat → List Frame
  | 0, _, _ => []
  | fuel + 1, off, n =>
    let len := min n 4432
    let f : FrameHdr := ⟨q, decide (off = 0), decide (n ≤ 4432), len, msg, off, 0, 0, conn⟩
    ⟨f, frameCells len, at_⟩ :: (if n ≤ 4432 then [] else cutFrames q msg conn at_ fuel (off + len) (n - len))

/-- A message of `n` bytes is queued on port `p`: UP and RETRAIN keep it, any other state has no partner and discards it. -/
def State.enqueue (s : State) (p cls conn n : Nat) : State :=
  if 5 ≤ s.portSt p && s.portSt p ≤ 6 && 0 < n then
    let q := s.classQueue cls
    let x := s.port p
    let msg := x.msgTx.lookD q 0
    let fs := cutFrames q msg conn s.now (n / 4432 + 1) 0 n
    (s.count .lnkQDepth (p * 16 + q) n).setPort p
      { x with queues := x.queues.put q (x.queues.lookD q [] ++ fs), msgTx := x.msgTx.put q ((msg + 1) % 2 ^ 32) }
  else s

/-- A message leaves on traffic class `cls` of port `p`. -/
def State.sendOn (s : State) (p cls conn n : Nat) (o : Out) : State := (s.send o).enqueue p cls conn n

/-- Lanes × 2 at 224 Gb/s, lanes at 112: 1/1000 of C is this many 1/80 bytes per ns (Table 13-1: 25 bytes per ns and lane). -/
def State.laneUnits (s : State) (p : Nat) : Nat :=
  s.fld Fld.lnkPortStatus_lanes p * (if s.fld Fld.lnkPortStatus_rate p = 0 then 2 else 1)

/-- RATE of a queue, at most 1,000. -/
def State.qRate (s : State) (p q : Nat) : Nat := min 1000 (s.fld Fld.lnkQShape_rate (p * 16 + q))
/-- BURST of a queue in bytes; 0 KiB is treated as 5. -/
def State.qBurst (s : State) (p q : Nat) : Nat :=
  let b := s.fld Fld.lnkQShape_burstKib (p * 16 + q)
  (if b = 0 then 5 else b) * 1024
/-- QUANTUM of a queue in bytes; below 70 × 64 it is treated as 70 × 64. -/
def State.qQuantum (s : State) (p q : Nat) : Nat := max 70 (s.fld Fld.lnkQShape_quantum (p * 16 + q)) * 64

/-- The shaper credit of a queue in 1/80 bytes: BURST at reset. -/
def State.qCredit (s : State) (p q : Nat) : Int := (s.port p).credit.lookD q (80 * s.qBurst p q : Nat)

/-- Every queue's credit grown at RATE up to now and capped at BURST (R322). -/
def State.growCredit (s : State) (p : Nat) : State :=
  let dt := s.now - (s.port p).creditAt
  let cr := (List.range 16).foldl (fun (t : Tbl Nat Int) q =>
    t.put q (min (80 * s.qBurst p q : Nat) (s.qCredit p q + (s.qRate p q * s.laneUnits p * dt : Nat)))) (s.port p).credit
  (List.range 16).foldl (fun s q => s.wr .lnkQCredit (p * 16 + q) (BitVec.ofInt 64 (s.qCredit p q / 80)))
    (s.updPort p (fun x => { x with credit := cr, creditAt := s.now }))

/-- The position in a gate cycle at node time: entries before it, 10 ns units into the entry (R325). -/
def gateAt : List (Nat × Nat) → Nat → List (Nat × Nat) × Nat
  | [], _ => ([], 0)
  | (o, d) :: rest, t => if t < d then ((o, d) :: rest, t) else gateAt rest (t - d)

/-- The active gates as seen from now: the masks to come with their remaining durations in ns, one cycle long; empty when every queue is
open. -/
def State.gatesAhead (s : State) (p : Nat) : List (Nat × Nat) :=
  let g := (s.port p).gates
  if s.fld Fld.lnkGateCfg_enable p = 0 || g = [] then []
  else
    let cyc := (g.map (·.2)).sum
    let t := (s.nodeTime - ((s.rd .lnkGateBase p).toNat : Int)).toNat % (cyc * 10)
    let r := gateAt g (t / 10)
    match r.1 with
    | [] => []
    | (o, d) :: rest => (o, d * 10 - (r.2 * 10 + t % 10)) :: (rest ++ g).map (fun e => (e.1, e.2 * 10))

/-- Queue `q` is open in a mask: queue 0 always is (R325). -/
def openIn (q mask : Nat) : Bool := decide (q = 0) || bit mask q

/-- ns until the next close of `q`; `none` if it never closes (R326). -/
def untilClose (q : Nat) : List (Nat × Nat) → Nat → Option Nat
  | [], _ => none
  | (o, d) :: rest, acc => if openIn q o then untilClose q rest (acc + d) else some acc

/-- t_cell of a port in ps at full width and 224 Gb/s (Table 13-1). -/
def tCellPs (p : Nat) : Nat := if p < 8 then 759 else if p < 20 then 2024 else 12140

/-- Full lanes of a port. -/
def fullLanes (p : Nat) : Nat := (portWidths p).headD 1

/-- A frame of `cells` cells of queue `q` may start now under the gates: `q` is open and start + G comes no later than its next close
(R326). -/
def State.gateOk (s : State) (p q cells : Nat) : Bool :=
  match s.gatesAhead p with
  | [] => true
  | (o, d) :: rest =>
    if !(openIn q o) then false
    else
      match untilClose q ((o, d) :: rest) 0 with
      | none => true
      | some t =>
        let above := (List.range (min q 3)).filter (fun j => openIn j o)
        let h := (above.map (fun j => s.qBurst p j + 4480)).sum
        let u := s.laneUnits p
        let c := 1000 * u
        let r := (above.map (fun j => s.qRate p j * u)).sum
        let cell := tCellPs p * (2 * fullLanes p) / max 1 u
        if c ≤ r then false
        else decide (cell + ((cells * 640 + h) * 80 * 1000 + (c - r) - 1) / (c - r) ≤ t * 1000)

/-- Queue `q` is open at this moment. -/
def State.gateOpen (s : State) (p q : Nat) : Bool :=
  match s.gatesAhead p with
  | [] => true
  | (o, _) :: _ => openIn q o

/-- The frame at the head of queue `q`. -/
def State.headFrame (s : State) (p q : Nat) : Option Frame := ((s.port p).queues.lookD q []).head?

/-- The head frame is already under way. -/
def Frame.started (f : Frame) : Bool := decide (f.left < frameCells f.hdr.len)

/-- A shaped queue is eligible at c ≥ 0; an unshaped one always (R322). -/
def State.eligible (s : State) (p q : Nat) : Bool := decide (s.qRate p q = 0) || decide (0 ≤ s.qCredit p q)

/-- Queue `q` can send a cell now: its head frame is under way, or may start; `paid`: it must be eligible to start. -/
def State.canSend (s : State) (p q : Nat) (paid : Bool) : Bool :=
  match s.headFrame p q with
  | none => false
  | some f =>
    decide (0 < (s.port p).avail.lookD q 0) && s.gateOpen p q &&
    (f.started || ((!paid || s.eligible p q) && s.gateOk p q (frameCells f.hdr.len)))

/-- The weighted queues in the order deficit round robin visits them after `q`. -/
def drrOrder (q : Nat) : List Nat := (List.range 13).map (fun i => 3 + (q - 3 + 1 + i) % 13)

/-- The queue served at this cell boundary (R322), with whether deficit round robin moves to it. -/
def State.pickQueue (s : State) (p : Nat) : Option (Nat × Bool) :=
  match [0, 1, 2].find? (fun q => s.canSend p q true) with
  | some q => some (q, false)
  | none =>
    let x := s.port p
    let cur := x.drrQ
    let stay := match s.headFrame p cur with
      | none => false
      | some f => s.canSend p cur true &&
          (f.started || decide (frameCells f.hdr.len * 640 ≤ x.deficit.lookD cur 0))
    if stay then some (cur, false)
    else
      match (drrOrder cur).find? (fun q => s.canSend p q true) with
      | some q => some (q, true)
      | none => ([0, 1, 2].find? (fun q => s.canSend p q false)).map (fun q => (q, false))

/-- The bin of a value in a histogram of R324: below BASE, [BASE × 2^(k−1), BASE × 2^k), and the rest. -/
def histBin (base v : Nat) : Nat :=
  if v < base then 0 else min 15 (Nat.log2 (v / base) + 1)

/-- One more count in a bin, saturating at 32 bits. -/
def histAdd (h : List Nat) (bin : Nat) : List Nat :=
  (List.range 16).map (fun i => if i = bin then min (h.getD i 0 + 1) (2 ^ 32 - 1) else h.getD i 0)

/-- A cell of queue `q` leaves; the first one starts the frame, taking its bytes from c, a frame counter and its delay (R317, R322,
R324). -/
def State.sendCell (s : State) (p q : Nat) (moved : Bool) : State :=
  match (s.port p).queues.lookD q [] with
  | [] => s
  | f :: rest =>
    let cells := frameCells f.hdr.len
    let starting := !f.started
    let x := s.port p
    let ctl : CellCtl := ⟨x.seqTx, q, starting, decide (f.left = 1), false⟩
    let x := if moved then
        let left := if (x.queues.lookD x.drrQ []).isEmpty then x.deficit.del x.drrQ else x.deficit
        { x with drrQ := q, deficit := left.put q (left.lookD q 0 + s.qQuantum p q) }
      else x
    let x := if starting then
        { x with
          credit := if s.qRate p q = 0 then x.credit else x.credit.put q (s.qCredit p q - (80 * (cells * 640) : Nat))
          deficit := if q < 3 then x.deficit else x.deficit.put q (x.deficit.lookD q 0 - cells * 640) }
      else x
    let fs := if f.left ≤ 1 then rest else { f with left := f.left - 1 } :: rest
    let x := { x with
      queues := x.queues.put q fs
      avail := x.avail.put q (x.avail.lookD q 0 - 1)
      retryBuf := x.retryBuf ++ [ctl]
      seqTx := (x.seqTx + 1) % 8192 }
    let s := (s.setPort p x).count .lnkQIss (p * 16 + q) 1
    let s := if f.left ≤ 1 then s.wr .lnkQDepth (p * 16 + q) (s.rd .lnkQDepth (p * 16 + q) - BitVec.ofNat 64 f.hdr.len) else s
    let s := if starting then
        (s.count .lnkPortCounter p 1).onLnk (fun l =>
          { l with delay := l.delay.put (p, q) (histAdd (l.delay.lookD (p, q) []) (histBin 100 (s.now - f.at_))) })
      else s
    s.send (.cell p ctl)

/-- `CELL_BOUNDARY_SERVICE`: cells asked for again go first; otherwise the scheduler serves a queue. A full retry buffer, or COUNTER at
2^40, leaves control cells only (R315, R319, R322). -/
def execCellBoundaryService (p : Nat) (s : State) : Ans :=
  s.whenLive (if s.portSt p = 5 then
    let s := s.growCredit p
    let x := s.port p
    match x.resend with
    | c :: rest => (s.updPort p (fun x => { x with resend := rest })).send (.cell p c)
    | [] =>
      if 4096 ≤ x.retryBuf.length then s
      else if s.suite p = 1 && decide (2 ^ 40 ≤ (s.rd .lnkPortCounter p).toNat) then s.raise Evt.lnk_rekeyLate
      else
        match s.pickQueue p with
        | none => s
        | some (q, moved) => s.sendCell p q moved
  else s)

/-- A queue's bytes go into its depth histogram. -/
def State.sampleDepth (s : State) (p q : Nat) : State :=
  let bin := histBin 1024 (s.rd .lnkQDepth (p * 16 + q)).toNat
  s.onLnk (fun l => { l with depth := l.depth.put (p, q) (histAdd (l.depth.lookD (p, q) []) bin) })

/-- `QUEUE_DEPTH_SAMPLE`: each queue's bytes go into its depth histogram (R324). -/
def execQueueDepthSample (s : State) : Ans :=
  s.whenLive ((List.range 22).foldl (fun s p => (List.range 16).foldl (fun s q => s.sampleDepth p q) s) s)

/-- The histogram `LNK_HIST_SEL` chooses (Table 13-16, R133). -/
def State.histOf (s : State) (kind port q cust : Nat) : List Nat :=
  match kind with
  | 1 => s.lnk.delay.lookD (port, q) []
  | 2 => s.lnk.ttft.lookD cust []
  | 3 => s.lnk.tbt.lookD cust []
  | _ => s.lnk.depth.lookD (port, q) []

/-- The links with that histogram cleared. -/
def Lnk.clearHist (l : Lnk) (kind port q cust : Nat) : Lnk :=
  match kind with
  | 1 => { l with delay := l.delay.del (port, q) }
  | 2 => { l with ttft := l.ttft.del cust }
  | 3 => { l with tbt := l.tbt.del cust }
  | _ => { l with depth := l.depth.del (port, q) }

/-- `HIST_SEL_WRITE`: the chosen histogram is copied into `LNK_HIST_DATA`, and its source cleared when CLEAR is set (R324). -/
def execHistSelWrite (rq : Requester) (v : Word) (s : State) : Ans :=
  .next (s.cfgWrite rq .lnkHistSel 0 (s.isModule rq) (fun s =>
    let s := s.rwWrite .lnkHistSel 0 v
    let k := s.fld Fld.lnkHistSel_kind
    let kind := if k < 4 then k else 0
    let pr := s.fld Fld.lnkHistSel_port
    let port := if pr < 22 then pr else 0
    let q := s.fld Fld.lnkHistSel_queue
    let cust := s.fld Fld.lnkHistSel_customer
    let h := s.histOf kind port q cust
    let s := (List.range 8).foldl (fun s n => s.wr .lnkHistData n (BitVec.ofNat 64 (h.getD (2 * n) 0 + h.getD (2 * n + 1) 0 * 2 ^ 32))) s
    if s.fld Fld.lnkHistSel_clear = 1 then s.onLnk (fun l => l.clearHist kind port q cust) else s))

/-! ### Gates (R325) -/

/-- The shadow list: LEN + 1 entries of OPEN and DURATION. -/
def State.shadowGates (s : State) (p : Nat) : List (Nat × Nat) :=
  (List.range (s.fld Fld.lnkGateCfg_len p + 1)).map (fun n =>
    (s.fld Fld.lnkGateEnt_open (p * 256 + n), s.fld Fld.lnkGateEnt_duration (p * 256 + n)))

/-- A list is valid when its cycle lies between 100 µs and 10 ms, in units of 10 ns. -/
def gatesValid (g : List (Nat × Nat)) : Bool :=
  let c := (g.map (·.2)).sum
  decide (10000 ≤ c) && decide (c ≤ 1000000)

/-- A swap is refused: ERR and GATE_ERR, and SWAP reads 0 again. -/
def State.gateRefuse (s : State) (p : Nat) : State :=
  ((s.setFld Fld.lnkGateStatus_err p 1).setFld Fld.lnkGateCfg_swap p 0).raise Evt.lnk_gateErr

/-- `GATE_SWAP_REQUEST`: a write of `LNK_GATE_CFG`; SWAP checks the shadow list (R325). -/
def execGateSwapRequest (rq : Requester) (p : Nat) (v : Word) (s : State) : Ans :=
  .next (if p < 22 then
    s.cfgWrite rq .lnkGateCfg p (s.isModule rq) (fun s =>
      let s := s.rwWrite .lnkGateCfg p v
      if s.fld Fld.lnkGateCfg_swap p = 1 && !(gatesValid (s.shadowGates p)) then s.gateRefuse p
      else if s.fld Fld.lnkGateCfg_swap p = 1 then s.updPort p (fun x => { x with swap := some (s.shadowGates p) })
      else s)
  else s)

/-- `GATE_SWAP`: at a cycle start the shadow list that was checked becomes the active one (R325). -/
def execGateSwap (p : Nat) (s : State) : Ans :=
  s.whenLive (match (s.port p).swap with
    | none => s
    | some g =>
      if gatesValid g then
        let w := (s.rd .lnkGateStatus p).toNat
        let cyc := (g.map (·.2)).sum
        let s := s.wr .lnkGateStatus p (BitVec.ofNat 64 ((w + 1) % 2 + cyc * 4))
        (s.setFld Fld.lnkGateCfg_swap p 0).updPort p (fun x => { x with gates := g, swap := none })
      else (s.gateRefuse p).updPort p (fun x => { x with swap := none }))

/-! ### Frames received (R314, R317, R318, R323) -/

/-- One more frame that failed authentication, in `LNK_PORT_ERR`. -/
def State.countAuthFail (s : State) (p : Nat) : State := s.countSat Fld.lnkPortErr_authFail p 1

/-- The receiver accepts a frame under suite 1 only in a current or previous epoch with a COUNTER above the last one and below 2^40
(R317, R319). -/
def State.authOk (s : State) (p : Nat) (h : FrameHdr) : Bool :=
  decide (s.suite p = 0) ||
  ((decide (h.epoch = s.rxEpoch p) || ((s.port p).oldRx && decide (h.epoch + 1 = s.rxEpoch p))) &&
   decide (h.counter < 2 ^ 40) &&
   (match (s.port p).lastCtr.look h.epoch with
    | none => true
    | some c => decide (c < h.counter)))

/-- The cells of a received frame are freed, to be returned as credits (R316). -/
def State.freeRx (s : State) (p q len : Nat) : State :=
  let n := frameCells len
  let used := (s.rd .lnkQRxuse (p * 16 + q)).toNat
  (s.wr .lnkQRxuse (p * 16 + q) (BitVec.ofNat 64 (used - n))).updPort p (fun x =>
    { x with freed := x.freed.put q (x.freed.lookD q 0 + n), freedAt := x.freedAt.put q (x.freedAt.lookD q s.now) })

/-- The context bucket of a Sinil connection takes the frame's bytes (R323): the state, and the deficit in 1/1000 bytes when it was
negative. -/
def State.police (s : State) (p conn len : Nat) : State × Nat × Nat :=
  match s.sec.conns.look (p, conn) with
  | none => (s, 0, 0)
  | some k => match k.bound with
    | some (.ctx n) =>
      let rate := s.fld Fld.lnkPolice_rate n
      if rate = 0 then (s, 0, 0)
      else
        let burst : Int := (s.fld Fld.lnkPolice_burstKib n * 1024 * 1000 : Nat)
        let b := s.lnk.police.lookD n (burst, s.now)
        let c := min burst (b.1 + (rate * (s.now - b.2) : Nat))
        let s := s.onLnk (fun l => { l with police := l.police.put n (c - (len * 1000 : Nat), s.now) })
        (s, (-c).toNat, rate)
    | _ => (s, 0, 0)

/-- The message stream of a queue takes a frame's payload; the last frame hands the message on (R314). -/
def State.takePayload (s : State) (p : Nat) (h : FrameHdr) (payload : List Byte) : State :=
  let k := (h.queue, h.conn)
  let m := if h.first then RxMsg.mk h.msg h.conn [] false else (s.port p).rx.lookD k (RxMsg.mk h.msg h.conn [] true)
  let m := { m with bytes := if m.dropping then [] else m.bytes ++ payload }
  if h.last then
    let s := s.updPort p (fun x => { x with rx := x.rx.del k })
    if m.dropping then s else s.send (.message p h.queue h.conn m.bytes)
  else s.updPort p (fun x => { x with rx := x.rx.put k m })

/-- `FRAME_RECEIVE`: a frame is authenticated, policed on Sinil ports, and joins its queue's stream (R317, R323). -/
def execFrameReceive (p : Nat) (h : FrameHdr) (payload : List Byte) (s : State) : Ans :=
  s.whenLive (if s.portSt p = 5 && h.queue < 16 && decide (payload.length = h.len) && decide (1 ≤ h.len) && decide (h.len ≤ 4432) then
    let s := s.freeRx p h.queue h.len
    if !(s.authOk p h) then s.countAuthFail p
    else
      let s := s.updPort p (fun x => { x with
        lastCtr := if s.suite p = 0 then x.lastCtr else x.lastCtr.put h.epoch h.counter
        tagFails := x.tagFails.filter (fun t => decide (t ≠ (h.queue, h.msg, h.offset))) })
      if 20 ≤ p then
        let r := s.police p h.conn h.len
        let s := r.1
        if 3 ≤ h.queue && 0 < r.2.1 then
          let wait := max 10000 (r.2.1 / max 1 r.2.2)
          let ctx := match s.sec.conns.look (p, h.conn) with
            | some k => (match k.bound with | some (.ctx n) => n | _ => 0)
            | none => 0
          let la := s.retryAfter ctx 1 ladderFast ((wait + 999) / 1000)
          let s := la.1.updPort p (fun x => { x with rx := x.rx.put (h.queue, h.conn) (RxMsg.mk h.msg h.conn [] true) })
          let s := if h.last then s.updPort p (fun x => { x with rx := x.rx.del (h.queue, h.conn) }) else s
          (s.send (.policed p h.conn (la.2 * 1000))).raise Evt.lnk_policeDrop
        else s.takePayload p h payload
      else s.takePayload p h payload
  else s)

/-- `FRAME_TAG_FAIL`: the frame is discarded and its cells asked for once more; a second failure sets AUTH_FAIL and retrains the port with
KEYS again (R318). -/
def execFrameTagFail (p : Nat) (h : FrameHdr) (s : State) : Ans :=
  s.whenLive (if s.portSt p = 5 then
    let k := (h.queue, h.msg, h.offset)
    let used := (s.rd .lnkQRxuse (p * 16 + h.queue % 16)).toNat
    let s := (s.wr .lnkQRxuse (p * 16 + h.queue % 16) (BitVec.ofNat 64 (used - frameCells h.len))).countAuthFail p
    if (s.port p).tagFails.contains k then
      ((s.updPort p (fun x => { x with tagFails := x.tagFails.filter (fun t => decide (t ≠ k)) })).raise Evt.lnk_authFail).toRetrain p true
    else
      let seq := ((s.port p).seqRx + 8192 - frameCells h.len) % 8192
      (s.updPort p (fun x => { x with tagFails := k :: x.tagFails, seqRx := seq, discardTo := some seq })).send (.retryCell p seq)
  else s)

end Sys2Proof.Machine
end

