-- ==== Sys2Proof/Machine/Sec.lean ====
section
/-! DEFINITION. Contexts, MRAM records, XMSS^MT signatures, keys, floors, Sinil bindings, SPDM, IDE and TDISP (R329 to R352). -/

namespace Sys2Proof.Machine

/-! ### MRAM (R340) and the identity (R341, R342) -/

/-- An MRAM whose records are blank (DESIGN CHOICE, log 8). -/
def Mram.blank : Mram :=
  { nextRes := 0, fwFloor := 0, keyFloor := 0, ctxFloors := .empty, ctxRecs := .empty, repairs := .empty, prefer := none, owner := none,
    chgSetCv := 5200 }

/-- The MRAM of hub `h`. -/
def State.mram (s : State) (h : Nat) : Mram := s.sec.mram.lookD h Mram.blank

/-- A record can be written: at least two hubs acknowledge (R340). -/
def State.mramQuorum (s : State) : Bool := decide (2 ≤ s.hubsUp.length)

/-- A record written to the MRAM of every hub in service (R340). -/
def State.mramWrite (s : State) (f : Mram → Mram) : State :=
  s.hubsUp.foldl (fun s h => s.onSec (fun x => { x with mram := x.mram.put h (f (x.mram.lookD h Mram.blank)) })) s

/-- The largest value of a monotone record among the copies (R340). -/
def State.mramMax (s : State) (f : Mram → Nat) : Nat := s.hubsUp.foldl (fun m h => max m (f (s.mram h))) 0

/-- ID_STATE and MRAM_COPIES of `SEC_STATUS` as they stand (Table 14-10). -/
def State.refreshId (s : State) : State :=
  let left := 2 ^ 40 - s.sec.next
  let st := if !s.mramQuorum then 3 else if left = 0 then 2 else if left < 2 ^ 30 then 1 else 0
  let copies := s.hubsUp.foldl (fun n h => n + 2 ^ h) 0
  (s.setFld Fld.secStatus_idState 0 st).setFld Fld.secStatus_mramCopies 0 copies

/-- One signature with the identity key (R342): the reservation is written first where NEXT has reached it; refused without a quorum
or once the identity is exhausted. Answers whether a signature was made. -/
def State.xmssSign (s : State) : State × Bool :=
  if !s.mramQuorum then (s.refreshId, false)
  else if 2 ^ 40 ≤ s.sec.next then ((s.refreshId).raise Evt.sec_idExhausted, false)
  else
    let res := (s.rd .secXmssRes).toNat
    let s := if s.sec.next = res then
        (s.mramWrite (fun m => { m with nextRes := res + 1024 })).wr .secXmssRes 0 (BitVec.ofNat 64 ((res + 1024) % 2 ^ 40))
      else s
    let n := s.sec.next + 1
    let s := (s.onSec (fun x => { x with next := n })).wr .secXmssNext 0 (BitVec.ofNat 64 (n % 2 ^ 40))
    let s := s.refreshId
    let s := if 2 ^ 40 - n < 2 ^ 30 && !(decide (2 ^ 40 - (n - 1) < 2 ^ 30)) then s.raise Evt.sec_idLow else s
    let s := if n = 2 ^ 40 then s.raise Evt.sec_idExhausted else s
    (s, true)

/-- `KEYS_DONE`: the key exchange of a port completes under a signature of the controller, or fails (R339, R342, Table 13-2). Suite 0
needs none. A port that ran KEYS again after a tag failure goes back to UP, keeping its credits (R318). -/
def execKeysDone (p : Nat) (ok : Bool) (s : State) : Ans :=
  s.whenLive (if s.portSt p = 3 then
    if s.suite p = 0 then (s.freshKeys p).portTo p 4
    else
      let r := s.xmssSign
      if ok && r.2 then
        let again := (s.port p).rekeys
        ((r.1.freshKeys p).updPort p (fun x => { x with rekeys := false })).portTo p (if again then 5 else 4)
      else ((r.1.updPort p (fun x => { x with rekeys := false })).refusePort p 6).raise Evt.sec_keysFail
  else if s.portSt p = 5 && (s.port p).rekeying && decide (s.txEpoch p = 2 ^ 32 - 1) then
    let r := s.xmssSign
    if ok && r.2 then r.1.freshKeys p else r.1.raise Evt.sec_keysFail
  else s)

/-! ### Contexts (R329 to R331) -/

/-- Context `n`, if it is not FREE. -/
def State.ctx (s : State) (n : Nat) : Option Ctx := s.sec.ctxs.look n

/-- The published registers of a context follow its record (Tables 14-9 and 14-14). -/
def State.publishCtx (s : State) (n : Nat) (r : CtxRec) : State :=
  let quiet := bit r.flags 2
  let tdi := s.fld Fld.secCtxState_tdi n
  let w := r.state + (if bit r.flags 0 then 4 else 0) + (if bit r.flags 1 then 8 else 0) + (if quiet then 16 else 0) +
    r.hosts % 4 * 32 + (if quiet then r.qt % 32 * 128 else 0) + tdi * 4096
  ((s.wr .secCtxTenant n r.tenant).wr .secCtxState n (BitVec.ofNat 64 w)).wr .secCtxQuiet n
    (if quiet then BitVec.ofNat 64 (r.qstacks % 2 ^ 24 + r.qchannels % 2 ^ 32 * 2 ^ 24 + r.qgroups % 2 ^ 8 * 2 ^ 56) else 0)

/-- A context's record is written to MRAM with the next sequence number, and published (R331, R340). -/
def State.saveCtx (s : State) (n : Nat) (c : Ctx) : State :=
  let c := { c with record := { c.record with seq := c.record.seq + 1 } }
  let s := s.onSec (fun x => { x with ctxs := x.ctxs.put n c })
  (s.mramWrite (fun m => { m with ctxRecs := m.ctxRecs.put n c.record })).publishCtx n c.record

/-- A context leaves its index: record erased, registers as for a FREE index (R329, R336). -/
def State.freeCtx (s : State) (n : Nat) : State :=
  let s := s.onSec (fun x => { x with ctxs := x.ctxs.del n })
  let s := s.mramWrite (fun m => { m with ctxRecs := m.ctxRecs.del n, ctxFloors := m.ctxFloors.del n })
  ((((s.wr .secCtxTenant n 0).wr .secCtxState n 0).wr .secCtxQuiet n 0).wr .secCtxFloor n 0).wr .secCtxJobkeys n 0

/-- ASCII "KCONTEXT" as a little-endian number. -/
def magicContext : Nat := leNat [0x4B, 0x43, 0x4F, 0x4E, 0x54, 0x45, 0x58, 0x54]
/-- ASCII "confirm". -/
def labelConfirm : List Byte := [0x63, 0x6F, 0x6E, 0x66, 0x69, 0x72, 0x6D]

/-- All bytes are zero. -/
def allZero (bs : List Byte) : Bool := bs.all (fun b => decide (b = 0))

/-- Number of one bits below bit 32. -/
def ones32 (v : Nat) : Nat := ((List.range 32).filter (fun i => bit v i)).length

/-- The record an install descriptor asks for (Table 14-2). -/
def installRec (d : List Byte) : CtxRec :=
  { seq := 0, state := 1, discard := false, tenant := BitVec.ofNat 64 (leAt d 0x08 8), flags := leAt d 0x10 4, hosts := leAt d 0x18 1,
    control := (List.range (leAt d 0x19 1)).map (fun i => takeAt d (0x680 + 1952 * i) 1952),
    images := (List.range (leAt d 0x1A 1)).map (fun i => takeAt d (0x15C0 + 1952 * i) 1952),
    qt := leAt d 0x1B 1, qstacks := leAt d 0x1C 4, qchannels := leAt d 0x20 4, qgroups := leAt d 0x24 1,
    secret := some (Config.kemDecap (takeAt d 0x40 1568)) }

/-- Check 1 of R330: MAGIC, reserved bytes and ranges. -/
def installForm (d : List Byte) : Bool :=
  let flags := leAt d 0x10 4
  let quiet := bit flags 2
  decide (leAt d 0 8 = magicContext) && decide (flags < 16) && decide (leAt d 0x18 1 < 4) &&
  decide (1 ≤ leAt d 0x19 1) && decide (leAt d 0x19 1 ≤ 2) && decide (1 ≤ leAt d 0x1A 1) && decide (leAt d 0x1A 1 ≤ 4) &&
  decide (leAt d 0x1C 4 < 2 ^ 24) && (!quiet || (decide (1 ≤ leAt d 0x1B 1) && decide (leAt d 0x1B 1 ≤ 16) &&
    decide (4 ≤ ones32 (leAt d 0x20 4)))) &&
  allZero (takeAt d 0x25 27) && allZero (takeAt d 0x3440 (0x4000 - 0x3440))

/-- The resources quiet contexts other than `n` hold: Tellers per hub, stacks, channels, groups. -/
def State.quietHeld (s : State) (n : Nat) : Nat × Nat × Nat × Nat :=
  s.sec.ctxs.rows.foldl (fun a p =>
    if p.1 ≠ n && bit p.2.record.flags 2 && p.2.record.state ≠ 3 then
      (a.1 + p.2.record.qt, a.2.1 ||| p.2.record.qstacks, a.2.2.1 ||| p.2.record.qchannels, a.2.2.2 ||| p.2.record.qgroups)
    else a) (0, 0, 0, 0)

/-- Check 6 of R330: the quiet resources asked for are free, and within the limits of R350. -/
def State.quietFree (s : State) (n : Nat) (r : CtxRec) : Bool :=
  if bit r.flags 2 then
    let h := s.quietHeld n
    decide (h.1 + r.qt ≤ 64) && decide (h.2.1 &&& r.qstacks = 0) && decide (h.2.2.1 &&& r.qchannels = 0) &&
    decide (h.2.2.2 &&& r.qgroups = 0) && decide (ones32 r.qstacks ≤ 8) && decide (ones32 r.qchannels ≤ 16) && decide (ones32 r.qgroups ≤ 4)
  else true

/-- The Tellers a quiet context holds on each hub: the lowest ones no other quiet context holds (R350; DESIGN CHOICE, log 9). -/
def State.newTellers (s : State) (n : Nat) (r : CtxRec) : List Nat :=
  if bit r.flags 2 then
    let used : List Nat := s.sec.ctxs.rows.flatMap (fun p => if p.1 ≠ n && p.2.record.state ≠ 3 then p.2.tellers else [])
    ((List.range 64).filter (fun t => !(used.contains t))).take r.qt
  else []

/-- The index an install uses: the lowest FREE one, or with REINSTALL the lowest RESERVED one that holds TENANT (R330). -/
def State.installIndex (s : State) (r : CtxRec) : Option Nat :=
  (List.range 64).find? (fun n =>
    if bit r.flags 3 then decide (s.ctxState n = 3) && decide (s.rd .secCtxTenant n = r.tenant) else decide (s.ctxState n = 0))

/-- The first check of R330 that fails, by number. -/
def State.installCheck (s : State) (rq : Requester) (d : List Byte) : Nat :=
  let r := installRec d
  if !(installForm d) then 1
  else if !(s.isOperator rq) then 2
  else
    match s.installIndex r with
    | none => 3
    | some n =>
      if r.tenant = 0 || (List.range 64).any (fun k => k ≠ n && s.ctxState k ≠ 0 && decide (s.rd .secCtxTenant k = r.tenant)) then 4
      else if Config.shake256 (r.secret.getD [] ++ labelConfirm) 32 ≠ takeAt d 0x660 32 then 5
      else if !(s.quietFree n r) then 6
      else if !s.mramQuorum then 7
      else 0

/-- `SEC_CTX_STATUS` after an install or a retirement. -/
def State.ctxStatus (s : State) (index reason st : Nat) : State :=
  s.wr .secCtxStatus 0 (BitVec.ofNat 64 (index % 64 + reason * 2 ^ 8 + st * 2 ^ 16))

/-- `CTX_INSTALL`: the descriptor is checked in order; the first failing check is recorded, or the context becomes RESIDENT (R330).
Before service opens no context is resident (R331), and the write is refused with cause 3 (DEDUCED, log 82). -/
def execCtxInstall (rq : Requester) (v : Word) (s : State) : Ans :=
  .next (s.woWrite rq .secCtxInstall 0 true (low6 v) (fun s =>
    if s.fld Fld.glbStatus_service = 0 then s.discardAccess rq (Reg.offset .secCtxInstall 0) 3
    else
    let d := s.bytesAt (keyHub v.toNat) 0x4000
    let r := installRec d
    let c := s.installCheck rq d
    let n := (s.installIndex r).getD 0
    if c ≠ 0 then (s.ctxStatus (bits (s.rd .secCtxStatus).toNat 0 6) c 3).raise Evt.sec_installRefused
    else
      let floor := max (leAt d 0x14 4) (if bit r.flags 3 then s.mramMax (fun m => m.ctxFloors.lookD n 0) else 0)
      let old := s.ctx n
      let epochs := match old with
        | some o => o.jobEpochs
        | none => Tbl.empty
      let seq := match old with
        | some o => o.record.seq
        | none => 0
      let s := s.saveCtx n { record := { r with seq := seq }, sweepStep := 0, jobEpochs := epochs, jobKeys := .empty, tellers := s.newTellers n r }
      let s := (s.mramWrite (fun m => { m with ctxFloors := m.ctxFloors.put n floor })).wr .secCtxFloor n (BitVec.ofNat 64 floor)
      (s.ctxStatus n 0 2).raise Evt.sec_installDone))

/-- `CTX_FLOOR_WRITE`: the context or the operator raises an image-rollback floor; a lower value is ignored (R344). -/
def execCtxFloorWrite (rq : Requester) (n : Nat) (v : Word) (s : State) : Ans :=
  .next (if n < 64 then
    s.cfgWrite rq .secCtxFloor n (s.actsFor rq n || s.isOperator rq) (fun s =>
      let f := v.toNat % 2 ^ 32
      if (s.rd .secCtxFloor n).toNat < f && s.mramQuorum && s.ctxState n ≠ 0 then
        (s.mramWrite (fun m => { m with ctxFloors := m.ctxFloors.put n f })).wr .secCtxFloor n (BitVec.ofNat 64 f)
      else s)
  else s)

/-- `OWNER_KEY_WRITE`: an operator key is installed while none is, or by the current operator (R332). -/
def execOwnerKeyWrite (rq : Requester) (v : Word) (s : State) : Ans :=
  .next (s.woWrite rq .secOwner 0 (decide (s.fld Fld.secStatus_owned = 0) || s.isOperator rq) (low6 v) (fun s =>
    let k := s.bytesAt (keyHub v.toNat) 1952
    (s.mramWrite (fun m => { m with owner := some k })).setFld Fld.secStatus_owned 0 1))

/-- `JOBKEY_LOAD`: the job key of a block is loaded into its slot, whose epoch rises by one (R339). -/
def execJobkeyLoad (rq : Requester) (v : Word) (s : State) : Ans :=
  let d := s.bytesAt (keyHub v.toNat) 1616
  let n := leAt d 0 1
  let k := leAt d 1 1
  .next (s.woWrite rq .secJobkey 0 (n < 64 && s.actsFor rq n) (low6 v) (fun s =>
    let secret := Config.kemDecap (takeAt d 16 1568)
    match s.ctx n with
    | none => s
    | some c =>
      if s.resident n && k < 16 && allZero (takeAt d 2 14) &&
          decide (Config.shake256 (secret ++ labelConfirm) 32 = takeAt d 1584 32) then
        let c := { c with jobEpochs := c.jobEpochs.put k (c.jobEpochs.lookD k 0 + 1), jobKeys := c.jobKeys.put k secret }
        (s.onSec (fun x => { x with ctxs := x.ctxs.put n c })).wr .secCtxJobkeys n
          (s.rd .secCtxJobkeys n ||| BitVec.ofNat 64 (2 ^ k))
      else s))

/-! ### Firmware floors (R343, R392) -/

/-- A commit ends a trial: the running slot becomes the preferred one (R392). -/
def State.endTrial (s : State) : State :=
  let s := s.mramWrite (fun m => { m with prefer := if s.boot.slot < 2 then some s.boot.slot else none })
  if s.fld Fld.glbStatus_trial = 1 then (s.setFld Fld.glbStatus_trial 0 0).raise Evt.glb_fwTrialEnd else s

/-- `FW_FLOOR_COMMIT`: bit 0 raises FW_FLOOR to the running SVN (R343). -/
def execFwFloorCommit (rq : Requester) (v : Word) (s : State) : Ans :=
  .next (s.woWrite rq .secFwCommit 0 (s.isModule rq) 0 (fun s =>
    if bit v.toNat 0 && s.mramQuorum then
      let f := max (s.fld Fld.secFw_fwFloor) (s.fld Fld.secFw_svn)
      ((s.mramWrite (fun m => { m with fwFloor := f })).setFld Fld.secFw_fwFloor 0 f).endTrial
    else s))

/-- `KEY_FLOOR_COMMIT`: bit 1 raises KEY_FLOOR to the running key index (R343). -/
def execKeyFloorCommit (rq : Requester) (v : Word) (s : State) : Ans :=
  .next (s.woWrite rq .secFwCommit 0 (s.isModule rq) 0 (fun s =>
    if bit v.toNat 1 && s.mramQuorum then
      let f := max (s.fld Fld.secFw_keyFloor) (s.fld Fld.secFw_keyIndex)
      ((s.mramWrite (fun m => { m with keyFloor := f })).setFld Fld.secFw_keyFloor 0 f).endTrial
    else s))

/-! ### Sinil bindings (R332) -/

/-- `n` fresh free bytes. -/
def State.freshBytes (s : State) (n : Nat) : List Byte := (List.range n).map (Config.freeByte s.freeCtr)

/-- `SINIL_BIND`: a signature over a fresh 32-byte challenge and the connection number binds the connection (R332). Until service
opens, only the operator is bound (R383). -/
def execSinilBind (port conn : Nat) (tgt : BindTo) (sig : List Byte) (s : State) : Ans :=
  s.whenLive (let msg := s.freshBytes 32 ++ natLe 4 conn
    let s := s.bump
    let keys := match tgt with
      | .operator => (s.hubsUp.filterMap (fun h => (s.mram h).owner)).take 1
      | .ctx n => match s.ctx n with
        | some c => if s.resident n && s.fld Fld.glbStatus_service = 1 then c.record.control else []
        | none => []
    let free := match s.sec.conns.look (port, conn) with
      | some k => k.bound.isNone
      | none => true
    let ok := free && keys.any (fun k => Config.mlDsa65Verify k msg sig)
    let s := if ok then s.onSec (fun x => { x with conns := x.conns.put (port, conn) { bound := some tgt } }) else s
    s.send (.bindAnswer port conn ok))

/-! ### SPDM (R345, R346). Response codes are those of SPDM 1.3 (PRESUMED, log 11). -/

/-- A responder before GET_VERSION. -/
def Spdm.idle : Spdm := { minor := none, caps := false, algs := false, sessions := [], nextId := 1 }

/-- The transport may carry SPDM: DOE while Q1 is in service, or an operator connection (Table 14-6). -/
def State.spdmOpen (s : State) (t : SpdmPath) : Bool :=
  match t with
  | .doe => s.hostUp
  | .sinil p c => s.isOperator (.sinil p c)

/-- The responder of a transport. -/
def State.spdm (s : State) (t : SpdmPath) : Spdm := s.sec.spdm.lookD t Spdm.idle

/-- Replace the responder of a transport. -/
def State.setSpdm (s : State) (t : SpdmPath) (x : Spdm) : State := s.onSec (fun k => { k with spdm := k.spdm.put t x })

/-- An SPDM ERROR answer. -/
def State.spdmError (s : State) (t : SpdmPath) : State := s.send (.spdm t 0x7F [])

/-- An SPDM request that needs `ready` of the responder: answered with ERROR otherwise. -/
def State.spdmReq (s : State) (t : SpdmPath) (ready : Spdm → Bool) (k : Spdm → State → State) : State :=
  if s.spdmOpen t then (if ready (s.spdm t) then k (s.spdm t) s else s.spdmError t) else s

/-- Negotiation is complete. -/
def Spdm.ready (x : Spdm) : Bool := x.minor.isSome && x.caps && x.algs

/-- `GET_VERSION`: versions 1.2 and 1.3; a new negotiation begins. -/
def execGetVersion (t : SpdmPath) (s : State) : Ans :=
  s.whenLive (s.spdmReq t (fun _ => true) (fun x s =>
    (s.setSpdm t { x with minor := some 3, caps := false, algs := false }).send (.spdm t 0x04 [0x12, 0x13])))

/-- `GET_CAPABILITIES`: the capabilities of Table 14-6 at SPDM 1.2 or 1.3. -/
def execGetCapabilities (t : SpdmPath) (minor : Nat) (s : State) : Ans :=
  s.whenLive (s.spdmReq t (fun x => x.minor.isSome && (decide (minor = 2) || decide (minor = 3))) (fun x s =>
    (s.setSpdm t { x with minor := some minor, caps := true }).send (.spdm t 0x61 (natLe 1 minor))))

/-- `NEGOTIATE_ALGORITHMS`: the partner must offer the extended asymmetric algorithm, SHA3-384, secp384r1 and AES-256-GCM. -/
def execNegotiateAlgorithms (t : SpdmPath) (extAsym hash dhe aead : Bool) (s : State) : Ans :=
  s.whenLive (s.spdmReq t (fun x => x.caps && extAsym && hash && dhe && aead) (fun x s =>
    (s.setSpdm t { x with algs := true }).send (.spdm t 0x63 [])))

/-- `GET_DIGESTS`: slot 0 only. -/
def execGetDigests (t : SpdmPath) (s : State) : Ans :=
  s.whenLive (s.spdmReq t Spdm.ready (fun _ s => s.send (.spdm t 0x01 (1 :: Config.sha3 Config.certChain))))

/-- `GET_CERTIFICATE`: a portion of the slot 0 chain; other slots are empty. -/
def execGetCertificate (t : SpdmPath) (slot offset len : Nat) (s : State) : Ans :=
  s.whenLive (s.spdmReq t (fun x => x.ready && decide (slot = 0)) (fun _ s =>
    s.send (.spdm t 0x02 ((Config.certChain.drop offset).take len))))

/-- `CHALLENGE`: answered with an XMSS^MT signature, or with ERROR where none can be made (R342). -/
def execChallenge (t : SpdmPath) (slot : Nat) (nonce : List Byte) (s : State) : Ans :=
  s.whenLive (s.spdmReq t (fun x => x.ready && decide (slot = 0)) (fun _ s =>
    let r := s.xmssSign
    if r.2 then r.1.send (.spdm t 0x03 nonce) else r.1.spdmError t))

/-- A measurement block (Table 14-7): digests, and the raw block 3. -/
def State.measurement (s : State) (i : Nat) : List Byte :=
  match i with
  | 1 => Config.sha3 Config.romBlock
  | 2 => Config.sha3 (natLe 8 s.boot.digest.toNat)
  | 3 => natLe 2 (s.fld Fld.secFw_svn) ++ natLe 2 (s.fld Fld.secFw_fwFloor) ++ natLe 1 (s.fld Fld.secFw_keyIndex) ++
      natLe 1 (s.fld Fld.secFw_keyFloor)
  | 4 => Config.sha3 (natLe 8 (s.rd .secQuietCfg).toNat ++ natLe 8 (s.rd .lnkCfg).toNat ++
      (List.range 22).flatMap (fun p => natLe 1 (s.suite p)))
  | _ => Config.sha3 ((List.range 64).flatMap (fun n => natLe 8 (s.rd .secCtxState n).toNat ++ natLe 8 (s.rd .secCtxTenant n).toNat ++
      natLe 8 (s.rd .secCtxQuiet n).toNat ++ natLe 8 (s.rd .secCtxFloor n).toNat))

/-- `GET_MEASUREMENTS`: one block of Table 14-7, or with index 0xFF all of them, signed on request (R346). -/
def execGetMeasurements (t : SpdmPath) (index : Nat) (signed : Bool) (s : State) : Ans :=
  s.whenLive (s.spdmReq t (fun x => x.ready && ((decide (1 ≤ index) && decide (index ≤ 5)) || decide (index = 0xFF))) (fun _ s =>
    let body := if index = 0xFF then [1, 2, 3, 4, 5].flatMap s.measurement else s.measurement index
    if signed then
      let r := s.xmssSign
      if r.2 then r.1.send (.spdm t 0x60 body) else r.1.spdmError t
    else s.send (.spdm t 0x60 body)))

/-- `KEY_EXCHANGE`: a session is opened under a signature; a fifth on the transport is answered with ERROR (Table 14-6). -/
def execKeyExchange (t : SpdmPath) (reqId : Nat) (s : State) : Ans :=
  s.whenLive (s.spdmReq t (fun x => x.ready && decide (x.sessions.length < 4)) (fun x s =>
    let r := s.xmssSign
    if r.2 then
      (r.1.setSpdm t { x with sessions := x.sessions ++ [(x.nextId, false, 0)], nextId := x.nextId + 1 }).send
        (.spdm t 0x64 (natLe 2 reqId ++ natLe 2 x.nextId))
    else r.1.spdmError t))

/-- The session number names an open session; `full`: one that FINISH has completed. -/
def Spdm.has (x : Spdm) (sid : Nat) (full : Bool) : Bool :=
  x.sessions.any (fun k => decide (k.1 = sid) && (k.2.1 || !full))

/-- `FINISH`: session establishment completes, or the session is closed. -/
def execFinish (t : SpdmPath) (sid : Nat) (ok : Bool) (s : State) : Ans :=
  s.whenLive (s.spdmReq t (fun x => x.has sid false) (fun x s =>
    if ok then
      (s.setSpdm t { x with sessions := x.sessions.map (fun k => if k.1 = sid then (k.1, true, k.2.2) else k) }).send (.spdm t 0x65 [])
    else (s.setSpdm t { x with sessions := x.sessions.filter (fun k => decide (k.1 ≠ sid)) }).spdmError t))

/-- `KEY_UPDATE`: operation 1 or 2 renews the session's keys, 3 verifies the new key. -/
def execKeyUpdate (t : SpdmPath) (sid op : Nat) (s : State) : Ans :=
  s.whenLive (s.spdmReq t (fun x => x.has sid true && decide (1 ≤ op) && decide (op ≤ 3)) (fun x s =>
    (s.setSpdm t { x with sessions := x.sessions.map (fun k =>
      if k.1 = sid then (k.1, k.2.1, if op < 3 then k.2.2 + 1 else k.2.2) else k) }).send (.spdm t 0x69 (natLe 1 op))))

/-- `HEARTBEAT` of a session. -/
def execHeartbeat (t : SpdmPath) (sid : Nat) (s : State) : Ans :=
  s.whenLive (s.spdmReq t (fun x => x.has sid true) (fun _ s => s.send (.spdm t 0x68 [])))

/-- `END_SESSION`: the session is closed. -/
def execEndSession (t : SpdmPath) (sid : Nat) (s : State) : Ans :=
  s.whenLive (s.spdmReq t (fun x => x.has sid true) (fun x s =>
    (s.setSpdm t { x with sessions := x.sessions.filter (fun k => decide (k.1 ≠ sid)) }).send (.spdm t 0x6C [])))

/-! ### IDE and TDISP (R347, R348) -/

/-- Streams of a head of one kind. -/
def State.ideCount (s : State) (head : Nat) (selective : Bool) : Nat :=
  s.sec.ide.countIf (fun k v => decide (k.1 = head) && decide (v.selective = selective))

/-- `IDE_KM`: keys of a stream are programmed inside a session: one link stream and up to 8 selective streams per head (R347). -/
def execIdeKm (t : SpdmPath) (sid head stream : Nat) (selective : Bool) (tdi : Option Nat) (s : State) : Ans :=
  s.whenLive (s.spdmReq t (fun x => x.has sid true && decide (head < 2) && !(s.sec.headsInsecure.contains head) &&
      ((s.sec.ide.look (head, stream)).isSome || decide (s.ideCount head selective < (if selective then 8 else 1)))) (fun _ s =>
    (s.onSec (fun k => { k with ide := k.ide.put (head, stream) ⟨selective, tdi, false⟩ })).send (.spdm t 0x7E [])))

/-- A context's TDI that is locked or running goes to ERROR (R348). -/
def State.tdiError (s : State) (n : Nat) : State :=
  if s.fld Fld.secCtxState_tdi n = 1 || s.fld Fld.secCtxState_tdi n = 2 then
    (s.setFld Fld.secCtxState_tdi n 3).raise Evt.sec_tdiError
  else s

/-- `IDE_INTEGRITY_FAIL`: the head becomes insecure and every TDI on it is in ERROR (R347). -/
def execIdeIntegrityFail (head stream : Nat) (s : State) : Ans :=
  s.whenLive (match s.sec.ide.look (head, stream) with
    | none => s
    | some x =>
      let s := s.onSec (fun k => { k with
        ide := k.ide.put (head, stream) { x with insecure := true }
        headsInsecure := if k.headsInsecure.contains head then k.headsInsecure else head :: k.headsInsecure })
      (s.sec.ide.rows.filter (fun r => decide (r.1.1 = head))).foldl (fun s r =>
        match r.2.tdi with
        | some n => s.tdiError n
        | none => s) s)

/-- `LOCK_INTERFACE_REQUEST`: accepted in CONFIG_UNLOCKED while the context is RESIDENT (R348). -/
def execLockInterfaceRequest (n : Nat) (s : State) : Ans :=
  s.whenLive (if s.resident n && s.fld Fld.secCtxState_tdi n = 0 then
    (s.setFld Fld.secCtxState_tdi n 1).send (.tdisp n 1 true)
  else s.send (.tdisp n (s.fld Fld.secCtxState_tdi n) false))

/-- `START_INTERFACE_REQUEST`: needs CONFIG_LOCKED and a selective IDE stream bound to the TDI (R348). -/
def execStartInterfaceRequest (n : Nat) (s : State) : Ans :=
  s.whenLive (if s.fld Fld.secCtxState_tdi n = 1 &&
      s.sec.ide.any (fun _ v => v.selective && decide (v.tdi = some n) && !v.insecure) then
    (s.setFld Fld.secCtxState_tdi n 2).send (.tdisp n 2 true)
  else s.send (.tdisp n (s.fld Fld.secCtxState_tdi n) false))

/-- `STOP_INTERFACE_REQUEST`: back to CONFIG_UNLOCKED, the function's queues swept (R348). -/
def execStopInterfaceRequest (n : Nat) (s : State) : Ans :=
  s.whenLive (if n < 64 then ((s.setFld Fld.secCtxState_tdi n 0).count .secSweeps 0 1).send (.tdisp n 0 true) else s)

end Sys2Proof.Machine
end

