-- ==== Sys2Proof/Machine/Fls.lean ====
section
/-! DEFINITION. The flash pool: channel negotiation, stripes and superblocks, the map and its journal, writes, reads and recovery, folding,
garbage collection, refresh, retirement, pool states and discards (R224 to R252). -/

namespace Sys2Proof.Machine

/-- Change the flash pool. -/
def State.onFls (s : State) (f : Fls → Fls) : State := { s with fls := f s.fls }

/-- STATE of a channel (Table 9-13): 0 absent, 1 in service, 2 refused, 3 failed. -/
def State.chanSt (s : State) (ch : Nat) : Nat := s.fld Fld.flsChStatus_state ch

/-- Channels in service. -/
def State.chansUp (s : State) : List Nat := (List.range 32).filter (fun c => s.chanSt c = 1 && s.hubUp (hubOfChannel c))

/-- The lowest-numbered channel in service, whose geometry the pool has (R226). -/
def State.leadChan (s : State) : Nat := ((List.range 32).find? (fun c => s.chanSt c = 1)).getD 0

/-- Planes per LUN. -/
def State.nPlanes (s : State) : Nat := bits (s.rd .flsChParam s.leadChan).toNat 0 4
/-- Bits per cell. -/
def State.nBits (s : State) : Nat := max 1 (bits (s.rd .flsChParam s.leadChan).toNat 4 4)
/-- Blocks per plane. -/
def State.nBlocks (s : State) : Nat := bits (s.rd .flsChParam s.leadChan).toNat 8 17
/-- Pages per block. -/
def State.nPages (s : State) : Nat := bits (s.rd .flsChParam s.leadChan).toNat 25 14
/-- LUNs per channel. -/
def State.nLuns (s : State) : Nat := s.fld Fld.flsChStatus_luns s.leadChan

/-! ### Negotiation (R224 to R227) -/

/-- Why a channel is refused (Table 9-1): 0 accepted. Blocks, pages, planes and cells lie in the ranges of R226. -/
def State.negReason (s : State) (ch : Nat) (a : NandAnswer) : Nat :=
  let lead := (List.range 32).find? (fun c => s.chanSt c = 1 && c ≠ ch)
  let geom := decide (a.pageBytes = 16384) && decide (2048 ≤ a.spareBytes) && decide (2 ≤ a.planes) && decide (a.planes ≤ 8) &&
    decide (1 ≤ a.blocks) && decide (a.blocks ≤ 65536) && decide (1 ≤ a.pages) && decide (a.pages ≤ 8192) &&
    (decide (a.bitsPerCell = 3) || decide (a.bitsPerCell = 4)) && a.uniform &&
    (match lead with
     | none => true
     | some c => decide (s.rd .flsChParam c = BitVec.ofNat 64 (a.planes + a.bitsPerCell * 2 ^ 4 + a.blocks * 2 ^ 8 + a.pages * 2 ^ 25)))
  if a.ready % 2 ^ 32 = 0 || !a.signature then 1 else if !a.pageOk then 2 else if !a.onfi51 then 3
  else if !geom then 4 else if !(a.features && decide (4 ≤ bits a.time2.toNat 24 4)) then 5
  else if a.rate = 0 || 5 < a.rate then 6 else 0

/-- Reserve blocks of a plane at format: RESERVE_PCT of its blocks, 1 to 10 (R244). -/
def State.reserveBlocks (s : State) (blocks : Nat) : Nat := blocks * min 10 (max 1 (s.fld Fld.flsCfg_reservePct)) / 100

/-! ### Geometry and superblocks (R229, R236, R244) -/

/-- Superblocks, the Reserve apart (log 14). -/
def State.sbTotal (s : State) : Nat := s.fld Fld.flsSbTotal_total
/-- All superblocks, the base of the percentages of R236 and R241 (worked example of R248, log 14). -/
def State.sbAll (s : State) : Nat := s.nLuns * s.nBlocks

/-- Data units of a superblock whose group has `w` members (R236): one member in `w` is parity. -/
def State.sbUnits (s : State) (slc : Bool) (w : Nat) : Nat :=
  s.nPlanes * (w - 1) * (if slc then s.nPages / s.nBits else s.nPages) / 2

/-- A superblock as formatted: FREE, in SLC mode when it is one of the lowest of the Till (DESIGN CHOICE, log 13). -/
def Fls.sbDefault (f : Fls) (i : Nat) : Sb :=
  { st := .free, slc := decide (i < f.slcFormat), used := 0, valid := 0, wear := 0, reads := 0, closedAt := 0, held := [], chans := [] }

/-- Superblock `i`. -/
def State.sb (s : State) (i : Nat) : Sb := s.fls.sbs.lookD i (s.fls.sbDefault i)

/-- Replace superblock `i`, keeping the counts of `FLS_SB_A`, `FLS_SB_B` and `FLS_SB_TOTAL` in the same handshake (R243). -/
def State.setSb (s : State) (i : Nat) (x : Sb) : State :=
  let o := s.sb i
  let dec := fun (s : State) (st : SbSt) => match st with
    | .free => s.setFld Fld.flsSbA_free 0 (s.fld Fld.flsSbA_free - 1)
    | .full => s.setFld Fld.flsSbA_full 0 (s.fld Fld.flsSbA_full - 1)
    | .opened => s.setFld Fld.flsSbB_open 0 (s.fld Fld.flsSbB_open - 1)
    | .retired => s.setFld Fld.flsSbB_retired 0 (s.fld Fld.flsSbB_retired - 1)
  let inc := fun (s : State) (st : SbSt) => match st with
    | .free => s.setFld Fld.flsSbA_free 0 (s.fld Fld.flsSbA_free + 1)
    | .full => s.setFld Fld.flsSbA_full 0 (s.fld Fld.flsSbA_full + 1)
    | .opened => s.setFld Fld.flsSbB_open 0 (s.fld Fld.flsSbB_open + 1)
    | .retired => s.setFld Fld.flsSbB_retired 0 (s.fld Fld.flsSbB_retired + 1)
  let s := if o.st = x.st then s else inc (dec s o.st) x.st
  let n := bits (s.rd .flsSbTotal).toNat 32 32
  let n' := if o.slc && !x.slc then n - 1 else if x.slc && !o.slc then n + 1 else n
  let s := if n = n' then s else s.wr .flsSbTotal 0 (BitVec.ofNat 64 (s.sbTotal + n' * 2 ^ 32))
  s.onFls (fun f => { f with sbs := f.sbs.put i x })

/-- Free superblocks. -/
def State.sbFree (s : State) : Nat := s.fld Fld.flsSbA_free
/-- A threshold in units of 0.1 % of all superblocks. -/
def State.sbPermille (s : State) (x : Nat) : Nat := s.sbAll * x / 1000
/-- GC_FLOOR; 0 is treated as 1. -/
def State.gcFloor (s : State) : Nat := s.sbPermille (max 1 (s.fld Fld.flsGcCfg_gcFloor))
/-- GC_LOW. -/
def State.gcLow (s : State) : Nat := s.sbPermille (s.fld Fld.flsGcCfg_gcLow)

/-- GC_URGENT of `FLS_POOL_STATUS` follows the free superblocks; the event is set as they fall below (R241). -/
def State.refreshUrgent (s : State) : State :=
  let u := decide (s.sbFree < s.sbPermille (s.fld Fld.flsGcCfg_gcUrgent))
  if u && s.fld Fld.flsPoolStatus_gcUrgent = 0 then (s.setFld Fld.flsPoolStatus_gcUrgent 0 1).raise Evt.fls_gcUrgent
  else if u then s else s.setFld Fld.flsPoolStatus_gcUrgent 0 0

/-- The target of the Till in superblocks: TILL_PCT, 2 to 12, of all superblocks (R236). -/
def State.tillTarget (s : State) : Nat := s.sbAll * min 12 (max 2 (s.fld Fld.flsCfg_tillPct)) / 100

/-- Format an unwritten pool (R244): the Till, ADV0, ADV and the superblock counts. -/
def State.flsFormat (s : State) : State :=
  let total := s.nLuns * (s.nBlocks - s.reserveBlocks s.nBlocks)
  let till := s.tillTarget
  let w := s.chansUp.length
  let adv0 := (total - till) * s.sbUnits false w * (100 - min 28 (max 3 (s.fld Fld.flsCfg_opPct))) / 100
  let s := ((s.wr .flsAdv0 0 (BitVec.ofNat 64 adv0)).wr .flsAdv 0 (BitVec.ofNat 64 adv0)).wr .flsMapped 0 0
  let s := (s.wr .flsSbA 0 (BitVec.ofNat 64 total)).wr .flsSbB 0 0
  let s := s.wr .flsSbTotal 0 (BitVec.ofNat 64 (total + till * 2 ^ 32))
  let s := s.wr .flsPoolStatus 0 (BitVec.ofNat 64 (1000 * 2 ^ 16))
  s.onFls (fun f => { f with slcFormat := till, formatted := true, sbs := .empty, map := .empty, data := .empty, extents := .empty })

/-! ### Dirty durable bytes (R359) -/

/-- D: the sum of the sources of Table 15-1. -/
def State.dirtyTotal (s : State) : Nat := (s.pwr.dirty.rows.map (·.2)).sum

/-- A source's dirty bytes change: `PWR_DIRTY` in the same handshake, and its highest value (R359). -/
def State.setDirty (s : State) (src : DirtySrc) (n : Nat) : State :=
  let s := s.onPwr (fun p => { p with dirty := p.dirty.put src n })
  let d := s.dirtyTotal
  let s := s.wr .pwrDirty 0 (BitVec.ofNat 64 d)
  let s := if decide (d ≤ (s.rd .pwrBudget).toNat) && decide (s.fld Fld.pwrStatus_deficit = 1) then s.setFld Fld.pwrStatus_deficit 0 0 else s
  if (s.rd .pwrDirtyMax).toNat < d then s.wr .pwrDirtyMax 0 (BitVec.ofNat 64 d) else s

/-- Dirty bytes of a source. -/
def State.dirtyOf (s : State) (src : DirtySrc) : Nat := s.pwr.dirty.lookD src 0

/-- `n` more bytes of a source. -/
def State.addDirty (s : State) (src : DirtySrc) (n : Nat) : State := s.setDirty src (s.dirtyOf src + n)

/-- New dirt of `n` bytes is admitted: the state is not HOLD or one that acts as HOLD, no deficit stands, and D + n ≤ B (R359, R360,
R363). -/
def State.dirtRoom (s : State) (n : Nat) : Bool :=
  decide (s.fld Fld.pwrStatus_state = 0) && decide (s.fld Fld.pwrStatus_bankLow = 0) && decide (s.fld Fld.pwrStatus_deficit = 0) &&
  decide (s.dirtyTotal + n ≤ (s.rd .pwrBudget).toNat)

/-- No erase starts: channel commands are held (R364), or the controller is in HOLD (R363). -/
def State.eraseHeld (s : State) : Bool := s.fls.held || decide (s.fld Fld.pwrStatus_state = 1)

/-! ### The flush budget (R358) -/

/-- MT/s of a channel's RATE code (R224). -/
def rateMt (code : Nat) : Nat := match code with
  | 1 => 800 | 2 => 1600 | 3 => 2400 | 4 => 3200 | 5 => 3600 | _ => 0

/-- SLC data rate of one channel in bytes per second: the lesser of its bus and its program rate (R358). -/
def State.chanRate (s : State) (ch : Nat) : Nat :=
  let v := (s.rd .flsChTime ch).toNat
  min (rateMt (s.fld Fld.flsChStatus_rate ch) * 1000000 * 4096 / 4600)
    (s.fld Fld.flsChStatus_luns ch * s.nPlanes * 16384 * 1000000 / max 1 (bits v 48 16))

/-- W: the SLC data rate of the channels in service, one apart; where they differ, the slowest one's (DESIGN CHOICE, log 68). -/
def State.slcRate (s : State) : Nat :=
  match s.chansUp with
  | [] => 0
  | c :: rest => rest.length * rest.foldl (fun m x => min m (s.chanRate x)) (s.chanRate c)

/-- C in mF and ESR in 0.1 mΩ: the last measurement's, or C_MIN and ESR_MAX before the first (R386). -/
def State.bankCE (s : State) : Nat × Nat :=
  if s.pwr.measured then (bits (s.rd .pwrBank).toNat 0 32, s.fld Fld.pwrBank_esr)
  else (s.fld Fld.pwrBankLimit_cMin, s.fld Fld.pwrBankLimit_esrMax)

/-- B in bytes with the bank at `b` × 10 mV (R358): E and t over their common denominators, rounded down once for W and once for B
(DESIGN CHOICE, log 68). -/
def State.budgetAt (s : State) (b : Nat) : Nat :=
  let p := 480 + s.fld Fld.pwrHoldCfg_arrayW
  let v := max 3400 (s.fld Fld.pwrHoldCfg_vMin)
  let ce := s.bankCE
  let top : Int := (ce.1 : Int) * ((b * v) ^ 2 - (v ^ 2 + p * ce.2) ^ 2 : Int) - 100000 * v ^ 2 * p
  let m := min 95 (s.fld Fld.pwrHoldCfg_marginPct)
  (m * s.slcRate * top.toNat) / (100 * (20000000 * v ^ 2 * p))

/-- B is recomputed (R359): BANK_LOW below 64 MiB, DEFICIT while D is above it. -/
def State.refreshBudget (s : State) : State :=
  let b := s.budgetAt s.pwr.vbank
  let s := s.wr .pwrBudget 0 (BitVec.ofNat 64 b)
  let low := decide (b < 64 * 2 ^ 20)
  let s := if low && s.fld Fld.pwrStatus_bankLow = 0 then s.raise Evt.pwr_bankLow else s
  let s := s.setFld Fld.pwrStatus_bankLow 0 (b2n low)
  let ovr := decide (b < s.dirtyTotal)
  let s := if ovr && s.fld Fld.pwrStatus_deficit = 0 then s.raise Evt.pwr_deficit else s
  s.setFld Fld.pwrStatus_deficit 0 (b2n ovr)

/-- `CHANNEL_NEGOTIATE`: a channel out of service is accepted with its published figures, or refused with a reason until the next reset
(R225). -/
def execChannelNegotiate (ch : Nat) (a : NandAnswer) (s : State) : Ans :=
  s.whenLive (if ch < 32 && s.boot.done.contains 5 && s.chanSt ch = 0 && s.hubUp (hubOfChannel ch) && !(s.boot.chanOut.contains ch) then
    let r := s.negReason ch a
    if r ≠ 0 then ((s.setFld Fld.flsChStatus_state ch 2).setFld Fld.flsChStatus_reason ch r).raise Evt.fls_chRefused
    else
      let s := s.wr .flsChStatus ch (BitVec.ofNat 64 (1 + a.rate * 4 + ones32 a.ready * 64))
      let s := s.wr .flsChParam ch (BitVec.ofNat 64 (a.planes + a.bitsPerCell * 2 ^ 4 + a.blocks * 2 ^ 8 + a.pages * 2 ^ 25))
      let s := (s.wr .flsChTime ch a.time).wr .flsChTime2 ch (a.time2 &&& ~~~(0xF0000000 : Word))
      let res := s.reserveBlocks a.blocks
      let s := s.onFls (fun f => { f with
        reserve := (List.range a.planes).foldl (fun t p => if t.has (ch, p) then t else t.put (ch, p) res) f.reserve })
      (s.wr .flsChReserve ch (BitVec.ofNat 64 res)).refreshBudget
  else s)

/-! ### The map (R231 to R234) -/

/-- Bytes of a mapping unit. -/
def unitBytes : Nat := 32768

/-- MAPPED. -/
def State.mapped (s : State) : Nat := (s.rd .flsMapped).toNat
/-- ADV. -/
def State.adv (s : State) : Nat := (s.rd .flsAdv).toNat

/-- Entries in STATE 1 locate valid units. -/
def MapEnt.counts (e : Option MapEnt) : Bool := e.isSome

/-- A unit's map entry is switched: VALID of the old superblock falls, that of the new one rises, MAPPED and `FLS_LOST` follow (R234,
R243). A lost unit stays counted. -/
def State.setEntry (s : State) (u : Nat) (e : Option MapEnt) : State :=
  let old := s.fls.map.look u
  let s := match old with
    | some o => let b := s.sb o.sb; s.setSb o.sb { b with valid := b.valid - 1 }
    | none => s
  let s := match e with
    | some o => let b := s.sb o.sb; s.setSb o.sb { b with valid := b.valid + 1 }
    | none => s
  let s := s.onFls (fun f => { f with map := match e with
    | some x => f.map.put u x
    | none => f.map.del u })
  let m := s.mapped + (if e.isSome then 1 else 0) - (if old.isSome then 1 else 0)
  let wasLost := match old with
    | some o => o.lost
    | none => false
  let isLost := match e with
    | some o => o.lost
    | none => false
  let lost := (s.rd .flsLost).toNat + b2n isLost - b2n wasLost
  (s.wr .flsMapped 0 (BitVec.ofNat 64 m)).wr .flsLost 0 (BitVec.ofNat 64 lost)

/-- A journal record joins the buffer of the register hub's module half: hub `h`; it is dirty until programmed (R233). -/
def State.journal (s : State) (h : Nat) (r : JRec) : State :=
  let b := s.fls.jbufs.lookD h ([], s.now)
  let since := if b.1 = [] then s.now else b.2
  (s.onFls (fun f => { f with jbufs := f.jbufs.put h (r :: b.1, since) })).addDirty .journal 16

/-- Journal bytes programmed since the checkpoint. -/
def State.journalled (s : State) (n : Nat) : State := s.onFls (fun f => { f with journalBytes := f.journalBytes + 16 * n })

/-- The lowest FREE superblock of a mode (DESIGN CHOICE, log 9). -/
def State.pickFreeSb (s : State) (slc : Bool) : Option Nat :=
  (List.range s.sbTotal).find? (fun i => decide ((s.sb i).st = .free) && decide ((s.sb i).slc = slc))

/-- The OPEN superblock of a mode with room, if there is one. -/
def State.openSb (s : State) (slc : Bool) : Option Nat :=
  (s.fls.sbs.rows.find? (fun r => decide (r.2.st = .opened) && decide (r.2.slc = slc) &&
    decide (r.2.used < s.sbUnits slc r.2.chans.length))).map (·.1)

/-- The channel of the unit at `slot` of a superblock: members of a row in turn, the parity member (row mod W) left out (R229). -/
def State.slotChan (s : State) (b : Sb) (slot : Nat) : Nat :=
  let w := b.chans.length
  let per := max 1 (s.nPlanes * (if b.slc then 1 else s.nBits) / 2)
  let row := slot / (max 1 (w - 1) * per)
  let pos := slot % (max 1 (w - 1) * per) / per
  let par := row % (max 1 w)
  b.chans.getD (if pos < par then pos else pos + 1) 0

/-- Place one unit of extent `x` in an OPEN superblock of the mode: the entry, or none where no superblock is left. -/
def State.placeUnit (s : State) (slc : Bool) (x : Nat) (spread : Bool) (chan : Option Nat) (chans : List Nat) :
    State × Option MapEnt :=
  let r := match s.openSb slc with
    | some i => some (s, i)
    | none => match s.pickFreeSb slc with
      | some i => some (s.setSb i { s.sb i with st := .opened, chans := chans }, i)
      | none => none
  match r with
  | none => (s, none)
  | some (s, i) =>
    let b := s.sb i
    let held := if b.held.contains x then b.held else x :: b.held
    let full := decide (s.sbUnits slc b.chans.length ≤ b.used + 1)
    let s := s.setSb i { b with used := b.used + 1, held := held, st := if full then .full else .opened,
                                closedAt := if full then s.now else b.closedAt }
    let e : MapEnt := ⟨false, spread, slc, chan.getD (s.slotChan b b.used), i, b.used⟩
    ((s.count .flsWrNand 0 1).count .flsChBytesWr e.chan unitBytes, some e)

/-- The extent of a unit. -/
def State.extentOf (s : State) (u : Nat) : Option (Nat × Extent) :=
  s.fls.extents.rows.find? (fun r => decide (r.2.base ≤ u) && decide (u < r.2.base + r.2.units))

/-- The stripe group of an owner: a quiet context's channels, or those no quiet context holds (R229, R350). -/
def State.stripeGroup (s : State) (owner : Option Nat) : List Nat :=
  match owner with
  | some n =>
    if s.fld Fld.secCtxState_quiet n = 1 then s.chansUp.filter (fun c => bit (bits (s.rd .secCtxQuiet n).toNat 24 32) c)
    else s.chansUp.filter (fun c => !(bit (s.quietHeld 64).2.2.1 c))
  | none => s.chansUp.filter (fun c => !(bit (s.quietHeld 64).2.2.1 c))

/-- A new extent of `n` units; `none` past 16,777,216 extents or the size limits of R231. -/
def State.newExtent (s : State) (owner : Option Nat) (n : Nat) (spread : Bool) (chan : Option Nat) : State × Option Nat :=
  if 1 ≤ n && n ≤ 1048576 && decide (s.fls.extents.size < 16777216) then
    let i := s.fls.nextExtent
    let x : Extent := ⟨owner, spread, s.freshBytes 16, s.fls.nextUnit, n, chan⟩
    ((s.bump.onFls (fun f => { f with extents := f.extents.put i x, nextExtent := i + 1, nextUnit := f.nextUnit + n })), some i)
  else (s, none)

/-! ### Writes (R234, R236, R246, R247) -/

/-- Durability writes (R247). -/
def ownerDurable : FlashOwner → Bool
  | .passbook _ | .directory | .ledger | .vectors _ | .flushCopy _ | .domainLog => true
  | _ => false

/-- STATE of the pool: 0 OPEN, 1 CLOSED, 2 READ_ONLY. -/
def State.pool (s : State) : Nat := s.fld Fld.flsPoolStatus_state

/-- The pool changes state (Table 9-4), traced (R411). -/
def State.poolTo (s : State) (st : Nat) : State := (s.setFld Fld.flsPoolStatus_state 0 st).trace 0 5 0 false 0 st

/-- Closing starts the durability allowance of DUR_GIB (R247). -/
def State.closePool (s : State) : State :=
  if s.pool = 0 then
    ((s.poolTo 1).wr .flsDurableLeft 0 (BitVec.ofNat 64 (s.fld Fld.flsCfg_durGib * 2 ^ 30))).raise Evt.fls_poolClosed
  else s

/-- CLOSED opens again once MAPPED and the free superblocks allow it (Table 9-4). -/
def State.reopenPool (s : State) : State :=
  if s.pool = 1 && decide (s.mapped ≤ s.adv * min 99 (s.fld Fld.flsCfg_reopenPct) / 100) && decide (s.gcLow ≤ s.sbFree) then
    (s.poolTo 0).wr .flsDurableLeft 0 0
  else s

/-- A shrink of ADV (R245): READ_ONLY below the floor, CLOSED below MAPPED (Table 9-4). -/
def State.shrinkAdv (s : State) (n : Nat) : State :=
  let a := s.adv - n
  let adv0 := (s.rd .flsAdv0).toNat
  let s := (s.wr .flsAdv 0 (BitVec.ofNat 64 a)).setFld Fld.flsPoolStatus_advPermille 0 (min 1023 (a * 1000 / max 1 adv0))
  if a < adv0 * 9 / 10 && s.pool ≠ 2 then
    let s := if s.pool = 0 then s.wr .flsDurableLeft 0 (BitVec.ofNat 64 (s.fld Fld.flsCfg_durGib * 2 ^ 30)) else s
    (s.poolTo 2).raise Evt.fls_readOnly
  else if a < s.mapped then s.closePool else s

/-- P of R246: new units of earlier writes not yet switched. -/
def State.pendingUnits (s : State) : Nat := (s.fls.writes.map (·.fresh)).sum

/-- A write of `n` new units finds the pool full (R246). -/
def State.poolFull (s : State) (n : Nat) : Bool :=
  decide (s.adv < s.mapped + s.pendingUnits + n) ||
  (decide (s.sbFree ≤ s.gcFloor) &&
   s.fls.sbs.rows.all (fun r => decide (r.2.st ≠ .full) || decide (s.sbUnits r.2.slc r.2.chans.length ≤ r.2.valid)))

/-- How a write ends at the map. -/
inductive WrRes
  | queued (id : Nat) | noSpace | held | aborted
  deriving DecidableEq, Repr

/-- A write reaches the map (R234, R246, R247): queued, refused with NO_SPACE, held in DRAM once the durability allowance is spent, or
aborted while the pool is not up or its channel commands are held. -/
def State.flashPut (s : State) (own : FlashOwner) (x first : Nat) (data : List (List Byte)) (till : Bool) : State × WrRes :=
  match s.fls.extents.look x with
  | none => (s, .aborted)
  | some e =>
    if !s.boot.flashUp || data.isEmpty || e.units < first + data.length then (s, .aborted)
    else
      let us := (List.range data.length).map (fun i => e.base + first + i)
      let fresh := (us.filter (fun u => !(s.fls.map.has u))).length
      let s := if s.pool = 0 && s.poolFull fresh then s.closePool else s
      let n := data.length * unitBytes
      let go := fun (s : State) =>
        let id := s.fls.wrCtr
        let w : FlashWr := ⟨id, own, x, first, data, till && decide (s.fld Fld.flsCfg_tillEn = 1), fresh, us.map (fun u => s.fls.map.look u)⟩
        (s.onFls (fun f => { f with writes := f.writes ++ [w], wrCtr := id + 1 }), WrRes.queued id)
      if s.pool = 0 then go s
      else if ownerDurable own then
        let left := (s.rd .flsDurableLeft).toNat
        if n ≤ left then go (s.wr .flsDurableLeft 0 (BitVec.ofNat 64 (left - n)))
        else (s.addDirty .held n, .held)
      else (s, .noSpace)

/-- `FLASH_WRITE`: a write reaches the map (R234). -/
def execFlashWrite (own : FlashOwner) (extent first : Nat) (data : List (List Byte)) (till : Bool) (s : State) : Ans :=
  s.whenLive (let r := s.flashPut own extent first data till
    match r.2 with
    | .noSpace => r.1.send (.flashWrote own 0x0010)
    | .aborted => r.1.send (.flashWrote own 0x00F0)
    | _ => r.1)

/-- A write's units are programmed and their entries switch, unless a later arrival has changed an entry (R234). A Till write with fewer
than two free SLC superblocks goes to the Vault (R236). -/
def State.programWrite (s : State) (w : FlashWr) (e : Extent) : State :=
  let slcFree := (List.range s.sbTotal).filter (fun i => (s.sb i).slc && decide ((s.sb i).st = .free))
  let spill := w.till && decide (slcFree.length < 2)
  let s := if spill then s.raise Evt.fls_tillSpill else s
  let slc := w.till && !spill
  (List.range w.data.length).foldl (fun s i =>
    let u := e.base + w.first + i
    let r := s.placeUnit slc w.extent e.spread e.chan (s.stripeGroup e.owner)
    match r.2 with
    | none => r.1
    | some ent =>
      let s := r.1.onFls (fun f => { f with seq := f.seq + 8 })
      if s.fls.map.look u = (w.seen.getD i none) then
        let s := (s.setEntry u (some ent)).onFls (fun f => { f with data := f.data.put u (w.data.getD i []) })
        (s.count .flsWrIn 0 1).journalled 1
      else s) s

/-- A write's codewords and journal records are programmed and its entries switch (R234): the state, and the write that has ended with
OK, or with ABORTED where its extent is gone. In FLUSH an SLC program runs to completion and a native one is suspended (R364). -/
def State.flashProgramDone (s : State) (id : Nat) : State × Option (FlashWr × Bool) :=
  match s.fls.writes.find? (fun w => decide (w.id = id)) with
  | none => (s, none)
  | some w =>
    if s.fls.held && !w.till then (s, none)
    else
      let s := s.onFls (fun f => { f with writes := f.writes.filter (fun x => decide (x.id ≠ id)) })
      match s.fls.extents.look w.extent with
      | none => (s.send (.flashWrote w.owner 0x00F0), some (w, false))
      | some e => (((s.programWrite w e).refreshUrgent).send (.flashWrote w.owner 0), some (w, true))

/-- The journal buffer of hub `h` is programmed. -/
def State.journalOut (s : State) (h : Nat) : State :=
  match s.fls.jbufs.look h with
  | none => s
  | some b =>
    let s := s.onFls (fun f => { f with jbufs := f.jbufs.del h })
    (s.setDirty .journal (s.dirtyOf .journal - 16 * b.1.length)).journalled b.1.length

/-- `JOURNAL_BUFFER_WRITE`: a buffer is programmed when it is full, 1 ms after its first record, or at once in HOLD (R233, R363). -/
def execJournalBufferWrite (h : Nat) (s : State) : Ans :=
  s.whenLive (match s.fls.jbufs.look h with
    | none => s
    | some b =>
      if b.1 ≠ [] && (decide (65536 ≤ b.1.length) || decide (b.2 + 1000000 ≤ s.now) || decide (s.fld Fld.pwrStatus_state = 1)) then
        s.journalOut h
      else s)

/-- A checkpoint is written to the slot not committed last; the journal before it is freed (R233). -/
def State.checkpoint (s : State) : State :=
  (s.setDirty .journal 0).onFls (fun f =>
    { f with checkpointSlot := 1 - f.checkpointSlot, journalBytes := 0, jbufs := .empty })

/-- `MAP_CHECKPOINT`: after 4 GiB of journal (R233). -/
def execMapCheckpoint (s : State) : Ans :=
  s.whenLive (if 2 ^ 32 ≤ s.fls.journalBytes && !s.fls.held then s.checkpoint else s)

/-! ### Reads and recovery (R238 to R240) -/

/-- The channels that hold a unit's codewords: one in UNIT layout, eight consecutive members in SPREAD (R230). -/
def State.unitChans (s : State) (e : MapEnt) : List Nat :=
  if e.spread then
    let ms := (s.sb e.sb).chans
    let i := (ms.takeWhile (fun c => decide (c ≠ e.chan))).length
    (List.range 8).map (fun k => ms.getD ((i + k) % max 1 ms.length) 0)
  else [e.chan]

/-- A channel cannot be reached: its hub is not in service, or has returned and the channel is not negotiated again (R240, R393). -/
def State.chanAway (s : State) (c : Nat) : Bool := !(s.hubUp (hubOfChannel c)) || decide (s.chanSt c = 0)

/-- Some codeword of the unit lies on a channel that cannot be reached (R240). -/
def State.unitAway (s : State) (e : MapEnt) : Bool := (s.unitChans e).any s.chanAway

/-- The row of a unit has a member on a failed hub's channels. -/
def State.rowAway (s : State) (e : MapEnt) : Bool := (s.sb e.sb).chans.any s.chanAway

/-- `VSR_SKETCH_REBUILD`: the sketch pages awaiting rebuild (R192). -/
def State.publishLost (s : State) : State :=
  s.wr .vsrSketchRebuild 0 (BitVec.ofNat 64 ((s.vsr.colls.rows.map (fun r => r.2.lost.length)).sum))

/-- A sketch page whose unit `u` is lost awaits rebuild (R192). -/
def State.loseSketch (s : State) (u : Nat) : State :=
  match s.extentOf u with
  | none => s
  | some (x, _) =>
    match s.vsr.colls.rows.findSome? (fun r => (r.2.pages.rows.find? (fun p => decide (p.2 = x))).map (fun p => (r.1, p.1))) with
    | none => s
    | some (k, pg) =>
      ((s.onVsr (fun v => { v with colls := v.colls.upd k (fun c => { c with
        lost := if c.lost.contains pg then c.lost else c.lost ++ [pg] }) })).publishLost).raise Evt.vsr_sketchLost

/-- A unit is lost (step 4 of R239). -/
def State.loseUnit (s : State) (u : Nat) : State :=
  match s.fls.map.look u with
  | none => s
  | some e => if e.lost then s else ((s.setEntry u (some { e with lost := true })).raise Evt.fls_unitLost).loseSketch u

/-- The status and data a read of unit `u` gives (R239, R240, R244): zeros where it is unmapped, POISON where it is lost, ABORTED cause 4
while a failed hub holds it. -/
def State.unitRead (s : State) (u : Nat) : Nat × List Byte :=
  match s.fls.map.look u with
  | none => (0, List.replicate unitBytes 0)
  | some e => if s.unitAway e then (0x00F0, []) else if e.lost then (0x0030, []) else (0, takeAt (s.fls.data.lookD u []) 0 unitBytes)

/-- Move a unit to a fresh place in the Vault or the Till: its ciphertext is unchanged (R234, R235). -/
def State.relocate (s : State) (u : Nat) (slc : Bool) : State :=
  match s.fls.map.look u with
  | none => s
  | some e =>
    if e.lost then s
    else
      let x := s.extentOf u
      let owner := match x with
        | some r => r.2.owner
        | none => none
      let r := s.placeUnit slc (match x with | some r => r.1 | none => 0) e.spread (match x with | some r => r.2.chan | none => none)
        (s.stripeGroup owner)
      match r.2 with
      | none => r.1
      | some e' => (r.1.setEntry u (some e')).journalled 1

/-- The units whose entries lie in a superblock. -/
def State.unitsIn (s : State) (sb : Nat) : List Nat := s.fls.map.keysIf (fun _ e => decide (e.sb = sb))

/-- A superblock is erased: FREE, its mode taken now towards the Till's target, its wear counted in native cycles, read counters cleared
(R236, R241, R242). -/
def State.eraseSb (s : State) (i : Nat) : State :=
  let b := s.sb i
  let n := bits (s.rd .flsSbTotal).toNat 32 32
  let t := s.tillTarget
  let slc := if n < t then true else if t < n then false else b.slc
  let nat := bits (s.rd .flsChTime2 s.leadChan).toNat 32 16
  let sl := bits (s.rd .flsChTime2 s.leadChan).toNat 48 16
  let cost := if b.slc then nat * 1000 / max 1 sl else 1000
  (s.setSb i { b with st := .free, slc := slc, used := 0, wear := b.wear + cost, reads := 0, held := [], chans := [] }).refreshUrgent

/-- A superblock is refreshed: its valid units are relocated in their own region and it is erased (R242). A lost unit has no data to
move; its entry stays lost elsewhere. -/
def State.refreshSb (s : State) (i : Nat) (slc : Bool) : State :=
  let us := s.unitsIn i
  let s := us.foldl (fun s u => s.relocate u slc) s
  if (s.unitsIn i).isEmpty then s.eraseSb i else s

/-- `FLASH_READ`: a unit is read, decoded and decrypted; recovery steps are counted, and a unit none of them recovers is lost (R239,
R251). A soft decode or die parity relocates the unit at once; enough retry levels refresh its superblock (R242). -/
def execFlashRead (unit : Nat) (d : Decode) (s : State) : Ans :=
  s.whenLive (if s.fls.held then s else
    let r := s.unitRead unit
    match s.fls.map.look unit with
    | none => s.send (.flashData unit r.1 r.2)
    | some e =>
      if r.1 ≠ 0 then s.send (.flashData unit r.1 r.2)
      else
        let b := s.sb e.sb
        let s := (s.setSb e.sb { b with reads := b.reads + 1 }).count .flsChBytesRd e.chan unitBytes
        match d with
        | .hard => s.send (.flashData unit 0 r.2)
        | .retry levels =>
          let s := (s.countSat Fld.flsChErr_retry e.chan 1).send (.flashData unit 0 r.2)
          if s.fld Fld.flsRefreshCfg_retryRefresh ≤ levels then s.refreshSb e.sb e.till else s
        | .soft => (((s.countSat Fld.flsChErr_soft e.chan 1).send (.flashData unit 0 r.2)).relocate unit e.till).refreshSb e.sb e.till
        | .parity =>
          if s.rowAway e then s.send (.flashData unit 0x00F0 [])
          else (((s.countSat Fld.flsChErr_parity e.chan 1).send (.flashData unit 0 r.2)).relocate unit e.till).refreshSb e.sb e.till
        | .lost =>
          if s.rowAway e then s.send (.flashData unit 0x00F0 []) else (s.loseUnit unit).send (.flashData unit 0x0031 []))

/-- LUN index of a superblock. -/
def State.sbLun (s : State) (i : Nat) : Nat := i / max 1 (s.nBlocks - s.reserveBlocks s.nBlocks)

/-- Units with a codeword on a LUN of a channel. -/
def State.unitsOn (s : State) (ch lun : Nat) : List Nat :=
  s.fls.map.keysIf (fun _ e => decide (s.sbLun e.sb = lun) && (s.unitChans e).contains ch)

/-- `FLS_REBUILD` counts the units still waiting. -/
def State.countRebuild (s : State) : State :=
  (s.wr .flsRebuild 0 (BitVec.ofNat 64 ((s.fls.rebuild.map (fun r => r.2.2.length)).sum))).setFld Fld.flsPoolStatus_rebuilding 0
    (if s.fls.rebuild = [] then 0 else 1)

/-- `LUN_FAILED`: the LUN's bit is set and rebuild of its units begins; a second failed LUN of the same index on another channel loses
the units of rows that need both (R240). -/
def execLunFailed (ch lun : Nat) (s : State) : Ans :=
  s.whenLive (if s.chanSt ch = 1 && lun < 32 && !(bit (s.fld Fld.flsChStatus_lunFailed ch) lun) then
    let s := (s.setFld Fld.flsChStatus_lunFailed ch (s.fld Fld.flsChStatus_lunFailed ch + 2 ^ lun)).raise Evt.fls_lunFailed
    let mine := s.unitsOn ch lun
    let twins := s.fls.rebuild.filter (fun r => decide (r.2.1 = lun) && decide (r.1 ≠ ch))
    let lost := (twins.flatMap (fun t => t.2.2.filter (fun u => match s.fls.map.look u with
        | some e => (s.sb e.sb).chans.contains ch
        | none => false))) ++
      mine.filter (fun u => match s.fls.map.look u with
        | some e => twins.any (fun t => (s.sb e.sb).chans.contains t.1)
        | none => false)
    let s := lost.foldl (fun s u => s.loseUnit u) s
    let s := s.onFls (fun f => { f with rebuild := (f.rebuild.map (fun r => (r.1, r.2.1, r.2.2.filter (fun u => !(lost.contains u))))) ++
      [(ch, lun, mine.filter (fun u => !(lost.contains u)))] })
    s.countRebuild
  else s)

/-- `LUN_REBUILD`: the units of the oldest failed LUN are rebuilt from die parity; at the end ADV shrinks by its member's data units
(R240, R245). -/
def execLunRebuild (ch lun : Nat) (s : State) : Ans :=
  s.whenLive (match (if s.fls.held then [] else s.fls.rebuild).find? (fun r => decide (r.1 = ch) && decide (r.2.1 = lun)) with
    | none => s
    | some r =>
      let s := r.2.2.foldl (fun s u => match s.fls.map.look u with
        | some e => s.relocate u e.till
        | none => s) s
      let s := s.onFls (fun f => { f with
        rebuild := f.rebuild.filter (fun x => !(decide (x.1 = ch) && decide (x.2.1 = lun)))
        sbs := f.sbs.mapVals (fun i b => if s.sbLun i = lun then { b with chans := b.chans.filter (fun c => decide (c ≠ ch)) } else b) })
      let per := s.nBlocks - s.reserveBlocks s.nBlocks
      let vault := ((List.range per).filter (fun b => !((s.sb (lun * per + b)).slc))).length
      let w := s.chansUp.length
      let ul := vault * (s.sbUnits false w / max 1 (w - 1))
      ((s.shrinkAdv (ul * (100 - min 28 (max 3 (s.fld Fld.flsCfg_opPct))) / 100)).countRebuild).reopenPool)

/-! ### Fold, garbage collection, wear and refresh (R237, R241, R242) -/

/-- The FULL superblocks of a mode. -/
def State.fullSbs (s : State) (slc : Bool) : List (Nat × Sb) :=
  s.fls.sbs.rows.filter (fun r => decide (r.2.st = .full) && decide (r.2.slc = slc))

/-- The row of a list with the least key, the earliest closed among equals. -/
def leastSb (key : Sb → Nat) (l : List (Nat × Sb)) : Option (Nat × Sb) :=
  l.foldl (fun best r => match best with
    | none => some r
    | some b => if key r.2 < key b.2 || (decide (key r.2 = key b.2) && decide (r.2.closedAt < b.2.closedAt)) then some r else best) none

/-- Valid units in the Till. -/
def State.tillValid (s : State) : Nat := s.fls.map.countIf (fun _ e => e.till)
/-- The Till's capacity in units. -/
def State.tillCap (s : State) : Nat := bits (s.rd .flsSbTotal).toNat 32 32 * s.sbUnits true s.chansUp.length
/-- FOLD_HIGH: a value not above FOLD_LOW is treated as FOLD_LOW + 1. -/
def State.foldHigh (s : State) : Nat := max (s.fld Fld.flsGcCfg_foldHigh) (s.fld Fld.flsGcCfg_foldLow + 1)

/-- The placement engine records a piece that has left the Till as T3 (R237). -/
def State.recordFolded (s : State) (us : List Nat) : State :=
  s.onSsn (fun t => { t with sessions := t.sessions.mapVals (fun _ x =>
    let units := x.parked.flatMap (fun q => [q.unit, q.unit + 1])
    if x.kvTier = 2 && units.any us.contains &&
        !(units.any (fun u => match s.fls.map.look u with | some e => e.till | none => false))
    then { x with kvTier := 3 } else x) })

/-- `TILL_FOLD`: a fold starts above FOLD_HIGH and runs, earliest closed Till superblock first, until the Till is below FOLD_LOW
(R237); not while READ_ONLY (R248). -/
def execTillFold (s : State) : Ans :=
  s.whenLive (let v := s.tillValid * 100
    let start := decide (s.foldHigh * s.tillCap < v)
    if s.pool = 2 || s.eraseHeld || !(s.fls.folding || start) then s
    else if v < s.fld Fld.flsGcCfg_foldLow * s.tillCap then
      (s.onFls (fun f => { f with folding := false })).setFld Fld.flsPoolStatus_folding 0 0
    else
      let s := (s.onFls (fun f => { f with folding := true })).setFld Fld.flsPoolStatus_folding 0 1
      match leastSb (fun b => b.closedAt) (s.fullSbs true) with
      | none => s
      | some (i, _) =>
        let us := s.unitsIn i
        let s := us.foldl (fun s u => s.relocate u false) s
        let s := if (s.unitsIn i).isEmpty then s.eraseSb i else s
        let s := s.recordFolded us
        if s.tillValid * 100 < s.fld Fld.flsGcCfg_foldLow * s.tillCap then
          (s.onFls (fun f => { f with folding := false })).setFld Fld.flsPoolStatus_folding 0 0
        else s)

/-- `GARBAGE_COLLECTION`: below GC_LOW free superblocks, the full Vault superblock with the fewest valid units is relocated and erased
(R241); not while READ_ONLY (R248). -/
def execGarbageCollection (s : State) : Ans :=
  s.whenLive (if s.pool ≠ 2 && !s.eraseHeld && decide (s.sbFree ≤ s.gcLow) then
    match leastSb (fun b => b.valid) (s.fullSbs false) with
    | none => s
    | some (i, _) => (s.refreshSb i false).reopenPool
  else s)

/-- The most-worn free superblock of those that have a row. -/
def State.mostWorn (s : State) : Option (Nat × Sb) :=
  s.fls.sbs.rows.filter (fun r => decide (r.2.st = .free)) |>.foldl (fun best r => match best with
    | none => some r
    | some b => if b.2.wear < r.2.wear then some r else best) none

/-- `WEAR_LEVEL`: past WL_GAP, the data of the least-worn full superblock moves to the most-worn free one (R242); not while READ_ONLY. -/
def execWearLevel (s : State) : Ans :=
  s.whenLive (let gap := s.fld Fld.flsGcCfg_wlGap * 10 * 1000
    match leastSb (fun b => b.wear) (s.fullSbs false), s.mostWorn with
    | some (i, b), some (j, w) =>
      if s.pool ≠ 2 && !s.eraseHeld && decide (b.wear + gap < w.wear) && !w.slc then
        let s := s.setSb j { w with st := .opened, chans := b.chans }
        let us := s.unitsIn i
        let s := us.foldl (fun s u => match s.fls.map.look u with
          | none => s
          | some e =>
            let x := s.sb j
            let s := (s.setSb j { x with used := x.used + 1, held := b.held }).count .flsWrNand 0 1
            (s.setEntry u (some { e with sb := j, slot := x.used })).journalled 1) s
        s.eraseSb i
      else s
    | _, _ => s)

/-- `READ_DISTURB_REFRESH`: a block's read counter reaches the limit of its mode (R242). -/
def execReadDisturbRefresh (sb : Nat) (s : State) : Ans :=
  s.whenLive (let b := s.sb sb
    let lim := (if b.slc then s.fld Fld.flsRefreshCfg_readLimitSlc else s.fld Fld.flsRefreshCfg_readLimitNative) * 1000
    if lim ≤ b.reads && !s.eraseHeld then s.refreshSb sb b.slc else s)

/-- `RETENTION_SCAN`: the full superblocks found weak are refreshed (R242). -/
def execRetentionScan (weak : List Nat) (s : State) : Ans :=
  s.whenLive (if s.eraseHeld then s else weak.foldl (fun s i => if (s.sb i).st = .full then s.refreshSb i (s.sb i).slc else s) s)

/-! ### Block replacement and discards (R245, R249, R250) -/

/-- The Reserve register of a channel: its smallest Reserve and the planes with none. -/
def State.publishReserve (s : State) (ch : Nat) : State :=
  let rs := (List.range s.nPlanes).map (fun p => s.fls.reserve.lookD (ch, p) 0)
  let least := rs.foldl min (rs.headD 0)
  s.wr .flsChReserve ch (BitVec.ofNat 64 (least + (rs.filter (fun r => decide (r = 0))).length * 2 ^ 32))

/-- `BLOCK_REPLACE`: a failed block is replaced from its plane's Reserve, or its superblock is retired and ADV shrinks (R245). -/
def execBlockReplace (ch plane sb : Nat) (erase : Bool) (s : State) : Ans :=
  s.whenLive (let s := if erase then s.countSat Fld.flsChErr_eraseFail ch 1 else s.countSat Fld.flsChErr_progFail ch 1
    let r := s.fls.reserve.lookD (ch, plane) 0
    if 0 < r then
      (s.onFls (fun f => { f with reserve := f.reserve.put (ch, plane) (r - 1) })).publishReserve ch
    else if (s.sb sb).st = .retired then s
    else
      let b := s.sb sb
      let slc := b.slc
      let chans := if b.chans = [] then s.chansUp else b.chans
      let s := (s.unitsIn sb).foldl (fun s u => s.relocate u slc) (s.setSb sb { b with st := .retired })
      let ks := chans.flatMap (fun c => (List.range s.nPlanes).map (fun p => (c, p)))
      let rs := ks.foldl (fun t k => if k = (ch, plane) then t else t.put k (t.lookD k 0 + 1)) s.fls.reserve
      let s := s.onFls (fun f => { f with reserve := rs })
      let s := chans.foldl (fun s c => s.publishReserve c) s
      let usb := s.sbUnits false chans.length
      ((s.shrinkAdv (usb * (100 - min 28 (max 3 (s.fld Fld.flsCfg_opPct))) / 100)).raise Evt.fls_sbRetired).refreshUrgent)

/-- Unmap a range of units (R249); the journal records are dirty until programmed. -/
def State.discardUnits (s : State) (us : List Nat) : State :=
  (us.foldl (fun s u =>
    match s.fls.map.look u with
    | none => s
    | some e =>
      let s := (s.setEntry u none).journal (hubOfChannel e.chan) ⟨u, some e, s.fls.data.lookD u []⟩
      s.onFls (fun f => { f with data := f.data.del u })) s).reopenPool

/-- `ORDINARY_DISCARD`: the entries of a range become unmapped (R249). -/
def execOrdinaryDiscard (first n : Nat) (s : State) : Ans :=
  s.whenLive (s.discardUnits ((s.fls.map.keysIf (fun u _ => decide (first ≤ u) && decide (u < first + n)))))

/-- The superblocks a secure discard waits for are relocated and erased, and it is done (R250). -/
def State.finishSdisc (s : State) : State :=
  let sbs := s.fls.sdisc
  if bits (s.rd .flsSdiscStatus).toNat 0 2 ≠ 1 then s
  else
    let s := (sbs.foldl (fun s i => s.refreshSb i (s.sb i).slc) s).onFls (fun f => { f with sdisc := [] })
    (s.wr .flsSdiscStatus 0 2).raise Evt.fls_sdiscDone

/-- Secure discard of extents (R250): unmapped with their salts deleted, their pending writes ended with ABORTED cause 5, a checkpoint
forced, and every superblock that held them relocated and erased. -/
def State.secureDiscard (s : State) (xs : List Nat) : State :=
  let dead := s.fls.writes.filter (fun w => xs.contains w.extent)
  let s := s.onFls (fun f => { f with writes := f.writes.filter (fun w => !(xs.contains w.extent)) })
  let s := dead.foldl (fun s w => s.send (.flashWrote w.owner 0x00F0)) s
  let us := s.fls.map.keysIf (fun u _ => xs.any (fun x => match s.fls.extents.look x with
    | some e => decide (e.base ≤ u) && decide (u < e.base + e.units)
    | none => false))
  let s := s.discardUnits us
  let s := (s.onFls (fun f => { f with extents := f.extents.keep (fun k _ => !(xs.contains k)) })).checkpoint
  let sbs := s.fls.sbs.keysIf (fun _ b => b.held.any xs.contains && decide (b.st ≠ .retired))
  let s := (s.wr .flsSdiscStatus 0 (BitVec.ofNat 64 (1 + sbs.length * 4))).onFls (fun f => { f with sdisc := f.sdisc ++ sbs })
  if s.eraseHeld then s else s.finishSdisc

/-- The extents of a context. -/
def State.ctxExtents (s : State) (n : Nat) : List Nat := s.fls.extents.keysIf (fun _ e => decide (e.owner = some n))

/-- `SECURE_DISCARD`: a write of an extent identifier to `FLS_SDISC`, with ALL also every extent of CONTEXT (R250). -/
def execSecureDiscard (rq : Requester) (v : Word) (s : State) : Ans :=
  let x := bits v.toNat 0 24
  let owner := match s.fls.extents.look x with
    | some e => e.owner
    | none => none
  let ctxOk := match owner with
    | some n => s.actsFor rq n
    | none => decide (rq = .firmware)
  let allOk := !(bit v.toNat 24) || s.actsFor rq (bits v.toNat 25 6)
  .next (s.woWrite rq .flsSdisc 0 (ctxOk && allOk) 0 (fun s =>
    s.secureDiscard ((if (s.fls.extents.look x).isSome then [x] else []) ++
      (if bit v.toNat 24 then (s.ctxExtents (bits v.toNat 25 6)).filter (fun k => decide (k ≠ x)) else []))))

end Sys2Proof.Machine
end

