-- ==== Sys2Proof/Machine/Pages.lean ====
section
/-! DEFINITION. The KV page pool: the four counts of each stack (R68), placement under R80 and the watermarks of R79. -/

namespace Sys2Proof.Machine

/-- What a page counts as in the balance of R68. -/
inductive PgCount
  | free | alloc | transit
  deriving DecidableEq, Repr

/-- The register that holds a count. -/
def PgCount.reg : PgCount → Reg
  | .free => .ssnPgFree
  | .alloc => .ssnPgAlloc
  | .transit => .ssnPgTransit

/-- How a page of a session is counted. -/
def PgUse.count : PgUse → PgCount
  | .transit => .transit
  | _ => .alloc

/-- A count of stack `m`. -/
def State.pg (s : State) (r : Reg) (m : Nat) : Nat := (s.rd r m).toNat

/-- A count summed over the stacks. -/
def State.pgSum (s : State) (r : Reg) : Nat := ((List.range 24).map (fun m => s.pg r m)).sum

/-- T1_LOW, percent. -/
def State.t1Low (s : State) : Nat := s.fld Fld.ssnPlaceCfg_t1Low
/-- T1_HIGH, percent: a value not above T1_LOW is treated as T1_LOW + 1 (Table 3-18). -/
def State.t1High (s : State) : Nat := max (s.fld Fld.ssnPlaceCfg_t1High) (s.t1Low + 1)
/-- ALLOC summed over the pool is below the low watermark. -/
def State.belowLow (s : State) : Bool := decide (s.pgSum .ssnPgAlloc * 100 < s.pgSum .ssnPgTotal * s.t1Low)
/-- ALLOC summed over the pool, with `n` more pages, is past the high watermark. -/
def State.pastHigh (s : State) (n : Nat) : Bool := decide (s.pgSum .ssnPgTotal * s.t1High < (s.pgSum .ssnPgAlloc + n) * 100)

/-- `n` pages of stack `m` go from one count to another; a stack out of service keeps its zero counts (R68). -/
def State.pgMoveN (s : State) (m : Nat) (a b : PgCount) (n : Nat) : State :=
  if a = b || !(s.stackUp m) then s
  else
    let s := s.wr a.reg m (BitVec.ofNat 64 (s.pg a.reg m - n))
    s.wr b.reg m (BitVec.ofNat 64 (s.pg b.reg m + n))

/-- One page of stack `m` goes from one count to another. -/
def State.pgMove (s : State) (m : Nat) (a b : PgCount) : State := s.pgMoveN m a b 1

/-- The stacks of S from the first choice of R80 onward, modulo the size of S. -/
def State.stackOrder (s : State) (ctx i l b : Nat) : List Nat :=
  let x := s.stackSet ctx
  let k := stackHash i l b x.length
  x.drop k ++ x.take k

/-- The stack R80 takes: the first one not below STACK_MIN, else the first with any free page. -/
def State.pickStack (s : State) (ctx i l b : Nat) : Option Nat :=
  let o := s.stackOrder ctx i l b
  match o.find? (fun m => decide (0 < s.pg .ssnPgFree m) &&
      decide (s.pg .ssnPgTotal m * s.fld Fld.ssnPlaceCfg_stackMin ≤ s.pg .ssnPgFree m * 1000)) with
  | some m => some m
  | none => o.find? (fun m => decide (0 < s.pg .ssnPgFree m))

/-- The frames of stack `m` in use. -/
def State.usedFrames (s : State) (m : Nat) : List Nat := s.ssn.used.lookD m []

/-- A page of stack `m` is taken: its frame, the lowest unused one (DESIGN CHOICE, log 9), is handed over holding zeros (R334). ALLOC that
passes T1_HIGH sets `SSN_EVT.T1_HIGH` (R79). -/
def State.takeFrame (s : State) (m : Nat) (c : PgCount) : State × (Nat × Nat) :=
  let u := s.usedFrames m
  let f := (lowestFree (fun x => u.contains x) 0 (u.length + 1)).getD 0
  let high := s.pastHigh 0
  let s := s.onSsn (fun x => { x with used := x.used.put m (f :: u) })
  let s := (s.zeroRange (keyKv m f 0) (keyKv m f 0 + 65536)).pgMove m .free c
  ((if !high && s.pastHigh 0 then s.raise Evt.ssn_t1High else s), (m, f))

/-- Allocate a page under R80. -/
def State.allocPage (s : State) (ctx i l b : Nat) (c : PgCount) : State × Option (Nat × Nat) :=
  match s.pickStack ctx i l b with
  | none => (s, none)
  | some m => let r := s.takeFrame m c; (r.1, some r.2)

/-- Nothing repaired. -/
def StackRep.none : StackRep := ⟨[], .empty, 0, [], false⟩

/-- The repairs of stack `m` (R23). -/
def State.repair (s : State) (m : Nat) : StackRep := s.arch.repairs.lookD m StackRep.none

/-- A page's frame is free again; one of a retired row or layer leaves TOTAL instead and is never handed over again (R23, R68). -/
def State.freeFrame (s : State) (m f : Nat) (c : PgCount) : State :=
  if (s.repair m).frames.contains f then
    if s.stackUp m then
      (s.wr c.reg m (BitVec.ofNat 64 (s.pg c.reg m - 1))).wr .ssnPgTotal m (BitVec.ofNat 64 (s.pg .ssnPgTotal m - 1))
    else s
  else
  let s := s.onSsn (fun x => { x with used := x.used.put m ((s.usedFrames m).filter (fun g => decide (g ≠ f))) })
  s.pgMove m c .free

/-- Allocate `n` pages with b from 0 upward; `none` where one fails, and the ones taken are freed. -/
def State.allocMany (s : State) (ctx i l n : Nat) (c : PgCount) : State × Option (List (Nat × Nat)) :=
  let r := (List.range n).foldl (fun (a : State × Option (List (Nat × Nat)) × List (Nat × Nat)) b =>
    match a.2.1 with
    | none => a
    | some got =>
      let p := a.1.allocPage ctx i l b c
      match p.2 with
      | none => (p.1, none, got)
      | some f => (p.1, some (got ++ [f]), got ++ [f])) (s, some [], [])
  match r.2.1 with
  | some l => (r.1, some l)
  | none => (r.2.2.foldl (fun s f => s.freeFrame f.1 f.2 c) r.1, none)

/-! ### Pages handed over (R84) -/

/-- Pages are handed over: taken from FREE and TOTAL of the stacks in turn (R84 step 5). -/
def State.handOver (s : State) (n : Nat) : State :=
  ((List.range 24).foldl (fun (a : State × Nat) m =>
    let k := min a.2 (a.1.pg .ssnPgFree m)
    let u := a.1.usedFrames m
    let fs := (List.range k).foldl (fun (l : List Nat) _ =>
      ((lowestFree (fun f => u.contains f || l.contains f) 0 (u.length + l.length + 1)).getD 0) :: l) []
    let s := a.1.onSsn (fun t => { t with used := t.used.put m (fs ++ u), handed := t.handed ++ fs.map (fun f => (m, f)) })
    let s := (s.wr .ssnPgFree m (BitVec.ofNat 64 (s.pg .ssnPgFree m - k))).wr .ssnPgTotal m (BitVec.ofNat 64 (s.pg .ssnPgTotal m - k))
    (s, a.2 - k)) (s, n)).1

/-- `n` of the pages handed over, the earliest first, return to the pool (R272). -/
def State.handBack (s : State) (n : Nat) : State :=
  let s := (s.ssn.handed.take n).foldl (fun (s : State) p =>
    let s := s.onSsn (fun t => { t with used := t.used.put p.1 ((s.usedFrames p.1).filter (fun f => decide (f ≠ p.2))) })
    if s.stackUp p.1 then
      (s.wr .ssnPgFree p.1 (BitVec.ofNat 64 (s.pg .ssnPgFree p.1 + 1))).wr .ssnPgTotal p.1 (BitVec.ofNat 64 (s.pg .ssnPgTotal p.1 + 1))
    else s) s
  s.onSsn (fun t => { t with handed := t.handed.drop n })

/-! ### Pages of a session -/

/-- Session `i`. -/
def State.sess (s : State) (i : Nat) : Option Session := s.ssn.sessions.look i

/-- The pages of session `i` that satisfy `p` are counted as `u` from now on, with their page-table entries in the same handshake (R68). -/
def State.markPages (s : State) (i : Nat) (p : KvPage → Bool) (u : PgUse) : State :=
  match s.sess i with
  | none => s
  | some x =>
    let s := x.pages.foldl (fun s q => if p q then s.pgMove q.stack q.use.count u.count else s) s
    s.updSession i (fun x => { x with pages := x.pages.map (fun q => if p q then { q with use := u } else q) })

/-- The pages of session `i` that satisfy `p` are released. -/
def State.dropPages (s : State) (i : Nat) (p : KvPage → Bool) : State :=
  match s.sess i with
  | none => s
  | some x =>
    let s := x.pages.foldl (fun s q => if p q then s.freeFrame q.stack q.frame q.use.count else s) s
    s.updSession i (fun x => { x with pages := x.pages.filter (fun q => !(p q)) })

/-- The stack of a new page of a session: table pages are placed with L = 255 (R93), a head's recurrent state, whose pages are numbered 16 for
each head, whole on one stack with b the head (R102), and the others by layer and page (R80). -/
def State.stackFor (s : State) (i : Nat) (x : Session) (kind layer b : Nat) : Option Nat :=
  match kind with
  | 3 => s.pickStack x.ctx i 255 b
  | 2 =>
    match x.pages.find? (fun q => decide (q.kind = 2) && decide (q.layer = layer) && decide (q.blk / 16 = b / 16)) with
    | some q => if 0 < s.pg .ssnPgFree q.stack then some q.stack else none
    | none => s.pickStack x.ctx i layer (b / 16)
  | _ => s.pickStack x.ctx i layer b

/-- A new page of session `i` with use `u`; false where no stack has one. -/
def State.addPage (s : State) (i kind layer b : Nat) (u : PgUse) : State × Bool :=
  match s.sess i with
  | none => (s, false)
  | some x =>
    match s.stackFor i x kind layer b with
    | none => (s, false)
    | some m =>
      let r := s.takeFrame m u.count
      let q : KvPage := { kind := kind, layer := layer, blk := b, stack := m, frame := r.2.2, use := u }
      (r.1.updSession i (fun x => { x with pages := x.pages ++ [q] }), true)

/-- Several new pages: kind, layer and page; false where one fails, with those made released. -/
def State.addPages (s : State) (i : Nat) (ps : List (Nat × Nat × Nat)) (u : PgUse) : State × Bool :=
  match ps with
  | [] => (s, true)
  | (k, l, b) :: rest =>
    let r := s.addPage i k l b u
    if r.2 then
      let t := r.1.addPages i rest u
      if t.2 then t else (t.1.dropPages i (fun q => decide (q.kind = k) && decide (q.layer = l) && decide (q.blk = b)), false)
    else r

/-- The key of a page's first byte. -/
def KvPage.key (q : KvPage) : Nat := keyKv q.stack q.frame 0

/-- Bytes of KV, digest, recurrent and table pages of a session, wherever they lie (KV_BYTES). -/
def Session.kvBytes (x : Session) : Nat :=
  ((x.pages.filter (fun q => decide (q.use ≠ .clean))).length + x.parked.length) * 65536

end Sys2Proof.Machine
end

