-- ==== Sys2Proof/Machine/Priv.lean ====
section
/-! DEFINITION. Private addresses (R41, R42, R63, R424): which memory a private offset names, and which ranges a long operation may name
(R209 step 5). The copy of a protected page before it is written (R258 to R260). -/

namespace Sys2Proof.Machine

/-- The space of Table 2-7 (0 private, 1 node, 2 domain) and the offset of an address; `none` where it breaks R41. -/
def spaceOf (a : Nat) : Option (Nat × Nat) :=
  if bits a 46 16 = 0 && decide (bits a 62 2 < 3) then some (bits a 62 2, a % 2 ^ 46) else none

/-- The first offset of the stack window (R41). -/
def stackWindow : Nat := 0x3FFFF0000000

/-- The offset lies in the stack window. -/
def inStacks (off : Nat) : Bool := decide (stackWindow ≤ off)

/-- The first offset of clerk `c`'s stack. -/
def stackOf (c : Nat) : Nat := stackWindow + c * 65536

/-- The offset lies in clerk `c`'s own 64 KiB. -/
def ownStack (c off : Nat) : Bool := decide (stackOf c ≤ off) && decide (off < stackOf c + 65536)

/-- The session whose blob area is mapped at a private offset of context `n`, with the offset in the area (R63). -/
def State.blobAt (s : State) (n off : Nat) : Option (Nat × Nat) :=
  s.ssn.sessions.rows.findSome? (fun r => match r.2.blobMap with
    | some (k, o) => if k = n && decide (o ≤ off) && decide (off < o + 2 ^ 23) then some (r.1, off - o) else none
    | none => none)

/-- The memory behind a private offset outside the stack window: a blob area, or a mapped private granule. -/
def State.granuleKey (s : State) (n off : Nat) : Option Nat :=
  match s.blobAt n off with
  | some (i, o) => some (keyBlob i o)
  | none => if s.tlr.granules.contains (n, off / 65536) then some (keyPriv n off) else none

/-- The memory a long operation of clerk `c` in context `n` finds at a private address: its own stack, or a mapped granule. -/
def State.privKey (s : State) (c n a : Nat) : Option Nat :=
  match spaceOf a with
  | some (0, off) =>
    if inStacks off then (if ownStack c off then some (keyStack (off - stackWindow)) else none) else s.granuleKey n off
  | _ => none

/-- A range cut at 64 KiB boundaries: addresses and lengths. -/
def slices : Nat → Nat → Nat → List (Nat × Nat)
  | 0, _, _ => []
  | fuel + 1, a, n =>
    if n = 0 then []
    else
      let m := min n (65536 - a % 65536)
      (a, m) :: slices fuel (a + m) (n - m)

/-- The slices of a range of `n` bytes. -/
def slicesOf (a n : Nat) : List (Nat × Nat) := slices (n / 65536 + 2) a n

/-- A range lies in mapped granules of context `n` or in clerk `c`'s own stack (R209 step 5). -/
def State.privMapped (s : State) (c n a len : Nat) : Bool := (slicesOf a len).all (fun x => (s.privKey c n x.1).isSome)

/-! ### The copy of protected pages (R257 to R260) -/

/-- The memory of page `k` of a shard of a job of context `n`. -/
def State.shardKey (s : State) (n : Nat) (h : Shard) (k : Nat) : Option Nat :=
  let off := h.off + k * 65536
  if h.space = 0 then (if inStacks off then some (keyStack (off - stackWindow)) else s.granuleKey n off)
  else if s.nmc.regions.any (fun _ r => decide (r.base * 65536 ≤ off) && decide (off < (r.base + r.granules) * 65536)) then some (keyNode off)
  else none

/-- A page of the member's open Statement goes to the Counterfoil, sealed (R262). -/
def State.sendCfPage (s : State) (j page : Nat) (data : List Byte) : State :=
  match s.stm.jobs.look j with
  | none => s
  | some x =>
    if x.cfLost then s
    else s.send (.cfPageOut x.desc.peer x.desc.tag x.desc.rank (x.openSlot.getD 0) page data)

/-- Copy page `k` of shard number `h` of job `j`'s open Statement into its slot page, with its digest (R258); a page without DEDUP goes to
the Counterfoil at once (R262). A source that cannot be read poisons the slot page (Table 10-7). -/
def State.copyPage (s : State) (j h k : Nat) : State :=
  match s.stm.jobs.look j with
  | none => s
  | some x =>
    match x.openStm, x.openSlot with
    | some v, some slot =>
      match v.shards[h]? with
      | none => s
      | some sh =>
        if sh.copied.contains k then s
        else
          match (x.slotPages slot)[sh.first + k]? with
          | none => s
          | some (m, f) =>
            let r := match s.shardKey x.desc.ctx sh k with
              | some key => s.readMem key 65536
              | none => (s, .poison, [])
            let data := if r.2.1 = .ok then r.2.2 else List.replicate 65536 0
            let s := (r.1.writeMem (keyKv m f 0) data).1
            let sh' := { sh with copied := sh.copied ++ [k], digests := sh.digests.put k (Config.shake256 data 32) }
            let bad := if r.2.1 = .ok then v.poisoned else (sh.first + k) :: v.poisoned
            let v' := { v with shards := v.shards.set h sh', poisoned := bad }
            let s := (s.updJob j (fun x => x.setSlot slot (some v'))).publishJob j
            let s := if r.2.1 = .ok then s else s.raise Evt.stm_slotPoison
            if sh.dedup then s else s.sendCfPage j (sh.first + k) data
    | _, _ => s

/-- The protected pages not yet copied that the 64 KiB at a key are the source of: job, shard and page. -/
def State.protectedAt (s : State) (key : Nat) : List (Nat × Nat × Nat) :=
  let page := key / 65536 * 65536
  s.stm.jobs.rows.flatMap (fun r =>
    match r.2.openStm with
    | none => []
    | some v =>
      (List.range v.shards.length).flatMap (fun h =>
        match v.shards[h]? with
        | none => []
        | some sh =>
          ((List.range sh.count).filter (fun k => !(sh.copied.contains k) && decide (s.shardKey r.2.desc.ctx sh k = some page))).map
            (fun k => (r.1, h, k))))

/-- Copy the protected pages a write of `n` bytes at a key meets, before the write takes effect (R260): a DMA write of a long operation is
held in this way, and counted. -/
def State.copyFirst (s : State) (key n : Nat) : State :=
  let ps := ((List.range ((key % 65536 + n + 65535) / 65536)).map (fun i => key + i * 65536)).flatMap s.protectedAt
  if ps.isEmpty then s
  else ps.foldl (fun s p => s.copyPage p.1 p.2.1 p.2.2) (s.count .stmStalls 0 1)

/-! ### Reads and writes of a long operation -/

/-- Read a private range for a long operation: `none` where it is unmapped; otherwise a status with the address that failed, and the
bytes. -/
def State.readPriv (s : State) (c n a len : Nat) : Option (State × Status × Nat × List Byte) :=
  (slicesOf a len).foldl (fun (r : Option (State × Status × Nat × List Byte)) x =>
    match r with
    | none => none
    | some (s, st, bad, bs) =>
      if st ≠ .ok then r
      else
        match s.privKey c n x.1 with
        | none => none
        | some key =>
          let y := s.readMem key x.2
          some (y.1, y.2.1, if y.2.1 = .ok then bad else x.1, bs ++ y.2.2)) (some (s, .ok, 0, []))

/-- Write a private range for a long operation; `none` where it is unmapped. -/
def State.writePriv (s : State) (c n a : Nat) (bs : List Byte) : Option (State × Status × Nat) :=
  if s.privMapped c n a bs.length then
    (slicesOf a bs.length).foldl (fun (r : Option (State × Status × Nat)) x =>
      match r with
      | none => none
      | some (s, st, bad) =>
        if st ≠ .ok then r
        else
          match s.privKey c n x.1 with
          | none => none
          | some key =>
            let y := (s.copyFirst key x.2).writeMem key ((bs.drop (x.1 - a)).take x.2)
            some (y.1, y.2, if y.2 = .ok then bad else x.1)) (some (s, .ok, 0))
  else none

end Sys2Proof.Machine
end

