-- ==== Sys2Proof/Machine/Nmc.lean ====
section
/-! DEFINITION. The node shared window: regions, the directory and its recalls, the host port's and the node ports' requests, ingress holds,
load levels, cold granules and failed agents (R270 to R288). -/

namespace Sys2Proof.Machine

/-! ### Regions (R270 to R273) -/

/-- A node-region identifier (R270). -/
def regionIdent (ctx ix gen : Nat) : Word := sigIdent ctx ix gen

/-- The region that holds a node offset, unless it has been deleted (R272). -/
def State.regionAt (s : State) (off : Nat) : Option (Nat × Region) :=
  s.nmc.regions.rows.find? (fun r => !r.2.dying && decide (r.2.base * 65536 ≤ off) && decide (off < (r.2.base + r.2.granules) * 65536))

/-- A node offset lies in a region of context `n` (R272). -/
def State.nodeMapped (s : State) (n off : Nat) : Bool :=
  match s.regionAt off with
  | some (_, r) => decide (r.ctx = n)
  | none => false

/-- The lowest range of `n` granules from `lo` below `hi` that no region holds (R271). -/
def State.freeGranules (s : State) (lo hi n : Nat) : Option Nat :=
  let ok := fun b => decide (b + n ≤ hi) && s.nmc.regions.rows.all (fun r => decide (r.2.base + r.2.granules ≤ b) || decide (b + n ≤ r.2.base))
  let cands := (lo :: s.nmc.regions.rows.map (fun r => r.2.base + r.2.granules)).filter (fun b => decide (lo ≤ b) && ok b)
  cands.foldl (fun a b => match a with
    | none => some b
    | some x => some (min x b)) none

/-- The form of a region descriptor (R271 check 1). -/
def regionForm (w0 w1 : Nat) : Bool :=
  !(bit w0 9) && decide (bits w0 30 34 = 0) && decide (bits w1 32 32 = 0) && decide (bits w0 6 2 ≠ 3) &&
  decide (bits w0 20 10 &&& bits w0 10 10 = bits w0 20 10) && decide (1 ≤ bits w1 0 32)

/-- `NMC_REGION_STATUS`. -/
def State.regionStatus (s : State) (st reason ix : Nat) : State :=
  s.wr .nmcRegionStatus 0 (BitVec.ofNat 64 (st * 2 ^ 24 + reason * 2 ^ 16 + ix % 4096))

/-- GEN of a region index: 1 before its first use (DEDUCED: it wraps to 1, log 16). -/
def State.regionGen (s : State) (i : Nat) : Nat := s.nmc.gens.lookD i 1

/-- A region comes into being at a base, zeroed, with its identifier and first offset published (R271). -/
def State.addRegion (s : State) (i : Nat) (r : Region) : State :=
  let s := s.onNmc (fun m => { m with regions := m.regions.put i r, gens := m.gens.put i r.gen })
  let s := s.zeroRange (keyNode (r.base * 65536)) (keyNode (r.base * 65536) + r.granules * 65536)
  (s.wr .nmcRegionId i (regionIdent r.ctx i r.gen)).wr .nmcRegionBase i (BitVec.ofNat 64 (r.base * 65536))

/-- `REGION_CREATE`: the checks of R271 in order; the granules are zeroed before STATE reads created. -/
def execRegionCreate (rq : Requester) (v : Word) (s : State) : Ans :=
  .next (s.woWrite rq .nmcRegionCreate 0 true (low6 v) (fun s =>
    let d := s.bytesAt (keyHub v.toNat) 32
    let w0 := leAt d 0 8
    let w1 := leAt d 8 8
    let n := bits w0 0 6
    let g := bits w1 0 32
    let ix := lowestFree s.nmc.regions.has 0 4096
    let refuse := fun k => (s.regionStatus 3 k 0).raise Evt.nmc_createRefused
    if !(regionForm w0 w1) || !(allZero (takeAt d 16 16)) then refuse 1
    else if !(s.resident n && s.actsFor rq n) then refuse 2
    else
      match ix with
      | none => refuse 3
      | some i =>
        match s.freeGranules 0 s.nmc.window g with
        | none => refuse 4
        | some b =>
          let r : Region := { gen := s.regionGen i, ctx := n, temp := bits w0 6 2, hostPark := bit w0 8, readM := bits w0 10 10,
                              writeM := bits w0 20 10, base := b, granules := g, stks := s.stackSet n, phase := none, dying := false }
          ((s.addRegion i r).regionStatus 2 0 i).raise Evt.nmc_createDone))

/-! ### Agents -/

/-- STATE of an agent (Table 11-15): 0 absent, 1 in service, 2 failed. -/
def State.agentSt (s : State) (a : Nat) : Nat := s.fld Fld.nmcAgentStatus_state a

/-- LOAD of an agent. -/
def State.agentLoad (s : State) (a : Nat) : Nat := s.fld Fld.nmcAgentStatus_load a

/-- The agent a request comes from; a clerk is none. -/
def NReq.agent (q : NReq) : Option Nat :=
  match q.src with
  | .clerk _ => none
  | .host h _ => some h
  | .port p _ => some (p + 2)

/-- The line of a request. -/
def NReq.line (q : NReq) : Nat := q.off / 64

/-- The request writes. -/
def NReq.writes (q : NReq) : Bool :=
  match q.op with
  | .read _ => false
  | .write _ _ _ => true
  | .atomic _ _ _ _ => true
  | .clerk w => w

/-- Bytes an agent has read and written, in MiB in its register (Table 11-11). -/
def State.countXfer (s : State) (a rd wr : Nat) : State :=
  let x := s.nmc.xfer.lookD a (0, 0)
  let x := (x.1 + rd, x.2 + wr)
  (s.onNmc (fun m => { m with xfer := m.xfer.put a x })).wr .nmcAgentBytes a
    (BitVec.ofNat 64 (x.1 / 2 ^ 20 % 2 ^ 32 + x.2 / 2 ^ 20 % 2 ^ 32 * 2 ^ 32))

/-! ### Answers -/

/-- An MRS leaves, and the tag is free again (R276, R277). -/
def State.mrs (s : State) (p tag hold status : Nat) (data : List Byte) : State :=
  let s := s.onNmc (fun m => { m with openTags := m.openTags.filter (fun t => !(decide (t.1 = p) && decide (t.2.1 = tag))) })
  s.sendOn p 3 0 (16 + data.length) (.mrs p tag hold (s.agentLoad (p + 2)) status data)

/-- A refused request (R273): a host read is answered with poison, a host write completed and discarded, a node-port request with
DENIED; a clerk's access raises ADDRESS. -/
def State.nmcRefuse (s : State) (q : NReq) : State :=
  match q.src with
  | .clerk c =>
    if (s.clerk c).stall = some (.recall q.serial) then
      let s := s.setClerk c { s.clerk c with stall := none }
      match s.stalledIx c with
      | none => s
      | some ix => s.trap c .address 0 ix.cl.pc ix.addr
    else s
  | .host h tag =>
    let s := s.raise Evt.nmc_accessRefused
    if q.writes then s.send (.cxlCmp h tag (s.agentLoad h)) else s.send (.cxlData h tag (s.agentLoad h) true [])
  | .port p tag => (s.raise Evt.nmc_accessRefused).mrs p tag 0 0x0040 []

/-- The bytes of a line after a write of `data` under byte mask `mask`. -/
def mergeLine (old data : List Byte) (mask : Nat) : List Byte :=
  (List.range 64).map (fun i => if bit mask i then data.getD i 0 else old.getD i 0)

/-- Write a line under a byte mask: a full mask writes the whole line, a partial one merges (R277, R22). -/
def State.writeMasked (s : State) (key mask : Nat) (data : List Byte) : State × Status :=
  if mask % 2 ^ 64 = 2 ^ 64 - 1 then s.writeMem key (takeAt data 0 64)
  else
    let r := s.readCw key
    if r.2 = .ok then (r.1.putBytes key (mergeLine (r.1.bytesAt key 64) data mask), .ok) else r

/-! ### The directory (R278, R279) -/

/-- The stack that holds an offset of region `i`: WARM and COLD granules lie whole on the stack of R80, HOT ones in 4 KiB pieces over S (R285; the order of
the pieces over S is the model's, log 15). -/
def Region.stackAt (i : Nat) (r : Region) (off : Nat) : Nat :=
  let n := r.stks.length
  (r.stks[if r.temp = 1 then off / 4096 % max 1 n else stackHash i 253 (off / 65536) n]?).getD 0

/-- The hub that owns a line. -/
def State.lineHub (s : State) (line : Nat) : Nat :=
  match s.nmc.regions.rows.find? (fun r => decide (r.2.base * 1024 ≤ line) && decide (line < (r.2.base + r.2.granules) * 1024)) with
  | none => 0
  | some (i, r) => hubOfStack (r.stackAt i (line * 64 - r.base * 65536))

/-- The line lies in a HOT region. -/
def State.lineHot (s : State) (line : Nat) : Bool :=
  match s.regionAt (line * 64) with
  | some (_, r) => decide (r.temp = 1)
  | none => false

/-- A directory entry without a holder is free. -/
def DirEnt.held (e : DirEnt) : Bool := decide (e.st ≠ .shared) || !(e.sharers.isEmpty)

/-- Agents other than `who` that hold the line. -/
def DirEnt.others (e : DirEnt) (who : Option Nat) : List Nat :=
  (match e.st with
   | .shared => e.sharers
   | .excl => [e.owner]
   | .px => []).filter (fun a => decide (some a ≠ who))

/-- Set, or free, a line's entry. -/
def State.setDir (s : State) (line : Nat) (e : DirEnt) : State :=
  s.onNmc (fun m => { m with dir := if e.held || e.rcl then m.dir.put line e else m.dir.del line })

/-- A recall is sent to agent `a` (R279), counted. -/
def State.sendRecall (s : State) (line a : Nat) (downgrade : Bool) : State :=
  let s := s.count .nmcRecalls 0 1
  let s := s.onNmc (fun m => { m with recalls := m.recalls.put (line, a) ⟨downgrade, s.now, s.now, false⟩ })
  if a < 2 then s.send (.recallMsg a line downgrade) else s.sendOn (a - 2) 0 0 16 (.recallMsg a line downgrade)

/-- Set RECALL and send the recalls in parallel. -/
def State.recallFrom (s : State) (line : Nat) (as_ : List Nat) (downgrade : Bool) : State :=
  let s := s.onNmc (fun m => { m with dir := m.dir.upd line (fun e => { e with rcl := true }) })
  as_.foldl (fun s a => s.sendRecall line a downgrade) s

/-- A request waits for a line's recalls, behind those that came before. -/
def State.park (s : State) (line : Nat) (q : NReq) : State :=
  s.onNmc (fun m => { m with waiting := m.waiting.put line (m.waiting.lookD line [] ++ [q]) })

/-- The entry evicted for a new hold on `line`: none while its set has a free way (R278). Which lines share a set is not stated (free,
log 15). -/
def State.evictWay (s : State) (line : Nat) : Option Nat :=
  let h := s.lineHub line
  let mine := s.nmc.dir.rows.filter (fun r => decide (s.lineHub r.1 = h))
  if mine.length < 16 then none
  else
    let set := mine.filter (fun r => decide (Config.dirSet r.1 % 262144 = Config.dirSet line % 262144))
    if set.length < 16 then none
    else
      let oldest := fun (l : List (Nat × DirEnt)) => l.foldl (fun (a : Option (Nat × DirEnt)) r => match a with
        | none => some r
        | some x => if r.2.order < x.2.order then some r else some x) none
      let free := set.filter (fun r => !r.2.rcl)
      match oldest (free.filter (fun r => !(s.lineHot r.1))) with
      | some r => some r.1
      | none => match oldest free with
        | some r => some r.1
        | none => (oldest set).map (·.1)

/-- What the directory does before a request's access (Table 11-6). -/
inductive DirAct
  | go | recall (agents : List Nat) (downgrade : Bool) | evict (victim : Nat)
  deriving DecidableEq, Repr

/-- The action of Table 11-6. -/
def State.dirAct (s : State) (q : NReq) : DirAct :=
  let who := q.agent
  let hold := match q.op with
    | .read h => h
    | _ => 0
  match s.nmc.dir.look q.line with
  | none => if hold = 0 then .go else match s.evictWay q.line with
    | none => .go
    | some v => .evict v
  | some e =>
    let os := e.others who
    if os.isEmpty then .go
    else if q.writes || hold = 2 then .recall os false
    else if e.st = .excl then .recall os true
    else .go

/-- The entry after the access (Table 11-6): a granted hold is recorded; a write frees the entry, or leaves X with a writer that already
held it and has not released it. -/
def State.dirAfter (s : State) (q : NReq) (granted : Bool) : State :=
  let line := q.line
  let e := s.nmc.dir.look line
  match q.agent, q.op with
  | some a, .read 1 =>
    if !granted then s
    else
      match e with
      | some e => if e.st = .excl then s else s.setDir line { e with sharers := if e.sharers.contains a then e.sharers else a :: e.sharers }
      | none => (s.setDir line ⟨.shared, [a], 0, false, s.nmc.dirCtr⟩).onNmc (fun m => { m with dirCtr := m.dirCtr + 1 })
  | some a, .read 2 =>
    if !granted then s
    else
      match e with
      | some e => s.setDir line { e with st := .excl, sharers := [], owner := a }
      | none => (s.setDir line ⟨.excl, [], a, false, s.nmc.dirCtr⟩).onNmc (fun m => { m with dirCtr := m.dirCtr + 1 })
  | who, _ =>
    if q.writes then
      let keep := match q.op with
        | .write _ _ rel => !rel
        | _ => true
      match e with
      | some e => if e.st = .excl && decide (some e.owner = who) && keep then s else s.onNmc (fun m => { m with dir := m.dir.del line })
      | none => s
    else s

/-- A write that meets a protected page not yet copied is held until the page has been (R260), and counted. -/
def State.holdWrite (s : State) (page : Nat) (w : HoldWho) : State :=
  (s.count .stmStalls 0 1).onStm (fun x => { x with holds := x.holds.put page (x.holds.lookD page [] ++ [(w, s.now)]) })

/-- An agent's access is performed at the line's ordering point and answered (R276, R282, R287). -/
def State.nmcDo (s : State) (q : NReq) : State :=
  let key := keyNode q.off
  match q.src, q.op with
  | .clerk c, _ => if (s.clerk c).stall = some (.recall q.serial) then (s.wakeMem c key).dirAfter q true else s
  | .host h tag, .read _ =>
    let r := s.readMem key 64
    let s := (r.1.dirAfter q true).countXfer h 64 0
    s.send (.cxlData h tag (s.agentLoad h) (decide (r.2.1 ≠ .ok)) r.2.2)
  | .host h tag, .write mask data _ =>
    let s := (((s.writeMasked key mask data).1).dirAfter q true).countXfer h 0 64
    s.send (.cxlCmp h tag (s.agentLoad h))
  | .port p tag, .read hold =>
    let r := s.readMem key 64
    let ok := decide (r.2.1 = .ok)
    ((r.1.dirAfter q ok).countXfer (p + 2) (if ok then 64 else 0) 0).mrs p tag (if ok then hold else 0) r.2.1.code r.2.2
  | .port p tag, .write mask data _ =>
    let r := s.writeMasked key mask data
    ((r.1.dirAfter q true).countXfer (p + 2) 0 (if r.2 = .ok then 64 else 0)).mrs p tag 0 r.2.code []
  | .port p tag, .atomic size op operand cmp =>
    let n := sizeBytes size
    let r := s.readMem key n
    if r.2.1 = .ok then
      let old := leNat r.2.2
      let w := r.1.writeMem key (natLe n (amoNew op n old (operand % 2 ^ (8 * n)) (cmp % 2 ^ (8 * n))))
      ((w.1.dirAfter q true).countXfer (p + 2) n n).mrs p tag 0 w.2.code (if w.2 = .ok then natLe 16 old else [])
    else (r.1.dirAfter q true).mrs p tag 0 r.2.1.code []
  | _, _ => s

/-- An access is performed, once no protected page holds it (R260). -/
def State.nmcPerform (s : State) (q : NReq) : State :=
  let key := keyNode q.off
  if q.writes && !((s.protectedAt key).isEmpty) then s.holdWrite (key / 65536 * 65536) (.node q) else s.nmcDo q

/-- A PX entry at lookup is the failed agent's exclusive line: poison is in the line and the entry is free (R286). -/
def State.resolvePx (s : State) (line : Nat) : State :=
  match s.nmc.dir.look line with
  | some e => if e.st = .px && !e.rcl then (s.poisonLine (keyNode (line * 64))).onNmc (fun m => { m with dir := m.dir.del line }) else s
  | none => s

/-- Whether R273 allows the request: its line lies in a region, and the agent is in the mask. -/
def State.nmcAllowed (s : State) (q : NReq) : Bool :=
  match q.agent, s.regionAt q.off with
  | none, r => r.isSome
  | some a, some (_, r) => bit (if q.writes then r.writeM else r.readM) a
  | some _, none => false

/-- A granule is touched now (R285). -/
def State.touch (s : State) (off : Nat) : State :=
  match s.regionAt off with
  | some (i, r) => s.onNmc (fun m => { m with touched := m.touched.put (i, off / 65536 - r.base) s.now })
  | none => s

/-- A request reaches its line: refused under R273, stalled on a parked granule (R285), queued behind a recall, or performed (R279). -/
def State.nmcServe (s : State) (q : NReq) : State :=
  if !(s.nmcAllowed q) then s.nmcRefuse q
  else
    let s := s.touch q.off
    let gran := match s.regionAt q.off with
      | some (i, r) => some (i, q.off / 65536 - r.base)
      | none => none
    match gran with
    | none => s
    | some k =>
      if s.nmc.parked.has k then s.onNmc (fun m => { m with faults := m.faults.put k (m.faults.lookD k [] ++ [q]) })
      else
        let line := q.line
        match (s.nmc.dir.look line).map (·.rcl) with
        | some true => s.park line q
        | _ =>
          let s := s.resolvePx line
          match s.dirAct q with
          | .go => s.nmcPerform q
          | .recall as_ dg => (s.recallFrom line as_ dg).park line q
          | .evict v =>
            let s := s.park v q
            match s.nmc.dir.look v with
            | none => s
            | some e => if e.rcl then s else (s.recallFrom v (e.others none) false).raise Evt.nmc_dirEvict

/-! ### Deleting a region (R272) -/

/-- Lines of a region that have directory entries. -/
def State.regionLines (s : State) (r : Region) : List Nat :=
  s.nmc.dir.keysIf (fun l _ => decide (r.base * 1024 ≤ l) && decide (l < (r.base + r.granules) * 1024))

/-- A deleted region none of whose lines is held: GEN advances and its index and granules are free. -/
def State.endRegion (s : State) (i : Nat) : State :=
  match s.nmc.regions.look i with
  | none => s
  | some r =>
    if r.dying && (s.regionLines r).isEmpty then
      let g := if r.gen = 2 ^ 46 - 1 then 1 else r.gen + 1
      let ex := (s.nmc.parked.rows.filter (fun x => decide (x.1.1 = i))).map (·.2)
      let us := s.fls.map.keysIf (fun u _ => ex.any (fun x => match s.fls.extents.look x with
        | some e => decide (e.base ≤ u) && decide (u < e.base + e.units)
        | none => false))
      let s := s.discardUnits us
      let s := s.onFls (fun f => { f with extents := f.extents.keep (fun k _ => !(ex.contains k)) })
      let s := s.onNmc (fun m => { m with
        regions := m.regions.del i, gens := m.gens.put i g, parked := m.parked.keep (fun k _ => decide (k.1 ≠ i)),
        touched := m.touched.keep (fun k _ => decide (k.1 ≠ i)) })
      let s := if r.phase.isSome then (s.handBack r.granules).onSch (fun t => { t with
          groups := t.groups.mapVals (fun _ x => if x.extRegion = some i then { x with extRegion := none } else x) }) else s
      (s.wr .nmcRegionId i 0).wr .nmcRegionBase i 0
    else s

/-- Every deleted region that can end, ends. -/
def State.endRegions (s : State) : State := (s.nmc.regions.keysIf (fun _ r => r.dying)).foldl (fun s i => s.endRegion i) s

/-- A line's recalls have all been answered: RECALL falls, an entry without a holder is free, and the waiting requests go on in arrival
order (R279). -/
def State.dirResume (s : State) (line : Nat) : State :=
  if s.nmc.recalls.any (fun k _ => decide (k.1 = line)) then s
  else
    let s := match s.nmc.dir.look line with
      | some e => s.setDir line { e with rcl := false }
      | none => s
    let qs := s.nmc.waiting.lookD line []
    let s := s.onNmc (fun m => { m with waiting := m.waiting.del line })
    (qs.foldl (fun s q => s.nmcServe q) s).endRegions

/-- Region `i` is deleted: every line is recalled from every agent; stalled and later accesses find it unmapped (R272). -/
def State.deleteRegion (s : State) (i : Nat) : State :=
  match s.nmc.regions.look i with
  | none => s
  | some r =>
    let s := s.onNmc (fun m => { m with regions := m.regions.put i { r with dying := true } })
    let qs := (s.nmc.faults.rows.filter (fun x => decide (x.1.1 = i))).flatMap (·.2)
    let s := s.onNmc (fun m => { m with faults := m.faults.keep (fun k _ => decide (k.1 ≠ i)) })
    let s := qs.foldl (fun s q => s.nmcServe q) s
    let s := (s.regionLines r).foldl (fun s l =>
      match s.nmc.dir.look l with
      | none => s
      | some e => if e.rcl then s else if e.st = .px then s.onNmc (fun m => { m with dir := m.dir.del l })
        else s.recallFrom l (e.others none) false) s
    s.endRegion i

/-- `REGION_DELETE` (R272). -/
def execRegionDelete (rq : Requester) (v : Word) (s : State) : Ans :=
  let i := bits v.toNat 0 12
  let ok := match s.nmc.regions.look i with
    | some r => s.actsFor rq r.ctx
    | none => decide (rq = .firmware)
  .next (s.woWrite rq .nmcRegionDelete 0 ok 0 (fun s => s.deleteRegion i))

/-- `REGION_TEMP`: the temperature and HOST_PARK of a region change; TEMP 3 is ignored (R285). -/
def execRegionTemp (rq : Requester) (v : Word) (s : State) : Ans :=
  let i := bits v.toNat 0 12
  let t := bits v.toNat 12 2
  let ok := match s.nmc.regions.look i with
    | some r => s.actsFor rq r.ctx
    | none => decide (rq = .firmware)
  .next (s.woWrite rq .nmcRegionTemp 0 ok 0 (fun s =>
    if t = 3 then s
    else s.onNmc (fun m => { m with regions := m.regions.upd i (fun r => { r with temp := t, hostPark := bit v.toNat 14 }) })))

/-! ### Ingress (R283) and order (R276) -/

/-- The read and write buckets of agent `a`, filled up to now: RD_GBPS and WR_GBPS bytes a ns, up to BURST_KIB. -/
def State.buckets (s : State) (a : Nat) : Nat × Nat :=
  let b := max 1 (s.fld Fld.nmcAgentBw_burstKib a) * 1024
  let x := s.nmc.buckets.lookD a (b, b, s.now)
  let dt := s.now - x.2.2
  (min b (x.1 + s.fld Fld.nmcAgentBw_rdGbps a * dt), min b (x.2.1 + s.fld Fld.nmcAgentBw_wrGbps a * dt))

/-- Bytes a request takes from the two buckets. -/
def NReq.cost (q : NReq) : Nat × Nat :=
  match q.op with
  | .read _ => (64, 0)
  | .write _ _ _ => (0, 64)
  | .atomic size _ _ _ => (sizeBytes size, sizeBytes size)
  | .clerk _ => (0, 0)

/-- The buckets cover the request; a rate of 0 has no limit. -/
def State.covers (s : State) (a : Nat) (q : NReq) : Bool :=
  let b := s.buckets a
  let c := q.cost
  (decide (s.fld Fld.nmcAgentBw_rdGbps a = 0) || decide (c.1 ≤ b.1)) && (decide (s.fld Fld.nmcAgentBw_wrGbps a = 0) || decide (c.2 ≤ b.2))

/-- The request takes its bytes. -/
def State.takeBucket (s : State) (a : Nat) (q : NReq) : State :=
  let b := s.buckets a
  let c := q.cost
  s.onNmc (fun m => { m with buckets := m.buckets.put a (b.1 - c.1, b.2 - c.2, s.now) })

/-- An earlier request of the port still has no MRS. -/
def State.earlierOpen (s : State) (p serial : Nat) : Bool :=
  s.nmc.openTags.any (fun t => decide (t.1 = p) && decide (t.2.2 < serial))

/-- A request past ingress: an ORDERED one waits for the port's earlier requests. -/
def State.takeIn (s : State) (q : NReq) : State :=
  match q.src with
  | .port p _ =>
    if q.ordered && s.earlierOpen p q.serial then s.onNmc (fun m => { m with ordered := m.ordered ++ [q] }) else s.nmcServe q
  | _ => s.nmcServe q

/-- ORDERED requests whose turn has come are served, earliest first. -/
def drainOrdered : Nat → State → State
  | 0, s => s
  | fuel + 1, s =>
    match s.nmc.ordered.find? (fun q => match q.src with
        | .port p _ => !(s.earlierOpen p q.serial)
        | _ => true) with
    | none => s
    | some q =>
      drainOrdered fuel ((s.onNmc (fun m => { m with ordered := m.ordered.filter (fun x => decide (x.serial ≠ q.serial)) })).nmcServe q)

/-- The lines of a node shard that an agent, in service or failed, holds exclusive. -/
def State.shardExcl (s : State) (h : Shard) : List Nat :=
  if h.space = 0 then []
  else s.nmc.dir.keysIf (fun l e => decide (h.off ≤ l * 64) && decide (l * 64 < h.off + h.count * 65536) && decide (e.st ≠ .shared))

/-- A shard joins the job's open Statement: its pages are protected and not copied from now on (R257). -/
def State.addShard (s : State) (j : Nat) (r : Rcpt) (h : Shard) : State :=
  match (s.stm.jobs.look j).bind (fun x => x.openStm.map (fun v => (x, v))) with
  | none => s
  | some (x, v) =>
    let h := { h with first := v.counts.1 }
    let s := s.updJob j (fun y => { y.setSlot (x.openSlot.getD 0) (some { v with shards := v.shards ++ [h] }) with
      adds := y.adds.filter (fun a => decide (a.1 ≠ r)) })
    (s.publishJob j).postResult r.clerk r.slot r.serial (word0 .ok 0) (BitVec.ofNat 64 h.bytes)

/-- Waiting ADDs go on: a line still exclusive is recalled, and a shard without one is snapshot (R257). -/
def State.settleAdds (s : State) : State :=
  s.stm.jobs.rows.foldl (fun (s : State) jr =>
    jr.2.adds.foldl (fun (s : State) a =>
      let s := (s.shardExcl a.2).foldl (fun s l => s.resolvePx l) s
      let ls := s.shardExcl a.2
      if ls.isEmpty then s.addShard jr.1 a.1 a.2
      else
        ls.foldl (fun (s : State) l =>
          match s.nmc.dir.look l with
          | none => s
          | some e => if e.rcl then s else s.recallFrom l (e.others none) true) s) s) s

/-- After requests have moved: ORDERED ones go on. -/
def State.settleNmc (s : State) : State := (drainOrdered s.nmc.ordered.length s).settleAdds

/-- A request of an outside agent arrives: held at ingress when its bucket is short or others are held before it (R283). -/
def State.arrive (s : State) (a : Nat) (src : NSrc) (op : NOp) (off : Nat) (ordered : Bool) : State :=
  let q : NReq := ⟨src, op, off, s.nmc.serial, ordered⟩
  let s := s.onNmc (fun m => { m with serial := m.serial + 1 })
  if (s.nmc.held.lookD a []).isEmpty && s.covers a q then ((s.takeBucket a q).takeIn q).settleNmc
  else (s.onNmc (fun m => { m with held := m.held.put a (m.held.lookD a [] ++ [q]) })).setFld Fld.nmcAgentStatus_held a 1

/-- `INGRESS_HOLD_RELEASE`: the held request in front proceeds once its bucket covers it (R283). -/
def execIngressHoldRelease (a : Nat) (s : State) : Ans :=
  s.whenLive (match s.nmc.held.lookD a [] with
    | [] => s
    | q :: rest =>
      if s.covers a q then
        let s := s.onNmc (fun m => { m with held := if rest.isEmpty then m.held.del a else m.held.put a rest })
        let s := if rest.isEmpty then s.setFld Fld.nmcAgentStatus_held a 0 else s
        ((s.takeBucket a q).takeIn q).settleNmc
      else s)

/-! ### The host port (R275) -/

/-- The hold a Meta0-State asks for. -/
def metaHold : Meta0 → Nat
  | .inv => 0
  | .shared => 1
  | .any => 2

/-- `CXL_MEM_READ`: a host read of the line at a node offset. -/
def execCxlMemRead (head tag off : Nat) (m : Meta0) (s : State) : Ans :=
  .next (if head < 2 && s.agentSt head = 1 && !s.frz.frozen then
    s.arrive head (.host head tag) (.read (metaHold m)) (off / 64 * 64) false else s)

/-- `CXL_MEM_WRITE`: a host write; Meta0-State I leaves the head no hold (R275). -/
def execCxlMemWrite (head tag off : Nat) (m : Meta0) (mask : Nat) (data : List Byte) (s : State) : Ans :=
  .next (if head < 2 && s.agentSt head = 1 && !s.frz.frozen then
    s.arrive head (.host head tag) (.write mask data (decide (m = .inv))) (off / 64 * 64) false else s)

/-- An agent answers a recall: written-back data goes to the line unless its region has been deleted, the longest recall is kept, and the
entry follows. `keep`: the agent still holds the line shared. -/
def State.answerRecall (s : State) (line a : Nat) (data : Option (List Byte)) (keep : Bool) : State :=
  match s.nmc.recalls.look (line, a) with
  | none => s
  | some r =>
    let s := match data with
      | some d => if (s.regionAt (line * 64)).isSome then (s.writeMem (keyNode (line * 64)) (takeAt d 0 64)).1 else s
      | none => s
    let t := s.now - r.firstAt
    let s := if (s.rd .nmcRecallMax).toNat < t then s.wr .nmcRecallMax 0 (BitVec.ofNat 64 t) else s
    let s := s.onNmc (fun m => { m with recalls := m.recalls.del (line, a) })
    let s := match s.nmc.dir.look line with
      | none => s
      | some e =>
        let stay := r.downgrade && keep
        let sh := e.sharers.filter (fun x => decide (x ≠ a))
        let e := match e.st with
          | .excl => if e.owner = a then { e with st := .shared, sharers := if stay then [a] else [], owner := 0 } else e
          | .shared => { e with sharers := if stay then a :: sh else sh }
          | .px => e
        s.setDir line e
    (s.dirResume line).settleNmc

/-- `BIRSP`: a host's back-invalidate response, with its writeback (R275). -/
def execBirsp (head line : Nat) (shared : Bool) (wb : Option (List Byte)) (s : State) : Ans :=
  .next (if s.frz.frozen then s else s.answerRecall line head wb shared)

/-! ### Node ports (R276, R277) -/

/-- Fields of a memory message header (Table 11-4). -/
def mhTag (w0 : Word) : Nat := bits w0.toNat 8 16
/-- SIZE. -/
def mhSize (w0 : Word) : Nat := bits w0.toNat 24 3
/-- OP. -/
def mhOp (w0 : Word) : Nat := bits w0.toNat 27 2
/-- ADDR. -/
def mhAddr (w1 : Word) : Nat := bits w1.toNat 0 46

/-- A header of a request keeps R277: no reserved or response bit set, an aligned address, a SIZE and an OP listed for its type. -/
def mhOk (w0 w1 : Word) : Bool :=
  let ty := bits w0.toNat 0 8
  let fixed := decide (bits w0.toNat 29 2 = 0) && decide (bits w0.toNat 32 16 = 0) && decide (bits w0.toNat 49 15 = 0) &&
    decide (bits w1.toNat 46 18 = 0) && (decide (ty = 0x42) || !(bit w0.toNat 48))
  let sized := match ty with
    | 0x43 => (decide (mhSize w0 = 3) || decide (mhSize w0 = 4)) && decide (mhOp w0 ≤ 2)
    | 0x41 => decide (mhSize w0 = 6) && decide (mhOp w0 ≤ 2)
    | _ => decide (mhSize w0 = 6) && decide (mhOp w0 = 0)
  fixed && sized && decide (mhAddr w1 % (if ty = 0x43 then sizeBytes (mhSize w0) else 64) = 0)

/-- A node-port memory request arrives: DENIED under R277, or on its way. -/
def State.portReq (s : State) (p ty : Nat) (w0 w1 : Word) (op : NOp) : State :=
  if p < 8 && s.agentSt (p + 2) = 1 && !s.frz.frozen && decide (bits w0.toNat 0 8 = ty) then
    let tag := mhTag w0
    let mine := s.nmc.openTags.filter (fun t => decide (t.1 = p))
    if mine.any (fun t => decide (t.2.1 = tag)) || !(mhOk w0 w1) || 8192 ≤ mine.length then
      s.sendOn p 3 0 16 (.mrs p tag 0 (s.agentLoad (p + 2)) 0x0040 [])
    else
      let s := s.onNmc (fun m => { m with openTags := m.openTags ++ [(p, tag, m.serial)] })
      s.arrive (p + 2) (.port p tag) op (mhAddr w1) (bit w0.toNat 31)
  else s

/-- `MRD`: a read, with the hold of OP. -/
def execMrd (p : Nat) (w0 w1 : Word) (s : State) : Ans := s.whenLive (s.portReq p 0x41 w0 w1 (.read (mhOp w0)))

/-- `MWR`: a write under a byte mask; RELEASE gives up the writer's hold. -/
def execMwr (p : Nat) (w0 w1 mask : Word) (data : List Byte) (s : State) : Ans :=
  s.whenLive (s.portReq p 0x42 w0 w1 (.write mask.toNat data (bit w0.toNat 48)))

/-- `MAT`: an atomic. -/
def execMat (p : Nat) (w0 w1 : Word) (operand cmp : Nat) (s : State) : Ans :=
  s.whenLive (s.portReq p 0x43 w0 w1 (.atomic (mhSize w0) (mhOp w0) operand cmp))

/-- `RCA`: a recall answer, with data when OP is 1; a downgraded holder stays a sharer (Table 11-6). -/
def execRca (p : Nat) (w0 w1 : Word) (data : List Byte) (s : State) : Ans :=
  .next (if p < 8 && !s.frz.frozen && decide (bits w0.toNat 0 8 = 0x46) then
    s.answerRecall (mhAddr w1 / 64) (p + 2) (if mhOp w0 = 1 then some data else none) true else s)

/-- A clerk's access of node space reaches its line: the clerk stalls in READY until it is done (R45, R279). -/
def State.clerkNode (s : State) (ix : Ix) (off : Nat) : State :=
  let n := s.nmc.serial
  let s := s.onNmc (fun m => { m with serial := n + 1 })
  let s := s.setClerk ix.c { s.clerk ix.c with stall := some (.recall n) }
  (s.nmcServe ⟨.clerk ix.c, .clerk (decide (wMajor ix.w ≠ 0x48)), off, n, false⟩).settleNmc

/-! ### Failed agents (R281, R286) -/

/-- Requests that are not `a`'s. -/
def notOf (a : Nat) (qs : List NReq) : List NReq := qs.filter (fun q => decide (q.agent ≠ some a))

/-- An agent is declared failed (R286): its X lines become PX and count as poisoned, its sharer bits clear, its unordered requests, tags,
buckets and holds go, its recalls in flight complete at once, and every hub has a sweep to make. -/
def State.failAgent (s : State) (a : Nat) : State :=
  if s.agentSt a = 1 then
    let s := ((s.setFld Fld.nmcAgentStatus_state a 2).setFld Fld.nmcAgentStatus_held a 0).raise Evt.nmc_agentFailed
    let px := s.nmc.dir.keysIf (fun _ e => decide (e.st = .excl) && decide (e.owner = a))
    let s := s.count .nmcPoisoned 0 px.length
    let s := s.onNmc (fun m => { m with
      dir := (m.dir.mapVals (fun _ e => if e.st = .excl && e.owner = a then { e with st := .px, sharers := [] }
        else { e with sharers := e.sharers.filter (fun x => decide (x ≠ a)) })).keep (fun _ e => e.held || e.rcl)
      waiting := m.waiting.mapVals (fun _ l => notOf a l)
      faults := m.faults.mapVals (fun _ l => notOf a l)
      ordered := notOf a m.ordered
      held := m.held.del a
      buckets := m.buckets.del a
      openTags := m.openTags.filter (fun t => decide (t.1 + 2 ≠ a))
      sweeps := m.sweeps.put a s.hubsUp })
    let ls := (s.nmc.recalls.keysIf (fun k _ => decide (k.2 = a))).map (·.1)
    let s := s.onNmc (fun m => { m with recalls := m.recalls.keep (fun k _ => decide (k.2 ≠ a)) })
    (ls.foldl (fun s l => s.dirResume l) s).settleNmc
  else s

/-- `AGENT_FAILED`: the head's or node link's report of a lost link, or a port taken out of service. -/
def execAgentFailed (a : Nat) (s : State) : Ans := s.whenLive (if a < 10 then s.failAgent a else s)

/-- `RECALL_TIMEOUT`: a recall unanswered after TMO_US is sent once more, and the second time its agent is declared failed (R281). -/
def execRecallTimeout (line a : Nat) (s : State) : Ans :=
  s.whenLive (match s.nmc.recalls.look (line, a) with
    | none => s
    | some r =>
      if s.now < r.sentAt + max 10 (s.fld Fld.nmcAgentCfg_tmoUs a) * 1000 then s
      else if r.resent then s.failAgent a
      else
        let s := (s.count .nmcRecalls 0 1).raise Evt.nmc_recallRetry
        let s := s.onNmc (fun m => { m with recalls := m.recalls.put (line, a) { r with sentAt := s.now, resent := true } })
        if a < 2 then s.send (.recallMsg a line r.downgrade) else s.sendOn (a - 2) 0 0 16 (.recallMsg a line r.downgrade))

/-- `DIRECTORY_SWEEP`: hub `h` writes poison into its PX lines and frees their entries; when every hub has swept, a node port that is back
is taken into service (R286). -/
def execDirectorySweep (h : Nat) (s : State) : Ans :=
  s.whenLive (if s.nmc.sweeps.rows.isEmpty || !(s.hubUp h) then s
    else
      let px := (s.nmc.dir.keysIf (fun _ e => decide (e.st = .px))).filter (fun l => decide (s.lineHub l = h))
      let s := px.foldl (fun s l => s.resolvePx l) s
      let s := s.onNmc (fun m => { m with sweeps := m.sweeps.mapVals (fun _ l => l.filter (fun x => decide (x ≠ h))) })
      let ended := s.nmc.sweeps.keysIf (fun _ l => l.all (fun x => !(s.hubUp x)))
      let s := s.onNmc (fun m => { m with sweeps := m.sweeps.keep (fun _ l => !(l.all (fun x => !(s.hubUp x)))) })
      let s := ended.foldl (fun s a => if 2 ≤ a && 5 ≤ s.portSt (a - 2) && s.portSt (a - 2) ≤ 6 then s.setFld Fld.nmcAgentStatus_state a 1 else s) s
      s.endRegions)

/-- `HOST_HEAD_RETRAINED`: a head whose link is back is taken into service as a new agent once the sweep has ended; a head absent since
bring-up is taken in as its link first trains (DEDUCED, log 17). -/
def execHostHeadRetrained (head : Nat) (s : State) : Ans :=
  s.whenLive (if head < 2 && s.hostUp && decide (s.agentSt head ≠ 1) && !(s.nmc.sweeps.has head) then
    (s.setFld Fld.nmcAgentStatus_state head 1).setFld Fld.nmcAgentStatus_load head 0 else s)

/-! ### Load levels (R284) -/

/-- The level of Table 11-9: the highest whose condition holds. -/
def loadLevel (x : AgentLoad) : Nat :=
  if x.held || 90 < x.occMax then 3
  else if x.bucketMin < 10 || 50 < x.occMax then 2
  else if 50 ≤ x.bucketMin && x.occMax < 25 then 0
  else 1

/-- `LOAD_LEVEL_UPDATE`: every 1 ms each agent's level follows its samples. -/
def execLoadLevelUpdate (samples : List AgentLoad) (s : State) : Ans :=
  s.whenLive (samples.foldl (fun s x => if x.agent < 10 then s.setFld Fld.nmcAgentStatus_load x.agent (loadLevel x) else s) s)

/-! ### Cold granules (R285) -/

/-- Granule `g` of region `i` may be parked: COLD, idle for COLD_S, with no directory entry, and HOST_PARK or no head as a reader. -/
def State.coldReady (s : State) (i g : Nat) (r : Region) : Bool :=
  decide (r.temp = 2) && !r.dying && decide (s.fld Fld.nmcCfg_coldEn = 1) && decide (g < r.granules) && !(s.nmc.parked.has (i, g)) &&
  decide (s.nmc.touched.lookD (i, g) 0 + max 1 (s.fld Fld.nmcCfg_coldS) * 1000000000 ≤ s.now) &&
  !(s.nmc.dir.any (fun l _ => decide (l / 1024 = r.base + g))) && (r.hostPark || decide (r.readM % 4 = 0))

/-- `COLD_GRANULE_PARK`: the granule is written to the Vault under an extent keyed to the region's context; a write the pool refuses leaves
it in DRAM. It is parked when the write is programmed. -/
def execColdGranulePark (region g : Nat) (s : State) : Ans :=
  s.whenLive (match s.nmc.regions.look region with
    | none => s
    | some r =>
      if s.coldReady region g r then
        let x := s.newExtent (some r.ctx) 2 false none
        match x.2 with
        | none => s
        | some e =>
          let key := keyNode ((r.base + g) * 65536)
          let w := x.1.flashPut (.granule region g) e 0 [x.1.bytesAt key 32768, x.1.bytesAt (key + 32768) 32768] false
          match w.2 with
          | .queued _ => w.1
          | _ => s
      else s)

/-- The write of a cold granule is programmed: the granule is parked and its DRAM free, unless it has been used meanwhile. -/
def State.granuleParked (s : State) (region g extent : Nat) : State :=
  match s.nmc.regions.look region with
  | none => s
  | some r =>
    if s.coldReady region g r then
      let key := keyNode ((r.base + g) * 65536)
      (s.zeroRange key (key + 65536)).onNmc (fun m => { m with parked := m.parked.put (region, g) extent })
    else s

/-- `GRANULE_FAULT_IN`: a parked granule that is wanted, or whose region is COLD no more, is brought back, its extent discarded, and the
stalled accesses go on. A half whose data is lost comes back as poisoned lines (DEDUCED, log 18). -/
def execGranuleFaultIn (region g : Nat) (s : State) : Ans :=
  s.whenLive (match s.nmc.regions.look region, s.nmc.parked.look (region, g) with
    | some r, some x =>
      let qs := s.nmc.faults.lookD (region, g) []
      if qs.isEmpty && r.temp = 2 then s
      else
        match s.fls.extents.look x with
        | none => s
        | some e =>
          let key := keyNode ((r.base + g) * 65536)
          let half := fun (s : State) (k : Nat) =>
            let d := s.unitRead (e.base + k)
            if d.1 = 0 then s.putBytes (key + k * 32768) d.2
            else (List.range 512).foldl (fun s i => s.poisonLine (key + k * 32768 + i * 64)) s
          let s := half (half s 0) 1
          let s := s.discardUnits [e.base, e.base + 1]
          let s := s.onFls (fun f => { f with extents := f.extents.del x })
          let s := s.onNmc (fun m => { m with parked := m.parked.del (region, g), faults := m.faults.del (region, g) })
          (qs.foldl (fun s q => s.nmcServe q) (s.touch ((r.base + g) * 65536))).settleNmc
    | _, _ => s)

end Sys2Proof.Machine
end

