-- ==== Sys2Proof/Machine/Dfb.lean ====
section
/-! DEFINITION. The domain fabric: the log and its leader, leases, domain requests at the requester and at the home, copy updates, domain
regions, joining, moving and removal, and Escrow (R289 to R308). -/

namespace Sys2Proof.Machine

/-- The adopted domain map. -/
def State.dmap (s : State) : DomMap := s.dfb.map
/-- This controller's number (Table 12-18). -/
def State.self (s : State) : Nat := s.fld Fld.dfbStatus_self
/-- STATE of the controller in its domain: 0 alone, 1 joining, 2 member, 3 leaving, 4 isolated. -/
def State.domSt (s : State) : Nat := s.fld Fld.dfbStatus_state
/-- The controller is in a domain and not isolated. -/
def State.domUp (s : State) : Bool := decide (1 ≤ s.domSt) && decide (s.domSt ≤ 3)

/-- The registers that show the adopted map (R308). -/
def State.publishDfb (s : State) : State :=
  let m := s.dmap
  let mask := m.memberNos.foldl (fun a i => a + 2 ^ i) 0
  let small := (m.memberNos.filter m.isSmall).foldl (fun a i => a + 2 ^ i) 0
  let held := (List.range 4096).filter (fun k => decide (m.home k = s.self))
  let sec := (List.range 4096).filter (fun k => decide ((m.bucket k).secondary = s.self))
  let odd := ((List.range 4096).filter (fun k => (decide (m.home k = s.self) || decide ((m.bucket k).secondary = s.self)) &&
    decide ((m.bucket k).st ≠ 0))).length
  let s := (s.wr .dfbEpoch 0 (BitVec.ofNat 64 m.epoch)).wr .dfbMembers 0 (BitVec.ofNat 64 (mask + small * 2 ^ 32))
  let s := (s.wr .dfbMapCfg 0 m.mapCfg).wr .dfbGrantCfg 0 m.grantCfg
  let s := s.wr .dfbEscOwned 0 (BitVec.ofNat 64 (m.regions.countIf (fun _ r => decide (r.owner = some s.self))))
  let s := s.wr .dfbBuckets 0 (BitVec.ofNat 64 (held.length + sec.length * 2 ^ 13 + odd * 2 ^ 26))
  (s.setFld Fld.dfbStatus_v2Domain 0 (b2n (decide (small ≠ 0)))).setFld Fld.dfbStatus_voter 0 (b2n (m.voters.contains s.self))

/-! ### The log (R290) -/

/-- The map with every appended entry applied, as the leader sees it. -/
def State.leaderMap (s : State) : DomMap :=
  let n := s.dfb.log.rows.foldl (fun a r => max a r.1) s.dmap.epoch
  (List.range (n - s.dmap.epoch)).foldl (fun m i =>
    match s.dfb.log.look (s.dmap.epoch + 1 + i) with
    | some c => m.apply (s.dmap.epoch + 1 + i) c
    | none => m) s.dmap

/-- The length of this controller's log: its last epoch. -/
def State.logLen (s : State) : Nat := s.dfb.log.rows.foldl (fun a r => max a r.1) s.dmap.epoch

/-- The leader appends a change to its log and sends it to the voters. -/
def State.appendLog (s : State) (c : MapChange) : State :=
  let e := s.logLen + 1
  (s.onDfb (fun d => { d with log := d.log.put e c, holders := d.holders.put e [s.self] })).send (.append_ e c)

/-- GRANULES × COPIES × 4 of the regions of a map (R292). -/
def DomMap.spaceUsed (m : DomMap) : Nat :=
  (m.regions.rows.map (fun r => r.2.granules * (if r.2.protect = 0 then 4 else if r.2.protect = 1 then 8 else 5))).sum

/-- A region with GRANULES and PROTECT fits FILL_PCT of the contributions (R292 check 5). -/
def DomMap.fits (m : DomMap) (granules protect : Nat) : Bool :=
  let share := (m.members.rows.map (fun r => r.2.shareGib)).sum
  decide ((m.spaceUsed + granules * (if protect = 0 then 4 else if protect = 1 then 8 else 5)) * 65536 * 100 ≤ m.fillPct * share * 2 ^ 32)

/-- The lowest free range of domain offsets, in 64 KiB (R292). -/
def DomMap.freeRange (m : DomMap) (n : Nat) : Option Nat :=
  let ok := fun b => decide (b + n ≤ 0x300000000) && m.regions.rows.all (fun r => decide (r.2.base + r.2.granules ≤ b) || decide (b + n ≤ r.2.base))
  let cands := (0 :: m.regions.rows.map (fun r => r.2.base + r.2.granules)).filter ok
  cands.foldl (fun a b => match a with
    | none => some b
    | some x => some (min x b)) none

/-- Assignments a leader may make keep R295: SECONDARY and PRIMARY differ, and a group's holders are distinct with PARITY no DXS-2612;
both where the domain has members enough. -/
def DomMap.assignsOk (m : DomMap) (as_ : List Assign) : Bool :=
  as_.all (fun a => m.members.has a.primary && m.members.has a.secondary &&
    (decide (a.primary ≠ a.secondary) || decide (m.members.size < 2)) && (!(m.isSmall a.parity) || decide (a.bucket % 4 ≠ 0)))

/-- An Escrow operation ends with a result for its Receipt. -/
def State.escDone (s : State) (key status word1 : Nat) : State :=
  match s.dfb.esc.find? (fun x => decide (x.key = key)) with
  | none => s
  | some x =>
    (s.onDfb (fun d => { d with esc := d.esc.filter (fun y => decide (y.key ≠ key)) })).postResult x.clerk x.slot x.serial
      (BitVec.ofNat 64 status) (BitVec.ofNat 64 word1)

/-- A change reaches the leader: a refused join is answered, an Escrow operation that changes nothing is answered, and any other change
that still holds is appended (R290, R301, R304). -/
def State.leaderTake (s : State) (c : MapChange) : State :=
  let m := s.leaderMap
  match c with
  | .join i small _ _ moves =>
    if 32 ≤ m.members.size || m.members.has i || (small && m.regions.any (fun _ r => decide (r.protect = 2))) then s.send (.joinRefused i)
    else if moves.all (fun a => decide (a.bucket < 4096)) then s.appendLog c else s
  | .escrow i op issuer key =>
    let answer := fun (s : State) (st w : Nat) => if issuer = s.self then s.escDone key st w else s.send (.escAnswer issuer key st w)
    match m.escDone.look (issuer, key), m.regions.look i with
    | some v, _ => answer s 0 v
    | none, none => answer s 0x0040 3
    | none, some r =>
      let v := escEval r op issuer m.epoch
      if v.2.2 then s.appendLog c else answer s v.1 v.2.1
  | .regionCreate i r issuer =>
    if m.regions.has i || !(m.fits r.granules r.protect) then s
    else
      match m.freeRange r.granules with
      | none => s
      | some b => s.appendLog (.regionCreate i { r with base := b } issuer)
  | .regionDelete i => if m.regions.has i then s.appendLog c else s
  | .leave i moves => if m.members.has i && m.assignsOk moves then s.appendLog c else s
  | .remove i assign => if m.members.has i && ({ m with members := m.members.del i } : DomMap).assignsOk assign then s.appendLog c else s
  | _ => s.appendLog c

/-- A change is proposed to the leader (R290). -/
def State.propose (s : State) (c : MapChange) : State :=
  if s.dfb.leading then s.leaderTake c
  else if s.fld Fld.dfbStatus_leaderValid = 1 then s.send (.propose c) else s

/-- `MAP_CHANGE_PROPOSE`: a change reaches this controller as the leader. -/
def execMapChangePropose (c : MapChange) (s : State) : Ans := .next (if s.dfb.leading && !s.frz.frozen then s.leaderTake c else s)

/-- `MAP_COMMIT`: the next entry is held by a majority of voters; it commits, the leader sends it to every member, and its Till write is
dirty until programmed (R290). -/
def execMapCommit (epoch : Nat) (holders : List Nat) (s : State) : Ans :=
  s.whenLive (match s.dfb.log.look epoch with
    | none => s
    | some c =>
      if s.dfb.leading && epoch = max s.dfb.committed s.dmap.epoch + 1 && s.dmap.majority (s.self :: holders) then
        let s := s.onDfb (fun d => { d with committed := epoch, holders := d.holders.put epoch (s.self :: holders) })
        (s.send (.commit_ epoch c)).addDirty .domainMap Config.mapEntryBytes
      else s)

/-- `LOG_ENTRY_APPEND`: a voter appends the leader's next entry and answers (R290). -/
def execLogEntryAppend (leader epoch : Nat) (c : MapChange) (s : State) : Ans :=
  .next (if s.dmap.voters.contains s.self && epoch = s.logLen + 1 && !s.dfb.leading && !s.frz.frozen then
    ((s.onDfb (fun d => { d with log := d.log.put epoch c })).send (.appendAck leader epoch)).addDirty .domainMap Config.mapEntryBytes
  else s)

/-! ### The requester (R296, R300) -/

/-- The set bits of a mask below 12, as fabric ports. -/
def pathPorts (mask : Nat) : List Nat := (List.range 12).filter (fun i => bit mask i)

/-- The fabric port a request takes: bit (h >> 40) mod the count of the path mask, the next one for each re-send (R294, R300). -/
def State.domPort (s : State) (dest off protect tries : Nat) : Nat :=
  let l := pathPorts (s.dmap.paths.lookD (s.self, dest) 0)
  let h := (domPlace protect off).1
  8 + ((l[(h / 2 ^ 40 + tries) % max 1 l.length]?).getD 0)

/-- The header of a request. -/
def State.domHdr (s : State) (serial : Nat) (r : DomReq) : DHdr :=
  ⟨s.self, r.size, r.op, serial, r.resent, s.dmap.epoch, r.tenant, r.off⟩

/-- Outstanding domain stores of a clerk (R43). -/
def State.storesOut (s : State) (c : Nat) : Bool := s.dfb.reqs.any (fun _ r => decide (r.clerk = c) && decide (r.kind = 1))

/-- An ESC.PUB whose clerk's stores are acknowledged goes to the leader; while isolated it is held (R305, R291). -/
def State.escGo (s : State) (x : EscWait) : State :=
  if s.domSt = 4 then s.onDfb (fun d => { d with esc := d.esc.map (fun y => if y.key = x.key then { y with fencing := false, heldAt := some s.now } else y) })
  else
    let s := s.onDfb (fun d => { d with esc := d.esc.map (fun y => if y.key = x.key then { y with fencing := false, heldAt := none, sent := true } else y) })
    if s.dfb.leading then s.leaderTake (.escrow x.region x.op s.self x.key)
    else
      match s.dmap.regions.look x.region with
      | none => s.escDone x.key 0x0040 3
      | some r =>
        let v := escEval r x.op s.self s.dmap.epoch
        if v.2.2 then s.propose (.escrow x.region x.op s.self x.key) else s.escDone x.key v.1 v.2.1

/-- The clerk's stores are all acknowledged: its FENCE.D ends and its ESC.PUB goes on. -/
def State.storesDone (s : State) (c : Nat) : State :=
  if s.storesOut c then s
  else
    let cl := s.clerk c
    let s := if cl.stall = some .fenceD then s.setClerk c { cl with stall := none, pc := cl.pc + 8 } else s
    (s.dfb.esc.filter (fun x => decide (x.clerk = c) && x.fencing)).foldl (fun s x => s.escGo x) s

/-- The result of a request reaches its clerk: the register is written, or MEMORY carries the status (R45). A store that fails after it has
left the module raises MEMORY at the store while its run lasts (DEDUCED, log 23). -/
def State.domClerk (s : State) (serial : Nat) (r : DomReq) (status : Nat) (data : List Byte) : State :=
  let cl := s.clerk r.clerk
  let live := match cl.run with
    | some x => decide (x.startedAt = r.runAt) && x.ending.isNone
    | none => false
  if !live then s
  else if r.kind = 1 then
    if status = 0 then s else (s.leaveSignals r.clerk).trap r.clerk .memory status r.pc r.addr
  else if cl.stall = some (.domain serial) then
    let s := s.setClerk r.clerk { cl with stall := none }
    match s.stalledIx r.clerk with
    | none => s
    | some ix =>
      if status ≠ 0 then s.trap r.clerk .memory status ix.cl.pc ix.addr
      else
        let n := ix.memBytes
        let bs := if r.kind = 0 then takeAt data (r.off % 64) n else takeAt data 0 n
        s.retire r.clerk (ix.cl.setRegBytes (wSize ix.w) (wRD ix.w) (decide (r.kind = 0) && ix.w.getLsbD 26) bs)
  else s

/-! ### The home (R293, R297, R299) -/

/-- An answer leaves the home for a requester; its own requests are answered within the controller. -/
def State.domAnswer (s : State) (requester serial status : Nat) (data : List Byte) : State :=
  let s := if status = 0x0020 then s.count .dfbMoved 0 1 else s
  if requester = s.self then s.onDfb (fun d => { d with answers := d.answers ++ [(serial, status, data)] })
  else s.sendOn (s.domPort requester 0 0 0) 3 0 (32 + data.length) (.domAns requester serial s.dmap.epoch status data)

/-- What stands in the way of a line of a bucket (R302): POISON where it was lost and not written whole since, or a PARITY line whose
contents this controller has not rebuilt. -/
inductive LineState
  | whole | poisoned | unbuilt
  deriving DecidableEq, Repr

/-- The state of a line at its home. -/
def State.domLine (s : State) (r : DomRegion) (k line : Nat) : LineState :=
  if s.dfb.noneOk.contains line then .whole
  else if r.protect = 0 then
    match s.dfb.noneLostAt.look k with
    | some e => if r.created ≤ e then .poisoned else .whole
    | none => .whole
  else if s.dfb.dataLost.contains k then .poisoned
  else if r.protect = 2 && s.dfb.unbuilt.contains k then .unbuilt
  else .whole

/-- A 64 KiB frame is taken from the contribution at the first write that touches it (R292); none free: NO_SPACE (R306). -/
def State.backFrame (s : State) (off : Nat) : State × Bool :=
  let f := off / 65536
  if s.dfb.frames.contains f then (s, true)
  else if s.dfb.frames.length < s.dfb.share then
    let s := s.onDfb (fun d => { d with frames := f :: d.frames })
    (s.wr .dfbShareUsed 0 (BitVec.ofNat 64 (s.dfb.frames.length / 16)), true)
  else (s.raise Evt.dfb_noSpace, false)

/-- The line of an unrebuilt PARITY bucket is reconstructed from other members: its bytes are theirs, free values here (log 24). -/
def State.rebuildLine (s : State) (key line : Nat) : State := (s.scramble key).onDfb (fun d => { d with noneOk := line :: d.noneOk })

/-- A copy update goes out and is waited for (R297); to a moving bucket's new home it goes the same way (R299; DEDUCED, log 25). -/
def State.homeUpdates (s : State) (h : DHdr) (r : DomRegion) (k mask : Nat) (old new : List Byte) (res : List Byte) : State :=
  let b := s.dmap.bucket k
  let alive := fun i => s.dmap.members.has i && i ≠ s.self
  let copy := match s.dmap.copyOf r.protect k with
    | some i => if alive i then [i] else []
    | none => []
  let newHome := if b.st = 1 && alive b.primary then [b.primary] else []
  let ws := copy ++ (newHome.filter (fun i => !(copy.contains i)))
  if ws.isEmpty then s.domAnswer h.requester h.serial 0 res
  else
    let s := s.onDfb (fun d => { d with homeWait := d.homeWait.put (h.requester, h.serial) ⟨ws, 0, res⟩ })
    let xor := (List.range 64).map (fun i => old.getD i 0 ^^^ new.getD i 0)
    ws.foldl (fun s i =>
      let par := r.protect = 2 && copy.contains i
      s.sendOn (s.domPort i h.addr r.protect 0) 3 0 136 (.domUpd i h par mask (if par then xor else new) res)) s

/-- The home executes a request on its line as one step, and answers or first updates the copy (R293, R297). -/
def State.homeDo (s : State) (h : DHdr) (b : DBody) (k : Nat) (r : DomRegion) : State :=
  let line := h.addr / 64
  let key := keyDom (line * 64)
  let answer := fun (s : State) (st : Nat) (d : List Byte) => s.domAnswer h.requester h.serial st d
  let ls := s.domLine r k line
  match b with
  | .load =>
    if ls = .poisoned then answer s 0x0030 []
    else
      let s := if ls = .unbuilt then s.rebuildLine key line else s
      let x := s.readMem key 64
      answer x.1 x.2.1.code x.2.2
  | .store mask data =>
    if line * 64 = versionOff r then answer s 0x0040 []
    else
      let whole := mask % 2 ^ 64 = 2 ^ 64 - 1
      if ls = .poisoned && !whole then answer s 0x0030 []
      else
        let f := s.backFrame h.addr
        if !f.2 then answer f.1 0x0010 []
        else
          let s := if ls = .unbuilt && !whole then f.1.rebuildLine key line else f.1
          let old := s.bytesAt key 64
          let w := s.writeMasked key mask data
          if w.2 ≠ .ok then answer w.1 w.2.code []
          else
            let s := if whole && ls ≠ .whole then w.1.onDfb (fun d => { d with noneOk := line :: d.noneOk }) else w.1
            s.homeUpdates h r k mask old (s.bytesAt key 64) []
  | .atomic operand cmp =>
    if line * 64 = versionOff r then answer s 0x0040 []
    else if ls = .poisoned then answer s 0x0030 []
    else
      let f := s.backFrame h.addr
      if !f.2 then answer f.1 0x0010 []
      else
        let s := if ls = .unbuilt then f.1.rebuildLine key line else f.1
        let n := sizeBytes h.size
        let old := s.bytesAt key 64
        let x := s.readMem (keyDom h.addr) n
        if x.2.1 ≠ .ok then answer x.1 x.2.1.code []
        else
          let ov := leNat x.2.2
          let w := x.1.writeMem (keyDom h.addr) (natLe n (amoNew h.op n ov (operand % 2 ^ (8 * n)) (cmp % 2 ^ (8 * n))))
          if w.2 ≠ .ok then answer w.1 w.2.code []
          else w.1.homeUpdates h r k (2 ^ 64 - 1) old (w.1.bytesAt key 64) (natLe 16 ov)

/-- A request of an adopted epoch reaches this controller (Table 12-7, R293). -/
def State.homeServe (s : State) (h : DHdr) (b : DBody) : State :=
  match s.dmap.regionAt h.addr with
  | none => s.domAnswer h.requester h.serial 0x0040 []
  | some (_, r) =>
    if h.tenant ≠ r.tenant then s.domAnswer h.requester h.serial 0x0040 []
    else
      let k := (domPlace r.protect h.addr).2
      if s.dmap.home k = s.self then
        let inc := match s.dmap.members.look h.requester with
          | some x => x.inc
          | none => 0
        match s.dfb.keys.look (h.requester, inc, h.serial) with
        | some (old, t) =>
          if h.resent && s.dfb.takenOver.contains k && decide (s.now ≤ t + 4 * s.dmap.suspectMs * 1000000) && decide (b ≠ .load) then
            s.domAnswer h.requester h.serial 0 old
          else s.homeDo h b k r
        | none => s.homeDo h b k r
      else
        match s.dfb.movedAway.look k with
        | some (_, t, nh) =>
          if s.now < t + 2000000 && s.dmap.members.has nh then
            ((s.count .dfbForwarded 0 1).sendOn (s.domPort nh h.addr r.protect 0) 3 0 104 (.domFwd nh h b))
          else s.domAnswer h.requester h.serial 0x0020 []
        | none => s.domAnswer h.requester h.serial 0x0020 []

/-- A request reaches this controller: an isolated one, and one that is not in the map it holds, answers none; one of a newer epoch is held until that is adopted (R291, R299). -/
def State.homeTake (s : State) (h : DHdr) (b : DBody) : State :=
  if !s.domUp || !(s.dmap.members.has s.self) then s
  else if s.dmap.epoch < h.epoch then s.onDfb (fun d => { d with early := d.early ++ [(h, b)] })
  else s.homeServe h b

/-! ### Sending, answers and re-sends -/

/-- A request is sent to its line's home under the adopted epoch; while isolated it is held (R291, R300). -/
def State.domSend (s : State) (serial : Nat) : State :=
  match s.dfb.reqs.look serial with
  | none => s
  | some r =>
    if !s.domUp then s.onDfb (fun d => { d with reqs := d.reqs.put serial { r with heldAt := some (r.heldAt.getD s.now) } })
    else
      let protect := match s.dmap.regionAt r.off with
        | some (_, x) => x.protect
        | none => 0
      let home := s.dmap.home (domPlace protect r.off).2
      let port := s.domPort home r.off protect r.tries
      let r' := { r with sentTo := some home, port := port, sentAt := s.now, heldAt := none }
      let s := s.onDfb (fun d => { d with reqs := d.reqs.put serial r' })
      let h := s.domHdr serial r'
      if home = s.self then s.homeTake h r.body
      else s.sendOn port 3 0 (32 + (match r.body with
        | .load => 0
        | .store _ _ => 72
        | .atomic _ _ => 32)) (.domReq home port h r.body)

/-- A request is re-sent under the adopted epoch, marked RESENT and counted (R300). -/
def State.domResend (s : State) (serial : Nat) : State :=
  match s.dfb.reqs.look serial with
  | none => s
  | some r =>
    ((s.onDfb (fun d => { d with reqs := d.reqs.put serial { r with resent := true } })).count .dfbResent 0 1).domSend serial

/-- A request is answered for good: its clerk has the result, and a request of the clerk that waited behind it is sent (R300). -/
def State.domFinish (s : State) (serial status : Nat) (data : List Byte) : State :=
  match s.dfb.reqs.look serial with
  | none => s
  | some r =>
    let s := s.onDfb (fun d => { d with reqs := d.reqs.del serial })
    let s := (s.domClerk serial r status data).storesDone r.clerk
    let next := (s.dfb.reqs.rows.filter (fun x => decide (x.2.clerk = r.clerk) && x.2.behind && decide (x.2.off / 64 = r.off / 64))).foldl
      (fun (a : Option Nat) x => match a with
        | none => some x.1
        | some y => some (min x.1 y)) none
    match next with
    | none => s
    | some n => (s.onDfb (fun d => { d with reqs := d.reqs.upd n (fun x => { x with behind := false }) })).domSend n

/-- An answer reaches the requester: MOVED is resolved underneath up to four times, and the fifth is reported (R300). -/
def State.domReply (s : State) (serial epoch status : Nat) (data : List Byte) : State :=
  match s.dfb.reqs.look serial with
  | none => s
  | some r =>
    if status = 0x0020 && r.moved < 4 then
      let s := s.onDfb (fun d => { d with reqs := d.reqs.put serial { r with moved := r.moved + 1, waitEpoch := epoch, sentTo := none } })
      if epoch ≤ s.dmap.epoch then s.domSend serial else s
    else s.domFinish serial status data

/-- Answers within the controller are taken in order. -/
def drainAnswers : Nat → State → State
  | 0, s => s
  | fuel + 1, s =>
    match s.dfb.answers with
    | [] => s
    | (n, st, d) :: rest => drainAnswers fuel ((s.onDfb (fun x => { x with answers := rest })).domReply n s.dmap.epoch st d)

/-- The answers waiting within the controller, and those that follow from them, are taken. -/
def State.settleDom (s : State) : State := drainAnswers (6 * (s.dfb.reqs.size + 1)) s

/-- A clerk's access of domain space becomes a request (R296); one that follows another of the clerk to the line waits behind it. -/
def State.domIssue (s : State) (ix : Ix) (kind off : Nat) (tenant : Word) : State :=
  let serial := s.dfb.reqCtr % 2 ^ 40
  let n := ix.memBytes
  let sh := off % 64
  let body : DBody := match kind with
    | 0 => .load
    | 1 => .store ((2 ^ n - 1) * 2 ^ sh) (List.replicate sh 0 ++ ix.cl.regBytes ix.img.compat (wSize ix.w) (wRB ix.w))
    | _ => .atomic (leNat (ix.cl.regBytes false (wSize ix.w) (wRB ix.w))) (leNat (ix.cl.regBytes false (wSize ix.w) (wRC ix.w)))
  let before := s.dfb.reqs.any (fun _ r => decide (r.clerk = ix.c) && decide (r.off / 64 = off / 64)) || decide (65536 ≤ s.dfb.reqs.size)
  let r : DomReq := { clerk := ix.c, runAt := ix.run.startedAt, pc := ix.cl.pc, addr := ix.addr, kind := kind, body := body, size := wSize ix.w,
                      op := if kind = 2 then wf ix.w 26 2 else 0, off := off, tenant := tenant, moved := 0, sentTo := none, port := 0,
                      sentAt := s.now, tries := 0, resent := false, heldAt := none, behind := before, waitEpoch := 0 }
  let s := s.onDfb (fun d => { d with reqs := d.reqs.put serial r, reqCtr := d.reqCtr + 1 })
  let s := if kind = 1 then s.retire ix.c ix.cl else s.setClerk ix.c { ix.cl with stall := some (.domain serial) }
  if before then s else (s.domSend serial).settleDom

/-- `DLD`: a domain load reaches this controller. -/
def execDld (h : DHdr) (s : State) : Ans := .next (if s.frz.frozen then s else (s.homeTake h .load).settleDom)
/-- `DST`: a domain store reaches this controller. -/
def execDst (h : DHdr) (mask : Nat) (data : List Byte) (s : State) : Ans :=
  .next (if s.frz.frozen then s else (s.homeTake h (.store mask data)).settleDom)
/-- `DAT`: a domain atomic reaches this controller. -/
def execDat (h : DHdr) (operand cmp : Nat) (s : State) : Ans :=
  .next (if s.frz.frozen then s else (s.homeTake h (.atomic operand cmp)).settleDom)
/-- `DFW`: a new home executes a forwarded request and answers its requester (R299). -/
def execDfw (h : DHdr) (body : DBody) (s : State) : Ans := .next (if s.frz.frozen then s else (s.homeTake h body).settleDom)
/-- `DRS`: a response reaches the requester (R300). -/
def execDrs (serial epoch status : Nat) (data : List Byte) (s : State) : Ans :=
  .next (if s.frz.frozen then s else (s.domReply serial epoch status data).settleDom)

/-- The place of a parity line: the stripe's line, above domain space (the MODEL's own key). -/
def parityOff (off : Nat) : Nat := 0x300000000000 + off / 16384 * 4096 + off % 4096 / 64 * 64

/-- `DUP`: a copy holder applies a mirror or parity update, keeps its key, and answers (R297). The new home of a moving bucket applies it to
its own lines. -/
def execDup (h : DHdr) (sender mask : Nat) (line : List Byte) (old : List Byte) (s : State) : Ans :=
  .next (if s.frz.frozen || !s.domUp then s
    else
      match s.dmap.regionAt h.addr with
      | none => s.send (.domUpdAns sender h.requester h.serial)
      | some (_, r) =>
        let k := (domPlace r.protect h.addr).2
        let off := h.addr / 64 * 64
        let inc := match s.dmap.members.look h.requester with
          | some x => x.inc
          | none => 0
        let s := if (s.dmap.bucket k).st = 1 && (s.dmap.bucket k).primary = s.self then (s.writeMem (keyDom off) (takeAt line 0 64)).1
          else if r.protect = 2 then
            let key := keyDomCopy (parityOff off)
            let p := s.bytesAt key 64
            s.putBytes key ((List.range 64).map (fun i => p.getD i 0 ^^^ line.getD i 0))
          else (s.writeMasked (keyDomCopy off) (if mask % 2 ^ 64 = 0 then 0 else 2 ^ 64 - 1) (takeAt line 0 64)).1
        let s := s.onDfb (fun d => { d with keys := d.keys.put (h.requester, inc, h.serial) (old, s.now) })
        s.send (.domUpdAns sender h.requester h.serial))

/-- `DUA`: a copy update is answered; the last one lets the home answer the requester (R297). -/
def execDua (holder requester serial : Nat) (s : State) : Ans :=
  .next (if s.frz.frozen then s
    else
      match s.dfb.homeWait.look (requester, serial) with
      | none => s
      | some w =>
        let l := w.waitFor.filter (fun i => decide (i ≠ holder))
        if l.isEmpty then
          ((s.onDfb (fun d => { d with homeWait := d.homeWait.del (requester, serial) })).domAnswer requester serial w.status w.data).settleDom
        else s.onDfb (fun d => { d with homeWait := d.homeWait.put (requester, serial) { w with waitFor := l } }))

/-- `DOMAIN_REQ_TIMEOUT`: re-sent once on the next port, then held until the next adopted epoch (R300). -/
def execDomainReqTimeout (serial : Nat) (s : State) : Ans :=
  .next (match s.dfb.reqs.look serial with
    | none => s
    | some r =>
      if s.frz.frozen || r.sentTo.isNone || r.heldAt.isSome || s.now < r.sentAt + s.dmap.reqTmoUs * 1000 then s
      else if r.tries = 0 then
        ((s.onDfb (fun d => { d with reqs := d.reqs.put serial { r with tries := 1 } })).domResend serial).settleDom
      else s.onDfb (fun d => { d with reqs := d.reqs.put serial { r with heldAt := some s.now } }))

/-! ### Leases (R291) -/

/-- `LEADER_HEARTBEAT`: every 1 ms the leader beats to every member, while a majority of voters has answered within LEASE_MS; its own lease
is renewed with it. Otherwise the quorum is lost. -/
def execLeaderHeartbeat (s : State) : Ans :=
  .next (if s.dfb.leading && !s.frz.frozen then
    let fresh := s.dmap.voters.filter (fun v => v = s.self || (match s.dfb.answeredAt.look v with
      | some t => decide (s.now ≤ t + s.dmap.leaseMs * 1000000)
      | none => false))
    if s.dmap.majority fresh then
      let s := (s.dmap.memberNos.filter (fun m => decide (m ≠ s.self))).foldl (fun s m => s.send (.heartbeat m s.dmap.epoch)) s
      (s.onDfb (fun d => { d with leaseUntil := s.now + s.dmap.leaseMs * 1000000, lastBeat := s.now })).setFld Fld.dfbStatus_quorum 0 1
    else s.raise Evt.dfb_quorumLost
  else s)

/-- `HEARTBEAT_ANSWER`: the leader keeps when a voter answered and when a member was last heard (R291). -/
def execHeartbeatAnswer (m : Nat) (s : State) : Ans :=
  .next (if s.dfb.leading && s.dmap.members.has m && !s.frz.frozen then
    s.onDfb (fun d => { d with answeredAt := if s.dmap.voters.contains m then d.answeredAt.put m s.now else d.answeredAt, heardAt := d.heardAt.put m s.now })
  else s)

/-- STATE as the map has this controller (Table 12-18). -/
def State.mapSt (s : State) : Nat :=
  match s.dmap.members.look s.self with
  | none => 0
  | some x => match x.st with
    | .joining => 1
    | .member => 2
    | .leaving => 3

/-- Held requests and Escrow operations go on under the adopted epoch. -/
def State.releaseHeld (s : State) : State :=
  let l := s.dfb.reqs.keysIf (fun _ r => r.heldAt.isSome || (r.sentTo.isNone && !r.behind && decide (r.waitEpoch ≤ s.dmap.epoch)))
  let s := (l.reverse).foldl (fun s n =>
    let s := s.onDfb (fun d => { d with reqs := d.reqs.upd n (fun r => { r with tries := 0 }) })
    match s.dfb.reqs.look n with
    | some r => if r.heldAt.isSome && r.sentTo.isSome then s.domResend n else s.domSend n
    | none => s) s
  let s := (s.dfb.esc.filter (fun x => x.heldAt.isSome)).foldl (fun s x => s.escGo x) s
  s.settleDom

/-- `HEARTBEAT_RECEIVE`: the receiver's lease is renewed and answered; an isolated controller returns, and once it has adopted the leader's
epoch its held work proceeds (R291). -/
def execHeartbeatReceive (leader epoch : Nat) (s : State) : Ans :=
  .next (if s.dmap.members.has s.self && !s.frz.frozen then
    let s := s.onDfb (fun d => { d with leaseUntil := s.now + s.dmap.leaseMs * 1000000, lastBeat := s.now,
                                        leading := d.leading && decide (leader = s.self) })
    let s := ((s.setFld Fld.dfbStatus_leader 0 leader).setFld Fld.dfbStatus_leaderValid 0 1).setFld Fld.dfbStatus_quorum 0 1
    let s := s.send (.beatAck leader)
    let back := s.domSt = 4
    let s := if back then s.setFld Fld.dfbStatus_state 0 s.mapSt else s
    if back && epoch ≤ s.dmap.epoch then s.releaseHeld else s
  else s)

/-- `LEASE_EXPIRY`: the lease has run out and the member is isolated; its own outgoing requests are held (R291). -/
def execLeaseExpiry (s : State) : Ans :=
  .next (if s.domUp && s.dfb.leaseUntil ≤ s.now && !s.frz.frozen then
    let s := ((s.setFld Fld.dfbStatus_state 0 4).setFld Fld.dfbStatus_quorum 0 0).raise Evt.dfb_isolated
    s.onDfb (fun d => { d with
      reqs := d.reqs.mapVals (fun _ r => if r.heldAt.isSome || r.behind then r else { r with heldAt := some s.now })
      esc := d.esc.map (fun x => if x.fencing then x else { x with heldAt := some (x.heldAt.getD s.now) }) })
  else s)

/-- `SUSPECT_EXPIRY`: the leader has heard nothing from a member for SUSPECT_MS and proposes its removal (R291). -/
def execSuspectExpiry (m : Nat) (assign : List Assign) (s : State) : Ans :=
  .next (if s.dfb.leading && m ≠ s.self && s.dmap.members.has m && s.dfb.heardAt.lookD m 0 + s.dmap.suspectMs * 1000000 ≤ s.now && !s.frz.frozen then
    s.leaderTake (.remove m assign) else s)

/-- `ELECTION_TIMEOUT`: a voter that has heard no leader for ELECT_MS and its random wait stands; it leads when a majority of voters answer
and its log is at least as long as each of theirs (R290). The answers, voter and log length, are the operand. -/
def execElectionTimeout (answers : List (Nat × Nat)) (s : State) : Ans :=
  .next (if s.dmap.voters.contains s.self && !s.dfb.leading && s.dfb.lastBeat + s.dmap.electMs * 1000000 ≤ s.now && !s.frz.frozen then
    let s := s.send (.voteAsk s.logLen)
    if s.dmap.majority (s.self :: answers.map (·.1)) && answers.all (fun a => decide (a.2 ≤ s.logLen)) then
      let heard := s.dmap.memberNos.foldl (fun (t : Tbl Nat Nat) m => t.put m s.now) Tbl.empty
      let s := s.onDfb (fun d => { d with leading := true, heardAt := heard, lastBeat := s.now,
                                          answeredAt := answers.foldl (fun t a => t.put a.1 s.now) Tbl.empty })
      (s.setFld Fld.dfbStatus_leader 0 s.self).setFld Fld.dfbStatus_leaderValid 0 1
    else s
  else s)

/-- `VOTE_REQUEST`: a voter answers a candidate by comparing logs (R290). -/
def execVoteRequest (candidate logLen : Nat) (s : State) : Ans :=
  .next (if s.dmap.voters.contains s.self && !s.frz.frozen then s.send (.voteAnswer candidate s.logLen (decide (s.logLen ≤ logLen))) else s)

/-- `ISOLATE_TIMEOUT`: work held for ISOLATE_MS completes with ABORTED, cause 5 (R291, R300). -/
def execIsolateTimeout (s : State) : Ans :=
  .next (if s.frz.frozen then s
    else
      let due := fun (t : Option Nat) => match t with
        | some x => decide (x + s.dmap.isolateMs * 1000000 ≤ s.now)
        | none => false
      let s := (s.dfb.reqs.keysIf (fun _ r => due r.heldAt)).foldl (fun s n => s.domFinish n 0x00F0 []) s
      let s := (s.dfb.esc.filter (fun x => due x.heldAt)).foldl (fun s x => s.escDone x.key (0x00F0 + 5 * 2 ^ 16) 0) s
      s.settleDom)

/-! ### Regions (R292, R293) -/

/-- `DFB_REGION_STATUS`. -/
def State.domRegionStatus (s : State) (st reason ix : Nat) : State :=
  s.wr .dfbRegionStatus 0 (BitVec.ofNat 64 (st * 2 ^ 24 + reason * 2 ^ 16 + ix % 16384))

/-- The first check of R292 that fails; check 3's majority is reachable while the lease is valid (log 26). -/
def State.domCreateCheck (s : State) (rq : Requester) (d : List Byte) : Nat :=
  let tenant : Word := BitVec.ofNat 64 (leAt d 0 8)
  let w1 := leAt d 8 8
  let protect := bits w1 32 2
  let g := bits w1 0 32
  let m := s.dmap
  if bits w1 34 30 ≠ 0 || !(allZero (takeAt d 16 16)) || protect = 3 || g = 0 then 1
  else if !((List.range 64).any (fun n => s.resident n && s.actsFor rq n && decide (s.rd .secCtxTenant n = tenant))) then 2
  else if s.fld Fld.dfbStatus_quorum = 0 || !s.domUp then 3
  else if (lowestFree m.regions.has 0 16384).isNone then 4
  else if !(m.fits g protect) || (m.freeRange g).isNone then 5
  else if protect = 2 && (decide ((m.members.rows.filter (fun r => !r.2.small && decide (0 < r.2.shareGib))).length < 5) ||
      m.members.any (fun _ x => x.small)) then 6
  else 0

/-- `DFB_REGION_CREATE`: the checks of R292; the creation is a change to the map. -/
def execDfbRegionCreate (rq : Requester) (v : Word) (s : State) : Ans :=
  .next (s.woWrite rq .dfbRegionCreate 0 true (low6 v) (fun s =>
    let d := s.bytesAt (keyHub v.toNat) 32
    let why := s.domCreateCheck rq d
    if why ≠ 0 then (s.domRegionStatus 3 why 0).raise Evt.dfb_createRefused
    else
      let w1 := leAt d 8 8
      let g := bits w1 0 32
      let i := (lowestFree s.dmap.regions.has 0 16384).getD 0
      let r : DomRegion := { tenant := BitVec.ofNat 64 (leAt d 0 8), base := (s.dmap.freeRange g).getD 0, granules := g, protect := bits w1 32 2,
                             owner := none, ownerInc := 0, lapsed := none, version := 0, pubEpoch := 0, gen := s.dmap.gens.lookD i 0,
                             created := 0 }
      (s.domRegionStatus 1 0 i).propose (.regionCreate i r s.self)))

/-- `DFB_REGION_DELETE`: a change that ends ownership, advances GEN and frees the region (R293). -/
def execDfbRegionDelete (rq : Requester) (v : Word) (s : State) : Ans :=
  let i := bits v.toNat 0 14
  let ok := match s.dmap.regions.look i with
    | some r => (List.range 64).any (fun n => s.resident n && s.actsFor rq n && decide (s.rd .secCtxTenant n = r.tenant))
    | none => decide (rq = .firmware)
  .next (s.woWrite rq .dfbRegionDelete 0 ok 0 (fun s => if s.dmap.regions.has i then s.propose (.regionDelete i) else s))

/-- `MAP_CFG_WRITE`: a write to `DFB_MAP_CFG` or `DFB_GRANT_CFG` is proposed as one change; a controller alone takes it at once
(DEDUCED, log 27). -/
def execMapCfgWrite (rq : Requester) (grant : Bool) (v : Word) (s : State) : Ans :=
  let r : Reg := if grant then .dfbGrantCfg else .dfbMapCfg
  .next (s.cfgWrite rq r 0 (s.isModule rq) (fun s =>
    let m := s.dmap
    let w := v &&& BitVec.ofNat 64 r.spec.mask
    let a := if grant then m.mapCfg else w
    let b := if grant then w else m.grantCfg
    if s.domSt = 0 then (s.onDfb (fun d => { d with map := { d.map with mapCfg := a, grantCfg := b } })).wr r 0 w
    else s.propose (.params a b)))

/-! ### Joining and leaving (R301) -/

/-- `DFB_JOIN`: the controller asks a member to let it in, or is refused; naming itself, it forms a new domain (DEDUCED, log 28). Without
DOMAIN_EN the controller may join none. -/
def execDfbJoin (rq : Requester) (v : Word) (refused : Bool) (s : State) : Ans :=
  .next (s.woWrite rq .dfbJoin 0 (s.isModule rq) 0 (fun s =>
    let self := bits v.toNat 0 5
    let contact := bits v.toNat 5 5
    if s.domSt ≠ 0 then s
    else if s.fld Fld.dfbCfg_domainEn = 0 || refused then s.raise Evt.dfb_joinRefused
    else
      let s := s.setFld Fld.dfbStatus_self 0 self
      if contact = self then
        let s := ((s.setFld Fld.dfbStatus_state 0 1).setFld Fld.dfbStatus_leader 0 self).setFld Fld.dfbStatus_leaderValid 0 1
        let s := s.onDfb (fun d => { d with leading := true, lastBeat := s.now, leaseUntil := s.now + s.dmap.leaseMs * 1000000 })
        (s.setFld Fld.dfbStatus_quorum 0 1).appendLog (.join self false (s.dfb.share / 16384) [] [])
      else (s.setFld Fld.dfbStatus_state 0 1).send (.joinAsk contact self)))

/-- `DFB_LEAVE`: the member's buckets move out; it grants nothing new (R301). -/
def execDfbLeave (rq : Requester) (v : Word) (s : State) : Ans :=
  .next (s.woWrite rq .dfbLeave 0 (s.isModule rq) 0 (fun s =>
    if bit v.toNat 0 && s.domSt = 2 then s.propose (.leave s.self []) else s))

/-- `BUCKET_CUTOVER`: a copied bucket cuts over to its new home in one change; the copy and rebuild of a degraded bucket ends the same way
(R301, R302). The leader proposes it. -/
def execBucketCutover (bucket : Nat) (s : State) : Ans :=
  .next (if bucket < 4096 && !s.frz.frozen then
    if (s.dmap.bucket bucket).st = 1 then s.propose (.cutover bucket)
    else if (s.dmap.bucket bucket).st = 2 then s.propose (.copied bucket) else s
  else s)

/-- `NONE_POISON_BACKING`: the new home has backed the lost NONE frames of a bucket with poisoned lines and clears NONE_LOST (R302). -/
def execNonePoisonBacking (bucket : Nat) (s : State) : Ans :=
  .next (if bucket < 4096 && (s.dmap.bucket bucket).noneLost && s.dmap.home bucket = s.self && s.domUp && !s.frz.frozen then
    let fs := s.dmap.regions.rows.flatMap (fun r =>
      if r.2.protect = 0 && r.2.created ≤ s.dfb.noneLostAt.lookD bucket 0 then
        ((List.range r.2.granules).map (fun g => r.2.base + g)).filter (fun f =>
          (List.range 16).any (fun b => decide ((domPlace 0 (f * 65536 + b * 4096)).2 = bucket)))
      else [])
    let s := fs.foldl (fun s f => (s.backFrame (f * 65536)).1) s
    s.propose (.noneBacked bucket)
  else s)

/-! ### Adopting a change (R290) -/

/-- Lines of a mirror copy become the home's lines: cells of the copy range whose offsets lie in bucket `k` and a MIRROR region. -/
def State.promoteCopies (s : State) (k : Nat) : State :=
  let lo := keyDomCopy 0
  let mine := s.mem.filter (fun c => decide (lo ≤ c.1) && decide (c.1 < lo + 0x300000000000) && (match s.dmap.regionAt (c.1 - lo) with
    | some (_, r) => decide (r.protect = 1) && decide ((domPlace 1 (c.1 - lo)).2 = k)
    | none => false))
  mine.foldl (fun s c => s.putBytes (keyDom (c.1 - lo)) [c.2]) s

/-- A region's version line is rewritten by its home, and by its mirror (R293). -/
def State.writeVersion (s : State) (i : Nat) : State :=
  match s.dmap.regions.look i with
  | none => s
  | some r =>
    let off := versionOff r
    let k := (domPlace r.protect off).2
    let bs := natLe 64 (versionLine r)
    let s := if s.dmap.home k = s.self then ((s.backFrame off).1.writeMem (keyDom off) bs).1 else s
    if s.dmap.copyOf r.protect k = some s.self && r.protect = 1 then (s.writeMem (keyDomCopy off) bs).1 else s

/-- What a removal means for the lines of the buckets (Table 12-9): NONE lines are lost as of this epoch, lost buckets are poisoned, and a new
home holds its mirror copies or has PARITY lines to rebuild. -/
def State.afterRemoval (s : State) (old : DomMap) : State :=
  (List.range 4096).foldl (fun s k =>
    let b := s.dmap.bucket k
    if b = old.bucket k then s
    else
      let s := if old.home k ≠ s.dmap.home k then
          s.onDfb (fun d => { d with noneLostAt := d.noneLostAt.put k s.dmap.epoch
                                     noneOk := d.noneOk.filter (fun l => match s.dmap.regionAt (l * 64) with
                                       | some (_, r) => decide ((domPlace r.protect (l * 64)).2 ≠ k)
                                       | none => false) })
        else s
      let s := if b.st = 3 && (old.bucket k).st ≠ 3 then
          (s.onDfb (fun d => { d with dataLost := k :: d.dataLost })).raise Evt.dfb_dataLost else s
      if s.dmap.home k = s.self && old.home k ≠ s.self then
        (s.promoteCopies k).onDfb (fun d => { d with unbuilt := k :: d.unbuilt })
      else s) s

/-- The controller adopts a change as the next epoch: its map, its registers, what the change means for its own lines, requests and Escrow
operations (R290, R299, R300, R302). -/
def State.adoptMap (s : State) (epoch : Nat) (c : MapChange) : State :=
  let old := s.dmap
  let new := old.apply epoch c
  let s := s.onDfb (fun d => { d with map := new, log := d.log.keep (fun e _ => decide (epoch < e)), takenOver := [] })
  let changed := (List.range 4096).filter (fun k => decide (old.home k ≠ new.home k))
  let away := changed.filter (fun k => decide (old.home k = s.self) && old.members.has s.self)
  let mine := changed.filter (fun k => decide (new.home k = s.self))
  let s := s.onDfb (fun d => { d with
    movedAway := away.foldl (fun t k => t.put k (epoch, s.now, new.home k)) (mine.foldl (fun t k => t.del k) d.movedAway)
    takenOver := mine })
  let s : State := match c with
    | .remove i _ =>
      let s := s.raise Evt.dfb_memberRemoved
      let s := if old.regions.any (fun _ r => decide (r.owner = some i)) then s.raise Evt.dfb_lapse else s
      let s := s.afterRemoval old
      let s := s.onDfb (fun d => { d with homeWait := d.homeWait.mapVals (fun _ w => { w with waitFor := w.waitFor.filter (fun x => decide (x ≠ i)) }) })
      let done : List ((Nat × Nat) × HomeWait) := s.dfb.homeWait.rows.filter (fun r => r.2.waitFor.isEmpty)
      let s := done.foldl (fun s r => (s.onDfb (fun d => { d with homeWait := d.homeWait.del r.1 })).domAnswer r.1.1 r.1.2 r.2.status r.2.data) s
      let lost := s.dfb.reqs.keysIf (fun _ r => decide (r.sentTo = some i) && r.heldAt.isNone)
      (lost.reverse).foldl (fun s n => s.domResend n) s
    | .regionCreate i r issuer =>
      let s := s.wr .dfbRegionId i (domIdent i r.gen)
      let s := if issuer = s.self then s.domRegionStatus 2 0 i else s
      s.writeVersion i
    | .regionDelete i =>
      let s := s.wr .dfbRegionId i 0
      match old.regions.look i with
      | none => s
      | some r =>
        let z := fun (s : State) (k : Nat) => s.zeroRange (k + r.base * 65536) (k + (r.base + r.granules) * 65536)
        let s := z (z s (keyDom 0)) (keyDomCopy 0)
        let s := s.onDfb (fun d => { d with
          frames := d.frames.filter (fun f => decide (f < r.base) || decide (r.base + r.granules ≤ f))
          noneOk := d.noneOk.filter (fun l => decide (l * 64 < r.base * 65536) || decide ((r.base + r.granules) * 65536 ≤ l * 64)) })
        s.wr .dfbShareUsed 0 (BitVec.ofNat 64 (s.dfb.frames.length / 16))
    | .escrow i _ issuer key =>
      let s := s.writeVersion i
      if issuer = s.self then
        match new.escDone.look (issuer, key) with
        | some v => s.escDone key 0 v
        | none => s
      else s
    | .copied k => s.onDfb (fun d => { d with unbuilt := d.unbuilt.filter (fun x => decide (x ≠ k)) })
    | _ => s
  let s := s.publishDfb
  let s := if s.domSt = 4 then s else s.setFld Fld.dfbStatus_state 0 s.mapSt
  let s := if s.mapSt = 2 && (match old.members.look s.self with
      | some x => decide (x.st ≠ .member)
      | none => true) then s.raise Evt.dfb_joinDone else s
  let ready : List (DHdr × DBody) := s.dfb.early.filter (fun x => decide (x.1.epoch ≤ epoch))
  let s := s.onDfb (fun d => { d with early := d.early.filter (fun x => decide (epoch < x.1.epoch)) })
  let s := ready.foldl (fun s x => s.homeTake x.1 x.2) s
  let es : List EscWait := s.dfb.esc.filter (fun x => x.sent && !s.dfb.leading)
  let s : State := es.foldl (fun (s : State) (x : EscWait) =>
    match s.dmap.regions.look x.region with
    | none => s.escDone x.key 0x0040 3
    | some r =>
      let v := escEval r x.op s.self s.dmap.epoch
      if v.2.2 then s else s.escDone x.key v.1 v.2.1) s
  if s.domUp then s.releaseHeld else s

end Sys2Proof.Machine
end

