-- ==== Sys2Proof/Machine/IsaScalar.lean ====
section
/-! DEFINITION. Scalar, branch, descriptor-word and system instructions (R202 to R205, R207, R222), handles and signals that need no
object store (R40, R212, R213), WAIT (R214) and undefined words (R198). -/

namespace Sys2Proof.Machine

/-- The word's major opcode is `m`. -/
def isMajor (m : Nat) (ix : Ix) : Bool := decide (wMajor ix.w = m)

/-- The word is LONG major `m` with SUB `n`. -/
def isSub (m n : Nat) (ix : Ix) : Bool := decide (wMajor ix.w = m) && decide (wSub ix.w = n)

/-- ALU (R202): s[RD] ← s[RA] op s[RB]. -/
def doAlu (ix : Ix) (s : State) : State :=
  s.retire ix.c (ix.cl.setS (wRD ix.w) (aluOp (wFnRR ix.w) (ix.cl.s (wRA ix.w)) (ix.cl.s (wRB ix.w))))

/-- `ALU`. -/
def execAlu (c : Nat) (s : State) : Ans := .next (s.onWord c (isMajor 0x01) (fun ix => doAlu ix s))

/-- ALUI (R202): s[RD] ← s[RA] op IMM. -/
def doAlui (ix : Ix) (s : State) : State :=
  s.retire ix.c (ix.cl.setS (wRD ix.w) (aluOp (wFnRI ix.w) (ix.cl.s (wRA ix.w)) (wImm32 ix.w)))

/-- `ALUI`. -/
def execAlui (c : Nat) (s : State) : Ans := .next (s.onWord c (isMajor 0x02) (fun ix => doAlui ix s))

/-- LI (R202): s[RD] ← IMM. -/
def doLi (ix : Ix) (s : State) : State := s.retire ix.c (ix.cl.setS (wRD ix.w) (wImm32 ix.w))

/-- `LI`. -/
def execLi (c : Nat) (s : State) : Ans := .next (s.onWord c (isMajor 0x03) (fun ix => doLi ix s))

/-- Bits [63:32] replaced by IMM, bits [31:0] kept (R202). -/
def lihVal (old w : Word) : Word := (w.extractLsb' 0 32 ++ old.extractLsb' 0 32 : BitVec 64)

/-- LIH (R202). -/
def doLih (ix : Ix) (s : State) : State :=
  s.retire ix.c (ix.cl.setS (wRD ix.w) (lihVal (ix.cl.s (wRD ix.w)) ix.w))

/-- `LIH`. -/
def execLih (c : Nat) (s : State) : Ans := .next (s.onWord c (isMajor 0x04) (fun ix => doLih ix s))

/-- CMP (R203): p[PD] ← s[RA] rel s[RB]. -/
def doCmp (ix : Ix) (s : State) : State :=
  s.retire ix.c (ix.cl.setP (wf ix.w 47 3) (cmpOp (wFnRR ix.w) (ix.cl.s (wRA ix.w)) (ix.cl.s (wRB ix.w))))

/-- `CMP`. -/
def execCmp (c : Nat) (s : State) : Ans := .next (s.onWord c (isMajor 0x05) (fun ix => doCmp ix s))

/-- CMPI (R203): p[PD] ← s[RA] rel IMM. -/
def doCmpi (ix : Ix) (s : State) : State :=
  s.retire ix.c (ix.cl.setP (wf ix.w 47 3) (cmpOp (wFnRI ix.w) (ix.cl.s (wRA ix.w)) (wImm32 ix.w)))

/-- `CMPI`. -/
def execCmpi (c : Nat) (s : State) : Ans := .next (s.onWord c (isMajor 0x06) (fun ix => doCmpi ix s))

/-- PLOG (R203): p[PD] ← p[PA] op p[PB]; PD lies in [49:47] as in CMP (DEDUCED, log 20). -/
def doPlog (ix : Ix) (s : State) : State :=
  s.retire ix.c (ix.cl.setP (wf ix.w 47 3) (plogOp (wFnRR ix.w) (ix.cl.p (wf ix.w 42 3)) (ix.cl.p (wf ix.w 37 3))))

/-- `PLOG`. -/
def execPlog (c : Nat) (s : State) : Ans := .next (s.onWord c (isMajor 0x07) (fun ix => doPlog ix s))

/-- BR (R204): jump to PC + IMM × 8, PC + 8 to s[RL]. -/
def doBr (ix : Ix) (s : State) : State :=
  s.setClerk ix.c { ix.cl.setS (wRD ix.w) (ix.cl.pc + 8) with pc := ix.cl.pc + wImm32 ix.w * 8 }

/-- `BR`. -/
def execBr (c : Nat) (s : State) : Ans := .next (s.onWord c (isMajor 0x08) (fun ix => doBr ix s))

/-- JR (R204): jump to (s[RA] & ~7) + IMM × 8, PC + 8 to s[RL]. -/
def doJr (ix : Ix) (s : State) : State :=
  s.setClerk ix.c { ix.cl.setS (wRD ix.w) (ix.cl.pc + 8) with
    pc := (ix.cl.s (wRA ix.w) &&& ~~~(7 : Word)) + wImm32 ix.w * 8 }

/-- `JR`. -/
def execJr (c : Nat) (s : State) : Ans := .next (s.onWord c (isMajor 0x09) (fun ix => doJr ix s))

/-- DINS (R205): s[RS] into word WORD of d[DREG]. -/
def doDins (ix : Ix) (s : State) : State :=
  let v := descSet (ix.cl.d ix.img.compat (wDreg ix.w)) (wWordIx ix.w) (ix.cl.s (wRD ix.w))
  s.retire ix.c { ix.cl with dreg := ix.cl.dreg.put (wDreg ix.w) v }

/-- `DINS`. -/
def execDins (c : Nat) (s : State) : Ans := .next (s.onWord c (isMajor 0x0A) (fun ix => doDins ix s))

/-- DEXT (R205): word WORD of d[DREG] into s[RS]. -/
def doDext (ix : Ix) (s : State) : State :=
  s.retire ix.c (ix.cl.setS (wRD ix.w) (descWord (ix.cl.d ix.img.compat (wDreg ix.w)) (wWordIx ix.w)))

/-- `DEXT`. -/
def execDext (c : Nat) (s : State) : Ans := .next (s.onWord c (isMajor 0x0B) (fun ix => doDext ix s))

/-- `UNDEFINED_ENCODING`: a word that is not defined raises ILLEGAL whatever its guard (R198, R37). -/
def execUndefinedEncoding (c : Nat) (s : State) : Ans :=
  s.whenLive (match s.issuer c with
    | none => s
    | some ix => if ix.legal then s else s.trap c .illegal 0 ix.cl.pc 0)

/-- `TRAP_EXIT`: TRAP with CODE 0 ends the run with CAUSE 0 and EXIT = s1 (R222, R50). -/
def execTrapExit (c : Nat) (s : State) : Ans :=
  .next (s.onWord c (fun ix => isMajor 0x70 ix && decide (wCode ix.w = 0)) (fun ix =>
    s.endRun c { tag := ix.run.tag, exit := ix.cl.s 1, cause := 0, trapClass := 0, trapCode := 0, orphans := 0, trapPc := 0 }))

/-- `BREAK`: TRAP with CODE 1 to 0xFFFF raises BREAK with that code (R222). -/
def execBrk (c : Nat) (s : State) : Ans :=
  .next (s.onWord c (fun ix => isMajor 0x70 ix && decide (wCode ix.w ≠ 0)) (fun ix =>
    s.trap c .brk (wCode ix.w) ix.cl.pc 0))

/-! ### Signals (R213) -/

/-- The object generation of a signal handle is current (R39, R212). -/
def State.signalCurrent (s : State) (o : Word) : Bool :=
  match s.tlr.signals.look (sigIndex o) with
  | none => false
  | some g => g.live && decide (g.gen = sigGen o) && decide (g.ctx = sigCtx o)

/-- The handle check of R39 for a signal: `none` passes, otherwise the reason. -/
def State.checkSignal (s : State) (ix : Ix) (i need : Nat) : Option Nat :=
  let h := ix.cl.h i
  if hType h = 0 then some 2 else if hCtx h ≠ ix.run.ctx then some 1 else if hType h ≠ 11 then some 2
  else if !hasRights (hRights h) need then some 2 else if s.signalCurrent (hObj h) then none else some 3

/-- SIGNAL (R213): s[RA] is added to the count, saturating, and satisfied waiters are served. -/
def doSignal (ix : Ix) (s : State) : State :=
  match s.checkSignal ix (wH ix.w) rtWrite with
  | some r => s.trap ix.c .capability r ix.cl.pc 0
  | none =>
    let i := sigIndex (hObj (ix.cl.h (wH ix.w)))
    let s := s.updSignal i (fun g => { g with count := min (g.count + (ix.cl.s (wLRA ix.w)).toNat) (2 ^ 64 - 1) })
    serveSignal i 4096 (s.retire ix.c ix.cl)

/-- `SIGNAL`. -/
def execSignal (c : Nat) (s : State) : Ans := .next (s.onWord c (isMajor 0x61) (fun ix => doSignal ix s))

/-- When a WAIT or YIELD issued now with TIMEOUT `t` µs times out. -/
def State.timeoutAt (s : State) (t : Nat) : Option Nat := if t = 0 then none else some (s.now + t * 1000)

/-- YIELD (R213): without USE_H the issue slot is given up; with it the clerk joins the signal's queue and takes s[RA] when it is its
turn. -/
def doYield (ix : Ix) (s : State) : State :=
  if wUseH ix.w then
    match s.checkSignal ix (wHw ix.w) rtRead with
    | some r => s.trap ix.c .capability r ix.cl.pc 0
    | none =>
      let i := sigIndex (hObj (ix.cl.h (wHw ix.w)))
      let w := (ix.c, (ix.cl.s (wRA ix.w)).toNat, wPDw ix.w)
      let s := s.updSignal i (fun g => { g with waiters := g.waiters ++ [w] })
      let cl := { ix.cl with st := .waiting, waitFor := some (.signal i), waitUntil := s.timeoutAt (wTimeout ix.w) }
      serveSignal i 4096 (s.setClerk ix.c cl)
  else s.retire ix.c ix.cl

/-- `YIELD`. -/
def execYield (c : Nat) (s : State) : Ans := .next (s.onWord c (isMajor 0x62) (fun ix => doYield ix s))

/-- The clerk's WAIT or YIELD has timed out by now. -/
def State.timedOut (s : State) (cl : Clerk) : Bool :=
  match cl.waitUntil with
  | none => false
  | some t => decide (t ≤ s.now)

/-- `YIELD_TIMEOUT`: the predicate is cleared, the count unchanged, and the clerk leaves the queue (R213). -/
def execYieldTimeout (c : Nat) (s : State) : Ans :=
  s.whenLive (match (s.clerk c).waitFor with
    | some (.signal ix) =>
      if (s.clerk c).st = .waiting && s.timedOut (s.clerk c) then
        let pd := match s.tlr.signals.look ix with
          | none => 0
          | some g => match g.waiters.find? (fun w => decide (w.1 = c)) with
            | none => 0
            | some w => w.2.2
        let cl := (s.clerk c).setP pd false
        let s' := s.leaveSignals c
        s'.setClerk c { cl with st := .ready, waitFor := none, waitUntil := none, pc := cl.pc + 8 }
      else s
    | _ => s)

/-! ### WAIT (R46, R214) -/

/-- The slot a tag names on clerk `c`, when the tag is the clerk's own and its SERIAL is the one the slot holds. -/
def State.ownTag (s : State) (c : Nat) (tag : Word) : Option Nat :=
  let k := bits tag.toNat 30 6
  let sl := (s.clerk c).slot k
  if tag = rcptTag c k sl.serial && sl.occupied then some k else none

/-- Consume a completed Receipt: word 0 to s[RD], word 1 to s[RE], p[PD] set, and the handle of an OPEN with OK written (R214, R211). -/
def doConsume (ix : Ix) (k : Nat) (s : State) : State :=
  let sl := ix.cl.slot k
  let cl := ((ix.cl.setS (wRD ix.w) sl.word0).setS (wRB ix.w) sl.word1).setP (wPDw ix.w) true
  let s := s.setClerk ix.c { cl with pc := cl.pc + 8, waitUntil := none }
  let s := s.consumeSlot ix.c k
  match sl.openH with
  | some (i, h) => if sl.word0.toNat % 2 ^ 16 = 0 then s.setHandle ix.c i h else s
  | none => s

/-- WAIT (R214): a stale or foreign tag raises RECEIPT; an incomplete Receipt makes the clerk wait; a complete one is consumed. -/
def doWait (ix : Ix) (s : State) : State :=
  match s.ownTag ix.c (ix.cl.s (wRA ix.w)) with
  | none => s.trap ix.c .receipt 0 ix.cl.pc 0
  | some k =>
    if (ix.cl.slot k).complete then doConsume ix k s
    else s.setClerk ix.c { ix.cl with st := .waiting, waitFor := some (.receipt k), waitUntil := s.timeoutAt (wTimeout ix.w) }

/-- `WAIT`. -/
def execWait (c : Nat) (s : State) : Ans := .next (s.onWord c (isMajor 0x60) (fun ix => doWait ix s))

/-- `WAIT_TIMEOUT`: the predicate is cleared, nothing else is written and the Receipt stays (R46, R214). -/
def execWaitTimeout (c : Nat) (s : State) : Ans :=
  s.whenLive (match (s.clerk c).waitFor, (s.clerk c).run with
    | some (.receipt k), some r =>
      if (s.clerk c).st = .waiting && !((s.clerk c).slot k).complete && s.timedOut (s.clerk c) then
        match s.tlr.images.look r.slot with
        | none => s
        | some img =>
          let cl := (s.clerk c).setP (wPDw (img.wordAt (s.clerk c).pc)) false
          s.setClerk c { cl with st := .ready, waitFor := none, waitUntil := none, pc := cl.pc + 8 }
      else s
    | _, _ => s)

/-- `RUN_TIME_LIMIT`: the run's time limit is reached and WATCHDOG is raised (R56). -/
def execRunTimeLimit (c : Nat) (s : State) : Ans :=
  s.whenLive (match (s.clerk c).run with
    | none => s
    | some r =>
      match r.deadline with
      | none => s
      | some t =>
        if decide (t ≤ s.now) && (decide ((s.clerk c).st = .ready) || decide ((s.clerk c).st = .waiting)) then
          (s.leaveSignals c).trap c .watchdog 0 (s.clerk c).pc 0
        else s)

/-- `HANDLER_GRACE_EXPIRY`: the handler's extra 1 ms runs out and the run ends with CAUSE 2 and TRAP_CLASS 0x0A (R56). -/
def execHandlerGraceExpiry (c : Nat) (s : State) : Ans :=
  s.whenLive (match (s.clerk c).run with
    | none => s
    | some r =>
      match r.grace with
      | none => s
      | some t =>
        if decide (t ≤ s.now) && (decide ((s.clerk c).st = .ready) || decide ((s.clerk c).st = .waiting)) then
          s.endRun c (RunRec.mk r.tag 0 2 10 0 0 (s.clerk c).pc)
        else s)

end Sys2Proof.Machine
end

