-- ==== Sys2Proof/Machine/Issue.lean ====
section
/-! DEFINITION. What every long instruction does at issue (R209): the Receipt, the handle check of R39 on each kind of object, denials, and
the completions an operation posts. -/

namespace Sys2Proof.Machine

/-! ### Objects (R38, R39) -/

/-- The lead port of an enabled group (R119): its lowest-numbered port. -/
def State.groupLead (s : State) (g : Nat) : Option Nat :=
  if s.fld Fld.schGroupCfg_enable g = 1 then (List.range 8).find? (fun p => bit (s.fld Fld.schGroupCfg_ports g) p) else none

/-- The group whose lead is on node port `p`. -/
def State.groupOfLead (s : State) (p : Nat) : Option Nat := (List.range 8).find? (fun g => s.groupLead g = some p)

/-- Context `n` may use group `g`: under quiet partitioning only the groups it holds, and no other context uses those (R350). -/
def State.groupOpen (s : State) (n g : Nat) : Bool :=
  let quiet := fun k => s.ctxState k != 0 && s.ctxState k != 3 && s.fld Fld.secCtxState_quiet k = 1
  let holds := fun k => bit (s.rd .secCtxQuiet k).toNat (56 + g)
  if quiet n then holds n else (List.range 64).all (fun k => !(quiet k && holds k))

/-- The loaded table of a kind with an IDENT: its slot and bytes (R146). -/
def tableNamed (t : Tbl Nat Table) (o : Word) : Option (Nat × Table) := t.rows.find? (fun r => decide (leAt r.2.data 0x10 8 = o.toNat))

/-- The owning context of a table (Table 6-1). -/
def Table.ctx (t : Table) : Nat := leAt t.data 0x0A 1 % 64

/-- A session identifier names a session of this controller with its current generation (R39, R59). -/
def State.ssnCurrent (s : State) (o : Word) : Bool :=
  match s.sess (ssnIndex o) with
  | none => false
  | some x => decide (ssnHome o = s.self) && decide (x.gen = ssnGen o) && decide (x.ctx = ssnCtx o)

/-- The current generation of the object a handle names, by its TYPE (R39 case 5). An accelerator is named by its node port, a customer by
its index (DESIGN CHOICE, log 30). -/
def State.objCurrent (s : State) (ty : Nat) (o : Word) : Bool :=
  match ty with
  | 1 => s.ssnCurrent o
  | 2 => match s.vsr.colls.look (bits o.toNat 48 10) with
    | none => false
    | some k => decide (k.gen = bits o.toNat 0 48) && !k.dropping
  | 4 => match s.nmc.regions.look (sigIndex o) with
    | none => false
    | some r => decide (r.gen = sigGen o) && !r.dying
  | 5 => match s.dmap.regions.look (bits o.toNat 48 14) with
    | none => false
    | some r => decide (r.gen = bits o.toNat 0 48)
  | 6 => decide (o.toNat < 65536)
  | 7 => match s.stm.jobs.look (bits o.toNat 54 4) with
    | none => false
    | some j => decide (j.gen = bits o.toNat 0 54)
  | 8 => (s.groupOfLead o.toNat).isSome
  | 9 => (tableNamed s.txt.vocabs o).isSome
  | 10 => (tableNamed s.txt.grams o).isSome
  | 11 => s.signalCurrent o
  | _ => false

/-- The rights context `n` holds on an object that exists (R38); 0 where it holds none. -/
def State.rightsHeld (s : State) (n ty : Nat) (o : Word) : Nat :=
  let own := fun (c : Nat) => if c = n then 0xFF else 0
  match ty with
  | 1 => own (ssnCtx o)
  | 2 => own (bits o.toNat 58 6)
  | 4 => own (sigCtx o)
  | 5 => match s.dmap.regions.look (bits o.toNat 48 14) with
    | none => 0
    | some r => if s.rd .secCtxTenant n = r.tenant then 0xFF else 0
  | 6 => match (s.sch.customers.look o.toNat).bind (·.bound) with
    | none => 0xFF
    | some c => own c
  | 7 => own (sigCtx o)
  | 8 => match s.groupOfLead o.toNat with
    | none => 0
    | some g => if s.groupOpen n g then rtRead + rtCompute else 0
  | 9 => match tableNamed s.txt.vocabs o with
    | none => 0
    | some t => own t.2.ctx
  | 10 => match tableNamed s.txt.grams o with
    | none => 0
    | some t => own t.2.ctx
  | 11 => own (sigCtx o)
  | _ => 0

/-- The handle check of R39: the reason of the first case that applies, `none` where it passes. `tys` are the types the instruction
takes. -/
def State.checkHandle (s : State) (n : Nat) (h : Handle) (tys : List Nat) (need : Nat) : Option Nat :=
  if hType h = 0 then some 2
  else if hCtx h ≠ n then some 1
  else if !(tys.contains (hType h)) then some 2
  else if !(hasRights (hRights h) need) then some 2
  else if s.objCurrent (hType h) (hObj h) then none else some 3

/-! ### Issue (R209) -/

/-- An operation as it stands after issue: its instruction, its Receipt, and the state. -/
structure Op where
  ix : Ix
  r : Rcpt
  deriving DecidableEq, Repr

/-- The context of the operation. -/
def Op.ctx (o : Op) : Nat := o.ix.run.ctx

/-- The Receipt completes at once (R209). -/
def State.doneNow (s : State) (o : Op) (st : Status) (aux : Nat) (w1 : Word) : State := s.completeSlot o.r.clerk o.r.slot (word0 st aux) w1

/-- DENIED at once with a reason of Table 2-11. -/
def State.deny (s : State) (o : Op) (reason : Nat) : State := s.doneNow o .denied reason 0

/-- The operation's own result, which reaches the slot with `OPERATION_COMPLETE`. -/
def State.finishR (s : State) (r : Rcpt) (st : Status) (aux : Nat) (w1 : Word) : State :=
  s.postResult r.clerk r.slot r.serial (word0 st aux) w1

/-- The operation's own result. -/
def State.finish (s : State) (o : Op) (st : Status) (aux : Nat) (w1 : Word) : State := s.finishR o.r st aux w1

/-- ABORTED with a cause. -/
def State.abortR (s : State) (r : Rcpt) (cause : Nat) : State := s.finishR r .aborted cause 0

/-- The failure of a memory access ends the operation: word 1 holds the address (Table 2-11). -/
def State.failMem (s : State) (o : Op) (st : Status) (addr : Nat) : State := s.finish o st 0 (BitVec.ofNat 64 addr)

/-- Instance numbers of the handles an instruction names. -/
def Ix.insts (ix : Ix) (hs : List Nat) : List Nat := hs.filterMap (fun i => (ix.cl.hreg.look i).map (·.2))

/-- Issue of a long instruction (R209 step 2): with no free slot RECEIPT is raised; otherwise a slot is taken, which one the spec leaves
open (a free choice, log 3), its SERIAL rises, s[RD] receives the tag, the issue is counted and the clerk goes on; then `k` runs. -/
def State.issueLong (s : State) (ix : Ix) (kind : OpKind) (hs : List Nat) (k : Op → State → State) : State :=
  match pickFree s.freeCtr ix.cl.freeSlots with
  | none => s.trap ix.c .receipt 0 ix.cl.pc 0
  | some n =>
    let ser := ((ix.cl.slot n).serial + 1) % 2 ^ 30
    let sl : Slot := { serial := ser, occupied := true, complete := false, word0 := 0, word1 := 0, openH := none, via := ix.insts hs,
                       op := kind, result := none, cancel := none }
    let cl := (ix.cl.setSlot n sl).setS (wRD ix.w) (rcptTag ix.c n ser)
    let s := (s.bump.setClerk ix.c { cl with pc := cl.pc + 8 }).count .tlrClkRcptIss ix.c 1
    k ⟨ix, ⟨ix.c, n, ser⟩⟩ s

/-- A long instruction through one handle h[H] (R209 steps 2 and 3): a failed check completes the Receipt at once. -/
def State.issueH (s : State) (ix : Ix) (kind : OpKind) (tys : List Nat) (need : Nat) (k : Op → Handle → State → State) : State :=
  s.issueLong ix kind [wH ix.w] (fun o s =>
    let h := ix.cl.h (wH ix.w)
    match s.checkHandle ix.run.ctx h tys need with
    | some r => s.deny o r
    | none => k o h s)

/-- The descriptor d[D]. -/
def Ix.desc (ix : Ix) : Desc := ix.cl.d ix.img.compat (wD ix.w)

/-- The scalar of field RA. -/
def Ix.ra (ix : Ix) : Word := ix.cl.s (wLRA ix.w)
/-- The scalar of field RB. -/
def Ix.rb (ix : Ix) : Word := ix.cl.s (wLRB ix.w)

/-- A range named by the operands is mapped (R209 step 5). -/
def State.opMapped (s : State) (o : Op) (a : Nat) (len : Nat) : Bool := s.privMapped o.ix.c o.ctx a len

/-- Read a range the operation works on: unmapped completes it with ABORTED, cause 5, and a failed line with its status (R209). -/
def State.opRead (s : State) (o : Op) (a len : Nat) (k : List Byte → State → State) : State :=
  match s.readPriv o.ix.c o.ctx a len with
  | none => s.abortR o.r 5
  | some (s, st, bad, bs) => if st = .ok then k bs s else s.failMem o st bad

/-- Write a range the operation delivers to. -/
def State.opWrite (s : State) (o : Op) (a : Nat) (bs : List Byte) (k : State → State) : State :=
  match s.writePriv o.ix.c o.ctx a bs with
  | none => s.abortR o.r 5
  | some (s, st, bad) => if st = .ok then k s else s.failMem o st bad

end Sys2Proof.Machine
end

