-- ==== Sys2Proof/Machine/Ledger.lean ====
section
/-! DEFINITION. The Ledger: refill, charges, reservations and rent (R136 to R139), and CHARGE, CREDIT and RENT (R219). -/

namespace Sys2Proof.Machine

/-- A customer record nothing has written. -/
def Customer.blank : Customer :=
  { balance := 0, reserved := 0, cap := 0, refill := 0, wPrompt := 0, wGen := 0, wRecomp := 0, rent := 0, lastUpdate := 0, charged := 0,
    rentTotal := 0, credited := 0, refilled := 0, waitUs := 0, preempts := 0, deferred := 0, requests := 0, refused := 0, bound := none,
    rentAt := 0, dirty := false }

/-- Customer `c`. -/
def State.cust (s : State) (c : Nat) : Customer := s.sch.customers.lookD c Customer.blank

/-- Change customer `c`; a record changed since the last write to the Till is 128 dirty bytes (R136, Table 15-1). -/
def State.updCust (s : State) (c : Nat) (f : Customer → Customer) : State :=
  let x := s.cust c
  let s := if x.dirty then s else s.addDirty .ledger 128
  s.onSch (fun t => { t with customers := t.customers.put c { f x with dirty := true } })

/-- The rise of a refill: REFILL for the time since LAST_UPDATE, stopped at CAP; a BALANCE above CAP does not refill (R137). -/
def Customer.rise (x : Customer) (now : Nat) : Nat :=
  let full : Int := 256 * x.cap
  if full ≤ x.balance then 0 else min (x.refill * 256 * (now - x.lastUpdate) / 1000000000) (full - x.balance).toNat

/-- The refill of R137 up to now: REFILLED changes with BALANCE (R138). -/
def Customer.refillTo (x : Customer) (now : Nat) : Customer :=
  let r := x.rise now
  { x with balance := x.balance + r, refilled := x.refilled + r, lastUpdate := now }

/-- BALANCE − RESERVED. -/
def Customer.available (x : Customer) : Int := x.balance - x.reserved

/-- `n` 1/256 units are charged. -/
def Customer.charge (x : Customer) (n : Nat) : Customer := { x with balance := x.balance - n, charged := x.charged + n }

/-- Credit of `n` 1/256 units; BALANCE may pass CAP. -/
def Customer.give (x : Customer) (n : Nat) : Customer := { x with balance := x.balance + n, credited := x.credited + n }

/-- Rent of `n` 1/256 units. -/
def Customer.payRent (x : Customer) (n : Nat) : Customer := { x with balance := x.balance - n, rentTotal := x.rentTotal + n }

/-- A reservation of `n` 1/256 units. -/
def Customer.reserve (x : Customer) (n : Nat) : Customer := { x with reserved := x.reserved + n }

/-- A reservation of `r` is settled with a charge of `n` (R137): the charge never exceeds `r`. -/
def Customer.settle (x : Customer) (r n : Nat) : Customer := { x.charge (min n r) with reserved := x.reserved - r }

/-- RENT_Tt of a customer, 8.8 (Table 5-7). -/
def Customer.rentRate (x : Customer) (t : Nat) : Nat := bits x.rent.toNat (16 * (t - 1)) 16

/-- Bytes of a session's blob area that have been written, in whole granules. -/
def State.blobBytes (s : State) (i : Nat) : Nat :=
  ((List.range 128).filter (fun g => s.mem.any (fun c => decide (keyBlob i (g * 65536) ≤ c.1) && decide (c.1 < keyBlob i (g * 65536) + 65536)))).length
    * 65536

/-- The rate a session's rent accrues at, in 1/256 units × bytes ÷ GiB per second (R139): every tier that holds KV, and RENT_T3 for the
Passbook and the blobs. -/
def State.rentOf (s : State) (k : Customer) (i : Nat) (x : Session) : Nat :=
  if x.st = .parked || x.st = .parking then
    x.pages.length * 65536 * k.rentRate 1 +
    (if 2 ≤ x.kvTier && x.kvTier ≤ 4 then x.parked.length * 65536 * k.rentRate x.kvTier else 0) +
    (x.passbook.length * 4 + s.blobBytes i) * k.rentRate 3
  else 0

/-- Rent accrued by customer `c` up to now is charged (R139); BALANCE driven below zero sets `SCH_EVT.RENT_DEBT`. -/
def State.chargeRent (s : State) (c : Nat) : State :=
  let k := s.cust c
  let dt := s.nodeNs - k.rentAt
  let rate := (s.ssn.sessions.rows.map (fun r => if r.2.customer = c then s.rentOf k r.1 r.2 else 0)).sum
  let n := rate * dt / (2 ^ 30 * 1000000000)
  let x := ((k.refillTo s.nodeNs).payRent n)
  let s := s.updCust c (fun _ => { x with rentAt := s.nodeNs })
  if n ≠ 0 && decide (x.balance < 0) then s.raise Evt.sch_rentDebt else s

/-- The rent word changes: the rent accrued so far is charged at the old rates first (R219). -/
def State.setRent (s : State) (c : Nat) (v : Word) : State := (s.chargeRent c).updCust c (fun x => { x with rent := v })


/-- A change of customer `c`'s record has room in the flush budget; an operation without it waits (R136, R359, R363). -/
def State.ledgerRoom (s : State) (c : Nat) : Bool := (s.cust c).dirty || s.dirtRoom 128

/-- A Ledger operation, or `wait`, the state before its issue, while its record's dirt has no room. -/
def withRoom (wait : State) (f : Op → Handle → State → State) (o : Op) (h : Handle) (s : State) : State :=
  if s.ledgerRoom (hObj h).toNat then f o h s else wait

/-- The balance as a result word. -/
def State.balanceWord (s : State) (c : Nat) : Word := BitVec.ofInt 64 (s.cust c).balance

/-- CHARGE (R219). -/
def doCharge (force : Bool) (o : Op) (h : Handle) (s : State) : State :=
  let n := o.ix.ra.toNat
  let c := (hObj h).toNat
  if 2 ^ 62 ≤ n then s.deny o 2
  else
    let s := s.updCust c (fun x => x.refillTo s.nodeNs)
    if (s.cust c).available < n && !force then
      (s.updCust c (fun x => { x with refused := x.refused + 1 })).finish o .budget c (BitVec.ofInt 64 ((s.cust c).balance / 256))
    else
      let s := s.updCust c (fun x => x.charge n)
      s.finish o .ok 0 (s.balanceWord c)

/-- `CHARGE`. -/
def execCharge (c : Nat) (s : State) : Ans :=
  .next (s.onWord c (fun ix => isSub 0x40 0 ix || isSub 0x40 1 ix) (fun ix =>
    s.issueH ix .ledger [6] rtCharge (withRoom s (doCharge (decide (wSub ix.w = 1))))))

/-- CREDIT (R219). -/
def doCredit (o : Op) (h : Handle) (s : State) : State :=
  let n := o.ix.ra.toNat
  let c := (hObj h).toNat
  if 2 ^ 62 ≤ n then s.deny o 2
  else
    let s := s.updCust c (fun x => (x.refillTo s.nodeNs).give n)
    s.finish o .ok 0 (s.balanceWord c)

/-- `CREDIT`. -/
def execCredit (c : Nat) (s : State) : Ans :=
  .next (s.onWord c (isSub 0x41 0) (fun ix => s.issueH ix .ledger [6] rtCharge (withRoom s doCredit)))

/-- RENT (R219): word 1 is the rent word replaced. -/
def doRent (o : Op) (h : Handle) (s : State) : State :=
  let c := (hObj h).toNat
  let old := (s.cust c).rent
  (s.setRent c o.ix.ra).finish o .ok 0 old

/-- `RENT`. -/
def execRent (c : Nat) (s : State) : Ans :=
  .next (s.onWord c (isSub 0x42 0) (fun ix => s.issueH ix .ledger [6] rtCharge (withRoom s doRent)))

end Sys2Proof.Machine
end

