-- ==== Sys2Proof/Machine/Ssn.lean ====
section
/-! DEFINITION. The session store: creation and freeing of sessions, the Passbook, placement and revive, loss and rebuild (R58 to R85). -/

namespace Sys2Proof.Machine

/-! ### Storage formats (R88, R89) -/

/-- Storage of a layer's record in bytes (R89): BF16, FP8 or KV4. -/
def bpt (f : LayerForm) (fmt : Nat) : Nat :=
  let n := (f.hkv + 1) * (16 * (f.dh + 1))
  let raw := match fmt with
    | 0 => 4 * n
    | 1 => 2 * n
    | _ => 2 * (18 * ((n + 31) / 32))
  (raw + 63) / 64 * 64

/-- Tokens per page of a layer (R89). -/
def tpp (f : LayerForm) (fmt : Nat) : Nat := min 4096 (65536 / max 1 (bpt f fmt))

/-- The model of a session, if it is registered. -/
def State.modelOf (s : State) (x : Session) : Option Model := s.sch.models.look x.model

/-- The form of layer `l` of a session. -/
def State.formOf (s : State) (x : Session) (l : Nat) : Option LayerForm := (s.modelOf x).bind (fun m => m.forms[l]?)

/-- Layers of a session's model. -/
def State.nLayers (s : State) (x : Session) : Nat := match s.modelOf x with
  | none => 0
  | some m => m.forms.length

/-- The smallest TPP over a model's softmax layers, as the page-table root holds it (R89, R91). -/
def Model.rootTpp (m : Model) (fmt : Nat) : Nat :=
  (m.forms.filter (fun f => decide (f.kind = 0))).foldl (fun a f => min a (tpp f fmt)) 4096

/-! ### Creation (R58 to R61) -/

/-- Text state of a new session (the defaults of R161). -/
def TextSt.fresh : TextSt :=
  { temp := 0x3F800000, topP := 0x3F800000, minP := 0, topK := 0, rep := 0x3F800000, freq := 0, pres := 0, penWindow := 0, penScope := 0,
    seedMode := false, seed := [], nonce := [], drbgPos := 0, counts := .empty, bias := [], stops := [], showSpecial := false,
    grammar := none, frames := [], pend := [], dvec := [], held := [], stopped := false }

/-- A new session: ACTIVE, an empty Passbook, no KV (R58). -/
def Session.fresh (gen ctx i : Nat) : Session :=
  { gen := gen, ctx := ctx, st := .active, cls := 0, pinned := false, pinTier := 0, kvKept := false, cfoilKv := false, boost := false,
    kvFmt := 0, model := 0, customer := 0, reservedLen := 0, kvTier := 0xFF, pbATier := 1, pbBTier := 1, cleanT1 := false, expWait := 0,
    expResume := 0, parkedAt := 0, cfPeer := 0, cfValid := false, mirrored := [], cfIndex := 0, lastStep := 0, passbook := [], pbA := some 0,
    pbB := some 0, pbAt := [], pbFlash := 0, pbWriting := (0, 0), pbExts := [], parked := [], kvExt := none, placing := none, pages := [],
    layers := .empty, dirA := some (i % 24), dirB := some ((i % 24 + 6) % 24), blobMap := none, blobRefs := 0, inT0 := false,
    lastInStep := 0, text := TextSt.fresh, req := none, op := none, rebuild := none, recompute := none, lateLayer := none,
    heldSince := none, hsv := none, preRevive := false, t4Peer := none }

/-- The identifier of session `i`. -/
def State.identOf (s : State) (i : Nat) (x : Session) : Word := ssnIdent s.self x.ctx i x.gen

/-- Session blocks of the hubs in service (R66). -/
def State.t0Blocks (s : State) : Nat := 4915 * s.hubsUp.length

/-- Session `i` is in a step in flight. -/
def State.inStep (s : State) (i : Nat) : Bool :=
  s.sch.steps.any (fun _ t => t.sessions.any (fun e => decide (e.sess = i) && e.status.isNone && !e.committed))

/-- Session `i` takes a session block of T0 (R66): a free one, or that of the ACTIVE session longest out of any step, which spills to T1;
false where every block is in a step in flight. -/
def State.takeT0 (s : State) (i : Nat) : State × Bool :=
  match s.sess i with
  | none => (s, false)
  | some x =>
    if x.inT0 then (s, true)
    else if s.ssn.sessions.countIf (fun _ y => y.inT0) < s.t0Blocks then (s.updSession i (fun x => { x with inT0 := true }), true)
    else
      let cands := s.ssn.sessions.rows.filter (fun r => r.2.inT0 && decide (r.2.st = .active) && !(s.inStep r.1))
      match cands.foldl (fun (a : Option (Nat × Nat)) r => match a with
          | none => some (r.1, r.2.lastInStep)
          | some b => if r.2.lastInStep < b.2 then some (r.1, r.2.lastInStep) else some b) none with
      | none => (s, false)
      | some (j, _) => ((s.updSession j (fun y => { y with inT0 := false })).updSession i (fun x => { x with inT0 := true }), true)

/-- How an index for a new session is found (R58 to R60). -/
inductive NewIx
  | index (i : Nat) | full | hold (ns : Nat)
  deriving DecidableEq, Repr

/-- The index of a new session: the lowest one that is free and past its 1 s (DESIGN CHOICE, log 9). -/
def State.newIndex (s : State) : NewIx :=
  let n := s.ssn.sessions.size
  if 16777216 ≤ n then .full
  else
    let i := (lowestFree (fun i => s.ssn.sessions.has i || s.ssn.freedAt.has i) 0 (n + s.ssn.freedAt.size + 1)).getD 0
    if i < 16777216 then .index i
    else
      let e := s.ssn.freedAt.rows.foldl (fun a r => min a (r.2 + 1000000000)) (s.now + 1000000000)
      .hold (e - s.now)

/-- Session `i` comes into being with generation of its index (R58, R59). -/
def State.createSession (s : State) (i ctx : Nat) : State :=
  let g := s.ssn.gens.lookD i 1
  (s.onSsn (fun t => { t with sessions := t.sessions.put i (Session.fresh g ctx i), gens := t.gens.put i g })).zeroRange
    (keyBlob i 0) (keyBlob i 0 + 2 ^ 23)

/-! ### The Passbook (R64, R65, Table 3-5) -/

/-- Entries in a Passbook page. -/
def pbEntries : Nat := 16368

/-- A Passbook entry as it stands in a page. -/
def PbEntry.word (e : PbEntry) : Nat := e.token % 2 ^ 20 + e.kind % 4 * 2 ^ 20 + b2n e.trunc * 2 ^ 22

/-- The entries of page `n`. -/
def pbSlice (pb : List PbEntry) (n : Nat) : List Byte := ((pb.drop (n * pbEntries)).take pbEntries).flatMap (fun e => natLe 4 e.word)

/-- CHAIN of page `n`. -/
def pbChain (pb : List PbEntry) : Nat → List Byte
  | 0 => List.replicate 32 0
  | n + 1 => Config.shake256 (pbChain pb n ++ pbSlice pb (n + 1)) 32

/-- Passbook page `n` of a session, 64 KiB. -/
def pbPage (ident : Word) (x : Session) (n : Nat) : List Byte :=
  let es := pbSlice x.passbook n
  takeAt (natLe 8 ident.toNat ++ natLe 4 n ++ natLe 4 (es.length / 4) ++ natLe 8 (n * pbEntries) ++ natLe 8 x.lastStep ++ pbChain x.passbook n ++ es)
    0 65536

/-- The Counterfoil is enabled. -/
def State.cfOn (s : State) : Bool := decide (s.fld Fld.ssnCfoilCfg_enable = 1)
/-- The paired controller. -/
def State.cfPartner (s : State) : Nat := s.fld Fld.ssnCfoilCfg_partner

/-- The stacks of Passbook page `b` of both copies (R64): copy B lies on another hub, on the Counterfoil (99), or, with one hub in
service, on another stack of that hub. -/
def State.pbPlace (s : State) (ctx i b : Nat) : Nat × Nat :=
  let a := ((s.stackOrder ctx i 250 b).head?).getD 0
  if s.cfOn then (a, 99)
  else
    let set := s.stackSet ctx
    let others := set.filter (fun m => decide (hubOfStack m ≠ hubOfStack a))
    let l := if others.isEmpty then set.filter (fun m => decide (m ≠ a)) else others
    (a, (l[stackHash i 249 b l.length]?).getD a)

/-- Entries join both copies of session `i`'s Passbook; a page begun is placed, the bytes held only in DRAM are dirty, and with one hub in
service `SSN_EVT.PB_SINGLE` is set (R64). The Counterfoil receives the pages they touch. -/
def State.appendPb (s : State) (i : Nat) (es : List PbEntry) (step : Nat) : State :=
  match s.sess i with
  | none => s
  | some x =>
    let n := x.passbook.length + es.length
    let need := (n + pbEntries - 1) / pbEntries
    let new := (List.range need).filter (fun b => decide (x.pbAt.length ≤ b))
    let at_ := x.pbAt ++ new.map (fun b => s.pbPlace x.ctx i b)
    let x' := { x with passbook := x.passbook ++ es, pbA := x.pbA.map (fun _ => n), pbB := x.pbB.map (fun _ => n), pbAt := at_, lastStep := step }
    let single := !s.cfOn && decide (s.hubsUp.length = 1) && !new.isEmpty
    let s := (s.onSsn (fun t => { t with sessions := t.sessions.put i x' })).addDirty .passbook (4 * es.length)
    let s := if single then s.raise Evt.ssn_pbSingle else s
    if s.cfOn then
      let first := x.passbook.length / pbEntries
      ((List.range need).filter (fun b => decide (first ≤ b))).foldl
        (fun s b => s.send (.sessCf s.cfPartner (s.identOf i x') false 0 b (pbPage (s.identOf i x') x' b)))
        (s.updSession i (fun y => { y with cfPeer := s.cfPartner, cfValid := true }))
    else s

/-- Passbook bytes of a session held only in DRAM. -/
def Session.pbDirty (x : Session) : Nat := 4 * (x.passbook.length - x.pbFlash)

/-! ### The end of a request and of a session (R59, R65, R140) -/

/-- The request of session `i` finishes with a code of Table 5-10: its SUBMIT completes with `st`, BOOST is cleared, and the finish is
counted. -/
def State.endRequest (s : State) (i code : Nat) (st : Status) (aux : Nat) (w1 : Word) : State :=
  match s.sess i with
  | none => s
  | some x =>
    match x.req with
    | none => s
    | some q =>
      let s := s.updSession i (fun x => { x with req := none, boost := false, hsv := none })
      let s := (s.updCust q.customer (fun c => { c with requests := c.requests + 1 })).onSch
        (fun t => { t with finishes := (t.finishes.filter (fun f => decide (s.now < f + 1000000000))) ++ [s.now] })
      s.finishR ⟨q.clerk, q.slot, q.serial⟩ st (if st = .ok then q.generated else aux) (if st = .ok then BitVec.ofNat 64 code else w1)

/-- The extent's units are unmapped and the extent is gone (R249). -/
def State.dropExtent (s : State) (e : Nat) : State :=
  match s.fls.extents.look e with
  | none => s
  | some x =>
    let s := s.discardUnits (s.fls.map.keysIf (fun u _ => decide (x.base ≤ u) && decide (u < x.base + x.units)))
    s.onFls (fun f => { f with extents := f.extents.del e, writes := f.writes.filter (fun w => decide (w.extent ≠ e)) })

/-- The session's open reservation is released (R137). -/
def State.releaseRes (s : State) (c n : Nat) : State := if n = 0 then s else s.updCust c (fun k => { k with reserved := k.reserved - n })

/-- Session `i` is out of the step it is in, with a status of Table 2-11 (R85, R106): its Ledger reservation and the pages reserved for it
are released, and KV_WRITTEN returns to KV_LEN (R94, R138). -/
def State.leaveStep (s : State) (i status : Nat) : State :=
  let mine := s.sch.steps.rows.flatMap (fun r => r.2.sessions.filter (fun e => decide (e.sess = i) && e.status.isNone && !e.committed))
  if mine.isEmpty then s
  else
    let s := mine.foldl (fun (s : State) e => s.updCust e.customer (fun k => { k with reserved := k.reserved - e.reserve })) s
    let s := s.dropPages i (fun q => decide (q.use = .reserved))
    let s := s.updSession i (fun x => { x with
      layers := x.layers.mapVals (fun _ y => { y with kvWritten := y.kvLen })
      req := x.req.map (fun q => { q with openRes := 0, waitSince := s.now }) })
    s.onSch (fun t => { t with steps := t.steps.mapVals (fun _ p =>
      { p with sessions := p.sessions.map (fun e => if e.sess = i && e.status.isNone && !e.committed then { e with status := some status } else e) }) })

/-- Unregistered models free their index once no bound session names them (R118). Slots of unloaded tables free once no registered model
names the vocabulary and no session is bound to the grammar (R146); `TXT_VOCAB_SLOT`, `TXT_GRAM_SLOT` and `TXT_AREA` follow. -/
def State.sweepTables (s : State) : State :=
  let named := fun (k : Nat) => s.ssn.sessions.any (fun _ x => decide (x.model = k) && decide (x.reservedLen ≠ 0))
  let s := s.onSch (fun t => { t with models := t.models.keep (fun k m => !m.unreg || named k) })
  let ident := fun (t : Table) => leAt t.data 0x10 8
  let vgone := s.txt.vocabs.keysIf (fun _ t => t.unloading && !(s.sch.models.any (fun _ m => decide (m.vocab.toNat = ident t))))
  let ggone := s.txt.grams.keysIf (fun k t => t.unloading && !(s.ssn.sessions.any (fun _ x => decide (x.text.grammar = some k))))
  let s := vgone.foldl (fun (s : State) k => ({ s with txt := { s.txt with vocabs := s.txt.vocabs.del k } } : State).wr .txtVocabSlot k 0) s
  let s := ggone.foldl (fun (s : State) k => ({ s with txt := { s.txt with grams := s.txt.grams.del k } } : State).wr .txtGramSlot k 0) s
  let kib := fun (t : Tbl Nat Table) => (t.rows.map (fun r => (r.2.data.length + 1023) / 1024)).sum
  s.hubsUp.foldl (fun (s : State) h => s.wr .txtArea h (BitVec.ofNat 64 (kib s.txt.vocabs % 2 ^ 32 + kib s.txt.grams % 2 ^ 32 * 2 ^ 32))) s

/-- Session `i` is freed (R59): its pieces are released everywhere, GEN advances, and the index waits 1 s. -/
def State.freeSession (s : State) (i : Nat) : State :=
  match s.sess i with
  | none => s
  | some x =>
    let s := (s.leaveStep i 0x00F0).dropPages i (fun _ => true)
    let s := (x.pbExts ++ x.kvExt.toList ++ (x.placing.bind (·.ext)).toList).foldl (fun s e => s.dropExtent e) s
    let s := s.setDirty .passbook (s.dirtyOf .passbook - x.pbDirty)
    let s := (s.zeroRange (keyBlob i 0) (keyBlob i 0 + 2 ^ 23)).onDfb (fun d => { d with borrowed := d.borrowed.filter (fun g => decide (g.sess ≠ i)) })
    let g := if x.gen = 0x1FFFFFFF then 1 else x.gen + 1
    (s.onSsn (fun t => { t with sessions := t.sessions.del i, gens := t.gens.put i g, freedAt := t.freedAt.put i s.now })).sweepTables

/-- A session is lost (R61, R65): its operations complete with ABORTED, cause 5, and `SSN_EVT.SESSION_LOST` is set. -/
def State.loseSession (s : State) (i : Nat) : State :=
  match s.sess i with
  | none => s
  | some x =>
    let s := match x.op with
      | some m => s.abortR ⟨m.clerk, m.slot, m.serial⟩ 5
      | none => s
    ((s.endRequest i 8 .aborted 5 0).freeSession i).raise Evt.ssn_sessionLost

/-! ### Placement (R76 to R78, Table 3-9) -/

/-- The class a session counts as. -/
def Session.effClass (x : Session) : Nat := if x.boost then 0 else x.cls

/-- `SSN_PREFILL_RATE`: prefill tokens per second over the last 10 s (R78). -/
def State.prefillRate (s : State) : Nat := ((s.sch.prefills.filter (fun p => decide (s.now < p.1 + 10000000000))).map (·.2)).sum / 10

/-- The revive estimate of a tier in ns (R78); `none` where no rate is known. -/
def State.reviveEst (s : State) (x : Session) (t : Nat) : Option Nat :=
  let b := x.kvBytes
  match t with
  | 1 => some 0
  | 2 => some (1000000 + b * 10 / max 1 (s.fld Fld.ssnPlaceCfg_flashGbps))
  | 3 => some (2000000 + b * 10 / max 1 (s.fld Fld.ssnPlaceCfg_flashGbps))
  | 4 => some (100000 + b / max 1 (s.fld Fld.ssnPlaceCfg_peerGbps))
  | _ => if s.prefillRate = 0 then none else some (x.passbook.length * 1000000000 / s.prefillRate)

/-- The full revive target of a class in ns (Table 3-9). -/
def classTarget (c : Nat) : Option Nat :=
  match c with
  | 0 => some 50000000
  | 1 => some 500000000
  | 2 => some 5000000000
  | _ => none

/-- Table 3-9 permits Passbook-only for the session. -/
def State.pbOnlyOk (s : State) (x : Session) : Bool :=
  decide (2 ≤ x.effClass) || decide (x.passbook.length < s.fld Fld.ssnPlaceCfg_shortTokens * 32)

/-- A tier meets the session's class target (R76 step 3). -/
def State.meetsTarget (s : State) (x : Session) (t : Nat) : Bool :=
  match classTarget x.effClass, s.reviveEst x t with
  | none, _ => true
  | some g, some e => decide (e ≤ g)
  | some _, none => false

/-- A peer that grants T4 room for `n` pages (R306): a member of the domain is asked, and whether it grants is the peer's, a free choice
(log 31). -/
def State.t4Offer (s : State) : Option Nat :=
  if s.domUp && decide (Config.freeNat s.freeCtr % 2 = 1) then
    (s.dmap.members.rows.find? (fun r => decide (r.1 ≠ s.self) && decide (r.2.st = .member) &&
      !(s.dfb.borrowed.any (fun g => decide (g.peer = r.1) && g.revokedAt.isSome)))).map (·.1)
  else none

/-- A tier has room for newly placed KV (R76 step 4). -/
def State.hasRoom (s : State) (t : Nat) : Bool :=
  match t with
  | 1 => s.belowLow
  | 2 => s.boot.flashUp && decide (s.pool = 0) && decide (s.fld Fld.flsCfg_tillEn = 1)
  | 3 => s.boot.flashUp && decide (s.pool = 0)
  | 4 => s.t4Offer.isSome
  | _ => true

/-- The least of a list by a key, the first among equals. -/
def leastBy (key : Nat → Nat) (l : List Nat) : Option Nat :=
  l.foldl (fun a t => match a with
    | none => some t
    | some b => if key t < key b then some t else some b) none

/-- The placement R76 chooses: a tier 1 to 4, 0xFF for Passbook-only, or none. `noT1`: T1 is excluded (R79). -/
def State.choosePlace (s : State) (x : Session) (noT1 noT4 : Bool) : Option Nat :=
  let k := s.cust x.customer
  let all := (if noT1 then [] else [1]) ++ [2, 3] ++ (if noT4 then [] else [4]) ++ (if s.pbOnlyOk x then [0xFF] else [])
  let c2 := if x.pinned && x.kvKept then all.filter (fun t => decide (t = max 1 x.pinTier)) else all
  let c4 := c2.filter s.hasRoom
  let c34 := c4.filter (s.meetsTarget x)
  let rent := fun t => if t = 0xFF then 0 else k.rentRate t
  let flash := fun t => if t = 2 || t = 3 then 1 else 0
  if c34.isEmpty then leastBy (fun t => (s.reviveEst x t).getD (2 ^ 64)) c4
  else leastBy (fun t => (rent t * 2 + flash t) * 256 + t) c34

/-- The resident park of R77. -/
def State.residentPark (s : State) (x : Session) : Bool :=
  decide (x.expWait ≠ 0) && decide (x.expWait ≠ 0xFFFFFFFF) && decide (x.expWait < s.fld Fld.ssnParkCfg_holdMs) && s.belowLow

/-- The bytes of a session's pages in T1, in order; `none` where a line cannot be read. -/
def State.pageData (s : State) (ps : List KvPage) : State × Option (List (List Byte)) :=
  ps.foldl (fun (a : State × Option (List (List Byte))) q =>
    match a.2 with
    | none => a
    | some l =>
      let r := a.1.readMem q.key 65536
      (r.1, if r.2.1 = .ok then some (l ++ [r.2.2]) else none)) (s, some [])

/-- The bytes of a piece on flash: two mapping units. -/
def State.pieceData (s : State) (q : PkPage) : Option (List Byte) :=
  let a := s.unitRead q.unit
  let b := s.unitRead (q.unit + 1)
  if a.1 = 0 && b.1 = 0 then some (takeAt a.2 0 unitBytes ++ takeAt b.2 0 unitBytes) else none

/-- Every piece of a session with where its bytes come from, in the order a placement writes them. -/
def State.allPieces (s : State) (x : Session) : State × Option (List (PkPage × List Byte)) :=
  if x.parked.isEmpty || x.cleanT1 then
    let ps := x.pages
    let r := s.pageData ps
    (r.1, r.2.map (fun l => (ps.map (fun q => (⟨q.kind, q.layer, q.blk, 0⟩ : PkPage))).zip l))
  else
    (s, x.parked.foldl (fun (a : Option (List (PkPage × List Byte))) q =>
      match a, s.pieceData q with
      | some l, some d => some (l ++ [(q, d)])
      | _, _ => none) (some []))

/-- The first flash unit of the `k`-th piece of an extent. -/
def State.pieceUnit (s : State) (ext k : Nat) : Nat :=
  match s.fls.extents.look ext with
  | none => 0
  | some e => e.base + 2 * k

/-- How a placement starts. -/
inductive PlaceRes
  | started | noSpace | lost
  deriving DecidableEq, Repr

/-- A placement of session `i` in tier `t` starts (R68, R76): sources of a mover in T1 pass through TRANSIT, and flash copies are
written. -/
def State.startPlace (s : State) (i t : Nat) : State × PlaceRes :=
  match s.sess i with
  | none => (s, .lost)
  | some x =>
    let s := s.chargeRent x.customer
    let set := fun (s : State) (p : Placing) => s.updSession i (fun x => { x with placing := some p })
    if t = 1 || t = 0xFF || (x.pages.isEmpty && x.parked.isEmpty) then (set s ⟨t, 0, none, none⟩, .started)
    else
      let r := s.allPieces x
      match r.2 with
      | none => (r.1, .lost)
      | some l =>
        let s := r.1.markPages i (fun q => decide (q.use = .live)) .transit
        if t = 4 then
          match s.t4Offer with
          | none => (s.markPages i (fun q => decide (q.use = .transit)) .live, .noSpace)
          | some p =>
            let s := (s.bump.send (.t4Ask p l.length)).send (.t4Store p (s.identOf i x) (l.map (·.2)))
            (set s ⟨4, 0, none, some p⟩, .started)
        else
          let e := s.newExtent (some x.ctx) (2 * l.length) false none
          match e.2 with
          | none => (e.1.markPages i (fun q => decide (q.use = .transit)) .live, .noSpace)
          | some ext =>
            let data := l.flatMap (fun p => [takeAt p.2 0 unitBytes, takeAt p.2 unitBytes unitBytes])
            let w := e.1.flashPut (.park i) ext 0 data (decide (t = 2))
            match w.2 with
            | .queued _ => (set w.1 ⟨t, 1, some ext, none⟩, .started)
            | _ => ((w.1.dropExtent ext).markPages i (fun q => decide (q.use = .transit)) .live, .noSpace)

/-- A placement is undone before its commit point (Table 3-7): flash copies are discarded, and the sources stay. -/
def State.undoPlace (s : State) (i : Nat) : State :=
  match s.sess i with
  | none => s
  | some x =>
    let s := match x.placing.bind (·.ext) with
      | some e => s.dropExtent e
      | none => s
    (s.markPages i (fun q => decide (q.use = .transit)) (if x.parked.isEmpty then .live else .clean)).updSession i
      (fun x => { x with placing := none })

/-- The T4 room session `i` borrowed is given up (R306). -/
def State.dropGrant (s : State) (i : Nat) : State := s.onDfb (fun d => { d with borrowed := d.borrowed.filter (fun g => decide (g.sess ≠ i)) })

/-- Session `i` borrows room of a peer. -/
def State.addGrant (s : State) (i peer pages : Nat) : State :=
  (s.dropGrant i).onDfb (fun d => { d with borrowed := d.borrowed ++ [⟨peer, i, pages, d.grantCtr, none, false⟩], grantCtr := d.grantCtr + 1 })

/-- The session's pieces lie with a T4 peer alone: they come back before they go anywhere else (DESIGN CHOICE, log 64). -/
def Session.atPeer (x : Session) : Bool := decide (x.kvTier = 4) && !x.parked.isEmpty && !x.cleanT1

/-- The pieces of the session that have no page in T1. -/
def Session.missing (x : Session) : List PkPage :=
  x.parked.filter (fun q => !(x.pages.any (fun p => decide (p.kind = q.kind) && decide (p.layer = q.layer) && decide (p.blk = q.blk))))

/-- Every piece of the session has a page in T1. -/
def Session.inT1 (x : Session) : Bool := x.missing.isEmpty

/-- A placement of session `i` commits (R75, R79): the directory entry names the new places; after a write to flash the sources stay as a
clean copy while ALLOC is below T1_LOW. -/
def State.commitPlace (s : State) (i : Nat) : State :=
  match s.sess i with
  | none => s
  | some x =>
    match x.placing with
    | none => s
    | some p =>
      let s := s.chargeRent x.customer
      let dropOld := fun (s : State) => match x.kvExt with
        | some e => s.dropExtent e
        | none => s
      let pieces : List PkPage := if x.parked.isEmpty || x.cleanT1 then x.pages.map (fun q => ⟨q.kind, q.layer, q.blk, 0⟩) else x.parked
      match p.target with
      | 1 =>
        let whole := x.inT1
        let s := if whole then ((dropOld s).markPages i (fun _ => true) .live).dropGrant i else s
        s.updSession i (fun x => { x with
          placing := none
          kvTier := if x.pages.isEmpty then x.kvTier else 1
          cleanT1 := false
          parked := if whole then [] else x.parked
          t4Peer := if whole then none else x.t4Peer
          kvExt := if whole then none else x.kvExt })
      | 0xFF =>
        let s := ((dropOld s).dropPages i (fun _ => true)).dropGrant i
        s.updSession i (fun x => { x with
          placing := none
          kvTier := 0xFF
          kvKept := false
          cleanT1 := false
          parked := []
          kvExt := none
          layers := .empty
          t4Peer := none
          recompute := if x.passbook.isEmpty then none else some (x.passbook.length, true) })
      | t =>
        let s := dropOld s
        let l := (List.range pieces.length).map (fun k => match pieces[k]? with
          | some q => { q with unit := match p.ext with
              | some e => s.pieceUnit e k
              | none => 0 }
          | none => (⟨0, 0, 0, 0⟩ : PkPage))
        let s := match p.peer with
          | some q => s.addGrant i q l.length
          | none => s.dropGrant i
        let keep := decide (t ≠ 4) && s.belowLow && !x.pages.isEmpty
        let s := if keep then s.markPages i (fun _ => true) .clean else s.dropPages i (fun _ => true)
        s.updSession i (fun x => { x with
          placing := none
          kvTier := if l.isEmpty then x.kvTier else t
          cleanT1 := keep && x.inT1
          parked := l
          kvExt := p.ext
          t4Peer := p.peer })

/-! ### Revive (R72, R81) -/

/-- Layers resident in T1, counted from layer 0 (LAYERS_RES). -/
def State.layersRes (s : State) (x : Session) : Nat :=
  ((List.range (s.nLayers x)).takeWhile (fun l => match x.layers.look l with
    | some y => y.resident
    | none => true)).length

/-- The layer a parked piece belongs to: table pages come with layer 0. -/
def PkPage.layerOf (q : PkPage) : Nat := if q.kind = 3 then 0 else q.layer

/-- A layer's fields before anything is written. -/
def LayerSt.zero : LayerSt := { resident := true, activeB := false, poisoned := false, kvLen := 0, kvWritten := 0, digested := 0 }

/-- Layer `l` of a session. -/
def Session.layer (x : Session) (l : Nat) : LayerSt := x.layers.lookD l LayerSt.zero

/-- Every layer of the pieces given is not resident. -/
def Session.markAbsent (x : Session) (ps : List PkPage) : Session :=
  ps.foldl (fun x q => { x with layers := x.layers.put q.layerOf { x.layer q.layerOf with resident := false } }) x

/-- Clean copies become live, and the session is ACTIVE (Table 3-7). -/
def State.becomeLive (s : State) (i : Nat) : State :=
  match s.sess i with
  | none => s
  | some x =>
    let s := match x.kvExt with
      | some e => s.dropExtent e
      | none => s
    ((s.dropGrant i).markPages i (fun _ => true) .live).updSession i (fun x => { x with
      st := .active
      cleanT1 := false
      parked := []
      kvExt := none
      t4Peer := none
      preRevive := false
      kvTier := if x.pages.isEmpty then 0xFF else 1 })

/-- Target pages of a revive are taken (R68, R80): false where the pool has no room. -/
def State.startStream (s : State) (i : Nat) : State × Bool :=
  match s.sess i with
  | none => (s, false)
  | some x =>
    let r := s.addPages i (x.missing.map (fun q => (q.kind, q.layer, q.blk))) .transit
    let t := if r.2 then r.1.updSession i (fun y => y.markAbsent x.missing) else r.1
    (match x.t4Peer with
      | some p => if r.2 then t.send (.t4Recall p (s.identOf i x)) else t
      | none => t, r.2)

/-- A revive of a PARKED session that holds KV outside T1, or none at all (R72): REVIVING, or false where T1 has no room. -/
def State.startRevive (s : State) (i : Nat) : State × Bool :=
  match s.sess i with
  | none => (s, false)
  | some x =>
    let s := s.chargeRent x.customer
    if !x.kvKept && x.recompute.isSome then (s.updSession i (fun x => { x with st := .reviving }), true)
    else if x.preRevive then (s.updSession i (fun x => { x with st := .reviving, preRevive := false }), true)
    else if x.inT1 then (s.becomeLive i, true)
    else
      let r := s.startStream i
      if r.2 then (r.1.updSession i (fun x => { x with st := .reviving }), true) else r

/-- A revive is cancelled (Table 3-7): layers already resident are kept as clean copies, and the other target pages are released. -/
def State.cancelRevive (s : State) (i : Nat) : State :=
  ((s.dropPages i (fun q => decide (q.use = .transit))).markPages i (fun q => decide (q.use = .live)) .clean).updSession i (fun x => { x with
    st := .parked
    op := none
    preRevive := false
    inT0 := false })

/-! ### The Counterfoil of a session (R64, R71) -/

/-- With CFOIL_KV and the Counterfoil enabled, the KV pages that are full and not yet mirrored go to the paired controller (R64, R85; when is
not stated: DESIGN CHOICE, log 65). -/
def State.mirrorKv (s : State) (i : Nat) : State :=
  match s.sess i with
  | none => s
  | some x =>
    if !(s.cfOn && x.cfoilKv) then s
    else
      let full := x.pages.filter (fun q => decide (q.kind = 0) && !(x.mirrored.contains (q.layer, q.blk)) && (match s.formOf x q.layer with
        | some f => decide ((q.blk + 1) * tpp f x.kvFmt ≤ (x.layer q.layer).kvLen)
        | none => false))
      let s := full.foldl (fun (s : State) q =>
        let r := s.readMem q.key 65536
        if r.2.1 = .ok then
          (r.1.send (.sessCf s.cfPartner (s.identOf i x) true q.layer q.blk r.2.2)).updSession i (fun y => { y with
            mirrored := y.mirrored ++ [(q.layer, q.blk)] })
        else r.1) s
      s.updSession i (fun y => { y with cfPeer := s.cfPartner, cfValid := true })

/-! ### Loss (R65, R85) -/

/-- The first position a lost page holds (R85): a table page or a recurrent state takes everything with it. -/
def State.lostPos (s : State) (x : Session) (kind layer blk : Nat) : Nat :=
  match kind with
  | 0 => match s.formOf x layer with
    | some f => blk * tpp f x.kvFmt
    | none => 0
  | _ => 0

/-- A page is at position `t0` or after, and freed with it (R85): KV pages that begin there, every digest page where `t0` is 0, and the
recurrent state. -/
def State.pageAfter (s : State) (x : Session) (t0 : Nat) (q : KvPage) : Bool :=
  match q.kind with
  | 0 => decide (t0 ≤ s.lostPos x 0 q.layer q.blk)
  | 1 => decide (t0 = 0)
  | 2 => true
  | _ => false

/-- Session `i` loses pages (R85): it leaves its steps, movements are cancelled as before their commit point, what the Counterfoil holds is
fetched, and the tokens from `t0` on are to be recomputed from the Passbook. -/
def State.losePages (s : State) (i : Nat) (lost : KvPage → Bool) : State :=
  match s.sess i with
  | none => s
  | some x =>
    let gone := x.pages.filter lost
    if gone.isEmpty then s
    else
      let cf := fun (q : KvPage) => x.cfoilKv && x.cfValid && decide (q.kind = 0) && x.mirrored.contains (q.layer, q.blk)
      let s := s.leaveStep i 0x00F0
      let s := match x.op, x.st with
        | some m, .parking => (s.abortR ⟨m.clerk, m.slot, m.serial⟩ 5).undoPlace i
        | some m, .moving => s.abortR ⟨m.clerk, m.slot, m.serial⟩ 5
        | _, _ => s
      let back := match x.st, x.op, x.rebuild with
        | .rebuilding, _, some r => r.back
        | .parking, some m, _ => m.prev
        | .moving, some m, _ => m.prev
        | st, _, _ => st
      let hit := gone.filter (fun q => !(cf q))
      let old := match x.rebuild with
        | some r => r.t0
        | none => none
      let t0 : Option Nat := hit.foldl (fun a q => match a with
        | none => some (s.lostPos x q.kind q.layer q.blk)
        | some b => some (min b (s.lostPos x q.kind q.layer q.blk))) old
      let fetch := ((match x.rebuild with
        | some r => r.fetch
        | none => []) ++ (gone.filter cf).map (fun q => (q.layer, q.blk))).filter (fun p => match t0 with
          | some t => decide (s.lostPos x 0 p.1 p.2 < t)
          | none => true)
      let s := s.dropPages i (fun q => lost q || (match t0 with
        | some t => s.pageAfter x t q
        | none => false))
      let s := if fetch.isEmpty then s else s.send (.cfKvAsk x.cfPeer (s.identOf i x) fetch)
      s.updSession i (fun x => { x with
        st := .rebuilding
        rebuild := some ⟨back, t0, fetch⟩
        op := if x.st = .parking || x.st = .moving then none else x.op
        mirrored := match t0 with
          | some t => x.mirrored.filter (fun p => decide (s.lostPos x 0 p.1 p.2 < t))
          | none => x.mirrored
        layers := match t0 with
          | some t => x.layers.mapVals (fun _ y => { y with kvLen := min y.kvLen t, kvWritten := min y.kvWritten t, digested := min y.digested (t / 64) })
          | none => x.layers
        recompute := match t0 with
          | some t => if t < x.passbook.length then some (x.passbook.length - t, false) else x.recompute
          | none => x.recompute })

/-- A copy of the Passbook of session `i` is lost (R65): the survivor serves; with both lost the session is. -/
def State.losePb (s : State) (i : Nat) (a b : Bool) : State :=
  match s.sess i with
  | none => s
  | some x =>
    let x' := { x with pbA := if a then none else x.pbA, pbB := if b then none else x.pbB }
    let s := s.onSsn (fun t => { t with sessions := t.sessions.put i x' })
    if x'.pbA.isNone && x'.pbB.isNone then
      if x.passbook.length ≤ x.pbFlash then
        s.updSession i (fun x => { x with pbA := some x.pbFlash, pbB := some x.pbFlash })
      else s.loseSession i
    else if a || b then s.raise Evt.ssn_pbSingle else s

/-- Session `i` loses the pieces it has outside T1 (R85): they are pages to refill in T1, or, with no room there, all is recomputed. -/
def State.loseParked (s : State) (i : Nat) : State :=
  match s.sess i with
  | none => s
  | some x =>
    let s := s.updSession i (fun y => { y with t4Peer := none, preRevive := false })
    let r := (s.dropGrant i).startStream i
    if r.2 then (r.1.losePages i (fun _ => true)).updSession i (fun y => { y with parked := [], kvExt := none, kvTier := 1, cleanT1 := false })
    else
      let back := match x.st with
        | .reviving => SsnSt.reviving
        | _ => SsnSt.parked
      (r.1.dropPages i (fun _ => true)).updSession i (fun y => { y with
        st := .rebuilding
        rebuild := some ⟨back, some 0, []⟩
        parked := []
        kvExt := none
        kvTier := 0xFF
        cleanT1 := false
        layers := .empty
        recompute := if y.passbook.isEmpty then none else some (y.passbook.length, false) })

end Sys2Proof.Machine
end

