-- ==== Sys2Proof/Machine/KvEnc.lean ====
section
/-! DEFINITION. The KV record formats: BF16, FP8 E4M3 and KV4 (R89, R90), and the digest of a block (R101). -/

namespace Sys2Proof.Machine

/-- The BF16 element `i` of a row of bytes. -/
def bf16At (bs : List Byte) (i : Nat) : BitVec 16 := BitVec.ofNat 16 (leAt bs (2 * i) 2)

/-- FP8 E4M3 of an FP32 number: nearest, ties to even, saturated to ±448; NaN keeps its sign (R89). -/
def fp8Of (x : F32) : Byte :=
  let sign := if fSign x then 0x80 else 0
  if fIsNaN x then BitVec.ofNat 8 (0x7F + sign)
  else if fIsInf x then BitVec.ofNat 8 (0x7E + sign)
  else
    let m := (fInt x).natAbs
    let e := bitLen m - 144
    let q := rne m (140 + e) false
    let body := if q < 8 then q else if q = 16 then (e + 2) * 8 else (e + 1) * 8 + (q - 8)
    BitVec.ofNat 8 (min 0x7E body + sign)

/-- A scale of the layer form: 0 means 1.0 (Table 4-1). -/
def scaleOr1 (x : F32) : F32 := if x = 0 then fOne else x

/-- FP8 of a list of BF16 elements under a scale. -/
def fp8Row (xs : List (BitVec 16)) (scale : F32) : List Byte := xs.map (fun b => fp8Of (fDiv (fOfBf16 b) (scaleOr1 scale)))

/-- Exponent and trim bytes of a KV4 block of finite values that are not all zero (R90 steps 1 and 2). -/
def kv4Scale (amax : F32) : Nat × Nat :=
  let t := fDiv amax (fOfNat 7)
  let e := fExp t
  if e = 0 then (1, 0)
  else
    let tr := (fFrac t + 32767) / 32768
    if tr = 256 then (e + 1, 0) else (e, tr)

/-- The code of a value under a scale (R90 step 4): x ÷ s to the nearest integer, ties to even, clamped to −7 to +7, as a nibble. -/
def kv4Code (x : F32) (e t : Nat) : Nat :=
  let m := (fInt x).natAbs
  let d := (256 + t) * 2 ^ (e + 14)
  let q := m / d
  let r := m % d
  let c := min 7 (if d < 2 * r || (2 * r = d && q % 2 = 1) then q + 1 else q)
  if fSign x && c ≠ 0 then 16 - c else c

/-- A KV4 block of 32 BF16 values: 16 code bytes, exponent byte, trim byte (R90). -/
def kv4Block (xs : List (BitVec 16)) : List Byte × Nat × Nat :=
  let v := xs.map fOfBf16
  let codes := fun (e t : Nat) => (List.range 16).map (fun i =>
    BitVec.ofNat 8 (kv4Code (v.getD (2 * i) 0) e t + 16 * kv4Code (v.getD (2 * i + 1) 0) e t))
  if v.any (fun x => !(fFinite x)) then (List.replicate 16 0, 255, 0)
  else if v.all fIsZero then (List.replicate 16 0, 0, 0)
  else
    let amax := v.foldl (fun a x => let y := BitVec.ofNat 32 (x.toNat % 2 ^ 31); if fLt a y then y else a) 0
    let s := kv4Scale amax
    (codes s.1 s.2, s.1, s.2)

/-- A vector cut into KV4 blocks, the last padded with zeros (R89). -/
def kv4Blocks (xs : List (BitVec 16)) : List (List Byte × Nat × Nat) :=
  (List.range ((xs.length + 31) / 32)).map (fun b =>
    let t := (xs.drop (32 * b)).take 32
    kv4Block (t ++ List.replicate (32 - t.length) 0))

/-- The scale bytes of KV4 blocks. -/
def kv4Scales (l : List (List Byte × Nat × Nat)) : List Byte := l.flatMap (fun b => [BitVec.ofNat 8 b.2.1, BitVec.ofNat 8 b.2.2])

/-- The record of one token (R89): keys and values as BF16, in the session's format, padded with zeros to BPT. -/
def kvRecord (f : LayerForm) (fmt : Nat) (k v : List (BitVec 16)) : List Byte :=
  let raw := fun (xs : List (BitVec 16)) => xs.flatMap (fun b => natLe 2 b.toNat)
  let body : List Byte := match fmt with
    | 0 => raw k ++ raw v
    | 1 => fp8Row k f.kScale ++ fp8Row v f.vScale
    | _ =>
      let kb := kv4Blocks k
      let vb := kv4Blocks v
      kb.flatMap (·.1) ++ vb.flatMap (·.1) ++ kv4Scales kb ++ kv4Scales vb
  takeAt body 0 (bpt f fmt)

/-- KV4 blocks of a record stored with E = 255 (Table 4-16). -/
def nanBlocks (f : LayerForm) (rec : List Byte) : Nat :=
  let nb := ((f.hkv + 1) * (16 * (f.dh + 1)) + 31) / 32
  ((List.range (2 * nb)).filter (fun i => decide (leAt rec (32 * nb + 2 * i) 1 = 255))).length

/-- FP8 E4M3 in FP32: n / 512 below the first binade, (8 + f) × 2^(e − 10) above it, NaN for 0x7F. -/
def fOfFp8 (b : Byte) : F32 :=
  let n := b.toNat % 128
  let neg := decide (128 ≤ b.toNat)
  if n = 127 then (if neg then fNeg fNaN else fNaN)
  else if n < 8 then fRound neg n 140 149 false
  else fRound neg (8 + n % 8) (n / 8 + 139) 149 false

/-- Whether a record holds a NaN (R113). -/
def recHasNaN (f : LayerForm) (fmt : Nat) (rec : List Byte) : Bool :=
  let n := 2 * ((f.hkv + 1) * (16 * (f.dh + 1)))
  match fmt with
  | 0 => (List.range n).any (fun i => fIsNaN (fOfBf16 (bf16At rec i)))
  | 1 => (rec.take n).any (fun b => decide (b.toNat % 128 = 127))
  | _ => decide (nanBlocks f rec ≠ 0)

/-- Key element `i` of a record in FP32: decoding is exact (R89, R90). -/
def keyElem (f : LayerForm) (fmt : Nat) (rec : List Byte) (i : Nat) : F32 :=
  match fmt with
  | 0 => fOfBf16 (bf16At rec i)
  | 1 => fMul (fOfFp8 (rec.getD i 0)) (scaleOr1 f.kScale)
  | _ =>
    let nb := ((f.hkv + 1) * (16 * (f.dh + 1)) + 31) / 32
    let byte := (rec.getD (i / 2) 0).toNat
    let c := if i % 2 = 0 then byte % 16 else byte / 16
    let e := leAt rec (32 * nb + 2 * (i / 32)) 1
    let t := leAt rec (32 * nb + 2 * (i / 32) + 1) 1
    let m := if c < 8 then c else 16 - c
    if e = 255 then fNaN else fRound (decide (8 ≤ c)) (m * (256 + t)) (e + 14) 149 false

/-- Bytes of a digest of a layer (R101). -/
def digestBytes (f : LayerForm) : Nat := ((f.hkv + 1) * (16 * (f.dh + 1)) * 2 + 63) / 64 * 64

/-- Digests in a page (R101). -/
def digestsPerPage (f : LayerForm) : Nat := 65536 / max 1 (digestBytes f)

/-- The digest of 64 records: the mean of the keys per KV head in BF16 (R101). -/
def digestOf (f : LayerForm) (fmt : Nat) (recs : List (List Byte)) : List Byte :=
  let n := (f.hkv + 1) * (16 * (f.dh + 1))
  takeAt ((List.range n).flatMap (fun i =>
    natLe 2 (bf16Of (fMul (recs.foldl (fun a r => fAdd a (keyElem f fmt r i)) 0) (0x3C800000 : F32))).toNat)) 0 (digestBytes f)

/-- DH of a layer. -/
def LayerForm.dhN (f : LayerForm) : Nat := 16 * (f.dh + 1)
/-- HQ of a layer. -/
def LayerForm.hqN (f : LayerForm) : Nat := f.hq + 1
/-- HKV of a layer. -/
def LayerForm.hkvN (f : LayerForm) : Nat := f.hkv + 1
/-- DV of a recurrent layer. -/
def LayerForm.dvN (f : LayerForm) : Nat := 16 * (f.dv + 1)

/-- Bytes of a session's block in an ATQ or KVU (Table 4-9). -/
def blockBytes (f : LayerForm) (fmt : Nat) (kvu native : Bool) (q kv : Nat) : Nat :=
  if kvu && native then kv * bpt f fmt
  else if f.kind = 1 then
    let n := if kvu then kv else q
    n * f.hqN * 2 * ((if kvu then 2 else 3) * f.dhN + f.dvN)
  else (if kvu then 0 else q * f.hqN * f.dhN * 2) + 2 * kv * f.hkvN * f.dhN * 2

end Sys2Proof.Machine
end

