-- ==== Sys2Proof/Machine/SsnCmd.lean ====
section
/-! DEFINITION. The commands of the session store: PARK, REVIVE, MOVE, PIN, UNPIN and HINT, the events of placement and revive, and the
phase switch (R59 to R85). -/

namespace Sys2Proof.Machine

/-! ### The movement descriptor (Table 3-8) -/

/-- OP of a movement descriptor. -/
def mvOp (d : Desc) : Nat := dbits d 0 4
/-- A reserved bit is set, or OP does not name the instruction (R71, R210). -/
def mvBad (d : Desc) (op : Nat) : Bool := decide (dbits d 14 18 ≠ 0) || decide (dbits d 133 379 ≠ 0) || decide (mvOp d ≠ op)

/-- The hints of a descriptor are written to the directory entry: CLASS, CFOIL_KV and the expected wait and resume time. -/
def Session.hints (x : Session) (d : Desc) : Session :=
  { x with cls := dbits d 4 2, cfoilKv := dbits d 8 1 = 1, expWait := dbits d 32 32, expResume := dbits d 64 64 }

/-- A page with a line that cannot be read. -/
def State.pageBad (s : State) (q : KvPage) : Bool :=
  (cwsOf q.key 65536).any (fun c => s.poison.contains c || decide (2 ≤ s.badSyms.lookD c 0))

/-- An ATTN naming session `i` is in flight (R108). -/
def State.attnBusy (s : State) (i : Nat) : Bool :=
  s.kva.ops.any (fun _ o => o.entries.any (fun e => decide (e.sess = some i) && e.status.isNone))

/-- A movement operation of a session begins. -/
def Op.move (o : Op) (op : Nat) (prev : SsnSt) (target : Nat) (flag : Bool) : MoveOp :=
  { clerk := o.r.clerk, slot := o.r.slot, serial := o.r.serial, op := op, prev := prev, target := target, flag := flag }

/-- The Receipt of a movement. -/
def MoveOp.rcpt (m : MoveOp) : Rcpt := ⟨m.clerk, m.slot, m.serial⟩

/-- The movement under way on session `i` ends with ABORTED, cause 5, because another operation takes the session. -/
def State.dropMove (s : State) (i : Nat) : State :=
  match (s.sess i).bind (·.op) with
  | some m => (s.abortR m.rcpt 5).updSession i (fun x => { x with op := none })
  | none => s

/-- The engine's own re-placement or pre-revive of a PARKED session, which no Receipt waits for, gives way to a movement that a program asks
for (Table 3-7; DEDUCED, log 151). -/
def State.giveWay (s : State) (i : Nat) : State :=
  match s.sess i with
  | none => s
  | some x =>
    if x.op.isSome || x.st ≠ .parked then s
    else
      let s := if x.placing.isSome then s.undoPlace i else s
      if x.preRevive then (s.dropPages i (fun q => decide (q.use = .transit))).updSession i (fun y => { y with preRevive := false }) else s

/-! ### PARK -/

/-- A discarded session is freed once its request has ended (Table 3-7). -/
def State.finishDiscard (s : State) (i : Nat) : State :=
  match (s.sess i).bind (·.op) with
  | some m => ((s.endRequest i 8 .aborted 5 0).freeSession i).finishR m.rcpt .ok 0 0
  | none => s

/-- PARK with DISCARD (R72): an open request in a step ends at its next layer boundary first. -/
def State.discardSession (s : State) (o : Op) (i : Nat) (x : Session) : State :=
  let s := (s.dropMove i).updSession i (fun y => { y with op := some (o.move 1 x.st 0 true) })
  if x.req.isSome && s.inStep i then
    s.updSession i (fun y => { y with req := y.req.map (fun q => { q with cancelling := true, finish := 8 }) })
  else s.finishDiscard i

/-- The tier a PARK chooses: Passbook-only when asked, a resident park under R77, otherwise R76. -/
def State.parkTarget (s : State) (x : Session) (pbOnly : Bool) : Option Nat :=
  if pbOnly || x.kvBytes = 0 then some 0xFF
  else if x.inT1 && s.residentPark x then some 1
  else s.choosePlace x (!x.inT1) false

/-- A placement that a Receipt waits for starts; the session takes state `st`. -/
def State.beginPlace (s : State) (o : Op) (i : Nat) (m : MoveOp) (st : SsnSt) (t : Nat) : State :=
  let away := match s.sess i with
    | some x => x.atPeer && decide (t ≠ 0xFF)
    | none => false
  let r := if away then (let q := s.startStream i; (q.1.updSession i (fun x => { x with preRevive := q.2 }), if q.2 then PlaceRes.started else .noSpace))
    else s.startPlace i t
  match r.2 with
  | .started => r.1.updSession i (fun x => { x with st := st, op := some m })
  | .noSpace => (if m.op = 1 then r.1.raise Evt.ssn_parkNoSpace else r.1).finish o .noSpace 0x0006 0
  | .lost => (r.1.losePages i r.1.pageBad).abortR o.r 5

/-- PARK (R72). -/
def doPark (o : Op) (h : Handle) (s : State) : State :=
  let d := o.ix.desc
  let i := ssnIndex (hObj h)
  match s.sess i with
  | none => s.deny o 3
  | some x =>
    if mvBad d 1 then s.deny o 2
    else if dbits d 6 1 = 1 then
      if hasRights (hRights h) rtDelete then s.discardSession o i x else s.deny o 2
    else if !(x.st = .active || x.st = .parked) || x.op.isSome then s.deny o 2
    else
      let s := (s.giveWay i).updSession i (fun y => y.hints d)
      match s.sess i with
      | none => s
      | some x =>
        let s := s.mirrorKv i
        match s.parkTarget x (dbits d 7 1 = 1) with
        | none => (s.raise Evt.ssn_parkNoSpace).finish o .noSpace 0x0006 0
        | some t => s.beginPlace o i (o.move 1 x.st t false) (if x.st = .active then .parking else .parked) t

/-- `PARK`. -/
def execPark (c : Nat) (s : State) : Ans :=
  .next (s.onWord c (isSub 0x18 0) (fun ix =>
    s.issueH ix (.park (ssnIndex (hObj (ix.cl.h (wH ix.w))))) [1] rtMove doPark))

/-- A resident-parked session of a phase switch, and every other session that leaves T1 during one, counts in `SSN_PHASE_STATUS`. -/
def State.phaseStatus (s : State) (st : Nat) : State :=
  match s.ssn.phase with
  | none => s
  | some p => s.wr .ssnPhaseStatus 0 (BitVec.ofNat 64 (st + p.ctx * 2 ^ 8 + p.written % 2 ^ 24 * 2 ^ 16 + p.pbOnly % 2 ^ 24 * 2 ^ 40))

/-- A session of the switching context written to the Till is counted (Table 3-20). -/
def State.phaseWrote (s : State) (x : Session) (t : Nat) : State :=
  match s.ssn.phase with
  | none => s
  | some p =>
    if x.ctx = p.ctx && t = 2 then
      (s.onSsn (fun y => { y with phase := some { p with written := p.written + 1 } })).phaseStatus 1
    else s

/-- `PARK_COMMIT`: the directory entry switches to the new places once every piece is durable and no ATTN reads the session (R75, R108);
PARK and a PIN that moved pieces complete. -/
def execParkCommit (i : Nat) (s : State) : Ans :=
  .next (if s.frz.frozen then s else
    match s.sess i with
    | none => s
    | some x =>
      match x.placing with
      | none => s
      | some p =>
        if p.wait ≠ 0 || s.attnBusy i then s
        else
          let s := (s.commitPlace i).phaseWrote x p.target
          let s := s.updSession i (fun y => { y with parkedAt := s.nodeNs })
          match x.op with
          | none => s
          | some m =>
            let s := s.updSession i (fun y => { y with
              op := none
              st := if m.op = 1 then .parked else y.st
              inT0 := if m.op = 1 then false else y.inT0
              pinned := y.pinned || m.op = 4
              pinTier := if m.op = 4 then m.target else y.pinTier })
            let tier := match s.sess i with
              | some y => y.kvTier
              | none => 0xFF
            s.finishR m.rcpt .ok (if m.op = 1 then tier else 0) 0)

/-! ### REVIVE -/

/-- REVIVE (R72). -/
def doRevive (o : Op) (h : Handle) (s : State) : State :=
  let d := o.ix.desc
  let i := ssnIndex (hObj h)
  match s.sess i with
  | none => s.deny o 3
  | some x =>
    if mvBad d 2 then s.deny o 2
    else
      match x.st with
      | .active => (s.updSession i (fun y => y.hints d)).finish o .ok (s.layersRes x) 0
      | .parked =>
        if x.op.isSome then s.deny o 2
        else
          let s := if x.placing.isSome then s.giveWay i else s
          let r := (s.updSession i (fun y => y.hints d)).startRevive i
          if !r.2 then r.1.finish o .noSpace 0x0002 0
          else
            match r.1.sess i with
            | none => r.1
            | some y =>
              if y.st = .active then r.1.finish o .ok (r.1.layersRes y) 0
              else r.1.updSession i (fun y => { y with op := some (o.move 2 .parked 0 (dbits d 9 1 = 1)) })
      | _ => s.deny o 2

/-- `REVIVE`. -/
def execRevive (c : Nat) (s : State) : Ans :=
  .next (s.onWord c (isSub 0x19 0) (fun ix =>
    s.issueH ix (.revive (ssnIndex (hObj (ix.cl.h (wH ix.w))))) [1] rtMove doRevive))

/-- The bytes of a layer's pieces as they come back: from flash, or from the T4 peer; `none` where one is lost. -/
def State.layerData (s : State) (x : Session) (ps : List PkPage) (remote : List (List Byte)) : Option (List (List Byte)) :=
  if x.kvTier = 4 then some (remote.map (fun b => takeAt b 0 65536))
  else ps.foldl (fun a q => match a, s.pieceData q with
    | some l, some b => some (l ++ [b])
    | _, _ => none) (some [])

/-- The first layer not resident. -/
def State.firstAbsent (s : State) (x : Session) : Nat := s.layersRes x

/-- A layer of session `i` becomes resident with its bytes in place (R81): the pages turn live, or clean before a REVIVE asks. -/
def State.layerResident (s : State) (i layer : Nat) (ps : List PkPage) (data : List (List Byte)) (u : PgUse) : State :=
  match s.sess i with
  | none => s
  | some x =>
    let s := (ps.zip data).foldl (fun s p =>
      match x.pages.find? (fun q => decide (q.kind = p.1.kind) && decide (q.layer = p.1.layer) && decide (q.blk = p.1.blk)) with
      | some q => (s.writeMem q.key p.2).1
      | none => s) s
    let s := s.markPages i (fun q => decide (q.use = .transit) &&
      ps.any (fun p => decide (p.kind = q.kind) && decide (p.layer = q.layer) && decide (p.blk = q.blk))) u
    s.updSession i (fun x => { x with layers := x.layers.put layer { x.layer layer with resident := true } })

/-- What follows once a layer of a REVIVING session is resident: REVIVE completes at layer 0 or at the last one, and then the session is
ACTIVE (Table 3-7, R72). -/
def State.reviveProgress (s : State) (i : Nat) : State :=
  match s.sess i with
  | none => s
  | some x =>
    let n := s.layersRes x
    let all := n = s.nLayers x
    let s := if all then s.becomeLive i else s
    match x.op with
    | some m =>
      if m.op = 2 && (all || (!m.flag && decide (1 ≤ n))) then
        (s.finishR m.rcpt .ok n 0).updSession i (fun x => { x with op := none })
      else s
    | none => s

/-- A session as a MOVE carries it. -/
def State.copyOf (s : State) (i : Nat) (x : Session) (l : List (PkPage × List Byte)) : SsnCopy :=
  { ctx := x.ctx, kvFmt := x.kvFmt, model := x.model, customer := x.customer, reservedLen := x.reservedLen, kvKept := x.kvKept,
    passbook := x.passbook.map (fun e => (e.token, e.kind, e.trunc)),
    pieces := l.map (fun p => (p.1.kind, p.1.layer, p.1.blk, p.2)),
    blob := ((List.range 128).filter (fun g => s.mem.any (fun c => decide (keyBlob i (g * 65536) ≤ c.1) &&
      decide (c.1 < keyBlob i (g * 65536) + 65536)))).map (fun g => (g, s.bytesAt (keyBlob i (g * 65536)) 65536)) }

/-- A MOVE's pieces go to the destination. -/
def State.sendMove (s : State) (i dest : Nat) (r : Rcpt) : State :=
  match s.sess i with
  | none => s
  | some x =>
    let a := s.allPieces x
    match a.2 with
    | none => (a.1.losePages i a.1.pageBad).abortR r 5
    | some l => a.1.send (.sessMove dest (s.identOf i x) (s.copyOf i x l))

/-- Session `i` has all its pieces clean in T1 (R72, R78): a movement that waited for them goes on, and a session whose T4 room is revoked
is placed again with T4 excluded (R306). -/
def State.preReady (s : State) (i : Nat) : State :=
  let s := s.updSession i (fun y => { y with preRevive := false, cleanT1 := true })
  match s.sess i with
  | none => s
  | some y =>
    match y.op with
    | some m =>
      let r : Rcpt := ⟨m.clerk, m.slot, m.serial⟩
      if m.op = 3 then s.sendMove i m.target r
      else
        let q := s.startPlace i (if m.op = 4 then max 1 m.target else m.target)
        match q.2 with
        | .started => q.1
        | .noSpace => ((if m.op = 1 then q.1.raise Evt.ssn_parkNoSpace else q.1).updSession i (fun y => { y with op := none })).finishR r
            .noSpace 0x0006 0
        | .lost => ((q.1.losePages i q.1.pageBad).updSession i (fun y => { y with op := none })).abortR r 5
    | none =>
      if s.dfb.borrowed.any (fun g => decide (g.sess = i) && g.revokedAt.isSome) then
        match s.choosePlace y false true with
        | some t => (s.startPlace i t).1
        | none => s
      else s

/-- `REVIVE_LAYER_RESIDENT`: every page of a layer has been written to its stack; at most AHEAD layers are in flight (R81). A piece lost
on flash sends the session to REBUILDING (R85). -/
def execReviveLayerResident (i layer : Nat) (remote : List (List Byte)) (s : State) : Ans :=
  .next (if s.frz.frozen then s else
    match s.sess i with
    | none => s
    | some x =>
      let pre := x.preRevive && (decide (x.st = .parked) || decide (x.st = .moving))
      let ps := x.parked.filter (fun q => decide (q.layerOf = layer))
      if !(x.st = .reviving || pre) || (x.layer layer).resident || ps.isEmpty ||
          s.firstAbsent x + max 1 (s.fld Fld.ssnReviveCfg_ahead) ≤ layer || (x.kvTier = 4 && remote.length ≠ ps.length) then s
      else
        match s.layerData x ps remote with
        | none =>
          let bad := ps.filter (fun q => (s.pieceData q).isNone)
          s.losePages i (fun q => bad.any (fun p => decide (p.kind = q.kind) && decide (p.layer = q.layer) && decide (p.blk = q.blk)))
        | some data =>
          let s := s.layerResident i layer ps data (if pre then .clean else .live)
          if pre then
            match s.sess i with
            | none => s
            | some y => if s.layersRes y = s.nLayers y then s.preReady i else s
          else s.reviveProgress i)

/-! ### MOVE -/

/-- MOVE (R72, R74): a KV4 session does not go to a DXS-2612; a destination that is no member fails the MOVE. -/
def doMove (o : Op) (h : Handle) (s : State) : State :=
  let d := o.ix.desc
  let i := ssnIndex (hObj h)
  let dest := dbits d 128 5
  match s.sess i with
  | none => s.deny o 3
  | some x =>
    if mvBad d 3 then s.deny o 2
    else if !(x.st = .active || x.st = .parked) || x.op.isSome then s.deny o 2
    else
      match s.dmap.members.look dest with
      | none => s.abortR o.r 5
      | some m =>
        if m.small && x.kvFmt = 2 then s.deny o 5
        else
          let s := s.giveWay i
          let go := fun (s : State) => s.updSession i (fun y => { y.hints d with st := .moving, op := some (o.move 3 x.st dest (dbits d 10 1 = 1)) })
          if x.atPeer then
            let q := s.startStream i
            if q.2 then (go q.1).updSession i (fun y => { y with preRevive := true }) else q.1.finish o .noSpace 0x0002 0
          else
            let r := s.allPieces x
            match r.2 with
            | none => (r.1.losePages i r.1.pageBad).abortR o.r 5
            | some _ => (go r.1).sendMove i dest o.r

/-- `MOVE`. -/
def execMove (c : Nat) (s : State) : Ans :=
  .next (s.onWord c (isSub 0x1A 0) (fun ix =>
    s.issueH ix (.move (ssnIndex (hObj (ix.cl.h (wH ix.w))))) [1] rtMove doMove))

/-- `MOVE_DESTINATION_ANSWER`: acknowledged, the source is freed or kept; refused or failed, it is as before (Table 3-7, R74). -/
def execMoveDestinationAnswer (i status aux : Nat) (w1 : Word) (s : State) : Ans :=
  .next (if s.frz.frozen then s else
    match s.sess i with
    | none => s
    | some x =>
      match x.op with
      | none => s
      | some m =>
        if x.st ≠ .moving || m.op ≠ 3 then s
        else
          let s := s.updSession i (fun y => { y with op := none, st := m.prev })
          if status = 0 then
            let s := if m.flag then s else (s.endRequest i 8 .aborted 5 0).freeSession i
            s.finishR m.rcpt .ok 0 w1
          else s.postResult m.clerk m.slot m.serial (BitVec.ofNat 64 (status % 2 ^ 16 + aux % 2 ^ 48 * 2 ^ 16)) w1)

/-- `MOVE_COPY_ARRIVAL`: the destination creates the session in the same context, or refuses, and answers (R72, R74). -/
def execMoveCopyArrival (src : Nat) (ident : Word) (copy : SsnCopy) (s : State) : Ans :=
  .next (if s.frz.frozen then s else
    let refuse := fun (s : State) (st : Status) (aux : Nat) => s.send (.moveAnswer src ident st.code aux 0)
    if !(s.resident copy.ctx) then refuse s .denied 1
    else
      match s.newIndex with
      | .full => refuse s .noSpace 0x0001
      | .hold ns =>
        let r := s.retryAfter copy.ctx 0 ladderFast ((ns + 999) / 1000)
        refuse r.1 .admitDefer r.2
      | .index i =>
        let s := s.createSession i copy.ctx
        let r := s.addPages i (copy.pieces.map (fun p => (p.1, p.2.1, p.2.2.1))) .live
        if !r.2 then
          refuse (r.1.onSsn (fun t => { t with sessions := t.sessions.del i })) .noSpace 0x0002
        else
          let s := r.1.updSession i (fun x => { x with
            st := .parked
            kvFmt := copy.kvFmt
            model := copy.model
            customer := copy.customer
            reservedLen := copy.reservedLen
            kvKept := copy.kvKept
            kvTier := if copy.pieces.isEmpty then 0xFF else 1
            recompute := if copy.kvKept || copy.passbook.isEmpty then none else some (copy.passbook.length, true) })
          let s : State := match s.sess i with
            | none => s
            | some x => (x.pages.zip copy.pieces).foldl (fun (s : State) p => s.putBytes p.1.key (takeAt p.2.2.2.2 0 65536)) s
          let s := s.appendPb i (copy.passbook.map (fun e => PbEntry.mk e.1 e.2.1 e.2.2)) 0
          let s := copy.blob.foldl (fun (s : State) b => s.putBytes (keyBlob i (b.1 * 65536)) (takeAt b.2 0 65536)) s
          match s.sess i with
          | none => s
          | some x => s.send (.moveAnswer src ident 0 0 (s.identOf i x)))

/-! ### PIN, UNPIN and HINT -/

/-- Pages pinned in T1 by sessions other than `i` (R73). -/
def State.pinnedPages (s : State) (i : Nat) : Nat :=
  (s.ssn.sessions.rows.map (fun r => if r.1 ≠ i && r.2.pinned && r.2.pinTier = 0 then r.2.kvBytes / 65536 else 0)).sum

/-- PIN (R72, R73). -/
def doPin (o : Op) (h : Handle) (s : State) : State :=
  let d := o.ix.desc
  let i := ssnIndex (hObj h)
  let t := dbits d 11 3
  match s.sess i with
  | none => s.deny o 3
  | some x =>
    if mvBad d 4 || t = 1 || 4 < t then s.deny o 2
    else if !(x.st = .active || x.st = .reviving || x.st = .parked) || (x.st = .parked && x.op.isSome) then s.deny o 2
    else if t = 0 && s.pgSum .ssnPgTotal * s.fld Fld.ssnPlaceCfg_pinPct < (s.pinnedPages i + x.kvBytes / 65536) * 100 then
      s.finish o .noSpace 0x0005 0
    else
      if x.st ≠ .parked || !x.kvKept || x.kvBytes = 0 || x.kvTier = max 1 t then
        (s.updSession i (fun y => { y.hints d with pinned := true, pinTier := t })).finish o .ok 0 0
      else
        let s := s.giveWay i
        let m := o.move 4 .parked t false
        let s :=
          if t = 0 && !x.cleanT1 then
            let r := s.startStream i
            if r.2 then r.1.updSession i (fun y => { y with preRevive := true, op := some m }) else r.1.finish o .noSpace 0x0002 0
          else s.beginPlace o i m .parked (max 1 t)
        s.updSession i (fun y => if y.op = some m then y.hints d else y)

/-- `PIN`: word 0x1B whose descriptor does not say UNPIN. -/
def execPin (c : Nat) (s : State) : Ans :=
  .next (s.onWord c (fun ix => isSub 0x1B 0 ix && decide (mvOp ix.desc ≠ 5)) (fun ix =>
    s.issueH ix (.pin (ssnIndex (hObj (ix.cl.h (wH ix.w))))) [1] rtMove doPin))

/-- UNPIN lifts the pin (R72). -/
def doUnpin (o : Op) (h : Handle) (s : State) : State :=
  let i := ssnIndex (hObj h)
  if mvBad o.ix.desc 5 then s.deny o 2
  else (s.updSession i (fun y => { y.hints o.ix.desc with pinned := false, pinTier := 0 })).finish o .ok 0 0

/-- `UNPIN`: word 0x1B with OP 5. -/
def execUnpin (c : Nat) (s : State) : Ans :=
  .next (s.onWord c (fun ix => isSub 0x1B 0 ix && decide (mvOp ix.desc = 5)) (fun ix =>
    s.issueH ix (.pin (ssnIndex (hObj (ix.cl.h (wH ix.w))))) [1] rtMove doUnpin))

/-- A pre-revive starts (R72): EXP_RESUME within the revive estimate plus 10 ms, class 0 or 1, and room in T1. -/
def State.maybePreRevive (s : State) (i : Nat) : State :=
  match s.sess i with
  | none => s
  | some x =>
    let soon := match s.reviveEst x x.kvTier with
      | some e => decide (x.expResume ≤ s.nodeNs + e + 10000000)
      | none => false
    if x.st = .parked && x.kvKept && !x.inT1 && !x.preRevive && x.op.isNone && x.placing.isNone && x.expResume ≠ 0 && soon && x.cls ≤ 1 then
      let r := s.startStream i
      if r.2 then r.1.updSession i (fun y => { y with preRevive := true }) else r.1
    else s

/-- HINT (R71): CLASS, EXP_WAIT_MS and EXP_RESUME of bits [127:0] go into the directory entry. -/
def doHint (ix : Ix) (s : State) : State :=
  let h := ix.cl.h (wH ix.w)
  match s.checkHandle ix.run.ctx h [1] rtMove with
  | some r => s.trap ix.c .capability r ix.cl.pc 0
  | none =>
    let d := ix.desc
    let i := ssnIndex (hObj h)
    let s := s.updSession i (fun y => { y with cls := dbits d 4 2, expWait := dbits d 32 32, expResume := dbits d 64 64 })
    (s.retire ix.c ix.cl).maybePreRevive i

/-- `HINT`. -/
def execHint (c : Nat) (s : State) : Ans := .next (s.onWord c (isSub 0x1C 0) (fun ix => doHint ix s))

/-! ### Events of the store -/

/-- `INDEX_REUSE_HOLD_END`: a freed index leaves its 1 s (R59). -/
def execIndexReuseHoldEnd (i : Nat) (s : State) : Ans :=
  s.whenLive (match s.ssn.freedAt.look i with
    | none => s
    | some t => if t + 1000000000 ≤ s.now then s.onSsn (fun x => { x with freedAt := x.freedAt.del i }) else s)

/-- The next stack in service after `m`. -/
def State.nextStack (s : State) (m : Nat) : Option Nat :=
  ((List.range 23).map (fun k => (m + 1 + k) % 24)).find? s.stackUp

/-- `DIR_REBUILD`: the directory copies lost with stack `m` are rebuilt from their mirrors onto the next stack in service (R61). -/
def execDirRebuild (m : Nat) (s : State) : Ans :=
  .next (if s.frz.frozen || !s.ssn.dirLost.contains m then s else
    match s.nextStack m with
    | none => s
    | some n =>
      (s.onSsn (fun t => { t with
        dirLost := t.dirLost.filter (fun k => decide (k ≠ m))
        sessions := t.sessions.mapVals (fun i x => { x with
          dirA := if x.dirA.isNone && (i % 24 = m || !(s.stackUp (i % 24))) then some n else x.dirA
          dirB := if x.dirB.isNone && ((i % 24 + 6) % 24 = m || !(s.stackUp ((i % 24 + 6) % 24))) then some n else x.dirB }) })).raise
        Evt.ssn_dirRebuild)

/-- The channels of the two flash copies of a Passbook (R64): of different hubs, or two channels of one hub. -/
def State.pbChans (s : State) : List Nat :=
  let up := s.chansUp
  match up with
  | [] => []
  | a :: rest =>
    match rest.find? (fun c => decide (hubOfChannel c ≠ hubOfChannel a)) with
    | some b => [a, b]
    | none => match rest with
      | [] => [a]
      | b :: _ => [a, b]

/-- The extents of a session's Passbook on flash, made at its first write: one for each copy that lies on flash. -/
def State.pbExtents (s : State) (i : Nat) (x : Session) : State × List Nat :=
  if !x.pbExts.isEmpty then (s, x.pbExts)
  else
    let chans := if s.cfOn then s.pbChans.take 1 else s.pbChans
    let r := chans.foldl (fun (a : State × List Nat) c =>
      let e := a.1.newExtent (some x.ctx) 514 false (some c)
      match e.2 with
      | none => (e.1, a.2)
      | some n => (e.1, a.2 ++ [n])) (s, [])
    (r.1.updSession i (fun y => { y with pbExts := r.2 }), r.2)

/-- Passbook pages of session `i` go to flash: with `all`, or for a parked session, every page, otherwise the full ones (R64, R365). -/
def State.pbWrite (s : State) (i : Nat) (all : Bool) : State :=
  match s.sess i with
  | none => s
  | some x =>
    let upTo := if !all && (x.st = .active || x.st = .reviving) then x.passbook.length / pbEntries * pbEntries else x.passbook.length
    if x.pbWriting.2 ≠ 0 || upTo ≤ x.pbFlash then s
    else
      let r := s.pbExtents i x
      let first := x.pbFlash / pbEntries
      let pages := (List.range ((upTo + pbEntries - 1) / pbEntries)).filter (fun b => decide (first ≤ b))
      let data := pages.flatMap (fun b =>
        let p := pbPage (s.identOf i x) x b
        [takeAt p 0 unitBytes, takeAt p unitBytes unitBytes])
      let w := r.2.foldl (fun (a : State × Nat) e =>
        let q := a.1.flashPut (.passbook i) e (2 * first) data true
        match q.2 with
        | .queued _ => (q.1, a.2 + 1)
        | _ => (q.1, a.2)) (r.1, 0)
      let one := decide (s.hubsUp.length = 1) && !s.cfOn
      let s := if one then w.1.raise Evt.ssn_pbSingle else w.1
      s.updSession i (fun y => { y with pbWriting := (upTo, w.2) })

/-- `PASSBOOK_FLASH_WRITE`: full Passbook pages, or every page of a parked session, go to flash (R64). -/
def execPassbookFlashWrite (i : Nat) (s : State) : Ans := s.whenLive (s.pbWrite i false)

/-- A Passbook write of session `i` is programmed: with both copies on flash its bytes are no longer dirty. -/
def State.pbProgrammed (s : State) (i : Nat) : State :=
  match s.sess i with
  | none => s
  | some x =>
    if x.pbWriting.2 ≤ 1 then
      let s := s.setDirty .passbook (s.dirtyOf .passbook - 4 * (x.pbWriting.1 - x.pbFlash))
      s.updSession i (fun y => { y with pbFlash := max y.pbFlash x.pbWriting.1, pbWriting := (0, 0), pbATier := 2, pbBTier := if s.cfOn then 5 else 2 })
    else s.updSession i (fun y => { y with pbWriting := (y.pbWriting.1, y.pbWriting.2 - 1) })

/-- A park's flash write is programmed. -/
def State.parkProgrammed (s : State) (i : Nat) : State :=
  s.updSession i (fun y => { y with placing := y.placing.map (fun p => { p with wait := p.wait - 1 }) })

/-- `PASSBOOK_COPY_REBUILD`: a new second copy is built from the survivor, placed anew under R64 (R65). -/
def execPassbookCopyRebuild (i : Nat) (s : State) : Ans :=
  .next (if s.frz.frozen then s else
    match s.sess i with
    | none => s
    | some x =>
      if x.pbA.isSome && x.pbB.isSome then s
      else if x.pbA.isNone && x.pbB.isNone then s
      else
        let n := x.passbook.length
        let at_ := (List.range x.pbAt.length).map (fun b => s.pbPlace x.ctx i b)
        s.updSession i (fun y => { y with pbA := some n, pbB := some n, pbAt := at_ }))

/-- Sessions by EXP_RESUME, latest first; none known counts as latest. -/
def byResume (l : List (Nat × Session)) : List (Nat × Session) :=
  let key := fun (x : Session) => if x.expResume = 0 then 2 ^ 64 else x.expResume
  l.mergeSort (fun a b => decide (key b.2 ≤ key a.2))

/-- The clean copies of session `i` in T1 are released (R79). -/
def State.dropClean (s : State) (i : Nat) : State :=
  (s.dropPages i (fun q => decide (q.use = .clean))).updSession i (fun x => { x with cleanT1 := false })

/-- `T1_RECLAIM`: above T1_HIGH, clean copies are released first, then resident-parked KV is placed again without T1, until ALLOC is below
T1_LOW (R79). -/
def execT1Reclaim (s : State) : Ans :=
  .next (if s.frz.frozen || !(s.pastHigh 0) then s else
    let clean := byResume (s.ssn.sessions.rows.filter (fun r =>
      decide (r.2.st = .parked) && !r.2.preRevive && r.2.pages.any (fun q => decide (q.use = .clean)) && !(r.2.pinned && r.2.pinTier = 0)))
    let s := clean.foldl (fun s r => if s.belowLow then s else s.dropClean r.1) s
    let parked := byResume (s.ssn.sessions.rows.filter (fun r =>
      decide (r.2.st = .parked) && decide (r.2.kvTier = 1) && !r.2.pinned && r.2.op.isNone && r.2.placing.isNone && !r.2.pages.isEmpty))
    parked.foldl (fun s r =>
      if s.belowLow then s
      else
        match s.choosePlace r.2 true false with
        | none => s
        | some t =>
          let p := s.startPlace r.1 t
          match p.2 with
          | .lost => p.1.losePages r.1 p.1.pageBad
          | _ => p.1) s)

/-- `SESSION_REBUILD_DONE`: the Counterfoil's pages have come and no recompute is left; the session returns to its former state (R85). -/
def execSessionRebuildDone (i : Nat) (pages : List (Nat × Nat × List Byte)) (s : State) : Ans :=
  .next (if s.frz.frozen then s else
    match s.sess i with
    | none => s
    | some x =>
      match x.rebuild with
      | none => s
      | some r =>
        let need := r.fetch.filter (fun p => !(pages.any (fun q => decide (q.1 = p.1) && decide (q.2.1 = p.2))))
        let r1 := s.addPages i (r.fetch.map (fun p => (0, p.1, p.2))) .live
        if x.st ≠ .rebuilding || !need.isEmpty || (match x.recompute with
            | some (_, paid) => !paid
            | none => false) || !r1.2 then s
        else
          let s := r1.1
          let s : State := match s.sess i with
            | none => s
            | some y => r.fetch.foldl (fun (s : State) p =>
                match y.pages.find? (fun (q : KvPage) => decide (q.kind = 0) && decide (q.layer = p.1) && decide (q.blk = p.2)),
                      pages.find? (fun q => decide (q.1 = p.1) && decide (q.2.1 = p.2)) with
                | some q, some d => (s.writeMem q.key (takeAt d.2.2 0 65536)).1
                | _, _ => s) s
          s.updSession i (fun y => { y with st := r.back, rebuild := none }))

/-- `SESSION_COUNTERFOIL_PAGE`: a paired controller's page is stored, a KV page in this controller's own ALLOC (R64, R66). -/
def execSessionCounterfoilPage (peer : Nat) (ident : Word) (kv : Bool) (layer page : Nat) (data : List Byte) (s : State) : Ans :=
  .next (if s.frz.frozen then s else
    let x : CfSession := s.ssn.cf.lookD (peer, ident) ⟨.empty, .empty, .empty⟩
    if kv then
      if x.kv.has (layer, page) then s.onSsn (fun t => { t with cf := t.cf.put (peer, ident) { x with kv := x.kv.put (layer, page) data } })
      else
        let r := s.allocPage (ssnCtx ident) (ssnIndex ident) layer page .alloc
        match r.2 with
        | none => r.1
        | some f => r.1.onSsn (fun t => { t with cf := t.cf.put (peer, ident) { x with kv := x.kv.put (layer, page) data, frames := x.frames.put (layer, page) f } })
    else s.onSsn (fun t => { t with cf := t.cf.put (peer, ident) { x with pb := x.pb.put page data } }))

/-! ### Phase switches (R84) -/

/-- Pages of KEEP_GIB. -/
def Phase.keepPages (p : Phase) : Nat := p.keepGib * 16384

/-- ALLOC is at or below T1_LOW of the pool shrunk by KEEP_GIB. -/
def State.phaseFits (s : State) (p : Phase) : Bool :=
  decide (s.pgSum .ssnPgAlloc * 100 ≤ (s.pgSum .ssnPgTotal - p.keepPages) * s.t1Low)

/-- Session `i` of the switching context is parked resident (R84 step 2). -/
def State.phasePark (s : State) (i : Nat) : State :=
  match s.sess i with
  | none => s
  | some x =>
    let s := s.chargeRent x.customer
    if x.st = .reviving then (s.dropMove i).cancelRevive i
    else s.updSession i (fun y => { y with
      st := .parked
      inT0 := false
      parkedAt := s.nodeNs
      kvTier := if y.pages.isEmpty then y.kvTier else 1
      kvKept := y.kvKept })

/-- The sessions of the context that hold resident KV, latest EXP_RESUME first. -/
def State.phaseHeld (s : State) (p : Phase) : List (Nat × Session) :=
  byResume (s.ssn.sessions.rows.filter (fun r => decide (r.2.ctx = p.ctx) && decide (r.2.st = .parked) && decide (r.2.kvTier = 1) &&
    !(r.2.pinned && r.2.pinTier = 0) && r.2.op.isNone && !r.2.pages.isEmpty))

/-- Steps 2 and 3 of R84: sessions out of steps are parked, clean copies go first, then whole sessions are written to the Till. -/
def State.phaseAdvance (s : State) : State :=
  match s.ssn.phase with
  | none => s
  | some p =>
    let act := s.ssn.sessions.keysIf (fun i x => decide (x.ctx = p.ctx) && (decide (x.st = .active) || decide (x.st = .reviving)) && !(s.inStep i))
    let s := act.foldl State.phasePark s
    let clean := byResume (s.ssn.sessions.rows.filter (fun r => r.2.cleanT1))
    let s := clean.foldl (fun s r => if s.phaseFits p then s else s.dropClean r.1) s
    if p.deadline ≤ s.now then s
    else ((s.phaseHeld p).filter (fun r => r.2.placing.isNone)).foldl (fun s r =>
      if s.phaseFits p || !(s.hasRoom 2) then s
      else
        let q := s.startPlace r.1 2
        match q.2 with
        | .lost => q.1.losePages r.1 q.1.pageBad
        | _ => q.1) s

/-- Step 4 of R84: what is still needed is freed by parking sessions Passbook-only, whatever their class. -/
def State.phaseForce (s : State) : State :=
  match s.ssn.phase with
  | none => s
  | some p =>
    let s := (s.phaseHeld p).foldl (fun s r => if r.2.placing.isSome then s.undoPlace r.1 else s) s
    (s.phaseHeld p).foldl (fun s r =>
      if s.phaseFits p then s
      else
        let q := (s.startPlace r.1 0xFF).1.commitPlace r.1
        match q.ssn.phase with
        | none => q
        | some p => (q.onSsn (fun t => { t with phase := some { p with pbOnly := p.pbOnly + 1 } })).phaseStatus 1) s

/-- A phase switch is under way. -/
def State.phaseOn (s : State) : Bool := decide (s.fld Fld.ssnPhaseStatus_state = 1)

/-- `PHASE_SWITCH`: a write to `SSN_PHASE` (R84): a second one is ignored, one that asks for too much is refused. -/
def execPhaseSwitch (rq : Requester) (v : Word) (s : State) : Ans :=
  let n := bits v.toNat 0 6
  .next (s.woWrite rq .ssnPhase 0 (s.isModule rq || s.actsFor rq n) 0 (fun s =>
    if s.phaseOn then s.raise Evt.ssn_phaseBusy
    else
      let p : Phase := { ctx := n, keepGib := bits v.toNat 32 32, deadline := s.now + bits v.toNat 8 24 * 1000000, written := 0, pbOnly := 0 }
      let s := s.onSsn (fun t => { t with phase := some p })
      if s.pgSum .ssnPgTotal < p.keepPages + s.pinnedPages (2 ^ 24) then
        (s.phaseStatus 3).onSsn (fun t => { t with phase := none })
      else
        let s := (s.phaseStatus 1).phaseAdvance
        if bits v.toNat 8 24 = 0 then s.phaseForce else s))

/-- `PHASE_TIME_LIMIT`: TIME_LIMIT_MS has run out (R84 step 4). -/
def execPhaseTimeLimit (s : State) : Ans :=
  .next (match s.ssn.phase with
    | none => s
    | some p => if s.frz.frozen || s.now < p.deadline || !s.phaseOn then s else s.phaseAdvance.phaseForce)

end Sys2Proof.Machine
end

