-- ==== Sys2Proof/Machine/Plan.lean ====
section
/-! DEFINITION. Steps in flight: groups and their models, dispatch descriptors, layer boundaries and displacement (R119 to R130), and how
a request ends. -/

namespace Sys2Proof.Machine

/-! ### Groups and models -/

/-- A group is enabled. -/
def State.groupOn (s : State) (g : Nat) : Bool := decide (s.fld Fld.schGroupCfg_enable g = 1)

/-- The ports of a group. -/
def State.groupPorts (s : State) (g : Nat) : List Nat := (List.range 8).filter (fun p => bit (s.fld Fld.schGroupCfg_ports g) p)

/-- The enabled group of a node port. -/
def State.groupOf (s : State) (p : Nat) : Option Nat :=
  (List.range 8).find? (fun g => s.groupOn g && bit (s.fld Fld.schGroupCfg_ports g) p)

/-- The model a group serves. -/
def State.groupModel (s : State) (g : Nat) : Option Model := s.sch.models.look (s.fld Fld.schGroupCfg_model g)

/-- A group that has never been configured. -/
def Group.idle : Group :=
  { role := .off, target := .off, since := 0, stepA := none, stepB := none, lastStepUs := 0, above := 0, below := 0, extCtx := 0,
    extRegion := none, armed := false }

/-- Group `g`. -/
def State.group (s : State) (g : Nat) : Group := s.sch.groups.lookD g Group.idle

/-- Group `g` replaced. -/
def State.setGroup (s : State) (g : Nat) (x : Group) : State := s.onSch (fun t => { t with groups := t.groups.put g x })

/-- The number of a role in `SCH_GROUP_STATUS`. -/
def Role.num : Role → Nat
  | .off => 0 | .decode => 1 | .prefill => 2 | .mixed => 3 | .external => 4 | .switching => 5

/-- `SCH_GROUP_STATUS` shows what the group is doing (Table 5-20). -/
def State.publishGroup (s : State) (g : Nat) : State :=
  let x := s.group g
  s.wr .schGroupStatus g (BitVec.ofNat 64 (x.role.num + b2n x.stepA.isSome * 8 + b2n x.stepB.isSome * 16 +
    min 65535 ((s.now - x.since) / 1000000) * 2 ^ 16 + x.lastStepUs % 2 ^ 32 * 2 ^ 32))

/-- Kernel mode (R127). -/
def Model.kernelMode (m : Model) : Bool := !m.kernels.isEmpty

/-- Descriptors of a step of the model. -/
def Model.parts (m : Model) : Nat := if m.kernelMode then m.kernels.length else m.forms.length

/-- Whether part `k` of a model's step is answered by an ATQ (R128). -/
def Model.attnPart (m : Model) (k : Nat) : Bool :=
  if m.kernelMode then (match m.kernels[k]? with
    | some q => q.attn
    | none => false)
  else (match m.forms[k]? with
    | some f => decide (f.kind ≠ 2)
    | none => false)

/-- Whether a layer boundary follows the answer to part `k`: every layer, or a kernel with BOUNDARY set (R128). -/
def Model.boundaryPart (m : Model) (k : Nat) : Bool :=
  if m.kernelMode then (match m.kernels[k]? with
    | some q => q.boundary
    | none => false)
  else true

/-! ### Steps -/

/-- The step numbered `n` in flight on node port `p`. -/
def State.stepOn (s : State) (p n : Nat) : Option Step :=
  match s.sch.steps.look n, s.groupOf p with
  | some t, some g => if t.group = g then some t else none
  | _, _ => none

/-- Change step `n`. -/
def State.updStep (s : State) (n : Nat) (f : Step → Step) : State := s.onSch (fun t => { t with steps := t.steps.upd n f })

/-- A session's part of a step that is still in it. -/
def StepSess.live (e : StepSess) : Bool := e.status.isNone && !e.committed

/-- Change the entry of slot `k`. -/
def Step.updSlot (t : Step) (k : Nat) (f : StepSess → StepSess) : Step :=
  match t.sessions[k]? with
  | some e => { t with sessions := t.sessions.set k (f e) }
  | none => t

/-- The live entries of a step with their slots. -/
def Step.live (t : Step) : List (Nat × StepSess) :=
  ((List.range t.sessions.length).filterMap (fun k => (t.sessions[k]?).map (fun e => (k, e)))).filter (fun p => p.2.live)

/-- A message of `n` bytes goes to every port of group `g` on class 2 (R127, Table 13-7). -/
def State.sendGroup (s : State) (g n : Nat) (o : Out) : State := (s.groupPorts g).foldl (fun (s : State) p => s.enqueue p 2 0 n) (s.send o)

/-- The last part of a step: the group's model decides. -/
def State.lastPart (s : State) (t : Step) : Nat := match s.groupModel t.group with
  | some m => m.parts - 1
  | none => 0

/-- The dispatch descriptor of part `k`, or of the next one that a session of the step runs, goes to every port of the group, after the HSRs
of the sessions that resume there (R127, R130). -/
def State.sendPart (s : State) (n k : Nat) : State :=
  match s.sch.steps.look n with
  | none => s
  | some t =>
    match s.groupModel t.group with
    | none => s
    | some m =>
      let k := if t.live.any (fun p => decide (p.2.startLayer ≤ k)) then k else t.live.foldl (fun a p => min a p.2.startLayer) m.parts
      let here := t.live.filter (fun p => decide (p.2.startLayer ≤ k))
      if here.isEmpty || m.parts ≤ k then s
      else
        let s := here.foldl (fun (s : State) p =>
          if p.2.startLayer = k && p.2.hsr then
            match (s.sess p.2.sess).bind (·.hsv) with
            | some (_, rows) => s.sendGroup t.group (40 + rows.length) (.hsr t.group n p.1 rows)
            | none => s
          else s) s
        let logits := decide (k + 1 = m.parts) && here.any (fun p => p.2.wantLogits)
        let toks := here.flatMap (fun p => if p.2.startLayer = k && !p.2.hsr then p.2.toks else [])
        let arg := match m.kernels[k]? with
          | some q => q.args
          | none => List.replicate 32 0
        let s := s.sendGroup t.group (64 + 8 * here.length + 4 * toks.length) (.stepDesc t.group t.halfB m.kernelMode k n logits
          (here.map (fun p => (p.1, p.2.new, p.2.startLayer, p.2.pos, p.2.hsr, p.2.wantLogits))) toks arg)
        s.updStep n (fun t => { t with layer := k, sentAt := s.now })

/-- Reserved pages of session `i` below layer `l` become its KV, and the others are released (R94, R69); a session with KV in T1 has KV_KEPT set
and KV_TIER 1 (Table 3-3). -/
def State.settlePages (s : State) (i l : Nat) : State :=
  ((s.markPages i (fun q => decide (q.use = .reserved) && (decide (q.kind = 3) || decide (q.layer < l))) .live).dropPages i
    (fun q => decide (q.use = .reserved))).updSession i (fun x => if x.pages.isEmpty then x else { x with kvKept := true, kvTier := 1 })

/-- KV_WRITTEN returns to KV_LEN in the layers from `l` on (R94). -/
def State.unwrite (s : State) (i l : Nat) : State :=
  s.updSession i (fun x => { x with layers := x.layers.mapVals (fun k y => if l ≤ k then { y with kvWritten := y.kvLen } else y) })

/-- A CANCEL of session `i` completes with OK (R217), and a PARK with DISCARD frees the session, once the request has ended. -/
def State.finishCancels (s : State) (i : Nat) : State :=
  let s := s.tlr.clerks.rows.foldl (fun (s : State) r =>
    (List.range 64).foldl (fun (s : State) k =>
      let sl := (s.clerk r.1).slot k
      if sl.occupied && !sl.complete && decide (sl.op = .cancel i) then s.finishR ⟨r.1, k, sl.serial⟩ .ok 0 0 else s) s) s
  match (s.sess i).bind (·.op) with
  | some m => if m.op = 1 && m.flag then s.finishDiscard i else s
  | none => s

/-- The work of slot `k` leaves step `n` at layer `l` with a status, and what it had reserved is released. PREEMPTED keeps the KV below the
layer and is counted (R94, R129, R130). -/
def State.displace (s : State) (n k l status : Nat) : State :=
  match (s.sch.steps.look n).bind (fun t => t.sessions[k]?) with
  | none => s
  | some e =>
    if !e.live then s
    else
      let s := s.updStep n (fun t => t.updSlot k (fun e => { e with status := some status, displacedAt := some l }))
      let s := s.updCust e.customer (fun c => { c with reserved := c.reserved - e.reserve })
      let s := s.updSession e.sess (fun x => { x with req := x.req.map (fun q => { q with openRes := 0, waitSince := s.now }) })
      if status = 0x0070 then
        let s := (s.settlePages e.sess l).unwrite e.sess l
        let s := s.updCust e.customer (fun c => { c with preempts := c.preempts + 1 })
        s.updSession e.sess (fun x => { x with
          hsv := none
          req := x.req.map (fun q => { q with preempts := q.preempts + 1, startLayer := l }) })
      else (s.settlePages e.sess 0).unwrite e.sess 0

/-- A layer boundary: the requests a CANCEL ends leave the step with ABORTED (R121, R129). -/
def State.boundary (s : State) (n l : Nat) : State :=
  match s.sch.steps.look n with
  | none => s
  | some t =>
    t.live.foldl (fun (s : State) p =>
      match (s.sess p.2.sess).bind (·.req) with
      | some q =>
        if q.cancelling then
          let s := s.displace n p.1 l 0x00F0
          let s := s.updStep n (fun t => t.updSlot p.1 (fun e => { e with finish := if q.finish = 8 then 8 else 7 }))
          if q.finish = 8 then s.finishCancels p.2.sess else (s.endRequest p.2.sess 7 .ok 0 0).finishCancels p.2.sess
        else s
      | none => s) s

/-- The answer to part `k` of step `n` has come, or its first ATR has gone: the next descriptor is sent (R128). -/
def State.nextPart (s : State) (n k : Nat) : State :=
  match s.sch.steps.look n with
  | none => s
  | some t =>
    if t.layer ≠ k || t.atrSent.contains k then s
    else
      let s := s.updStep n (fun t => { t with atrSent := k :: t.atrSent })
      match s.groupModel t.group with
      | none => s
      | some m => (if m.boundaryPart k then s.boundary n k else s).sendPart n (k + 1)

/-- The goal time of R134 of an open request, in ns: before its first token from SUBMIT_TIME, afterwards from LAST_TOKEN_TIME. -/
def State.goalTime (s : State) (q : ReqBlk) : Nat :=
  let r := min 100 (s.fld Fld.schGoalCfg_riskPct)
  if q.lastTokenTime = 0 then q.submitTime + r * q.ttftGoalUs * 10 else q.lastTokenTime + r * q.tbtGoalUs * 10

/-- LIMIT_US: a value below TARGET_US is treated as TARGET_US (Table 5-13). -/
def State.limitUs (s : State) : Nat := max (s.fld Fld.schStepCfg_limitUs) (s.fld Fld.schStepCfg_targetUs)

/-- The predicted end of step `t` after the ATQ of layer `l`, in ns after its start: the remaining layers take the mean time of the
layers done, in proportion to the tokens still in the step (DESIGN CHOICE, log 35). -/
def State.predictEnd (s : State) (t : Step) (l before after : Nat) : Nat :=
  let el := s.now - t.start
  let n := s.lastPart t
  el + el * (n - l) * after / ((l + 1) * max 1 before)

/-- Cause 2 of R129: unboosted prefill leaves the step, greatest slack first, until the prediction is back within LIMIT_US. -/
def State.cutStep (s : State) (n l : Nat) : State :=
  match s.sch.steps.look n with
  | none => s
  | some t =>
    let total := (t.live.map (fun p => p.2.new)).sum
    let goal : Nat × StepSess → Nat := fun p => match (s.sess p.2.sess).bind (·.req) with
      | some q => s.goalTime q
      | none => 0
    let cands := (t.live.filter (fun p => !p.2.decode && !p.2.boosted && !p.2.recompute && !(p.2.startLayer = l && l ≠ 0))).mergeSort
      (fun (a b : Nat × StepSess) => decide (goal b ≤ goal a))
    (cands.foldl (fun (a : State × Nat) p =>
      if s.predictEnd t l total a.2 ≤ s.limitUs * 1000 then a
      else (a.1.displace n p.1 l 0x0070, a.2 - p.2.new)) (s, total)).1

end Sys2Proof.Machine
end

