-- ==== Sys2Proof/Machine/KvaMsg.lean ====
section
/-! DEFINITION. Attention messages: the header and lengths table of R103, the whole-message checks of R104, and what their arrival does
(R104, R128, R129, R217). -/

namespace Sys2Proof.Machine

/-- An attention message as its header and lengths table give it (Tables 4-7 and 4-8): entries as SLOT, QLEN, KVLEN. -/
structure AttnMsg where
  ty : Nat
  flags : Nat
  layer : Nat
  step : Nat
  nseq : Nat
  ntok : Nat
  payload : Nat
  entries : List (Nat × Nat × Nat)
  deriving DecidableEq, Repr

/-- The message in a list of bytes. -/
def parseMsg (bs : List Byte) : AttnMsg :=
  let w0 := leAt bs 0 8
  let w2 := leAt bs 16 8
  let n := bits w2 0 15
  { ty := bits w0 0 8, flags := bits w0 8 8, layer := bits w0 16 8, step := leAt bs 8 8, nseq := n, ntok := bits w2 15 17,
    payload := bits w2 32 32,
    entries := if 16384 < n then [] else (List.range n).map (fun i =>
      let e := leAt bs (32 + 8 * i) 8
      (bits e 0 14, bits e 14 14, bits e 28 14)) }

/-- NATIVE of a KVU. -/
def AttnMsg.native (m : AttnMsg) : Bool := decide (m.ty = 0x23) && bit m.flags 0

/-- The format of the session in slot `k` of a step; the model's where the step has no such session. -/
def State.slotFmt (s : State) (t : Option Step) (m : Model) (k : Nat) : Nat :=
  match (t.bind (fun t => t.sessions[k]?)).bind (fun e => s.sess e.sess) with
  | some x => x.kvFmt
  | none => m.kvFmt

/-- A length rounded up to the next 64-byte boundary. -/
def up64 (n : Nat) : Nat := (n + 63) / 64 * 64

/-- The blocks of a message with their offsets: the payload begins at the next 64-byte boundary after the lengths table (log 32). -/
def State.blocks (s : State) (t : Option Step) (md : Model) (f : LayerForm) (m : AttnMsg) : List ((Nat × Nat × Nat) × Nat × Nat) :=
  (m.entries.foldl (fun (a : List ((Nat × Nat × Nat) × Nat × Nat) × Nat) e =>
    let n := blockBytes f (s.slotFmt t md e.1) (decide (m.ty = 0x23)) m.native e.2.1 e.2.2
    (a.1 ++ [(e, a.2, n)], a.2 + up64 n)) ([], up64 (32 + 8 * m.nseq))).1

/-- The whole message is refused (R104). `t` is the step it names, if one is in flight on its port; `ext`: it answers a KERNEL. -/
def State.msgRefused (s : State) (t : Option Step) (ext : Bool) (md : Model) (m : AttnMsg) : Bool :=
  !(decide (m.ty = 0x21) && decide (m.flags = 0) || decide (m.ty = 0x23) && decide (m.flags ≤ 1)) ||
  !(t.isSome || ext) || decide (16384 < m.nseq) || decide (65536 < m.ntok) || decide (m.ntok ≠ (m.entries.map (·.2.2)).sum) ||
  (match md.forms[m.layer]? with
    | none => true
    | some f => decide (f.kind = 2) || decide (m.payload ≠ ((s.blocks t md f m).map (fun b => up64 b.2.2)).sum))

/-- The message is refused whole: an ATR or KVA with STATUS DENIED and NSEQ 0 answers it (R104). -/
def State.refuseMsg (s : State) (p : Nat) (m : AttnMsg) : State :=
  (s.raise Evt.kva_msgRefused).sendOn p (if m.ty = 0x23 then 4 else 1) 0 32 (.atr p (decide (m.ty = 0x23)) 0 m.layer 0x0040 m.step [] [])

/-- No clerk: a range of private memory that the link writes lies in mapped granules alone. -/
def noClerk : Nat := 4096

/-- The pending KERNEL of an EXTERNAL group with the step its descriptor names (R217). -/
def State.kernelOn (s : State) (p n : Nat) : Option (Nat × KernelOp) :=
  match s.groupOf p with
  | none => none
  | some g => if (s.group g).role = .external then s.sch.kernels.rows.reverse.find? (fun r => decide (r.2.group = g) && decide (r.2.step = n)) else none

/-- The answer to a KERNEL is written to its buffer, and the KERNEL completes (R217). -/
def State.kernelAnswer (s : State) (p n : Nat) (k : KernelOp) (msg : List Byte) : State :=
  let m := parseMsg msg
  let s := s.onSch (fun t => { t with kernels := t.kernels.del n })
  let r : Rcpt := ⟨k.clerk, k.slot, k.serial⟩
  if k.room < msg.length then s.abortR r 5
  else
    match s.writePriv k.clerk k.ctx k.buf msg with
    | none => s.abortR r 5
    | some (s, st, bad) =>
      if st = .ok then
        let s := if m.ty = 0x21 then s.onKva (fun x => { x with inbox := x.inbox.put (k.ctx, k.buf) ⟨p, false, m.layer, m.step, msg.length⟩ }) else s
        s.finishR r .ok msg.length (BitVec.ofNat 64 m.ty)
      else s.finishR r st 0 (BitVec.ofNat 64 bad)

/-- An ATQ or KVU arrives whole on node port `p` for private memory at (`n`, `a`) (R104): refused whole, given to the KERNEL that waits
for it, or placed for the step's clerk. The answer to a descriptor stops its timeout; after an ATQ the planner tests cause 2 of R129. -/
def State.attnArrive (s : State) (p n a : Nat) (msg : List Byte) : State :=
  if s.frz.frozen then s
  else
    let m := parseMsg msg
    match (s.groupOf p).bind s.groupModel with
    | none => s.refuseMsg p m
    | some md =>
      let t := s.stepOn p m.step
      let k := s.kernelOn p m.step
      if s.msgRefused t k.isSome md m || decide (msg.length < up64 (32 + 8 * m.nseq) + m.payload) then s.refuseMsg p m
      else
        match (if m.ty = 0x21 then k else none) with
        | some (g, k) => s.kernelAnswer p g k msg
        | none =>
          match s.writePriv noClerk n a msg with
          | none => s
          | some (s, _, _) =>
            let s := s.onKva (fun x => { x with inbox := x.inbox.put (n, a) ⟨p, decide (m.ty = 0x23), m.layer, m.step, msg.length⟩ })
            if m.ty = 0x21 then
              match t with
              | none => s
              | some t =>
                let part := if md.kernelMode then t.layer else m.layer
                (s.updStep t.no (fun t => { t with answered := part :: t.answered.filter (fun l => decide (l ≠ part)) })).cutStep t.no part
            else s

/-- `ATQ`. -/
def execAtq (p ctx addr : Nat) (msg : List Byte) (s : State) : Ans :=
  s.whenLive (if leAt msg 0 1 = 0x23 then s else s.attnArrive p ctx addr msg)

/-- `KVU`. -/
def execKvu (p ctx addr : Nat) (msg : List Byte) (s : State) : Ans :=
  s.whenLive (if leAt msg 0 1 = 0x21 then s else s.attnArrive p ctx addr msg)

/-- `LDN`: a layer of KIND 2, or a kernel without ATTN, is done (R128, R217). -/
def execLdn (p : Nat) (msg : List Byte) (s : State) : Ans :=
  .next (if s.frz.frozen then s else
    let m := parseMsg msg
    if m.ty ≠ 0x13 || m.nseq ≠ 0 then s
    else
      match s.kernelOn p m.step with
      | some (g, k) => s.kernelAnswer p g k msg
      | none =>
        match s.stepOn p m.step, (s.groupOf p).bind s.groupModel with
        | some t, some md =>
          if md.attnPart t.layer || (!md.kernelMode && decide (m.layer ≠ t.layer)) || t.answered.contains t.layer then s
          else (s.updStep t.no (fun t => { t with answered := t.layer :: t.answered })).nextPart t.no t.layer
        | _, _ => s)

end Sys2Proof.Machine
end

