-- ==== Sys2Proof/Machine/Kva.lean ====
section
/-! DEFINITION. Attention beside memory: the walk of an ATTN (R95 to R102), the stack engines and the merge units (R97 to R99), responses
(R106, R107), errors (R113, R114) and ATTN.MERGE (R216). -/

namespace Sys2Proof.Machine

/-! ### Places -/

/-- An engine that has never run. -/
def Engine.idle : Engine := { queue := [], bankB := false, ctxA := none, ctxB := none, flop := 0 }

/-- The engine of stack `m`. -/
def State.engine (s : State) (m : Nat) : Engine := s.kva.engines.lookD m Engine.idle

/-- The engine of stack `m` replaced, with its queue's length and bank in `KVA_ENG_STATUS`. -/
def State.setEngine (s : State) (m : Nat) (e : Engine) : State :=
  let s := s.onKva (fun k => { k with engines := k.engines.put m e })
  (s.setFld Fld.kvaEngStatus_queue m e.queue.length).setFld Fld.kvaEngStatus_bank m (b2n e.bankB)

/-- Change ATTN number `n`. -/
def State.updAttn (s : State) (n : Nat) (f : AttnOp → AttnOp) : State := s.onKva (fun k => { k with ops := k.ops.upd n f })

/-- Entry `k` of an ATTN changed. -/
def AttnOp.updEntry (o : AttnOp) (k : Nat) (f : AttnEntry → AttnEntry) : AttnOp :=
  match o.entries[k]? with
  | some e => { o with entries := o.entries.set k (f e) }
  | none => o

/-- The page of a session in T1. -/
def Session.page (x : Session) (kind layer blk : Nat) : Option KvPage :=
  x.pages.find? (fun q => decide (q.kind = kind) && decide (q.layer = layer) && decide (q.blk = blk))

/-- 64 KiB pages that hold one head of a recurrent state, both copies (R102). -/
def LayerForm.headPages (f : LayerForm) : Nat := (8 * f.dhN * f.dvN + 65535) / 65536

/-! ### Visibility (R100, R101) -/

/-- Position `t` is in V(p). -/
def visible (f : LayerForm) (p t : Nat) : Bool :=
  decide (t ≤ p) && (decide (f.window = 0) || decide (t < f.sinks) || decide (p + 1 ≤ t + f.window))

/-- The records of page `j` of `n` records that a query block at positions `a` to `b` uses: first and last (R95, R100). -/
def pageRange (f : LayerForm) (n j a b : Nat) : Option (Nat × Nat) :=
  let l := (List.range n).filter (fun r =>
    let t := j * n + r
    decide (t ≤ b) && (decide (f.window = 0) || decide (t < f.sinks) || decide (a + 1 ≤ t + f.window)))
  match l.head?, l.getLast? with
  | some x, some y => some (x, y)
  | _, _ => none

/-- The score scale: 0 means 1/√DH. -/
def LayerForm.scoreScale (f : LayerForm) : F32 := if f.scale = 0 then fDiv fOne (fSqrt (fOfNat f.dhN)) else f.scale

/-- Query row `r` of a block of an ATQ, head `h`: DH elements. -/
def qElems (f : LayerForm) (msg : List Byte) (off r h : Nat) : List F32 :=
  (List.range f.dhN).map (fun i => fOfBf16 (BitVec.ofNat 16 (leAt msg (off + 2 * ((r * f.hqN + h) * f.dhN + i)) 2)))

/-- Query row `r` of head `h` holds a NaN. -/
def qNaN (f : LayerForm) (msg : List Byte) (off r h : Nat) : Bool := (qElems f msg off r h).any fIsNaN

/-- The KV head of query head `h`. -/
def LayerForm.kvHead (f : LayerForm) (h : Nat) : Nat := h / max 1 (f.hqN / f.hkvN)

/-- The larger of two scores. -/
def fMax (x y : F32) : F32 := if fLt x y then y else x

/-- The score of digest block `j` for the one query of a sparse decode (R101). -/
def State.blockScore (s : State) (x : Session) (f : LayerForm) (layer : Nat) (msg : List Byte) (off j : Nat) : F32 :=
  match x.page 1 layer (j / digestsPerPage f) with
  | none => fInf true
  | some q =>
    let key := q.key + j % digestsPerPage f * digestBytes f
    let dig := fun (g : Nat) => (List.range f.dhN).map (fun i => fOfBf16 (BitVec.ofNat 16 (s.numAt (key + 2 * (g * f.dhN + i)) 2)))
    fMul f.scoreScale ((List.range f.hqN).foldl (fun a h => fMax a (fDot (qElems f msg off 0 h) (dig (f.kvHead h)) 0)) (fInf true))

/-- Block-sparse decode applies (R101). -/
def State.sparseOn (s : State) (f : LayerForm) (qlen written : Nat) : Bool :=
  decide (qlen = 1) && decide (f.sparseB ≠ 0) && decide (f.sparseMin ≤ written) && decide (s.fld Fld.kvaCfg_sparseEn = 1)

/-- What a sparse decode at position `p` reads (R101): the blocks kept, and the complete blocks whose digest is late. -/
def State.sparseBlocks (s : State) (x : Session) (f : LayerForm) (layer : Nat) (msg : List Byte) (off p written : Nat) : List Nat × List Nat :=
  let local_ := max 1 f.localBlocks
  let whole := (List.range (written / 64)).filter (fun j =>
    decide ((f.sinks + 63) / 64 ≤ j) && decide (j + local_ ≤ p / 64) && (List.range 64).any (fun r => visible f p (64 * j + r)))
  let late := whole.filter (fun j => decide ((x.layer layer).digested ≤ j))
  let cands := whole.filter (fun j => decide (j < (x.layer layer).digested))
  let scored := cands.map (fun j => (j, s.blockScore x f layer msg off j))
  let order := scored.mergeSort (fun a b => !(fLt a.2 b.2))
  ((order.take f.sparseB).map (·.1), late)

/-- The positions a sparse decode attends (R101). -/
def sparseSet (f : LayerForm) (p : Nat) (kept late : List Nat) : List Nat :=
  (List.range (p + 1)).filter (fun t => visible f p t &&
    (decide (t < f.sinks) || decide (p / 64 < t / 64 + max 1 f.localBlocks) || kept.contains (t / 64) || late.contains (t / 64)))

/-! ### The walk (R95) -/

/-- A descriptor with the fields every operation shares. -/
def mkDesc (op : Nat) (x : Session) (i layer : Nat) (q : KvPage) (pslot : Nat) : PgDesc :=
  { op := op, fmt := x.kvFmt, layer := layer, stack := q.stack, frame := q.frame, fill := 0, last := false, tokenBase := 0, first := 0,
    lastRec := 0, qcount := 0, model := x.model, qpos := 0, pslot := pslot, ctx := x.ctx, sess := i, nanQ := false, only := none, rows := [] }

/-- The last descriptor of each stack in a list carries LAST. -/
def markLast (ds : List PgDesc) : List PgDesc :=
  (List.range ds.length).filterMap (fun k => (ds[k]?).map (fun d =>
    { d with last := !((ds.drop (k + 1)).any (fun e => decide (e.stack = d.stack))) }))

/-- The descriptors reach their stacks in emission order. -/
def State.enqueueDesc (s : State) (ds : List PgDesc) : State :=
  ds.foldl (fun s d => let e := s.engine d.stack; s.setEngine d.stack { e with queue := e.queue ++ [d] }) s

/-- The stacks of a list of descriptors, each once. -/
def stacksOf (ds : List PgDesc) : List Nat := (ds.map (·.stack)).eraseDups

/-- A list of descriptors is emitted under a fresh merge slot that expects the stacks it uses; an empty list makes none. -/
def State.emit (s : State) (op entry : Nat) (digest : Option (Nat × Nat × Nat × Nat)) (ds : List PgDesc) : State :=
  if ds.isEmpty then s
  else
    let n := s.kva.mergeCtr % 2 ^ 20
    let ds := markLast (ds.map (fun d => { d with pslot := n }))
    let s := s.onKva (fun k => { k with
      mergeCtr := k.mergeCtr + 1
      merges := k.merges.put n { attn := op, entry := entry, digest := digest, expect := stacksOf ds, arrived := [] } })
    let s := match digest with
      | some _ => s
      | none => s.updAttn op (fun o => o.updEntry entry (fun e => { e with left := e.left + 1 }))
    s.enqueueDesc ds

/-- The records an entry writes to a softmax layer (R89, R104): as received with NATIVE, otherwise encoded from K and V. -/
def entryRecords (f : LayerForm) (fmt : Nat) (o : AttnOp) (e : AttnEntry) : List (List Byte) :=
  let n := f.hkvN * f.dhN
  let qb := if o.kvu then 0 else e.qlen * f.hqN * f.dhN * 2
  (List.range e.kvlen).map (fun r =>
    if o.kvu && o.native then takeAt o.msg (e.off + r * bpt f fmt) (bpt f fmt)
    else
      let row := fun (base : Nat) => (List.range n).map (fun i => BitVec.ofNat 16 (leAt o.msg (base + 2 * (r * n + i)) 2))
      kvRecord f fmt (row (e.off + qb)) (row (e.off + qb + e.kvlen * n * 2)))

/-- KV-write descriptors: one per page touched by the new records at positions `w` onward. -/
def writeDescs (f : LayerForm) (x : Session) (i layer w : Nat) (recs : List (List Byte)) : List PgDesc :=
  let n := max 1 (tpp f x.kvFmt)
  let m := recs.length
  if m = 0 then []
  else
    ((List.range ((w + m - 1) / n + 1 - w / n)).map (· + w / n)).filterMap (fun j =>
      match x.page 0 layer j with
      | none => none
      | some q =>
        let lo := max w (j * n)
        let hi := min (w + m) ((j + 1) * n)
        some { mkDesc 3 x i layer q 0 with
          fill := hi - j * n
          tokenBase := j * n
          first := lo - j * n
          lastRec := hi - 1 - j * n
          qcount := hi - lo
          rows := (recs.drop (lo - w)).take (hi - lo) })

/-- Attention descriptors of the query block at positions `a` to `b`: one per page with a visible token. -/
def attnDescs (f : LayerForm) (x : Session) (i layer a b written : Nat) (nan : Bool) (only : Option (List Nat)) : List PgDesc :=
  let n := max 1 (tpp f x.kvFmt)
  (List.range (b / n + 1)).filterMap (fun j =>
    match pageRange f n j a b, x.page 0 layer j with
    | some (lo, hi), some q =>
      let sel := only.map (fun l => l.filter (fun t => decide (t / n = j)))
      if sel = some [] then none
      else
        let lo' := match sel with
          | some (t :: _) => t % n
          | _ => lo
        let hi' := match sel.bind (·.getLast?) with
          | some t => t % n
          | none => hi
        some { mkDesc 1 x i layer q 0 with
          fill := min n (written - j * n)
          tokenBase := j * n
          first := lo'
          lastRec := hi'
          qcount := b + 1 - a
          qpos := a
          nanQ := nan
          only := sel }
    | _, _ => none)

/-- The walk of one entry in a softmax layer. -/
def State.walkSoftmax (s : State) (op k : Nat) (o : AttnOp) (e : AttnEntry) (i : Nat) (x : Session) (f : LayerForm) : State :=
  let w := (x.layer o.layer).kvWritten
  let wr := writeDescs f x i o.layer w (entryRecords f x.kvFmt o e)
  let s := (stacksOf wr).foldl (fun (s : State) m => s.emit op k none (wr.filter (fun d => decide (d.stack = m)))) s
  let written := w + e.kvlen
  let s := s.updSession i (fun x => { x with layers := x.layers.put o.layer { x.layer o.layer with kvWritten := written } })
  if o.kvu || e.qlen = 0 then s
  else
    let qb := max 1 (min (max 1 (s.fld Fld.kvaCfg_qblockMax)) (16777216 / (f.hqN * f.dhN * 2)))
    let nan := fun (r : Nat) => (List.range f.hqN).any (fun h => qNaN f o.msg e.off r h)
    if s.sparseOn f e.qlen written then
      let b := s.sparseBlocks x f o.layer o.msg e.off w written
      let dp := digestsPerPage f
      let pages := ((List.range (x.layer o.layer).digested).map (fun j => j / dp)).eraseDups
      let sc := pages.filterMap (fun g => (x.page 1 o.layer g).map (fun q =>
        { mkDesc 2 x i o.layer q 0 with
          fill := min dp ((x.layer o.layer).digested - g * dp)
          lastRec := min dp ((x.layer o.layer).digested - g * dp) - 1
          qcount := 1
          qpos := w }))
      let s := (stacksOf sc).foldl (fun (s : State) m => s.emit op k none (sc.filter (fun d => decide (d.stack = m)))) s
      let s := if b.2.isEmpty then s else (s.count .kvaDigestLate 0 b.2.length).raise Evt.kva_digestLate
      s.emit op k none (attnDescs f x i o.layer w w written (nan 0) (some (sparseSet f w b.1 b.2)))
    else
      (List.range ((e.qlen + qb - 1) / qb)).foldl (fun (s : State) g =>
        let a := w + g * qb
        let b := min (w + e.qlen) (a + qb) - 1
        s.emit op k none (attnDescs f x i o.layer a b written ((List.range (b + 1 - a)).any (fun r => nan (g * qb + r))) none)) s

/-- The walk of one entry in a recurrent layer (R102): one descriptor per head, on the stack that holds its state. -/
def State.walkRecurrent (s : State) (op k : Nat) (o : AttnOp) (e : AttnEntry) (i : Nat) (x : Session) (f : LayerForm) : State :=
  let n := if o.kvu then e.kvlen else e.qlen
  let w := (x.layer o.layer).kvWritten
  let s := s.updSession i (fun x => { x with layers := x.layers.put o.layer { x.layer o.layer with kvWritten := w + e.kvlen } })
  let ds := (List.range f.hqN).filterMap (fun h => (x.page 2 o.layer (h * 16)).map (fun q =>
    { mkDesc 4 x i o.layer q 0 with qcount := n, qpos := w, first := h }))
  if n = 0 then s
  else if o.kvu then (stacksOf ds).foldl (fun (s : State) m => s.emit op k none (ds.filter (fun d => decide (d.stack = m)))) s
  else s.emit op k none ds

/-- Entry `k` of an ATTN is walked. -/
def State.walkEntry (s : State) (op k : Nat) : State :=
  match s.kva.ops.look op with
  | none => s
  | some o =>
    match o.entries[k]? with
    | none => s
    | some e =>
      match e.sess with
      | none => s
      | some i =>
        match s.sess i with
        | none => s
        | some x =>
          let s := s.updAttn op (fun o => o.updEntry k (fun e => { e with walked := true }))
          match s.formOf x o.layer with
          | some f => if f.kind = 0 then s.walkSoftmax op k o e i x f else s.walkRecurrent op k o e i x f
          | none => s

/-! ### Responses (R103, R106, R107) -/

/-- A free BF16 NaN: sign and payload are not stated. -/
def freeNaN (ctr n : Nat) : List Byte := [Config.freeByte ctr n ||| 0x81, Config.freeByte ctr (n + 1) ||| 0x7F]

/-- The output rows of an entry: free values (R111, R112 give a bound and no bits), NaN where R113 says so. -/
def State.outRows (s : State) (o : AttnOp) (e : AttnEntry) (f : LayerForm) : List Byte :=
  let d := if f.kind = 1 then f.dvN else f.dhN
  (List.range e.qlen).flatMap (fun r => (List.range f.hqN).flatMap (fun h =>
    let all := (decide (f.kind = 0) && qNaN f o.msg e.off r h) || e.nans.contains (r, h, none)
    (List.range d).flatMap (fun i =>
      let n := 2 * ((r * f.hqN + h) * d + i)
      if all || e.nans.contains (r, h, some i) then freeNaN s.freeCtr n
      else [Config.freeByte s.freeCtr n, Config.freeByte s.freeCtr (n + 1)])))

/-- An entry whose work is done has its final status and its output. -/
def State.closeEntry (s : State) (op k : Nat) : State :=
  match s.kva.ops.look op with
  | none => s
  | some o =>
    match o.entries[k]?, (o.entries[k]?).bind (fun e => e.sess.bind s.sess) with
    | some e, some x =>
      if e.walked && decide (e.left = 0) && e.status.isNone then
        match s.formOf x o.layer with
        | some f =>
          let rows := if o.kvu then [] else s.outRows o e f
          s.bump.updAttn op (fun o => o.updEntry k (fun e => { e with status := some 0, rows := rows }))
        | none => s
      else s
    | _, _ => s

/-- The header and lengths table of an ATR or KVA with every session's status, as the message buffer holds them (R107). -/
def State.atrBytes (s : State) (o : AttnOp) : List Byte :=
  natLe 8 ((if o.kvu then 0x24 else 0x22) + o.layer % 256 * 2 ^ 16) ++ natLe 8 o.step ++
  natLe 8 (o.entries.length % 2 ^ 15 + (o.entries.map (·.kvlen)).sum % 2 ^ 17 * 2 ^ 15 + (o.entries.map (fun e => e.rows.length)).sum % 2 ^ 32 * 2 ^ 32) ++
  natLe 8 s.nodeNs ++
  o.entries.flatMap (fun e => natLe 8 (e.slot + e.qlen * 2 ^ 14 + e.kvlen * 2 ^ 28 + (e.status.getD 0) * 2 ^ 42))

/-- An ATR or KVA goes out on the port that delivered the message. -/
def State.sendAtr (s : State) (o : AttnOp) (flags : Nat) (es : List AttnEntry) : State :=
  let rows := es.filterMap (fun e => if e.status = some 0 && !o.kvu then some e.rows else none)
  s.sendOn o.port (if o.kvu then 4 else 1) 0 (32 + 8 * es.length + (rows.map List.length).sum)
    (.atr o.port o.kvu flags o.layer 0 o.step (es.map (fun e => (e.slot, e.qlen, e.kvlen, e.status.getD 0))) rows)

/-- ATTN completes (R107). -/
def State.finishAttn (s : State) (op : Nat) (o : AttnOp) : State :=
  let n := (o.entries.filter (fun e => decide (e.status = some 0))).length
  let s := match s.writePriv o.clerk o.ctx o.addr (s.atrBytes o) with
    | some (s, _, _) => s
    | none => s
  let s := (s.onKva (fun k => { k with ops := k.ops.del op })).count .kvaAttnDone 0 1
  let all := n = o.entries.length
  let s := if all then s else s.count .kvaAttnPartial 0 1
  s.finishR ⟨o.clerk, o.slot, o.serial⟩ (if all then .ok else .partialS) n (BitVec.ofNat 64 o.entries.length)

/-- Free partial records for every query token and head of the sessions delivered, at PARTIALS (R99, R215). -/
def State.writePartials (s : State) (o : AttnOp) (f : LayerForm) : Option (State × Status × Nat) :=
  let rec_ := 8 + 4 * f.dhN
  (o.entries.foldl (fun (a : Option (State × Status × Nat) × Nat) e =>
    let n := e.qlen * f.hqN * rec_
    match a.1 with
    | none => (none, a.2 + n)
    | some (s, st, _) =>
      if st ≠ .ok || e.status ≠ some 0 then (a.1, a.2 + n)
      else ((s.bump.writePriv o.clerk o.ctx (o.partials.toNat + a.2) ((List.range n).map (Config.freeByte s.freeCtr))), a.2 + n))
    (some (s, .ok, 0), 0)).1

/-- The response of an ATTN goes as far as its entries' statuses allow: the first ATR without the held sessions, the supplement, the KVA, or
the partial records (R106, R107); the first ATR sends the next descriptor (R128). -/
def State.progress (s : State) (op : Nat) : State :=
  match s.kva.ops.look op with
  | none => s
  | some o =>
    let final := fun (e : AttnEntry) => e.status.isSome
    let now := o.entries.filter (fun e => !e.held)
    if o.kvu || o.partials ≠ 0 then
      if !(o.entries.all final) then s
      else if o.kvu then (s.sendAtr o 0 o.entries).finishAttn op o
      else
        match (s.groupModel o.group).bind (fun m => m.forms[o.layer]?) with
        | none => s
        | some f =>
          match s.writePartials o f with
          | none => (s.onKva (fun k => { k with ops := k.ops.del op })).abortR ⟨o.clerk, o.slot, o.serial⟩ 5
          | some (s, st, bad) =>
            if st = .ok then s.finishAttn op o
            else (s.onKva (fun k => { k with ops := k.ops.del op })).finishR ⟨o.clerk, o.slot, o.serial⟩ st 0 (BitVec.ofNat 64 bad)
    else
      let s := if !o.firstSent && now.all final then
          let s := (s.sendAtr o (b2n (o.entries.any (·.held))) now).updAttn op (fun o => { o with firstSent := true })
          let part := match s.groupModel o.group, s.sch.steps.look o.step with
            | some m, some t => if m.kernelMode then t.layer else o.layer
            | _, _ => o.layer
          s.nextPart o.step part
        else s
      match s.kva.ops.look op with
      | none => s
      | some o =>
        if o.firstSent && o.entries.all final then
          let held := o.entries.filter (·.held)
          let s := if held.isEmpty then s else s.sendAtr o 2 held
          s.finishAttn op o
        else s

/-! ### ATTN (R215) -/

/-- What becomes of an entry of an accepted message (R104, R106, R215): a final status, held, or served. -/
inductive EntryFate
  | final (status : Nat) | held | serve
  deriving DecidableEq, Repr

/-- A session takes part in attention: ACTIVE, REVIVING, or REBUILDING with a recompute from its Passbook (R104, R85). -/
def Session.attends (x : Session) : Bool :=
  decide (x.st = .active) || decide (x.st = .reviving) || (decide (x.st = .rebuilding) && x.recompute.isSome)

/-- The fate of an entry at layer `l`. -/
def State.entryFate (s : State) (t : Option Step) (ctx l : Nat) (kvu : Bool) (e : Nat × Nat × Nat) : EntryFate :=
  match t.bind (fun t => t.sessions[e.1]?) with
  | none => .final 0x0040
  | some p =>
    if p.ctx ≠ ctx then .final 0x0040
    else
      match p.status with
      | some st => if p.displacedAt = some l && !kvu then .final st else .final 0x0040
      | none =>
        if !kvu && e.2.1 ≠ e.2.2 then .final 0x0040
        else if e.2.1 = 0 && e.2.2 = 0 then .final 0
        else
          match s.sess p.sess with
          | none => .final 0x0040
          | some x =>
            if p.pos + p.new < (x.layer l).kvWritten + e.2.2 then .final 0x0040
            else if !x.attends then .final 0x0040
            else if x.st = .reviving && !(x.layer l).resident then .held
            else .serve

/-- The whole message is refused as ATTN finds it: answered, and the Receipt completes with DENIED. -/
def State.refuseAttn (s : State) (o : Op) (p reason : Nat) (m : AttnMsg) : State := (s.refuseMsg p m).deny o reason

/-- The entries of a message as ATTN begins them. -/
def State.beginAttn (s : State) (o : Op) (row : RecvMsg) (g : Nat) (md : Model) (f : LayerForm) (bytes : List Byte) : State :=
  let d := o.ix.desc
  let m := parseMsg bytes
  let kvu := decide (m.ty = 0x23)
  let t := s.stepOn row.port m.step
  let s := match t with
    | some t => if kvu || md.kernelMode then s else s.boundary t.no m.layer
    | none => s
  let t := s.stepOn row.port m.step
  let op := s.tlr.opCtr
  let fates := (s.blocks t md f m).map (fun b => (b, s.entryFate t o.ctx m.layer kvu b.1))
  let entries : List AttnEntry := fates.map (fun b =>
    { slot := b.1.1.1, sess := (t.bind (fun t => t.sessions[b.1.1.1]?)).map (·.sess), qlen := b.1.1.2.1, kvlen := b.1.1.2.2,
      status := match b.2 with
        | .final st => some st
        | _ => none,
      held := decide (b.2 = .held), walked := false, left := 0, off := b.1.2.1, rows := [], nans := [] })
  let a : AttnOp :=
    { clerk := o.r.clerk, slot := o.r.slot, serial := o.r.serial, ctx := o.ctx, port := row.port, group := g, layer := m.layer,
      step := m.step, kvu := kvu, partials := BitVec.ofNat 64 (dbits d 128 64), addr := dbits d 0 64, msg := bytes, native := m.native,
      entries := entries, firstSent := false, finished := false }
  let s := s.onKva (fun k => { k with ops := k.ops.put op a, inbox := k.inbox.del (o.ctx, dbits d 0 64) })
  let s := entries.foldl (fun (s : State) e =>
    if e.held && e.status.isNone then
      match e.sess with
      | some i => s.updSession i (fun x => { x with heldSince := some (m.layer, s.now) })
      | none => s
    else s) s
  let s := (List.range entries.length).foldl (fun (s : State) k =>
    match fates[k]? with
    | some (_, .serve) => (s.walkEntry op k).closeEntry op k
    | _ => s) s
  s.progress op

/-- ATTN (R215, R107): the checks on its descriptor and on the message, and the compatibility refusal of R28. -/
def doAttn (o : Op) (h : Handle) (s : State) : State :=
  let d := o.ix.desc
  let a := dbits d 0 64
  match s.kva.inbox.look (o.ctx, a) with
  | none => s.deny o 2
  | some row =>
    if dbits d 192 320 ≠ 0 || (row.kvu && dbits d 128 64 ≠ 0) || !(s.opMapped o a row.bytes) then s.deny o 2
    else
      s.opRead o a row.bytes (fun bytes s =>
        let m := parseMsg bytes
        let lead := (hObj h).toNat
        match s.groupOf row.port with
        | none => s.refuseAttn o row.port 2 m
        | some g =>
          match s.groupModel g with
          | none => s.refuseAttn o row.port 2 m
          | some md =>
            let ext := decide ((s.group g).role = .external)
            if m.step ≠ dbits d 64 64 || s.groupLead g ≠ some lead || row.port ≠ lead || s.msgRefused (s.stepOn row.port m.step) ext md m then
              s.refuseAttn o row.port 2 m
            else
              match md.forms[m.layer]? with
              | none => s.refuseAttn o row.port 2 m
              | some f =>
                if o.ix.img.compat && !row.kvu && (decide (f.kind = 1) || decide (f.sparseB ≠ 0)) then s.refuseAttn o row.port 5 m
                else if dbits d 128 64 ≠ 0 && !(s.opMapped o (dbits d 128 64) ((m.entries.map (·.2.1)).sum * f.hqN * (8 + 4 * f.dhN))) then
                  s.deny o 2
                else s.beginAttn o row g md f bytes)

/-- `ATTN`. -/
def execAttn (c : Nat) (s : State) : Ans :=
  .next (s.onWord c (isSub 0x20 0) (fun ix =>
    let n := s.tlr.opCtr + 1
    (s.onTlr (fun t => { t with opCtr := n })).issueH ix (.attn n) [8] rtCompute doAttn))

/-! ### The stack engine (R97, R98, R113, R114) -/

/-- The engine's bank for a context (R98, R335): the bank in use when it holds the context; otherwise the engine goes over to the other bank
and sweeps the one it leaves. -/
def State.bankFor (s : State) (m ctx : Nat) : State :=
  let e := s.engine m
  let cur := if e.bankB then e.ctxB else e.ctxA
  if cur = some ctx then s
  else if cur.isNone then s.setEngine m (if e.bankB then { e with ctxB := some ctx } else { e with ctxA := some ctx })
  else
    let s := (s.count .secSweeps 0 1).trace (hubOfStack m) 6 ctx true m 5
    s.setEngine m (if e.bankB then { e with bankB := false, ctxA := some ctx, ctxB := none }
      else { e with bankB := true, ctxB := some ctx, ctxA := none })

/-- The bytes of its page a descriptor reads: offset and length. -/
def State.descRange (_s : State) (d : PgDesc) (f : LayerForm) (x : Session) : Nat × Nat :=
  match d.op with
  | 1 => (d.first * bpt f d.fmt, (d.lastRec + 1 - d.first) * bpt f d.fmt)
  | 2 => (0, d.fill * digestBytes f)
  | 4 => (if (x.layer d.layer).activeB then 4 * f.dhN * f.dvN else 0, 4 * f.dhN * f.dvN)
  | 5 => (d.first * bpt f d.fmt, (d.lastRec + 1 - d.first) * bpt f d.fmt)
  | _ => (0, 0)

/-- The flop of a descriptor (R98, R102). -/
def descFlop (d : PgDesc) (f : LayerForm) : Nat :=
  match d.op with
  | 1 => 4 * f.hqN * f.dhN * (d.lastRec + 1 - d.first) * d.qcount
  | 4 => 4 * f.dhN * f.dvN * d.qcount
  | _ => 0

/-- The pieces of a recurrent head's copy as its pages hold them: key and length of each part of a range. -/
def Session.headParts (x : Session) (layer h off n : Nat) : List (Nat × Nat) :=
  ((List.range 16).filterMap (fun k => (x.page 2 layer (h * 16 + k)).map (fun q => (k, q)))).filterMap (fun p =>
    let lo := max off (p.1 * 65536)
    let hi := min (off + n) ((p.1 + 1) * 65536)
    if lo < hi then some (p.2.key + (lo - p.1 * 65536), hi - lo) else none)

/-- The memory a descriptor reads: keys and lengths. -/
def State.descParts (s : State) (d : PgDesc) (f : LayerForm) (x : Session) : List (Nat × Nat) :=
  let r := s.descRange d f x
  if d.op = 4 then x.headParts d.layer d.first r.1 r.2 else if r.2 = 0 then [] else [(keyKv d.stack d.frame r.1, r.2)]

/-- Read the parts: the first failed codeword with its status. -/
def State.readParts (s : State) (ps : List (Nat × Nat)) : State × Option (Status × Nat) :=
  (ps.flatMap (fun p => cwsOf p.1 p.2)).foldl (fun (a : State × Option (Status × Nat)) cw =>
    match a.2 with
    | some _ => a
    | none =>
      let r := a.1.readCw cw
      (r.1, if r.2 = .ok then none else some (r.2, cw))) (s, none)

/-- The stack DRAM address of a key in a KV frame: stack in [40:36], byte offset in [35:0]. -/
def dramAddr (m key : Nat) : Word := BitVec.ofNat 64 (m * 2 ^ 36 + key % 2 ^ 36)

/-- A failed read of a KV, digest or recurrent-state line (R114): counted, the entry's status set, and the session sent to REBUILDING. -/
def State.attnFail (s : State) (m : Nat) (d : PgDesc) (slot : Option MergeSlot) (st : Status) (cw : Nat) : State :=
  let s := if st = .uncorrectable then (s.countSat Fld.kvaEngErr_uncorr m 1).raise Evt.kva_uncorrAttn
    else (s.countSat Fld.kvaEngErr_poison m 1).raise Evt.kva_poisonAttn
  let s := s.wr .kvaEngErrAddr m (dramAddr m cw)
  let s := match slot with
    | some y =>
      match s.kva.ops.look y.attn with
      | some o =>
        match o.entries[y.entry]? with
        | some e => if e.status.isNone && y.digest.isNone then
            (s.updAttn y.attn (fun o => o.updEntry y.entry (fun e => { e with status := some st.code }))).displace o.step e.slot o.layer st.code
          else s
        | none => s
      | none => s
    | none => s
  match s.sess d.sess with
  | none => s
  | some x =>
    let s := if x.st = .rebuilding then s else s.count .kvaRebuild 0 1
    s.losePages d.sess (fun q => decide (q.stack = d.stack) && decide (q.frame = d.frame))

/-- The records a KV write puts into its page, with the NaN blocks it stores counted (Table 4-16). -/
def State.writeRecords (s : State) (m : Nat) (d : PgDesc) (f : LayerForm) : State :=
  let r := s.writeMem (keyKv d.stack d.frame (d.first * bpt f d.fmt)) d.rows.flatten
  if d.fmt = 2 then r.1.countSat Fld.kvaEngErr_nanBlocks m ((d.rows.map (nanBlocks f)).sum) else r.1

/-- Outputs a stored NaN reaches through one attention descriptor (R113): query rows counted from the start of the entry at position
`base`. -/
def State.nanHits (s : State) (d : PgDesc) (f : LayerForm) (base : Nat) : List (Nat × Nat × Option Nat) :=
  let n := f.hkvN * f.dhN
  let recs := ((List.range (d.lastRec + 1 - d.first)).map (· + d.first)).filterMap (fun r =>
    let b := s.bytesAt (keyKv d.stack d.frame (r * bpt f d.fmt)) (bpt f d.fmt)
    let t := d.tokenBase + r
    if recHasNaN f d.fmt b && (match d.only with
      | some l => l.contains t
      | none => true) then some (t, b) else none)
  recs.flatMap (fun p =>
    let elem := fun (v : Bool) (i : Nat) => fIsNaN (keyElem f d.fmt
      (match d.fmt with
        | 0 => if v then p.2.drop (2 * n) else p.2
        | 1 => if v then p.2.drop n else p.2
        | _ =>
          let nb := (n + 31) / 32
          if v then takeAt p.2 (16 * nb) (16 * nb) ++ List.replicate (16 * nb) 0 ++ takeAt p.2 (34 * nb) (2 * nb) else p.2) i)
    ((List.range d.qcount).filter (fun r => visible f (d.qpos + r) p.1)).flatMap (fun r =>
      (List.range f.hqN).flatMap (fun h =>
        let g := f.kvHead h
        let row := d.qpos + r - base
        (if (List.range f.dhN).any (fun i => elem false (g * f.dhN + i)) then [(row, h, none)] else []) ++
        ((List.range f.dhN).filter (fun i => elem true (g * f.dhN + i))).map (fun i => (row, h, some i)))))

/-- The state update of a recurrent head: the committed copy is read and the other one written (R102); its values are free (R112). -/
def State.updateHead (s : State) (d : PgDesc) (f : LayerForm) (x : Session) : State :=
  let n := 4 * f.dhN * f.dvN
  let off := if (x.layer d.layer).activeB then 0 else n
  let s' := (x.headParts d.layer d.first off n).foldl (fun (s : State) p =>
    (s.writeMem p.1 ((List.range p.2).map (fun k => Config.freeByte s.freeCtr k))).1.bump) s
  s'

/-- The position of an entry's first query row, as its step holds it. -/
def State.entryBase (s : State) (y : MergeSlot) (d : PgDesc) : Nat :=
  match (s.kva.ops.look y.attn).bind (fun o => o.entries[y.entry]?), s.sess d.sess with
  | some e, some x => (x.layer d.layer).kvWritten - e.kvlen
  | _, _ => d.qpos

/-- A merge slot is done: its entry has one part less to wait for. -/
def State.slotDone (s : State) (n : Nat) : State :=
  match s.kva.merges.look n with
  | none => s
  | some y =>
    let s := s.onKva (fun k => { k with merges := k.merges.del n })
    if y.digest.isSome then s
    else
      let s := s.updAttn y.attn (fun o => o.updEntry y.entry (fun e => { e with left := e.left - 1 }))
      (s.closeEntry y.attn y.entry).progress y.attn

/-- A slot whose parts the stacks finish without a partial: writes, digest scores and recurrent rows of a KVU. -/
def State.slotImmediate (s : State) (d : PgDesc) (y : MergeSlot) : Bool :=
  decide (d.op = 2) || decide (d.op = 3) ||
  (match s.kva.ops.look y.attn with
    | some o => o.kvu && y.digest.isNone
    | none => false)

/-- What a descriptor does on its tile. -/
def State.runDesc (s : State) (m : Nat) (d : PgDesc) : State :=
  let slot := s.kva.merges.look d.pslot
  let dead := match slot.bind (fun y => if y.digest.isSome then none else (s.kva.ops.look y.attn).bind (fun o => o.entries[y.entry]?)) with
    | some e => e.status.isSome
    | none => false
  match slot, s.sess d.sess with
  | some y, some x =>
    match s.formOf x d.layer with
    | none => s
    | some f =>
      if dead || !(x.pages.any (fun q => decide (q.stack = d.stack) && decide (q.frame = d.frame))) then s
      else
        let ps := s.descParts d f x
        let r := s.readParts ps
        match r.2 with
        | some (st, cw) => r.1.attnFail m d slot st cw
        | none =>
          let s := r.1.count .kvaEngBytes m (if d.op = 3 then 0 else (ps.map (·.2)).sum)
          let e := s.engine m
          let e := { e with flop := e.flop + descFlop d f }
          let s := (s.setEngine m e).wr .kvaEngFlop m (BitVec.ofNat 64 (e.flop / 2 ^ 20))
          match d.op with
          | 1 =>
            let hits := s.nanHits d f (s.entryBase y d)
            if hits.isEmpty && !d.nanQ then s
            else
              let s := (s.countSat Fld.kvaEngErr_nanOut m 1).raise Evt.kva_nanSeen
              s.updAttn y.attn (fun o => o.updEntry y.entry (fun e => { e with nans := e.nans ++ hits }))
          | 3 => s.writeRecords m d f
          | 4 => s.updateHead d f x
          | _ => s
  | _, _ => s

/-- An UNCORRECTABLE in staging or scratch SRAM (R115): the entry the descriptor serves ends with UNCORRECTABLE and no rows, and its session leaves
the step; its KV is intact. A digest under way is not written. -/
def State.sramFail (s : State) (d : PgDesc) : State :=
  match s.kva.merges.look d.pslot with
  | none => s
  | some y =>
    if y.digest.isSome then s.onKva (fun k => { k with merges := k.merges.del d.pslot })
    else
      match s.kva.ops.look y.attn with
      | none => s
      | some o =>
        match o.entries[y.entry]? with
        | none => s
        | some e =>
          if e.status.isSome then s
          else
            (s.updAttn y.attn (fun o => o.updEntry y.entry (fun e => { e with status := some Status.uncorrectable.code }))).displace o.step e.slot o.layer
              Status.uncorrectable.code

/-- `ENGINE_DESCRIPTOR_EXEC`: the engine of stack `m` runs the descriptor in front of its queue (R97, R98). A tile fault, or an UNCORRECTABLE in
the engine control region, stops the whole engine (R98, R115); the stack then goes offline by its own command. -/
def execEngineDescriptorExec (m : Nat) (meets : EngineMeets) (s : State) : Ans :=
  .next (if s.frz.frozen || !(s.stackUp m) || s.fld Fld.kvaEngStatus_state m = 2 then s else
    match (s.engine m).queue with
    | [] => s
    | d :: rest =>
      if meets = .tileFault || meets = .controlError then (s.setFld Fld.kvaEngStatus_state m 2).raise Evt.kva_engineFault
      else
        let s := (s.bankFor m d.ctx).count .kvaEngDesc m 1
        let s := s.setEngine m { s.engine m with queue := rest }
        let s := if meets = .sramError then s.sramFail d else s.runDesc m d
        match s.kva.merges.look d.pslot with
        | none => s
        | some y => if d.last && s.slotImmediate d y then s.slotDone d.pslot else s)

/-- The digest of a completed block is written, and DIGESTED counts the block (R101). -/
def State.writeDigest (s : State) (i gen layer blk : Nat) : State :=
  match s.sess i with
  | none => s
  | some x =>
    match s.formOf x layer with
    | none => s
    | some f =>
      let n := max 1 (tpp f x.kvFmt)
      let recs := (List.range 64).filterMap (fun r =>
        let t := 64 * blk + r
        (x.page 0 layer (t / n)).map (fun q => s.bytesAt (q.key + t % n * bpt f x.kvFmt) (bpt f x.kvFmt)))
      match x.page 1 layer (blk / digestsPerPage f) with
      | some q =>
        if x.gen = gen && recs.length = 64 then
          let s := (s.writeMem (q.key + blk % digestsPerPage f * digestBytes f) (digestOf f x.kvFmt recs)).1
          s.updSession i (fun x => { x with layers := x.layers.put layer { x.layer layer with digested := (x.layer layer).digested + 1 } })
        else s
      | none => s

/-- `PARTIAL_MERGE`: the partial of stack `m` reaches the merge slot once the stack has folded its last descriptor; at the registered count
the output is written (R99), or the digest of the block (R101). -/
def execPartialMerge (pslot stack : Nat) (s : State) : Ans :=
  .next (if s.frz.frozen then s else
    match s.kva.merges.look pslot with
    | none => s
    | some y =>
      if !(y.expect.contains stack) || y.arrived.contains stack || (s.engine stack).queue.any (fun d => decide (d.pslot = pslot)) then s
      else
        let y := { y with arrived := stack :: y.arrived }
        let s := s.onKva (fun k => { k with merges := k.merges.put pslot y })
        if y.arrived.length < y.expect.length then s
        else
          let s := match y.digest with
            | some (i, gen, l, b) => s.writeDigest i gen l b
            | none => s
          s.slotDone pslot)

/-- `ATR_SUPPLEMENT`: sessions held at the layer are served once it is resident, or end with the status their session left them; when each
has its final status the supplement goes (R82, R106). -/
def execAtrSupplement (op : Nat) (s : State) : Ans :=
  .next (if s.frz.frozen then s else
    match s.kva.ops.look op with
    | none => s
    | some o =>
      let s := (List.range o.entries.length).foldl (fun (s : State) k =>
        match o.entries[k]? with
        | none => s
        | some e =>
          if !e.held || e.walked || e.status.isSome then s
          else
            match e.sess.bind (fun i => (s.sess i).map (fun x => (i, x))) with
            | none => s.updAttn op (fun o => o.updEntry k (fun e => { e with status := some 0x00F0 }))
            | some (i, x) =>
              if x.st = .active || x.st = .reviving then
                if x.st = .active || (x.layer o.layer).resident then
                  ((s.updSession i (fun x => { x with heldSince := none })).walkEntry op k).closeEntry op k
                else s
              else (s.updAttn op (fun o => o.updEntry k (fun e => { e with status := some 0x00F0 }))).displace o.step e.slot o.layer 0x00F0) s
      s.progress op)

/-- `REVIVE_HOLD_EXPIRY`: HOLD_US passes with the held layer not resident, and the session is displaced with PREEMPTED (R82). -/
def execReviveHoldExpiry (i : Nat) (s : State) : Ans :=
  .next (if s.frz.frozen then s else
    match s.sess i with
    | none => s
    | some x =>
      match x.heldSince with
      | none => s
      | some (l, t) =>
        if (x.layer l).resident || s.now < t + min 1000 (s.fld Fld.ssnReviveCfg_holdUs) * 1000 then s
        else
          let s := s.updSession i (fun y => { y with heldSince := none, lateLayer := some l })
          let mine := s.kva.ops.rows.flatMap (fun r => ((List.range r.2.entries.length).filter (fun k => match r.2.entries[k]? with
            | some e => decide (e.sess = some i) && e.held && e.status.isNone
            | none => false)).map (fun k => (r.1, k, r.2)))
          let s := mine.foldl (fun (s : State) p =>
            match p.2.2.entries[p.2.1]? with
            | none => s
            | some e =>
              let s := s.updAttn p.1 (fun o => o.updEntry p.2.1 (fun e => { e with status := some 0x0070 }))
              s.displace p.2.2.step e.slot l 0x0070) s
          s.raise Evt.ssn_revivePreempt)

/-! ### ATTN.MERGE (R216) -/

/-- Two partials combined (R99): exp of 0 is 1, exp of −∞ is 0, and the rest is the spec's exp without given bits. -/
def mergeRecord (dh : Nat) (a b : List Byte) : List Byte :=
  let ma := f32At a 0
  let mb := f32At b 0
  let m := if fIsNaN ma || fIsNaN mb then fNaN else fMax ma mb
  let w := fun (x : F32) => if x = fInf true then (0 : F32) else if x = m then fOne else Config.expF (fSub x m)
  let wa := w ma
  let wb := w mb
  let mix := fun (i : Nat) => fAdd (fMul (f32At a i) wa) (fMul (f32At b i) wb)
  f32Le m ++ (List.range (dh + 1)).flatMap (fun i => f32Le (mix (i + 1)))

/-- O ÷ L of a record in BF16; zeros for an empty partial. -/
def finalRow (dh : Nat) (r : List Byte) : List Byte :=
  let l := f32At r 1
  (List.range dh).flatMap (fun i => natLe 2 (if fIsZero l then (0 : BitVec 16) else bf16Of (fDiv (f32At r (i + 2)) l)).toNat)

/-- ATTN.MERGE (R216). -/
def doAttnMerge (o : Op) (s : State) : State :=
  let d := o.ix.desc
  let n := dbits d 192 32
  let dh := 16 * (dbits d 224 4 + 1)
  let fin := dbits d 228 1 = 1
  let rec_ := 8 + 4 * dh
  let out := n * (if fin then 2 * dh else rec_)
  if dbits d 229 283 ≠ 0 || n = 0 || 16777216 < n || !(s.opMapped o (dbits d 0 64) (n * rec_)) || !(s.opMapped o (dbits d 64 64) (n * rec_)) ||
      !(s.opMapped o (dbits d 128 64) out) then s.deny o 2
  else
    s.opRead o (dbits d 0 64) (n * rec_) (fun a s =>
      s.opRead o (dbits d 64 64) (n * rec_) (fun b s =>
        let recs := (List.range n).map (fun i => mergeRecord dh (takeAt a (i * rec_) rec_) (takeAt b (i * rec_) rec_))
        s.opWrite o (dbits d 128 64) (if fin then recs.flatMap (finalRow dh) else recs.flatten) (fun s => s.finish o .ok n 0)))

/-- `ATTN_MERGE`. -/
def execAttnMerge (c : Nat) (s : State) : Ans :=
  .next (s.onWord c (isSub 0x21 0) (fun ix => s.issueLong ix .attnMerge [] doAttnMerge))

end Sys2Proof.Machine
end

