-- ==== Sys2Proof/Machine/TxtTab.lean ====
section
/-! DEFINITION. Text tables and what they compute: UTF-8, the Mint's pre-split and encoding, the Clearing's masks and walks (R147 to
R159). -/

namespace Sys2Proof.Machine

/-! ### UTF-8 (R150) -/

/-- What the front of a byte list is: a code point with its length, the maximal subpart of an invalid sequence, or a proper prefix of a
well-formed sequence that the list ends in. -/
inductive Utf8
  | code (cp len : Nat) | bad (len : Nat) | cut (len : Nat)
  deriving DecidableEq, Repr

/-- Continuation bytes after a lead byte, with the range of the first of them; `none` for a byte that leads nothing. -/
def utf8Lead (b : Nat) : Option (Nat × Nat × Nat) :=
  if b < 0x80 then some (0, 0, 0)
  else if 0xC2 ≤ b && b ≤ 0xDF then some (1, 0x80, 0xBF)
  else if b = 0xE0 then some (2, 0xA0, 0xBF)
  else if b = 0xED then some (2, 0x80, 0x9F)
  else if 0xE1 ≤ b && b ≤ 0xEF then some (2, 0x80, 0xBF)
  else if b = 0xF0 then some (3, 0x90, 0xBF)
  else if b = 0xF4 then some (3, 0x80, 0x8F)
  else if 0xF1 ≤ b && b ≤ 0xF3 then some (3, 0x80, 0xBF)
  else none

/-- Continuation bytes present, at most `n`, the first in a range. -/
def utf8Tail : Nat → Nat → Nat → List Byte → Nat
  | 0, _, _, _ => 0
  | _, _, _, [] => 0
  | n + 1, lo, hi, b :: bs => if lo ≤ b.toNat && b.toNat ≤ hi then 1 + utf8Tail n 0x80 0xBF bs else 0

/-- The front of a list. -/
def utf8Front (bs : List Byte) : Utf8 :=
  match bs with
  | [] => .cut 0
  | b :: rest =>
    match utf8Lead b.toNat with
    | none => .bad 1
    | some (n, lo, hi) =>
      let k := utf8Tail n lo hi rest
      if k = n then
        let lead := if n = 0 then b.toNat else if n = 1 then b.toNat % 32 else if n = 2 then b.toNat % 16 else b.toNat % 8
        .code ((rest.take n).foldl (fun a c => a * 64 + c.toNat % 64) lead) (n + 1)
      else if rest.length = k then .cut (k + 1)
      else .bad (k + 1)

/-- A piece of text: a code point with its bytes, or the bytes of an invalid subpart. -/
inductive Chr
  | ok (cp : Nat) (bs : List Byte) | bad (bs : List Byte)
  deriving DecidableEq, Repr

/-- Split bytes into characters and invalid subparts, with the incomplete end. -/
def utf8Split : Nat → List Byte → List Chr × List Byte
  | 0, bs => ([], bs)
  | fuel + 1, bs =>
    match bs with
    | [] => ([], [])
    | _ =>
      match utf8Front bs with
      | .cut n => ([], bs.take n)
      | .bad n => let r := utf8Split fuel (bs.drop n); (.bad (bs.take n) :: r.1, r.2)
      | .code cp n => let r := utf8Split fuel (bs.drop n); (.ok cp (bs.take n) :: r.1, r.2)

/-- U+FFFD in UTF-8. -/
def fffd : List Byte := [0xEF, 0xBF, 0xBD]

/-- Bytes assembled into valid UTF-8, each invalid subpart one U+FFFD, with the pending end (R168). -/
def utf8Fix (bs : List Byte) : List Byte × List Byte :=
  let r := utf8Split (bs.length + 1) bs
  (r.1.flatMap (fun c => match c with
    | .ok _ b => b
    | .bad _ => fffd), r.2)

/-- A list of bytes is valid UTF-8. -/
def utf8Valid (bs : List Byte) : Bool :=
  let r := utf8Split (bs.length + 1) bs
  r.2.isEmpty && r.1.all (fun c => match c with
    | .ok _ _ => true
    | .bad _ => false)

/-! ### The Mint table (R147) -/

/-- VOCAB_SIZE of a table of either kind. -/
def Table.vocabSize (t : Table) : Nat := leAt t.data 0x0C 4
/-- FLAGS bit `i`. -/
def Table.flag (t : Table) (i : Nat) : Bool := bit (leAt t.data 0x0B 1) i
/-- A 20-bit token field of the header; `none` where it holds 0xF_FFFF. -/
def Table.hdrTok (t : Table) (o : Nat) : Option Nat := let v := leAt t.data o 4 % 2 ^ 20; if v = 0xFFFFF then none else some v
/-- END_ID. -/
def Table.endId (t : Table) : Option Nat := t.hdrTok 0x1C
/-- UNK_ID. -/
def Table.unkId (t : Table) : Option Nat := t.hdrTok 0x20
/-- TRUNC_ID. -/
def Table.truncId (t : Table) : Option Nat := t.hdrTok 0x24
/-- BYTE_BASE, where there are byte tokens. -/
def Table.byteBase (t : Table) : Option Nat := if t.flag 2 then some (leAt t.data 0x18 4 % 2 ^ 20) else none
/-- A section's offset: 0 tokens, 1 pool, 2 hash, 3 merges, 4 rules, 5 categories, 6 specials. -/
def Table.sec (t : Table) (k : Nat) : Nat := leAt t.data (0x40 + 8 * k) 8
/-- The entry of a token; zero past the vocabulary. -/
def Table.tok (t : Table) (i : Nat) : Nat := if i < t.vocabSize then leAt t.data (t.sec 0 + 8 * i) 8 else 0
/-- The bytes of a token. -/
def Table.tokBytes (t : Table) (i : Nat) : List Byte := takeAt t.data (t.sec 1 + bits (t.tok i) 0 32) (bits (t.tok i) 32 8)
/-- SPECIAL of a token. -/
def Table.isSpecial (t : Table) (i : Nat) : Bool := bit (t.tok i) 40

/-- 64-bit FNV-1a. -/
def fnv1a (bs : List Byte) : Nat := bs.foldl (fun h b => ((h ^^^ b.toNat) * 0x100000001B3) % 2 ^ 64) 0xCBF29CE484222325

/-- The token of a byte string in the token hash. -/
def Table.lookTok (t : Table) (bs : List Byte) : Option Nat :=
  let h := fnv1a bs
  let n := 2 ^ leAt t.data 0x29 1
  (List.range (leAt t.data 0x2A 1)).findSome? (fun k =>
    let w := leAt t.data (t.sec 2 + 8 * ((h + k) % n)) 8
    if bit w 20 && decide (bits w 32 32 = bits h 32 32) && decide (t.tokBytes (bits w 0 20) = bs) then some (bits w 0 20) else none)

/-- The merge of a pair: rank and result. -/
def Table.lookMerge (t : Table) (l r : Nat) : Option (Nat × Nat) :=
  let lg := leAt t.data 0x2B 1
  let key := ((l * 2 ^ 20 + r) * 0x9E3779B97F4A7C15) % 2 ^ 64
  if lg = 0 then none
  else (List.range (leAt t.data 0x2C 1)).findSome? (fun k =>
    let o := t.sec 3 + 16 * ((key / 2 ^ (64 - lg) + k) % 2 ^ lg)
    let w := leAt t.data o 8
    let v := leAt t.data (o + 8) 8
    if bit w 40 && decide (bits w 0 20 = l) && decide (bits w 20 20 = r) then some (bits v 20 32, bits v 0 20) else none)

/-- The category code of a code point. -/
def Table.cat (t : Table) (cp : Nat) : Nat :=
  let b := leAt t.data (t.sec 5 + 2 * (cp / 256)) 2
  leAt t.data (t.sec 5 + 8704 + 256 * b + cp % 256) 1 % 32

/-! ### Pre-split (R151) -/

/-- A text element: a code point to be matched with its bytes; `rep`: it stands for an invalid subpart. -/
structure TxChr where
  cp : Nat
  bs : List Byte
  rep : Bool
  deriving DecidableEq, Repr

/-- A code point is in a category mask; a replaced subpart has category So. -/
def Table.inCats (t : Table) (mask : Nat) (c : TxChr) : Bool :=
  bit mask (if c.rep then 21 else t.cat c.cp) || (bit mask 30 && (decide (c.cp = 0x0A) || decide (c.cp = 0x0D)))

/-- A rule at the front of a text: how many elements its piece takes. -/
def Table.ruleAt (t : Table) (k : Nat) (cs : List TxChr) : Option Nat :=
  let w0 := leAt t.data (t.sec 4 + 16 * k) 8
  let w1 := leAt t.data (t.sec 4 + 16 * k + 8) 8
  let run := fun (l : List TxChr) => (l.takeWhile (t.inCats (bits w1 0 32))).length
  let mn := bits w1 32 8
  let mx := bits w1 40 8
  match cs with
  | [] => none
  | c :: rest =>
    let lead := t.inCats (bits w0 0 32) c || decide (c.cp = bits w0 32 21)
    if lead && decide (mn ≤ run rest) then some (1 + min mx (run rest))
    else if !(bit w0 53) && decide (mn ≤ run cs) then some (min mx (run cs))
    else none

/-- A text cut into pieces. -/
def Table.presplit (t : Table) : Nat → List TxChr → List (List TxChr)
  | 0, _ => []
  | fuel + 1, cs =>
    match cs with
    | [] => []
    | _ =>
      let nr := leAt t.data 0x2D 1
      if nr = 0 then [cs]
      else
        let n := max 1 (((List.range nr).findSome? (fun k => t.ruleAt k cs)).getD 1)
        cs.take n :: t.presplit fuel (cs.drop n)

/-! ### Encoding a piece (R152) -/

/-- The adjacent pair of lowest rank, the leftmost among equals: its place and result. -/
def Table.bestPair (t : Table) (l : List Nat) : Option (Nat × Nat) :=
  ((List.range (l.length - 1)).foldl (fun (a : Option (Nat × Nat × Nat)) i =>
    match t.lookMerge (l.getD i 0) (l.getD (i + 1) 0) with
    | none => a
    | some (r, v) => match a with
      | some (q, _, _) => if r < q then some (r, i, v) else a
      | none => some (r, i, v)) none).map (fun x => (x.2.1, x.2.2))

/-- Merge until no pair has an entry. -/
def Table.mergeAll (t : Table) : Nat → List Nat → List Nat
  | 0, l => l
  | fuel + 1, l =>
    match t.bestPair l with
    | none => l
    | some (i, v) => t.mergeAll fuel (l.take i ++ v :: l.drop (i + 2))

/-- The token of one byte alone: from the hash, its byte token, or UNK_ID. -/
def Table.byteTok (t : Table) (b : Byte) : Nat :=
  match t.lookTok [b], t.byteBase with
  | some v, _ => v
  | none, some base => base + b.toNat
  | none, none => t.unkId.getD 0

/-- Greedy longest match over a piece. -/
def Table.greedy (t : Table) : Nat → List Byte → List Nat
  | 0, _ => []
  | fuel + 1, bs =>
    match bs with
    | [] => []
    | b :: rest =>
      let mx := min (leAt t.data 0x28 1) bs.length
      match (List.range mx).findSome? (fun k => (t.lookTok (bs.take (mx - k))).map (fun v => (v, mx - k))) with
      | some (v, n) => v :: t.greedy fuel (bs.drop n)
      | none =>
        match t.byteBase with
        | some base => (base + b.toNat) :: t.greedy fuel rest
        | none =>
          let n := match utf8Front bs with
            | .code _ n => n
            | .bad n => n
            | .cut n => max 1 n
          (t.unkId.getD 0) :: t.greedy fuel (bs.drop n)

/-- The tokens of one piece. -/
def Table.encodePiece (t : Table) (p : List TxChr) : List Nat :=
  let bs := p.flatMap (·.bs)
  if t.flag 0 then
    match (if t.flag 1 then t.lookTok bs else none) with
    | some v => [v]
    | none => t.mergeAll bs.length (bs.map t.byteTok)
  else t.greedy (bs.length + 1) bs

/-! ### The whole call (R149 to R152) -/

/-- What stands in a text to be encoded: text, a special token, or a byte token. -/
inductive Seg
  | text (c : TxChr) | token (v : Nat)
  deriving DecidableEq, Repr

/-- The longest special token whose bytes the characters begin with: the token and its characters. -/
def Table.special (t : Table) (cs : List Chr) : Option (Nat × Nat) :=
  let text := (cs.takeWhile (fun c => match c with
    | .ok _ _ => true
    | .bad _ => false)).map (fun c => match c with
    | .ok _ b => b
    | .bad b => b)
  ((List.range (leAt t.data 0x2E 2)).map (fun k => leAt t.data (t.sec 6 + 4 * k) 4 % 2 ^ 20)).foldl
    (fun (a : Option (Nat × Nat)) v =>
      let b := t.tokBytes v
      match (List.range (text.length + 1)).find? (fun n => decide ((text.take n).flatten = b)) with
      | some n => if n = 0 then a else match a with
        | some (_, m) => if m < n then some (v, n) else a
        | none => some (v, n)
      | none => a) none

/-- Characters to segments: invalid subparts under the policy, special tokens where they are allowed. -/
def Table.segments (t : Table) (u8 allow : Bool) : Nat → List Chr → List Seg
  | 0, _ => []
  | fuel + 1, cs =>
    match cs with
    | [] => []
    | c :: rest =>
      match (if allow then t.special cs else none) with
      | some (v, n) => .token v :: t.segments u8 allow fuel (cs.drop n)
      | none =>
        match c with
        | .ok cp b => .text ⟨cp, b, false⟩ :: t.segments u8 allow fuel rest
        | .bad b =>
          if u8 then .text ⟨0xFFFD, fffd, true⟩ :: t.segments u8 allow fuel rest
          else b.map (fun x => Seg.token ((t.byteBase.getD 0) + x.toNat)) ++ t.segments u8 allow fuel rest

/-- Segments to tokens: runs of text are pre-split and encoded. -/
def Table.tokens (t : Table) (segs : List Seg) : List Nat :=
  let fin := fun (run : List TxChr) => (t.presplit (run.length + 1) run).flatMap t.encodePiece
  let r := segs.foldl (fun (a : List Nat × List TxChr) g => match g with
    | .text c => (a.1, a.2 ++ [c])
    | .token v => (a.1 ++ fin a.2 ++ [v], [])) ([], [])
  r.1 ++ fin r.2

/-! ### The Clearing table (R156 to R159) -/

/-- A section of a Clearing table: 0 transitions, 1 states, 2 masks, 3 data. -/
def Table.csec (t : Table) (k : Nat) : Nat := leAt t.data (0x38 + 8 * k) 8
/-- NCLASSES. -/
def Table.nclasses (t : Table) : Nat := leAt t.data 0x28 2
/-- START. -/
def Table.start (t : Table) : Nat := leAt t.data 0x2A 2
/-- The state record of a state. -/
def Table.stateWord (t : Table) (q : Nat) : Nat := leAt t.data (t.csec 1 + 8 * q) 8
/-- ACCEPT of a state. -/
def Table.accept (t : Table) (q : Nat) : Bool := bit (t.stateWord q) 16
/-- FINAL of a state. -/
def Table.final (t : Table) (q : Nat) : Bool := bit (t.stateWord q) 17

/-- The transition of a state on a byte. -/
def Table.trans (t : Table) (q : Nat) (b : Byte) : Nat :=
  leAt t.data (t.csec 0 + 8 * (q * t.nclasses + leAt t.data (0x100 + b.toNat) 1)) 8

/-- A configuration after a byte: frames with the top first; `none` for a reject, a pop of the last frame, or a 257th frame (R158, R159). -/
def Table.stepByte (t : Table) (fr : List Nat) (b : Byte) : Option (List Nat) :=
  match fr with
  | [] => none
  | q :: below =>
    let w := t.trans q b
    match bits w 32 2 with
    | 0 => none
    | 1 => some (bits w 0 16 :: below)
    | 2 => if 256 ≤ fr.length then none else some (bits w 0 16 :: bits w 16 16 :: below)
    | _ => if below.isEmpty then none else some below

/-- A configuration after a byte string. -/
def Table.walk (t : Table) (fr : List Nat) (bs : List Byte) : Option (List Nat) :=
  bs.foldl (fun a b => a.bind (fun f => t.stepByte f b)) (some fr)

/-- A state's bitmap allows a token. -/
def Table.bitmap (t : Table) (q v : Nat) : Bool :=
  let m := t.csec 2 + 16 * (bits (t.stateWord q) 0 16)
  let base := t.csec 3 + leAt t.data m 8 % 2 ^ 40
  let code := fun (c : Nat) => bits (leAt t.data (base + 8 * (c / 32)) 8) (2 * (c % 32)) 2
  let c := v / 1024
  let words := ((t.vocabSize + 1023) / 1024 + 31) / 32
  match code c with
  | 1 => true
  | 2 =>
    let before := ((List.range c).filter (fun k => decide (code k = 2))).length
    bit (leAt t.data (base + 8 * words + 128 * before + v % 1024 / 8) 1) (v % 8)
  | _ => false

/-- The context-dependent list of a state. -/
def Table.cdList (t : Table) (q : Nat) : List Nat :=
  let m := t.csec 2 + 16 * (bits (t.stateWord q) 0 16)
  let w := leAt t.data (m + 8) 8
  (List.range (bits w 40 13)).map (fun k => leAt t.data (t.csec 3 + w % 2 ^ 40 + 4 * k) 4)

/-- Token `v` is in the mask of a configuration (R158). -/
def Table.allows (g voc : Table) (fr : List Nat) (v : Nat) : Bool :=
  match fr with
  | [] => false
  | q :: _ =>
    decide (v < voc.vocabSize) &&
    (g.bitmap q v || ((g.cdList q).contains v && (g.walk fr (voc.tokBytes v)).isSome) ||
      (decide (voc.endId = some v) && g.accept q && decide (fr.length = 1)))

/-! ### Loading (R146) -/

/-- A Mint table by its MAGIC. -/
def isMint (bs : List Byte) : Bool := decide (takeAt bs 0 8 = [0x4B, 0x56, 0x4F, 0x43, 0x41, 0x42, 0, 0])
/-- A Clearing table by its MAGIC. -/
def isClear (bs : List Byte) : Bool := decide (takeAt bs 0 8 = [0x4B, 0x43, 0x4C, 0x45, 0x41, 0x52, 0, 0])

/-- Every byte of a range is zero. -/
def zeroAt (bs : List Byte) (o n : Nat) : Bool := (takeAt bs o n).all (fun b => decide (b = 0))

/-- Check 2 of a Mint table: version and reserved fields. -/
def mintHeader (bs : List Byte) : Bool :=
  decide (leAt bs 8 2 = 1) && decide (leAt bs 0x0A 1 < 64) && decide (leAt bs 0x0B 1 < 16) &&
  [0x18, 0x1C, 0x20, 0x24].all (fun o => decide (leAt bs o 4 < 2 ^ 20)) && decide (leAt bs 0x30 4 < 2 ^ 21) && decide (leAt bs 0x34 4 < 2 ^ 24) &&
  zeroAt bs 0x78 72

/-- Check 2 of a Clearing table. -/
def clearHeader (bs : List Byte) : Bool :=
  decide (leAt bs 8 2 = 1) && decide (leAt bs 0x0A 1 < 64) && decide (leAt bs 0x0B 1 < 2) && zeroAt bs 0x58 104

/-- Check 5 of a Mint table: counts, offsets and indices. -/
def Table.mintOk (t : Table) : Bool :=
  let n := t.data.length
  let v := t.vocabSize
  let fits := fun (k len : Nat) => decide (t.sec k % 64 = 0) && decide (0x100 ≤ t.sec k) && decide (t.sec k + len ≤ n)
  let hs := 2 ^ leAt t.data 0x29 1
  let ml := leAt t.data 0x2B 1
  let nr := leAt t.data 0x2D 1
  let ns := leAt t.data 0x2E 2
  let tokOk := fun (x : Option Nat) => match x with
    | some i => decide (i < v)
    | none => true
  decide (1 ≤ v) && decide (v ≤ 1048576) && decide (1 ≤ leAt t.data 0x28 1) && decide (1 ≤ leAt t.data 0x29 1) && decide (leAt t.data 0x29 1 ≤ 22) &&
  decide (1 ≤ leAt t.data 0x2A 1) && decide (leAt t.data 0x2A 1 ≤ 64) &&
  (if t.flag 0 then decide (1 ≤ ml) && decide (ml ≤ 22) else decide (ml = 0)) && decide (leAt t.data 0x2C 1 ≤ 64) && decide (nr ≤ 32) &&
  decide (ns ≤ 4096) && tokOk t.endId && tokOk t.unkId && tokOk t.truncId &&
  (match t.byteBase with
    | some b => decide (b + 256 ≤ v)
    | none => true) &&
  fits 0 (8 * v) && fits 1 0 && fits 2 (8 * hs) && (ml = 0 || fits 3 (16 * 2 ^ ml)) && fits 4 (16 * nr) && fits 5 8704 && fits 6 (4 * ns) &&
  (List.range v).all (fun i => decide (bits (t.tok i) 32 8 ≤ leAt t.data 0x28 1) && (bits (t.tok i) 32 8 != 0 || t.isSpecial i) &&
    decide (t.sec 1 + bits (t.tok i) 0 32 + bits (t.tok i) 32 8 ≤ n)) &&
  (List.range hs).all (fun k => let w := leAt t.data (t.sec 2 + 8 * k) 8; !(bit w 20) || decide (bits w 0 20 < v)) &&
  (ml = 0 || (List.range (2 ^ ml)).all (fun k =>
    let w := leAt t.data (t.sec 3 + 16 * k) 8
    !(bit w 40) || (decide (bits w 0 20 < v) && decide (bits w 20 20 < v) && decide (leAt t.data (t.sec 3 + 16 * k + 8) 8 % 2 ^ 20 < v)))) &&
  (List.range nr).all (fun k => let w := leAt t.data (t.sec 4 + 16 * k + 8) 8; decide (1 ≤ bits w 32 8) && decide (bits w 32 8 ≤ bits w 40 8)) &&
  (List.range 4352).all (fun k => decide (t.sec 5 + 8704 + 256 * (leAt t.data (t.sec 5 + 2 * k) 2 + 1) ≤ n)) &&
  (List.range ns).all (fun k => decide (leAt t.data (t.sec 6 + 4 * k) 4 < v))

/-- Check 5 of a Clearing table, without its vocabulary. -/
def Table.clearOk (t : Table) : Bool :=
  let n := t.data.length
  let v := t.vocabSize
  let q := leAt t.data 0x20 4
  let m := leAt t.data 0x24 4
  let nc := t.nclasses
  let fits := fun (k len : Nat) => decide (0x200 ≤ t.csec k) && decide (t.csec k + len ≤ n)
  let nchunk := (v + 1023) / 1024
  decide (1 ≤ v) && decide (v ≤ 1048576) && decide (1 ≤ q) && decide (q ≤ 65536) && decide (1 ≤ m) && decide (m ≤ 65536) && decide (1 ≤ nc) &&
  decide (nc ≤ 256) && decide (t.start < q) && fits 0 (8 * q * nc) && fits 1 (8 * q) && fits 2 (16 * m) && fits 3 0 &&
  (List.range 256).all (fun b => decide (leAt t.data (0x100 + b) 1 < nc)) &&
  (List.range (q * nc)).all (fun k =>
    let w := leAt t.data (t.csec 0 + 8 * k) 8
    decide (bits w 0 16 < q) && decide (bits w 16 16 < q) && (t.flag 0 || decide (bits w 32 2 ≤ 1))) &&
  (List.range q).all (fun k => decide (bits (t.stateWord k) 0 16 < m)) &&
  (List.range m).all (fun k =>
    let o := t.csec 3 + leAt t.data (t.csec 2 + 16 * k) 8 % 2 ^ 40
    let w := leAt t.data (t.csec 2 + 16 * k + 8) 8
    let code := fun (c : Nat) => bits (leAt t.data (o + 8 * (c / 32)) 8) (2 * (c % 32)) 2
    let maps := ((List.range nchunk).filter (fun c => decide (code c = 2))).length
    decide (o + 8 * ((nchunk + 31) / 32) + 128 * maps ≤ n) && (List.range nchunk).all (fun c => decide (code c ≠ 3)) &&
    decide (bits w 40 13 ≤ 4096) && decide (t.csec 3 + w % 2 ^ 40 + 4 * bits w 40 13 ≤ n) &&
    (List.range (bits w 40 13)).all (fun i => decide (leAt t.data (t.csec 3 + w % 2 ^ 40 + 4 * i) 4 < v)))

end Sys2Proof.Machine
end

