-- ==== Sys2Proof/Machine/Txt.lean ====
section
/-! DEFINITION. The text path: loading tables, MINT, and the session's Clearing, sampler and Changer (R146 to R173, R218). -/

namespace Sys2Proof.Machine

/-! ### Tables of a session -/

/-- The vocabulary of a model. -/
def State.vocabOf (s : State) (m : Model) : Option Table := (tableNamed s.txt.vocabs m.vocab).map (·.2)

/-- The vocabulary of a session's model. -/
def State.vocabFor (s : State) (x : Session) : Option Table := (s.modelOf x).bind s.vocabOf

/-- The grammar a session is bound to. -/
def State.gramFor (s : State) (x : TextSt) : Option Table := x.grammar.bind s.txt.grams.look

/-- Token `v` is in the session's mask: every token where no grammar is bound (R157, R158). -/
def State.tokenOk (s : State) (voc : Table) (x : TextSt) (v : Nat) : Bool :=
  match s.gramFor x with
  | none => decide (v < voc.vocabSize)
  | some g => g.allows voc x.frames v

/-- The configuration word of R218. -/
def State.confWord (s : State) (x : TextSt) : Nat :=
  match s.gramFor x with
  | none => 0
  | some g =>
    let q := x.frames.headD 0
    q + x.frames.length * 2 ^ 16 + b2n (g.accept q) * 2 ^ 25 + b2n (g.final q) * 2 ^ 26

/-- A grammar is bound: one frame at START (R157). -/
def TextSt.bindGram (x : TextSt) (slot : Nat) (g : Table) : TextSt := { x with grammar := some slot, frames := [g.start] }

/-- What SUBMIT does to the text state (R161): the grammar returns to START at depth 1, and the Changer's state is cleared except the stop
strings and SHOW_SPECIAL; the DRBG is new (R166). -/
def State.freshText (s : State) (x : TextSt) (seed nonce : List Byte) : TextSt :=
  { x with
    frames := match s.gramFor x with
      | some g => [g.start]
      | none => x.frames
    pend := []
    dvec := x.stops.map (fun _ => 0)
    held := []
    stopped := false
    seed := seed
    nonce := nonce
    drbgPos := 0 }

/-! ### The count table (R163, R165) -/

/-- The home slot of a token. -/
def countSlot (v : Nat) : Nat := (v * 0x9E3779B1) % 2 ^ 32 / 2 ^ 21

/-- The slot that holds a token, or the free slot its probe ends at. -/
def countFind (t : Tbl Nat (Nat × Nat)) (v : Nat) : Option Nat :=
  (List.range 2048).findSome? (fun k =>
    let i := (countSlot v + k) % 2048
    match t.look i with
    | none => some i
    | some p => if p.1 = v then some i else none)

/-- COUNT of a token. -/
def countOf (t : Tbl Nat (Nat × Nat)) (v : Nat) : Nat :=
  match t.rows.find? (fun r => decide (r.2.1 = v)) with
  | some r => r.2.2
  | none => 0

/-- One more occurrence. -/
def countAdd (t : Tbl Nat (Nat × Nat)) (v : Nat) : Tbl Nat (Nat × Nat) :=
  match countFind t v with
  | none => t
  | some i => match t.look i with
    | some p => t.put i (v, p.2 + 1)
    | none => t.put i (v, 1)

/-- An emptied slot is closed by backward shift: `hole` is free, `j` is the next slot to look at. -/
def countShift : Nat → Tbl Nat (Nat × Nat) → Nat → Nat → Tbl Nat (Nat × Nat)
  | 0, t, _, _ => t
  | fuel + 1, t, hole, j =>
    match t.look j with
    | none => t
    | some p =>
      let home := countSlot p.1
      -- the entry may move into the hole when its home does not lie between the hole and the entry
      if (j + 2048 - home) % 2048 < (j + 2048 - hole) % 2048 then countShift fuel t hole ((j + 1) % 2048)
      else countShift fuel ((t.del j).put hole p) j ((j + 1) % 2048)

/-- One occurrence fewer. -/
def countSub (t : Tbl Nat (Nat × Nat)) (v : Nat) : Tbl Nat (Nat × Nat) :=
  match t.rows.find? (fun r => decide (r.2.1 = v)) with
  | none => t
  | some r => if 1 < r.2.2 then t.put r.1 (v, r.2.2 - 1) else countShift 2048 (t.del r.1) r.1 ((r.1 + 1) % 2048)

/-- Whether PEN_SCOPE counts a kind (Table 6-11). -/
def scopeCounts (scope kind : Nat) : Bool :=
  match scope with
  | 0 => decide (kind = 1)
  | 1 => decide (kind ≤ 1)
  | _ => true

/-- The tokens of the Passbook that the scope counts, oldest first. -/
def counted (x : TextSt) (pb : List PbEntry) : List Nat := (pb.filter (fun e => scopeCounts x.penScope e.kind)).map (·.token)

/-- The count table of a Passbook (R165). -/
def TextSt.recount (x : TextSt) (pb : List PbEntry) : TextSt :=
  let l := counted x pb
  { x with counts := (l.drop (l.length - x.penWindow)).foldl countAdd .empty }

/-- The text state rebuilt from the request parameters and the Passbook after its SCB was lost (R62, R388). The tables are lost with a reset, so no
grammar is bound; no request is open, so the DRBG and the Changer wait for the next SUBMIT (DEDUCED, log 150). -/
def TextSt.rebuilt (x : TextSt) (pb : List PbEntry) : TextSt :=
  { x with
    grammar := none
    frames := []
    seed := []
    nonce := []
    drbgPos := 0
    pend := []
    dvec := x.stops.map (fun _ => 0)
    held := []
    stopped := false }.recount pb

/-- The count table after an entry joins a Passbook `pb`: one more for it, one fewer for the entry that leaves the window (R165). -/
def TextSt.countEntry (x : TextSt) (pb : List PbEntry) (e : PbEntry) : TextSt :=
  if x.penWindow = 0 || !(scopeCounts x.penScope e.kind) then x
  else
    let l := counted x pb
    let c := if x.penWindow ≤ l.length then countSub x.counts (l.getD (l.length - x.penWindow) 0) else x.counts
    { x with counts := countAdd c e.token }

/-! ### The sampler (R162 to R167) -/

/-- What a sample gives: a token with the draws used and whether no finite logit stood; or none, where the mask is empty (R160). -/
structure Sample where
  token : Option Nat
  draws : Nat
  noFinite : Bool
  nans : Nat
  deriving DecidableEq, Repr

/-- z of token `v` after steps 1 to 3 of R164. -/
def TextSt.score (x : TextSt) (v : Nat) (logit : BitVec 16) : F32 :=
  let z := fOfBf16 logit
  let z := if fIsNaN z then fInf true else z
  let z := (x.bias.filter (fun b => decide (b.1 = v))).foldl (fun z b => fAdd z b.2) z
  let c := countOf x.counts v
  if c = 0 then z
  else
    let z := if fLt 0 z then fDiv z x.rep else fMul z x.rep
    fSub (fSub z (fMul x.freq (fOfNat c))) x.pres

/-- A token is drawn from a row of logits (R164, R167). With TEMP above 0 the choice lies among the TOP_K highest finite z: exp has no
given bits and the sums no given order, so it is free there (log 38). -/
def State.sample (s : State) (voc : Table) (x : TextSt) (row : List (BitVec 16)) : Sample :=
  let n := voc.vocabSize
  let zs := ((List.range n).filter (s.tokenOk voc x)).map (fun v => (v, x.score v (row.getD v 0)))
  let nans := ((row.take n).filter (fun b => fIsNaN (fOfBf16 b))).length
  match zs with
  | [] => ⟨none, 0, false, nans⟩
  | first :: _ =>
    if zs.all (fun p => !(fFinite p.2)) then ⟨some first.1, 0, true, nans⟩
    else if fIsZero x.temp then
      ⟨some (zs.foldl (fun (a : Nat × F32) p => if fLt a.2 p.2 then p else a) first).1, 0, false, nans⟩
    else
      let order := (zs.filter (fun p => decide (p.2 ≠ fInf true))).mergeSort (fun a b => !(fLt a.2 b.2))
      let cands := (order.take (if x.topK = 0 then 1024 else x.topK)).map (·.1)
      ⟨pickFree s.freeCtr cands, 1, false, nans⟩

/-- What a sample counts. -/
def State.countSample (s : State) (r : Sample) : State :=
  let s := if r.nans = 0 then s else (s.count .txtNanLogit 0 r.nans).raise Evt.txt_nanLogit
  let s := if r.noFinite then s.raise Evt.txt_noFinite else s
  if r.token.isSome then s.count .txtSampled 0 1 else s

/-! ### The Changer (R168 to R171) -/

/-- The bytes a generated token yields: none of the end token, a special one only with SHOW_SPECIAL. -/
def Table.yields (t : Table) (show_ : Bool) (v : Nat) : List Byte :=
  if t.endId = some v || (t.isSpecial v && !show_) then [] else t.tokBytes v

/-- The match vectors after a byte (R169). -/
def matchStep (stops : List (List Byte)) (d : List Word) (b : Byte) : List Word :=
  (List.range stops.length).map (fun i =>
    let st := stops.getD i []
    let e := BitVec.ofNat 64 (((List.range st.length).filter (fun j => decide (st.getD j 0 = b))).map (fun j => 2 ^ j)).sum
    ((d.getD i 0 <<< 1) ||| 1) &&& e)

/-- The longest stop string complete in the vectors: it starts earliest (R170). -/
def stopHit (stops : List (List Byte)) (d : List Word) : Option Nat :=
  (List.range stops.length).foldl (fun (a : Option Nat) i =>
    let n := (stops.getD i []).length
    if n ≠ 0 && (d.getD i 0).getLsbD (n - 1) then some (max n (a.getD 0)) else a) none

/-- The longest proper prefix of a stop string that the text ends in (R169). -/
def heldLen (d : List Word) : Nat := d.foldl (fun a v => max a (bitLen v.toNat)) 0

/-- Assembled bytes pass the matcher: vectors, unreleased text, and the cut of a completed stop string. -/
def feedBytes (stops : List (List Byte)) : List Byte → List Word → List Byte → List Word × List Byte × Option Nat
  | [], d, u => (d, u, none)
  | b :: bs, d, u =>
    let d := matchStep stops d b
    let u := u ++ [b]
    match stopHit stops d with
    | some n => (d, u, some (u.length - n))
    | none => feedBytes stops bs d u

/-- The Changer on one token: the state after it, and the text released (R168 to R170). -/
def TextSt.change (x : TextSt) (voc : Table) (v : Nat) : TextSt × List Byte :=
  let a := utf8Fix (x.pend ++ voc.yields x.showSpecial v)
  let r := feedBytes x.stops a.1 x.dvec x.held
  match r.2.2 with
  | some cut => ({ x with stopped := true, held := [], pend := [], dvec := r.1 }, r.2.1.take cut)
  | none =>
    let n := heldLen r.1
    let k := r.2.1.length - n
    ({ x with dvec := r.1, held := r.2.1.drop k, pend := a.2 }, r.2.1.take k)

/-- The end of a request other than by a stop string releases the held-back and the pending bytes (R171). -/
def TextSt.flush (x : TextSt) : TextSt × List Byte :=
  if x.stopped then (x, []) else ({ x with held := [], pend := [] }, x.held ++ (if x.pend.isEmpty then [] else fffd))

/-! ### Loading (R146, Table 6-19) -/

/-- `TXT_TBL_STATUS` after a load. -/
def State.tblStatus (s : State) (clear : Bool) (slot reason st : Nat) : State :=
  s.wr .txtTblStatus 0 (BitVec.ofNat 64 (st + b2n clear * 8 + slot % 16 * 16 + reason * 2 ^ 8))

/-- The first failed check of R146, or the free slot. -/
def State.tableCheck (s : State) (rq : Requester) (clear : Bool) (size : Nat) (t : Table) : Nat × Nat :=
  let limit := if clear then 64 * 2 ^ 20 else 96 * 2 ^ 20
  let all := if clear then s.txt.grams else s.txt.vocabs
  let bs := t.data
  let vocabOk := match tableNamed s.txt.vocabs (BitVec.ofNat 64 (leAt bs 0x18 8)) with
    | some (_, v) => decide (v.ctx = t.ctx) && decide (v.vocabSize = t.vocabSize)
    | none => false
  let slot := lowestFree (fun k => all.has k) 0 16
  let used := (all.rows.map (fun r => r.2.data.length)).sum
  if limit < size then (1, 0)
  else if !(if clear then clearHeader bs else isMint bs && mintHeader bs) then (2, 0)
  else if !(s.resident t.ctx) || !(s.actsFor rq t.ctx) then (3, 0)
  else if Config.shake256 (bs.take 0xC0 ++ bs.drop 0x100) 64 ≠ takeAt bs 0xC0 64 then (4, 0)
  else if !(if clear then t.clearOk && vocabOk else t.mintOk) then (5, 0)
  else if (tableNamed all (BitVec.ofNat 64 (leAt bs 0x10 8))).isSome then (6, 0)
  else if slot.isNone || limit < used + size then (7, 0)
  else (0, slot.getD 0)

/-- `TBL_LOAD`: a staged table is checked and loaded (R146). -/
def execTblLoad (rq : Requester) (v : Word) (s : State) : Ans :=
  .next (s.woWrite rq .txtTblLoad 0 true (low6 v) (fun s =>
    let s := s.sweepTables
    let key := keyHub v.toNat
    let h := s.readMem key 256
    let clear := isClear h.2.2
    let size := leAt h.2.2 (if clear then 0x30 else 0x38) 8
    let limit := if clear then 64 * 2 ^ 20 else 96 * 2 ^ 20
    let r := if limit < size then (h.1, Status.ok, h.2.2) else h.1.readMem key (max size 256)
    let t : Table := { data := r.2.2.take (max size 256), unloading := false }
    let c := r.1.tableCheck rq clear size t
    if c.1 ≠ 0 then (r.1.tblStatus clear 0 c.1 3).raise Evt.txt_loadRefused
    else
      let ident := BitVec.ofNat 64 (leAt t.data 0x10 8)
      let s := if clear then { r.1 with txt := { r.1.txt with grams := r.1.txt.grams.put c.2 t } }
        else { r.1 with txt := { r.1.txt with vocabs := r.1.txt.vocabs.put c.2 t } }
      let s := (s.wr (if clear then .txtGramSlot else .txtVocabSlot) c.2 ident).sweepTables
      (s.tblStatus clear c.2 0 2).raise Evt.txt_loadDone))

/-- `TBL_UNLOAD`: new bindings to a table stop; its slot frees when nothing names it (R146). -/
def execTblUnload (rq : Requester) (v : Word) (s : State) : Ans :=
  let k := bits v.toNat 0 4
  let clear := bit v.toNat 4
  let row := if clear then s.txt.grams.look k else s.txt.vocabs.look k
  .next (s.woWrite rq .txtTblUnload 0 (match row with
      | some t => s.actsFor rq t.ctx
      | none => true) 0 (fun s =>
    let s : State := if clear then { s with txt := { s.txt with grams := s.txt.grams.upd k (fun t => { t with unloading := true }) } }
      else { s with txt := { s.txt with vocabs := s.txt.vocabs.upd k (fun t => { t with unloading := true }) } }
    s.sweepTables))

/-! ### MINT (R148 to R155) -/

/-- What a MINT's descriptor says (Table 6-4). -/
structure MintDesc where
  fin : Bool
  u8 : Bool
  allow : Bool
  trunc : Nat
  kind : Nat
  input : Nat
  len : Nat
  max : Nat
  output : Nat
  stream : Nat
  marker : Nat
  head : Nat
  deriving DecidableEq, Repr

/-- The descriptor's fields. -/
def mintDesc (d : Desc) : MintDesc :=
  let m := dbits d 160 32
  { fin := dbits d 4 1 = 1 || dbits d 256 64 = 0, u8 := dbits d 5 1 = 1, allow := dbits d 6 1 = 1, trunc := dbits d 7 2, kind := dbits d 9 2,
    input := dbits d 64 64, len := dbits d 128 32, max := if m = 0 || 4194304 < m then 4194304 else m, output := dbits d 192 64,
    stream := dbits d 256 64, marker := dbits d 320 20, head := dbits d 340 23 }

/-- The descriptor is refused (R148). -/
def mintBad (t : Table) (d : Desc) : Bool :=
  let m := mintDesc d
  decide (dbits d 0 4 ≠ 1) || decide (dbits d 11 53 ≠ 0) || decide (dbits d 363 149 ≠ 0) || decide (m.trunc = 3) ||
  !(decide (m.kind = 0) || decide (m.kind = 2)) || decide (67108864 < m.len) || (!m.u8 && t.byteBase.isNone) ||
  (decide (m.trunc = 2) && decide (m.marker = 0xFFFFF) && t.truncId.isNone)

/-- Table 6-6: the entries written of more tokens than fit. -/
def mintCut (t : Table) (m : MintDesc) (toks : List Nat) : List PbEntry :=
  let n := m.max
  let e := fun (v : Nat) => (PbEntry.mk v m.kind false)
  if m.trunc = 1 then (toks.drop (toks.length - n)).map e
  else if m.trunc = 2 && 3 ≤ n then
    let h := min (if m.head = 0 then (n - 1) / 2 else m.head) (n - 2)
    let mk := if m.marker = 0xFFFFF then t.truncId.getD 0 else m.marker
    (toks.take h).map e ++ [PbEntry.mk mk m.kind true] ++ (toks.drop (toks.length - (n - h - 1))).map e
  else (toks.take n).map e

/-- MINT (R148, R149). -/
def doMint (o : Op) (h : Handle) (s : State) : State :=
  match tableNamed s.txt.vocabs (hObj h) with
  | none => s.deny o 3
  | some (_, t) =>
    let d := o.ix.desc
    let m := mintDesc d
    if mintBad t d || !(s.opMapped o m.input m.len) || !(s.opMapped o m.output (4 * m.max)) || (m.stream ≠ 0 && !(s.opMapped o m.stream 32)) then
      s.deny o 2
    else
      let s := s.unitServe 5 (hubOfClerk o.ix.c) o.ctx
      s.opRead o m.stream (if m.stream = 0 then 0 else 32) (fun st s =>
        s.opRead o m.input m.len (fun inp s =>
          let carried := if m.stream = 0 then [] else takeAt st 1 (min 3 (leAt st 0 1))
          let bs := carried ++ inp
          let r := utf8Split (bs.length + 1) bs
          let chrs := if m.fin && !r.2.isEmpty then r.1 ++ [Chr.bad r.2] else r.1
          let pend := if m.fin then [] else r.2
          let bad := (chrs.map (fun c => match c with
            | .bad b => b.length
            | .ok _ _ => 0)).sum
          let toks := t.tokens (t.segments m.u8 m.allow (chrs.length + 1) chrs)
          let es := if toks.length ≤ m.max then toks.map (fun v => PbEntry.mk v m.kind false) else mintCut t m toks
          s.opWrite o m.output (es.flatMap (fun e => natLe 4 e.word)) (fun s =>
            let st' := natLe 1 pend.length ++ takeAt pend 0 3 ++ natLe 4 0 ++ natLe 8 (leAt st 8 8 + m.len) ++ natLe 8 (leAt st 16 8 + bad) ++
              natLe 8 (leAt st 24 8 + es.length)
            let done := fun (s : State) =>
              let s := s.count .txtMintBytes 0 m.len
              let s := if bad = 0 then s else (s.count .txtMintInvalid 0 bad).raise Evt.txt_mintInvalid
              if toks.length ≤ m.max then s.finish o .ok es.length (BitVec.ofNat 64 bad)
              else ((s.count .txtMintTrunc 0 1).raise Evt.txt_mintTrunc).finish o .truncated es.length (BitVec.ofNat 64 toks.length)
            if m.stream = 0 then done s else s.opWrite o m.stream st' done)))

/-- `MINT`. -/
def execMint (c : Nat) (s : State) : Ans :=
  .next (s.onWord c (isSub 0x30 0) (fun ix => s.issueH ix .text [9] rtCompute doMint))

/-! ### CLEAR, SAMPLE and CHANGE (R218) -/

/-- A text instruction on a session without an open request. -/
def State.onText (s : State) (o : Op) (h : Handle) (write : Bool) (k : Nat → Session → State) : State :=
  let i := ssnIndex (hObj h)
  match s.sess i with
  | none => s.deny o 3
  | some x => if write && x.req.isSome then s.deny o 2 else k i x

/-- The text state of session `i` replaced. -/
def State.setText (s : State) (i : Nat) (t : TextSt) : State := s.updSession i (fun x => { x with text := t })

/-- CLEAR BIND: h[H2] names the grammar. -/
def doClearBind (o : Op) (h : Handle) (s : State) : State :=
  let g := o.ix.cl.h (wH2 o.ix.w)
  match s.checkHandle o.ctx g [10] rtCompute with
  | some r => s.deny o r
  | none =>
    s.onText o h true (fun i x =>
      match tableNamed s.txt.grams (hObj g), s.modelOf x with
      | some (k, t), some m =>
        if t.unloading then s.deny o 3
        else if leAt t.data 0x18 8 ≠ m.vocab.toNat then s.deny o 2
        else
          let y := x.text.bindGram k t
          let s := s.setText i y
          s.finish o .ok 0 (BitVec.ofNat 64 (s.confWord y))
      | some _, none => s.deny o 2
      | none, _ => s.deny o 3)

/-- `CLEAR_BIND`. -/
def execClearBind (c : Nat) (s : State) : Ans :=
  .next (s.onWord c (isSub 0x31 0) (fun ix => s.issueH ix .text [1] rtCompute doClearBind))

/-- CLEAR UNBIND. -/
def doClearUnbind (o : Op) (h : Handle) (s : State) : State :=
  s.onText o h true (fun i x => ((s.setText i { x.text with grammar := none, frames := [] }).sweepTables).finish o .ok 0 0)

/-- `CLEAR_UNBIND`. -/
def execClearUnbind (c : Nat) (s : State) : Ans :=
  .next (s.onWord c (isSub 0x31 1) (fun ix => s.issueH ix .text [1] rtCompute doClearUnbind))

/-- CLEAR MASK: bit t mod 8 of byte t ÷ 8 is token t. -/
def doClearMask (o : Op) (h : Handle) (s : State) : State :=
  s.onText o h false (fun _ x =>
    match s.vocabFor x with
    | none => s.deny o 2
    | some voc =>
      let n := (voc.vocabSize + 511) / 512 * 64
      let a := o.ix.ra.toNat
      if !(s.opMapped o a n) then s.deny o 2
      else
        let ok := s.tokenOk voc x.text
        let s := s.unitServe 4 (hubOfClerk o.ix.c) o.ctx
        let bytes := (List.range n).map (fun b => BitVec.ofNat 8 (((List.range 8).filter (fun j => ok (8 * b + j))).map (fun j => 2 ^ j)).sum)
        s.opWrite o a bytes (fun s => s.finish o .ok ((List.range voc.vocabSize).filter ok).length (BitVec.ofNat 64 (s.confWord x.text))))

/-- `CLEAR_MASK`. -/
def execClearMask (c : Nat) (s : State) : Ans :=
  .next (s.onWord c (isSub 0x31 2) (fun ix => s.issueH ix .text [1] rtCompute doClearMask))

/-- The text state after the Clearing takes a token (R159). -/
def State.advanceGram (s : State) (voc : Table) (x : TextSt) (v : Nat) : TextSt :=
  match s.gramFor x with
  | none => x
  | some g => match g.walk x.frames (voc.tokBytes v) with
    | some f => { x with frames := f }
    | none => x

/-- CLEAR ADVANCE: a token outside the mask is refused. -/
def doClearAdvance (o : Op) (h : Handle) (s : State) : State :=
  s.onText o h true (fun i x =>
    match s.vocabFor x with
    | none => s.deny o 2
    | some voc =>
      let v := o.ix.rb.toNat
      if !(s.tokenOk voc x.text v) then s.deny o 2
      else
        let y := s.advanceGram voc x.text v
        (s.setText i y).finish o .ok 0 (BitVec.ofNat 64 (s.confWord y)))

/-- `CLEAR_ADVANCE`. -/
def execClearAdvance (c : Nat) (s : State) : Ans :=
  .next (s.onWord c (isSub 0x31 3) (fun ix => s.issueH ix .text [1] rtCompute doClearAdvance))

/-- The sampler block a configuring write gives (Table 6-11). -/
def samplerOf (x : TextSt) (b : List Byte) (bias : List (Nat × F32)) : TextSt :=
  let w1 := leAt b 8 8
  let w3 := leAt b 0x18 8
  { x with
    temp := f32At b 0
    topP := f32At b 1
    minP := f32At b 2
    topK := bits w1 32 11
    rep := f32At b 4
    freq := f32At b 5
    pres := f32At b 6
    penWindow := bits w3 32 11
    penScope := bits w3 43 2
    seedMode := bit w3 55
    seed := takeAt b 0x20 32
    bias := bias }

/-- Every field lies in its range (R162, R163). -/
def samplerOk (x : TextSt) : Bool :=
  fFinite x.temp && fLe 0 x.temp && fLt 0 x.topP && fLe x.topP fOne && fLe 0 x.minP && fLt x.minP fOne && decide (x.topK ≤ 1024) &&
  fFinite x.rep && fLt 0 x.rep && fFinite x.freq && fFinite x.pres && decide (x.penWindow ≤ 1024) && decide (x.penScope ≤ 2) &&
  decide (x.bias.length ≤ 512) && x.bias.all (fun b => fFinite b.2 || decide (b.2 = fInf true))

/-- SAMPLE CONFIG. -/
def doSampleConfig (o : Op) (h : Handle) (s : State) : State :=
  s.onText o h true (fun i x =>
    if !(s.opMapped o o.ix.ra.toNat 64) then s.deny o 2
    else
      s.opRead o o.ix.ra.toNat 64 (fun b s =>
        let n := bits (leAt b 0x18 8) 45 10
        if 512 < n then s.finish o .denied 2 0
        else
          s.opRead o o.ix.rb.toNat (8 * n) (fun l s =>
            let bias := (List.range n).map (fun k => (leAt l (8 * k) 4 % 2 ^ 20, (f32At l (2 * k + 1))))
            let y := (samplerOf x.text b bias).recount x.passbook
            if samplerOk y then (s.setText i y).finish o .ok 0 0 else s.finish o .denied 2 0)))

/-- `SAMPLE_CONFIG`. -/
def execSampleConfig (c : Nat) (s : State) : Ans :=
  .next (s.onWord c (isSub 0x32 0) (fun ix => s.issueH ix .text [1] rtCompute doSampleConfig))

/-- SAMPLE PROBE: nothing of the session changes. Where the mask is empty the spec states no token: a free value (log 39). -/
def doSampleProbe (o : Op) (h : Handle) (s : State) : State :=
  s.onText o h false (fun _ x =>
    match s.vocabFor x with
    | none => s.deny o 2
    | some voc =>
      let n := 2 * voc.vocabSize
      if !(s.opMapped o o.ix.ra.toNat n) then s.deny o 2
      else
        s.opRead o o.ix.ra.toNat n (fun b s =>
          let s := s.unitServe 4 (hubOfClerk o.ix.c) o.ctx
          let r := s.sample voc x.text ((List.range voc.vocabSize).map (fun k => BitVec.ofNat 16 (leAt b (2 * k) 2)))
          let s := s.bump.countSample r
          s.finish o .ok (r.token.getD (Config.freeNat s.freeCtr)) 0))

/-- `SAMPLE_PROBE`. -/
def execSampleProbe (c : Nat) (s : State) : Ans :=
  .next (s.onWord c (isSub 0x32 1) (fun ix => s.issueH ix .text [1] rtCompute doSampleProbe))

/-- CHANGE CONFIG: a stop string is 1 to 64 bytes of valid UTF-8 (R163). -/
def doChangeConfig (o : Op) (h : Handle) (s : State) : State :=
  s.onText o h true (fun i x =>
    let n := wImm24 o.ix.w % 32
    if 16 < n || !(s.opMapped o o.ix.ra.toNat (68 * n)) then s.deny o 2
    else
      s.opRead o o.ix.ra.toNat (68 * n) (fun b s =>
        let len := fun (k : Nat) => leAt b (68 * k) 1
        let stops := (List.range n).map (fun k => takeAt b (68 * k + 4) (len k))
        if (List.range n).all (fun k => decide (1 ≤ len k) && decide (len k ≤ 64)) && stops.all utf8Valid then
          (s.setText i { x.text with stops := stops, dvec := stops.map (fun _ => 0), showSpecial := bit (wImm24 o.ix.w) 5 }).finish o .ok 0 0
        else s.finish o .denied 2 0))

/-- `CHANGE_CONFIG`. -/
def execChangeConfig (c : Nat) (s : State) : Ans :=
  .next (s.onWord c (isSub 0x33 0) (fun ix => s.issueH ix .text [1] rtCompute doChangeConfig))

/-- The text of tokens through a fresh Changer without stop strings, pending bytes at the end as U+FFFD. -/
def changeText (t : Table) (show_ : Bool) (toks : List Nat) : List Byte :=
  let r := utf8Fix (toks.flatMap (t.yields show_))
  r.1 ++ (if r.2.isEmpty then [] else fffd)

/-- CHANGE TEXT (R218, Table 8-11): the longest run of whole tokens that fits. -/
def doChangeText (o : Op) (h : Handle) (s : State) : State :=
  match tableNamed s.txt.vocabs (hObj h) with
  | none => s.deny o 3
  | some (_, t) =>
    let d := o.ix.desc
    let n := dbits d 64 32
    let room := dbits d 192 32
    let out := dbits d 128 64
    if dbits d 96 32 ≠ 0 || dbits d 225 287 ≠ 0 || n = 0 || 4194304 < n || room < 8 || !(s.opMapped o (dbits d 0 64) (4 * n)) ||
        !(s.opMapped o out room) then s.deny o 2
    else
      s.opRead o (dbits d 0 64) (4 * n) (fun b s =>
        let s := s.unitServe 4 (hubOfClerk o.ix.c) o.ctx
        let toks := (List.range n).map (fun k => leAt b (4 * k) 4 % 2 ^ 20)
        let text := fun (k : Nat) => changeText t (dbits d 224 1 = 1) (toks.take k)
        let k := ((List.range (n + 1)).takeWhile (fun k => decide ((text k).length + 8 ≤ room))).length - 1
        let bytes := text k
        s.opWrite o out (natLe 8 bytes.length ++ bytes) (fun s =>
          if k = n then s.finish o .ok n (BitVec.ofNat 64 bytes.length) else s.finish o .partialS k (BitVec.ofNat 64 n)))

/-- `CHANGE_TEXT`. -/
def execChangeText (c : Nat) (s : State) : Ans :=
  .next (s.onWord c (isSub 0x33 1) (fun ix => s.issueH ix .text [9] rtCompute doChangeText))

end Sys2Proof.Machine
end

