-- ==== Sys2Proof/Machine/SchCfg.lean ====
section
/-! DEFINITION. Models, dispatch groups and their roles, the end of a step, and the Ledger's tick (R88, R118, R119, R128, R131, R132, R136,
R141, R142). -/

namespace Sys2Proof.Machine

/-! ### Models (R88, R118) -/

/-- A layer form entry at offset `o` of a table (Table 4-1). -/
def formAt (bs : List Byte) (o : Nat) : LayerForm :=
  let a := leAt bs o 8
  let b := leAt bs (o + 8) 8
  { kind := bits a 0 2, trim := bit a 2, softcapEn := bit a 3, hq := bits a 4 8, hkv := bits a 12 8, dh := bits a 20 4, dv := bits a 24 4,
    window := bits a 32 22, sinks := bits a 54 10, sparseB := bits b 0 11, localBlocks := bits b 11 7, sparseMin := bits b 18 22,
    scale := BitVec.ofNat 32 (leAt bs (o + 16) 4), softcap := BitVec.ofNat 32 (leAt bs (o + 20) 4),
    kScale := BitVec.ofNat 32 (leAt bs (o + 24) 4), vScale := BitVec.ofNat 32 (leAt bs (o + 28) 4),
    resvBad := decide (bits a 28 4 ≠ 0) || decide (bits b 40 24 ≠ 0) }

/-- An entry that R88 refuses. -/
def LayerForm.bad (f : LayerForm) (fmt : Nat) : Bool :=
  f.resvBad || decide (f.kind = 3) || decide (1024 < f.sparseB) ||
  (decide (f.kind = 0) && (decide ((f.hq + 1) % (f.hkv + 1) ≠ 0) || decide (65536 < bpt f fmt)))

/-- A kernel table entry at offset `o`: the 32 argument bytes end it (Table 5-1; DEDUCED, log 40). -/
def kernelAt (bs : List Byte) (o : Nat) : Kernel :=
  let a := leAt bs o 8
  { ident := bits a 0 16, boundary := bit a 16, attn := bit a 17, args := takeAt bs (o + 16) 32 }

/-- The model a descriptor in hub SRAM names (Table 5-1). -/
def State.modelAt (s : State) (a : Nat) : Model :=
  let d := s.bytesAt (keyHub a) 64
  let w0 := leAt d 0 8
  let layers := bits w0 0 8
  let ft := s.bytesAt (keyHub (leAt d 8 8)) (32 * layers)
  let nk := min 4096 (bits (leAt d 0x20 8) 0 13)
  let kt := s.bytesAt (keyHub (leAt d 0x28 8)) (48 * nk)
  { kvFmt := bits w0 8 2, dModel := bits w0 10 17, forms := (List.range layers).map (fun i => formAt ft (32 * i)),
    vocab := BitVec.ofNat 64 (leAt d 0x10 8), vocabSize := bits (leAt d 0x18 8) 0 21,
    kernels := (List.range nk).map (fun i => kernelAt kt (48 * i)), unreg := false }

/-- The fields of a model descriptor lie in their ranges (Table 5-1; DEDUCED, log 40: a field outside its range is refused as R88 refuses). -/
def State.modelOk (s : State) (a : Nat) : Bool :=
  let d := s.bytesAt (keyHub a) 64
  let m := s.modelAt a
  !m.forms.isEmpty && decide (m.kvFmt ≠ 3) && decide (16 ≤ m.dModel) && decide (m.dModel ≤ 65536) && decide (1 ≤ m.vocabSize) &&
  decide (m.vocabSize ≤ 1048576) && decide (bits (leAt d 0x20 8) 0 13 ≤ 4096) && decide (bits (leAt d 0 8) 27 37 = 0) &&
  decide (bits (leAt d 0x18 8) 21 43 = 0) && allZero (takeAt d 0x30 16) && m.forms.all (fun f => !(f.bad m.kvFmt))

/-- `SCH_MODEL_STATUS`. -/
def State.modelStatus (s : State) (index reason st : Nat) : State :=
  s.wr .schModelStatus 0 (BitVec.ofNat 64 (index % 1024 + reason * 2 ^ 16 + st * 2 ^ 24))

/-- `MODEL_REG`: a write to `SCH_MODEL_REG` (R118). -/
def execModelReg (rq : Requester) (v : Word) (s : State) : Ans :=
  .next (s.woWrite rq .schModelReg 0 (s.isModule rq) (low6 v) (fun s =>
    if !(s.modelOk v.toNat) then s.modelStatus 0 2 3
    else
      match lowestFree s.sch.models.has 0 1024 with
      | none => s.modelStatus 0 0x10 3
      | some i => (s.onSch (fun t => { t with models := t.models.put i (s.modelAt v.toNat) })).modelStatus i 0 2))

/-- `MODEL_UNREG`: the index is freed once no session names it (R118). -/
def execModelUnreg (rq : Requester) (v : Word) (s : State) : Ans :=
  .next (s.woWrite rq .schModelUnreg 0 (s.isModule rq) 0 (fun s =>
    (s.onSch (fun t => { t with models := t.models.upd (bits v.toNat 0 10) (fun m => { m with unreg := true }) })).sweepTables))

/-! ### Reports (R140) -/

/-- A session's entry of a step report. -/
def StepSess.entry (e : StepSess) : ReportEntry :=
  { ident := e.ident, tag := e.tag, status := e.status.getD 0, finish := e.finish, first := false, boosted := e.boosted,
    tokens := e.token.toList, text := e.textOut, held := e.heldN }

/-- Bytes of an entry: 32, its tokens, and its text padded to 8. -/
def ReportEntry.bytes (e : ReportEntry) : Nat := 32 + 4 * e.tokens.length + (e.text.length + 7) / 8 * 8

/-- Bytes of a report. -/
def Report.bytes (r : Report) : Nat := 64 + (r.entries.map ReportEntry.bytes).sum

/-- The reports of a step join the buffer, one for each context with sessions in it (R140). `first`: the sessions whose request's first token
it carries. -/
def State.makeReports (s : State) (t : Step) (first : List Nat) : State :=
  let ctxs := (t.sessions.map (·.ctx)).eraseDups
  let off : Int := s.tim.nodeOff
  s.onSch (fun h => { h with reports := h.reports ++ ctxs.map (fun n =>
    { ctx := n, group := t.group, halfB := t.halfB, step := t.no, start := ((t.start : Int) + off).toNat, release := s.nodeNs,
      entries := (t.sessions.filter (fun e => decide (e.ctx = n))).map (fun e => { e.entry with first := first.contains e.sess }) }) })

/-! ### Roles (R131, R142) -/

/-- Every port of a group is negotiated: UP or in a retrain. -/
def State.portsUp (s : State) (g : Nat) : Bool :=
  !(s.groupPorts g).isEmpty && (s.groupPorts g).all (fun p => decide (5 ≤ s.portSt p) && decide (s.portSt p ≤ 6))

/-- FIXED_ROLE: 4 to 7 are treated as 0 (Table 5-19). -/
def State.fixedRole (s : State) (g : Nat) : Nat := let v := s.fld Fld.schGroupCfg_fixedRole g; if 3 < v then 0 else v

/-- Other groups of the model of group `g` that are in service. -/
def State.siblings (s : State) (g : Nat) : List Nat :=
  (List.range 8).filter (fun k => decide (k ≠ g) && s.groupOn k && decide ((s.group k).role ≠ .off) && decide ((s.group k).role ≠ .external) &&
    decide (s.fld Fld.schGroupCfg_model k = s.fld Fld.schGroupCfg_model g))

/-- The role a group takes as it enters service: FIXED_ROLE, or DECODE, or MIXED where it is the model's only group (Table 5-6). -/
def State.entryRole (s : State) (g : Nat) : Role :=
  match s.fixedRole g with
  | 1 => .decode
  | 2 => .prefill
  | 3 => .mixed
  | _ => if (s.siblings g).isEmpty then .mixed else .decode

/-- The group's node region is unmapped for its ports; with no group left on it, it is deleted (R142). -/
def State.unmapPhase (s : State) (g : Nat) : State :=
  let x := s.group g
  match x.extRegion with
  | none => s
  | some i =>
    let s := s.setGroup g { x with extRegion := none }
    let mine := ((s.groupPorts g).map (fun p => 2 ^ (p + 2))).sum
    let s := s.onNmc (fun m => { m with regions := m.regions.upd i (fun r =>
      { r with readM := r.readM - (r.readM &&& mine), writeM := r.writeM - (r.writeM &&& mine) }) })
    if s.sch.groups.any (fun _ y => decide (y.extRegion = some i)) then s else s.deleteRegion i

/-- The node region of a phase switch is mapped for a group that becomes EXTERNAL: the controller creates it, TEMP HOT, over as many
granules past the window as pages were handed over; the next group joins its masks (R142, R271; log 41). -/
def State.mapPhase (s : State) (g : Nat) : State :=
  let mine := ((s.groupPorts g).map (fun p => 2 ^ (p + 2))).sum
  let n := (s.group g).extCtx
  match s.nmc.regions.rows.find? (fun r => decide (r.2.ctx = n) && r.2.phase.isSome && !r.2.dying) with
  | some (i, _) =>
    (s.onNmc (fun m => { m with regions := m.regions.upd i (fun r => { r with readM := r.readM ||| mine, writeM := r.writeM ||| mine }) })).setGroup g
      { s.group g with extRegion := some i }
  | none =>
    let k := s.ssn.handed.length - ((s.nmc.regions.rows.filter (fun r => r.2.phase.isSome)).map (fun r => r.2.granules)).sum
    match lowestFree s.nmc.regions.has 0 4096, s.freeGranules s.nmc.window (2 ^ 30) k with
    | some i, some b =>
      if k = 0 then s
      else
        let r : Region := { gen := s.regionGen i, ctx := n, temp := 1, hostPark := false, readM := mine, writeM := mine, base := b,
                            granules := k, stks := s.stackSet n, phase := some g, dying := false }
        (s.addRegion i r).setGroup g { s.group g with extRegion := some i }
    | _, _ => s

/-- A SWITCHING group with no step in flight takes its target role (Table 5-6). -/
def State.switchDone (s : State) (g : Nat) : State :=
  let x := s.group g
  if x.role = .switching && x.stepA.isNone && x.stepB.isNone then
    let s := (s.setGroup g { x with role := x.target, since := s.now, above := 0, below := 0 }).raise Evt.sch_roleChange
    let s := if x.target = .external then s.mapPhase g else s
    s.publishGroup g
  else s.publishGroup g

/-- A group goes to SWITCHING toward a role. -/
def State.switchTo (s : State) (g : Nat) (r : Role) : State :=
  let s := s.unmapPhase g
  (s.setGroup g { s.group g with role := .switching, target := r, since := s.now }).switchDone g

/-- A step is over: its half is free, `SCH_STEPS_DONE` and STEP_US follow, and a SWITCHING group and a phase switch go on. -/
def State.endStep (s : State) (t : Step) : State :=
  let x := s.group t.group
  let s := s.setGroup t.group { x with
    stepA := if x.stepA = some t.no then none else x.stepA
    stepB := if x.stepB = some t.no then none else x.stepB
    lastStepUs := (s.now - t.start) / 1000 }
  let s := ((s.onSch (fun h => { h with steps := h.steps.del t.no })).count .schStepsDone 0 1).switchDone t.group
  if s.ssn.phase.isSome then s.phaseAdvance else s

/-- Attention of a step that ends without it is ABORTED. -/
def State.abortAttn (s : State) (n : Nat) : State :=
  (s.kva.ops.keysIf (fun _ o => decide (o.step = n))).foldl (fun (s : State) op =>
    (s.updAttn op (fun o => { o with entries := o.entries.map (fun e => if e.status.isNone then { e with status := some 0x00F0 } else e) })).progress op) s

/-- A step ends as a timeout ends it (R128): every session completes with ABORTED, KV_WRITTEN returns to KV_LEN, reservations are released, and
the requests end (DEDUCED, log 36). -/
def State.abortStep (s : State) (n : Nat) : State :=
  match s.sch.steps.look n with
  | none => s
  | some t =>
    let s := t.live.foldl (fun (s : State) p =>
      let s := s.displace n p.1 t.layer 0x00F0
      let s := s.updStep n (fun t => t.updSlot p.1 (fun e => { e with finish := if p.2.recompute then 0 else 8 }))
      if p.2.recompute then s else (s.endRequest p.2.sess 8 .aborted 5 0).finishCancels p.2.sess) s
    let s := s.abortAttn n
    match s.sch.steps.look n with
    | none => s
    | some t => (s.makeReports t []).endStep t

/-- KERNELs of a group complete with ABORTED, cause 5 (R217). -/
def State.abortKernels (s : State) (p : KernelOp → Bool) : State :=
  s.sch.kernels.rows.foldl (fun (s : State) r =>
    if p r.2 then (s.onSch (fun t => { t with kernels := t.kernels.del r.1 })).abortR ⟨r.2.clerk, r.2.slot, r.2.serial⟩ 5 else s) s

/-- A group goes to OFF: its steps in flight end as in R128 (Table 5-6). -/
def State.groupOff (s : State) (g : Nat) : State :=
  let x := s.group g
  let s := (x.stepA.toList ++ x.stepB.toList).foldl State.abortStep s
  let s := (s.abortKernels (fun k => decide (k.group = g))).unmapPhase g
  (s.setGroup g { s.group g with role := .off, target := .off, since := s.now }).publishGroup g

/-- What Table 5-6 moves without being asked: a group whose ports are no longer all there goes OFF, and one that is OFF, enabled and armed with
every port negotiated takes its role. The ramp of R143 may hold that return. -/
def State.settleGroups (s : State) : State :=
  (List.range 8).foldl (fun (s : State) g =>
    let x := s.group g
    if x.role ≠ .off && !(s.groupOn g && s.portsUp g) then s.groupOff g
    else if x.role = .off && s.groupOn g && x.armed && s.portsUp g then
      (s.setGroup g { x with role := s.entryRole g, since := s.now }).publishGroup g
    else s) s

/-- `GROUP_CFG_WRITE`: a write to `SCH_GROUP_CFG` (R119, Table 5-6). -/
def execGroupCfgWrite (rq : Requester) (g : Nat) (v : Word) (s : State) : Ans :=
  .next (if 8 ≤ g then s else s.cfgWrite rq .schGroupCfg g (s.isModule rq) (fun s =>
    let oldRole := s.fixedRole g
    let oldModel := s.fld Fld.schGroupCfg_model g
    let oldPorts := s.fld Fld.schGroupCfg_ports g
    let s := s.rwWrite .schGroupCfg g v
    let clash := (List.range 8).any (fun k => decide (k ≠ g) && (s.groupPorts k).any (fun p => bit (s.fld Fld.schGroupCfg_ports g) p))
    let s := if clash then (s.setFld Fld.schGroupCfg_enable g 0).raise Evt.sch_cfgRefused
      else if s.rd .schGroupTime g = 0 then s.setFld Fld.schGroupCfg_enable g 0 else s
    let x := s.group g
    if !(s.groupOn g) then (if x.role = .off then s.setGroup g { x with armed := false } else s.groupOff g)
    else
      let moved := decide (oldModel ≠ s.fld Fld.schGroupCfg_model g) || decide (oldPorts ≠ s.fld Fld.schGroupCfg_ports g)
      let s := if moved && decide (x.role ≠ .off) then s.groupOff g else s
      let s := (s.setGroup g { s.group g with armed := true }).settleGroups
      let x := s.group g
      if x.role = .external && bits v.toNat 25 3 ≤ 3 then s.switchTo g (s.entryRole g)
      else if (x.role = .decode || x.role = .prefill || x.role = .mixed) && decide (s.fixedRole g ≠ oldRole) then s.switchTo g (s.entryRole g)
      else if x.role = .switching && decide (s.fixedRole g ≠ oldRole) then (s.setGroup g { x with target := s.entryRole g }).switchDone g
      else s))

/-! ### Timeouts (R128) -/

/-- Ten times the declared layer time of `n` tokens, and at least 1 ms, in ns. -/
def State.layerLimit (s : State) (g n : Nat) : Nat :=
  max (10 * (s.fld Fld.schGroupTime_aFix g + s.fld Fld.schGroupTime_aTok g * n / 1000)) 1000000

/-- A step waits for a message of its group. -/
def State.stepWaits (s : State) (t : Step) : Bool :=
  !(t.answered.contains t.layer) || (decide (t.layer = s.lastPart t) && t.live.any (fun p => p.2.wantLogits) && !t.textDone)

/-- `GROUP_TIMEOUT`: a message R128 requires has not arrived in time: the step ends and the group goes to OFF; the KERNELs of an EXTERNAL group
that have waited as long complete with ABORTED (R217). -/
def execGroupTimeout (g : Nat) (half : Bool) (s : State) : Ans :=
  .next (if s.frz.frozen || 8 ≤ g then s
  else
    let x := s.group g
    if x.role = .external then s.abortKernels (fun k => decide (k.group = g) && decide (k.sentAt + s.layerLimit g 0 ≤ s.now))
    else
      match (if half then x.stepB else x.stepA).bind s.sch.steps.look with
      | none => s
      | some t =>
        if s.stepWaits t && decide (t.sentAt + s.layerLimit g (t.live.map (fun p => p.2.new)).sum ≤ s.now) then
          let s := (s.groupOff g).raise Evt.sch_groupTimeout
          s.setGroup g { s.group g with armed := false }
        else s)

/-! ### Roles of a model's groups (R132) -/

/-- The least of a list of groups by a key. -/
def leastGroup (key : Nat → Nat) (l : List Nat) : Option Nat := leastBy key l

/-- `ROLE_EVAL`: x = G × Dp ÷ (Dp + Dd) is compared with P ± (0.5 + H); at most one group of the model changes, after CONFIRM evaluations and
its dwell (R132). `backlog`: input waiting at each PREFILL group. -/
def execRoleEval (model dp dd : Nat) (backlog : List (Nat × Nat)) (s : State) : Ans :=
  .next (if s.frz.frozen then s
  else
    let s := s.settleGroups
    let gs := (List.range 8).filter (fun g => s.groupOn g && decide (s.fld Fld.schGroupCfg_model g = model) &&
      (let r := (s.group g).role; decide (r = .decode) || decide (r = .prefill) || decide (r = .switching)))
    let n := gs.length
    if n < 2 then s
    else
      let p := (gs.filter (fun g => decide ((s.group g).role = .prefill))).length
      let h := s.fld Fld.schRoleCfg_hyst
      let up := decide ((100 * p + 50 + h) * (dp + dd) < 100 * n * dp)
      let down := decide (100 * n * dp + (50 + h) * (dp + dd) < 100 * p * (dp + dd))
      let s := gs.foldl (fun (s : State) g =>
        let x := s.group g
        s.setGroup g { x with above := if up then x.above + 1 else 0, below := if down then x.below + 1 else 0 }) s
      let need := max 1 (s.fld Fld.schRoleCfg_confirm)
      let dwell := max 50 (s.fld Fld.schRoleCfg_dwellMs) * 1000000
      let free : Role → Nat → Bool := fun r g => decide ((s.group g).role = r) && decide (s.fixedRole g = 0) && decide ((s.group g).since + dwell ≤ s.now)
      let both := decide (0 < dp) && decide (0 < dd)
      let flight : Nat → Nat := fun g =>
        ((((s.group g).stepA.toList ++ (s.group g).stepB.toList).filterMap s.sch.steps.look).map (fun t => t.live.length)).sum
      let load : Nat → Nat := fun g => ((backlog.filter (fun b => decide (b.1 = g))).map (·.2)).sum
      if up && gs.any (fun g => decide (need ≤ (s.group g).above)) && (!both || decide (p + 1 < n)) then
        match leastGroup flight (gs.filter (free .decode)) with
        | some g => s.switchTo g .prefill
        | none => s
      else if down && gs.any (fun g => decide (need ≤ (s.group g).below)) && (!both || decide (1 < p)) then
        match leastGroup load (gs.filter (free .prefill)) with
        | some g => s.switchTo g .decode
        | none => s
      else s)

/-! ### Ledger tick and report ports (R136, R139, R141) -/

/-- A customer record as it lies in the Ledger (Table 5-7). -/
def Customer.record (x : Customer) : List Byte :=
  natLe 8 (BitVec.ofInt 64 x.balance).toNat ++ natLe 8 x.reserved ++ natLe 8 (x.cap % 2 ^ 32 + x.refill % 2 ^ 32 * 2 ^ 32) ++
  natLe 8 (x.wPrompt % 2 ^ 16 + x.wGen % 2 ^ 16 * 2 ^ 16 + x.wRecomp % 2 ^ 16 * 2 ^ 32) ++ natLe 8 x.rent.toNat ++ natLe 8 x.lastUpdate ++
  natLe 8 x.charged ++ natLe 8 x.rentTotal ++ natLe 8 x.credited ++ natLe 8 x.refilled ++ natLe 8 x.waitUs ++
  natLe 8 (x.preempts % 2 ^ 32 + x.deferred % 2 ^ 32 * 2 ^ 32) ++ natLe 8 (x.requests % 2 ^ 32 + x.refused % 2 ^ 32 * 2 ^ 32) ++
  List.replicate 24 0

/-- Ledger records in one mapping unit. -/
def ledgerPerUnit : Nat := 256

/-- The bytes of Ledger unit `u`: its 256 customers. -/
def State.ledgerUnit (s : State) (u : Nat) : List Byte := (List.range ledgerPerUnit).flatMap (fun k => (s.cust (ledgerPerUnit * u + k)).record)

/-- The Ledger records changed since the last write go to the Till (R136). -/
def State.ledgerWrite (s : State) : State :=
  let dirty := (s.sch.customers.keysIf (fun _ c => c.dirty)).map (· / ledgerPerUnit)
  let s : State := match s.sch.ledgerExt with
    | some _ => s
    | none =>
      let e := s.newExtent none 256 false none
      e.1.onSch (fun t => { t with ledgerExt := e.2 })
  match s.sch.ledgerExt with
  | none => s
  | some x => dirty.eraseDups.foldl (fun (s : State) u =>
      let r := s.flashPut .ledger x u [s.ledgerUnit u] true
      match r.2 with
      | .queued _ => r.1.onSch (fun t => { t with customers := t.customers.mapVals (fun k c =>
          if k / ledgerPerUnit = u then { c with dirty := false } else c) })
      | _ => r.1) s

/-- `LEDGER_TICK`: rent is charged, and the records changed since the last write go to the Till (R136, R139). -/
def execLedgerTick (s : State) : Ans :=
  s.whenLive (((s.sch.customers.rows.map (·.1)).foldl State.chargeRent s).ledgerWrite)

/-- The Ledger's dirty bytes after a write to the Till is programmed: the records changed since (Table 15-1). -/
def State.ledgerProgrammed (s : State) : State :=
  s.setDirty .ledger (128 * s.sch.customers.countIf (fun _ c => c.dirty) +
    128 * (s.fls.writes.filter (fun w => decide (w.owner = .ledger))).length)

/-- `CTX_REPORT_WRITE`: the report connection of a context (R141). -/
def execCtxReportWrite (rq : Requester) (n : Nat) (v : Word) (s : State) : Ans :=
  .next (if 64 ≤ n then s else s.cfgWrite rq .schCtxReport n (s.isModule rq || s.actsFor rq n) (fun s => s.rwWrite .schCtxReport n v))

/-! ### The end of a phase switch (R84, R142) -/

/-- `PHASE_DONE`: ALLOC fits and every step of the context has ended: the pages are handed over, STATE is DONE, and the groups named in
`SCH_PHASE_MAP` go through SWITCHING to EXTERNAL. -/
def execPhaseDone (s : State) : Ans :=
  .next (match s.ssn.phase with
    | none => s
    | some p =>
      let busy := s.ssn.sessions.any (fun i x => decide (x.ctx = p.ctx) && (decide (x.st = .active) || decide (x.st = .reviving) || s.inStep i))
      if s.frz.frozen || !s.phaseOn || busy || !(s.phaseFits p) || s.pgSum .ssnPgFree < p.keepPages then s
      else
        let s := (s.handOver p.keepPages).phaseStatus 2
        let s := s.onSsn (fun t => { t with phase := none })
        ((List.range 8).filter (fun g => bit (s.rd .schPhaseMap).toNat g && s.groupOn g)).foldl (fun (s : State) g =>
          if (s.group g).role = .off then s
          else
            let s := s.setGroup g { s.group g with extCtx := p.ctx }
            s.switchTo g .external) s)

end Sys2Proof.Machine
end

