-- ==== Sys2Proof/Machine/SchReq.lean ====
section
/-! DEFINITION. Requests: SUBMIT with its admission checks, CANCEL, and the KERNEL form of DISPATCH (R121 to R123, R142, R217). -/

namespace Sys2Proof.Machine

/-! ### Admission (R123) -/

/-- Requests open on the controller. -/
def State.openReqs (s : State) : Nat := s.ssn.sessions.countIf (fun _ x => x.req.isSome)

/-- Pages of `n` tokens in every softmax layer of a model. -/
def Model.pagesFor (m : Model) (fmt n : Nat) : Nat :=
  ((m.forms.filter (fun f => decide (f.kind = 0))).map (fun f => let t := max 1 (tpp f fmt); (n + t - 1) / t)).sum

/-- Clean pages and pages of resident-parked sessions that may be reclaimed, but those of session `i` (R79, R123). -/
def State.reclaimable (s : State) (i : Nat) : Nat :=
  (s.ssn.sessions.rows.map (fun r =>
    if r.1 = i || (r.2.pinned && r.2.pinTier = 0) then 0
    else if r.2.st = .parked && r.2.kvTier = 1 then r.2.pages.length
    else (r.2.pages.filter (fun q => decide (q.use = .clean))).length)).sum

/-- Generated tokens a request may add: MAX_NEW, 0 for no limit. -/
def genCap (maxNew cap : Nat) : Nat := if maxNew = 0 then cap else min maxNew cap

/-- The ladder of R123 (R349), in µs: 1 ms, 10 ms, 100 ms, RETRY_MAX_MS. -/
def State.ladderSlow (s : State) : List Nat :=
  let m := max 1000 (s.fld Fld.schAdmitCfg_retryMaxMs * 1000)
  ([1000, 10000, 100000].filter (fun v => decide (v < m))) ++ [m]

/-- The first check of R123 that fails, as its retry-after in µs before the ladder. `stepUs`: the predicted decode step of the model with this
session; `pageRate`: pages released per second over the last 1 s; `finishUs`: the predicted time to the model's next finish. -/
def State.admitCheck (s : State) (i model inputLen maxNew stepUs pageRate finishUs : Nat) : Option Nat :=
  match s.sch.models.look model with
  | none => none
  | some m =>
    let last := s.sch.finishes.filter (fun f => decide (s.now < f + 1000000000))
    let need := m.pagesFor m.kvFmt (inputLen + genCap maxNew (s.fld Fld.schAdmitCfg_genTokens))
    let goals := s.ssn.sessions.rows.filterMap (fun r => r.2.req.bind (fun q => if q.model = model then some q.tbtGoalUs else none))
    if min 65536 (s.fld Fld.schAdmitCfg_queueMax) ≤ s.openReqs then some (1000000 / max 1 last.length)
    else if s.pgSum .ssnPgTotal * s.t1High < (s.pgSum .ssnPgAlloc + need - s.reclaimable i) * 100 then some (need * 1000000 / max 1 pageRate)
    else if goals.any (fun g => decide (g < stepUs)) then some finishUs
    else none

/-! ### SUBMIT (R121, R122) -/

/-- The KV of another model or format is given up, and the Passbook is recomputed unpaid (R118; DEDUCED, log 34). -/
def State.rebindKv (s : State) (i : Nat) : State :=
  match s.sess i with
  | none => s
  | some x =>
    let s := match x.kvExt with
      | some e => s.dropExtent e
      | none => s
    (s.dropPages i (fun _ => true)).updSession i (fun x => { x with
      layers := .empty
      parked := []
      kvExt := none
      kvTier := 0xFF
      kvKept := false
      cleanT1 := false
      t4Peer := none
      recompute := if x.passbook.isEmpty then none else some (x.passbook.length, false) })

/-- SUBMIT as accepted: the directory fields, the request block, the text state and the revive of a PARKED session (R121, R122, R161). -/
def State.acceptReq (s : State) (o : Op) (i : Nat) (m : Model) : State :=
  let d := o.ix.desc
  let model := dbits d 192 16
  let s := match s.sess i with
    | some x => if (x.model ≠ model || x.reservedLen = 0) && (x.kvBytes ≠ 0) then s.rebindKv i else s
    | none => s
  match s.sess i with
  | none => s
  | some x =>
    let us := fun (lo : Nat) (dflt : Nat) => if dbits d lo 32 = 0 then dflt * 1000 else dbits d lo 32
    let fmt := if x.kvBytes = 0 then m.kvFmt else x.kvFmt
    let req : ReqBlk :=
      { tag := BitVec.ofNat 64 (dbits d 128 64), customer := dbits d 208 16, model := model, maxNew := dbits d 32 32,
        ttftGoalUs := us 64 (s.fld Fld.schGoalCfg_ttftDefMs), tbtGoalUs := us 96 (s.fld Fld.schGoalCfg_tbtDefMs), submitTime := s.nodeNs,
        lastTokenTime := 0, inputLeft := dbits d 288 32, inputLen := dbits d 288 32, generated := 0, openRes := 0, waitUs := 0, preempts := 0,
        finish := 0, startLayer := 0, input := BitVec.ofNat 64 (dbits d 224 64), kind := dbits d 320 2, clerk := o.r.clerk, slot := o.r.slot,
        serial := o.r.serial, waitSince := s.now, cancelling := false, rptWaited := false }
    let nonce := natLe 8 req.tag.toNat ++ natLe 8 (s.identOf i x).toNat
    let seed := if x.text.seedMode then x.text.seed else s.freshBytes 32
    let s := s.bump.updSession i (fun y => { y with
      model := model
      customer := req.customer
      kvFmt := fmt
      reservedLen := min 4194304 (262144 * m.rootTpp fmt)
      text := s.freshText y.text seed nonce
      req := some req
      hsv := none
      lateLayer := none })
    if x.st = .parked && x.op.isNone && x.placing.isNone then (s.startRevive i).1 else s

/-- SUBMIT (R121, R123): refusals in the order DENIED, BUDGET, ADMIT_DEFER. A context being swept takes no new SUBMITs (R336; reason 2, DEDUCED,
log 49). -/
def State.submit (s : State) (o : Op) (i : Nat) (stepUs pageRate finishUs : Nat) : State :=
  let d := o.ix.desc
  let n := dbits d 288 32
  let cust := dbits d 208 16
  match s.sess i with
  | none => s.deny o 3
  | some x =>
    if dbits d 4 28 ≠ 0 || dbits d 322 190 ≠ 0 || 4194304 < n || dbits d 320 2 % 2 = 1 || !(s.resident o.ctx) then s.deny o 2
    else if n ≠ 0 && !(s.opMapped o (dbits d 224 64) (4 * n)) then s.deny o 2
    else if x.req.isSome || x.st = .parking || x.st = .moving then s.deny o 2
    else
      match s.sch.models.look (dbits d 192 16) with
      | none => s.deny o 2
      | some m =>
        match s.vocabOf m with
        | none => s.deny o 3
        | some voc =>
          if m.unreg then s.deny o 2
          else if voc.ctx ≠ o.ctx || ((s.cust cust).bound.getD o.ctx) ≠ o.ctx then s.deny o 1
          else
            let s := s.updCust cust (fun c => c.refillTo s.nodeNs)
            if (s.cust cust).available ≤ 0 then
              ((s.updCust cust (fun c => { c with refused := c.refused + 1 })).raise Evt.sch_budget).doneNow o .budget cust
                (BitVec.ofInt 64 ((s.cust cust).balance / 256))
            else
              match s.admitCheck i (dbits d 192 16) n (dbits d 32 32) stepUs pageRate finishUs with
              | some us =>
                let r := s.retryAfter o.ctx 2 s.ladderSlow us
                ((r.1.updCust cust (fun c => { c with deferred := c.deferred + 1 })).raise Evt.sch_admitDefer).doneNow o .admitDefer r.2 0
              | none => s.acceptReq o i m

/-- The clerk's word is a DISPATCH REQUEST whose descriptor names an operation. -/
def reqWord (ix : Ix) (p : Nat → Bool) : Bool := isSub 0x28 0 ix && p (dbits ix.desc 0 4)

/-- `SUBMIT`: DISPATCH REQUEST with any OP but CANCEL; one that is not SUBMIT is refused with DENIED, reason 2. It
waits while its Ledger record's dirt has no room (R359, R363). -/
def execSubmit (c stepUs pageRate finishUs : Nat) (s : State) : Ans :=
  .next (s.onWord c (fun ix => reqWord ix (fun op => decide (op ≠ 2))) (fun ix =>
    s.issueH ix (.submit (ssnIndex (hObj (ix.cl.h (wH ix.w))))) [1] rtCompute (fun o h t =>
      if dbits o.ix.desc 0 4 ≠ 1 then t.deny o 2
      else if !(t.ledgerRoom (dbits o.ix.desc 208 16)) then s
      else t.submit o (ssnIndex (hObj h)) stepUs pageRate finishUs)))

/-- CANCEL (R121, R217): a request in a step ends at its next layer boundary, another at once. -/
def doCancel (o : Op) (h : Handle) (s : State) : State :=
  let d := o.ix.desc
  let i := ssnIndex (hObj h)
  if dbits d 4 28 ≠ 0 || dbits d 322 190 ≠ 0 then s.deny o 2
  else
    match s.sess i with
    | none => s.deny o 3
    | some x =>
      match x.req with
      | none => s.doneNow o .ok 0 0
      | some _ =>
        if s.inStep i then s.updSession i (fun y => { y with req := y.req.map (fun q => { q with cancelling := true }) })
        else (s.endRequest i 7 .ok 0 0).finishCancels i

/-- `CANCEL`. -/
def execCancel (c : Nat) (s : State) : Ans :=
  .next (s.onWord c (fun ix => reqWord ix (fun op => decide (op = 2))) (fun ix =>
    s.issueH ix (.cancel (ssnIndex (hObj (ix.cl.h (wH ix.w))))) [1] rtCompute doCancel))

/-! ### KERNEL (R142, R217) -/

/-- The fields of a kernel descriptor (Table 5-4). -/
def kernelDescOk (d : Desc) (g : Nat) : Bool :=
  decide (dbits d 0 8 = 0x12) && decide (dbits d 11 5 = 0) && decide (dbits d 44 3 = g) && decide (dbits d 47 17 = 0) &&
  decide (dbits d 128 15 ≤ 16384) && decide (dbits d 143 17 ≤ 65536)

/-- DISPATCH KERNEL: the descriptor and its tables go to every port of an EXTERNAL group of the run's context. -/
def doKernel (n : Nat) (o : Op) (h : Handle) (s : State) : State :=
  let d := o.ix.desc
  let room := wImm24 o.ix.w * 64
  let len := dbits d 160 32
  match s.groupOfLead (hObj h).toNat with
  | none => s.deny o 3
  | some g =>
    let x := s.group g
    if x.role ≠ .external || x.extCtx ≠ o.ctx || !(kernelDescOk d g) || !(s.opMapped o o.ix.ra.toNat len) || !(s.opMapped o o.ix.rb.toNat room) then
      s.deny o 2
    else
      s.opRead o o.ix.ra.toNat len (fun tables s =>
        let k : KernelOp := { clerk := o.r.clerk, slot := o.r.slot, serial := o.r.serial, ctx := o.ctx, group := g, step := dbits d 64 64,
                              buf := o.ix.rb.toNat, room := room, sentAt := s.now }
        (s.onSch (fun t => { t with kernels := t.kernels.put n k })).sendGroup g (64 + len) (.kernelDesc g d tables))

/-- `DISPATCH_KERNEL`. -/
def execDispatchKernel (c : Nat) (s : State) : Ans :=
  .next (s.onWord c (isSub 0x28 1) (fun ix =>
    let n := s.tlr.opCtr + 1
    (s.onTlr (fun t => { t with opCtr := n })).issueH ix (.kernel n) [8] rtCompute (doKernel n)))

end Sys2Proof.Machine
end

