-- ==== Sys2Proof/Machine/StepForm.lean ====
section
/-! DEFINITION. Forming a step (R69, R81, R120, R124 to R127, R131, R134, R135, R137, R139, R141, R143). -/

namespace Sys2Proof.Machine

/-! ### Tokens to feed (R121, R126) -/

/-- KV_LEN of a session: it is the same in every layer (R94). -/
def Session.kvPos (x : Session) : Nat := x.layers.rows.foldl (fun a r => max a r.2.kvLen) 0

/-- KV_WRITTEN of a session's layers below the one it resumes at. -/
def Session.wrPos (x : Session) : Nat := x.layers.rows.foldl (fun a r => max a r.2.kvWritten) 0

/-- Where a recompute ends: the last generated token is still to be fed to the model, by the decode that follows (DEDUCED, log 42). -/
def Session.goal (x : Session) : Nat :=
  match x.passbook.getLast? with
  | some e => if e.kind = 1 then x.passbook.length - 1 else x.passbook.length
  | none => 0

/-- The session still has tokens of its Passbook to recompute (R72, R85). -/
def Session.recomputes (x : Session) : Bool := x.recompute.isSome && decide (x.kvPos < x.goal)

/-- Passbook tokens that hold no KV yet. -/
def Session.pend (x : Session) : List Nat := (x.passbook.drop x.kvPos).map (·.token)

/-- What a session has to feed: nothing; a decode token; or prefill, with how many tokens there are and whether it is a recompute. -/
inductive Work
  | idle | decode | prefill (n : Nat) (recompute : Bool)
  deriving DecidableEq, Repr

/-- The work of a session. -/
def Session.work (x : Session) : Work :=
  if x.recomputes then .prefill (x.goal - x.kvPos) true
  else
    match x.req with
    | none => .idle
    | some q =>
      let n := x.passbook.length - x.kvPos
      if q.inputLeft ≠ 0 then .prefill (n + q.inputLeft) false
      else if n = 0 then .idle
      else if n = 1 && q.generated ≠ 0 then .decode
      else .prefill n false

/-- The next `n` input tokens of a request, as its buffer holds them (R44). -/
def State.inputToks (s : State) (ctx : Nat) (q : ReqBlk) (n : Nat) : Option (List Nat) :=
  (List.range n).foldl (fun (a : Option (List Nat)) k =>
    match a, s.privKey q.clerk ctx (q.input.toNat + 4 * (q.inputLen - q.inputLeft + k)) with
    | some l, some key => some (l ++ [s.numAt key 4 % 2 ^ 20])
    | _, _ => none) (some [])

/-! ### Pages (R69, R93) -/

/-- Table pages of a session whose layers hold `n` tokens (R93): an 8 KiB root, a 4 KiB node for each KV and digest tree, and 4 KiB leaves of
512 entries. -/
def tablePages (m : Model) (fmt n : Nat) : Nat :=
  let leaves := fun (k : Nat) => (k + 511) / 512
  let one := fun (f : LayerForm) =>
    if f.kind ≠ 0 then 0
    else
      let kv := let t := max 1 (tpp f fmt); (n + t - 1) / t
      let dg := if f.sparseB = 0 then 0 else (n / 64 + digestsPerPage f - 1) / max 1 (digestsPerPage f)
      (if kv = 0 then 0 else 1 + leaves kv) + (if dg = 0 then 0 else 1 + leaves dg)
  (8192 + 4096 * (m.forms.map one).sum + 65535) / 65536

/-- The pages positions `p` to `p + n − 1` fill that the session does not hold: KV, digest, recurrent and table pages. -/
def Session.newPages (x : Session) (m : Model) (p n : Nat) : List (Nat × Nat × Nat) :=
  let span := fun (lo hi : Nat) => (List.range hi).filter (fun b => decide (lo ≤ b))
  let layer := fun (l : Nat) (f : LayerForm) =>
    match f.kind with
    | 0 =>
      let t := max 1 (tpp f x.kvFmt)
      let dg := if f.sparseB = 0 then 0 else ((p + n) / 64 + digestsPerPage f - 1) / max 1 (digestsPerPage f)
      (span (p / t) ((p + n - 1) / t + 1)).map (fun b => (0, l, b)) ++ (List.range dg).map (fun b => (1, l, b))
    | 1 => (List.range f.hqN).flatMap (fun h => (List.range f.headPages).map (fun k => (2, l, 16 * h + k)))
    | _ => []
  let all := ((List.range m.forms.length).flatMap (fun l => match m.forms[l]? with
      | some f => layer l f
      | none => [])) ++ (List.range (tablePages m x.kvFmt (p + n))).map (fun b => (3, 0, b))
  all.filter (fun q => (x.page q.1 q.2.1 q.2.2).isNone)

/-! ### Waiting and boosting (R134, R139) -/

/-- Waiting time of the requests in no step accrues up to now (R139). -/
def State.accrueWait (s : State) : State :=
  s.ssn.sessions.rows.foldl (fun (s : State) r =>
    match r.2.req with
    | none => s
    | some q =>
      let us := (s.now - q.waitSince) / 1000
      if s.inStep r.1 || us = 0 then s
      else
        let s := s.updSession r.1 (fun x => { x with req := x.req.map (fun q => { q with waitUs := q.waitUs + us, waitSince := q.waitSince + us * 1000 }) })
        s.updCust q.customer (fun c => { c with waitUs := c.waitUs + us })) s

/-- BOOST of the open requests the planner has a prediction for (R134). -/
def State.boostEval (s : State) (cands : List StepCand) : State :=
  cands.foldl (fun (s : State) c =>
    match (s.sess c.sess).bind (·.req) with
    | some q => s.updSession c.sess (fun x => { x with boost := decide (s.goalTime q < c.tokenAt) })
    | none => s) s

/-! ### Who may enter (R81, R124, R141) -/

/-- The report buffer is full (R141). -/
def State.reportsFull (s : State) : Bool := decide (64 * 2 ^ 20 ≤ (s.sch.reports.map Report.bytes).sum)

/-- Context `n` has reports waiting in the full buffer. -/
def State.backPressed (s : State) (n : Nat) : Bool := s.reportsFull && s.sch.reports.any (fun r => decide (r.ctx = n))

/-- A session may be considered for a step of group `g`. -/
def State.mayEnter (s : State) (g : Nat) (c : StepCand) (x : Session) : Bool :=
  decide (x.model = s.fld Fld.schGroupCfg_model g) && !(s.inStep c.sess) && (x.req.isSome || x.recomputes) && s.groupOpen x.ctx g &&
  !(match s.ssn.phase with
    | some p => decide (p.ctx = x.ctx)
    | none => false) &&
  (match x.st with
    | .active => true
    | .reviving => (x.recomputes && !x.kvKept) || (c.residentInTime && (match x.lateLayer with
        | some l => (x.layer l).resident
        | none => true))
    | .rebuilding => x.recomputes
    | _ => false)

/-- A context whose report port is disabled or whose reports fill the buffer enters no step; the first wait of a request for that is told (R141). -/
def State.reportGate (s : State) (i : Nat) (x : Session) : State × Bool :=
  if s.fld Fld.schCtxReport_enable x.ctx = 0 then
    (match x.req with
      | some q => if q.rptWaited then s
        else (s.updSession i (fun y => { y with req := y.req.map (fun q => { q with rptWaited := true }) })).raise Evt.sch_rptDisabled
      | none => s, false)
  else if s.backPressed x.ctx then (s.raise Evt.sch_rptBackpressure, false)
  else (s, true)

/-- Class of R124 of a session's work, before the boost share is applied. -/
def Session.workClass (x : Session) : Nat :=
  if (x.req.map (·.startLayer)).getD 0 ≠ 0 then 1
  else match x.work with
    | .decode => if x.boost then 2 else 3
    | .prefill _ rc => if x.boost || rc then 4 else 5
    | .idle => 6

/-- Slack of a session's next token, in ns: the goal time less the predicted one. A recompute without a request has none to wait for. -/
def State.slack (s : State) (x : Session) (c : StepCand) : Int :=
  match x.req with
  | some q => (s.goalTime q : Int) - c.tokenAt
  | none => -(2 ^ 62)

/-- Candidates in the order of R124, with their classes: boosted work past BOOST_MAX_PCT of the step's tokens is ordered with the unboosted work
of its kind (R135). -/
def State.planOrder (s : State) (tokens : Nat) (chunk : Nat) (cands : List StepCand) : List (Nat × StepCand) :=
  let info := cands.filterMap (fun c => (s.sess c.sess).map (fun x => (c, x)))
  let sub : Session → Nat := fun x => match x.req with
    | some q => q.submitTime
    | none => 0
  let le : StepCand × Session → StepCand × Session → Bool := fun a b =>
    decide (s.slack a.2 a.1 < s.slack b.2 b.1) || (decide (s.slack a.2 a.1 = s.slack b.2 b.1) && decide (sub a.2 ≤ sub b.2))
  let of : Nat → List (StepCand × Session) := fun k => (info.filter (fun a => decide (a.2.workClass = k))).mergeSort le
  let size : Session → Nat := fun x => match x.work with
    | .prefill n _ => min n chunk
    | .decode => 1
    | .idle => 0
  let limit := tokens * min 100 (s.fld Fld.schGoalCfg_boostMaxPct) / 100
  let boosted := (of 2).map (fun a => (2, a)) ++ (of 4).map (fun a => (4, a))
  let kept : List (Nat × StepCand × Session) × Nat := boosted.foldl (fun (a : List (Nat × StepCand × Session) × Nat) b =>
    if a.2 + size b.2.2 ≤ limit then (a.1 ++ [b], a.2 + size b.2.2) else a) ([], 0)
  let past := boosted.filter (fun b => !(kept.1.any (fun k => decide (k.2.1.sess = b.2.1.sess))))
  let merge : Nat → Nat → List (StepCand × Session) := fun k up => ((of k) ++ (past.filter (fun b => decide (b.1 = up))).map (·.2)).mergeSort le
  ((of 1).map (fun a => (1, a.1))) ++ ((kept.1.filter (fun b => decide (b.1 = 2))).map (fun b => (2, b.2.1))) ++
    ((merge 3 2).map (fun a => (3, a.1))) ++ ((kept.1.filter (fun b => decide (b.1 = 4))).map (fun b => (4, b.2.1))) ++
    ((merge 5 4).map (fun a => (5, a.1)))

/-! ### Entering (R69, R124, R137) -/

/-- A PARKED session's revive that found no room is asked for again, and a Passbook-only REVIVING session is ACTIVE once it may join a step
(DEDUCED, log 43). -/
def State.wakeSessions (s : State) : State :=
  s.ssn.sessions.rows.foldl (fun (s : State) r =>
    let x := r.2
    let s := if x.st = .parked && x.req.isSome && x.op.isNone && x.placing.isNone && !x.preRevive then (s.startRevive r.1).1 else s
    match s.sess r.1 with
    | none => s
    | some x =>
      let s := if x.recompute.isSome && !x.recomputes then s.updSession r.1 (fun y => { y with recompute := none }) else s
      if x.st = .reviving && !x.kvKept && x.parked.isEmpty then
        let s := match x.op with
          | some m => if m.op = 2 then s.finishR m.rcpt .ok (s.layersRes x) 0 else s
          | none => s
        s.updSession r.1 (fun y => { y with st := .active, op := none })
      else s) s

/-- A step as it is being formed: the entries, the tokens so far, those of unboosted prefill, predicted time in ns, and whether a limit has been
reached. -/
structure Forming where
  sessions : List StepSess
  tokens : Nat
  fill : Nat
  time : Nat
  goal : Nat
  stop : Bool
  deriving DecidableEq, Repr

/-- CHUNK_MAX and CHUNK_MIN (Table 5-14). -/
def State.chunkMax (s : State) : Nat := max 1 (min 8192 (s.fld Fld.schPlanCfg_chunkMax))
/-- CHUNK_MIN: above CHUNK_MAX it is treated as CHUNK_MAX. -/
def State.chunkMin (s : State) : Nat := min s.chunkMax (s.fld Fld.schPlanCfg_chunkMin)
/-- STEP_TOKENS: above 65,536 it is treated as 65,536. -/
def State.stepTokens (s : State) : Nat := min 65536 (s.fld Fld.schPlanCfg_stepTokens)

/-- The tokens a prefill chunk may take; `none`: a limit stops the step (R120, R125, R126, R131). -/
def State.chunkFor (s : State) (role : Role) (cls : Nat) (full : Bool) (f : Forming) (n per : Nat) : Option Nat :=
  let want := min n s.chunkMax
  let room := s.stepTokens - f.tokens
  let budget := min (s.fld Fld.schStepCfg_targetUs) f.goal * 1000
  let byTime := if per = 0 then want else (budget - f.time) / per
  let byFill := if role = .decode && cls = 5 && !full then s.stepTokens * min 100 (s.fld Fld.schPlanCfg_pfFill) / 100 - f.fill else want
  if full then (if want ≤ room && want ≤ byTime then some want else none)
  else
    let k := min want (min room (min byTime byFill))
    if k = want || (s.chunkMin ≤ k && k ≠ 0) then some k else none

/-- Reservation and entry of session `i` with `n` new tokens (R69, R137); the state is unchanged but for the pages and the request where the
session stays out. -/
def State.enterStep (s : State) (m : Model) (i : Nat) (cls n : Nat) (boosted : Bool) : State × Option StepSess :=
  match s.sess i with
  | none => (s, none)
  | some x =>
    let p := x.kvPos
    let startL := (x.req.map (·.startLayer)).getD 0
    let rc := x.recomputes
    let fed := min n (x.passbook.length - p)
    let inp := if rc then 0 else n - fed
    match (match x.req with
      | some q => s.inputToks x.ctx q inp
      | none => if inp = 0 then some [] else none) with
    | none => (s, none)
    | some extra =>
      let toks := (x.pend.take fed) ++ extra
      let last := !rc && (match x.req with
        | some q => decide (inp = q.inputLeft)
        | none => false)
      let k := s.cust x.customer
      let r := k.wPrompt * inp + (if last then k.wGen else 0) + (match x.recompute with
        | some (_, true) => if rc then k.wRecomp * n else 0
        | _ => 0)
      let pg := s.addPages i (x.newPages m p n) .reserved
      let t0 := if pg.2 then pg.1.takeT0 i else (s, false)
      if !t0.2 then (if pg.2 then pg.1.dropPages i (fun q => decide (q.use = .reserved)) else pg.1, none)
      else
        let s := t0.1.updCust x.customer (fun c => c.refillTo s.nodeNs)
        if (s.cust x.customer).available < r then
          let s := (s.dropPages i (fun q => decide (q.use = .reserved))).updCust x.customer (fun c => { c with refused := c.refused + 1 })
          ((s.endRequest i 5 .budget x.customer (BitVec.ofInt 64 ((s.cust x.customer).balance / 256))).raise Evt.sch_budget, none)
        else
          let s := s.updCust x.customer (fun c => c.reserve r)
          let s := s.updSession i (fun y => { y with
            lastInStep := s.now
            req := y.req.map (fun q => { q with openRes := r }) })
          (s, some { sess := i, ctx := x.ctx, ident := s.identOf i x, tag := (x.req.map (·.tag)).getD 0, new := n, toks := toks, inputN := inp,
                     decode := decide (cls = 2) || decide (cls = 3), recompute := rc, startLayer := startL, pos := p,
                     hsr := decide (startL ≠ 0) && x.hsv.isSome, wantLogits := last, boosted := boosted, customer := x.customer, reserve := r,
                     status := none, displacedAt := none, token := none, textOut := [], heldN := 0, finish := 0, newText := none,
                     committed := false })

/-- One candidate in the order of R124. -/
def State.considerSess (s : State) (m : Model) (role : Role) (f : Forming) (cls : Nat) (c : StepCand) : State × Forming :=
  if f.stop then (s, f)
  else
    match s.sess c.sess with
    | none => (s, f)
    | some x =>
      let p := x.kvPos
      let left := x.reservedLen - p
      let n0 := match x.work with
        | .prefill n _ => n
        | .decode => 1
        | .idle => 0
      let resumed := cls = 1
      let n0 := if resumed then (if x.wrPos - p = 0 then min n0 s.chunkMax else x.wrPos - p) else n0
      if n0 = 0 || (role = .prefill && (cls = 2 || cls = 3)) then (s, f)
      else if left = 0 then
        ((s.endRequest c.sess 4 .ok 0 0).finishCancels c.sess, f)
      else if 16384 ≤ f.sessions.length then (s, { f with stop := true })
      else
        let n0 := min n0 left
        let rc := x.recomputes
        let full := rc || (x.boost && decide (cls = 4))
        let pick : Option Nat := if resumed || cls = 2 || cls = 3 then (if f.tokens + n0 ≤ s.stepTokens then some n0 else none)
          else s.chunkFor role cls full f n0 c.perTokNs
        match pick with
        | none => (s, { f with stop := true })
        | some n =>
          let g := s.reportGate c.sess x
          if !g.2 then (g.1, f)
          else
            let r := g.1.enterStep m c.sess cls n (x.boost || rc)
            match r.2 with
            | none => (r.1, f)
            | some e =>
              let goal := match x.req with
                | some q => if e.decode then min f.goal q.tbtGoalUs else f.goal
                | none => f.goal
              (r.1, { f with
                sessions := f.sessions ++ [e]
                tokens := f.tokens + n
                fill := f.fill + (if cls = 5 && !full then n else 0)
                time := f.time + n * c.perTokNs
                goal := goal })

/-! ### The start (R120, R127, R143) -/

/-- The planner's estimate of node power before a start (R143). -/
def State.powerNow (s : State) (watts : Nat) : Nat :=
  watts + ((List.range 8).map (fun g =>
    let x := s.group g
    if x.stepA.isSome || x.stepB.isSome then s.fld Fld.schGroupPower_busyW g else s.fld Fld.schGroupPower_idleW g)).sum

/-- A start of group `g` keeps the ramp's limits (R143). -/
def State.rampOk (s : State) (g watts : Nat) : Bool :=
  let x := s.group g
  let e0 := s.powerNow watts
  let rise := if x.stepA.isSome || x.stepB.isSome then 0 else s.fld Fld.schGroupPower_busyW g - s.fld Fld.schGroupPower_idleW g
  s.fld Fld.schRampCfg_enable = 0 || rise = 0 ||
  (decide (rise ≤ s.fld Fld.schRampCfg_stepMaxW) &&
    s.sch.power.all (fun p => decide ((e0 + rise - p.2) * 1000000 ≤ s.fld Fld.schRampCfg_slewWPerMs * (s.now - p.1))))

/-- The estimate is remembered; earlier ones that are not lower never bind again. -/
def State.notePower (s : State) (watts : Nat) : State :=
  let e := s.powerNow watts
  s.onSch (fun t => { t with power := (t.power.filter (fun p => decide (p.2 < e))) ++ [(s.now, e)] })

/-- The planner may start a step: not in HOLD or later, not at a deficit, not cut back, and not in standby (R4, R18, R19, R359,
R363). -/
def State.plannerOpen (s : State) : Bool :=
  decide (s.fld Fld.pwrStatus_state = 0) && decide (s.fld Fld.pwrStatus_bankLow = 0) && decide (s.fld Fld.pwrStatus_deficit = 0) &&
  !s.arch.cut && !s.arch.standby && s.boot.restart.isNone && (s.hubUp 0 || s.sch.plannerOnQ2)

/-- A formed step starts: its number, its half, its first descriptor (R120, R127). -/
def State.startStep (s : State) (g : Nat) (half : Bool) (f : Forming) : State :=
  let n := s.sch.stepCtr + 1
  let first := f.sessions.foldl (fun a e => min a e.startLayer) 255
  let t : Step := { no := n, group := g, halfB := half, start := s.now, sessions := f.sessions, layer := first, sentAt := s.now, answered := [],
                    atrSent := [], lgt := [], textDone := false }
  let s := s.onSch (fun h => { h with steps := h.steps.put n t, stepCtr := n })
  let x := s.group g
  let s := s.setGroup g (if half then { x with stepB := some n } else { x with stepA := some n })
  let s := (s.publishGroup g).trace 0 2 0 false g n
  s.sendPart n first

/-- `STEP_FORM`: the planner forms and starts a step of a half of group `g`. `baseNs`: predicted time of the step but for its prefill; `watts`: the
controller's measured input power; `cands`: its predictions for the sessions. -/
def execStepForm (g : Nat) (half : Bool) (baseNs watts : Nat) (cands : List StepCand) (s : State) : Ans :=
  .next (if s.frz.frozen || 8 ≤ g then s
  else
    let s := (s.settleGroups.accrueWait.boostEval cands).wakeSessions
    let x := s.group g
    let busy := if half then x.stepB.isSome else x.stepA.isSome
    if !(x.role = .decode || x.role = .prefill || x.role = .mixed) || busy || (half && decide (s.fld Fld.schStepCfg_halves = 0)) || !s.plannerOpen then s
    else
      match s.groupModel g with
      | none => s
      | some m =>
        let able := cands.filter (fun c => match s.sess c.sess with
          | some x => s.mayEnter g c x
          | none => false)
        if able.isEmpty then s
        else if !(s.rampOk g watts) then (s.notePower watts).raise Evt.sch_rampHold
        else
          let order := s.planOrder s.stepTokens s.chunkMax able
          let f0 : Forming := { sessions := [], tokens := 0, fill := 0, time := baseNs, goal := 2 ^ 32, stop := false }
          let r := order.foldl (fun (a : State × Forming) c => a.1.considerSess m x.role a.2 c.1 c.2) (s, f0)
          if r.2.sessions.isEmpty then r.1 else (r.1.notePower watts).startStep g half r.2)

end Sys2Proof.Machine
end

