-- ==== Sys2Proof/Machine/StepEnd.lean ====
section
/-! DEFINITION. The end of a step: logits and the text path, hidden states, commit, settlement and reports (R94, R100, R101, R128, R130, R133,
R137, R140, R141, R159 to R173). -/

namespace Sys2Proof.Machine

/-! ### Logits and the text path (R128, R173) -/

/-- Width of the vocabulary shard of port `k` of `n`: equal shards, the last one taking the remainder (R128). -/
def shardWidth (v n k : Nat) : Nat := if k + 1 = n then v - v / n * (n - 1) else v / n

/-- The rows of a logit shard message, by slot: one BF16 row of `w` values each, every block on a 64-byte boundary. -/
def lgtRows (msg : List Byte) (m : AttnMsg) (w : Nat) : List (Nat × List (BitVec 16)) :=
  (List.range m.entries.length).map (fun j =>
    let base := up64 (32 + 8 * m.nseq) + j * up64 (2 * w)
    (((m.entries[j]?).map (·.1)).getD 0, (List.range w).map (fun i => BitVec.ofNat 16 (leAt msg (base + 2 * i) 2))))

/-- The whole logit row of slot `k`, the shards in port order. -/
def Step.row (t : Step) (ports k : Nat) : List (BitVec 16) :=
  (List.range ports).flatMap (fun j => (t.lgt.filter (fun g => decide (g.1 = j))).flatMap (fun g =>
    (g.2.filter (fun r => decide (r.1 = k))).flatMap (·.2)))

/-- FINISH of a token (R171): the first that applies of stop string, end token, grammar complete, MAX_NEW, RESERVED_LEN. -/
def State.finishCode (s : State) (voc : Table) (y : TextSt) (x : Session) (q : ReqBlk) (e : StepSess) (v : Nat) : Nat :=
  let done := match s.gramFor y with
    | some g => g.final (y.frames.headD 0)
    | none => false
  if y.stopped then 2
  else if voc.endId = some v then 1
  else if done then 6
  else if q.maxNew ≠ 0 && q.maxNew ≤ q.generated + 1 then 3
  else if x.reservedLen ≤ e.pos + e.new then 4
  else 0

/-- The text work of slot `k`: mask, sample, advance, convert (R173). A dead configuration gives no token and FINISH 8 (R160). -/
def State.textSlot (s : State) (n k ports : Nat) : State :=
  match s.sch.steps.look n with
  | none => s
  | some t =>
    match t.sessions[k]? with
    | none => s
    | some e =>
      match s.sess e.sess with
      | none => s
      | some x =>
        match s.vocabFor x, x.req with
        | some voc, some q =>
          let s := s.unitServe 4 ((s.hubsUp[k % max 1 s.hubsUp.length]?).getD 0) e.ctx
          let r := s.sample voc x.text (t.row ports k)
          let s := s.bump.countSample r
          match r.token with
          | none =>
            ((s.count .txtClrDead 0 1).raise Evt.txt_clrDead).updStep n (fun t => t.updSlot k (fun e => { e with finish := 8 }))
          | some v =>
            let y := s.advanceGram voc { x.text with drbgPos := x.text.drbgPos + r.draws } v
            let c := y.change voc v
            let f := s.finishCode voc c.1 x q e v
            let z := if f = 0 || f = 2 then c else ((c.1.flush).1, c.2 ++ (c.1.flush).2)
            let s := if f = 2 then (s.count .txtStopFinish 0 1).raise Evt.txt_stop else s
            s.updStep n (fun t => t.updSlot k (fun e =>
              { e with token := some v, textOut := z.2, heldN := z.1.held.length, finish := f, newText := some z.1 }))
        | _, _ => s

/-- Sessions of the step displaced past layer 0 whose hidden states have not come resume at layer 0 and rewrite their KV (R130). -/
def State.hsvCheck (s : State) (t : Step) : State :=
  t.sessions.foldl (fun (s : State) e =>
    match (s.sess e.sess) with
    | none => s
    | some x =>
      let l := (x.req.map (·.startLayer)).getD 0
      if e.status = some 0x0070 && e.displacedAt = some l && l ≠ 0 && x.hsv.isNone then
        ((s.unwrite e.sess 0).updSession e.sess (fun x => { x with req := x.req.map (fun q => { q with startLayer := 0 }) })).raise Evt.sch_hsvMissing
      else s) s

/-- `LGT`: a logit shard arrives; after the last one the text path runs for every session that wants logits (R128, R173). -/
def execLgt (p : Nat) (msg : List Byte) (s : State) : Ans :=
  .next (if s.frz.frozen then s
  else
    let m := parseMsg msg
    match s.stepOn p m.step, (s.groupOf p).bind s.groupModel with
    | some t, some md =>
      let ports := s.groupPorts t.group
      let k := (ports.takeWhile (fun q => decide (q ≠ p))).length
      let w := shardWidth md.vocabSize ports.length k
      let want := (t.live.filter (fun e => e.2.wantLogits)).map (·.1)
      let rows := lgtRows msg m w
      let ok := decide (m.ty = 0x14) && decide (m.layer = k % 256) && decide (t.layer = s.lastPart t) && !want.isEmpty && !t.textDone &&
        !(t.lgt.any (fun g => decide (g.1 = k))) && want.all (fun j => m.entries.any (fun e => decide (e.1 = j))) &&
        m.entries.all (fun e => want.contains e.1 && decide (e.2.1 = 1)) && decide (up64 (32 + 8 * m.nseq) + m.nseq * up64 (2 * w) ≤ msg.length)
      if !ok then s
      else
        let s := s.updStep t.no (fun t => { t with lgt := t.lgt ++ [(k, rows)] })
        if t.lgt.length + 1 < ports.length then s
        else
          let s := s.hsvCheck t
          let s := want.foldl (fun (s : State) j => s.textSlot t.no j ports.length) s
          s.updStep t.no (fun t => { t with textDone := true, lgt := [] })
    | _, _ => s)

/-- `HSV`: the hidden-state rows of displaced sessions are stored (R130). -/
def execHsv (p : Nat) (msg : List Byte) (s : State) : Ans :=
  .next (if s.frz.frozen then s
  else
    let m := parseMsg msg
    match s.stepOn p m.step, (s.groupOf p).bind s.groupModel with
    | some t, some md =>
      if m.ty ≠ 0x15 || s.groupLead t.group ≠ some p || t.textDone then s
      else
        (m.entries.foldl (fun (a : State × Nat) e =>
          let n := 2 * e.2.1 * md.dModel
          let next := a.2 + up64 n
          match t.sessions[e.1]? with
          | some q =>
            if q.status = some 0x0070 && q.displacedAt = some m.layer && q.new = e.2.1 && a.2 + n ≤ msg.length then
              (a.1.updSession q.sess (fun x => { x with hsv := some (m.layer, takeAt msg a.2 n) }), next)
            else (a.1, next)
          | none => (a.1, next)) (s, up64 (32 + 8 * m.nseq))).1
    | _, _ => s)

/-! ### Commit (R94, R100, R101, R137, R161) -/

/-- Every page of a layer whose positions all lie in [SINKS, KV_LEN − WINDOW] is freed (R100). -/
def State.trimLayer (s : State) (i l : Nat) (f : LayerForm) (fmt len : Nat) : State :=
  let t := max 1 (tpp f fmt)
  if f.kind = 0 && f.trim && f.window ≠ 0 && s.fld Fld.kvaCfg_trimEn = 1 then
    s.dropPages i (fun q => decide (q.kind = 0) && decide (q.layer = l) && decide (f.sinks ≤ q.blk * t) && decide ((q.blk + 1) * t - 1 + f.window ≤ len))
  else s

/-- Digest-build descriptors for the blocks a commit completes: one for each page of a block (R101). -/
def State.buildDigests (s : State) (i l : Nat) (f : LayerForm) (old new : Nat) : State :=
  if f.kind ≠ 0 || f.sparseB = 0 then s
  else
    ((List.range (new / 64)).filter (fun b => decide (old / 64 ≤ b))).foldl (fun (s : State) b =>
      match s.sess i with
      | none => s
      | some x =>
        let t := max 1 (tpp f x.kvFmt)
        let pages := (List.range ((64 * b + 63) / t + 1)).filter (fun j => decide (64 * b / t ≤ j))
        let ds := pages.filterMap (fun j => (x.page 0 l j).map (fun q =>
          { mkDesc 5 x i l q 0 with
            fill := t
            tokenBase := j * t
            first := 64 * b - j * t
            lastRec := min (t - 1) (64 * b + 63 - j * t) }))
        s.emit 0 0 (some (i, x.gen, l, b)) ds) s

/-- KV_LEN becomes KV_WRITTEN in every layer, recurrent copies change over, trimmed pages go and digests are built (R94, R100 to R102). -/
def State.commitKv (s : State) (i pos new : Nat) : State :=
  match s.sess i with
  | none => s
  | some x =>
    match s.modelOf x with
    | none => s
    | some m =>
      let s := s.settlePages i m.forms.length
      ((List.range m.forms.length).foldl (fun (s : State) l =>
        match m.forms[l]?, s.sess i with
        | some f, some x =>
          let y := x.layer l
          let w := if f.kind = 2 then pos + new else y.kvWritten
          let s := s.updSession i (fun x => { x with layers := x.layers.put l { y with kvLen := w, kvWritten := w, activeB := y.activeB ^^ decide (f.kind = 1) } })
          (s.buildDigests i l f y.kvLen w).trimLayer i l f x.kvFmt w
        | _, _ => s) s).mirrorKv i

/-- Passbook entries a session's commit appends: its input tokens, then the token generated (R121, R140). -/
def StepSess.appends (e : StepSess) (kind : Nat) : List PbEntry :=
  ((e.toks.drop (e.new - e.inputN)).map (fun t => (⟨t, kind, false⟩ : PbEntry))) ++ (e.token.toList.map (fun t => (⟨t, 1, false⟩ : PbEntry)))

/-- What a session's commit charges, before the reservation caps it (R137). -/
def StepSess.cost (e : StepSess) (k : Customer) (paid : Bool) : Nat :=
  k.wPrompt * e.inputN + (if e.token.isSome then k.wGen else 0) + (if e.recompute && paid then k.wRecomp * e.new else 0)

/-- TTFT or TBT of a token released now joins its customer's histogram (R133). -/
def State.timeToken (s : State) (q : ReqBlk) : State :=
  let t := s.nodeNs
  if q.lastTokenTime = 0 then
    s.onLnk (fun l => { l with ttft := l.ttft.put q.customer (histAdd (l.ttft.lookD q.customer []) (histBin 1000000 (t - q.submitTime))) })
  else
    s.onLnk (fun l => { l with tbt := l.tbt.put q.customer (histAdd (l.tbt.lookD q.customer []) (histBin 1000000 (t - q.lastTokenTime))) })

/-- The session of slot `k` commits: KV, Passbook, text state, request and Ledger change in one handshake, and its request may finish. -/
def State.commitSlot (s : State) (n k : Nat) : State :=
  match (s.sch.steps.look n).bind (fun t => t.sessions[k]?) with
  | none => s
  | some e =>
    match s.sess e.sess with
    | none => s
    | some x =>
      let kind := (x.req.map (·.kind)).getD 0
      let es := e.appends kind
      let text := (es.foldl (fun (a : TextSt × List PbEntry) p => (a.1.countEntry a.2 p, a.2 ++ [p])) (e.newText.getD x.text, x.passbook)).1
      let paid := match x.recompute with
        | some (_, p) => p
        | none => false
      let cost := e.cost (s.cust e.customer) paid
      let s := (s.commitKv e.sess e.pos e.new).appendPb e.sess es n
      let s := s.updCust e.customer (fun c => (c.refillTo s.nodeNs).settle e.reserve cost)
      let s := match x.req with
        | some q => if e.token.isSome then s.timeToken q else s
        | none => s
      let s := s.updSession e.sess (fun y => { y with
        text := text
        hsv := none
        lateLayer := none
        recompute := if e.recompute then (if y.kvPos < y.goal then y.recompute.map (fun r => (r.1 - e.new, r.2)) else none) else y.recompute
        req := y.req.map (fun q => { q with
          inputLeft := q.inputLeft - e.inputN
          generated := q.generated + e.token.toList.length
          startLayer := 0
          openRes := 0
          waitSince := s.now
          lastTokenTime := if e.token.isSome then s.nodeNs else q.lastTokenTime }) })
      let s := s.updStep n (fun t => t.updSlot k (fun e => { e with committed := true, status := if e.finish = 8 then some 0x00F0 else e.status }))
      if e.finish = 0 then s
      else if e.finish = 8 then (s.endRequest e.sess 8 .aborted 5 0).finishCancels e.sess
      else (s.endRequest e.sess e.finish .ok 0 0).finishCancels e.sess

/-- The work of a step is done: every descriptor answered, no attention left, the text path run, and both Passbook copies there to append to; the new
dirty bytes have room in the flush budget (R65, R128, R359; log 44). -/
def State.stepReady (s : State) (t : Step) : Bool :=
  let live := t.live
  let new := (live.map (fun p => 4 * (p.2.inputN + p.2.token.toList.length))).sum
  live.isEmpty ||
  (decide (t.layer = s.lastPart t) && t.answered.contains t.layer && t.atrSent.contains t.layer && !(s.kva.ops.any (fun _ o => decide (o.step = t.no))) &&
    (t.textDone || !(live.any (fun p => p.2.wantLogits))) &&
    live.all (fun p => match s.sess p.2.sess with
      | some x => x.pbA.isSome && x.pbB.isSome
      | none => true) &&
    (decide (new = 0) || decide (s.dirtyTotal + new ≤ (s.rd .pwrBudget).toNat)))

/-- `STEP_COMMIT`: the step of a half ends: its sessions commit, its reports are released and the books are settled (R94, R137, R140). -/
def execStepCommit (g : Nat) (half : Bool) (s : State) : Ans :=
  .next (if s.frz.frozen || 8 ≤ g then s
  else
    let x := s.group g
    match (if half then x.stepB else x.stepA).bind s.sch.steps.look with
    | none => s
    | some t =>
      if !(s.stepReady t) then s
      else
        let first := t.live.filterMap (fun p => match (s.sess p.2.sess).bind (·.req) with
          | some q => if p.2.token.isSome && q.lastTokenTime = 0 then some p.2.sess else none
          | none => none)
        let pf := ((t.live.filter (fun p => !p.2.decode)).map (fun p => p.2.new)).sum
        let s := (s.accrueWait.hsvCheck t).onSch (fun h => { h with prefills := (h.prefills.filter (fun p => decide (s.now < p.1 + 10000000000))) ++ [(s.now, pf)] })
        let s := t.live.foldl (fun (s : State) p => s.commitSlot t.no p.1) s
        match s.sch.steps.look t.no with
        | none => s
        | some t =>
          (s.makeReports t first).endStep t)

/-- `STEP_REPORT_SEND`: the oldest report of context `n` goes over its Sinil port, or over the other one where that port cannot take it (R140, R141). -/
def execStepReportSend (n : Nat) (s : State) : Ans :=
  .next (if s.frz.frozen || s.fld Fld.schCtxReport_enable n = 0 || s.ctxState n = 2 then s
  else
    match s.sch.reports.find? (fun r => decide (r.ctx = n)) with
    | none => s
    | some r =>
      let p := 20 + s.fld Fld.schCtxReport_port n
      let up := fun q => decide (s.portSt q = 5)
      let port := if up p then some p else if up (41 - p) then some (41 - p) else none
      match port with
      | none => s
      | some q =>
        let conn := s.fld Fld.schCtxReport_connection n
        let rest := s.sch.reports.filter (fun k => !(decide (k.ctx = n) && decide (k.step = r.step) && decide (k.group = r.group)))
        (s.onSch (fun h => { h with reports := rest })).sendOn q 2 conn r.bytes (.stepReport q conn r))

end Sys2Proof.Machine
end

