-- ==== Sys2Proof/Machine/Run.lean ====
section
/-! DEFINITION. Images and runs: loading and releasing an image (R24 to R29), starting, queueing, cancelling and ending a run (R30 to R35,
R37, R50, R51). -/

namespace Sys2Proof.Machine

/-! ### Images -/

/-- ASCII "KEAGON" and two zero bytes, as a little-endian number. -/
def magicImage : Nat := leNat [0x4B, 0x45, 0x41, 0x47, 0x4F, 0x4E, 0, 0]

/-- The length an image's header fixes (R24). -/
def imageLen (hd : List Byte) : Nat := 0x100 + leAt hd 0x20 4 + leAt hd 0x24 4 + leAt hd 0x34 4

/-- The staged image at a hub-SRAM address: as many bytes as its header fixes, or the header alone where that passes the limit (R24). -/
def State.stagedImage (s : State) (a : Nat) : List Byte :=
  let hd := s.bytesAt (keyHub a) 0x100
  if imageLen hd ≤ 1048576 then s.bytesAt (keyHub a) (imageLen hd) else hd

/-- Bytes of the loaded images: the same in the image area of every hub in service (R29). -/
def State.imageBytes (s : State) : Nat := (s.tlr.images.rows.map (fun r => r.2.bytes)).sum

/-- Check 2 of R26: MAGIC, HDR_VER, the reserved fields, ENTRY_COUNT, SIG_ALG and SIG_LEN. -/
def imageForm (d : List Byte) : Bool :=
  let flags := leAt d 0x0C 4
  decide (leAt d 0 8 = magicImage) && decide (leAt d 0x0A 2 = 1) && decide (flags < 4) && decide (leAt d 0x10 1 < 64) &&
  decide (leAt d 0x11 1 < 4) && decide (leAt d 0x12 2 = 0) && decide (leAt d 0x2C 4 = 0) && decide (leAt d 0x38 8 = 0) &&
  decide (1 ≤ leAt d 0x30 2) && decide (leAt d 0x30 2 ≤ (if bit flags 0 then 15 else 16)) && decide (leAt d 0x32 2 = 1) &&
  decide (leAt d 0x34 4 = 3309)

/-- The ISA versions R27 accepts: 3.0, and 2.0 to 2.7 in compatibility mode. -/
def isaAccepted (d : List Byte) : Bool :=
  (decide (leAt d 0x08 1 = 3) && decide (leAt d 0x09 1 = 0)) || (decide (leAt d 0x08 1 = 2) && decide (leAt d 0x09 1 ≤ 7))

/-- Bytes up to the end of the read-only data. -/
def imageSigned (d : List Byte) : Nat := 0x100 + leAt d 0x20 4 + leAt d 0x24 4

/-- The image-signing key of context `n` in slot `k`. -/
def State.imageKey (s : State) (n k : Nat) : Option (List Byte) := (s.ctx n).bind (fun c => c.record.images[k]?)

/-- The first check of R26 that fails, by number; 0 where all pass. -/
def State.imageCheck (s : State) (l : ImgLoad) : Nat :=
  let d := l.bytes
  let n := leAt d 0x10 1 % 64
  let m := imageSigned d
  if 1048576 < imageLen d || leAt d 0x20 4 % 8 ≠ 0 then 1
  else if !(imageForm d) then 2
  else if !(isaAccepted d) then 3
  else if !(s.resident n && s.actsFor l.requester n) then 4
  else if Config.shake256 (d.take 0xC0 ++ (d.take m).drop 0x100) 64 ≠ takeAt d 0xC0 64 then 5
  else if !(match s.imageKey n (leAt d 0x11 1 % 4) with
      | none => false
      | some k => Config.mlDsa65Verify k (d.take m) (d.drop m)) then 6
  else if leAt d 0x14 4 < (s.rd .secCtxFloor n).toNat then 7
  else if s.tlr.images.has l.slot then 8
  else if 33554432 < s.imageBytes + imageLen d then 9
  else 0

/-- The image a staged copy becomes: its code translated where it is 2.x (R223); the FREEZE right asked for counts only where the context
holds it (R26). -/
def State.imageOf (s : State) (l : ImgLoad) : Image :=
  let d := l.bytes
  let n := leAt d 0x10 1 % 64
  let flags := leAt d 0x0C 4
  let compat := decide (leAt d 0x08 1 = 2)
  let words : List Word := (List.range (leAt d 0x20 4 / 8)).map (fun i => BitVec.ofNat 64 (leAt d (0x100 + 8 * i) 8))
  { ident := BitVec.ofNat 64 (leAt d 0x18 8), ctx := n, keySlot := leAt d 0x11 1 % 4, compat := compat, trapEntry := bit flags 0,
    wantsFreeze := bit flags 1 && decide (s.fld Fld.secCtxState_freeze n = 1), rollback := leAt d 0x14 4,
    entryCount := leAt d 0x30 2, entries := (List.range 16).map (fun i => leAt d (0x40 + 8 * i) 8),
    code := if compat then words.map translate2x else words,
    rodata := takeAt d (0x100 + leAt d 0x20 4) (leAt d 0x24 4), timeLimit := leAt d 0x28 4, bytes := imageLen d, draining := false }

/-- `TLR_IMG_STATUS` (Table 2-15). -/
def State.imgStatus (s : State) (st slot reason : Nat) : State :=
  s.wr .tlrImgStatus 0 (BitVec.ofNat 64 (st + slot % 64 * 4 + reason * 256))

/-- `IMG_LOAD`: the staged copy is read and verified from now on (R26). A load that arrives while another is verified waits behind it
(DESIGN CHOICE, log 46). -/
def execImgLoad (rq : Requester) (v : Word) (s : State) : Ans :=
  .next (s.woWrite rq .tlrImgLoad 0 true 0 (fun s =>
    let slot := bits v.toNat 0 6
    let l : ImgLoad := ⟨slot, s.stagedImage (v.toNat - slot), rq⟩
    (s.onTlr (fun t => { t with loads := t.loads ++ [l] })).imgStatus 1 slot 0))

/-- `IMG_VERIFY_DONE`: the first check that fails is recorded and answered, or the image stands in its slot on every hub in service. -/
def execImgVerifyDone (s : State) : Ans :=
  .next (if s.frz.frozen then s
  else
    match s.tlr.loads with
    | [] => s
    | l :: rest =>
      let c := s.imageCheck l
      let img := s.imageOf l
      let s := s.onTlr (fun t => { t with loads := rest })
      if c ≠ 0 then
        ((s.imgStatus 3 l.slot c).raise Evt.tlr_loadRefused).send
          (.loadAnswer l.requester l.slot (if c = 9 then Status.noSpace.code else Status.denied.code))
      else
        let s := (s.onTlr (fun t => { t with images := t.images.put l.slot img })).wr .tlrImgSlot l.slot img.ident
        ((s.imgStatus 2 l.slot 0).raise Evt.tlr_loadDone).send (.loadAnswer l.requester l.slot Status.ok.code))

/-- A draining image slot frees once no run holds it, under way or waiting (R29). -/
def State.sweepImage (s : State) (k : Nat) : State :=
  match s.tlr.images.look k with
  | none => s
  | some img =>
    let held := s.tlr.clerks.any (fun _ cl => match cl.run with
      | some r => decide (r.slot = k)
      | none => false)
    let waits := s.tlr.queues.any (fun _ q => q.any (fun r => decide (r.slot = k)))
    if img.draining && !held && !waits then (s.onTlr (fun t => { t with images := t.images.del k })).wr .tlrImgSlot k 0 else s

/-- A slot drains: no new runs, and it frees with its last one (R29). -/
def State.drainImage (s : State) (k : Nat) : State :=
  (s.onTlr (fun t => { t with images := t.images.upd k (fun i => { i with draining := true }) })).sweepImage k

/-- `IMG_UNLOAD`: the slot drains; only a requester authenticated for the image's context, or firmware, may write it (R29). -/
def execImgUnload (rq : Requester) (v : Word) (s : State) : Ans :=
  let k := bits v.toNat 0 6
  let ok := match s.tlr.images.look k with
    | some img => s.actsFor rq img.ctx
    | none => true
  .next (s.woWrite rq .tlrImgUnload 0 ok 0 (fun s => s.drainImage k))

/-! ### Run completion records -/

/-- A run completion record is sent to its requester and kept on hub `h` (R50). -/
def State.keepRecord (s : State) (rq : Requester) (h : Nat) (rec : RunRec) : State :=
  let s := s.onTlr (fun t => { t with runRecs := t.runRecs.put h rec, lastRecHub := some h })
  let a := Config.runRecAddr h % 2 ^ 48
  ((s.wr .tlrRunHub h (BitVec.ofNat 64 a)).wr .tlrRunStatus 0 (BitVec.ofNat 64 (a + h * 2 ^ 48))).send (.runRecord rq rec)

/-- The hub that keeps a record of hub `h`: itself while in service, otherwise the lowest-numbered hub in service (R50). -/
def State.recordHub (s : State) (h : Nat) : Nat := if s.hubUp h then h else s.hubsUp.headD h

/-- The register hub (R398). -/
def State.regHub (s : State) : Nat := s.fld Fld.glbStatus_regHub

/-- A refused start: a record with CAUSE 4, the status in TRAP_CODE and the value of word 0 [63:16] in EXIT (R31). -/
def State.refuseRun (s : State) (r : RunReq) (st : Status) (aux : Nat) : State :=
  s.keepRecord r.requester s.regHub (RunRec.mk r.tag (BitVec.ofNat 64 aux) 4 0 st.code 0 0)

/-! ### Placement (R31, R32, R350) -/

/-- Context `n` may have a run on clerk `c`: a quiet context's runs stay on its Tellers, and no other context's run goes there (R350). -/
def State.clerkAllowed (s : State) (n c : Nat) : Bool :=
  let t := c / 16 % 64
  let quiet := fun (x : Ctx) => bit x.record.flags 2 && decide (x.record.state ≠ 3)
  s.sec.ctxs.rows.all (fun p => if quiet p.2 then decide (p.1 = n) == p.2.tellers.contains t else true)

/-- Clerk `c` takes a run of context `n`. -/
def State.clerkFree (s : State) (n c : Nat) : Bool := decide ((s.clerk c).st = .free) && s.clerkAllowed n c

/-- FREE clerks of hub `h` for context `n`. -/
def State.freeClerks (s : State) (n h : Nat) : Nat :=
  let tellers := ((List.range 64).filter (fun t => s.clerkAllowed n (h * 1024 + t * 16))).length
  16 * tellers - s.tlr.clerks.countIf (fun c cl => decide (hubOfClerk c = h) && decide (cl.st ≠ .free) && s.clerkAllowed n c)

/-- The lowest FREE clerk of hub `h` for context `n` (DESIGN CHOICE, log 9). -/
def State.firstClerk (s : State) (n h : Nat) : Option Nat := lowestFree (fun c => !(s.clerkFree n c)) (h * 1024) 1024

/-- A run request stands in its queue behind those of equal or higher PRIO (R32). -/
def enqueueRun (q : List RunReq) (r : RunReq) : List RunReq :=
  q.takeWhile (fun x => decide (r.prio ≤ x.prio)) ++ r :: q.dropWhile (fun x => decide (r.prio ≤ x.prio))

/-- Waiting requests of hub `h`. -/
def State.runQueue (s : State) (h : Nat) : List RunReq := s.tlr.queues.lookD h []

/-- The hub in service with the most of something, ties to the lower number. -/
def mostOf (f : Nat → Nat) (l : List Nat) : Option Nat :=
  l.foldl (fun (a : Option Nat) h => match a with
    | none => some h
    | some b => if f b < f h then some h else some b) none

/-- The registers of a run's start (R37): ARG[0..5] in s1 to s6, RUN_TAG in s7, the top of the stack in s31. -/
def startRegs (c : Nat) (r : RunReq) : Tbl Nat Word :=
  ⟨(31, BitVec.ofNat 64 (stackOf c + 65536)) :: (7, r.tag) :: (List.range 6).map (fun i => (i + 1, r.args.getD i 0))⟩

/-- A run starts on clerk `c`; a clerk that last served another context is swept first (R35, R37, R334). -/
def State.beginRun (s : State) (c : Nat) (r : RunReq) : State :=
  match s.tlr.images.look r.slot with
  | none => s
  | some img =>
    let cl := s.clerk c
    let other := match cl.lastCtx with
      | some k => decide (k ≠ img.ctx)
      | none => false
    let s := s.unitServe 0 c img.ctx
    let s := if other then s.zeroRange (keyStack (c * 65536)) (keyStack (c * 65536) + 65536) else s
    let us := if r.timeLimit = 0 then img.timeLimit else r.timeLimit
    let run : Run := { slot := r.slot, ctx := img.ctx, entry := r.entry, prio := r.prio, tag := r.tag, requester := r.requester,
                       deadline := if us = 0 then none else some (s.now + us * 1000), grace := none, startedAt := s.now, ending := none,
                       orphans := 0 }
    s.setClerk c { st := .ready, kept := .ready, pc := BitVec.ofNat 64 (img.entries.getD r.entry 0), sreg := startRegs c r,
                   hreg := .empty, preg := .empty, dreg := .empty, slots := if other then .empty else cl.slots, run := some run,
                   handler := false, waitFor := none, waitUntil := none, stall := none, lastCtx := some img.ctx }

/-- The mean duration of the runs that ended on hub `h` over the last 10 ms, in µs, and never less than 10 µs (R32). -/
def meanUs (now : Nat) (l : List (Nat × Nat)) : Nat :=
  let d := (l.filter (fun p => decide (now ≤ p.1 + 10000000))).map (·.2)
  max 10 (if d.isEmpty then 0 else (d.sum / d.length + 999) / 1000)

/-- The queue a request waits in (R31): its preferred hub's while that is in service, else the shortest, ties to the lower hub. -/
def State.waitHub (s : State) (pref : Option Nat) : Nat :=
  match pref with
  | some h => h
  | none => (mostOf (fun h => 1048576 - (s.runQueue h).length) s.hubsUp).getD 0

/-- A request of context `n` is placed on a FREE clerk, or waits (R31, R32). A request re-dispatched from a failed hub enters its queue ahead of
later ones of equal PRIO and past the limit (R33). -/
def State.dispatchRun (s : State) (n : Nat) (r : RunReq) (again : Bool) : State :=
  let pref := if !again && decide (r.hub < 4) && s.hubUp r.hub then some r.hub else none
  let here := match pref with
    | some h => if 0 < s.freeClerks n h then some h else none
    | none => none
  let hub := match here with
    | some h => some h
    | none => (mostOf (fun h => s.freeClerks n h) s.hubsUp).bind (fun h => if 0 < s.freeClerks n h then some h else none)
  match hub.bind (fun h => s.firstClerk n h) with
  | some c => s.beginRun c r
  | none =>
    let h := s.waitHub pref
    let q := s.runQueue h
    if !again && decide (16384 ≤ q.length) then
      let x := s.retryAfter n 3 ladderFast (meanUs s.now (s.tlr.durations.lookD h []))
      (x.1.raise Evt.tlr_runQueueFull).refuseRun r .admitDefer x.2
    else s.onTlr (fun t => { t with queues := t.queues.put h (enqueueRun q r) })

/-- The run request block (Table 2-2). ARG[5] is read at 0x38: six arguments do not end before it (DEDUCED, log 47). -/
def runReqOf (d : List Byte) (rq : Requester) : RunReq :=
  let w := leAt d 0 8
  { slot := bits w 0 6, entry := bits w 6 4, hub := bits w 10 3, prio := bits w 13 2, timeLimit := bits w 32 32,
    tag := BitVec.ofNat 64 (leAt d 8 8), args := (List.range 6).map (fun i => BitVec.ofNat 64 (leAt d (16 + 8 * i) 8)), requester := rq }

/-- `RUN_START`: authentication first once SLOT holds an image, then the refusals of R31, then placement. -/
def execRunStart (rq : Requester) (v : Word) (s : State) : Ans :=
  let d := s.bytesAt (keyHub v.toNat) 64
  let r := runReqOf d rq
  let img := s.tlr.images.look r.slot
  let ok := match img with
    | some i => s.actsFor rq i.ctx
    | none => true
  .next (s.woWrite rq .tlrRunStart 0 (ok || decide (low6 v ≠ 0)) (low6 v) (fun s =>
    match img with
    | none => s.refuseRun r .denied 2
    | some i =>
      if decide (i.entryCount ≤ r.entry) || decide (4 < r.hub) || decide (bits (leAt d 0 8) 15 17 ≠ 0) || i.draining || !(s.resident i.ctx) then
        s.refuseRun r .denied 2
      else s.dispatchRun i.ctx r false))

/-! ### Cancelling and ending -/

/-- Every run, waiting or under way, that satisfies a predicate over tag and context is cancelled (R34). -/
def State.cancelRuns (s : State) (p : Word → Nat → Bool) : State :=
  let s := (s.tlr.clerks.keysIf (fun _ cl => match cl.run with
      | some r => p r.tag r.ctx && (decide (cl.st = .ready) || decide (cl.st = .waiting))
      | none => false)).foldl (fun (s : State) c => match (s.clerk c).run with
      | some r => s.endRun c (RunRec.mk r.tag 0 3 0 0 0 0)
      | none => s) s
  (List.range 4).foldl (fun (s : State) h =>
    let ctxOf : RunReq → Nat := fun r => match s.tlr.images.look r.slot with
      | some i => i.ctx
      | none => 64
    let out := (s.runQueue h).filter (fun r => p r.tag (ctxOf r))
    if out.isEmpty then s
    else
      let s := s.onTlr (fun t => { t with queues := t.queues.put h ((s.runQueue h).filter (fun r => !(p r.tag (ctxOf r)))) })
      out.foldl (fun (s : State) r => (s.keepRecord r.requester (s.recordHub h) (RunRec.mk r.tag 0 3 0 0 0 0)).sweepImage r.slot) s) s

/-- Some run, waiting or under way, satisfies a predicate over tag and context. -/
def State.anyRun (s : State) (p : Word → Nat → Bool) : Bool :=
  s.tlr.clerks.any (fun _ cl => match cl.run with
    | some r => p r.tag r.ctx
    | none => false) ||
  s.tlr.queues.any (fun _ q => q.any (fun r => match s.tlr.images.look r.slot with
    | some i => p r.tag i.ctx
    | none => false))

/-- `RUN_CANCEL` (R34): only runs of contexts the requester is authenticated for. -/
def execRunCancel (rq : Requester) (tag : Word) (s : State) : Ans :=
  .next (s.woWrite rq .tlrRunCancel 0 true 0 (fun s =>
    let p := fun (t : Word) (n : Nat) => decide (t = tag) && s.actsFor rq n
    if s.anyRun p then s.cancelRuns p else s.raise Evt.tlr_cancelNomatch))

/-- The first waiting request of hub `h` that clerk `c` may take is placed on it (R31, R350). -/
def State.dequeueRun (s : State) (h c : Nat) : State :=
  let q := s.runQueue h
  let ok : RunReq → Bool := fun r => match s.tlr.images.look r.slot with
    | some i => s.clerkFree i.ctx c
    | none => false
  match q.find? ok with
  | none => s
  | some r =>
    let rest := q.takeWhile (fun x => !(ok x)) ++ (q.dropWhile (fun x => !(ok x))).drop 1
    (s.onTlr (fun t => { t with queues := t.queues.put h rest })).beginRun c r

/-- `RUN_DRAIN_DONE`: a DRAINING clerk has no occupied slot left. ORPHANS is final, the record is sent and kept, the clerk becomes FREE, a
draining image may free, and a waiting request is placed (R29, R31, R50, R51). -/
def execRunDrainDone (c : Nat) (s : State) : Ans :=
  .next (let cl := s.clerk c
  let h := hubOfClerk c
  match cl.run with
  | none => s
  | some r =>
    match r.ending with
    | none => s
    | some rec =>
      if cl.st = .draining && cl.busySlots.isEmpty && s.hubUp h && !s.frz.frozen then
        let s := s.setClerk c { cl with st := .free, run := none, handler := false }
        let s := s.keepRecord r.requester h { rec with orphans := r.orphans }
        let old := (s.tlr.durations.lookD h []).filter (fun p => decide (s.now ≤ p.1 + 10000000))
        let s := s.onTlr (fun t => { t with durations := t.durations.put h (old ++ [(s.now, s.now - r.startedAt)]) })
        (s.sweepImage r.slot).dequeueRun h c
      else s)

end Sys2Proof.Machine
end

