-- ==== Sys2Proof/Machine/Obj.lean ====
section
/-! DEFINITION. OPEN, BIND and DROP (R38 to R40, R58 to R60, R63, R211, R212). -/

namespace Sys2Proof.Machine

/-- What an OPEN comes to: a refusal of Table 2-11, or a handle with what word 0 [63:16] and word 1 hold. -/
inductive Opened
  | denied (reason : Nat) | full (pool : Nat) | later (us : Nat) | ok (h : Handle) (aux : Nat) (w1 : Word)
  deriving DecidableEq, Repr

/-- The lowest free 8 MiB-aligned range below the stack window in context `n`, in units of 8 MiB (R63). -/
def State.freeBlobRange (s : State) (n : Nat) : Nat :=
  let used : Nat → Bool := fun k => s.ssn.sessions.any (fun _ x => decide (x.blobMap = some (n, k * 2 ^ 23))) ||
    s.tlr.granules.any (fun g => decide (g.1 = n) && decide (g.2 / 128 = k))
  (lowestFree used 0 (s.ssn.sessions.size + s.tlr.granules.length + 1)).getD 0

/-- Session `i`'s blob area is mapped in context `n`; an area already mapped there keeps its offset (R63). -/
def State.mapBlob (s : State) (i n : Nat) : State × Nat :=
  match (s.sess i).bind (·.blobMap) with
  | some (_, o) => (s, o)
  | none =>
    let o := s.freeBlobRange n * 2 ^ 23
    (s.updSession i (fun x => { x with blobMap := some (n, o) }), o)

/-- A session is opened: its area mapped, its handle made. -/
def State.openSession (s : State) (i n rights : Nat) (o : Word) : State × Opened :=
  let m := s.mapBlob i n
  (m.1, .ok (mkHandle n 1 rights o) m.2 o)

/-- The rights an OPEN grants: those held, within REQ; REQ 0 asks for all (R211). -/
def grantRights (held req : Nat) : Nat := if req = 0 then held else held &&& req

/-- The stacks of a new session's directory copies: those of R61, or the next in service. -/
def State.dirStacks (s : State) (i : Nat) : Option Nat × Option Nat :=
  let f := fun m => if s.stackUp m then some m else s.nextStack m
  (f (i % 24), f ((i % 24 + 6) % 24))

/-- A creating OPEN of a session (R58 to R60). -/
def State.openNewSession (s : State) (n req : Nat) (o : Word) : State × Opened :=
  if ssnHome o ≠ s.self || ssnCtx o ≠ n then (s, .denied 1)
  else
    match s.newIndex with
    | .full => (s, .full 0x0001)
    | .hold ns =>
      let r := s.retryAfter n 0 ladderFast ((ns + 999) / 1000)
      (r.1, .later r.2)
    | .index i =>
      let d := s.dirStacks i
      let s := (s.createSession i n).updSession i (fun x => { x with dirA := d.1, dirB := d.2 })
      let o := match s.sess i with
        | some x => s.identOf i x
        | none => 0
      s.openSession i n (grantRights 0xFF req) o

/-- A creating OPEN of a signal (R212). -/
def State.openNewSignal (s : State) (n req : Nat) (o : Word) : State × Opened :=
  if sigCtx o ≠ n then (s, .denied 1)
  else
    let live : Nat → Bool := fun i => match s.tlr.signals.look i with
      | some g => g.live
      | none => false
    match lowestFree live 0 4096 with
    | none => (s, .full 0x0301)
    | some i =>
      let gen := match s.tlr.signals.look i with
        | some g => g.gen
        | none => 1
      let s := s.onTlr (fun t => { t with signals := t.signals.put i ⟨gen, true, n, 0, 0, []⟩ })
      (s, .ok (mkHandle n 11 (grantRights 0xFF req) (sigIdent n i gen)) 0 (sigIdent n i gen))

/-- Whether an identifier of TYPE carries its context (Table 3-1, R212, R253, R270, R176), and which. -/
def identCtx (ty : Nat) (o : Word) : Option Nat :=
  match ty with
  | 1 => some (ssnCtx o)
  | 2 => some (bits o.toNat 58 6)
  | 4 => some (sigCtx o)
  | 7 => some (sigCtx o)
  | 11 => some (sigCtx o)
  | _ => none

/-- An object whose identifier carries no context exists, whoever owns it: a domain region's index, an accelerator's lead, a table. -/
def State.objThere (s : State) (ty : Nat) (o : Word) : Bool :=
  match ty with
  | 5 => s.dmap.regions.has (bits o.toNat 48 14)
  | 6 => decide (o.toNat < 65536)
  | 8 => (s.groupOfLead o.toNat).isSome
  | 9 => (tableNamed s.txt.vocabs o).isSome
  | 10 => (tableNamed s.txt.grams o).isSome
  | _ => false

/-- The identifier names a table of the other kind (R211). -/
def State.otherKind (s : State) (ty : Nat) (o : Word) : Bool :=
  (decide (ty = 9) && (tableNamed s.txt.grams o).isSome) || (decide (ty = 10) && (tableNamed s.txt.vocabs o).isSome)

/-- OPEN of an existing object: another context's gives reason 1, a wrong kind reason 2, and one that does not exist or has another
generation reason 3 (R38, R211). A customer is bound to the context that opens it first. -/
def State.openOld (s : State) (n ty req : Nat) (o : Word) : State × Opened :=
  match identCtx ty o with
  | some c =>
    if c ≠ n then (s, .denied 1)
    else if !(s.objCurrent ty o) then (s, .denied 3)
    else if ty = 1 then s.openSession (ssnIndex o) n (grantRights 0xFF req) o
    else (s, .ok (mkHandle n ty (grantRights 0xFF req) o) 0 o)
  | none =>
    if !(s.objThere ty o) then (s, .denied (if s.otherKind ty o then 2 else 3))
    else if s.rightsHeld n ty o = 0 then (s, .denied 1)
    else if !(s.objCurrent ty o) then (s, .denied 3)
    else
      let h := mkHandle n ty (grantRights (s.rightsHeld n ty o) req) o
      let s := if ty = 6 then s.updCust o.toNat (fun k => { k with bound := some n }) else s
      (s, .ok h 0 o)

/-- OPEN (R211): no type but sessions and signals is created. A context being swept takes no new OPENs (R336; reason 2, DEDUCED, log 49). -/
def State.openAny (s : State) (n ty req : Nat) (o : Word) : State × Opened :=
  if ty = 0 || 12 ≤ ty || !(s.resident n) then (s, .denied 2)
  else if ty = 1 && ssnGen o = 0 then s.openNewSession n req o
  else if ty = 11 && sigGen o = 0 then s.openNewSignal n req o
  else s.openOld n ty req o

/-- OPEN at issue: h[H] is empty until the WAIT that consumes the Receipt. -/
def doOpen (o : Op) (s : State) : State :=
  let ix := o.ix
  let s := s.setHandle ix.c (wH ix.w) 0
  let r := s.openAny ix.run.ctx (wImm24 ix.w % 16) (wImm24 ix.w / 16 % 256) ix.ra
  match r.2 with
  | .denied k => r.1.deny o k
  | .full p => r.1.finish o .noSpace p 0
  | .later us => r.1.finish o .admitDefer us 0
  | .ok h aux w1 =>
    let cl := r.1.clerk ix.c
    let s := r.1.setClerk ix.c (cl.setSlot o.r.slot { cl.slot o.r.slot with openH := some (wH ix.w, h) })
    s.finish o .ok aux w1

/-- `OPEN`. -/
def execOpenObj (c : Nat) (s : State) : Ans := .next (s.onWord c (isMajor 0x10) (fun ix => s.issueLong ix .open [] doOpen))

/-- BIND (R212): a copy of h[H2] with its rights narrowed by IMM [7:0]; a failed check raises CAPABILITY. -/
def doBind (ix : Ix) (s : State) : State :=
  let h := ix.cl.h (wH2 ix.w)
  match s.checkHandle ix.run.ctx h [1, 2, 3, 4, 5, 6, 7, 8, 9, 10, 11] rtGrant with
  | some r => s.trap ix.c .capability r ix.cl.pc 0
  | none => (s.setHandle ix.c (wH ix.w) (mkHandle (hCtx h) (hType h) (hRights h &&& wImm24 ix.w % 256) (hObj h))).advance ix.c

/-- `BIND`. -/
def execBind (c : Nat) (s : State) : Ans := .next (s.onWord c (isMajor 0x11) (fun ix => doBind ix s))

/-- DROP (R40): operations outstanding through the handle are cancelled with ABORTED, cause 1; an empty register is left as it is. -/
def doDrop (ix : Ix) (s : State) : State :=
  let i := wH ix.w
  if ix.cl.h i = 0 then s.advance ix.c
  else
    let inst := ix.insts [i]
    let s := ix.cl.busySlots.foldl (fun (s : State) k =>
      if (ix.cl.slot k).via.any (fun v => inst.contains v) then s.postCancel ix.c k 1 else s) s
    (s.setHandle ix.c i 0).advance ix.c

/-- `DROP`. -/
def execDrop (c : Nat) (s : State) : Ans := .next (s.onWord c (isMajor 0x12) (fun ix => doDrop ix s))

end Sys2Proof.Machine
end

