-- ==== Sys2Proof/Machine/IsaMem.lean ====
section
/-! DEFINITION. LD, ST, AMO, the fences and the Escrow instructions (R41 to R43, R206, R207, R220, R304, R305). -/

namespace Sys2Proof.Machine

/-- The access touches the stack window. -/
def touchesStacks (off n : Nat) : Bool := decide (stackWindow < off + n)

/-- The access lies whole in clerk `c`'s own stack. -/
def inOwnStack (c off n : Nat) : Bool := decide (stackOf c ≤ off) && decide (off + n ≤ stackOf c + 65536)

/-- An access from s31 below the base of the clerk's stack, once s31 has passed below it (R42; DEDUCED, log 48). -/
def Ix.belowBase (ix : Ix) (off : Nat) : Bool :=
  decide (wRA ix.w = 31) && decide ((ix.cl.s 31).toNat < stackOf ix.c) && decide (off < stackOf ix.c) && decide (stackOf ix.c ≤ off + 65536)

/-- ADDRESS at the access. -/
def State.addrTrap (s : State) (ix : Ix) : State := s.trap ix.c .address 0 ix.cl.pc ix.addr

/-- An LD with RO set: a byte offset in the image's read-only data (R206). -/
def doLoadRo (ix : Ix) (s : State) : State :=
  let a := ix.addr.toNat
  let n := ix.memBytes
  if ix.img.rodata.length < a + n || a % n ≠ 0 then s.addrTrap ix
  else s.retire ix.c (ix.cl.setRegBytes (wSize ix.w) (wRD ix.w) (ix.w.getLsbD 26) (takeAt ix.img.rodata a n))

/-- The access of a private granule: a write that meets a protected page is held (R260). -/
def State.privAccess (s : State) (ix : Ix) (key : Nat) (stack : Bool) : State :=
  if wMajor ix.w ≠ 0x48 && !((s.protectedAt key).isEmpty) then
    let page := key / 65536 * 65536
    (s.holdWrite page (.clerk ix.c)).setClerk ix.c { ix.cl with stall := some (.copyHold page) }
  else s.clerkMem ix key stack

/-- The kind of a domain access by major: 0 LD, 1 ST, 2 AMO. -/
def domKind (w : Word) : Nat := if wMajor w = 0x48 then 0 else if wMajor w = 0x49 then 1 else 2

/-- LD, ST or AMO at s[RA] + OFF: the checks of R42 in order, then the access in its space. -/
def doMem (ix : Ix) (s : State) : State :=
  let n := ix.memBytes
  match spaceOf ix.addr.toNat with
  | none => s.addrTrap ix
  | some (0, off) =>
    if (touchesStacks off n && !(inOwnStack ix.c off n)) || ix.belowBase off then s.trap ix.c .stack 0 ix.cl.pc ix.addr
    else if touchesStacks off n then
      if off % n ≠ 0 then s.addrTrap ix else s.privAccess ix (keyStack (off - stackWindow)) true
    else
      match s.granuleKey ix.run.ctx off, s.granuleKey ix.run.ctx (off + n - 1) with
      | some key, some _ => if off % n ≠ 0 then s.addrTrap ix else s.privAccess ix key false
      | _, _ => s.addrTrap ix
  | some (1, off) =>
    if !(s.nodeMapped ix.run.ctx off && s.nodeMapped ix.run.ctx (off + n - 1)) || off % n ≠ 0 then s.addrTrap ix else s.clerkNode ix off
  | some (_, off) =>
    match s.dmap.regionAt off with
    | none => s.addrTrap ix
    | some (_, r) =>
      if r.tenant ≠ s.rd .secCtxTenant ix.run.ctx || (ix.img.compat && decide (r.protect = 2)) || off % n ≠ 0 then s.addrTrap ix
      else s.domIssue ix (domKind ix.w) off r.tenant

/-- LD. -/
def doLd (ix : Ix) (s : State) : State := if ix.w.getLsbD 27 then doLoadRo ix s else doMem ix s

/-- `LD`. -/
def execLd (c : Nat) (s : State) : Ans := .next (s.onWord c (isMajor 0x48) (fun ix => doLd ix s))
/-- `ST`. -/
def execSt (c : Nat) (s : State) : Ans := .next (s.onWord c (isMajor 0x49) (fun ix => doMem ix s))
/-- `AMO`: read, changed and written as one step at the owner of the address (R43). -/
def execAmo (c : Nat) (s : State) : Ans := .next (s.onWord c (isMajor 0x4A) (fun ix => doMem ix s))

/-! ### Fences (R43, R207) -/

/-- The word is a FENCE of a scope. -/
def isFence (k : Nat) (ix : Ix) : Bool := decide (wMajor ix.w = 0x4B) && decide (wCode ix.w = k)

/-- `FENCE_M`: the clerk's earlier accesses are performed by then, since it issues one at a time (R45). -/
def execFenceM (c : Nat) (s : State) : Ans := .next (s.onWord c (isFence 0) (fun ix => s.retire c ix.cl))
/-- `FENCE_N`: the earlier accesses to node space are performed at their lines' ordering points by then. -/
def execFenceN (c : Nat) (s : State) : Ans := .next (s.onWord c (isFence 1) (fun ix => s.advance ix.c))
/-- `FENCE_D`: done once every domain store of the clerk is acknowledged. -/
def execFenceD (c : Nat) (s : State) : Ans :=
  .next (s.onWord c (isFence 2) (fun ix =>
    if s.storesOut c then s.setClerk c { ix.cl with stall := some .fenceD } else s.retire c ix.cl))

/-! ### Escrow (R220, R304, R305) -/

/-- An Escrow instruction on the region in h[H]: an ESC.PUB first waits as FENCE.D would. -/
def doEscrow (key : Nat) (op : EscOp) (fence : Bool) (o : Op) (h : Handle) (s : State) : State :=
  let x : EscWait := { clerk := o.r.clerk, slot := o.r.slot, serial := o.r.serial, region := bits (hObj h).toNat 48 14, op := op,
                       fencing := fence && s.storesOut o.r.clerk, heldAt := none, key := key, sent := false }
  let s := s.onDfb (fun d => { d with esc := d.esc ++ [x] })
  if x.fencing then s else s.escGo x

/-- An Escrow instruction issues with an operation number of its own, its key at the leader. -/
def State.issueEscrow (s : State) (ix : Ix) (op : EscOp) (fence : Bool) : State :=
  let n := s.tlr.opCtr + 1
  let s := s.onTlr (fun t => { t with opCtr := n })
  s.issueH ix (.escrow (bits (hObj (ix.cl.h (wH ix.w))).toNat 48 14) n) [5] rtPublish (doEscrow n op fence)

/-- `ESC_ACQ`. -/
def execEscAcq (c : Nat) (s : State) : Ans := .next (s.onWord c (isMajor 0x50) (fun ix => s.issueEscrow ix .acq false))
/-- `ESC_PUB`. -/
def execEscPub (c : Nat) (s : State) : Ans := .next (s.onWord c (isMajor 0x51) (fun ix => s.issueEscrow ix (.pub ix.ra.toNat) true))
/-- `ESC_REL`. -/
def execEscRel (c : Nat) (s : State) : Ans := .next (s.onWord c (isMajor 0x52) (fun ix => s.issueEscrow ix .rel false))

end Sys2Proof.Machine
end

