-- ==== Sys2Proof/Machine/Stm.lean ====
section
/-! DEFINITION. Statements and Counterfoils: job members, taking and committing a Statement, copy before write, deduplication, flushing, and
rollback (R253 to R269). -/

namespace Sys2Proof.Machine

/-! ### Job members (R253 to R255) -/

/-- The descriptor of Table 10-1. -/
def jobDescOf (d : List Byte) : JobDesc :=
  let w := leAt d 0 8
  { ctx := bits w 0 6, members := bits w 6 8 + 1, rank := bits w 14 8, replicas := bits w 22 8 + 1, peer := bits w 30 5,
    spare := if bit w 40 then some (bits w 35 5) else none, coord := bits w 41 5, tag := BitVec.ofNat 64 (leAt d 8 8),
    slotBytes := bits (leAt d 16 8) 0 40, flushN := bits (leAt d 24 8) 0 16, jobKey := bits (leAt d 24 8) 16 4 }

/-- Check 1 of R254. -/
def jobForm (d : List Byte) : Bool :=
  let x := jobDescOf d
  decide (bits (leAt d 0 8) 46 18 = 0) && decide (bits (leAt d 16 8) 40 24 = 0) && decide (bits (leAt d 24 8) 20 44 = 0) &&
  allZero (takeAt d 32 32) && decide (x.members % x.replicas = 0) && decide (x.rank < x.members) && decide (x.slotBytes ≠ 0) &&
  decide (x.slotBytes % 65536 = 0) && decide (x.slotBytes ≤ 2 ^ 39)

/-- A job identifier (R253). -/
def jobIdent (ctx ix gen : Nat) : Word := BitVec.ofNat 64 (ctx % 64 * 2 ^ 58 + ix % 16 * 2 ^ 54 + gen % 2 ^ 54)

/-- Pages of one slot. -/
def JobDesc.pages (d : JobDesc) : Nat := d.slotBytes / 65536

/-- A new member. -/
def StmJob.fresh (gen : Nat) (d : JobDesc) (a b : List (Nat × Nat)) : StmJob :=
  { gen := gen, desc := d, pagesA := a, pagesB := b, slotA := none, slotB := none, openSlot := none, record := none, begin := none,
    adds := [], commit := none, refusals := .empty, cfLost := false, opener := none, flushing := none, flashNew := none, flashCur := none }

/-- `STM_JOB_STATUS`. -/
def State.jobStatus (s : State) (ix reason st : Nat) : State :=
  s.wr .stmJobStatus 0 (BitVec.ofNat 64 (ix % 16 + reason * 256 + st * 65536))

/-- The frames of two slots (R255): 64 KiB pages under R80 with i the job index and L = 254, those of slot A numbered first (DESIGN CHOICE,
log 52). -/
def State.takeSlots (s : State) (ctx j : Nat) (d : JobDesc) : State × Option (List (Nat × Nat)) :=
  s.allocMany ctx j 254 (2 * d.pages) .alloc

/-- Member `j` comes into being. -/
def State.addJob (s : State) (j : Nat) (d : JobDesc) (fs : List (Nat × Nat)) : State :=
  let gen := s.stm.gens.lookD j 1
  let s := s.onStm (fun x => { x with
    jobs := x.jobs.put j (StmJob.fresh gen d (fs.take d.pages) (fs.drop d.pages))
    gens := x.gens.put j gen })
  let s := (s.wr .stmJobId j (jobIdent d.ctx j gen)).wr .stmJobPeer j (BitVec.ofNat 64 d.peer)
  let s := if s.domUp then s.propose (.cfPeer s.self j d.peer) else s
  s.publishJob j

/-- `JOB_CREATE`: the checks of R254 in order; `granted` is what the peer answers about two Counterfoil slots. -/
def execJobCreate (rq : Requester) (v : Word) (granted : Bool) (s : State) : Ans :=
  .next (s.woWrite rq .stmJobCreate 0 true (low6 v) (fun s =>
    let bs := s.bytesAt (keyHub v.toNat) 64
    let d := jobDescOf bs
    let refuse := fun (s : State) k => s.jobStatus (bits (s.rd .stmJobStatus).toNat 0 4) k 3
    if !(jobForm bs) then refuse s 1
    else if !(s.resident d.ctx && s.actsFor rq d.ctx) then refuse s 2
    else
      match lowestFree s.stm.jobs.has 0 16 with
      | none => refuse s 3
      | some j =>
        if s.pastHigh (2 * d.pages) then refuse s 4
        else
          let r := s.takeSlots d.ctx j d
          match r.2 with
          | none => refuse r.1 4
          | some fs =>
            let s := r.1
            if s.dmap.members.has d.peer && decide (d.peer ≠ s.self) then
              let s := s.send (.cfSlotAsk d.peer d.tag d.rank d.slotBytes)
              if granted then (s.addJob j d fs).jobStatus j 0 2
              else refuse (fs.foldl (fun s f => s.freeFrame f.1 f.2 .alloc) s) 5
            else refuse (fs.foldl (fun s f => s.freeFrame f.1 f.2 .alloc) s) 5))

/-- The member's operations on its open Statement complete with ABORTED, cause 5, and the Statement is gone (R267, R269). -/
def State.abortStatement (s : State) (j : Nat) : State :=
  match s.stm.jobs.look j with
  | none => s
  | some x =>
    let s := (x.begin.map (·.1)).toList.foldl (fun s r => s.abortR r 5) s
    let s := (x.adds.map (·.1)).foldl (fun s r => s.abortR r 5) s
    let s := x.commit.toList.foldl (fun s r => s.abortR r 5) s
    (s.updJob j (fun x =>
      let x := match x.openSlot with
        | some k => x.setSlot k none
        | none => x
      { x with openSlot := none, begin := none, adds := [], commit := none, opener := none })).publishJob j

/-- Member `j` is deleted: its Statement ends, its pages and flash slots are released, and its GEN advances (R253, R255). -/
def State.deleteJob (s : State) (j : Nat) : State :=
  match s.stm.jobs.look j with
  | none => s
  | some x =>
    let s := s.abortStatement j
    let s := (x.pagesA ++ x.pagesB).foldl (fun s f => s.freeFrame f.1 f.2 .alloc) s
    let exts := (match x.flashNew with
      | some n => n.2.1
      | none => []) ++ (match x.flashCur with
      | some n => n.2
      | none => [])
    let s := exts.foldl (fun s e => s.dropExtent e) s
    let g := if x.gen + 1 < 2 ^ 54 then x.gen + 1 else 1
    let s := s.onStm (fun t => { t with jobs := t.jobs.del j, gens := t.gens.put j g })
    let s := if s.domUp then s.propose (.cfPeer s.self j 32) else s
    let s := s.send (.cfSlotAsk x.desc.peer x.desc.tag x.desc.rank 0)
    [Reg.stmJobId, .stmJobStep, .stmJobFlash, .stmJobPages, .stmJobPeer, .stmJobState].foldl (fun s r => s.wr r j 0) s

/-- The requester is authenticated for member `j`'s context; an index without a member names none (R333). -/
def State.jobAllowed (s : State) (rq : Requester) (j : Nat) : Bool :=
  match s.stm.jobs.look j with
  | some x => s.actsFor rq x.desc.ctx
  | none => true

/-- `JOB_DELETE`. -/
def execJobDelete (rq : Requester) (v : Word) (s : State) : Ans :=
  let j := bits v.toNat 0 4
  .next (s.woWrite rq .stmJobDelete 0 (s.jobAllowed rq j) 0 (fun s => s.deleteJob j))

/-! ### Coordination (R261, R263, R264) -/

/-- What this controller holds as coordinator of a job. -/
def State.coord (s : State) (tag : Word) : StmCoord := s.stm.coords.lookD tag ⟨.empty, .empty, .empty, .empty⟩

/-- The member of a job that lies here with a rank. -/
def State.localMember (s : State) (tag : Word) (rank : Nat) : Option (Nat × StmJob) :=
  s.stm.jobs.rows.find? (fun r => decide (r.2.desc.tag = tag) && decide (r.2.desc.rank = rank))

/-- This controller coordinates the job: the descriptor of a member here, if it does. -/
def State.coordinates (s : State) (tag : Word) : Option JobDesc :=
  (s.stm.jobs.rows.find? (fun r => decide (r.2.desc.tag = tag) && decide (r.2.desc.coord = s.self))).map (·.2.desc)

/-- The ranks of the replica set of a rank. -/
def JobDesc.replicaSet (d : JobDesc) (rank : Nat) : List Nat :=
  let m := max 1 (d.members / d.replicas)
  (List.range d.members).filter (fun r => decide (r % m = rank % m))

/-- The replica set's notices for a step, once all are here. -/
def State.setNotices (s : State) (d : JobDesc) (rank step : Nat) : Option (List (Nat × StmNotice)) :=
  let c := s.coord d.tag
  let l := (d.replicaSet rank).filterMap (fun r => (c.notices.look r).bind (fun n => if n.step = step then some (r, n) else none))
  if l.length = (d.replicaSet rank).length then some l else none

/-- The digest a notice gives for a DEDUP shard. -/
def StmNotice.dedupDigest (n : StmNotice) (id : Nat) : Option (List Byte) :=
  (n.shards.find? (fun h => decide (h.1 = id) && h.2.2.1)).map (·.2.2.2)

/-- The DEDUP shards a member records as REF, with the writer's controller and rank (R264): it is not the lowest rank with its digest, and
another member on a different controller holds the digest. -/
def refsOf (set : List (Nat × StmNotice)) (rank : Nat) : List (Nat × Nat × Nat) :=
  match set.find? (fun p => decide (p.1 = rank)) with
  | none => []
  | some (_, own) =>
    (own.shards.filter (fun h => h.2.2.1)).filterMap (fun h =>
      let holders := set.filter (fun p => decide (p.2.dedupDigest h.1 = some h.2.2.2))
      match holders.head? with
      | none => none
      | some w =>
        if w.1 ≠ rank && holders.any (fun p => decide (p.1 ≠ rank) && decide (p.2.controller ≠ own.controller)) then
          some (h.1, w.2.controller, w.1)
        else none)

/-- Some DEDUP shard has more than one digest in the set. -/
def diverges (set : List (Nat × StmNotice)) : Bool :=
  set.any (fun p => p.2.shards.any (fun h => h.2.2.1 && set.any (fun q => match q.2.dedupDigest h.1 with
    | some g => decide (g ≠ h.2.2.2)
    | none => false)))

/-- The coordinator takes a member's notice; a complete set is checked for divergence (R264). The member's descriptor comes with it
(DESIGN CHOICE, log 53). -/
def State.coordNotice (s : State) (d own : JobDesc) (n : StmNotice) : State :=
  let c := s.coord d.tag
  let s := s.onStm (fun x => { x with coords := x.coords.put d.tag { c with
    notices := c.notices.put own.rank n
    descs := c.descs.put own.rank (n.controller, own) } })
  match s.setNotices d own.rank n.step with
  | some set => if diverges set then s.raise Evt.stm_replicaDiverge else s
  | none => s

/-- `MEMBER_NOTICE_ARRIVAL`. -/
def execMemberNoticeArrival (tag : Word) (rank step controller : Nat) (desc : List Byte) (shards : List (Nat × Nat × Bool × List Byte))
    (s : State) : Ans :=
  .next (match s.coordinates tag with
    | none => s
    | some d => if s.frz.frozen || d.members ≤ rank then s
      else s.coordNotice d { jobDescOf desc with tag := tag, rank := rank } ⟨step, controller, shards⟩)

/-- A shard's digest: SHAKE256 over its page digests in page order (R258). -/
def Shard.digest (h : Shard) : List Byte := Config.shake256 ((List.range h.count).flatMap (fun k => h.digests.lookD k [])) 32

/-- SHAPE_PART of a Statement: over its shards in SHARD_ID order (Table 10-4). -/
def Statement.shapePart (v : Statement) : List Byte :=
  Config.shapePart ((v.shards.mergeSort (fun (a b : Shard) => decide (a.id ≤ b.id))).map (fun h => (h.id, h.bytes, h.dedup)))

/-- The shard list of a member notice. -/
def Statement.noticeShards (v : Statement) : List (Nat × Nat × Bool × List Byte) :=
  v.shards.map (fun h => (h.id, h.bytes, h.dedup, if h.dedup then h.digest else []))

/-- The member notice goes to the coordinator. -/
def State.sendNotice (s : State) (x : StmJob) (v : Statement) : State :=
  if x.desc.coord = s.self then s.coordNotice x.desc x.desc ⟨v.step, s.self, v.noticeShards⟩
  else s.send (.memberNotice x.desc.coord x.desc.tag x.desc.rank v.step v.noticeShards)

/-! ### Slots and flash -/

/-- A Statement is opened in slot `k` for a BEGIN (R256). -/
def State.openStatement (s : State) (j k step : Nat) (r : Rcpt) : State :=
  let run := (s.clerk r.clerk).run.map (fun x => (r.clerk, x.startedAt))
  let s := s.updJob j (fun x => { x.setSlot k (some ⟨step, s.nodeNs, [], false, none, []⟩) with
    openSlot := some k, begin := none, adds := [], commit := none, refusals := .empty, opener := run })
  (s.publishJob j).finishR r .ok 0 (BitVec.ofNat 64 k)

/-- The slot a BEGIN takes: the one that does not hold the last committed Statement. -/
def StmJob.nextSlot (x : StmJob) : Nat :=
  match x.record with
  | some r => 1 - r.slot
  | none => 0

/-- A flush runs that needs slot `k`. -/
def StmJob.flushHolds (x : StmJob) (k : Nat) : Bool :=
  match x.flushing, x.slot k with
  | some st, some v => decide (v.step = st)
  | _, _ => false

/-- A BEGIN that waited for a flush goes on (R265). -/
def State.resumeBegin (s : State) (j : Nat) : State :=
  match s.stm.jobs.look j with
  | none => s
  | some x =>
    match x.begin with
    | none => s
    | some (r, step) => if x.flushHolds x.nextSlot then s else s.openStatement j x.nextSlot step r

/-- The flush of member `j` is over; its slot is free of it. -/
def State.endFlush (s : State) (j : Nat) : State := ((s.updJob j (fun x => { x with flushing := none })).publishJob j).resumeBegin j

/-- A step is the flash restore point of member `j` (R265): with it still the last committed one, a new job commit record says so. -/
def State.applyFlash (s : State) (j step : Nat) : State :=
  match s.stm.jobs.look j with
  | none => s
  | some x =>
    match x.flashNew with
    | some (v, exts, 0) =>
      if v.step ≠ step then s
      else
        let old := match x.flashCur with
          | some c => c.2
          | none => []
        let s := old.foldl (fun s e => s.dropExtent e) s
        let t := s.nodeNs
        let s := s.updJob j (fun x => { x with
          flashNew := none
          flashCur := some (v, exts)
          record := x.record.map (fun r => if r.step = step then { r with flash := true, time := t, seq := r.seq + 1 } else r) })
        s.wr .stmJobFlash j (BitVec.ofNat 64 step)
    | _ => s

/-- The coordinator takes a member's flash commit; with every member's it tells them all (R265). -/
def State.coordFlash (s : State) (d : JobDesc) (rank step : Nat) : State :=
  let c := s.coord d.tag
  let c := { c with flashes := c.flashes.put rank step }
  let s := s.onStm (fun x => { x with coords := x.coords.put d.tag c })
  if (List.range d.members).all (fun r => decide (c.flashes.look r = some step)) then
    (List.range d.members).foldl (fun (s : State) r => match s.localMember d.tag r with
      | some (j, _) => s.applyFlash j step
      | none => s.send (.flashAllOut d.tag r step)) s
  else s

/-- `FLASH_COMMIT_NOTICE`: at the coordinator a member's flash commit; at a member of another coordinator, its word that all are held
(DEDUCED, log 54). -/
def execFlashCommitNotice (tag : Word) (rank step : Nat) (s : State) : Ans :=
  .next (if s.frz.frozen then s else
    match s.coordinates tag with
    | some d => if rank < d.members then s.coordFlash d rank step else s
    | none => match s.localMember tag rank with
      | some (j, _) => s.applyFlash j step
      | none => s)

/-- The member's flash commit record is written: the flush is over here, and the coordinator is told. -/
def State.flashCommitted (s : State) (j : Nat) : State :=
  match s.stm.jobs.look j with
  | none => s
  | some x =>
    match x.flashNew with
    | some (v, _, 0) =>
      let s := s.endFlush j
      if x.desc.coord = s.self then s.coordFlash x.desc x.desc.rank v.step
      else s.send (.flashNotice x.desc.coord x.desc.tag x.desc.rank v.step)
    | _ => s

/-- A flash write of member `j`'s flush is programmed. -/
def State.stmProgrammed (s : State) (j : Nat) : State :=
  (s.updJob j (fun x => { x with flashNew := x.flashNew.map (fun n => (n.1, n.2.1, n.2.2 - 1)) })).flashCommitted j

/-- The bytes of slot page `i`. -/
def State.slotPage (s : State) (x : StmJob) (k i : Nat) : List Byte :=
  match (x.slotPages k)[i]? with
  | some (m, f) => s.bytesAt (keyKv m f 0) 65536
  | none => []

/-- The slot that holds the Statement of a step with its member commit record. -/
def StmJob.slotOf (x : StmJob) (step : Nat) : Option (Nat × Statement) :=
  ([0, 1].filterMap (fun k => (x.slot k).map (fun v => (k, v)))).find? (fun p => decide (p.2.step = step) && p.2.mcr.isSome)

/-- A list cut into parts of at most `n`. -/
def chunks {α : Type} (n : Nat) : Nat → List α → List (List α)
  | 0, _ => []
  | fuel + 1, l => if l.isEmpty then [] else l.take n :: chunks n fuel (l.drop n)

/-- Write parts to extents of their own for member `j`: the extents, or none where the pool refuses one. -/
def State.flushParts (s : State) (j : Nat) (parts : List (List (List Byte))) : State × Option (List Nat) :=
  parts.foldl (fun (a : State × Option (List Nat)) p =>
    match a.2 with
    | none => a
    | some exts =>
      let e := a.1.newExtent none p.length false none
      match e.2 with
      | none => (exts.foldl (fun s x => s.dropExtent x) e.1, none)
      | some x =>
        let w := e.1.flashPut (.stmt j) x 0 p false
        match w.2 with
        | .queued _ => (w.1, some (exts ++ [x]))
        | _ => ((x :: exts).foldl (fun s y => s.dropExtent y) w.1, none)) (s, some [])

/-- `STATEMENT_FLUSH`: the committed Statement goes to flash, but for what other members write (R264, R265). -/
def execStatementFlush (j : Nat) (s : State) : Ans :=
  .next (match s.stm.jobs.look j with
    | none => s
    | some x =>
      match x.flushing, x.flushing.bind x.slotOf with
      | some step, some (k, v) =>
        let running := match x.flashNew with
          | some n => decide (n.1.step = step)
          | none => false
        if running || s.frz.frozen then s
        else
          let old := match x.flashNew with
            | some n => n.2.1
            | none => []
          let s := old.foldl (fun s e => s.dropExtent e) s
          let data := (v.shards.filter (fun h => !h.ref)).flatMap (fun h => (List.range h.count).flatMap (fun i =>
            let p := s.slotPage x k (h.first + i)
            [takeAt p 0 unitBytes, takeAt p unitBytes unitBytes]))
          let r := s.flushParts j (chunks 1048576 data.length data)
          match r.2 with
          | none => ((r.1.updJob j (fun x => { x with flashNew := none })).raise Evt.stm_flushRefused).endFlush j
          | some exts => (r.1.updJob j (fun x => { x with flashNew := some (v, exts, exts.length) })).flashCommitted j
      | _, _ => s)

/-! ### Commit (R261 to R263, R266) -/

/-- The shape digest reaches member `j`: its job commit record is written, last, and STMT.COMMIT completes (R263). -/
def State.applyShape (s : State) (j step : Nat) (shape : List Byte) : State :=
  match s.stm.jobs.look j with
  | none => s
  | some x =>
    match x.openStm, x.openSlot with
    | some v, some k =>
      if v.step ≠ step || v.mcr.isNone then s
      else
        let seq := match x.record with
          | some r => r.seq + 1
          | none => 1
        let jr : JobRec := ⟨step, k, x.cfLost, false, shape, s.nodeNs, seq⟩
        let flush := x.desc.flushN ≠ 0 && decide (step % max 1 x.desc.flushN = 0)
        let s := s.updJob j (fun x => { x with
          record := some jr
          openSlot := none
          commit := none
          opener := none
          flushing := if flush then some step else x.flushing })
        let s := ((s.wr .stmJobStep j (BitVec.ofNat 64 step)).raise Evt.stm_commit).publishJob j
        let s := if x.cfLost then s else s.send (.jobRecordOut x.desc.peer x.desc.tag x.desc.rank step)
        x.commit.toList.foldl (fun s r => s.finishR r .ok 0 (BitVec.ofNat 64 step)) s
    | _, _ => s

/-- `SHAPE_DIGEST`. -/
def execShapeDigest (j step : Nat) (shape : List Byte) (s : State) : Ans := .next (if s.frz.frozen then s else s.applyShape j step shape)

/-- The coordinator takes a commit notice; with every member's, the step is complete and the shape digest goes to each (R263). -/
def State.coordCommit (s : State) (d : JobDesc) (rank step : Nat) (part : List Byte) : State :=
  let c := s.coord d.tag
  let c := { c with commits := c.commits.put rank (step, part) }
  let s := s.onStm (fun x => { x with coords := x.coords.put d.tag c })
  let parts := (List.range d.members).filterMap (fun r => (c.commits.look r).bind (fun p => if p.1 = step then some p.2 else none))
  if parts.length = d.members then
    let shape := Config.shapeDigest d.members d.replicas parts
    (List.range d.members).foldl (fun (s : State) r => match s.localMember d.tag r with
      | some (j, _) => s.applyShape j step shape
      | none => s.send (.shapeOut d.tag r step shape)) s
  else s

/-- `COMMIT_NOTICE`. -/
def execCommitNotice (tag : Word) (rank step : Nat) (part : List Byte) (s : State) : Ans :=
  .next (match s.coordinates tag with
    | none => s
    | some d => if s.frz.frozen || d.members ≤ rank then s else s.coordCommit d rank step part)

/-- The member commit record of member `j` is written and its commit notice sent (R261); `refs` are the shards it records as REF. DEDUP
pages without a reference go to the Counterfoil here, once the references are known (DESIGN CHOICE, log 55). -/
def State.memberCommit (s : State) (j : Nat) (refs : List (Nat × Nat × Nat)) : State :=
  match s.stm.jobs.look j with
  | none => s
  | some x =>
    match x.openStm, x.openSlot with
    | some v, some k =>
      let mark := fun (h : Shard) => match refs.find? (fun r => decide (r.1 = h.id)) with
        | some r => if h.dedup then { h with ref := true, writer := r.2.1, writerRank := r.2.2 } else h
        | none => { h with ref := false, writer := s.self, writerRank := x.desc.rank }
      let hs := v.shards.map mark
      let pages := (hs.filter (fun h => h.dedup && !h.ref)).flatMap (fun h => (List.range h.count).map (fun i => h.first + i))
      let s := pages.foldl (fun (s : State) p => s.sendCfPage j p (s.slotPage x k p)) s
      let v' := { v with shards := hs, mcr := some s.nodeNs }
      let s := s.updJob j (fun x => x.setSlot k (some v'))
      if x.desc.coord = s.self then s.coordCommit x.desc x.desc.rank v.step v'.shapePart
      else s.send (.commitNoticeOut x.desc.coord x.desc.tag x.desc.rank v.step v'.shapePart)
    | _, _ => s

/-- The REF decisions for member `j`: the coordinator's own, once it holds the set's notices, or those it has sent. -/
def State.refsFor (s : State) (x : StmJob) (v : Statement) (told : List (Nat × Nat × Nat)) : Option (List (Nat × Nat × Nat)) :=
  if x.desc.coord = s.self then (s.setNotices x.desc x.desc.rank v.step).map (fun set => refsOf set x.desc.rank) else some told

/-- A Statement whose COMMIT has been issued and whose pages are all copied gets its header, and its notice goes out (R261); with the peer
lost it commits without a Counterfoil (Table 10-7). -/
def State.stmAdvance (s : State) (j : Nat) : State :=
  match s.stm.jobs.look j with
  | none => s
  | some x =>
    match x.openStm, x.openSlot with
    | some v, some k =>
      if x.commit.isNone || !x.adds.isEmpty || v.counts.2 < v.counts.1 then s
      else
        let s := if v.header then s else
          let s := s.updJob j (fun x => x.setSlot k (some { v with header := true }))
          s.sendNotice x v
        if x.cfLost && v.mcr.isNone then
          match s.refsFor x v [] with
          | some refs => s.memberCommit j refs
          | none => s
        else s
    | _, _ => s

/-- `CF_ACK`: the peer has acknowledged the last Counterfoil page (R261); `refs` are the coordinator's REF decisions for this member. -/
def execCfAck (j : Nat) (refs : List (Nat × Nat × Nat)) (s : State) : Ans :=
  .next (match s.stm.jobs.look j with
    | none => s
    | some x =>
      match x.openStm with
      | none => s
      | some v =>
        if v.header && v.mcr.isNone && !x.cfLost && !s.frz.frozen then
          match s.refsFor x v refs with
          | some l => s.memberCommit j l
          | none => s
        else s)

/-- The peer of member `j` is lost (Table 10-7). -/
def State.loseCfPeer (s : State) (j : Nat) : State :=
  ((s.updJob j (fun x => { x with cfLost := true })).raise Evt.stm_cfLost).stmAdvance j

/-- `CF_PAGE_REFUSAL`: the page is sent again; after three refusals the peer is handled as lost (R262). -/
def execCfPageRefusal (j seq : Nat) (s : State) : Ans :=
  .next (match s.stm.jobs.look j with
    | none => s
    | some x =>
      match x.openSlot with
      | none => s
      | some k =>
        if x.cfLost || s.frz.frozen then s
        else
          let n := x.refusals.lookD seq 0 + 1
          let s := s.updJob j (fun x => { x with refusals := x.refusals.put seq n })
          if 3 ≤ n then (s.raise Evt.stm_cfRefused).loseCfPeer j else s.sendCfPage j seq (s.slotPage x k seq))

/-! ### The instructions (R221, R256, R257) -/

/-- The member a handle names. -/
def jobIndex (h : Handle) : Nat := bits (hObj h).toNat 54 4

/-- The values every member of a job shares (R254). -/
def JobDesc.shared (d : JobDesc) : Word × Nat × Nat × Nat × Nat × Nat := (d.tag, d.members, d.replicas, d.flushN, d.coord, d.jobKey)

/-- The member's values are the coordinator's: of a member here, where this controller coordinates; otherwise as the coordinator answers. -/
def State.coordAgrees (s : State) (x : StmJob) (told : Bool) : Bool :=
  if x.desc.coord = s.self then
    s.stm.jobs.rows.all (fun r => decide (r.2.desc.tag ≠ x.desc.tag) || decide (r.2.desc.shared = x.desc.shared))
  else told

/-- STMT.BEGIN (R256). -/
def doStmtBegin (told : Bool) (o : Op) (h : Handle) (s : State) : State :=
  let j := jobIndex h
  match s.stm.jobs.look j with
  | none => s.deny o 3
  | some x =>
    let last := match x.record with
      | some r => r.step
      | none => 0
    let first := x.slotA.isNone && x.slotB.isNone && x.record.isNone
    if x.openSlot.isSome || x.begin.isSome || decide (o.ix.ra.toNat ≤ last) || (first && !(s.coordAgrees x told)) then s.deny o 2
    else if x.flushHolds x.nextSlot then
      (s.updJob j (fun x => { x with begin := some (o.r, o.ix.ra.toNat) })).raise Evt.stm_flushHold
    else s.openStatement j x.nextSlot o.ix.ra.toNat o.r

/-- `STMT_BEGIN`. -/
def execStmtBegin (c : Nat) (coordSame : Bool) (s : State) : Ans :=
  .next (s.onWord c (isMajor 0x58) (fun ix => s.issueH ix (.stmtBegin (jobIndex (ix.cl.h (wH ix.w)))) [7] rtWrite (doStmtBegin coordSame)))

/-- The shard a descriptor asks for (Table 10-2); none where a field is out of range. -/
def shardOf (d : Desc) (slotBytes : Nat) : Option Shard :=
  let sp := dbits d 0 2
  let bytes := dbits d 128 64
  match spaceOf (dbits d 64 64) with
  | none => none
  | some (k, off) =>
    if sp < 2 && decide (k = sp) && decide (dbits d 3 13 = 0) && decide (dbits d 32 32 = 0) && decide (dbits d 192 320 = 0) &&
        decide (off % 65536 = 0) && decide (1 ≤ bytes) && decide (bytes ≤ slotBytes) then
      some { id := dbits d 16 16, space := sp, dedup := bit d.toNat 2, off := off, bytes := bytes, first := 0, copied := [],
             digests := .empty, ref := false, writer := 0, writerRank := 0 }
    else none

/-- Two shards share bytes. -/
def Shard.meets (a b : Shard) : Bool := decide (a.space = b.space) && decide (a.off < b.off + b.bytes) && decide (b.off < a.off + a.bytes)

/-- The shard's range is mapped for the operation (R209 step 5). -/
def State.shardMapped (s : State) (o : Op) (h : Shard) : Bool :=
  if h.space = 0 then s.opMapped o h.off h.bytes
  else (List.range h.count).all (fun k => s.nodeMapped o.ctx (h.off + k * 65536))

/-- STMT.ADD (R256, R257). -/
def doStmtAdd (o : Op) (h : Handle) (s : State) : State :=
  let j := jobIndex h
  match (s.stm.jobs.look j).bind (fun x => x.openStm.map (fun v => (x, v))) with
  | none => s.deny o 2
  | some (x, v) =>
    match shardOf o.ix.desc x.desc.slotBytes with
    | none => s.deny o 2
    | some n =>
      let all := v.shards ++ x.adds.map (·.2)
      if x.commit.isSome || !(s.shardMapped o n) || all.any (fun a => decide (a.id = n.id) || a.meets n) then s.deny o 2
      else if x.desc.pages < (all.map (fun a => a.count)).sum + n.count then s.finish o .noSpace 0x0500 0
      else if 4096 ≤ all.length then s.finish o .noSpace 0x0501 0
      else (s.updJob j (fun x => { x with adds := x.adds ++ [(o.r, n)] })).settleAdds

/-- `STMT_ADD`. -/
def execStmtAdd (c : Nat) (s : State) : Ans :=
  .next (s.onWord c (isMajor 0x59) (fun ix => s.issueH ix (.stmtAdd (jobIndex (ix.cl.h (wH ix.w)))) [7] rtWrite doStmtAdd))

/-- STMT.COMMIT: none open, one under way, or no shard gives DENIED, reason 2 (R221). -/
def doStmtCommit (o : Op) (h : Handle) (s : State) : State :=
  let j := jobIndex h
  match (s.stm.jobs.look j).bind (fun x => x.openStm.map (fun v => (x, v))) with
  | none => s.deny o 2
  | some (x, v) =>
    if x.commit.isSome || (v.shards.isEmpty && x.adds.isEmpty) then s.deny o 2
    else (s.updJob j (fun x => { x with commit := some o.r })).stmAdvance j

/-- `STMT_COMMIT`. -/
def execStmtCommit (c : Nat) (s : State) : Ans :=
  .next (s.onWord c (isMajor 0x5A) (fun ix => s.issueH ix (.stmtCommit (jobIndex (ix.cl.h (wH ix.w)))) [7] rtWrite doStmtCommit))

/-! ### Copying (R258, R260) -/

/-- A held write goes on: a clerk's access is made, a request of the window is served again. -/
def State.releaseHeldWrite (s : State) (page : Nat) (w : HoldWho) : State :=
  match w with
  | .node q => s.nmcServe q
  | .clerk c =>
    if (s.clerk c).stall = some (.copyHold page) then
      match s.stalledIx c with
      | none => s
      | some ix =>
        match s.privKey c ix.run.ctx ix.addr.toNat with
        | some key => s.wakeMem c key
        | none => s.setClerk c { s.clerk c with stall := none }
    else s

/-- The writes held on a page take effect in their order; the longest hold is kept (R260). -/
def State.releasePage (s : State) (page : Nat) : State :=
  let ws := s.stm.holds.lookD page []
  let s := s.onStm (fun x => { x with holds := x.holds.del page })
  (ws.foldl (fun (s : State) w =>
    let t := s.now - w.2
    let s := if (s.rd .stmStallMax).toNat < t then s.wr .stmStallMax 0 (BitVec.ofNat 64 t) else s
    s.releaseHeldWrite page w.1) s).settleNmc

/-- `COPY_BEFORE_WRITE`: an urgent copier copies the page a held write meets, and the write takes effect (R260). -/
def execCopyBeforeWrite (page : Nat) (s : State) : Ans :=
  .next (if s.frz.frozen || !(s.stm.holds.has page) then s
    else
      let ps := s.protectedAt page
      let s := ps.foldl (fun s p => s.copyPage p.1 p.2.1 p.2.2) s
      (ps.map (·.1)).foldl (fun s j => s.stmAdvance j) (s.releasePage page))

/-- The first page of a Statement not yet copied, in shard and page order. -/
def Statement.nextPage (v : Statement) : Option (Nat × Nat) :=
  (List.range v.shards.length).findSome? (fun h => (v.shards[h]?).bind (fun sh =>
    ((List.range sh.count).find? (fun k => !(sh.copied.contains k))).map (fun k => (h, k))))

/-- `BACKGROUND_COPY`: the next protected page goes into the slot (R258). -/
def execBackgroundCopy (j : Nat) (s : State) : Ans :=
  .next (match s.stm.jobs.look j with
    | none => s
    | some x =>
      if s.frz.frozen then s
      else
        match x.openStm.bind (fun v => v.nextPage.map (fun p => (v, p))) with
        | none => s.stmAdvance j
        | some (v, h, k) =>
          let key := (v.shards[h]?).bind (fun sh => s.shardKey x.desc.ctx sh k)
          let s := s.copyPage j h k
          let s := match key with
            | some key => if s.stm.holds.has key && (s.protectedAt key).isEmpty then s.releasePage key else s
            | none => s
          s.stmAdvance j)

/-! ### The peer's side (R254, R262, R268) -/

/-- `COUNTERFOIL_SLOT_REQUEST`: two slots go into ALLOC under T1_HIGH, or are refused; a request for no bytes gives them back (DESIGN CHOICE,
log 56). A member that leaves grants nothing new. -/
def execCounterfoilSlotRequest (peer : Nat) (tag : Word) (rank slotBytes : Nat) (s : State) : Ans :=
  .next (let key := (peer, tag, rank)
    if s.frz.frozen then s
    else if slotBytes = 0 then
      match s.stm.stores.look key with
      | none => s
      | some c => (c.frames.foldl (fun s f => s.freeFrame f.1 f.2 .alloc) s).onStm (fun x => { x with stores := x.stores.del key })
    else
      let no := s.send (.cfSlotAnswer peer tag rank false)
      let leaving := match s.dmap.members.look s.self with
        | some m => decide (m.st = .leaving)
        | none => true
      if leaving || s.stm.stores.has key || s.pastHigh (2 * (slotBytes / 65536)) then no
      else
        let r := s.allocMany 64 rank 254 (2 * (slotBytes / 65536)) .alloc
        match r.2 with
        | none => r.1.send (.cfSlotAnswer peer tag rank false)
        | some fs => (r.1.onStm (fun x => { x with stores := x.stores.put key ⟨fs, .empty, none⟩ })).send (.cfSlotAnswer peer tag rank true))

/-- `CF_PAGE`: a sealed page is stored, or refused where its tag fails or no slot is held for it (R262). -/
def execCfPage (peer : Nat) (tag : Word) (rank slot seq : Nat) (data : List Byte) (tagOk : Bool) (s : State) : Ans :=
  .next (match s.stm.stores.look (peer, tag, rank) with
    | some c =>
      if s.frz.frozen then s
      else if tagOk then
        (s.onStm (fun x => { x with stores := x.stores.put (peer, tag, rank) { c with pages := c.pages.put (slot % 2, seq) data } })).send
          (.cfPageAnswer peer tag rank seq true)
      else s.send (.cfPageAnswer peer tag rank seq false)
    | none => if s.frz.frozen then s else s.send (.cfPageAnswer peer tag rank seq false))

/-- `COUNTERFOIL_FETCH`: the pages held of a member's slot go back in their order, or this controller's own slot pages for a REF shard; for a
session's Counterfoil, the KV page of layer `rank`, page `slot` (R85, R268). -/
def execCounterfoilFetch (peer : Nat) (tag : Word) (rank slot : Nat) (s : State) : Ans :=
  .next (if s.frz.frozen then s else
    match s.ssn.cf.look (peer, tag) with
    | some c => match c.kv.look (rank, slot) with
      | some d => s.send (.cfPagesOut peer tag rank [d])
      | none => s
    | none =>
      match s.stm.stores.rows.find? (fun r => decide (r.1.2.1 = tag) && decide (r.1.2.2 = rank)) with
      | some r =>
        let mine := r.2.pages.rows.filter (fun p => decide (p.1.1 = slot % 2))
        let l := mine.mergeSort (fun (a b : (Nat × Nat) × List Byte) => decide (a.1.2 ≤ b.1.2))
        s.send (.cfPagesOut peer tag rank (l.map (·.2)))
      | none =>
        match s.localMember tag rank with
        | some (_, x) => match x.slot (slot % 2) with
          | some v => s.send (.cfPagesOut peer tag rank ((List.range v.counts.1).map (fun i => s.slotPage x (slot % 2) i)))
          | none => s
        | none => s)

/-- `JOB_PEER_WRITE`: a new peer is named, and the current restore point is copied to it first (R266); `granted` is its answer about two
slots. -/
def execJobPeerWrite (rq : Requester) (j : Nat) (v : Word) (granted : Bool) (s : State) : Ans :=
  .next (if 16 ≤ j then s else s.cfgWrite rq .stmJobPeer j (s.jobAllowed rq j) (fun s =>
    match s.stm.jobs.look j with
    | none => s
    | some x =>
      let p := bits v.toNat 0 5
      if p = s.self || !(s.dmap.members.has p) then s
      else
        let s := s.send (.cfSlotAsk p x.desc.tag x.desc.rank x.desc.slotBytes)
        if !granted then s
        else
          let s := s.updJob j (fun x => { x with desc := { x.desc with peer := p }, cfLost := false })
          let s := s.wr .stmJobPeer j (BitVec.ofNat 64 p)
          let s := if s.domUp then s.propose (.cfPeer s.self j p) else s
          match x.record.bind (fun r => x.slotOf r.step) with
          | none => s
          | some (k, t) =>
            let pages := (t.shards.filter (fun h => !h.ref)).flatMap (fun h => (List.range h.count).map (fun i => h.first + i))
            let s := pages.foldl (fun (s : State) i => s.send (.cfPageOut p x.desc.tag x.desc.rank k i (s.slotPage x k i))) s
            s.send (.jobRecordOut p x.desc.tag x.desc.rank t.step)))

/-! ### Restore, rollback and takeover (R267, R268) -/

/-- `STM_RESTORE_STATUS` (Table 10-11). -/
def State.restoreStatus (s : State) (step reason st : Nat) : State :=
  s.wr .stmRestoreStatus 0 (BitVec.ofNat 64 (st + reason * 256 + step % 2 ^ 32 * 2 ^ 32))

/-- The ranges of a restore point are mapped in the member's context (R267). -/
def State.restorable (s : State) (x : StmJob) (v : Statement) : Bool :=
  v.shards.all (fun h => (List.range h.count).all (fun k =>
    (s.shardKey x.desc.ctx h k).isSome && (decide (h.space = 0) || s.nodeMapped x.desc.ctx (h.off + k * 65536))))

/-- Bytes of page `k` of a shard. -/
def Shard.pageLen (h : Shard) (k : Nat) : Nat := min 65536 (h.bytes - k * 65536)

/-- The pages of a restore point are copied back to their ranges: BYTES of each shard, and no more. -/
def State.copyBack (s : State) (x : StmJob) (v : Statement) (page : Nat → List Byte) : State :=
  v.shards.foldl (fun (s : State) h => (List.range h.count).foldl (fun (s : State) k =>
    match s.shardKey x.desc.ctx h k with
    | none => s
    | some key => ((s.copyFirst key (h.pageLen k)).writeMem key (takeAt (page (h.first + k)) 0 (h.pageLen k))).1) s) s

/-- Slot pages of a Statement that cannot be read (Table 10-7). -/
def State.failedPages (s : State) (x : StmJob) (k : Nat) (v : Statement) : List Nat :=
  (List.range v.counts.1).filter (fun i => !(v.poisoned.contains i) && (match (x.slotPages k)[i]? with
    | some (m, f) => decide ((s.readMem (keyKv m f 0) 65536).2.1 ≠ .ok)
    | none => true))

/-- Restore the Statement of a step from slot pages, and from the other copy where a slot page cannot be used (R266, R267): the reason it is
refused, 0 where it is done. -/
def State.restoreFrom (s : State) (j step : Nat) (remote : List (List Byte)) : State × Nat :=
  match s.stm.jobs.look j with
  | none => (s, 1)
  | some x =>
    match x.slotOf step with
    | none => (s, 1)
    | some (k, v) =>
      let fresh := s.failedPages x k v
      let bad := fresh ++ v.poisoned
      let s := if fresh.isEmpty then s
        else (s.updJob j (fun x => x.setSlot k (some { v with poisoned := bad }))).raise Evt.stm_slotPoison
      if !(bad.all (fun i => (remote[i]?).isSome)) then (s, 1)
      else if !(s.restorable x v) then (s, 2)
      else
        let s := s.abortStatement j
        (s.copyBack x v (fun i => if bad.contains i then remote.getD i [] else s.slotPage x k i), 0)

/-- Restore the flash restore point: pages from flash in the order of the flush, REF shards from their holders. -/
def State.restoreFlash (s : State) (j : Nat) (remote : List (List Byte)) : State × Nat :=
  match (s.stm.jobs.look j).bind (fun x => x.flashCur.map (fun f => (x, f))) with
  | none => (s, 1)
  | some (x, v, exts) =>
    let units := exts.flatMap (fun e => match s.fls.extents.look e with
      | some y => (List.range y.units).map (fun i => y.base + i)
      | none => [])
    let pages := (v.shards.filter (fun h => !h.ref)).flatMap (fun h => (List.range h.count).map (fun i => h.first + i))
    let page : Nat → List Byte := fun i =>
      match pages.findIdx? (fun p => decide (p = i)) with
      | some n => (s.unitRead (units.getD (2 * n) 0)).2 ++ (s.unitRead (units.getD (2 * n + 1) 0)).2
      | none => remote.getD i []
    if !(s.restorable x v) then (s, 2)
    else ((s.abortStatement j).copyBack x v page, 0)

/-- `RESTORE` (R267): refused without a complete Statement, with a member missing, or onto another shape. -/
def execRestore (rq : Requester) (v : Word) (others : RestoreAnswer) (remote : List (List Byte)) (s : State) : Ans :=
  let j := bits v.toNat 0 4
  .next (s.woWrite rq .stmRestore 0 (s.jobAllowed rq j) 0 (fun s =>
    let flash := bit v.toNat 4
    match s.stm.jobs.look j with
    | none => s.restoreStatus 0 1 3
    | some x =>
      let step := if flash then (x.flashCur.map (fun f => f.1.step)).getD 0 else (x.record.map (·.step)).getD 0
      if (if flash then x.flashCur.isNone else x.record.isNone) then s.restoreStatus 0 1 3
      else if others = .missing then s.restoreStatus 0 3 3
      else if others = .differs then s.restoreStatus 0 2 3
      else
        let r := if flash then s.restoreFlash j remote else s.restoreFrom j step remote
        if r.2 = 0 then r.1.restoreStatus step 0 2 else r.1.restoreStatus 0 r.2 3))

/-- A survivor restores the restore point named, and reports it (R268 step 3). -/
def State.rollbackTo (s : State) (j step : Nat) (remote : List (List Byte)) : State :=
  let r := s.restoreFrom j step remote
  if r.2 ≠ 0 then r.1.restoreStatus 0 r.2 3
  else
    let s := r.1.updJob j (fun x => match x.slotOf step with
      | some (k, _) => { x with record := x.record.map (fun y => if y.step = step then y else { y with step := step, slot := k, seq := y.seq + 1 }) }
      | none => x)
    (((s.wr .stmJobStep j (BitVec.ofNat 64 step)).restoreStatus step 0 2).raise Evt.stm_rollback).publishJob j

/-- `ROLLBACK`. -/
def execRollback (j step : Nat) (remote : List (List Byte)) (s : State) : Ans :=
  .next (if s.frz.frozen || !(s.stm.jobs.has j) then s else s.rollbackTo j step remote)

/-- The shards a takeover names (Table 10-6), their slot pages in order. -/
def takeoverShards : List ShardSpec → Nat → List Shard
  | [], _ => []
  | h :: rest, first =>
    let x : Shard := { id := h.id, space := h.space, dedup := h.dedup, off := h.off, bytes := h.bytes, first := first, copied := [],
                       digests := .empty, ref := false, writer := 0, writerRank := 0 }
    { x with copied := List.range x.count } :: takeoverShards rest (first + x.count)

/-- `TAKEOVER`: the spare creates the member with its CF_PEER unchanged, copies its Counterfoil and REF shards into the ranges, and writes the
job commit record (R268 steps 4 to 6). The slot itself holds no copy of them: the Counterfoil does. A spare that cannot create the member
does nothing (DESIGN CHOICE, log 57). -/
def execTakeover (desc : List Byte) (peer step : Nat) (shape : List Byte) (shards : List ShardSpec) (data : List (List Byte)) (s : State) : Ans :=
  .next (let d := { jobDescOf desc with peer := peer }
    match lowestFree s.stm.jobs.has 0 16 with
    | none => s
    | some j =>
      if s.frz.frozen || !(jobForm desc) || !(s.resident d.ctx) || s.pastHigh (2 * d.pages) then s
      else
        let r := s.takeSlots d.ctx j d
        match r.2 with
        | none => r.1
        | some fs =>
          let hs := takeoverShards shards 0
          let v : Statement := ⟨step, s.nodeNs, hs, true, some s.nodeNs, List.range (hs.map (fun h => h.count)).sum⟩
          let s := r.1.addJob j d fs
          match s.stm.jobs.look j with
          | none => s
          | some x =>
            if !(s.restorable x v) then s.deleteJob j
            else
              let s := s.copyBack x v (fun i => data.getD i [])
              let jr : JobRec := ⟨step, 0, false, false, shape, s.nodeNs, 1⟩
              let s := s.updJob j (fun x => { x with slotA := some v, record := some jr })
              ((s.wr .stmJobStep j (BitVec.ofNat 64 step)).raise Evt.stm_takeoverDone).publishJob j)

/-- This controller's member of the lowest rank names the restore point of a job it coordinates. -/
def State.coordStep (s : State) (tag : Word) : Option Nat :=
  (s.stm.jobs.rows.find? (fun r => decide (r.2.desc.tag = tag) && decide (r.2.desc.coord = s.self))).bind (fun r => r.2.record.map (·.step))

/-- The coordinator of a job acts on the loss of controller `c` (R268 steps 1 and 2). -/
def State.coordLost (s : State) (tag : Word) (c : Nat) : State :=
  let k := s.coord tag
  let lost := k.descs.rows.filter (fun r => decide (r.2.1 = c))
  match s.coordinates tag, s.coordStep tag, lost.isEmpty with
  | some _, some step, false =>
    let s := k.descs.rows.foldl (fun (s : State) r =>
      if r.2.1 = c then s
      else match s.localMember tag r.1 with
        | some (j, _) => s.rollbackTo j step []
        | none => s.send (.rollbackOut tag r.1 step)) s
    let s := lost.foldl (fun (s : State) r => match r.2.2.spare with
      | some sp => s.send (.takeoverOut sp tag r.1 step)
      | none => s.restoreStatus 0 3 3) s
    s.onStm (fun x => { x with coords := x.coords.upd tag (fun k => { k with
      notices := k.notices.keep (fun _ n => decide (n.controller ≠ c))
      descs := k.descs.keep (fun _ p => decide (p.1 ≠ c)) }) })
  | _, _, _ => s

/-- The domain map removes controller `c`: peers are lost, a coordinator passes on, and coordinators here act (R266, R268). -/
def State.stmControllerLost (s : State) (c : Nat) : State :=
  let s := s.stm.jobs.rows.foldl (fun (s : State) r => if r.2.desc.peer = c && !r.2.cfLost then s.loseCfPeer r.1 else s) s
  let s := s.stm.jobs.rows.foldl (fun (s : State) r =>
    if r.2.desc.coord ≠ c then s
    else
      let new := Config.lowestRankAt r.2.desc.tag s.dmap.epoch % 32
      let s := s.updJob r.1 (fun x => { x with desc := { x.desc with coord := new } })
      match (s.stm.jobs.look r.1).bind (fun x => x.openStm.map (fun v => (x, v))) with
      | some (x, v) =>
        let s := if v.header then s.sendNotice x v else s
        if v.mcr.isNone then s
        else if new = s.self then s.coordCommit x.desc x.desc.rank v.step v.shapePart
        else s.send (.commitNoticeOut new x.desc.tag x.desc.rank v.step v.shapePart)
      | none => s) s
  (s.stm.coords.rows.map (·.1)).foldl (fun s tag => s.coordLost tag c) s

end Sys2Proof.Machine
end

