-- ==== Sys2Proof/Machine/T4.lean ====
section
/-! DEFINITION. T4: room in one another's DRAM for parked sessions, lent and borrowed (R66, R306). -/

namespace Sys2Proof.Machine

/-- This member lends new T4 room: it is a member, not leaving, and its ALLOC is not above LEND_PCT of its KV pool (R306, Table 12-8). -/
def State.lendsRoom (s : State) (peer : Nat) : Bool :=
  s.domUp && decide (s.domSt = 2) && s.dmap.members.has peer &&
  decide (s.pgSum .ssnPgAlloc * 100 ≤ s.pgSum .ssnPgTotal * s.dmap.lendPct) &&
  !(s.dfb.lent.any (fun g => decide (g.peer = peer) && g.late))

/-- `T4_ROOM_REQUEST`: a peer asks for room (R306); grants are numbered in order. -/
def execT4RoomRequest (peer pages : Nat) (s : State) : Ans :=
  .next (if s.frz.frozen || !s.domUp then s
    else if s.lendsRoom peer then
      (s.onDfb (fun d => { d with
        lent := d.lent ++ [{ peer := peer, sess := 0, pages := pages, order := d.grantCtr, revokedAt := none, late := false }]
        grantCtr := d.grantCtr + 1 })).send (.t4Answer peer pages true)
    else s.send (.t4Answer peer pages false))

/-- The piece of a peer's session. -/
def State.t4Piece (s : State) (peer : Nat) (ident : Word) : Option T4Piece :=
  s.dfb.pieces.find? (fun p => decide (p.peer = peer) && decide (p.ident = ident))

/-- A piece is released: its frames are free, and as much of the peer's room is given back, the latest grant first. -/
def State.dropPiece (s : State) (p : T4Piece) : State :=
  let s := p.frames.foldl (fun (s : State) f => s.freeFrame f.1 f.2 .alloc) s
  let n := p.frames.length
  let cut := (s.dfb.lent.reverse).foldl (fun (a : Nat × List T4Grant) g =>
    if g.peer = p.peer then (a.1 - min a.1 g.pages, { g with pages := g.pages - min a.1 g.pages } :: a.2) else (a.1, g :: a.2)) (n, [])
  s.onDfb (fun d => { d with
    pieces := d.pieces.filter (fun q => decide (q ≠ p))
    lent := cut.2.filter (fun g => decide (g.pages ≠ 0) || g.late) })

/-- `T4_PIECE_STORE`: a borrower's pieces are stored in this member's KV pool, under R80 for no context of its own (L = 253; DESIGN CHOICE, log
63); with no room granted or left they are refused. -/
def execT4PieceStore (peer : Nat) (ident : Word) (pages : List (List Byte)) (s : State) : Ans :=
  .next (if s.frz.frozen || !s.domUp then s
    else
      let s := match s.t4Piece peer ident with
        | some p => s.dropPiece p
        | none => s
      let held := ((s.dfb.pieces.filter (fun p => decide (p.peer = peer))).map (fun p => p.frames.length)).sum
      let room := ((s.dfb.lent.filter (fun g => decide (g.peer = peer) && g.revokedAt.isNone)).map (·.pages)).sum
      if room < held + pages.length then s.send (.t4Answer peer pages.length false)
      else
        let r := s.allocMany 64 (ident.toNat % 2 ^ 24) 253 pages.length .alloc
        match r.2 with
        | none => r.1.send (.t4Answer peer pages.length false)
        | some fs =>
          let s := (fs.zip pages).foldl (fun (s : State) q => (s.writeMem (keyKv q.1.1 q.1.2 0) (takeAt q.2 0 65536)).1) r.1
          s.onDfb (fun d => { d with pieces := d.pieces ++ [⟨peer, ident, fs⟩] }))

/-- `T4_FETCH`: a borrower's pieces stream back, and their room is given up (DESIGN CHOICE, log 63). A page that cannot be read comes back
as zeros under its poison. -/
def execT4Fetch (peer : Nat) (ident : Word) (s : State) : Ans :=
  .next (if s.frz.frozen || !s.domUp then s
    else
      match s.t4Piece peer ident with
      | none => s.send (.t4Pieces peer ident [])
      | some p =>
        let r := p.frames.foldl (fun (a : State × List (List Byte)) f =>
          let x := a.1.readMem (keyKv f.1 f.2 0) 65536
          (x.1, a.2 ++ [if x.2.1 = .ok then x.2.2 else []])) (s, [])
        (r.1.dropPiece p).send (.t4Pieces peer ident r.2))

/-- `T4_REVOKE`: above T1_HIGH the latest grant not yet revoked is revoked (R306). -/
def execT4Revoke (s : State) : Ans :=
  .next (if s.frz.frozen || !s.domUp || !s.pastHigh 0 then s
    else
      match (s.dfb.lent.reverse).find? (fun g => g.revokedAt.isNone) with
      | none => s
      | some g =>
        (s.onDfb (fun d => { d with lent := d.lent.map (fun x => if x.order = g.order then { x with revokedAt := some s.now } else x) })).send
          (.t4Revoked g.peer g.order))

/-- `RECLAIM_DEADLINE`: a borrower has not placed its pieces elsewhere within RECLAIM_MS: the lender keeps them, lends no more to it, and
sets BORROWER_LATE (R306). -/
def execReclaimDeadline (peer : Nat) (s : State) : Ans :=
  .next (let due := fun (g : T4Grant) => decide (g.peer = peer) && !g.late && (match g.revokedAt with
      | some t => decide (t + s.dmap.reclaimMs * 1000000 ≤ s.now)
      | none => false)
    if s.frz.frozen || !(s.dfb.lent.any due) || !(s.dfb.pieces.any (fun p => decide (p.peer = peer))) then s
    else (s.onDfb (fun d => { d with lent := d.lent.map (fun g => if due g then { g with late := true } else g) })).raise Evt.dfb_borrowerLate)

/-- `T4_REVOCATION_NOTICE`: a peer revokes the room session `order` names: its pieces come back and are placed again under R76 with T4 excluded
(R306; log 64). -/
def execT4RevocationNotice (peer order : Nat) (s : State) : Ans :=
  .next (if s.frz.frozen then s
    else
      match s.dfb.borrowed.find? (fun g => decide (g.peer = peer) && decide (g.order = order) && g.revokedAt.isNone) with
      | none => s
      | some g =>
        let s := s.onDfb (fun d => { d with borrowed := d.borrowed.map (fun x =>
          if x.peer = peer && x.order = order then { x with revokedAt := some s.now } else x) })
        match s.sess g.sess with
        | none => s
        | some x =>
          if x.atPeer && !x.preRevive && x.st = .parked && x.op.isNone && x.placing.isNone then
            let r := s.startStream g.sess
            if r.2 then r.1.updSession g.sess (fun y => { y with preRevive := true }) else r.1
          else s)

end Sys2Proof.Machine
end

