-- ==== Sys2Proof/Machine/Vsr.lean ====
section
/-! DEFINITION. Vector search: collections, sketches and their pages, VINSERT and VDELETE, folds, SEARCH, Weigh passes, the Assay, and the
rebuild of sketch pages (R175 to R197). -/

namespace Sys2Proof.Machine

/-! ### Formats (R175 to R180) -/

/-- A collection identifier (Table 7-1). -/
def collIdent (ctx ix gen : Nat) : Word := BitVec.ofNat 64 (ctx % 64 * 2 ^ 58 + ix % 1024 * 2 ^ 48 + gen % 2 ^ 48)

/-- Partition number of fresh partition `f`: fresh partitions stand after every partition a collection can have. -/
def freshPart (f : Nat) : Nat := 2 ^ 17 + f

/-- Bytes of a full-vector element. -/
def elemBytes (elem : Nat) : Nat := if elem = 0 then 4 else if elem = 1 then 2 else 1

/-- E_b: bytes of a sketch-page entry (R179). -/
def Coll.entBytes (k : Coll) : Nat := 32 + k.bBits / 8

/-- Entries a sketch page holds (R179). -/
def Coll.perPage (k : Coll) : Nat := 32704 / k.entBytes

/-- V: bytes of a record of the vector log, rounded up to 64 (R180). -/
def Coll.recBytes (k : Coll) : Nat := (32 + k.dim * elemBytes k.elem + 63) / 64 * 64

/-- The decode scale of INT8: 0 means 1.0 (Table 7-2). -/
def Coll.scale (k : Coll) : F32 := if k.elemScale = 0 then fOne else k.elemScale

/-- Element `j` of a vector's bytes, decoded to FP32 (R177). -/
def Coll.elemAt (k : Coll) (bs : List Byte) (j : Nat) : F32 :=
  if k.elem = 0 then f32At bs j
  else if k.elem = 1 then fOfBf16 (BitVec.ofNat 16 (leAt bs (2 * j) 2))
  else fMul (fOfI8 (bs.getD j 0)) k.scale

/-- A vector decoded to FP32 (R177). -/
def Coll.decodeVec (k : Coll) (bs : List Byte) : List F32 := (List.range k.dim).map (fun j => k.elemAt bs j)

/-- Row `i` of the projection matrix: true where the entry is −1 (R177). -/
def Coll.projRow (k : Coll) (i : Nat) : List Bool :=
  let bs := Config.shake256 (natLe 8 k.seed.toNat ++ natLe 2 i) ((k.dim + 7) / 8)
  (List.range k.dim).map (fun j => (bs.getD (j / 8) 0).getLsbD (j % 8))

/-- Bit `i` of a sketch: the sum of the row's products, taken exactly, is not negative (R177). -/
def Coll.sketchBit (k : Coll) (x : List F32) (i : Nat) : Bool :=
  decide (0 ≤ ((x.zip (k.projRow i)).map (fun p => if p.2 then - fInt p.1 else fInt p.1)).foldl (· + ·) 0)

/-- The sketch of a vector (R177). -/
def Coll.sketchOf (k : Coll) (x : List F32) : Nat :=
  ((List.range k.bBits).map (fun i => if k.sketchBit x i then 2 ^ i else 0)).sum

/-- h: the bits two sketches differ in. -/
def hammingOf (bBits a b : Nat) : Nat := ((List.range bBits).filter (fun i => bit a i != bit b i)).length

/-- The Weigh key of an entry (Table 7-3); a test query's key is h (R190). -/
def Coll.weighKey (k : Coll) (hamming : Bool) (q n : F32) (h : Nat) : F32 :=
  let c := Config.cosF k.bBits h
  if hamming || k.metric = 1 then fOfNat h
  else if k.metric = 0 then fNeg (fMul (fMul q n) c)
  else fSub (fAdd (fMul q q) (fMul n n)) (fMul (fMul (fMul (fOfNat 2) q) n) c)

/-- The estimate a sketch-only answer reports (Table 7-3). -/
def Coll.estimate (k : Coll) (q n : F32) (h : Nat) : F32 :=
  let c := Config.cosF k.bBits h
  if k.metric = 0 then fMul (fMul q n) c
  else if k.metric = 1 then c
  else k.weighKey false q n h

/-- A rank and KEY come before another: the lower rank, ties to the lower KEY (R178); a rank that is no number comes last (DESIGN CHOICE,
log 58). -/
def rankBefore (a : F32 × Nat) (b : F32 × Nat) : Bool :=
  if fIsNaN a.1 then fIsNaN b.1 && decide (a.2 < b.2)
  else if fIsNaN b.1 then true
  else fLt a.1 b.1 || (!(fLt b.1 a.1) && decide (a.2 < b.2))

/-- Candidates best first. -/
def sortCands (l : List VCand) : List VCand :=
  l.mergeSort (fun (a b : VCand) => !(rankBefore (b.rank, b.ent.key) (a.rank, a.ent.key)))

/-- The score of a vector against a query, summing in element order (R188), also the fold's rule (R183). -/
def exactScore (metric : Nat) (q x : List F32) : F32 :=
  if metric = 0 then fDot q x 0
  else if metric = 1 then
    let n := fMul (fNorm q) (fNorm x)
    if fIsZero (fNorm q) || fIsZero (fNorm x) then 0 else fDiv (fDot q x 0) n
  else fDist q x 0

/-- A score as a rank: higher is better but for squared Euclidean. -/
def scoreRank (metric : Nat) (v : F32) : F32 := if metric = 2 then v else fNeg v

/-! ### Pages and the log -/

/-- Entries of a partition in order. -/
def partEntries (es : List VEntry) (p : Nat) : List VEntry := es.filter (fun e => decide (e.part = p))

/-- Sketch pages of a partition. -/
def Coll.pageCount (k : Coll) (es : List VEntry) (p : Nat) : Nat :=
  ((partEntries es p).length + k.perPage - 1) / max 1 k.perPage

/-- The entries of page `j` of partition `p`. -/
def Coll.pageEntries (k : Coll) (es : List VEntry) (p j : Nat) : List VEntry := ((partEntries es p).drop (j * k.perPage)).take k.perPage

/-- Partitions that hold entries. -/
def partsOf (es : List VEntry) : List Nat := (es.map (·.part)).eraseDups

/-- Sketch pages of a collection. -/
def Coll.allPages (k : Coll) : Nat := ((partsOf k.entries).map (fun p => k.pageCount k.entries p)).sum

/-- Bytes of the working region in use with `pages` sketch pages and `tombs` tombstones (R176): those a fold has consumed stay until the last
query that reads them ends (R183). -/
def Coll.workUsed (k : Coll) (pages tombs : Nat) : Nat :=
  64 * k.npart + 16 * (pages + (k.stale.map (fun x => x.2.1.length)).sum) + 16 * (tombs + (k.stale.map (fun x => x.2.2)).sum)

/-- BASE of a partition's pages. -/
def Coll.baseOf (k : Coll) (p : Nat) : Nat :=
  if p = freshPart k.fresh then k.base
  else match k.fold with
    | some f => if p = freshPart f.fresh then f.base else 0
    | none => 0

/-- An entry of a sketch page (Table 7-4). -/
def Coll.entryBytes (k : Coll) (e : VEntry) : List Byte :=
  let ep := if e.part < 2 ^ 17 then 0 else e.epoch - k.baseOf e.part + 1
  natLe 8 e.key ++ natLe 8 (e.slot % 2 ^ 34 + ep % 2 ^ 30 * 2 ^ 34) ++ natLe 8 e.tag ++ natLe 8 (e.attr % 2 ^ 32 + e.norm.toNat * 2 ^ 32) ++
  natLe (k.bBits / 8) e.sketch

/-- Page `j` of partition `p` as it lies on flash (Table 7-4). -/
def Coll.pageBytes (k : Coll) (id : Word) (p j : Nat) : List Byte :=
  let es := k.pageEntries k.entries p j
  let pn := if p < 2 ^ 17 then p else 0x1FFFF
  takeAt (natLe 8 id.toNat ++ natLe 8 (pn + es.length * 2 ^ 17) ++ natLe 8 (k.baseOf p) ++ List.replicate 40 0 ++ es.flatMap k.entryBytes) 0
    unitBytes

/-- A record of the vector log (R180): KEY, TAG, ATTR and the insert epoch, each in 8 bytes (DEDUCED, log 59), then the elements. -/
def logRecord (key tag attr epoch : Nat) (x : List Byte) : List Byte := natLe 8 key ++ natLe 8 tag ++ natLe 8 attr ++ natLe 8 epoch ++ x

/-- The codewords of slot `i` of the vector log (R180). -/
def Coll.slotCws (k : Coll) (i : Nat) : List Nat :=
  let v := k.recBytes
  if v ≤ 4096 then [i / (4096 / v)] else (List.range ((v + 4095) / 4096)).map (fun j => i * ((v + 4095) / 4096) + j)

/-- Codeword `w` of the vector log. -/
def Coll.logCw (k : Coll) (w : Nat) : List Byte :=
  let v := k.recBytes
  if v ≤ 4096 then
    let per := 4096 / v
    takeAt ((List.range per).flatMap (fun j => takeAt (k.log.lookD (w * per + j) []) 0 v)) 0 4096
  else
    let n := (v + 4095) / 4096
    takeAt (k.log.lookD (w / n) []) (w % n * 4096) 4096

/-- Mapping unit `u` of the vector log. -/
def Coll.logUnit (k : Coll) (u : Nat) : List Byte := (List.range 8).flatMap (fun i => k.logCw (8 * u + i))

/-- Units of one extent of the vector log: the largest (R231). -/
def logExtUnits : Nat := 1048576

/-! ### Visibility (R182) -/

/-- An entry's insert epoch: a folded entry counts as 0. -/
def VEntry.insertedAt (e : VEntry) : Nat := if e.part < 2 ^ 17 then 0 else e.epoch

/-- An entry is visible at epoch `q` (R182). -/
def visibleAt (tombs : List (Nat × Nat)) (q : Nat) (e : VEntry) : Bool :=
  decide (e.insertedAt ≤ q) && !(tombs.any (fun t => decide (t.1 = e.key) && decide (e.insertedAt < t.2) && decide (t.2 ≤ q)))

/-- Visible entries of a collection now. -/
def Coll.visible (k : Coll) : List VEntry := k.entries.filter (visibleAt k.tombs k.epoch)

/-- Change collection `i`, if it exists. -/
def State.updColl (s : State) (i : Nat) (f : Coll → Coll) : State := s.onVsr (fun v => { v with colls := v.colls.upd i f })

/-- `VSR_VECTORS`: visible vectors over all collections. -/
def State.publishVec (s : State) : State :=
  s.wr .vsrVectors 0 (BitVec.ofNat 64 ((s.vsr.colls.rows.map (fun r => if r.2.dropping then 0 else r.2.visible.length)).sum))

/-! ### Creation and configuration (R176, R190) -/

/-- The descriptor of Table 7-2. -/
def collOf (gen : Nat) (d : List Byte) : Coll :=
  let w := leAt d 0 8
  { gen := gen, ctx := bits w 0 6, metric := bits w 6 2, elem := bits w 8 2, bBits := 128 * (bits w 10 4 + 1), dim := bits w 14 14,
    npart := bits (leAt d 8 8) 0 17, centroids := BitVec.ofNat 64 (leAt d 0x10 8), seed := BitVec.ofNat 64 (leAt d 0x18 8),
    maxVectors := bits (leAt d 0x20 8) 0 36, elemScale := BitVec.ofNat 32 (leAt d 0x28 4), work := BitVec.ofNat 64 (leAt d 0x30 8),
    workBytes := leAt d 0x38 8, epoch := 1, entries := [], tombs := [], log := .empty, exts := [], pages := .empty, jext := none, ver := 0,
    stale := [], fresh := 0, base := 1, fold := none, writes := [], lost := [], dropping := false, gone := [] }

/-- Check 1 of R176. -/
def collForm (d : List Byte) : Bool :=
  let k := collOf 0 d
  decide (bits (leAt d 0 8) 28 36 = 0) && decide (bits (leAt d 8 8) 17 47 = 0) && decide (bits (leAt d 0x20 8) 36 28 = 0) &&
  decide (bits (leAt d 0x28 8) 32 32 = 0) && decide (k.metric < 3) && decide (k.elem < 3) && decide (8 ≤ k.dim) && decide (k.dim ≤ 8192) &&
  decide (1 ≤ k.npart) && decide (k.npart ≤ 65536) && decide (1 ≤ k.maxVectors) && decide (k.maxVectors ≤ 16000000000) &&
  decide (k.work.toNat % 65536 = 0) && decide (k.workBytes % 65536 = 0)

/-- A range lies in mapped granules of a context's private space (R176). -/
def State.grMapped (s : State) (n a len : Nat) : Bool :=
  (slicesOf a len).all (fun x => match spaceOf x.1 with
    | some (0, off) => !(inStacks off) && (s.granuleKey n off).isSome
    | _ => false)

/-- Bytes of a mapped range of a context's private space; `none` where part of it is not mapped. -/
def State.grRead (s : State) (n a len : Nat) : Option (List Byte) :=
  if s.grMapped n a len then
    some ((slicesOf a len).flatMap (fun x => match s.granuleKey n (x.1 % 2 ^ 46) with
      | some key => s.bytesAt key x.2
      | none => []))
  else none

/-- `VSR_COLL_STATUS`. -/
def State.collStatus (s : State) (ix reason st : Nat) : State :=
  s.wr .vsrCollStatus 0 (BitVec.ofNat 64 (st + reason * 256 + ix % 1024 * 65536))

/-- `COLL_CREATE`: the checks of R176 in order. -/
def execCollCreate (rq : Requester) (v : Word) (s : State) : Ans :=
  .next (s.woWrite rq .vsrCollCreate 0 true (low6 v) (fun s =>
    let bs := s.bytesAt (keyHub v.toNat) 64
    let refuse := fun (r : Nat) => (s.collStatus (bits (s.rd .vsrCollStatus).toNat 16 10) r 3).raise Evt.vsr_createRefused
    let k := collOf 0 bs
    let total := (s.vsr.colls.rows.map (fun r => if r.2.dropping then 0 else r.2.maxVectors)).sum
    if !(collForm bs) then refuse 1
    else if !(s.resident k.ctx && s.actsFor rq k.ctx) then refuse 2
    else
      match lowestFree s.vsr.colls.has 0 1024 with
      | none => refuse 3
      | some i =>
        if 16000000000 < total + k.maxVectors then refuse 4
        else if !(s.grMapped k.ctx k.centroids.toNat (2 * k.npart * k.dim) && s.grMapped k.ctx k.work.toNat k.workBytes) then refuse 5
        else
          let gen := s.vsr.gens.lookD i 1
          let s := s.onVsr (fun t => { t with colls := t.colls.put i (collOf gen bs), gens := t.gens.put i gen })
          ((s.wr .vsrCollId i (collIdent k.ctx i gen)).collStatus i 0 2).raise Evt.vsr_createDone))

/-- `VSR_CFG_WRITE`: TEST_MODE may be set only while no collection is open (R190); the operator and firmware act for no context. -/
def execVsrCfgWrite (rq : Requester) (v : Word) (s : State) : Ans :=
  .next (s.cfgWrite rq .vsrCfg 0 (s.isModule rq) (fun s =>
    if bit v.toNat 0 && s.vsr.colls.any (fun _ k => !k.dropping) then s.raise Evt.vsr_cfgRefused
    else s.rwWrite .vsrCfg 0 v))

/-! ### The end of a query -/

/-- A SEARCH completes: counted in `VSR_SEARCHES`. -/
def State.searchDone (s : State) (r : Rcpt) (st : Status) (aux : Nat) (w1 : Word) : State := (s.count .vsrSearches 0 1).finishR r st aux w1

/-- Extents and tombstones a fold has consumed are freed when the last query that reads an older directory version has ended (R183). -/
def State.freeStale (s : State) (i : Nat) : State :=
  match s.vsr.colls.look i with
  | none => s
  | some k =>
    let live := s.vsr.searches.rows.filterMap (fun r => if r.2.coll = i then some r.2.ver else none)
    let dead := k.stale.filter (fun x => live.all (fun v => decide (x.1 ≤ v)))
    let s := (dead.flatMap (fun x => x.2.1)).foldl (fun s e => s.dropExtent e) s
    s.updColl i (fun k => { k with stale := k.stale.filter (fun x => !(live.all (fun v => decide (x.1 ≤ v)))) })

/-- Queue passes of query `op` over pages, by channel (R185, R186): each channel that holds some gets one; pages that await rebuild take no
part (R192). -/
def State.queuePasses (s : State) (op : Nat) (byChan : List (Nat × List (Nat × Nat))) (after : Option (F32 × Nat)) : State :=
  s.onVsr (fun v => { v with passes := byChan.foldl (fun (t : Tbl Nat (List VPass)) c =>
    t.put c.1 (t.lookD c.1 [] ++ [⟨op, c.2, after⟩])) v.passes })

/-- The channels a context's sketch pages lie on (R179): 32, or those it holds under quiet partitioning. -/
def State.sketchChans (s : State) (n : Nat) : List Nat :=
  if s.fld Fld.secCtxState_quiet n = 1 then (List.range 32).filter (fun c => bit (s.rd .secCtxQuiet n).toNat (24 + c)) else List.range 32

/-- The channel of page `j` of partition `p` (R179). -/
def State.pageChan (s : State) (n p j : Nat) : Nat :=
  let l := s.sketchChans n
  let q := if p < 2 ^ 17 then p else 0x1FFFF
  l.getD ((q + j) % max 1 l.length) 0

/-- Pages of partitions in a query's snapshot, by channel. -/
def State.pagesByChan (s : State) (k : Coll) (x : VSearch) (ps : List Nat) : List (Nat × List (Nat × Nat)) :=
  let pages := (ps.flatMap (fun p => (List.range (k.pageCount x.entries p)).map (fun j => (p, j)))).filter (fun pg => !(x.lost.contains pg))
  ((List.range 32).map (fun c => (c, pages.filter (fun pg => decide (s.pageChan x.ctx pg.1 pg.2 = c))))).filter (fun c => !c.2.isEmpty)

/-- Scan partitions for query `op`: one pass for each channel that holds pages of them. Pages on a failed hub's channels cannot be read: the
SEARCH ends with ABORTED, cause 4 (R240). -/
def State.scan (s : State) (op : Nat) (k : Coll) (x : VSearch) (ps : List Nat) : State :=
  let by_ := s.pagesByChan k x ps
  let most := by_.foldl (fun (a : Nat) c => max a c.2.length) 0
  let x := { x with waiting := by_.length, full := [], maxPages := max x.maxPages most }
  if by_.any (fun c => !(s.hubUp (hubOfChannel c.1))) then
    (s.onVsr (fun v => { v with searches := v.searches.del op })).searchDone x.rcpt .aborted 4 0
  else
  (s.onVsr (fun v => { v with searches := v.searches.put op x })).queuePasses op by_ none

/-- The centroids in order for a query: best first by the fold's rule, ties to the lower partition (R183, R185). -/
def centroidOrder (k : Coll) (table : List Byte) (x : List F32) : List Nat :=
  let rank := fun (p : Nat) =>
    let c := (List.range k.dim).map (fun j => fOfBf16 (BitVec.ofNat 16 (leAt table (2 * (p * k.dim + j)) 2)))
    scoreRank k.metric (exactScore k.metric x c)
  ((List.range k.npart).map (fun p => (rank p, p))).mergeSort (fun (a b : F32 × Nat) => !(rankBefore b a)) |>.map (·.2)

/-- NPROBE: 0 is treated as 1, and above NPART as NPART (R184). -/
def Coll.nprobe (k : Coll) (q : VQuery) : Nat := min k.npart (max 1 q.nprobe)

/-- A query starts executing: its centroid scores, and the passes of its first round (steps 1 and 2 of R185). A granule that is unmapped ends
it with ABORTED, cause 5 (R176). -/
def State.startQuery (s : State) (op : Nat) : State :=
  match s.vsr.searches.look op with
  | none => s
  | some x =>
    let drop := fun (s : State) => s.onVsr (fun v => { v with searches := v.searches.del op })
    match s.vsr.colls.look x.coll with
    | none => drop s
    | some k =>
      match s.grRead x.ctx k.centroids.toNat (2 * k.npart * k.dim) with
      | none => (drop s).searchDone x.rcpt .aborted 5 0
      | some table =>
        let order := centroidOrder k table x.q.query
        let n := k.nprobe x.q
        let fresh := (partsOf x.entries).filter (fun p => decide (2 ^ 17 ≤ p))
        s.scan op k { x with executing := true, order := order, probed := n } (order.take n ++ fresh)

/-- The hub starts the next query that waits, in issue order, while fewer than 256 execute (R193). -/
def State.nextQuery (s : State) (h : Nat) : State :=
  if 256 ≤ s.vsr.searches.countIf (fun _ x => decide (x.hub = h) && x.executing) then s
  else
    match s.vsr.searches.keysIf (fun _ x => decide (x.hub = h) && !x.executing) with
    | [] => s
    | a :: rest => s.startQuery (rest.foldl min a)

/-- A query leaves its hub: its duration is kept for 10 ms (R193), its passes are gone, and the next one starts. -/
def State.endQuery (s : State) (op : Nat) : State :=
  match s.vsr.searches.look op with
  | none => s
  | some x =>
    let s := s.onVsr (fun v => { v with
      searches := v.searches.del op
      passes := v.passes.mapVals (fun _ l => l.filter (fun p => decide (p.op ≠ op)))
      durations := v.durations.put x.hub ((s.now, s.now - x.startedAt) ::
        (v.durations.lookD x.hub []).filter (fun p => decide (s.now ≤ p.1 + 10000000))) })
    (s.freeStale x.coll).nextQuery x.hub

/-! ### SEARCH (R184, R193) -/

/-- The descriptor of Table 7-6. -/
def vqueryOf (d : Desc) (query : List F32) : VQuery :=
  { widen := bit (dbits d 4 1) 0, attrEn := bit (dbits d 5 1) 0, hamming := bit (dbits d 6 1) 0, k := dbits d 16 13, nprobe := dbits d 29 11,
    widenMax := dbits d 40 11, rerank := dbits d 64 15, tagReq := dbits d 128 64, tagExcl := dbits d 192 64, attrLo := dbits d 256 32,
    attrHi := dbits d 288 32, query := query, output := BitVec.ofNat 64 (dbits d 384 64) }

/-- The checks of R184 on the descriptor alone; every field lies in its range. -/
def searchForm (d : Desc) (test : Bool) : Bool :=
  let q := vqueryOf d []
  decide (dbits d 0 4 = 1) && decide (dbits d 7 9 = 0) && decide (dbits d 51 13 = 0) && decide (dbits d 79 49 = 0) && decide (dbits d 448 64 = 0) &&
  decide (1 ≤ q.k) && decide (q.k ≤ 4096) && decide (q.k ≤ q.rerank) && decide (q.rerank ≤ 16384) &&
  !(q.attrEn && decide (q.attrHi < q.attrLo)) && (!q.hamming || test)

/-- SEARCH: the checks of R184, the hub's limits of R193, and the snapshot of R182. -/
def doSearch (o : Op) (h : Handle) (s : State) : State :=
  let ix := bits (hObj h).toNat 48 10
  let d := o.ix.desc
  let done := fun (s : State) st aux => (s.count .vsrSearches 0 1).doneNow o st aux 0
  match s.vsr.colls.look ix with
  | none => s.deny o 3
  | some k =>
    if !(searchForm d (decide (s.fld Fld.vsrCfg_testMode = 1))) then done s .denied 2
    else if !(s.opMapped o (dbits d 384 64) (16 * dbits d 16 13)) then s.searchDone o.r .aborted 5 0
    else
      match s.readPriv o.ix.c o.ctx (dbits d 320 64) (4 * k.dim) with
      | none => s.searchDone o.r .aborted 5 0
      | some (s, st, bad, bs) =>
        if st ≠ .ok then s.searchDone o.r st 0 (BitVec.ofNat 64 bad)
        else
          let query := (List.range k.dim).map (fun j => f32At bs j)
          let hub := hubOfClerk o.ix.c
          if query.any (fun e => !(fFinite e)) then done s .denied 2
          else if 4096 ≤ s.vsr.searches.countIf (fun _ x => decide (x.hub = hub) && !x.executing) then
            let x := s.retryAfter o.ctx 4 ladderFast (meanUs s.now (s.vsr.durations.lookD hub []))
            done (x.1.raise Evt.vsr_searchDefer) .admitDefer x.2
          else
            let op := s.vsr.opCtr
            let x : VSearch :=
              { rcpt := o.r, hub := hub, ctx := o.ctx, coll := ix, q := vqueryOf d query, startedAt := s.now, executing := false,
                epoch := k.epoch, ver := k.ver, entries := k.entries, tombs := k.tombs, lost := k.lost, order := [], probed := 0, added := 0,
                waiting := 0, full := [], cands := [], maxPages := 0, assay := false }
            let s := s.onVsr (fun v => { v with searches := v.searches.put op x, opCtr := op + 1 })
            let cl := s.clerk o.r.clerk
            let s := s.setClerk o.r.clerk (cl.setSlot o.r.slot { cl.slot o.r.slot with op := .search op })
            s.nextQuery hub

/-- `SEARCH`. -/
def execSearch (c : Nat) (s : State) : Ans :=
  .next (s.onWord c (isSub 0x38 0) (fun ix => s.issueH ix (.search 0) [2] rtRead doSearch))

/-! ### Weigh passes, merging and widening (R186, R187, R189) -/

/-- An entry passes a query's filters (R186). -/
def VQuery.admits (q : VQuery) (e : VEntry) : Bool :=
  decide (e.tag &&& q.tagReq = q.tagReq) && decide (e.tag &&& q.tagExcl = 0) && (!q.attrEn || (decide (q.attrLo ≤ e.attr) && decide (e.attr ≤ q.attrHi)))

/-- What a Weigh pass returns: the 4,096 best admitted entries whose keys are worse than the last of the list it continues. -/
def weigh (k : Coll) (x : VSearch) (p : VPass) : List VCand :=
  let sk := k.sketchOf x.q.query
  let qn := fNorm x.q.query
  let es := (p.pages.flatMap (fun pg => k.pageEntries x.entries pg.1 pg.2)).filter x.q.admits
  let cs := es.map (fun e =>
    let h := hammingOf k.bBits sk e.sketch
    VCand.mk (k.weighKey x.q.hamming qn e.norm h) h e)
  (sortCands (cs.filter (fun c => match p.after with
    | none => true
    | some a => rankBefore a (c.rank, c.ent.key)))).take 4096

/-- The records of a query's answer are written and it completes (R188 to R191): PARTIAL with fewer than K, DEGRADED for a sketch-only
answer. -/
def State.deliver (s : State) (op : Nat) (x : VSearch) (recs : List (List Byte)) (degraded : Bool) (w1 : Nat) : State :=
  match s.writePriv x.rcpt.clerk x.ctx x.q.output.toNat recs.flatten with
  | none => (s.endQuery op).searchDone x.rcpt .aborted 5 0
  | some (s, st, bad) =>
    let s := s.endQuery op
    if st ≠ .ok then s.searchDone x.rcpt st 0 (BitVec.ofNat 64 bad)
    else if degraded then ((s.count .vsrDegraded 0 1).raise Evt.vsr_degraded).searchDone x.rcpt .degraded recs.length 0
    else if recs.length < x.q.k then
      ((s.count .vsrPartial 0 1).raise Evt.vsr_partial).searchDone x.rcpt .partialS recs.length (BitVec.ofNat 64 x.q.k)
    else s.searchDone x.rcpt .ok recs.length (BitVec.ofNat 64 w1)

/-- A result record (Table 7-7). -/
def resultRec (key : Nat) (score : F32) (h : Nat) (est : Bool) : List Byte :=
  natLe 8 key ++ f32Le score ++ natLe 4 (h % 4096 + (if est then 4096 else 0))

/-- The end of a round (R187, R189): continuation passes while some full channel's last key is better than the K-th best visible key, then a
widening round, then the Assay; a test query skips it (R190). -/
def State.roundEnd (s : State) (op : Nat) : State :=
  match s.vsr.searches.look op with
  | none => s
  | some x =>
    if x.waiting ≠ 0 then s
    else
      match s.vsr.colls.look x.coll with
      | none => s
      | some k =>
        let cs := sortCands x.cands
        let more := x.full.filter (fun f => match cs[x.q.k - 1]? with
          | none => true
          | some c => rankBefore f.2.1 (c.rank, c.ent.key))
        if !more.isEmpty then
          let s := s.onVsr (fun v => { v with searches := v.searches.put op { x with waiting := more.length, full := [] } })
          more.foldl (fun (s : State) f => s.queuePasses op [(f.1, f.2.2)] (some f.2.1)) s
        else
          let add := min (k.nprobe x.q) (min (x.q.widenMax - x.added) (k.npart - x.probed))
          if cs.length < x.q.k && x.q.widen && 0 < add then
            s.scan op k { x with probed := x.probed + add, added := x.added + add } ((x.order.drop x.probed).take add)
          else if x.q.hamming then
            s.deliver op x ((cs.take x.q.k).map (fun c => resultRec c.ent.key (fOfNat c.h) c.h false)) false x.maxPages
          else s.onVsr (fun v => { v with searches := v.searches.put op { x with assay := true, cands := cs.take x.q.rerank } })

/-- Rounds without a pass end at once: at most one for each partition there may be. -/
def State.roundsEnd (s : State) (op : Nat) : Nat → State
  | 0 => s
  | fuel + 1 =>
    match s.vsr.searches.look op with
    | none => s
    | some x => if x.executing && x.waiting = 0 && !x.assay then (s.roundEnd op).roundsEnd op fuel else s

/-- `WEIGH_PASS`: the pass at the head of a channel's queue runs over its query's snapshot; the hub merges its list and removes hidden entries
(steps 2 and 3 of R185). -/
def execWeighPass (ch : Nat) (s : State) : Ans :=
  .next (match s.vsr.passes.lookD ch [] with
    | [] => s
    | p :: rest =>
      if s.frz.frozen || !(s.hubUp (hubOfChannel ch)) || s.chanSt ch ≠ 1 then s
      else
        let s := s.onVsr (fun v => { v with passes := v.passes.put ch rest })
        match s.vsr.searches.look p.op with
        | none => s
        | some x =>
          match s.vsr.colls.look x.coll with
          | none => s
          | some k =>
            let s := s.unitServe 6 ch x.ctx
            let l := weigh k x p
            let full := match l.getLast? with
              | some c => if l.length = 4096 then [(ch, (c.rank, c.ent.key), p.pages)] else []
              | none => []
            let x := { x with
              waiting := x.waiting - 1
              full := x.full ++ full
              cands := x.cands ++ l.filter (fun c => visibleAt x.tombs x.epoch c.ent) }
            (s.onVsr (fun v => { v with searches := v.searches.put p.op x })).roundsEnd p.op 65540)

/-! ### The Assay (R188, R191) -/

/-- The unit and the codeword in it of codeword `w` of a collection's log, with the unit's map entry. -/
def State.logPlace (s : State) (k : Coll) (w : Nat) : Option (Nat × Nat × MapEnt) :=
  match k.exts[w / 8 / logExtUnits]? with
  | none => none
  | some x => match s.fls.extents.look x with
    | none => none
    | some e => (s.fls.map.look (e.base + w / 8 % logExtUnits)).map (fun m => (e.base + w / 8 % logExtUnits, w % 8, m))

/-- The channel a log codeword lies on. -/
def State.cwChan (s : State) (q : Nat × Nat × MapEnt) : Nat := (s.unitChans q.2.2).getD (if q.2.2.spread then q.2.1 else 0) 0

/-- A log codeword lies on a die that is being rebuilt (R191). -/
def State.cwRebuilding (s : State) (q : Nat × Nat × MapEnt) : Bool :=
  s.fls.rebuild.any (fun r => decide (r.1 = s.cwChan q) && decide (r.2.1 = s.sbLun q.2.2.sb) && r.2.2.contains q.1)

/-- `ASSAY`: the candidates' full vectors are read and ranked exactly; or, with one on a die being rebuilt, the answer is sketch-only. A
round without a pass ends here. A codeword that is lost ends the query with POISON (R53, R239); one behind a failed hub with ABORTED, cause 4. -/
def execAssay (op : Nat) (s : State) : Ans :=
  .next (let s := if s.frz.frozen then s else s.roundsEnd op 65540
    match s.vsr.searches.look op with
    | none => s
    | some x =>
      if !x.assay || s.frz.frozen || !(s.hubUp x.hub) then s
      else
        match s.vsr.colls.look x.coll with
        | none => s
        | some k =>
          let s := s.unitServe 7 x.hub x.ctx
          let qn := fNorm x.q.query
          let places := (x.cands.flatMap (fun c => (k.slotCws c.ent.slot).filterMap (fun w => s.logPlace k w))).eraseDups
          if places.any s.cwRebuilding then
            s.deliver op x ((x.cands.take x.q.k).map (fun c => resultRec c.ent.key (k.estimate qn c.ent.norm c.h) c.h true)) true 0
          else
            match places.find? (fun q => s.unitAway q.2.2) with
            | some _ => (s.endQuery op).searchDone x.rcpt .aborted 4 0
            | none =>
              match places.find? (fun q => q.2.2.lost) with
              | some q => (s.endQuery op).searchDone x.rcpt .poison 0 (BitVec.ofNat 64 (q.1 * unitBytes + q.2.1 * 4096))
              | none =>
                let busy := (List.range 32).foldl (fun (a : Nat) ch => max a (places.filter (fun q => decide (s.cwChan q = ch))).length) 0
                let scored := x.cands.map (fun c =>
                  let v := exactScore k.metric x.q.query (k.decodeVec ((k.log.lookD c.ent.slot []).drop 32))
                  (v, c.ent.key))
                let best := scored.mergeSort (fun (a b : F32 × Nat) =>
                  !(rankBefore (scoreRank k.metric b.1, b.2) (scoreRank k.metric a.1, a.2)))
                s.deliver op x ((best.take x.q.k).map (fun r => resultRec r.2 r.1 0 false)) false (x.maxPages + busy * 2 ^ 32))

end Sys2Proof.Machine
end

