-- ==== Sys2Proof/Machine/VsrWrite.lean ====
section
/-! DEFINITION. Writes of vector collections: VINSERT, VDELETE, folds, the rebuild of sketch pages, and the drop of a collection (R181, R183,
R192, R194). -/

namespace Sys2Proof.Machine

/-! ### Flash (R179, R180, R234) -/

/-- A page or unit to be written: extent, first unit and data. -/
abbrev UnitWr := Nat × Nat × List Byte

/-- Writes reach the map, newly written data in the Till (R175): the identifiers of those queued. -/
def State.putUnits (s : State) (own : FlashOwner) (l : List UnitWr) : State × List Nat :=
  l.foldl (fun (a : State × List Nat) w =>
    let r := a.1.flashPut own w.1 w.2.1 [w.2.2] true
    match r.2 with
    | .queued id => (r.1, a.2 ++ [id])
    | _ => (r.1, a.2)) (s, [])

/-- Log units that slots touch. -/
def Coll.touched (k : Coll) (slots : List Nat) : List Nat := ((slots.flatMap k.slotCws).map (· / 8)).eraseDups

/-- Pages that `k` has otherwise than `old`, by partition and page. -/
def Coll.changedPages (k old : Coll) : List (Nat × Nat) :=
  (partsOf k.entries).flatMap (fun p => ((List.range (k.pageCount k.entries p)).map (fun j => (p, j))).filter (fun pg =>
    decide (k.pageEntries k.entries pg.1 pg.2 ≠ old.pageEntries old.entries pg.1 pg.2)))

/-- Log unit `u` is mapped. -/
def State.logMapped (s : State) (k : Coll) (u : Nat) : Bool :=
  match k.exts[u / logExtUnits]? with
  | none => false
  | some x => match s.fls.extents.look x with
    | none => false
    | some e => s.fls.map.has (e.base + u % logExtUnits)

/-- New extents that writing log units, pages and the journal takes. -/
def Coll.newExts (k : Coll) (us : List Nat) (pgs : List (Nat × Nat)) : Nat :=
  (us.foldl (fun (a : Nat) u => max a (u / logExtUnits + 1)) k.exts.length - k.exts.length) +
  (pgs.filter (fun p => !(k.pages.has p))).length + (if k.jext.isNone then 1 else 0)

/-- New units of such a write, the journal's apart (R246). -/
def State.newUnits (s : State) (k : Coll) (us : List Nat) (pgs : List (Nat × Nat)) : Nat :=
  (us.filter (fun u => !(s.logMapped k u))).length + (pgs.filter (fun p => !(k.pages.has p))).length

/-- Give collection `i` the extents it lacks for log units, pages and the journal. -/
def State.growColl (s : State) (i : Nat) (us : List Nat) (pgs : List (Nat × Nat)) : State :=
  match s.vsr.colls.look i with
  | none => s
  | some k =>
    let need := us.foldl (fun (a : Nat) u => max a (u / logExtUnits + 1)) k.exts.length - k.exts.length
    let s := (List.range need).foldl (fun (s : State) _ =>
      let e := s.newExtent (some k.ctx) logExtUnits true none
      e.1.updColl i (fun k => { k with exts := k.exts ++ e.2.toList })) s
    let s := (pgs.filter (fun p => !(k.pages.has p))).foldl (fun (s : State) p =>
      let e := s.newExtent (some k.ctx) 1 false (some (s.pageChan k.ctx p.1 p.2))
      match e.2 with
      | none => e.1
      | some x => e.1.updColl i (fun k => { k with pages := k.pages.put p x })) s
    if k.jext.isSome then s
    else
      let e := s.newExtent (some k.ctx) 1 false none
      e.1.updColl i (fun k => { k with jext := e.2 })

/-- The writes of log units and pages of collection `i` as it stands. -/
def State.collWrites (s : State) (i : Nat) (us : List Nat) (pgs : List (Nat × Nat)) : List UnitWr :=
  match s.vsr.colls.look i with
  | none => []
  | some k =>
    let id := collIdent k.ctx i k.gen
    us.filterMap (fun u => (k.exts[u / logExtUnits]?).map (fun x => (x, u % logExtUnits, k.logUnit u))) ++
    pgs.filterMap (fun p => (k.pages.look p).map (fun x => (x, 0, k.pageBytes id p.1 p.2)))

/-- The journal of the working region: the changes of one operation in one unit (DESIGN CHOICE, log 61). -/
def State.journalColl (s : State) (i : Nat) (bs : List Byte) : State × List Nat :=
  match (s.vsr.colls.look i).bind (·.jext) with
  | none => (s, [])
  | some x => s.putUnits (.vectors i) [(x, 0, takeAt bs 0 unitBytes)]

/-- A tombstone in the working region: KEY and epoch. -/
def tombBytes (t : Nat × Nat) : List Byte := natLe 8 t.1 ++ natLe 8 t.2

/-! ### VINSERT and VDELETE (R181) -/

/-- The first `n` slots that no entry of the collection, nor of a query that still reads it, holds (DESIGN CHOICE, log 9). -/
def State.freeLogSlots (s : State) (i : Nat) (k : Coll) (n : Nat) : List Nat :=
  let used := (k.entries.map (·.slot)) ++ s.vsr.searches.rows.flatMap (fun r => if r.2.coll = i then r.2.entries.map (·.slot) else [])
  ((List.range (used.length + n)).filter (fun x => !(used.contains x))).take n

/-- The checks of R181 on the descriptor. -/
def vwriteForm (d : Desc) (op : Nat) : Bool :=
  decide (dbits d 0 4 = op) && decide (dbits d 5 27 = 0) && decide (dbits d 320 192 = 0) && decide (1 ≤ dbits d 32 32) &&
  decide (dbits d 32 32 ≤ 65536)

/-- A VINSERT or VDELETE that is durable completes (R181). -/
def State.vwriteDone (s : State) (i : Nat) : State :=
  match s.vsr.colls.look i with
  | none => s
  | some k =>
    let done := k.writes.filter (fun w => w.writes.isEmpty)
    let s := s.updColl i (fun k => { k with writes := k.writes.filter (fun w => !w.writes.isEmpty) })
    done.foldl (fun (s : State) w =>
      (s.setDirty .vectors (s.dirtyOf .vectors - w.jbytes)).finishR w.rcpt .ok w.count (BitVec.ofNat 64 w.epoch)) s

/-- A flash write of a collection is programmed. -/
def State.vecProgrammed (s : State) (i id : Nat) : State :=
  (s.updColl i (fun k => { k with writes := k.writes.map (fun w => { w with writes := w.writes.filter (fun x => decide (x ≠ id)) }) })).vwriteDone i

/-- An operation on collection `i` executes: the entries, tombstones and records are written, and the epoch rises (R181, log 62). `new` is
the collection after it. -/
def State.vwriteExec (s : State) (o : Op) (i : Nat) (new : Coll) (count jbytes : Nat) (us : List Nat) (pgs : List (Nat × Nat))
    (jdata : List Byte) : State :=
  let e := new.epoch
  let s := (s.updColl i (fun k => { new with epoch := e + 1, exts := k.exts, pages := k.pages, jext := k.jext })).publishVec
  let s := s.growColl i us pgs
  let a := s.putUnits (.vecData i) (s.collWrites i us pgs)
  let b := if jbytes = 0 then (a.1, []) else (a.1.addDirty .vectors jbytes).journalColl i jdata
  let op := b.1.vsr.opCtr
  let s := b.1.onVsr (fun v => { v with opCtr := op + 1 })
  let cl := s.clerk o.r.clerk
  let s := s.setClerk o.r.clerk (cl.setSlot o.r.slot { cl.slot o.r.slot with op := .vwrite i op })
  (s.updColl i (fun k => { k with writes := k.writes ++ [⟨op, o.r, count, e, a.2 ++ b.2, jbytes⟩] })).vwriteDone i

/-- The refusals of R181 that follow the operands, in the order of the table: too many vectors, a full working region, a closed pool; then the
operation executes. An operation that would pass the flush budget waits (R359): `wait` is the state before its issue. -/
def State.vwriteTry (s wait : State) (o : Op) (i : Nat) (k new : Coll) (count : Nat) (slots : List Nat) (insert : Bool) : State :=
  let us := if insert then k.touched slots else []
  let pgs := if insert then new.changedPages k else []
  let fresh := (pgs.filter (fun p => !(k.pages.has p))).length
  let tombs := new.tombs.drop k.tombs.length
  let jbytes := 16 * (tombs.length + fresh)
  if insert && decide (k.maxVectors < ({ new with epoch := new.epoch + 1 } : Coll).visible.length) then s.finish o .noSpace 0x0202 0
  else if k.workBytes < k.workUsed new.allPages new.tombs.length then
    match k.fold with
    | some f => s.finish o .admitDefer ((f.endAt - s.now + 999) / 1000) 0
    | none => s.finish o .noSpace 0x0203 0
  else if !s.boot.flashUp then s.abortR o.r 4
  else if 16777216 ≤ s.fls.extents.size + k.newExts us pgs then s.finish o .noSpace 0x0401 0
  else
    let s := if insert && s.pool = 0 && s.poolFull (s.newUnits k us pgs) then s.closePool else s
    if insert && s.pool ≠ 0 then s.finish o .noSpace 0x0400 0
    else if jbytes ≠ 0 && !(s.dirtRoom jbytes) then wait
    else s.vwriteExec o i new count jbytes us pgs (tombs.flatMap tombBytes)

/-- The entries of `n` vectors inserted in log slots `slots`, from their keys, tags, attributes and vectors (R177, R181). -/
def Coll.newEntries (k : Coll) (n : Nat) (keys tags attrs : List Byte) (xs : List (List Byte)) (slots : List Nat) : List VEntry :=
  (List.range n).map (fun j =>
    let x := k.decodeVec (xs.getD j [])
    VEntry.mk (leAt keys (8 * j) 8) (leAt tags (8 * j) 8) (leAt attrs (4 * j) 4) (fNorm x) (k.sketchOf x) k.epoch (slots.getD j 0)
      (freshPart k.fresh))

/-- A collection with `n` vectors inserted in log slots `slots`: entries, records, and with REPLACE a tombstone for each key (R181). -/
def Coll.withInserts (k : Coll) (n : Nat) (replace : Bool) (keys tags attrs : List Byte) (xs : List (List Byte)) (slots : List Nat) : Coll :=
  let es := k.newEntries n keys tags attrs xs slots
  let recs := (List.range n).map (fun j =>
    (slots.getD j 0, logRecord (leAt keys (8 * j) 8) (leAt tags (8 * j) 8) (leAt attrs (4 * j) 4) k.epoch (xs.getD j [])))
  { k with
    entries := k.entries ++ es
    tombs := k.tombs ++ (if replace then es.map (fun e => (e.key, k.epoch)) else [])
    log := recs.foldl (fun (t : Tbl Nat (List Byte)) r => t.put r.1 r.2) k.log }

/-- A collection with `n` keys deleted: a tombstone each (R181). -/
def Coll.withDeletes (k : Coll) (n : Nat) (keys : List Byte) : Coll :=
  { k with tombs := k.tombs ++ (List.range n).map (fun j => (leAt keys (8 * j) 8, k.epoch)) }

/-- VINSERT (R181). -/
def doVinsert (wait : State) (o : Op) (h : Handle) (s : State) : State :=
  let i := bits (hObj h).toNat 48 10
  let d := o.ix.desc
  let n := dbits d 32 32
  match s.vsr.colls.look i with
  | none => s.deny o 3
  | some k =>
    let vb := k.dim * elemBytes k.elem
    if !(vwriteForm d 1) then s.deny o 2
    else s.opRead o (dbits d 64 64) (8 * n) (fun keys s => s.opRead o (dbits d 128 64) (n * vb) (fun vecs s =>
      s.opRead o (dbits d 192 64) (8 * n) (fun tags s => s.opRead o (dbits d 256 64) (4 * n) (fun attrs s =>
        let xs := (List.range n).map (fun j => takeAt vecs (j * vb) vb)
        if xs.any (fun x => (k.decodeVec x).any (fun e => !(fFinite e))) then s.deny o 2
        else
          let slots := s.freeLogSlots i k n
          s.vwriteTry wait o i k (k.withInserts n (bit (dbits d 4 1) 0) keys tags attrs xs slots) n slots true))))

/-- `VINSERT`. -/
def execVinsert (c : Nat) (s : State) : Ans :=
  .next (s.onWord c (isSub 0x39 0) (fun ix => s.issueH ix (.vwrite 0 0) [2] rtWrite (doVinsert s)))

/-- VDELETE (R181). -/
def doVdelete (wait : State) (o : Op) (h : Handle) (s : State) : State :=
  let i := bits (hObj h).toNat 48 10
  let d := o.ix.desc
  let n := dbits d 32 32
  match s.vsr.colls.look i with
  | none => s.deny o 3
  | some k =>
    if !(vwriteForm d 2) then s.deny o 2
    else s.opRead o (dbits d 64 64) (8 * n) (fun keys s =>
      s.vwriteTry wait o i k (k.withDeletes n keys) n [] false)

/-- `VDELETE`. -/
def execVdelete (c : Nat) (s : State) : Ans :=
  .next (s.onWord c (isSub 0x3A 0) (fun ix => s.issueH ix (.vwrite 0 0) [2] (rtWrite + rtDelete) (doVdelete s)))

/-! ### Folds (R183) -/

/-- A fold starts when the fresh partition is full, its EPOCH field would reach 2^30 − 1, or the tombstone table is full. -/
def Coll.foldDue (k : Coll) (foldEntries : Nat) : Bool :=
  decide (max 1 foldEntries ≤ (partEntries k.entries (freshPart k.fresh)).length) || decide (2 ^ 30 - 1 ≤ k.epoch - k.base + 1) ||
  decide (k.workBytes < k.workUsed k.allPages (k.tombs.length + 1))

/-- The collection after a fold: entries hidden at its epoch are dropped, those of the old fresh partition go to the nearest centroid with
EPOCH 0, and the tombstones up to its epoch are consumed (R183; DEDUCED, log 60). -/
def Coll.folded (k : Coll) (f : VFold) (table : List Byte) : Coll :=
  let seen := k.entries.filter (visibleAt k.tombs f.epoch)
  let old := seen.filter (fun e => decide (e.part < 2 ^ 17))
  let moved := (seen.filter (fun e => decide (e.part = freshPart f.fresh))).map (fun e =>
    { e with epoch := 0, part := (centroidOrder k table (k.decodeVec ((k.log.lookD e.slot []).drop 32))).headD 0 })
  { k with
    entries := old ++ moved ++ partEntries k.entries (freshPart k.fresh)
    tombs := k.tombs.filter (fun t => decide (f.epoch < t.2))
    fold := none
    ver := k.ver + 1 }

/-- A fold ends (R183): the pages that changed are written, and the new directory version is published in one journalled write. It waits
while a page awaits rebuild, the pool takes no new data, or a centroid cannot be read. -/
def State.endFold (s : State) (i : Nat) (k : Coll) (f : VFold) : State :=
  match s.grRead k.ctx k.centroids.toNat (2 * k.npart * k.dim) with
  | none => s
  | some table =>
    let new := k.folded f table
    let pgs := new.changedPages k
    let gone := k.pages.keysIf (fun p _ => decide (new.pageCount new.entries p.1 ≤ p.2))
    if !k.lost.isEmpty || !s.boot.flashUp || s.pool ≠ 0 || s.poolFull (s.newUnits k [] pgs) || 16777216 ≤ s.fls.extents.size + k.newExts [] pgs ||
        !(s.dirtRoom 16) then s
    else
      let consumed := k.tombs.length - new.tombs.length
      let s := s.updColl i (fun _ => { new with
        pages := k.pages.keep (fun p _ => !(gone.contains p))
        stale := k.stale ++ [(new.ver, gone.filterMap k.pages.look, consumed)] })
      let s := s.growColl i [] pgs
      let a := s.putUnits (.vecData i) (s.collWrites i [] pgs)
      let b := a.1.journalColl i (natLe 8 new.ver)
      ((b.1.freeStale i).publishVec).raise Evt.vsr_foldDone

/-- `VECTOR_FOLD`: a fold that is due starts, with a predicted end; one under way ends. -/
def execVectorFold (coll endUs : Nat) (s : State) : Ans :=
  .next (match s.vsr.colls.look coll with
    | none => s
    | some k =>
      if k.dropping || s.frz.frozen then s
      else
        match k.fold with
        | some f => s.endFold coll k f
        | none =>
          if k.foldDue (s.fld Fld.vsrCfg_foldEntries) then
            s.updColl coll (fun k => { k with
              fold := some ⟨k.fresh, k.base, k.epoch - 1, s.now + endUs * 1000⟩
              fresh := k.fresh + 1
              base := k.epoch })
          else s)

/-! ### Rebuild of sketch pages (R192) -/

/-- `SKETCH_REBUILD`: the page's entries are sketched again from the vector log, and it takes part again. A sketch is a function of its vector,
so the entries are as before. -/
def execSketchRebuild (coll part page : Nat) (s : State) : Ans :=
  .next (match s.vsr.colls.look coll with
    | none => s
    | some k =>
      if k.dropping || s.frz.frozen || !(k.lost.contains (part, page)) || !s.boot.flashUp then s
      else
        let w := s.putUnits (.vecData coll) (s.collWrites coll [] [(part, page)])
        if w.2.isEmpty then s
        else (w.1.updColl coll (fun k => { k with lost := k.lost.filter (fun p => decide (p ≠ (part, page))) })).publishLost)

/-! ### Drop (R175, R194) -/

/-- Mapped units of extents. -/
def State.unitsOfExts (s : State) (xs : List Nat) : List Nat :=
  xs.flatMap (fun x => match s.fls.extents.look x with
    | none => []
    | some e => s.fls.map.keysIf (fun u _ => decide (e.base ≤ u) && decide (u < e.base + e.units)))

/-- Collection `i` is dropped (R194): its operations end with ABORTED, cause 5, its GEN advances, and its flash ranges are discarded. -/
def State.dropColl (s : State) (i : Nat) : State :=
  match s.vsr.colls.look i with
  | none => s
  | some k =>
    if k.dropping then s
    else
      let s := s.updColl i (fun k => { k with dropping := true, writes := [] })
      let s := (s.vsr.searches.rows.filter (fun r => decide (r.2.coll = i))).foldl (fun (s : State) r =>
        (s.endQuery r.1).searchDone r.2.rcpt .aborted 5 0) s
      let s := k.writes.foldl (fun (s : State) w => (s.setDirty .vectors (s.dirtyOf .vectors - w.jbytes)).abortR w.rcpt 5) s
      let xs := k.exts ++ k.pages.rows.map (·.2) ++ k.jext.toList ++ k.stale.flatMap (fun x => x.2.1)
      let us := s.unitsOfExts xs
      let s := xs.foldl (fun (s : State) x => s.dropExtent x) s
      let g := if k.gen + 1 < 2 ^ 48 then k.gen + 1 else 1
      let s := s.updColl i (fun k => { k with
        gen := g, entries := [], tombs := [], log := .empty, exts := [], pages := .empty, jext := none, stale := [], fold := none, lost := [],
        gone := us })
      ((s.onVsr (fun v => { v with gens := v.gens.put i g })).publishVec).publishLost

/-- `COLL_DROP`: an index without a collection names none. -/
def execCollDrop (rq : Requester) (v : Word) (s : State) : Ans :=
  let i := bits v.toNat 0 10
  let ok := match s.vsr.colls.look i with
    | some k => s.actsFor rq k.ctx
    | none => true
  .next (s.woWrite rq .vsrCollDrop 0 ok 0 (fun s => s.dropColl i))

/-- `COLL_INDEX_FREE`: the index of a dropped collection is free once the discard's journal records are programmed (R194). -/
def execCollIndexFree (coll : Nat) (s : State) : Ans :=
  s.whenLive (match s.vsr.colls.look coll with
    | none => s
    | some k =>
      if k.dropping && !(s.fls.jbufs.any (fun _ b => b.1.any (fun r => k.gone.contains r.unit))) then
        (s.onVsr (fun v => { v with colls := v.colls.del coll })).wr .vsrCollId coll 0
      else s)

end Sys2Proof.Machine
end

