-- ==== Sys2Proof/Machine/Adopt.lean ====
section
/-! DEFINITION. A flash write that is programmed reaches its owner (R234), and the adoption of a change of the domain map with what it means
for sessions, T4 room and Statements (R65, R85, R266, R290, R302, R306, R373). -/

namespace Sys2Proof.Machine

/-- A write has been programmed and its entries have switched; its owner goes on. -/
def State.programDone (s : State) (id : Nat) : State :=
  let r := s.flashProgramDone id
  match r.2 with
  | none => r.1
  | some (w, ok) =>
    match w.owner with
    | .request _ => r.1
    | .directory => r.1
    | .flushCopy _ => r.1
    | .park i => if ok then r.1.parkProgrammed i else r.1
    | .passbook i => if ok then r.1.pbProgrammed i else r.1
    | .ledger => r.1.ledgerProgrammed
    | .vectors c => r.1.vecProgrammed c id
    | .vecData c => r.1.vecProgrammed c id
    | .stmt j => if ok then r.1.stmProgrammed j else r.1
    | .granule region g => if ok then r.1.granuleParked region g w.extent else r.1
    | .domainLog => if r.1.fls.writes.any (fun x => decide (x.owner = .domainLog)) then r.1 else r.1.setDirty .domainMap 0

/-- `FLASH_PROGRAM_DONE`: a write is programmed (R234). -/
def execFlashProgramDone (id : Nat) (s : State) : Ans := s.whenLive (s.programDone id)

/-- A controller is gone from the domain: Passbook copies and pieces it held are lost to their sessions, MOVEs to it end, and what it stored
here in T4 room is released (Table 12-9, R65, R85, R306). -/
def State.peerLost (s : State) (c : Nat) : State :=
  let ids := s.ssn.sessions.rows.map (·.1)
  let s := ids.foldl (fun (s : State) i =>
    match s.sess i with
    | none => s
    | some x =>
      let s := match x.st, x.op with
        | .moving, some m => if m.op = 3 && m.target = c then
            (s.updSession i (fun y => { y with op := none, st := m.prev, preRevive := false })).abortR m.rcpt 5 else s
        | _, _ => s
      let s := if x.t4Peer = some c && !x.cleanT1 then s.loseParked i
        else if x.t4Peer = some c then (s.dropGrant i).updSession i (fun y => { y with t4Peer := none, parked := [], kvTier := 1, cleanT1 := false })
        else s
      let s := s.updSession i (fun y => if y.placing.bind (·.peer) = some c then { y with placing := none } else y)
      if x.cfPeer = c && x.cfValid then
        let s := s.updSession i (fun y => { y with cfValid := false, mirrored := [] })
        if s.cfOn && x.pbB.isSome then s.losePb i false true else s
      else s) s
  let s := (s.dfb.pieces.filter (fun p => decide (p.peer = c))).foldl (fun (s : State) p => s.dropPiece p) s
  let s := s.onDfb (fun d => { d with lent := d.lent.filter (fun g => decide (g.peer ≠ c)), borrowed := d.borrowed.filter (fun g => decide (g.peer ≠ c)) })
  s.stmControllerLost c

/-- The domain time master of the adopted map (Table 17-7); a change sets MASTER_CHANGE. -/
def State.publishMaster (s : State) : State :=
  let t := match s.dmap.master with
    | some m => (s.setFld Fld.timStatus_master 0 m).setFld Fld.timStatus_masterValid 0 1
    | none => ((s.setFld Fld.timStatus_master 0 0).setFld Fld.timStatus_masterValid 0 0).setFld Fld.timStatus_domainLocked 0 0
  if t.fld Fld.timStatus_master = s.fld Fld.timStatus_master && t.fld Fld.timStatus_masterValid = s.fld Fld.timStatus_masterValid then t
  else t.raise Evt.tim_masterChange

/-- Once the controller is a member again, sessions whose Passbook an unclean reset cut are completed from copy B where its holder is still a
member, and counted in `GLB_RECOVERY` (R388). -/
def State.completeCut (s : State) : State :=
  if s.domSt ≠ 2 then s
  else s.boot.cutPb.rows.foldl (fun (s : State) r =>
    match s.sess r.1 with
    | none => s
    | some x =>
      if r.2.isEmpty || !(s.dmap.members.has x.cfPeer) || decide (x.cfPeer = s.self) then s
      else
        let pb := x.passbook ++ r.2
        let n := pb.length
        let at_ := (List.range ((n + pbEntries - 1) / pbEntries)).map (fun b => s.pbPlace x.ctx r.1 b)
        let s := s.updSession r.1 (fun y => { y with passbook := pb, pbA := some n, pbB := some n, pbAt := at_, text := y.text.recount pb })
        let s := s.addDirty .passbook (4 * r.2.length)
        let s := s.onBoot (fun b => { b with cutPb := b.cutPb.del r.1 })
        s.setFld ⟨.glbRecovery, 32, 32⟩ 0 (s.fld ⟨.glbRecovery, 32, 32⟩ 0 + 1)) s

/-- `MAP_ADOPT`: committed changes are adopted in order (R290). A member that leaves or is removed is handled as gone. -/
def execMapAdopt (epoch : Nat) (c : MapChange) (s : State) : Ans :=
  .next (let inOrder := match c with
      | .snapshot _ _ _ _ _ _ _ => decide (s.dmap.epoch < epoch)
      | _ => decide (epoch = s.dmap.epoch + 1)
    if s.frz.frozen || s.domSt = 0 || !inOrder then s
    else
      let before := s.dmap.memberNos
      let s := s.adoptMap epoch c
      let gone := before.filter (fun m => !(s.dmap.members.has m) && decide (m ≠ s.self))
      ((gone.foldl (fun (s : State) m => s.peerLost m) s).publishMaster).completeCut)

end Sys2Proof.Machine
end

