-- ==== Sys2Proof/Machine/Cancel.lean ====
section
/-! DEFINITION. Which completion reaches a Receipt slot first: an operation's own result or its cancellation (R48, R49, R75). -/

namespace Sys2Proof.Machine

/-- The operation has committed durable effects once it has its own result, so that result comes before a cancellation (R49). -/
def OpKind.durable : OpKind → Bool
  | .attn _ | .attnMerge | .submit _ | .cancel _ | .kernel _ | .search _ => false
  | .open | .park _ | .revive _ | .move _ | .pin _ | .text | .vwrite _ _ | .ledger | .escrow _ _ | .stmtBegin _ | .stmtAdd _ | .stmtCommit _ => true

/-- A movement operation of the Receipt, under way on session `i`. -/
def State.moveOf (s : State) (r : Rcpt) (i : Nat) : Option (Session × MoveOp) :=
  (s.sess i).bind (fun x => x.op.bind (fun m => if m.rcpt = r then some (x, m) else none))

/-- A PARK, PIN or MOVE is undone before its commit point (Table 3-7, R75): flash copies are discarded, pieces on their way back from a T4
peer are given up, and the session returns to the state it had. A PARK with DISCARD has begun to end the session and completes first. -/
def State.cancelMove (s : State) (r : Rcpt) (i : Nat) : Option State :=
  match s.moveOf r i with
  | none => some s
  | some (x, m) =>
    if m.op = 2 then some (s.cancelRevive i)
    else if m.op = 1 && m.flag then none
    else
      let s := if x.preRevive then s.dropPages i (fun q => decide (q.use = .transit)) else if m.op = 3 then s else s.undoPlace i
      some (s.updSession i (fun y => { y with st := m.prev, op := none, preRevive := false }))

/-- A cancelled ATTN leaves the KV-attention side with its merge slots and queued descriptors, and sends no response (DESIGN CHOICE,
log 66). -/
def State.cancelAttn (s : State) (n : Nat) : State :=
  let slots := s.kva.merges.keysIf (fun _ y => y.digest.isNone && decide (y.attn = n))
  s.onKva (fun k => { k with
    ops := k.ops.del n
    merges := k.merges.keep (fun p _ => !(slots.contains p))
    engines := k.engines.mapVals (fun _ e => { e with queue := e.queue.filter (fun d => !(slots.contains d.pslot)) }) })

/-- The request of a cancelled SUBMIT ends with finish code 7: in a step at its next layer boundary, otherwise at once (R121). -/
def State.cancelSubmit (s : State) (r : Rcpt) (i : Nat) : State :=
  match (s.sess i).bind (·.req) with
  | none => s
  | some q =>
    if q.clerk = r.clerk && q.slot = r.slot && q.serial = r.serial then
      if s.inStep i then s.updSession i (fun y => { y with req := y.req.map (fun q => { q with cancelling := true }) })
      else (s.endRequest i 7 .aborted 5 0).finishCancels i
    else s

/-- What a cancellation undoes of the operation that holds Receipt `r`; `none` where the operation completes first (R49, R75). -/
def State.cancelOp (s : State) (r : Rcpt) (k : OpKind) : Option State :=
  match k with
  | .open | .text | .ledger | .vwrite _ _ => none
  | .attnMerge | .cancel _ => some s
  | .park i | .revive i | .move i | .pin i => s.cancelMove r i
  | .attn n => some (s.cancelAttn n)
  | .submit i => some (s.cancelSubmit r i)
  | .kernel n => some (s.onSch (fun t => { t with kernels := t.kernels.del n }))
  | .search n => some ((s.count .vsrSearches 0 1).endQuery n)
  | .escrow _ n =>
    if s.dfb.esc.any (fun x => decide (x.key = n) && x.sent) then none
    else some (s.onDfb (fun d => { d with esc := d.esc.filter (fun x => decide (x.key ≠ n)) }))
  | .stmtBegin j => some (s.updJob j (fun x => { x with begin := x.begin.filter (fun b => decide (b.1 ≠ r)) }))
  | .stmtAdd j => some (s.updJob j (fun x => { x with adds := x.adds.filter (fun a => decide (a.1 ≠ r)) }))
  | .stmtCommit j =>
    match s.stm.jobs.look j with
    | none => some s
    | some x =>
      if (x.openStm.bind (·.mcr)).isSome then none
      else some (s.updJob j (fun x => { x with commit := x.commit.filter (fun b => decide (b ≠ r)) }))

/-- The operation's own result reaches slot `k` of clerk `c`. A slot that is complete discards it, uncounted; a cancellation it overtakes is
discarded in turn, and counted in `TLR_EVT.LATE_CANCEL` (R48; when it arrives is timing, log 67). -/
def State.ownArrives (s : State) (c k : Nat) : State :=
  let sl := (s.clerk c).slot k
  match sl.result with
  | none => s
  | some (w0, w1) =>
    if !sl.occupied then s
    else if sl.complete then s.setClerk c ((s.clerk c).setSlot k { sl with result := none })
    else
      let s := if sl.cancel.isSome then s.raise Evt.tlr_lateCancel else s
      s.completeSlot c k w0 w1

/-- The cancellation of slot `k` arrives: the operation ends with ABORTED and its cause unless it has to complete first (R40, R48, R49). -/
def State.cancelArrives (s : State) (c k : Nat) : State :=
  let sl := (s.clerk c).slot k
  match sl.cancel with
  | none => s
  | some cause =>
    if !sl.occupied || sl.complete then s
    else if sl.result.isSome && sl.op.durable then s
    else if sl.result.isSome then s.completeSlot c k (word0 .aborted cause) 0
    else
      match s.cancelOp ⟨c, k, sl.serial⟩ sl.op with
      | none => s
      | some t => t.completeSlot c k (word0 .aborted cause) 0

/-- `OPERATION_COMPLETE`: a completion reaches a Receipt slot (R48). -/
def execOperationComplete (c slot : Nat) (src : CompSrc) (s : State) : Ans :=
  .next (if s.frz.frozen then s
    else match src with
      | .own => s.ownArrives c slot
      | .cancel => s.cancelArrives c slot)

end Sys2Proof.Machine
end

