-- ==== Sys2Proof/Machine/Ports.lean ====
section
/-! DEFINITION. What the loss of a port means to the agents, groups, paths and connections behind it (R286, R312). -/

namespace Sys2Proof.Machine

/-- FAILOVER is in force on a Sinil port (Table 13-4). -/
def State.failover (s : State) (p : Nat) : Bool := bit (s.fld Fld.lnkPortStatus_features p) 0

/-- The connections of Sinil port `p` move to the other port, where FAILOVER is in force on both and the other is UP, and drop otherwise
(R312). -/
def State.loseConns (s : State) (p : Nat) : State :=
  let q := 41 - p
  let mine := s.sec.conns.keysIf (fun k _ => decide (k.1 = p))
  if s.failover p && s.failover q && decide (s.portSt q = 5) then
    mine.foldl (fun (s : State) k => match s.sec.conns.look k with
      | none => s
      | some c => s.onSec (fun x => { x with conns := (x.conns.del k).put (q, k.2) c })) s
  else mine.foldl (fun (s : State) k => (s.onSec (fun x => { x with conns := x.conns.del k })).send (.connClosed p k.2)) s

/-- A port has failed or goes DOWN (R286, R312): a node port's agent is declared failed and its dispatch group goes OFF, a fabric port leaves the
path table, and a Sinil port's connections move or drop; the frames queued on it are discarded. -/
def State.portLost (s : State) (p : Nat) : State :=
  let s := s.dropFrames p
  if p < 8 then
    let s := s.failAgent (p + 2)
    match s.groupOf p with
    | some g => if (s.group g).role = .off then s else s.groupOff g
    | none => s
  else if p < 20 then
    if s.domUp && s.dmap.paths.any (fun k v => decide (k.1 = s.self) && bit v (p - 8)) then s.propose (.pathGone s.self (p - 8)) else s
  else s.loseConns p

/-- `PORT_FAILED`: the consequences of FAILED (R312). -/
def execPortFailed (p : Nat) (s : State) : Ans :=
  s.whenLive (if p < 22 && decide (s.portSt p = 7) && !(s.port p).handled then
    (s.portLost p).updPort p (fun x => { x with handled := true })
  else s)

/-- A port leaves service by going DOWN. -/
def State.portOff (s : State) (p : Nat) : State :=
  if s.portSt p = 0 then s
  else (if (s.port p).handled then s else s.portLost p).portDown p

/-- `PORT_CFG_WRITE`: ENABLE and options are written; ENABLE cleared takes the port DOWN (Table 13-2). -/
def execPortCfgWrite (rq : Requester) (p : Nat) (v : Word) (s : State) : Ans :=
  .next (if p < 22 then
    s.cfgWrite rq .lnkPortCfg p (s.isModule rq) (fun s =>
      let s := s.rwWrite .lnkPortCfg p v
      if !(s.portEnabled p) then (s.updPort p (fun x => { x with retryAt := none })).portOff p else s)
  else s)

end Sys2Proof.Machine
end

