-- ==== Sys2Proof/Machine/Reset.lean ====
section
/-! DEFINITION. The flush's writes (R365) and what a reset of the whole module keeps and loses (R387, R388, R390). -/

namespace Sys2Proof.Machine

/-! ### What a flush writes -/

/-- Every SLC write under way is programmed. -/
def State.programTill (s : State) : State :=
  ((s.fls.writes.filter (·.till)).map (·.id)).foldl (fun (s : State) n => s.programDone n) s

/-- Every Passbook is wholly on flash. -/
def State.allPbFlash (s : State) : State :=
  s.onSsn (fun t => { t with sessions := t.sessions.mapVals (fun _ x => { x with pbFlash := x.passbook.length, pbWriting := (0, 0) }) })

/-- Tier 1 (R365): every dirty byte and its map deltas are on flash; D is 0. -/
def State.flushTier1 (s : State) : State :=
  let s := (s.ssn.sessions.rows.map (·.1)).foldl (fun (s : State) i => s.pbWrite i true) s.programTill
  let s := s.ledgerWrite.programTill
  let s := (List.range 4).foldl (fun (s : State) h => s.journalOut h) s
  let s := s.allPbFlash
  (s.onPwr (fun p => { p with dirty := .empty })).setDirty .passbook 0

/-- The sessions tier 2 copies, in its order: ACTIVE, REVIVING and resident parks that hold KV and have no copy on flash, latest EXP_RESUME
first (R365). -/
def State.tier2Sessions (s : State) : List Nat :=
  let l := s.ssn.sessions.rows.filter (fun r =>
    (decide (r.2.st = .active) || decide (r.2.st = .reviving) || (decide (r.2.st = .parked) && decide (r.2.kvTier = 1))) &&
    r.2.kvExt.isNone && !(r.2.pages.isEmpty))
  (byResume l).map (·.1)

/-- A recovery copy of session `i` in the Till: its state does not change (R365). -/
def State.flushCopy (s : State) (i : Nat) : State :=
  match s.sess i with
  | none => s
  | some x =>
    let r := s.allPieces x
    match r.2 with
    | none => r.1
    | some l =>
      let e := r.1.newExtent (some x.ctx) (2 * l.length) false none
      match e.2 with
      | none => e.1
      | some ext =>
        let data := l.flatMap (fun p => [takeAt p.2 0 unitBytes, takeAt p.2 unitBytes unitBytes])
        let w := e.1.flashPut (.flushCopy i) ext 0 data true
        match w.2 with
        | .queued n => (w.1.programDone n).onPwr (fun p => { p with copies := p.copies ++ [(i, ext)] })
        | _ => w.1.dropExtent ext

/-- The whole flush: tier 1, and tier 2 when FULL_EN is set. -/
def State.flushAll (s : State) : State :=
  let s := s.flushTier1
  if s.fld Fld.pwrHoldCfg_fullEn = 1 then s.tier2Sessions.foldl (fun (s : State) i => s.flushCopy i) s else s

/-! ### What flash holds (R388) -/

/-- A session as the directory on flash holds it: PARKED, with its Passbook as far as flash has it, and its KV where flash holds every
piece (DEDUCED, log 69); the rest is lost. -/
def Session.saved (x : Session) (n : Nat) : Session :=
  let kv := x.kvExt.isSome && !x.parked.isEmpty
  let pb := x.passbook.take n
  { x with
    st := .parked, kvKept := kv, kvTier := if kv then x.kvTier else 0xFF, boost := false, cleanT1 := false, parkedAt := 0
    cfValid := false, mirrored := [], passbook := pb, pbA := some pb.length, pbB := some pb.length, pbAt := [], pbFlash := pb.length
    pbWriting := (0, 0), pbATier := 2, pbBTier := 2, parked := if kv then x.parked else [], kvExt := if kv then x.kvExt else none
    placing := none, pages := [], layers := if kv then x.layers.mapVals (fun _ y => { y with resident := false, kvWritten := y.kvLen }) else .empty
    blobMap := none, blobRefs := 0, inT0 := false, lastInStep := 0, text := x.text.rebuilt pb, req := none, op := none, rebuild := none
    recompute := if kv || pb.isEmpty then none else some (pb.length, true), lateLayer := none, heldSince := none, hsv := none
    preRevive := false, t4Peer := none }

/-- A Ledger record read back from its 128 bytes (Table 5-7); BOUND is not in it and stays. -/
def Customer.ofRecord (b : List Byte) (bound : Option Nat) : Customer :=
  { balance := (BitVec.ofNat 64 (leAt b 0 8)).toInt, reserved := 0, cap := leAt b 16 4, refill := leAt b 20 4, wPrompt := leAt b 24 2,
    wGen := leAt b 26 2, wRecomp := leAt b 28 2, rent := BitVec.ofNat 64 (leAt b 32 8), lastUpdate := 0, charged := leAt b 48 8,
    rentTotal := leAt b 56 8, credited := leAt b 64 8, refilled := leAt b 72 8, waitUs := leAt b 80 8, preempts := leAt b 88 4,
    deferred := leAt b 92 4, requests := leAt b 96 4, refused := leAt b 100 4, bound := bound, rentAt := 0, dirty := false }

/-- The customers as the Ledger on flash holds them. -/
def State.savedCustomers (s : State) : Tbl Nat Customer :=
  ⟨s.sch.customers.rows.filterMap (fun r =>
    match s.sch.ledgerExt.bind (fun e => s.fls.extents.look e) with
    | none => none
    | some e =>
      let d := (s.unitRead (e.base + r.1 / ledgerPerUnit)).2
      if d.isEmpty then none
      else some (r.1, Customer.ofRecord (takeAt d (128 * (r.1 % ledgerPerUnit)) 128) r.2.bound))⟩

/-- A collection as its working region and vector log hold it: writes not yet durable are gone, and so is all work under way. -/
def Coll.saved (k : Coll) : Coll :=
  let gone := fun (e : Nat) => k.writes.any (fun w => decide (w.epoch = e))
  { k with
    entries := k.entries.filter (fun e => !(decide (e.epoch ≠ 0) && gone e.epoch)), tombs := k.tombs.filter (fun t => !(gone t.2))
    writes := [], fold := none, lost := [] }

/-- A job member after a reset that loses DRAM: the last committed Statement's slot can be used from its Counterfoil alone, and the flash
restore point stands (R255). -/
def StmJob.saved (x : StmJob) : StmJob :=
  let keep := fun (k : Nat) (v : Option Statement) => match x.record, v with
    | some r, some v => if r.slot = k then some { v with poisoned := List.range v.counts.1 } else none
    | _, _ => none
  { x with
    pagesA := [], pagesB := [], slotA := keep 0 x.slotA, slotB := keep 1 x.slotB, openSlot := none, begin := none, adds := [], commit := none
    refusals := .empty, opener := none, flushing := none, flashNew := none }

/-- What the controller's extents hold as a reset comes. -/
def State.savedNow (s : State) (clean : Bool) : Saved :=
  { sessions := s.ssn.sessions.mapVals (fun _ x => x.saved (if clean then x.passbook.length else x.pbFlash))
    gens := s.ssn.gens
    customers := s.savedCustomers
    ledgerExt := s.sch.ledgerExt
    colls := s.vsr.colls.mapVals (fun _ k => k.saved)
    collGens := s.vsr.gens
    jobs := s.stm.jobs.mapVals (fun _ x => x.saved)
    jobGens := s.stm.gens
    map := if s.dmap.voters.contains s.self then s.dmap else DomMap.init
    self := s.self }

/-- The Passbook entries that an unclean reset cuts and the Counterfoil holds (R388). -/
def State.cutNow (s : State) (clean : Bool) : Tbl Nat (List PbEntry) :=
  if clean then .empty
  else ⟨s.ssn.sessions.rows.filterMap (fun r =>
    if r.2.pbFlash < r.2.passbook.length then some (r.1, if s.cfOn && r.2.cfValid then r.2.passbook.drop r.2.pbFlash else []) else none)⟩

/-- The discards of journal records never programmed are undone where their extents still stand (R387 step 3). -/
def Fls.undoDiscards (f : Fls) : Fls :=
  (f.jbufs.rows.flatMap (fun b => b.2.1)).foldl (fun (f : Fls) r =>
    if f.map.has r.unit || !(f.extents.any (fun _ x => decide (x.base ≤ r.unit) && decide (r.unit < x.base + x.units))) then f
    else match r.old with
      | none => f
      | some e => { f with map := f.map.put r.unit e, data := f.data.put r.unit r.data }) f

/-- The flash pool over a reset: what is programmed stays. -/
def State.flsAfter (s : State) (clean : Bool) : Fls :=
  let f := if clean then s.fls else s.fls.undoDiscards
  { f with
    writes := [], jbufs := .empty, folding := false, held := false, sbs := f.sbs.mapVals (fun _ b => { b with closedAt := 0 })
    kept := if s.boot.flashUp then some (s.rd .flsAdv0, s.rd .flsAdv, s.rd .flsSbTotal, s.pool) else f.kept }

/-- A reset of the module (Table 16-3): flash and MRAM are kept, the windows that take effect at a reset among the configuration (R67; log
71), and the pins and references outside it. `clean`: the flush record committed. -/
def State.doReset (s : State) (clean thermal : Bool) : State :=
  let s := if clean then s.pwr.copies.foldl (fun (s : State) c =>
      (s.updSession c.1 (fun x => { x with placing := some ⟨2, 0, some c.2, none⟩ })).commitPlace c.1) s
    else s.pwr.copies.foldl (fun (s : State) c => s.dropExtent c.2) s
  let r := State.reset
  { r with
    pending := s.pending
    freeCtr := s.freeCtr
    out := s.out
    regs := [Reg.nmcWindow, .ssnKvPool, .dfbCfg].foldl (fun t g => t.put (g, 0) (s.rd g)) r.regs
    arch := { r.arch with heldThermal := thermal || s.arch.heldThermal }
    sec := { r.sec with mram := s.sec.mram }
    fls := s.flsAfter clean
    tim := { r.tim with lockA := s.tim.lockA, lockB := s.tim.lockB }
    frz := { r.frz with pinLow := s.frz.pinLow, ir := s.frz.ir }
    boot := { r.boot with
      clean := clean && (s.boot.flashUp || s.boot.saved.isNone || s.boot.clean)
      saved := if s.boot.saved.isSome then s.boot.saved else if s.boot.flashUp then some (s.savedNow clean) else none
      cutPb := if s.boot.saved.isSome then s.boot.cutPb else s.cutNow clean } }

end Sys2Proof.Machine
end

