-- ==== Sys2Proof/Machine/Views.lean ====
section
/-! DEFINITION. What a register reads as: the value held, or what the state makes of it for registers that publish something kept elsewhere
(R36, R86, R117, R136, R252, R288, R307, R403 to R409). -/

namespace Sys2Proof.Machine

/-- The number of a clerk state (Table 2-16). -/
def ClerkSt.num : ClerkSt → Nat
  | .free => 0 | .ready => 1 | .waiting => 2 | .draining => 3 | .lost => 4 | .frozen => 5

/-- `TLR_CLK_STATE` (Table 2-16); the class of the last trap stands in the trap record. -/
def State.clkState (s : State) (c : Nat) : Word :=
  let cl := s.clerk c
  let r := match cl.run with
    | some r => r.ctx % 64 * 2 ^ 42 + r.slot % 64 * 2 ^ 36 + r.entry % 16 * 2 ^ 32 + r.prio % 4 * 2 ^ 15
    | none => 0
  BitVec.ofNat 64 (r + bits (s.rd .tlrClkTrap c).toNat 0 8 * 2 ^ 24 + cl.busySlots.length * 2 ^ 17 + b2n cl.handler * 8 + cl.st.num)

/-- Sessions that satisfy a predicate, as a register word. -/
def State.countSess (s : State) (p : Session → Bool) : Word := BitVec.ofNat 64 (s.ssn.sessions.countIf (fun _ x => p x))

/-- S_b of every block (R407). -/
def State.evtSummary (s : State) : Nat :=
  let evt : Nat → Reg := fun b => [Reg.glbEvt, .pwrEvt, .timEvt, .secEvt, .ssnEvt, .kvaEvt, .schEvt, .txtEvt, .vsrEvt, .flsEvt, .nmcEvt, .dfbEvt,
    .lnkEvt, .stmEvt, .tlrEvt, .dbgEvt].getD b .glbEvt
  ((List.range 16).filter (fun b => decide (s.rd (evt b) &&& s.rd .glbEvtMask b ≠ 0))).foldl (fun a b => a + 2 ^ b) 0

/-- Word `w` of the customer record that `SCH_CUST_SEL` selects. -/
def State.custWord (s : State) (w : Nat) : Word :=
  BitVec.ofNat 64 (leAt (s.cust (s.fld ⟨.schCustSel, 0, 16⟩)).record (8 * w) 8)

/-- What register `r` instance `i` reads as. Voltages, currents and temperatures are what the sensors measure, which no command brings: free
values (log 74), and so is whether tier 2 of a flush under way has begun (log 75). -/
def State.view (s : State) (r : Reg) (i : Nat) : Word :=
  match r with
  | .tlrClkState => s.clkState i
  | .ssnSessKnown => s.countSess (fun _ => true)
  | .ssnSessActive => s.countSess (fun x => decide (x.st = .active) || decide (x.st = .reviving))
  | .ssnSessPbOnly => s.countSess (fun x => decide (x.st = .parked) && !x.kvKept)
  | .ssnPrefillRate => BitVec.ofNat 64 s.prefillRate
  | .schQueue => BitVec.ofNat 64 s.openReqs
  | .schCustData => s.custWord i
  | .nmcDirUsed => BitVec.ofNat 64 s.nmc.dir.size
  | .nmcAgentStatus =>
    Fld.nmcAgentStatus_linesX.set (s.rd r i) (s.nmc.dir.countIf (fun _ e => decide (e.st = .excl) && decide (e.owner = i)))
  | .dfbT4 => BitVec.ofNat 64 ((s.dfb.lent.map (·.pages)).sum % 2 ^ 32 + (s.dfb.borrowed.map (·.pages)).sum % 2 ^ 32 * 2 ^ 32)
  | .glbEvtSummary => BitVec.ofNat 64 s.evtSummary
  | .timNow => BitVec.ofInt 64 s.nodeTime
  | .pwrStatus =>
    if s.fld Fld.pwrStatus_state = 2 && decide (s.fld Fld.pwrHoldCfg_fullEn = 1) && !s.pwr.cut then
      (s.rd r i &&& 0xDF) ||| (Config.freeWord s.freeCtr &&& 0x20)
    else s.rd r i
  | .pwrVolts => (s.rd r i &&& 0x0000FFFF00000000) ||| (Config.freeWord s.freeCtr &&& 0x00FF0000FFFFFFFF)
  | .pwrInput => Config.freeWord s.freeCtr &&& 0x0000FFFFFFFFFFFF
  | .glbCore => (s.rd r i &&& 0xFFFF) ||| (Config.freeWord s.freeCtr &&& 0x0000FFFFFFFF0000)
  | _ => if r.spec.access = .wo then 0 else s.rd r i

end Sys2Proof.Machine
end

