-- ==== Sys2Proof/Machine/Freeze.lean ====
section
/-! DEFINITION. Freeze: entry, deferral, release, the freeze image and JTAG (R222, R375 to R381). -/

namespace Sys2Proof.Machine

/-- The power state (Table 15-3): 0 NORMAL, 1 HOLD, 2 FLUSH, 3 DARK, 4 RESUMING. -/
def State.pwrSt (s : State) : Nat := s.fld Fld.pwrStatus_state

/-- STATE and CAUSE of `DBG_FRZ_STATUS`. -/
def State.frzStatus (s : State) (st cause : Nat) : State :=
  (s.setFld ⟨.dbgFrzStatus, 0, 2⟩ 0 st).setFld Fld.dbgFrzStatus_cause 0 cause

/-- Change the freeze state. -/
def State.onFrz (s : State) (f : Frz → Frz) : State := { s with frz := f s.frz }

/-- The module freezes (R375): clerks keep their state as FROZEN, node time holds and TIME_VALID falls. -/
def State.freezeNow (s : State) (cause clerk code : Nat) : State :=
  let n := s.fld ⟨.dbgFrzStatus, 4, 32⟩ 0 + 1
  let s := ((s.frzStatus 1 cause).setFld ⟨.dbgFrzStatus, 4, 32⟩ 0 n).raise Evt.dbg_frozen
  let s := if s.fld Fld.timStatus_timeValid = 1 then (s.setFld Fld.timStatus_timeValid 0 0).raise Evt.tim_validDrop else s
  let s := s.onTlr (fun t => { t with clerks := t.clerks.mapVals (fun _ c => if c.st = .lost then c else { c with kept := c.st, st := .frozen }) })
  let s := s.onFrz (fun f => { f with
    frozen := true, deferred := none, cause := cause, clerk := clerk, code := code, heldTime := s.nodeNs
    hubs := s.hubsUp.foldl (fun a h => a + 2 ^ h) 0, pos := 0, seed := s.freeCtr })
  { s with freeCtr := s.freeCtr + 256 }

/-- A freeze is asked for: deferred in FLUSH, DARK and RESUMING (R376); nothing while frozen or deferred (R410). -/
def State.requestFreeze (s : State) (cause clerk code : Nat) : State :=
  if s.frz.frozen || s.frz.deferred.isSome then s
  else if 2 ≤ s.pwrSt then
    ((s.onFrz (fun f => { f with deferred := some (cause, clerk, code) })).frzStatus 3 cause).raise Evt.pwr_freezeDeferred
  else s.freezeNow cause clerk code

/-- Every port starts again from TRAIN (R377): agents behind node ports are new, and connections are gone. -/
def State.retrainAll (s : State) : State :=
  (List.range 22).foldl (fun (s : State) p =>
    if s.portSt p = 0 then s
    else
      let s := if 8 ≤ p && p < 20 then s.dropFrames p else s.portLost p
      let s := s.portDown p
      if s.portEnabled p && s.portPowered p then s.portTo p 1 else s) s

/-- A secure discard that waited for erases goes on where they are held no more (R250, R362). -/
def State.erasesResume (s : State) : State := if s.frz.frozen || s.eraseHeld then s else s.finishSdisc

/-- The freeze ends (R376, R377): node time steps forward by the time frozen, clerks return to the states they held, and ports retrain. -/
def State.thaw (s : State) (elapsedNs : Nat) : State :=
  let s := (s.onFrz (fun f => { f with frozen := false })).frzStatus 0 0
  let s := { s with tim := { s.tim with nodeOff := s.tim.nodeOff + elapsedNs } }
  let s := if s.fld Fld.timStatus_errorNs ≤ 1000 && s.fld Fld.timStatus_source ≠ 3 then s.setFld Fld.timStatus_timeValid 0 1 else s
  let s := s.onTlr (fun t => { t with clerks := t.clerks.mapVals (fun _ c => if c.st = .frozen then { c with st := c.kept } else c) })
  ((s.raise Evt.dbg_released).retrainAll).erasesResume

/-! ### The freeze image (R379, R380) -/

/-- A section of the image: type, instance, owning context, whether R380 withholds it, and its bytes. -/
structure Sect where
  ty : Nat
  inst : Nat
  ctx : Option Nat
  omitted : Bool
  data : List Byte
  deriving DecidableEq, Repr

/-- The FREEZE right of a context (R333). -/
def State.freezeRight (s : State) (n : Nat) : Bool := match s.ctx n with
  | some c => bit c.record.flags 0
  | none => false

/-- The registers of a block in offset order, eight bytes each. -/
def State.blockBytes (s : State) (b : Nat) : List Byte :=
  let rs : List (Nat × Reg × Nat) := (Reg.inBlock b).flatMap (fun r =>
    (List.range (r.spec.count1 * r.spec.count2)).map (fun i => (r.offset i, r, i)))
  (rs.mergeSort (fun (x y : Nat × Reg × Nat) => decide (x.1 ≤ y.1))).flatMap (fun x => natLe 8 (s.view x.2.1 x.2.2).toNat)

/-- The clerk section (Table 15-10). -/
def State.clerkBytes (s : State) (c : Nat) : List Byte :=
  let cl := s.clerk c
  (List.range 32).flatMap (fun i => natLe 8 (cl.s i).toNat) ++
  natLe 8 ((List.range 8).foldl (fun a i => a + b2n (cl.p i) * 2 ^ i) 0) ++ natLe 8 cl.pc.toNat ++ natLe 16 (s.clkState c).toNat ++
  (List.range 8).flatMap (fun i => natLe 16 (cl.h i).toNat) ++
  (List.range 16).flatMap (fun i => natLe 64 (cl.d false i).toNat) ++
  (List.range 64).flatMap (fun k => natLe 8 (if (cl.slot k).occupied then (rcptTag c k (cl.slot k).serial).toNat else 0) ++
    natLe 8 (cl.slot k).word0.toNat) ++
  s.bytesAt (keyStack (c * 65536)) 65536

/-- Bytes of a section whose layout or contents the spec does not give: free (log 73). -/
def State.openBytes (s : State) (k : Nat) : List Byte :=
  (List.range (Config.freeNat (s.frz.seed + k))).map (Config.freeByte (s.frz.seed + k))

/-- The sections in order of type and instance (the order is a DESIGN CHOICE, log 73). -/
def State.sections (s : State) : List Sect :=
  let cap := fun (h : Nat) => bit s.frz.hubs h
  let regs := (List.range 16).map (fun b => Sect.mk 1 b none false (s.blockBytes b))
  let clerks := ((List.range 4096).filter (fun c => cap (hubOfClerk c))).map (fun c =>
    match (s.clerk c).run with
    | some r => if s.freezeRight r.ctx then Sect.mk 2 c (some r.ctx) false (s.clerkBytes c) else Sect.mk 2 c (some r.ctx) true []
    | none => Sect.mk 2 c none false (s.clerkBytes c))
  let kind := fun (ty n base : Nat) (hub : Nat → Nat) (on : Nat → Bool) =>
    ((List.range n).filter (fun i => cap (hub i) && on i)).map (fun i => Sect.mk ty i none false (s.openBytes (base + i)))
  let all := fun (_ : Nat) => true
  regs ++ clerks ++ kind 3 32 0 (· / 8) all ++ kind 4 4 32 id all ++ kind 5 24 36 hubOfStack all ++ kind 6 4 60 id all ++
    kind 7 22 64 hubOfPort all ++ kind 8 32 86 hubOfChannel all ++
    kind 9 24 118 hubOfStack (fun m => bit (s.rd .dbgReadoutCfg).toNat m) ++ kind 10 4 142 id all

/-- The image: header (Table 15-8), section entries (Table 15-9) and sections. -/
def State.imageBytesFrz (s : State) : List Byte :=
  let l := s.sections
  let head := [0x4B, 0x46, 0x52, 0x45, 0x45, 0x5A, 0x45, 0] ++ natLe 2 1 ++ natLe 1 s.frz.cause ++ natLe 1 s.frz.hubs ++ natLe 2 s.frz.clerk ++
    natLe 2 s.frz.code ++ natLe 8 s.frz.heldTime ++ natLe 4 l.length ++ natLe 4 0 ++ takeAt Config.deviceDigest 0 32
  let ents := l.foldl (fun (a : List Byte × Nat) (x : Sect) =>
    let e := natLe 8 (x.ty + x.inst % 2 ^ 16 * 2 ^ 16 + (x.ctx.getD 0) % 64 * 2 ^ 32 + b2n x.ctx.isSome * 2 ^ 38 + b2n x.omitted * 2 ^ 39) ++
      natLe 8 a.2 ++ natLe 8 x.data.length ++ takeAt (Config.shake256 x.data 8) 0 8
    (a.1 ++ e, a.2 + x.data.length)) ([], 64 + 32 * l.length)
  head ++ ents.1 ++ l.flatMap (·.data)

/-! ### The commands -/

/-- `FREEZE_PIN`: FREEZE_N goes low, and freezes the module, or goes high. -/
def execFreezePin (low : Bool) (s : State) : Ans :=
  let s := s.onFrz (fun f => { f with pinLow := low })
  .next (if low then s.requestFreeze 1 0xFFFF 0 else s)

/-- `DBG_FREEZE`: a write of 1 by the operator or firmware; in FLUSH and DARK it follows R376, not R400. -/
def execDbgFreeze (rq : Requester) (v : Word) (s : State) : Ans :=
  .next (if s.frz.frozen then s
    else if !(s.isModule rq) then s.discardAccess rq (Reg.offset .dbgFreeze 0) 2
    else if bit v.toNat 0 then s.requestFreeze 2 0xFFFF 0 else s)

/-- The FREEZE instruction (R222): PRIVILEGE without the image's flag or the context's right. -/
def execFreeze (c : Nat) (s : State) : Ans :=
  .next (s.onWord c (isMajor 0x71) (fun ix =>
    if ix.img.wantsFreeze && s.freezeRight ix.run.ctx then (s.advance c).requestFreeze 3 c (wCode ix.w)
    else s.trap c .privilege 0 ix.cl.pc 0))

/-- `FRZ_CTRL_FREEZE`: a freeze asked for over JTAG; its CAUSE is not stated (a free value, log 72). -/
def execFrzCtrlFreeze (s : State) : Ans :=
  .next ((s.bump.onFrz (fun f => { f with ir := f.ir.put 0 0x20 })).requestFreeze (1 + s.freshNat % 3) 0xFFFF 0)

/-- `FRZ_CTRL_RELEASE`: only while FREEZE_N is high (R377). -/
def execFrzCtrlRelease (elapsedNs : Nat) (s : State) : Ans :=
  let s := s.onFrz (fun f => { f with ir := f.ir.put 0 0x20 })
  .next (if s.frz.frozen && !s.frz.pinLow then s.thaw elapsedNs else s)

/-- `FRZ_CTRL_SELECT`: the fields of `DBG_READOUT_CFG`. -/
def execFrzCtrlSelect (v : Word) (s : State) : Ans :=
  .next ((s.onFrz (fun f => { f with ir := f.ir.put 0 0x20 })).rwWrite .dbgReadoutCfg 0 v)

/-- `FRZ_CTRL_READOUT`: read-out starts; with LANE_EN the image also goes out on the read-out lane (R381). -/
def execFrzCtrlReadout (s : State) : Ans :=
  let s := s.onFrz (fun f => { f with ir := f.ir.put 0 0x20 })
  .next (if s.frz.frozen then
    let s := (s.frzStatus 2 s.frz.cause).onFrz (fun f => { f with pos := 0 })
    if s.fld Fld.dbgReadoutCfg_laneEn = 1 then s.send (.image s.imageBytesFrz) else s
  else s)

/-- `FRZ_READ`: `n` image bytes shift out through TDO. -/
def execFrzRead (n : Nat) (s : State) : Ans :=
  let s := s.onFrz (fun f => { f with ir := f.ir.put 0 0x21 })
  .next (if s.frz.frozen then
    (s.send (.image ((s.imageBytesFrz.drop s.frz.pos).take n))).onFrz (fun f => { f with pos := f.pos + n })
  else s)

/-! ### JTAG (R378) -/

/-- TAP `tap` (0 to 3, Q0 to Q3) takes an instruction and shifts out a word. -/
def State.tapTo (s : State) (tap code : Nat) (v : Word) : State :=
  if tap < 4 then (s.onFrz (fun f => { f with ir := f.ir.put tap code })).send (.tdo tap code v) else s

/-- `EXTEST`: the boundary register's contents are not stated (a free value). -/
def execExtest (tap : Nat) (s : State) : Ans := .next (s.bump.tapTo tap 0x00 (Config.freeWord s.freeCtr))
/-- `IDCODE`: the identification code of `GLB_IDENT` [63:32]. -/
def execIdcode (tap : Nat) (s : State) : Ans := .next (s.tapTo tap 0x01 (BitVec.ofNat 64 (bits (s.rd .glbIdent).toNat 32 32)))
/-- `SAMPLE_PRELOAD`: the sampled pins are a free value. -/
def execSamplePreload (tap : Nat) (s : State) : Ans :=
  let t := s.bump
  .next (t.tapTo tap 0x02 (Config.freeWord s.freeCtr))
/-- `CLAMP`: the bypass register stands between TDI and TDO. -/
def execClamp (tap : Nat) (s : State) : Ans := .next (s.tapTo tap 0x04 0)
/-- `HIGHZ`: as CLAMP, with the pins released. -/
def execHighz (tap : Nat) (s : State) : Ans := .next (s.tapTo tap 0x05 0)
/-- `BYPASS`: 0xFF, and any code Table 15-7 does not list. -/
def execBypass (tap code : Nat) (s : State) : Ans :=
  .next (if [0x00, 0x01, 0x02, 0x04, 0x05, 0x20, 0x21].contains (code % 256) then s else s.tapTo tap (code % 256) 0)

end Sys2Proof.Machine
end

