-- ==== Sys2Proof/Machine/Pwr.lean ====
section
/-! DEFINITION. The governor's limits and standby (R4, R15, R18, R19), brown-out and the flush (R354 to R367), the rack supply (R368), the
hold-up bank and its budget (R355 to R360), and the resets that need nothing else (R390). -/

namespace Sys2Proof.Machine

/-! ### The power states (Table 15-3) -/

/-- The power state moves: published and traced. -/
def State.pwrTo (s : State) (st : Nat) : State := (s.setFld Fld.pwrStatus_state 0 st).trace 0 3 0 false 0 st

/-- HU_EN, as `PWR_STATUS` publishes it. -/
def State.huEn (s : State) (on : Bool) : State := s.setFld Fld.pwrStatus_huEn 0 (b2n on)

/-- Core voltage in mV, as `GLB_CORE` publishes it. -/
def State.coreMv (s : State) (mv : Nat) : State := s.setFld ⟨.glbCore, 0, 16⟩ 0 mv

/-- The governor is free again: core voltage from 0.62 V to 0.85 V, which it chooses (R4; a free value). -/
def State.coreFree (s : State) : State := (s.bump).coreMv (620 + s.freshNat % 231)

/-- HOLD begins (R363): journal buffers are written at once; the module's logic does so only while it is not frozen. -/
def State.enterHold (s : State) (rack : Bool) : State :=
  let s := ((s.pwrTo 1).raise Evt.pwr_hold).onPwr (fun p => { p with holdRack := rack })
  if s.frz.frozen then s else (List.range 4).foldl (fun (s : State) h => s.journalOut h) s

/-- HOLD ends: erases resume (Table 15-3). -/
def State.leaveHold (s : State) : State :=
  (((s.pwrTo 0).raise Evt.pwr_dip).onPwr (fun p => { p with holdRack := false })).erasesResume

/-- Fabric and node ports, which a flush takes down. -/
def flushPorts : List Nat := List.range 20

/-- FLUSH begins (R364): a freeze is released (R376), HU_EN rises, core voltage goes to 0.62 V, steps end as in R128, and fabric and node ports
go DOWN. -/
def State.enterFlush (s : State) (onFail : Bool) : State :=
  let s := if s.frz.frozen then s.thaw 0 else s
  let before := (List.range 22).filter (fun p => (decide (p < 8) || decide (20 ≤ p)) && decide (s.portSt p = 5))
  let s := s.onPwr (fun p => { p with
    measuring := false, holdRack := false, recovered := false, onPowerFail := onFail, cut := false, portsBefore := before })
  let s := ((s.huEn true).setFld Fld.pwrStatus_charging 0 0).coreMv 620
  let s := (s.sch.steps.rows.map (·.1)).foldl (fun (s : State) n => s.abortStep n) s
  let s := ((s.onFls (fun f => { f with held := true })).pwrTo 2).raise Evt.pwr_powerFail
  flushPorts.foldl (fun (s : State) p => s.portOff p) s

/-- The controller asks to rejoin its domain (R367): as a new incarnation, from its other members; alone it stays as it is. -/
def State.askRejoin (s : State) : State :=
  if s.domSt = 0 then s
  else match s.dmap.memberNos.filter (fun m => decide (m ≠ s.self)) with
    | [] => s
    | m :: _ =>
      let s := s.onDfb (fun d => { d with leading := false })
      let s := ((s.setFld Fld.dfbStatus_state 0 1).setFld Fld.dfbStatus_leaderValid 0 0).setFld Fld.dfbStatus_quorum 0 0
      s.send (.joinAsk m s.self)

/-- RESUMING begins (R367): HU_EN falls, NAND operations and clerks go on, the ports train, and the domain is asked. -/
def State.enterResuming (s : State) : State :=
  let s := (((s.onFls (fun f => { f with held := false })).huEn false).pwrTo 4).coreFree
  let s := flushPorts.foldl (fun (s : State) p => if s.portEnabled p && s.portPowered p && decide (s.portSt p = 0) then s.portTo p 1 else s) s
  s.askRejoin

/-- A port that was in service before the flush is UP again, refused, or gone for good. -/
def State.portBack (s : State) (p : Nat) : Bool :=
  decide (s.portSt p = 5) || (s.port p).retryAt.isSome || decide (s.portSt p = 7) || !(s.portEnabled p) || !(s.portPowered p)

/-- RESUMING ends (R365, R367, R376): recovery copies are discarded, their discards journalled, and a freeze that waited takes effect. -/
def State.resumed (s : State) : State :=
  let s := s.pwr.copies.foldl (fun (s : State) c => s.dropExtent c.2) s
  let s := (List.range 4).foldl (fun (s : State) h => s.journalOut h) s
  let s := (((s.onPwr (fun p => { p with copies := [], portsBefore := [] })).pwrTo 0).raise Evt.pwr_resumed).erasesResume
  match s.frz.deferred with
  | none => s
  | some (cause, clerk, code) => s.freezeNow cause clerk code

/-! ### Brown-out (R361 to R363) -/

/-- `VSUP_WARNING`: VSUP below 40.0 V, or an input fault of the rack supply with PMBUS_HOLD set. -/
def execVsupWarning (rackFault : Bool) (s : State) : Ans :=
  .next (if rackFault then
      if s.fld Fld.pwrHoldCfg_pmbusHold = 1 && s.fld Fld.pwrPmbusCfg_enable = 1 && s.pwrSt = 0 then
        (s.onPwr (fun p => { p with rackFault := true })).enterHold true
      else s
    else
      let s := s.onPwr (fun p => { p with recovered := false })
      if s.pwrSt = 0 then s.enterHold false else s)

/-- `VSUP_POWER_FAIL`: NORMAL or HOLD goes to FLUSH. -/
def execVsupPowerFail (s : State) : Ans :=
  .next (if s.pwrSt ≤ 1 then s.enterFlush true else s.onPwr (fun p => { p with recovered := false }))

/-- `VSUP_RECOVERY`: VSUP has stood above 42.0 V for 5 ms; HOLD ends unless a rack-supply fault holds it, and DARK goes to RESUMING. -/
def execVsupRecovery (s : State) : Ans :=
  let s := s.onPwr (fun p => { p with recovered := true })
  .next (if s.pwrSt = 1 then (if s.pwr.holdRack && s.pwr.rackFault then s else s.leaveHold)
    else if s.pwrSt = 3 then s.enterResuming else s)

/-- `OVERVOLTAGE`: VIN above 56 V; service goes on (R354). -/
def execOvervoltage (s : State) : Ans := .next (s.raise Evt.pwr_overvolt)

/-! ### The flush (R364 to R367) -/

/-- Tier 2 of the sessions of `l`, once. -/
def State.flushTier2 (s : State) (l : List Nat) : State :=
  (l.foldl (fun (s : State) i => s.flushCopy i) s).onPwr (fun p => { p with cut := true })

/-- `TIER2_CUT`: the live budget covers the fixed terms no more; `written` are the sessions whose copies are whole (R365). -/
def execTier2Cut (written : List Nat) (s : State) : Ans :=
  .next (if s.pwrSt = 2 && s.fld Fld.pwrHoldCfg_fullEn = 1 && !s.pwr.cut then
    let s := s.flushTier1
    (s.flushTier2 (s.tier2Sessions.filter written.contains)).raise Evt.pwr_tier2Cut
  else s)

/-- `RESUMING_DONE`: the discards are journalled and every node and Sinil port of before is back (R367). -/
def execResumingDone (s : State) : Ans :=
  s.whenLive (if s.pwrSt = 4 && s.pwr.portsBefore.all (fun p => s.portBack p) then s.resumed else s)

/-! ### Resets (R390) -/

/-- The flush of a module reset, at once: recovery copies of an earlier flush give way to new ones. -/
def State.moduleFlush (s : State) : State :=
  let s := s.pwr.copies.foldl (fun (s : State) c => s.dropExtent c.2) s
  (s.onPwr (fun p => { p with copies := [] })).flushAll

/-- A module reset: flushed first, or after the flush under way; from DARK the flush has been done. -/
def State.moduleReset (s : State) (thermal : Bool) : State :=
  if s.pwrSt = 2 then s.onPwr (fun p => { p with pendingReset := some (if thermal then .thermal else .module) })
  else if s.pwrSt = 3 then s.doReset true thermal
  else s.moduleFlush.doReset true thermal

/-- `VIN_RESET`: VIN below 33.0 V; clean when the flush record has committed. -/
def execVinReset (s : State) : Ans := .next (s.doReset (decide (s.pwrSt = 3) || (decide (s.pwrSt = 2) && s.pwr.cut)) false)

/-- `RESET_PIN`: RESET_N; in place of the release of a freeze it is an unclean reset (R377). -/
def execResetPin (s : State) : Ans := .next (if s.frz.frozen then s.doReset false false else s.moduleReset false)

/-- `GLB_RESET_MODULE`: the operator writes KIND 1; in FLUSH it takes effect when the flush ends (R390), in DARK it is refused (R400). -/
def execGlbResetModule (rq : Requester) (v : Word) (s : State) : Ans :=
  .next (if s.frz.frozen || Fld.glbReset_kind.get v ≠ 1 then s
    else if !(s.isModule rq) then s.discardAccess rq (Reg.offset .glbReset 0) 2
    else if s.pwrSt = 3 then s.discardAccess rq (Reg.offset .glbReset 0) 3
    else s.moduleReset false)

/-- `JUNCTION_115`: the power-fail flush, and a reset held until every junction is below 95 °C (R18). -/
def execJunction115 (_h tC : Nat) (s : State) : Ans :=
  .next (if tC < 115 then s
    else if s.pwrSt ≤ 1 then (s.onPwr (fun p => { p with pendingReset := some .thermal })).enterFlush false
    else if s.pwrSt = 2 then s.onPwr (fun p => { p with pendingReset := some .thermal })
    else s)

/-- `THERMAL_RESET_RELEASE`: every junction is below 95 °C; bring-up can start (R18). -/
def execThermalResetRelease (tC : List Nat) (s : State) : Ans :=
  .next (if s.arch.heldThermal && tC.all (fun t => decide (t < 95)) then s.onArch (fun a => { a with heldThermal := false }) else s)

/-- `CORE_SUPERVISOR_RESET`: core voltage below 0.50 V (R19). -/
def execCoreSupervisorReset (mv : Nat) (s : State) : Ans :=
  .next (if 500 ≤ mv then s
    else if s.pwrSt = 2 then s.onPwr (fun p => { p with pendingReset := some .unclean })
    else s.doReset false false)

/-! ### The governor (R4, R15, R18, R19) -/

/-- CORNER_EXCEEDED is set, the event raised and admission of new steps cut. -/
def State.cornerExceeded (s : State) : State :=
  ((s.setFld Fld.glbStatus_cornerExceeded 0 1).raise Evt.glb_cornerExceeded).onArch (fun a => { a with cut := true })

/-- `JUNCTION_ABOVE_105`. -/
def execJunctionAbove105 (_h tC : Nat) (s : State) : Ans := s.whenLive (if 105 < tC then s.cornerExceeded else s)

/-- `CORE_VOLTAGE_LOW`: below 0.62 V outside standby. -/
def execCoreVoltageLow (mv : Nat) (s : State) : Ans :=
  s.whenLive (if mv < 620 && !s.arch.standby then (s.coreMv mv).cornerExceeded else s)

/-- `CORNER_RECOVERED`: every junction below 100 °C and core voltage outside standby at least 0.62 V, together (R19). -/
def execCornerRecovered (mv : Nat) (tC : List Nat) (s : State) : Ans :=
  s.whenLive (if 620 ≤ mv && tC.all (fun t => decide (t < 100)) && !s.arch.standby then
    ((s.coreMv mv).setFld Fld.glbStatus_cornerExceeded 0 0).onArch (fun a => { a with cut := false })
  else s)

/-- No step, no dirty durable byte and no Receipt is outstanding (R4). -/
def State.quiet (s : State) : Bool :=
  s.sch.steps.rows.isEmpty && decide (s.dirtyTotal = 0) && s.tlr.clerks.rows.all (fun r => r.2.busySlots.isEmpty)

/-- `STANDBY_ENTRY`: core voltage may go below 0.62 V, to 0.55 V (R4). -/
def execStandbyEntry (mv : Nat) (s : State) : Ans :=
  s.whenLive (if s.quiet && decide (s.pwrSt = 0) && decide (550 ≤ mv) && decide (mv ≤ 850) then
    (s.coreMv mv).onArch (fun a => { a with standby := true })
  else s)

/-- `STANDBY_EXIT`: core voltage is at least 0.62 V before work is accepted (R4). -/
def execStandbyExit (mv : Nat) (s : State) : Ans :=
  s.whenLive (if s.arch.standby && decide (620 ≤ mv) && decide (mv ≤ 850) then
    (s.coreMv mv).onArch (fun a => { a with standby := false })
  else s)

/-- The hub of a pace instance (Table 17-6a); a die-to-die link has two. -/
def paceHubs (n : Nat) : List Nat :=
  if n < 32 then [n / 8] else if n < 288 then [(n - 32) / 64] else if n < 312 then [(n - 288) / 6] else if n < 316 then [n - 312]
  else if n < 322 then [(0, 1), (0, 2), (0, 3), (1, 2), (1, 3), (2, 3)].getD (n - 316) (0, 0) |> fun p => [p.1, p.2]
  else if n < 346 then [(n - 322) / 6] else if n < 350 then [n - 346]
  else if n < 446 then [(n - 350) % 32 / 8] else [(n - 446) % 4]

/-- Pace instance `n` is in service (R406): its hub, stack or channel is, and the self-test left its hub's text units in. -/
def State.paceUp (s : State) (n : Nat) : Bool :=
  (paceHubs n).all s.hubUp &&
  (if 288 ≤ n && decide (n < 312) then s.stackUp (n - 288)
   else if 322 ≤ n && decide (n < 346) then s.stackUp (n - 322)
   else if 350 ≤ n && decide (n < 446) then decide (s.chanSt ((n - 350) % 32) = 1)
   else if 346 ≤ n && decide (n < 350) then !(s.boot.textOut.contains (n - 346))
   else if 446 ≤ n && decide (n < 462) then !(s.boot.textOut.contains ((n - 446) % 4)) else true)

/-- `PACE_SAMPLE`: the latest value and the least of the last 1 ms, in one handshake; an instance out of service reads 0 (R15, R406). -/
def execPaceSample (n value : Nat) (s : State) : Ans :=
  s.whenLive (if n < 466 then
    if s.paceUp n then
      let l := (((s.arch.pace.lookD n []).filter (fun p => decide (s.now < p.1 + 1000000))) ++ [(s.now, value % 2 ^ 48)])
      let least := l.foldl (fun m p => min m p.2) (value % 2 ^ 48)
      ((s.onArch (fun a => { a with pace := a.pace.put n l })).wr .glbPace n (BitVec.ofNat 64 (value % 2 ^ 48))).wr .glbPaceMin n
        (BitVec.ofNat 64 least)
    else ((s.onArch (fun a => { a with pace := a.pace.del n })).wr .glbPace n 0).wr .glbPaceMin n 0
  else s)

/-! ### The rack supply (R368) -/

/-- A HOLD entered on a rack-supply fault ends when VSUP has met the recovery level, and otherwise waits for it alone. -/
def State.rackClear (s : State) : State :=
  let s := s.onPwr (fun p => { p with rackFault := false })
  if s.pwrSt = 1 && s.pwr.holdRack then
    (if s.pwr.recovered then s.leaveHold else s.onPwr (fun p => { p with holdRack := false }))
  else s

/-- `PSU_POLL`: the four reads, published; an input fault sets the event and with PMBUS_HOLD enters HOLD; three polls without an answer set the
event, and the supply is ignored until it answers. -/
def execPsuPoll (ans : Option PsuAnswer) (s : State) : Ans :=
  s.whenLive (if s.fld Fld.pwrPmbusCfg_enable = 0 then s
    else
      let s := s.send (.pmbusPoll ((s.rd .pwrPmbusCfg).toNat % 128))
      match ans with
      | none =>
        let n := s.pwr.pollMiss + 1
        let s := s.onPwr (fun p => { p with pollMiss := n })
        if n = 3 then (s.raise Evt.pwr_psuFault).rackClear else s
      | some a =>
        let s := s.onPwr (fun p => { p with pollMiss := 0 })
        let s := s.wr .pwrPsu 0 (BitVec.ofNat 64 (a.pout % 2 ^ 16 + a.statusWord % 2 ^ 16 * 2 ^ 16 + a.vin % 2 ^ 16 * 2 ^ 32))
        if a.statusInput % 256 ≠ 0 then
          let s := (s.raise Evt.pwr_psuFault).onPwr (fun p => { p with rackFault := true })
          if s.fld Fld.pwrHoldCfg_pmbusHold = 1 && s.pwrSt = 0 then s.enterHold true else s
        else s.rackClear)

/-! ### The hold-up bank (R355 to R360) -/

/-- The charger's set-point, CHG_SET_CV as the controller acts on it (R355). -/
def State.chgSet (s : State) : Nat := min 5600 (max 4400 (s.fld Fld.pwrChgCfg_chgSetCv))

/-- The bank's voltage in 10 mV, as the converter samples it (R354), and whether the charger delivers. -/
def State.bankAt (s : State) (v : Nat) : State :=
  let s := (s.onPwr (fun p => { p with vbank := v })).setFld ⟨.pwrVolts, 32, 16⟩ 0 v
  let on := s.pwr.chargerOn && decide (s.fld Fld.pwrChgCfg_enable = 1) && !s.pwr.measuring && decide (s.fld Fld.pwrStatus_huEn = 0) &&
    decide (v < s.chgSet)
  s.setFld Fld.pwrStatus_charging 0 (b2n on)

/-- Hours since the last measurement, saturating (`PWR_BANK`). -/
def State.bankHours (s : State) : State :=
  if s.pwr.measured then s.setFld ⟨.pwrBank, 48, 16⟩ 0 (min 65535 ((s.now - s.pwr.measuredAt) / 3600000000000)) else s

/-- `BUDGET_RECOMPUTE`: every 1 ms, from the live bank voltage (R358, R359). -/
def execBudgetRecompute (vbankCv : Nat) (s : State) : Ans := s.whenLive (((s.bankAt (vbankCv % 65536)).bankHours).refreshBudget)

/-- A measurement is due: none yet at this start, asked for, TEST_H hours old, or 10 °C away (R356). -/
def State.bankDue (s : State) (tempC : Nat) : Bool :=
  !s.pwr.measured || s.pwr.asked || decide (s.pwr.measuredAt + max 1 (s.fld Fld.pwrChgCfg_testH) * 3600000000000 ≤ s.now) ||
  decide (s.pwr.lastTemp + 10 ≤ tempC) || decide (tempC + 10 ≤ s.pwr.lastTemp)

/-- The three conditions of R356: NORMAL, at least 10 A, and D within the budget 1.0 V lower. -/
def State.bankReady (s : State) (currentCa : Nat) : Bool :=
  decide (s.pwrSt = 0) && decide (1000 ≤ currentCa) && decide (s.dirtyTotal ≤ s.budgetAt (s.pwr.vbank - 100))

/-- The measurement starts: the charger stops and HU_EN rises. -/
def State.bankStart (s : State) : State :=
  ((s.huEn true).setFld Fld.pwrStatus_charging 0 0).onPwr (fun p => { p with measuring := true, asked := false, retries := 0 })

/-- `BANK_MEASURE`: a measurement that is due starts, or is put off (R356). -/
def execBankMeasure (currentCa tempC : Nat) (s : State) : Ans :=
  s.whenLive (if s.pwr.measuring || !(s.bankDue tempC) then s
    else if s.bankReady currentCa then s.bankStart
    else s.onPwr (fun p => { p with asked := true, retries := 0 }))

/-- `BANK_TEST_WRITE`: `PWR_TEST` asks for a measurement. -/
def execBankTestWrite (rq : Requester) (v : Word) (s : State) : Ans :=
  .next (s.woWrite rq .pwrTest 0 (s.isModule rq) 0 (fun s =>
    if bit v.toNat 0 then s.onPwr (fun p => { p with asked := true, retries := 0 }) else s))

/-- `BANK_MEASURE_RETRY`: every 10 min; the sixth that fails sets BANK_TEST_LATE (R356). -/
def execBankMeasureRetry (currentCa _tempC : Nat) (s : State) : Ans :=
  s.whenLive (if s.pwr.measuring || !s.pwr.asked then s
    else if s.bankReady currentCa then s.bankStart
    else
      let n := s.pwr.retries + 1
      let s := s.onPwr (fun p => { p with retries := n })
      if n = 6 then s.raise Evt.pwr_bankTestLate else s)

/-- `BANK_MEASUREMENT_END`: the bank has fallen 1.0 V; C and ESR are taken, HU_EN falls, charging resumes (R356, R357). -/
def execBankMeasurementEnd (cMf esr tempC : Nat) (s : State) : Ans :=
  s.whenLive (if s.pwr.measuring then
    let s := s.onPwr (fun p => { p with measuring := false, measured := true, measuredAt := s.now, lastTemp := tempC, retries := 0 })
    let s := ((s.huEn false).wr .pwrBank 0 (BitVec.ofNat 64 (cMf % 2 ^ 32 + esr % 2 ^ 16 * 2 ^ 32))).bankAt (s.pwr.vbank - 100)
    let s := if decide (cMf % 2 ^ 32 < s.fld Fld.pwrBankLimit_cMin) || decide (s.fld Fld.pwrBankLimit_esrMax < esr % 2 ^ 16)
      then s.raise Evt.pwr_bankAged else s
    s.refreshBudget
  else s)

end Sys2Proof.Machine
end

