-- ==== Sys2Proof/Machine/Tim.lean ====
section
/-! DEFINITION. The timebase and its discipline (R12, R370, R371), what follows node time (R372), domain time (R373), IEEE 1588 (R374), and what
passes in a nanosecond in which no command waits. -/

namespace Sys2Proof.Machine

/-- Change the timebase. -/
def State.onTim (s : State) (f : Tim → Tim) : State := { s with tim := f s.tim }

/-! ### References (R12, R370) -/

/-- Reference input A, on Q0, can be used. -/
def State.refA (s : State) : Bool := s.tim.lockA && s.hubUp 0
/-- Reference input B, on Q3, can be used. -/
def State.refB (s : State) : Bool := s.tim.lockB && s.hubUp 3

/-- The source the PLL locks to (Table 17-8): the preferred input, else the other, else holdover; free-running before the first lock. -/
def State.pickSource (s : State) : Nat :=
  let pref := s.fld Fld.timCfg_refPref
  if pref = 1 && s.refB then 1
  else if s.refA then 0
  else if s.refB then 1
  else if s.fld Fld.timStatus_source = 3 then 3 else 2

/-- Node time is valid again when its error is within ±1 µs and it is locked or holds over (R372; that free-running time is not valid is
DEDUCED, log 76). -/
def State.revalidate (s : State) : State :=
  if s.fld Fld.timStatus_errorNs ≤ 1000 && s.fld Fld.timStatus_source ≠ 3 && !s.frz.frozen then s.setFld Fld.timStatus_timeValid 0 1 else s

/-- The source is chosen again: losing the reference in use sets REF_LOST, and going without one HOLDOVER; the hub that supplies the timebase
is the lowest with a valid reference (R12, R370). -/
def State.settleRef (s : State) : State :=
  let old := s.fld Fld.timStatus_source
  let new := s.pickSource
  let s := s.setFld Fld.timStatus_source 0 new
  let s := if (old = 0 && !s.refA && new ≠ 0) || (old = 1 && !s.refB && new ≠ 1) then s.raise Evt.tim_refLost else s
  let s := if new = 2 && old ≠ 2 then s.raise Evt.tim_holdover else s
  (s.onArch (fun a => { a with timebaseHub := if s.refA then some 0 else if s.refB then some 3 else none })).revalidate

/-- `REFERENCE_CHANGE`: which inputs the PLL finds locked. -/
def execReferenceChange (lockA lockB : Bool) (s : State) : Ans :=
  .next ((s.onTim (fun t => { t with lockA := lockA, lockB := lockB })).settleRef)

/-! ### Discipline (R371) -/

/-- An offset still to be slewed, in ns (`TIM_OFFSET`, SLEWING). -/
def State.setOffset (s : State) (off : Int) : State :=
  (s.wr .timOffset 0 (BitVec.ofInt 64 off)).setFld Fld.timStatus_slewing 0 (b2n (decide (off ≠ 0)))

/-- No context is resident. -/
def State.noneResident (s : State) : Bool := (List.range 64).all (fun n => !(s.resident n))

/-- An offset found by a discipline source: a forward step when it is above 1 ms, found before any context is resident, with STEP_EN set, and a
slew otherwise. -/
def State.discipline (s : State) (off : Int) : State :=
  if 1000000 < off && s.noneResident && s.fld Fld.timCfg_stepEn = 1 then
    ((s.onTim (fun t => { t with nodeOff := t.nodeOff + off })).setOffset 0).raise Evt.tim_step
  else s.setOffset off

/-- `OFFSET_DISCIPLINE`: how far the source is ahead of node time, in ns. -/
def execOffsetDiscipline (off : Int) (s : State) : Ans := s.whenLive (s.discipline off)

/-- SLEW_PPM as the controller acts on it: above 200 as 200, 0 as 1. -/
def State.slewPpm (s : State) : Nat := min 200 (max 1 (s.fld Fld.timCfg_slewPpm))

/-- One nanosecond of slewing at SLEW_PPM. -/
def State.slewTick (s : State) : State :=
  let off := (s.rd .timOffset).toInt
  if off = 0 then s
  else
    let a := s.tim.slewAcc + s.slewPpm
    if a < 1000000 then s.onTim (fun t => { t with slewAcc := a })
    else
      let d : Int := if 0 < off then 1 else -1
      (s.onTim (fun t => { t with slewAcc := a - 1000000, nodeOff := t.nodeOff + d })).setOffset (off - d)

/-! ### What follows node time (R372) -/

/-- `PPS_SECOND`: PPS_OUT rises at each whole second of node time, within 2 ns. -/
def execPpsSecond (s : State) : Ans :=
  let sec := s.nodeNs / 1000000000
  s.whenLive (if s.fld Fld.timCfg_ppsEn = 1 && s.nodeNs % 1000000000 ≤ 2 && s.tim.pps < sec then
    (s.onTim (fun t => { t with pps := sec })).send (.pps ((sec * 1000000000 : Nat) : Int))
  else s)

/-- `NODE_TIME_FRAME`: a time frame on a node link with TIMESTAMP in force. -/
def execNodeTimeFrame (p : Nat) (s : State) : Ans :=
  s.whenLive (if p < 8 && decide (s.portSt p = 5) && bit (s.fld Fld.lnkPortStatus_features p) 3 then s.send (.timeFrame p s.nodeTime) else s)

/-- `PTM_REQUEST`: function 0 of the host port, on Q1, answers. -/
def execPtmRequest (s : State) : Ans := s.whenLive (if s.hostUp then s.send (.ptm s.nodeTime) else s)

/-- `TIME_ERROR_LIMIT`: the estimated error of node time; past ±1 µs TIME_VALID falls. -/
def execTimeErrorLimit (errNs : Nat) (s : State) : Ans :=
  s.whenLive (
    let s := s.setFld Fld.timStatus_errorNs 0 (min errNs 65535)
    if 1000 < errNs then
      (if s.fld Fld.timStatus_timeValid = 1 then (s.setFld Fld.timStatus_timeValid 0 0).raise Evt.tim_validDrop else s)
    else s.revalidate)

/-! ### Domain time (R373) -/

/-- `DOMAIN_TIME_EXCHANGE`: a follower exchanges time frames with the master; `offset` is how far the master is ahead. With no master it holds
over. -/
def execDomainTimeExchange (offset : Int) (s : State) : Ans :=
  s.whenLive (if !s.domUp then s
    else if s.fld Fld.timStatus_masterValid = 0 then s.setFld Fld.timStatus_domainLocked 0 0
    else if s.fld Fld.timStatus_master = s.self then s.setFld Fld.timStatus_domainLocked 0 1
    else
      let s := s.send (.domainTime s.nodeTime)
      (s.setFld Fld.timStatus_domainLocked 0 (b2n (decide (offset.natAbs ≤ 50)))).discipline offset)

/-! ### IEEE 1588 (R374) -/

/-- Sinil port `q` (0 or 1) carries IEEE 1588 messages: enabled, UP, with TIME in force. -/
def State.ptpOn (s : State) (q : Nat) : Bool :=
  decide (q < 2) && decide (s.fld Fld.timPtpCfg_enable = 1) && decide (s.portSt (20 + q) = 5) &&
  bit (s.fld Fld.lnkPortStatus_features (20 + q)) 1

/-- The data set of the controller's own clock: PRIORITY1, clockClass 248, PRIORITY2 (the class is the standard's default: PRESUMED, log 77). -/
def State.ownClock (s : State) : Nat × Nat × Nat := (s.fld Fld.timPtpCfg_priority1, 248, s.fld Fld.timPtpCfg_priority2)

/-- The default best master clock algorithm's order, as far as an announce carries it: priority 1, clockClass, priority 2. -/
def clockBetter (a b : Nat × Nat × Nat) : Bool :=
  decide (a.1 < b.1) || (decide (a.1 = b.1) && (decide (a.2.1 < b.2.1) || (decide (a.2.1 = b.2.1) && decide (a.2.2 < b.2.2))))

/-- What the last announce on Sinil port `q` said, and whether its grandmaster is traceable. -/
def State.heard (s : State) (q : Nat) : Option ((Nat × Nat × Nat) × Bool) :=
  if s.ptpOn q then (s.tim.announce.look q).map (fun a => ((a.1, a.2.1, a.2.2.1), a.2.2.2)) else none

/-- The port that may be and is a slave: the one with the better clock, where it beats the controller's own; the lower port on a tie. -/
def State.slavePort (s : State) : Option Nat :=
  let ok := fun (q : Nat) => bit (s.rd .timPtpCfg).toNat (8 + q) && (match s.heard q with
    | some a => clockBetter a.1 s.ownClock
    | none => false)
  match ok 0, ok 1, s.heard 0, s.heard 1 with
  | true, true, some a, some b => if clockBetter b.1 a.1 then some 1 else some 0
  | true, _, _, _ => some 0
  | _, true, _, _ => some 1
  | _, _, _, _ => none

/-- The portState of Sinil port `q`, in the standard's numbers (PRESUMED, log 77): 3 DISABLED, 6 MASTER, 7 PASSIVE, 9 SLAVE. Beside a slave, the
other port is PASSIVE where it hears the same clock, and MASTER otherwise. -/
def State.ptpState (s : State) (q : Nat) : Nat :=
  if !(s.ptpOn q) then 3
  else match s.slavePort with
    | none => 6
    | some p => if p = q then 9 else if s.heard q = s.heard p then 7 else 6

/-- Roles of both ports, published; CLOCK_CLASS and TRACEABLE follow the slave's grandmaster. -/
def State.ptpRoles (s : State) : State :=
  let gm := s.slavePort.bind s.heard
  let cls := match gm with
    | some a => a.1.2.1
    | none => s.ownClock.2.1
  let v := s.ptpState 0 + s.ptpState 1 * 2 ^ 4 + cls % 256 * 2 ^ 8 + (bits (s.rd .timPtpStatus).toNat 16 32) * 2 ^ 16
  let s := (s.wr .timPtpStatus 0 (BitVec.ofNat 64 v)).setFld Fld.timStatus_clockClass 0 (cls % 256)
  let tr := match gm with
    | some a => a.2
    | none => false
  let s := if s.fld Fld.timStatus_traceable = 1 && !tr then s.raise Evt.tim_traceableLost else s
  s.setFld Fld.timStatus_traceable 0 (b2n tr)

/-- `PTP_MESSAGE`: an announce, a computed offset from the master, or a delay request, of the configured domain. -/
def execPtpMessage (port : Nat) (m : PtpMsg) (s : State) : Ans :=
  let dom := s.fld Fld.timPtpCfg_domain
  s.whenLive (if !(s.ptpOn port) then s
    else match m with
      | .announce d cls p1 p2 tr =>
        if d = dom then (s.onTim (fun t => { t with announce := t.announce.put port (p1, cls, p2, tr) })).ptpRoles else s
      | .sync d off =>
        if d = dom && s.ptpState port = 9 then
          (s.setFld ⟨.timPtpStatus, 16, 32⟩ 0 (BitVec.ofInt 32 off).toNat).discipline (-off)
        else s
      | .delayReq d =>
        if d = dom && s.ptpState port = 6 then s.send (.ptp port 3 s.nodeTime 0 0 0) else s)

/-- `ANNOUNCE_INTERVAL`: a master port sends an announce, and a two-step sync with its follow-up. -/
def execAnnounceInterval (port : Nat) (s : State) : Ans :=
  s.whenLive (
    let s := s.ptpRoles
    if s.ptpOn port && decide (s.ptpState port = 6) then
      let c := match s.slavePort.bind s.heard with
        | some a => a.1
        | none => s.ownClock
      s.sendAll [.ptp port 0 s.nodeTime c.1 c.2.1 c.2.2, .ptp port 1 s.nodeTime 0 0 0, .ptp port 2 s.nodeTime 0 0 0]
    else s)

/-! ### A nanosecond without a command -/

/-- Trace records leave for CONNECTION, an operator connection, oldest first (R411); one of each hub. -/
def State.drainTrace (s : State) : State :=
  let cfg := (s.rd .dbgTraceCfg).toNat
  let conn := bits cfg 8 32
  let port := bits cfg 7 1
  if (s.traceRings.rows.isEmpty) || !(s.isOperator (.sinil (20 + port) conn)) then s
  else (List.range 4).foldl (fun (s : State) h =>
    match s.traceRings.lookD h [] with
    | [] => s
    | r :: rest => ({ s with traceRings := if rest = [] then s.traceRings.del h else s.traceRings.put h rest }).sendOn (20 + port) 11 conn 16 (.traceFrame conn r)) s

/-- What happens in a nanosecond in which no command waits: run time passes, node time with it, slewing goes on and trace records leave; nothing
while the module is frozen (R371, R375). -/
def State.tick (s : State) : State :=
  if s.frz.frozen then s else ({ s with now := s.now + 1 }.slewTick).drainTrace

end Sys2Proof.Machine
end

