-- ==== Sys2Proof/Machine/Arch.lean ====
section
/-! DEFINITION. Failure detection and containment of links, hubs and stacks (R7 to R12, R33, R52, R116, R398), and the repairs of DRAM (R23). -/

namespace Sys2Proof.Machine

/-! ### What lies on a stack -/

/-- The 4 KiB pieces of granule `g` of region `i` that lie on stack `m`, as ranges of keys. -/
def Region.piecesOn (i : Nat) (r : Region) (m g : Nat) : List (Nat × Nat) :=
  ((List.range 16).filter (fun j => decide (r.stackAt i (g * 65536 + j * 4096) = m))).map (fun j =>
    let k := keyNode ((r.base + g) * 65536 + j * 4096)
    (k, k + 4096))

/-- The blocks of backed domain frame `f` that lie on stack `m` (R294), as ranges of keys: the home's and the copy holder's. -/
def State.domOn (s : State) (m f : Nat) : List (Nat × Nat) :=
  match s.dmap.regionAt (f * 65536) with
  | none => []
  | some (_, r) =>
    let ms := s.stacksUp
    ((List.range 16).filter (fun j =>
      let off := f * 65536 + j * 4096
      decide (ms[stackHash (domPlace r.protect off).1 252 (off / 4096) ms.length]? = some m))).flatMap (fun j =>
        let off := f * 65536 + j * 4096
        [(keyDom off, keyDom off + 4096), (keyDomCopy off, keyDomCopy off + 4096)])

/-- What lies on stack `m` beside KV pages: private granules (R424), blob granules (placed as R80 places them with L = 252; DESIGN CHOICE, log
78), granules of the node shared window that are not parked (R285), and domain frames (R294); as ranges of keys. -/
def State.rangesOn (s : State) (m : Nat) : List (Nat × Nat) :=
  (s.tlr.granules.filter (fun g => decide (s.stackChoice g.1 g.1 251 g.2 = m))).map (fun g =>
    (keyPriv g.1 (g.2 * 65536), keyPriv g.1 (g.2 * 65536) + 65536)) ++
  s.ssn.sessions.rows.flatMap (fun x => ((List.range 128).filter (fun g => decide (s.stackChoice x.2.ctx x.1 252 g = m))).map (fun g =>
    (keyBlob x.1 (g * 65536), keyBlob x.1 (g * 65536) + 65536))) ++
  s.nmc.regions.rows.flatMap (fun r => ((List.range r.2.granules).filter (fun g => !(s.nmc.parked.has (r.1, g)))).flatMap (fun g =>
    r.2.piecesOn r.1 m g)) ++
  s.dfb.frames.flatMap (fun f => s.domOn m f)

/-- The lines of a range are lost: they read as poisoned until they are written whole (DESIGN CHOICE, log 79). -/
def State.poisonRange (s : State) (lo hi : Nat) : State :=
  (List.range ((hi - lo) / 64)).foldl (fun (s : State) k => s.poisonLine (lo + 64 * k)) s

/-! ### A stack is lost (R23, R61, R65, R68, R85, R116) -/

/-- The attention of session `i` under way ends ABORTED, with no rows (R116). -/
def State.abortEntries (s : State) (i : Nat) : State :=
  (s.kva.ops.rows.map (·.1)).foldl (fun (s : State) op =>
    match s.kva.ops.look op with
    | none => s
    | some o =>
      let hit := fun (e : AttnEntry) => decide (e.sess = some i) && e.status.isNone
      if !(o.entries.any hit) then s
      else
        let mine := fun (y : MergeSlot) => y.digest.isNone && decide (y.attn = op) && (match o.entries[y.entry]? with
          | some e => hit e
          | none => false)
        let slots := s.kva.merges.keysIf (fun _ y => mine y)
        let s := s.onKva (fun k => { k with
          merges := k.merges.keep (fun p _ => !(slots.contains p))
          engines := k.engines.mapVals (fun _ e => { e with queue := e.queue.filter (fun d => !(slots.contains d.pslot)) }) })
        (s.updAttn op (fun o => { o with entries := o.entries.map (fun e =>
          if hit e then { e with status := some 0x00F0, rows := [] } else e) })).progress op) s

/-- What session `i` loses with stack `m` of its KV: pages it needs are rebuilt (R85), clean copies and pages fetched ahead are dropped. -/
def State.sessLosesKv (s : State) (m i : Nat) : State :=
  match s.sess i with
  | none => s
  | some x =>
    let on := fun (q : KvPage) => decide (q.stack = m)
    if !(x.pages.any on) then s
    else if x.preRevive then
      let s := (s.dropPages i (fun q => decide (q.use = .transit))).updSession i (fun y => { y with preRevive := false })
      match x.op with
      | some o => (s.updSession i (fun y => { y with op := none, st := o.prev })).abortR o.rcpt 5
      | none => s
    else if x.pages.any (fun q => on q && decide (q.use ≠ .clean)) then (s.losePages i on).abortEntries i
    else s.dropClean i

/-- A Passbook copy of session `i` lies on stack `m` with a page that flash does not hold. -/
def Session.pbOn (x : Session) (m : Nat) (sel : Nat × Nat → Nat) : Bool :=
  (List.range x.pbAt.length).any (fun b =>
    decide (x.pbFlash < min ((b + 1) * pbEntries) x.passbook.length) && (match x.pbAt[b]? with
      | some p => decide (sel p = m)
      | none => false))

/-- What session `i` loses with stack `m` of its Passbook copies (R65) and directory copies (R61). -/
def State.sessLosesPb (s : State) (m i : Nat) : State :=
  match s.sess i with
  | none => s
  | some x =>
    let a := x.pbA.isSome && x.pbOn m (·.1)
    let b := x.pbB.isSome && x.pbOn m (·.2)
    let s := if a || b then s.losePb i a b else s
    match s.sess i with
    | none => s
    | some x =>
      if x.dirA ≠ some m && x.dirB ≠ some m then s
      else
        let dA := if x.dirA = some m then none else x.dirA
        let dB := if x.dirB = some m then none else x.dirB
        if dA.isNone && dB.isNone then s.loseSession i
        else
          (s.updSession i (fun y => { y with dirA := dA, dirB := dB })).onSsn (fun t =>
            { t with dirLost := if t.dirLost.contains m then t.dirLost else m :: t.dirLost })

/-- Statement pages, Counterfoil pages and T4 pieces on stack `m` are lost: a slot's page counts as poisoned, a peer's copy is gone (R64, R255,
R306). -/
def State.storesLose (s : State) (m : Nat) : State :=
  let hurt := fun (ps : List (Nat × Nat)) (v : Statement) =>
    let bad := (List.range ps.length).filter (fun k => decide ((ps.getD k (99, 0)).1 = m))
    { v with poisoned := v.poisoned ++ bad.filter (fun k => !(v.poisoned.contains k)) }
  let s := s.onStm (fun t => { t with
    jobs := t.jobs.mapVals (fun _ x => { x with slotA := x.slotA.map (hurt x.pagesA), slotB := x.slotB.map (hurt x.pagesB) })
    stores := t.stores.mapVals (fun _ c =>
      let n := c.frames.length / 2
      { c with pages := c.pages.keep (fun k _ => decide ((c.frames.getD (k.1 * n + k.2) (99, 0)).1 ≠ m)) }) })
  let s := s.onSsn (fun t => { t with cf := t.cf.mapVals (fun _ c =>
    let gone := c.frames.keysIf (fun _ f => decide (f.1 = m))
    { c with kv := c.kv.keep (fun k _ => !(gone.contains k)), frames := c.frames.keep (fun k _ => !(gone.contains k)) }) })
  (s.dfb.pieces.filter (fun p => p.frames.any (fun f => decide (f.1 = m)))).foldl (fun (s : State) p => s.dropPiece p) s

/-- Frames of stack `m` that Statement slots and Counterfoils keep over its loss. -/
def State.ownedFrames (s : State) (m : Nat) : List Nat :=
  let on := fun (l : List (Nat × Nat)) => l.filterMap (fun f => if f.1 = m then some f.2 else none)
  s.stm.jobs.rows.flatMap (fun j => on j.2.pagesA ++ on j.2.pagesB) ++ s.stm.stores.rows.flatMap (fun c => on c.2.frames)

/-- Frames of stack `m` handed over by a phase switch. -/
def State.handedOn (s : State) (m : Nat) : List Nat := s.ssn.handed.filterMap (fun f => if f.1 = m then some f.2 else none)

/-- Stack `m`, already out of service, is lost: its four counts are zero, its engine's descriptors complete with no result, and what lay on it is
rebuilt or lost. -/
def State.loseStack (s : State) (m : Nat) : State :=
  let s := [Reg.ssnPgTotal, .ssnPgFree, .ssnPgAlloc, .ssnPgTransit].foldl (fun (s : State) r => s.wr r m 0) s
  let s := (s.setEngine m { s.engine m with queue := [] }).setFld Fld.kvaEngStatus_state m 0
  let s := s.onKva (fun k => { k with merges := k.merges.keep (fun _ y => !(y.digest.isSome && y.expect.contains m)) })
  let ids := s.ssn.sessions.rows.map (·.1)
  let s := ids.foldl (fun (s : State) i => s.sessLosesKv m i) s
  let s := ids.foldl (fun (s : State) i => s.sessLosesPb m i) s
  let s := s.storesLose m
  let keep := s.ownedFrames m ++ s.handedOn m ++ (s.repair m).frames
  let s := s.onSsn (fun t => { t with used := t.used.put m ((t.used.lookD m []).filter keep.contains) })
  s.raise Evt.glb_stackOffline

/-- The repair record of stack `m`, here and in every MRAM in service (R394). -/
def State.setRepair (s : State) (m : Nat) (r : StackRep) : State :=
  (s.onArch (fun a => { a with repairs := a.repairs.put m r })).mramWrite (fun x => { x with repairs := x.repairs.put m r })

/-- A stack in service is taken offline. -/
def State.takeOffline (s : State) (m : Nat) : State :=
  if !(s.stackUp m) then s
  else
    let lost := s.rangesOn m
    let s := (s.onArch (fun a => { a with stacksOff := m :: a.stacksOff })).loseStack m
    lost.foldl (fun (s : State) p => s.poisonRange p.1 p.2) s

/-- `STACK_TAKEN_OFFLINE`: a base-die fault, which the repair record keeps (R394); a link declared failed; or a tile fault that has stopped its
engine (Table 1-6). Only the first marks a base-die fault (DEDUCED, log 80). -/
def execStackTakenOffline (m : Nat) (s : State) : Ans :=
  s.whenLive (if !(s.stackUp m) then s
    else
      let s := if s.arch.stackLinksDown.contains m || decide (s.fld Fld.kvaEngStatus_state m = 2) then s
        else s.setRepair m { s.repair m with baseFault := true }
      s.takeOffline m)

/-! ### Repairs (Table 1-10) -/

/-- `PATROL_SCRUB`: a patrol read of the codeword at a key rewrites a corrected one. -/
def execPatrolScrub (key : Nat) (s : State) : Ans :=
  let cw := cwOf key
  s.whenLive (if s.badSyms.lookD cw 0 = 1 then s.mendCw cw else (s.readCw cw).1)

/-- A page frame of stack `m` is retired: a free one leaves FREE and TOTAL at once, one in use when it is freed (R68). -/
def State.retireFrame (s : State) (m f : Nat) : State :=
  let r := s.repair m
  if r.frames.contains f then s
  else
    let s := s.setRepair m { r with frames := f :: r.frames }
    let u := s.usedFrames m
    if u.contains f then s
    else
      let s := s.onSsn (fun t => { t with used := t.used.put m (f :: u) })
      (s.wr .ssnPgFree m (BitVec.ofNat 64 (s.pg .ssnPgFree m - 1))).wr .ssnPgTotal m (BitVec.ofNat 64 (s.pg .ssnPgTotal m - 1))

/-- `ROW_SPARE_COPY`: a row is copied to a spare row of its bank; with 16 used, the row's page frames are retired. -/
def execRowSpareCopy (m layer bank : Nat) (frames : List Nat) (s : State) : Ans :=
  s.whenLive (if !(s.stackUp m) then s
    else
      let r := s.repair m
      let n := r.rows.lookD (layer, bank) 0
      if n < 16 then s.setRepair m { r with rows := r.rows.put (layer, bank) (n + 1) }
      else frames.foldl (fun (s : State) f => s.retireFrame m f) s)

/-- `TSV_LANE_REMAP`: a lane is mapped to a spare one; with 16 used, the stack is taken offline. -/
def execTsvLaneRemap (m : Nat) (s : State) : Ans :=
  s.whenLive (if !(s.stackUp m) then s
    else
      let r := s.repair m
      if r.lanes < 16 then s.setRepair m { r with lanes := r.lanes + 1 } else s.takeOffline m)

/-- The pages of retired frames are lost to their sessions (R23, R85), and to Statement slots. -/
def State.framesLose (s : State) (m : Nat) (frames : List Nat) : State :=
  let s := (s.ssn.sessions.rows.map (·.1)).foldl (fun (s : State) i =>
    let on := fun (q : KvPage) => decide (q.stack = m) && frames.contains q.frame
    match s.sess i with
    | none => s
    | some x =>
      if x.pages.any (fun q => on q && decide (q.use ≠ .clean)) then (s.losePages i on).abortEntries i
      else if x.pages.any on then s.dropClean i else s) s
  let hurt := fun (ps : List (Nat × Nat)) (v : Statement) =>
    let bad := (List.range ps.length).filter (fun k => let p := ps.getD k (99, 0); decide (p.1 = m) && frames.contains p.2)
    { v with poisoned := v.poisoned ++ bad.filter (fun k => !(v.poisoned.contains k)) }
  s.onStm (fun t => { t with jobs := t.jobs.mapVals (fun _ x =>
    { x with slotA := x.slotA.map (hurt x.pagesA), slotB := x.slotB.map (hurt x.pagesB) }) })

/-- `LAYER_RETIRE`: a layer and its page frames are retired; a second one in the same stack takes the stack offline. -/
def execLayerRetire (m layer : Nat) (frames : List Nat) (s : State) : Ans :=
  s.whenLive (if !(s.stackUp m) then s
    else
      let r := s.repair m
      if r.layers.contains layer then s
      else
        let s := s.setRepair m { r with layers := layer :: r.layers }
        if !r.layers.isEmpty then s.takeOffline m
        else (frames.foldl (fun (s : State) f => s.retireFrame m f) s).framesLose m frames)

/-! ### Detection (R10) -/

/-- The failed links of hub `h`. -/
def State.linksOf (s : State) (h : Nat) : Nat :=
  (s.arch.linksDown.filter (fun l => decide (l.1.1 = h) || decide (l.1.2 = h))).length

/-- The hubs in service, as `GLB_STATUS.HUBS` names them. -/
def State.publishHubs (s : State) : State := s.setFld Fld.glbStatus_hubs 0 ((s.hubsUp.map (fun h => 2 ^ h)).sum)

/-- A hub is declared failed; its containment is a command of its own. -/
def State.declareHub (s : State) (h : Nat) : State :=
  if s.hubUp h then (s.onArch (fun a => { a with hubs := a.hubs.put h .declared })).publishHubs else s

/-- `LINK_HANDSHAKE_TIMEOUT`: a request unacknowledged for 50 µs declares its link failed (R10). A hub-to-hub link's traffic goes through a third
hub, the lowest in service (DESIGN CHOICE, log 9); a hub with two failed links is declared failed. -/
def execLinkHandshakeTimeout (l : LinkId) (s : State) : Ans :=
  s.whenLive (match l with
    | .stack m =>
      if s.stackUp m && !(s.arch.stackLinksDown.contains m) then
        (s.onArch (fun a => { a with stackLinksDown := m :: a.stackLinksDown })).send (.linkFail l)
      else s
    | .d2d a b =>
      let k := (min a b, max a b)
      if a ≠ b && s.hubUp a && s.hubUp b && !(s.arch.linksDown.any (fun x => decide (x.1 = k))) then
        let via := s.hubsUp.find? (fun h => decide (h ≠ a) && decide (h ≠ b))
        let s := (s.onArch (fun x => { x with linksDown := (k, via) :: x.linksDown })).send (.linkFail l)
        [k.1, k.2].foldl (fun (s : State) h => if 2 ≤ s.linksOf h then s.declareHub h else s) s
      else s)

/-- `HUB_HEARTBEAT_MISS`: three heartbeats in a row are missed (R10). -/
def execHubHeartbeatMiss (h : Nat) (s : State) : Ans := s.whenLive (s.declareHub h)

/-! ### Containment of a failed hub (R11) -/

/-- A clerk is lost with its hub: its handles and waits are gone, its Receipts are counted, and its run's requester is told (R52). -/
def State.loseClerk (s : State) (c : Nat) : State :=
  let s := (List.range 8).foldl (fun (s : State) i => if (s.clerk c).h i = 0 then s else s.setHandle c i 0) s
  let s := s.leaveSignals c
  let cl := s.clerk c
  let s := s.count .tlrRcptLost 0 cl.busySlots.length
  let s := match cl.run with
    | none => s
    | some r =>
      let s := s.dropOpened c r.startedAt
      let s := s.setClerk c { Clerk.idle with st := .lost }
      (s.keepRecord r.requester (s.recordHub (hubOfClerk c)) (RunRec.mk r.tag 0 3 0x0B 0 0 0)).sweepImage r.slot
  s.setClerk c { Clerk.idle with st := .lost }

/-- Work of lost clerks leaves the units it was in; an operation that changes a session or a store goes on without its Receipt (DEDUCED, log 81). -/
def State.dropClerkWork (s : State) (h : Nat) : State :=
  let mine := fun (c : Nat) => decide (hubOfClerk c = h)
  let s := (s.kva.ops.keysIf (fun _ o => mine o.clerk)).foldl (fun (s : State) n => s.cancelAttn n) s
  let s := (s.vsr.searches.keysIf (fun _ x => mine x.rcpt.clerk)).foldl (fun (s : State) n => s.endQuery n) s
  let s := s.onDfb (fun d => { d with reqs := d.reqs.keep (fun _ r => !(mine r.clerk)), esc := d.esc.filter (fun x => !(mine x.clerk) || x.sent) })
  s.onStm (fun t => { t with holds := t.holds.mapVals (fun _ l => l.filter (fun w => match w.1 with
    | .clerk c => !(mine c)
    | .node _ => true)) })

/-- Operations of clerks in service that depend on hub `h` complete with ABORTED, cause 4: attention served there, and searches with passes on its
channels (R52). -/
def State.abortDependents (s : State) (h : Nat) : State :=
  let s := s.kva.ops.rows.foldl (fun (s : State) r =>
    if hubOfPort r.2.port = h then (s.cancelAttn r.1).abortR ⟨r.2.clerk, r.2.slot, r.2.serial⟩ 4 else s) s
  let hit := (List.range 32).filter (fun ch => decide (hubOfChannel ch = h))
  let ops := (hit.flatMap (fun ch => s.vsr.passes.lookD ch [])).map (·.op)
  s.vsr.searches.rows.foldl (fun (s : State) x =>
    if ops.contains x.1 then (s.endQuery x.1).searchDone x.2.rcpt .aborted 4 0 else s) s

/-- The waiting requests of hub `h` are dispatched again from their mirror; where the mirror's hub has failed with it they are lost, with records
of CAUSE 3 and class 0x0B (R33). -/
def State.redispatch (s : State) (h : Nat) : State :=
  let q := s.runQueue h
  let mirror := ((List.range 3).map (fun k => (h + 1 + k) % 4)).find? (fun k => s.hubUp k || decide (s.arch.hubs.lookD k .held = .declared))
  let s := s.onTlr (fun t => { t with queues := t.queues.del h })
  if q.isEmpty then s
  else if (match mirror with
    | some k => s.hubUp k
    | none => false) then
    (q.foldl (fun (s : State) (r : RunReq) => match s.tlr.images.look r.slot with
      | some i => s.dispatchRun i.ctx r true
      | none => s) s).raise Evt.tlr_runqRedispatch
  else
    q.foldl (fun (s : State) r => (s.keepRecord r.requester (s.recordHub h) (RunRec.mk r.tag 0 3 0x0B 0 0 0)).sweepImage r.slot) s

/-- The window's lines on hub `h` lose their directory entries with it; requests that waited for their recalls go on and meet lost lines. -/
def State.dirLoses (s : State) (h : Nat) : State :=
  let on := fun (l : Nat) => decide (s.lineHub l = h)
  let waits := (s.nmc.waiting.keysIf (fun l _ => on l))
  let s := s.onNmc (fun m => { m with
    dir := m.dir.keep (fun l _ => !(on l))
    recalls := m.recalls.keep (fun k _ => !(on k.1))
    sweeps := m.sweeps.mapVals (fun _ l => l.filter (fun x => decide (x ≠ h))) })
  ((waits.foldl (fun (s : State) l => s.dirResume l) s).endRegions).settleNmc

/-- The register hub moves on from a hub out of service, in the order Q0, Q2, Q1, Q3 (R398). -/
def State.moveRegHub (s : State) : State :=
  if s.hubUp s.regHub then s
  else match [0, 2, 1, 3].find? s.hubUp with
    | some k => s.setFld Fld.glbStatus_regHub 0 k
    | none => s

/-- Hub `h` fails and is contained: its links are fenced, its stacks, ports and channels leave service, its clerks are LOST, and the others take
over what it did for the module (R7, R11, R12, R33, R52, R116, R120, R398). -/
def State.failHub (s : State) (h : Nat) : State :=
  let live := s.onArch (fun a => { a with hubs := a.hubs.put h .inService })
  let ms := (List.range 24).filter (fun m => decide (hubOfStack m = h) && live.stackUp m)
  let gone := ms.flatMap (fun m => live.rangesOn m)
  let s := (s.onArch (fun a => { a with hubs := a.hubs.put h .failed, hostLost := a.hostLost || decide (h = 1) })).publishHubs
  let s := (s.raise Evt.glb_hubFailed).moveRegHub
  let s := ms.foldl (fun (s : State) m => s.loseStack m) s
  let s := gone.foldl (fun (s : State) p => s.poisonRange p.1 p.2) s
  let lost := s.tlr.clerks.keysIf (fun c _ => decide (hubOfClerk c = h))
  let any := lost.any (fun c => !((s.clerk c).busySlots.isEmpty))
  let s := (s.dropClerkWork h)
  let s := lost.foldl (fun (s : State) c => s.loseClerk c) s
  let s := if any then s.raise Evt.tlr_rcptLost else s
  let s := (s.abortDependents h).redispatch h
  let s := (List.range 22).foldl (fun (s : State) p => if hubOfPort p = h then (s.updPort p (fun x => { x with retryAt := none })).portOff p else s) s
  let s := if h = 1 then (s.failAgent 0).failAgent 1 else s
  let s := s.dirLoses h
  let s := if h = 0 then s.onSch (fun t => { t with plannerOnQ2 := s.hubUp 2 })
    else if h = 2 then s.onSch (fun t => { t with plannerOnQ2 := false }) else s
  ((s.settleRef).settleGroups).refreshBudget

/-- `HUB_DECLARED_FAILED`: within 200 µs of the declaration (R11). -/
def execHubDeclaredFailed (h : Nat) (s : State) : Ans :=
  s.whenLive (if h < 4 && decide (s.arch.hubs.lookD h .held = .declared) then s.failHub h else s)

end Sys2Proof.Machine
end

