-- ==== Sys2Proof/Machine/Boot.lean ====
section
/-! DEFINITION. Bring-up, replay of durable state, the self-test and the opening of service (R383 to R389), hub reset and return (R390, R393, R394),
and live restart (R391, R392). -/

namespace Sys2Proof.Machine

/-! ### MRAM at start (R340, R342, R394) -/

/-- Numbers in either list. -/
def unionNat (a b : List Nat) : List Nat := a ++ b.filter (fun x => !(a.contains x))

/-- The larger of two repair records of a stack, field by field. -/
def StackRep.merge (a b : StackRep) : StackRep :=
  { layers := unionNat a.layers b.layers
    rows := b.rows.rows.foldl (fun t r => t.put r.1 (max r.2 (t.lookD r.1 0))) a.rows
    lanes := max a.lanes b.lanes
    frames := unionNat a.frames b.frames
    baseFault := a.baseFault || b.baseFault }

/-- The records as every valid copy together gives them: the largest of a monotone record, the highest sequence number of a context's (R340). -/
def State.mergedMram (s : State) : Mram :=
  let ms := s.hubsUp.map s.mram
  let first := ms.headD Mram.blank
  let top := fun (f : Mram → Nat) => ms.foldl (fun a m => max a (f m)) 0
  { nextRes := top (·.nextRes)
    fwFloor := top (·.fwFloor)
    keyFloor := top (·.keyFloor)
    ctxFloors := ms.foldl (fun t m => m.ctxFloors.rows.foldl (fun t r => t.put r.1 (max r.2 (t.lookD r.1 0))) t) Tbl.empty
    ctxRecs := ms.foldl (fun t m => m.ctxRecs.rows.foldl (fun (t : Tbl Nat CtxRec) r => match t.look r.1 with
      | some o => if o.seq < r.2.seq then t.put r.1 r.2 else t
      | none => t.put r.1 r.2) t) Tbl.empty
    repairs := ms.foldl (fun t m => m.repairs.rows.foldl (fun t r => t.put r.1 ((t.lookD r.1 StackRep.none).merge r.2)) t) Tbl.empty
    prefer := first.prefer
    owner := first.owner
    chgSetCv := first.chgSetCv }

/-- A stack's record keeps it out: a base-die fault (R394), or a second retired layer (R23). -/
def StackRep.out (r : StackRep) : Bool := r.baseFault || decide (2 ≤ r.layers.length)

/-! ### Steps 1 to 3 -/

/-- The boot hub (R384): Q0, or Q2 without it. -/
def State.bootHub (s : State) : Option Nat := [0, 2].find? s.hubUp

/-- The hub of a firmware source: both slots and Sinil port 0 are on Q0, Sinil port 1 on Q2. -/
def sourceHub (k : Nat) : Nat := if k = 3 then 2 else 0

/-- The sources in the order of R384: the preferred slot, the other one, Sinil port 0, Sinil port 1. Where the boot record names no slot, which
one holds the higher SVN is a free value. -/
def State.sources (s : State) : List Nat :=
  let a := match (s.mergedMram).prefer with
    | some k => k % 2
    | none => Config.freeNat s.freeCtr % 2
  [a, 1 - a, 2, 3].filter (fun k => s.hubUp (sourceHub k))

/-- The next source is tried: a Sinil port comes up in boot mode and the image is asked for; with every source failed the ROM waits (R384). -/
def State.trySource (s : State) : State :=
  match s.sources.find? (fun k => !(s.boot.failed.contains k)) with
  | none => s.onBoot (fun b => { b with trying := none, lastData := s.now, bootPorts := [] })
  | some k =>
    let s := s.onBoot (fun b => { b with trying := some k, lastData := s.now, bootPorts := if k < 2 then [] else [18 + k] })
    if k < 2 then s else s.send (.boot (18 + k))

/-- The source being tried has failed; a port in boot mode goes DOWN. -/
def State.sourceFailed (s : State) (k : Nat) : State :=
  let s := s.onBoot (fun b => { b with failed := k :: b.failed, bootPorts := [] })
  (if 2 ≤ k then s.portOff (18 + k) else s).trySource

/-- `POWER_ON_BRINGUP`: steps 1 to 3 of Table 16-1. `romPass`: the hubs that pass the ROM's check; `pufOk`: those whose seed is right. With neither
Q0 nor Q2 the controller stays in reset (R384). -/
def execPowerOnBringup (romPass pufOk : List Nat) (s : State) : Ans :=
  .next (if !s.boot.done.isEmpty || s.arch.heldThermal || s.frz.frozen then s
    else if !(romPass.contains 0) && !(romPass.contains 2) then s
    else
      let s := s.onPwr (fun p => { p with recovered := true, chargerOn := true })
      let s := s.coreMv 700
      let s := s.onArch (fun a => { a with hubs := ⟨(List.range 4).map (fun h => (h, if romPass.contains h then HubSt.inService else .out))⟩ })
      let m := s.mergedMram
      let s := (s.setFld Fld.pwrChgCfg_chgSetCv 0 m.chgSetCv).mramWrite (fun _ => m)
      let s := s.onArch (fun a => { a with
        repairs := m.repairs, stacksOff := (List.range 24).filter (fun k => (m.repairs.lookD k StackRep.none).out) })
      let s := if romPass.all pufOk.contains then s else s.setFld Fld.secStatus_pufFallback 0 1
      let next := m.nextRes
      let res := if s.mramQuorum then next + 1024 else next
      let s := (s.mramWrite (fun x => { x with nextRes := res })).onSec (fun x => { x with next := next })
      let s := (s.wr .secXmssNext 0 (BitVec.ofNat 64 (next % 2 ^ 40))).wr .secXmssRes 0 (BitVec.ofNat 64 (res % 2 ^ 40))
      let s := (s.refreshId).setFld Fld.secStatus_owned 0 (b2n m.owner.isSome)
      let s := ((s.setFld Fld.secFw_romVer 0 Config.romVersion).setFld Fld.secFw_keyFloor 0 m.keyFloor).setFld Fld.secFw_fwFloor 0 m.fwFloor
      let boot := (s.bootHub).getD 0
      let s := ((s.publishHubs).setFld Fld.glbStatus_bootHub 0 boot).setFld Fld.glbStatus_regHub 0 boot
      let s := (s.setFld Fld.timStatus_source 0 3).settleRef
      let s := s.onSch (fun t => { t with plannerOnQ2 := !(s.hubUp 0) && s.hubUp 2 })
      (s.onBoot (fun b => { b with done := [1, 2, 3], failed := [] })).trySource)

/-! ### Steps 4 to 6 (R343, R384) -/

/-- An image may run (R343). -/
def State.fwOk (s : State) (i : FwImage) : Bool :=
  decide (s.fld Fld.secFw_keyFloor ≤ i.keyIndex) && decide (i.keyIndex < 4) && i.keyMatches && i.sigOk && decide (s.fld Fld.secFw_fwFloor ≤ i.svn)

/-- An image runs: its key, version and digest are the running ones. -/
def State.fwRuns (s : State) (i : FwImage) : State :=
  ((s.setFld Fld.secFw_keyIndex 0 i.keyIndex).setFld Fld.secFw_svn 0 i.svn).onBoot (fun b => { b with digest := i.digest })

/-- Stacks that the repair record leaves in come into service. -/
def State.startStacks (s : State) : State := s.stacksUp.foldl (fun (s : State) m => s.setFld Fld.kvaEngStatus_state m 1) s

/-- `FIRMWARE_FETCH`: the source being tried gives an image or none. The first that passes R343 runs: firmware starts, Sinil ports may come UP and
stacks are trained; a port in boot mode goes DOWN and negotiates afresh. One that does not pass sets FW_REFUSED. -/
def execFirmwareFetch (img : Option FwImage) (s : State) : Ans :=
  s.whenLive (match s.boot.trying with
    | none => s
    | some k =>
      if s.boot.done.contains 4 then s
      else match img with
        | none => s.sourceFailed k
        | some i =>
          if 2 ≤ k && s.portSt (18 + k) ≠ 5 then s
          else if !(s.fwOk i) then (s.raise Evt.sec_fwRefused).sourceFailed k
          else
            let s := s.onBoot (fun b => { b with
              trying := none, source := k, slot := k, bootPorts := [], done := b.done ++ [4, 5, 6] })
            let s := if 2 ≤ k then s.portOff (18 + k) else s
            (s.fwRuns i).startStacks)

/-- `BOOT_SOURCE_SILENCE`: a Sinil source that has sent nothing for 1 s has failed (R384). -/
def execBootSourceSilence (s : State) : Ans :=
  s.whenLive (match s.boot.trying with
    | some k => if 2 ≤ k && decide (s.boot.lastData + 1000000000 ≤ s.now) then s.sourceFailed k else s
    | none => s)

/-- `SINIL_BOOT_RETRY`: with every source failed, the Sinil ports are tried again every 10 s (R384). -/
def execSinilBootRetry (s : State) : Ans :=
  s.whenLive (if s.boot.trying.isNone && s.boot.done.contains 3 && !(s.boot.done.contains 4) && decide (s.boot.lastData + 10000000000 ≤ s.now) then
    (s.onBoot (fun b => { b with failed := b.failed.filter (fun k => decide (k < 2)) })).trySource
  else s)

/-! ### The division of stack DRAM (R67) -/

/-- Raw flash in bytes, over the channels in service. -/
def State.rawFlash (s : State) : Nat :=
  (s.chansUp.map (fun c => s.fld Fld.flsChStatus_luns c * bits (s.rd .flsChParam c).toNat 0 4 * bits (s.rd .flsChParam c).toNat 8 17 *
    bits (s.rd .flsChParam c).toNat 25 14 * 16384)).sum

/-- Frames of steps 1 to 3 and of two windows of R67, the domain contribution apart. -/
def State.fixedFrames (s : State) : Nat :=
  (min (2 ^ 48) s.rawFlash / 4096 + 65535) / 65536 +
  (4 + bits (s.rd .ssnKvPool).toNat 0 16 + bits (s.rd .ssnKvPool).toNat 16 16 + min 1024 (bits (s.rd .nmcWindow).toNat 0 11)) * 16384

/-- The domain contribution in frames: SHARE_GIB, cut so that the KV pool keeps 64 GiB. -/
def State.shareFrames (s : State) : Nat :=
  min (bits (s.rd .dfbCfg).toNat 0 11 * 16384) (1536 * 16384 - s.fixedFrames - 64 * 16384)

/-- KV frames of each stack: equal shares of every region on all 24 (R67; DESIGN CHOICE that stacks out of service keep theirs, log 83). -/
def State.poolFrames (s : State) : Nat := 64 * 16384 - (s.fixedFrames + s.shareFrames + 23) / 24

/-- The four counts of stack `m` as it comes into service with its frames empty, but for those that Statement slots and Counterfoils own and those
handed over or retired (R68, R393). -/
def State.openPool (s : State) (m base : Nat) : State :=
  let own := s.ownedFrames m
  let out := s.handedOn m ++ (s.repair m).frames
  let s := s.onSsn (fun t => { t with used := t.used.put m (own ++ out) })
  let total := base - out.length
  (((s.wr .ssnPgTotal m (BitVec.ofNat 64 total)).wr .ssnPgAlloc m (BitVec.ofNat 64 own.length)).wr .ssnPgFree m
    (BitVec.ofNat 64 (total - own.length))).wr .ssnPgTransit m 0

/-- The division is made: the windows, the contribution and the KV pool of every stack in service. -/
def State.divideDram (s : State) : State :=
  let win := min 1024 (bits (s.rd .nmcWindow).toNat 0 11) * 16384
  let share := s.shareFrames
  let s := (s.onNmc (fun m => { m with window := win })).onDfb (fun d => { d with share := share })
  let base := s.poolFrames
  (s.stacksUp.foldl (fun (s : State) m => s.openPool m base) s).wr .ssnDirBase 0 (BitVec.ofNat 64 Config.dirBase)

/-! ### Replay (R387, R388) -/

/-- The balances of R243 are counted again: VALID of every superblock, and the registers. -/
def State.recountFlash (s : State) (kept : Word × Word × Word × Nat) : State :=
  let s := s.onFls (fun f => { f with sbs := ⟨f.sbs.rows.map (fun r => (r.1, { r.2 with valid := f.map.countIf (fun _ e => decide (e.sb = r.1)) }))⟩ })
  let n := fun (st : SbSt) => s.fls.sbs.countIf (fun _ b => decide (b.st = st))
  let total := bits kept.2.2.1.toNat 0 32
  let full := n .full
  let opened := n .opened
  let retired := n .retired
  let s := (s.wr .flsSbTotal 0 kept.2.2.1).wr .flsSbA 0 (BitVec.ofNat 64 ((total - full - opened - retired) + full * 2 ^ 32))
  let s := (s.wr .flsSbB 0 (BitVec.ofNat 64 (opened + retired * 2 ^ 32))).wr .flsMapped 0 (BitVec.ofNat 64 s.fls.map.size)
  let s := s.wr .flsLost 0 (BitVec.ofNat 64 (s.fls.map.countIf (fun _ e => e.lost)))
  let s := (s.wr .flsAdv0 0 kept.1).wr .flsAdv 0 kept.2.1
  let s := s.setFld Fld.flsPoolStatus_advPermille 0 (min 1023 (kept.2.1.toNat * 1000 / max 1 kept.1.toNat))
  let s := s.setFld Fld.flsPoolStatus_state 0 kept.2.2.2
  let s := if kept.2.2.2 = 0 then s else s.wr .flsDurableLeft 0 (BitVec.ofNat 64 (s.fld Fld.flsCfg_durGib * 2 ^ 30))
  (s.onFls (fun f => { f with kept := none })).refreshUrgent

/-- Known sessions come back PARKED, their directory copies on the stacks of R61. -/
def State.restoreSessions (s : State) (x : Saved) : State :=
  let s := s.onSsn (fun t => { t with gens := x.gens, sessions := x.sessions })
  s.onSsn (fun t => { t with sessions := t.sessions.mapVals (fun i y =>
    let d := s.dirStacks i
    { y with dirA := d.1, dirB := d.2 }) })

/-- Collections come back with their identifiers. -/
def State.restoreColls (s : State) (x : Saved) : State :=
  let s := s.onVsr (fun v => { v with colls := x.colls, gens := x.collGens })
  (x.colls.rows.foldl (fun (s : State) r => s.wr .vsrCollId r.1 (collIdent r.2.ctx r.1 r.2.gen)) s).publishVec

/-- Job members come back with fresh slot pages; one for whose slots there is no room is gone (DESIGN CHOICE, log 84). -/
def State.restoreJobs (s : State) (x : Saved) : State :=
  let s := s.onStm (fun t => { t with gens := x.jobGens })
  x.jobs.rows.foldl (fun (s : State) r =>
    let d := r.2.desc
    let p := s.takeSlots d.ctx r.1 d
    match p.2 with
    | none => p.1
    | some fs =>
      let s := p.1.onStm (fun t => { t with jobs := t.jobs.put r.1 { r.2 with pagesA := fs.take d.pages, pagesB := fs.drop d.pages } })
      let s := (s.wr .stmJobId r.1 (jobIdent d.ctx r.1 r.2.gen)).wr .stmJobPeer r.1 (BitVec.ofNat 64 d.peer)
      let s := match r.2.record with
        | some c => s.wr .stmJobStep r.1 (BitVec.ofNat 64 c.step)
        | none => s
      let s := match r.2.flashCur with
        | some c => s.wr .stmJobFlash r.1 (BitVec.ofNat 64 c.1.step)
        | none => s
      s.publishJob r.1) s

/-- What the extents hold is read back (R388): sessions, Ledger, collections, Statements with a restore point, and a voter's map, in which the
controller itself stands as removed (R302). -/
def State.readBack (s : State) : State :=
  match s.boot.saved with
  | none => s
  | some x =>
    let s := ((s.restoreSessions x).restoreColls x).restoreJobs x
    let s := s.onSch (fun t => { t with customers := x.customers, ledgerExt := x.ledgerExt })
    let others := x.map.memberNos.filter (fun m => decide (m ≠ x.self))
    let s := s.setFld Fld.dfbStatus_self 0 x.self
    let s := if others.isEmpty then s
      else (s.onDfb (fun d => { d with map := { x.map with members := x.map.members.del x.self } })).publishDfb
    let s := s.setFld ⟨.glbRecovery, 0, 32⟩ 0 s.boot.cutPb.size
    s.onBoot (fun b => { b with saved := none })

/-- The flash pool comes up: an unwritten one is formatted, another replayed. A lost checkpoint or journal unit ends replay, and the pool is
READ_ONLY. A secure discard that a reset met goes on. -/
def State.bringFlash (s : State) (lost : Bool) : State :=
  let s := match s.fls.formatted, s.fls.kept with
    | true, some k => s.recountFlash k
    | true, none => s
    | false, _ => s.flsFormat
  let s := if lost then (s.poolTo 2).raise Evt.fls_readOnly else s
  let s := s.onBoot (fun b => { b with flashUp := true })
  let s := s.readBack
  if s.fls.sdisc.isEmpty then s
  else (s.wr .flsSdiscStatus 0 (BitVec.ofNat 64 (1 + s.fls.sdisc.length * 4))).erasesResume

/-- Every channel of a hub in service has been negotiated, accepted or refused. -/
def State.channelsDone (s : State) : Bool := (List.range 32).all (fun c => !(s.hubUp (hubOfChannel c)) || decide (s.chanSt c ≠ 0))

/-- `MAP_REPLAY`: steps 6 to 10 of Table 16-1, once every channel is negotiated: stack DRAM divided, the budget of R386, the map replayed, and the
controller's extents read back. With a hub out of service, or without two channels, the flash pool is not brought up (R388). -/
def execMapReplay (lost : Bool) (s : State) : Ans :=
  s.whenLive (if s.boot.done.contains 6 && !(s.boot.done.contains 9) && s.channelsDone then
    let s := s.divideDram.refreshBudget
    let s := if s.hubsUp.length = 4 && decide (2 ≤ s.chansUp.length) then s.bringFlash lost else s
    (s.onBoot (fun b => { b with done := b.done ++ [7, 8, 9, 10] })).refreshBudget
  else s)

/-! ### The self-test (R389) and service (R383, R331) -/

/-- A hub that fails its check at start is out of service, and its stacks with it. -/
def State.hubOut (s : State) (h : Nat) : State :=
  let ms := (List.range 24).filter (fun m => decide (hubOfStack m = h) && s.stackUp m)
  let s := ((s.onArch (fun a => { a with hubs := a.hubs.put h .out, hostLost := a.hostLost || decide (h = 1) })).publishHubs).moveRegHub
  let s := ms.foldl (fun (s : State) m => s.loseStack m) s
  (s.refreshId).settleRef

/-- A unit that fails a test leaves service (Table 16-2). -/
def State.unitOut (s : State) (u : FailedUnit) : State :=
  match u with
  | .hub h => if s.hubUp h then s.hubOut h else s
  | .stack m => if s.stackUp m then (s.onArch (fun a => { a with stacksOff := m :: a.stacksOff })).loseStack m else s
  | .text h => s.onBoot (fun b => { b with textOut := unionNat b.textOut [h] })
  | .channel c => (s.onBoot (fun b => { b with chanOut := unionNat b.chanOut [c] })).setFld Fld.flsChStatus_state c 3
  | .port p => (s.onBoot (fun b => { b with portOut := unionNat b.portOut [p] })).portOff p

/-- The domain is asked for readmission, as a new incarnation (R302, Table 12-8). -/
def State.askDomain (s : State) : State :=
  match s.dmap.memberNos.filter (fun m => decide (m ≠ s.self)) with
  | [] => s
  | m :: _ => if s.fld Fld.dfbCfg_domainEn = 0 then s else (s.setFld Fld.dfbStatus_state 0 1).send (.joinAsk m s.self)

/-- `SELF_TEST`: steps 11 and 12: units that fail leave service and the failure is recorded; then ports may train and the domain is asked. -/
def execSelfTest (failed : List FailedUnit) (s : State) : Ans :=
  s.whenLive (if s.boot.done.contains 10 && !(s.boot.done.contains 11) then
    let s := failed.foldl (fun (s : State) u => s.unitOut u) s
    let s := if failed.isEmpty then s else (s.onBoot (fun b => { b with fault := true })).raise Evt.glb_selftestFail
    ((s.onBoot (fun b => { b with done := b.done ++ [11, 12] })).refreshBudget).askDomain
  else s)

/-- A context comes back as its record has it (R331): RESIDENT with its flash key derived again and empty job-key slots, SWEEPING at step 3 of
R336, or RESERVED. -/
def State.restoreCtx (s : State) (n : Nat) (r : CtxRec) (floor : Nat) : State :=
  if r.state = 0 then s
  else
    let c : Ctx := { record := r, sweepStep := if r.state = 2 then 3 else 0, jobEpochs := .empty, jobKeys := .empty, tellers := s.newTellers n r }
    let c := if r.state = 3 then { c with tellers := [] } else c
    let s := s.onSec (fun x => { x with ctxs := x.ctxs.put n c })
    let s := (s.publishCtx n r).wr .secCtxFloor n (BitVec.ofNat 64 floor)
    if r.state = 2 then s.ctxStatus n 0 1 else s

/-- Every step up to 12 has ended, two hubs are in service, and the budget is at least 64 MiB (R383). -/
def State.mayServe (s : State) : Bool :=
  s.boot.done.contains 12 && decide (2 ≤ s.hubsUp.length) && decide (2 ^ 26 ≤ (s.rd .pwrBudget).toNat)

/-- `GLB_BOOT_STATUS` is written, once (R404). -/
def State.bootStatus (s : State) : State :=
  let chans := (s.chansUp.map (fun c => 2 ^ c)).sum
  let stks := (s.stacksUp.map (fun m => 2 ^ m)).sum
  let hubs := (s.hubsUp.map (fun h => 2 ^ h)).sum
  s.wr .glbBootStatus 0 (BitVec.ofNat 64 (s.boot.source % 4 + b2n s.boot.clean * 4 + b2n s.boot.fault * 8 + hubs * 2 ^ 4 + stks * 2 ^ 8 + chans * 2 ^ 32))

/-- `SERVICE_OPEN`: step 13: contexts restored from MRAM, service opened (R331, R383). -/
def execServiceOpen (s : State) : Ans :=
  s.whenLive (if s.mayServe && decide (s.fld Fld.glbStatus_service = 0) then
    let m := s.mergedMram
    let s := (List.range 64).foldl (fun (s : State) n => match m.ctxRecs.look n with
      | some r => s.restoreCtx n r (m.ctxFloors.lookD n 0)
      | none => s) s.bootStatus
    s.setFld Fld.glbStatus_service 0 1
  else s)

/-! ### Hub reset and return (R390, R393, R394) -/

/-- Hub `h` is taken out under R11, and its return begins (KIND 2). -/
def State.resetHub (s : State) (h : Nat) : State :=
  let s := if s.hubUp h || decide (s.arch.hubs.lookD h .held = .declared) then s.failHub h else s
  s.onBoot (fun b => { b with returning := unionNat b.returning [h] })

/-- `GLB_RESET_HUB`: KIND 2; refused where fewer than two hubs would remain. In FLUSH it takes effect when the flush ends (R390). -/
def execGlbResetHub (rq : Requester) (v : Word) (s : State) : Ans :=
  let h := Fld.glbReset_target.get v
  .next (if s.frz.frozen || Fld.glbReset_kind.get v ≠ 2 then s
    else if !(s.isModule rq) then s.discardAccess rq (Reg.offset .glbReset 0) 2
    else if s.pwrSt = 3 || 4 ≤ h || (s.hubsUp.filter (fun k => decide (k ≠ h))).length < 2 then s.discardAccess rq (Reg.offset .glbReset 0) 3
    else if s.pwrSt = 2 then s.onPwr (fun p => { p with pendingReset := some (.hub h) })
    else s.resetHub h)

/-- `FLUSH_DONE`: tier 1, and tier 2 unless it was cut, are committed; then a reset that waited, RESUMING or DARK (Table 15-3, R390). -/
def execFlushDone (tier1Us tier2Ms : Nat) (s : State) : Ans :=
  .next (if s.pwrSt = 2 then
    let s := s.flushTier1
    let s := if s.fld Fld.pwrHoldCfg_fullEn = 1 && !s.pwr.cut then s.flushTier2 s.tier2Sessions else s
    let s := (s.wr .pwrFlushLast 0 (BitVec.ofNat 64 (tier1Us % 2 ^ 32 + tier2Ms % 2 ^ 32 * 2 ^ 32))).raise Evt.pwr_flushDone
    let on := fun (s : State) => if s.pwr.recovered then s.enterResuming else s.pwrTo 3
    match s.pwr.pendingReset with
    | some .thermal => s.doReset true true
    | some .module => s.doReset true false
    | some .unclean => s.doReset false false
    | some (.hub h) => on ((s.onPwr (fun p => { p with pendingReset := none })).resetHub h)
    | none => on s
  else s)

/-- `GLB_RESET_CLEAR_REPAIR`: KIND 3 clears the repair record of a stack (R394). -/
def execGlbResetClearRepair (rq : Requester) (v : Word) (s : State) : Ans :=
  let m := Fld.glbReset_target.get v
  .next (if Fld.glbReset_kind.get v ≠ 3 then s
    else s.woWrite rq .glbReset 0 (s.isModule rq) 0 (fun s =>
      if 24 ≤ m then s.discardAccess rq (Reg.offset .glbReset 0) 3
      else (s.onArch (fun a => { a with repairs := a.repairs.del m })).mramWrite (fun x => { x with repairs := x.repairs.del m })))

/-- The stacks of hub `h` return with zeroed DRAM, but for those whose repair record keeps them out. -/
def State.returnStacks (s : State) (h : Nat) : State :=
  let base := s.poolFrames
  ((List.range 24).filter (fun m => decide (hubOfStack m = h) && !((s.repair m).out))).foldl (fun (s : State) m =>
    let s := s.onArch (fun a => { a with
      stacksOff := a.stacksOff.filter (fun k => decide (k ≠ m)), stackLinksDown := a.stackLinksDown.filter (fun k => decide (k ≠ m)) })
    let s := (s.rangesOn m).foldl (fun (s : State) p => s.zeroRange p.1 p.2) s
    (s.openPool m base).setFld Fld.kvaEngStatus_state m 1) s

/-- `HUB_RETURN`: a hub whose reset was asked for comes back (R393): its ROM's check and its seed; MRAM copies brought up to date; clerks FREE, as
are its links; stacks zeroed; channels to be negotiated again; `failed`: what its self-test finds. -/
def execHubReturn (h : Nat) (romOk seedOk : Bool) (failed : List FailedUnit) (s : State) : Ans :=
  s.whenLive (if !(s.boot.returning.contains h) || 4 ≤ h || s.hubUp h then s
    else
      let s := s.onBoot (fun b => { b with returning := b.returning.filter (fun k => decide (k ≠ h)) })
      if !romOk then s.onArch (fun a => { a with hubs := a.hubs.put h .out })
      else
        let s := if seedOk then s else s.setFld Fld.secStatus_pufFallback 0 1
        let s := s.onArch (fun a => { a with
          hubs := a.hubs.put h .inService, linksDown := a.linksDown.filter (fun l => decide (l.1.1 ≠ h) && decide (l.1.2 ≠ h)) })
        let m := s.mergedMram
        let s := ((s.mramWrite (fun _ => m)).refreshId).publishHubs
        let s := s.onTlr (fun t => { t with clerks := t.clerks.keep (fun c _ => decide (hubOfClerk c ≠ h)) })
        let s := s.onBoot (fun b => { b with
          textOut := b.textOut.filter (fun k => decide (k ≠ h)), portOut := b.portOut.filter (fun p => decide (hubOfPort p ≠ h)) })
        let s := s.returnStacks h
        let s := (List.range 32).foldl (fun (s : State) c =>
          if hubOfChannel c = h && s.chanSt c = 1 then s.setFld Fld.flsChStatus_state c 0 else s) s
        let s := failed.foldl (fun (s : State) u => s.unitOut u) s
        let s := if failed.isEmpty then s else s.raise Evt.glb_selftestFail
        (((s.sweepTables).settleRef).settleGroups).refreshBudget)

/-! ### Live restart (R391, R392) -/

/-- `FW_ACTIVATE`: a staged image is verified, and a restart begins, or FW_REFUSED is set: an image R343 refuses, a handover that does not accept the
running version, a lease below 7 ms, or a restart under way (DEDUCED, log 85). SOURCE 3 is refused. -/
def execFwActivate (rq : Requester) (v : Word) (img : FwImage) (s : State) : Ans :=
  let src := bits v.toNat 0 2
  .next (s.woWrite rq .glbFwActivate 0 (s.isModule rq) (bits v.toNat 2 4) (fun s =>
    if src = 3 then s.discardAccess rq (Reg.offset .glbFwActivate 0) 3
    else if !(s.fwOk img) || s.fld Fld.secFw_svn < img.handoverFrom || s.dmap.leaseMs < 7 || s.boot.restart.isSome then s.raise Evt.sec_fwRefused
    else (s.onBoot (fun b => { b with restart := some (img, src) })).setFld Fld.glbStatus_restart 0 1))

/-- `LIVE_RESTART_PAUSE`: the steps in flight have ended; the new image runs, on trial, and the boot record names the slot before it (R392). -/
def execLiveRestartPause (s : State) : Ans :=
  s.whenLive (match s.boot.restart with
    | none => s
    | some (img, src) =>
      if !s.sch.steps.rows.isEmpty then s
      else
        let old := s.boot.slot
        let s := if s.fld Fld.glbStatus_trial = 1 then s
          else s.mramWrite (fun m => { m with prefer := if old < 2 then some old else none })
        let s := (s.fwRuns img).onBoot (fun b => { b with slot := src, restart := none })
        ((s.setFld Fld.glbStatus_trial 0 1).setFld Fld.glbStatus_restart 0 0).raise Evt.glb_restartDone)

end Sys2Proof.Machine
end

