-- ==== Sys2Proof/Machine/RegAccess.lean ====
section
/-! DEFINITION. Accesses to the register window: which register an offset names, who may read it (R333), counted accesses (R395, R396), W1C and
RC registers (R399), the writes that have no row of their own (R400), the `TIM_NOW` latch (R409) and event notices (R408). -/

namespace Sys2Proof.Machine

/-! ### Which register an offset names (R402) -/

/-- The instance of register `r` at offset `rel` of its block, if there is one. -/
def Reg.instAt (r : Reg) (rel : Nat) : Option Nat :=
  let q := r.spec
  if rel < q.base then none
  else
    let d := rel - q.base
    let i := if q.stride1 = 0 then 0 else d / q.stride1
    let e := d - i * q.stride1
    let j := if q.stride2 = 0 then 0 else e / q.stride2
    if i < q.count1 && j < q.count2 && decide (e = j * q.stride2) then some (i * q.count2 + j) else none

/-- The register and instance at an 8-byte-aligned offset of the window; `none` at an undefined offset. -/
def regAtOffset (off : Nat) : Option (Reg × Nat) :=
  (Reg.inBlock (off / 0x400000)).findSome? (fun r => (r.instAt (off % 0x400000)).map (fun i => (r, i)))

/-! ### Who may read a register (R333) -/

/-- The context of the run on clerk `c`, or of the last one. -/
def State.clerkCtx (s : State) (c : Nat) : Option Nat :=
  match (s.clerk c).run with
  | some r => some r.ctx
  | none => (s.clerk c).lastCtx

/-- The context whose tenant tag is `t`. -/
def State.tenantCtx (s : State) (t : Word) : Option Nat :=
  (List.range 64).find? (fun n => decide (s.ctxState n ≠ 0) && decide (s.rd .secCtxTenant n = t))

/-- The context whose object register `r` instance `i` names, if it names one (R333). A status register names the object its index field
names (DEDUCED, log 86). -/
def State.regCtx (s : State) (r : Reg) (i : Nat) : Option Nat :=
  match r with
  | .secCtxTenant | .secCtxState | .secCtxQuiet | .secCtxFloor | .secCtxJobkeys | .schCtxReport => some i
  | .secCtxStatus => some (s.fld Fld.secCtxStatus_index)
  | .tlrClkState | .tlrClkRcptIss | .tlrClkRcptCon | .tlrClkOrphan | .tlrClkTrap | .tlrClkTrapAddr => s.clerkCtx i
  | .tlrImgSlot => (s.tlr.images.look i).map (·.ctx)
  | .tlrImgStatus => (s.tlr.images.look (s.fld Fld.tlrImgStatus_slot)).map (·.ctx)
  | .txtVocabSlot => (s.txt.vocabs.look i).map Table.ctx
  | .txtGramSlot => (s.txt.grams.look i).map Table.ctx
  | .txtTblStatus =>
    ((if s.fld Fld.txtTblStatus_kind = 0 then s.txt.vocabs else s.txt.grams).look (s.fld Fld.txtTblStatus_slot)).map Table.ctx
  | .vsrCollId => (s.vsr.colls.look i).map (·.ctx)
  | .vsrCollStatus => (s.vsr.colls.look (s.fld Fld.vsrCollStatus_index)).map (·.ctx)
  | .nmcRegionId | .nmcRegionBase => (s.nmc.regions.look i).map (·.ctx)
  | .nmcRegionStatus => (s.nmc.regions.look (s.fld Fld.nmcRegionStatus_index)).map (·.ctx)
  | .stmJobId | .stmJobStep | .stmJobFlash | .stmJobPages | .stmJobPeer | .stmJobState => (s.stm.jobs.look i).map (fun j => j.desc.ctx)
  | .stmJobStatus => (s.stm.jobs.look (s.fld Fld.stmJobStatus_index)).map (fun j => j.desc.ctx)
  | .dfbRegionId => ((s.dmap.regions.look i).map (·.tenant)).bind s.tenantCtx
  | .dfbRegionStatus => ((s.dmap.regions.look (s.fld Fld.dfbRegionStatus_index)).map (·.tenant)).bind s.tenantCtx
  | .ssnPhaseStatus => if s.fld Fld.ssnPhaseStatus_state = 0 then none else some (s.fld Fld.ssnPhaseStatus_context)
  | _ => none

/-- A requester may read a register: the operator and firmware every one, a context's requester those of its own objects (R332, R333). -/
def State.mayRead (s : State) (rq : Requester) (r : Reg) (i : Nat) : Bool :=
  s.isModule rq ||
  (match s.regCtx r i with
   | some n => decide (n < 64) && s.actsFor rq n
   | none => false)

/-! ### Reads (R395, R399, R409) -/

/-- What one 64-bit read of a register that its requester may read leaves: an RC register is cleared, and `TIM_NOW` latches the fraction `frac`
of its instant and the run time. -/
def State.readEffect (s : State) (r : Reg) (i frac : Nat) : State :=
  if r.spec.access = .rc then s.wr r i 0
  else if r = .timNow then (s.wr .timNowFrac 0 (BitVec.ofNat 64 (frac % 2 ^ 16))).wr .timRun 0 (BitVec.ofNat 64 s.now)
  else s

/-- The addressed bytes of a register's word: `width` bytes from byte `lo`. -/
def narrow (v : Word) (lo width : Nat) : Word := BitVec.ofNat 64 (v.toNat / 2 ^ (8 * lo) % 2 ^ (8 * width))

/-- A read of `width` bytes from byte `lo` of register `r` instance `i`: the window is closed while frozen (R400), a register of a hub that is not
in service reads 0 uncounted (R400), and one that R333 closes to the requester is counted (R396). -/
def State.regRead (s : State) (rq : Requester) (r : Reg) (i lo width frac : Nat) : State :=
  if s.frz.frozen || !(s.rqUp rq) then s
  else if !(s.regReach r i) then s.send (.regAnswer rq false 0)
  else if !(s.mayRead rq r i) then s.discardAccess rq (r.offset i + lo) 2
  else ((s.readEffect r i frac).bump).send (.regAnswer rq false (narrow (s.view r i) lo width))

/-- `TIM_NOW_READ`: `frac` is the fraction of the instant, which only the clock knows. -/
def execTimNowRead (rq : Requester) (frac : Nat) (s : State) : Ans := .next (s.regRead rq .timNow 0 0 8 frac)

/-- `KVA_ENG_ERR_READ`. -/
def execKvaEngErrRead (rq : Requester) (m : Nat) (s : State) : Ans :=
  .next (if m < 24 then s.regRead rq .kvaEngErr m 0 8 0 else s)

/-- `FLS_CH_ERR_READ`. -/
def execFlsChErrRead (rq : Requester) (ch : Nat) (s : State) : Ans :=
  .next (if ch < 32 then s.regRead rq .flsChErr ch 0 8 0 else s)

/-- `STM_STALL_MAX_READ`. -/
def execStmStallMaxRead (rq : Requester) (s : State) : Ans := .next (s.regRead rq .stmStallMax 0 0 8 0)

/-- `NMC_RECALL_MAX_READ`. -/
def execNmcRecallMaxRead (rq : Requester) (s : State) : Ans := .next (s.regRead rq .nmcRecallMax 0 0 8 0)

/-- `LNK_PORT_ERR_READ`. -/
def execLnkPortErrRead (rq : Requester) (p : Nat) (s : State) : Ans :=
  .next (if p < 22 then s.regRead rq .lnkPortErr p 0 8 0 else s)

/-- `PWR_DIRTY_MAX_READ`. -/
def execPwrDirtyMaxRead (rq : Requester) (s : State) : Ans := .next (s.regRead rq .pwrDirtyMax 0 0 8 0)

/-- `GLB_ACCESS_ERR_READ`. -/
def execGlbAccessErrRead (rq : Requester) (s : State) : Ans := .next (s.regRead rq .glbAccessErr 0 0 8 0)

/-- `DBG_TRACE_DROPPED_READ`. -/
def execDbgTraceDroppedRead (rq : Requester) (s : State) : Ans := .next (s.regRead rq .dbgTraceDropped 0 0 8 0)

/-! ### W1C writes (R399) -/

/-- A W1C write of an event register, which only the operator and firmware reach (R333). -/
def State.evtWrite (s : State) (rq : Requester) (r : Reg) (v : Word) : State :=
  s.cfgWrite rq r 0 (s.isModule rq) (fun s => s.w1c r v)

/-- `TLR_EVT_WRITE`. -/
def execTlrEvtWrite (rq : Requester) (v : Word) (s : State) : Ans := .next (s.evtWrite rq .tlrEvt v)

/-- `SSN_EVT_WRITE`. -/
def execSsnEvtWrite (rq : Requester) (v : Word) (s : State) : Ans := .next (s.evtWrite rq .ssnEvt v)

/-- `KVA_EVT_WRITE`. -/
def execKvaEvtWrite (rq : Requester) (v : Word) (s : State) : Ans := .next (s.evtWrite rq .kvaEvt v)

/-- `SCH_EVT_WRITE`. -/
def execSchEvtWrite (rq : Requester) (v : Word) (s : State) : Ans := .next (s.evtWrite rq .schEvt v)

/-- `TXT_EVT_WRITE`. -/
def execTxtEvtWrite (rq : Requester) (v : Word) (s : State) : Ans := .next (s.evtWrite rq .txtEvt v)

/-- `VSR_EVT_WRITE`. -/
def execVsrEvtWrite (rq : Requester) (v : Word) (s : State) : Ans := .next (s.evtWrite rq .vsrEvt v)

/-- `FLS_EVT_WRITE`. -/
def execFlsEvtWrite (rq : Requester) (v : Word) (s : State) : Ans := .next (s.evtWrite rq .flsEvt v)

/-- `STM_EVT_WRITE`. -/
def execStmEvtWrite (rq : Requester) (v : Word) (s : State) : Ans := .next (s.evtWrite rq .stmEvt v)

/-- `NMC_EVT_WRITE`. -/
def execNmcEvtWrite (rq : Requester) (v : Word) (s : State) : Ans := .next (s.evtWrite rq .nmcEvt v)

/-- `DFB_EVT_WRITE`. -/
def execDfbEvtWrite (rq : Requester) (v : Word) (s : State) : Ans := .next (s.evtWrite rq .dfbEvt v)

/-- `LNK_EVT_WRITE`. -/
def execLnkEvtWrite (rq : Requester) (v : Word) (s : State) : Ans := .next (s.evtWrite rq .lnkEvt v)

/-- `SEC_EVT_WRITE`. -/
def execSecEvtWrite (rq : Requester) (v : Word) (s : State) : Ans := .next (s.evtWrite rq .secEvt v)

/-- `PWR_EVT_WRITE`. -/
def execPwrEvtWrite (rq : Requester) (v : Word) (s : State) : Ans := .next (s.evtWrite rq .pwrEvt v)

/-- `GLB_EVT_WRITE`. -/
def execGlbEvtWrite (rq : Requester) (v : Word) (s : State) : Ans := .next (s.evtWrite rq .glbEvt v)

/-- `TIM_EVT_WRITE`. -/
def execTimEvtWrite (rq : Requester) (v : Word) (s : State) : Ans := .next (s.evtWrite rq .timEvt v)

/-- `DBG_EVT_WRITE`. -/
def execDbgEvtWrite (rq : Requester) (v : Word) (s : State) : Ans := .next (s.evtWrite rq .dbgEvt v)

/-! ### Writes without a row of their own (R395 to R400) -/

/-- Registers whose write is a command of its own; a REGISTER_WRITE of one changes nothing (DESIGN CHOICE, log 87). -/
def Reg.ownRow (r : Reg) : Bool :=
  match r with
  | .schGroupCfg | .schCtxReport | .stmJobPeer | .vsrCfg | .dfbMapCfg | .dfbGrantCfg | .lnkHistSel | .lnkPortCfg | .lnkGateCfg
  | .secCtxFloor => true
  | _ => false

/-- What else a write of an RW register does: the flush budget follows its inputs (R358), the charger set-point goes to MRAM (R355), the preferred
reference is chosen again (R370), and GC_URGENT follows its threshold (R241). -/
def State.afterWrite (s : State) (r : Reg) : State :=
  match r with
  | .pwrHoldCfg | .pwrBankLimit => s.refreshBudget
  | .pwrChgCfg => (s.mramWrite (fun m => { m with chgSetCv := s.fld Fld.pwrChgCfg_chgSetCv })).refreshBudget
  | .timCfg => s.settleRef
  | .flsGcCfg => if s.boot.flashUp then s.refreshUrgent else s
  | _ => s

/-- A write of word `w` of the customer record that `SCH_CUST_SEL` selects: words 2 to 4 are its parameters and its
rent (R136, R219); what has been refilled so far is at the old rate (DEDUCED, log 88). -/
def State.custWrite (s : State) (w : Nat) (v : Word) : State :=
  let c := s.fld ⟨.schCustSel, 0, 16⟩
  if w = 2 then s.updCust c (fun x => { x.refillTo s.nodeNs with cap := bits v.toNat 0 32, refill := bits v.toNat 32 32 })
  else if w = 3 then s.updCust c (fun x => { x with wPrompt := bits v.toNat 0 16, wGen := bits v.toNat 16 16, wRecomp := bits v.toNat 32 16 })
  else if w = 4 then s.setRent c v
  else s

/-- The effect of an 8-byte write of `v` to register `r` instance `i` by a requester that may write it. A write to a RO register changes nothing
(R396); `GLB_RESET` refuses a KIND other than 1 to 3. -/
def State.regStore (s : State) (rq : Requester) (r : Reg) (i : Nat) (v : Word) : State :=
  if r.ownRow then s
  else match r.spec.access with
    | .rw => if r = .schCustData then s.custWrite i v else (s.rwWrite r i v).afterWrite r
    | .wo =>
      if r = .glbReset && (v.toNat % 16 = 0 || 3 < v.toNat % 16) then s.discardAccess rq (r.offset i) 3 else s
    | _ => s

/-- A write of `v` to register `r` instance `i`: only the operator and firmware write a register that names no context's object; a RO register
takes no change whoever writes it (R333, R396, R400). -/
def State.regWrite (s : State) (rq : Requester) (r : Reg) (i : Nat) (v : Word) : State :=
  if r.spec.access = .ro || r.spec.access = .w1c || r.spec.access = .rc || r.ownRow then
    if s.mayRead rq r i then s else s.cfgWrite rq r i false id
  else if r.spec.access = .wo && r ≠ .glbReset then s
  else s.cfgWrite rq r i (s.isModule rq) (fun s => s.regStore rq r i v)

/-- `REGISTER_WRITE`: an access to a register without a row of its own takes effect, or is discarded and counted: cause 0 at an undefined offset,
cause 1 for a narrow write or an access not aligned to its own size, cause 2 where R333 does not allow the requester (R395, R396). -/
def execRegisterWrite (rq : Requester) (acc : RegAcc) (s : State) : Ans :=
  .next (if s.frz.frozen || !(s.rqUp rq) then s
    else match acc with
      | .write off width v =>
        match regAtOffset (off / 8 * 8) with
        | none => s.discardAccess rq off 0
        | some (r, i) => if width ≠ 8 || off % 8 ≠ 0 then s.discardAccess rq off 1 else s.regWrite rq r i v
      | .read off width =>
        match regAtOffset (off / 8 * 8) with
        | none => s.discardAccess rq off 0
        | some (r, i) =>
          if !([1, 2, 4, 8].contains width) || off % width ≠ 0 then s.discardAccess rq off 1
          else s.regRead rq r i (off % 8) width (Config.freeNat s.freeCtr))

/-! ### Event notices (R407, R408) -/

/-- HOLDOFF_US in ns; 0 is treated as 1. -/
def State.holdoffNs (s : State) : Nat := max 1 (s.fld Fld.glbEvtCfg_holdoffUs) * 1000

/-- The operator connection that event frames go to, if CONNECTION names one (Table 17-6). -/
def State.evtConn (s : State) : Option (Nat × Nat) :=
  let p := 20 + s.fld Fld.glbEvtCfg_sinilPort
  let c := s.fld Fld.glbEvtCfg_connection
  if s.fld Fld.glbEvtCfg_sinilEn = 1 && s.isOperator (.sinil p c) then some (p, c) else none

/-- One notice for block `b` on every path enabled. -/
def State.notice (s : State) (b : Nat) : State :=
  let s := if s.fld Fld.glbEvtCfg_msixEn = 1 && s.hostUp then s.send (.msix b) else s
  let s := match s.evtConn with
    | some (p, c) => s.sendOn p 0 c 16 (.eventFrame p c (BitVec.ofNat 64 s.evtSummary) s.nodeTime)
    | none => s
  let s := s.send (.fwNotice b)
  { s with latches := s.latches.filter (fun x => decide (x ≠ b)), noticeAt := s.noticeAt.put b s.now }

/-- The holdoff of block `b` has passed since its last notice. -/
def State.noticeDue (s : State) (b : Nat) : Bool :=
  match s.noticeAt.look b with
  | some t => decide (t + s.holdoffNs ≤ s.now)
  | none => true

/-- `EVENT_NOTICE`: a latched event of block `b` is notified once HOLDOFF_US has passed since the block's last notice. -/
def execEventNotice (b : Nat) (s : State) : Ans :=
  s.whenLive (if s.latches.contains b && s.noticeDue b then s.notice b else s)

end Sys2Proof.Machine
end

