-- ==== Sys2Proof/Machine/Sweep.lean ====
section
/-! DEFINITION. Retirement and the context Sweep (R329, R336, R337). -/

namespace Sys2Proof.Machine

/-! ### Retirement -/

/-- The context holds collections, node regions or Statement jobs (R336). -/
def State.holdsObjects (s : State) (n : Nat) : Bool :=
  s.vsr.colls.any (fun _ k => decide (k.ctx = n) && !k.dropping) ||
  s.nmc.regions.any (fun _ r => decide (r.ctx = n) && !r.dying) ||
  s.stm.jobs.any (fun _ j => decide (j.desc.ctx = n))

/-- Context `n` becomes SWEEPING at step 1 of R336; its TDI goes to ERROR (R348), and its record keeps DISCARD (R331). -/
def State.beginSweep (s : State) (n : Nat) (c : Ctx) (discard : Bool) : State :=
  let s := s.tdiError n
  let s := s.saveCtx n { c with record := { c.record with state := 2, discard := discard }, sweepStep := 1 }
  s.ctxStatus n 0 1

/-- A write to `SEC_CTX_RETIRE` (Table 14-1): a RESIDENT context, or with DISCARD set a RESERVED one, starts to be swept; with DISCARD clear one
that holds objects is refused with REASON 8. The write is refused in any other state (cause 3, DEDUCED, log 89). -/
def State.retire_ (s : State) (rq : Requester) (n : Nat) (discard : Bool) : State :=
  s.woWrite rq .secCtxRetire 0 (s.actsFor rq n || s.isOperator rq) 0 (fun s =>
    match s.ctx n with
    | none => s.discardAccess rq (Reg.offset .secCtxRetire 0) 3
    | some c =>
      if s.ctxState n = 1 then
        if !discard && s.holdsObjects n then s.ctxStatus n 8 3 else s.beginSweep n c discard
      else if s.ctxState n = 3 && discard then s.beginSweep n c true
      else s.discardAccess rq (Reg.offset .secCtxRetire 0) 3)

/-- `CTX_RETIRE`: a write to `SEC_CTX_RETIRE` with DISCARD clear. -/
def execCtxRetire (rq : Requester) (v : Word) (s : State) : Ans :=
  .next (if bit v.toNat 6 then s else s.retire_ rq (bits v.toNat 0 6) false)

/-- `CTX_RETIRE_DISCARD`: a write to `SEC_CTX_RETIRE` with DISCARD set. -/
def execCtxRetireDiscard (rq : Requester) (v : Word) (s : State) : Ans :=
  .next (if bit v.toNat 6 then s.retire_ rq (bits v.toNat 0 6) true else s)

/-! ### The steps of the Sweep (R336) -/

/-- The Sweep of context `n` stands at step `k`. -/
def State.sweepTo (s : State) (n k : Nat) : State :=
  s.onSec (fun x => { x with ctxs := x.ctxs.upd n (fun c => { c with sweepStep := k }) })

/-- The frames of connection `conn` queued on port `p` are discarded (R337). -/
def State.dropConnFrames (s : State) (p conn : Nat) : State :=
  (List.range 16).foldl (fun (s : State) q =>
    let l := (s.port p).queues.lookD q []
    let out := l.filter (fun f => decide (f.hdr.conn = conn))
    if out.isEmpty then s
    else
      let n := (out.map (fun f => f.hdr.len)).sum
      (s.updPort p (fun x => { x with queues := x.queues.put q (l.filter (fun f => decide (f.hdr.conn ≠ conn))) })).wr .lnkQDepth (p * 16 + q)
        (s.rd .lnkQDepth (p * 16 + q) - BitVec.ofNat 64 n)) s

/-- Step 1, Stop: every port is rekeyed and the context's Sinil connections are closed; their frames and its step reports go no further. -/
def State.sweepStop (s : State) (n : Nat) : State :=
  let s := (List.range 22).foldl (fun (s : State) p => s.rekeyPort p) s
  let conns := s.sec.conns.keysIf (fun _ k => decide (k.bound = some (.ctx n)))
  let s := conns.foldl (fun (s : State) k =>
    ((s.dropConnFrames k.1 k.2).onSec (fun x => { x with conns := x.conns.del k })).send (.connClosed k.1 k.2)) s
  s.onSch (fun t => { t with reports := t.reports.filter (fun r => decide (r.ctx ≠ n)) })

/-- The sessions of context `n`. -/
def State.ctxSessions (s : State) (n : Nat) : List Nat := s.ssn.sessions.keysIf (fun _ x => decide (x.ctx = n))

/-- Step 2: the context's runs are cancelled, and its open requests end with finish code 7, in a step at the next layer boundary. -/
def State.sweepRuns (s : State) (n : Nat) : State :=
  let s := s.cancelRuns (fun _ k => decide (k = n))
  (s.ctxSessions n).foldl (fun (s : State) i =>
    if s.inStep i then s.updSession i (fun y => { y with req := y.req.map (fun q => { q with cancelling := true }) })
    else (s.endRequest i 7 .aborted 5 0).finishCancels i) s

/-- Step 2 is done: no run and no request of the context is left. -/
def State.runsSwept (s : State) (n : Nat) : Bool :=
  !(s.anyRun (fun _ k => decide (k = n))) && !(s.ssn.sessions.any (fun _ x => decide (x.ctx = n) && x.req.isSome))

/-- Step 3 with DISCARD set: a session is freed, with the movement under way on it; one still in a step waits for its layer boundary. -/
def State.sweepFree (s : State) (i : Nat) : State :=
  if s.inStep i then s else ((s.dropMove i).endRequest i 7 .aborted 5 0).freeSession i

/-- A session of a RESERVED context: PARKED, with its KV on flash or none kept, its Passbook on flash, and nothing in T1. -/
def State.sweepParked (s : State) (i : Nat) (x : Session) : Bool :=
  decide (x.st = .parked) && x.op.isNone && x.placing.isNone && !x.preRevive && x.pages.isEmpty &&
  (decide (x.kvTier = 2) || decide (x.kvTier = 3) || decide (x.kvTier = 0xFF) || x.parked.isEmpty) &&
  decide (x.passbook.length ≤ x.pbFlash) && !(s.inStep i)

/-- The tier a session is parked in: R76 with T1 and T4 excluded; a pin there no longer binds (DEDUCED, log 90). -/
def State.sweepTarget (s : State) (x : Session) : Option Nat :=
  if x.kvBytes = 0 then some 0xFF
  else s.choosePlace { x with pinned := x.pinned && (decide (x.pinTier = 2) || decide (x.pinTier = 3)) } true true

/-- Step 3 with DISCARD clear, for session `i`: it is parked under R76 with T1 and T4 excluded. A revive is undone first, pieces at a T4 peer come
back first, a session that was being rebuilt keeps its Passbook alone, and without room the Sweep waits (DEDUCED, log 90). -/
def State.sweepPark (s : State) (i : Nat) : State :=
  match s.sess i with
  | none => s
  | some x =>
    if s.inStep i || x.op.isSome || x.preRevive || x.placing.isSome then s
    else
      match x.st with
      | .reviving => s.cancelRevive i
      | .rebuilding =>
        (s.updSession i (fun y => { y with st := .parked, rebuild := none, placing := some ⟨0xFF, 0, none, none⟩ })).commitPlace i
      | .active | .parked =>
        let s := (s.updSession i (fun y => { y with st := .parked, inT0 := false })).pbWrite i true
        if x.atPeer then
          let r := s.startStream i
          if r.2 then r.1.updSession i (fun y => { y with preRevive := true }) else s
        else if x.st = .parked && x.cleanT1 && (x.kvTier = 2 || x.kvTier = 3) then s.dropClean i
        else if x.st = .parked && (x.kvTier = 2 || x.kvTier = 3 || x.kvTier = 0xFF || x.kvBytes = 0) then s
        else
          match s.sweepTarget x with
          | none => s
          | some t =>
            let r := s.startPlace i t
            match r.2 with
            | .started => r.1
            | .noSpace => r.1.raise Evt.ssn_parkNoSpace
            | .lost => r.1.losePages i r.1.pageBad
      | _ => s

/-- Step 3: every session of the context is freed or parked. -/
def State.sweepSessions (s : State) (n : Nat) (discard : Bool) : State :=
  (s.ctxSessions n).foldl (fun (s : State) i => if discard then s.sweepFree i else s.sweepPark i) s

/-- Step 3 is done. -/
def State.sessionsSwept (s : State) (n : Nat) (discard : Bool) : Bool :=
  s.ssn.sessions.rows.all (fun r => decide (r.2.ctx ≠ n) || (!discard && s.sweepParked r.1 r.2))

/-- The Escrow ownerships that context `n`'s tenant holds through this controller are released at the leader (R304). -/
def State.sweepEscrow (s : State) (n : Nat) : State :=
  let mine := s.dmap.regions.keysIf (fun _ r => decide (r.tenant = s.rd .secCtxTenant n) && decide (r.owner = some s.self))
  if s.domUp then
    mine.foldl (fun (s : State) i =>
      let k := s.tlr.opCtr + 1
      (s.onTlr (fun t => { t with opCtr := k })).propose (.escrow i .rel s.self k)) s
  else s

/-- Step 4: images and text tables are unloaded, collections dropped, regions and jobs deleted, Escrow ownerships released, and the private
granules and signals freed. -/
def State.sweepObjects (s : State) (n : Nat) : State :=
  let s := (s.tlr.images.keysIf (fun _ i => decide (i.ctx = n))).foldl (fun (s : State) k => s.drainImage k) s
  let s : State := { s with txt := { s.txt with
    vocabs := s.txt.vocabs.mapVals (fun _ t => if t.ctx = n then { t with unloading := true } else t)
    grams := s.txt.grams.mapVals (fun _ t => if t.ctx = n then { t with unloading := true } else t) } }
  let s := s.sweepTables
  let s := (s.vsr.colls.keysIf (fun _ k => decide (k.ctx = n))).foldl (fun (s : State) i => s.dropColl i) s
  let s := (s.nmc.regions.keysIf (fun _ r => decide (r.ctx = n) && !r.dying)).foldl (fun (s : State) i => s.deleteRegion i) s
  let s := (s.stm.jobs.keysIf (fun _ j => decide (j.desc.ctx = n))).foldl (fun (s : State) j => s.deleteJob j) s
  let s := s.sweepEscrow n
  (s.zeroRange (keyPriv n 0) (keyPriv n 0 + 2 ^ 46)).onTlr (fun t => { t with
    granules := t.granules.filter (fun g => decide (g.1 ≠ n))
    signals := t.signals.mapVals (fun _ g => if g.live && decide (g.ctx = n) then { g with refs := 0 }.release else g) })

/-- Step 4 is done: no image, collection, region or job of the context is left. -/
def State.objectsSwept (s : State) (n : Nat) : Bool :=
  !(s.tlr.images.any (fun _ i => decide (i.ctx = n))) && !(s.vsr.colls.any (fun _ k => decide (k.ctx = n))) &&
  !(s.nmc.regions.any (fun _ r => decide (r.ctx = n))) && !(s.stm.jobs.any (fun _ j => decide (j.desc.ctx = n)))

/-- A clerk whose last run was the context's is swept (Table 14-3): registers, Receipt slots and stack. -/
def State.sweepClerk (s : State) (c : Nat) : State :=
  let s := s.zeroRange (keyStack (c * 65536)) (keyStack (c * 65536) + 65536)
  s.setClerk c { Clerk.idle with st := (s.clerk c).st, kept := (s.clerk c).kept }

/-- Step 5: every unit of Table 14-3 whose last context is `n` is swept, its keys, Ledger customer bindings and quiet holds are erased. -/
def State.sweepUnits (s : State) (n : Nat) : State :=
  let clerks := s.tlr.clerks.keysIf (fun _ c => decide (c.lastCtx = some n) && c.run.isNone)
  let s := clerks.foldl (fun (s : State) c => s.sweepClerk c) s
  let units := s.sec.unitLast.keysIf (fun _ c => decide (c = n))
  let s := units.foldl (fun (s : State) u => (s.count .secSweeps 0 1).trace 0 6 n true 0 u.1) s
  let banks := s.kva.engines.keysIf (fun _ e => decide (e.ctxA = some n) || decide (e.ctxB = some n))
  let s := banks.foldl (fun (s : State) m => (s.count .secSweeps 0 1).trace (hubOfStack m) 6 n true m 5) s
  let s := s.onKva (fun k => { k with engines := k.engines.mapVals (fun _ e => { e with
    ctxA := if e.ctxA = some n then none else e.ctxA
    ctxB := if e.ctxB = some n then none else e.ctxB }) })
  let s := s.onSec (fun x => { x with
    unitLast := x.unitLast.keep (fun _ c => decide (c ≠ n))
    ctxs := x.ctxs.upd n (fun c => { c with jobKeys := .empty, tellers := [] }) })
  let s := s.onSch (fun t => { t with
    customers := t.customers.mapVals (fun _ c => if c.bound = some n then { c with bound := none } else c)
    reports := t.reports.filter (fun r => decide (r.ctx ≠ n)) })
  s.wr .secCtxJobkeys n 0

/-- The Sweep ends (Table 14-1): `SEC_EVT.SWEEP_DONE`, and `SEC_CTX_STATUS` if it still shows this retirement. -/
def State.sweepDone (s : State) (n : Nat) : State :=
  let s := if s.fld Fld.secCtxStatus_index = n && s.fld Fld.secCtxStatus_state = 1 then s.ctxStatus n 0 2 else s
  s.raise Evt.sec_sweepDone

/-- Step 6: with DISCARD set the context's flash is securely discarded, and once the last erase has ended its record is erased and the index is
FREE; with DISCARD clear the record is kept without its tenant secret, and the index is RESERVED. -/
def State.sweepFlash (s : State) (n : Nat) (c : Ctx) : State :=
  if c.record.discard then
    let xs := s.ctxExtents n
    let s := if xs.isEmpty then s else s.secureDiscard xs
    if s.fls.sdisc.isEmpty then (s.freeCtx n).sweepDone n else s
  else
    ((s.saveCtx n { c with record := { c.record with state := 3, discard := false, secret := none }, sweepStep := 0 }).setFld
      Fld.secCtxState_tdi n 0).sweepDone n

/-- `CONTEXT_SWEEP`: the step of R336 that the Sweep of context `n` stands at is carried out, or carried on; the next step follows once it is
done (DESIGN CHOICE, log 91). A flush holds the Sweep. -/
def execContextSweep (n : Nat) (s : State) : Ans :=
  s.whenLive (match s.ctx n with
    | none => s
    | some c =>
      if s.ctxState n ≠ 2 || s.flushing then s
      else
        match c.sweepStep with
        | 1 => (s.sweepStop n).sweepTo n 2
        | 2 => let t := s.sweepRuns n; if t.runsSwept n then t.sweepTo n 3 else t
        | 3 => let t := s.sweepSessions n c.record.discard; if t.sessionsSwept n c.record.discard then t.sweepTo n 4 else t
        | 4 => let t := s.sweepObjects n; if t.objectsSwept n then t.sweepTo n 5 else t
        | 5 => (s.sweepUnits n).sweepTo n 6
        | _ => s.sweepFlash n c)

end Sys2Proof.Machine
end

