-- ==== Sys2Proof/Machine/Dispatch.lean ====
section
/-! DEFINITION. One arm per command: a direct call of its meaning. -/

namespace Sys2Proof.Machine

/-- The effect of a command on everything but the queue. -/
def exec (i : Instr) (s : State) : Host.Outcome State Fault Refusal :=
  match i with
  | .linkHandshakeTimeout l => Sys2Proof.Machine.execLinkHandshakeTimeout l s
  | .hubHeartbeatMiss h => Sys2Proof.Machine.execHubHeartbeatMiss h s
  | .hubDeclaredFailed h => Sys2Proof.Machine.execHubDeclaredFailed h s
  | .stackTakenOffline m => Sys2Proof.Machine.execStackTakenOffline m s
  | .patrolScrub key => Sys2Proof.Machine.execPatrolScrub key s
  | .rowSpareCopy m layer bank frames => Sys2Proof.Machine.execRowSpareCopy m layer bank frames s
  | .tsvLaneRemap m => Sys2Proof.Machine.execTsvLaneRemap m s
  | .layerRetire m layer frames => Sys2Proof.Machine.execLayerRetire m layer frames s
  | .paceSample n value => Sys2Proof.Machine.execPaceSample n value s
  | .junctionAbove105 h tC => Sys2Proof.Machine.execJunctionAbove105 h tC s
  | .cornerRecovered mv tC => Sys2Proof.Machine.execCornerRecovered mv tC s
  | .junction115 h tC => Sys2Proof.Machine.execJunction115 h tC s
  | .coreVoltageLow mv => Sys2Proof.Machine.execCoreVoltageLow mv s
  | .coreSupervisorReset mv => Sys2Proof.Machine.execCoreSupervisorReset mv s
  | .standbyEntry mv => Sys2Proof.Machine.execStandbyEntry mv s
  | .standbyExit mv => Sys2Proof.Machine.execStandbyExit mv s
  | .imgLoad rq v => Sys2Proof.Machine.execImgLoad rq v s
  | .imgVerifyDone => Sys2Proof.Machine.execImgVerifyDone s
  | .imgUnload rq v => Sys2Proof.Machine.execImgUnload rq v s
  | .runStart rq v => Sys2Proof.Machine.execRunStart rq v s
  | .runCancel rq tag => Sys2Proof.Machine.execRunCancel rq tag s
  | .runDrainDone c => Sys2Proof.Machine.execRunDrainDone c s
  | .operationComplete c slot src => Sys2Proof.Machine.execOperationComplete c slot src s
  | .runTimeLimit c => Sys2Proof.Machine.execRunTimeLimit c s
  | .handlerGraceExpiry c => Sys2Proof.Machine.execHandlerGraceExpiry c s
  | .alu c => Sys2Proof.Machine.execAlu c s
  | .alui c => Sys2Proof.Machine.execAlui c s
  | .li c => Sys2Proof.Machine.execLi c s
  | .lih c => Sys2Proof.Machine.execLih c s
  | .cmp c => Sys2Proof.Machine.execCmp c s
  | .cmpi c => Sys2Proof.Machine.execCmpi c s
  | .plog c => Sys2Proof.Machine.execPlog c s
  | .br c => Sys2Proof.Machine.execBr c s
  | .jr c => Sys2Proof.Machine.execJr c s
  | .dins c => Sys2Proof.Machine.execDins c s
  | .dext c => Sys2Proof.Machine.execDext c s
  | .openObj c => Sys2Proof.Machine.execOpenObj c s
  | .bind c => Sys2Proof.Machine.execBind c s
  | .drop c => Sys2Proof.Machine.execDrop c s
  | .park c => Sys2Proof.Machine.execPark c s
  | .revive c => Sys2Proof.Machine.execRevive c s
  | .move c => Sys2Proof.Machine.execMove c s
  | .pin c => Sys2Proof.Machine.execPin c s
  | .unpin c => Sys2Proof.Machine.execUnpin c s
  | .hint c => Sys2Proof.Machine.execHint c s
  | .attn c => Sys2Proof.Machine.execAttn c s
  | .attnMerge c => Sys2Proof.Machine.execAttnMerge c s
  | .submit c stepUs pageRate finishUs => Sys2Proof.Machine.execSubmit c stepUs pageRate finishUs s
  | .cancel c => Sys2Proof.Machine.execCancel c s
  | .dispatchKernel c => Sys2Proof.Machine.execDispatchKernel c s
  | .mint c => Sys2Proof.Machine.execMint c s
  | .clearBind c => Sys2Proof.Machine.execClearBind c s
  | .clearUnbind c => Sys2Proof.Machine.execClearUnbind c s
  | .clearMask c => Sys2Proof.Machine.execClearMask c s
  | .clearAdvance c => Sys2Proof.Machine.execClearAdvance c s
  | .sampleConfig c => Sys2Proof.Machine.execSampleConfig c s
  | .sampleProbe c => Sys2Proof.Machine.execSampleProbe c s
  | .changeConfig c => Sys2Proof.Machine.execChangeConfig c s
  | .changeText c => Sys2Proof.Machine.execChangeText c s
  | .search c => Sys2Proof.Machine.execSearch c s
  | .vinsert c => Sys2Proof.Machine.execVinsert c s
  | .vdelete c => Sys2Proof.Machine.execVdelete c s
  | .charge c => Sys2Proof.Machine.execCharge c s
  | .credit c => Sys2Proof.Machine.execCredit c s
  | .rent c => Sys2Proof.Machine.execRent c s
  | .escAcq c => Sys2Proof.Machine.execEscAcq c s
  | .escPub c => Sys2Proof.Machine.execEscPub c s
  | .escRel c => Sys2Proof.Machine.execEscRel c s
  | .stmtBegin c coordSame => Sys2Proof.Machine.execStmtBegin c coordSame s
  | .stmtAdd c => Sys2Proof.Machine.execStmtAdd c s
  | .stmtCommit c => Sys2Proof.Machine.execStmtCommit c s
  | .ld c => Sys2Proof.Machine.execLd c s
  | .st c => Sys2Proof.Machine.execSt c s
  | .amo c => Sys2Proof.Machine.execAmo c s
  | .fenceM c => Sys2Proof.Machine.execFenceM c s
  | .fenceN c => Sys2Proof.Machine.execFenceN c s
  | .fenceD c => Sys2Proof.Machine.execFenceD c s
  | .wait c => Sys2Proof.Machine.execWait c s
  | .waitTimeout c => Sys2Proof.Machine.execWaitTimeout c s
  | .signal c => Sys2Proof.Machine.execSignal c s
  | .yield c => Sys2Proof.Machine.execYield c s
  | .yieldTimeout c => Sys2Proof.Machine.execYieldTimeout c s
  | .trapExit c => Sys2Proof.Machine.execTrapExit c s
  | .brk c => Sys2Proof.Machine.execBrk c s
  | .freeze c => Sys2Proof.Machine.execFreeze c s
  | .indexReuseHoldEnd idx => Sys2Proof.Machine.execIndexReuseHoldEnd idx s
  | .dirRebuild m => Sys2Proof.Machine.execDirRebuild m s
  | .passbookFlashWrite idx => Sys2Proof.Machine.execPassbookFlashWrite idx s
  | .passbookCopyRebuild idx => Sys2Proof.Machine.execPassbookCopyRebuild idx s
  | .parkCommit idx => Sys2Proof.Machine.execParkCommit idx s
  | .reviveLayerResident idx layer remote => Sys2Proof.Machine.execReviveLayerResident idx layer remote s
  | .moveDestinationAnswer idx status aux w1 => Sys2Proof.Machine.execMoveDestinationAnswer idx status aux w1 s
  | .t1Reclaim => Sys2Proof.Machine.execT1Reclaim s
  | .reviveHoldExpiry idx => Sys2Proof.Machine.execReviveHoldExpiry idx s
  | .phaseSwitch rq v => Sys2Proof.Machine.execPhaseSwitch rq v s
  | .phaseTimeLimit => Sys2Proof.Machine.execPhaseTimeLimit s
  | .phaseDone => Sys2Proof.Machine.execPhaseDone s
  | .sessionRebuildDone idx pages => Sys2Proof.Machine.execSessionRebuildDone idx pages s
  | .atq p ctx addr msg => Sys2Proof.Machine.execAtq p ctx addr msg s
  | .kvu p ctx addr msg => Sys2Proof.Machine.execKvu p ctx addr msg s
  | .ldn p msg => Sys2Proof.Machine.execLdn p msg s
  | .lgt p msg => Sys2Proof.Machine.execLgt p msg s
  | .hsv p msg => Sys2Proof.Machine.execHsv p msg s
  | .engineDescriptorExec m meets => Sys2Proof.Machine.execEngineDescriptorExec m meets s
  | .partialMerge pslot stack => Sys2Proof.Machine.execPartialMerge pslot stack s
  | .atrSupplement op => Sys2Proof.Machine.execAtrSupplement op s
  | .modelReg rq v => Sys2Proof.Machine.execModelReg rq v s
  | .modelUnreg rq v => Sys2Proof.Machine.execModelUnreg rq v s
  | .groupCfgWrite rq g v => Sys2Proof.Machine.execGroupCfgWrite rq g v s
  | .stepForm g half baseNs watts cands => Sys2Proof.Machine.execStepForm g half baseNs watts cands s
  | .groupTimeout g half => Sys2Proof.Machine.execGroupTimeout g half s
  | .stepCommit g half => Sys2Proof.Machine.execStepCommit g half s
  | .stepReportSend n => Sys2Proof.Machine.execStepReportSend n s
  | .roleEval model dp dd backlog => Sys2Proof.Machine.execRoleEval model dp dd backlog s
  | .ledgerTick => Sys2Proof.Machine.execLedgerTick s
  | .ctxReportWrite rq n v => Sys2Proof.Machine.execCtxReportWrite rq n v s
  | .tblLoad rq v => Sys2Proof.Machine.execTblLoad rq v s
  | .tblUnload rq v => Sys2Proof.Machine.execTblUnload rq v s
  | .collCreate rq v => Sys2Proof.Machine.execCollCreate rq v s
  | .collDrop rq v => Sys2Proof.Machine.execCollDrop rq v s
  | .collIndexFree coll => Sys2Proof.Machine.execCollIndexFree coll s
  | .vsrCfgWrite rq v => Sys2Proof.Machine.execVsrCfgWrite rq v s
  | .vectorFold coll endUs => Sys2Proof.Machine.execVectorFold coll endUs s
  | .weighPass ch => Sys2Proof.Machine.execWeighPass ch s
  | .assay op => Sys2Proof.Machine.execAssay op s
  | .sketchRebuild coll part page => Sys2Proof.Machine.execSketchRebuild coll part page s
  | .channelNegotiate ch a => Sys2Proof.Machine.execChannelNegotiate ch a s
  | .flashWrite own extent first data till => Sys2Proof.Machine.execFlashWrite own extent first data till s
  | .flashProgramDone id => Sys2Proof.Machine.execFlashProgramDone id s
  | .journalBufferWrite h => Sys2Proof.Machine.execJournalBufferWrite h s
  | .mapCheckpoint => Sys2Proof.Machine.execMapCheckpoint s
  | .flashRead unit d => Sys2Proof.Machine.execFlashRead unit d s
  | .lunFailed ch lun => Sys2Proof.Machine.execLunFailed ch lun s
  | .lunRebuild ch lun => Sys2Proof.Machine.execLunRebuild ch lun s
  | .tillFold => Sys2Proof.Machine.execTillFold s
  | .garbageCollection => Sys2Proof.Machine.execGarbageCollection s
  | .wearLevel => Sys2Proof.Machine.execWearLevel s
  | .readDisturbRefresh sb => Sys2Proof.Machine.execReadDisturbRefresh sb s
  | .retentionScan weak => Sys2Proof.Machine.execRetentionScan weak s
  | .blockReplace ch plane sb erase => Sys2Proof.Machine.execBlockReplace ch plane sb erase s
  | .ordinaryDiscard first n => Sys2Proof.Machine.execOrdinaryDiscard first n s
  | .secureDiscard rq v => Sys2Proof.Machine.execSecureDiscard rq v s
  | .jobCreate rq v granted => Sys2Proof.Machine.execJobCreate rq v granted s
  | .jobDelete rq v => Sys2Proof.Machine.execJobDelete rq v s
  | .restore rq v others remote => Sys2Proof.Machine.execRestore rq v others remote s
  | .jobPeerWrite rq job v granted => Sys2Proof.Machine.execJobPeerWrite rq job v granted s
  | .backgroundCopy job => Sys2Proof.Machine.execBackgroundCopy job s
  | .copyBeforeWrite page => Sys2Proof.Machine.execCopyBeforeWrite page s
  | .cfPage peer tag rank slot seq data tagOk => Sys2Proof.Machine.execCfPage peer tag rank slot seq data tagOk s
  | .cfPageRefusal job seq => Sys2Proof.Machine.execCfPageRefusal job seq s
  | .cfAck job refs => Sys2Proof.Machine.execCfAck job refs s
  | .commitNotice tag rank step part => Sys2Proof.Machine.execCommitNotice tag rank step part s
  | .shapeDigest job step shape => Sys2Proof.Machine.execShapeDigest job step shape s
  | .statementFlush job => Sys2Proof.Machine.execStatementFlush job s
  | .flashCommitNotice tag rank step => Sys2Proof.Machine.execFlashCommitNotice tag rank step s
  | .rollback job step remote => Sys2Proof.Machine.execRollback job step remote s
  | .takeover desc peer step shape shards data => Sys2Proof.Machine.execTakeover desc peer step shape shards data s
  | .regionCreate rq v => Sys2Proof.Machine.execRegionCreate rq v s
  | .regionDelete rq v => Sys2Proof.Machine.execRegionDelete rq v s
  | .regionTemp rq v => Sys2Proof.Machine.execRegionTemp rq v s
  | .cxlMemRead head tag off m => Sys2Proof.Machine.execCxlMemRead head tag off m s
  | .cxlMemWrite head tag off m mask data => Sys2Proof.Machine.execCxlMemWrite head tag off m mask data s
  | .birsp head line shared wb => Sys2Proof.Machine.execBirsp head line shared wb s
  | .mrd p w0 w1 => Sys2Proof.Machine.execMrd p w0 w1 s
  | .mwr p w0 w1 mask data => Sys2Proof.Machine.execMwr p w0 w1 mask data s
  | .mat p w0 w1 operand cmp => Sys2Proof.Machine.execMat p w0 w1 operand cmp s
  | .rca p w0 w1 data => Sys2Proof.Machine.execRca p w0 w1 data s
  | .recallTimeout line a => Sys2Proof.Machine.execRecallTimeout line a s
  | .agentFailed a => Sys2Proof.Machine.execAgentFailed a s
  | .directorySweep h => Sys2Proof.Machine.execDirectorySweep h s
  | .loadLevelUpdate samples => Sys2Proof.Machine.execLoadLevelUpdate samples s
  | .coldGranulePark region g => Sys2Proof.Machine.execColdGranulePark region g s
  | .granuleFaultIn region g => Sys2Proof.Machine.execGranuleFaultIn region g s
  | .mapChangePropose c => Sys2Proof.Machine.execMapChangePropose c s
  | .mapCommit epoch holders => Sys2Proof.Machine.execMapCommit epoch holders s
  | .mapAdopt epoch c => Sys2Proof.Machine.execMapAdopt epoch c s
  | .leaderHeartbeat => Sys2Proof.Machine.execLeaderHeartbeat s
  | .heartbeatReceive leader epoch => Sys2Proof.Machine.execHeartbeatReceive leader epoch s
  | .leaseExpiry => Sys2Proof.Machine.execLeaseExpiry s
  | .suspectExpiry m assign => Sys2Proof.Machine.execSuspectExpiry m assign s
  | .electionTimeout answers => Sys2Proof.Machine.execElectionTimeout answers s
  | .isolateTimeout => Sys2Proof.Machine.execIsolateTimeout s
  | .dfbRegionCreate rq v => Sys2Proof.Machine.execDfbRegionCreate rq v s
  | .dfbRegionDelete rq v => Sys2Proof.Machine.execDfbRegionDelete rq v s
  | .dfbJoin rq v refused => Sys2Proof.Machine.execDfbJoin rq v refused s
  | .dfbLeave rq v => Sys2Proof.Machine.execDfbLeave rq v s
  | .mapCfgWrite rq grant v => Sys2Proof.Machine.execMapCfgWrite rq grant v s
  | .dld h => Sys2Proof.Machine.execDld h s
  | .dst h mask data => Sys2Proof.Machine.execDst h mask data s
  | .dat h operand cmp => Sys2Proof.Machine.execDat h operand cmp s
  | .drs serial epoch status data => Sys2Proof.Machine.execDrs serial epoch status data s
  | .dfw h body => Sys2Proof.Machine.execDfw h body s
  | .dup h sender mask line old => Sys2Proof.Machine.execDup h sender mask line old s
  | .dua holder requester serial => Sys2Proof.Machine.execDua holder requester serial s
  | .domainReqTimeout serial => Sys2Proof.Machine.execDomainReqTimeout serial s
  | .bucketCutover bucket => Sys2Proof.Machine.execBucketCutover bucket s
  | .nonePoisonBacking bucket => Sys2Proof.Machine.execNonePoisonBacking bucket s
  | .t4Revoke => Sys2Proof.Machine.execT4Revoke s
  | .reclaimDeadline peer => Sys2Proof.Machine.execReclaimDeadline peer s
  | .portSignalDetect p => Sys2Proof.Machine.execPortSignalDetect p s
  | .laneLock p widths rates propNs => Sys2Proof.Machine.execLaneLock p widths rates propNs s
  | .trainTimeout p => Sys2Proof.Machine.execTrainTimeout p s
  | .trainRetry p => Sys2Proof.Machine.execTrainRetry p s
  | .capabilityBlock p w0 w1 => Sys2Proof.Machine.execCapabilityBlock p w0 w1 s
  | .keysDone p ok => Sys2Proof.Machine.execKeysDone p ok s
  | .creditAdvert p cells => Sys2Proof.Machine.execCreditAdvert p cells s
  | .retrainTrigger p laneLost => Sys2Proof.Machine.execRetrainTrigger p laneLost s
  | .retrainEnd p ok lanes => Sys2Proof.Machine.execRetrainEnd p ok lanes s
  | .portFailed p => Sys2Proof.Machine.execPortFailed p s
  | .portCfgWrite rq p v => Sys2Proof.Machine.execPortCfgWrite rq p v s
  | .codewordUncorrectable p seq => Sys2Proof.Machine.execCodewordUncorrectable p seq s
  | .retryRequest p seq => Sys2Proof.Machine.execRetryRequest p seq s
  | .ackTimer p => Sys2Proof.Machine.execAckTimer p s
  | .cellAck p seq => Sys2Proof.Machine.execCellAck p seq s
  | .creditReturn p q => Sys2Proof.Machine.execCreditReturn p q s
  | .frameReceive p h payload => Sys2Proof.Machine.execFrameReceive p h payload s
  | .frameTagFail p h => Sys2Proof.Machine.execFrameTagFail p h s
  | .rekeyStart p => Sys2Proof.Machine.execRekeyStart p s
  | .rekeyFrame p epoch answer => Sys2Proof.Machine.execRekeyFrame p epoch answer s
  | .histSelWrite rq v => Sys2Proof.Machine.execHistSelWrite rq v s
  | .gateSwapRequest rq p v => Sys2Proof.Machine.execGateSwapRequest rq p v s
  | .gateSwap p => Sys2Proof.Machine.execGateSwap p s
  | .ctxInstall rq v => Sys2Proof.Machine.execCtxInstall rq v s
  | .ctxRetire rq v => Sys2Proof.Machine.execCtxRetire rq v s
  | .ctxRetireDiscard rq v => Sys2Proof.Machine.execCtxRetireDiscard rq v s
  | .contextSweep n => Sys2Proof.Machine.execContextSweep n s
  | .ownerKeyWrite rq v => Sys2Proof.Machine.execOwnerKeyWrite rq v s
  | .jobkeyLoad rq v => Sys2Proof.Machine.execJobkeyLoad rq v s
  | .fwFloorCommit rq v => Sys2Proof.Machine.execFwFloorCommit rq v s
  | .keyFloorCommit rq v => Sys2Proof.Machine.execKeyFloorCommit rq v s
  | .ctxFloorWrite rq n v => Sys2Proof.Machine.execCtxFloorWrite rq n v s
  | .sinilBind port conn tgt sig => Sys2Proof.Machine.execSinilBind port conn tgt sig s
  | .getVersion t => Sys2Proof.Machine.execGetVersion t s
  | .getCapabilities t minor => Sys2Proof.Machine.execGetCapabilities t minor s
  | .negotiateAlgorithms t extAsym hash dhe aead => Sys2Proof.Machine.execNegotiateAlgorithms t extAsym hash dhe aead s
  | .getDigests t => Sys2Proof.Machine.execGetDigests t s
  | .getCertificate t slot offset len => Sys2Proof.Machine.execGetCertificate t slot offset len s
  | .challenge t slot nonce => Sys2Proof.Machine.execChallenge t slot nonce s
  | .getMeasurements t index signed => Sys2Proof.Machine.execGetMeasurements t index signed s
  | .keyExchange t reqId => Sys2Proof.Machine.execKeyExchange t reqId s
  | .finish t sid ok => Sys2Proof.Machine.execFinish t sid ok s
  | .keyUpdate t sid op => Sys2Proof.Machine.execKeyUpdate t sid op s
  | .heartbeat t sid => Sys2Proof.Machine.execHeartbeat t sid s
  | .endSession t sid => Sys2Proof.Machine.execEndSession t sid s
  | .ideKm t sid head stream selective tdi => Sys2Proof.Machine.execIdeKm t sid head stream selective tdi s
  | .ideIntegrityFail head stream => Sys2Proof.Machine.execIdeIntegrityFail head stream s
  | .lockInterfaceRequest n => Sys2Proof.Machine.execLockInterfaceRequest n s
  | .startInterfaceRequest n => Sys2Proof.Machine.execStartInterfaceRequest n s
  | .stopInterfaceRequest n => Sys2Proof.Machine.execStopInterfaceRequest n s
  | .vsupWarning rackFault => Sys2Proof.Machine.execVsupWarning rackFault s
  | .vsupPowerFail => Sys2Proof.Machine.execVsupPowerFail s
  | .vsupRecovery => Sys2Proof.Machine.execVsupRecovery s
  | .vinReset => Sys2Proof.Machine.execVinReset s
  | .overvoltage => Sys2Proof.Machine.execOvervoltage s
  | .flushDone tier1Us tier2Ms => Sys2Proof.Machine.execFlushDone tier1Us tier2Ms s
  | .tier2Cut written => Sys2Proof.Machine.execTier2Cut written s
  | .resumingDone => Sys2Proof.Machine.execResumingDone s
  | .psuPoll ans => Sys2Proof.Machine.execPsuPoll ans s
  | .bankMeasure currentCa tempC => Sys2Proof.Machine.execBankMeasure currentCa tempC s
  | .bankTestWrite rq v => Sys2Proof.Machine.execBankTestWrite rq v s
  | .bankMeasureRetry currentCa tempC => Sys2Proof.Machine.execBankMeasureRetry currentCa tempC s
  | .budgetRecompute vbankCv => Sys2Proof.Machine.execBudgetRecompute vbankCv s
  | .freezePin low => Sys2Proof.Machine.execFreezePin low s
  | .dbgFreeze rq v => Sys2Proof.Machine.execDbgFreeze rq v s
  | .frzCtrlFreeze => Sys2Proof.Machine.execFrzCtrlFreeze s
  | .frzCtrlRelease elapsedNs => Sys2Proof.Machine.execFrzCtrlRelease elapsedNs s
  | .frzCtrlSelect v => Sys2Proof.Machine.execFrzCtrlSelect v s
  | .frzCtrlReadout => Sys2Proof.Machine.execFrzCtrlReadout s
  | .frzRead n => Sys2Proof.Machine.execFrzRead n s
  | .extest tap => Sys2Proof.Machine.execExtest tap s
  | .idcode tap => Sys2Proof.Machine.execIdcode tap s
  | .samplePreload tap => Sys2Proof.Machine.execSamplePreload tap s
  | .clamp tap => Sys2Proof.Machine.execClamp tap s
  | .highz tap => Sys2Proof.Machine.execHighz tap s
  | .bypass tap code => Sys2Proof.Machine.execBypass tap code s
  | .referenceChange lockA lockB => Sys2Proof.Machine.execReferenceChange lockA lockB s
  | .offsetDiscipline off => Sys2Proof.Machine.execOffsetDiscipline off s
  | .ppsSecond => Sys2Proof.Machine.execPpsSecond s
  | .nodeTimeFrame p => Sys2Proof.Machine.execNodeTimeFrame p s
  | .ptmRequest => Sys2Proof.Machine.execPtmRequest s
  | .domainTimeExchange offset => Sys2Proof.Machine.execDomainTimeExchange offset s
  | .ptpMessage port m => Sys2Proof.Machine.execPtpMessage port m s
  | .powerOnBringup romPass pufOk => Sys2Proof.Machine.execPowerOnBringup romPass pufOk s
  | .firmwareFetch img => Sys2Proof.Machine.execFirmwareFetch img s
  | .bootSourceSilence => Sys2Proof.Machine.execBootSourceSilence s
  | .sinilBootRetry => Sys2Proof.Machine.execSinilBootRetry s
  | .mapReplay lost => Sys2Proof.Machine.execMapReplay lost s
  | .selfTest failed => Sys2Proof.Machine.execSelfTest failed s
  | .serviceOpen => Sys2Proof.Machine.execServiceOpen s
  | .resetPin => Sys2Proof.Machine.execResetPin s
  | .glbResetModule rq v => Sys2Proof.Machine.execGlbResetModule rq v s
  | .glbResetHub rq v => Sys2Proof.Machine.execGlbResetHub rq v s
  | .glbResetClearRepair rq v => Sys2Proof.Machine.execGlbResetClearRepair rq v s
  | .hubReturn h romOk seedOk failed => Sys2Proof.Machine.execHubReturn h romOk seedOk failed s
  | .fwActivate rq v img => Sys2Proof.Machine.execFwActivate rq v img s
  | .liveRestartPause => Sys2Proof.Machine.execLiveRestartPause s
  | .eventNotice b => Sys2Proof.Machine.execEventNotice b s
  | .timNowRead rq frac => Sys2Proof.Machine.execTimNowRead rq frac s
  | .kvaEngErrRead rq m => Sys2Proof.Machine.execKvaEngErrRead rq m s
  | .flsChErrRead rq ch => Sys2Proof.Machine.execFlsChErrRead rq ch s
  | .stmStallMaxRead rq => Sys2Proof.Machine.execStmStallMaxRead rq s
  | .nmcRecallMaxRead rq => Sys2Proof.Machine.execNmcRecallMaxRead rq s
  | .lnkPortErrRead rq p => Sys2Proof.Machine.execLnkPortErrRead rq p s
  | .pwrDirtyMaxRead rq => Sys2Proof.Machine.execPwrDirtyMaxRead rq s
  | .glbAccessErrRead rq => Sys2Proof.Machine.execGlbAccessErrRead rq s
  | .dbgTraceDroppedRead rq => Sys2Proof.Machine.execDbgTraceDroppedRead rq s
  | .tlrEvtWrite rq v => Sys2Proof.Machine.execTlrEvtWrite rq v s
  | .ssnEvtWrite rq v => Sys2Proof.Machine.execSsnEvtWrite rq v s
  | .kvaEvtWrite rq v => Sys2Proof.Machine.execKvaEvtWrite rq v s
  | .schEvtWrite rq v => Sys2Proof.Machine.execSchEvtWrite rq v s
  | .txtEvtWrite rq v => Sys2Proof.Machine.execTxtEvtWrite rq v s
  | .vsrEvtWrite rq v => Sys2Proof.Machine.execVsrEvtWrite rq v s
  | .flsEvtWrite rq v => Sys2Proof.Machine.execFlsEvtWrite rq v s
  | .stmEvtWrite rq v => Sys2Proof.Machine.execStmEvtWrite rq v s
  | .nmcEvtWrite rq v => Sys2Proof.Machine.execNmcEvtWrite rq v s
  | .dfbEvtWrite rq v => Sys2Proof.Machine.execDfbEvtWrite rq v s
  | .lnkEvtWrite rq v => Sys2Proof.Machine.execLnkEvtWrite rq v s
  | .secEvtWrite rq v => Sys2Proof.Machine.execSecEvtWrite rq v s
  | .pwrEvtWrite rq v => Sys2Proof.Machine.execPwrEvtWrite rq v s
  | .glbEvtWrite rq v => Sys2Proof.Machine.execGlbEvtWrite rq v s
  | .timEvtWrite rq v => Sys2Proof.Machine.execTimEvtWrite rq v s
  | .dbgEvtWrite rq v => Sys2Proof.Machine.execDbgEvtWrite rq v s
  | .registerWrite rq acc => Sys2Proof.Machine.execRegisterWrite rq acc s
  | .undefinedEncoding c => Sys2Proof.Machine.execUndefinedEncoding c s
  | .thermalResetRelease tC => Sys2Proof.Machine.execThermalResetRelease tC s
  | .cellReceive p ctl => Sys2Proof.Machine.execCellReceive p ctl s
  | .creditReturnArrival p q n => Sys2Proof.Machine.execCreditReturnArrival p q n s
  | .cellBoundaryService p => Sys2Proof.Machine.execCellBoundaryService p s
  | .queueDepthSample => Sys2Proof.Machine.execQueueDepthSample s
  | .timeErrorLimit errNs => Sys2Proof.Machine.execTimeErrorLimit errNs s
  | .bankMeasurementEnd cMf esr tempC => Sys2Proof.Machine.execBankMeasurementEnd cMf esr tempC s
  | .hostHeadRetrained head => Sys2Proof.Machine.execHostHeadRetrained head s
  | .ingressHoldRelease a => Sys2Proof.Machine.execIngressHoldRelease a s
  | .announceInterval port => Sys2Proof.Machine.execAnnounceInterval port s
  | .moveCopyArrival src ident copy => Sys2Proof.Machine.execMoveCopyArrival src ident copy s
  | .t4RoomRequest peer pages => Sys2Proof.Machine.execT4RoomRequest peer pages s
  | .t4PieceStore peer ident pages => Sys2Proof.Machine.execT4PieceStore peer ident pages s
  | .t4Fetch peer ident => Sys2Proof.Machine.execT4Fetch peer ident s
  | .t4RevocationNotice peer order => Sys2Proof.Machine.execT4RevocationNotice peer order s
  | .counterfoilSlotRequest peer tag rank slotBytes => Sys2Proof.Machine.execCounterfoilSlotRequest peer tag rank slotBytes s
  | .sessionCounterfoilPage peer ident kv layer page data => Sys2Proof.Machine.execSessionCounterfoilPage peer ident kv layer page data s
  | .counterfoilFetch peer tag rank slot => Sys2Proof.Machine.execCounterfoilFetch peer tag rank slot s
  | .memberNoticeArrival tag rank step controller desc shards => Sys2Proof.Machine.execMemberNoticeArrival tag rank step controller desc shards s
  | .voteRequest candidate logLen => Sys2Proof.Machine.execVoteRequest candidate logLen s
  | .logEntryAppend leader epoch c => Sys2Proof.Machine.execLogEntryAppend leader epoch c s
  | .heartbeatAnswer m => Sys2Proof.Machine.execHeartbeatAnswer m s

end Sys2Proof.Machine
end

