-- ==== Sys2Proof/Machine/Step.lean ====
section
/-! DEFINITION. One step: the command in front of the queue is carried out on the state with the queue's rest; without one a nanosecond
passes (log 1). -/

namespace Sys2Proof.Machine

/-- One step of the controller. -/
def step (s : State) : Host.Outcome State Fault Refusal :=
  match s.pending with
  | [] => .next s.tick
  | c :: rest => exec c { s with pending := rest }

/-- `s` with command `c` put in front of its queue. -/
def State.withFront (s : State) (c : Instr) : State := { s with pending := c :: s.pending }

/-- `s` with the command that a word of the table spells in front of its queue. The table gives its rows no bits, so no word spells one and
the state is unchanged (log 92). -/
def State.withFetchWord (s : State) (nbits w : Nat) : State :=
  match Sys2Proof.decodeTableWord nbits w with
  | some c => s.withFront c
  | none => s

end Sys2Proof.Machine
end

