-- ==== Sys2Proof/Safety.lean ====
section
/-! DEFINITION. The terms in which claims about the controller are stated: what it is for a command to complete, when a clerk issues an
instruction, when a register access is let through, and what counts as a safe run. -/

namespace Sys2Proof.Machine

/-! ### Completion -/

/-- Command `c` goes on from `s` to a next state of which `P` holds. -/
def Completes (c : Instr) (s : State) (P : State → Prop) : Prop := ∃ t, exec c s = .next t ∧ P t

/-- A step of the controller neither faults nor refuses. -/
def State.goesOn (s : State) : Prop := ∃ t, step s = .next t

/-- What a safe state keeps: its memory lists strictly rising keys, none of them with the byte an unlisted key reads as. -/
abbrev State.safe (s : State) : Prop := Memory.wf s.mem = true

/-! ### The module as a command finds it -/

/-- The module is not frozen (R375). -/
abbrev State.Live (s : State) : Prop := s.frz.frozen = false

/-- The commands that act on a frozen module (R375 to R378, R390): the power supervisors, the resets, the pins and JTAG, and the references of the
timebase PLL. -/
def actsFrozen (c : Instr) : Bool :=
  match c with
  | .junction115 _ _ | .coreSupervisorReset _ | .thermalResetRelease _ | .vsupWarning _ | .vsupPowerFail | .vsupRecovery | .vinReset | .overvoltage
  | .flushDone _ _ | .tier2Cut _ | .resetPin | .freezePin _ | .frzCtrlFreeze | .frzCtrlRelease _ | .frzCtrlSelect _ | .frzCtrlReadout | .frzRead _
  | .extest _ | .idcode _ | .samplePreload _ | .clamp _ | .highz _ | .bypass _ _ | .referenceChange _ _ => true
  | _ => false

/-- The register window answers a requester: the module is not frozen, and the requester's path is there (R375, R400). -/
abbrev WindowOpen (s : State) (rq : Requester) : Prop := s.frz.frozen = false ∧ s.rqUp rq = true

/-- A write to register `r` instance `i` starts its work: the window answers, the register's hub is in service, and the module is neither in
FLUSH nor in DARK (R400). -/
abbrev WriteOpen (s : State) (rq : Requester) (r : Reg) (i : Nat) : Prop :=
  WindowOpen s rq ∧ s.regReach r i = true ∧ s.flushing = false

/-! ### Instructions of a clerk -/

/-- Clerk `c` can issue its next word, a defined one that `p` accepts and whose guard holds; `ix` is what it sees (R37, R45, R198). -/
abbrev Issues (s : State) (c : Nat) (ix : Ix) (p : Ix → Bool) : Prop :=
  s.issuer c = some ix ∧ ix.legal = true ∧ p ix = true ∧ ix.guard = true

/-- The same for a long instruction that finds a free Receipt slot, `n` (R209). -/
abbrev IssuesLong (s : State) (c : Nat) (ix : Ix) (p : Ix → Bool) (n : Nat) : Prop :=
  Issues s c ix p ∧ pickFree s.freeCtr ix.cl.freeSlots = some n

/-- The SERIAL of the next Receipt of slot `n` (R46). -/
def Ix.nextSerial (ix : Ix) (n : Nat) : Nat := ((ix.cl.slot n).serial + 1) % 2 ^ 30

/-- The state in which a long instruction that took slot `n` goes on (R209 step 2): s[RD] holds the tag, the issue is counted, the pc stands at
the next word, and the slot holds a Receipt of the kind, issued through the handles `hs`. -/
def State.issued (s : State) (ix : Ix) (kind : OpKind) (hs : List Nat) (n : Nat) : State :=
  let sl : Slot := { serial := ix.nextSerial n, occupied := true, complete := false, word0 := 0, word1 := 0, openH := none, via := ix.insts hs,
                     op := kind, result := none, cancel := none }
  let cl := (ix.cl.setSlot n sl).setS (wRD ix.w) (rcptTag ix.c n (ix.nextSerial n))
  (s.bump.setClerk ix.c { cl with pc := cl.pc + 8 }).count .tlrClkRcptIss ix.c 1

/-- Clerk `c` has taken Receipt slot `n` for its long instruction: the slot is occupied under the next SERIAL, s[RD] holds the tag and the pc
stands at the next word (R46, R209). -/
abbrev ReceiptTaken (c : Nat) (ix : Ix) (n : Nat) (t : State) : Prop :=
  ((t.clerk c).slot n).occupied = true ∧ ((t.clerk c).slot n).serial = ix.nextSerial n ∧
  (wRD ix.w ≠ 0 → (t.clerk c).s (wRD ix.w) = rcptTag c n (ix.nextSerial n)) ∧ (t.clerk c).pc = ix.cl.pc + 8

/-- Clerk `c` issues a long instruction through h[H] that finds slot `n` free and whose handle passes the check of R39 for the types and the
right given (R209 steps 2 and 3). -/
abbrev IssuesOn (s : State) (c : Nat) (ix : Ix) (p : Ix → Bool) (n : Nat) (tys : List Nat) (need : Nat) : Prop :=
  IssuesLong s c ix p n ∧ s.checkHandle ix.run.ctx (ix.cl.h (wH ix.w)) tys need = none

/-- The session that h[H] names. -/
def Ix.sessIx (ix : Ix) : Nat := ssnIndex (hObj (ix.cl.h (wH ix.w)))

/-- The operation that holds slot `n` of clerk `c`. -/
def Ix.op (ix : Ix) (c n : Nat) : Op := ⟨ix, ⟨c, n, ix.nextSerial n⟩⟩

/-- The result a clerk's Receipt slot will deliver. -/
def State.slotResult (s : State) (c n : Nat) : Option (Word × Word) := ((s.clerk c).slot n).result

/-- The words of a completed Receipt slot. -/
abbrev State.receiptHolds (s : State) (c n : Nat) (w0 w1 : Word) : Prop :=
  ((s.clerk c).slot n).complete = true ∧ ((s.clerk c).slot n).word0 = w0 ∧ ((s.clerk c).slot n).word1 = w1

/-- Scalar register `rd` of clerk `c` receives `v`, s0 excepted; the pc moves to the next word; no other register of the clerk, no other
clerk and nothing else changes. -/
def ScalarWritten (c : Nat) (ix : Ix) (rd : Nat) (v : Word) (s t : State) : Prop :=
  (∀ i, (t.clerk c).s i = if i = rd ∧ rd ≠ 0 then v else ix.cl.s i) ∧
  t.clerk c = { ix.cl with sreg := (t.clerk c).sreg, pc := ix.cl.pc + 8 } ∧
  (∀ d, d ≠ c → t.clerk d = s.clerk d) ∧
  t = { s with tlr := { s.tlr with clerks := t.tlr.clerks } }

/-- The same for a predicate `pd`, p0 excepted. -/
def PredWritten (c : Nat) (ix : Ix) (pd : Nat) (b : Bool) (s t : State) : Prop :=
  (∀ i, (t.clerk c).p i = if i = pd ∧ pd ≠ 0 then b else ix.cl.p i) ∧
  t.clerk c = { ix.cl with preg := (t.clerk c).preg, pc := ix.cl.pc + 8 } ∧
  (∀ d, d ≠ c → t.clerk d = s.clerk d) ∧
  t = { s with tlr := { s.tlr with clerks := t.tlr.clerks } }

/-- A jump of clerk `c` to `pc`, with the next word's address in scalar register `rl`, s0 excepted. -/
def Jumped (c : Nat) (ix : Ix) (rl : Nat) (pc : Word) (s t : State) : Prop :=
  (∀ i, (t.clerk c).s i = if i = rl ∧ rl ≠ 0 then ix.cl.pc + 8 else ix.cl.s i) ∧
  t.clerk c = { ix.cl with sreg := (t.clerk c).sreg, pc := pc } ∧
  (∀ d, d ≠ c → t.clerk d = s.clerk d) ∧
  t = { s with tlr := { s.tlr with clerks := t.tlr.clerks } }

/-- The run of clerk `c` has ended and drains (R49, R51): its completion record will hold `cause`, the exit value, the class and code of a trap
and its pc. -/
abbrev RunEnds (c : Nat) (ix : Ix) (cause cls code : Nat) (exit pc : Word) (t : State) : Prop :=
  (t.clerk c).st = .draining ∧
  ((t.clerk c).run.map (fun r => (r.tag, r.ending))) =
    some (ix.run.tag, some ⟨ix.run.tag, exit, cause, cls, code, 0, pc⟩)

/-- The trap record of clerk `c` (R55): class, code and pc, and the address. -/
abbrev TrapRecorded (c cls code : Nat) (pc addr : Word) (t : State) : Prop :=
  t.rd .tlrClkTrap c = BitVec.ofNat 64 (cls + code % 2 ^ 16 * 2 ^ 8 + pc.toNat % 2 ^ 40 * 2 ^ 24) ∧ t.rd .tlrClkTrapAddr c = addr

/-- The trap entry of the run's image takes over on clerk `c` (R56): s1 to s4 hold the class, the code, the pc and the address, HANDLER is set
and the pc is ENTRY[15]. -/
abbrev HandlerStarts (c : Nat) (ix : Ix) (cls code : Nat) (pc addr : Word) (t : State) : Prop :=
  (t.clerk c).st = .ready ∧ (t.clerk c).handler = true ∧ (t.clerk c).pc = BitVec.ofNat 64 (ix.img.entries.getD 15 0) ∧
  (t.clerk c).s 1 = BitVec.ofNat 64 cls ∧ (t.clerk c).s 2 = BitVec.ofNat 64 code ∧ (t.clerk c).s 3 = pc ∧ (t.clerk c).s 4 = addr

/-! ### Memory -/

/-- No codeword that `n` bytes from a key touch is poisoned or has more than one symbol in error (R20 to R22). -/
def State.CleanAt (s : State) (key n : Nat) : Prop := ∀ cw ∈ cwsOf key n, s.poison.contains cw = false ∧ s.badSyms.lookD cw 0 ≤ 1

/-- The LD, ST or AMO of `ix` reaches memory at `key`: aligned bytes of a granule mapped in its context, or of the clerk's own stack (R41, R42,
R206). -/
def PrivateAccess (s : State) (ix : Ix) (key : Nat) : Prop :=
  ∃ off, spaceOf ix.addr.toNat = some (0, off) ∧ ix.belowBase off = false ∧ off % ix.memBytes = 0 ∧
    ((touchesStacks off ix.memBytes = false ∧ s.granuleKey ix.run.ctx off = some key ∧
      (s.granuleKey ix.run.ctx (off + ix.memBytes - 1)).isSome = true) ∨
     (touchesStacks off ix.memBytes = true ∧ inOwnStack ix.c off ix.memBytes = true ∧ key = keyStack (off - stackWindow)))

/-! ### Node memory -/

/-- A request of agent `a` passes ingress at once, and nothing else of the window waits to go on (R276, R283, R257). -/
def State.ingressOpen (s : State) (a : Nat) (q : NReq) : Prop :=
  s.nmc.held.lookD a [] = [] ∧ s.covers a q = true ∧ q.ordered = false ∧ s.nmc.ordered = [] ∧
  s.stm.jobs.any (fun _ x => !x.adds.isEmpty) = false

/-- The line of a request can be accessed at once: R273 allows it, its granule is in DRAM, no agent holds it, the directory has room, no
Statement protects it, and its codeword reads well (R22, R260, R278, R285). -/
def State.lineFree (s : State) (q : NReq) : Prop :=
  s.nmcAllowed q = true ∧ (s.regionAt q.off).all (fun r => !(s.nmc.parked.has (r.1, q.off / 65536 - r.2.base))) = true ∧
  s.nmc.dir.look q.line = none ∧ s.evictWay q.line = none ∧ s.protectedAt (keyNode q.off) = [] ∧ s.CleanAt (keyNode q.off) 64

/-- A node-port request with header `w0`, `w1` of type `ty` is taken: its port is in service, the header keeps R277 and its tag is free. -/
def State.portTakes (s : State) (p ty : Nat) (w0 w1 : Word) : Prop :=
  p < 8 ∧ s.agentSt (p + 2) = 1 ∧ bits w0.toNat 0 8 = ty ∧ mhOk w0 w1 = true ∧
  s.nmc.openTags.any (fun t => decide (t.1 = p) && decide (t.2.1 = mhTag w0)) = false ∧
  (s.nmc.openTags.filter (fun t => decide (t.1 = p))).length < 8192

/-- The request it becomes. -/
def State.portReqOf (s : State) (p : Nat) (w0 w1 : Word) (op : NOp) : NReq := ⟨.port p (mhTag w0), op, mhAddr w1, s.nmc.serial, bit w0.toNat 31⟩

/-! ### The domain -/

/-- This controller follows a leader it knows: what it proposes goes there (R290). -/
abbrev State.Follows (s : State) : Prop := s.dfb.leading = false ∧ s.fld Fld.dfbStatus_leaderValid 0 = 1

/-- A request with header `h` finds its line whole here: this controller is in the domain and has adopted the request's epoch, the address lies
in region `r` of the request's tenant, its bucket `k` has its home here, the key is not that of an answered one, and the line's codeword reads well
(Table 12-7, R293, R302). -/
def State.domHere (s : State) (h : DHdr) (r : DomRegion) (k : Nat) : Prop :=
  s.domUp = true ∧ s.dmap.members.has s.self = true ∧ h.epoch ≤ s.dmap.epoch ∧ (s.dmap.regionAt h.addr).map (·.2) = some r ∧ h.tenant = r.tenant ∧
  k = (domPlace r.protect h.addr).2 ∧ s.dmap.home k = s.self ∧ h.resent = false ∧ s.domLine r k (h.addr / 64) = .whole ∧
  s.CleanAt (keyDom (h.addr / 64 * 64)) 64 ∧ s.dfb.answers = [] ∧ h.requester ≠ s.self

/-- A write to that line stores at once: it is not the version line, its frame is backed, and no other member keeps a copy of it (R292, R293,
R297). -/
def State.domAlone (s : State) (h : DHdr) (r : DomRegion) (k : Nat) : Prop :=
  h.addr / 64 * 64 ≠ versionOff r ∧ s.dfb.frames.contains (h.addr / 65536) = true ∧ (s.dmap.bucket k).st ≠ 1 ∧
  (s.dmap.copyOf r.protect k).all (fun i => !(s.dmap.members.has i) || decide (i = s.self)) = true

/-! ### Registers -/

/-- Every register but those listed holds what it held. -/
def RegsKept (l : List (Reg × Nat)) (s t : State) : Prop := ∀ r i, (r, i) ∉ l → t.rd r i = s.rd r i

/-- What an RW register holds after `v` is written: the defined bits of `v`, the others as before (R397). -/
def State.definedBits (s : State) (r : Reg) (i : Nat) (v : Word) : Word :=
  (s.rd r i &&& ~~~(BitVec.ofNat 64 r.spec.mask)) ||| (v &&& BitVec.ofNat 64 r.spec.mask)

/-- A read of the read-to-clear register `r` instance `i` is answered with what it held, and leaves it zero; nothing else changes (R399). The
counter of free values advances at every read. -/
def ReadAndCleared (rq : Requester) (r : Reg) (i : Nat) (s t : State) : Prop :=
  t.out = s.out ++ [.regAnswer rq false (s.rd r i)] ∧ t.rd r i = 0 ∧ RegsKept [(r, i)] s t ∧
  t = { s with regs := t.regs, out := t.out, freeCtr := s.freeCtr + 1 }

/-- The bits of event register `r` written as 1 are cleared, the others keep their value, and nothing else changes (R399). -/
def BitsCleared (r : Reg) (v : Word) (s t : State) : Prop :=
  t.rd r 0 = s.rd r 0 &&& ~~~v ∧ RegsKept [(r, 0)] s t ∧ t = { s with regs := t.regs }

/-- An access is discarded and counted (R396): the requester is answered DENIED, `GLB_ACCESS_ERR` counts, saturating, and holds the offset and
the cause. -/
def Discarded (rq : Requester) (off cause : Nat) (s t : State) : Prop :=
  t.out = s.out ++ [.regAnswer rq true 0] ∧
  (t.rd .glbAccessErr 0).toNat =
    min ((s.rd .glbAccessErr 0).toNat % 2 ^ 32 + 1) (2 ^ 32 - 1) + off % 2 ^ 30 * 2 ^ 32 + cause % 4 * 2 ^ 62 ∧
  RegsKept [(.glbAccessErr, 0), (.glbEvt, 0)] s t ∧
  t = { s with regs := t.regs, latches := t.latches, out := t.out }

/-- Every byte of memory outside `n` bytes from key `a` reads as before. -/
def BytesKept (a n : Nat) (s t : State) : Prop := ∀ k, (k < a ∨ a + n ≤ k) → memRead t.mem k = memRead s.mem k

end Sys2Proof.Machine
end

