-- ==== Sys2Proof/Certificates/Slice0/Obligations.lean ====
section
/-! DEFINITION. The statements about the controller, one `Prop` each; OBLIGATIONS.json says which rule each one comes from. -/

open Sys2Proof Sys2Proof.Machine

/-- For every command c, every queue rest and every state whose queue is c followed by rest, the step is exec of c on that state with the rest
as its queue. The queue is the model's own (log 1). -/
def Obligations.StepRunsFrontCommand : Prop :=
  ∀ (c : Instr) (rest : List Instr) (s : State),
    step { s with pending := c :: rest } = exec c { s with pending := rest }

/-- With an empty queue a step always goes on: run time advances by 1 ns while the module is live, memory, clerks, sessions and flash stay as
they were, and a frozen module stays exactly as it was. That idling takes one nanosecond is the model's choice (log 1). -/
def Obligations.IdleStepPassesOneNanosecond : Prop :=
  (∀ (s : State),
     s.pending = [] →
     s.Live →
     ∃ t, step s = .next t ∧ t.now = s.now + 1 ∧ t.mem = s.mem ∧ t.tlr = s.tlr ∧ t.ssn = s.ssn ∧ t.fls = s.fls ∧ t.pending = []) ∧
  (∀ (s : State),
     s.pending = [] →
     s.frz.frozen = true →
     step s = .next s)

/-- The identification and version words, and the configuration registers of the blocks, hold the reset values of their tables; ports have
their kind's PORT_CFG; event registers, masks and the access-error count are 0; memory is in its canonical form; the queue is empty, the
module is live, in NORMAL, and no hub is in service before bring-up. -/
def Obligations.ResetHoldsTheStatedValues : Prop :=
  (∀ p ∈ [(Reg.glbIdent, 0x1482456B01004824), (.glbVersion, 0x30203000300), (.timCfg, 0x645), (.timPtpCfg, 0x2020300), (.ssnParkCfg, 0x7D0), (.ssnReviveCfg, 0x191064), (.ssnPlaceCfg, 0xA195A5F25824040), (.schStepCfg, 0x109C40061A8), (.schPlanCfg, 0x10000198000100), (.flsCfg, 0x610104020704), (.flsGcCfg, 0x1914324B19020514), (.nmcWindow, 0x20), (.dfbCfg, 0xC800), (.lnkCfg, 0x30E10), (.lnkClassMap, 0xCBA9876543), (.pwrChgCfg, 0x180100C81450), (.pwrHoldCfg, 0x9603500DAC), (.pwrBankLimit, 0x12C00003E80)], State.reset.rd p.1 0 = (p.2 : Word)) ∧
      (∀ p ∈ [(0, 0x81), (7, 0x81), (8, 0x41), (19, 0x41), (20, 0x11), (21, 0x11)], State.reset.rd .lnkPortCfg p.1 = (p.2 : Word)) ∧
      (∀ b, b < 16 → State.reset.rd .glbEvtMask b = 0) ∧ State.reset.rd .glbAccessErr 0 = 0 ∧ State.reset.safe ∧ State.reset.pending = [] ∧
      State.reset.Live ∧ State.reset.pwrSt = 0 ∧ State.reset.hubsUp = []

/-- The table of operations gives its rows no bits: decodeTableWord answers none for every word and length, and withFetchWord leaves the state
as it is (log 92). -/
def Obligations.NoWordSpellsACommand : Prop :=
  ∀ (nbits w : Nat) (s : State),
    Sys2Proof.decodeTableWord nbits w = none ∧ s.withFetchWord nbits w = s

/-- For every command and every state, exec answers a next state; and every step goes on. What the spec refuses it refuses with an answer, a
Receipt, a status or a trap. An event whose precondition does not hold changes nothing, which is the model's choice (log 93). -/
def Obligations.EveryCommandGoesOn : Prop :=
  (∀ (c : Instr) (s : State),
     ∃ t, exec c s = .next t) ∧
  (∀ (s : State),
     s.goesOn)

/-- While the module is frozen, a command other than the power supervisors', the resets', the pins', JTAG's and the references' leaves the
whole state as it was. So from any frozen state whose waiting commands are all ordinary ones, after any number of steps at least as great
as the queue's length, the state is the first one with an empty queue: nothing else of it has changed. -/
def Obligations.FrozenModuleHoldsStill : Prop :=
  (∀ (c : Instr) (s : State),
     s.frz.frozen = true →
     actsFrozen c = false →
     exec c s = .next s) ∧
  (∀ (n : Nat) (s : State),
     s.frz.frozen = true →
     (s.pending.all (fun c => !(actsFrozen c)) = true) →
     s.pending.length ≤ n →
     Sys2Proof.core.run n s = .next { s with pending := [] })

/-- From every state whose memory lists strictly rising keys, none with the byte an unlisted key reads as, every step gives a state whose
memory has that form: no store, copy, placement, atomic, sweep, flush or reset breaks it, so that equal memories stay equal data. -/
def Obligations.MemoryStaysCanonical : Prop :=
  ∀ (s t : State),
    s.safe →
    step s = .next t →
    t.safe

/-- A frame whose tag fails for the first time is discarded, no message and no stream takes its bytes, and its cells are requested again; a
second tag failure on the same frame sets AUTH_FAIL and takes the port to RETRAIN; that retrain, when it succeeds, leads to KEYS. -/
def Obligations.TagFailureRetriesThenRekeys : Prop :=
  (∀ (p : Nat) (h : FrameHdr) (s : State),
     s.Live →
     (s.portSt p = 5 ∧ (s.port p).tagFails.contains (h.queue, h.msg, h.offset) = false) →
     Completes (.frameTagFail p h) s fun t => t.out = s.out ++ [.retryCell p (((s.port p).seqRx + 8192 - frameCells h.len) % 8192)] ∧
         (t.port p).rx = (s.port p).rx ∧ (t.port p).tagFails.contains (h.queue, h.msg, h.offset) = true ∧ t.portSt p = 5) ∧
  (∀ (p : Nat) (h : FrameHdr) (s : State),
     s.Live →
     (s.portSt p = 5 ∧ (s.port p).tagFails.contains (h.queue, h.msg, h.offset) = true) →
     Completes (.frameTagFail p h) s fun t => t.portSt p = 6 ∧ (t.port p).rekeys = true ∧ bit (t.rd .lnkEvt 0).toNat Evt.lnk_authFail.bit = true ∧
         t.out = s.out ∧ (t.port p).rx = (s.port p).rx) ∧
  (∀ (p lanes : Nat) (s : State),
     s.Live →
     (s.portSt p = 6 ∧ (s.port p).rekeys = true) →
     ((portWidths p).contains lanes = true ∧ s.minLanes p ≤ lanes ∧ s.now ≤ (s.port p).since + 5000000) →
     Completes (.retrainEnd p true lanes) s fun t => t.portSt p = 3)

/-- When a measurement ends with C below C_MIN or ESR above ESR_MAX, BANK_AGED is set; with whatever result, the budget from then on is
computed from the C and ESR just measured, and every later recomputation keeps to them. -/
def Obligations.AgedBankIsReportedAndStillCounts : Prop :=
  (∀ (c esr tc : Nat) (s : State),
     s.Live →
     (s.pwr.measuring = true ∧ c < 2 ^ 32 ∧ esr < 2 ^ 16) →
     Completes (.bankMeasurementEnd c esr tc) s fun t =>
         (c < s.fld Fld.pwrBankLimit_cMin 0 ∨ s.fld Fld.pwrBankLimit_esrMax 0 < esr → bit (t.rd .pwrEvt 0).toNat Evt.pwr_bankAged.bit = true) ∧
         t.bankCE = (c, esr) ∧ t.rd .pwrBudget 0 = BitVec.ofNat 64 (t.budgetAt t.pwr.vbank)) ∧
  (∀ (v : Nat) (s : State),
     s.Live →
     s.pwr.measured = true →
     Completes (.budgetRecompute v) s fun t => t.bankCE = s.bankCE ∧ t.bankCE = (bits (s.rd .pwrBank 0).toNat 0 32, s.fld Fld.pwrBank_esr 0) ∧
         t.rd .pwrBudget 0 = BitVec.ofNat 64 (t.budgetAt t.pwr.vbank))

/-- While the module is not frozen: a hub-to-stack link that fails is recorded and told outside, nothing else changes; a hub-to-hub link that
fails is recorded, and a hub with two failed links is no longer in service; a hub in service that misses its heartbeats is declared, and
within the containment it is failed and GLB_EVT.HUB_FAILED is set; a stack taken offline is out of service; a lane or a row repair is
counted in the repair record of the stack, as long as fewer than 16 are used; a retired layer is in the record. A patrol read of a
codeword with one symbol in error, or a clean one, leaves it without error and memory as it was. -/
def Obligations.HubsAndStacksFail : Prop :=
  (∀ (m : Nat) (s : State),
     s.Live →
     s.stackUp m = true →
     s.arch.stackLinksDown.contains m = false →
     Completes (.linkHandshakeTimeout (.stack m)) s fun t =>
         t.arch.stackLinksDown = m :: s.arch.stackLinksDown ∧ t.out = s.out ++ [.linkFail (.stack m)] ∧
         t = { s with arch := { s.arch with stackLinksDown := t.arch.stackLinksDown }, out := t.out }) ∧
  (∀ (a b : Nat) (s : State),
     s.Live →
     a < b →
     (s.hubUp a = true ∧ s.hubUp b = true) →
     s.arch.linksDown = [] →
     Completes (.linkHandshakeTimeout (.d2d a b)) s fun t =>
         t.arch.linksDown = [((a, b), s.hubsUp.find? (fun h => decide (h ≠ a) && decide (h ≠ b)))] ∧
         t.out = s.out ++ [.linkFail (.d2d a b)] ∧ t.hubUp a = true ∧ t.hubUp b = true ∧ t.mem = s.mem) ∧
  (∀ (a b : Nat) (s : State) (k : Nat × Nat) (v : Option Nat),
     s.Live →
     a < b →
     (s.hubUp a = true ∧ s.hubUp b = true) →
     s.arch.linksDown = [(k, v)] →
     (k ≠ (a, b) ∧ k.1 = a) →
     Completes (.linkHandshakeTimeout (.d2d a b)) s fun t => t.hubUp a = false ∧ t.out = s.out ++ [.linkFail (.d2d a b)]) ∧
  (∀ (h : Nat) (s : State),
     s.Live →
     s.hubUp h = true →
     Completes (.hubHeartbeatMiss h) s fun t =>
         t.arch.hubs.lookD h .held = .declared ∧ (∀ k, k ≠ h → t.hubUp k = s.hubUp k) ∧
         RegsKept [(.glbStatus, 0)] s t ∧ t = { s with arch := t.arch, regs := t.regs }) ∧
  (∀ (h : Nat) (s : State),
     s.Live →
     h < 4 →
     s.arch.hubs.lookD h .held = .declared →
     Completes (.hubDeclaredFailed h) s fun t => t.arch.hubs.lookD h .held = .failed ∧ bit (t.rd .glbEvt 0).toNat Evt.glb_hubFailed.bit = true ∧
         t.mem = s.mem) ∧
  (∀ (m : Nat) (s : State),
     s.Live →
     s.stackUp m = true →
     Completes (.stackTakenOffline m) s fun t => t.stackUp m = false ∧ t.arch.stacksOff.contains m = true ∧ t.mem = s.mem) ∧
  (∀ (key : Nat) (s : State),
     s.Live →
     s.poison.contains (cwOf key) = false →
     s.badSyms.lookD (cwOf key) 0 ≤ 1 →
     Completes (.patrolScrub key) s fun t => t.badSyms.lookD (cwOf key) 0 = 0 ∧ t.mem = s.mem ∧
         (∀ cw, cw ≠ cwOf key → t.badSyms.lookD cw 0 = s.badSyms.lookD cw 0) ∧
         t = { s with badSyms := t.badSyms, poison := t.poison }) ∧
  (∀ (m layer bank : Nat) (frames : List Nat) (s : State),
     s.Live →
     s.stackUp m = true →
     (s.repair m).rows.lookD (layer, bank) 0 < 16 →
     Completes (.rowSpareCopy m layer bank frames) s fun t =>
         (t.repair m).rows.lookD (layer, bank) 0 = (s.repair m).rows.lookD (layer, bank) 0 + 1 ∧ (t.repair m).frames = (s.repair m).frames ∧
         t = { s with arch := t.arch, sec := t.sec }) ∧
  (∀ (m : Nat) (s : State),
     s.Live →
     s.stackUp m = true →
     (s.repair m).lanes < 16 →
     Completes (.tsvLaneRemap m) s fun t => (t.repair m).lanes = (s.repair m).lanes + 1 ∧ t.stackUp m = true ∧
         t = { s with arch := t.arch, sec := t.sec }) ∧
  (∀ (m : Nat) (s : State),
     s.Live →
     s.stackUp m = true →
     16 ≤ (s.repair m).lanes →
     Completes (.tsvLaneRemap m) s fun t => t.stackUp m = false) ∧
  (∀ (m layer : Nat) (frames : List Nat) (s : State),
     s.Live →
     s.stackUp m = true →
     (s.repair m).layers.contains layer = false →
     Completes (.layerRetire m layer frames) s fun t => (t.repair m).layers = layer :: (s.repair m).layers ∧
         t.stackUp m = (s.repair m).layers.isEmpty)

/-- A pace sample of an instance in service is published in GLB_PACE, and GLB_PACE_MIN holds the least of its samples of the last 1 ms; one
out of service reads 0 in both. A junction above 105 °C, or core voltage below 0.62 V outside standby, sets CORNER_EXCEEDED and the event
and cuts admission; with every junction below 100 °C and at least 0.62 V it is clear again. A junction at 115 °C in NORMAL starts FLUSH
with a thermal reset to follow. Core voltage below 0.50 V outside FLUSH resets the module: its clock and registers are those of reset, the
MRAM stays. Standby is entered when nothing is outstanding and left at 0.62 V or more. -/
def Obligations.CornersAndVoltages : Prop :=
  (∀ (n v : Nat) (s : State),
     s.Live →
     n < 466 →
     s.paceUp n = true →
     v < 2 ^ 48 →
     Completes (.paceSample n v) s fun t => (t.rd .glbPace n).toNat = v ∧
         (∀ p ∈ s.arch.pace.lookD n [], s.now < p.1 + 1000000 → (t.rd .glbPaceMin n).toNat ≤ p.2) ∧ (t.rd .glbPaceMin n).toNat ≤ v ∧
         RegsKept [(.glbPace, n), (.glbPaceMin, n)] s t ∧ t = { s with arch := t.arch, regs := t.regs }) ∧
  (∀ (n v : Nat) (s : State),
     s.Live →
     n < 466 →
     s.paceUp n = false →
     Completes (.paceSample n v) s fun t => t.rd .glbPace n = 0 ∧ t.rd .glbPaceMin n = 0) ∧
  (∀ (h tC : Nat) (s : State),
     s.Live →
     105 < tC →
     Completes (.junctionAbove105 h tC) s fun t => t.fld Fld.glbStatus_cornerExceeded 0 = 1 ∧ t.arch.cut = true ∧
         t.rd .glbEvt 0 = s.rd .glbEvt 0 ||| BitVec.ofNat 64 (2 ^ Evt.glb_cornerExceeded.bit) ∧
         RegsKept [(.glbStatus, 0), (.glbEvt, 0)] s t ∧ t = { s with arch := { s.arch with cut := true }, regs := t.regs, latches := t.latches }) ∧
  (∀ (mv : Nat) (tC : List Nat) (s : State),
     s.Live →
     (620 ≤ mv ∧ mv < 65536) →
     (∀ x ∈ tC, x < 100) →
     s.arch.standby = false →
     Completes (.cornerRecovered mv tC) s fun t => t.fld Fld.glbStatus_cornerExceeded 0 = 0 ∧ t.arch.cut = false ∧
         t.fld ⟨.glbCore, 0, 16⟩ 0 = mv ∧ t = { s with arch := { s.arch with cut := false }, regs := t.regs }) ∧
  (∀ (h tC : Nat) (s : State),
     115 ≤ tC →
     s.pwrSt ≤ 1 →
     Completes (.junction115 h tC) s fun t => t.pwrSt = 2 ∧ t.pwr.pendingReset = some .thermal ∧ t.mem = s.mem) ∧
  (∀ (h tC : Nat) (s : State),
     115 ≤ tC →
     s.pwrSt = 2 →
     Completes (.junction115 h tC) s fun t => t = { s with pwr := { s.pwr with pendingReset := some .thermal } }) ∧
  (∀ (mv : Nat) (s : State),
     s.Live →
     mv < 620 →
     s.arch.standby = false →
     Completes (.coreVoltageLow mv) s fun t => t.fld Fld.glbStatus_cornerExceeded 0 = 1 ∧ t.arch.cut = true ∧
         t.fld ⟨.glbCore, 0, 16⟩ 0 = mv ∧ t = { s with arch := { s.arch with cut := true }, regs := t.regs, latches := t.latches }) ∧
  (∀ (mv : Nat) (s : State),
     mv < 500 →
     s.pwrSt ≠ 2 →
     Completes (.coreSupervisorReset mv) s fun t => t.now = 0 ∧ t.mem = State.reset.mem ∧ t.tlr = State.reset.tlr ∧ t.ssn = State.reset.ssn ∧
         t.arch.hubs = State.reset.arch.hubs ∧ t.sec.mram = s.sec.mram ∧ t.pending = s.pending ∧ t.out = s.out ∧
         RegsKept [(.nmcWindow, 0), (.ssnKvPool, 0), (.dfbCfg, 0)] State.reset t) ∧
  (∀ (mv : Nat) (s : State),
     s.Live →
     s.quiet = true →
     s.pwrSt = 0 →
     (550 ≤ mv ∧ mv ≤ 850) →
     Completes (.standbyEntry mv) s fun t => t.arch.standby = true ∧ t.fld ⟨.glbCore, 0, 16⟩ 0 = mv ∧ RegsKept [(.glbCore, 0)] s t ∧
         t = { s with arch := { s.arch with standby := true }, regs := t.regs }) ∧
  (∀ (mv : Nat) (s : State),
     s.Live →
     s.arch.standby = true →
     (620 ≤ mv ∧ mv ≤ 850) →
     Completes (.standbyExit mv) s fun t => t.arch.standby = false ∧ t.fld ⟨.glbCore, 0, 16⟩ 0 = mv ∧ RegsKept [(.glbCore, 0)] s t ∧
         t = { s with arch := { s.arch with standby := false }, regs := t.regs })

/-- A write of TLR_IMG_LOAD that starts its work appends the staged bytes to the loads under verification and shows STATE 1 and the slot in
TLR_IMG_STATUS, and nothing else changes. The end of a verification whose checks all pass puts the image into its slot, shows its IMAGE_ID
there and STATE 2, and answers OK; one that fails check k (1 to 9) leaves every slot as it was, shows STATE 3 with REASON k and answers
NO_SPACE for 9 and DENIED otherwise. A write of TLR_IMG_UNLOAD by a requester of the image's context leaves the slot free or draining, and
no other slot changes. -/
def Obligations.ImagesLoadAndUnload : Prop :=
  (∀ (rq : Requester) (v : Word) (s : State),
     WriteOpen s rq .tlrImgLoad 0 →
     Completes (.imgLoad rq v) s fun t =>
         t.tlr.loads = s.tlr.loads ++ [⟨bits v.toNat 0 6, s.stagedImage (v.toNat - bits v.toNat 0 6), rq⟩] ∧
         t.rd .tlrImgStatus 0 = BitVec.ofNat 64 (1 + bits v.toNat 0 6 * 4) ∧ RegsKept [(.tlrImgStatus, 0)] s t ∧
         t = { s with regs := t.regs, tlr := { s.tlr with loads := t.tlr.loads } }) ∧
  (∀ (s : State) (l : ImgLoad) (rest : List ImgLoad),
     s.Live →
     s.tlr.loads = l :: rest →
     s.imageCheck l = 0 →
     Completes .imgVerifyDone s fun t =>
         t.tlr.loads = rest ∧ t.tlr.images.look l.slot = some (s.imageOf l) ∧
         (∀ k, k ≠ l.slot → t.tlr.images.look k = s.tlr.images.look k) ∧
         t.rd .tlrImgSlot l.slot = (s.imageOf l).ident ∧ t.rd .tlrImgStatus 0 = BitVec.ofNat 64 (2 + l.slot % 64 * 4) ∧
         t.out = s.out ++ [.loadAnswer l.requester l.slot 0] ∧ t.mem = s.mem) ∧
  (∀ (s : State) (l : ImgLoad) (rest : List ImgLoad),
     s.Live →
     s.tlr.loads = l :: rest →
     s.imageCheck l ≠ 0 →
     Completes .imgVerifyDone s fun t =>
         t.tlr.loads = rest ∧ t.tlr.images = s.tlr.images ∧
         t.rd .tlrImgStatus 0 = BitVec.ofNat 64 (3 + l.slot % 64 * 4 + s.imageCheck l * 256) ∧
         t.out = s.out ++ [.loadAnswer l.requester l.slot (if s.imageCheck l = 9 then 0x0010 else 0x0040)] ∧ t.mem = s.mem) ∧
  (∀ (rq : Requester) (v : Word) (s : State) (img : Image),
     WriteOpen s rq .tlrImgUnload 0 →
     s.tlr.images.look (bits v.toNat 0 6) = some img →
     s.actsFor rq img.ctx = true →
     Completes (.imgUnload rq v) s fun t =>
         (∀ i, t.tlr.images.look (bits v.toNat 0 6) = some i → i = { img with draining := true }) ∧
         (∀ k, k ≠ bits v.toNat 0 6 → t.tlr.images.look k = s.tlr.images.look k) ∧
         RegsKept [(.tlrImgSlot, bits v.toNat 0 6)] s t ∧ t = { s with regs := t.regs, tlr := { s.tlr with images := t.tlr.images } })

/-- RUN_START with a valid request whose preferred hub has a FREE clerk: the clerk chosen is READY at the entry, with ARG[0..5] in s1 to s6,
RUN_TAG in s7, the top of its stack in s31, every other scalar and handle zero and no predicate but p0 set. RUN_CANCEL: the one run the
tag names drains with CAUSE 3; with no match TLR_EVT.CANCEL_NOMATCH is set and nothing else changes but its latch. A time limit reached
raises WATCHDOG: the trap entry starts, or the run ends with CAUSE 2 and TRAP_CLASS 10; the handler's grace ends the run with CAUSE 2. A
drained clerk without occupied slots becomes FREE and its record, with ORPHANS final, goes to the requester. -/
def Obligations.RunsStartAndEnd : Prop :=
  (∀ (rq : Requester) (v : Word) (s : State) (r : RunReq) (img : Image) (c : Nat),
     WriteOpen s rq .tlrRunStart 0 →
     low6 v = 0 →
     r = runReqOf (s.bytesAt (keyHub v.toNat) 64) rq →
     s.tlr.images.look r.slot = some img →
     s.actsFor rq img.ctx = true →
     r.entry < img.entryCount →
     r.hub < 4 →
     s.hubUp r.hub = true →
     bits (leAt (s.bytesAt (keyHub v.toNat) 64) 0 8) 15 17 = 0 →
     img.draining = false →
     s.resident img.ctx = true →
     0 < s.freeClerks img.ctx r.hub →
     s.firstClerk img.ctx r.hub = some c →
     Completes (.runStart rq v) s fun t =>
         (t.clerk c).st = .ready ∧ (t.clerk c).pc = BitVec.ofNat 64 (img.entries.getD r.entry 0) ∧
         (∀ i, i < 6 → (t.clerk c).s (i + 1) = r.args.getD i 0) ∧ (t.clerk c).s 7 = r.tag ∧
         (t.clerk c).s 31 = BitVec.ofNat 64 (stackOf c + 65536) ∧
         (∀ i, 8 ≤ i → i ≠ 31 → (t.clerk c).s i = 0) ∧ (∀ i, (t.clerk c).h i = 0) ∧ (∀ i, (t.clerk c).p i = decide (i = 0)) ∧
         ((t.clerk c).run.map (fun x => (x.slot, x.ctx, x.entry, x.prio, x.tag))) = some (r.slot, img.ctx, r.entry, r.prio, r.tag) ∧
         (∀ d, d ≠ c → t.clerk d = s.clerk d)) ∧
  (∀ (rq : Requester) (tag : Word) (s : State) (c : Nat) (r : Run),
     WriteOpen s rq .tlrRunCancel 0 →
     (s.tlr.clerks.keysIf (fun _ cl => match cl.run with | some r => (decide (r.tag = tag) && s.actsFor rq r.ctx) && (decide (cl.st = .ready) || decide (cl.st = .waiting)) | none => false) = [c]) →
     (s.clerk c).run = some r →
     r.tag = tag →
     s.tlr.queues.rows = [] →
     Completes (.runCancel rq tag) s fun t => (t.clerk c).st = .draining ∧
         (t.clerk c).run.map (fun r => r.ending) = some (some ⟨tag, 0, 3, 0, 0, 0, 0⟩)) ∧
  (∀ (rq : Requester) (tag : Word) (s : State),
     WriteOpen s rq .tlrRunCancel 0 →
     (s.anyRun (fun t n => decide (t = tag) && s.actsFor rq n) = false) →
     Completes (.runCancel rq tag) s fun t =>
         t.rd .tlrEvt 0 = s.rd .tlrEvt 0 ||| BitVec.ofNat 64 (2 ^ Evt.tlr_cancelNomatch.bit) ∧ RegsKept [(.tlrEvt, 0)] s t ∧
         t = { s with regs := t.regs, latches := t.latches }) ∧
  (∀ (c : Nat) (s : State) (r : Run) (rec : RunRec),
     s.Live →
     (s.clerk c).st = .draining →
     (s.clerk c).run = some r →
     r.ending = some rec →
     (s.clerk c).busySlots.isEmpty = true →
     s.hubUp (hubOfClerk c) = true →
     s.runQueue (hubOfClerk c) = [] →
     Completes (.runDrainDone c) s fun t => (t.clerk c).st = .free ∧ (t.clerk c).run = none ∧
         t.out = s.out ++ [.runRecord r.requester { rec with orphans := r.orphans }] ∧ t.tlr.runRecs.look (hubOfClerk c) = some { rec with orphans := r.orphans } ∧
         (∀ d, d ≠ c → t.clerk d = s.clerk d) ∧ t.mem = s.mem) ∧
  (∀ (c t0 : Nat) (s : State) (r : Run) (img : Image),
     s.Live →
     (s.clerk c).run = some r →
     r.deadline = some t0 →
     t0 ≤ s.now →
     ((s.clerk c).st = .ready ∨ (s.clerk c).st = .waiting) →
     s.tlr.images.look r.slot = some img →
     Completes (.runTimeLimit c) s fun t =>
         t.rd .tlrClkTrap c = BitVec.ofNat 64 (10 + (s.clerk c).pc.toNat % 2 ^ 40 * 2 ^ 24) ∧
         if img.trapEntry = true ∧ (s.clerk c).handler = false then
           (t.clerk c).st = .ready ∧ (t.clerk c).handler = true ∧ (t.clerk c).pc = BitVec.ofNat 64 (img.entries.getD 15 0) ∧ (t.clerk c).s 1 = 10
         else (t.clerk c).st = .draining ∧ (t.clerk c).run.map (fun r => r.ending) = some (some ⟨r.tag, 0, 2, 10, 0, 0, (s.clerk c).pc⟩)) ∧
  (∀ (c t0 : Nat) (s : State) (r : Run),
     s.Live →
     (s.clerk c).run = some r →
     r.grace = some t0 →
     t0 ≤ s.now →
     ((s.clerk c).st = .ready ∨ (s.clerk c).st = .waiting) →
     Completes (.handlerGraceExpiry c) s fun t => (t.clerk c).st = .draining ∧
         (t.clerk c).run.map (fun r => (r.tag, r.ending)) = some (r.tag, some ⟨r.tag, 0, 2, 10, 0, 0, (s.clerk c).pc⟩))

/-- OPERATION_COMPLETE with the operation's own result for an occupied, incomplete slot: on a READY clerk the slot is complete with exactly
those words; on a clerk waiting for that slot it also makes the clerk READY; on a DRAINING clerk the Receipt is consumed, the slot is free
and ORPHANS counts it. A cancellation that reaches an incomplete slot whose operation has no result, of a kind with no state of its own,
completes it with ABORTED and its cause. A completion that reaches a complete slot leaves the words as they are. -/
def Obligations.CompletionsReachTheirSlot : Prop :=
  (∀ (c k : Nat) (s : State) (w0 w1 : Word),
     s.Live →
     ((s.clerk c).slot k).result = some (w0, w1) →
     ((s.clerk c).slot k).occupied = true →
     ((s.clerk c).slot k).complete = false →
     ((s.clerk c).slot k).cancel = none →
     ((s.clerk c).st = .ready ∨ ((s.clerk c).st = .waiting ∧ (s.clerk c).waitFor = some (.receipt k))) →
     Completes (.operationComplete c k .own) s fun t => t.receiptHolds c k w0 w1 ∧ (t.clerk c).st = .ready ∧
         (∀ j, j ≠ k → (t.clerk c).slot j = (s.clerk c).slot j) ∧ (∀ d, d ≠ c → t.clerk d = s.clerk d) ∧
         t = { s with tlr := { s.tlr with clerks := t.tlr.clerks } }) ∧
  (∀ (c k : Nat) (s : State) (w0 w1 : Word),
     s.Live →
     ((s.clerk c).slot k).result = some (w0, w1) →
     ((s.clerk c).slot k).occupied = true →
     ((s.clerk c).slot k).complete = false →
     ((s.clerk c).slot k).cancel = none →
     (s.clerk c).st = .draining →
     ((s.clerk c).slot k).openH = none →
     Completes (.operationComplete c k .own) s fun t => ((t.clerk c).slot k).occupied = false ∧
         (t.clerk c).run.map (fun r => r.orphans) = (s.clerk c).run.map (fun r => r.orphans + 1) ∧
         t.rd .tlrClkOrphan c = s.rd .tlrClkOrphan c + 1 ∧ t.rd .tlrClkRcptCon c = s.rd .tlrClkRcptCon c + 1) ∧
  (∀ (c k cause : Nat) (s : State),
     s.Live →
     ((s.clerk c).slot k).cancel = some cause →
     ((s.clerk c).slot k).occupied = true →
     ((s.clerk c).slot k).complete = false →
     ((s.clerk c).slot k).result = none →
     ((s.clerk c).slot k).op = .attnMerge →
     (s.clerk c).st = .ready →
     Completes (.operationComplete c k .cancel) s fun t => t.receiptHolds c k (word0 .aborted cause) 0 ∧
         t = { s with tlr := { s.tlr with clerks := t.tlr.clerks } }) ∧
  (∀ (c k : Nat) (s : State) (src : CompSrc),
     s.Live →
     ((s.clerk c).slot k).complete = true →
     Completes (.operationComplete c k src) s fun t => ((t.clerk c).slot k).word0 = ((s.clerk c).slot k).word0 ∧
         ((t.clerk c).slot k).word1 = ((s.clerk c).slot k).word1 ∧ ((t.clerk c).slot k).complete = true ∧
         ((t.clerk c).slot k).occupied = ((s.clerk c).slot k).occupied)

/-- While the module is not frozen: a freed index leaves its hold after 1 s; a directory copy lost with a stack is rebuilt on the next one,
with its event; the Passbook entries due are given to flash; a lost Passbook copy is whole again. A committed PARK leaves the session
PARKED, and its Receipt answers OK with the tier. A layer whose pieces have come is resident. An acknowledged MOVE frees the source and
answers OK with word 1, and a refused one restores the state before. Above T1_HIGH a clean copy is released. A held layer not resident in
time displaces the session. A rebuilt session returns to its former state. A moved session arrives PARKED under a new identifier, or is
refused where its context is not resident. A peer's Counterfoil page is stored. -/
def Obligations.SessionPlacementEvents : Prop :=
  (∀ (i t0 : Nat) (s : State),
     s.Live →
     s.ssn.freedAt.look i = some t0 →
     t0 + 1000000000 ≤ s.now →
     Completes (.indexReuseHoldEnd i) s fun t => t.ssn.freedAt.look i = none ∧ (∀ j, j ≠ i → t.ssn.freedAt.look j = s.ssn.freedAt.look j) ∧
         t = { s with ssn := { s.ssn with freedAt := t.ssn.freedAt } }) ∧
  (∀ (m n i : Nat) (s : State) (x : Session),
     s.Live →
     s.ssn.dirLost.contains m = true →
     s.nextStack m = some n →
     s.sess i = some x →
     (x.dirA = none ∧ i % 24 = m) →
     Completes (.dirRebuild m) s fun t => t.ssn.dirLost.contains m = false ∧ (t.sess i).map (·.dirA) = some (some n) ∧
         t.rd .ssnEvt 0 = s.rd .ssnEvt 0 ||| BitVec.ofNat 64 (2 ^ Evt.ssn_dirRebuild.bit) ∧
         t = { s with ssn := t.ssn, regs := t.regs, latches := t.latches }) ∧
  (∀ (i n : Nat) (s : State) (x : Session),
     s.Live →
     s.sess i = some x →
     x.pbWriting.2 = 0 →
     (n = if x.st = .active ∨ x.st = .reviving then x.passbook.length / pbEntries * pbEntries else x.passbook.length) →
     x.pbFlash < n →
     Completes (.passbookFlashWrite i) s fun t => (t.sess i).map (fun y => (y.pbWriting.1, y.passbook, y.pbFlash)) = some (n, x.passbook, x.pbFlash) ∧
         t.mem = s.mem) ∧
  (∀ (i : Nat) (s : State) (x : Session),
     s.Live →
     s.sess i = some x →
     ((x.pbA = none ∧ x.pbB.isSome = true) ∨ (x.pbA.isSome = true ∧ x.pbB = none)) →
     Completes (.passbookCopyRebuild i) s fun t =>
         (t.sess i).map (fun y => (y.pbA, y.pbB, y.passbook)) = some (some x.passbook.length, some x.passbook.length, x.passbook) ∧
         (∀ j, j ≠ i → t.sess j = s.sess j) ∧ t = { s with ssn := { s.ssn with sessions := t.ssn.sessions } }) ∧
  (∀ (i : Nat) (s : State) (x : Session) (p : Placing) (m : MoveOp),
     s.Live →
     s.sess i = some x →
     (x.placing = some p ∧ p.wait = 0) →
     s.attnBusy i = false →
     (x.op = some m ∧ m.op = 1) →
     (((s.clerk m.clerk).slot m.slot).occupied = true ∧ ((s.clerk m.clerk).slot m.slot).serial = m.serial) →
     Completes (.parkCommit i) s fun t => (t.sess i).map (fun y => (y.st, y.placing, y.op, y.inT0)) = some (.parked, none, none, false) ∧
         (t.sess i).map (fun y => some (word0 .ok y.kvTier, 0)) = some (t.slotResult m.clerk m.slot)) ∧
  (∀ (i layer : Nat) (remote : List (List Byte)) (s : State) (x : Session) (data : List (List Byte)),
     s.Live →
     s.sess i = some x →
     x.st = .reviving →
     (x.layer layer).resident = false →
     (x.parked.filter (fun q => decide (q.layerOf = layer)) ≠ []) →
     layer < s.firstAbsent x + max 1 (s.fld Fld.ssnReviveCfg_ahead) →
     (x.kvTier ≠ 4 ∨ remote.length = (x.parked.filter (fun q => decide (q.layerOf = layer))).length) →
     (s.layerData x (x.parked.filter (fun q => decide (q.layerOf = layer))) remote = some data) →
     Completes (.reviveLayerResident i layer remote) s fun t => (t.sess i).map (fun y => (y.layer layer).resident) = some true) ∧
  (∀ (i aux : Nat) (w1 : Word) (s : State) (x : Session) (m : MoveOp),
     s.Live →
     s.sess i = some x →
     (x.st = .moving ∧ x.req = none) →
     (x.op = some m ∧ m.op = 3 ∧ m.flag = false) →
     (((s.clerk m.clerk).slot m.slot).occupied = true ∧ ((s.clerk m.clerk).slot m.slot).serial = m.serial) →
     Completes (.moveDestinationAnswer i 0 aux w1) s fun t => t.sess i = none ∧ t.slotResult m.clerk m.slot = some (word0 .ok 0, w1)) ∧
  (∀ (i st aux : Nat) (w1 : Word) (s : State) (x : Session) (m : MoveOp),
     s.Live →
     s.sess i = some x →
     x.st = .moving →
     (x.op = some m ∧ m.op = 3) →
     st ≠ 0 →
     (((s.clerk m.clerk).slot m.slot).occupied = true ∧ ((s.clerk m.clerk).slot m.slot).serial = m.serial) →
     Completes (.moveDestinationAnswer i st aux w1) s fun t => t.sess i = some { x with st := m.prev, op := none } ∧
         t.slotResult m.clerk m.slot = some (BitVec.ofNat 64 (st % 2 ^ 16 + aux % 2 ^ 48 * 2 ^ 16), w1) ∧ t.mem = s.mem) ∧
  (∀ (i : Nat) (s : State) (x : Session),
     s.Live →
     (s.pastHigh 0 = true ∧ s.belowLow = false) →
     s.ssn.sessions.rows = [(i, x)] →
     (x.st = .parked ∧ x.pinned = false ∧ x.pages ≠ []) →
     (∀ q ∈ x.pages, q.use = .clean) →
     Completes .t1Reclaim s fun t => (t.sess i).map (fun y => (y.pages, y.cleanT1, y.parked)) = some ([], false, x.parked) ∧ t.mem = s.mem) ∧
  (∀ (i l t0 : Nat) (s : State) (x : Session),
     s.Live →
     s.sess i = some x →
     x.heldSince = some (l, t0) →
     (x.layer l).resident = false →
     t0 + min 1000 (s.fld Fld.ssnReviveCfg_holdUs) * 1000 ≤ s.now →
     Completes (.reviveHoldExpiry i) s fun t => (t.sess i).map (fun y => (y.heldSince, y.lateLayer)) = some (none, some l) ∧
         bit (t.rd .ssnEvt 0).toNat Evt.ssn_revivePreempt.bit = true) ∧
  (∀ (i : Nat) (pages : List (Nat × Nat × List Byte)) (s : State) (x : Session) (r : Rebuild),
     s.Live →
     s.sess i = some x →
     (x.rebuild = some r ∧ x.st = .rebuilding ∧ x.recompute = none) →
     (∀ p ∈ r.fetch, pages.any (fun q => decide (q.1 = p.1) && decide (q.2.1 = p.2)) = true) →
     ((s.addPages i (r.fetch.map (fun p => (0, p.1, p.2))) .live).2 = true) →
     Completes (.sessionRebuildDone i pages) s fun t => (t.sess i).map (fun y => (y.st, y.rebuild, y.passbook)) = some (r.back, none, x.passbook)) ∧
  (∀ (src i : Nat) (ident : Word) (copy : SsnCopy) (s : State),
     s.Live →
     s.resident copy.ctx = true →
     s.newIndex = .index i →
     (((s.createSession i copy.ctx).addPages i (copy.pieces.map (fun p => (p.1, p.2.1, p.2.2.1))) .live).2 = true) →
     s.cfOn = false →
     Completes (.moveCopyArrival src ident copy) s fun t =>
         (t.sess i).map (fun y => (y.st, y.ctx, y.kvFmt, y.model, y.customer, y.kvKept)) =
           some (.parked, copy.ctx, copy.kvFmt, copy.model, copy.customer, copy.kvKept) ∧
         (t.sess i).map (fun y => y.passbook) = some (copy.passbook.map (fun e => PbEntry.mk e.1 e.2.1 e.2.2)) ∧
         t.out = s.out ++ [.moveAnswer src ident 0 0 (ssnIdent s.self copy.ctx i (s.ssn.gens.lookD i 1))]) ∧
  (∀ (src : Nat) (ident : Word) (copy : SsnCopy) (s : State),
     s.Live →
     s.resident copy.ctx = false →
     Completes (.moveCopyArrival src ident copy) s fun t => t = { s with out := s.out ++ [.moveAnswer src ident Status.denied.code 1 0] }) ∧
  (∀ (peer layer page : Nat) (ident : Word) (data : List Byte) (s : State),
     s.Live →
     Completes (.sessionCounterfoilPage peer ident false layer page data) s fun t =>
         (t.ssn.cf.lookD (peer, ident) ⟨.empty, .empty, .empty⟩).pb.look page = some data ∧
         (∀ k, k ≠ (peer, ident) → t.ssn.cf.look k = s.ssn.cf.look k) ∧ t = { s with ssn := { s.ssn with cf := t.ssn.cf } }) ∧
  (∀ (peer layer page : Nat) (ident : Word) (data : List Byte) (s : State),
     s.Live →
     (s.ssn.cf.lookD (peer, ident) ⟨.empty, .empty, .empty⟩).kv.has (layer, page) = true →
     Completes (.sessionCounterfoilPage peer ident true layer page data) s fun t =>
         (t.ssn.cf.lookD (peer, ident) ⟨.empty, .empty, .empty⟩).kv.look (layer, page) = some data ∧
         (∀ k, k ≠ (peer, ident) → t.ssn.cf.look k = s.ssn.cf.look k) ∧ t = { s with ssn := { s.ssn with cf := t.ssn.cf } })

/-- A write to SSN_PHASE by the operator, firmware or the context while a switch runs only sets SSN_EVT.PHASE_BUSY. One that asks for more
pages than exist beside the pinned ones ends with STATE 3 and no switch; any other starts the switch with the context, the pages to keep
and the deadline written. At the time limit the switch goes on, with the same context. When no session of the context is ACTIVE, REVIVING
or in a step, ALLOC fits and enough pages are free, STATE becomes 2 and the switch is over. -/
def Obligations.PhaseSwitching : Prop :=
  (∀ (rq : Requester) (v : Word) (s : State),
     WriteOpen s rq .ssnPhase 0 →
     (s.isModule rq = true ∨ s.actsFor rq (bits v.toNat 0 6) = true) →
     s.phaseOn = true →
     Completes (.phaseSwitch rq v) s fun t =>
         t.rd .ssnEvt 0 = s.rd .ssnEvt 0 ||| BitVec.ofNat 64 (2 ^ Evt.ssn_phaseBusy.bit) ∧ RegsKept [(.ssnEvt, 0)] s t ∧
         t = { s with regs := t.regs, latches := t.latches }) ∧
  (∀ (rq : Requester) (v : Word) (s : State) (p : Phase),
     WriteOpen s rq .ssnPhase 0 →
     (s.isModule rq = true ∨ s.actsFor rq (bits v.toNat 0 6) = true) →
     s.phaseOn = false →
     p = { ctx := bits v.toNat 0 6, keepGib := bits v.toNat 32 32, deadline := s.now + bits v.toNat 8 24 * 1000000, written := 0, pbOnly := 0 } →
     s.pgSum .ssnPgTotal < p.keepPages + s.pinnedPages (2 ^ 24) →
     Completes (.phaseSwitch rq v) s fun t => t.ssn.phase = none ∧ (t.rd .ssnPhaseStatus 0).toNat = 3 + p.ctx * 2 ^ 8 ∧
         RegsKept [(.ssnPhaseStatus, 0)] s t ∧ t = { s with regs := t.regs, ssn := { s.ssn with phase := none } }) ∧
  (∀ (rq : Requester) (v : Word) (s : State) (p : Phase),
     WriteOpen s rq .ssnPhase 0 →
     (s.isModule rq = true ∨ s.actsFor rq (bits v.toNat 0 6) = true) →
     s.phaseOn = false →
     p = { ctx := bits v.toNat 0 6, keepGib := bits v.toNat 32 32, deadline := s.now + bits v.toNat 8 24 * 1000000, written := 0, pbOnly := 0 } →
     p.keepPages + s.pinnedPages (2 ^ 24) ≤ s.pgSum .ssnPgTotal →
     Completes (.phaseSwitch rq v) s fun t => t.ssn.phase.map (fun q => (q.ctx, q.keepGib, q.deadline)) = some (p.ctx, p.keepGib, p.deadline) ∧
         t.phaseOn = true) ∧
  (∀ (s : State) (p : Phase),
     s.Live →
     s.ssn.phase = some p →
     p.deadline ≤ s.now →
     s.phaseOn = true →
     Completes .phaseTimeLimit s fun t => t.ssn.phase.map (fun q => (q.ctx, q.keepGib, q.deadline)) = some (p.ctx, p.keepGib, p.deadline) ∧
         t.phaseOn = true) ∧
  (∀ (s : State) (p : Phase),
     s.Live →
     s.ssn.phase = some p →
     s.phaseOn = true →
     (s.ssn.sessions.any (fun i x => decide (x.ctx = p.ctx) && (decide (x.st = .active) || decide (x.st = .reviving) || s.inStep i)) = false) →
     s.phaseFits p = true →
     p.keepPages ≤ s.pgSum .ssnPgFree →
     Completes .phaseDone s fun t => t.ssn.phase = none ∧ t.fld Fld.ssnPhaseStatus_state 0 = 2 ∧ t.ssn.sessions = s.ssn.sessions)

/-- While the module is not frozen: an accepted KVU is written to the private memory it names and placed for ATTN; an ATQ or an LDN that
answers a pending KERNEL goes to its buffer where it fits, and the KERNEL's Receipt answers OK with its length and type. An engine that
executes a descriptor counts it in KVA_ENG_DESC; one whose tile faults stops with STATE 2 and its event, its queue as it was. A partial
that is not the last is noted in its merge slot. Once every entry of an ATTN whose first response has gone is final, the supplement ends
it and its Receipt answers with the entries served. -/
def Obligations.AttentionEvents : Prop :=
  (∀ (p a n gk b : Nat) (msg : List Byte) (s u : State) (md : Model) (k : KernelOp),
     s.Live →
     ((parseMsg msg).ty = 0x21 ∧ leAt msg 0 1 ≠ 0x23) →
     (s.groupOf p).bind s.groupModel = some md →
     s.kernelOn p (parseMsg msg).step = some (gk, k) →
     s.msgRefused (s.stepOn p (parseMsg msg).step) true md (parseMsg msg) = false →
     (up64 (32 + 8 * (parseMsg msg).nseq) + (parseMsg msg).payload ≤ msg.length ∧ msg.length ≤ k.room) →
     ((s.onSch (fun t => { t with kernels := t.kernels.del gk })).writePriv k.clerk k.ctx k.buf msg = some (u, .ok, b)) →
     (((s.clerk k.clerk).slot k.slot).occupied = true ∧ ((s.clerk k.clerk).slot k.slot).serial = k.serial) →
     Completes (.atq p n a msg) s fun t => t.sch.kernels.look gk = none ∧
         t.kva.inbox.look (k.ctx, k.buf) = some ⟨p, false, (parseMsg msg).layer, (parseMsg msg).step, msg.length⟩ ∧
         t.slotResult k.clerk k.slot = some (word0 .ok msg.length, 0x21) ∧ t.mem = u.mem) ∧
  (∀ (p n a b : Nat) (msg : List Byte) (s u : State) (md : Model) (st : Status),
     s.Live →
     ((parseMsg msg).ty = 0x23 ∧ leAt msg 0 1 ≠ 0x21) →
     (s.groupOf p).bind s.groupModel = some md →
     s.msgRefused (s.stepOn p (parseMsg msg).step) (s.kernelOn p (parseMsg msg).step).isSome md (parseMsg msg) = false →
     up64 (32 + 8 * (parseMsg msg).nseq) + (parseMsg msg).payload ≤ msg.length →
     s.writePriv noClerk n a msg = some (u, st, b) →
     Completes (.kvu p n a msg) s fun t =>
         t.kva.inbox.look (n, a) = some ⟨p, true, (parseMsg msg).layer, (parseMsg msg).step, msg.length⟩ ∧
         (∀ k, k ≠ (n, a) → t.kva.inbox.look k = s.kva.inbox.look k) ∧ t.mem = u.mem) ∧
  (∀ (p gk b : Nat) (msg : List Byte) (s u : State) (k : KernelOp),
     s.Live →
     ((parseMsg msg).ty = 0x13 ∧ (parseMsg msg).nseq = 0) →
     s.kernelOn p (parseMsg msg).step = some (gk, k) →
     msg.length ≤ k.room →
     ((s.onSch (fun t => { t with kernels := t.kernels.del gk })).writePriv k.clerk k.ctx k.buf msg = some (u, .ok, b)) →
     (((s.clerk k.clerk).slot k.slot).occupied = true ∧ ((s.clerk k.clerk).slot k.slot).serial = k.serial) →
     Completes (.ldn p msg) s fun t => t.sch.kernels.look gk = none ∧ t.slotResult k.clerk k.slot = some (word0 .ok msg.length, 0x13) ∧ t.mem = u.mem) ∧
  (∀ (m : Nat) (s : State) (d : PgDesc) (rest : List PgDesc),
     s.Live →
     s.stackUp m = true →
     s.fld Fld.kvaEngStatus_state m ≠ 2 →
     (s.engine m).queue = d :: rest →
     Completes (.engineDescriptorExec m .nothing) s fun t => t.rd .kvaEngDesc m = s.rd .kvaEngDesc m + 1) ∧
  (∀ (m : Nat) (s : State) (d : PgDesc) (rest : List PgDesc),
     s.Live →
     s.stackUp m = true →
     s.fld Fld.kvaEngStatus_state m ≠ 2 →
     (s.engine m).queue = d :: rest →
     Completes (.engineDescriptorExec m .tileFault) s fun t => t.fld Fld.kvaEngStatus_state m = 2 ∧
         t.rd .kvaEvt 0 = s.rd .kvaEvt 0 ||| BitVec.ofNat 64 (2 ^ Evt.kva_engineFault.bit) ∧
         RegsKept [(.kvaEngStatus, m), (.kvaEvt, 0)] s t ∧ t = { s with regs := t.regs, latches := t.latches }) ∧
  (∀ (k m : Nat) (s : State) (y : MergeSlot),
     s.Live →
     s.kva.merges.look k = some y →
     (y.expect.contains m = true ∧ y.arrived.contains m = false) →
     ((s.engine m).queue.any (fun d => decide (d.pslot = k)) = false) →
     y.arrived.length + 1 < y.expect.length →
     Completes (.partialMerge k m) s fun t => t.kva.merges.look k = some { y with arrived := m :: y.arrived } ∧
         (∀ j, j ≠ k → t.kva.merges.look j = s.kva.merges.look j) ∧ t = { s with kva := { s.kva with merges := t.kva.merges } }) ∧
  (∀ (op : Nat) (s : State) (o : AttnOp),
     s.Live →
     s.kva.ops.look op = some o →
     (o.kvu = false ∧ o.partials = 0 ∧ o.firstSent = true) →
     (∀ e ∈ o.entries, e.status.isSome = true) →
     (((s.clerk o.clerk).slot o.slot).occupied = true ∧ ((s.clerk o.clerk).slot o.slot).serial = o.serial) →
     Completes (.atrSupplement op) s fun t => t.kva.ops.look op = none ∧ t.rd .kvaAttnDone 0 = s.rd .kvaAttnDone 0 + 1 ∧
         (t.slotResult o.clerk o.slot).map (·.2) = some (BitVec.ofNat 64 o.entries.length))

/-- While the module is not frozen: a formed step gets the next step number, its group and its sessions. A logit shard that is not the last is
kept; the hidden-state rows of a displaced session are stored. A step whose work is done is over after it commits. A group whose step
waits past its limit is OFF, not armed, with its event. The oldest report of a context with an UP report port leaves once. A role
evaluation in favour of PREFILL counts for each group. A Ledger tick charges the rent of every customer up to now. -/
def Obligations.StepPlannerEvents : Prop :=
  (∀ (g base watts : Nat) (half : Bool) (cands : List StepCand) (s u v : State) (m : Model) (f : Forming),
     s.Live →
     g < 8 →
     u = (s.settleGroups.accrueWait.boostEval cands).wakeSessions →
     ((u.group g).role = .decode ∨ (u.group g).role = .prefill ∨ (u.group g).role = .mixed) →
     ((if half then (u.group g).stepB else (u.group g).stepA) = none) →
     (half = false ∨ u.fld Fld.schStepCfg_halves ≠ 0) →
     u.plannerOpen = true →
     u.groupModel g = some m →
     u.rampOk g watts = true →
     ((u.planOrder u.stepTokens u.chunkMax (cands.filter (fun c => (u.sess c.sess).any (u.mayEnter g c)))).foldl (fun (a : State × Forming) c => a.1.considerSess m (u.group g).role a.2 c.1 c.2) (u, { sessions := [], tokens := 0, fill := 0, time := base, goal := 2 ^ 32, stop := false }) = (v, f)) →
     f.sessions ≠ [] →
     Completes (.stepForm g half base watts cands) s fun t => t.sch.stepCtr = v.sch.stepCtr + 1 ∧
         (t.sch.steps.look (v.sch.stepCtr + 1)).map (fun x => (x.no, x.group, x.halfB, x.sessions)) = some (v.sch.stepCtr + 1, g, half, f.sessions) ∧
         (if half then (t.group g).stepB else (t.group g).stepA) = some (v.sch.stepCtr + 1)) ∧
  (∀ (p k : Nat) (msg : List Byte) (s : State) (t0 : Step) (md : Model),
     s.Live →
     (s.stepOn p (parseMsg msg).step = some t0 ∧ s.sch.steps.look t0.no = some t0) →
     (s.groupOf p).bind s.groupModel = some md →
     (k = ((s.groupPorts t0.group).takeWhile (fun q => decide (q ≠ p))).length) →
     ((parseMsg msg).ty = 0x14 ∧ (parseMsg msg).layer = k % 256 ∧ t0.layer = s.lastPart t0 ∧ t0.textDone = false) →
     (t0.lgt.any (fun g => decide (g.1 = k)) = false) →
     (t0.live.filter (fun e => e.2.wantLogits) ≠ []) →
     (∀ e ∈ t0.live.filter (fun e => e.2.wantLogits), (parseMsg msg).entries.any (fun f => decide (f.1 = e.1)) = true) →
     (∀ f ∈ (parseMsg msg).entries, ((t0.live.filter (fun e => e.2.wantLogits)).map (·.1)).contains f.1 = true ∧ f.2.1 = 1) →
     up64 (32 + 8 * (parseMsg msg).nseq) + (parseMsg msg).nseq * up64 (2 * shardWidth md.vocabSize (s.groupPorts t0.group).length k) ≤ msg.length →
     t0.lgt.length + 1 < (s.groupPorts t0.group).length →
     Completes (.lgt p msg) s fun t =>
         t.sch.steps.look t0.no = some { t0 with lgt := t0.lgt ++ [(k, lgtRows msg (parseMsg msg) (shardWidth md.vocabSize (s.groupPorts t0.group).length k))] } ∧
         t = { s with sch := { s.sch with steps := t.sch.steps } }) ∧
  (∀ (p : Nat) (msg : List Byte) (s : State) (t0 : Step) (md : Model) (e : Nat × Nat × Nat) (q : StepSess) (x : Session),
     s.Live →
     s.stepOn p (parseMsg msg).step = some t0 →
     (s.groupOf p).bind s.groupModel = some md →
     ((parseMsg msg).ty = 0x15 ∧ s.groupLead t0.group = some p ∧ t0.textDone = false) →
     (parseMsg msg).entries = [e] →
     t0.sessions[e.1]? = some q →
     (q.status = some 0x0070 ∧ q.displacedAt = some (parseMsg msg).layer ∧ q.new = e.2.1) →
     up64 (32 + 8 * (parseMsg msg).nseq) + 2 * e.2.1 * md.dModel ≤ msg.length →
     s.sess q.sess = some x →
     Completes (.hsv p msg) s fun t =>
         t.sess q.sess = some { x with hsv := some ((parseMsg msg).layer, takeAt msg (up64 (32 + 8 * (parseMsg msg).nseq)) (2 * e.2.1 * md.dModel)) } ∧
         t = { s with ssn := { s.ssn with sessions := t.ssn.sessions } }) ∧
  (∀ (g : Nat) (half : Bool) (s : State) (t0 : Step),
     s.Live →
     g < 8 →
     (s.group g).role ≠ .external →
     ((if half then (s.group g).stepB else (s.group g).stepA).bind s.sch.steps.look = some t0) →
     s.stepWaits t0 = true →
     (t0.sentAt + s.layerLimit g (t0.live.map (fun p => p.2.new)).sum ≤ s.now) →
     Completes (.groupTimeout g half) s fun t => (t.group g).role = .off ∧ (t.group g).armed = false ∧
         bit (t.rd .schEvt 0).toNat Evt.sch_groupTimeout.bit = true) ∧
  (∀ (g k : Nat) (half : Bool) (s : State) (t0 : Step),
     s.Live →
     g < 8 →
     ((if half then (s.group g).stepB else (s.group g).stepA) = some k) →
     (s.sch.steps.look k = some t0 ∧ t0.no = k) →
     s.stepReady t0 = true →
     Completes (.stepCommit g half) s fun t => t.sch.steps.look k = none) ∧
  (∀ (n p : Nat) (s : State) (r : Report),
     s.Live →
     (s.fld Fld.schCtxReport_enable n ≠ 0 ∧ s.ctxState n ≠ 2) →
     (s.sch.reports.find? (fun r => decide (r.ctx = n)) = some r) →
     p = 20 + s.fld Fld.schCtxReport_port n →
     s.portSt p = 5 →
     Completes (.stepReportSend n) s fun t => t.out = s.out ++ [.stepReport p (s.fld Fld.schCtxReport_connection n) r] ∧
         t.sch = { s.sch with reports := s.sch.reports.filter (fun k => !(decide (k.ctx = n) && decide (k.step = r.step) && decide (k.group = r.group))) } ∧
         t = { s with out := t.out, sch := t.sch, lnk := t.lnk, regs := t.regs }) ∧
  (∀ (model dp dd g n p : Nat) (backlog : List (Nat × Nat)) (s u : State) (gs : List Nat),
     s.Live →
     u = s.settleGroups →
     (gs = (List.range 8).filter (fun g => u.groupOn g && decide (u.fld Fld.schGroupCfg_model g = model) && (decide ((u.group g).role = .decode) || decide ((u.group g).role = .prefill) || decide ((u.group g).role = .switching)))) →
     (n = gs.length ∧ 2 ≤ n) →
     (p = (gs.filter (fun g => decide ((u.group g).role = .prefill))).length) →
     (100 * p + 50 + u.fld Fld.schRoleCfg_hyst) * (dp + dd) < 100 * n * dp →
     (∀ k ∈ gs, (u.group k).above + 1 < max 1 (u.fld Fld.schRoleCfg_confirm)) →
     g ∈ gs →
     Completes (.roleEval model dp dd backlog) s fun t => (t.group g).above = (u.group g).above + 1 ∧ (t.group g).below = 0 ∧
         (t.group g).role = (u.group g).role ∧ t = { u with sch := { u.sch with groups := t.sch.groups } }) ∧
  (∀ (s : State) (k : Nat) (x : Customer),
     s.Live →
     s.sch.customers.look k = some x →
     Completes .ledgerTick s fun t => (t.cust k).rentAt = s.nodeNs ∧ t.mem = s.mem)

/-- A write by the operator or firmware to SCH_MODEL_REG of a descriptor in range takes the lowest free index for the model and says so in
SCH_MODEL_STATUS, and one out of range leaves STATE 3 and no model; SCH_MODEL_UNREG of a model that no bound session names frees it;
SCH_GROUP_CFG with every bit 0 on a group that is OFF leaves it disabled and not armed; SCH_CTX_REPORT, which the context may also write,
takes the writable bits of the value and keeps the others. -/
def Obligations.PlannerRegisters : Prop :=
  (∀ (rq : Requester) (v : Word) (s : State) (i : Nat),
     WriteOpen s rq .schModelReg 0 →
     s.isModule rq = true →
     low6 v = 0 →
     s.modelOk v.toNat = true →
     lowestFree s.sch.models.has 0 1024 = some i →
     Completes (.modelReg rq v) s fun t => t.sch = { s.sch with models := s.sch.models.put i (s.modelAt v.toNat) } ∧
         t.rd .schModelStatus 0 = BitVec.ofNat 64 (i % 1024 + 2 * 2 ^ 24) ∧ RegsKept [(.schModelStatus, 0)] s t ∧
         t = { s with sch := t.sch, regs := t.regs }) ∧
  (∀ (rq : Requester) (v : Word) (s : State),
     WriteOpen s rq .schModelReg 0 →
     s.isModule rq = true →
     low6 v = 0 →
     s.modelOk v.toNat = false →
     Completes (.modelReg rq v) s fun t => t.rd .schModelStatus 0 = BitVec.ofNat 64 (2 * 2 ^ 16 + 3 * 2 ^ 24) ∧
         RegsKept [(.schModelStatus, 0)] s t ∧ t = { s with regs := t.regs }) ∧
  (∀ (rq : Requester) (v : Word) (s : State),
     WriteOpen s rq .schModelUnreg 0 →
     s.isModule rq = true →
     (s.ssn.sessions.any (fun _ x => decide (x.model = bits v.toNat 0 10) && decide (x.reservedLen ≠ 0)) = false) →
     Completes (.modelUnreg rq v) s fun t => t.sch.models.look (bits v.toNat 0 10) = none ∧ t.mem = s.mem ∧ t.ssn = s.ssn) ∧
  (∀ (rq : Requester) (g : Nat) (s : State),
     WindowOpen s rq →
     s.regReach .schGroupCfg g = true →
     s.isModule rq = true →
     g < 8 →
     (s.group g).role = .off →
     Completes (.groupCfgWrite rq g 0) s fun t => t.fld Fld.schGroupCfg_enable g = 0 ∧ t.fld Fld.schGroupCfg_ports g = 0 ∧
         t.group g = { s.group g with armed := false } ∧ (∀ k, k ≠ g → t.group k = s.group k) ∧ t.mem = s.mem) ∧
  (∀ (rq : Requester) (n : Nat) (v : Word) (s : State),
     WindowOpen s rq →
     s.regReach .schCtxReport n = true →
     (s.isModule rq = true ∨ s.actsFor rq n = true) →
     n < 64 →
     Completes (.ctxReportWrite rq n v) s fun t =>
         t.rd .schCtxReport n = (s.rd .schCtxReport n &&& ~~~(BitVec.ofNat 64 Reg.schCtxReport.spec.mask)) ||| (v &&& BitVec.ofNat 64 Reg.schCtxReport.spec.mask) ∧
         RegsKept [(.schCtxReport, n)] s t ∧ t = { s with regs := t.regs })

/-- On a customer handle with the charge right, an amount below 2^62 and room in the flush budget: CHARGE within what the customer has after
refill, or with FORCE, takes the amount and answers OK with the BALANCE after; CHARGE without FORCE past it changes no balance, counts a
refusal and answers BUDGET; CREDIT gives the amount and answers OK with the BALANCE after; RENT replaces the rent word and answers the old
one. In each case the Receipt is taken, the tag is in s[RD] and no other customer changes. -/
def Obligations.LedgerInstructions : Prop :=
  (∀ (c n : Nat) (s : State) (ix : Ix),
     (IssuesOn s c ix (fun ix => isSub 0x40 0 ix || isSub 0x40 1 ix) n [6] rtCharge) →
     s.ledgerRoom (hObj (ix.cl.h (wH ix.w))).toNat = true →
     ix.ra.toNat < 2 ^ 62 →
     (ix.ra.toNat ≤ ((s.cust (hObj (ix.cl.h (wH ix.w))).toNat).refillTo s.nodeNs).available ∨ wSub ix.w = 1) →
     Completes (.charge c) s fun t => ReceiptTaken c ix n t ∧
         t.cust (hObj (ix.cl.h (wH ix.w))).toNat = ((s.cust (hObj (ix.cl.h (wH ix.w))).toNat).refillTo s.nodeNs).charge ix.ra.toNat ∧
         t.slotResult c n = some (word0 .ok 0, BitVec.ofInt 64 (t.cust (hObj (ix.cl.h (wH ix.w))).toNat).balance) ∧
         (∀ k, k ≠ (hObj (ix.cl.h (wH ix.w))).toNat → t.cust k = s.cust k) ∧ t.mem = s.mem) ∧
  (∀ (c n : Nat) (s : State) (ix : Ix),
     (IssuesOn s c ix (fun ix => isSub 0x40 0 ix || isSub 0x40 1 ix) n [6] rtCharge) →
     s.ledgerRoom (hObj (ix.cl.h (wH ix.w))).toNat = true →
     ix.ra.toNat < 2 ^ 62 →
     ((s.cust (hObj (ix.cl.h (wH ix.w))).toNat).refillTo s.nodeNs).available < ix.ra.toNat →
     wSub ix.w = 0 →
     Completes (.charge c) s fun t => ReceiptTaken c ix n t ∧
         (t.cust (hObj (ix.cl.h (wH ix.w))).toNat).balance = ((s.cust (hObj (ix.cl.h (wH ix.w))).toNat).refillTo s.nodeNs).balance ∧
         (t.cust (hObj (ix.cl.h (wH ix.w))).toNat).refused = ((s.cust (hObj (ix.cl.h (wH ix.w))).toNat).refillTo s.nodeNs).refused + 1 ∧
         (t.slotResult c n).map (·.1) = some (word0 .budget (hObj (ix.cl.h (wH ix.w))).toNat)) ∧
  (∀ (c n : Nat) (s : State) (ix : Ix),
     IssuesOn s c ix (isSub 0x41 0) n [6] rtCharge →
     s.ledgerRoom (hObj (ix.cl.h (wH ix.w))).toNat = true →
     ix.ra.toNat < 2 ^ 62 →
     Completes (.credit c) s fun t => ReceiptTaken c ix n t ∧
         t.cust (hObj (ix.cl.h (wH ix.w))).toNat = ((s.cust (hObj (ix.cl.h (wH ix.w))).toNat).refillTo s.nodeNs).give ix.ra.toNat ∧
         t.slotResult c n = some (word0 .ok 0, BitVec.ofInt 64 (t.cust (hObj (ix.cl.h (wH ix.w))).toNat).balance)) ∧
  (∀ (c n : Nat) (s : State) (ix : Ix),
     IssuesOn s c ix (isSub 0x42 0) n [6] rtCharge →
     s.ledgerRoom (hObj (ix.cl.h (wH ix.w))).toNat = true →
     Completes (.rent c) s fun t => ReceiptTaken c ix n t ∧
         (t.cust (hObj (ix.cl.h (wH ix.w))).toNat).rent = ix.ra ∧
         t.slotResult c n = some (word0 .ok 0, (s.cust (hObj (ix.cl.h (wH ix.w))).toNat).rent))

/-- On a session handle with the compute right and no open request: CLEAR BIND with a grammar of the session's vocabulary binds it and answers
the mask word of its start; CLEAR UNBIND leaves no grammar and an empty stack; CLEAR ADVANCE with a token of the mask moves the grammar
over the token's bytes; SAMPLE CONFIG with a block of 64 readable bytes in range, and no bias, puts its fields in force; CHANGE CONFIG
without stop strings leaves none and sets SHOW_SPECIAL. Each answers OK with its Receipt taken. With a request open, each of these
completes at once with DENIED, reason 2, and the session keeps its text state. -/
def Obligations.TextStateInstructions : Prop :=
  (∀ (c n k : Nat) (s : State) (ix : Ix) (x : Session) (g : Table) (m : Model),
     IssuesOn s c ix (isSub 0x31 0) n [1] rtCompute →
     s.checkHandle ix.run.ctx (ix.cl.h (wH2 ix.w)) [10] rtCompute = none →
     s.sess ix.sessIx = some x →
     x.req = none →
     tableNamed s.txt.grams (hObj (ix.cl.h (wH2 ix.w))) = some (k, g) →
     s.modelOf x = some m →
     g.unloading = false →
     leAt g.data 0x18 8 = m.vocab.toNat →
     Completes (.clearBind c) s fun t => ReceiptTaken c ix n t ∧
         (t.sess ix.sessIx).map (·.text) = some (x.text.bindGram k g) ∧ (x.text.bindGram k g).grammar = some k ∧
         (t.slotResult c n).map (·.1) = some (word0 .ok 0) ∧ t.mem = s.mem) ∧
  (∀ (c n : Nat) (s : State) (ix : Ix) (x : Session),
     IssuesOn s c ix (isSub 0x31 1) n [1] rtCompute →
     s.sess ix.sessIx = some x →
     x.req = none →
     Completes (.clearUnbind c) s fun t => ReceiptTaken c ix n t ∧
         (t.sess ix.sessIx).map (·.text) = some { x.text with grammar := none, frames := [] } ∧
         t.slotResult c n = some (word0 .ok 0, 0) ∧ t.mem = s.mem) ∧
  (∀ (c n : Nat) (s : State) (ix : Ix) (x : Session) (voc : Table),
     IssuesOn s c ix (isSub 0x31 3) n [1] rtCompute →
     s.sess ix.sessIx = some x →
     x.req = none →
     s.vocabFor x = some voc →
     s.tokenOk voc x.text ix.rb.toNat = true →
     Completes (.clearAdvance c) s fun t => ReceiptTaken c ix n t ∧
         (t.sess ix.sessIx).map (·.text) = some (s.advanceGram voc x.text ix.rb.toNat) ∧
         (t.slotResult c n).map (·.1) = some (word0 .ok 0) ∧ t.mem = s.mem) ∧
  (∀ (c n : Nat) (s : State) (ix : Ix) (x : Session) (b : List Byte),
     IssuesOn s c ix (isSub 0x32 0) n [1] rtCompute →
     s.sess ix.sessIx = some x →
     x.req = none →
     s.privMapped c ix.run.ctx ix.ra.toNat 64 = true →
     (s.issued ix .text [wH ix.w] n).readPriv c ix.run.ctx ix.ra.toNat 64 = some (s.issued ix .text [wH ix.w] n, .ok, 0, b) →
     bits (leAt b 0x18 8) 45 10 = 0 →
     samplerOk ((samplerOf x.text b []).recount x.passbook) = true →
     Completes (.sampleConfig c) s fun t => ReceiptTaken c ix n t ∧
         (t.sess ix.sessIx).map (·.text) = some ((samplerOf x.text b []).recount x.passbook) ∧
         t.slotResult c n = some (word0 .ok 0, 0) ∧ t.mem = s.mem) ∧
  (∀ (c n : Nat) (s : State) (ix : Ix) (x : Session),
     IssuesOn s c ix (isSub 0x33 0) n [1] rtCompute →
     s.sess ix.sessIx = some x →
     x.req = none →
     wImm24 ix.w % 32 = 0 →
     Completes (.changeConfig c) s fun t => ReceiptTaken c ix n t ∧
         (t.sess ix.sessIx).map (·.text) = some { x.text with stops := [], dvec := [], showSpecial := bit (wImm24 ix.w) 5 } ∧
         t.slotResult c n = some (word0 .ok 0, 0) ∧ t.mem = s.mem) ∧
  (∀ (c n : Nat) (s : State) (ix : Ix) (x : Session),
     (IssuesOn s c ix (fun ix => isSub 0x31 1 ix || isSub 0x31 3 ix || isSub 0x32 0 ix || isSub 0x33 0 ix) n [1] rtCompute) →
     s.sess ix.sessIx = some x →
     x.req.isSome = true →
     (isSub 0x31 1 ix = true → Completes (.clearUnbind c) s fun t => (t.sess ix.sessIx).map (·.text) = some x.text ∧ t.receiptHolds c n (word0 .denied 2) 0) ∧
       (isSub 0x31 3 ix = true → Completes (.clearAdvance c) s fun t => (t.sess ix.sessIx).map (·.text) = some x.text ∧ t.receiptHolds c n (word0 .denied 2) 0) ∧
       (isSub 0x32 0 ix = true → Completes (.sampleConfig c) s fun t => (t.sess ix.sessIx).map (·.text) = some x.text ∧ t.receiptHolds c n (word0 .denied 2) 0) ∧
       (isSub 0x33 0 ix = true → Completes (.changeConfig c) s fun t => (t.sess ix.sessIx).map (·.text) = some x.text ∧ t.receiptHolds c n (word0 .denied 2) 0))

/-- MINT of no bytes without a stream writes nothing and answers OK with 0 tokens and 0 invalid bytes. CLEAR MASK writes one bit for each
token of the session's vocabulary, set where the token may come next, and answers OK with the count of those tokens. SAMPLE PROBE of
readable logits with a non-empty mask answers OK with the token the sampler picks and leaves the session as it was. CHANGE TEXT whose text
fits writes its length and bytes and answers OK with the tokens converted and the bytes written. -/
def Obligations.TextConversionInstructions : Prop :=
  (∀ (c n : Nat) (s : State) (ix : Ix) (k : Nat) (v : Table),
     IssuesOn s c ix (isSub 0x30 0) n [9] rtCompute →
     tableNamed s.txt.vocabs (hObj (ix.cl.h (wH ix.w))) = some (k, v) →
     mintBad v ix.desc = false →
     (mintDesc ix.desc).len = 0 →
     (mintDesc ix.desc).stream = 0 →
     s.privMapped c ix.run.ctx (mintDesc ix.desc).output (4 * (mintDesc ix.desc).max) = true →
     Completes (.mint c) s fun t => ReceiptTaken c ix n t ∧ t.slotResult c n = some (word0 .ok 0, 0) ∧ t.mem = s.mem ∧
         t.rd .txtMintInvalid 0 = s.rd .txtMintInvalid 0) ∧
  (∀ (c n : Nat) (s u : State) (ix : Ix) (x : Session) (voc : Table) (b : Nat),
     IssuesOn s c ix (isSub 0x31 2) n [1] rtCompute →
     s.sess ix.sessIx = some x →
     s.vocabFor x = some voc →
     s.privMapped c ix.run.ctx ix.ra.toNat ((voc.vocabSize + 511) / 512 * 64) = true →
     (((s.issued ix .text [wH ix.w] n).unitServe 4 (hubOfClerk c) ix.run.ctx).writePriv c ix.run.ctx ix.ra.toNat ((List.range ((voc.vocabSize + 511) / 512 * 64)).map (fun b => BitVec.ofNat 8 (((List.range 8).filter (fun j => s.tokenOk voc x.text (8 * b + j))).map (fun j => 2 ^ j)).sum)) = some (u, .ok, b)) →
     Completes (.clearMask c) s fun t => t.mem = u.mem ∧ t.ssn = u.ssn ∧
         (t.slotResult c n).map (·.1) = some (word0 .ok ((List.range voc.vocabSize).filter (s.tokenOk voc x.text)).length)) ∧
  (∀ (c n : Nat) (s : State) (ix : Ix) (x : Session) (voc : Table) (b : List Byte),
     IssuesOn s c ix (isSub 0x32 1) n [1] rtCompute →
     s.sess ix.sessIx = some x →
     s.vocabFor x = some voc →
     s.privMapped c ix.run.ctx ix.ra.toNat (2 * voc.vocabSize) = true →
     (s.issued ix .text [wH ix.w] n).readPriv c ix.run.ctx ix.ra.toNat (2 * voc.vocabSize) = some (s.issued ix .text [wH ix.w] n, .ok, 0, b) →
     Completes (.sampleProbe c) s fun t => ReceiptTaken c ix n t ∧ t.ssn = s.ssn ∧ t.mem = s.mem ∧
         ∀ v, (((s.issued ix .text [wH ix.w] n).unitServe 4 (hubOfClerk c) ix.run.ctx).sample voc x.text
             ((List.range voc.vocabSize).map (fun k => BitVec.ofNat 16 (leAt b (2 * k) 2)))).token = some v →
           t.slotResult c n = some (word0 .ok v, 0)) ∧
  (∀ (c n : Nat) (s u : State) (ix : Ix) (k : Nat) (v : Table) (b : List Byte) (a : Nat),
     IssuesOn s c ix (isSub 0x33 1) n [9] rtCompute →
     tableNamed s.txt.vocabs (hObj (ix.cl.h (wH ix.w))) = some (k, v) →
     (dbits ix.desc 96 32 = 0 ∧ dbits ix.desc 225 287 = 0 ∧ dbits ix.desc 64 32 = 1 ∧ 72 ≤ dbits ix.desc 192 32) →
     (s.privMapped c ix.run.ctx (dbits ix.desc 0 64) 4 = true ∧ s.privMapped c ix.run.ctx (dbits ix.desc 128 64) (dbits ix.desc 192 32) = true) →
     (s.issued ix .text [wH ix.w] n).readPriv c ix.run.ctx (dbits ix.desc 0 64) 4 = some (s.issued ix .text [wH ix.w] n, .ok, 0, b) →
     (changeText v (decide (dbits ix.desc 224 1 = 1)) [leAt b 0 4 % 2 ^ 20]).length ≤ 64 →
     ((s.issued ix .text [wH ix.w] n).unitServe 4 (hubOfClerk c) ix.run.ctx).writePriv c ix.run.ctx (dbits ix.desc 128 64) (natLe 8 (changeText v (decide (dbits ix.desc 224 1 = 1)) [leAt b 0 4 % 2 ^ 20]).length ++ changeText v (decide (dbits ix.desc 224 1 = 1)) [leAt b 0 4 % 2 ^ 20]) = some (u, .ok, a) →
     Completes (.changeText c) s fun t => t.mem = u.mem ∧
         t.slotResult c n = some (word0 .ok 1, BitVec.ofNat 64 (changeText v (decide (dbits ix.desc 224 1 = 1)) [leAt b 0 4 % 2 ^ 20]).length))

/-- A TBL_LOAD whose table passes every check of R146 puts it into the lowest free slot (the model's choice, log 9), names it in its slot
register and answers DONE with the event; TBL_UNLOAD marks its table. A COLL_CREATE whose descriptor passes R176 makes the collection with
its identifier, status and event; COLL_DROP empties it and advances its GEN, and its index is free once the journal holds none of its
units. TEST_MODE is refused while a collection is open; any other write of VSR_CFG takes its defined bits. A fold that is due starts. A
Weigh pass adds the visible candidates of its pages; an Assay whose codewords are readable ranks the candidates exactly and delivers at
most K. A rebuilt sketch page takes part again. -/
def Obligations.TablesAndCollections : Prop :=
  (∀ (rq : Requester) (v : Word) (s u1 u2 : State) (hd bs : List Byte) (clear : Bool) (size k : Nat),
     WriteOpen s rq .txtTblLoad 0 →
     low6 v = 0 →
     s.sweepTables.readMem (keyHub v.toNat) 256 = (u1, .ok, hd) →
     (clear = isClear hd ∧ size = leAt hd (if clear then 0x30 else 0x38) 8 ∧ size ≤ (if clear then 64 else 96) * 2 ^ 20) →
     u1.readMem (keyHub v.toNat) (max size 256) = (u2, .ok, bs) →
     u2.tableCheck rq clear size ⟨bs.take (max size 256), false⟩ = (0, k) →
     Completes (.tblLoad rq v) s fun t => (if clear then t.txt.grams else t.txt.vocabs).look k = some ⟨bs.take (max size 256), false⟩ ∧
         t.rd (if clear then .txtGramSlot else .txtVocabSlot) k = BitVec.ofNat 64 (leAt (bs.take (max size 256)) 0x10 8) ∧
         t.rd .txtTblStatus 0 = BitVec.ofNat 64 (2 + b2n clear * 8 + k % 16 * 16) ∧
         bit (t.rd .txtEvt 0).toNat Evt.txt_loadDone.bit = true ∧ t.mem = u2.mem) ∧
  (∀ (rq : Requester) (v : Word) (s : State) (x : Table) (d : Txt),
     WriteOpen s rq .txtTblUnload 0 →
     ((if bit v.toNat 4 then s.txt.grams else s.txt.vocabs).look (bits v.toNat 0 4) = some x) →
     s.actsFor rq x.ctx = true →
     (d = if bit v.toNat 4 then { s.txt with grams := s.txt.grams.upd (bits v.toNat 0 4) (fun y => { y with unloading := true }) }
         else { s.txt with vocabs := s.txt.vocabs.upd (bits v.toNat 0 4) (fun y => { y with unloading := true }) }) →
     Completes (.tblUnload rq v) s fun t => t = State.sweepTables { s with txt := d } ∧
         ((if bit v.toNat 4 then t.txt.grams else t.txt.vocabs).look (bits v.toNat 0 4)).all (fun y => y.unloading) = true) ∧
  (∀ (rq : Requester) (v : Word) (s : State) (k : Coll) (i : Nat),
     WriteOpen s rq .vsrCollCreate 0 →
     low6 v = 0 →
     collForm (s.bytesAt (keyHub v.toNat) 64) = true →
     k = collOf (s.vsr.gens.lookD i 1) (s.bytesAt (keyHub v.toNat) 64) →
     (s.resident k.ctx && s.actsFor rq k.ctx) = true →
     lowestFree s.vsr.colls.has 0 1024 = some i →
     ((s.vsr.colls.rows.map (fun r => if r.2.dropping then 0 else r.2.maxVectors)).sum + k.maxVectors ≤ 16000000000) →
     (s.grMapped k.ctx k.centroids.toNat (2 * k.npart * k.dim) && s.grMapped k.ctx k.work.toNat k.workBytes) = true →
     Completes (.collCreate rq v) s fun t => t.vsr.colls.look i = some k ∧ t.rd .vsrCollId i = collIdent k.ctx i k.gen ∧
         t.rd .vsrCollStatus 0 = BitVec.ofNat 64 (2 + i % 1024 * 65536) ∧ bit (t.rd .vsrEvt 0).toNat Evt.vsr_createDone.bit = true ∧
         (∀ j, j ≠ i → t.vsr.colls.look j = s.vsr.colls.look j) ∧ t = { s with vsr := t.vsr, regs := t.regs, latches := t.latches }) ∧
  (∀ (rq : Requester) (v : Word) (s : State) (k : Coll) (g : Nat),
     WriteOpen s rq .vsrCollDrop 0 →
     s.vsr.colls.look (bits v.toNat 0 10) = some k →
     (s.actsFor rq k.ctx = true ∧ k.dropping = false) →
     (g = if k.gen + 1 < 2 ^ 48 then k.gen + 1 else 1) →
     Completes (.collDrop rq v) s fun t => t.vsr.gens.look (bits v.toNat 0 10) = some g ∧
         (t.vsr.colls.look (bits v.toNat 0 10)).map (fun x => (x.dropping, x.gen, x.entries, x.writes)) = some (true, g, [], []) ∧ t.mem = s.mem) ∧
  (∀ (i : Nat) (s : State) (k : Coll),
     s.Live →
     s.vsr.colls.look i = some k →
     (k.dropping = true ∧ s.fls.jbufs.any (fun _ b => b.1.any (fun r => k.gone.contains r.unit)) = false) →
     Completes (.collIndexFree i) s fun t => t.vsr.colls.look i = none ∧ t.rd .vsrCollId i = 0 ∧ RegsKept [(.vsrCollId, i)] s t ∧
         t = { s with vsr := { s.vsr with colls := t.vsr.colls }, regs := t.regs }) ∧
  (∀ (rq : Requester) (v : Word) (s : State),
     WindowOpen s rq →
     (s.regReach .vsrCfg 0 = true ∧ s.isModule rq = true) →
     (bit v.toNat 0 = false ∨ s.vsr.colls.any (fun _ k => !k.dropping) = false) →
     Completes (.vsrCfgWrite rq v) s fun t =>
         t.rd .vsrCfg 0 = s.definedBits .vsrCfg 0 v ∧ RegsKept [(.vsrCfg, 0)] s t ∧
         t = { s with regs := t.regs }) ∧
  (∀ (rq : Requester) (v : Word) (s : State),
     WindowOpen s rq →
     (s.regReach .vsrCfg 0 = true ∧ s.isModule rq = true) →
     (bit v.toNat 0 = true ∧ s.vsr.colls.any (fun _ k => !k.dropping) = true) →
     Completes (.vsrCfgWrite rq v) s fun t => t.rd .vsrCfg 0 = s.rd .vsrCfg 0 ∧
         t.rd .vsrEvt 0 = s.rd .vsrEvt 0 ||| BitVec.ofNat 64 (2 ^ Evt.vsr_cfgRefused.bit) ∧ t = { s with regs := t.regs, latches := t.latches }) ∧
  (∀ (i e : Nat) (s : State) (k : Coll),
     s.Live →
     s.vsr.colls.look i = some k →
     (k.dropping = false ∧ k.fold = none) →
     k.foldDue (s.fld Fld.vsrCfg_foldEntries) = true →
     Completes (.vectorFold i e) s fun t => t.vsr.colls.look i =
           some { k with fold := some ⟨k.fresh, k.base, k.epoch - 1, s.now + e * 1000⟩, fresh := k.fresh + 1, base := k.epoch } ∧
         t = { s with vsr := { s.vsr with colls := t.vsr.colls } }) ∧
  (∀ (ch : Nat) (s : State) (p : VPass) (l : List VPass) (x : VSearch) (k : Coll),
     s.Live →
     s.vsr.passes.look ch = some (p :: l) →
     (s.hubUp (hubOfChannel ch) = true ∧ s.chanSt ch = 1) →
     s.vsr.searches.look p.op = some x →
     s.vsr.colls.look x.coll = some k →
     1 < x.waiting →
     Completes (.weighPass ch) s fun t => t.vsr.passes.look ch = some l ∧
         (t.vsr.searches.look p.op).map (fun y => (y.waiting, y.cands)) =
           some (x.waiting - 1, x.cands ++ (weigh k x p).filter (fun c => visibleAt x.tombs x.epoch c.ent)) ∧
         t.vsr.colls = s.vsr.colls ∧ t.mem = s.mem) ∧
  (∀ (op n b : Nat) (s u : State) (x : VSearch) (k : Coll) (cs : List (Nat × Nat × MapEnt)) (best : List (F32 × Nat)) (recs : List (List Byte)) (sl : Slot),
     s.Live →
     s.vsr.searches.look op = some x →
     (x.assay = true ∧ s.hubUp x.hub = true) →
     s.vsr.colls.look x.coll = some k →
     (cs = (x.cands.flatMap (fun c => (k.slotCws c.ent.slot).filterMap (fun w => s.logPlace k w))).eraseDups) →
     (cs.any s.cwRebuilding = false ∧ cs.all (fun q => !s.unitAway q.2.2 && !q.2.2.lost) = true) →
     (best = (x.cands.map (fun c => (exactScore k.metric x.q.query (k.decodeVec ((k.log.lookD c.ent.slot []).drop 32)), c.ent.key))).mergeSort
         (fun a b => !(rankBefore (scoreRank k.metric b.1, b.2) (scoreRank k.metric a.1, a.2)))) →
     (n = (List.range 32).foldl (fun a ch => max a (cs.filter (fun q => decide (s.cwChan q = ch))).length) 0) →
     (recs = (best.take x.q.k).map (fun r => resultRec r.2 r.1 0 false)) →
     s.writePriv x.rcpt.clerk x.ctx x.q.output.toNat recs.flatten = some (u, .ok, b) →
     ((s.clerk x.rcpt.clerk).slot x.rcpt.slot = sl ∧ sl.occupied = true ∧ sl.serial = x.rcpt.serial) →
     Completes (.assay op) s fun t => t.slotResult x.rcpt.clerk x.rcpt.slot = some
         (if recs.length < x.q.k then (word0 .partialS recs.length, BitVec.ofNat 64 x.q.k)
           else (word0 .ok recs.length, BitVec.ofNat 64 (x.maxPages + n * 2 ^ 32)))) ∧
  (∀ (i p g : Nat) (s : State) (k : Coll),
     s.Live →
     s.vsr.colls.look i = some k →
     (k.dropping = false ∧ k.lost.contains (p, g) = true ∧ s.boot.flashUp = true) →
     (s.putUnits (.vecData i) (s.collWrites i [] [(p, g)])).2 ≠ [] →
     Completes (.sketchRebuild i p g) s fun t =>
         (t.vsr.colls.look i).map (fun x => (x.lost, x.entries)) = some (k.lost.filter (fun q => decide (q ≠ (p, g))), k.entries))

/-- For every clerk that issues an ALU, ALUI, LI or LIH word whose guard holds, the command completes: s[RD] receives the result of the
function of Table 8-4 on s[RA] and s[RB] or the sign-extended IMM, the sign-extended IMM, or IMM in bits [63:32] over the register's own
bits [31:0]. Where RD is s0 nothing is written. The pc moves to the next word; every other register of the clerk, every other clerk and
the rest of the state stay as they are. -/
def Obligations.AluInstructionsWriteTheirRegister : Prop :=
  (∀ (c : Nat) (s : State) (ix : Ix),
     Issues s c ix (isMajor 0x01) →
     Completes (.alu c) s (ScalarWritten c ix (wRD ix.w) (aluOp (wFnRR ix.w) (ix.cl.s (wRA ix.w)) (ix.cl.s (wRB ix.w))) s)) ∧
  (∀ (c : Nat) (s : State) (ix : Ix),
     Issues s c ix (isMajor 0x02) →
     Completes (.alui c) s (ScalarWritten c ix (wRD ix.w) (aluOp (wFnRI ix.w) (ix.cl.s (wRA ix.w)) (wImm32 ix.w)) s)) ∧
  (∀ (c : Nat) (s : State) (ix : Ix),
     Issues s c ix (isMajor 0x03) →
     Completes (.li c) s (ScalarWritten c ix (wRD ix.w) (wImm32 ix.w) s)) ∧
  (∀ (c : Nat) (s : State) (ix : Ix),
     Issues s c ix (isMajor 0x04) →
     Completes (.lih c) s (ScalarWritten c ix (wRD ix.w) ((ix.w.extractLsb' 0 32 ++ (ix.cl.s (wRD ix.w)).extractLsb' 0 32 : BitVec 64)) s))

/-- For every clerk that issues a CMP, CMPI or PLOG word whose guard holds, the command completes: p[PD] receives s[RA] rel s[RB], s[RA] rel
IMM, or p[PA] op p[PB], with FN 0 EQ, 1 NE, 2 LT and 3 GE signed, 4 LTU, 5 GEU, 6 ANY, and 0 AND, 1 OR, 2 XOR, 3 ANDN; a write to p0 is
discarded; the pc moves to the next word and nothing else changes. A CMP or CMPI word with FN 7 to 31 and a PLOG word with FN 4 to 31 is
not a defined word, and a clerk that reaches it takes an ILLEGAL trap (class 1 in its trap record), its run ending with CAUSE 1. -/
def Obligations.CompareAndPredicateInstructions : Prop :=
  (∀ (c : Nat) (s : State) (ix : Ix),
     Issues s c ix (isMajor 0x05) →
     Completes (.cmp c) s (PredWritten c ix (wf ix.w 47 3) (cmpOp (wFnRR ix.w) (ix.cl.s (wRA ix.w)) (ix.cl.s (wRB ix.w))) s)) ∧
  (∀ (c : Nat) (s : State) (ix : Ix),
     Issues s c ix (isMajor 0x06) →
     Completes (.cmpi c) s (PredWritten c ix (wf ix.w 47 3) (cmpOp (wFnRI ix.w) (ix.cl.s (wRA ix.w)) (wImm32 ix.w)) s)) ∧
  (∀ (c : Nat) (s : State) (ix : Ix),
     Issues s c ix (isMajor 0x07) →
     Completes (.plog c) s (PredWritten c ix (wf ix.w 47 3) (plogOp (wFnRR ix.w) (ix.cl.p (wf ix.w 42 3)) (ix.cl.p (wf ix.w 37 3))) s)) ∧
  (∀ (a b : Word),
     cmpOp 0 a b = decide (a = b) ∧ cmpOp 1 a b = decide (a ≠ b) ∧ cmpOp 2 a b = decide (a.toInt < b.toInt) ∧
         cmpOp 3 a b = decide (a.toInt ≥ b.toInt) ∧ cmpOp 4 a b = decide (a.toNat < b.toNat) ∧ cmpOp 5 a b = decide (a.toNat ≥ b.toNat) ∧
         cmpOp 6 a b = decide (a &&& b ≠ 0)) ∧
  (∀ (a b : Bool),
     plogOp 0 a b = (a && b) ∧ plogOp 1 a b = (a || b) ∧ plogOp 2 a b = (a ^^ b) ∧ plogOp 3 a b = (a && !b)) ∧
  (∀ (ix : Ix),
     ((isMajor 0x05 ix = true ∧ 7 ≤ wFnRR ix.w) ∨ (isMajor 0x06 ix = true ∧ 7 ≤ wFnRI ix.w) ∨ (isMajor 0x07 ix = true ∧ 4 ≤ wFnRR ix.w)) →
     ix.legal = false) ∧
  (∀ (c : Nat) (s : State) (ix : Ix),
     s.issuer c = some ix →
     ix.legal = false →
     Completes (.undefinedEncoding c) s fun t =>
         RunEnds c ix 1 1 0 0 ix.cl.pc t ∧ TrapRecorded c 1 0 ix.cl.pc 0 t)

/-- A clerk that issues a BR word with a true guard goes on at PC + IMM × 8, and one that issues a JR word at (s[RA] & ~7) + IMM × 8, a byte
offset in the code section; both write PC + 8 to s[RL], except that RL = s0 discards the link. Nothing else of the clerk, no other clerk
and nothing else of the state changes. A BR word whose RA is not s0 is no defined word. A BR whose guard is false only moves the pc to the
next word, which makes a guarded BR a conditional branch. -/
def Obligations.BranchesJumpAndLink : Prop :=
  (∀ (c : Nat) (s : State) (ix : Ix),
     Issues s c ix (isMajor 0x08) →
     Completes (.br c) s (Jumped c ix (wRD ix.w) (ix.cl.pc + wImm32 ix.w * 8) s)) ∧
  (∀ (c : Nat) (s : State) (ix : Ix),
     Issues s c ix (isMajor 0x09) →
     Completes (.jr c) s (Jumped c ix (wRD ix.w) ((ix.cl.s (wRA ix.w) &&& ~~~(7 : Word)) + wImm32 ix.w * 8) s)) ∧
  (∀ (ix : Ix),
     isMajor 0x08 ix = true →
     wRA ix.w ≠ 0 →
     ix.legal = false) ∧
  (∀ (c : Nat) (s : State) (ix : Ix),
     s.issuer c = some ix →
     ix.legal = true →
     isMajor 0x08 ix = true →
     ix.guard = false →
     Completes (.br c) s fun t => t = s.setClerk c { ix.cl with pc := ix.cl.pc + 8 })

/-- A clerk of a native run that issues DINS with a true guard puts s[RS] into 64-bit word WORD of d[DREG], word 0 being bits [63:0] and word
7 bits [511:448], and keeps the other seven words and every other register; one that issues DEXT puts that word into s[RS], s0 excepted.
The pc moves to the next word, and no other clerk and nothing else of the state changes. -/
def Obligations.DescriptorWordInstructions : Prop :=
  (∀ (c : Nat) (s : State) (ix : Ix),
     Issues s c ix (isMajor 0x0A) →
     ix.img.compat = false →
     Completes (.dins c) s fun t =>
         (∀ i k, k < 8 → ((t.clerk c).d false i).extractLsb' (64 * k) 64 =
           if i = wDreg ix.w ∧ k = wWordIx ix.w then ix.cl.s (wRD ix.w) else (ix.cl.d false i).extractLsb' (64 * k) 64) ∧
         t.clerk c = { ix.cl with dreg := (t.clerk c).dreg, pc := ix.cl.pc + 8 } ∧
         (∀ d, d ≠ c → t.clerk d = s.clerk d) ∧ t = { s with tlr := { s.tlr with clerks := t.tlr.clerks } }) ∧
  (∀ (c : Nat) (s : State) (ix : Ix),
     Issues s c ix (isMajor 0x0B) →
     ix.img.compat = false →
     Completes (.dext c) s (ScalarWritten c ix (wRD ix.w) ((ix.cl.d false (wDreg ix.w)).extractLsb' (64 * wWordIx ix.w) 64) s))

/-- FENCE.M and FENCE.N with a true guard only move the pc. FENCE.D does the same when no domain store of the clerk is outstanding, and
otherwise the clerk stalls. TRAP with CODE 0 ends the run: the clerk drains, and its completion record will hold CAUSE 0 and EXIT = s1.
TRAP with another CODE raises BREAK: the trap record holds class 9 and the code; an image with a trap entry starts it, unless the handler
already runs, with the class, the code, the pc and 0 in s1 to s4; without one the run ends with CAUSE 1. -/
def Obligations.FencesAndTraps : Prop :=
  (∀ (c : Nat) (s : State) (ix : Ix),
     Issues s c ix (isFence 0) →
     Completes (.fenceM c) s fun t => t = s.setClerk c { ix.cl with pc := ix.cl.pc + 8 }) ∧
  (∀ (c : Nat) (s : State) (ix : Ix),
     Issues s c ix (isFence 1) →
     Completes (.fenceN c) s fun t => t = s.setClerk c { ix.cl with pc := ix.cl.pc + 8 }) ∧
  (∀ (c : Nat) (s : State) (ix : Ix),
     Issues s c ix (isFence 2) →
     Completes (.fenceD c) s fun t =>
         t = s.setClerk c (if s.storesOut c then { ix.cl with stall := some .fenceD } else { ix.cl with pc := ix.cl.pc + 8 })) ∧
  (∀ (c : Nat) (s : State) (ix : Ix),
     Issues s c ix (isMajor 0x70) →
     wCode ix.w = 0 →
     Completes (.trapExit c) s (RunEnds c ix 0 0 0 (ix.cl.s 1) 0)) ∧
  (∀ (c : Nat) (s : State) (ix : Ix),
     Issues s c ix (isMajor 0x70) →
     wCode ix.w ≠ 0 →
     Completes (.brk c) s fun t => TrapRecorded c 9 (wCode ix.w) ix.cl.pc 0 t ∧
         if ix.img.trapEntry = true ∧ ix.cl.handler = false then HandlerStarts c ix 9 (wCode ix.w) ix.cl.pc 0 t
         else RunEnds c ix 1 9 (wCode ix.w % 2 ^ 16) 0 ix.cl.pc t) ∧
  (∀ (c : Nat) (s : State) (ix : Ix),
     Issues s c ix (isMajor 0x71) →
     ix.img.wantsFreeze = true →
     s.freezeRight ix.run.ctx = true →
     s.pwrSt ≤ 1 →
     s.frz.deferred = none →
     Completes (.freeze c) s fun t => t.frz.frozen = true ∧ t.frz.cause = 3 ∧ t.frz.clerk = c ∧ t.frz.code = wCode ix.w ∧
         t.clerk c = { ix.cl with st := .frozen, kept := .ready, pc := ix.cl.pc + 8 } ∧ t.mem = s.mem)

/-- For a clerk whose LD, ST or AMO with a true guard reaches memory without a failure in a private granule or in its own stack: LD puts the
bytes there into its destination, a scalar, a pair or a d register by SIZE, sign-extended with SX, and leaves memory alone; ST writes the
register's bytes there and changes no other byte; AMO writes the sum, the swapped value, or for CAS s[RB] where the old value equals
s[RC], and returns the old value. ST and AMO are for a page that no open Statement protects. An LD with RO reads the image's read-only
data. The pc moves to the next word; no other clerk changes. -/
def Obligations.LoadsStoresAndAtomics : Prop :=
  (∀ (c : Nat) (s : State) (ix : Ix) (key : Nat),
     Issues s c ix (isMajor 0x48) →
     ix.w.getLsbD 27 = false →
     PrivateAccess s ix key →
     s.CleanAt key ix.memBytes →
     Completes (.ld c) s fun t =>
         t = s.setClerk c { ix.cl.setRegBytes (wSize ix.w) (wRD ix.w) (ix.w.getLsbD 26) (s.bytesAt key ix.memBytes) with
                            pc := ix.cl.pc + 8 }) ∧
  (∀ (c : Nat) (s : State) (ix : Ix) (key : Nat),
     Issues s c ix (isMajor 0x49) →
     PrivateAccess s ix key →
     (s.protectedAt key).isEmpty = true →
     s.CleanAt key (ix.cl.regBytes ix.img.compat (wSize ix.w) (wRB ix.w)).length →
     Memory.wf s.mem = true →
     Completes (.st c) s fun t =>
         t.bytesAt key (ix.cl.regBytes ix.img.compat (wSize ix.w) (wRB ix.w)).length = ix.cl.regBytes ix.img.compat (wSize ix.w) (wRB ix.w) ∧
         BytesKept key (ix.cl.regBytes ix.img.compat (wSize ix.w) (wRB ix.w)).length s t ∧
         t.clerk c = { ix.cl with pc := ix.cl.pc + 8 } ∧ (∀ d, d ≠ c → t.clerk d = s.clerk d) ∧
         t = { s with mem := t.mem, badSyms := t.badSyms, poison := t.poison, tlr := { s.tlr with clerks := t.tlr.clerks } }) ∧
  (∀ (c : Nat) (s : State) (ix : Ix) (key : Nat),
     Issues s c ix (isMajor 0x4A) →
     PrivateAccess s ix key →
     (s.protectedAt key).isEmpty = true →
     s.CleanAt key ix.memBytes →
     Memory.wf s.mem = true →
     Completes (.amo c) s fun t =>
         t.numAt key ix.memBytes % 2 ^ (8 * ix.memBytes) =
           amoNew (wf ix.w 26 2) ix.memBytes (s.numAt key ix.memBytes) (leNat (ix.cl.regBytes false (wSize ix.w) (wRB ix.w)))
             (leNat (ix.cl.regBytes false (wSize ix.w) (wRC ix.w))) % 2 ^ (8 * ix.memBytes) ∧
         BytesKept key ix.memBytes s t ∧
         t.clerk c = { ix.cl.setRegBytes (wSize ix.w) (wRD ix.w) false (s.bytesAt key ix.memBytes) with pc := ix.cl.pc + 8 } ∧
         (∀ d, d ≠ c → t.clerk d = s.clerk d) ∧
         t = { s with mem := t.mem, badSyms := t.badSyms, poison := t.poison, tlr := { s.tlr with clerks := t.tlr.clerks } }) ∧
  (∀ (c : Nat) (s : State) (ix : Ix),
     Issues s c ix (isMajor 0x48) →
     ix.w.getLsbD 27 = true →
     ix.addr.toNat + ix.memBytes ≤ ix.img.rodata.length →
     ix.addr.toNat % ix.memBytes = 0 →
     Completes (.ld c) s fun t =>
         t = s.setClerk c { ix.cl.setRegBytes (wSize ix.w) (wRD ix.w) (ix.w.getLsbD 26) (takeAt ix.img.rodata ix.addr.toNat ix.memBytes) with
                            pc := ix.cl.pc + 8 })

/-- WAIT on the clerk's own tag: a complete slot is consumed, its words go to s[RD] and s[RE] (s[RE] written last), p[PD] is set, the slot is
free and TLR_CLK_RCPT_CON counts 1; an incomplete one makes the clerk wait for it with its timeout; a tag that names no occupied slot of
the clerk with its SERIAL raises RECEIPT, which ends the run. WAIT_TIMEOUT and YIELD_TIMEOUT clear p[PD] and move the pc, and the Receipt
stays and the count of the signal is unchanged. SIGNAL on a signal without waiters adds s[RA], saturating at 2^64 − 1. YIELD without USE_H
moves the pc; with it, on a signal without waiters, it takes s[RA] from a count that is at least that and sets p[PD], and otherwise the
clerk waits in the signal's queue. -/
def Obligations.WaitingAndSignals : Prop :=
  (∀ (c : Nat) (s : State) (ix : Ix) (k : Nat),
     Issues s c ix (isMajor 0x60) →
     s.ownTag c (ix.cl.s (wRA ix.w)) = some k →
     (ix.cl.slot k).complete = true →
     (ix.cl.slot k).openH = none →
     Completes (.wait c) s fun t =>
         (∀ i, (t.clerk c).s i = if i = wRB ix.w ∧ wRB ix.w ≠ 0 then (ix.cl.slot k).word1
           else if i = wRD ix.w ∧ wRD ix.w ≠ 0 then (ix.cl.slot k).word0 else ix.cl.s i) ∧
         (∀ i, (t.clerk c).p i = if i = wPDw ix.w ∧ wPDw ix.w ≠ 0 then true else ix.cl.p i) ∧
         (t.clerk c).pc = ix.cl.pc + 8 ∧ ((t.clerk c).slot k).occupied = false ∧
         t.rd .tlrClkRcptCon c = s.rd .tlrClkRcptCon c + 1 ∧ RegsKept [(.tlrClkRcptCon, c)] s t ∧ t.mem = s.mem ∧
         (∀ d, d ≠ c → t.clerk d = s.clerk d)) ∧
  (∀ (c : Nat) (s : State) (ix : Ix) (k : Nat),
     Issues s c ix (isMajor 0x60) →
     s.ownTag c (ix.cl.s (wRA ix.w)) = some k →
     (ix.cl.slot k).complete = false →
     Completes (.wait c) s fun t =>
         t = s.setClerk c { ix.cl with st := .waiting, waitFor := some (.receipt k),
                                       waitUntil := if wTimeout ix.w = 0 then none else some (s.now + wTimeout ix.w * 1000) }) ∧
  (∀ (c : Nat) (s : State) (ix : Ix),
     Issues s c ix (isMajor 0x60) →
     s.ownTag c (ix.cl.s (wRA ix.w)) = none →
     Completes (.wait c) s fun t => RunEnds c ix 1 5 0 0 ix.cl.pc t ∧ TrapRecorded c 5 0 ix.cl.pc 0 t) ∧
  (∀ (c k t0 : Nat) (s : State) (r : Run) (img : Image),
     s.Live →
     (s.clerk c).waitFor = some (.receipt k) →
     (s.clerk c).run = some r →
     s.tlr.images.look r.slot = some img →
     (s.clerk c).st = .waiting →
     ((s.clerk c).slot k).complete = false →
     (s.clerk c).waitUntil = some t0 →
     t0 ≤ s.now →
     Completes (.waitTimeout c) s fun t =>
         (∀ i, (t.clerk c).p i = if i = wPDw (img.wordAt (s.clerk c).pc) ∧ i ≠ 0 then false else (s.clerk c).p i) ∧
         t.clerk c = { s.clerk c with preg := (t.clerk c).preg, st := .ready, waitFor := none, waitUntil := none, pc := (s.clerk c).pc + 8 } ∧
         (∀ d, d ≠ c → t.clerk d = s.clerk d) ∧ t = { s with tlr := { s.tlr with clerks := t.tlr.clerks } }) ∧
  (∀ (c : Nat) (s : State) (ix : Ix) (g : Signal),
     Issues s c ix (isMajor 0x61) →
     s.checkSignal ix (wH ix.w) rtWrite = none →
     s.tlr.signals.look (sigIndex (hObj (ix.cl.h (wH ix.w)))) = some g →
     g.waiters = [] →
     Completes (.signal c) s fun t =>
         t.tlr.signals.look (sigIndex (hObj (ix.cl.h (wH ix.w)))) =
           some { g with count := min (g.count + (ix.cl.s (wLRA ix.w)).toNat) (2 ^ 64 - 1) } ∧
         (∀ j, j ≠ sigIndex (hObj (ix.cl.h (wH ix.w))) → t.tlr.signals.look j = s.tlr.signals.look j) ∧
         t.clerk c = { ix.cl with pc := ix.cl.pc + 8 } ∧ (∀ d, d ≠ c → t.clerk d = s.clerk d) ∧
         t = { s with tlr := { s.tlr with clerks := t.tlr.clerks, signals := t.tlr.signals } }) ∧
  (∀ (c : Nat) (s : State) (ix : Ix),
     Issues s c ix (isMajor 0x62) →
     wUseH ix.w = false →
     Completes (.yield c) s fun t => t = s.setClerk c { ix.cl with pc := ix.cl.pc + 8 }) ∧
  (∀ (c : Nat) (s : State) (ix : Ix) (g : Signal),
     Issues s c ix (isMajor 0x62) →
     wUseH ix.w = true →
     s.checkSignal ix (wHw ix.w) rtRead = none →
     s.tlr.signals.look (sigIndex (hObj (ix.cl.h (wHw ix.w)))) = some g →
     g.waiters = [] →
     Completes (.yield c) s fun t =>
         if (ix.cl.s (wRA ix.w)).toNat ≤ g.count then
           t.tlr.signals.look (sigIndex (hObj (ix.cl.h (wHw ix.w)))) = some { g with count := g.count - (ix.cl.s (wRA ix.w)).toNat } ∧
           (t.clerk c).p (wPDw ix.w) = true ∧ (t.clerk c).st = .ready ∧ (t.clerk c).pc = ix.cl.pc + 8
         else
           t.tlr.signals.look (sigIndex (hObj (ix.cl.h (wHw ix.w)))) =
             some { g with waiters := [(c, (ix.cl.s (wRA ix.w)).toNat, wPDw ix.w)] } ∧
           t.clerk c = { ix.cl with st := .waiting, waitFor := some (.signal (sigIndex (hObj (ix.cl.h (wHw ix.w))))),
                                    waitUntil := if wTimeout ix.w = 0 then none else some (s.now + wTimeout ix.w * 1000) }) ∧
  (∀ (c i t0 : Nat) (s : State),
     s.Live →
     (s.clerk c).waitFor = some (.signal i) →
     (s.clerk c).st = .waiting →
     (s.clerk c).waitUntil = some t0 →
     t0 ≤ s.now →
     Completes (.yieldTimeout c) s fun t =>
         (t.clerk c).st = .ready ∧ (t.clerk c).pc = (s.clerk c).pc + 8 ∧ (t.clerk c).waitFor = none ∧
         (∀ k, (t.clerk c).s k = (s.clerk c).s k) ∧
         (∀ g a pd, s.tlr.signals.look i = some g → g.waiters = [(c, a, pd)] →
           (t.clerk c).p pd = decide (pd = 0) ∧ t.tlr.signals.look i = some { g with waiters := [] }))

/-- OPEN with TYPE 11 and GEN 0 in the run's own context, resident, with a free signal index: a Receipt slot is taken, s[RD] holds its tag,
the lowest free signal is live with count 0 and no handle, and the slot will deliver OK and the identifier of that signal, with the handle
for h[H]; h[H] is empty until the WAIT. BIND puts a copy of h[H2] whose rights are narrowed by IMM into h[H] when h[H2] passes the check
with the grant right. DROP of a register whose handle has no operation outstanding empties it, and of an empty register only moves the pc. -/
def Obligations.HandlesOpenBindDrop : Prop :=
  (∀ (c n i : Nat) (s : State) (ix : Ix),
     IssuesLong s c ix (isMajor 0x10) n →
     wImm24 ix.w % 16 = 11 →
     sigGen ix.ra = 0 →
     sigCtx ix.ra = ix.run.ctx →
     s.resident ix.run.ctx = true →
     ix.cl.h (wH ix.w) = 0 →
     (lowestFree (fun k => match s.tlr.signals.look k with | some g => g.live | none => false) 0 4096 = some i) →
     Completes (.openObj c) s fun t => ReceiptTaken c ix n t ∧ (t.clerk c).h (wH ix.w) = 0 ∧
         ∃ g, t.tlr.signals.look i = some g ∧ g.live = true ∧ g.ctx = ix.run.ctx ∧ g.count = 0 ∧ g.refs = 0 ∧
           t.slotResult c n = some (word0 .ok 0, sigIdent ix.run.ctx i g.gen) ∧
           ((t.clerk c).slot n).openH =
             some (wH ix.w, mkHandle ix.run.ctx 11 (grantRights 0xFF (wImm24 ix.w / 16 % 256)) (sigIdent ix.run.ctx i g.gen))) ∧
  (∀ (c : Nat) (s : State) (ix : Ix),
     Issues s c ix (isMajor 0x11) →
     s.checkHandle ix.run.ctx (ix.cl.h (wH2 ix.w)) [1, 2, 3, 4, 5, 6, 7, 8, 9, 10, 11] rtGrant = none →
     wImm24 ix.w % 256 ≠ 0 →
     Completes (.bind c) s fun t =>
         (t.clerk c).h (wH ix.w) = mkHandle (hCtx (ix.cl.h (wH2 ix.w))) (hType (ix.cl.h (wH2 ix.w)))
           (hRights (ix.cl.h (wH2 ix.w)) &&& wImm24 ix.w % 256) (hObj (ix.cl.h (wH2 ix.w))) ∧
         t.clerk c = { ix.cl with hreg := (t.clerk c).hreg, pc := ix.cl.pc + 8 } ∧ (∀ d, d ≠ c → t.clerk d = s.clerk d)) ∧
  (∀ (c : Nat) (s : State) (ix : Ix),
     Issues s c ix (isMajor 0x12) →
     ix.cl.busySlots = [] →
     Completes (.drop c) s fun t =>
         (t.clerk c).h (wH ix.w) = 0 ∧ t.clerk c = { ix.cl with hreg := (t.clerk c).hreg, pc := ix.cl.pc + 8 } ∧
         (∀ d, d ≠ c → t.clerk d = s.clerk d) ∧ t.mem = s.mem)

/-- On a session handle with the move right and a well-formed descriptor: PARK to the Passbook alone of an ACTIVE session that nothing is
under way for makes it PARKING with the hints of the descriptor; PARK with DISCARD and the delete right frees a session without a request
and answers OK; REVIVE of an ACTIVE session answers OK with its resident layers, and of a PARKED one whose KV is to be recomputed makes it
REVIVING; MOVE of a session without KV to a member of the domain makes it MOVING and sends it there; PIN of a session in T1 and UNPIN set
and clear the pin and answer OK. Each takes a Receipt. HINT takes none: it writes CLASS, EXP_WAIT and EXP_RESUME of a session that is not
parked and moves to the next word. -/
def Obligations.SessionInstructions : Prop :=
  (∀ (c n : Nat) (s : State) (ix : Ix) (x : Session),
     IssuesOn s c ix (isSub 0x18 0) n [1] rtMove →
     mvBad ix.desc 1 = false →
     dbits ix.desc 6 1 = 0 →
     s.sess ix.sessIx = some x →
     (x.st = .active ∧ x.op = none ∧ x.placing = none) →
     (dbits ix.desc 7 1 = 1 ∨ x.kvBytes = 0) →
     dbits ix.desc 8 1 = 0 →
     Completes (.park c) s fun t => ReceiptTaken c ix n t ∧ t.slotResult c n = none ∧
         (t.sess ix.sessIx).map (fun y => (y.st, y.placing, y.op)) =
           some (.parking, some ⟨0xFF, 0, none, none⟩, some ⟨c, n, ix.nextSerial n, 1, .active, 0xFF, false⟩) ∧
         (t.sess ix.sessIx).map (fun y => (y.cls, y.cfoilKv, y.expWait, y.expResume, y.passbook, y.pages)) =
           some (dbits ix.desc 4 2, false, dbits ix.desc 32 32, dbits ix.desc 64 64, x.passbook, x.pages)) ∧
  (∀ (c n : Nat) (s : State) (ix : Ix) (x : Session),
     IssuesOn s c ix (isSub 0x18 0) n [1] rtMove →
     mvBad ix.desc 1 = false →
     dbits ix.desc 6 1 = 1 →
     hasRights (hRights (ix.cl.h (wH ix.w))) rtDelete = true →
     s.sess ix.sessIx = some x →
     (x.req = none ∧ x.op = none ∧ x.placing = none) →
     Completes (.park c) s fun t => ReceiptTaken c ix n t ∧ t.sess ix.sessIx = none ∧ t.slotResult c n = some (word0 .ok 0, 0)) ∧
  (∀ (c n : Nat) (s : State) (ix : Ix) (x : Session),
     IssuesOn s c ix (isSub 0x19 0) n [1] rtMove →
     mvBad ix.desc 2 = false →
     s.sess ix.sessIx = some x →
     x.st = .active →
     Completes (.revive c) s fun t => ReceiptTaken c ix n t ∧ t.slotResult c n = some (word0 .ok (s.layersRes x), 0) ∧
         t.sess ix.sessIx = some (x.hints ix.desc) ∧ t.mem = s.mem) ∧
  (∀ (c n : Nat) (s : State) (ix : Ix) (x : Session),
     IssuesOn s c ix (isSub 0x19 0) n [1] rtMove →
     mvBad ix.desc 2 = false →
     s.sess ix.sessIx = some x →
     (x.st = .parked ∧ x.op = none ∧ x.placing = none) →
     (x.kvKept = false ∧ x.recompute.isSome = true) →
     Completes (.revive c) s fun t => ReceiptTaken c ix n t ∧ t.slotResult c n = none ∧
         (t.sess ix.sessIx).map (fun y => (y.st, y.op.map (fun m => (m.clerk, m.slot, m.op, m.flag)))) =
           some (.reviving, some (c, n, 2, decide (dbits ix.desc 9 1 = 1)))) ∧
  (∀ (c n : Nat) (s : State) (ix : Ix) (x : Session) (m : Member),
     IssuesOn s c ix (isSub 0x1A 0) n [1] rtMove →
     mvBad ix.desc 3 = false →
     s.sess ix.sessIx = some x →
     ((x.st = .active ∨ x.st = .parked) ∧ x.op = none ∧ x.placing = none) →
     s.dmap.members.look (dbits ix.desc 128 5) = some m →
     (m.small = false ∨ x.kvFmt ≠ 2) →
     (x.pages = [] ∧ x.parked = []) →
     Completes (.move c) s fun t => ReceiptTaken c ix n t ∧
         (t.sess ix.sessIx).map (fun y => (y.st, y.op.map (fun m => (m.clerk, m.slot, m.op, m.target)))) =
           some (.moving, some (c, n, 3, dbits ix.desc 128 5)) ∧
         (∃ k, t.out = s.out ++ [.sessMove (dbits ix.desc 128 5) (s.identOf ix.sessIx x) k]) ∧ t.mem = s.mem) ∧
  (∀ (c n : Nat) (s : State) (ix : Ix) (x : Session),
     (IssuesOn s c ix (fun ix => isSub 0x1B 0 ix && decide (mvOp ix.desc ≠ 5)) n [1] rtMove) →
     mvBad ix.desc 4 = false →
     (dbits ix.desc 11 3 = 0 ∨ (2 ≤ dbits ix.desc 11 3 ∧ dbits ix.desc 11 3 ≤ 4)) →
     s.sess ix.sessIx = some x →
     ((x.st = .active ∨ x.st = .reviving) ∧ x.placing = none) →
     (dbits ix.desc 11 3 ≠ 0 ∨ (s.pinnedPages ix.sessIx + x.kvBytes / 65536) * 100 ≤ s.pgSum .ssnPgTotal * s.fld Fld.ssnPlaceCfg_pinPct) →
     Completes (.pin c) s fun t => ReceiptTaken c ix n t ∧ t.slotResult c n = some (word0 .ok 0, 0) ∧
         t.sess ix.sessIx = some { x.hints ix.desc with pinned := true, pinTier := dbits ix.desc 11 3 } ∧ t.mem = s.mem) ∧
  (∀ (c n : Nat) (s : State) (ix : Ix) (x : Session),
     (IssuesOn s c ix (fun ix => isSub 0x1B 0 ix && decide (mvOp ix.desc = 5)) n [1] rtMove) →
     mvBad ix.desc 5 = false →
     s.sess ix.sessIx = some x →
     Completes (.unpin c) s fun t => ReceiptTaken c ix n t ∧ t.slotResult c n = some (word0 .ok 0, 0) ∧
         t.sess ix.sessIx = some { x.hints ix.desc with pinned := false, pinTier := 0 } ∧ t.mem = s.mem) ∧
  (∀ (c : Nat) (s : State) (ix : Ix) (x : Session),
     Issues s c ix (isSub 0x1C 0) →
     s.checkHandle ix.run.ctx (ix.cl.h (wH ix.w)) [1] rtMove = none →
     s.sess ix.sessIx = some x →
     x.st ≠ .parked →
     Completes (.hint c) s fun t => t.clerk c = { ix.cl with pc := ix.cl.pc + 8 } ∧
         t.sess ix.sessIx = some { x with cls := dbits ix.desc 4 2, expWait := dbits ix.desc 32 32, expResume := dbits ix.desc 64 64 } ∧
         (∀ d, d ≠ c → t.clerk d = s.clerk d) ∧
         t = { s with tlr := { s.tlr with clerks := t.tlr.clerks }, ssn := { s.ssn with sessions := t.ssn.sessions } })

/-- Each takes a Receipt. ATTN of a placed message its group's form accepts takes the message out of its buffer. ATTN MERGE of readable
records writes the merged records, or with FINAL the output rows, to the place named and answers OK with their count. SUBMIT on a session
without a request, of a registered model whose vocabulary belongs to the context, for a customer with something available, and which no
admission check defers, opens the request with the descriptor's tag, customer, model, limit and input. CANCEL with no request open
completes with OK at once; with one in a step it marks it. KERNEL on an EXTERNAL group of the context records the operation and sends
descriptor and tables to the group. -/
def Obligations.RequestsAndAttention : Prop :=
  (∀ (c n g : Nat) (s u : State) (ix : Ix) (row : RecvMsg) (bytes : List Byte) (md : Model) (f : LayerForm),
     IssuesOn s c ix (isSub 0x20 0) n [8] rtCompute →
     (u = (s.onTlr (fun t => { t with opCtr := s.tlr.opCtr + 1 })).issued ix (.attn (s.tlr.opCtr + 1)) [wH ix.w] n) →
     s.kva.inbox.look (ix.run.ctx, dbits ix.desc 0 64) = some row →
     (dbits ix.desc 192 320 = 0 ∧ dbits ix.desc 128 64 = 0) →
     s.privMapped c ix.run.ctx (dbits ix.desc 0 64) row.bytes = true →
     u.readPriv c ix.run.ctx (dbits ix.desc 0 64) row.bytes = some (u, .ok, 0, bytes) →
     (s.groupOf row.port = some g ∧ s.groupModel g = some md ∧ s.groupLead g = some row.port ∧ row.port = (hObj (ix.cl.h (wH ix.w))).toNat) →
     (parseMsg bytes).step = dbits ix.desc 64 64 →
     s.msgRefused (s.stepOn row.port (parseMsg bytes).step) (decide ((s.group g).role = .external)) md (parseMsg bytes) = false →
     md.forms[(parseMsg bytes).layer]? = some f →
     (ix.img.compat = false ∨ row.kvu = true ∨ (f.kind ≠ 1 ∧ f.sparseB = 0)) →
     Completes (.attn c) s fun t => ReceiptTaken c ix n t ∧ t.kva.inbox.look (ix.run.ctx, dbits ix.desc 0 64) = none ∧
         t.tlr.opCtr = s.tlr.opCtr + 1) ∧
  (∀ (c n : Nat) (s u : State) (ix : Ix) (a b : List Byte) (k : Nat),
     IssuesLong s c ix (isSub 0x21 0) n →
     (dbits ix.desc 229 283 = 0 ∧ dbits ix.desc 192 32 = 1 ∧ dbits ix.desc 228 1 = 0) →
     (s.privMapped c ix.run.ctx (dbits ix.desc 0 64) (8 + 64 * (dbits ix.desc 224 4 + 1)) = true ∧ s.privMapped c ix.run.ctx (dbits ix.desc 64 64) (8 + 64 * (dbits ix.desc 224 4 + 1)) = true ∧ s.privMapped c ix.run.ctx (dbits ix.desc 128 64) (8 + 64 * (dbits ix.desc 224 4 + 1)) = true) →
     (s.issued ix .attnMerge [] n).readPriv c ix.run.ctx (dbits ix.desc 0 64) (8 + 64 * (dbits ix.desc 224 4 + 1)) = some (s.issued ix .attnMerge [] n, .ok, 0, a) →
     (s.issued ix .attnMerge [] n).readPriv c ix.run.ctx (dbits ix.desc 64 64) (8 + 64 * (dbits ix.desc 224 4 + 1)) = some (s.issued ix .attnMerge [] n, .ok, 0, b) →
     (s.issued ix .attnMerge [] n).writePriv c ix.run.ctx (dbits ix.desc 128 64) (mergeRecord (16 * (dbits ix.desc 224 4 + 1)) (takeAt a 0 (8 + 64 * (dbits ix.desc 224 4 + 1))) (takeAt b 0 (8 + 64 * (dbits ix.desc 224 4 + 1)))) = some (u, .ok, k) →
     Completes (.attnMerge c) s fun t => ReceiptTaken c ix n t ∧ t.mem = u.mem ∧ t.slotResult c n = some (word0 .ok 1, 0)) ∧
  (∀ (c n stepUs rate finUs : Nat) (s : State) (ix : Ix) (x : Session) (m : Model) (voc : Table),
     (IssuesOn s c ix (fun ix => reqWord ix (fun op => decide (op ≠ 2))) n [1] rtCompute) →
     (dbits ix.desc 0 4 = 1 ∧ dbits ix.desc 4 28 = 0 ∧ dbits ix.desc 322 190 = 0 ∧ dbits ix.desc 320 2 % 2 = 0) →
     s.ledgerRoom (dbits ix.desc 208 16) = true →
     s.resident ix.run.ctx = true →
     dbits ix.desc 288 32 ≤ 4194304 →
     (dbits ix.desc 288 32 = 0 ∨ s.privMapped c ix.run.ctx (dbits ix.desc 224 64) (4 * dbits ix.desc 288 32) = true) →
     s.sess ix.sessIx = some x →
     (x.req = none ∧ x.st ≠ .parking ∧ x.st ≠ .moving) →
     (s.sch.models.look (dbits ix.desc 192 16) = some m ∧ s.vocabOf m = some voc ∧ m.unreg = false) →
     (voc.ctx = ix.run.ctx ∧ (s.cust (dbits ix.desc 208 16)).bound.getD ix.run.ctx = ix.run.ctx) →
     0 < ((s.cust (dbits ix.desc 208 16)).refillTo s.nodeNs).available →
     s.admitCheck ix.sessIx (dbits ix.desc 192 16) (dbits ix.desc 288 32) (dbits ix.desc 32 32) stepUs rate finUs = none →
     Completes (.submit c stepUs rate finUs) s fun t => ReceiptTaken c ix n t ∧
         (t.sess ix.sessIx).bind (fun y => y.req.map (fun q => (q.tag, q.customer, q.model, q.maxNew))) =
           some (BitVec.ofNat 64 (dbits ix.desc 128 64), dbits ix.desc 208 16, dbits ix.desc 192 16, dbits ix.desc 32 32) ∧
         (t.sess ix.sessIx).bind (fun y => y.req.map (fun q => (q.inputLen, q.inputLeft, q.clerk, q.slot, q.serial))) =
           some (dbits ix.desc 288 32, dbits ix.desc 288 32, c, n, ix.nextSerial n)) ∧
  (∀ (c n : Nat) (s : State) (ix : Ix) (x : Session),
     (IssuesOn s c ix (fun ix => reqWord ix (fun op => decide (op = 2))) n [1] rtCompute) →
     (dbits ix.desc 4 28 = 0 ∧ dbits ix.desc 322 190 = 0) →
     s.sess ix.sessIx = some x →
     x.req = none →
     Completes (.cancel c) s fun t => ReceiptTaken c ix n t ∧ t.receiptHolds c n (word0 .ok 0) 0 ∧ t.ssn = s.ssn ∧ t.mem = s.mem) ∧
  (∀ (c n : Nat) (s : State) (ix : Ix) (x : Session) (q : ReqBlk),
     (IssuesOn s c ix (fun ix => reqWord ix (fun op => decide (op = 2))) n [1] rtCompute) →
     (dbits ix.desc 4 28 = 0 ∧ dbits ix.desc 322 190 = 0) →
     s.sess ix.sessIx = some x →
     x.req = some q →
     s.inStep ix.sessIx = true →
     Completes (.cancel c) s fun t => ReceiptTaken c ix n t ∧ t.slotResult c n = none ∧
         t.sess ix.sessIx = some { x with req := some { q with cancelling := true } } ∧ t.sch = s.sch ∧ t.mem = s.mem) ∧
  (∀ (c n g : Nat) (s u : State) (ix : Ix) (tables : List Byte),
     IssuesOn s c ix (isSub 0x28 1) n [8] rtCompute →
     (u = (s.onTlr (fun t => { t with opCtr := s.tlr.opCtr + 1 })).issued ix (.kernel (s.tlr.opCtr + 1)) [wH ix.w] n) →
     s.groupOfLead (hObj (ix.cl.h (wH ix.w))).toNat = some g →
     ((s.group g).role = .external ∧ (s.group g).extCtx = ix.run.ctx) →
     kernelDescOk ix.desc g = true →
     (s.privMapped c ix.run.ctx ix.ra.toNat (dbits ix.desc 160 32) = true ∧ s.privMapped c ix.run.ctx ix.rb.toNat (wImm24 ix.w * 64) = true) →
     u.readPriv c ix.run.ctx ix.ra.toNat (dbits ix.desc 160 32) = some (u, .ok, 0, tables) →
     Completes (.dispatchKernel c) s fun t => ReceiptTaken c ix n t ∧ t.out = s.out ++ [.kernelDesc g ix.desc tables] ∧
         t.sch.kernels.look (s.tlr.opCtr + 1) = some ⟨c, n, ix.nextSerial n, ix.run.ctx, g, dbits ix.desc 64 64, ix.rb.toNat, wImm24 ix.w * 64, s.now⟩ ∧
         t.mem = s.mem)

/-- On a collection handle with the right each needs: SEARCH with a well-formed descriptor, a mapped output, a readable, finite query and room
in its hub's queue takes a Receipt and enters a query. VDELETE of readable keys appends one tombstone for each key at the collection's
epoch, and VINSERT of readable, finite vectors that fit appends an entry for each and, with REPLACE, a tombstone; each execution raises
the epoch by exactly 1 and takes a Receipt. This holds for a collection whose working region has room, with the flash pool open, the
extents and the flush budget the operation needs. -/
def Obligations.VectorInstructions : Prop :=
  (∀ (c n : Nat) (s : State) (ix : Ix) (k : Coll) (bs : List Byte),
     IssuesOn s c ix (isSub 0x38 0) n [2] rtRead →
     s.vsr.colls.look (bits (hObj (ix.cl.h (wH ix.w))).toNat 48 10) = some k →
     searchForm ix.desc (decide (s.fld Fld.vsrCfg_testMode = 1)) = true →
     s.privMapped c ix.run.ctx (dbits ix.desc 384 64) (16 * dbits ix.desc 16 13) = true →
     (s.issued ix (.search 0) [wH ix.w] n).readPriv c ix.run.ctx (dbits ix.desc 320 64) (4 * k.dim) = some (s.issued ix (.search 0) [wH ix.w] n, .ok, 0, bs) →
     (∀ j, j < k.dim → fFinite (f32At bs j) = true) →
     (s.vsr.searches.countIf (fun _ x => decide (x.hub = hubOfClerk c) && !x.executing) < 4096) →
     Completes (.search c) s fun t => ReceiptTaken c ix n t ∧ t.vsr.opCtr = s.vsr.opCtr + 1 ∧ t.vsr.colls = s.vsr.colls) ∧
  (∀ (c n : Nat) (s : State) (ix : Ix) (k : Coll) (keys : List Byte),
     IssuesOn s c ix (isSub 0x3A 0) n [2] (rtWrite + rtDelete) →
     s.vsr.colls.look (bits (hObj (ix.cl.h (wH ix.w))).toNat 48 10) = some k →
     vwriteForm ix.desc 2 = true →
     (s.issued ix (.vwrite 0 0) [wH ix.w] n).readPriv c ix.run.ctx (dbits ix.desc 64 64) (8 * dbits ix.desc 32 32) = some (s.issued ix (.vwrite 0 0) [wH ix.w] n, .ok, 0, keys) →
     k.workUsed k.allPages (k.tombs.length + dbits ix.desc 32 32) ≤ k.workBytes →
     s.boot.flashUp = true →
     s.fls.extents.size + k.newExts [] [] < 16777216 →
     s.dirtRoom (16 * dbits ix.desc 32 32) = true →
     Completes (.vdelete c) s fun t => ReceiptTaken c ix n t ∧
         (t.vsr.colls.look (bits (hObj (ix.cl.h (wH ix.w))).toNat 48 10)).map (fun y => (y.epoch, y.tombs, y.entries)) =
           some (k.epoch + 1, k.tombs ++ (List.range (dbits ix.desc 32 32)).map (fun j => (leAt keys (8 * j) 8, k.epoch)), k.entries)) ∧
  (∀ (c n : Nat) (s u : State) (ix : Ix) (k new : Coll) (keys vecs tags attrs : List Byte),
     IssuesOn s c ix (isSub 0x39 0) n [2] rtWrite →
     u = s.issued ix (.vwrite 0 0) [wH ix.w] n →
     s.vsr.colls.look (bits (hObj (ix.cl.h (wH ix.w))).toNat 48 10) = some k →
     (vwriteForm ix.desc 1 = true ∧ dbits ix.desc 32 32 = 1) →
     (u.readPriv c ix.run.ctx (dbits ix.desc 64 64) 8 = some (u, .ok, 0, keys) ∧ u.readPriv c ix.run.ctx (dbits ix.desc 128 64) (k.dim * elemBytes k.elem) = some (u, .ok, 0, vecs) ∧ u.readPriv c ix.run.ctx (dbits ix.desc 192 64) 8 = some (u, .ok, 0, tags) ∧ u.readPriv c ix.run.ctx (dbits ix.desc 256 64) 4 = some (u, .ok, 0, attrs)) →
     (k.decodeVec (takeAt vecs 0 (k.dim * elemBytes k.elem))).all fFinite = true →
     new = k.withInserts 1 (bit (dbits ix.desc 4 1) 0) keys tags attrs [takeAt vecs 0 (k.dim * elemBytes k.elem)] (s.freeLogSlots (bits (hObj (ix.cl.h (wH ix.w))).toNat 48 10) k 1) →
     ({ new with epoch := new.epoch + 1 } : Coll).visible.length ≤ k.maxVectors →
     k.workUsed new.allPages new.tombs.length ≤ k.workBytes →
     (s.boot.flashUp = true ∧ s.pool = 0) →
     s.poolFull (s.newUnits k (k.touched (s.freeLogSlots (bits (hObj (ix.cl.h (wH ix.w))).toNat 48 10) k 1)) (new.changedPages k)) = false →
     s.fls.extents.size + k.newExts (k.touched (s.freeLogSlots (bits (hObj (ix.cl.h (wH ix.w))).toNat 48 10) k 1)) (new.changedPages k) < 16777216 →
     (s.dirtRoom (16 * ((new.tombs.drop k.tombs.length).length + ((new.changedPages k).filter (fun p => !(k.pages.has p))).length)) = true) →
     Completes (.vinsert c) s fun t => ReceiptTaken c ix n t ∧
         (t.vsr.colls.look (bits (hObj (ix.cl.h (wH ix.w))).toNat 48 10)).map (fun y => (y.epoch, y.entries, y.tombs)) =
           some (k.epoch + 1, new.entries, new.tombs))

/-- On a domain region handle with the publish right, in a domain and not as its leader, with a valid leader: ESC.ACQ, ESC.PUB with the
clerk's domain stores acknowledged, and ESC.REL that change the region's Escrow take a Receipt and send the operation to the leader; an
ESC.ACQ by the owner answers OK with the version at once. On a job handle with the write right: BEGIN of a later step with the slot free
opens a Statement of that step without shards and answers OK with the slot; ADD of a shard that fits and needs no recall appends it and
answers OK with its bytes; COMMIT of a Statement with pages still to copy records itself and leaves the Statement open; with every page
copied it makes the header, and the notice goes to the coordinator. -/
def Obligations.EscrowAndStatementInstructions : Prop :=
  (∀ (c n : Nat) (s : State) (ix : Ix) (r : DomRegion),
     IssuesOn s c ix (isMajor 0x50) n [5] rtPublish →
     (s.domSt ≠ 4 ∧ s.dfb.leading = false ∧ s.fld Fld.dfbStatus_leaderValid = 1) →
     s.dmap.regions.look (bits (hObj (ix.cl.h (wH ix.w))).toNat 48 14) = some r →
     (∀ y ∈ s.dfb.esc, y.key ≠ s.tlr.opCtr + 1) →
     (escEval r .acq s.self s.dmap.epoch).2.2 = true →
     Completes (.escAcq c) s fun t => ReceiptTaken c ix n t ∧ t.slotResult c n = none ∧
         t.out = s.out ++ [.propose (.escrow (bits (hObj (ix.cl.h (wH ix.w))).toNat 48 14) .acq s.self (s.tlr.opCtr + 1))] ∧
         t.dfb = { s.dfb with esc := s.dfb.esc ++
           [⟨c, n, ix.nextSerial n, bits (hObj (ix.cl.h (wH ix.w))).toNat 48 14, .acq, false, none, s.tlr.opCtr + 1, true⟩] } ∧ t.mem = s.mem) ∧
  (∀ (c n : Nat) (s : State) (ix : Ix) (r : DomRegion),
     IssuesOn s c ix (isMajor 0x51) n [5] rtPublish →
     (s.domSt ≠ 4 ∧ s.dfb.leading = false ∧ s.fld Fld.dfbStatus_leaderValid = 1) →
     s.dmap.regions.look (bits (hObj (ix.cl.h (wH ix.w))).toNat 48 14) = some r →
     (∀ y ∈ s.dfb.esc, y.key ≠ s.tlr.opCtr + 1) →
     s.storesOut c = false →
     (escEval r (.pub ix.ra.toNat) s.self s.dmap.epoch).2.2 = true →
     Completes (.escPub c) s fun t => ReceiptTaken c ix n t ∧ t.slotResult c n = none ∧
         t.out = s.out ++ [.propose (.escrow (bits (hObj (ix.cl.h (wH ix.w))).toNat 48 14) (.pub ix.ra.toNat) s.self (s.tlr.opCtr + 1))] ∧
         t.dfb = { s.dfb with esc := s.dfb.esc ++
           [⟨c, n, ix.nextSerial n, bits (hObj (ix.cl.h (wH ix.w))).toNat 48 14, (.pub ix.ra.toNat), false, none, s.tlr.opCtr + 1, true⟩] } ∧ t.mem = s.mem) ∧
  (∀ (c n : Nat) (s : State) (ix : Ix) (r : DomRegion),
     IssuesOn s c ix (isMajor 0x52) n [5] rtPublish →
     (s.domSt ≠ 4 ∧ s.dfb.leading = false ∧ s.fld Fld.dfbStatus_leaderValid = 1) →
     s.dmap.regions.look (bits (hObj (ix.cl.h (wH ix.w))).toNat 48 14) = some r →
     (∀ y ∈ s.dfb.esc, y.key ≠ s.tlr.opCtr + 1) →
     (escEval r .rel s.self s.dmap.epoch).2.2 = true →
     Completes (.escRel c) s fun t => ReceiptTaken c ix n t ∧ t.slotResult c n = none ∧
         t.out = s.out ++ [.propose (.escrow (bits (hObj (ix.cl.h (wH ix.w))).toNat 48 14) .rel s.self (s.tlr.opCtr + 1))] ∧
         t.dfb = { s.dfb with esc := s.dfb.esc ++
           [⟨c, n, ix.nextSerial n, bits (hObj (ix.cl.h (wH ix.w))).toNat 48 14, .rel, false, none, s.tlr.opCtr + 1, true⟩] } ∧ t.mem = s.mem) ∧
  (∀ (c n : Nat) (s : State) (ix : Ix) (r : DomRegion),
     IssuesOn s c ix (isMajor 0x50) n [5] rtPublish →
     (s.domSt ≠ 4 ∧ s.dfb.leading = false ∧ s.fld Fld.dfbStatus_leaderValid = 1) →
     s.dmap.regions.look (bits (hObj (ix.cl.h (wH ix.w))).toNat 48 14) = some r →
     (∀ y ∈ s.dfb.esc, y.key ≠ s.tlr.opCtr + 1) →
     r.owner = some s.self →
     Completes (.escAcq c) s fun t => ReceiptTaken c ix n t ∧ t.slotResult c n = some (word0 .ok 0, BitVec.ofNat 64 r.version) ∧
         t.dfb = s.dfb ∧ t.out = s.out ∧ t.mem = s.mem) ∧
  (∀ (c n : Nat) (s : State) (ix : Ix) (x : StmJob) (told : Bool),
     IssuesOn s c ix (isMajor 0x58) n [7] rtWrite →
     s.stm.jobs.look (jobIndex (ix.cl.h (wH ix.w))) = some x →
     (x.openSlot = none ∧ x.begin = none) →
     (x.record.map (·.step)).getD 0 < ix.ra.toNat →
     (x.slotA.isSome = true ∨ x.slotB.isSome = true ∨ x.record.isSome = true ∨ s.coordAgrees x told = true) →
     x.flushHolds x.nextSlot = false →
     Completes (.stmtBegin c told) s fun t => ReceiptTaken c ix n t ∧
         t.slotResult c n = some (word0 .ok 0, BitVec.ofNat 64 x.nextSlot) ∧
         ((t.stm.jobs.look (jobIndex (ix.cl.h (wH ix.w)))).bind (·.openStm)).map (fun v => (v.step, v.shards, v.header)) =
           some (ix.ra.toNat, [], false) ∧ t.mem = s.mem) ∧
  (∀ (c n : Nat) (s : State) (ix : Ix) (x : StmJob) (v : Statement) (h : Shard),
     IssuesOn s c ix (isMajor 0x59) n [7] rtWrite →
     s.stm.jobs.look (jobIndex (ix.cl.h (wH ix.w))) = some x →
     (x.openStm = some v ∧ x.commit = none) →
     shardOf ix.desc x.desc.slotBytes = some h →
     (h.space = 0 ∧ s.privMapped c ix.run.ctx h.off h.bytes = true) →
     (∀ a ∈ v.shards, a.id ≠ h.id ∧ a.meets h = false) →
     ((v.shards.map (fun a => a.count)).sum + h.count ≤ x.desc.pages ∧ v.shards.length < 4096) →
     (∀ r ∈ s.stm.jobs.rows, r.2.adds = []) →
     Completes (.stmtAdd c) s fun t => ReceiptTaken c ix n t ∧ t.slotResult c n = some (word0 .ok 0, BitVec.ofNat 64 h.bytes) ∧
         ((t.stm.jobs.look (jobIndex (ix.cl.h (wH ix.w)))).bind (·.openStm)).map (·.shards) =
           some (v.shards ++ [{ h with first := v.counts.1 }]) ∧ t.mem = s.mem) ∧
  (∀ (c n : Nat) (s : State) (ix : Ix) (x : StmJob) (v : Statement),
     IssuesOn s c ix (isMajor 0x5A) n [7] rtWrite →
     s.stm.jobs.look (jobIndex (ix.cl.h (wH ix.w))) = some x →
     (x.openStm = some v ∧ x.commit = none ∧ x.adds = []) →
     v.shards ≠ [] →
     v.counts.2 < v.counts.1 →
     Completes (.stmtCommit c) s fun t => ReceiptTaken c ix n t ∧ t.slotResult c n = none ∧
         t.stm.jobs.look (jobIndex (ix.cl.h (wH ix.w))) = some { x with commit := some ⟨c, n, ix.nextSerial n⟩ } ∧ t.out = s.out ∧ t.mem = s.mem) ∧
  (∀ (c n : Nat) (s : State) (ix : Ix) (x : StmJob) (v : Statement),
     IssuesOn s c ix (isMajor 0x5A) n [7] rtWrite →
     s.stm.jobs.look (jobIndex (ix.cl.h (wH ix.w))) = some x →
     (x.openStm = some v ∧ x.commit = none ∧ x.adds = []) →
     v.shards ≠ [] →
     (v.counts.1 ≤ v.counts.2 ∧ v.header = false) →
     (x.cfLost = false ∧ x.desc.coord ≠ s.self) →
     Completes (.stmtCommit c) s fun t => ReceiptTaken c ix n t ∧ t.slotResult c n = none ∧
         ((t.stm.jobs.look (jobIndex (ix.cl.h (wH ix.w)))).bind (·.openStm)).map (fun v => (v.step, v.header)) = some (v.step, true) ∧
         t.out = s.out ++ [.memberNotice x.desc.coord x.desc.tag x.desc.rank v.step v.noticeShards] ∧ t.mem = s.mem)

/-- While the module is not frozen: a channel that negotiates within the ranges is accepted with its published figures. A write that finds
room in an open pool is queued; when it is programmed its entry switches, its data are kept and its owner hears OK. A journal buffer that
is due is programmed and no longer dirty. After 4 GiB of journal a checkpoint goes to the other slot and frees the journal. A read of a
mapped unit gives its data, counts the bytes and the superblock's read; a unit no step recovers becomes lost and reads POISON. A discard
unmaps exactly the units of its range; a secure discard removes the extent, with its salt, its writes and its units. -/
def Obligations.FlashChannelsAndWrites : Prop :=
  (∀ (ch : Nat) (a : NandAnswer) (s : State),
     s.Live →
     (ch < 32 ∧ s.boot.done.contains 5 = true ∧ s.chanSt ch = 0 ∧ s.hubUp (hubOfChannel ch) = true ∧ s.boot.chanOut.contains ch = false) →
     s.negReason ch a = 0 →
     Completes (.channelNegotiate ch a) s fun t => t.rd .flsChStatus ch = BitVec.ofNat 64 (1 + a.rate * 4 + ones32 a.ready * 64) ∧
         t.rd .flsChParam ch = BitVec.ofNat 64 (a.planes + a.bitsPerCell * 2 ^ 4 + a.blocks * 2 ^ 8 + a.pages * 2 ^ 25) ∧
         t.rd .flsChTime ch = a.time ∧ t.rd .flsChTime2 ch = a.time2 &&& ~~~(0xF0000000 : Word) ∧
         t.rd .flsChReserve ch = BitVec.ofNat 64 (s.reserveBlocks a.blocks) ∧
         t = { s with fls := { s.fls with reserve := t.fls.reserve }, regs := t.regs, latches := t.latches }) ∧
  (∀ (ch : Nat) (a : NandAnswer) (s : State),
     s.Live →
     (ch < 32 ∧ s.boot.done.contains 5 = true ∧ s.chanSt ch = 0 ∧ s.hubUp (hubOfChannel ch) = true ∧ s.boot.chanOut.contains ch = false) →
     s.negReason ch a ≠ 0 →
     Completes (.channelNegotiate ch a) s fun t => t.chanSt ch = 2 ∧ t.fld Fld.flsChStatus_reason ch = s.negReason ch a ∧
         bit (t.rd .flsEvt 0).toNat Evt.fls_chRefused.bit = true ∧ t = { s with regs := t.regs, latches := t.latches }) ∧
  (∀ (own : FlashOwner) (x first : Nat) (data : List (List Byte)) (till : Bool) (s : State) (e : Extent) (us : List Nat) (n : Nat),
     s.Live →
     s.fls.extents.look x = some e →
     (s.boot.flashUp = true ∧ data ≠ [] ∧ first + data.length ≤ e.units) →
     (us = (List.range data.length).map (fun i => e.base + first + i)) →
     (n = (us.filter (fun u => !(s.fls.map.has u))).length) →
     (s.pool = 0 ∧ s.poolFull n = false) →
     Completes (.flashWrite own x first data till) s fun t => t.fls.writes = s.fls.writes ++
           [⟨s.fls.wrCtr, own, x, first, data, till && decide (s.fld Fld.flsCfg_tillEn = 1), n, us.map (fun u => s.fls.map.look u)⟩] ∧
         t = { s with fls := { s.fls with writes := t.fls.writes, wrCtr := s.fls.wrCtr + 1 } }) ∧
  (∀ (id u : Nat) (tag : Word) (s v : State) (w : FlashWr) (e : Extent) (d : List Byte) (y : MapEnt),
     s.Live →
     (s.fls.writes.find? (fun w => decide (w.id = id)) = some w) →
     (s.fls.held && !w.till) = false →
     (w.owner = .request tag ∧ w.till = false ∧ w.data = [d] ∧ s.fls.extents.look w.extent = some e) →
     (u = e.base + w.first ∧ w.seen = [s.fls.map.look u]) →
     (v = s.onFls (fun f => { f with writes := f.writes.filter (fun x => decide (x.id ≠ id)) })) →
     (v.placeUnit false w.extent e.spread e.chan (v.stripeGroup e.owner)).2 = some y →
     Completes (.flashProgramDone id) s fun t => t.fls.map.look u = some y ∧ t.fls.data.look u = some d ∧
         (∀ k, k ≠ u → t.fls.map.look k = s.fls.map.look k) ∧ t.fls.writes = s.fls.writes.filter (fun x => decide (x.id ≠ id)) ∧
         t.out = s.out ++ [.flashWrote (.request tag) 0]) ∧
  (∀ (h : Nat) (s : State) (b : List JRec × Nat),
     s.Live →
     s.fls.jbufs.look h = some b →
     (b.1 ≠ [] ∧ (65536 ≤ b.1.length ∨ b.2 + 1000000 ≤ s.now ∨ s.fld Fld.pwrStatus_state = 1)) →
     Completes (.journalBufferWrite h) s fun t => t.fls.jbufs.look h = none ∧ t.fls.journalBytes = s.fls.journalBytes + 16 * b.1.length ∧
         t.dirtyOf .journal = s.dirtyOf .journal - 16 * b.1.length ∧ t.fls.map = s.fls.map) ∧
  (∀ (s : State),
     s.Live →
     (2 ^ 32 ≤ s.fls.journalBytes ∧ s.fls.held = false) →
     Completes .mapCheckpoint s fun t => t.fls.checkpointSlot = 1 - s.fls.checkpointSlot ∧ t.fls.journalBytes = 0 ∧ t.fls.jbufs = .empty ∧
         t.dirtyOf .journal = 0 ∧ t.fls.map = s.fls.map ∧ t.mem = s.mem) ∧
  (∀ (u : Nat) (s : State) (e : MapEnt),
     s.Live →
     (s.fls.held = false ∧ s.fls.map.look u = some e) →
     (s.unitAway e = false ∧ e.lost = false) →
     Completes (.flashRead u .hard) s fun t => t.out = s.out ++ [.flashData u 0 (takeAt (s.fls.data.lookD u []) 0 unitBytes)] ∧
         (t.sb e.sb).reads = (s.sb e.sb).reads + 1 ∧ t.fls.map = s.fls.map ∧ t.fls.data = s.fls.data) ∧
  (∀ (u : Nat) (s : State) (e : MapEnt),
     s.Live →
     (s.fls.held = false ∧ s.fls.map.look u = some e) →
     (s.unitAway e = false ∧ e.lost = false ∧ s.rowAway e = false) →
     Completes (.flashRead u .lost) s fun t => t.out = s.out ++ [.flashData u 0x0031 []] ∧
         t.fls.map.look u = some { e with lost := true } ∧ bit (t.rd .flsEvt 0).toNat Evt.fls_unitLost.bit = true ∧
         (∀ k, k ≠ u → t.fls.map.look k = s.fls.map.look k)) ∧
  (∀ (first n : Nat) (s : State),
     s.Live →
     Completes (.ordinaryDiscard first n) s fun t =>
         (∀ u, t.fls.map.look u = if first ≤ u ∧ u < first + n then none else s.fls.map.look u) ∧ t.fls.extents = s.fls.extents ∧ t.mem = s.mem) ∧
  (∀ (rq : Requester) (v : Word) (s : State) (e : Extent),
     WriteOpen s rq .flsSdisc 0 →
     s.fls.extents.look (bits v.toNat 0 24) = some e →
     bit v.toNat 24 = false →
     (e.owner.map (s.actsFor rq)).getD (decide (rq = .firmware)) = true →
     Completes (.secureDiscard rq v) s fun t => t.fls.extents.look (bits v.toNat 0 24) = none ∧
         t.fls.writes = s.fls.writes.filter (fun w => decide (w.extent ≠ bits v.toNat 0 24)) ∧
         (∀ u, e.base ≤ u → u < e.base + e.units → t.fls.map.look u = none))

/-- While the module is not frozen: a failed LUN sets its bit and event, and its units wait for rebuild; the oldest one's rebuild ends with
its row gone. A fold, a garbage collection, a refresh for reads or for retention, and wear levelling empty the superblock that the rule
names and leave it free where every unit found a place. A failed block comes out of its plane's Reserve while there is one; then its
superblock is retired, with the event. -/
def Obligations.FlashFailuresAndHousekeeping : Prop :=
  (∀ (ch lun : Nat) (s : State),
     s.Live →
     (s.chanSt ch = 1 ∧ lun < 32) →
     bit (s.fld Fld.flsChStatus_lunFailed ch) lun = false →
     (s.fls.rebuild.filter (fun r => decide (r.2.1 = lun) && decide (r.1 ≠ ch)) = []) →
     Completes (.lunFailed ch lun) s fun t => t.fld Fld.flsChStatus_lunFailed ch = s.fld Fld.flsChStatus_lunFailed ch + 2 ^ lun ∧
         bit (t.rd .flsEvt 0).toNat Evt.fls_lunFailed.bit = true ∧ t.fls.map = s.fls.map ∧
         t.fls.rebuild = s.fls.rebuild ++ [(ch, lun, s.unitsOn ch lun)] ∧
         t.fld Fld.flsPoolStatus_rebuilding 0 = 1) ∧
  (∀ (ch lun : Nat) (us : List Nat) (s : State),
     s.Live →
     s.fls.held = false →
     (s.fls.rebuild.find? (fun r => decide (r.1 = ch) && decide (r.2.1 = lun)) = some (ch, lun, us)) →
     Completes (.lunRebuild ch lun) s fun t =>
         t.fls.rebuild = s.fls.rebuild.filter (fun x => !(decide (x.1 = ch) && decide (x.2.1 = lun))) ∧
         t.rd .flsRebuild 0 = BitVec.ofNat 64 ((t.fls.rebuild.map (fun r => r.2.2.length)).sum) ∧ t.mem = s.mem) ∧
  (∀ (i : Nat) (b : Sb) (s u : State),
     s.Live →
     (s.pool ≠ 2 ∧ s.eraseHeld = false ∧ s.foldHigh * s.tillCap < s.tillValid * 100) →
     ¬ (s.tillValid * 100 < s.fld Fld.flsGcCfg_foldLow * s.tillCap) →
     (u = (s.onFls (fun f => { f with folding := true })).setFld Fld.flsPoolStatus_folding 0 1) →
     (leastSb (fun b => b.closedAt) (u.fullSbs true) = some (i, b)) →
     (((u.unitsIn i).foldl (fun s u => s.relocate u false) u).unitsIn i = []) →
     Completes .tillFold s fun t => t.unitsIn i = [] ∧ (t.sb i).st = .free ∧ t.mem = s.mem) ∧
  (∀ (i : Nat) (b : Sb) (s : State),
     s.Live →
     (s.pool ≠ 2 ∧ s.eraseHeld = false ∧ s.sbFree ≤ s.gcLow) →
     (leastSb (fun b => b.valid) (s.fullSbs false) = some (i, b)) →
     (((s.unitsIn i).foldl (fun s u => s.relocate u false) s).unitsIn i = []) →
     Completes .garbageCollection s fun t => t.unitsIn i = [] ∧ (t.sb i).st = .free ∧ (t.sb i).reads = 0 ∧ t.mem = s.mem) ∧
  (∀ (i j : Nat) (b w : Sb) (s : State),
     s.Live →
     (s.pool ≠ 2 ∧ s.eraseHeld = false) →
     (leastSb (fun b => b.wear) (s.fullSbs false) = some (i, b)) →
     s.mostWorn = some (j, w) →
     (b.wear + s.fld Fld.flsGcCfg_wlGap * 10 * 1000 < w.wear ∧ w.slc = false ∧ i ≠ j) →
     Completes .wearLevel s fun t => t.unitsIn i = [] ∧ (∀ u ∈ s.unitsIn i, (t.fls.map.look u).map (·.sb) = some j) ∧ (t.sb i).st = .free ∧
         t.mem = s.mem) ∧
  (∀ (i : Nat) (s : State),
     s.Live →
     s.eraseHeld = false →
     ((if (s.sb i).slc then s.fld Fld.flsRefreshCfg_readLimitSlc else s.fld Fld.flsRefreshCfg_readLimitNative) * 1000 ≤ (s.sb i).reads) →
     (((s.unitsIn i).foldl (fun u k => u.relocate k (s.sb i).slc) s).unitsIn i = []) →
     Completes (.readDisturbRefresh i) s fun t => t.unitsIn i = [] ∧ (t.sb i).st = .free ∧ (t.sb i).reads = 0 ∧ t.mem = s.mem) ∧
  (∀ (i : Nat) (s : State),
     s.Live →
     (s.eraseHeld = false ∧ (s.sb i).st = .full) →
     (((s.unitsIn i).foldl (fun u k => u.relocate k (s.sb i).slc) s).unitsIn i = []) →
     Completes (.retentionScan [i]) s fun t => t.unitsIn i = [] ∧ (t.sb i).st = .free ∧ (t.sb i).reads = 0 ∧ t.mem = s.mem) ∧
  (∀ (ch p sb : Nat) (er : Bool) (s : State),
     s.Live →
     0 < s.fls.reserve.lookD (ch, p) 0 →
     Completes (.blockReplace ch p sb er) s fun t => t.fls.reserve.lookD (ch, p) 0 = s.fls.reserve.lookD (ch, p) 0 - 1 ∧
         (∀ k, k ≠ (ch, p) → t.fls.reserve.lookD k 0 = s.fls.reserve.lookD k 0) ∧
         t = { s with fls := { s.fls with reserve := t.fls.reserve }, regs := t.regs }) ∧
  (∀ (ch p sb : Nat) (er : Bool) (s : State),
     s.Live →
     (s.fls.reserve.lookD (ch, p) 0 = 0 ∧ (s.sb sb).st ≠ .retired) →
     Completes (.blockReplace ch p sb er) s fun t => (t.sb sb).st = .retired ∧ bit (t.rd .flsEvt 0).toNat Evt.fls_sbRetired.bit = true ∧
         t.mem = s.mem)

/-- A JOB_CREATE that passes R254 and whose peer grants its slots makes the member, names it and answers DONE; JOB_DELETE takes it away,
advances its GEN and clears its registers; a new peer that grants is named. A background copy, and a copy before a held write, copies the
page into the slot. A sealed page whose tag holds is stored and acknowledged, another is refused; a refused page goes again, and the third
refusal loses the peer. A notice is kept by its coordinator; the acknowledged Counterfoil lets the member commit record be written at the
node time; the commit notice is kept; the shape digest makes the Statement the last committed one, with its step and event. Slots for a
peer are granted or given back, and a Counterfoil is read out. -/
def Obligations.StatementMembersAndCommit : Prop :=
  (∀ (rq : Requester) (v : Word) (s : State) (d : JobDesc) (j : Nat) (fs : List (Nat × Nat)),
     WriteOpen s rq .stmJobCreate 0 →
     low6 v = 0 →
     (jobForm (s.bytesAt (keyHub v.toNat) 64) = true ∧ d = jobDescOf (s.bytesAt (keyHub v.toNat) 64)) →
     (s.resident d.ctx && s.actsFor rq d.ctx) = true →
     lowestFree s.stm.jobs.has 0 16 = some j →
     (s.pastHigh (2 * d.pages) = false ∧ (s.takeSlots d.ctx j d).2 = some fs) →
     (s.dmap.members.has d.peer = true ∧ d.peer ≠ s.self ∧ s.dfb.leading = false) →
     Completes (.jobCreate rq v true) s fun t =>
         t.stm.jobs.look j = some (StmJob.fresh (s.stm.gens.lookD j 1) d (fs.take d.pages) (fs.drop d.pages)) ∧
         t.rd .stmJobId j = jobIdent d.ctx j (s.stm.gens.lookD j 1) ∧ t.rd .stmJobPeer j = BitVec.ofNat 64 d.peer ∧
         t.rd .stmJobStatus 0 = BitVec.ofNat 64 (j % 16 + 2 * 65536) ∧ (∀ k, k ≠ j → t.stm.jobs.look k = s.stm.jobs.look k)) ∧
  (∀ (rq : Requester) (v : Word) (s : State) (x : StmJob) (j : Nat),
     WriteOpen s rq .stmJobDelete 0 →
     (j = bits v.toNat 0 4 ∧ s.stm.jobs.look j = some x ∧ s.jobAllowed rq j = true) →
     s.dfb.leading = false →
     Completes (.jobDelete rq v) s fun t => t.stm.jobs.look j = none ∧
         t.stm.gens.look j = some (if x.gen + 1 < 2 ^ 54 then x.gen + 1 else 1) ∧
         t.rd .stmJobId j = 0 ∧ t.rd .stmJobStep j = 0 ∧ t.rd .stmJobFlash j = 0 ∧ t.rd .stmJobPages j = 0 ∧ t.rd .stmJobPeer j = 0 ∧
         t.rd .stmJobState j = 0) ∧
  (∀ (rq : Requester) (j : Nat) (v : Word) (s : State) (x : StmJob),
     WindowOpen s rq →
     (j < 16 ∧ s.regReach .stmJobPeer j = true ∧ s.jobAllowed rq j = true ∧ s.stm.jobs.look j = some x) →
     (bits v.toNat 0 5 ≠ s.self ∧ s.dmap.members.has (bits v.toNat 0 5) = true ∧ s.dfb.leading = false) →
     Completes (.jobPeerWrite rq j v true) s fun t =>
         t.stm.jobs.look j = some { x with desc := { x.desc with peer := bits v.toNat 0 5 }, cfLost := false } ∧
         t.rd .stmJobPeer j = BitVec.ofNat 64 (bits v.toNat 0 5) ∧ t.mem = s.mem) ∧
  (∀ (j h k slot : Nat) (s : State) (x : StmJob) (v : Statement) (sh : Shard),
     s.Live →
     s.stm.jobs.look j = some x →
     (x.openStm = some v ∧ x.openSlot = some slot ∧ x.commit = none) →
     (v.nextPage = some (h, k) ∧ v.shards[h]? = some sh) →
     ((x.slotPages slot)[sh.first + k]?).isSome = true →
     Completes (.backgroundCopy j) s fun t =>
         (((t.stm.jobs.look j).bind (·.openStm)).bind (fun w => w.shards[h]?)).map (·.copied) = some (sh.copied ++ [k])) ∧
  (∀ (page j h k slot : Nat) (s : State) (x : StmJob) (v : Statement) (sh : Shard),
     s.Live →
     s.stm.holds.has page = true →
     s.protectedAt page = [(j, h, k)] →
     s.stm.jobs.look j = some x →
     (x.openStm = some v ∧ x.openSlot = some slot ∧ x.commit = none) →
     (v.shards[h]? = some sh ∧ ((x.slotPages slot)[sh.first + k]?).isSome = true) →
     Completes (.copyBeforeWrite page) s fun t =>
         (((t.stm.jobs.look j).bind (·.openStm)).bind (fun w => w.shards[h]?)).map (·.copied) = some (sh.copied ++ [k])) ∧
  (∀ (peer rank slot seq : Nat) (tag : Word) (data : List Byte) (s : State) (c : CfStore),
     s.Live →
     s.stm.stores.look (peer, tag, rank) = some c →
     Completes (.cfPage peer tag rank slot seq data true) s fun t =>
         t.stm.stores.look (peer, tag, rank) = some { c with pages := c.pages.put (slot % 2, seq) data } ∧
         t.out = s.out ++ [.cfPageAnswer peer tag rank seq true] ∧ t = { s with stm := { s.stm with stores := t.stm.stores }, out := t.out }) ∧
  (∀ (peer rank slot seq : Nat) (tag : Word) (data : List Byte) (ok : Bool) (s : State),
     s.Live →
     (ok = false ∨ s.stm.stores.look (peer, tag, rank) = none) →
     Completes (.cfPage peer tag rank slot seq data ok) s fun t => t = { s with out := s.out ++ [.cfPageAnswer peer tag rank seq false] }) ∧
  (∀ (j seq k : Nat) (s : State) (x : StmJob),
     s.Live →
     s.stm.jobs.look j = some x →
     (x.openSlot = some k ∧ x.cfLost = false ∧ x.refusals.lookD seq 0 + 1 < 3) →
     Completes (.cfPageRefusal j seq) s fun t =>
         t.stm.jobs.look j = some { x with refusals := x.refusals.put seq (x.refusals.lookD seq 0 + 1) } ∧
         t.out = s.out ++ [.cfPageOut x.desc.peer x.desc.tag x.desc.rank k seq (s.slotPage x k seq)] ∧
         t = { s with stm := { s.stm with jobs := t.stm.jobs }, out := t.out }) ∧
  (∀ (j seq k : Nat) (s : State) (x : StmJob),
     s.Live →
     s.stm.jobs.look j = some x →
     (x.openSlot = some k ∧ x.cfLost = false ∧ 3 ≤ x.refusals.lookD seq 0 + 1 ∧ x.commit = none) →
     Completes (.cfPageRefusal j seq) s fun t => (t.stm.jobs.look j).map (·.cfLost) = some true ∧ t.out = s.out ∧
         bit (t.rd .stmEvt 0).toNat Evt.stm_cfRefused.bit = true ∧ bit (t.rd .stmEvt 0).toNat Evt.stm_cfLost.bit = true) ∧
  (∀ (j : Nat) (refs : List (Nat × Nat × Nat)) (s : State) (x : StmJob) (v : Statement),
     s.Live →
     s.stm.jobs.look j = some x →
     (x.openStm = some v ∧ x.cfLost = false ∧ x.desc.coord ≠ s.self) →
     (v.header = true ∧ v.mcr = none) →
     Completes (.cfAck j refs) s fun t => (((t.stm.jobs.look j).bind (·.openStm)).map (fun w => (w.step, w.mcr))) = some (v.step, some s.nodeNs) ∧
         t.mem = s.mem) ∧
  (∀ (tag : Word) (rank step c : Nat) (desc : List Byte) (l : List (Nat × Nat × Bool × List Byte)) (s : State) (d : JobDesc),
     s.Live →
     (s.coordinates tag = some d ∧ rank < d.members) →
     Completes (.memberNoticeArrival tag rank step c desc l) s fun t => (t.coord tag).notices.look rank = some ⟨step, c, l⟩ ∧
         (t.coord tag).descs.look rank = some (c, { jobDescOf desc with tag := tag, rank := rank }) ∧ t.stm.jobs = s.stm.jobs ∧ t.mem = s.mem) ∧
  (∀ (tag : Word) (rank step : Nat) (part : List Byte) (s : State) (d : JobDesc),
     s.Live →
     (s.coordinates tag = some d ∧ rank < d.members) →
     Completes (.commitNotice tag rank step part) s fun t => (t.coord tag).commits.look rank = some (step, part) ∧ t.mem = s.mem) ∧
  (∀ (j step k : Nat) (shape : List Byte) (s : State) (x : StmJob) (v : Statement),
     s.Live →
     s.stm.jobs.look j = some x →
     (x.openStm = some v ∧ x.openSlot = some k) →
     (v.step = step ∧ v.mcr.isSome = true) →
     Completes (.shapeDigest j step shape) s fun t => (t.stm.jobs.look j).map (fun y => (y.record, y.openSlot, y.commit)) =
           some (some ⟨step, k, x.cfLost, false, shape, s.nodeNs, (x.record.map (fun r => r.seq + 1)).getD 1⟩, none, none) ∧
         t.rd .stmJobStep j = BitVec.ofNat 64 step ∧ bit (t.rd .stmEvt 0).toNat Evt.stm_commit.bit = true ∧ t.mem = s.mem) ∧
  (∀ (peer rank n : Nat) (tag : Word) (s : State) (m : Member) (fs : List (Nat × Nat)),
     s.Live →
     s.dmap.members.look s.self = some m →
     (n ≠ 0 ∧ m.st ≠ .leaving ∧ s.stm.stores.has (peer, tag, rank) = false ∧ s.pastHigh (2 * (n / 65536)) = false) →
     (s.allocMany 64 rank 254 (2 * (n / 65536)) .alloc).2 = some fs →
     Completes (.counterfoilSlotRequest peer tag rank n) s fun t => t.stm.stores.look (peer, tag, rank) = some ⟨fs, .empty, none⟩ ∧
         t.out = s.out ++ [.cfSlotAnswer peer tag rank true] ∧ t.stm.jobs = s.stm.jobs) ∧
  (∀ (peer rank slot : Nat) (tag : Word) (s : State) (r : (Nat × Word × Nat) × CfStore),
     s.Live →
     s.ssn.cf.look (peer, tag) = none →
     (s.stm.stores.rows.find? (fun r => decide (r.1.2.1 = tag) && decide (r.1.2.2 = rank)) = some r) →
     Completes (.counterfoilFetch peer tag rank slot) s fun t => t = { s with out := s.out ++ [.cfPagesOut peer tag rank
           (((r.2.pages.rows.filter (fun p => decide (p.1.1 = slot % 2))).mergeSort (fun a b => decide (a.1.2 ≤ b.1.2))).map (·.2))] })

/-- A STATEMENT_FLUSH that the pool accepts has its extents going to flash. Once every member's flash commit is known, the step is the
member's flash restore point. A RESTORE with every member of the same shape, a readable slot and mapped ranges copies every page back and
reports the step DONE; a rollback that can restore names the step and sets its event. A spare that can create the member takes it over
with its record, its step and its event. -/
def Obligations.StatementFlushRestoreAndTakeover : Prop :=
  (∀ (j k step : Nat) (s u : State) (x : StmJob) (v : Statement) (data : List (List Byte)) (es : List Nat),
     s.Live →
     s.stm.jobs.look j = some x →
     (x.flushing = some step ∧ x.slotOf step = some (k, v) ∧ x.flashNew = none) →
     (data = (v.shards.filter (fun h => !h.ref)).flatMap (fun h => (List.range h.count).flatMap (fun i =>
         [takeAt (s.slotPage x k (h.first + i)) 0 unitBytes, takeAt (s.slotPage x k (h.first + i)) unitBytes unitBytes]))) →
     (s.flushParts j (chunks 1048576 data.length data) = (u, some es) ∧ es ≠ []) →
     Completes (.statementFlush j) s fun t => (t.stm.jobs.look j).map (·.flashNew) = some (some (v, es, es.length)) ∧ t.fls = u.fls ∧ t.mem = u.mem) ∧
  (∀ (tag : Word) (rank step j : Nat) (s : State) (x : StmJob) (v : Statement) (es : List Nat),
     s.Live →
     (s.coordinates tag = none ∧ s.localMember tag rank = some (j, x) ∧ s.stm.jobs.look j = some x) →
     (x.flashNew = some (v, es, 0) ∧ v.step = step) →
     Completes (.flashCommitNotice tag rank step) s fun t =>
         (t.stm.jobs.look j).map (fun y => (y.flashNew, y.flashCur)) = some (none, some (v, es)) ∧ t.rd .stmJobFlash j = BitVec.ofNat 64 step ∧
         t.mem = s.mem) ∧
  (∀ (rq : Requester) (v : Word) (l : List (List Byte)) (j k : Nat) (s : State) (x : StmJob) (r : JobRec) (w : Statement),
     WriteOpen s rq .stmRestore 0 →
     (j = bits v.toNat 0 4 ∧ bit v.toNat 4 = false ∧ s.jobAllowed rq j = true ∧ s.stm.jobs.look j = some x) →
     (x.record = some r ∧ x.slotOf r.step = some (k, w)) →
     (s.failedPages x k w = [] ∧ w.poisoned = [] ∧ s.restorable x w = true) →
     Completes (.restore rq v .same l) s fun t =>
         t = ((s.abortStatement j).copyBack x w (fun i => s.slotPage x k i)).restoreStatus r.step 0 2) ∧
  (∀ (j step : Nat) (l : List (List Byte)) (s u : State),
     s.Live →
     s.stm.jobs.has j = true →
     s.restoreFrom j step l = (u, 0) →
     Completes (.rollback j step l) s fun t => t.rd .stmJobStep j = BitVec.ofNat 64 step ∧
         t.rd .stmRestoreStatus 0 = BitVec.ofNat 64 (2 + step % 2 ^ 32 * 2 ^ 32) ∧ bit (t.rd .stmEvt 0).toNat Evt.stm_rollback.bit = true ∧
         t.mem = u.mem) ∧
  (∀ (desc shape : List Byte) (peer step j : Nat) (l : List ShardSpec) (data : List (List Byte)) (s u : State) (d : JobDesc) (fs : List (Nat × Nat)) (x : StmJob) (w : Statement),
     s.Live →
     lowestFree s.stm.jobs.has 0 16 = some j →
     (jobForm desc = true ∧ d = { jobDescOf desc with peer := peer } ∧ s.resident d.ctx = true ∧ s.pastHigh (2 * d.pages) = false) →
     (s.takeSlots d.ctx j d).2 = some fs →
     (u = (s.takeSlots d.ctx j d).1.addJob j d fs ∧ u.stm.jobs.look j = some x ∧ s.dfb.leading = false) →
     (w = ⟨step, s.nodeNs, takeoverShards l 0, true, some s.nodeNs, List.range ((takeoverShards l 0).map (fun h => h.count)).sum⟩) →
     u.restorable x w = true →
     Completes (.takeover desc peer step shape l data) s fun t =>
         (t.stm.jobs.look j).map (fun y => (y.desc, y.slotA, y.record)) = some (d, some w, some ⟨step, 0, false, false, shape, s.nodeNs, 1⟩) ∧
         t.rd .stmJobStep j = BitVec.ofNat 64 step ∧ bit (t.rd .stmEvt 0).toNat Evt.stm_takeoverDone.bit = true)

/-- A REGION_CREATE that passes R271 makes the region, zeroes its granules, publishes its identifier and base, and sets the event. A deleted
region none of whose lines is held is gone, its GEN advanced. TEMP and HOST_PARK of a region change, TEMP 3 apart. A held request proceeds
once its bucket covers it. A load level follows its samples. A cold granule that is ready is written to flash; a parked one that is wanted
comes back to DRAM and its extent is discarded. A recall unanswered in time is sent once more, then its agent fails; a failed agent has
its state, its event and a sweep of every hub; a hub's sweep ends with its PX lines gone. A head whose link is back is in service. -/
def Obligations.NodeRegionsAndGranules : Prop :=
  (∀ (rq : Requester) (v : Word) (s : State) (w0 w1 i b : Nat),
     WriteOpen s rq .nmcRegionCreate 0 →
     low6 v = 0 →
     (w0 = leAt (s.bytesAt (keyHub v.toNat) 32) 0 8 ∧ w1 = leAt (s.bytesAt (keyHub v.toNat) 32) 8 8) →
     (regionForm w0 w1 = true ∧ allZero (takeAt (s.bytesAt (keyHub v.toNat) 32) 16 16) = true) →
     (s.resident (bits w0 0 6) && s.actsFor rq (bits w0 0 6)) = true →
     (lowestFree s.nmc.regions.has 0 4096 = some i ∧ s.freeGranules 0 s.nmc.window (bits w1 0 32) = some b) →
     Completes (.regionCreate rq v) s fun t => t.nmc.regions.look i =
           some { gen := s.regionGen i, ctx := bits w0 0 6, temp := bits w0 6 2, hostPark := bit w0 8, readM := bits w0 10 10, writeM := bits w0 20 10,
                  base := b, granules := bits w1 0 32, stks := s.stackSet (bits w0 0 6), phase := none, dying := false } ∧
         t.rd .nmcRegionId i = regionIdent (bits w0 0 6) i (s.regionGen i) ∧ t.rd .nmcRegionBase i = BitVec.ofNat 64 (b * 65536) ∧
         t.rd .nmcRegionStatus 0 = BitVec.ofNat 64 (2 * 2 ^ 24 + i % 4096) ∧ bit (t.rd .nmcEvt 0).toNat Evt.nmc_createDone.bit = true ∧
         (∀ k, memRead t.mem k = if keyNode (b * 65536) ≤ k ∧ k < keyNode (b * 65536) + bits w1 0 32 * 65536 then 0 else memRead s.mem k)) ∧
  (∀ (rq : Requester) (v : Word) (s : State) (i : Nat) (r : Region),
     WriteOpen s rq .nmcRegionDelete 0 →
     (i = bits v.toNat 0 12 ∧ s.nmc.regions.look i = some r ∧ s.actsFor rq r.ctx = true) →
     (s.regionLines r = [] ∧ s.nmc.faults.any (fun k _ => decide (k.1 = i)) = false) →
     Completes (.regionDelete rq v) s fun t => t.nmc.regions.look i = none ∧
         t.nmc.gens.look i = some (if r.gen = 2 ^ 46 - 1 then 1 else r.gen + 1) ∧ t.rd .nmcRegionId i = 0 ∧ t.rd .nmcRegionBase i = 0 ∧
         (∀ k, k ≠ i → t.nmc.regions.look k = s.nmc.regions.look k)) ∧
  (∀ (rq : Requester) (v : Word) (s : State) (i : Nat) (r : Region),
     WriteOpen s rq .nmcRegionTemp 0 →
     (i = bits v.toNat 0 12 ∧ s.nmc.regions.look i = some r ∧ s.actsFor rq r.ctx = true) →
     bits v.toNat 12 2 ≠ 3 →
     Completes (.regionTemp rq v) s fun t => t.nmc.regions.look i = some { r with temp := bits v.toNat 12 2, hostPark := bit v.toNat 14 } ∧
         (∀ k, k ≠ i → t.nmc.regions.look k = s.nmc.regions.look k) ∧ t = { s with nmc := { s.nmc with regions := t.nmc.regions } }) ∧
  (∀ (a : Nat) (s : State) (q : NReq),
     s.Live →
     (s.nmc.held.look a = some [q] ∧ s.covers a q = true) →
     (s.nmcAllowed q = false ∧ s.nmc.ordered = [] ∧ q.ordered = false ∧ s.stm.jobs.any (fun _ x => !x.adds.isEmpty) = false) →
     (q.src = .host a 7 ∧ q.op = .read 0) →
     Completes (.ingressHoldRelease a) s fun t => t.nmc.held.look a = none ∧ t.fld Fld.nmcAgentStatus_held a = 0 ∧
         t.out = s.out ++ [.cxlData a 7 (s.agentLoad a) true []] ∧ t.mem = s.mem) ∧
  (∀ (a tag : Nat) (s : State) (q : NReq),
     s.Live →
     (s.nmc.held.look a = some [q] ∧ s.covers a q = true) →
     (s.nmc.ordered = [] ∧ q.ordered = false ∧ s.stm.jobs.any (fun _ x => !x.adds.isEmpty) = false) →
     (q.src = .host a tag ∧ q.op = .read 0 ∧ s.lineFree q) →
     Completes (.ingressHoldRelease a) s fun t => t.nmc.held.look a = none ∧ t.fld Fld.nmcAgentStatus_held a = 0 ∧
         t.out = s.out ++ [.cxlData a tag (s.agentLoad a) false (s.bytesAt (keyNode q.off) 64)] ∧ t.mem = s.mem) ∧
  (∀ (x : AgentLoad) (s : State),
     s.Live →
     x.agent < 10 →
     Completes (.loadLevelUpdate [x]) s fun t => t.fld Fld.nmcAgentStatus_load x.agent = loadLevel x ∧
         RegsKept [(.nmcAgentStatus, x.agent)] s t ∧ t = { s with regs := t.regs }) ∧
  (∀ (i g e : Nat) (s u : State) (r : Region) (id : Nat),
     s.Live →
     s.nmc.regions.look i = some r →
     s.coldReady i g r = true →
     s.newExtent (some r.ctx) 2 false none = (u, some e) →
     (u.flashPut (.granule i g) e 0 [u.bytesAt (keyNode ((r.base + g) * 65536)) 32768, u.bytesAt (keyNode ((r.base + g) * 65536) + 32768) 32768]
         false).2 = .queued id →
     Completes (.coldGranulePark i g) s fun t => (t.fls.writes.getLast?).map (fun w => (w.owner, w.extent)) = some (.granule i g, e) ∧
         t.nmc = s.nmc ∧ t.mem = s.mem) ∧
  (∀ (i g x : Nat) (s : State) (r : Region) (e : Extent),
     s.Live →
     (s.nmc.regions.look i = some r ∧ s.nmc.parked.look (i, g) = some x ∧ s.fls.extents.look x = some e) →
     (s.nmc.faults.lookD (i, g) [] = [] ∧ r.temp ≠ 2 ∧ s.nmc.ordered = [] ∧ s.stm.jobs.any (fun _ x => !x.adds.isEmpty) = false) →
     ((s.unitRead e.base).1 = 0 ∧ (s.unitRead (e.base + 1)).1 = 0) →
     Completes (.granuleFaultIn i g) s fun t => t.nmc.parked.look (i, g) = none ∧ t.fls.extents.look x = none ∧
         t.mem = writeBytes (writeBytes s.mem (keyNode ((r.base + g) * 65536)) (s.unitRead e.base).2)
           (keyNode ((r.base + g) * 65536) + 32768) (s.unitRead (e.base + 1)).2) ∧
  (∀ (l a : Nat) (s : State) (r : Recall),
     s.Live →
     s.nmc.recalls.look (l, a) = some r →
     r.sentAt + max 10 (s.fld Fld.nmcAgentCfg_tmoUs a) * 1000 ≤ s.now →
     r.resent = false →
     Completes (.recallTimeout l a) s fun t => t.nmc.recalls.look (l, a) = some { r with sentAt := s.now, resent := true } ∧
         t.out = s.out ++ [.recallMsg a l r.downgrade] ∧ bit (t.rd .nmcEvt 0).toNat Evt.nmc_recallRetry.bit = true ∧ t.mem = s.mem) ∧
  (∀ (l a : Nat) (s : State) (r : Recall),
     s.Live →
     s.nmc.recalls.look (l, a) = some r →
     r.sentAt + max 10 (s.fld Fld.nmcAgentCfg_tmoUs a) * 1000 ≤ s.now →
     r.resent = true →
     Completes (.recallTimeout l a) s fun t => t = s.failAgent a) ∧
  (∀ (a : Nat) (s : State),
     s.Live →
     (a < 10 ∧ s.agentSt a = 1) →
     (s.nmc.recalls.any (fun k _ => decide (k.2 = a)) = false ∧ s.nmc.ordered = [] ∧ s.stm.jobs.any (fun _ x => !x.adds.isEmpty) = false) →
     Completes (.agentFailed a) s fun t => t.agentSt a = 2 ∧ bit (t.rd .nmcEvt 0).toNat Evt.nmc_agentFailed.bit = true ∧
         t.nmc.sweeps.look a = some s.hubsUp ∧ t.nmc.held.look a = none ∧ t.nmc.openTags = s.nmc.openTags.filter (fun x => decide (x.1 + 2 ≠ a)) ∧
         (∀ l e, s.nmc.dir.look l = some e → e.st = .excl → e.owner = a → (t.nmc.dir.look l).map (·.st) = some .px) ∧ t.mem = s.mem) ∧
  (∀ (h a l : Nat) (s : State) (e : DirEnt),
     s.Live →
     (s.nmc.sweeps = ⟨[(a, [h])]⟩ ∧ s.hubUp h = true) →
     (s.nmc.dir.look l = some e ∧ e.st = .px ∧ e.rcl = false ∧ s.lineHub l = h) →
     Completes (.directorySweep h) s fun t => t.nmc.sweeps.look a = none ∧ t.nmc.dir.look l = none ∧
         t.poison.contains (keyNode (l * 64) / 64 * 64) = true ∧
         (2 ≤ a ∧ 5 ≤ s.portSt (a - 2) ∧ s.portSt (a - 2) ≤ 6 → t.agentSt a = 1)) ∧
  (∀ (a : Nat) (s : State),
     s.Live →
     (a < 2 ∧ s.hostUp = true ∧ s.agentSt a ≠ 1 ∧ s.nmc.sweeps.has a = false) →
     Completes (.hostHeadRetrained a) s fun t => t.agentSt a = 1 ∧ t.agentLoad a = 0 ∧ RegsKept [(.nmcAgentStatus, a)] s t ∧
         t = { s with regs := t.regs })

/-- From every state in which the module is not frozen, the request passes ingress at once and its line lies in an allowed region in DRAM with
no holder, no protection and a readable codeword: a host read answers the line with its data and records the hold asked for; a host write
and an MWR with a full mask store the 64 bytes and answer; an MRD answers the line's bytes with the hold; an MAT stores the new value and
answers the old one in 16 bytes. No other byte of memory changes, and none at all for a read. A BIRSP and an RCA from the exclusive holder
with the last recall end the recall, write back the data given where the line lies in a region, and leave the holder a sharer where the
recall was a downgrade that it kept. -/
def Obligations.NodeMemoryRequests : Prop :=
  (∀ (a tag off : Nat) (m : Meta0) (s : State) (q : NReq),
     s.Live →
     (a < 2 ∧ s.agentSt a = 1) →
     q = ⟨.host a tag, .read (metaHold m), off / 64 * 64, s.nmc.serial, false⟩ →
     s.ingressOpen a q →
     s.lineFree q →
     Completes (.cxlMemRead a tag off m) s fun t =>
         t.out = s.out ++ [.cxlData a tag (s.agentLoad a) false (s.bytesAt (keyNode (off / 64 * 64)) 64)] ∧
         (t.nmc.dir.look (off / 64)).map (fun e => (e.st, e.sharers, e.owner)) =
           (if metaHold m = 0 then none else if metaHold m = 1 then some (.shared, [a], 0) else some (.excl, [], a)) ∧ t.mem = s.mem) ∧
  (∀ (a tag off mask : Nat) (m : Meta0) (data : List Byte) (s : State) (q : NReq),
     s.Live →
     (a < 2 ∧ s.agentSt a = 1) →
     q = ⟨.host a tag, .write mask data (decide (m = .inv)), off / 64 * 64, s.nmc.serial, false⟩ →
     s.ingressOpen a q →
     s.lineFree q →
     Completes (.cxlMemWrite a tag off m mask data) s fun t => t.out = s.out ++ [.cxlCmp a tag (s.agentLoad a)] ∧
         (∀ k, k < 64 → memRead t.mem (keyNode (off / 64 * 64) + k) =
           if bit mask k then data.getD k 0 else memRead s.mem (keyNode (off / 64 * 64) + k)) ∧
         BytesKept (keyNode (off / 64 * 64)) 64 s t) ∧
  (∀ (a l : Nat) (sh : Bool) (d : List Byte) (s : State) (r : Recall) (e : DirEnt),
     s.Live →
     (s.nmc.recalls.look (l, a) = some r ∧ s.nmc.recalls.any (fun k _ => decide (k.1 = l) && decide (k.2 ≠ a)) = false) →
     (s.nmc.dir.look l = some e ∧ e.st = .excl ∧ e.owner = a) →
     (s.nmc.waiting.lookD l [] = [] ∧ s.nmc.ordered = [] ∧ s.stm.jobs.any (fun _ x => !x.adds.isEmpty) = false) →
     ((s.regionAt (l * 64)).isSome = true ∧ s.nmc.regions.any (fun _ r => r.dying) = false) →
     Completes (.birsp a l sh (some d)) s fun t => t.nmc.recalls.look (l, a) = none ∧
         t.nmc.dir.look l = (if r.downgrade && sh then some { e with st := .shared, sharers := [a], owner := 0, rcl := false } else none) ∧
         t.bytesAt (keyNode (l * 64)) 64 = takeAt d 0 64 ∧ BytesKept (keyNode (l * 64)) 64 s t) ∧
  (∀ (p : Nat) (w0 w1 : Word) (d : List Byte) (s : State) (l : Nat) (r : Recall) (e : DirEnt),
     s.Live →
     (p < 8 ∧ bits w0.toNat 0 8 = 0x46 ∧ l = mhAddr w1 / 64) →
     (s.nmc.recalls.look (l, p + 2) = some r ∧ s.nmc.recalls.any (fun k _ => decide (k.1 = l) && decide (k.2 ≠ p + 2)) = false) →
     (s.nmc.dir.look l = some e ∧ e.st = .excl ∧ e.owner = p + 2) →
     (s.nmc.waiting.lookD l [] = [] ∧ s.nmc.ordered = [] ∧ s.stm.jobs.any (fun _ x => !x.adds.isEmpty) = false) →
     ((s.regionAt (l * 64)).isSome = true ∧ s.nmc.regions.any (fun _ r => r.dying) = false) →
     Completes (.rca p w0 w1 d) s fun t => t.nmc.recalls.look (l, p + 2) = none ∧
         t.nmc.dir.look l = (if r.downgrade then some { e with st := .shared, sharers := [p + 2], owner := 0, rcl := false } else none) ∧
         (mhOp w0 = 1 → t.bytesAt (keyNode (l * 64)) 64 = takeAt d 0 64) ∧ (mhOp w0 ≠ 1 → t.mem = s.mem) ∧ BytesKept (keyNode (l * 64)) 64 s t) ∧
  (∀ (p : Nat) (w0 w1 : Word) (s : State),
     s.Live →
     s.portTakes p 0x41 w0 w1 →
     s.ingressOpen (p + 2) (s.portReqOf p w0 w1 (.read (mhOp w0))) →
     s.lineFree (s.portReqOf p w0 w1 (.read (mhOp w0))) →
     Completes (.mrd p w0 w1) s fun t =>
         t.out = s.out ++ [.mrs p (mhTag w0) (mhOp w0) (s.agentLoad (p + 2)) 0 (s.bytesAt (keyNode (mhAddr w1)) 64)] ∧
         (t.nmc.dir.look (mhAddr w1 / 64)).map (fun e => (e.st, e.sharers, e.owner)) =
           (if mhOp w0 = 0 then none else if mhOp w0 = 1 then some (.shared, [p + 2], 0) else some (.excl, [], p + 2)) ∧ t.mem = s.mem) ∧
  (∀ (p : Nat) (w0 w1 mask : Word) (data : List Byte) (s : State),
     s.Live →
     s.portTakes p 0x42 w0 w1 →
     s.ingressOpen (p + 2) (s.portReqOf p w0 w1 (.write mask.toNat data (bit w0.toNat 48))) →
     s.lineFree (s.portReqOf p w0 w1 (.write mask.toNat data (bit w0.toNat 48))) →
     Completes (.mwr p w0 w1 mask data) s fun t => t.out = s.out ++ [.mrs p (mhTag w0) 0 (s.agentLoad (p + 2)) 0 []] ∧
         (∀ k, k < 64 → memRead t.mem (keyNode (mhAddr w1) + k) =
           if bit mask.toNat k then data.getD k 0 else memRead s.mem (keyNode (mhAddr w1) + k)) ∧
         BytesKept (keyNode (mhAddr w1)) 64 s t) ∧
  (∀ (p : Nat) (w0 w1 : Word) (x y n old : Nat) (s : State),
     s.Live →
     s.portTakes p 0x43 w0 w1 →
     s.ingressOpen (p + 2) (s.portReqOf p w0 w1 (.atomic (mhSize w0) (mhOp w0) x y)) →
     s.lineFree (s.portReqOf p w0 w1 (.atomic (mhSize w0) (mhOp w0) x y)) →
     (n = sizeBytes (mhSize w0) ∧ old = s.numAt (keyNode (mhAddr w1)) n) →
     Completes (.mat p w0 w1 x y) s fun t => t.out = s.out ++ [.mrs p (mhTag w0) 0 (s.agentLoad (p + 2)) 0 (natLe 16 old)] ∧
         t.bytesAt (keyNode (mhAddr w1)) n = natLe n (amoNew (mhOp w0) n old (x % 2 ^ (8 * n)) (y % 2 ^ (8 * n))) ∧
         BytesKept (keyNode (mhAddr w1)) n s t)

/-- A change the leader takes is appended as the next entry of its log and sent; an entry a majority of voters holds commits; an adopted entry
makes the map the one that the change gives, as the next epoch; a voter appends the next entry and answers. A leader heard by a majority
renews its lease, and another loses the quorum; a heartbeat renews the member's lease, names the leader, and ends an isolation; a lease
run out isolates the member and holds its requests. A silent member's removal is proposed; a voter with a majority and the longest log
leads; a vote is answered by comparing logs; work held too long ends. Region creations and deletions, leaving, cut-overs, backed frames
and parameters are proposed; a controller asks to join, or forms a domain alone. -/
def Obligations.DomainMapAndLeases : Prop :=
  (∀ (a b : Word) (s : State),
     s.Live →
     s.dfb.leading = true →
     Completes (.mapChangePropose (.params a b)) s fun t => t.dfb.log.look (s.logLen + 1) = some (.params a b) ∧
         t.dfb.holders.look (s.logLen + 1) = some [s.self] ∧ t.out = s.out ++ [.append_ (s.logLen + 1) (.params a b)] ∧ t.dmap = s.dmap ∧
         t = { s with dfb := { s.dfb with log := t.dfb.log, holders := t.dfb.holders }, out := t.out }) ∧
  (∀ (e : Nat) (l : List Nat) (c : MapChange) (s : State),
     s.Live →
     (s.dfb.log.look e = some c ∧ s.dfb.leading = true) →
     (e = max s.dfb.committed s.dmap.epoch + 1 ∧ s.dmap.majority (s.self :: l) = true) →
     Completes (.mapCommit e l) s fun t => t.dfb.committed = e ∧ t.dfb.holders.look e = some (s.self :: l) ∧ t.out = s.out ++ [.commit_ e c] ∧
         t.dmap = s.dmap) ∧
  (∀ (a b : Word) (s : State),
     s.Live →
     s.domSt ≠ 0 →
     Completes (.mapAdopt (s.dmap.epoch + 1) (.params a b)) s fun t => t.dmap = { s.dmap with epoch := s.dmap.epoch + 1, mapCfg := a, grantCfg := b } ∧
         t.rd .dfbEpoch 0 = BitVec.ofNat 64 (s.dmap.epoch + 1) ∧ t.rd .dfbMapCfg 0 = a ∧ t.rd .dfbGrantCfg 0 = b) ∧
  (∀ (m : Nat) (c : MapChange) (s : State),
     s.Live →
     (s.dmap.voters.contains s.self = true ∧ s.dfb.leading = false) →
     Completes (.logEntryAppend m (s.logLen + 1) c) s fun t => t.dfb.log.look (s.logLen + 1) = some c ∧
         t.out = s.out ++ [.appendAck m (s.logLen + 1)] ∧ t.dmap = s.dmap) ∧
  (∀ (s : State),
     s.Live →
     s.dfb.leading = true →
     (s.dmap.majority (s.dmap.voters.filter (fun v => decide (v = s.self) ||
         (s.dfb.answeredAt.look v).any (fun t => decide (s.now ≤ t + s.dmap.leaseMs * 1000000)))) = true) →
     Completes .leaderHeartbeat s fun t => t.dfb.leaseUntil = s.now + s.dmap.leaseMs * 1000000 ∧ t.fld Fld.dfbStatus_quorum = 1 ∧
         t.out = s.out ++ ((s.dmap.memberNos.filter (fun m => decide (m ≠ s.self))).map (fun m => .heartbeat m s.dmap.epoch)) ∧ t.dmap = s.dmap) ∧
  (∀ (s : State),
     s.Live →
     s.dfb.leading = true →
     (s.dmap.majority (s.dmap.voters.filter (fun v => decide (v = s.self) ||
         (s.dfb.answeredAt.look v).any (fun t => decide (s.now ≤ t + s.dmap.leaseMs * 1000000)))) = false) →
     Completes .leaderHeartbeat s fun t => bit (t.rd .dfbEvt 0).toNat Evt.dfb_quorumLost.bit = true ∧
         t = { s with regs := t.regs, latches := t.latches }) ∧
  (∀ (m e : Nat) (s : State),
     s.Live →
     s.dmap.members.has s.self = true →
     Completes (.heartbeatReceive m e) s fun t => t.dfb.leaseUntil = s.now + s.dmap.leaseMs * 1000000 ∧ t.dfb.lastBeat = s.now ∧
         t.fld Fld.dfbStatus_leader = m % 32 ∧ t.fld Fld.dfbStatus_leaderValid = 1 ∧ t.fld Fld.dfbStatus_quorum = 1 ∧ .beatAck m ∈ t.out ∧
         (s.domSt = 4 → t.domSt = s.mapSt) ∧ t.dmap = s.dmap) ∧
  (∀ (m : Nat) (s : State),
     s.Live →
     (s.dfb.leading = true ∧ s.dmap.members.has m = true) →
     Completes (.heartbeatAnswer m) s fun t => t.dfb.heardAt.look m = some s.now ∧
         (s.dmap.voters.contains m = true → t.dfb.answeredAt.look m = some s.now) ∧
         t = { s with dfb := { s.dfb with heardAt := t.dfb.heardAt, answeredAt := t.dfb.answeredAt } }) ∧
  (∀ (s : State),
     s.Live →
     (s.domUp = true ∧ s.dfb.leaseUntil ≤ s.now) →
     Completes .leaseExpiry s fun t => t.domSt = 4 ∧ t.fld Fld.dfbStatus_quorum = 0 ∧ bit (t.rd .dfbEvt 0).toNat Evt.dfb_isolated.bit = true ∧
         (∀ n r, s.dfb.reqs.look n = some r → (t.dfb.reqs.look n).map (fun y => y.heldAt.isSome || y.behind) = some true) ∧ t.mem = s.mem) ∧
  (∀ (m : Nat) (l : List Assign) (s : State),
     s.Live →
     (s.dfb.leading = true ∧ m ≠ s.self ∧ s.dmap.members.has m = true ∧ s.dfb.heardAt.lookD m 0 + s.dmap.suspectMs * 1000000 ≤ s.now) →
     (s.leaderMap.members.has m = true ∧ ({ s.leaderMap with members := s.leaderMap.members.del m } : DomMap).assignsOk l = true) →
     Completes (.suspectExpiry m l) s fun t => t.dfb.log.look (s.logLen + 1) = some (.remove m l) ∧
         t.out = s.out ++ [.append_ (s.logLen + 1) (.remove m l)] ∧ t.dmap = s.dmap) ∧
  (∀ (l : List (Nat × Nat)) (s : State),
     s.Live →
     (s.dmap.voters.contains s.self = true ∧ s.dfb.leading = false ∧ s.dfb.lastBeat + s.dmap.electMs * 1000000 ≤ s.now) →
     (s.dmap.majority (s.self :: l.map (·.1)) = true ∧ l.all (fun a => decide (a.2 ≤ s.logLen)) = true) →
     Completes (.electionTimeout l) s fun t => t.dfb.leading = true ∧ t.fld Fld.dfbStatus_leader = s.self ∧ t.fld Fld.dfbStatus_leaderValid = 1 ∧
         t.out = s.out ++ [.voteAsk s.logLen] ∧ t.dmap = s.dmap) ∧
  (∀ (m n : Nat) (s : State),
     s.Live →
     s.dmap.voters.contains s.self = true →
     Completes (.voteRequest m n) s fun t => t = { s with out := s.out ++ [.voteAnswer m s.logLen (decide (s.logLen ≤ n))] }) ∧
  (∀ (n t0 : Nat) (r : DomReq) (s : State),
     s.Live →
     (s.dfb.reqs.look n = some r ∧ r.heldAt = some t0) →
     t0 + s.dmap.isolateMs * 1000000 ≤ s.now →
     Completes .isolateTimeout s fun t => t.dfb.reqs.look n = none) ∧
  (∀ (rq : Requester) (v w1 : Word) (i g : Nat) (s : State),
     WriteOpen s rq .dfbRegionCreate 0 →
     low6 v = 0 →
     (s.domCreateCheck rq (s.bytesAt (keyHub v.toNat) 32) = 0 ∧ s.Follows) →
     (w1.toNat = leAt (s.bytesAt (keyHub v.toNat) 32) 8 8 ∧ g = bits w1.toNat 0 32 ∧ lowestFree s.dmap.regions.has 0 16384 = some i) →
     Completes (.dfbRegionCreate rq v) s fun t => t.rd .dfbRegionStatus 0 = BitVec.ofNat 64 (2 ^ 24 + i % 16384) ∧
         t.out = s.out ++ [.propose (.regionCreate i ⟨BitVec.ofNat 64 (leAt (s.bytesAt (keyHub v.toNat) 32) 0 8), (s.dmap.freeRange g).getD 0, g,
           bits w1.toNat 32 2, none, 0, none, 0, 0, s.dmap.gens.lookD i 0, 0⟩ s.self)] ∧ t = { s with regs := t.regs, out := t.out }) ∧
  (∀ (rq : Requester) (v : Word) (r : DomRegion) (s : State),
     WriteOpen s rq .dfbRegionDelete 0 →
     (s.dmap.regions.look (bits v.toNat 0 14) = some r ∧ s.Follows) →
     ((List.range 64).any (fun n => s.resident n && s.actsFor rq n && decide (s.rd .secCtxTenant n = r.tenant)) = true) →
     Completes (.dfbRegionDelete rq v) s fun t => t = { s with out := s.out ++ [.propose (.regionDelete (bits v.toNat 0 14))] }) ∧
  (∀ (rq : Requester) (v : Word) (s : State),
     WriteOpen s rq .dfbJoin 0 →
     (s.isModule rq = true ∧ s.domSt = 0 ∧ s.fld Fld.dfbCfg_domainEn = 1 ∧ bits v.toNat 5 5 ≠ bits v.toNat 0 5) →
     Completes (.dfbJoin rq v false) s fun t => t.domSt = 1 ∧ t.self = bits v.toNat 0 5 ∧
         t.out = s.out ++ [.joinAsk (bits v.toNat 5 5) (bits v.toNat 0 5)] ∧ RegsKept [(.dfbStatus, 0)] s t ∧ t = { s with regs := t.regs, out := t.out }) ∧
  (∀ (rq : Requester) (v : Word) (s : State),
     WriteOpen s rq .dfbJoin 0 →
     (s.isModule rq = true ∧ s.domSt = 0 ∧ s.fld Fld.dfbCfg_domainEn = 1 ∧ bits v.toNat 5 5 = bits v.toNat 0 5) →
     Completes (.dfbJoin rq v false) s fun t => t.domSt = 1 ∧ t.self = bits v.toNat 0 5 ∧ t.dfb.leading = true ∧ t.fld Fld.dfbStatus_quorum = 1 ∧
         t.dfb.log.look (s.logLen + 1) = some (.join (bits v.toNat 0 5) false (s.dfb.share / 16384) [] [])) ∧
  (∀ (rq : Requester) (v : Word) (s : State),
     WriteOpen s rq .dfbLeave 0 →
     (s.isModule rq = true ∧ bit v.toNat 0 = true ∧ s.domSt = 2 ∧ s.Follows) →
     Completes (.dfbLeave rq v) s fun t => t = { s with out := s.out ++ [.propose (.leave s.self [])] }) ∧
  (∀ (rq : Requester) (v : Word) (s : State),
     WindowOpen s rq →
     (s.regReach .dfbMapCfg 0 = true ∧ s.isModule rq = true ∧ s.domSt ≠ 0 ∧ s.Follows) →
     Completes (.mapCfgWrite rq false v) s fun t =>
         t = { s with out := s.out ++ [.propose (.params (v &&& BitVec.ofNat 64 Reg.dfbMapCfg.spec.mask) s.dmap.grantCfg)] }) ∧
  (∀ (rq : Requester) (v w : Word) (s : State),
     WindowOpen s rq →
     (s.regReach .dfbGrantCfg 0 = true ∧ s.isModule rq = true ∧ s.domSt = 0 ∧ w = v &&& BitVec.ofNat 64 Reg.dfbGrantCfg.spec.mask) →
     Completes (.mapCfgWrite rq true v) s fun t => t.rd .dfbGrantCfg 0 = w ∧ t.dmap = { s.dmap with grantCfg := w } ∧
         RegsKept [(.dfbGrantCfg, 0)] s t ∧ t = { s with dfb := { s.dfb with map := t.dfb.map }, regs := t.regs }) ∧
  (∀ (k : Nat) (s : State),
     s.Live →
     (k < 4096 ∧ (s.dmap.bucket k).st = 1 ∧ s.Follows) →
     Completes (.bucketCutover k) s fun t => t = { s with out := s.out ++ [.propose (.cutover k)] }) ∧
  (∀ (k : Nat) (s : State),
     s.Live →
     (k < 4096 ∧ (s.dmap.bucket k).noneLost = true ∧ s.dmap.home k = s.self ∧ s.domUp = true ∧ s.Follows) →
     Completes (.nonePoisonBacking k) s fun t => t.out = s.out ++ [.propose (.noneBacked k)] ∧ t.dmap = s.dmap ∧ t.mem = s.mem)

/-- A load, store or atomic of another member whose line is whole here reads the line, stores under its mask, or stores the new value and
answers the old one; with no copy elsewhere the answer leaves at once, and no byte outside the line changes; with a copy the home waits
for its update. A forwarded load is answered the same way. An answer ends its request, and lets the stalled clerk go on. A mirror update
writes the copy's line and a parity update folds into the parity line; both keep the key and answer; the last acknowledgment answers the
requester. A request unanswered in time is re-sent once, then held. Room is lent or refused, pieces are stored in it and stream back, the
latest grant is revoked under pressure, a late borrower is marked, and a revoked borrower's pieces come back. -/
def Obligations.DomainRequestsAndLentRoom : Prop :=
  (∀ (h : DHdr) (r : DomRegion) (k : Nat) (s : State),
     s.Live →
     s.domHere h r k →
     Completes (.dld h) s fun t =>
         t.out = s.out ++ [.domAns h.requester h.serial s.dmap.epoch 0 (s.bytesAt (keyDom (h.addr / 64 * 64)) 64)] ∧ t.mem = s.mem) ∧
  (∀ (h : DHdr) (mask : Nat) (d : List Byte) (r : DomRegion) (k : Nat) (s : State),
     s.Live →
     s.domHere h r k →
     s.domAlone h r k →
     Completes (.dst h mask d) s fun t => t.out = s.out ++ [.domAns h.requester h.serial s.dmap.epoch 0 []] ∧
         (∀ i, i < 64 → memRead t.mem (keyDom (h.addr / 64 * 64) + i) =
           if bit mask i then d.getD i 0 else memRead s.mem (keyDom (h.addr / 64 * 64) + i)) ∧
         BytesKept (keyDom (h.addr / 64 * 64)) 64 s t) ∧
  (∀ (h : DHdr) (x y n old : Nat) (r : DomRegion) (k : Nat) (s : State),
     s.Live →
     s.domHere h r k →
     s.domAlone h r k →
     (n = sizeBytes h.size ∧ h.addr % n = 0 ∧ n ≤ 16 ∧ old = s.numAt (keyDom h.addr) n) →
     Completes (.dat h x y) s fun t => t.out = s.out ++ [.domAns h.requester h.serial s.dmap.epoch 0 (natLe 16 old)] ∧
         t.bytesAt (keyDom h.addr) n = natLe n (amoNew h.op n old (x % 2 ^ (8 * n)) (y % 2 ^ (8 * n))) ∧ BytesKept (keyDom h.addr) n s t) ∧
  (∀ (h : DHdr) (r : DomRegion) (k : Nat) (s : State),
     s.Live →
     s.domHere h r k →
     Completes (.dfw h .load) s fun t =>
         t.out = s.out ++ [.domAns h.requester h.serial s.dmap.epoch 0 (s.bytesAt (keyDom (h.addr / 64 * 64)) 64)] ∧ t.mem = s.mem) ∧
  (∀ (n e st : Nat) (d : List Byte) (r : DomReq) (s : State),
     s.Live →
     (s.dfb.reqs.look n = some r ∧ s.dfb.answers = []) →
     (st ≠ 0x0020 ∨ 4 ≤ r.moved) →
     Completes (.drs n e st d) s fun t => t.dfb.reqs.look n = none) ∧
  (∀ (n e : Nat) (d : List Byte) (r : DomReq) (x : Run) (ix : Ix) (s : State),
     s.Live →
     (s.dfb.reqs.look n = some r ∧ s.dfb.answers = [] ∧ s.dfb.reqs.size = 1) →
     ((s.clerk r.clerk).run = some x ∧ x.startedAt = r.runAt ∧ x.ending = none ∧ r.kind = 0) →
     ((s.clerk r.clerk).stall = some (.domain n) ∧ (s.setClerk r.clerk { s.clerk r.clerk with stall := none }).stalledIx r.clerk = some ix) →
     (wSize ix.w = 3 ∧ ix.memBytes = 8 ∧ ix.c = r.clerk ∧ wRD ix.w ≠ 0) →
     Completes (.drs n e 0 d) s fun t => (t.clerk r.clerk).stall = none ∧ (t.clerk r.clerk).pc = ix.cl.pc + 8 ∧
         (t.clerk r.clerk).s (wRD ix.w) = BitVec.ofNat 64 (leAt d (r.off % 64) 8)) ∧
  (∀ (h : DHdr) (m mask i : Nat) (l old : List Byte) (r : DomRegion) (s : State),
     s.Live →
     (s.domUp = true ∧ s.dmap.regionAt h.addr = some (i, r) ∧ r.protect = 1) →
     ((s.dmap.bucket (domPlace 1 h.addr).2).st ≠ 1 ∧ mask % 2 ^ 64 ≠ 0) →
     Completes (.dup h m mask l old) s fun t => t.bytesAt (keyDomCopy (h.addr / 64 * 64)) 64 = takeAt l 0 64 ∧
         BytesKept (keyDomCopy (h.addr / 64 * 64)) 64 s t ∧ t.out = s.out ++ [.domUpdAns m h.requester h.serial] ∧
         t.dfb.keys.look (h.requester, ((s.dmap.members.look h.requester).map (·.inc)).getD 0, h.serial) = some (old, s.now)) ∧
  (∀ (h : DHdr) (m mask i k : Nat) (l old p : List Byte) (r : DomRegion) (s : State),
     s.Live →
     (s.domUp = true ∧ s.dmap.regionAt h.addr = some (i, r) ∧ r.protect = 2) →
     ((s.dmap.bucket (domPlace 2 h.addr).2).st ≠ 1 ∧ k = keyDomCopy (parityOff (h.addr / 64 * 64)) ∧ p = s.bytesAt k 64) →
     Completes (.dup h m mask l old) s fun t => t.bytesAt k 64 = (List.range 64).map (fun j => p.getD j 0 ^^^ l.getD j 0) ∧
         BytesKept k 64 s t ∧ t.out = s.out ++ [.domUpdAns m h.requester h.serial]) ∧
  (∀ (m c n : Nat) (w : HomeWait) (s : State),
     s.Live →
     (s.dfb.homeWait.look (c, n) = some w ∧ w.waitFor = [m] ∧ c ≠ s.self ∧ s.dfb.answers = []) →
     w.status ≠ 0x0020 →
     Completes (.dua m c n) s fun t => t.dfb.homeWait.look (c, n) = none ∧ t.out = s.out ++ [.domAns c n s.dmap.epoch w.status w.data] ∧ t.mem = s.mem) ∧
  (∀ (m c n : Nat) (w : HomeWait) (s : State),
     s.Live →
     (s.dfb.homeWait.look (c, n) = some w ∧ w.waitFor.filter (fun i => decide (i ≠ m)) ≠ []) →
     Completes (.dua m c n) s fun t => t.dfb.homeWait.look (c, n) = some { w with waitFor := w.waitFor.filter (fun i => decide (i ≠ m)) } ∧
         t = { s with dfb := { s.dfb with homeWait := t.dfb.homeWait } }) ∧
  (∀ (n : Nat) (r : DomReq) (s : State),
     s.Live →
     (s.dfb.reqs.look n = some r ∧ r.sentTo.isSome = true ∧ r.heldAt = none ∧ r.sentAt + s.dmap.reqTmoUs * 1000 ≤ s.now) →
     (r.tries = 0 ∧ s.dfb.answers = [] ∧ s.domUp = true ∧ (List.range 4096).all (fun k => decide (s.dmap.home k ≠ s.self)) = true) →
     Completes (.domainReqTimeout n) s fun t => (t.dfb.reqs.look n).map (fun y => (y.tries, y.resent, y.sentAt)) = some (1, true, s.now) ∧
         t.rd .dfbResent 0 = s.rd .dfbResent 0 + 1 ∧ t.mem = s.mem) ∧
  (∀ (n : Nat) (r : DomReq) (s : State),
     s.Live →
     (s.dfb.reqs.look n = some r ∧ r.sentTo.isSome = true ∧ r.heldAt = none ∧ r.sentAt + s.dmap.reqTmoUs * 1000 ≤ s.now) →
     r.tries ≠ 0 →
     Completes (.domainReqTimeout n) s fun t => t.dfb.reqs.look n = some { r with heldAt := some s.now } ∧
         t = { s with dfb := { s.dfb with reqs := t.dfb.reqs } }) ∧
  (∀ (p n : Nat) (s : State),
     s.Live →
     s.lendsRoom p = true →
     Completes (.t4RoomRequest p n) s fun t => t.dfb.lent = s.dfb.lent ++ [⟨p, 0, n, s.dfb.grantCtr, none, false⟩] ∧
         t.dfb.grantCtr = s.dfb.grantCtr + 1 ∧ t.out = s.out ++ [.t4Answer p n true] ∧
         t = { s with dfb := { s.dfb with lent := t.dfb.lent, grantCtr := t.dfb.grantCtr }, out := t.out }) ∧
  (∀ (p n : Nat) (s : State),
     s.Live →
     (s.domUp = true ∧ s.lendsRoom p = false) →
     Completes (.t4RoomRequest p n) s fun t => t = { s with out := s.out ++ [.t4Answer p n false] }) ∧
  (∀ (p : Nat) (w : Word) (l : List (List Byte)) (fs : List (Nat × Nat)) (s : State),
     s.Live →
     (s.domUp = true ∧ s.t4Piece p w = none) →
     (((s.dfb.pieces.filter (fun x => decide (x.peer = p))).map (fun x => x.frames.length)).sum + l.length ≤
         ((s.dfb.lent.filter (fun g => decide (g.peer = p) && g.revokedAt.isNone)).map (·.pages)).sum) →
     (s.allocMany 64 (w.toNat % 2 ^ 24) 253 l.length .alloc).2 = some fs →
     Completes (.t4PieceStore p w l) s fun t => t.dfb.pieces = s.dfb.pieces ++ [⟨p, w, fs⟩] ∧ t.dfb.lent = s.dfb.lent) ∧
  (∀ (p : Nat) (w : Word) (x : T4Piece) (s : State),
     s.Live →
     (s.domUp = true ∧ s.t4Piece p w = some x) →
     Completes (.t4Fetch p w) s fun t => t.dfb.pieces = s.dfb.pieces.filter (fun q => decide (q ≠ x)) ∧
         ∃ l, l.length = x.frames.length ∧ t.out = s.out ++ [.t4Pieces p w l]) ∧
  (∀ (g : T4Grant) (s : State),
     s.Live →
     (s.domUp = true ∧ s.pastHigh 0 = true) →
     ((s.dfb.lent.reverse).find? (fun g => g.revokedAt.isNone) = some g) →
     Completes .t4Revoke s fun t => t.out = s.out ++ [.t4Revoked g.peer g.order] ∧
         t.dfb.lent = s.dfb.lent.map (fun x => if x.order = g.order then { x with revokedAt := some s.now } else x) ∧
         t = { s with dfb := { s.dfb with lent := t.dfb.lent }, out := t.out }) ∧
  (∀ (p t0 : Nat) (g : T4Grant) (s : State),
     s.Live →
     (g ∈ s.dfb.lent ∧ g.peer = p ∧ g.late = false ∧ g.revokedAt = some t0 ∧ t0 + s.dmap.reclaimMs * 1000000 ≤ s.now) →
     (s.dfb.pieces.any (fun x => decide (x.peer = p)) = true) →
     Completes (.reclaimDeadline p) s fun t => (t.dfb.lent.contains { g with late := true }) = true ∧ bit (t.rd .dfbEvt 0).toNat Evt.dfb_borrowerLate.bit = true ∧
         t.dfb.pieces = s.dfb.pieces ∧ t = { s with dfb := { s.dfb with lent := t.dfb.lent }, regs := t.regs, latches := t.latches }) ∧
  (∀ (p o : Nat) (g : T4Grant) (x : Session) (s u v : State),
     s.Live →
     (s.dfb.borrowed.find? (fun g => decide (g.peer = p) && decide (g.order = o) && g.revokedAt.isNone) = some g) →
     (u = s.onDfb (fun d => { d with borrowed := d.borrowed.map (fun x => if x.peer = p && x.order = o then { x with revokedAt := some s.now } else x) })) →
     (u.sess g.sess = some x ∧ x.atPeer = true ∧ x.preRevive = false ∧ x.st = .parked ∧ x.op = none ∧ x.placing = none) →
     u.startStream g.sess = (v, true) →
     Completes (.t4RevocationNotice p o) s fun t => (t.sess g.sess).map (·.preRevive) = (v.sess g.sess).map (fun _ => true) ∧
         t.dfb.borrowed = v.dfb.borrowed)

/-- From every live state in which the transition's condition holds: an enabled, powered port with a signal goes to TRAIN; lanes that lock at
MIN_LANES or more take it to CAPS with the greatest lanes and rate, a port without lock for 20 ms or too narrow goes DOWN with its REASON
and trains again after 1 s; a common mode takes CAPS to KEYS with the settled version, features and suite, a link-kind mismatch gives
REASON 7; keys take KEYS to CREDIT with key epoch 0 (to UP after a tag failure), their failure gives REASON 6; advertisements take CREDIT
to UP; a lost lane or 16 bad codewords take UP to RETRAIN with its queues held; a retrain ends in UP with the unacknowledged cells resent,
in the next attempt, or in FAILED with REASON 8. FAILED has the consequences of its kind; ENABLE cleared takes a port DOWN and discards
its frames. -/
def Obligations.LinkNegotiation : Prop :=
  (∀ (p : Nat) (s : State),
     s.Live →
     (s.portSt p = 0 ∧ s.portEnabled p = true ∧ s.portPowered p = true ∧ (s.port p).retryAt = none) →
     Completes (.portSignalDetect p) s fun t => t.portSt p = 1 ∧ t.port p = { s.port p with since := s.now } ∧
         (∀ k, k ≠ p → t.port k = s.port k) ∧ RegsKept [(.lnkPortStatus, p), (.dbgTraceDropped, 0), (.dbgEvt, 0)] s t ∧ t.mem = s.mem) ∧
  (∀ (p w r propNs : Nat) (widths rates : List Nat) (s : State),
     s.Live →
     (s.portSt p = 1 ∧ s.minLanes p ≤ w) →
     (bestMode (widths.filter (fun w => (portWidths p).contains w)) (rates.filter (fun r => decide (r = 1) || (decide (r = 0) && decide (s.fld Fld.lnkPortCfg_maxRate p = 0)))) = some (w, r)) →
     Completes (.laneLock p widths rates propNs) s fun t => t.portSt p = 2 ∧ t.fld Fld.lnkPortStatus_lanes p = w ∧
         t.fld Fld.lnkPortStatus_rate p = r ∧ t.fld Fld.lnkPortStatus_propNs p = min propNs 65535 ∧ t.fld Fld.lnkPortStatus_reason p = 0 ∧
         (∀ w' r', (portWidths p).contains w' = true → widths.contains w' = true → rates.contains r' = true → (r' = 1 ∨ (r' = 0 ∧ s.fld Fld.lnkPortCfg_maxRate p = 0)) → w' * (if r' = 0 then 2 else 1) ≤ t.laneUnits p)) ∧
  (∀ (p w r propNs : Nat) (widths rates : List Nat) (s : State),
     s.Live →
     (s.portSt p = 1 ∧ w < s.minLanes p) →
     (bestMode (widths.filter (fun w => (portWidths p).contains w)) (rates.filter (fun r => decide (r = 1) || (decide (r = 0) && decide (s.fld Fld.lnkPortCfg_maxRate p = 0)))) = some (w, r)) →
     Completes (.laneLock p widths rates propNs) s fun t => t.portSt p = 0 ∧ t.fld Fld.lnkPortStatus_reason p = 2 ∧
         (t.port p).retryAt = some (s.now + 1000000000) ∧ bit (t.rd .lnkEvt 0).toNat Evt.lnk_portRefused.bit = true) ∧
  (∀ (p : Nat) (s : State),
     s.Live →
     (s.portSt p = 1 ∧ (s.port p).since + 20000000 ≤ s.now) →
     Completes (.trainTimeout p) s fun t => t.portSt p = 0 ∧ t.fld Fld.lnkPortStatus_reason p = 1 ∧
         t.port p = { s.port p with since := s.now, retryAt := some (s.now + 1000000000) } ∧ bit (t.rd .lnkEvt 0).toNat Evt.lnk_portRefused.bit = true ∧
         t.mem = s.mem) ∧
  (∀ (p at_ : Nat) (s : State),
     s.Live →
     ((s.port p).retryAt = some at_ ∧ at_ ≤ s.now) →
     (s.portSt p = 0 ∧ s.portEnabled p = true ∧ s.portPowered p = true) →
     Completes (.trainRetry p) s fun t => t.portSt p = 1 ∧ t.port p = { s.port p with since := s.now, retryAt := none } ∧ t.mem = s.mem) ∧
  (∀ (p lo hi ver suite : Nat) (w0 w1 : Word) (s : State),
     s.Live →
     (s.portSt p = 2 ∧ bits w0.toNat 0 2 = portKind p) →
     (lo = bits w0.toNat 8 8 * 256 + bits w0.toNat 16 8 ∧ hi = bits w0.toNat 24 8 * 256 + bits w0.toNat 32 8) →
     (ver = min hi (portVersions p).2 ∧ lo ≤ ver ∧ (portVersions p).1 ≤ ver) →
     (p < 8 → bit (bits w0.toNat 40 2) (s.fld Fld.lnkPortCfg_reach p) = true) →
     s.suiteFor p (bits w1.toNat 16 16) = some suite →
     Completes (.capabilityBlock p w0 w1) s fun t => t.portSt p = 3 ∧ t.fld Fld.lnkPortStatus_major p = ver / 256 ∧
         t.fld Fld.lnkPortStatus_minor p = ver % 256 ∧ t.suite p = suite ∧
         t.fld Fld.lnkPortStatus_features p = ((bits w1.toNat 0 16 &&& portFeatures p) &&& featuresAt p ver) ∧
         t.out = s.out ++ [.capBlock p (s.ownCaps p).1 (s.ownCaps p).2] ∧
         (ver < (portVersions p).2 → bit (t.rd .lnkEvt 0).toNat Evt.lnk_fallback.bit = true) ∧ t.mem = s.mem) ∧
  (∀ (p : Nat) (w0 w1 : Word) (s : State),
     s.Live →
     (s.portSt p = 2 ∧ bits w0.toNat 0 2 ≠ portKind p) →
     Completes (.capabilityBlock p w0 w1) s fun t => t.portSt p = 0 ∧ t.fld Fld.lnkPortStatus_reason p = 7 ∧
         bit (t.rd .lnkEvt 0).toNat Evt.lnk_portRefused.bit = true) ∧
  (∀ (p : Nat) (ok : Bool) (s : State),
     s.Live →
     s.portSt p = 3 →
     (s.suite p = 0 ∨ (ok = true ∧ s.xmssSign.2 = true ∧ (s.port p).rekeys = false)) →
     Completes (.keysDone p ok) s fun t => t.portSt p = 4 ∧ t.txEpoch p = 0 ∧ t.rxEpoch p = 0 ∧ t.rd .lnkPortCounter p = 0 ∧
         (t.port p).rekeying = false ∧ (t.port p).epochAt = s.now) ∧
  (∀ (p : Nat) (ok : Bool) (s : State),
     s.Live →
     (s.portSt p = 3 ∧ s.suite p ≠ 0) →
     (ok = false ∨ s.xmssSign.2 = false) →
     Completes (.keysDone p ok) s fun t => t.portSt p = 0 ∧ t.fld Fld.lnkPortStatus_reason p = 6 ∧
         bit (t.rd .secEvt 0).toNat Evt.sec_keysFail.bit = true ∧ bit (t.rd .lnkEvt 0).toNat Evt.lnk_portRefused.bit = true) ∧
  (∀ (p : Nat) (cells : List Nat) (s : State),
     s.Live →
     s.portSt p = 4 →
     Completes (.creditAdvert p cells) s fun t => t.portSt p = 5 ∧ t.out = s.out ++ [.advert p (s.ownAdvert p)] ∧
         (∀ q, q < 16 → (t.port p).avail.look q = some ((advertCells p cells).getD q 0)) ∧ (t.port p).retryBuf = [] ∧ (t.port p).seqTx = 0 ∧
         (t.port p).seqRx = 0 ∧ bit (t.rd .lnkEvt 0).toNat Evt.lnk_portUp.bit = true ∧
         (p < 8 → s.nmc.sweeps.has (p + 2) = false → t.agentSt (p + 2) = 1)) ∧
  (∀ (p : Nat) (lost : Bool) (s : State),
     s.Live →
     s.portSt p = 5 →
     (lost = true ∨ 16 ≤ ((s.port p).badAt.filter (fun u => decide (s.now < u + 1000000))).length) →
     Completes (.retrainTrigger p lost) s fun t => t.portSt p = 6 ∧
         t.port p = { s.port p with since := s.now, attempts := 0, rekeys := false } ∧ t.mem = s.mem) ∧
  (∀ (p lanes : Nat) (s : State),
     s.Live →
     (s.portSt p = 6 ∧ (s.port p).rekeys = false) →
     ((portWidths p).contains lanes = true ∧ s.minLanes p ≤ lanes ∧ s.now ≤ (s.port p).since + 5000000) →
     Completes (.retrainEnd p true lanes) s fun t => t.portSt p = 5 ∧ t.fld Fld.lnkPortStatus_lanes p = lanes ∧
         t.port p = { s.port p with since := s.now, resend := (s.port p).retryBuf, badAt := [], discardTo := none } ∧
         bit (t.rd .lnkEvt 0).toNat Evt.lnk_retrain.bit = true ∧ t.fld Fld.lnkPortStatus_major p = s.fld Fld.lnkPortStatus_major p ∧
         t.fld Fld.lnkPortStatus_features p = s.fld Fld.lnkPortStatus_features p ∧ t.rd .lnkPortKey p = s.rd .lnkPortKey p) ∧
  (∀ (p lanes : Nat) (s : State),
     s.Live →
     s.portSt p = 6 →
     Completes (.retrainEnd p false lanes) s fun t => (t.port p).attempts = (s.port p).attempts + 1 ∧
         ((s.port p).attempts + 1 < s.retrainMax → t.portSt p = 6) ∧
         (s.retrainMax ≤ (s.port p).attempts + 1 → t.portSt p = 7 ∧ t.fld Fld.lnkPortStatus_reason p = 8 ∧ bit (t.rd .lnkEvt 0).toNat Evt.lnk_portFailed.bit = true)) ∧
  (∀ (p : Nat) (s : State),
     s.Live →
     (p < 22 ∧ s.portSt p = 7 ∧ (s.port p).handled = false) →
     Completes (.portFailed p) s fun t => (t.port p).handled = true) ∧
  (∀ (p : Nat) (s : State),
     s.Live →
     (8 ≤ p ∧ p < 20 ∧ s.portSt p = 7 ∧ (s.port p).handled = false) →
     (s.Follows ∧ s.domUp = true) →
     (s.dmap.paths.any (fun k v => decide (k.1 = s.self) && bit v (p - 8)) = true) →
     Completes (.portFailed p) s fun t => t.out = s.out ++ [.propose (.pathGone s.self (p - 8))] ∧ (t.port p).queues = .empty ∧
         (t.port p).retryBuf = [] ∧ (∀ q, q < 16 → t.rd .lnkQDepth (p * 16 + q) = 0) ∧ t.mem = s.mem) ∧
  (∀ (p : Nat) (s : State),
     s.Live →
     (20 ≤ p ∧ p < 22 ∧ s.portSt p = 7 ∧ (s.port p).handled = false) →
     s.failover p = false →
     Completes (.portFailed p) s fun t => (∀ c, t.sec.conns.look (p, c) = none) ∧ (t.port p).queues = .empty ∧ t.mem = s.mem ∧ t.nmc = s.nmc) ∧
  (∀ (rq : Requester) (p : Nat) (v : Word) (s : State),
     WindowOpen s rq →
     (p < 22 ∧ s.regReach .lnkPortCfg p = true ∧ s.isModule rq = true) →
     bit v.toNat 0 = true →
     Completes (.portCfgWrite rq p v) s fun t => t.rd .lnkPortCfg p = s.definedBits .lnkPortCfg p v ∧
         RegsKept [(.lnkPortCfg, p)] s t ∧ t = { s with regs := t.regs }) ∧
  (∀ (rq : Requester) (p : Nat) (v : Word) (s : State),
     WindowOpen s rq →
     (p < 22 ∧ s.regReach .lnkPortCfg p = true ∧ s.isModule rq = true) →
     (bit v.toNat 0 = false ∧ s.portSt p ≠ 0) →
     Completes (.portCfgWrite rq p v) s fun t => t.portSt p = 0 ∧ (t.port p).queues = .empty ∧ (t.port p).retryBuf = [] ∧
         (t.port p).retryAt = none ∧ (∀ q, q < 16 → t.rd .lnkQDepth (p * 16 + q) = 0))

/-- A cell whose SEQ is the next one is accepted, its queue's receive use rises, and every 32nd, or 0.5 us after the first, is acknowledged.
An uncorrectable codeword is counted and asked for again; the cells from the named SEQ onward are sent again, in order; those up to an
acknowledged SEQ leave the retry buffer. Freed cells return as credits and give the sender room. A due rekey sends REKEY; its receiver
installs the next receive epoch and answers; the answer switches the sender with COUNTER 0. At a cell boundary resent cells go first;
otherwise the queue the scheduler picks sends one cell, uses one credit, and the cell joins the retry buffer. A depth sample adds each
queue's bytes to its histogram and changes nothing else. -/
def Obligations.LinkCellsAndRetry : Prop :=
  (∀ (p : Nat) (ctl : CellCtl) (s : State),
     s.Live →
     (ctl.ctrl = false ∧ ctl.seq = (s.port p).seqRx % 8192 ∧ (s.port p).unacked < 31) →
     Completes (.cellReceive p ctl) s fun t => (t.port p).seqRx = ((s.port p).seqRx + 1) % 8192 ∧ (t.port p).unacked = (s.port p).unacked + 1 ∧
         (t.port p).unackedAt = some ((s.port p).unackedAt.getD s.now) ∧ t.rd .lnkQRxuse (p * 16 + ctl.queue % 16) = s.rd .lnkQRxuse (p * 16 + ctl.queue % 16) + 1 ∧
         RegsKept [(.lnkQRxuse, p * 16 + ctl.queue % 16)] s t ∧ t = { s with lnk := t.lnk, regs := t.regs }) ∧
  (∀ (p : Nat) (ctl : CellCtl) (s : State),
     s.Live →
     (ctl.ctrl = false ∧ ctl.seq = (s.port p).seqRx % 8192 ∧ 31 ≤ (s.port p).unacked) →
     Completes (.cellReceive p ctl) s fun t => t.out = s.out ++ [.ackCell p ctl.seq] ∧ (t.port p).unacked = 0 ∧
         (t.port p).unackedAt = none ∧ (t.port p).seqRx = ((s.port p).seqRx + 1) % 8192 ∧ t.mem = s.mem) ∧
  (∀ (p : Nat) (ctl : CellCtl) (s : State),
     s.Live →
     (ctl.ctrl = true ∨ ctl.seq ≠ (s.port p).seqRx % 8192) →
     exec (.cellReceive p ctl) s = .next s) ∧
  (∀ (p at_ : Nat) (s : State),
     s.Live →
     ((s.port p).unackedAt = some at_ ∧ at_ + 500 ≤ s.now) →
     Completes (.ackTimer p) s fun t => t.out = s.out ++ [.ackCell p (((s.port p).seqRx + 8191) % 8192)] ∧ (t.port p).unacked = 0 ∧
         (t.port p).unackedAt = none ∧ t = { s with lnk := t.lnk, out := t.out }) ∧
  (∀ (p seq : Nat) (s : State),
     s.Live →
     Completes (.codewordUncorrectable p seq) s fun t => t.out = s.out ++ [.retryCell p (seq % 8192)] ∧
         bits (t.rd .lnkPortErr p).toNat 32 16 = min (bits (s.rd .lnkPortErr p).toNat 32 16 + 1) 65535 ∧
         bits (t.rd .lnkPortErr p).toNat 0 32 = bits (s.rd .lnkPortErr p).toNat 0 32 ∧ (t.port p).discardTo = some (seq % 8192) ∧
         RegsKept [(.lnkPortErr, p)] s t ∧ t = { s with lnk := t.lnk, regs := t.regs, out := t.out }) ∧
  (∀ (p seq : Nat) (pre post : List CellCtl) (c : CellCtl) (s : State),
     s.Live →
     (s.port p).retryBuf = pre ++ c :: post →
     (c.seq = seq ∧ pre.any (fun x => decide (x.seq = seq)) = false) →
     Completes (.retryRequest p seq) s fun t => t.port p = { s.port p with resend := c :: post } ∧
         t.rd .lnkPortRetry p = s.rd .lnkPortRetry p + 1 ∧ RegsKept [(.lnkPortRetry, p)] s t ∧ t = { s with lnk := t.lnk, regs := t.regs }) ∧
  (∀ (p seq : Nat) (pre post : List CellCtl) (c : CellCtl) (s : State),
     s.Live →
     (s.port p).retryBuf = pre ++ c :: post →
     (c.seq = seq ∧ pre.any (fun x => decide (x.seq = seq)) = false) →
     Completes (.cellAck p seq) s fun t => t.port p = { s.port p with retryBuf := post } ∧ t = { s with lnk := t.lnk }) ∧
  (∀ (p q n : Nat) (s : State),
     s.Live →
     ((s.port p).freed.lookD q 0 = n ∧ 0 < n) →
     (64 ≤ n ∨ (s.port p).freedAt.lookD q 0 + 1000 ≤ s.now) →
     Completes (.creditReturn p q) s fun t => t.out = s.out ++ [.creditCell p q n] ∧ (t.port p).freed.lookD q 0 = 0 ∧
         (∀ k, k ≠ q → (t.port p).freed.look k = (s.port p).freed.look k) ∧ t = { s with lnk := t.lnk, out := t.out }) ∧
  (∀ (p q n : Nat) (s : State),
     s.Live →
     q < 16 →
     Completes (.creditReturnArrival p q n) s fun t => (t.port p).avail.look q = some ((s.port p).avail.lookD q 0 + n) ∧
         t.rd .lnkQRet (p * 16 + q) = s.rd .lnkQRet (p * 16 + q) + BitVec.ofNat 64 n ∧ RegsKept [(.lnkQRet, p * 16 + q)] s t ∧
         t = { s with lnk := t.lnk, regs := t.regs }) ∧
  (∀ (p : Nat) (s : State),
     s.Live →
     (s.portSt p = 5 ∧ s.suite p = 1 ∧ (s.port p).rekeying = false) →
     (2 ^ 40 - 2 ^ 32 ≤ (s.rd .lnkPortCounter p).toNat ∨ (s.port p).epochAt + s.rekeyS * 1000000000 ≤ s.now) →
     Completes (.rekeyStart p) s fun t => t.out = s.out ++ [.rekey p ((s.txEpoch p + 1) % 2 ^ 32) false] ∧
         t.port p = { s.port p with rekeying := true } ∧ t = { s with lnk := t.lnk, out := t.out }) ∧
  (∀ (p epoch : Nat) (s : State),
     s.Live →
     (s.portSt p = 5 ∧ s.suite p = 1 ∧ epoch = s.rxEpoch p + 1 ∧ epoch < 2 ^ 32) →
     Completes (.rekeyFrame p epoch false) s fun t => t.rxEpoch p = epoch ∧ t.txEpoch p = s.txEpoch p ∧
         t.out = s.out ++ [.rekey p epoch true] ∧ (t.port p).oldRx = true ∧ RegsKept [(.lnkPortKey, p)] s t) ∧
  (∀ (p epoch : Nat) (s : State),
     s.Live →
     (s.portSt p = 5 ∧ s.suite p = 1 ∧ epoch = s.txEpoch p + 1 ∧ epoch < 2 ^ 32 ∧ (s.port p).rekeying = true) →
     Completes (.rekeyFrame p epoch true) s fun t => t.txEpoch p = epoch ∧ t.rxEpoch p = s.rxEpoch p ∧ t.rd .lnkPortCounter p = 0 ∧
         (t.port p).rekeying = false ∧ (t.port p).epochAt = s.now ∧ t.out = s.out) ∧
  (∀ (p : Nat) (c : CellCtl) (rest : List CellCtl) (s : State),
     s.Live →
     (s.portSt p = 5 ∧ (s.port p).resend = c :: rest) →
     Completes (.cellBoundaryService p) s fun t => t.out = s.out ++ [.cell p c] ∧ (t.port p).resend = rest ∧ (t.port p).queues = (s.port p).queues ∧
         (t.port p).retryBuf = (s.port p).retryBuf ∧ t.mem = s.mem) ∧
  (∀ (p q : Nat) (moved : Bool) (f : Frame) (rest : List Frame) (s : State),
     s.Live →
     (s.portSt p = 5 ∧ (s.port p).resend = [] ∧ (s.port p).retryBuf.length < 4096) →
     (s.suite p = 0 ∨ (s.rd .lnkPortCounter p).toNat < 2 ^ 40) →
     (s.growCredit p).pickQueue p = some (q, moved) →
     (s.port p).queues.lookD q [] = f :: rest →
     Completes (.cellBoundaryService p) s fun t =>
         t.out = s.out ++ [.cell p ⟨(s.port p).seqTx, q, !f.started, decide (f.left = 1), false⟩] ∧
         (t.port p).retryBuf = (s.port p).retryBuf ++ [⟨(s.port p).seqTx, q, !f.started, decide (f.left = 1), false⟩] ∧
         (t.port p).seqTx = ((s.port p).seqTx + 1) % 8192 ∧ (t.port p).avail.lookD q 0 = (s.port p).avail.lookD q 0 - 1 ∧
         (t.port p).queues.lookD q [] = (if f.left ≤ 1 then rest else { f with left := f.left - 1 } :: rest) ∧
         t.rd .lnkQIss (p * 16 + q) = s.rd .lnkQIss (p * 16 + q) + 1 ∧ t.mem = s.mem) ∧
  (∀ (s : State),
     s.Live →
     Completes .queueDepthSample s fun t => (∀ p q, p < 22 → q < 16 → t.lnk.depth.look (p, q) = some (histAdd (s.lnk.depth.lookD (p, q) []) (histBin 1024 (s.rd .lnkQDepth (p * 16 + q)).toNat))) ∧
         t = { s with lnk := { s.lnk with depth := t.lnk.depth } })

/-- On an UP node or fabric port, the last frame of a message that authenticates hands on the bytes gathered with its payload, and its cells
are freed; a frame that fails authentication is discarded and counted. A frame whose tag fails is asked for again; the second failure of
the same frame sets AUTH_FAIL and takes the port to RETRAIN with KEYS to run again. HIST_SEL copies the chosen histogram into the eight
data words and clears its source when CLEAR is set. A valid shadow list written with SWAP waits for the cycle start and then becomes the
active list; an invalid one sets ERR and GATE_ERR and SWAP reads 0. -/
def Obligations.LinkFramesGatesAndTelemetry : Prop :=
  (∀ (p : Nat) (h : FrameHdr) (payload before : List Byte) (s : State),
     s.Live →
     (p < 20 ∧ s.portSt p = 5 ∧ h.queue < 16 ∧ payload.length = h.len ∧ 1 ≤ h.len ∧ h.len ≤ 4432) →
     (s.authOk p h = true ∧ h.last = true) →
     ((h.first = true ∧ before = []) ∨ (h.first = false ∧ (s.port p).rx.look (h.queue, h.conn) = some ⟨h.msg, h.conn, before, false⟩)) →
     Completes (.frameReceive p h payload) s fun t => t.out = s.out ++ [.message p h.queue h.conn (before ++ payload)] ∧
         (t.port p).rx.look (h.queue, h.conn) = none ∧ (t.port p).freed.look h.queue = some ((s.port p).freed.lookD h.queue 0 + frameCells h.len) ∧
         (s.suite p ≠ 0 → (t.port p).lastCtr.look h.epoch = some h.counter) ∧ RegsKept [(.lnkQRxuse, p * 16 + h.queue)] s t ∧ t.mem = s.mem) ∧
  (∀ (p : Nat) (h : FrameHdr) (payload : List Byte) (s : State),
     s.Live →
     (s.portSt p = 5 ∧ h.queue < 16 ∧ payload.length = h.len ∧ 1 ≤ h.len ∧ h.len ≤ 4432) →
     s.authOk p h = false →
     Completes (.frameReceive p h payload) s fun t => t.out = s.out ∧ (t.port p).rx = (s.port p).rx ∧
         t.fld Fld.lnkPortErr_authFail p = min (s.fld Fld.lnkPortErr_authFail p + 1) 65535) ∧
  (∀ (p seq : Nat) (h : FrameHdr) (s : State),
     s.Live →
     (s.portSt p = 5 ∧ (s.port p).tagFails.contains (h.queue, h.msg, h.offset) = false) →
     seq = ((s.port p).seqRx + 8192 - frameCells h.len) % 8192 →
     Completes (.frameTagFail p h) s fun t => t.out = s.out ++ [.retryCell p seq] ∧ (t.port p).seqRx = seq ∧
         (t.port p).tagFails = (h.queue, h.msg, h.offset) :: (s.port p).tagFails ∧ t.portSt p = 5 ∧ t.mem = s.mem) ∧
  (∀ (p : Nat) (h : FrameHdr) (s : State),
     s.Live →
     (s.portSt p = 5 ∧ (s.port p).tagFails.contains (h.queue, h.msg, h.offset) = true) →
     Completes (.frameTagFail p h) s fun t => t.portSt p = 6 ∧ (t.port p).rekeys = true ∧ bit (t.rd .lnkEvt 0).toNat Evt.lnk_authFail.bit = true ∧
         (t.port p).queues = (s.port p).queues ∧ t.out = s.out) ∧
  (∀ (rq : Requester) (v : Word) (kind port q cust : Nat) (s : State),
     WindowOpen s rq →
     (s.regReach .lnkHistSel 0 = true ∧ s.isModule rq = true) →
     (bits v.toNat 0 3 = kind ∧ kind < 4 ∧ bits v.toNat 3 5 = port ∧ port < 22 ∧ bits v.toNat 8 4 = q ∧ bits v.toNat 12 16 = cust) →
     Completes (.histSelWrite rq v) s fun t => (∀ n, n < 8 → t.rd .lnkHistData n = BitVec.ofNat 64 ((s.histOf kind port q cust).getD (2 * n) 0 + (s.histOf kind port q cust).getD (2 * n + 1) 0 * 2 ^ 32)) ∧
         t.lnk = (if bit v.toNat 28 = true then s.lnk.clearHist kind port q cust else s.lnk) ∧ t = { s with lnk := t.lnk, regs := t.regs }) ∧
  (∀ (rq : Requester) (p : Nat) (v : Word) (s : State),
     WindowOpen s rq →
     (p < 22 ∧ s.regReach .lnkGateCfg p = true ∧ s.isModule rq = true) →
     (bit v.toNat 9 = true ∧ gatesValid ((s.rwWrite .lnkGateCfg p v).shadowGates p) = true) →
     Completes (.gateSwapRequest rq p v) s fun t => t.port p = { s.port p with swap := some (t.shadowGates p) } ∧
         t.rd .lnkGateCfg p = s.definedBits .lnkGateCfg p v ∧ RegsKept [(.lnkGateCfg, p)] s t) ∧
  (∀ (rq : Requester) (p : Nat) (v : Word) (s : State),
     WindowOpen s rq →
     (p < 22 ∧ s.regReach .lnkGateCfg p = true ∧ s.isModule rq = true) →
     (bit v.toNat 9 = true ∧ gatesValid ((s.rwWrite .lnkGateCfg p v).shadowGates p) = false) →
     Completes (.gateSwapRequest rq p v) s fun t => t.port p = s.port p ∧ t.fld Fld.lnkGateStatus_err p = 1 ∧ t.fld Fld.lnkGateCfg_swap p = 0 ∧
         bit (t.rd .lnkEvt 0).toNat Evt.lnk_gateErr.bit = true) ∧
  (∀ (p : Nat) (g : List (Nat × Nat)) (s : State),
     s.Live →
     ((s.port p).swap = some g ∧ gatesValid g = true) →
     Completes (.gateSwap p) s fun t => t.port p = { s.port p with gates := g, swap := none } ∧ t.fld Fld.lnkGateCfg_swap p = 0 ∧
         t.fld Fld.lnkGateStatus_err p = 0 ∧ RegsKept [(.lnkGateCfg, p), (.lnkGateStatus, p)] s t ∧ t = { s with lnk := t.lnk, regs := t.regs })

/-- An install whose checks pass makes the lowest qualifying index RESIDENT with its record in every hub's MRAM, its floor and its status; a
failing check is recorded and installs nothing. A RESIDENT context's retirement makes it SWEEPING at step 1, with REASON 8 and no change
where it holds objects and DISCARD is clear. The Sweep's first step closes its connections; its last makes the index RESERVED without the
tenant secret, or FREE with the record erased, and sets SWEEP_DONE. The operator key lands in every MRAM; a job key whose CONFIRM matches
is loaded and its slot's epoch rises by one; commits raise the firmware and key floors to what runs and never lower them; a context floor
is raised and a lower value is ignored. A connection is bound by a signature over the fresh challenge under one of the context's control
keys. -/
def Obligations.ContextsKeysAndFloors : Prop :=
  (∀ (rq : Requester) (v : Word) (s : State) (d : List Byte) (n : Nat),
     WriteOpen s rq .secCtxInstall 0 →
     (low6 v = 0 ∧ s.fld Fld.glbStatus_service ≠ 0) →
     d = s.bytesAt (keyHub v.toNat) 0x4000 →
     s.installCheck rq d = 0 →
     (s.installIndex (installRec d) = some n ∧ s.ctx n = none ∧ (installRec d).flags < 8) →
     Completes (.ctxInstall rq v) s fun t => t.ctxState n = 1 ∧ t.rd .secCtxTenant n = (installRec d).tenant ∧
         ((t.ctx n).map (fun c => (c.record, c.sweepStep))) = some ({ installRec d with seq := 1 }, 0) ∧
         (∀ h, s.hubUp h = true → h < 4 → (t.mram h).ctxRecs.look n = some { installRec d with seq := 1 } ∧ (t.mram h).ctxFloors.look n = some (leAt d 0x14 4)) ∧
         t.rd .secCtxFloor n = BitVec.ofNat 64 (leAt d 0x14 4) ∧ t.rd .secCtxStatus 0 = BitVec.ofNat 64 (n % 64 + 2 * 2 ^ 16) ∧
         bit (t.rd .secEvt 0).toNat Evt.sec_installDone.bit = true) ∧
  (∀ (rq : Requester) (v : Word) (s : State) (d : List Byte) (c : Nat),
     WriteOpen s rq .secCtxInstall 0 →
     (low6 v = 0 ∧ s.fld Fld.glbStatus_service ≠ 0) →
     d = s.bytesAt (keyHub v.toNat) 0x4000 →
     (s.installCheck rq d = c ∧ c ≠ 0) →
     Completes (.ctxInstall rq v) s fun t => t.sec = s.sec ∧ bits (t.rd .secCtxStatus 0).toNat 8 8 = c ∧ bits (t.rd .secCtxStatus 0).toNat 16 2 = 3 ∧
         bit (t.rd .secEvt 0).toNat Evt.sec_installRefused.bit = true ∧ RegsKept [(.secCtxStatus, 0), (.secEvt, 0)] s t) ∧
  (∀ (rq : Requester) (v : Word) (n : Nat) (c : Ctx) (s : State),
     WriteOpen s rq .secCtxRetire 0 →
     (bit v.toNat 6 = false ∧ bits v.toNat 0 6 = n ∧ (s.actsFor rq n || s.isOperator rq) = true) →
     (s.ctx n = some c ∧ s.ctxState n = 1 ∧ s.holdsObjects n = false) →
     Completes (.ctxRetire rq v) s fun t => t.ctxState n = 2 ∧
         ((t.ctx n).map (fun k => (k.sweepStep, k.record.state, k.record.discard, k.record.secret))) = some (1, 2, false, c.record.secret) ∧
         t.rd .secCtxStatus 0 = BitVec.ofNat 64 (n % 64 + 1 * 2 ^ 16) ∧ t.ssn = s.ssn ∧ t.mem = s.mem) ∧
  (∀ (rq : Requester) (v : Word) (n : Nat) (c : Ctx) (s : State),
     WriteOpen s rq .secCtxRetire 0 →
     (bit v.toNat 6 = false ∧ bits v.toNat 0 6 = n ∧ (s.actsFor rq n || s.isOperator rq) = true) →
     (s.ctx n = some c ∧ s.ctxState n = 1 ∧ s.holdsObjects n = true) →
     Completes (.ctxRetire rq v) s fun t => t = s.wr .secCtxStatus 0 (BitVec.ofNat 64 (n + 8 * 2 ^ 8 + 3 * 2 ^ 16))) ∧
  (∀ (rq : Requester) (v : Word) (n : Nat) (c : Ctx) (s : State),
     WriteOpen s rq .secCtxRetire 0 →
     (bit v.toNat 6 = true ∧ bits v.toNat 0 6 = n ∧ (s.actsFor rq n || s.isOperator rq) = true) →
     (s.ctx n = some c ∧ (s.ctxState n = 1 ∨ s.ctxState n = 3)) →
     Completes (.ctxRetireDiscard rq v) s fun t => t.ctxState n = 2 ∧
         ((t.ctx n).map (fun k => (k.sweepStep, k.record.state, k.record.discard))) = some (1, 2, true) ∧
         t.rd .secCtxStatus 0 = BitVec.ofNat 64 (n % 64 + 1 * 2 ^ 16) ∧ t.ssn = s.ssn ∧ t.mem = s.mem) ∧
  (∀ (n : Nat) (c : Ctx) (s : State),
     s.Live →
     (s.ctx n = some c ∧ s.ctxState n = 2 ∧ s.flushing = false ∧ c.sweepStep = 1) →
     Completes (.contextSweep n) s fun t => (t.ctx n).map (·.sweepStep) = some 2 ∧
         (∀ p k, ((t.sec.conns.look (p, k)).bind (·.bound)) ≠ some (.ctx n)) ∧ t.sch.reports = s.sch.reports.filter (fun r => decide (r.ctx ≠ n)) ∧
         t.ssn = s.ssn ∧ t.mem = s.mem) ∧
  (∀ (n : Nat) (c : Ctx) (s : State),
     s.Live →
     (s.ctx n = some c ∧ s.ctxState n = 2 ∧ s.flushing = false ∧ c.sweepStep = 6 ∧ c.record.discard = false) →
     Completes (.contextSweep n) s fun t => t.ctxState n = 3 ∧ ((t.ctx n).map (fun k => (k.record.state, k.record.secret))) = some (3, none) ∧
         t.rd .secCtxTenant n = c.record.tenant ∧ t.fld Fld.secCtxState_tdi n = 0 ∧ bit (t.rd .secEvt 0).toNat Evt.sec_sweepDone.bit = true ∧ t.mem = s.mem) ∧
  (∀ (n : Nat) (c : Ctx) (s : State),
     s.Live →
     (s.ctx n = some c ∧ s.ctxState n = 2 ∧ s.flushing = false ∧ c.sweepStep = 6 ∧ c.record.discard = true) →
     (s.ctxExtents n = [] ∧ s.fls.sdisc = []) →
     Completes (.contextSweep n) s fun t => t.ctxState n = 0 ∧ t.ctx n = none ∧ t.rd .secCtxTenant n = 0 ∧ t.rd .secCtxFloor n = 0 ∧
         (∀ h, h < 4 → s.hubUp h = true → (t.mram h).ctxRecs.look n = none) ∧ bit (t.rd .secEvt 0).toNat Evt.sec_sweepDone.bit = true) ∧
  (∀ (rq : Requester) (v : Word) (s : State),
     WriteOpen s rq .secOwner 0 →
     (low6 v = 0 ∧ (s.fld Fld.secStatus_owned = 0 ∨ s.isOperator rq = true)) →
     Completes (.ownerKeyWrite rq v) s fun t => t.fld Fld.secStatus_owned = 1 ∧
         (∀ h, h < 4 → s.hubUp h = true → (t.mram h).owner = some (s.bytesAt (keyHub v.toNat) 1952)) ∧ RegsKept [(.secStatus, 0)] s t ∧
         t = { s with sec := { s.sec with mram := t.sec.mram }, regs := t.regs }) ∧
  (∀ (rq : Requester) (v : Word) (n k : Nat) (c : Ctx) (d : List Byte) (s : State),
     WriteOpen s rq .secJobkey 0 →
     (d = s.bytesAt (keyHub v.toNat) 1616 ∧ low6 v = 0 ∧ leAt d 0 1 = n ∧ leAt d 1 1 = k) →
     (n < 64 ∧ k < 16 ∧ s.actsFor rq n = true ∧ s.ctx n = some c ∧ s.resident n = true) →
     allZero (takeAt d 2 14) = true →
     Config.shake256 (Config.kemDecap (takeAt d 16 1568) ++ labelConfirm) 32 = takeAt d 1584 32 →
     Completes (.jobkeyLoad rq v) s fun t => (t.ctx n).map (fun x => (x.jobEpochs.look k, x.jobKeys.look k)) = some (some (c.jobEpochs.lookD k 0 + 1), some (Config.kemDecap (takeAt d 16 1568))) ∧
         bit (t.rd .secCtxJobkeys n).toNat k = true ∧ RegsKept [(.secCtxJobkeys, n)] s t ∧ t = { s with sec := { s.sec with ctxs := t.sec.ctxs }, regs := t.regs }) ∧
  (∀ (rq : Requester) (v : Word) (s : State),
     WriteOpen s rq .secFwCommit 0 →
     (s.isModule rq = true ∧ bit v.toNat 0 = true ∧ s.mramQuorum = true) →
     Completes (.fwFloorCommit rq v) s fun t => t.fld Fld.secFw_fwFloor = max (s.fld Fld.secFw_fwFloor) (s.fld Fld.secFw_svn) ∧
         (∀ h, h < 4 → s.hubUp h = true → (t.mram h).fwFloor = max (s.fld Fld.secFw_fwFloor) (s.fld Fld.secFw_svn)) ∧
         t.fld Fld.secFw_keyFloor = s.fld Fld.secFw_keyFloor ∧ t.fld Fld.glbStatus_trial = 0 ∧ t.mem = s.mem) ∧
  (∀ (rq : Requester) (v : Word) (s : State),
     WriteOpen s rq .secFwCommit 0 →
     (s.isModule rq = true ∧ bit v.toNat 1 = true ∧ s.mramQuorum = true) →
     Completes (.keyFloorCommit rq v) s fun t => t.fld Fld.secFw_keyFloor = max (s.fld Fld.secFw_keyFloor) (s.fld Fld.secFw_keyIndex) ∧
         (∀ h, h < 4 → s.hubUp h = true → (t.mram h).keyFloor = max (s.fld Fld.secFw_keyFloor) (s.fld Fld.secFw_keyIndex)) ∧
         t.fld Fld.secFw_fwFloor = s.fld Fld.secFw_fwFloor ∧ t.fld Fld.glbStatus_trial = 0 ∧ t.mem = s.mem) ∧
  (∀ (rq : Requester) (n f : Nat) (v : Word) (s : State),
     WindowOpen s rq →
     (n < 64 ∧ s.regReach .secCtxFloor n = true ∧ (s.actsFor rq n || s.isOperator rq) = true ∧ f = v.toNat % 2 ^ 32) →
     ((s.rd .secCtxFloor n).toNat < f ∧ s.mramQuorum = true ∧ s.ctxState n ≠ 0) →
     Completes (.ctxFloorWrite rq n v) s fun t => t.rd .secCtxFloor n = BitVec.ofNat 64 f ∧
         (∀ h, h < 4 → s.hubUp h = true → (t.mram h).ctxFloors.look n = some f) ∧ RegsKept [(.secCtxFloor, n)] s t ∧
         t = { s with sec := { s.sec with mram := t.sec.mram }, regs := t.regs }) ∧
  (∀ (rq : Requester) (n : Nat) (v : Word) (s : State),
     WindowOpen s rq →
     (n < 64 ∧ s.regReach .secCtxFloor n = true ∧ (s.actsFor rq n || s.isOperator rq) = true) →
     v.toNat % 2 ^ 32 ≤ (s.rd .secCtxFloor n).toNat →
     Completes (.ctxFloorWrite rq n v) s fun t => t = s) ∧
  (∀ (port conn n : Nat) (key sig : List Byte) (c : Ctx) (s : State),
     s.Live →
     (s.fld Fld.glbStatus_service = 1 ∧ s.ctx n = some c ∧ s.resident n = true) →
     (c.record.control.contains key = true ∧ ((s.sec.conns.look (port, conn)).bind (·.bound)) = none) →
     Config.mlDsa65Verify key (s.freshBytes 32 ++ natLe 4 conn) sig = true →
     Completes (.sinilBind port conn (.ctx n) sig) s fun t => (t.sec.conns.look (port, conn)).bind (·.bound) = some (.ctx n) ∧
         t.actsFor (.sinil port conn) n = true ∧ t.out = s.out ++ [.bindAnswer port conn true] ∧
         t = { s with sec := { s.sec with conns := t.sec.conns }, out := t.out, freeCtr := t.freeCtr }) ∧
  (∀ (port conn n : Nat) (sig : List Byte) (s : State),
     s.Live →
     (s.resident n = false ∨ s.fld Fld.glbStatus_service ≠ 1) →
     Completes (.sinilBind port conn (.ctx n) sig) s fun t => t.sec = s.sec ∧ t.out = s.out ++ [.bindAnswer port conn false] ∧ t.regs = s.regs)

/-- On a transport that may carry SPDM: GET_VERSION starts a negotiation, GET_CAPABILITIES and NEGOTIATE_ALGORITHMS finish it. After it
GET_DIGESTS and GET_CERTIFICATE answer slot 0, CHALLENGE and a signed GET_MEASUREMENTS take one signature and advance NEXT by one, and
KEY_EXCHANGE opens a session under a signature. FINISH establishes it, KEY_UPDATE renews its keys, HEARTBEAT answers, END_SESSION closes
it. The message codes are those of SPDM 1.3, which is the model's presumption (log 11). -/
def Obligations.AttestationRequests : Prop :=
  (∀ (p : SpdmPath) (s : State),
     s.Live →
     s.spdmOpen p = true →
     Completes (.getVersion p) s fun t => t.spdm p = { s.spdm p with minor := some 3, caps := false, algs := false } ∧
         t.out = s.out ++ [.spdm p 4 [0x12, 0x13]] ∧ t = { s with sec := { s.sec with spdm := t.sec.spdm }, out := t.out }) ∧
  (∀ (p : SpdmPath) (minor : Nat) (s : State),
     s.Live →
     (s.spdmOpen p = true ∧ (s.spdm p).minor.isSome = true ∧ (minor = 2 ∨ minor = 3)) →
     Completes (.getCapabilities p minor) s fun t => t.spdm p = { s.spdm p with minor := some minor, caps := true } ∧
         t = { s with sec := { s.sec with spdm := t.sec.spdm }, out := t.out }) ∧
  (∀ (p : SpdmPath) (s : State),
     s.Live →
     (s.spdmOpen p = true ∧ (s.spdm p).caps = true) →
     Completes (.negotiateAlgorithms p true true true true) s fun t => t.spdm p = { s.spdm p with algs := true } ∧
         t.out = s.out ++ [.spdm p 0x63 []] ∧ t = { s with sec := { s.sec with spdm := t.sec.spdm }, out := t.out }) ∧
  (∀ (p : SpdmPath) (a h d e : Bool) (s : State),
     s.Live →
     (s.spdmOpen p = true ∧ (a && h && d && e) = false) →
     Completes (.negotiateAlgorithms p a h d e) s fun t => t = { s with out := s.out ++ [.spdm p 0x7F []] }) ∧
  (∀ (p : SpdmPath) (s : State),
     s.Live →
     (s.spdmOpen p = true ∧ (s.spdm p).ready = true) →
     Completes (.getDigests p) s fun t => t = { s with out := s.out ++ [.spdm p 1 (1 :: Config.sha3 Config.certChain)] }) ∧
  (∀ (p : SpdmPath) (offset len : Nat) (s : State),
     s.Live →
     (s.spdmOpen p = true ∧ (s.spdm p).ready = true) →
     Completes (.getCertificate p 0 offset len) s fun t => t = { s with out := s.out ++ [.spdm p 2 ((Config.certChain.drop offset).take len)] }) ∧
  (∀ (p : SpdmPath) (nonce : List Byte) (s : State),
     s.Live →
     (s.spdmOpen p = true ∧ (s.spdm p).ready = true ∧ s.mramQuorum = true ∧ s.sec.next < 2 ^ 40) →
     Completes (.challenge p 0 nonce) s fun t => t.sec.next = s.sec.next + 1 ∧ t.out = s.out ++ [.spdm p 3 nonce] ∧
         (t.rd .secXmssNext 0).toNat = (s.sec.next + 1) % 2 ^ 40 ∧
         (s.sec.next = (s.rd .secXmssRes 0).toNat → ∀ h, h < 4 → s.hubUp h = true → (t.mram h).nextRes = s.sec.next + 1024) ∧ t.sec.spdm = s.sec.spdm) ∧
  (∀ (p : SpdmPath) (i : Nat) (s : State),
     s.Live →
     (s.spdmOpen p = true ∧ (s.spdm p).ready = true ∧ 1 ≤ i ∧ i ≤ 5) →
     Completes (.getMeasurements p i false) s fun t => t = { s with out := s.out ++ [.spdm p 0x60 (s.measurement i)] }) ∧
  (∀ (p : SpdmPath) (s : State),
     s.Live →
     (s.spdmOpen p = true ∧ (s.spdm p).ready = true ∧ s.mramQuorum = true ∧ s.sec.next < 2 ^ 40) →
     Completes (.getMeasurements p 0xFF true) s fun t => t.sec.next = s.sec.next + 1 ∧
         t.out = s.out ++ [.spdm p 0x60 (s.measurement 1 ++ s.measurement 2 ++ s.measurement 3 ++ s.measurement 4 ++ s.measurement 5)]) ∧
  (∀ (p : SpdmPath) (reqId : Nat) (s : State),
     s.Live →
     (s.spdmOpen p = true ∧ (s.spdm p).ready = true ∧ (s.spdm p).sessions.length < 4 ∧ s.mramQuorum = true ∧ s.sec.next < 2 ^ 40) →
     Completes (.keyExchange p reqId) s fun t => t.sec.next = s.sec.next + 1 ∧
         t.spdm p = { s.spdm p with sessions := (s.spdm p).sessions ++ [((s.spdm p).nextId, false, 0)], nextId := (s.spdm p).nextId + 1 }) ∧
  (∀ (p : SpdmPath) (reqId : Nat) (s : State),
     s.Live →
     (s.spdmOpen p = true ∧ 4 ≤ (s.spdm p).sessions.length) →
     Completes (.keyExchange p reqId) s fun t => t = { s with out := s.out ++ [.spdm p 0x7F []] }) ∧
  (∀ (p : SpdmPath) (sid : Nat) (s : State),
     s.Live →
     (s.spdmOpen p = true ∧ (s.spdm p).has sid false = true) →
     Completes (.finish p sid true) s fun t => (t.spdm p).has sid true = true ∧ (t.spdm p).sessions.length = (s.spdm p).sessions.length ∧
         t = { s with sec := { s.sec with spdm := t.sec.spdm }, out := t.out }) ∧
  (∀ (p : SpdmPath) (sid : Nat) (s : State),
     s.Live →
     (s.spdmOpen p = true ∧ (s.spdm p).has sid false = true) →
     Completes (.finish p sid false) s fun t => (t.spdm p).has sid false = false ∧ t.out = s.out ++ [.spdm p 0x7F []]) ∧
  (∀ (p : SpdmPath) (sid op : Nat) (s : State),
     s.Live →
     (s.spdmOpen p = true ∧ (s.spdm p).has sid true = true ∧ (op = 1 ∨ op = 2)) →
     Completes (.keyUpdate p sid op) s fun t => (t.spdm p).sessions = (s.spdm p).sessions.map (fun k => if k.1 = sid then (k.1, k.2.1, k.2.2 + 1) else k) ∧
         t = { s with sec := { s.sec with spdm := t.sec.spdm }, out := t.out }) ∧
  (∀ (p : SpdmPath) (sid : Nat) (s : State),
     s.Live →
     (s.spdmOpen p = true ∧ (s.spdm p).has sid true = true) →
     Completes (.heartbeat p sid) s fun t => t = { s with out := s.out ++ [.spdm p 0x68 []] }) ∧
  (∀ (p : SpdmPath) (sid : Nat) (s : State),
     s.Live →
     (s.spdmOpen p = true ∧ (s.spdm p).has sid true = true) →
     Completes (.endSession p sid) s fun t => (t.spdm p).has sid false = false ∧
         (t.spdm p).sessions = (s.spdm p).sessions.filter (fun k => decide (k.1 ≠ sid)) ∧
         t = { s with sec := { s.sec with spdm := t.sec.spdm }, out := t.out })

/-- IDE_KM inside a session keys a stream while the head is not insecure and its one link stream or eight selective ones are not exceeded. A
stream whose integrity check fails marks its head insecure, and every locked or running TDI bound to a stream of that head goes to ERROR.
LOCK is accepted in CONFIG_UNLOCKED of a RESIDENT context, START in CONFIG_LOCKED with a selective stream bound to the TDI; STOP returns
it to CONFIG_UNLOCKED and counts a sweep. A CONF context's head may act for it only through that function with the TDI in RUN. -/
def Obligations.HostInterfaceIsolation : Prop :=
  (∀ (p : SpdmPath) (sid head stream : Nat) (selective : Bool) (tdi : Option Nat) (s : State),
     s.Live →
     (s.spdmOpen p = true ∧ (s.spdm p).has sid true = true ∧ head < 2 ∧ s.sec.headsInsecure.contains head = false) →
     (s.ideCount head selective < (if selective = true then 8 else 1)) →
     Completes (.ideKm p sid head stream selective tdi) s fun t => t.sec.ide.look (head, stream) = some ⟨selective, tdi, false⟩ ∧
         (∀ k, k ≠ (head, stream) → t.sec.ide.look k = s.sec.ide.look k) ∧ t = { s with sec := { s.sec with ide := t.sec.ide }, out := t.out }) ∧
  (∀ (head stream n : Nat) (x : IdeStream) (s : State),
     s.Live →
     s.sec.ide.look (head, stream) = some x →
     (x.tdi = some n ∧ (s.fld Fld.secCtxState_tdi n = 1 ∨ s.fld Fld.secCtxState_tdi n = 2)) →
     Completes (.ideIntegrityFail head stream) s fun t => t.sec.headsInsecure.contains head = true ∧ t.fld Fld.secCtxState_tdi n = 3 ∧
         bit (t.rd .secEvt 0).toNat Evt.sec_tdiError.bit = true ∧ t.sec.ctxs = s.sec.ctxs ∧ t.mem = s.mem) ∧
  (∀ (n : Nat) (s : State),
     s.Live →
     (s.resident n = true ∧ s.fld Fld.secCtxState_tdi n = 0) →
     Completes (.lockInterfaceRequest n) s fun t => t.fld Fld.secCtxState_tdi n = 1 ∧ t.ctxState n = s.ctxState n ∧ t.out = s.out ++ [.tdisp n 1 true] ∧
         RegsKept [(.secCtxState, n)] s t ∧ t = { s with regs := t.regs, out := t.out }) ∧
  (∀ (n : Nat) (s : State),
     s.Live →
     (s.resident n = false ∨ s.fld Fld.secCtxState_tdi n ≠ 0) →
     Completes (.lockInterfaceRequest n) s fun t => t = { s with out := s.out ++ [.tdisp n (s.fld Fld.secCtxState_tdi n) false] }) ∧
  (∀ (n : Nat) (s : State),
     s.Live →
     (s.fld Fld.secCtxState_tdi n = 1 ∧ s.sec.ide.any (fun _ y => y.selective && decide (y.tdi = some n) && !y.insecure) = true) →
     Completes (.startInterfaceRequest n) s fun t => t.fld Fld.secCtxState_tdi n = 2 ∧ t.ctxState n = s.ctxState n ∧ t.out = s.out ++ [.tdisp n 2 true] ∧
         RegsKept [(.secCtxState, n)] s t ∧ t = { s with regs := t.regs, out := t.out }) ∧
  (∀ (n : Nat) (s : State),
     s.Live →
     n < 64 →
     Completes (.stopInterfaceRequest n) s fun t => t.fld Fld.secCtxState_tdi n = 0 ∧ t.ctxState n = s.ctxState n ∧ t.out = s.out ++ [.tdisp n 0 true] ∧
         t.rd .secSweeps 0 = s.rd .secSweeps 0 + 1 ∧ RegsKept [(.secCtxState, n), (.secSweeps, 0)] s t ∧ t = { s with regs := t.regs, out := t.out }) ∧
  (∀ (head n : Nat) (vf : Option Nat) (s : State),
     (s.fld Fld.secCtxState_conf n = 1 ∧ (vf ≠ some n ∨ s.fld Fld.secCtxState_tdi n ≠ 2)) →
     s.actsFor (.host head vf) n = false)

/-- A VSUP warning takes NORMAL to HOLD; power-fail takes NORMAL or HOLD to FLUSH with HU_EN set, core voltage at 0.62 V, erases held, any
freeze released and the fabric and node ports DOWN. The end of a flush reports its times and leads to DARK with nothing dirty, or to
RESUMING where VSUP has recovered; a tier 2 cut ends the copies. Recovery ends HOLD, and takes DARK to RESUMING with HU_EN clear and a
core voltage in the governor's range; RESUMING ends in NORMAL once the ports of before are back. A rack-supply poll is published, and an
input fault enters HOLD where PMBUS_HOLD is set. VIN_RESET and RESET_N give the state after reset with MRAM kept; RESET_N in a flush waits
for its end. The thermal hold is released once every junction is below 95 C. -/
def Obligations.SupplyAndFlush : Prop :=
  (∀ (s : State),
     s.pwrSt = 0 →
     Completes (.vsupWarning false) s fun t => t.pwrSt = 1 ∧ bit (t.rd .pwrEvt 0).toNat Evt.pwr_hold.bit = true ∧ t.pwr.holdRack = false ∧
         t.pwr.recovered = false ∧ t.sch.steps = s.sch.steps ∧ t.tlr.clerks = s.tlr.clerks) ∧
  (∀ (s : State),
     s.pwrSt ≠ 0 →
     Completes (.vsupWarning false) s fun t => t = { s with pwr := { s.pwr with recovered := false } }) ∧
  (∀ (s : State),
     s.pwrSt ≤ 1 →
     Completes .vsupPowerFail s fun t => t.pwrSt = 2 ∧ t.fld Fld.pwrStatus_huEn 0 = 1 ∧ bits (t.rd .glbCore 0).toNat 0 16 = 620 ∧ t.fls.held = true ∧
         t.frz.frozen = false ∧ t.pwr.cut = false ∧ bit (t.rd .pwrEvt 0).toNat Evt.pwr_powerFail.bit = true ∧ (∀ p, p < 20 → t.portSt p = 0)) ∧
  (∀ (s : State),
     (s.pwrSt = 1 ∧ (s.pwr.holdRack && s.pwr.rackFault) = false) →
     Completes .vsupRecovery s fun t => t.pwrSt = 0 ∧ bit (t.rd .pwrEvt 0).toNat Evt.pwr_dip.bit = true ∧ t.pwr.recovered = true ∧
         t.sch.steps = s.sch.steps) ∧
  (∀ (s : State),
     s.pwrSt = 3 →
     Completes .vsupRecovery s fun t => t.pwrSt = 4 ∧ t.fld Fld.pwrStatus_huEn 0 = 0 ∧ t.fls.held = false ∧ t.pwr.recovered = true ∧
         620 ≤ bits (t.rd .glbCore 0).toNat 0 16 ∧ bits (t.rd .glbCore 0).toNat 0 16 ≤ 850) ∧
  (∀ (s : State),
     Completes .vinReset s fun t => t.mem = State.reset.mem ∧ t.boot.done = [] ∧ t.arch.hubs = State.reset.arch.hubs ∧ t.frz.frozen = false ∧
         t.tlr = State.reset.tlr ∧ t.ssn = State.reset.ssn ∧ t.pending = s.pending ∧
         (∀ r i, r ≠ .nmcWindow → r ≠ .ssnKvPool → r ≠ .dfbCfg → t.rd r i = State.reset.rd r i) ∧
         (s.pwr.copies = [] → t.sec.mram = s.sec.mram ∧ t.rd .nmcWindow 0 = s.rd .nmcWindow 0 ∧ t.rd .ssnKvPool 0 = s.rd .ssnKvPool 0 ∧ t.rd .dfbCfg 0 = s.rd .dfbCfg 0)) ∧
  (∀ (s : State),
     (s.pwrSt ≠ 2 ∨ s.frz.frozen = true) →
     Completes .resetPin s fun t => t.mem = State.reset.mem ∧ t.boot.done = [] ∧ t.arch.hubs = State.reset.arch.hubs ∧ t.frz.frozen = false ∧
         t.tlr = State.reset.tlr ∧ t.ssn = State.reset.ssn ∧ t.pending = s.pending ∧ t.frz.pinLow = s.frz.pinLow ∧ t.frz.ir = s.frz.ir) ∧
  (∀ (s : State),
     s.Live →
     s.pwrSt = 2 →
     Completes .resetPin s fun t => t = { s with pwr := { s.pwr with pendingReset := some .module } }) ∧
  (∀ (s : State),
     Completes .overvoltage s fun t => bit (t.rd .pwrEvt 0).toNat Evt.pwr_overvolt.bit = true ∧ RegsKept [(.pwrEvt, 0)] s t ∧
         t = { s with regs := t.regs, latches := t.latches }) ∧
  (∀ (u1 m2 : Nat) (s : State),
     (s.pwrSt = 2 ∧ s.pwr.pendingReset = none ∧ s.pwr.recovered = false) →
     Completes (.flushDone u1 m2) s fun t => t.pwrSt = 3 ∧ t.rd .pwrFlushLast 0 = BitVec.ofNat 64 (u1 % 2 ^ 32 + m2 % 2 ^ 32 * 2 ^ 32) ∧
         bit (t.rd .pwrEvt 0).toNat Evt.pwr_flushDone.bit = true ∧ (s.fld Fld.pwrHoldCfg_fullEn 0 = 0 → t.dirtyTotal = 0)) ∧
  (∀ (u1 m2 : Nat) (s : State),
     (s.pwrSt = 2 ∧ s.pwr.pendingReset = none ∧ s.pwr.recovered = true) →
     Completes (.flushDone u1 m2) s fun t => t.pwrSt = 4 ∧ t.fld Fld.pwrStatus_huEn 0 = 0 ∧ t.fls.held = false) ∧
  (∀ (written : List Nat) (s : State),
     (s.pwrSt = 2 ∧ s.fld Fld.pwrHoldCfg_fullEn 0 = 1 ∧ s.pwr.cut = false) →
     Completes (.tier2Cut written) s fun t => t.pwrSt = 2 ∧ t.pwr.cut = true ∧ bit (t.rd .pwrEvt 0).toNat Evt.pwr_tier2Cut.bit = true) ∧
  (∀ (s : State),
     s.Live →
     (s.pwrSt = 4 ∧ s.frz.deferred = none) →
     (s.pwr.portsBefore.all (fun p => s.portBack p) = true) →
     Completes .resumingDone s fun t => t.pwrSt = 0 ∧ t.pwr.copies = [] ∧ t.pwr.portsBefore = [] ∧
         bit (t.rd .pwrEvt 0).toNat Evt.pwr_resumed.bit = true) ∧
  (∀ (a : PsuAnswer) (s : State),
     s.Live →
     (s.fld Fld.pwrPmbusCfg_enable 0 = 1 ∧ a.statusInput % 256 = 0) →
     s.pwrSt ≠ 1 →
     Completes (.psuPoll (some a)) s fun t => t.rd .pwrPsu 0 = BitVec.ofNat 64 (a.pout % 2 ^ 16 + a.statusWord % 2 ^ 16 * 2 ^ 16 + a.vin % 2 ^ 16 * 2 ^ 32) ∧
         t.out = s.out ++ [.pmbusPoll ((s.rd .pwrPmbusCfg 0).toNat % 128)] ∧ t.pwr.pollMiss = 0 ∧ t.pwr.rackFault = false ∧ t.pwrSt = s.pwrSt ∧
         RegsKept [(.pwrPsu, 0)] s t) ∧
  (∀ (a : PsuAnswer) (s : State),
     s.Live →
     (s.fld Fld.pwrPmbusCfg_enable 0 = 1 ∧ a.statusInput % 256 ≠ 0) →
     (s.fld Fld.pwrHoldCfg_pmbusHold 0 = 1 ∧ s.pwrSt = 0) →
     Completes (.psuPoll (some a)) s fun t => t.pwrSt = 1 ∧ t.pwr.holdRack = true ∧ t.pwr.rackFault = true ∧
         bit (t.rd .pwrEvt 0).toNat Evt.pwr_psuFault.bit = true ∧ bit (t.rd .pwrEvt 0).toNat Evt.pwr_hold.bit = true) ∧
  (∀ (tC : List Nat) (s : State),
     (s.arch.heldThermal = true ∧ tC.all (fun u => decide (u < 95)) = true) →
     Completes (.thermalResetRelease tC) s fun t => t = { s with arch := { s.arch with heldThermal := false } })

/-- A due measurement starts when the three conditions of R356 hold, with the charger stopped and HU_EN set, and is put off otherwise;
PWR_TEST asks for one; the sixth retry that fails sets BANK_TEST_LATE. Its end publishes C and ESR, clears HU_EN, leaves the bank 1.0 V
lower and sets BANK_AGED past a limit. The budget is recomputed from the live voltage: PWR_BUDGET holds B, BANK_LOW reads 1 exactly below
64 MiB and DEFICIT exactly while the dirty bytes exceed B. -/
def Obligations.HoldUpBank : Prop :=
  (∀ (ca tc : Nat) (s : State),
     s.Live →
     (s.pwr.measuring = false ∧ s.bankDue tc = true ∧ s.bankReady ca = true) →
     Completes (.bankMeasure ca tc) s fun t => t.pwr.measuring = true ∧ t.pwr.asked = false ∧ t.fld Fld.pwrStatus_huEn 0 = 1 ∧
         t.fld Fld.pwrStatus_charging 0 = 0 ∧ t.pwrSt = s.pwrSt ∧ RegsKept [(.pwrStatus, 0)] s t ∧ t = { s with pwr := t.pwr, regs := t.regs }) ∧
  (∀ (ca tc : Nat) (s : State),
     s.Live →
     (s.pwr.measuring = false ∧ s.bankDue tc = true ∧ s.bankReady ca = false) →
     Completes (.bankMeasure ca tc) s fun t => t = { s with pwr := { s.pwr with asked := true, retries := 0 } }) ∧
  (∀ (rq : Requester) (v : Word) (s : State),
     WriteOpen s rq .pwrTest 0 →
     (s.isModule rq = true ∧ bit v.toNat 0 = true) →
     Completes (.bankTestWrite rq v) s fun t => t = { s with pwr := { s.pwr with asked := true, retries := 0 } }) ∧
  (∀ (ca tc : Nat) (s : State),
     s.Live →
     (s.pwr.measuring = false ∧ s.pwr.asked = true ∧ s.bankReady ca = true) →
     Completes (.bankMeasureRetry ca tc) s fun t => t.pwr.measuring = true ∧ t.pwr.asked = false ∧ t.fld Fld.pwrStatus_huEn 0 = 1) ∧
  (∀ (ca tc : Nat) (s : State),
     s.Live →
     (s.pwr.measuring = false ∧ s.pwr.asked = true ∧ s.bankReady ca = false) →
     Completes (.bankMeasureRetry ca tc) s fun t => t.pwr = { s.pwr with retries := s.pwr.retries + 1 } ∧
         (s.pwr.retries = 5 → bit (t.rd .pwrEvt 0).toNat Evt.pwr_bankTestLate.bit = true) ∧ RegsKept [(.pwrEvt, 0)] s t) ∧
  (∀ (cMf esr tc : Nat) (s : State),
     s.Live →
     (s.pwr.measuring = true ∧ cMf < 2 ^ 32 ∧ esr < 2 ^ 16) →
     Completes (.bankMeasurementEnd cMf esr tc) s fun t => t.rd .pwrBank 0 = BitVec.ofNat 64 (cMf + esr * 2 ^ 32) ∧
         t.fld Fld.pwrStatus_huEn 0 = 0 ∧ t.pwr.measuring = false ∧ t.pwr.measured = true ∧ t.pwr.measuredAt = s.now ∧ t.pwr.vbank = s.pwr.vbank - 100 ∧
         (cMf < s.fld Fld.pwrBankLimit_cMin 0 ∨ s.fld Fld.pwrBankLimit_esrMax 0 < esr → bit (t.rd .pwrEvt 0).toNat Evt.pwr_bankAged.bit = true)) ∧
  (∀ (v : Nat) (s : State),
     s.Live →
     Completes (.budgetRecompute v) s fun t => t.pwr.vbank = v % 65536 ∧ t.fld Fld.pwrVolts_vbank 0 = v % 65536 ∧
         t.rd .pwrBudget 0 = BitVec.ofNat 64 (t.budgetAt (v % 65536)) ∧
         (t.fld Fld.pwrStatus_bankLow 0 = 1 ↔ t.budgetAt (v % 65536) < 2 ^ 26) ∧ (t.fld Fld.pwrStatus_deficit 0 = 1 ↔ t.budgetAt (v % 65536) < s.dirtyTotal) ∧
         t.mem = s.mem ∧ t.fls = s.fls)

/-- FREEZE_N going low, a write of DBG_FREEZE or the JTAG command freezes a module in NORMAL or HOLD: frozen, the status counts it,
DBG_EVT.FROZEN is set, clerks keep their state and memory holds; in FLUSH, DARK and RESUMING it is deferred with its cause. Over JTAG the
freeze is released while FREEZE_N is high, node time stepping forward by the time frozen; the read-out fields are written; read-out
starts; image bytes shift out in order. Each other JTAG instruction stands in its TAP and shifts out the identification code, the bypass
bit or the boundary register, whose contents are free values. -/
def Obligations.FreezeAndReadout : Prop :=
  (∀ (s : State),
     s.Live →
     (s.pwrSt ≤ 1 ∧ s.frz.deferred = none) →
     Completes (.freezePin true) s fun t => t.frz.frozen = true ∧ t.frz.pinLow = true ∧ t.frz.cause = 1 ∧ bits (t.rd .dbgFrzStatus 0).toNat 0 2 = 1 ∧
         t.fld Fld.dbgFrzStatus_cause 0 = 1 ∧ bits (t.rd .dbgFrzStatus 0).toNat 4 32 = (bits (s.rd .dbgFrzStatus 0).toNat 4 32 + 1) % 2 ^ 32 ∧
         bit (t.rd .dbgEvt 0).toNat Evt.dbg_frozen.bit = true ∧ t.fld Fld.timStatus_timeValid 0 = 0 ∧ t.mem = s.mem ∧ t.out = s.out) ∧
  (∀ (s : State),
     s.Live →
     (2 ≤ s.pwrSt ∧ s.frz.deferred = none) →
     Completes (.freezePin true) s fun t => t.frz = { s.frz with pinLow := true, deferred := some (1, 0xFFFF, 0) } ∧
         bits (t.rd .dbgFrzStatus 0).toNat 0 2 = 3 ∧ bit (t.rd .pwrEvt 0).toNat Evt.pwr_freezeDeferred.bit = true ∧ t.tlr = s.tlr ∧ t.mem = s.mem) ∧
  (∀ (s : State),
     Completes (.freezePin false) s fun t => t = { s with frz := { s.frz with pinLow := false } }) ∧
  (∀ (rq : Requester) (v : Word) (s : State),
     s.Live →
     (s.isModule rq = true ∧ bit v.toNat 0 = true) →
     (s.pwrSt ≤ 1 ∧ s.frz.deferred = none) →
     Completes (.dbgFreeze rq v) s fun t => t.frz.frozen = true ∧ t.frz.cause = 2 ∧ t.frz.clerk = 0xFFFF ∧ bits (t.rd .dbgFrzStatus 0).toNat 0 2 = 1 ∧
         bit (t.rd .dbgEvt 0).toNat Evt.dbg_frozen.bit = true ∧ t.mem = s.mem) ∧
  (∀ (s : State),
     s.Live →
     (s.pwrSt ≤ 1 ∧ s.frz.deferred = none) →
     Completes .frzCtrlFreeze s fun t => t.frz.frozen = true ∧ 1 ≤ t.frz.cause ∧ t.frz.cause ≤ 3 ∧ t.frz.ir.look 0 = some 0x20 ∧
         bit (t.rd .dbgEvt 0).toNat Evt.dbg_frozen.bit = true ∧ t.mem = s.mem) ∧
  (∀ (ns : Nat) (s : State),
     (s.frz.frozen = true ∧ s.frz.pinLow = false) →
     Completes (.frzCtrlRelease ns) s fun t => t.frz.frozen = false ∧ bits (t.rd .dbgFrzStatus 0).toNat 0 2 = 0 ∧ t.tim.nodeOff = s.tim.nodeOff + ns ∧
         bit (t.rd .dbgEvt 0).toNat Evt.dbg_released.bit = true) ∧
  (∀ (ns : Nat) (s : State),
     (s.frz.frozen = false ∨ s.frz.pinLow = true) →
     Completes (.frzCtrlRelease ns) s fun t => t = { s with frz := { s.frz with ir := s.frz.ir.put 0 0x20 } }) ∧
  (∀ (v : Word) (s : State),
     Completes (.frzCtrlSelect v) s fun t => t.rd .dbgReadoutCfg 0 = s.definedBits .dbgReadoutCfg 0 v ∧ RegsKept [(.dbgReadoutCfg, 0)] s t ∧
         t = { s with regs := t.regs, frz := { s.frz with ir := s.frz.ir.put 0 0x20 } }) ∧
  (∀ (s : State),
     s.frz.frozen = true →
     Completes .frzCtrlReadout s fun t => bits (t.rd .dbgFrzStatus 0).toNat 0 2 = 2 ∧ t.frz.pos = 0 ∧ t.frz.frozen = true ∧ t.mem = s.mem ∧
         (s.fld Fld.dbgReadoutCfg_laneEn 0 = 0 → t.out = s.out) ∧ (s.fld Fld.dbgReadoutCfg_laneEn 0 = 1 → t.out = s.out ++ [.image t.imageBytesFrz])) ∧
  (∀ (n : Nat) (s : State),
     s.frz.frozen = true →
     Completes (.frzRead n) s fun t => t.out = s.out ++ [.image ((t.imageBytesFrz.drop s.frz.pos).take n)] ∧ t.frz.pos = s.frz.pos + n ∧
         t.regs = s.regs ∧ t.mem = s.mem) ∧
  (∀ (tap : Nat) (s : State),
     tap < 4 →
     Completes (.extest tap) s (fun t => t = { s with freeCtr := s.freeCtr + 1, frz := { s.frz with ir := s.frz.ir.put tap 0x00 }, out := s.out ++ [.tdo tap 0x00 (Config.freeWord s.freeCtr)] }) ∧
         Completes (.samplePreload tap) s (fun t => t = { s with freeCtr := s.freeCtr + 1, frz := { s.frz with ir := s.frz.ir.put tap 0x02 }, out := s.out ++ [.tdo tap 0x02 (Config.freeWord s.freeCtr)] })) ∧
  (∀ (tap : Nat) (s : State),
     tap < 4 →
     Completes (.idcode tap) s fun t => t = { s with frz := { s.frz with ir := s.frz.ir.put tap 0x01 }, out := s.out ++ [.tdo tap 0x01 (BitVec.ofNat 64 (bits (s.rd .glbIdent 0).toNat 32 32))] }) ∧
  (∀ (tap : Nat) (s : State),
     tap < 4 →
     Completes (.clamp tap) s (fun t => t = { s with frz := { s.frz with ir := s.frz.ir.put tap 0x04 }, out := s.out ++ [.tdo tap 0x04 0] }) ∧
         Completes (.highz tap) s (fun t => t = { s with frz := { s.frz with ir := s.frz.ir.put tap 0x05 }, out := s.out ++ [.tdo tap 0x05 0] })) ∧
  (∀ (tap code : Nat) (s : State),
     (tap < 4 ∧ code < 256) →
     [0x00, 0x01, 0x02, 0x04, 0x05, 0x20, 0x21].contains code = false →
     Completes (.bypass tap code) s fun t => t = { s with frz := { s.frz with ir := s.frz.ir.put tap code }, out := s.out ++ [.tdo tap code 0] })

/-- A reference change locks to the preferred input, else the other, else holds over, with REF_LOST and HOLDOVER as they occur. An offset
above 1 ms, found before any context is resident with STEP_EN set, steps node time forward; any other becomes the offset to slew. The
error limit makes TIME_VALID fall. PPS_OUT rises once at each whole second; a node link with TIMESTAMP and PTM answer with node time. A
domain follower exchanges time and is locked within 50 ns. On an enabled Sinil port an announce of the configured domain is kept, a delay
request at a master is answered, and a master sends its announce, sync and follow-up each interval; clockClass 248 and the portState codes
are presumed (log 77). -/
def Obligations.TimekeepingAndTimeMessages : Prop :=
  (∀ (a b : Bool) (s : State),
     Completes (.referenceChange a b) s fun t => t.tim = { s.tim with lockA := a, lockB := b } ∧
         (a = true → s.hubUp 0 = true → (s.fld Fld.timCfg_refPref 0 = 0 ∨ b = false) → t.fld Fld.timStatus_source 0 = 0) ∧
         (b = true → s.hubUp 3 = true → (s.fld Fld.timCfg_refPref 0 = 1 ∨ a = false) → t.fld Fld.timStatus_source 0 = 1) ∧
         (a = false → b = false → s.fld Fld.timStatus_source 0 < 2 → t.fld Fld.timStatus_source 0 = 2 ∧ bit (t.rd .timEvt 0).toNat Evt.tim_holdover.bit = true ∧
           bit (t.rd .timEvt 0).toNat Evt.tim_refLost.bit = true)) ∧
  (∀ (off : Int) (s : State),
     s.Live →
     (1000000 < off ∧ s.noneResident = true ∧ s.fld Fld.timCfg_stepEn 0 = 1) →
     Completes (.offsetDiscipline off) s fun t => t.tim.nodeOff = s.tim.nodeOff + off ∧ t.rd .timOffset 0 = 0 ∧ t.fld Fld.timStatus_slewing 0 = 0 ∧
         bit (t.rd .timEvt 0).toNat Evt.tim_step.bit = true ∧ t.mem = s.mem) ∧
  (∀ (off : Int) (s : State),
     s.Live →
     (off ≤ 1000000 ∨ s.noneResident = false ∨ s.fld Fld.timCfg_stepEn 0 = 0) →
     Completes (.offsetDiscipline off) s fun t => t.tim = s.tim ∧ t.rd .timOffset 0 = BitVec.ofInt 64 off ∧
         (t.fld Fld.timStatus_slewing 0 = 1 ↔ off ≠ 0) ∧ RegsKept [(.timOffset, 0), (.timStatus, 0)] s t ∧ t = { s with regs := t.regs }) ∧
  (∀ (s : State),
     s.Live →
     (s.fld Fld.timCfg_ppsEn 0 = 1 ∧ s.nodeNs % 1000000000 ≤ 2 ∧ s.tim.pps < s.nodeNs / 1000000000) →
     Completes .ppsSecond s fun t => t = { s with tim := { s.tim with pps := s.nodeNs / 1000000000 }, out := s.out ++ [.pps ((s.nodeNs / 1000000000 * 1000000000 : Nat) : Int)] }) ∧
  (∀ (p : Nat) (s : State),
     s.Live →
     (p < 8 ∧ s.portSt p = 5 ∧ bit (s.fld Fld.lnkPortStatus_features p) 3 = true) →
     Completes (.nodeTimeFrame p) s fun t => t = { s with out := s.out ++ [.timeFrame p s.nodeTime] }) ∧
  (∀ (s : State),
     s.Live →
     s.hostUp = true →
     Completes .ptmRequest s fun t => t = { s with out := s.out ++ [.ptm s.nodeTime] }) ∧
  (∀ (off : Int) (s : State),
     s.Live →
     (s.domUp = true ∧ s.fld Fld.timStatus_masterValid 0 = 1 ∧ s.fld Fld.timStatus_master 0 ≠ s.self ∧ off ≤ 1000000) →
     Completes (.domainTimeExchange off) s fun t => t.out = s.out ++ [.domainTime s.nodeTime] ∧ t.tim = s.tim ∧ t.rd .timOffset 0 = BitVec.ofInt 64 off ∧
         (t.fld Fld.timStatus_domainLocked 0 = 1 ↔ off.natAbs ≤ 50) ∧ RegsKept [(.timOffset, 0), (.timStatus, 0)] s t) ∧
  (∀ (q cls p1 p2 : Nat) (tr : Bool) (s : State),
     s.Live →
     s.ptpOn q = true →
     Completes (.ptpMessage q (.announce (s.fld Fld.timPtpCfg_domain 0) cls p1 p2 tr)) s fun t => t.tim.announce.look q = some (p1, cls, p2, tr) ∧
         (∀ k, k ≠ q → t.tim.announce.look k = s.tim.announce.look k) ∧ bits (t.rd .timPtpStatus 0).toNat 0 4 = t.ptpState 0 ∧
         bits (t.rd .timPtpStatus 0).toNat 4 4 = t.ptpState 1 ∧ t.out = s.out ∧ t.mem = s.mem) ∧
  (∀ (q : Nat) (s : State),
     s.Live →
     (s.ptpOn q = true ∧ s.ptpState q = 6) →
     Completes (.ptpMessage q (.delayReq (s.fld Fld.timPtpCfg_domain 0))) s fun t => t = { s with out := s.out ++ [.ptp q 3 s.nodeTime 0 0 0] }) ∧
  (∀ (q : Nat) (s : State),
     s.Live →
     (s.ptpOn q = true ∧ s.ptpState q = 6 ∧ s.slavePort = none) →
     Completes (.announceInterval q) s fun t => t.out = s.out ++ [.ptp q 0 s.nodeTime s.ownClock.1 248 s.ownClock.2.2, .ptp q 1 s.nodeTime 0 0 0, .ptp q 2 s.nodeTime 0 0 0] ∧
         t.tim = s.tim ∧ t.fld Fld.timStatus_clockClass 0 = 248 ∧ t.mem = s.mem) ∧
  (∀ (e : Nat) (s : State),
     s.Live →
     1000 < e →
     Completes (.timeErrorLimit e) s fun t => t.fld Fld.timStatus_timeValid 0 = 0 ∧ t.fld Fld.timStatus_errorNs 0 = min e 65535 ∧
         (s.fld Fld.timStatus_timeValid 0 = 1 → bit (t.rd .timEvt 0).toNat Evt.tim_validDrop.bit = true) ∧ RegsKept [(.timStatus, 0), (.timEvt, 0)] s t)

/-- Power-on takes the hubs that pass into service with a core voltage of 0.70 V, names the boot hub and reserves 1,024 leaf indices with a
quorum. A firmware image that R343 accepts runs and its key, version and digest are the running ones; one it refuses sets FW_REFUSED and
its source has failed, as has a silent Sinil source; with every slot failed the Sinil ports are tried again. Once every channel is settled
stack DRAM is divided, the budget computed and replay ends. The self-test's failures are recorded and their units leave service. Service
opens with two hubs and 64 MiB of budget, and each recorded context comes back in its state with empty job-key slots, a SWEEPING one at
step 3. -/
def Obligations.BringUpToService : Prop :=
  (∀ (rom puf : List Nat) (s : State),
     s.Live →
     (s.boot.done = [] ∧ s.arch.heldThermal = false) →
     (rom.contains 0 = true ∨ rom.contains 2 = true) →
     Completes (.powerOnBringup rom puf) s fun t => t.boot.done = [1, 2, 3] ∧ (∀ h, h < 4 → t.hubUp h = rom.contains h) ∧
         bits (t.rd .glbCore 0).toNat 0 16 = 700 ∧ t.fld Fld.glbStatus_bootHub 0 = (if rom.contains 0 = true then 0 else 2) ∧
         t.fld Fld.glbStatus_service 0 = s.fld Fld.glbStatus_service 0 ∧
         (2 ≤ t.hubsUp.length → (t.rd .secXmssRes 0).toNat = (t.sec.next + 1024) % 2 ^ 40 ∧ (∀ h, h < 4 → t.hubUp h = true → (t.mram h).nextRes = t.sec.next + 1024))) ∧
  (∀ (i : FwImage) (k : Nat) (s : State),
     s.Live →
     (s.boot.trying = some k ∧ s.boot.done.contains 4 = false ∧ i.svn < 65536) →
     (k < 2 ∨ s.portSt (18 + k) = 5) →
     s.fwOk i = true →
     Completes (.firmwareFetch (some i)) s fun t => t.boot.done = s.boot.done ++ [4, 5, 6] ∧ t.boot.trying = none ∧ t.boot.source = k ∧
         t.boot.digest = i.digest ∧ t.fld Fld.secFw_svn 0 = i.svn ∧ t.fld Fld.secFw_keyIndex 0 = i.keyIndex ∧
         (∀ m, s.stackUp m = true → t.fld Fld.kvaEngStatus_state m = 1)) ∧
  (∀ (i : FwImage) (k : Nat) (s : State),
     s.Live →
     (s.boot.trying = some k ∧ s.boot.done.contains 4 = false) →
     (k < 2 ∨ s.portSt (18 + k) = 5) →
     s.fwOk i = false →
     Completes (.firmwareFetch (some i)) s fun t => t.boot.done = s.boot.done ∧ t.boot.failed = k :: s.boot.failed ∧ t.boot.digest = s.boot.digest ∧
         t.fld Fld.secFw_svn 0 = s.fld Fld.secFw_svn 0 ∧ bit (t.rd .secEvt 0).toNat Evt.sec_fwRefused.bit = true) ∧
  (∀ (k : Nat) (s : State),
     s.Live →
     (s.boot.trying = some k ∧ 2 ≤ k ∧ s.boot.lastData + 1000000000 ≤ s.now) →
     Completes .bootSourceSilence s fun t => t.boot.failed = k :: s.boot.failed ∧ t.boot.done = s.boot.done ∧ t.boot.trying ≠ some k) ∧
  (∀ (s : State),
     s.Live →
     (s.boot.trying = none ∧ s.boot.done.contains 3 = true ∧ s.boot.done.contains 4 = false ∧ s.boot.lastData + 10000000000 ≤ s.now) →
     (s.hubUp 0 = true ∧ s.boot.failed.contains 0 = true ∧ s.boot.failed.contains 1 = true) →
     Completes .sinilBootRetry s fun t => t.boot = { s.boot with failed := s.boot.failed.filter (fun k => decide (k < 2)), trying := some 2, lastData := s.now, bootPorts := [20] } ∧
         t = { s with boot := t.boot, out := s.out ++ [.boot 20] }) ∧
  (∀ (lost : Bool) (s : State),
     s.Live →
     (s.boot.done.contains 6 = true ∧ s.boot.done.contains 9 = false ∧ s.channelsDone = true) →
     Completes (.mapReplay lost) s fun t => t.boot.done = s.boot.done ++ [7, 8, 9, 10] ∧
         t.nmc.window = min 1024 (bits (s.rd .nmcWindow 0).toNat 0 11) * 16384 ∧ t.dfb.share = s.shareFrames ∧
         t.rd .pwrBudget 0 = BitVec.ofNat 64 (t.budgetAt t.pwr.vbank) ∧
         (s.hubsUp.length < 4 ∨ s.chansUp.length < 2 → t.boot.flashUp = s.boot.flashUp ∧ t.ssn.sessions = s.ssn.sessions)) ∧
  (∀ (s : State),
     s.Live →
     (s.boot.done.contains 10 = true ∧ s.boot.done.contains 11 = false) →
     Completes (.selfTest []) s fun t => t.boot = { s.boot with done := s.boot.done ++ [11, 12] } ∧ t.arch = s.arch ∧
         t.rd .pwrBudget 0 = BitVec.ofNat 64 (t.budgetAt t.pwr.vbank) ∧ t.mem = s.mem) ∧
  (∀ (c : Nat) (s : State),
     s.Live →
     (s.boot.done.contains 10 = true ∧ s.boot.done.contains 11 = false) →
     Completes (.selfTest [.channel c]) s fun t => t.boot.done = s.boot.done ++ [11, 12] ∧ t.boot.fault = true ∧ t.boot.chanOut.contains c = true ∧
         t.chanSt c = 3 ∧ bit (t.rd .glbEvt 0).toNat Evt.glb_selftestFail.bit = true) ∧
  (∀ (s : State),
     s.Live →
     (s.mayServe = true ∧ s.fld Fld.glbStatus_service 0 = 0) →
     Completes .serviceOpen s fun t => t.fld Fld.glbStatus_service 0 = 1 ∧
         (∀ n r, n < 64 → s.mergedMram.ctxRecs.look n = some r → (r.state = 1 ∨ r.state = 2 ∨ r.state = 3) → t.ctxState n = r.state ∧ t.rd .secCtxTenant n = r.tenant ∧
           ((t.ctx n).map (fun c => (c.record, c.sweepStep, c.jobKeys))) = some (r, (if r.state = 2 then 3 else 0), .empty)) ∧
         t.rd .glbBootStatus 0 = s.bootStatus.rd .glbBootStatus 0 ∧ t.mem = s.mem ∧ t.fls = s.fls)

/-- KIND 1 gives the state after reset with the queue kept, and in FLUSH waits for the flush to end; KIND 2 takes a hub out and starts its
return, and is refused with cause 3 where fewer than two hubs would remain; KIND 3 clears a stack's repair record in every MRAM. A
returning hub whose ROM fails its check stays out; one that passes is in service again with its channels to be negotiated afresh. An image
that R343 accepts, staged when no restart runs and the lease is at least 7 ms, begins a restart; otherwise FW_REFUSED is set. Once no step
is in flight the new image runs on trial with RESTART clear, and the boot record keeps the slot before it. -/
def Obligations.ResetsReturnAndRestart : Prop :=
  (∀ (rq : Requester) (v : Word) (s : State),
     s.Live →
     (Fld.glbReset_kind.get v = 1 ∧ s.isModule rq = true ∧ s.pwrSt ≠ 2 ∧ s.pwrSt ≠ 3) →
     Completes (.glbResetModule rq v) s fun t => t.mem = State.reset.mem ∧ t.boot.done = [] ∧ t.arch.hubs = State.reset.arch.hubs ∧
         t.tlr = State.reset.tlr ∧ t.ssn = State.reset.ssn ∧ t.pending = s.pending ∧
         (∀ r i, r ≠ .nmcWindow → r ≠ .ssnKvPool → r ≠ .dfbCfg → t.rd r i = State.reset.rd r i)) ∧
  (∀ (rq : Requester) (v : Word) (s : State),
     s.Live →
     (Fld.glbReset_kind.get v = 1 ∧ s.isModule rq = true ∧ s.pwrSt = 2) →
     Completes (.glbResetModule rq v) s fun t => t = { s with pwr := { s.pwr with pendingReset := some .module } }) ∧
  (∀ (rq : Requester) (v : Word) (h : Nat) (s : State),
     s.Live →
     (Fld.glbReset_kind.get v = 2 ∧ Fld.glbReset_target.get v = h ∧ s.isModule rq = true ∧ s.pwrSt ≠ 2 ∧ s.pwrSt ≠ 3 ∧ h < 4) →
     (2 ≤ (s.hubsUp.filter (fun k => decide (k ≠ h))).length) →
     Completes (.glbResetHub rq v) s fun t => t.hubUp h = false ∧ t.boot.returning.contains h = true) ∧
  (∀ (rq : Requester) (v : Word) (h : Nat) (s : State),
     s.Live →
     (Fld.glbReset_kind.get v = 2 ∧ Fld.glbReset_target.get v = h ∧ s.isModule rq = true ∧ s.pwrSt ≠ 3 ∧ h < 4) →
     ((s.hubsUp.filter (fun k => decide (k ≠ h))).length < 2) →
     Completes (.glbResetHub rq v) s fun t => Discarded rq (Reg.offset .glbReset 0) 3 s t) ∧
  (∀ (rq : Requester) (v : Word) (m : Nat) (s : State),
     WriteOpen s rq .glbReset 0 →
     (Fld.glbReset_kind.get v = 3 ∧ Fld.glbReset_target.get v = m ∧ m < 24 ∧ s.isModule rq = true) →
     Completes (.glbResetClearRepair rq v) s fun t => t.arch.repairs.look m = none ∧ (∀ k, k ≠ m → t.arch.repairs.look k = s.arch.repairs.look k) ∧
         (∀ h, h < 4 → s.hubUp h = true → (t.mram h).repairs.look m = none) ∧ t.regs = s.regs ∧ t.mem = s.mem) ∧
  (∀ (h : Nat) (seedOk : Bool) (failed : List FailedUnit) (s : State),
     s.Live →
     (s.boot.returning.contains h = true ∧ h < 4 ∧ s.hubUp h = false) →
     Completes (.hubReturn h false seedOk failed) s fun t => t.hubUp h = false ∧ t.boot.returning.contains h = false ∧ t.mem = s.mem ∧ t.regs = s.regs) ∧
  (∀ (h : Nat) (seedOk : Bool) (s : State),
     s.Live →
     (s.boot.returning.contains h = true ∧ h < 4 ∧ s.hubUp h = false) →
     Completes (.hubReturn h true seedOk []) s fun t => t.hubUp h = true ∧ t.boot.returning.contains h = false ∧
         (∀ c, c < 32 → hubOfChannel c = h → s.chanSt c = 1 → t.chanSt c = 0) ∧ t.rd .pwrBudget 0 = BitVec.ofNat 64 (t.budgetAt t.pwr.vbank)) ∧
  (∀ (rq : Requester) (v : Word) (i : FwImage) (s : State),
     WriteOpen s rq .glbFwActivate 0 →
     (s.isModule rq = true ∧ bits v.toNat 2 4 = 0 ∧ bits v.toNat 0 2 ≠ 3) →
     (s.fwOk i = true ∧ i.handoverFrom ≤ s.fld Fld.secFw_svn 0 ∧ 7 ≤ s.dmap.leaseMs ∧ s.boot.restart = none) →
     Completes (.fwActivate rq v i) s fun t => t.boot = { s.boot with restart := some (i, bits v.toNat 0 2) } ∧ t.fld Fld.glbStatus_restart 0 = 1 ∧
         RegsKept [(.glbStatus, 0)] s t ∧ t = { s with boot := t.boot, regs := t.regs }) ∧
  (∀ (rq : Requester) (v : Word) (i : FwImage) (s : State),
     WriteOpen s rq .glbFwActivate 0 →
     (s.isModule rq = true ∧ bits v.toNat 2 4 = 0 ∧ bits v.toNat 0 2 ≠ 3) →
     (s.fwOk i = false ∨ s.dmap.leaseMs < 7) →
     Completes (.fwActivate rq v i) s fun t => t.boot = s.boot ∧ bit (t.rd .secEvt 0).toNat Evt.sec_fwRefused.bit = true ∧
         RegsKept [(.secEvt, 0)] s t ∧ t.mem = s.mem) ∧
  (∀ (i : FwImage) (src : Nat) (s : State),
     s.Live →
     (s.boot.restart = some (i, src) ∧ s.sch.steps.rows = [] ∧ i.svn < 65536 ∧ i.keyIndex < 4) →
     Completes .liveRestartPause s fun t => t.boot = { s.boot with digest := i.digest, slot := src, restart := none } ∧
         t.fld Fld.secFw_svn 0 = i.svn ∧ t.fld Fld.secFw_keyIndex 0 = i.keyIndex ∧ t.fld Fld.glbStatus_trial 0 = 1 ∧ t.fld Fld.glbStatus_restart 0 = 0 ∧
         bit (t.rd .glbEvt 0).toNat Evt.glb_restartDone.bit = true ∧
         (s.fld Fld.glbStatus_trial 0 = 0 → s.boot.slot < 2 → ∀ h, h < 4 → s.hubUp h = true → (t.mram h).prefer = some s.boot.slot) ∧ t.mem = s.mem)

/-- For each of the eight rows that read a read-to-clear register (KVA_ENG_ERR, FLS_CH_ERR, STM_STALL_MAX, NMC_RECALL_MAX, LNK_PORT_ERR,
PWR_DIRTY_MAX, GLB_ACCESS_ERR, DBG_TRACE_DROPPED): from every state in which the window answers the requester, the register's hub is in
service and the requester may read it, the command completes; the answer holds the value the register held, the register then reads 0,
every other register keeps its value and nothing else changes. -/
def Obligations.ReadToClearRegisters : Prop :=
  (∀ (rq : Requester) (m : Nat) (s : State),
     m < 24 →
     WindowOpen s rq →
     s.regReach .kvaEngErr m = true →
     s.mayRead rq .kvaEngErr m = true →
     Completes (.kvaEngErrRead rq m) s (ReadAndCleared rq .kvaEngErr m s)) ∧
  (∀ (rq : Requester) (ch : Nat) (s : State),
     ch < 32 →
     WindowOpen s rq →
     s.regReach .flsChErr ch = true →
     s.mayRead rq .flsChErr ch = true →
     Completes (.flsChErrRead rq ch) s (ReadAndCleared rq .flsChErr ch s)) ∧
  (∀ (rq : Requester) (s : State),
     WindowOpen s rq →
     s.mayRead rq .stmStallMax 0 = true →
     Completes (.stmStallMaxRead rq) s (ReadAndCleared rq .stmStallMax 0 s)) ∧
  (∀ (rq : Requester) (s : State),
     WindowOpen s rq →
     s.mayRead rq .nmcRecallMax 0 = true →
     Completes (.nmcRecallMaxRead rq) s (ReadAndCleared rq .nmcRecallMax 0 s)) ∧
  (∀ (rq : Requester) (p : Nat) (s : State),
     p < 22 →
     WindowOpen s rq →
     s.regReach .lnkPortErr p = true →
     s.mayRead rq .lnkPortErr p = true →
     Completes (.lnkPortErrRead rq p) s (ReadAndCleared rq .lnkPortErr p s)) ∧
  (∀ (rq : Requester) (s : State),
     WindowOpen s rq →
     s.mayRead rq .pwrDirtyMax 0 = true →
     Completes (.pwrDirtyMaxRead rq) s (ReadAndCleared rq .pwrDirtyMax 0 s)) ∧
  (∀ (rq : Requester) (s : State),
     WindowOpen s rq →
     s.mayRead rq .glbAccessErr 0 = true →
     Completes (.glbAccessErrRead rq) s (ReadAndCleared rq .glbAccessErr 0 s)) ∧
  (∀ (rq : Requester) (s : State),
     WindowOpen s rq →
     s.mayRead rq .dbgTraceDropped 0 = true →
     Completes (.dbgTraceDroppedRead rq) s (ReadAndCleared rq .dbgTraceDropped 0 s))

/-- For each of the sixteen event registers: from every state in which the window answers the requester, a write by the operator or firmware
completes; the bits written as 1 are cleared and the others keep their value, no other register changes (so no event of another block is
lost), and nothing else of the state changes. -/
def Obligations.EventRegistersWriteOneToClear : Prop :=
  (∀ (rq : Requester) (v : Word) (s : State),
     WindowOpen s rq →
     s.isModule rq = true →
     Completes (.tlrEvtWrite rq v) s (BitsCleared .tlrEvt v s)) ∧
  (∀ (rq : Requester) (v : Word) (s : State),
     WindowOpen s rq →
     s.isModule rq = true →
     Completes (.ssnEvtWrite rq v) s (BitsCleared .ssnEvt v s)) ∧
  (∀ (rq : Requester) (v : Word) (s : State),
     WindowOpen s rq →
     s.isModule rq = true →
     Completes (.kvaEvtWrite rq v) s (BitsCleared .kvaEvt v s)) ∧
  (∀ (rq : Requester) (v : Word) (s : State),
     WindowOpen s rq →
     s.isModule rq = true →
     Completes (.schEvtWrite rq v) s (BitsCleared .schEvt v s)) ∧
  (∀ (rq : Requester) (v : Word) (s : State),
     WindowOpen s rq →
     s.isModule rq = true →
     Completes (.txtEvtWrite rq v) s (BitsCleared .txtEvt v s)) ∧
  (∀ (rq : Requester) (v : Word) (s : State),
     WindowOpen s rq →
     s.isModule rq = true →
     Completes (.vsrEvtWrite rq v) s (BitsCleared .vsrEvt v s)) ∧
  (∀ (rq : Requester) (v : Word) (s : State),
     WindowOpen s rq →
     s.isModule rq = true →
     Completes (.flsEvtWrite rq v) s (BitsCleared .flsEvt v s)) ∧
  (∀ (rq : Requester) (v : Word) (s : State),
     WindowOpen s rq →
     s.isModule rq = true →
     Completes (.stmEvtWrite rq v) s (BitsCleared .stmEvt v s)) ∧
  (∀ (rq : Requester) (v : Word) (s : State),
     WindowOpen s rq →
     s.isModule rq = true →
     Completes (.nmcEvtWrite rq v) s (BitsCleared .nmcEvt v s)) ∧
  (∀ (rq : Requester) (v : Word) (s : State),
     WindowOpen s rq →
     s.isModule rq = true →
     Completes (.dfbEvtWrite rq v) s (BitsCleared .dfbEvt v s)) ∧
  (∀ (rq : Requester) (v : Word) (s : State),
     WindowOpen s rq →
     s.isModule rq = true →
     Completes (.lnkEvtWrite rq v) s (BitsCleared .lnkEvt v s)) ∧
  (∀ (rq : Requester) (v : Word) (s : State),
     WindowOpen s rq →
     s.isModule rq = true →
     Completes (.secEvtWrite rq v) s (BitsCleared .secEvt v s)) ∧
  (∀ (rq : Requester) (v : Word) (s : State),
     WindowOpen s rq →
     s.isModule rq = true →
     Completes (.pwrEvtWrite rq v) s (BitsCleared .pwrEvt v s)) ∧
  (∀ (rq : Requester) (v : Word) (s : State),
     WindowOpen s rq →
     s.isModule rq = true →
     Completes (.glbEvtWrite rq v) s (BitsCleared .glbEvt v s)) ∧
  (∀ (rq : Requester) (v : Word) (s : State),
     WindowOpen s rq →
     s.isModule rq = true →
     Completes (.timEvtWrite rq v) s (BitsCleared .timEvt v s)) ∧
  (∀ (rq : Requester) (v : Word) (s : State),
     WindowOpen s rq →
     s.isModule rq = true →
     Completes (.dbgEvtWrite rq v) s (BitsCleared .dbgEvt v s))

/-- A REGISTER_WRITE of 8 aligned bytes to an RW register that has no row of its own, by the operator or firmware, sets its defined bits and
keeps the others. A narrow write, or an access not aligned to its size, is discarded and counted with cause 1, an undefined offset with
cause 0, a requester that may not read with cause 2. A narrow read returns the addressed bytes. A read of TIM_NOW answers node time and
latches the fraction and the run time of the instant. An event latched for a block whose holdoff has passed is notified, its latch cleared
and the time noted. -/
def Obligations.RegisterWindowAndNotices : Prop :=
  (∀ (rq : Requester) (off i : Nat) (r : Reg) (v : Word) (s : State),
     WindowOpen s rq →
     (off % 8 = 0 ∧ regAtOffset off = some (r, i) ∧ r.spec.access = .rw) →
     (s.regReach r i = true ∧ s.isModule rq = true ∧ r.ownRow = false) →
     [Reg.schCustData, .pwrHoldCfg, .pwrBankLimit, .pwrChgCfg, .timCfg, .flsGcCfg].contains r = false →
     Completes (.registerWrite rq (.write off 8 v)) s fun t => t.rd r i = s.definedBits r i v ∧ RegsKept [(r, i)] s t ∧ t = { s with regs := t.regs }) ∧
  (∀ (rq : Requester) (off w : Nat) (v : Word) (s : State),
     WindowOpen s rq →
     ((regAtOffset (off / 8 * 8)).isSome = true ∧ (w ≠ 8 ∨ off % 8 ≠ 0)) →
     Completes (.registerWrite rq (.write off w v)) s fun t => Discarded rq off 1 s t) ∧
  (∀ (rq : Requester) (off w : Nat) (v : Word) (s : State),
     WindowOpen s rq →
     regAtOffset (off / 8 * 8) = none →
     Completes (.registerWrite rq (.write off w v)) s (fun t => Discarded rq off 0 s t) ∧ Completes (.registerWrite rq (.read off w)) s (fun t => Discarded rq off 0 s t)) ∧
  (∀ (rq : Requester) (off i : Nat) (r : Reg) (s : State),
     WindowOpen s rq →
     (off % 8 = 0 ∧ regAtOffset off = some (r, i)) →
     (s.regReach r i = true ∧ s.mayRead rq r i = false) →
     Completes (.registerWrite rq (.read off 8)) s fun t => Discarded rq (r.offset i) 2 s t) ∧
  (∀ (rq : Requester) (off w i : Nat) (r : Reg) (s : State),
     WindowOpen s rq →
     ((w = 1 ∨ w = 2 ∨ w = 4 ∨ w = 8) ∧ off % w = 0 ∧ regAtOffset (off / 8 * 8) = some (r, i)) →
     (s.regReach r i = true ∧ s.mayRead rq r i = true ∧ r.spec.access = .rw) →
     Completes (.registerWrite rq (.read off w)) s fun t => t = { s with out := s.out ++ [.regAnswer rq false (narrow (s.view r i) (off % 8) w)], freeCtr := s.freeCtr + 1 }) ∧
  (∀ (rq : Requester) (frac : Nat) (s : State),
     WindowOpen s rq →
     s.isModule rq = true →
     Completes (.timNowRead rq frac) s fun t => t.rd .timNowFrac 0 = BitVec.ofNat 64 (frac % 2 ^ 16) ∧ t.rd .timRun 0 = BitVec.ofNat 64 s.now ∧
         t.out = s.out ++ [.regAnswer rq false (narrow (s.view .timNow 0) 0 8)] ∧ RegsKept [(.timNowFrac, 0), (.timRun, 0)] s t ∧
         t = { s with regs := t.regs, out := t.out, freeCtr := s.freeCtr + 1 }) ∧
  (∀ (b : Nat) (s : State),
     s.Live →
     (s.latches.contains b = true ∧ s.noticeDue b = true) →
     Completes (.eventNotice b) s fun t => t.latches = s.latches.filter (fun x => decide (x ≠ b)) ∧ t.noticeAt.look b = some s.now ∧
         t.out.contains (.fwNotice b) = true ∧ (s.fld Fld.glbEvtCfg_msixEn 0 = 1 → s.hostUp = true → t.out.contains (.msix b) = true) ∧ t.mem = s.mem)
end

