-- ==== Sys2Proof/Laws/Tbl.lean ====
section
/-! SUPPORT. The laws of finite tables: a lookup after each operation. -/

namespace Sys2Proof.Machine

variable {α β : Type}

/-- A lookup in filtered rows whose test keeps key `k`. -/
theorem rowsLook_filter_keep [DecidableEq α] (l : List (α × β)) (k : α) (p : α × β → Bool) (h : ∀ b, p (k, b) = true) :
    rowsLook (l.filter p) k = rowsLook l k := by
  induction l with
  | nil => rfl
  | cons q t ih =>
    obtain ⟨a, b⟩ := q
    by_cases e : a = k
    · subst e
      simp [h, rowsLook]
    · by_cases hp : p (a, b) = true
      · simp [hp, rowsLook, e, ih]
      · simp [hp, rowsLook, e, ih]

/-- A lookup in filtered rows whose test drops key `k`. -/
theorem rowsLook_filter_drop [DecidableEq α] (l : List (α × β)) (k : α) (p : α × β → Bool) (h : ∀ b, p (k, b) = false) :
    rowsLook (l.filter p) k = none := by
  induction l with
  | nil => rfl
  | cons q t ih =>
    obtain ⟨a, b⟩ := q
    by_cases e : a = k
    · subst e
      simp [h, ih]
    · by_cases hp : p (a, b) = true
      · simp [hp, rowsLook, e, ih]
      · simp [hp, ih]

/-- The empty table has no rows. -/
@[simp] theorem Tbl.look_empty [DecidableEq α] (k : α) : (Tbl.empty : Tbl α β).look k = none := rfl

/-- A deleted row is gone. -/
@[simp] theorem Tbl.look_del_same [DecidableEq α] (t : Tbl α β) (k : α) : (t.del k).look k = none :=
  rowsLook_filter_drop _ _ _ (fun _ => by simp)

/-- A deletion leaves the other rows alone. -/
theorem Tbl.look_del_ne [DecidableEq α] (t : Tbl α β) {k j : α} (h : j ≠ k) : (t.del k).look j = t.look j :=
  rowsLook_filter_keep _ _ _ (fun _ => by simpa using h)

/-- The row just put is there. -/
@[simp] theorem Tbl.look_put_same [DecidableEq α] (t : Tbl α β) (k : α) (v : β) : (t.put k v).look k = some v := by
  simp [Tbl.look, Tbl.put, rowsLook]

/-- A put leaves the other rows alone. -/
theorem Tbl.look_put_ne [DecidableEq α] (t : Tbl α β) {k j : α} (v : β) (h : j ≠ k) : (t.put k v).look j = t.look j := by
  have h' : k ≠ j := fun e => h e.symm
  simpa [Tbl.look, Tbl.put, rowsLook, h'] using t.look_del_ne h

/-- A lookup after a put. -/
theorem Tbl.look_put [DecidableEq α] (t : Tbl α β) (k j : α) (v : β) : (t.put k v).look j = if j = k then some v else t.look j := by
  by_cases h : j = k
  · subst h; simp
  · rw [if_neg h, t.look_put_ne v h]

/-- A default lookup of the row just put. -/
@[simp] theorem Tbl.lookD_put_same [DecidableEq α] (t : Tbl α β) (k : α) (v d : β) : (t.put k v).lookD k d = v := by simp [Tbl.lookD]

/-- A default lookup of another row. -/
theorem Tbl.lookD_put_ne [DecidableEq α] (t : Tbl α β) {k j : α} (v d : β) (h : j ≠ k) : (t.put k v).lookD j d = t.lookD j d := by
  simp [Tbl.lookD, t.look_put_ne v h]

/-- A default lookup in the empty table. -/
@[simp] theorem Tbl.lookD_empty [DecidableEq α] (k : α) (d : β) : (Tbl.empty : Tbl α β).lookD k d = d := rfl

/-- A lookup of the row that `upd` changes. -/
@[simp] theorem Tbl.look_upd_same [DecidableEq α] (t : Tbl α β) (k : α) (f : β → β) : (t.upd k f).look k = (t.look k).map f := by
  unfold Tbl.upd
  split
  · rename_i h; simp [h]
  · rename_i v h; simp [h]

/-- `upd` leaves the other rows alone. -/
theorem Tbl.look_upd_ne [DecidableEq α] (t : Tbl α β) {k j : α} (f : β → β) (h : j ≠ k) : (t.upd k f).look j = t.look j := by
  unfold Tbl.upd
  split
  · rfl
  · exact t.look_put_ne _ h

/-- A lookup after every value is changed. -/
theorem Tbl.look_mapVals [DecidableEq α] (t : Tbl α β) (f : α → β → β) (k : α) : (t.mapVals f).look k = (t.look k).map (f k) := by
  obtain ⟨l⟩ := t
  simp only [Tbl.look, Tbl.mapVals]
  induction l with
  | nil => rfl
  | cons q r ih =>
    obtain ⟨a, b⟩ := q
    by_cases e : a = k
    · subst e; simp [rowsLook]
    · simp [rowsLook, e, ih]

end Sys2Proof.Machine
end

