-- ==== Sys2Proof/Laws/State.lean ====
section
/-! SUPPORT. One lemma for each field of the state and each named update of it, true by unfolding the update. -/

namespace Sys2Proof.Machine

@[simp] theorem State.wr_pending (s : State) (r : Reg) (i : Nat) (v : Word) : (s.wr r i v).pending = s.pending := rfl
@[simp] theorem State.wr_now (s : State) (r : Reg) (i : Nat) (v : Word) : (s.wr r i v).now = s.now := rfl
@[simp] theorem State.wr_freeCtr (s : State) (r : Reg) (i : Nat) (v : Word) : (s.wr r i v).freeCtr = s.freeCtr := rfl
@[simp] theorem State.wr_out (s : State) (r : Reg) (i : Nat) (v : Word) : (s.wr r i v).out = s.out := rfl
@[simp] theorem State.wr_mem (s : State) (r : Reg) (i : Nat) (v : Word) : (s.wr r i v).mem = s.mem := rfl
@[simp] theorem State.wr_badSyms (s : State) (r : Reg) (i : Nat) (v : Word) : (s.wr r i v).badSyms = s.badSyms := rfl
@[simp] theorem State.wr_poison (s : State) (r : Reg) (i : Nat) (v : Word) : (s.wr r i v).poison = s.poison := rfl
@[simp] theorem State.wr_regs (s : State) (r : Reg) (i : Nat) (v : Word) : (s.wr r i v).regs = s.regs.put (r, i) v := rfl
@[simp] theorem State.wr_latches (s : State) (r : Reg) (i : Nat) (v : Word) : (s.wr r i v).latches = s.latches := rfl
@[simp] theorem State.wr_noticeAt (s : State) (r : Reg) (i : Nat) (v : Word) : (s.wr r i v).noticeAt = s.noticeAt := rfl
@[simp] theorem State.wr_traceRings (s : State) (r : Reg) (i : Nat) (v : Word) : (s.wr r i v).traceRings = s.traceRings := rfl
@[simp] theorem State.wr_arch (s : State) (r : Reg) (i : Nat) (v : Word) : (s.wr r i v).arch = s.arch := rfl
@[simp] theorem State.wr_tlr (s : State) (r : Reg) (i : Nat) (v : Word) : (s.wr r i v).tlr = s.tlr := rfl
@[simp] theorem State.wr_ssn (s : State) (r : Reg) (i : Nat) (v : Word) : (s.wr r i v).ssn = s.ssn := rfl
@[simp] theorem State.wr_kva (s : State) (r : Reg) (i : Nat) (v : Word) : (s.wr r i v).kva = s.kva := rfl
@[simp] theorem State.wr_sch (s : State) (r : Reg) (i : Nat) (v : Word) : (s.wr r i v).sch = s.sch := rfl
@[simp] theorem State.wr_txt (s : State) (r : Reg) (i : Nat) (v : Word) : (s.wr r i v).txt = s.txt := rfl
@[simp] theorem State.wr_lnk (s : State) (r : Reg) (i : Nat) (v : Word) : (s.wr r i v).lnk = s.lnk := rfl
@[simp] theorem State.wr_sec (s : State) (r : Reg) (i : Nat) (v : Word) : (s.wr r i v).sec = s.sec := rfl
@[simp] theorem State.wr_pwr (s : State) (r : Reg) (i : Nat) (v : Word) : (s.wr r i v).pwr = s.pwr := rfl
@[simp] theorem State.wr_tim (s : State) (r : Reg) (i : Nat) (v : Word) : (s.wr r i v).tim = s.tim := rfl
@[simp] theorem State.wr_frz (s : State) (r : Reg) (i : Nat) (v : Word) : (s.wr r i v).frz = s.frz := rfl
@[simp] theorem State.wr_boot (s : State) (r : Reg) (i : Nat) (v : Word) : (s.wr r i v).boot = s.boot := rfl
@[simp] theorem State.wr_fls (s : State) (r : Reg) (i : Nat) (v : Word) : (s.wr r i v).fls = s.fls := rfl
@[simp] theorem State.wr_nmc (s : State) (r : Reg) (i : Nat) (v : Word) : (s.wr r i v).nmc = s.nmc := rfl
@[simp] theorem State.wr_dfb (s : State) (r : Reg) (i : Nat) (v : Word) : (s.wr r i v).dfb = s.dfb := rfl
@[simp] theorem State.wr_stm (s : State) (r : Reg) (i : Nat) (v : Word) : (s.wr r i v).stm = s.stm := rfl
@[simp] theorem State.wr_vsr (s : State) (r : Reg) (i : Nat) (v : Word) : (s.wr r i v).vsr = s.vsr := rfl

@[simp] theorem State.setFld_pending (s : State) (f : Fld) (i x : Nat) : (s.setFld f i x).pending = s.pending := rfl
@[simp] theorem State.setFld_now (s : State) (f : Fld) (i x : Nat) : (s.setFld f i x).now = s.now := rfl
@[simp] theorem State.setFld_freeCtr (s : State) (f : Fld) (i x : Nat) : (s.setFld f i x).freeCtr = s.freeCtr := rfl
@[simp] theorem State.setFld_out (s : State) (f : Fld) (i x : Nat) : (s.setFld f i x).out = s.out := rfl
@[simp] theorem State.setFld_mem (s : State) (f : Fld) (i x : Nat) : (s.setFld f i x).mem = s.mem := rfl
@[simp] theorem State.setFld_badSyms (s : State) (f : Fld) (i x : Nat) : (s.setFld f i x).badSyms = s.badSyms := rfl
@[simp] theorem State.setFld_poison (s : State) (f : Fld) (i x : Nat) : (s.setFld f i x).poison = s.poison := rfl
@[simp] theorem State.setFld_latches (s : State) (f : Fld) (i x : Nat) : (s.setFld f i x).latches = s.latches := rfl
@[simp] theorem State.setFld_noticeAt (s : State) (f : Fld) (i x : Nat) : (s.setFld f i x).noticeAt = s.noticeAt := rfl
@[simp] theorem State.setFld_traceRings (s : State) (f : Fld) (i x : Nat) : (s.setFld f i x).traceRings = s.traceRings := rfl
@[simp] theorem State.setFld_arch (s : State) (f : Fld) (i x : Nat) : (s.setFld f i x).arch = s.arch := rfl
@[simp] theorem State.setFld_tlr (s : State) (f : Fld) (i x : Nat) : (s.setFld f i x).tlr = s.tlr := rfl
@[simp] theorem State.setFld_ssn (s : State) (f : Fld) (i x : Nat) : (s.setFld f i x).ssn = s.ssn := rfl
@[simp] theorem State.setFld_kva (s : State) (f : Fld) (i x : Nat) : (s.setFld f i x).kva = s.kva := rfl
@[simp] theorem State.setFld_sch (s : State) (f : Fld) (i x : Nat) : (s.setFld f i x).sch = s.sch := rfl
@[simp] theorem State.setFld_txt (s : State) (f : Fld) (i x : Nat) : (s.setFld f i x).txt = s.txt := rfl
@[simp] theorem State.setFld_lnk (s : State) (f : Fld) (i x : Nat) : (s.setFld f i x).lnk = s.lnk := rfl
@[simp] theorem State.setFld_sec (s : State) (f : Fld) (i x : Nat) : (s.setFld f i x).sec = s.sec := rfl
@[simp] theorem State.setFld_pwr (s : State) (f : Fld) (i x : Nat) : (s.setFld f i x).pwr = s.pwr := rfl
@[simp] theorem State.setFld_tim (s : State) (f : Fld) (i x : Nat) : (s.setFld f i x).tim = s.tim := rfl
@[simp] theorem State.setFld_frz (s : State) (f : Fld) (i x : Nat) : (s.setFld f i x).frz = s.frz := rfl
@[simp] theorem State.setFld_boot (s : State) (f : Fld) (i x : Nat) : (s.setFld f i x).boot = s.boot := rfl
@[simp] theorem State.setFld_fls (s : State) (f : Fld) (i x : Nat) : (s.setFld f i x).fls = s.fls := rfl
@[simp] theorem State.setFld_nmc (s : State) (f : Fld) (i x : Nat) : (s.setFld f i x).nmc = s.nmc := rfl
@[simp] theorem State.setFld_dfb (s : State) (f : Fld) (i x : Nat) : (s.setFld f i x).dfb = s.dfb := rfl
@[simp] theorem State.setFld_stm (s : State) (f : Fld) (i x : Nat) : (s.setFld f i x).stm = s.stm := rfl
@[simp] theorem State.setFld_vsr (s : State) (f : Fld) (i x : Nat) : (s.setFld f i x).vsr = s.vsr := rfl

@[simp] theorem State.count_pending (s : State) (r : Reg) (i n : Nat) : (s.count r i n).pending = s.pending := rfl
@[simp] theorem State.count_now (s : State) (r : Reg) (i n : Nat) : (s.count r i n).now = s.now := rfl
@[simp] theorem State.count_freeCtr (s : State) (r : Reg) (i n : Nat) : (s.count r i n).freeCtr = s.freeCtr := rfl
@[simp] theorem State.count_out (s : State) (r : Reg) (i n : Nat) : (s.count r i n).out = s.out := rfl
@[simp] theorem State.count_mem (s : State) (r : Reg) (i n : Nat) : (s.count r i n).mem = s.mem := rfl
@[simp] theorem State.count_badSyms (s : State) (r : Reg) (i n : Nat) : (s.count r i n).badSyms = s.badSyms := rfl
@[simp] theorem State.count_poison (s : State) (r : Reg) (i n : Nat) : (s.count r i n).poison = s.poison := rfl
@[simp] theorem State.count_latches (s : State) (r : Reg) (i n : Nat) : (s.count r i n).latches = s.latches := rfl
@[simp] theorem State.count_noticeAt (s : State) (r : Reg) (i n : Nat) : (s.count r i n).noticeAt = s.noticeAt := rfl
@[simp] theorem State.count_traceRings (s : State) (r : Reg) (i n : Nat) : (s.count r i n).traceRings = s.traceRings := rfl
@[simp] theorem State.count_arch (s : State) (r : Reg) (i n : Nat) : (s.count r i n).arch = s.arch := rfl
@[simp] theorem State.count_tlr (s : State) (r : Reg) (i n : Nat) : (s.count r i n).tlr = s.tlr := rfl
@[simp] theorem State.count_ssn (s : State) (r : Reg) (i n : Nat) : (s.count r i n).ssn = s.ssn := rfl
@[simp] theorem State.count_kva (s : State) (r : Reg) (i n : Nat) : (s.count r i n).kva = s.kva := rfl
@[simp] theorem State.count_sch (s : State) (r : Reg) (i n : Nat) : (s.count r i n).sch = s.sch := rfl
@[simp] theorem State.count_txt (s : State) (r : Reg) (i n : Nat) : (s.count r i n).txt = s.txt := rfl
@[simp] theorem State.count_lnk (s : State) (r : Reg) (i n : Nat) : (s.count r i n).lnk = s.lnk := rfl
@[simp] theorem State.count_sec (s : State) (r : Reg) (i n : Nat) : (s.count r i n).sec = s.sec := rfl
@[simp] theorem State.count_pwr (s : State) (r : Reg) (i n : Nat) : (s.count r i n).pwr = s.pwr := rfl
@[simp] theorem State.count_tim (s : State) (r : Reg) (i n : Nat) : (s.count r i n).tim = s.tim := rfl
@[simp] theorem State.count_frz (s : State) (r : Reg) (i n : Nat) : (s.count r i n).frz = s.frz := rfl
@[simp] theorem State.count_boot (s : State) (r : Reg) (i n : Nat) : (s.count r i n).boot = s.boot := rfl
@[simp] theorem State.count_fls (s : State) (r : Reg) (i n : Nat) : (s.count r i n).fls = s.fls := rfl
@[simp] theorem State.count_nmc (s : State) (r : Reg) (i n : Nat) : (s.count r i n).nmc = s.nmc := rfl
@[simp] theorem State.count_dfb (s : State) (r : Reg) (i n : Nat) : (s.count r i n).dfb = s.dfb := rfl
@[simp] theorem State.count_stm (s : State) (r : Reg) (i n : Nat) : (s.count r i n).stm = s.stm := rfl
@[simp] theorem State.count_vsr (s : State) (r : Reg) (i n : Nat) : (s.count r i n).vsr = s.vsr := rfl

@[simp] theorem State.countSat_pending (s : State) (f : Fld) (i n : Nat) : (s.countSat f i n).pending = s.pending := rfl
@[simp] theorem State.countSat_now (s : State) (f : Fld) (i n : Nat) : (s.countSat f i n).now = s.now := rfl
@[simp] theorem State.countSat_freeCtr (s : State) (f : Fld) (i n : Nat) : (s.countSat f i n).freeCtr = s.freeCtr := rfl
@[simp] theorem State.countSat_out (s : State) (f : Fld) (i n : Nat) : (s.countSat f i n).out = s.out := rfl
@[simp] theorem State.countSat_mem (s : State) (f : Fld) (i n : Nat) : (s.countSat f i n).mem = s.mem := rfl
@[simp] theorem State.countSat_badSyms (s : State) (f : Fld) (i n : Nat) : (s.countSat f i n).badSyms = s.badSyms := rfl
@[simp] theorem State.countSat_poison (s : State) (f : Fld) (i n : Nat) : (s.countSat f i n).poison = s.poison := rfl
@[simp] theorem State.countSat_latches (s : State) (f : Fld) (i n : Nat) : (s.countSat f i n).latches = s.latches := rfl
@[simp] theorem State.countSat_noticeAt (s : State) (f : Fld) (i n : Nat) : (s.countSat f i n).noticeAt = s.noticeAt := rfl
@[simp] theorem State.countSat_traceRings (s : State) (f : Fld) (i n : Nat) : (s.countSat f i n).traceRings = s.traceRings := rfl
@[simp] theorem State.countSat_arch (s : State) (f : Fld) (i n : Nat) : (s.countSat f i n).arch = s.arch := rfl
@[simp] theorem State.countSat_tlr (s : State) (f : Fld) (i n : Nat) : (s.countSat f i n).tlr = s.tlr := rfl
@[simp] theorem State.countSat_ssn (s : State) (f : Fld) (i n : Nat) : (s.countSat f i n).ssn = s.ssn := rfl
@[simp] theorem State.countSat_kva (s : State) (f : Fld) (i n : Nat) : (s.countSat f i n).kva = s.kva := rfl
@[simp] theorem State.countSat_sch (s : State) (f : Fld) (i n : Nat) : (s.countSat f i n).sch = s.sch := rfl
@[simp] theorem State.countSat_txt (s : State) (f : Fld) (i n : Nat) : (s.countSat f i n).txt = s.txt := rfl
@[simp] theorem State.countSat_lnk (s : State) (f : Fld) (i n : Nat) : (s.countSat f i n).lnk = s.lnk := rfl
@[simp] theorem State.countSat_sec (s : State) (f : Fld) (i n : Nat) : (s.countSat f i n).sec = s.sec := rfl
@[simp] theorem State.countSat_pwr (s : State) (f : Fld) (i n : Nat) : (s.countSat f i n).pwr = s.pwr := rfl
@[simp] theorem State.countSat_tim (s : State) (f : Fld) (i n : Nat) : (s.countSat f i n).tim = s.tim := rfl
@[simp] theorem State.countSat_frz (s : State) (f : Fld) (i n : Nat) : (s.countSat f i n).frz = s.frz := rfl
@[simp] theorem State.countSat_boot (s : State) (f : Fld) (i n : Nat) : (s.countSat f i n).boot = s.boot := rfl
@[simp] theorem State.countSat_fls (s : State) (f : Fld) (i n : Nat) : (s.countSat f i n).fls = s.fls := rfl
@[simp] theorem State.countSat_nmc (s : State) (f : Fld) (i n : Nat) : (s.countSat f i n).nmc = s.nmc := rfl
@[simp] theorem State.countSat_dfb (s : State) (f : Fld) (i n : Nat) : (s.countSat f i n).dfb = s.dfb := rfl
@[simp] theorem State.countSat_stm (s : State) (f : Fld) (i n : Nat) : (s.countSat f i n).stm = s.stm := rfl
@[simp] theorem State.countSat_vsr (s : State) (f : Fld) (i n : Nat) : (s.countSat f i n).vsr = s.vsr := rfl

@[simp] theorem State.w1c_pending (s : State) (r : Reg) (v : Word) : (s.w1c r v).pending = s.pending := rfl
@[simp] theorem State.w1c_now (s : State) (r : Reg) (v : Word) : (s.w1c r v).now = s.now := rfl
@[simp] theorem State.w1c_freeCtr (s : State) (r : Reg) (v : Word) : (s.w1c r v).freeCtr = s.freeCtr := rfl
@[simp] theorem State.w1c_out (s : State) (r : Reg) (v : Word) : (s.w1c r v).out = s.out := rfl
@[simp] theorem State.w1c_mem (s : State) (r : Reg) (v : Word) : (s.w1c r v).mem = s.mem := rfl
@[simp] theorem State.w1c_badSyms (s : State) (r : Reg) (v : Word) : (s.w1c r v).badSyms = s.badSyms := rfl
@[simp] theorem State.w1c_poison (s : State) (r : Reg) (v : Word) : (s.w1c r v).poison = s.poison := rfl
@[simp] theorem State.w1c_latches (s : State) (r : Reg) (v : Word) : (s.w1c r v).latches = s.latches := rfl
@[simp] theorem State.w1c_noticeAt (s : State) (r : Reg) (v : Word) : (s.w1c r v).noticeAt = s.noticeAt := rfl
@[simp] theorem State.w1c_traceRings (s : State) (r : Reg) (v : Word) : (s.w1c r v).traceRings = s.traceRings := rfl
@[simp] theorem State.w1c_arch (s : State) (r : Reg) (v : Word) : (s.w1c r v).arch = s.arch := rfl
@[simp] theorem State.w1c_tlr (s : State) (r : Reg) (v : Word) : (s.w1c r v).tlr = s.tlr := rfl
@[simp] theorem State.w1c_ssn (s : State) (r : Reg) (v : Word) : (s.w1c r v).ssn = s.ssn := rfl
@[simp] theorem State.w1c_kva (s : State) (r : Reg) (v : Word) : (s.w1c r v).kva = s.kva := rfl
@[simp] theorem State.w1c_sch (s : State) (r : Reg) (v : Word) : (s.w1c r v).sch = s.sch := rfl
@[simp] theorem State.w1c_txt (s : State) (r : Reg) (v : Word) : (s.w1c r v).txt = s.txt := rfl
@[simp] theorem State.w1c_lnk (s : State) (r : Reg) (v : Word) : (s.w1c r v).lnk = s.lnk := rfl
@[simp] theorem State.w1c_sec (s : State) (r : Reg) (v : Word) : (s.w1c r v).sec = s.sec := rfl
@[simp] theorem State.w1c_pwr (s : State) (r : Reg) (v : Word) : (s.w1c r v).pwr = s.pwr := rfl
@[simp] theorem State.w1c_tim (s : State) (r : Reg) (v : Word) : (s.w1c r v).tim = s.tim := rfl
@[simp] theorem State.w1c_frz (s : State) (r : Reg) (v : Word) : (s.w1c r v).frz = s.frz := rfl
@[simp] theorem State.w1c_boot (s : State) (r : Reg) (v : Word) : (s.w1c r v).boot = s.boot := rfl
@[simp] theorem State.w1c_fls (s : State) (r : Reg) (v : Word) : (s.w1c r v).fls = s.fls := rfl
@[simp] theorem State.w1c_nmc (s : State) (r : Reg) (v : Word) : (s.w1c r v).nmc = s.nmc := rfl
@[simp] theorem State.w1c_dfb (s : State) (r : Reg) (v : Word) : (s.w1c r v).dfb = s.dfb := rfl
@[simp] theorem State.w1c_stm (s : State) (r : Reg) (v : Word) : (s.w1c r v).stm = s.stm := rfl
@[simp] theorem State.w1c_vsr (s : State) (r : Reg) (v : Word) : (s.w1c r v).vsr = s.vsr := rfl

@[simp] theorem State.bump_pending (s : State)  : (s.bump).pending = s.pending := rfl
@[simp] theorem State.bump_now (s : State)  : (s.bump).now = s.now := rfl
@[simp] theorem State.bump_freeCtr (s : State)  : (s.bump).freeCtr = s.freeCtr + 1 := rfl
@[simp] theorem State.bump_out (s : State)  : (s.bump).out = s.out := rfl
@[simp] theorem State.bump_mem (s : State)  : (s.bump).mem = s.mem := rfl
@[simp] theorem State.bump_badSyms (s : State)  : (s.bump).badSyms = s.badSyms := rfl
@[simp] theorem State.bump_poison (s : State)  : (s.bump).poison = s.poison := rfl
@[simp] theorem State.bump_regs (s : State)  : (s.bump).regs = s.regs := rfl
@[simp] theorem State.bump_latches (s : State)  : (s.bump).latches = s.latches := rfl
@[simp] theorem State.bump_noticeAt (s : State)  : (s.bump).noticeAt = s.noticeAt := rfl
@[simp] theorem State.bump_traceRings (s : State)  : (s.bump).traceRings = s.traceRings := rfl
@[simp] theorem State.bump_arch (s : State)  : (s.bump).arch = s.arch := rfl
@[simp] theorem State.bump_tlr (s : State)  : (s.bump).tlr = s.tlr := rfl
@[simp] theorem State.bump_ssn (s : State)  : (s.bump).ssn = s.ssn := rfl
@[simp] theorem State.bump_kva (s : State)  : (s.bump).kva = s.kva := rfl
@[simp] theorem State.bump_sch (s : State)  : (s.bump).sch = s.sch := rfl
@[simp] theorem State.bump_txt (s : State)  : (s.bump).txt = s.txt := rfl
@[simp] theorem State.bump_lnk (s : State)  : (s.bump).lnk = s.lnk := rfl
@[simp] theorem State.bump_sec (s : State)  : (s.bump).sec = s.sec := rfl
@[simp] theorem State.bump_pwr (s : State)  : (s.bump).pwr = s.pwr := rfl
@[simp] theorem State.bump_tim (s : State)  : (s.bump).tim = s.tim := rfl
@[simp] theorem State.bump_frz (s : State)  : (s.bump).frz = s.frz := rfl
@[simp] theorem State.bump_boot (s : State)  : (s.bump).boot = s.boot := rfl
@[simp] theorem State.bump_fls (s : State)  : (s.bump).fls = s.fls := rfl
@[simp] theorem State.bump_nmc (s : State)  : (s.bump).nmc = s.nmc := rfl
@[simp] theorem State.bump_dfb (s : State)  : (s.bump).dfb = s.dfb := rfl
@[simp] theorem State.bump_stm (s : State)  : (s.bump).stm = s.stm := rfl
@[simp] theorem State.bump_vsr (s : State)  : (s.bump).vsr = s.vsr := rfl

@[simp] theorem State.putBytes_pending (s : State) (k : Nat) (bs : List Byte) : (s.putBytes k bs).pending = s.pending := rfl
@[simp] theorem State.putBytes_now (s : State) (k : Nat) (bs : List Byte) : (s.putBytes k bs).now = s.now := rfl
@[simp] theorem State.putBytes_freeCtr (s : State) (k : Nat) (bs : List Byte) : (s.putBytes k bs).freeCtr = s.freeCtr := rfl
@[simp] theorem State.putBytes_out (s : State) (k : Nat) (bs : List Byte) : (s.putBytes k bs).out = s.out := rfl
@[simp] theorem State.putBytes_mem (s : State) (k : Nat) (bs : List Byte) : (s.putBytes k bs).mem = writeBytes s.mem k bs := rfl
@[simp] theorem State.putBytes_badSyms (s : State) (k : Nat) (bs : List Byte) : (s.putBytes k bs).badSyms = s.badSyms := rfl
@[simp] theorem State.putBytes_poison (s : State) (k : Nat) (bs : List Byte) : (s.putBytes k bs).poison = s.poison := rfl
@[simp] theorem State.putBytes_regs (s : State) (k : Nat) (bs : List Byte) : (s.putBytes k bs).regs = s.regs := rfl
@[simp] theorem State.putBytes_latches (s : State) (k : Nat) (bs : List Byte) : (s.putBytes k bs).latches = s.latches := rfl
@[simp] theorem State.putBytes_noticeAt (s : State) (k : Nat) (bs : List Byte) : (s.putBytes k bs).noticeAt = s.noticeAt := rfl
@[simp] theorem State.putBytes_traceRings (s : State) (k : Nat) (bs : List Byte) : (s.putBytes k bs).traceRings = s.traceRings := rfl
@[simp] theorem State.putBytes_arch (s : State) (k : Nat) (bs : List Byte) : (s.putBytes k bs).arch = s.arch := rfl
@[simp] theorem State.putBytes_tlr (s : State) (k : Nat) (bs : List Byte) : (s.putBytes k bs).tlr = s.tlr := rfl
@[simp] theorem State.putBytes_ssn (s : State) (k : Nat) (bs : List Byte) : (s.putBytes k bs).ssn = s.ssn := rfl
@[simp] theorem State.putBytes_kva (s : State) (k : Nat) (bs : List Byte) : (s.putBytes k bs).kva = s.kva := rfl
@[simp] theorem State.putBytes_sch (s : State) (k : Nat) (bs : List Byte) : (s.putBytes k bs).sch = s.sch := rfl
@[simp] theorem State.putBytes_txt (s : State) (k : Nat) (bs : List Byte) : (s.putBytes k bs).txt = s.txt := rfl
@[simp] theorem State.putBytes_lnk (s : State) (k : Nat) (bs : List Byte) : (s.putBytes k bs).lnk = s.lnk := rfl
@[simp] theorem State.putBytes_sec (s : State) (k : Nat) (bs : List Byte) : (s.putBytes k bs).sec = s.sec := rfl
@[simp] theorem State.putBytes_pwr (s : State) (k : Nat) (bs : List Byte) : (s.putBytes k bs).pwr = s.pwr := rfl
@[simp] theorem State.putBytes_tim (s : State) (k : Nat) (bs : List Byte) : (s.putBytes k bs).tim = s.tim := rfl
@[simp] theorem State.putBytes_frz (s : State) (k : Nat) (bs : List Byte) : (s.putBytes k bs).frz = s.frz := rfl
@[simp] theorem State.putBytes_boot (s : State) (k : Nat) (bs : List Byte) : (s.putBytes k bs).boot = s.boot := rfl
@[simp] theorem State.putBytes_fls (s : State) (k : Nat) (bs : List Byte) : (s.putBytes k bs).fls = s.fls := rfl
@[simp] theorem State.putBytes_nmc (s : State) (k : Nat) (bs : List Byte) : (s.putBytes k bs).nmc = s.nmc := rfl
@[simp] theorem State.putBytes_dfb (s : State) (k : Nat) (bs : List Byte) : (s.putBytes k bs).dfb = s.dfb := rfl
@[simp] theorem State.putBytes_stm (s : State) (k : Nat) (bs : List Byte) : (s.putBytes k bs).stm = s.stm := rfl
@[simp] theorem State.putBytes_vsr (s : State) (k : Nat) (bs : List Byte) : (s.putBytes k bs).vsr = s.vsr := rfl

@[simp] theorem State.send_pending (s : State) (o : Out) : (s.send o).pending = s.pending := rfl
@[simp] theorem State.send_now (s : State) (o : Out) : (s.send o).now = s.now := rfl
@[simp] theorem State.send_freeCtr (s : State) (o : Out) : (s.send o).freeCtr = s.freeCtr := rfl
@[simp] theorem State.send_out (s : State) (o : Out) : (s.send o).out = s.out ++ [o] := rfl
@[simp] theorem State.send_mem (s : State) (o : Out) : (s.send o).mem = s.mem := rfl
@[simp] theorem State.send_badSyms (s : State) (o : Out) : (s.send o).badSyms = s.badSyms := rfl
@[simp] theorem State.send_poison (s : State) (o : Out) : (s.send o).poison = s.poison := rfl
@[simp] theorem State.send_regs (s : State) (o : Out) : (s.send o).regs = s.regs := rfl
@[simp] theorem State.send_latches (s : State) (o : Out) : (s.send o).latches = s.latches := rfl
@[simp] theorem State.send_noticeAt (s : State) (o : Out) : (s.send o).noticeAt = s.noticeAt := rfl
@[simp] theorem State.send_traceRings (s : State) (o : Out) : (s.send o).traceRings = s.traceRings := rfl
@[simp] theorem State.send_arch (s : State) (o : Out) : (s.send o).arch = s.arch := rfl
@[simp] theorem State.send_tlr (s : State) (o : Out) : (s.send o).tlr = s.tlr := rfl
@[simp] theorem State.send_ssn (s : State) (o : Out) : (s.send o).ssn = s.ssn := rfl
@[simp] theorem State.send_kva (s : State) (o : Out) : (s.send o).kva = s.kva := rfl
@[simp] theorem State.send_sch (s : State) (o : Out) : (s.send o).sch = s.sch := rfl
@[simp] theorem State.send_txt (s : State) (o : Out) : (s.send o).txt = s.txt := rfl
@[simp] theorem State.send_lnk (s : State) (o : Out) : (s.send o).lnk = s.lnk := rfl
@[simp] theorem State.send_sec (s : State) (o : Out) : (s.send o).sec = s.sec := rfl
@[simp] theorem State.send_pwr (s : State) (o : Out) : (s.send o).pwr = s.pwr := rfl
@[simp] theorem State.send_tim (s : State) (o : Out) : (s.send o).tim = s.tim := rfl
@[simp] theorem State.send_frz (s : State) (o : Out) : (s.send o).frz = s.frz := rfl
@[simp] theorem State.send_boot (s : State) (o : Out) : (s.send o).boot = s.boot := rfl
@[simp] theorem State.send_fls (s : State) (o : Out) : (s.send o).fls = s.fls := rfl
@[simp] theorem State.send_nmc (s : State) (o : Out) : (s.send o).nmc = s.nmc := rfl
@[simp] theorem State.send_dfb (s : State) (o : Out) : (s.send o).dfb = s.dfb := rfl
@[simp] theorem State.send_stm (s : State) (o : Out) : (s.send o).stm = s.stm := rfl
@[simp] theorem State.send_vsr (s : State) (o : Out) : (s.send o).vsr = s.vsr := rfl

@[simp] theorem State.sendAll_pending (s : State) (os : List Out) : (s.sendAll os).pending = s.pending := rfl
@[simp] theorem State.sendAll_now (s : State) (os : List Out) : (s.sendAll os).now = s.now := rfl
@[simp] theorem State.sendAll_freeCtr (s : State) (os : List Out) : (s.sendAll os).freeCtr = s.freeCtr := rfl
@[simp] theorem State.sendAll_out (s : State) (os : List Out) : (s.sendAll os).out = s.out ++ os := rfl
@[simp] theorem State.sendAll_mem (s : State) (os : List Out) : (s.sendAll os).mem = s.mem := rfl
@[simp] theorem State.sendAll_badSyms (s : State) (os : List Out) : (s.sendAll os).badSyms = s.badSyms := rfl
@[simp] theorem State.sendAll_poison (s : State) (os : List Out) : (s.sendAll os).poison = s.poison := rfl
@[simp] theorem State.sendAll_regs (s : State) (os : List Out) : (s.sendAll os).regs = s.regs := rfl
@[simp] theorem State.sendAll_latches (s : State) (os : List Out) : (s.sendAll os).latches = s.latches := rfl
@[simp] theorem State.sendAll_noticeAt (s : State) (os : List Out) : (s.sendAll os).noticeAt = s.noticeAt := rfl
@[simp] theorem State.sendAll_traceRings (s : State) (os : List Out) : (s.sendAll os).traceRings = s.traceRings := rfl
@[simp] theorem State.sendAll_arch (s : State) (os : List Out) : (s.sendAll os).arch = s.arch := rfl
@[simp] theorem State.sendAll_tlr (s : State) (os : List Out) : (s.sendAll os).tlr = s.tlr := rfl
@[simp] theorem State.sendAll_ssn (s : State) (os : List Out) : (s.sendAll os).ssn = s.ssn := rfl
@[simp] theorem State.sendAll_kva (s : State) (os : List Out) : (s.sendAll os).kva = s.kva := rfl
@[simp] theorem State.sendAll_sch (s : State) (os : List Out) : (s.sendAll os).sch = s.sch := rfl
@[simp] theorem State.sendAll_txt (s : State) (os : List Out) : (s.sendAll os).txt = s.txt := rfl
@[simp] theorem State.sendAll_lnk (s : State) (os : List Out) : (s.sendAll os).lnk = s.lnk := rfl
@[simp] theorem State.sendAll_sec (s : State) (os : List Out) : (s.sendAll os).sec = s.sec := rfl
@[simp] theorem State.sendAll_pwr (s : State) (os : List Out) : (s.sendAll os).pwr = s.pwr := rfl
@[simp] theorem State.sendAll_tim (s : State) (os : List Out) : (s.sendAll os).tim = s.tim := rfl
@[simp] theorem State.sendAll_frz (s : State) (os : List Out) : (s.sendAll os).frz = s.frz := rfl
@[simp] theorem State.sendAll_boot (s : State) (os : List Out) : (s.sendAll os).boot = s.boot := rfl
@[simp] theorem State.sendAll_fls (s : State) (os : List Out) : (s.sendAll os).fls = s.fls := rfl
@[simp] theorem State.sendAll_nmc (s : State) (os : List Out) : (s.sendAll os).nmc = s.nmc := rfl
@[simp] theorem State.sendAll_dfb (s : State) (os : List Out) : (s.sendAll os).dfb = s.dfb := rfl
@[simp] theorem State.sendAll_stm (s : State) (os : List Out) : (s.sendAll os).stm = s.stm := rfl
@[simp] theorem State.sendAll_vsr (s : State) (os : List Out) : (s.sendAll os).vsr = s.vsr := rfl

@[simp] theorem State.setClerk_pending (s : State) (c : Nat) (cl : Clerk) : (s.setClerk c cl).pending = s.pending := rfl
@[simp] theorem State.setClerk_now (s : State) (c : Nat) (cl : Clerk) : (s.setClerk c cl).now = s.now := rfl
@[simp] theorem State.setClerk_freeCtr (s : State) (c : Nat) (cl : Clerk) : (s.setClerk c cl).freeCtr = s.freeCtr := rfl
@[simp] theorem State.setClerk_out (s : State) (c : Nat) (cl : Clerk) : (s.setClerk c cl).out = s.out := rfl
@[simp] theorem State.setClerk_mem (s : State) (c : Nat) (cl : Clerk) : (s.setClerk c cl).mem = s.mem := rfl
@[simp] theorem State.setClerk_badSyms (s : State) (c : Nat) (cl : Clerk) : (s.setClerk c cl).badSyms = s.badSyms := rfl
@[simp] theorem State.setClerk_poison (s : State) (c : Nat) (cl : Clerk) : (s.setClerk c cl).poison = s.poison := rfl
@[simp] theorem State.setClerk_regs (s : State) (c : Nat) (cl : Clerk) : (s.setClerk c cl).regs = s.regs := rfl
@[simp] theorem State.setClerk_latches (s : State) (c : Nat) (cl : Clerk) : (s.setClerk c cl).latches = s.latches := rfl
@[simp] theorem State.setClerk_noticeAt (s : State) (c : Nat) (cl : Clerk) : (s.setClerk c cl).noticeAt = s.noticeAt := rfl
@[simp] theorem State.setClerk_traceRings (s : State) (c : Nat) (cl : Clerk) : (s.setClerk c cl).traceRings = s.traceRings := rfl
@[simp] theorem State.setClerk_arch (s : State) (c : Nat) (cl : Clerk) : (s.setClerk c cl).arch = s.arch := rfl
@[simp] theorem State.setClerk_tlr (s : State) (c : Nat) (cl : Clerk) : (s.setClerk c cl).tlr = { s.tlr with clerks := s.tlr.clerks.put c cl } := rfl
@[simp] theorem State.setClerk_ssn (s : State) (c : Nat) (cl : Clerk) : (s.setClerk c cl).ssn = s.ssn := rfl
@[simp] theorem State.setClerk_kva (s : State) (c : Nat) (cl : Clerk) : (s.setClerk c cl).kva = s.kva := rfl
@[simp] theorem State.setClerk_sch (s : State) (c : Nat) (cl : Clerk) : (s.setClerk c cl).sch = s.sch := rfl
@[simp] theorem State.setClerk_txt (s : State) (c : Nat) (cl : Clerk) : (s.setClerk c cl).txt = s.txt := rfl
@[simp] theorem State.setClerk_lnk (s : State) (c : Nat) (cl : Clerk) : (s.setClerk c cl).lnk = s.lnk := rfl
@[simp] theorem State.setClerk_sec (s : State) (c : Nat) (cl : Clerk) : (s.setClerk c cl).sec = s.sec := rfl
@[simp] theorem State.setClerk_pwr (s : State) (c : Nat) (cl : Clerk) : (s.setClerk c cl).pwr = s.pwr := rfl
@[simp] theorem State.setClerk_tim (s : State) (c : Nat) (cl : Clerk) : (s.setClerk c cl).tim = s.tim := rfl
@[simp] theorem State.setClerk_frz (s : State) (c : Nat) (cl : Clerk) : (s.setClerk c cl).frz = s.frz := rfl
@[simp] theorem State.setClerk_boot (s : State) (c : Nat) (cl : Clerk) : (s.setClerk c cl).boot = s.boot := rfl
@[simp] theorem State.setClerk_fls (s : State) (c : Nat) (cl : Clerk) : (s.setClerk c cl).fls = s.fls := rfl
@[simp] theorem State.setClerk_nmc (s : State) (c : Nat) (cl : Clerk) : (s.setClerk c cl).nmc = s.nmc := rfl
@[simp] theorem State.setClerk_dfb (s : State) (c : Nat) (cl : Clerk) : (s.setClerk c cl).dfb = s.dfb := rfl
@[simp] theorem State.setClerk_stm (s : State) (c : Nat) (cl : Clerk) : (s.setClerk c cl).stm = s.stm := rfl
@[simp] theorem State.setClerk_vsr (s : State) (c : Nat) (cl : Clerk) : (s.setClerk c cl).vsr = s.vsr := rfl

@[simp] theorem State.withFront_pending (s : State) (c : Instr) : (s.withFront c).pending = c :: s.pending := rfl
@[simp] theorem State.withFront_now (s : State) (c : Instr) : (s.withFront c).now = s.now := rfl
@[simp] theorem State.withFront_freeCtr (s : State) (c : Instr) : (s.withFront c).freeCtr = s.freeCtr := rfl
@[simp] theorem State.withFront_out (s : State) (c : Instr) : (s.withFront c).out = s.out := rfl
@[simp] theorem State.withFront_mem (s : State) (c : Instr) : (s.withFront c).mem = s.mem := rfl
@[simp] theorem State.withFront_badSyms (s : State) (c : Instr) : (s.withFront c).badSyms = s.badSyms := rfl
@[simp] theorem State.withFront_poison (s : State) (c : Instr) : (s.withFront c).poison = s.poison := rfl
@[simp] theorem State.withFront_regs (s : State) (c : Instr) : (s.withFront c).regs = s.regs := rfl
@[simp] theorem State.withFront_latches (s : State) (c : Instr) : (s.withFront c).latches = s.latches := rfl
@[simp] theorem State.withFront_noticeAt (s : State) (c : Instr) : (s.withFront c).noticeAt = s.noticeAt := rfl
@[simp] theorem State.withFront_traceRings (s : State) (c : Instr) : (s.withFront c).traceRings = s.traceRings := rfl
@[simp] theorem State.withFront_arch (s : State) (c : Instr) : (s.withFront c).arch = s.arch := rfl
@[simp] theorem State.withFront_tlr (s : State) (c : Instr) : (s.withFront c).tlr = s.tlr := rfl
@[simp] theorem State.withFront_ssn (s : State) (c : Instr) : (s.withFront c).ssn = s.ssn := rfl
@[simp] theorem State.withFront_kva (s : State) (c : Instr) : (s.withFront c).kva = s.kva := rfl
@[simp] theorem State.withFront_sch (s : State) (c : Instr) : (s.withFront c).sch = s.sch := rfl
@[simp] theorem State.withFront_txt (s : State) (c : Instr) : (s.withFront c).txt = s.txt := rfl
@[simp] theorem State.withFront_lnk (s : State) (c : Instr) : (s.withFront c).lnk = s.lnk := rfl
@[simp] theorem State.withFront_sec (s : State) (c : Instr) : (s.withFront c).sec = s.sec := rfl
@[simp] theorem State.withFront_pwr (s : State) (c : Instr) : (s.withFront c).pwr = s.pwr := rfl
@[simp] theorem State.withFront_tim (s : State) (c : Instr) : (s.withFront c).tim = s.tim := rfl
@[simp] theorem State.withFront_frz (s : State) (c : Instr) : (s.withFront c).frz = s.frz := rfl
@[simp] theorem State.withFront_boot (s : State) (c : Instr) : (s.withFront c).boot = s.boot := rfl
@[simp] theorem State.withFront_fls (s : State) (c : Instr) : (s.withFront c).fls = s.fls := rfl
@[simp] theorem State.withFront_nmc (s : State) (c : Instr) : (s.withFront c).nmc = s.nmc := rfl
@[simp] theorem State.withFront_dfb (s : State) (c : Instr) : (s.withFront c).dfb = s.dfb := rfl
@[simp] theorem State.withFront_stm (s : State) (c : Instr) : (s.withFront c).stm = s.stm := rfl
@[simp] theorem State.withFront_vsr (s : State) (c : Instr) : (s.withFront c).vsr = s.vsr := rfl

@[simp] theorem State.onTlr_pending (s : State) (f : Tlr → Tlr) : (s.onTlr f).pending = s.pending := rfl
@[simp] theorem State.onTlr_now (s : State) (f : Tlr → Tlr) : (s.onTlr f).now = s.now := rfl
@[simp] theorem State.onTlr_freeCtr (s : State) (f : Tlr → Tlr) : (s.onTlr f).freeCtr = s.freeCtr := rfl
@[simp] theorem State.onTlr_out (s : State) (f : Tlr → Tlr) : (s.onTlr f).out = s.out := rfl
@[simp] theorem State.onTlr_mem (s : State) (f : Tlr → Tlr) : (s.onTlr f).mem = s.mem := rfl
@[simp] theorem State.onTlr_badSyms (s : State) (f : Tlr → Tlr) : (s.onTlr f).badSyms = s.badSyms := rfl
@[simp] theorem State.onTlr_poison (s : State) (f : Tlr → Tlr) : (s.onTlr f).poison = s.poison := rfl
@[simp] theorem State.onTlr_regs (s : State) (f : Tlr → Tlr) : (s.onTlr f).regs = s.regs := rfl
@[simp] theorem State.onTlr_latches (s : State) (f : Tlr → Tlr) : (s.onTlr f).latches = s.latches := rfl
@[simp] theorem State.onTlr_noticeAt (s : State) (f : Tlr → Tlr) : (s.onTlr f).noticeAt = s.noticeAt := rfl
@[simp] theorem State.onTlr_traceRings (s : State) (f : Tlr → Tlr) : (s.onTlr f).traceRings = s.traceRings := rfl
@[simp] theorem State.onTlr_arch (s : State) (f : Tlr → Tlr) : (s.onTlr f).arch = s.arch := rfl
@[simp] theorem State.onTlr_tlr (s : State) (f : Tlr → Tlr) : (s.onTlr f).tlr = f s.tlr := rfl
@[simp] theorem State.onTlr_ssn (s : State) (f : Tlr → Tlr) : (s.onTlr f).ssn = s.ssn := rfl
@[simp] theorem State.onTlr_kva (s : State) (f : Tlr → Tlr) : (s.onTlr f).kva = s.kva := rfl
@[simp] theorem State.onTlr_sch (s : State) (f : Tlr → Tlr) : (s.onTlr f).sch = s.sch := rfl
@[simp] theorem State.onTlr_txt (s : State) (f : Tlr → Tlr) : (s.onTlr f).txt = s.txt := rfl
@[simp] theorem State.onTlr_lnk (s : State) (f : Tlr → Tlr) : (s.onTlr f).lnk = s.lnk := rfl
@[simp] theorem State.onTlr_sec (s : State) (f : Tlr → Tlr) : (s.onTlr f).sec = s.sec := rfl
@[simp] theorem State.onTlr_pwr (s : State) (f : Tlr → Tlr) : (s.onTlr f).pwr = s.pwr := rfl
@[simp] theorem State.onTlr_tim (s : State) (f : Tlr → Tlr) : (s.onTlr f).tim = s.tim := rfl
@[simp] theorem State.onTlr_frz (s : State) (f : Tlr → Tlr) : (s.onTlr f).frz = s.frz := rfl
@[simp] theorem State.onTlr_boot (s : State) (f : Tlr → Tlr) : (s.onTlr f).boot = s.boot := rfl
@[simp] theorem State.onTlr_fls (s : State) (f : Tlr → Tlr) : (s.onTlr f).fls = s.fls := rfl
@[simp] theorem State.onTlr_nmc (s : State) (f : Tlr → Tlr) : (s.onTlr f).nmc = s.nmc := rfl
@[simp] theorem State.onTlr_dfb (s : State) (f : Tlr → Tlr) : (s.onTlr f).dfb = s.dfb := rfl
@[simp] theorem State.onTlr_stm (s : State) (f : Tlr → Tlr) : (s.onTlr f).stm = s.stm := rfl
@[simp] theorem State.onTlr_vsr (s : State) (f : Tlr → Tlr) : (s.onTlr f).vsr = s.vsr := rfl

@[simp] theorem State.onSsn_pending (s : State) (f : Ssn → Ssn) : (s.onSsn f).pending = s.pending := rfl
@[simp] theorem State.onSsn_now (s : State) (f : Ssn → Ssn) : (s.onSsn f).now = s.now := rfl
@[simp] theorem State.onSsn_freeCtr (s : State) (f : Ssn → Ssn) : (s.onSsn f).freeCtr = s.freeCtr := rfl
@[simp] theorem State.onSsn_out (s : State) (f : Ssn → Ssn) : (s.onSsn f).out = s.out := rfl
@[simp] theorem State.onSsn_mem (s : State) (f : Ssn → Ssn) : (s.onSsn f).mem = s.mem := rfl
@[simp] theorem State.onSsn_badSyms (s : State) (f : Ssn → Ssn) : (s.onSsn f).badSyms = s.badSyms := rfl
@[simp] theorem State.onSsn_poison (s : State) (f : Ssn → Ssn) : (s.onSsn f).poison = s.poison := rfl
@[simp] theorem State.onSsn_regs (s : State) (f : Ssn → Ssn) : (s.onSsn f).regs = s.regs := rfl
@[simp] theorem State.onSsn_latches (s : State) (f : Ssn → Ssn) : (s.onSsn f).latches = s.latches := rfl
@[simp] theorem State.onSsn_noticeAt (s : State) (f : Ssn → Ssn) : (s.onSsn f).noticeAt = s.noticeAt := rfl
@[simp] theorem State.onSsn_traceRings (s : State) (f : Ssn → Ssn) : (s.onSsn f).traceRings = s.traceRings := rfl
@[simp] theorem State.onSsn_arch (s : State) (f : Ssn → Ssn) : (s.onSsn f).arch = s.arch := rfl
@[simp] theorem State.onSsn_tlr (s : State) (f : Ssn → Ssn) : (s.onSsn f).tlr = s.tlr := rfl
@[simp] theorem State.onSsn_ssn (s : State) (f : Ssn → Ssn) : (s.onSsn f).ssn = f s.ssn := rfl
@[simp] theorem State.onSsn_kva (s : State) (f : Ssn → Ssn) : (s.onSsn f).kva = s.kva := rfl
@[simp] theorem State.onSsn_sch (s : State) (f : Ssn → Ssn) : (s.onSsn f).sch = s.sch := rfl
@[simp] theorem State.onSsn_txt (s : State) (f : Ssn → Ssn) : (s.onSsn f).txt = s.txt := rfl
@[simp] theorem State.onSsn_lnk (s : State) (f : Ssn → Ssn) : (s.onSsn f).lnk = s.lnk := rfl
@[simp] theorem State.onSsn_sec (s : State) (f : Ssn → Ssn) : (s.onSsn f).sec = s.sec := rfl
@[simp] theorem State.onSsn_pwr (s : State) (f : Ssn → Ssn) : (s.onSsn f).pwr = s.pwr := rfl
@[simp] theorem State.onSsn_tim (s : State) (f : Ssn → Ssn) : (s.onSsn f).tim = s.tim := rfl
@[simp] theorem State.onSsn_frz (s : State) (f : Ssn → Ssn) : (s.onSsn f).frz = s.frz := rfl
@[simp] theorem State.onSsn_boot (s : State) (f : Ssn → Ssn) : (s.onSsn f).boot = s.boot := rfl
@[simp] theorem State.onSsn_fls (s : State) (f : Ssn → Ssn) : (s.onSsn f).fls = s.fls := rfl
@[simp] theorem State.onSsn_nmc (s : State) (f : Ssn → Ssn) : (s.onSsn f).nmc = s.nmc := rfl
@[simp] theorem State.onSsn_dfb (s : State) (f : Ssn → Ssn) : (s.onSsn f).dfb = s.dfb := rfl
@[simp] theorem State.onSsn_stm (s : State) (f : Ssn → Ssn) : (s.onSsn f).stm = s.stm := rfl
@[simp] theorem State.onSsn_vsr (s : State) (f : Ssn → Ssn) : (s.onSsn f).vsr = s.vsr := rfl

@[simp] theorem State.onKva_pending (s : State) (f : Kva → Kva) : (s.onKva f).pending = s.pending := rfl
@[simp] theorem State.onKva_now (s : State) (f : Kva → Kva) : (s.onKva f).now = s.now := rfl
@[simp] theorem State.onKva_freeCtr (s : State) (f : Kva → Kva) : (s.onKva f).freeCtr = s.freeCtr := rfl
@[simp] theorem State.onKva_out (s : State) (f : Kva → Kva) : (s.onKva f).out = s.out := rfl
@[simp] theorem State.onKva_mem (s : State) (f : Kva → Kva) : (s.onKva f).mem = s.mem := rfl
@[simp] theorem State.onKva_badSyms (s : State) (f : Kva → Kva) : (s.onKva f).badSyms = s.badSyms := rfl
@[simp] theorem State.onKva_poison (s : State) (f : Kva → Kva) : (s.onKva f).poison = s.poison := rfl
@[simp] theorem State.onKva_regs (s : State) (f : Kva → Kva) : (s.onKva f).regs = s.regs := rfl
@[simp] theorem State.onKva_latches (s : State) (f : Kva → Kva) : (s.onKva f).latches = s.latches := rfl
@[simp] theorem State.onKva_noticeAt (s : State) (f : Kva → Kva) : (s.onKva f).noticeAt = s.noticeAt := rfl
@[simp] theorem State.onKva_traceRings (s : State) (f : Kva → Kva) : (s.onKva f).traceRings = s.traceRings := rfl
@[simp] theorem State.onKva_arch (s : State) (f : Kva → Kva) : (s.onKva f).arch = s.arch := rfl
@[simp] theorem State.onKva_tlr (s : State) (f : Kva → Kva) : (s.onKva f).tlr = s.tlr := rfl
@[simp] theorem State.onKva_ssn (s : State) (f : Kva → Kva) : (s.onKva f).ssn = s.ssn := rfl
@[simp] theorem State.onKva_kva (s : State) (f : Kva → Kva) : (s.onKva f).kva = f s.kva := rfl
@[simp] theorem State.onKva_sch (s : State) (f : Kva → Kva) : (s.onKva f).sch = s.sch := rfl
@[simp] theorem State.onKva_txt (s : State) (f : Kva → Kva) : (s.onKva f).txt = s.txt := rfl
@[simp] theorem State.onKva_lnk (s : State) (f : Kva → Kva) : (s.onKva f).lnk = s.lnk := rfl
@[simp] theorem State.onKva_sec (s : State) (f : Kva → Kva) : (s.onKva f).sec = s.sec := rfl
@[simp] theorem State.onKva_pwr (s : State) (f : Kva → Kva) : (s.onKva f).pwr = s.pwr := rfl
@[simp] theorem State.onKva_tim (s : State) (f : Kva → Kva) : (s.onKva f).tim = s.tim := rfl
@[simp] theorem State.onKva_frz (s : State) (f : Kva → Kva) : (s.onKva f).frz = s.frz := rfl
@[simp] theorem State.onKva_boot (s : State) (f : Kva → Kva) : (s.onKva f).boot = s.boot := rfl
@[simp] theorem State.onKva_fls (s : State) (f : Kva → Kva) : (s.onKva f).fls = s.fls := rfl
@[simp] theorem State.onKva_nmc (s : State) (f : Kva → Kva) : (s.onKva f).nmc = s.nmc := rfl
@[simp] theorem State.onKva_dfb (s : State) (f : Kva → Kva) : (s.onKva f).dfb = s.dfb := rfl
@[simp] theorem State.onKva_stm (s : State) (f : Kva → Kva) : (s.onKva f).stm = s.stm := rfl
@[simp] theorem State.onKva_vsr (s : State) (f : Kva → Kva) : (s.onKva f).vsr = s.vsr := rfl

@[simp] theorem State.onSch_pending (s : State) (f : Sch → Sch) : (s.onSch f).pending = s.pending := rfl
@[simp] theorem State.onSch_now (s : State) (f : Sch → Sch) : (s.onSch f).now = s.now := rfl
@[simp] theorem State.onSch_freeCtr (s : State) (f : Sch → Sch) : (s.onSch f).freeCtr = s.freeCtr := rfl
@[simp] theorem State.onSch_out (s : State) (f : Sch → Sch) : (s.onSch f).out = s.out := rfl
@[simp] theorem State.onSch_mem (s : State) (f : Sch → Sch) : (s.onSch f).mem = s.mem := rfl
@[simp] theorem State.onSch_badSyms (s : State) (f : Sch → Sch) : (s.onSch f).badSyms = s.badSyms := rfl
@[simp] theorem State.onSch_poison (s : State) (f : Sch → Sch) : (s.onSch f).poison = s.poison := rfl
@[simp] theorem State.onSch_regs (s : State) (f : Sch → Sch) : (s.onSch f).regs = s.regs := rfl
@[simp] theorem State.onSch_latches (s : State) (f : Sch → Sch) : (s.onSch f).latches = s.latches := rfl
@[simp] theorem State.onSch_noticeAt (s : State) (f : Sch → Sch) : (s.onSch f).noticeAt = s.noticeAt := rfl
@[simp] theorem State.onSch_traceRings (s : State) (f : Sch → Sch) : (s.onSch f).traceRings = s.traceRings := rfl
@[simp] theorem State.onSch_arch (s : State) (f : Sch → Sch) : (s.onSch f).arch = s.arch := rfl
@[simp] theorem State.onSch_tlr (s : State) (f : Sch → Sch) : (s.onSch f).tlr = s.tlr := rfl
@[simp] theorem State.onSch_ssn (s : State) (f : Sch → Sch) : (s.onSch f).ssn = s.ssn := rfl
@[simp] theorem State.onSch_kva (s : State) (f : Sch → Sch) : (s.onSch f).kva = s.kva := rfl
@[simp] theorem State.onSch_sch (s : State) (f : Sch → Sch) : (s.onSch f).sch = f s.sch := rfl
@[simp] theorem State.onSch_txt (s : State) (f : Sch → Sch) : (s.onSch f).txt = s.txt := rfl
@[simp] theorem State.onSch_lnk (s : State) (f : Sch → Sch) : (s.onSch f).lnk = s.lnk := rfl
@[simp] theorem State.onSch_sec (s : State) (f : Sch → Sch) : (s.onSch f).sec = s.sec := rfl
@[simp] theorem State.onSch_pwr (s : State) (f : Sch → Sch) : (s.onSch f).pwr = s.pwr := rfl
@[simp] theorem State.onSch_tim (s : State) (f : Sch → Sch) : (s.onSch f).tim = s.tim := rfl
@[simp] theorem State.onSch_frz (s : State) (f : Sch → Sch) : (s.onSch f).frz = s.frz := rfl
@[simp] theorem State.onSch_boot (s : State) (f : Sch → Sch) : (s.onSch f).boot = s.boot := rfl
@[simp] theorem State.onSch_fls (s : State) (f : Sch → Sch) : (s.onSch f).fls = s.fls := rfl
@[simp] theorem State.onSch_nmc (s : State) (f : Sch → Sch) : (s.onSch f).nmc = s.nmc := rfl
@[simp] theorem State.onSch_dfb (s : State) (f : Sch → Sch) : (s.onSch f).dfb = s.dfb := rfl
@[simp] theorem State.onSch_stm (s : State) (f : Sch → Sch) : (s.onSch f).stm = s.stm := rfl
@[simp] theorem State.onSch_vsr (s : State) (f : Sch → Sch) : (s.onSch f).vsr = s.vsr := rfl

@[simp] theorem State.onLnk_pending (s : State) (f : Lnk → Lnk) : (s.onLnk f).pending = s.pending := rfl
@[simp] theorem State.onLnk_now (s : State) (f : Lnk → Lnk) : (s.onLnk f).now = s.now := rfl
@[simp] theorem State.onLnk_freeCtr (s : State) (f : Lnk → Lnk) : (s.onLnk f).freeCtr = s.freeCtr := rfl
@[simp] theorem State.onLnk_out (s : State) (f : Lnk → Lnk) : (s.onLnk f).out = s.out := rfl
@[simp] theorem State.onLnk_mem (s : State) (f : Lnk → Lnk) : (s.onLnk f).mem = s.mem := rfl
@[simp] theorem State.onLnk_badSyms (s : State) (f : Lnk → Lnk) : (s.onLnk f).badSyms = s.badSyms := rfl
@[simp] theorem State.onLnk_poison (s : State) (f : Lnk → Lnk) : (s.onLnk f).poison = s.poison := rfl
@[simp] theorem State.onLnk_regs (s : State) (f : Lnk → Lnk) : (s.onLnk f).regs = s.regs := rfl
@[simp] theorem State.onLnk_latches (s : State) (f : Lnk → Lnk) : (s.onLnk f).latches = s.latches := rfl
@[simp] theorem State.onLnk_noticeAt (s : State) (f : Lnk → Lnk) : (s.onLnk f).noticeAt = s.noticeAt := rfl
@[simp] theorem State.onLnk_traceRings (s : State) (f : Lnk → Lnk) : (s.onLnk f).traceRings = s.traceRings := rfl
@[simp] theorem State.onLnk_arch (s : State) (f : Lnk → Lnk) : (s.onLnk f).arch = s.arch := rfl
@[simp] theorem State.onLnk_tlr (s : State) (f : Lnk → Lnk) : (s.onLnk f).tlr = s.tlr := rfl
@[simp] theorem State.onLnk_ssn (s : State) (f : Lnk → Lnk) : (s.onLnk f).ssn = s.ssn := rfl
@[simp] theorem State.onLnk_kva (s : State) (f : Lnk → Lnk) : (s.onLnk f).kva = s.kva := rfl
@[simp] theorem State.onLnk_sch (s : State) (f : Lnk → Lnk) : (s.onLnk f).sch = s.sch := rfl
@[simp] theorem State.onLnk_txt (s : State) (f : Lnk → Lnk) : (s.onLnk f).txt = s.txt := rfl
@[simp] theorem State.onLnk_lnk (s : State) (f : Lnk → Lnk) : (s.onLnk f).lnk = f s.lnk := rfl
@[simp] theorem State.onLnk_sec (s : State) (f : Lnk → Lnk) : (s.onLnk f).sec = s.sec := rfl
@[simp] theorem State.onLnk_pwr (s : State) (f : Lnk → Lnk) : (s.onLnk f).pwr = s.pwr := rfl
@[simp] theorem State.onLnk_tim (s : State) (f : Lnk → Lnk) : (s.onLnk f).tim = s.tim := rfl
@[simp] theorem State.onLnk_frz (s : State) (f : Lnk → Lnk) : (s.onLnk f).frz = s.frz := rfl
@[simp] theorem State.onLnk_boot (s : State) (f : Lnk → Lnk) : (s.onLnk f).boot = s.boot := rfl
@[simp] theorem State.onLnk_fls (s : State) (f : Lnk → Lnk) : (s.onLnk f).fls = s.fls := rfl
@[simp] theorem State.onLnk_nmc (s : State) (f : Lnk → Lnk) : (s.onLnk f).nmc = s.nmc := rfl
@[simp] theorem State.onLnk_dfb (s : State) (f : Lnk → Lnk) : (s.onLnk f).dfb = s.dfb := rfl
@[simp] theorem State.onLnk_stm (s : State) (f : Lnk → Lnk) : (s.onLnk f).stm = s.stm := rfl
@[simp] theorem State.onLnk_vsr (s : State) (f : Lnk → Lnk) : (s.onLnk f).vsr = s.vsr := rfl

@[simp] theorem State.onSec_pending (s : State) (f : Sec → Sec) : (s.onSec f).pending = s.pending := rfl
@[simp] theorem State.onSec_now (s : State) (f : Sec → Sec) : (s.onSec f).now = s.now := rfl
@[simp] theorem State.onSec_freeCtr (s : State) (f : Sec → Sec) : (s.onSec f).freeCtr = s.freeCtr := rfl
@[simp] theorem State.onSec_out (s : State) (f : Sec → Sec) : (s.onSec f).out = s.out := rfl
@[simp] theorem State.onSec_mem (s : State) (f : Sec → Sec) : (s.onSec f).mem = s.mem := rfl
@[simp] theorem State.onSec_badSyms (s : State) (f : Sec → Sec) : (s.onSec f).badSyms = s.badSyms := rfl
@[simp] theorem State.onSec_poison (s : State) (f : Sec → Sec) : (s.onSec f).poison = s.poison := rfl
@[simp] theorem State.onSec_regs (s : State) (f : Sec → Sec) : (s.onSec f).regs = s.regs := rfl
@[simp] theorem State.onSec_latches (s : State) (f : Sec → Sec) : (s.onSec f).latches = s.latches := rfl
@[simp] theorem State.onSec_noticeAt (s : State) (f : Sec → Sec) : (s.onSec f).noticeAt = s.noticeAt := rfl
@[simp] theorem State.onSec_traceRings (s : State) (f : Sec → Sec) : (s.onSec f).traceRings = s.traceRings := rfl
@[simp] theorem State.onSec_arch (s : State) (f : Sec → Sec) : (s.onSec f).arch = s.arch := rfl
@[simp] theorem State.onSec_tlr (s : State) (f : Sec → Sec) : (s.onSec f).tlr = s.tlr := rfl
@[simp] theorem State.onSec_ssn (s : State) (f : Sec → Sec) : (s.onSec f).ssn = s.ssn := rfl
@[simp] theorem State.onSec_kva (s : State) (f : Sec → Sec) : (s.onSec f).kva = s.kva := rfl
@[simp] theorem State.onSec_sch (s : State) (f : Sec → Sec) : (s.onSec f).sch = s.sch := rfl
@[simp] theorem State.onSec_txt (s : State) (f : Sec → Sec) : (s.onSec f).txt = s.txt := rfl
@[simp] theorem State.onSec_lnk (s : State) (f : Sec → Sec) : (s.onSec f).lnk = s.lnk := rfl
@[simp] theorem State.onSec_sec (s : State) (f : Sec → Sec) : (s.onSec f).sec = f s.sec := rfl
@[simp] theorem State.onSec_pwr (s : State) (f : Sec → Sec) : (s.onSec f).pwr = s.pwr := rfl
@[simp] theorem State.onSec_tim (s : State) (f : Sec → Sec) : (s.onSec f).tim = s.tim := rfl
@[simp] theorem State.onSec_frz (s : State) (f : Sec → Sec) : (s.onSec f).frz = s.frz := rfl
@[simp] theorem State.onSec_boot (s : State) (f : Sec → Sec) : (s.onSec f).boot = s.boot := rfl
@[simp] theorem State.onSec_fls (s : State) (f : Sec → Sec) : (s.onSec f).fls = s.fls := rfl
@[simp] theorem State.onSec_nmc (s : State) (f : Sec → Sec) : (s.onSec f).nmc = s.nmc := rfl
@[simp] theorem State.onSec_dfb (s : State) (f : Sec → Sec) : (s.onSec f).dfb = s.dfb := rfl
@[simp] theorem State.onSec_stm (s : State) (f : Sec → Sec) : (s.onSec f).stm = s.stm := rfl
@[simp] theorem State.onSec_vsr (s : State) (f : Sec → Sec) : (s.onSec f).vsr = s.vsr := rfl

@[simp] theorem State.onPwr_pending (s : State) (f : Pwr → Pwr) : (s.onPwr f).pending = s.pending := rfl
@[simp] theorem State.onPwr_now (s : State) (f : Pwr → Pwr) : (s.onPwr f).now = s.now := rfl
@[simp] theorem State.onPwr_freeCtr (s : State) (f : Pwr → Pwr) : (s.onPwr f).freeCtr = s.freeCtr := rfl
@[simp] theorem State.onPwr_out (s : State) (f : Pwr → Pwr) : (s.onPwr f).out = s.out := rfl
@[simp] theorem State.onPwr_mem (s : State) (f : Pwr → Pwr) : (s.onPwr f).mem = s.mem := rfl
@[simp] theorem State.onPwr_badSyms (s : State) (f : Pwr → Pwr) : (s.onPwr f).badSyms = s.badSyms := rfl
@[simp] theorem State.onPwr_poison (s : State) (f : Pwr → Pwr) : (s.onPwr f).poison = s.poison := rfl
@[simp] theorem State.onPwr_regs (s : State) (f : Pwr → Pwr) : (s.onPwr f).regs = s.regs := rfl
@[simp] theorem State.onPwr_latches (s : State) (f : Pwr → Pwr) : (s.onPwr f).latches = s.latches := rfl
@[simp] theorem State.onPwr_noticeAt (s : State) (f : Pwr → Pwr) : (s.onPwr f).noticeAt = s.noticeAt := rfl
@[simp] theorem State.onPwr_traceRings (s : State) (f : Pwr → Pwr) : (s.onPwr f).traceRings = s.traceRings := rfl
@[simp] theorem State.onPwr_arch (s : State) (f : Pwr → Pwr) : (s.onPwr f).arch = s.arch := rfl
@[simp] theorem State.onPwr_tlr (s : State) (f : Pwr → Pwr) : (s.onPwr f).tlr = s.tlr := rfl
@[simp] theorem State.onPwr_ssn (s : State) (f : Pwr → Pwr) : (s.onPwr f).ssn = s.ssn := rfl
@[simp] theorem State.onPwr_kva (s : State) (f : Pwr → Pwr) : (s.onPwr f).kva = s.kva := rfl
@[simp] theorem State.onPwr_sch (s : State) (f : Pwr → Pwr) : (s.onPwr f).sch = s.sch := rfl
@[simp] theorem State.onPwr_txt (s : State) (f : Pwr → Pwr) : (s.onPwr f).txt = s.txt := rfl
@[simp] theorem State.onPwr_lnk (s : State) (f : Pwr → Pwr) : (s.onPwr f).lnk = s.lnk := rfl
@[simp] theorem State.onPwr_sec (s : State) (f : Pwr → Pwr) : (s.onPwr f).sec = s.sec := rfl
@[simp] theorem State.onPwr_pwr (s : State) (f : Pwr → Pwr) : (s.onPwr f).pwr = f s.pwr := rfl
@[simp] theorem State.onPwr_tim (s : State) (f : Pwr → Pwr) : (s.onPwr f).tim = s.tim := rfl
@[simp] theorem State.onPwr_frz (s : State) (f : Pwr → Pwr) : (s.onPwr f).frz = s.frz := rfl
@[simp] theorem State.onPwr_boot (s : State) (f : Pwr → Pwr) : (s.onPwr f).boot = s.boot := rfl
@[simp] theorem State.onPwr_fls (s : State) (f : Pwr → Pwr) : (s.onPwr f).fls = s.fls := rfl
@[simp] theorem State.onPwr_nmc (s : State) (f : Pwr → Pwr) : (s.onPwr f).nmc = s.nmc := rfl
@[simp] theorem State.onPwr_dfb (s : State) (f : Pwr → Pwr) : (s.onPwr f).dfb = s.dfb := rfl
@[simp] theorem State.onPwr_stm (s : State) (f : Pwr → Pwr) : (s.onPwr f).stm = s.stm := rfl
@[simp] theorem State.onPwr_vsr (s : State) (f : Pwr → Pwr) : (s.onPwr f).vsr = s.vsr := rfl

@[simp] theorem State.onArch_pending (s : State) (f : Arch → Arch) : (s.onArch f).pending = s.pending := rfl
@[simp] theorem State.onArch_now (s : State) (f : Arch → Arch) : (s.onArch f).now = s.now := rfl
@[simp] theorem State.onArch_freeCtr (s : State) (f : Arch → Arch) : (s.onArch f).freeCtr = s.freeCtr := rfl
@[simp] theorem State.onArch_out (s : State) (f : Arch → Arch) : (s.onArch f).out = s.out := rfl
@[simp] theorem State.onArch_mem (s : State) (f : Arch → Arch) : (s.onArch f).mem = s.mem := rfl
@[simp] theorem State.onArch_badSyms (s : State) (f : Arch → Arch) : (s.onArch f).badSyms = s.badSyms := rfl
@[simp] theorem State.onArch_poison (s : State) (f : Arch → Arch) : (s.onArch f).poison = s.poison := rfl
@[simp] theorem State.onArch_regs (s : State) (f : Arch → Arch) : (s.onArch f).regs = s.regs := rfl
@[simp] theorem State.onArch_latches (s : State) (f : Arch → Arch) : (s.onArch f).latches = s.latches := rfl
@[simp] theorem State.onArch_noticeAt (s : State) (f : Arch → Arch) : (s.onArch f).noticeAt = s.noticeAt := rfl
@[simp] theorem State.onArch_traceRings (s : State) (f : Arch → Arch) : (s.onArch f).traceRings = s.traceRings := rfl
@[simp] theorem State.onArch_arch (s : State) (f : Arch → Arch) : (s.onArch f).arch = f s.arch := rfl
@[simp] theorem State.onArch_tlr (s : State) (f : Arch → Arch) : (s.onArch f).tlr = s.tlr := rfl
@[simp] theorem State.onArch_ssn (s : State) (f : Arch → Arch) : (s.onArch f).ssn = s.ssn := rfl
@[simp] theorem State.onArch_kva (s : State) (f : Arch → Arch) : (s.onArch f).kva = s.kva := rfl
@[simp] theorem State.onArch_sch (s : State) (f : Arch → Arch) : (s.onArch f).sch = s.sch := rfl
@[simp] theorem State.onArch_txt (s : State) (f : Arch → Arch) : (s.onArch f).txt = s.txt := rfl
@[simp] theorem State.onArch_lnk (s : State) (f : Arch → Arch) : (s.onArch f).lnk = s.lnk := rfl
@[simp] theorem State.onArch_sec (s : State) (f : Arch → Arch) : (s.onArch f).sec = s.sec := rfl
@[simp] theorem State.onArch_pwr (s : State) (f : Arch → Arch) : (s.onArch f).pwr = s.pwr := rfl
@[simp] theorem State.onArch_tim (s : State) (f : Arch → Arch) : (s.onArch f).tim = s.tim := rfl
@[simp] theorem State.onArch_frz (s : State) (f : Arch → Arch) : (s.onArch f).frz = s.frz := rfl
@[simp] theorem State.onArch_boot (s : State) (f : Arch → Arch) : (s.onArch f).boot = s.boot := rfl
@[simp] theorem State.onArch_fls (s : State) (f : Arch → Arch) : (s.onArch f).fls = s.fls := rfl
@[simp] theorem State.onArch_nmc (s : State) (f : Arch → Arch) : (s.onArch f).nmc = s.nmc := rfl
@[simp] theorem State.onArch_dfb (s : State) (f : Arch → Arch) : (s.onArch f).dfb = s.dfb := rfl
@[simp] theorem State.onArch_stm (s : State) (f : Arch → Arch) : (s.onArch f).stm = s.stm := rfl
@[simp] theorem State.onArch_vsr (s : State) (f : Arch → Arch) : (s.onArch f).vsr = s.vsr := rfl

@[simp] theorem State.onBoot_pending (s : State) (f : Boot → Boot) : (s.onBoot f).pending = s.pending := rfl
@[simp] theorem State.onBoot_now (s : State) (f : Boot → Boot) : (s.onBoot f).now = s.now := rfl
@[simp] theorem State.onBoot_freeCtr (s : State) (f : Boot → Boot) : (s.onBoot f).freeCtr = s.freeCtr := rfl
@[simp] theorem State.onBoot_out (s : State) (f : Boot → Boot) : (s.onBoot f).out = s.out := rfl
@[simp] theorem State.onBoot_mem (s : State) (f : Boot → Boot) : (s.onBoot f).mem = s.mem := rfl
@[simp] theorem State.onBoot_badSyms (s : State) (f : Boot → Boot) : (s.onBoot f).badSyms = s.badSyms := rfl
@[simp] theorem State.onBoot_poison (s : State) (f : Boot → Boot) : (s.onBoot f).poison = s.poison := rfl
@[simp] theorem State.onBoot_regs (s : State) (f : Boot → Boot) : (s.onBoot f).regs = s.regs := rfl
@[simp] theorem State.onBoot_latches (s : State) (f : Boot → Boot) : (s.onBoot f).latches = s.latches := rfl
@[simp] theorem State.onBoot_noticeAt (s : State) (f : Boot → Boot) : (s.onBoot f).noticeAt = s.noticeAt := rfl
@[simp] theorem State.onBoot_traceRings (s : State) (f : Boot → Boot) : (s.onBoot f).traceRings = s.traceRings := rfl
@[simp] theorem State.onBoot_arch (s : State) (f : Boot → Boot) : (s.onBoot f).arch = s.arch := rfl
@[simp] theorem State.onBoot_tlr (s : State) (f : Boot → Boot) : (s.onBoot f).tlr = s.tlr := rfl
@[simp] theorem State.onBoot_ssn (s : State) (f : Boot → Boot) : (s.onBoot f).ssn = s.ssn := rfl
@[simp] theorem State.onBoot_kva (s : State) (f : Boot → Boot) : (s.onBoot f).kva = s.kva := rfl
@[simp] theorem State.onBoot_sch (s : State) (f : Boot → Boot) : (s.onBoot f).sch = s.sch := rfl
@[simp] theorem State.onBoot_txt (s : State) (f : Boot → Boot) : (s.onBoot f).txt = s.txt := rfl
@[simp] theorem State.onBoot_lnk (s : State) (f : Boot → Boot) : (s.onBoot f).lnk = s.lnk := rfl
@[simp] theorem State.onBoot_sec (s : State) (f : Boot → Boot) : (s.onBoot f).sec = s.sec := rfl
@[simp] theorem State.onBoot_pwr (s : State) (f : Boot → Boot) : (s.onBoot f).pwr = s.pwr := rfl
@[simp] theorem State.onBoot_tim (s : State) (f : Boot → Boot) : (s.onBoot f).tim = s.tim := rfl
@[simp] theorem State.onBoot_frz (s : State) (f : Boot → Boot) : (s.onBoot f).frz = s.frz := rfl
@[simp] theorem State.onBoot_boot (s : State) (f : Boot → Boot) : (s.onBoot f).boot = f s.boot := rfl
@[simp] theorem State.onBoot_fls (s : State) (f : Boot → Boot) : (s.onBoot f).fls = s.fls := rfl
@[simp] theorem State.onBoot_nmc (s : State) (f : Boot → Boot) : (s.onBoot f).nmc = s.nmc := rfl
@[simp] theorem State.onBoot_dfb (s : State) (f : Boot → Boot) : (s.onBoot f).dfb = s.dfb := rfl
@[simp] theorem State.onBoot_stm (s : State) (f : Boot → Boot) : (s.onBoot f).stm = s.stm := rfl
@[simp] theorem State.onBoot_vsr (s : State) (f : Boot → Boot) : (s.onBoot f).vsr = s.vsr := rfl

@[simp] theorem State.onFls_pending (s : State) (f : Fls → Fls) : (s.onFls f).pending = s.pending := rfl
@[simp] theorem State.onFls_now (s : State) (f : Fls → Fls) : (s.onFls f).now = s.now := rfl
@[simp] theorem State.onFls_freeCtr (s : State) (f : Fls → Fls) : (s.onFls f).freeCtr = s.freeCtr := rfl
@[simp] theorem State.onFls_out (s : State) (f : Fls → Fls) : (s.onFls f).out = s.out := rfl
@[simp] theorem State.onFls_mem (s : State) (f : Fls → Fls) : (s.onFls f).mem = s.mem := rfl
@[simp] theorem State.onFls_badSyms (s : State) (f : Fls → Fls) : (s.onFls f).badSyms = s.badSyms := rfl
@[simp] theorem State.onFls_poison (s : State) (f : Fls → Fls) : (s.onFls f).poison = s.poison := rfl
@[simp] theorem State.onFls_regs (s : State) (f : Fls → Fls) : (s.onFls f).regs = s.regs := rfl
@[simp] theorem State.onFls_latches (s : State) (f : Fls → Fls) : (s.onFls f).latches = s.latches := rfl
@[simp] theorem State.onFls_noticeAt (s : State) (f : Fls → Fls) : (s.onFls f).noticeAt = s.noticeAt := rfl
@[simp] theorem State.onFls_traceRings (s : State) (f : Fls → Fls) : (s.onFls f).traceRings = s.traceRings := rfl
@[simp] theorem State.onFls_arch (s : State) (f : Fls → Fls) : (s.onFls f).arch = s.arch := rfl
@[simp] theorem State.onFls_tlr (s : State) (f : Fls → Fls) : (s.onFls f).tlr = s.tlr := rfl
@[simp] theorem State.onFls_ssn (s : State) (f : Fls → Fls) : (s.onFls f).ssn = s.ssn := rfl
@[simp] theorem State.onFls_kva (s : State) (f : Fls → Fls) : (s.onFls f).kva = s.kva := rfl
@[simp] theorem State.onFls_sch (s : State) (f : Fls → Fls) : (s.onFls f).sch = s.sch := rfl
@[simp] theorem State.onFls_txt (s : State) (f : Fls → Fls) : (s.onFls f).txt = s.txt := rfl
@[simp] theorem State.onFls_lnk (s : State) (f : Fls → Fls) : (s.onFls f).lnk = s.lnk := rfl
@[simp] theorem State.onFls_sec (s : State) (f : Fls → Fls) : (s.onFls f).sec = s.sec := rfl
@[simp] theorem State.onFls_pwr (s : State) (f : Fls → Fls) : (s.onFls f).pwr = s.pwr := rfl
@[simp] theorem State.onFls_tim (s : State) (f : Fls → Fls) : (s.onFls f).tim = s.tim := rfl
@[simp] theorem State.onFls_frz (s : State) (f : Fls → Fls) : (s.onFls f).frz = s.frz := rfl
@[simp] theorem State.onFls_boot (s : State) (f : Fls → Fls) : (s.onFls f).boot = s.boot := rfl
@[simp] theorem State.onFls_fls (s : State) (f : Fls → Fls) : (s.onFls f).fls = f s.fls := rfl
@[simp] theorem State.onFls_nmc (s : State) (f : Fls → Fls) : (s.onFls f).nmc = s.nmc := rfl
@[simp] theorem State.onFls_dfb (s : State) (f : Fls → Fls) : (s.onFls f).dfb = s.dfb := rfl
@[simp] theorem State.onFls_stm (s : State) (f : Fls → Fls) : (s.onFls f).stm = s.stm := rfl
@[simp] theorem State.onFls_vsr (s : State) (f : Fls → Fls) : (s.onFls f).vsr = s.vsr := rfl

@[simp] theorem State.onNmc_pending (s : State) (f : Nmc → Nmc) : (s.onNmc f).pending = s.pending := rfl
@[simp] theorem State.onNmc_now (s : State) (f : Nmc → Nmc) : (s.onNmc f).now = s.now := rfl
@[simp] theorem State.onNmc_freeCtr (s : State) (f : Nmc → Nmc) : (s.onNmc f).freeCtr = s.freeCtr := rfl
@[simp] theorem State.onNmc_out (s : State) (f : Nmc → Nmc) : (s.onNmc f).out = s.out := rfl
@[simp] theorem State.onNmc_mem (s : State) (f : Nmc → Nmc) : (s.onNmc f).mem = s.mem := rfl
@[simp] theorem State.onNmc_badSyms (s : State) (f : Nmc → Nmc) : (s.onNmc f).badSyms = s.badSyms := rfl
@[simp] theorem State.onNmc_poison (s : State) (f : Nmc → Nmc) : (s.onNmc f).poison = s.poison := rfl
@[simp] theorem State.onNmc_regs (s : State) (f : Nmc → Nmc) : (s.onNmc f).regs = s.regs := rfl
@[simp] theorem State.onNmc_latches (s : State) (f : Nmc → Nmc) : (s.onNmc f).latches = s.latches := rfl
@[simp] theorem State.onNmc_noticeAt (s : State) (f : Nmc → Nmc) : (s.onNmc f).noticeAt = s.noticeAt := rfl
@[simp] theorem State.onNmc_traceRings (s : State) (f : Nmc → Nmc) : (s.onNmc f).traceRings = s.traceRings := rfl
@[simp] theorem State.onNmc_arch (s : State) (f : Nmc → Nmc) : (s.onNmc f).arch = s.arch := rfl
@[simp] theorem State.onNmc_tlr (s : State) (f : Nmc → Nmc) : (s.onNmc f).tlr = s.tlr := rfl
@[simp] theorem State.onNmc_ssn (s : State) (f : Nmc → Nmc) : (s.onNmc f).ssn = s.ssn := rfl
@[simp] theorem State.onNmc_kva (s : State) (f : Nmc → Nmc) : (s.onNmc f).kva = s.kva := rfl
@[simp] theorem State.onNmc_sch (s : State) (f : Nmc → Nmc) : (s.onNmc f).sch = s.sch := rfl
@[simp] theorem State.onNmc_txt (s : State) (f : Nmc → Nmc) : (s.onNmc f).txt = s.txt := rfl
@[simp] theorem State.onNmc_lnk (s : State) (f : Nmc → Nmc) : (s.onNmc f).lnk = s.lnk := rfl
@[simp] theorem State.onNmc_sec (s : State) (f : Nmc → Nmc) : (s.onNmc f).sec = s.sec := rfl
@[simp] theorem State.onNmc_pwr (s : State) (f : Nmc → Nmc) : (s.onNmc f).pwr = s.pwr := rfl
@[simp] theorem State.onNmc_tim (s : State) (f : Nmc → Nmc) : (s.onNmc f).tim = s.tim := rfl
@[simp] theorem State.onNmc_frz (s : State) (f : Nmc → Nmc) : (s.onNmc f).frz = s.frz := rfl
@[simp] theorem State.onNmc_boot (s : State) (f : Nmc → Nmc) : (s.onNmc f).boot = s.boot := rfl
@[simp] theorem State.onNmc_fls (s : State) (f : Nmc → Nmc) : (s.onNmc f).fls = s.fls := rfl
@[simp] theorem State.onNmc_nmc (s : State) (f : Nmc → Nmc) : (s.onNmc f).nmc = f s.nmc := rfl
@[simp] theorem State.onNmc_dfb (s : State) (f : Nmc → Nmc) : (s.onNmc f).dfb = s.dfb := rfl
@[simp] theorem State.onNmc_stm (s : State) (f : Nmc → Nmc) : (s.onNmc f).stm = s.stm := rfl
@[simp] theorem State.onNmc_vsr (s : State) (f : Nmc → Nmc) : (s.onNmc f).vsr = s.vsr := rfl

@[simp] theorem State.onDfb_pending (s : State) (f : Dfb → Dfb) : (s.onDfb f).pending = s.pending := rfl
@[simp] theorem State.onDfb_now (s : State) (f : Dfb → Dfb) : (s.onDfb f).now = s.now := rfl
@[simp] theorem State.onDfb_freeCtr (s : State) (f : Dfb → Dfb) : (s.onDfb f).freeCtr = s.freeCtr := rfl
@[simp] theorem State.onDfb_out (s : State) (f : Dfb → Dfb) : (s.onDfb f).out = s.out := rfl
@[simp] theorem State.onDfb_mem (s : State) (f : Dfb → Dfb) : (s.onDfb f).mem = s.mem := rfl
@[simp] theorem State.onDfb_badSyms (s : State) (f : Dfb → Dfb) : (s.onDfb f).badSyms = s.badSyms := rfl
@[simp] theorem State.onDfb_poison (s : State) (f : Dfb → Dfb) : (s.onDfb f).poison = s.poison := rfl
@[simp] theorem State.onDfb_regs (s : State) (f : Dfb → Dfb) : (s.onDfb f).regs = s.regs := rfl
@[simp] theorem State.onDfb_latches (s : State) (f : Dfb → Dfb) : (s.onDfb f).latches = s.latches := rfl
@[simp] theorem State.onDfb_noticeAt (s : State) (f : Dfb → Dfb) : (s.onDfb f).noticeAt = s.noticeAt := rfl
@[simp] theorem State.onDfb_traceRings (s : State) (f : Dfb → Dfb) : (s.onDfb f).traceRings = s.traceRings := rfl
@[simp] theorem State.onDfb_arch (s : State) (f : Dfb → Dfb) : (s.onDfb f).arch = s.arch := rfl
@[simp] theorem State.onDfb_tlr (s : State) (f : Dfb → Dfb) : (s.onDfb f).tlr = s.tlr := rfl
@[simp] theorem State.onDfb_ssn (s : State) (f : Dfb → Dfb) : (s.onDfb f).ssn = s.ssn := rfl
@[simp] theorem State.onDfb_kva (s : State) (f : Dfb → Dfb) : (s.onDfb f).kva = s.kva := rfl
@[simp] theorem State.onDfb_sch (s : State) (f : Dfb → Dfb) : (s.onDfb f).sch = s.sch := rfl
@[simp] theorem State.onDfb_txt (s : State) (f : Dfb → Dfb) : (s.onDfb f).txt = s.txt := rfl
@[simp] theorem State.onDfb_lnk (s : State) (f : Dfb → Dfb) : (s.onDfb f).lnk = s.lnk := rfl
@[simp] theorem State.onDfb_sec (s : State) (f : Dfb → Dfb) : (s.onDfb f).sec = s.sec := rfl
@[simp] theorem State.onDfb_pwr (s : State) (f : Dfb → Dfb) : (s.onDfb f).pwr = s.pwr := rfl
@[simp] theorem State.onDfb_tim (s : State) (f : Dfb → Dfb) : (s.onDfb f).tim = s.tim := rfl
@[simp] theorem State.onDfb_frz (s : State) (f : Dfb → Dfb) : (s.onDfb f).frz = s.frz := rfl
@[simp] theorem State.onDfb_boot (s : State) (f : Dfb → Dfb) : (s.onDfb f).boot = s.boot := rfl
@[simp] theorem State.onDfb_fls (s : State) (f : Dfb → Dfb) : (s.onDfb f).fls = s.fls := rfl
@[simp] theorem State.onDfb_nmc (s : State) (f : Dfb → Dfb) : (s.onDfb f).nmc = s.nmc := rfl
@[simp] theorem State.onDfb_dfb (s : State) (f : Dfb → Dfb) : (s.onDfb f).dfb = f s.dfb := rfl
@[simp] theorem State.onDfb_stm (s : State) (f : Dfb → Dfb) : (s.onDfb f).stm = s.stm := rfl
@[simp] theorem State.onDfb_vsr (s : State) (f : Dfb → Dfb) : (s.onDfb f).vsr = s.vsr := rfl

@[simp] theorem State.onStm_pending (s : State) (f : Stm → Stm) : (s.onStm f).pending = s.pending := rfl
@[simp] theorem State.onStm_now (s : State) (f : Stm → Stm) : (s.onStm f).now = s.now := rfl
@[simp] theorem State.onStm_freeCtr (s : State) (f : Stm → Stm) : (s.onStm f).freeCtr = s.freeCtr := rfl
@[simp] theorem State.onStm_out (s : State) (f : Stm → Stm) : (s.onStm f).out = s.out := rfl
@[simp] theorem State.onStm_mem (s : State) (f : Stm → Stm) : (s.onStm f).mem = s.mem := rfl
@[simp] theorem State.onStm_badSyms (s : State) (f : Stm → Stm) : (s.onStm f).badSyms = s.badSyms := rfl
@[simp] theorem State.onStm_poison (s : State) (f : Stm → Stm) : (s.onStm f).poison = s.poison := rfl
@[simp] theorem State.onStm_regs (s : State) (f : Stm → Stm) : (s.onStm f).regs = s.regs := rfl
@[simp] theorem State.onStm_latches (s : State) (f : Stm → Stm) : (s.onStm f).latches = s.latches := rfl
@[simp] theorem State.onStm_noticeAt (s : State) (f : Stm → Stm) : (s.onStm f).noticeAt = s.noticeAt := rfl
@[simp] theorem State.onStm_traceRings (s : State) (f : Stm → Stm) : (s.onStm f).traceRings = s.traceRings := rfl
@[simp] theorem State.onStm_arch (s : State) (f : Stm → Stm) : (s.onStm f).arch = s.arch := rfl
@[simp] theorem State.onStm_tlr (s : State) (f : Stm → Stm) : (s.onStm f).tlr = s.tlr := rfl
@[simp] theorem State.onStm_ssn (s : State) (f : Stm → Stm) : (s.onStm f).ssn = s.ssn := rfl
@[simp] theorem State.onStm_kva (s : State) (f : Stm → Stm) : (s.onStm f).kva = s.kva := rfl
@[simp] theorem State.onStm_sch (s : State) (f : Stm → Stm) : (s.onStm f).sch = s.sch := rfl
@[simp] theorem State.onStm_txt (s : State) (f : Stm → Stm) : (s.onStm f).txt = s.txt := rfl
@[simp] theorem State.onStm_lnk (s : State) (f : Stm → Stm) : (s.onStm f).lnk = s.lnk := rfl
@[simp] theorem State.onStm_sec (s : State) (f : Stm → Stm) : (s.onStm f).sec = s.sec := rfl
@[simp] theorem State.onStm_pwr (s : State) (f : Stm → Stm) : (s.onStm f).pwr = s.pwr := rfl
@[simp] theorem State.onStm_tim (s : State) (f : Stm → Stm) : (s.onStm f).tim = s.tim := rfl
@[simp] theorem State.onStm_frz (s : State) (f : Stm → Stm) : (s.onStm f).frz = s.frz := rfl
@[simp] theorem State.onStm_boot (s : State) (f : Stm → Stm) : (s.onStm f).boot = s.boot := rfl
@[simp] theorem State.onStm_fls (s : State) (f : Stm → Stm) : (s.onStm f).fls = s.fls := rfl
@[simp] theorem State.onStm_nmc (s : State) (f : Stm → Stm) : (s.onStm f).nmc = s.nmc := rfl
@[simp] theorem State.onStm_dfb (s : State) (f : Stm → Stm) : (s.onStm f).dfb = s.dfb := rfl
@[simp] theorem State.onStm_stm (s : State) (f : Stm → Stm) : (s.onStm f).stm = f s.stm := rfl
@[simp] theorem State.onStm_vsr (s : State) (f : Stm → Stm) : (s.onStm f).vsr = s.vsr := rfl

@[simp] theorem State.onVsr_pending (s : State) (f : Vsr → Vsr) : (s.onVsr f).pending = s.pending := rfl
@[simp] theorem State.onVsr_now (s : State) (f : Vsr → Vsr) : (s.onVsr f).now = s.now := rfl
@[simp] theorem State.onVsr_freeCtr (s : State) (f : Vsr → Vsr) : (s.onVsr f).freeCtr = s.freeCtr := rfl
@[simp] theorem State.onVsr_out (s : State) (f : Vsr → Vsr) : (s.onVsr f).out = s.out := rfl
@[simp] theorem State.onVsr_mem (s : State) (f : Vsr → Vsr) : (s.onVsr f).mem = s.mem := rfl
@[simp] theorem State.onVsr_badSyms (s : State) (f : Vsr → Vsr) : (s.onVsr f).badSyms = s.badSyms := rfl
@[simp] theorem State.onVsr_poison (s : State) (f : Vsr → Vsr) : (s.onVsr f).poison = s.poison := rfl
@[simp] theorem State.onVsr_regs (s : State) (f : Vsr → Vsr) : (s.onVsr f).regs = s.regs := rfl
@[simp] theorem State.onVsr_latches (s : State) (f : Vsr → Vsr) : (s.onVsr f).latches = s.latches := rfl
@[simp] theorem State.onVsr_noticeAt (s : State) (f : Vsr → Vsr) : (s.onVsr f).noticeAt = s.noticeAt := rfl
@[simp] theorem State.onVsr_traceRings (s : State) (f : Vsr → Vsr) : (s.onVsr f).traceRings = s.traceRings := rfl
@[simp] theorem State.onVsr_arch (s : State) (f : Vsr → Vsr) : (s.onVsr f).arch = s.arch := rfl
@[simp] theorem State.onVsr_tlr (s : State) (f : Vsr → Vsr) : (s.onVsr f).tlr = s.tlr := rfl
@[simp] theorem State.onVsr_ssn (s : State) (f : Vsr → Vsr) : (s.onVsr f).ssn = s.ssn := rfl
@[simp] theorem State.onVsr_kva (s : State) (f : Vsr → Vsr) : (s.onVsr f).kva = s.kva := rfl
@[simp] theorem State.onVsr_sch (s : State) (f : Vsr → Vsr) : (s.onVsr f).sch = s.sch := rfl
@[simp] theorem State.onVsr_txt (s : State) (f : Vsr → Vsr) : (s.onVsr f).txt = s.txt := rfl
@[simp] theorem State.onVsr_lnk (s : State) (f : Vsr → Vsr) : (s.onVsr f).lnk = s.lnk := rfl
@[simp] theorem State.onVsr_sec (s : State) (f : Vsr → Vsr) : (s.onVsr f).sec = s.sec := rfl
@[simp] theorem State.onVsr_pwr (s : State) (f : Vsr → Vsr) : (s.onVsr f).pwr = s.pwr := rfl
@[simp] theorem State.onVsr_tim (s : State) (f : Vsr → Vsr) : (s.onVsr f).tim = s.tim := rfl
@[simp] theorem State.onVsr_frz (s : State) (f : Vsr → Vsr) : (s.onVsr f).frz = s.frz := rfl
@[simp] theorem State.onVsr_boot (s : State) (f : Vsr → Vsr) : (s.onVsr f).boot = s.boot := rfl
@[simp] theorem State.onVsr_fls (s : State) (f : Vsr → Vsr) : (s.onVsr f).fls = s.fls := rfl
@[simp] theorem State.onVsr_nmc (s : State) (f : Vsr → Vsr) : (s.onVsr f).nmc = s.nmc := rfl
@[simp] theorem State.onVsr_dfb (s : State) (f : Vsr → Vsr) : (s.onVsr f).dfb = s.dfb := rfl
@[simp] theorem State.onVsr_stm (s : State) (f : Vsr → Vsr) : (s.onVsr f).stm = s.stm := rfl
@[simp] theorem State.onVsr_vsr (s : State) (f : Vsr → Vsr) : (s.onVsr f).vsr = f s.vsr := rfl

@[simp] theorem State.onTim_pending (s : State) (f : Tim → Tim) : (s.onTim f).pending = s.pending := rfl
@[simp] theorem State.onTim_now (s : State) (f : Tim → Tim) : (s.onTim f).now = s.now := rfl
@[simp] theorem State.onTim_freeCtr (s : State) (f : Tim → Tim) : (s.onTim f).freeCtr = s.freeCtr := rfl
@[simp] theorem State.onTim_out (s : State) (f : Tim → Tim) : (s.onTim f).out = s.out := rfl
@[simp] theorem State.onTim_mem (s : State) (f : Tim → Tim) : (s.onTim f).mem = s.mem := rfl
@[simp] theorem State.onTim_badSyms (s : State) (f : Tim → Tim) : (s.onTim f).badSyms = s.badSyms := rfl
@[simp] theorem State.onTim_poison (s : State) (f : Tim → Tim) : (s.onTim f).poison = s.poison := rfl
@[simp] theorem State.onTim_regs (s : State) (f : Tim → Tim) : (s.onTim f).regs = s.regs := rfl
@[simp] theorem State.onTim_latches (s : State) (f : Tim → Tim) : (s.onTim f).latches = s.latches := rfl
@[simp] theorem State.onTim_noticeAt (s : State) (f : Tim → Tim) : (s.onTim f).noticeAt = s.noticeAt := rfl
@[simp] theorem State.onTim_traceRings (s : State) (f : Tim → Tim) : (s.onTim f).traceRings = s.traceRings := rfl
@[simp] theorem State.onTim_arch (s : State) (f : Tim → Tim) : (s.onTim f).arch = s.arch := rfl
@[simp] theorem State.onTim_tlr (s : State) (f : Tim → Tim) : (s.onTim f).tlr = s.tlr := rfl
@[simp] theorem State.onTim_ssn (s : State) (f : Tim → Tim) : (s.onTim f).ssn = s.ssn := rfl
@[simp] theorem State.onTim_kva (s : State) (f : Tim → Tim) : (s.onTim f).kva = s.kva := rfl
@[simp] theorem State.onTim_sch (s : State) (f : Tim → Tim) : (s.onTim f).sch = s.sch := rfl
@[simp] theorem State.onTim_txt (s : State) (f : Tim → Tim) : (s.onTim f).txt = s.txt := rfl
@[simp] theorem State.onTim_lnk (s : State) (f : Tim → Tim) : (s.onTim f).lnk = s.lnk := rfl
@[simp] theorem State.onTim_sec (s : State) (f : Tim → Tim) : (s.onTim f).sec = s.sec := rfl
@[simp] theorem State.onTim_pwr (s : State) (f : Tim → Tim) : (s.onTim f).pwr = s.pwr := rfl
@[simp] theorem State.onTim_tim (s : State) (f : Tim → Tim) : (s.onTim f).tim = f s.tim := rfl
@[simp] theorem State.onTim_frz (s : State) (f : Tim → Tim) : (s.onTim f).frz = s.frz := rfl
@[simp] theorem State.onTim_boot (s : State) (f : Tim → Tim) : (s.onTim f).boot = s.boot := rfl
@[simp] theorem State.onTim_fls (s : State) (f : Tim → Tim) : (s.onTim f).fls = s.fls := rfl
@[simp] theorem State.onTim_nmc (s : State) (f : Tim → Tim) : (s.onTim f).nmc = s.nmc := rfl
@[simp] theorem State.onTim_dfb (s : State) (f : Tim → Tim) : (s.onTim f).dfb = s.dfb := rfl
@[simp] theorem State.onTim_stm (s : State) (f : Tim → Tim) : (s.onTim f).stm = s.stm := rfl
@[simp] theorem State.onTim_vsr (s : State) (f : Tim → Tim) : (s.onTim f).vsr = s.vsr := rfl

@[simp] theorem State.onFrz_pending (s : State) (f : Frz → Frz) : (s.onFrz f).pending = s.pending := rfl
@[simp] theorem State.onFrz_now (s : State) (f : Frz → Frz) : (s.onFrz f).now = s.now := rfl
@[simp] theorem State.onFrz_freeCtr (s : State) (f : Frz → Frz) : (s.onFrz f).freeCtr = s.freeCtr := rfl
@[simp] theorem State.onFrz_out (s : State) (f : Frz → Frz) : (s.onFrz f).out = s.out := rfl
@[simp] theorem State.onFrz_mem (s : State) (f : Frz → Frz) : (s.onFrz f).mem = s.mem := rfl
@[simp] theorem State.onFrz_badSyms (s : State) (f : Frz → Frz) : (s.onFrz f).badSyms = s.badSyms := rfl
@[simp] theorem State.onFrz_poison (s : State) (f : Frz → Frz) : (s.onFrz f).poison = s.poison := rfl
@[simp] theorem State.onFrz_regs (s : State) (f : Frz → Frz) : (s.onFrz f).regs = s.regs := rfl
@[simp] theorem State.onFrz_latches (s : State) (f : Frz → Frz) : (s.onFrz f).latches = s.latches := rfl
@[simp] theorem State.onFrz_noticeAt (s : State) (f : Frz → Frz) : (s.onFrz f).noticeAt = s.noticeAt := rfl
@[simp] theorem State.onFrz_traceRings (s : State) (f : Frz → Frz) : (s.onFrz f).traceRings = s.traceRings := rfl
@[simp] theorem State.onFrz_arch (s : State) (f : Frz → Frz) : (s.onFrz f).arch = s.arch := rfl
@[simp] theorem State.onFrz_tlr (s : State) (f : Frz → Frz) : (s.onFrz f).tlr = s.tlr := rfl
@[simp] theorem State.onFrz_ssn (s : State) (f : Frz → Frz) : (s.onFrz f).ssn = s.ssn := rfl
@[simp] theorem State.onFrz_kva (s : State) (f : Frz → Frz) : (s.onFrz f).kva = s.kva := rfl
@[simp] theorem State.onFrz_sch (s : State) (f : Frz → Frz) : (s.onFrz f).sch = s.sch := rfl
@[simp] theorem State.onFrz_txt (s : State) (f : Frz → Frz) : (s.onFrz f).txt = s.txt := rfl
@[simp] theorem State.onFrz_lnk (s : State) (f : Frz → Frz) : (s.onFrz f).lnk = s.lnk := rfl
@[simp] theorem State.onFrz_sec (s : State) (f : Frz → Frz) : (s.onFrz f).sec = s.sec := rfl
@[simp] theorem State.onFrz_pwr (s : State) (f : Frz → Frz) : (s.onFrz f).pwr = s.pwr := rfl
@[simp] theorem State.onFrz_tim (s : State) (f : Frz → Frz) : (s.onFrz f).tim = s.tim := rfl
@[simp] theorem State.onFrz_frz (s : State) (f : Frz → Frz) : (s.onFrz f).frz = f s.frz := rfl
@[simp] theorem State.onFrz_boot (s : State) (f : Frz → Frz) : (s.onFrz f).boot = s.boot := rfl
@[simp] theorem State.onFrz_fls (s : State) (f : Frz → Frz) : (s.onFrz f).fls = s.fls := rfl
@[simp] theorem State.onFrz_nmc (s : State) (f : Frz → Frz) : (s.onFrz f).nmc = s.nmc := rfl
@[simp] theorem State.onFrz_dfb (s : State) (f : Frz → Frz) : (s.onFrz f).dfb = s.dfb := rfl
@[simp] theorem State.onFrz_stm (s : State) (f : Frz → Frz) : (s.onFrz f).stm = s.stm := rfl
@[simp] theorem State.onFrz_vsr (s : State) (f : Frz → Frz) : (s.onFrz f).vsr = s.vsr := rfl

@[simp] theorem State.raise_pending (s : State) (e : Evt) : (s.raise e).pending = s.pending := by
  unfold State.raise; dsimp only; split <;> rfl
@[simp] theorem State.raise_now (s : State) (e : Evt) : (s.raise e).now = s.now := by
  unfold State.raise; dsimp only; split <;> rfl
@[simp] theorem State.raise_freeCtr (s : State) (e : Evt) : (s.raise e).freeCtr = s.freeCtr := by
  unfold State.raise; dsimp only; split <;> rfl
@[simp] theorem State.raise_out (s : State) (e : Evt) : (s.raise e).out = s.out := by
  unfold State.raise; dsimp only; split <;> rfl
@[simp] theorem State.raise_mem (s : State) (e : Evt) : (s.raise e).mem = s.mem := by
  unfold State.raise; dsimp only; split <;> rfl
@[simp] theorem State.raise_badSyms (s : State) (e : Evt) : (s.raise e).badSyms = s.badSyms := by
  unfold State.raise; dsimp only; split <;> rfl
@[simp] theorem State.raise_poison (s : State) (e : Evt) : (s.raise e).poison = s.poison := by
  unfold State.raise; dsimp only; split <;> rfl
@[simp] theorem State.raise_noticeAt (s : State) (e : Evt) : (s.raise e).noticeAt = s.noticeAt := by
  unfold State.raise; dsimp only; split <;> rfl
@[simp] theorem State.raise_traceRings (s : State) (e : Evt) : (s.raise e).traceRings = s.traceRings := by
  unfold State.raise; dsimp only; split <;> rfl
@[simp] theorem State.raise_arch (s : State) (e : Evt) : (s.raise e).arch = s.arch := by
  unfold State.raise; dsimp only; split <;> rfl
@[simp] theorem State.raise_tlr (s : State) (e : Evt) : (s.raise e).tlr = s.tlr := by
  unfold State.raise; dsimp only; split <;> rfl
@[simp] theorem State.raise_ssn (s : State) (e : Evt) : (s.raise e).ssn = s.ssn := by
  unfold State.raise; dsimp only; split <;> rfl
@[simp] theorem State.raise_kva (s : State) (e : Evt) : (s.raise e).kva = s.kva := by
  unfold State.raise; dsimp only; split <;> rfl
@[simp] theorem State.raise_sch (s : State) (e : Evt) : (s.raise e).sch = s.sch := by
  unfold State.raise; dsimp only; split <;> rfl
@[simp] theorem State.raise_txt (s : State) (e : Evt) : (s.raise e).txt = s.txt := by
  unfold State.raise; dsimp only; split <;> rfl
@[simp] theorem State.raise_lnk (s : State) (e : Evt) : (s.raise e).lnk = s.lnk := by
  unfold State.raise; dsimp only; split <;> rfl
@[simp] theorem State.raise_sec (s : State) (e : Evt) : (s.raise e).sec = s.sec := by
  unfold State.raise; dsimp only; split <;> rfl
@[simp] theorem State.raise_pwr (s : State) (e : Evt) : (s.raise e).pwr = s.pwr := by
  unfold State.raise; dsimp only; split <;> rfl
@[simp] theorem State.raise_tim (s : State) (e : Evt) : (s.raise e).tim = s.tim := by
  unfold State.raise; dsimp only; split <;> rfl
@[simp] theorem State.raise_frz (s : State) (e : Evt) : (s.raise e).frz = s.frz := by
  unfold State.raise; dsimp only; split <;> rfl
@[simp] theorem State.raise_boot (s : State) (e : Evt) : (s.raise e).boot = s.boot := by
  unfold State.raise; dsimp only; split <;> rfl
@[simp] theorem State.raise_fls (s : State) (e : Evt) : (s.raise e).fls = s.fls := by
  unfold State.raise; dsimp only; split <;> rfl
@[simp] theorem State.raise_nmc (s : State) (e : Evt) : (s.raise e).nmc = s.nmc := by
  unfold State.raise; dsimp only; split <;> rfl
@[simp] theorem State.raise_dfb (s : State) (e : Evt) : (s.raise e).dfb = s.dfb := by
  unfold State.raise; dsimp only; split <;> rfl
@[simp] theorem State.raise_stm (s : State) (e : Evt) : (s.raise e).stm = s.stm := by
  unfold State.raise; dsimp only; split <;> rfl
@[simp] theorem State.raise_vsr (s : State) (e : Evt) : (s.raise e).vsr = s.vsr := by
  unfold State.raise; dsimp only; split <;> rfl

/-- `State.raise` sets the event bit in its register. -/
theorem State.raise_regs (s : State) (e : Evt) :
    (s.raise e).regs = s.regs.put (e.reg, 0) (s.rd e.reg 0 ||| BitVec.ofNat 64 (2 ^ e.bit)) := by
  unfold State.raise; dsimp only; split <;> rfl

/-! ### Registers -/

/-- A register just written reads as the value written. -/
@[simp] theorem State.rd_wr_same (s : State) (r : Reg) (i : Nat) (v : Word) : (s.wr r i v).rd r i = v := by
  simp [State.rd]

/-- A write leaves every other register alone. -/
theorem State.rd_wr_ne (s : State) {r q : Reg} {i j : Nat} (v : Word) (h : (q, j) ≠ (r, i)) : (s.wr r i v).rd q j = s.rd q j := by
  simp [State.rd, Tbl.look_put_ne _ v h]

/-- A register reads the same in two states whose registers are the same. -/
theorem State.rd_congr {s t : State} (h : t.regs = s.regs) (r : Reg) (i : Nat) : t.rd r i = s.rd r i := by simp [State.rd, h]

/-- A field reads the same in two states whose registers are the same. -/
theorem State.fld_congr {s t : State} (h : t.regs = s.regs) (f : Fld) (i : Nat) : t.fld f i = s.fld f i := by
  simp [State.fld, State.rd_congr h]

/-- An event bit that has been raised. -/
theorem State.rd_raise_same (s : State) (e : Evt) : (s.raise e).rd e.reg 0 = s.rd e.reg 0 ||| BitVec.ofNat 64 (2 ^ e.bit) := by
  simp [State.rd, State.raise_regs]

/-- Raising an event leaves every other register alone. -/
theorem State.rd_raise_ne (s : State) (e : Evt) {q : Reg} {j : Nat} (h : (q, j) ≠ (e.reg, 0)) : (s.raise e).rd q j = s.rd q j := by
  simp [State.rd, State.raise_regs, Tbl.look_put_ne _ _ h]

/-- A W1C write clears the bits written as 1 and leaves the others. -/
theorem State.rd_w1c (s : State) (r : Reg) (v : Word) : (s.w1c r v).rd r 0 = s.rd r 0 &&& ~~~v := by simp [State.w1c]

/-- A counter register counts modulo 2^64. -/
theorem State.rd_count (s : State) (r : Reg) (i n : Nat) : (s.count r i n).rd r i = s.rd r i + BitVec.ofNat 64 n := by simp [State.count]

/-! ### Clerks -/

/-- The clerk just replaced. -/
@[simp] theorem State.clerk_setClerk_same (s : State) (c : Nat) (cl : Clerk) : (s.setClerk c cl).clerk c = cl := by
  simp [State.clerk]

/-- The other clerks stay as they are. -/
theorem State.clerk_setClerk_ne (s : State) {c d : Nat} (cl : Clerk) (h : d ≠ c) : (s.setClerk c cl).clerk d = s.clerk d := by
  simp [State.clerk, Tbl.lookD_put_ne _ _ _ h]

/-! ### A frozen module -/

/-- A clocked event does nothing while the module is frozen, and has its effect otherwise (R375). -/
theorem State.whenLive_eq (s t : State) : s.whenLive t = .next (if s.frz.frozen then s else t) := rfl

end Sys2Proof.Machine
end

