-- ==== Sys2Proof/Laws/Clerk.lean ====
section
/-! SUPPORT. What the shared operations on clerks do: what a signal's service, a handle's release and a dropped Statement leave alone, the end of a
run, traps, completions and the issue of an instruction. -/

namespace Sys2Proof.Machine

/-! ### What keeps a run -/

/-- From `s` to `t` every clerk keeps its run and HANDLER, the trap records stay, and so do the images, the time and the messages sent. -/
def RunsKept (s t : State) : Prop :=
  (∀ d, (t.clerk d).run = (s.clerk d).run ∧ (t.clerk d).handler = (s.clerk d).handler) ∧ (∀ i, t.rd .tlrClkTrap i = s.rd .tlrClkTrap i) ∧
  (∀ i, t.rd .tlrClkTrapAddr i = s.rd .tlrClkTrapAddr i) ∧ t.tlr.images = s.tlr.images ∧ t.now = s.now ∧ t.out = s.out ∧
  t.mem = s.mem ∧ t.frz = s.frz

/-- Nothing done keeps every run. -/
theorem RunsKept.refl (s : State) : RunsKept s s := ⟨fun _ => ⟨rfl, rfl⟩, fun _ => rfl, fun _ => rfl, rfl, rfl, rfl, rfl, rfl⟩

/-- Runs kept twice are kept. -/
theorem RunsKept.trans {s t u : State} (h : RunsKept s t) (k : RunsKept t u) : RunsKept s u := by
  obtain ⟨a, b, c, d, e, f, g, i⟩ := h
  obtain ⟨a', b', c', d', e', f', g', i'⟩ := k
  exact ⟨fun x => ⟨(a' x).1.trans (a x).1, (a' x).2.trans (a x).2⟩, fun x => (b' x).trans (b x), fun x => (c' x).trans (c x), d'.trans d, e'.trans e, f'.trans f,
    g'.trans g, i'.trans i⟩

/-- A fold of operations that each keep every run keeps every run. -/
theorem RunsKept.fold {α : Type} (l : List α) (f : State → α → State) (h : ∀ s x, RunsKept s (f s x)) (s : State) :
    RunsKept s (l.foldl f s) := by
  induction l generalizing s with
  | nil => exact .refl s
  | cons x l ih => exact (h s x).trans (ih _)

/-- A clerk replaced by one with the same run. -/
theorem RunsKept.setClerk (s : State) (c : Nat) (cl : Clerk) (h : cl.run = (s.clerk c).run ∧ cl.handler = (s.clerk c).handler) :
    RunsKept s (s.setClerk c cl) := by
  refine ⟨fun d => ?_, fun _ => rfl, fun _ => rfl, rfl, rfl, rfl, rfl, rfl⟩
  by_cases e : d = c
  · subst e; simp [h]
  · simp [State.clerk_setClerk_ne _ _ e]

/-- A register of another name written. -/
theorem RunsKept.wr (s : State) (r : Reg) (i : Nat) (v : Word) (h : r ≠ .tlrClkTrap) (h' : r ≠ .tlrClkTrapAddr) : RunsKept s (s.wr r i v) :=
  ⟨fun _ => ⟨rfl, rfl⟩, fun j => State.rd_wr_ne _ _ (by simp [Ne.symm h]), fun j => State.rd_wr_ne _ _ (by simp [Ne.symm h']), rfl, rfl, rfl, rfl, rfl⟩

/-- A signal changed. -/
theorem RunsKept.updSignal (s : State) (i : Nat) (f : Signal → Signal) : RunsKept s (s.updSignal i f) :=
  ⟨fun _ => ⟨rfl, rfl⟩, fun _ => rfl, fun _ => rfl, rfl, rfl, rfl, rfl, rfl⟩

/-- A session changed. -/
theorem RunsKept.updSession (s : State) (i : Nat) (f : Session → Session) : RunsKept s (s.updSession i f) :=
  ⟨fun _ => ⟨rfl, rfl⟩, fun _ => rfl, fun _ => rfl, rfl, rfl, rfl, rfl, rfl⟩

/-- A job changed. -/
theorem RunsKept.updJob (s : State) (j : Nat) (f : StmJob → StmJob) : RunsKept s (s.updJob j f) :=
  ⟨fun _ => ⟨rfl, rfl⟩, fun _ => rfl, fun _ => rfl, rfl, rfl, rfl, rfl, rfl⟩

/-- A handle held. -/
theorem State.holdHandle_kept (s : State) (h : Handle) : RunsKept s (s.holdHandle h) := by
  unfold State.holdHandle
  split
  · exact .updSignal ..
  · split
    · exact .updSession ..
    · exact .refl s

/-- A handle released. -/
theorem State.releaseHandle_kept (s : State) (h : Handle) : RunsKept s (s.releaseHandle h) := by
  unfold State.releaseHandle
  split
  · exact .updSignal ..
  · split
    · exact .updSession ..
    · exact .refl s

/-- A handle register written. -/
theorem State.setHandle_kept (s : State) (c i : Nat) (h : Handle) : RunsKept s (s.setHandle c i h) := by
  refine ((s.holdHandle_kept h).trans (State.releaseHandle_kept _ ((s.clerk c).h i))).trans ?_
  exact RunsKept.setClerk _ _ _ ⟨rfl, rfl⟩

/-- A handle register written on clerk `c` leaves every other field of the clerk. -/
theorem State.setHandle_clerk (s : State) (c i : Nat) (h : Handle) :
    (s.setHandle c i h).clerk c = { s.clerk c with hreg := ((s.setHandle c i h).clerk c).hreg } := by
  have e : ((s.holdHandle h).releaseHandle ((s.clerk c).h i)).clerk c = s.clerk c := by
    unfold State.releaseHandle State.holdHandle
    repeat' split
    all_goals rfl
  have k : ∀ (u : State) (v : Clerk) (n : Nat),
      State.clerk { u.setClerk c v with tlr := { (u.setClerk c v).tlr with handleCtr := n } } c = v :=
    fun u v n => State.clerk_setClerk_same u c v
  unfold State.setHandle
  simp only [k, e]

/-- Handles held or released leave the clerks alone. -/
theorem State.swapHandle_clerk (s : State) (h old : Handle) (d : Nat) : ((s.holdHandle h).releaseHandle old).clerk d = s.clerk d := by
  unfold State.releaseHandle State.holdHandle
  repeat' split
  all_goals rfl

/-- A handle register reads as the handle just written. -/
theorem State.setHandle_h (s : State) (c i : Nat) (h : Handle) : ((s.setHandle c i h).clerk c).h i = h := by
  have k : ∀ (u : State) (v : Clerk) (n : Nat),
      State.clerk { u.setClerk c v with tlr := { (u.setClerk c v).tlr with handleCtr := n } } c = v :=
    fun u v n => State.clerk_setClerk_same u c v
  unfold State.setHandle
  simp only [k, Clerk.h]
  split
  · rename_i e
    simp [Tbl.lookD, e]
  · simp

/-- A handle register written on one clerk leaves the other clerks alone. -/
theorem State.setHandle_other (s : State) (c i : Nat) (h : Handle) {d : Nat} (hd : d ≠ c) : (s.setHandle c i h).clerk d = s.clerk d := by
  have k : ∀ (u : State) (v : Clerk) (n : Nat),
      State.clerk { u.setClerk c v with tlr := { (u.setClerk c v).tlr with handleCtr := n } } d = u.clerk d :=
    fun u v n => State.clerk_setClerk_ne u v hd
  unfold State.setHandle
  simp only [k, State.swapHandle_clerk]

/-- Waiters served. -/
theorem serveSignal_kept (ix n : Nat) (s : State) : RunsKept s (serveSignal ix n s) := by
  induction n generalizing s with
  | zero => exact .refl s
  | succ n ih =>
    unfold serveSignal
    split
    · exact .refl s
    · split
      · exact .refl s
      · split
        · exact .refl s
        · refine .trans ?_ (ih _)
          refine .trans ?_ (.updSignal ..)
          apply RunsKept.setClerk
          simp only [Clerk.setP]
          split <;> exact ⟨rfl, rfl⟩

/-- A clerk taken out of the signals' queues. -/
theorem State.leaveSignals_kept (s : State) (c : Nat) : RunsKept s (s.leaveSignals c) := by
  unfold State.leaveSignals
  split
  · exact (RunsKept.updSignal ..).trans (serveSignal_kept ..)
  · exact .refl s

/-- A job's registers published. -/
theorem State.publishJob_kept (s : State) (j : Nat) : RunsKept s (s.publishJob j) := by
  unfold State.publishJob
  split
  · exact .refl s
  · exact (RunsKept.wr _ _ _ _ (by decide) (by decide)).trans (.wr _ _ _ _ (by decide) (by decide))

/-- An open Statement dropped. -/
theorem State.dropStatement_kept (s : State) (j : Nat) : RunsKept s (s.dropStatement j) := by
  unfold State.dropStatement
  split
  · exact .refl s
  · dsimp only
    split
    · split
      · exact .refl s
      · exact (RunsKept.updJob ..).trans (State.publishJob_kept ..)
    · split
      · exact .refl s
      · exact (RunsKept.updJob ..).trans (State.publishJob_kept ..)

/-- A run's Statements dropped. -/
theorem State.dropOpened_kept (s : State) (c t : Nat) : RunsKept s (s.dropOpened c t) :=
  .fold _ _ (fun s j => s.dropStatement_kept j) s

/-! ### Draining -/

/-- Clerk `c` drains a run whose tag and pending completion record are `p`, and the trap records are those of `s`. -/
def Draining (c : Nat) (p : Option (Word × Option RunRec)) (s t : State) : Prop :=
  (t.clerk c).st = .draining ∧ (t.clerk c).run.map (fun r => (r.tag, r.ending)) = p ∧
  (∀ i, t.rd .tlrClkTrap i = s.rd .tlrClkTrap i) ∧ (∀ i, t.rd .tlrClkTrapAddr i = s.rd .tlrClkTrapAddr i)

/-- A signal without a handle freed leaves a draining clerk draining. -/
theorem State.freeUnheldSignal_kept (s : State) (h : Handle) : RunsKept s (s.freeUnheldSignal h) := by
  unfold State.freeUnheldSignal
  split
  · exact .updSignal ..
  · split
    · exact .updSession ..
    · exact .refl s

/-- The same clerks stand after a signal without a handle is freed. -/
theorem State.freeUnheldSignal_clerk (s : State) (h : Handle) (d : Nat) : (s.freeUnheldSignal h).clerk d = s.clerk d := by
  unfold State.freeUnheldSignal
  split
  · rfl
  · split <;> rfl

/-- A Receipt consumed on behalf of a draining clerk leaves it draining (R49). -/
theorem Draining.orphan {c : Nat} {p : Option (Word × Option RunRec)} {s t : State} (h : Draining c p s t) (k : Nat) :
    Draining c p s (t.orphanSlot c k) := by
  obtain ⟨h1, h2, h3, h4⟩ := h
  have e1 : ∀ (u : State) (r : Reg) (i n : Nat), r ≠ .tlrClkTrap → r ≠ .tlrClkTrapAddr →
      (∀ j, (u.count r i n).rd .tlrClkTrap j = u.rd .tlrClkTrap j) ∧ (∀ j, (u.count r i n).rd .tlrClkTrapAddr j = u.rd .tlrClkTrapAddr j) :=
    fun u r i n a b => ⟨fun j => State.rd_wr_ne _ _ (by simp [Ne.symm a]), fun j => State.rd_wr_ne _ _ (by simp [Ne.symm b])⟩
  have key : Draining c p s (((t.consumeSlot c k).count .tlrClkOrphan c 1).setClerk c
      { (((t.consumeSlot c k).count .tlrClkOrphan c 1).clerk c) with
        run := (((t.consumeSlot c k).count .tlrClkOrphan c 1).clerk c).run.map (fun r => { r with orphans := r.orphans + 1 }) }) := by
    have ec : ((t.consumeSlot c k).count .tlrClkOrphan c 1).clerk c = ((t.clerk c).setSlot k
        { (t.clerk c).slot k with occupied := false, complete := false, openH := none, via := [], result := none, cancel := none }) := by
      show ((State.setClerk _ _ _).clerk c) = _
      simp
    refine ⟨?_, ?_, fun i => ?_, fun i => ?_⟩
    · rw [State.clerk_setClerk_same, ec]; exact h1
    · rw [State.clerk_setClerk_same, ec, ← h2]
      show Option.map _ (Option.map _ (t.clerk c).run) = _
      cases (t.clerk c).run <;> rfl
    · show ((t.consumeSlot c k).count .tlrClkOrphan c 1).rd _ _ = _
      rw [(e1 _ _ _ _ (by decide) (by decide)).1]
      show (State.count _ .tlrClkRcptCon c 1).rd _ _ = _
      rw [(e1 _ _ _ _ (by decide) (by decide)).1]
      exact h3 i
    · show ((t.consumeSlot c k).count .tlrClkOrphan c 1).rd _ _ = _
      rw [(e1 _ _ _ _ (by decide) (by decide)).2]
      show (State.count _ .tlrClkRcptCon c 1).rd _ _ = _
      rw [(e1 _ _ _ _ (by decide) (by decide)).2]
      exact h4 i
  unfold State.orphanSlot
  dsimp only
  split
  · rename_i i hh e
    have k := State.freeUnheldSignal_kept (((t.consumeSlot c k).count .tlrClkOrphan c 1).setClerk c
      { (((t.consumeSlot c k).count .tlrClkOrphan c 1).clerk c) with
        run := (((t.consumeSlot c k).count .tlrClkOrphan c 1).clerk c).run.map (fun r => { r with orphans := r.orphans + 1 }) }) hh
    refine ⟨?_, ?_, fun i => (k.2.1 i).trans (key.2.2.1 i), fun i => (k.2.2.1 i).trans (key.2.2.2 i)⟩
    · rw [State.freeUnheldSignal_clerk]; exact key.1
    · rw [State.freeUnheldSignal_clerk]; exact key.2.1
  · exact key

/-- A cancellation sent after a draining clerk's operation leaves it draining. -/
theorem Draining.cancel {c : Nat} {p : Option (Word × Option RunRec)} {s t : State} (h : Draining c p s t) (k cause : Nat) :
    Draining c p s (t.postCancel c k cause) := by
  unfold State.postCancel
  dsimp only
  split
  · exact ⟨by rw [State.clerk_setClerk_same]; exact h.1, by rw [State.clerk_setClerk_same]; exact h.2.1, h.2.2.1, h.2.2.2⟩
  · exact h

/-- The end of a run (R49, R51): the clerk drains, its completion record stands as given, and the trap records stay. -/
theorem State.endRun_draining (s : State) (c : Nat) (rec : RunRec) (r : Run) (h : (s.clerk c).run = some r) :
    Draining c (some (r.tag, some rec)) s (s.endRun c rec) := by
  unfold State.endRun
  simp only [h]
  generalize hg : (List.foldl _ s (List.range 8)) = s1
  have k1 : RunsKept s s1 := by
    rw [← hg]
    refine RunsKept.fold _ _ (fun s i => ?_) s
    split
    · exact .refl s
    · exact s.setHandle_kept c i 0
  have k2 : RunsKept s ((s1.leaveSignals c).dropOpened c r.startedAt) :=
    (k1.trans (s1.leaveSignals_kept c)).trans (State.dropOpened_kept ..)
  generalize hg2 : (s1.leaveSignals c).dropOpened c r.startedAt = s2 at k2
  have base : Draining c (some (r.tag, some rec)) s (s2.setClerk c { s2.clerk c with st := .draining, waitFor := none, waitUntil := none, stall := none, run := some { r with ending := some rec, deadline := none, grace := none } }) := by
    refine ⟨by simp, by simp, fun i => ?_, fun i => ?_⟩
    · exact k2.2.1 i
    · exact k2.2.2.1 i
  generalize hg3 : s2.setClerk c _ = s3 at base
  have fold : ∀ (l : List Nat) (t : State), Draining c (some (r.tag, some rec)) s t →
      Draining c (some (r.tag, some rec)) s (l.foldl (fun s k => if ((s.clerk c).slot k).complete then s.orphanSlot c k else s.postCancel c k 3) t) := by
    intro l
    induction l with
    | nil => exact fun t h => h
    | cons k l ih =>
      intro t ht
      refine ih _ ?_
      dsimp only
      split
      · exact ht.orphan k
      · exact ht.cancel k 3
  simpa [hg3] using fold (s3.clerk c).busySlots s3 base

/-! ### Traps (R55, R56) -/

/-- A trace record leaves the clerks, every register but the trace counter and its event, and the images alone. -/
theorem State.trace_kept (s : State) (h src ctx : Nat) (v : Bool) (i x : Nat) :
    (∀ d, (s.trace h src ctx v i x).clerk d = s.clerk d) ∧ (s.trace h src ctx v i x).tlr = s.tlr ∧
    (∀ j, (s.trace h src ctx v i x).rd .tlrClkTrap j = s.rd .tlrClkTrap j) ∧
    (∀ j, (s.trace h src ctx v i x).rd .tlrClkTrapAddr j = s.rd .tlrClkTrapAddr j) := by
  unfold State.trace
  dsimp only
  split
  · split
    · exact ⟨fun _ => rfl, rfl, fun _ => rfl, fun _ => rfl⟩
    · refine ⟨fun d => ?_, ?_, fun j => ?_, fun j => ?_⟩
      · simp [State.clerk, State.countSat]
      · simp
      · rw [State.rd_raise_ne _ _ (by simp [Evt.dbg_traceDrop])]
        exact State.rd_wr_ne _ _ (by simp)
      · rw [State.rd_raise_ne _ _ (by simp [Evt.dbg_traceDrop])]
        exact State.rd_wr_ne _ _ (by simp)
  · exact ⟨fun _ => rfl, rfl, fun _ => rfl, fun _ => rfl⟩

/-- The trap record holds the class, the code and the pc, and the address for the classes that have one (R55). -/
theorem State.trapRecord_rd (s : State) (c : Nat) (cls : TrapClass) (code : Nat) (pc addr : Word) :
    (s.trapRecord c cls code pc addr).rd .tlrClkTrap c =
      BitVec.ofNat 64 (cls.code + code % 2 ^ 16 * 2 ^ 8 + pc.toNat % 2 ^ 40 * 2 ^ 24) ∧
    (s.trapRecord c cls code pc addr).rd .tlrClkTrapAddr c = (if cls.hasAddr then addr else 0) := by
  constructor
  · unfold State.trapRecord
    rw [State.rd_wr_ne _ _ (by simp), State.rd_wr_same]
  · unfold State.trapRecord
    rw [State.rd_wr_same]

/-- A trap that the trap entry does not take, or that arises in the handler, ends the run with CAUSE 1, or 2 for a WATCHDOG (R56). -/
theorem State.trap_ends (s : State) (c : Nat) (cls : TrapClass) (code : Nat) (pc addr : Word) (r : Run) (img : Image)
    (h : (s.clerk c).run = some r) (hi : s.tlr.images.look r.slot = some img)
    (hn : (cls.entryTakes && img.trapEntry && !(s.clerk c).handler) = false) :
    Draining c (some (r.tag, some (RunRec.mk r.tag 0 (if cls = .watchdog then 2 else 1) cls.code (code % 2 ^ 16) 0 pc)))
      (s.trapRecord c cls code pc addr) (s.trap c cls code pc addr) := by
  have e : (s.trapRecord c cls code pc addr).clerk c = s.clerk c := rfl
  have k := State.trace_kept (s.trapRecord c cls code pc addr) (hubOfClerk c) 1 r.ctx true c (cls.code + code % 2 ^ 16 * 2 ^ 8)
  unfold State.trap
  simp only [e, h]
  have hi' : ((s.trapRecord c cls code pc addr).trace (hubOfClerk c) 1 r.ctx true c (cls.code + code % 2 ^ 16 * 2 ^ 8)).tlr.images.look r.slot =
      some img := by rw [k.2.1]; exact hi
  simp only [hi', hn]
  have d := State.endRun_draining ((s.trapRecord c cls code pc addr).trace (hubOfClerk c) 1 r.ctx true c (cls.code + code % 2 ^ 16 * 2 ^ 8)) c
    (RunRec.mk r.tag 0 (if cls = .watchdog then 2 else 1) cls.code (code % 2 ^ 16) 0 pc) r (by rw [k.1, e, h])
  exact ⟨d.1, d.2.1, fun i => (d.2.2.1 i).trans (k.2.2.1 i), fun i => (d.2.2.2 i).trans (k.2.2.2 i)⟩

/-- A trap that the image's trap entry takes: the handler starts with the class, the code, the pc and the address in s1 to s4 (R56). -/
theorem State.trap_enters (s : State) (c : Nat) (cls : TrapClass) (code : Nat) (pc addr : Word) (r : Run) (img : Image)
    (h : (s.clerk c).run = some r) (hi : s.tlr.images.look r.slot = some img)
    (hn : (cls.entryTakes && img.trapEntry && !(s.clerk c).handler) = true) :
    ((s.trap c cls code pc addr).clerk c).st = .ready ∧ ((s.trap c cls code pc addr).clerk c).handler = true ∧
    ((s.trap c cls code pc addr).clerk c).pc = BitVec.ofNat 64 (img.entries.getD 15 0) ∧
    ((s.trap c cls code pc addr).clerk c).s 1 = BitVec.ofNat 64 cls.code ∧ ((s.trap c cls code pc addr).clerk c).s 2 = BitVec.ofNat 64 code ∧
    ((s.trap c cls code pc addr).clerk c).s 3 = pc ∧ ((s.trap c cls code pc addr).clerk c).s 4 = (if cls.hasAddr then addr else 0) ∧
    (∀ i, (s.trap c cls code pc addr).rd .tlrClkTrap i = (s.trapRecord c cls code pc addr).rd .tlrClkTrap i) ∧
    (∀ i, (s.trap c cls code pc addr).rd .tlrClkTrapAddr i = (s.trapRecord c cls code pc addr).rd .tlrClkTrapAddr i) := by
  have e : (s.trapRecord c cls code pc addr).clerk c = s.clerk c := rfl
  have k := State.trace_kept (s.trapRecord c cls code pc addr) (hubOfClerk c) 1 r.ctx true c (cls.code + code % 2 ^ 16 * 2 ^ 8)
  have hi' : ((s.trapRecord c cls code pc addr).trace (hubOfClerk c) 1 r.ctx true c (cls.code + code % 2 ^ 16 * 2 ^ 8)).tlr.images.look r.slot =
      some img := by rw [k.2.1]; exact hi
  unfold State.trap
  simp only [e, h, hi', hn, if_true]
  simp only [State.clerk_setClerk_same]
  refine ⟨rfl, rfl, rfl, ?_, ?_, ?_, ?_, fun i => k.2.2.1 i, fun i => k.2.2.2 i⟩ <;>
  simp [Clerk.s, Clerk.setS, Tbl.lookD_put_ne]

/-! ### Issue and Receipts (R46 to R49, R209) -/

/-- A word that issues with a true guard is carried out. -/
theorem State.onWord_issues {s : State} {c : Nat} {ix : Ix} {p : Ix → Bool} (h : Issues s c ix p) (k : Ix → State) : s.onWord c p k = k ix := by
  obtain ⟨h1, h2, h3, h4⟩ := h
  simp [State.onWord, h1, h2, h3, h4]

/-- A word whose guard is false is skipped: only the pc moves (R37). -/
theorem State.onWord_skips {s : State} {c : Nat} {ix : Ix} {p : Ix → Bool} (k : Ix → State) (h1 : s.issuer c = some ix) (h2 : ix.legal = true)
    (h3 : p ix = true) (h4 : ix.guard = false) : s.onWord c p k = s.advance c := by simp [State.onWord, h1, h2, h3, h4]

/-- What a clerk that can issue sees: its own registers, its run, and the image of the run. -/
theorem State.issuer_eq {s : State} {c : Nat} {ix : Ix} (h : s.issuer c = some ix) :
    ix.c = c ∧ ix.cl = s.clerk c ∧ (s.clerk c).run = some ix.run ∧ s.tlr.images.look ix.run.slot = some ix.img ∧
    ix.w = ix.img.wordAt (s.clerk c).pc ∧ (s.clerk c).st = .ready ∧ s.frz.frozen = false ∧ s.flushing = false := by
  unfold State.issuer at h
  dsimp only at h
  split at h
  · rename_i hg
    split at h
    · cases h
    · rename_i r hr
      split at h
      · cases h
      · rename_i img hi
        cases h
        simp only [Bool.and_eq_true, decide_eq_true_eq, Bool.not_eq_true'] at hg
        exact ⟨rfl, rfl, hr, hi, rfl, hg.1.1.1.1.1, hg.1.1.2, hg.1.2⟩
  · cases h

/-- A long instruction that finds a free slot goes on with its operation from the state after issue (R209). -/
theorem State.issueLong_eq {s : State} {ix : Ix} {n : Nat} (kind : OpKind) (hs : List Nat) (k : Op → State → State)
    (h : pickFree s.freeCtr ix.cl.freeSlots = some n) :
    s.issueLong ix kind hs k = k ⟨ix, ⟨ix.c, n, ix.nextSerial n⟩⟩ (s.issued ix kind hs n) := by
  simp only [State.issueLong, h]
  rfl

/-- Issue changes the clerk, the count of issues and the free-value counter, and nothing else. -/
theorem State.issued_eq (s : State) (ix : Ix) (kind : OpKind) (hs : List Nat) (n : Nat) :
    s.issued ix kind hs n = { s with freeCtr := s.freeCtr + 1, regs := (s.issued ix kind hs n).regs,
                                     tlr := { s.tlr with clerks := (s.issued ix kind hs n).tlr.clerks } } := rfl

/-- The issuing clerk after issue. -/
theorem State.issued_clerk (s : State) (ix : Ix) (kind : OpKind) (hs : List Nat) (n : Nat) :
    ReceiptTaken ix.c ix n (s.issued ix kind hs n) ∧ ((s.issued ix kind hs n).clerk ix.c).st = ix.cl.st ∧
    (∀ i, ((s.issued ix kind hs n).clerk ix.c).h i = ix.cl.h i) ∧ ((s.issued ix kind hs n).clerk ix.c).hreg = ix.cl.hreg ∧
    ((s.issued ix kind hs n).clerk ix.c).run = ix.cl.run := by
  have e : ∀ (u : State) (r : Reg) (i m d : Nat), (u.count r i m).clerk d = u.clerk d := fun _ _ _ _ _ => rfl
  have sl : ∀ (cl : Clerk) (k : Nat) (v : Slot) (rd : Nat) (w : Word), ((cl.setSlot k v).setS rd w).slot k = v := by
    intro cl k v rd w
    unfold Clerk.setS
    split <;> simp [Clerk.slot, Clerk.setSlot]
  have ss : ∀ (cl : Clerk) (rd : Nat) (w : Word), rd ≠ 0 → (cl.setS rd w).s rd = w := by
    intro cl rd w h; simp [Clerk.s, Clerk.setS, h]
  have rest : ∀ (cl : Clerk) (rd : Nat) (w : Word), cl.setS rd w = { cl with sreg := (cl.setS rd w).sreg } := by
    intro cl rd w; unfold Clerk.setS; split <;> rfl
  unfold State.issued ReceiptTaken
  simp only [e, State.clerk_setClerk_same]
  refine ⟨⟨?_, ?_, ?_, ?_⟩, ?_, ?_, ?_, ?_⟩
  · exact congrArg Slot.occupied (sl ..)
  · exact congrArg Slot.serial (sl ..)
  · exact fun h => ss _ _ _ h
  · rw [rest]; rfl
  · rw [rest]; rfl
  · intro i; rw [rest]; rfl
  · rw [rest]; rfl
  · rw [rest]; rfl

/-- Issue leaves the other clerks alone. -/
theorem State.issued_other (s : State) (ix : Ix) (kind : OpKind) (hs : List Nat) (n : Nat) {d : Nat} (h : d ≠ ix.c) :
    (s.issued ix kind hs n).clerk d = s.clerk d := by
  show (State.setClerk _ _ _).clerk d = _
  rw [State.clerk_setClerk_ne _ _ h]
  rfl

/-- Issue leaves every register but the count of issues alone. -/
theorem State.issued_rd (s : State) (ix : Ix) (kind : OpKind) (hs : List Nat) (n : Nat) {r : Reg} (i : Nat) (h : r ≠ .tlrClkRcptIss) :
    (s.issued ix kind hs n).rd r i = s.rd r i := State.rd_wr_ne _ _ (by simp [h])

/-- An operation's own result stands in its slot, and the clerk is otherwise as before. -/
theorem State.finish_spec {u : State} {o : Op} (st : Status) (aux : Nat) (w1 : Word)
    (h1 : ((u.clerk o.r.clerk).slot o.r.slot).occupied = true) (h2 : ((u.clerk o.r.clerk).slot o.r.slot).serial = o.r.serial) :
    (u.finish o st aux w1).slotResult o.r.clerk o.r.slot = some (word0 st aux, w1) ∧
    u.finish o st aux w1 = u.setClerk o.r.clerk ((u.clerk o.r.clerk).setSlot o.r.slot
      { (u.clerk o.r.clerk).slot o.r.slot with result := some (word0 st aux, w1) }) := by
  have e : u.finish o st aux w1 = u.setClerk o.r.clerk ((u.clerk o.r.clerk).setSlot o.r.slot
      { (u.clerk o.r.clerk).slot o.r.slot with result := some (word0 st aux, w1) }) := by
    simp [State.finish, State.finishR, State.postResult, h1, h2]
  refine ⟨?_, e⟩
  rw [e]
  simp [State.slotResult, Clerk.slot, Clerk.setSlot]

/-- A Receipt taken stays taken when its operation's result is posted. -/
theorem State.finish_taken {u : State} {o : Op} {c n : Nat} {ix : Ix} (st : Status) (aux : Nat) (w1 : Word) (hc : o.r.clerk = c) (hn : o.r.slot = n)
    (hs : o.r.serial = ix.nextSerial n) (h : ReceiptTaken c ix n u) :
    ReceiptTaken c ix n (u.finish o st aux w1) ∧ (u.finish o st aux w1).slotResult c n = some (word0 st aux, w1) := by
  subst hc hn
  have k := State.finish_spec (u := u) (o := o) st aux w1 h.1 (h.2.1.trans hs.symm)
  refine ⟨?_, k.1⟩
  rw [k.2]
  refine ⟨?_, ?_, ?_, ?_⟩ <;> rw [State.clerk_setClerk_same]
  · simpa [Clerk.slot, Clerk.setSlot] using h.1
  · simpa [Clerk.slot, Clerk.setSlot] using h.2.1
  · exact h.2.2.1
  · exact h.2.2.2

end Sys2Proof.Machine
end

