-- ==== Sys2Proof/Laws/Fields.lean ====
section
/-! SUPPORT. What the fields of a register read after one of them is set. -/

namespace Sys2Proof.Machine

/-- The bits a field reads. -/
theorem Fld.get_testBit (f : Fld) (v : Word) (k : Nat) : (f.get v).testBit k = (decide (k < f.width) && v.toNat.testBit (f.lo + k)) := by
  simp only [Fld.get, bits, Nat.testBit_mod_two_pow, Nat.testBit_div_two_pow]
  rw [Nat.add_comm]

/-- The bits of a word with a field set. -/
theorem Fld.set_testBit (f : Fld) (h : f.lo + f.width ≤ 64) (v : Word) (x k : Nat) :
    (f.set v x).toNat.testBit k = if f.lo ≤ k ∧ k < f.lo + f.width then x.testBit (k - f.lo) else v.toNat.testBit k := by
  have e : (f.set v x).toNat.testBit k = (f.set v x).getLsbD k := rfl
  rw [e]
  have sh (a lo : Nat) : (a * 2 ^ lo).testBit k = (decide (lo ≤ k) && a.testBit (k - lo)) := by
    rw [Nat.mul_comm, Nat.testBit_two_pow_mul]
  simp only [Fld.set, BitVec.getLsbD_or, BitVec.getLsbD_and, BitVec.getLsbD_not, BitVec.getLsbD_ofNat, sh, Nat.testBit_two_pow_sub_one,
    Nat.testBit_mod_two_pow]
  have ev : v.toNat.testBit k = v.getLsbD k := rfl
  rw [ev]
  by_cases h64 : k < 64
  · by_cases h1 : f.lo ≤ k
    · by_cases h2 : k < f.lo + f.width
      · have h3 : k - f.lo < f.width := by omega
        simp [h64, h1, h2, h3]
      · have h3 : ¬ (k - f.lo < f.width) := by omega
        simp [h64, h1, h2, h3]
    · simp [h64, h1]
  · have : v.getLsbD k = false := BitVec.getLsbD_of_ge v k (by omega)
    have h2 : ¬ (f.lo ≤ k ∧ k < f.lo + f.width) := by omega
    simp [h64, h2, this]

/-- A field just set reads as the value, cut to its width. -/
theorem Fld.get_set (f : Fld) (h : f.lo + f.width ≤ 64) (v : Word) (x : Nat) : f.get (f.set v x) = x % 2 ^ f.width := by
  apply Nat.eq_of_testBit_eq
  intro k
  rw [Fld.get_testBit, Fld.set_testBit f h, Nat.testBit_mod_two_pow]
  by_cases hk : k < f.width
  · rw [if_pos (by omega)]; simp [hk]
  · simp [hk]

/-- A field that does not overlap the one set reads as before. -/
theorem Fld.get_set_ne (f g : Fld) (h : f.lo + f.width ≤ 64) (hd : g.lo + g.width ≤ f.lo ∨ f.lo + f.width ≤ g.lo) (v : Word) (x : Nat) :
    g.get (f.set v x) = g.get v := by
  apply Nat.eq_of_testBit_eq
  intro k
  rw [Fld.get_testBit, Fld.get_testBit, Fld.set_testBit f h]
  by_cases hk : k < g.width
  · rw [if_neg (by omega)]
  · simp [hk]

/-- A register field just set reads as the value, cut to its width. -/
theorem State.fld_setFld_same (s : State) (f : Fld) (i x : Nat) (h : f.lo + f.width ≤ 64) : (s.setFld f i x).fld f i = x % 2 ^ f.width := by
  simp [State.fld, State.setFld, Fld.get_set f h]

/-- A field of another register, or of other bits, reads as before. -/
theorem State.fld_setFld_other (s : State) (f g : Fld) (i j x : Nat) (h : f.lo + f.width ≤ 64)
    (hd : (g.reg, j) ≠ (f.reg, i) ∨ g.lo + g.width ≤ f.lo ∨ f.lo + f.width ≤ g.lo) : (s.setFld f i x).fld g j = s.fld g j := by
  simp only [State.fld, State.setFld]
  by_cases e : (g.reg, j) = (f.reg, i)
  · obtain ⟨e1, e2⟩ := Prod.mk.injEq .. ▸ e
    rw [e1, e2, State.rd_wr_same, Fld.get_set_ne f g h (hd.resolve_left (by simp [e]))]
  · rw [State.rd_wr_ne _ _ e]

end Sys2Proof.Machine
end

