-- ==== Sys2Proof/Laws/Issue.lean ====
section
/-! SUPPORT. The issue of a long instruction through a handle: the check of R39 finds the same after issue as before. -/

namespace Sys2Proof.Machine

/-- The generation check of R39 reads only sessions, collections, regions, jobs, tables, signals, the domain map and the registers, none of which
issue changes. -/
theorem State.issued_objCurrent (s : State) (ix : Ix) (kind : OpKind) (hs : List Nat) (n ty : Nat) (o : Word) :
    (s.issued ix kind hs n).objCurrent ty o = s.objCurrent ty o := by
  have hf : ∀ (f : Fld) (i : Nat), f.reg ≠ .tlrClkRcptIss → (s.issued ix kind hs n).fld f i = s.fld f i := by
    intro f i h; simp only [State.fld, State.issued_rd s ix kind hs n i h]
  have h1 : (s.issued ix kind hs n).self = s.self := by
    unfold State.self
    exact hf _ _ (by decide)
  have h3 : ∀ g, (s.issued ix kind hs n).groupLead g = s.groupLead g := by
    intro g
    simp only [State.groupLead]
    rw [hf _ _ (by decide), hf _ _ (by decide)]
  have h2 : ∀ p, (s.issued ix kind hs n).groupOfLead p = s.groupOfLead p := by
    intro p
    simp only [State.groupOfLead, h3]
  unfold State.objCurrent State.ssnCurrent
  rw [h1]
  split <;> first | rfl | simp only [h2]

/-- The handle check finds the same after issue. -/
theorem State.issued_checkHandle (s : State) (ix : Ix) (kind : OpKind) (hs : List Nat) (n m : Nat) (h : Handle) (tys : List Nat) (need : Nat) :
    (s.issued ix kind hs n).checkHandle m h tys need = s.checkHandle m h tys need := by
  simp only [State.checkHandle, State.issued_objCurrent]

/-- A long instruction whose handle passes goes on with its operation from the state after issue. -/
theorem State.issueH_eq {s : State} {c n : Nat} {ix : Ix} {p : Ix → Bool} {tys : List Nat} {need : Nat} (kind : OpKind)
    (k : Op → Handle → State → State) (h : IssuesOn s c ix p n tys need) :
    s.issueH ix kind tys need k = k (ix.op c n) (ix.cl.h (wH ix.w)) (s.issued ix kind [wH ix.w] n) := by
  obtain ⟨⟨h1, h2⟩, h3⟩ := h
  have e := (State.issuer_eq h1.1).1
  subst e
  simp only [State.issueH, State.issueLong_eq _ _ _ h2, State.issued_checkHandle, h3]
  rfl

end Sys2Proof.Machine
end

