-- ==== Sys2Proof/Laws/Memory.lean ====
section
/-! SUPPORT. The laws of memory: every operation keeps the canonical form, a read after a write, and what a write leaves alone. -/

namespace Sys2Proof.Machine

/-- Every key of a memory is at or above `a`. -/
theorem mem_keys_above {x : Nat} {v : Byte} {rest : List Host.Cell} (h : Memory.wf ((x, v) :: rest) = true) :
    v ≠ 0 ∧ Memory.wf rest = true ∧ ∀ p ∈ rest, x < p.1 := by
  induction rest generalizing x v with
  | nil => simpa [Memory.wf] using h
  | cons p t ih =>
    obtain ⟨y, w⟩ := p
    simp only [Memory.wf, Bool.and_eq_true, decide_eq_true_eq] at h
    obtain ⟨⟨h1, h2⟩, h3⟩ := h
    refine ⟨h1, h3, ?_⟩
    intro q hq
    rcases List.mem_cons.1 hq with rfl | hq
    · exact h2
    · exact Nat.lt_trans h2 ((ih h3).2.2 q hq)

/-- A memory is canonical when its first cell is not zero, its keys rise from there, and the rest is canonical. -/
theorem mem_wf_cons {x : Nat} {v : Byte} {rest : List Host.Cell} (hv : v ≠ 0) (hr : Memory.wf rest = true)
    (hk : ∀ p ∈ rest, x < p.1) : Memory.wf ((x, v) :: rest) = true := by
  cases rest with
  | nil => simpa [Memory.wf] using hv
  | cons p t =>
    obtain ⟨y, w⟩ := p
    have h1 : x < y := hk (y, w) (by simp)
    rw [Memory.wf, hr]
    simp only [decide_eq_true hv, decide_eq_true h1, Bool.and_self]

/-- A key of a memory after a write is the written one or was there before. -/
theorem memWrite_keys (m : List Host.Cell) (a : Nat) (b : Byte) : ∀ p ∈ memWrite m a b, p.1 = a ∨ p ∈ m := by
  induction m with
  | nil => intro p hp; by_cases hb : b = 0 <;> simp_all [memWrite]
  | cons q t ih =>
    obtain ⟨x, v⟩ := q
    intro p hp
    simp only [memWrite] at hp
    split at hp
    · split at hp
      · exact .inr hp
      · rcases List.mem_cons.1 hp with rfl | hp
        · exact .inl rfl
        · exact .inr hp
    · split at hp
      · split at hp
        · exact .inr (List.mem_cons_of_mem _ hp)
        · rcases List.mem_cons.1 hp with rfl | hp
          · exact .inl rfl
          · exact .inr (List.mem_cons_of_mem _ hp)
      · rcases List.mem_cons.1 hp with rfl | hp
        · exact .inr (by simp)
        · rcases ih p hp with h | h
          · exact .inl h
          · exact .inr (List.mem_cons_of_mem _ h)

/-- A write of one byte keeps the canonical form. -/
theorem memWrite_wf (m : List Host.Cell) (a : Nat) (b : Byte) (h : Memory.wf m = true) : Memory.wf (memWrite m a b) = true := by
  induction m with
  | nil =>
    rw [memWrite]
    split
    · rfl
    · rename_i hb
      simp only [Memory.wf, decide_eq_true hb]
  | cons q t ih =>
    obtain ⟨x, v⟩ := q
    obtain ⟨hv, ht, hk⟩ := mem_keys_above h
    simp only [memWrite]
    split
    · rename_i hlt
      split
      · exact h
      · rename_i hb
        refine mem_wf_cons hb h ?_
        intro p hp
        rcases List.mem_cons.1 hp with rfl | hp
        · exact hlt
        · exact Nat.lt_trans hlt (hk p hp)
    · split
      · rename_i heq
        subst heq
        split
        · exact ht
        · rename_i hb
          exact mem_wf_cons hb ht hk
      · rename_i h1 h2
        refine mem_wf_cons hv (ih ht) ?_
        intro p hp
        rcases memWrite_keys t a b p hp with h' | h'
        · omega
        · exact hk p h'

/-- A write of bytes keeps the canonical form. -/
theorem writeBytes_wf (bs : List Byte) : ∀ (m : List Host.Cell) (a : Nat), Memory.wf m = true → Memory.wf (writeBytes m a bs) = true := by
  induction bs with
  | nil => intro m a h; exact h
  | cons b t ih => intro m a h; exact ih _ _ (memWrite_wf m a b h)

/-- Zeroing a range keeps the canonical form. -/
theorem memZero_wf (m : List Host.Cell) (lo hi : Nat) (h : Memory.wf m = true) : Memory.wf (memZero m lo hi) = true := by
  induction m with
  | nil => rfl
  | cons q t ih =>
    obtain ⟨x, v⟩ := q
    obtain ⟨hv, ht, hk⟩ := mem_keys_above h
    simp only [memZero, List.filter_cons]
    split
    · refine mem_wf_cons hv (ih ht) ?_
      intro p hp
      exact hk p (List.mem_of_mem_filter hp)
    · exact ih ht

/-- A key below every key of a memory reads as zero. -/
theorem memRead_below (m : List Host.Cell) (a : Nat) (h : ∀ p ∈ m, a < p.1) : memRead m a = 0 := by
  induction m with
  | nil => rfl
  | cons q t ih =>
    obtain ⟨x, v⟩ := q
    have hx : a < x := h (x, v) (by simp)
    simp only [memRead]
    rw [if_neg (by omega)]
    exact ih (fun p hp => h p (List.mem_cons_of_mem _ hp))

/-- A read after a write of one byte. -/
theorem memRead_memWrite (m : List Host.Cell) (a : Nat) (b : Byte) (k : Nat) (h : Memory.wf m = true) :
    memRead (memWrite m a b) k = if k = a then b else memRead m k := by
  induction m with
  | nil =>
    rw [memWrite]
    split
    · rename_i hb
      rw [hb]
      by_cases e : k = a <;> simp only [e, memRead, if_true, if_false]
    · by_cases e : k = a
      · simp only [memRead, e, if_true]
      · simp only [memRead, e, if_false]
        rw [if_neg (fun h => e h.symm)]
  | cons q t ih =>
    obtain ⟨x, v⟩ := q
    obtain ⟨hv, ht, hk⟩ := mem_keys_above h
    have hbelow : ∀ j, j ≤ x → memRead t j = 0 := fun j hj =>
      memRead_below t j (fun p hp => Nat.lt_of_le_of_lt hj (hk p hp))
    simp only [memWrite]
    split
    · rename_i hlt
      split
      · rename_i hb
        by_cases e : k = a
        · subst e
          rw [if_pos rfl, hb]
          exact memRead_below _ _ (fun p hp => by
            rcases List.mem_cons.1 hp with rfl | hp
            · exact hlt
            · exact Nat.lt_trans hlt (hk p hp))
        · rw [if_neg e]
      · by_cases e : k = a
        · simp [memRead, e]
        · rw [if_neg e]
          simp only [memRead]
          rw [if_neg (by omega)]
    · split
      · rename_i heq
        subst heq
        split
        · rename_i hb
          by_cases e : k = a
          · rw [if_pos e, hb]
            exact hbelow k (by omega)
          · rw [if_neg e]
            simp only [memRead]
            rw [if_neg (by omega)]
        · by_cases e : k = a
          · simp [memRead, e]
          · rw [if_neg e]
            simp only [memRead]
            rw [if_neg (by omega), if_neg (by omega)]
      · by_cases e : x = k
        · subst e
          simp only [memRead, if_true]
          rw [if_neg (by omega)]
        · simp only [memRead]
          rw [if_neg e, if_neg e]
          exact ih ht

/-- What a write of bytes reads as: the written bytes inside the range, memory as it was outside it. -/
theorem memRead_writeBytes (bs : List Byte) : ∀ (m : List Host.Cell) (a k : Nat), Memory.wf m = true →
    memRead (writeBytes m a bs) k = if a ≤ k ∧ k < a + bs.length then bs.getD (k - a) 0 else memRead m k := by
  induction bs with
  | nil => intro m a k _; simp [writeBytes]
  | cons b t ih =>
    intro m a k h
    rw [writeBytes, ih _ _ _ (memWrite_wf m a b h), memRead_memWrite m a b k h]
    by_cases h1 : k = a
    · subst h1; simp
    · by_cases h2 : a ≤ k ∧ k < a + (b :: t).length
      · simp only [List.length_cons] at h2
        have hc : a + 1 ≤ k ∧ k < a + 1 + t.length := by omega
        have hk : k - a = (k - (a + 1)) + 1 := by omega
        rw [if_pos hc, if_pos (by simpa using h2), hk]
        simp
      · simp only [List.length_cons] at h2
        have hc : ¬ (a + 1 ≤ k ∧ k < a + 1 + t.length) := by omega
        rw [if_neg hc, if_neg h1, if_neg (by simpa using h2)]

/-- A write of bytes leaves every key outside them alone. -/
theorem memRead_writeBytes_outside (m : List Host.Cell) (a : Nat) (bs : List Byte) (k : Nat) (h : Memory.wf m = true)
    (hk : k < a ∨ a + bs.length ≤ k) : memRead (writeBytes m a bs) k = memRead m k := by
  rw [memRead_writeBytes bs m a k h, if_neg (by omega)]

/-- A zeroed range reads as zero, and the rest as before. -/
theorem memRead_memZero (m : List Host.Cell) (lo hi k : Nat) :
    memRead (memZero m lo hi) k = if lo ≤ k ∧ k < hi then 0 else memRead m k := by
  induction m with
  | nil => simp [memZero, memRead]
  | cons q t ih =>
    obtain ⟨x, v⟩ := q
    simp only [memZero] at ih
    by_cases hx : lo ≤ x ∧ x < hi
    · simp only [memZero, List.filter_cons, hx.1, hx.2, decide_true, Bool.and_self, Bool.not_true, Bool.false_eq_true, if_false, memRead]
      rw [ih]
      by_cases e : x = k
      · subst e; simp [hx.1, hx.2]
      · simp [e]
    · have hn : (!(decide (lo ≤ x) && decide (x < hi))) = true := by
        rw [Bool.not_eq_true', Bool.and_eq_false_iff, decide_eq_false_iff_not, decide_eq_false_iff_not]
        omega
      simp only [memZero, List.filter_cons, hn, if_true, memRead]
      rw [ih]
      by_cases e : x = k
      · subst e; simp [hx]
      · simp [e]

/-- `n` bytes read from key `a` are those of each key. -/
theorem readBytes_length (m : List Host.Cell) : ∀ (n a : Nat), (readBytes m a n).length = n := by
  intro n
  induction n with
  | zero => intro a; rfl
  | succ n ih => intro a; simp [readBytes, ih]

/-- `State.putBytes` keeps the canonical form. -/
theorem State.putBytes_wf (s : State) (key : Nat) (bs : List Byte) (h : Memory.wf s.mem = true) :
    Memory.wf (s.putBytes key bs).mem = true := writeBytes_wf bs s.mem key h

/-- `State.zeroRange` keeps the canonical form. -/
theorem State.zeroRange_wf (s : State) (lo hi : Nat) (h : Memory.wf s.mem = true) : Memory.wf (s.zeroRange lo hi).mem = true :=
  memZero_wf s.mem lo hi h

/-- The memory right after reset is canonical. -/
theorem reset_mem_wf : Memory.wf State.reset.mem = true := rfl

end Sys2Proof.Machine
end

