-- ==== Sys2Proof/Laws/Store.lean ====
section
/-! SUPPORT. What reads and writes of memory do where its codewords hold no failure. -/

namespace Sys2Proof.Machine

/-- A codeword without a failure reads OK and changes nothing. -/
theorem State.readCw_clean {s : State} {cw : Nat} (h : s.poison.contains cw = false ∧ s.badSyms.lookD cw 0 ≤ 1) : s.readCw cw = (s, .ok) := by
  unfold State.readCw
  simp [h.2]
  simpa using h.1

/-- Codewords without a failure read OK. -/
theorem State.readCws_clean {s : State} (l : List Nat) (h : ∀ cw ∈ l, s.poison.contains cw = false ∧ s.badSyms.lookD cw 0 ≤ 1) :
    s.readCws l = (s, .ok) := by
  induction l with
  | nil => rfl
  | cons c l ih =>
    have e := State.readCw_clean (h c (by simp))
    simp [State.readCws, e, ih (fun cw hc => h cw (by simp [hc]))]

/-- A read of clean memory answers its bytes and changes nothing (R22). -/
theorem State.readMem_clean {s : State} {key n : Nat} (h : s.CleanAt key n) : s.readMem key n = (s, .ok, s.bytesAt key n) := by
  simp [State.readMem, State.readCws_clean _ h]

/-- Mending codewords leaves memory as it is. -/
theorem State.mend_mem (l : List Nat) (s : State) : (l.foldl State.mendCw s).mem = s.mem := by
  induction l generalizing s with
  | nil => rfl
  | cons c l ih => rw [List.foldl_cons, ih]; rfl

/-- Mending codewords changes nothing but the records of failures. -/
theorem State.mend_rest (l : List Nat) (s : State) :
    l.foldl State.mendCw s = { s with badSyms := (l.foldl State.mendCw s).badSyms, poison := (l.foldl State.mendCw s).poison } := by
  induction l generalizing s with
  | nil => rfl
  | cons c l ih => rw [List.foldl_cons, ih]; rfl

/-- A write to clean memory takes effect: the bytes are written, failures of the codewords end, and nothing else changes. -/
theorem State.writeMem_clean {s : State} {key : Nat} {bs : List Byte} (h : s.CleanAt key bs.length) :
    (s.writeMem key bs).2 = .ok ∧ (s.writeMem key bs).1.mem = writeBytes s.mem key bs ∧
    (s.writeMem key bs).1 = { s with mem := writeBytes s.mem key bs, badSyms := (s.writeMem key bs).1.badSyms,
                                     poison := (s.writeMem key bs).1.poison } := by
  have e : s.readCws (partCws key bs.length) = (s, .ok) :=
    State.readCws_clean _ (fun cw hc => h cw (List.mem_of_mem_filter hc))
  have w : s.writeMem key bs = (((cwsOf key bs.length).foldl State.mendCw s).putBytes key bs, .ok) := by
    simp [State.writeMem, e]
  rw [w]
  refine ⟨rfl, ?_, ?_⟩
  · simp [State.putBytes, State.mend_mem]
  · show State.putBytes _ _ _ = _
    rw [State.mend_rest]
    rfl

end Sys2Proof.Machine
end

