-- ==== Sys2Proof/WellFormed.lean ====
section
/-! DEFINITION. Which commands are well formed: every operand names something the controller or its partners have. The meanings are total, and
an operand that names nothing leaves the state as it is. -/

namespace Sys2Proof

/-- A clerk (Table 1-1). -/
def clerkOk (c : Nat) : Bool := decide (c < 4096)
/-- A hub, or the TAP of one. -/
def hubOk (h : Nat) : Bool := decide (h < 4)
/-- A stack. -/
def stackOk (m : Nat) : Bool := decide (m < 24)
/-- A DRAM layer of a stack. -/
def layerOk (l : Nat) : Bool := decide (l < 16)
/-- A node port. -/
def nodePortOk (p : Nat) : Bool := decide (p < 8)
/-- A port: node 0 to 7, fabric 8 to 19, Sinil 20 and 21. -/
def portOk (p : Nat) : Bool := decide (p < 22)
/-- A Sinil port. -/
def sinilOk (p : Nat) : Bool := decide (p = 20) || decide (p = 21)
/-- A flash channel. -/
def chanOk (ch : Nat) : Bool := decide (ch < 32)
/-- A LUN of a channel (R225). -/
def lunOk (l : Nat) : Bool := decide (l < 32)
/-- A context (R329). -/
def ctxOk (n : Nat) : Bool := decide (n < 64)
/-- A session index (R59). -/
def sessOk (i : Nat) : Bool := decide (i < 2 ^ 24)
/-- A Receipt slot (R46). -/
def slotOk (k : Nat) : Bool := decide (k < 64)
/-- A coherent agent: host heads 0 and 1, then the node ports (R273). -/
def agentOk (a : Nat) : Bool := decide (a < 10)
/-- A controller of the domain (R289). -/
def memberOk (m : Nat) : Bool := decide (m < 32)
/-- A dispatch group (R119). -/
def groupOk (g : Nat) : Bool := decide (g < 8)
/-- A node or domain region index. -/
def regionOk (i : Nat) : Bool := decide (i < 4096)
/-- A granule of the node shared window (R270). -/
def granuleOk (g : Nat) : Bool := decide (g < 2 ^ 30)
/-- A collection index (R175). -/
def collOk (i : Nat) : Bool := decide (i < 1024)
/-- A bucket of the domain (R292). -/
def bucketOk (k : Nat) : Bool := decide (k < 4096)
/-- A job member (R253). -/
def jobOk (j : Nat) : Bool := decide (j < 16)
/-- A model index (R118). -/
def modelOk (k : Nat) : Bool := decide (k < 1024)
/-- A pace instance (R405). -/
def paceOk (n : Nat) : Bool := decide (n < 466)
/-- A register block (Table 17-2). -/
def blockOk (b : Nat) : Bool := decide (b < 16)
/-- A virtual queue of a port (Table 13-8). -/
def queueOk (q : Nat) : Bool := decide (q < 16)
/-- A cell's SEQ (Table 13-5). -/
def seqOk (n : Nat) : Bool := decide (n < 8192)
/-- A host head, or a Sinil port counted from 0. -/
def bitOk (n : Nat) : Bool := decide (n < 2)
/-- An 8-bit number. -/
def byteOk (n : Nat) : Bool := decide (n < 2 ^ 8)
/-- A 16-bit number. -/
def u16Ok (n : Nat) : Bool := decide (n < 2 ^ 16)
/-- A 32-bit number. -/
def u32Ok (n : Nat) : Bool := decide (n < 2 ^ 32)
/-- A byte mask of a 64-byte line. -/
def maskOk (n : Nat) : Bool := decide (n < 2 ^ 64)
/-- An operand of an atomic of up to 16 bytes. -/
def wideOk (n : Nat) : Bool := decide (n < 2 ^ 128)
/-- Data of a stated length. -/
def bytesOk (n : Nat) (bs : List Byte) : Bool := decide (bs.length = n)
/-- A value for each hub. -/
def fourOk (l : List Nat) : Bool := decide (l.length = 4)

/-- A requester (R332): a Sinil connection, or a host head through function 0 or a context's virtual function. -/
def requesterOk (rq : Requester) : Bool :=
  match rq with
  | .firmware => true
  | .sinil p c => sinilOk p && u32Ok c
  | .host head vf => bitOk head && vf.all ctxOk

/-- A watched link: two hubs, lower first, or a hub and its stack. -/
def linkOk (l : LinkId) : Bool :=
  match l with
  | .d2d a b => decide (a < b) && hubOk b
  | .stack m => stackOk m

/-- A domain header's fields fit theirs (Table 12-5). -/
def hdrOk (h : DHdr) : Bool :=
  memberOk h.requester && decide (h.size < 8) && decide (h.op < 4) && decide (h.serial < 2 ^ 40) && decide (h.addr < 2 ^ 46)

/-- A frame header's fields fit theirs (Table 13-6). -/
def frameOk (h : FrameHdr) : Bool :=
  queueOk h.queue && decide (0 < h.len) && decide (h.len ≤ 4432) && u32Ok h.msg && decide (h.offset < 2 ^ 40) && u32Ok h.epoch && u32Ok h.conn

/-- A cell control word's fields fit theirs (Table 13-5). -/
def cellOk (c : CellCtl) : Bool := seqOk c.seq && queueOk c.queue

/-- An SPDM transport. -/
def pathOk (t : SpdmPath) : Bool :=
  match t with
  | .doe => true
  | .sinil p c => sinilOk p && u32Ok c

/-- A binding target. -/
def bindOk (b : BindTo) : Bool :=
  match b with
  | .ctx n => ctxOk n
  | .operator => true

/-- A register access: any offset may be tried; a read or write has some width. -/
def accOk (a : RegAcc) : Bool :=
  match a with
  | .write _ w _ => decide (0 < w)
  | .read _ w => decide (0 < w)

/-- A NAND answer: a mask of 32 LUNs and a rate code of four bits. -/
def nandOk (a : NandAnswer) : Bool := u32Ok a.ready && decide (a.rate < 16)

/-- A firmware image's fields fit `SEC_FW` (Table 14-13). -/
def imageOk (i : FwImage) : Bool := decide (i.keyIndex < 4) && u32Ok i.svn

/-- A unit the self-test can find failed. -/
def unitOk (u : FailedUnit) : Bool :=
  match u with
  | .hub h => hubOk h
  | .stack m => stackOk m
  | .text h => hubOk h
  | .channel ch => chanOk ch
  | .port p => portOk p

/-- An agent's load samples. -/
def loadOk (l : AgentLoad) : Bool := agentOk l.agent && decide (l.bucketMin ≤ 100) && decide (l.occMax ≤ 100)

/-- A rack supply's answer. -/
def psuOk (a : PsuAnswer) : Bool := u16Ok a.vin && u16Ok a.pout && u16Ok a.statusWord && byteOk a.statusInput

/-- New holders of a bucket. -/
def assignOk (a : Assign) : Bool := bucketOk a.bucket && memberOk a.primary && memberOk a.secondary && memberOk a.parity

/-- A change of the domain map names members, buckets and regions that can exist. -/
def changeOk (c : MapChange) : Bool :=
  match c with
  | .join m _ _ _ moves => memberOk m && moves.all assignOk
  | .leave m moves => memberOk m && moves.all assignOk
  | .remove m assign => memberOk m && assign.all assignOk
  | .cutover k => bucketOk k
  | .copied k => bucketOk k
  | .noneBacked k => bucketOk k
  | .params _ _ => true
  | .regionCreate i _ issuer => decide (i < 2 ^ 14) && memberOk issuer
  | .regionDelete i => decide (i < 2 ^ 14)
  | .escrow i _ issuer _ => decide (i < 2 ^ 14) && memberOk issuer
  | .pairing m p => memberOk m && decide (p ≤ 32)
  | .cfPeer m j p => memberOk m && jobOk j && decide (p ≤ 32)
  | .timeMaster m => memberOk m
  | .pathGone m p => memberOk m && decide (p < 12)
  | .pathFound m d p => memberOk m && memberOk d && decide (p < 12)
  | .snapshot ms _ _ _ _ _ f => ms.all (fun r => memberOk r.1) && memberOk f

/-- A domain request's body. -/
def bodyOk (b : DBody) : Bool :=
  match b with
  | .load => true
  | .store mask data => maskOk mask && bytesOk 64 data
  | .atomic operand cmp => wideOk operand && wideOk cmp

/-- Whose flash write it is. -/
def ownerOk (o : FlashOwner) : Bool :=
  match o with
  | .park i => sessOk i
  | .passbook i => sessOk i
  | .flushCopy i => sessOk i
  | .vectors i => collOk i
  | .vecData i => collOk i
  | .stmt j => jobOk j
  | .granule r _ => regionOk r
  | .request _ => true
  | .directory => true
  | .ledger => true
  | .domainLog => true

/-- A session a MOVE brings. -/
def copyOk (c : SsnCopy) : Bool := ctxOk c.ctx && decide (c.kvFmt < 3) && u16Ok c.model && u16Ok c.customer

/-- A shard taken over. -/
def shardOk (x : ShardSpec) : Bool := u16Ok x.id && decide (x.space < 3)

/-- A command is well formed. -/
def Instr.wf (i : Instr) : Bool :=
  match i with
  | .linkHandshakeTimeout l => linkOk l
  | .hubHeartbeatMiss h => hubOk h
  | .hubDeclaredFailed h => hubOk h
  | .stackTakenOffline m => stackOk m
  | .patrolScrub _ => true
  | .rowSpareCopy m layer bank _ => stackOk m && layerOk layer && byteOk bank
  | .tsvLaneRemap m => stackOk m
  | .layerRetire m layer _ => stackOk m && layerOk layer
  | .paceSample n _ => paceOk n
  | .junctionAbove105 h _ => hubOk h
  | .cornerRecovered _ tC => fourOk tC
  | .junction115 h _ => hubOk h
  | .coreVoltageLow _ => true
  | .coreSupervisorReset _ => true
  | .standbyEntry _ => true
  | .standbyExit _ => true
  | .thermalResetRelease tC => fourOk tC
  | .imgLoad rq _ => requesterOk rq
  | .imgVerifyDone => true
  | .imgUnload rq _ => requesterOk rq
  | .runStart rq _ => requesterOk rq
  | .runCancel rq _ => requesterOk rq
  | .runDrainDone c => clerkOk c
  | .operationComplete c slot _ => clerkOk c && slotOk slot
  | .runTimeLimit c => clerkOk c
  | .handlerGraceExpiry c => clerkOk c
  | .alu c => clerkOk c
  | .alui c => clerkOk c
  | .li c => clerkOk c
  | .lih c => clerkOk c
  | .cmp c => clerkOk c
  | .cmpi c => clerkOk c
  | .plog c => clerkOk c
  | .br c => clerkOk c
  | .jr c => clerkOk c
  | .dins c => clerkOk c
  | .dext c => clerkOk c
  | .openObj c => clerkOk c
  | .bind c => clerkOk c
  | .drop c => clerkOk c
  | .park c => clerkOk c
  | .revive c => clerkOk c
  | .move c => clerkOk c
  | .pin c => clerkOk c
  | .unpin c => clerkOk c
  | .hint c => clerkOk c
  | .attn c => clerkOk c
  | .attnMerge c => clerkOk c
  | .submit c _ _ _ => clerkOk c
  | .cancel c => clerkOk c
  | .dispatchKernel c => clerkOk c
  | .mint c => clerkOk c
  | .clearBind c => clerkOk c
  | .clearUnbind c => clerkOk c
  | .clearMask c => clerkOk c
  | .clearAdvance c => clerkOk c
  | .sampleConfig c => clerkOk c
  | .sampleProbe c => clerkOk c
  | .changeConfig c => clerkOk c
  | .changeText c => clerkOk c
  | .search c => clerkOk c
  | .vinsert c => clerkOk c
  | .vdelete c => clerkOk c
  | .charge c => clerkOk c
  | .credit c => clerkOk c
  | .rent c => clerkOk c
  | .escAcq c => clerkOk c
  | .escPub c => clerkOk c
  | .escRel c => clerkOk c
  | .stmtBegin c _ => clerkOk c
  | .stmtAdd c => clerkOk c
  | .stmtCommit c => clerkOk c
  | .ld c => clerkOk c
  | .st c => clerkOk c
  | .amo c => clerkOk c
  | .fenceM c => clerkOk c
  | .fenceN c => clerkOk c
  | .fenceD c => clerkOk c
  | .wait c => clerkOk c
  | .waitTimeout c => clerkOk c
  | .signal c => clerkOk c
  | .yield c => clerkOk c
  | .yieldTimeout c => clerkOk c
  | .trapExit c => clerkOk c
  | .brk c => clerkOk c
  | .freeze c => clerkOk c
  | .undefinedEncoding c => clerkOk c
  | .indexReuseHoldEnd i => sessOk i
  | .dirRebuild m => stackOk m
  | .passbookFlashWrite i => sessOk i
  | .passbookCopyRebuild i => sessOk i
  | .parkCommit i => sessOk i
  | .reviveLayerResident i layer _ => sessOk i && u16Ok layer
  | .moveDestinationAnswer i status _ _ => sessOk i && u16Ok status
  | .t1Reclaim => true
  | .reviveHoldExpiry i => sessOk i
  | .phaseSwitch rq _ => requesterOk rq
  | .phaseTimeLimit => true
  | .phaseDone => true
  | .sessionRebuildDone i _ => sessOk i
  | .moveCopyArrival src _ copy => memberOk src && copyOk copy
  | .sessionCounterfoilPage peer _ _ layer _ data => memberOk peer && u16Ok layer && bytesOk 65536 data
  | .atq p ctx _ _ => nodePortOk p && ctxOk ctx
  | .kvu p ctx _ _ => nodePortOk p && ctxOk ctx
  | .ldn p _ => nodePortOk p
  | .engineDescriptorExec m _ => stackOk m
  | .partialMerge _ stack => stackOk stack
  | .atrSupplement _ => true
  | .lgt p _ => nodePortOk p
  | .hsv p _ => nodePortOk p
  | .modelReg rq _ => requesterOk rq
  | .modelUnreg rq _ => requesterOk rq
  | .groupCfgWrite rq g _ => requesterOk rq && groupOk g
  | .stepForm g _ _ _ cands => groupOk g && cands.all (fun x => sessOk x.sess)
  | .groupTimeout g _ => groupOk g
  | .stepCommit g _ => groupOk g
  | .stepReportSend n => ctxOk n
  | .roleEval model _ _ _ => modelOk model
  | .ledgerTick => true
  | .ctxReportWrite rq n _ => requesterOk rq && ctxOk n
  | .tblLoad rq _ => requesterOk rq
  | .tblUnload rq _ => requesterOk rq
  | .collCreate rq _ => requesterOk rq
  | .collDrop rq _ => requesterOk rq
  | .collIndexFree coll => collOk coll
  | .vsrCfgWrite rq _ => requesterOk rq
  | .vectorFold coll _ => collOk coll
  | .weighPass ch => chanOk ch
  | .assay _ => true
  | .sketchRebuild coll _ _ => collOk coll
  | .channelNegotiate ch a => chanOk ch && nandOk a
  | .flashWrite own _ _ _ _ => ownerOk own
  | .flashProgramDone _ => true
  | .journalBufferWrite h => hubOk h
  | .mapCheckpoint => true
  | .flashRead _ _ => true
  | .lunFailed ch lun => chanOk ch && lunOk lun
  | .lunRebuild ch lun => chanOk ch && lunOk lun
  | .tillFold => true
  | .garbageCollection => true
  | .wearLevel => true
  | .readDisturbRefresh _ => true
  | .retentionScan _ => true
  | .blockReplace ch plane _ _ => chanOk ch && byteOk plane
  | .ordinaryDiscard _ _ => true
  | .secureDiscard rq _ => requesterOk rq
  | .jobCreate rq _ _ => requesterOk rq
  | .jobDelete rq _ => requesterOk rq
  | .restore rq _ _ _ => requesterOk rq
  | .jobPeerWrite rq job _ _ => requesterOk rq && jobOk job
  | .backgroundCopy job => jobOk job
  | .copyBeforeWrite _ => true
  | .cfPage peer _ rank _ _ data _ => memberOk peer && u16Ok rank && bytesOk 65536 data
  | .cfPageRefusal job _ => jobOk job
  | .cfAck job _ => jobOk job
  | .commitNotice _ rank _ _ => u16Ok rank
  | .shapeDigest job _ shape => jobOk job && bytesOk 32 shape
  | .statementFlush job => jobOk job
  | .flashCommitNotice _ rank _ => u16Ok rank
  | .rollback job _ _ => jobOk job
  | .takeover _ peer _ shape shards _ => memberOk peer && bytesOk 32 shape && shards.all shardOk
  | .counterfoilSlotRequest peer _ rank _ => memberOk peer && u16Ok rank
  | .counterfoilFetch peer _ rank _ => memberOk peer && u16Ok rank
  | .memberNoticeArrival _ rank _ controller _ _ => u16Ok rank && memberOk controller
  | .regionCreate rq _ => requesterOk rq
  | .regionDelete rq _ => requesterOk rq
  | .regionTemp rq _ => requesterOk rq
  | .cxlMemRead head _ _ _ => bitOk head
  | .cxlMemWrite head _ _ _ mask data => bitOk head && maskOk mask && bytesOk 64 data
  | .birsp head _ _ wb => bitOk head && wb.all (bytesOk 64)
  | .mrd p _ _ => nodePortOk p
  | .mwr p _ _ _ data => nodePortOk p && bytesOk 64 data
  | .mat p _ _ operand cmpv => nodePortOk p && wideOk operand && wideOk cmpv
  | .rca p _ _ _ => nodePortOk p
  | .recallTimeout _ a => agentOk a
  | .agentFailed a => agentOk a
  | .directorySweep h => hubOk h
  | .loadLevelUpdate samples => samples.all loadOk
  | .coldGranulePark region g => regionOk region && granuleOk g
  | .granuleFaultIn region g => regionOk region && granuleOk g
  | .hostHeadRetrained head => bitOk head
  | .ingressHoldRelease a => agentOk a
  | .mapChangePropose c => changeOk c
  | .mapCommit _ holders => holders.all memberOk
  | .mapAdopt _ c => changeOk c
  | .leaderHeartbeat => true
  | .heartbeatReceive leader _ => memberOk leader
  | .leaseExpiry => true
  | .suspectExpiry m assign => memberOk m && assign.all assignOk
  | .electionTimeout _ => true
  | .isolateTimeout => true
  | .dfbRegionCreate rq _ => requesterOk rq
  | .dfbRegionDelete rq _ => requesterOk rq
  | .dfbJoin rq _ _ => requesterOk rq
  | .dfbLeave rq _ => requesterOk rq
  | .mapCfgWrite rq _ _ => requesterOk rq
  | .dld h => hdrOk h
  | .dst h mask data => hdrOk h && maskOk mask && bytesOk 64 data
  | .dat h operand cmpv => hdrOk h && wideOk operand && wideOk cmpv
  | .drs _ _ status _ => u16Ok status
  | .dfw h body => hdrOk h && bodyOk body
  | .dup h sender mask line old => hdrOk h && memberOk sender && maskOk mask && bytesOk 64 line && bytesOk 64 old
  | .dua holder requester _ => memberOk holder && memberOk requester
  | .domainReqTimeout _ => true
  | .bucketCutover bucket => bucketOk bucket
  | .nonePoisonBacking bucket => bucketOk bucket
  | .t4Revoke => true
  | .reclaimDeadline peer => memberOk peer
  | .t4RoomRequest peer _ => memberOk peer
  | .t4PieceStore peer _ _ => memberOk peer
  | .t4Fetch peer _ => memberOk peer
  | .t4RevocationNotice peer _ => memberOk peer
  | .voteRequest candidate _ => memberOk candidate
  | .logEntryAppend leader _ c => memberOk leader && changeOk c
  | .heartbeatAnswer m => memberOk m
  | .portSignalDetect p => portOk p
  | .laneLock p _ _ _ => portOk p
  | .trainTimeout p => portOk p
  | .trainRetry p => portOk p
  | .capabilityBlock p _ _ => portOk p
  | .keysDone p _ => portOk p
  | .creditAdvert p _ => portOk p
  | .retrainTrigger p _ => portOk p
  | .retrainEnd p _ _ => portOk p
  | .portFailed p => portOk p
  | .portCfgWrite rq p _ => requesterOk rq && portOk p
  | .codewordUncorrectable p seq => portOk p && seqOk seq
  | .retryRequest p seq => portOk p && seqOk seq
  | .ackTimer p => portOk p
  | .cellAck p seq => portOk p && seqOk seq
  | .creditReturn p q => portOk p && queueOk q
  | .frameReceive p h _ => portOk p && frameOk h
  | .frameTagFail p h => portOk p && frameOk h
  | .rekeyStart p => portOk p
  | .rekeyFrame p _ _ => portOk p
  | .histSelWrite rq _ => requesterOk rq
  | .gateSwapRequest rq p _ => requesterOk rq && portOk p
  | .gateSwap p => portOk p
  | .cellReceive p ctl => portOk p && cellOk ctl
  | .creditReturnArrival p q _ => portOk p && queueOk q
  | .cellBoundaryService p => portOk p
  | .queueDepthSample => true
  | .ctxInstall rq _ => requesterOk rq
  | .ctxRetire rq _ => requesterOk rq
  | .ctxRetireDiscard rq _ => requesterOk rq
  | .contextSweep n => ctxOk n
  | .ownerKeyWrite rq _ => requesterOk rq
  | .jobkeyLoad rq _ => requesterOk rq
  | .fwFloorCommit rq _ => requesterOk rq
  | .keyFloorCommit rq _ => requesterOk rq
  | .ctxFloorWrite rq n _ => requesterOk rq && ctxOk n
  | .sinilBind port conn tgt _ => sinilOk port && u32Ok conn && bindOk tgt
  | .getVersion t => pathOk t
  | .getCapabilities t _ => pathOk t
  | .negotiateAlgorithms t _ _ _ _ => pathOk t
  | .getDigests t => pathOk t
  | .getCertificate t _ _ _ => pathOk t
  | .challenge t _ _ => pathOk t
  | .getMeasurements t _ _ => pathOk t
  | .keyExchange t _ => pathOk t
  | .finish t _ _ => pathOk t
  | .keyUpdate t _ _ => pathOk t
  | .heartbeat t _ => pathOk t
  | .endSession t _ => pathOk t
  | .ideKm t _ head stream _ tdi => pathOk t && bitOk head && byteOk stream && tdi.all ctxOk
  | .ideIntegrityFail head stream => bitOk head && byteOk stream
  | .lockInterfaceRequest n => ctxOk n
  | .startInterfaceRequest n => ctxOk n
  | .stopInterfaceRequest n => ctxOk n
  | .vsupWarning _ => true
  | .vsupPowerFail => true
  | .vsupRecovery => true
  | .vinReset => true
  | .overvoltage => true
  | .flushDone _ _ => true
  | .tier2Cut _ => true
  | .resumingDone => true
  | .psuPoll ans => ans.all psuOk
  | .bankMeasure _ _ => true
  | .bankTestWrite rq _ => requesterOk rq
  | .bankMeasureRetry _ _ => true
  | .bankMeasurementEnd _ _ _ => true
  | .budgetRecompute _ => true
  | .freezePin _ => true
  | .dbgFreeze rq _ => requesterOk rq
  | .frzCtrlFreeze => true
  | .frzCtrlRelease _ => true
  | .frzCtrlSelect _ => true
  | .frzCtrlReadout => true
  | .frzRead _ => true
  | .extest tap => hubOk tap
  | .idcode tap => hubOk tap
  | .samplePreload tap => hubOk tap
  | .clamp tap => hubOk tap
  | .highz tap => hubOk tap
  | .bypass tap code => hubOk tap && byteOk code
  | .referenceChange _ _ => true
  | .offsetDiscipline _ => true
  | .ppsSecond => true
  | .nodeTimeFrame p => nodePortOk p
  | .ptmRequest => true
  | .domainTimeExchange _ => true
  | .ptpMessage port _ => bitOk port
  | .timeErrorLimit _ => true
  | .announceInterval port => bitOk port
  | .powerOnBringup romPass pufOk => romPass.all hubOk && pufOk.all hubOk
  | .firmwareFetch img => img.all imageOk
  | .bootSourceSilence => true
  | .sinilBootRetry => true
  | .mapReplay _ => true
  | .selfTest failed => failed.all unitOk
  | .serviceOpen => true
  | .resetPin => true
  | .glbResetModule rq _ => requesterOk rq
  | .glbResetHub rq _ => requesterOk rq
  | .glbResetClearRepair rq _ => requesterOk rq
  | .hubReturn h _ _ failed => hubOk h && failed.all unitOk
  | .fwActivate rq _ img => requesterOk rq && imageOk img
  | .liveRestartPause => true
  | .eventNotice b => blockOk b
  | .timNowRead rq frac => requesterOk rq && u16Ok frac
  | .kvaEngErrRead rq m => requesterOk rq && stackOk m
  | .flsChErrRead rq ch => requesterOk rq && chanOk ch
  | .stmStallMaxRead rq => requesterOk rq
  | .nmcRecallMaxRead rq => requesterOk rq
  | .lnkPortErrRead rq p => requesterOk rq && portOk p
  | .pwrDirtyMaxRead rq => requesterOk rq
  | .glbAccessErrRead rq => requesterOk rq
  | .dbgTraceDroppedRead rq => requesterOk rq
  | .tlrEvtWrite rq _ => requesterOk rq
  | .ssnEvtWrite rq _ => requesterOk rq
  | .kvaEvtWrite rq _ => requesterOk rq
  | .schEvtWrite rq _ => requesterOk rq
  | .txtEvtWrite rq _ => requesterOk rq
  | .vsrEvtWrite rq _ => requesterOk rq
  | .flsEvtWrite rq _ => requesterOk rq
  | .stmEvtWrite rq _ => requesterOk rq
  | .nmcEvtWrite rq _ => requesterOk rq
  | .dfbEvtWrite rq _ => requesterOk rq
  | .lnkEvtWrite rq _ => requesterOk rq
  | .secEvtWrite rq _ => requesterOk rq
  | .pwrEvtWrite rq _ => requesterOk rq
  | .glbEvtWrite rq _ => requesterOk rq
  | .timEvtWrite rq _ => requesterOk rq
  | .dbgEvtWrite rq _ => requesterOk rq
  | .registerWrite rq acc => requesterOk rq && accOk acc

end Sys2Proof
end

