-- ==== Sys2Proof/Tests/Slice0.lean ====
section
/-! SUPPORT. Small states and words; for each statement a state and operands that meet the hypotheses of each of its clauses; single steps checked
against the spec's own figures; and a term that each check of well-formedness refuses. -/

namespace Sys2Proof.Machine

set_option Elab.async false
set_option maxRecDepth 20000

/-! ### Small states -/

/-- All four hubs in service, everything else as after reset. -/
def wUp : State := State.reset.onArch (fun a => { a with hubs := ⟨[(0, .inService), (1, .inService), (2, .inService), (3, .inService)]⟩ })

/-- The same with context 3 RESIDENT, holding the FREEZE right. -/
def wCtx : State :=
  (wUp.wr .secCtxState 3 0x5).onSec (fun x =>
    { x with ctxs := x.ctxs.put 3 ⟨⟨1, 1, false, 0x77, 1, 0, [], [], 0, 0, 0, 0, some []⟩, 0, .empty, .empty, []⟩ })

/-- An image of context 3 in slot 0 with `code`, an entry at 0 and a trap entry that is not used. -/
def wImg (code : List Word) : Image :=
  { ident := 0x10, ctx := 3, keySlot := 0, compat := false, trapEntry := false, wantsFreeze := true, rollback := 0, entryCount := 1,
    entries := [0], code := code, rodata := [1, 2, 3, 4, 5, 6, 7, 0x88], timeLimit := 0, bytes := 0x1000, draining := false }

/-- A run of that image. -/
def wRun : Run :=
  { slot := 0, ctx := 3, entry := 0, prio := 1, tag := 0xABCD, requester := .firmware, deadline := none, grace := none, startedAt := 0,
    ending := none, orphans := 0 }

/-- A signal handle and a session handle of context 3 with every right. -/
def wSigH : Handle := mkHandle 3 11 0xFF (sigIdent 3 4 1)

/-- A clerk READY at word 0 with s1 = 5, s2 = 7 and p1 true. -/
def wCl : Clerk :=
  { Clerk.idle with st := .ready, kept := .ready, run := some wRun, sreg := ⟨[(1, 5), (2, 7), (3, 0x40)]⟩, preg := ⟨[(1, true)]⟩,
                    dreg := ⟨[(2, 0x55)]⟩ }

/-- `s` with clerk 7 as given and the image of one word. -/
def wWith (s : State) (cl : Clerk) (w : Word) : State :=
  (s.onTlr (fun t => { t with images := t.images.put 0 (wImg [w]) })).setClerk 7 cl

/-- Clerk 7 about to issue word `w`. -/
def wClerk (w : Word) : State := wWith wCtx wCl w
/-- What it sees. -/
def wIx (w : Word) : Ix := ⟨7, wCl, wRun, wImg [w], w⟩

/-- A word from its fields: MAJOR in [63:56] and the rest as given, with the guard p0. -/
def wWord (major rest : Nat) : Word := BitVec.ofNat 64 (major * 2 ^ 56 + rest)

/-- ALU s4 ← s1 + s2: RD [51:47], RA [46:42], RB [41:37], FN [36:32] = 0 (Tables 8-2 to 8-4). -/
def wAlu : Word := wWord 0x01 (4 * 2 ^ 47 + 1 * 2 ^ 42 + 2 * 2 ^ 37)
/-- ALUI s4 ← s1 − 1: FN [41:37] = 0, IMM = −1. -/
def wAlui : Word := wWord 0x02 (4 * 2 ^ 47 + 1 * 2 ^ 42 + 0xFFFFFFFF)
/-- LI s4 ← −2. -/
def wLi : Word := wWord 0x03 (4 * 2 ^ 47 + 0xFFFFFFFE)
/-- LIH s2: 9 into bits [63:32]. -/
def wLih : Word := wWord 0x04 (2 * 2 ^ 47 + 9)
/-- CMP p3 ← s1 < s2, signed: PD [49:47], FN 2. -/
def wCmp : Word := wWord 0x05 (3 * 2 ^ 47 + 1 * 2 ^ 42 + 2 * 2 ^ 37 + 2 * 2 ^ 32)
/-- CMP with FN 7, which is not defined. -/
def wCmpBad : Word := wWord 0x05 (3 * 2 ^ 47 + 1 * 2 ^ 42 + 2 * 2 ^ 37 + 7 * 2 ^ 32)
/-- CMPI p3 ← s1 = 5. -/
def wCmpi : Word := wWord 0x06 (3 * 2 ^ 47 + 1 * 2 ^ 42 + 5)
/-- PLOG p3 ← p1 ANDN p2: PA [44:42], PB [39:37], FN 3. -/
def wPlog : Word := wWord 0x07 (3 * 2 ^ 47 + 1 * 2 ^ 42 + 2 * 2 ^ 37 + 3 * 2 ^ 32)
/-- BR to PC + 2 words, PC + 8 to s30. -/
def wBr : Word := wWord 0x08 (30 * 2 ^ 47 + 2)
/-- BR with RA = s1, which is not defined. -/
def wBrBad : Word := wWord 0x08 (30 * 2 ^ 47 + 1 * 2 ^ 42 + 2)
/-- BR under the false predicate p2. -/
def wBrNot : Word := wWord 0x08 (2 * 2 ^ 52 + 30 * 2 ^ 47 + 2)
/-- JR to (s3 & ~7) + 8. -/
def wJr : Word := wWord 0x09 (3 * 2 ^ 42 + 1)
/-- DINS s1 into word 3 of d2. -/
def wDins : Word := wWord 0x0A (1 * 2 ^ 47 + 2 * 2 ^ 43 + 3 * 2 ^ 40)
/-- DEXT word 0 of d2 into s4. -/
def wDext : Word := wWord 0x0B (4 * 2 ^ 47 + 2 * 2 ^ 43)
/-- FENCE of a scope. -/
def wFence (k : Nat) : Word := wWord 0x4B k
/-- TRAP with a CODE. -/
def wTrap (k : Nat) : Word := wWord 0x70 k
/-- FREEZE with CODE 0x21. -/
def wFrz : Word := wWord 0x71 0x21
/-- WAIT on the tag in s5, words to s6 and s7, p4: RD [51:47], RA [46:42], RE [41:37], PD [36:34]. -/
def wWait : Word := wWord 0x60 (6 * 2 ^ 47 + 5 * 2 ^ 42 + 7 * 2 ^ 37 + 4 * 2 ^ 34)
/-- SIGNAL s1 to the signal in h2. -/
def wSignal : Word := wWord 0x61 (2 * 2 ^ 44 + 1 * 2 ^ 32)
/-- YIELD without USE_H. -/
def wYield0 : Word := wWord 0x62 0
/-- YIELD for s1 on the signal in h2, p4. -/
def wYield1 : Word := wWord 0x62 (1 * 2 ^ 42 + 4 * 2 ^ 34 + 2 * 2 ^ 31 + 2 ^ 30)
/-- BIND h3 to the object of h2 with every right but write. -/
def wBind : Word := wWord 0x11 (3 * 2 ^ 44 + 2 * 2 ^ 41 + 0xFD)
/-- DROP h2. -/
def wDrop : Word := wWord 0x12 (2 * 2 ^ 44)
/-- OPEN into h1 of TYPE 11 with the rights asked for being 0, the identifier in s4: RA of LONG [36:32]. -/
def wOpenW : Word := wWord 0x10 (8 * 2 ^ 47 + 1 * 2 ^ 44 + 4 * 2 ^ 32 + 11)
/-- LD of 8 bytes at s3 into s4: SIZE [31:29] = 3. -/
def wLd : Word := wWord 0x48 (4 * 2 ^ 47 + 3 * 2 ^ 42 + 3 * 2 ^ 29)
/-- LD of a byte of read-only data at 7, sign-extended. -/
def wLdRo : Word := wWord 0x48 (4 * 2 ^ 47 + 0 * 2 ^ 42 + 2 ^ 27 + 2 ^ 26 + 7)
/-- ST of s1 at s3, 4 bytes: RB [41:37]. -/
def wSt : Word := wWord 0x49 (3 * 2 ^ 42 + 1 * 2 ^ 37 + 2 * 2 ^ 29)
/-- AMO CAS of 8 bytes at s3: s1 where s2 stands there, the old value to s4. -/
def wAmo : Word := wWord 0x4A (4 * 2 ^ 47 + 3 * 2 ^ 42 + 1 * 2 ^ 37 + 2 * 2 ^ 32 + 3 * 2 ^ 29 + 2 * 2 ^ 26)

/-- Clerk 7 about to issue FREEZE. -/
def wClerkFrz : State := wClerk wFrz
/-- What it sees. -/
def wIxFrz : Ix := wIx wFrz

/-- The clerk with granule 0 of context 3 mapped, so that s3 = 0x40 names private memory. -/
def wClerkMem (w : Word) : State := (wClerk w).onTlr (fun t => { t with granules := [(3, 0)] })
/-- What it sees. -/
def wIxMem (w : Word) : Ix := wIx w

/-- A Receipt in slot 5 with SERIAL 9, complete or not. -/
def wSlot (done : Bool) : Slot := { Slot.idle with serial := 9, occupied := true, complete := done, word0 := 0x10000, word1 := 0x22 }
/-- The clerk that holds it, its tag in s5. -/
def wClR (done : Bool) : Clerk := (wCl.setSlot 5 (wSlot done)).setS 5 (rcptTag 7 5 9)
/-- Clerk 7 about to issue `w`. -/
def wClerkRcpt (w : Word) (done : Bool) : State := wWith wCtx (wClR done) w
/-- What it sees. -/
def wIxRcpt (w : Word) (done : Bool) : Ix := ⟨7, wClR done, wRun, wImg [w], w⟩
/-- Clerk 7 waiting for that Receipt, its timeout reached. -/
def wClerkWaits : State :=
  wWith wCtx { wClR false with st := .waiting, waitFor := some (.receipt 5), waitUntil := some 0 } wWait

/-- Signal 4 of context 3 with a count. -/
def wSig (n : Nat) : Signal := { gen := 1, live := true, ctx := 3, count := n, refs := 1, waiters := [] }
/-- The clerk with its handle in h2. -/
def wClS : Clerk := { wCl with hreg := ⟨[(2, (wSigH, 1))]⟩ }
/-- Clerk 7 about to issue `w`, the signal's count being 3. -/
def wClerkSig (w : Word) : State := (wWith wCtx wClS w).onTlr (fun t => { t with signals := ⟨[(4, wSig 3)]⟩ })
/-- What it sees. -/
def wIxSig (w : Word) : Ix := ⟨7, wClS, wRun, wImg [w], w⟩
/-- Clerk 7 stalled in a YIELD that has timed out. -/
def wClerkYields : State :=
  (wWith wCtx { wClS with st := .waiting, waitFor := some (.signal 4), waitUntil := some 0 } wYield1).onTlr
    (fun t => { t with signals := ⟨[(4, { wSig 3 with waiters := [(7, 5, 4)] })]⟩ })

/-- A clerk whose only free Receipt slot is 63, so that which slot is taken is settled. -/
def wClL : Clerk := { wCl with slots := ⟨(List.range 63).map (fun k => (k, wSlot false))⟩ }
/-- The same with s4 naming a new signal of context 3. -/
def wClO : Clerk := wClL.setS 4 (sigIdent 3 0 0)
/-- Clerk 7 about to open a signal. -/
def wClerkOpen : State := wWith wCtx wClO wOpenW
/-- What it sees. -/
def wIxOpen : Ix := ⟨7, wClO, wRun, wImg [wOpenW], wOpenW⟩

/-- An empty staged image under verification. -/
def wLoading : State := wUp.onTlr (fun t => { t with loads := [⟨2, [], .firmware⟩] })
/-- A run completion record. -/
def wRec : RunRec := ⟨0xABCD, 0, 0, 0, 0, 0, 0⟩
/-- Clerk 7 drained. -/
def wDrained : State := wWith wCtx { wCl with st := .draining, run := some { wRun with ending := some wRec } } wLi


/-! ### Hubs, stacks and voltages -/

/-- The link Q0 to Q2 has failed. -/
def wLinkDown : State := wUp.onArch (fun a => { a with linksDown := [((0, 2), some 1)] })
/-- Hub Q2 has been declared failed. -/
def wDeclared : State := wUp.declareHub 2
/-- Stack 5 has used its 16 spare lanes. -/
def wLanesUsed : State := wUp.setRepair 5 { StackRep.none with lanes := 16 }
/-- The module is in FLUSH. -/
def wFlushing : State := wUp.setFld Fld.pwrStatus_state 0 2
/-- The module is in standby. -/
def wStandby : State := wUp.onArch (fun a => { a with standby := true })

/-! ### Long instructions on handles -/

/-- A word of the LONG format: MAJOR, RD, H, H2, D, RA, RB, SUB and IMM (Table 8-2). -/
def wLongW (m rd h h2 d ra rb sub imm : Nat) : Word :=
  wWord m (rd * 2 ^ 47 + h * 2 ^ 44 + h2 * 2 ^ 41 + d * 2 ^ 37 + ra * 2 ^ 32 + rb * 2 ^ 27 + sub * 2 ^ 24 + imm)
/-- The clerk with one free Receipt slot and the handles given. -/
def wClH (hs : List (Nat × Handle)) : Clerk := { wClL with hreg := ⟨hs.map (fun p => (p.1, (p.2, 1)))⟩ }
/-- What clerk 7 sees with registers `cl`. -/
def wIxOf (cl : Clerk) (w : Word) : Ix := ⟨7, cl, wRun, wImg [w], w⟩

/-- Customer 9 in h2. -/
def wClC : Clerk := wClH [(2, mkHandle 3 6 0xFF 9)]
/-- Clerk 7 about to issue a Ledger instruction. -/
def wLedger (w : Word) : State := (wWith wCtx wClC w).onSch (fun x => { x with customers := ⟨[(9, { Customer.blank with dirty := true })]⟩ })
/-- What it sees. -/
def wIxLedger (w : Word) : Ix := wIxOf wClC w
/-- CHARGE of s1, with FORCE or without. -/
def wCharge (k : Nat) : Word := wLongW 0x40 8 2 0 0 1 0 k 0
/-- CREDIT of s1. -/
def wCredit : Word := wLongW 0x41 8 2 0 0 1 0 0 0
/-- RENT to s1. -/
def wRent : Word := wLongW 0x42 8 2 0 0 1 0 0 0

/-- A vocabulary of the two tokens a and b, with IDENT 0x77, of context 3. -/
def wVoc : Table :=
  ⟨natLe 10 0 ++ [3, 0] ++ natLe 4 2 ++ natLe 8 0x77 ++ natLe 4 0 ++ natLe 4 0xFFFFF ++ natLe 4 0xFFFFF ++ natLe 4 0xFFFFF ++ natLe 24 0 ++ natLe 8 0x80 ++
    natLe 8 0x90 ++ natLe 48 0 ++ natLe 8 (2 ^ 32) ++ natLe 8 (1 + 2 ^ 32) ++ [0x61, 0x62], false⟩
/-- A grammar for it, with IDENT 0x99. -/
def wGram : Table := ⟨natLe 16 0 ++ natLe 8 0x99 ++ natLe 8 0x77 ++ natLe 96 0, false⟩
/-- A model of that vocabulary without layers. -/
def wModel : Model := ⟨0, 64, [], 0x77, 2, [], false⟩
/-- A sampler block that takes the likeliest token: TOP_P and REP are 1. -/
def wSampler : List Byte := natLe 4 0 ++ natLe 4 0x3F800000 ++ natLe 8 0 ++ natLe 4 0x3F800000 ++ natLe 44 0
/-- Session 5 of context 3. -/
def wSess : Session := { Session.fresh 1 3 5 with text := { TextSt.fresh with temp := 0 } }
/-- An open request. -/
def wReq : ReqBlk := ⟨0, 9, 0, 4, 0, 0, 0, 0, 1, 1, 0, 0, 0, 0, 0, 0, 0, 0, 7, 5, 9, 0, false, false⟩
/-- The same with a request open. -/
def wSessOpen : Session := { wSess with req := some wReq }
/-- The session in h2, the grammar in h3, the vocabulary in h4; a CHANGE descriptor in d3 and a MINT descriptor in d4. -/
def wClT : Clerk :=
  { wClH [(2, mkHandle 3 1 0xFF (ssnIdent 0 3 5 1)), (3, mkHandle 3 10 0xFF 0x99), (4, mkHandle 3 9 0xFF 0x77)] with
    dreg := ⟨[(3, BitVec.ofNat 512 (0x40 + 2 ^ 64 + 0x200 * 2 ^ 128 + 72 * 2 ^ 192)),
              (4, BitVec.ofNat 512 (0x21 + 16 * 2 ^ 160 + 0x200 * 2 ^ 192))]⟩ }
/-- A session, a model, a vocabulary, a grammar and a private granule with a sampler block at 0x40. -/
def wTextOn (x : Session) (w : Word) : State :=
  let s := ((wWith wCtx wClT w).onSsn (fun t => { t with sessions := ⟨[(5, x)]⟩ })).onSch (fun t => { t with models := ⟨[(0, wModel)]⟩ })
  let s : State := { s with txt := ⟨⟨[(1, wVoc)]⟩, ⟨[(1, wGram)]⟩⟩ }
  (s.onTlr (fun t => { t with granules := [(3, 0)] })).putBytes (keyPriv 3 0x40) wSampler
/-- Clerk 7 about to issue a text instruction. -/
def wText (w : Word) : State := wTextOn wSess w
/-- The same with a request open. -/
def wTextOpen (w : Word) : State := wTextOn wSessOpen w
/-- What it sees. -/
def wIxText (w : Word) : Ix := wIxOf wClT w
/-- CLEAR BIND of h2 to h3. -/
def wClearBind : Word := wLongW 0x31 8 2 3 0 0 0 0 0
/-- CLEAR UNBIND. -/
def wClearUnbind : Word := wLongW 0x31 8 2 0 0 0 0 1 0
/-- CLEAR MASK to s3. -/
def wClearMask : Word := wLongW 0x31 8 2 0 0 3 0 2 0
/-- CLEAR ADVANCE by token 0. -/
def wClearAdvance : Word := wLongW 0x31 8 2 0 0 0 0 3 0
/-- SAMPLE CONFIG from s3. -/
def wSampleConfig : Word := wLongW 0x32 8 2 0 0 3 0 0 0
/-- SAMPLE PROBE of s3. -/
def wSampleProbe : Word := wLongW 0x32 8 2 0 0 3 0 1 0
/-- CHANGE CONFIG with SHOW_SPECIAL. -/
def wChangeConfig : Word := wLongW 0x33 8 2 0 0 0 0 0 0x20
/-- CHANGE TEXT by d3 on the vocabulary. -/
def wChangeText : Word := wLongW 0x33 8 4 0 3 0 0 1 0
/-- MINT by d4 on the vocabulary. -/
def wMint : Word := wLongW 0x30 8 4 0 4 0 0 0 0
/-- The bytes at 0x40. -/
def wLogits : List Byte := [0, 0, 0, 0]
/-- The token numbers at 0x40. -/
def wToks : List Byte := [0, 0, 0, 0]
/-- What a write of a private range by clerk 7 leaves. -/
def wAfterWrite (s : State) (w : Word) (h : Nat) (a : Nat) (bs : List Byte) : State :=
  ((((s.issued (wIxText w) .text [h] 63).unitServe 4 (hubOfClerk 7) 3).writePriv 7 3 a bs).map (·.1)).getD s
/-- The mask written. -/
def wMaskWritten : State := wAfterWrite (wText wClearMask) wClearMask 2 0x40 (3 :: natLe 63 0)
/-- The text written. -/
def wTextWritten : State := wAfterWrite (wText wChangeText) wChangeText 4 0x200 (natLe 8 1 ++ [0x61])

/-- The clerk with a handle of a type in h2 and a descriptor in d3. -/
def wClD (ty : Nat) (obj : Word) (d : Nat) : Clerk := { wClH [(2, mkHandle 3 ty 0xFF obj)] with dreg := ⟨[(3, BitVec.ofNat 512 d)]⟩ }
/-- Clerk 7 about to issue `w` on session 5. -/
def wMoveOn (x : Session) (d : Nat) (w : Word) : State :=
  ((wWith wCtx (wClD 1 (ssnIdent 0 3 5 1) d) w).onSsn (fun t => { t with sessions := ⟨[(5, x)]⟩ })).onDfb (fun t =>
    { t with map := { t.map with members := ⟨[(4, ⟨.member, false, 1, 0⟩)]⟩ } })
/-- The same on a fresh session. -/
def wMove (d : Nat) (w : Word) : State := wMoveOn wSess d w
/-- What it sees. -/
def wIxMove (d : Nat) (w : Word) : Ix := wIxOf (wClD 1 (ssnIdent 0 3 5 1) d) w
/-- Controller 4. -/
def wMember : Member := ⟨.member, false, 1, 0⟩
/-- A PARKED session whose KV is gone and is to be recomputed. -/
def wSessCut : Session := { wSess with st := .parked, recompute := some (3, true) }
/-- PARK of h2 by d3. -/
def wPark : Word := wLongW 0x18 8 2 0 3 0 0 0 0
/-- REVIVE. -/
def wRevive : Word := wLongW 0x19 8 2 0 3 0 0 0 0
/-- MOVE. -/
def wMoveW : Word := wLongW 0x1A 8 2 0 3 0 0 0 0
/-- PIN or UNPIN. -/
def wPin : Word := wLongW 0x1B 8 2 0 3 0 0 0 0
/-- HINT. -/
def wHint : Word := wLongW 0x1C 0 2 0 3 0 0 0 0

/-! ### Attention, requests and kernels -/

/-- A softmax layer of one head. -/
def wForm : LayerForm := ⟨0, false, false, 0, 0, 0, 0, 0, 0, 0, 0, 0, 0, 0, 0, 0, false⟩
/-- A model of that layer. -/
def wModelA : Model := { wModel with forms := [wForm] }
/-- A KVU message without entries for layer 0 of step 5 (Table 4-3). -/
def wMsg : List Byte := natLe 8 0x23 ++ natLe 8 5 ++ natLe 16 0
/-- As it is placed. -/
def wRow : RecvMsg := ⟨2, true, 0, 5, 32⟩
/-- Group 0, EXTERNAL for context 3, with its lead on node port 2 and model 0. -/
def wGroup (s : State) : State :=
  (((s.setFld Fld.schGroupCfg_enable 0 1).setFld Fld.schGroupCfg_ports 0 4).onSch (fun t =>
    { t with groups := ⟨[(0, { Group.idle with role := .external, extCtx := 3 })]⟩, models := ⟨[(0, wModelA)]⟩ })).onTlr (fun t =>
      { t with granules := [(3, 0)] })
/-- Clerk 7 about to issue ATTN of the message at 0x40. -/
def wAttn : State :=
  ((wGroup (wWith wCtx (wClD 8 2 (0x40 + 5 * 2 ^ 64)) (wLongW 0x20 8 2 0 3 0 0 0 0))).onKva (fun k =>
    { k with inbox := ⟨[((3, 0x40), wRow)]⟩ })).putBytes (keyPriv 3 0x40) wMsg
/-- What it sees. -/
def wIxAttn : Ix := wIxOf (wClD 8 2 (0x40 + 5 * 2 ^ 64)) (wLongW 0x20 8 2 0 3 0 0 0 0)
/-- Clerk 7 about to merge one record at 0x40 with one at 0x100 into 0x200. -/
def wMerge : State :=
  (wWith wCtx (wClD 8 2 (0x40 + 0x100 * 2 ^ 64 + 0x200 * 2 ^ 128 + 2 ^ 192)) (wLongW 0x21 8 0 0 3 0 0 0 0)).onTlr (fun t => { t with granules := [(3, 0)] })
/-- What it sees. -/
def wIxMerge : Ix := wIxOf (wClD 8 2 (0x40 + 0x100 * 2 ^ 64 + 0x200 * 2 ^ 128 + 2 ^ 192)) (wLongW 0x21 8 0 0 3 0 0 0 0)
/-- The record written. -/
def wMerged : State :=
  (((wMerge.issued wIxMerge .attnMerge [] 63).writePriv 7 3 0x200 (mergeRecord 16 (natLe 72 0) (natLe 72 0))).map (·.1)).getD wMerge
/-- A DISPATCH descriptor: OP, MAX_NEW 4, TAG, model 0, customer 9 and one input token at 0x40. -/
def wReqD (op : Nat) : Nat := op + 4 * 2 ^ 32 + 0xBEEF * 2 ^ 128 + 9 * 2 ^ 208 + 0x40 * 2 ^ 224 + 2 ^ 288
/-- DISPATCH REQUEST of h2 by d3. -/
def wReqW : Word := wLongW 0x28 8 2 0 3 0 0 0 0
/-- Clerk 7 about to issue it for session 5 as given, customer 9 having a balance. -/
def wReqS (x : Session) (op : Nat) : State :=
  let s := (wMoveOn x (wReqD op) wReqW).onSch (fun t =>
    { t with models := ⟨[(0, wModel)]⟩, customers := ⟨[(9, { Customer.blank with balance := 2560, dirty := true })]⟩ })
  let s : State := { s with txt := ⟨⟨[(1, wVoc)]⟩, .empty⟩ }
  (s.onTlr (fun t => { t with granules := [(3, 0)] })).setFld ⟨.schAdmitCfg, 0, 64⟩ 0 0xFFFFFFFFFFFFFFFF
/-- What it sees. -/
def wIxReq (op : Nat) : Ix := wIxOf (wClD 1 (ssnIdent 0 3 5 1) (wReqD op)) wReqW
/-- A session's part in a step. -/
def wPart : StepSess :=
  { sess := 5, ctx := 3, ident := ssnIdent 0 3 5 1, tag := 0, new := 1, toks := [0], inputN := 1, decode := false, recompute := false,
    startLayer := 0, pos := 0, hsr := false, wantLogits := true, boosted := false, customer := 9, reserve := 0, status := none, displacedAt := none,
    token := none, textOut := [], heldN := 0, finish := 0, newText := none, committed := false }
/-- A step in flight on group 0. -/
def wStep : Step :=
  { no := 5, group := 0, halfB := false, start := 0, sessions := [wPart], layer := 0, sentAt := 0, answered := [], atrSent := [], lgt := [],
    textDone := false }
/-- Session 5 in a step, about to be cancelled. -/
def wReqStep : State := (wReqS wSessOpen 2).onSch (fun t => { t with steps := ⟨[(5, wStep)]⟩ })
/-- A kernel descriptor for group 0 with 64 bytes of tables. -/
def wKernelD : Nat := 0x12 + 5 * 2 ^ 64 + 64 * 2 ^ 160
/-- DISPATCH KERNEL from s3 with the results to s3, at most 64 bytes. -/
def wKernelW : Word := wLongW 0x28 8 2 0 3 3 3 1 1
/-- Clerk 7 about to issue it. -/
def wKernel : State := wGroup (wWith wCtx (wClD 8 2 wKernelD) wKernelW)
/-- What it sees. -/
def wIxKernel : Ix := wIxOf (wClD 8 2 wKernelD) wKernelW

/-! ### Vectors -/

/-- Collection 2 of context 3: FP32 vectors of two elements, no partitions, no entries. -/
def wColl : Coll :=
  { gen := 1, ctx := 3, metric := 0, elem := 0, bBits := 1, dim := 2, npart := 0, centroids := 0, seed := 0, maxVectors := 100, elemScale := 0,
    work := 0, workBytes := 65536, epoch := 1, entries := [], tombs := [], log := .empty, exts := [], pages := .empty, jext := none, ver := 0,
    stale := [], fresh := 0, base := 0, fold := none, writes := [], lost := [], dropping := false, gone := [] }
/-- OP n with one key: the keys, vectors, tags and attributes at 0x40; as a SEARCH, K and RERANK of 1, the query and the output at 0x40. -/
def wVecD (op : Nat) (w : Word) : Nat :=
  if wMajor w = 0x38 then op + 2 ^ 16 + 2 ^ 64 + 0x40 * 2 ^ 320 + 0x40 * 2 ^ 384
  else op + 2 ^ 32 + 0x40 * 2 ^ 64 + (if op = 1 then 0x40 * 2 ^ 128 + 0x40 * 2 ^ 192 + 0x40 * 2 ^ 256 else 0)
/-- SEARCH of h2 by d3. -/
def wSearch : Word := wLongW 0x38 8 2 0 3 0 0 0 0
/-- VINSERT. -/
def wVinsert : Word := wLongW 0x39 8 2 0 3 0 0 0 0
/-- VDELETE. -/
def wVdelete : Word := wLongW 0x3A 8 2 0 3 0 0 0 0
/-- The collection's handle object. -/
def wCollObj : Word := BitVec.ofNat 64 (2 * 2 ^ 48 + 1)
/-- Clerk 7 about to issue `w`, with 1 MiB of flush budget and a flash pool with room. -/
def wVec (w : Word) (op : Nat) : State :=
  ((((((wWith wCtx (wClD 2 wCollObj (wVecD op w)) w).wr .flsAdv 0 1000).setFld Fld.flsSbA_free 0 10).onVsr (fun v => { v with colls := ⟨[(2, wColl)]⟩ })).onTlr (fun t =>
    { t with granules := [(3, 0)] })).onBoot (fun b => { b with flashUp := true })).wr .pwrBudget 0 0x100000
/-- What it sees. -/
def wIxVec (w : Word) (op : Nat) : Ix := wIxOf (wClD 2 wCollObj (wVecD op w)) w
/-- The collection with the vector inserted. -/
def wCollNew : Coll := wColl.withInserts 1 false (natLe 8 0) (natLe 8 0) (natLe 4 0) [natLe 8 0] [0]

/-! ### Escrow and Statements -/

/-- Domain region 6 with an owner or none. -/
def wRegion (o : Option Nat) : DomRegion := ⟨0, 0, 1, 0, o, 0, none, 0, 0, 1, 0⟩
/-- The region's handle object. -/
def wRegionObj : Word := BitVec.ofNat 64 (6 * 2 ^ 48 + 1)
/-- Clerk 7 about to issue `w` in a member with a valid leader. -/
def wEsc (o : Option Nat) (w : Word) : State :=
  (((wWith wCtx (wClD 5 wRegionObj 0) w).onDfb (fun d => { d with map := { d.map with regions := ⟨[(6, wRegion o)]⟩ } })).setFld
    Fld.dfbStatus_state 0 2).setFld Fld.dfbStatus_leaderValid 0 1
/-- What it sees. -/
def wIxEsc (w : Word) : Ix := wIxOf (wClD 5 wRegionObj 0) w
/-- ESC.ACQ. -/
def wEscAcq : Word := wLongW 0x50 8 2 0 0 0 0 0 0
/-- ESC.PUB of version s0. -/
def wEscPub : Word := wLongW 0x51 8 2 0 0 0 0 0 0
/-- ESC.REL. -/
def wEscRel : Word := wLongW 0x52 8 2 0 0 0 0 0 0

/-- A job descriptor of context 3 whose coordinator is controller 4, slots of 128 KiB. -/
def wJobDesc : JobDesc := ⟨3, 1, 0, 0, 4, none, 4, 0x55, 131072, 1, 0⟩
/-- A member without a Statement. -/
def wJob : StmJob := StmJob.fresh 1 wJobDesc [] []
/-- A shard of one page of private space. -/
def wShard : Shard :=
  { id := 7, space := 0, dedup := false, off := 0, bytes := 65536, first := 0, copied := [], digests := .empty, ref := false, writer := 0,
    writerRank := 0 }
/-- A Statement of step 9 without shards. -/
def wStmOpen : Statement := ⟨9, 0, [], false, none, []⟩
/-- The same with a shard, its page copied or not. -/
def wStmShard (done : Bool) : Statement := { wStmOpen with shards := [{ wShard with copied := if done then [0] else [] }] }
/-- Members with these open. -/
def wJobOpen : StmJob := { wJob with openSlot := some 0, slotA := some wStmOpen }
/-- A page still to copy. -/
def wJobShard : StmJob := { wJob with openSlot := some 0, slotA := some (wStmShard false) }
/-- Every page copied. -/
def wJobCopied : StmJob := { wJob with openSlot := some 0, slotA := some (wStmShard true) }
/-- BEGIN of step s1, ADD by d3, COMMIT. -/
def wStmW (k : Nat) : Word := wLongW (0x58 + k) 8 2 0 (if k = 1 then 3 else 0) (if k = 0 then 1 else 0) 0 0 0
/-- The job's handle object. -/
def wJobObj : Word := BitVec.ofNat 64 (2 * 2 ^ 54 + 1)
/-- The descriptor of the shard. -/
def wShardD : Nat := 7 * 2 ^ 16 + 65536 * 2 ^ 128
/-- Clerk 7 about to issue a Statement instruction on member 2. -/
def wStm (x : StmJob) (k : Nat) : State :=
  ((wWith wCtx (wClD 7 wJobObj wShardD) (wStmW k)).onStm (fun t => { t with jobs := ⟨[(2, x)]⟩ })).onTlr (fun t => { t with granules := [(3, 0)] })
/-- What it sees. -/
def wIxStm (k : Nat) : Ix := wIxOf (wClD 7 wJobObj wShardD) (wStmW k)

/-! ### Sessions -/

/-- Session 5 as given, nothing else. -/
def wSsn (x : Session) : State := wCtx.onSsn (fun t => { t with sessions := ⟨[(5, x)]⟩ })
/-- The same with an operation of clerk 7 in slot 5. -/
def wSsnR (x : Session) : State := (wSsn x).setClerk 7 (wCl.setSlot 5 (wSlot false))
/-- A session whose PARK to the Passbook alone is under way. -/
def wSessParking : Session := { wSess with st := .parking, placing := some ⟨0xFF, 0, none, none⟩, op := some ⟨7, 5, 9, 1, .active, 0xFF, false⟩ }
/-- A layer not resident. -/
def wLay : LayerSt := { LayerSt.zero with resident := false }
/-- A REVIVING session with one piece at a T4 peer. -/
def wSessStream : Session := { wSess with st := .reviving, kvKept := true, kvTier := 4, parked := [⟨0, 0, 0, 0⟩], layers := ⟨[(0, wLay)]⟩ }
/-- A MOVING session. -/
def wSessMoving : Session := { wSess with st := .moving, op := some ⟨7, 5, 9, 3, .parked, 4, false⟩ }
/-- A PARKED session with a clean page in T1. -/
def wSessClean : Session := { wSess with st := .parked, kvKept := true, kvTier := 2, cleanT1 := true, pages := [⟨0, 0, 0, 5, 7, .clean⟩] }
/-- It stands in a T1 past its high mark. -/
def wSsnFull : State := (((wSsn wSessClean).wr .ssnPgTotal 5 1).wr .ssnPgAlloc 5 9)
/-- An ACTIVE session held for layer 0. -/
def wSessHeld : Session := { wSess with heldSince := some (0, 0), layers := ⟨[(0, wLay)]⟩ }
/-- A REBUILDING session with nothing left to fetch. -/
def wSessRebuild : Session := { wSess with st := .rebuilding, rebuild := some ⟨.parked, some 0, []⟩ }
/-- A moved session without KV. -/
def wCopy : SsnCopy := ⟨3, 0, 0, 9, 0, false, [(1, 0, false)], [], []⟩
/-- A phase switch of context 3 under way. -/
def wPhase : State := (wCtx.onSsn (fun t => { t with phase := some ⟨3, 0, 0, 0, 0⟩ })).setFld Fld.ssnPhaseStatus_state 0 1

/-! ### Attention and steps -/

/-- An ATQ, a KVU and an LDN of step 5 for layer 0 without entries (Table 4-3). -/
def wAtqMsg : List Byte := natLe 8 0x21 ++ natLe 8 5 ++ natLe 48 0
/-- The KVU. -/
def wKvuMsg : List Byte := natLe 8 0x23 ++ natLe 8 5 ++ natLe 48 0
/-- The LDN. -/
def wLdnMsg : List Byte := natLe 8 0x13 ++ natLe 8 5 ++ natLe 48 0
/-- A KERNEL of step 5 that waits for its answer at 0x40. -/
def wKernelOp : KernelOp := ⟨7, 5, 9, 3, 0, 5, 0x40, 64, 0⟩
/-- It is pending on group 0. -/
def wKernelOut : State :=
  ((wGroup wCtx).setClerk 7 (wCl.setSlot 5 (wSlot false))).onSch (fun t => { t with kernels := ⟨[(1, wKernelOp)]⟩ })
/-- Its answer has been written. -/
def wKernelIn (msg : List Byte) : State :=
  (((wKernelOut.onSch (fun t => { t with kernels := t.kernels.del 1 })).writePriv 7 3 0x40 msg).map (·.1)).getD wKernelOut
/-- The KVU has been written. -/
def wKvuIn : State := ((wKernelOut.writePriv noClerk 3 0x40 wKvuMsg).map (·.1)).getD wKernelOut
/-- A page descriptor of a slot that is gone. -/
def wPgDesc : PgDesc := ⟨1, 0, 0, 5, 0, 0, true, 0, 0, 0, 1, 0, 0, 9, 3, 5, false, none, []⟩
/-- The engine of stack 5 with that descriptor. -/
def wEngine : State := wUp.setEngine 5 { wUp.engine 5 with queue := [wPgDesc] }
/-- An ATTN whose first response has gone and whose entries are final. -/
def wAttnOp : AttnOp :=
  { clerk := 7, slot := 5, serial := 9, ctx := 3, port := 2, group := 0, layer := 0, step := 5, kvu := false, partials := 0, addr := 0x40, msg := [],
    native := false, entries := [⟨0, some 5, 1, 1, some 0, true, true, 0, 0, [], []⟩], firstSent := true, finished := false }
/-- It is open. -/
def wAttnOps : State := (wUp.setClerk 7 (wCl.setSlot 5 (wSlot false))).onKva (fun k => { k with ops := ⟨[(1, wAttnOp)]⟩ })

/-- Group 0 in DECODE with ports 2 and 3, model 0 and step 5 in flight on half A. -/
def wStepOf (t : Step) (md : Model) (x : Session) : State :=
  ((((wSsn x).setFld Fld.schGroupCfg_enable 0 1).setFld Fld.schGroupCfg_ports 0 12).onSch (fun h =>
    { h with groups := ⟨[(0, { Group.idle with role := .decode, stepA := some 5, armed := true })]⟩, models := ⟨[(0, md)]⟩, steps := ⟨[(5, t)]⟩ }))
/-- Step 5 with session 5. -/
def wStepState : State := wStepOf wStep wModel wSess
/-- The first shard of the logits of slot 0, one BF16 value in a block of 64 bytes. -/
def wLgtMsg : List Byte := natLe 8 0x14 ++ natLe 8 5 ++ natLe 8 (1 + 2 ^ 15) ++ natLe 8 0 ++ natLe 8 (1 * 2 ^ 14) ++ natLe 88 0
/-- Step 5 whose session was displaced at layer 0. -/
def wHsvStep : Step := { wStep with sessions := [{ wPart with status := some 0x0070, displacedAt := some 0 }] }
/-- It is in flight. -/
def wHsvState : State := wStepOf wHsvStep wModel wSess
/-- Its hidden-state row of 64 BF16 values. -/
def wHsvMsg : List Byte := natLe 8 0x15 ++ natLe 8 5 ++ natLe 8 (1 + 2 ^ 15) ++ natLe 8 0 ++ natLe 8 (1 * 2 ^ 14) ++ natLe 152 0
/-- Step 5 with nothing left to do. -/
def wDoneState : State := wStepOf { wStep with sessions := [] } wModel wSess
/-- A report of context 3. -/
def wReport : Report := ⟨3, 0, false, 5, 0, 0, []⟩
/-- It waits, with Sinil port 0 UP. -/
def wReportState : State :=
  ((wCtx.setFld Fld.schCtxReport_enable 3 1).setFld Fld.lnkPortStatus_state 20 5).onSch (fun t => { t with reports := [wReport] })
/-- Two DECODE groups of model 0, with three confirmations asked for. -/
def wRoles : State :=
  (((((((wCtx.setFld Fld.lnkPortStatus_state 0 5).setFld Fld.lnkPortStatus_state 1 5).setFld Fld.schGroupCfg_enable 0 1).setFld Fld.schGroupCfg_ports 0 1).setFld Fld.schGroupCfg_enable 1 1).setFld Fld.schGroupCfg_ports 1 2).setFld
    Fld.schRoleCfg_confirm 0 3).onSch (fun t =>
    { t with groups := ⟨[(0, { Group.idle with role := .decode }), (1, { Group.idle with role := .decode })]⟩ })

/-- A candidate: session 5. -/
def wCand : StepCand := ⟨5, 0, 0, true⟩
/-- An ACTIVE session with a request of one input token. -/
def wSessWork : Session := { wSess with req := some { wReq with input := 0x40 }, customer := 9, reservedLen := 1000 }
/-- Group 0 is MIXED with port 2 UP; context 3 takes reports. -/
def wPlan : State :=
  let s := (List.range 24).foldl (fun (s : State) m => (s.wr .ssnPgFree m 10).wr .ssnPgTotal m 10) (wSsn wSessWork)
  let s := ((s.setFld Fld.schGroupCfg_enable 0 1).setFld Fld.schGroupCfg_ports 0 4).setFld Fld.lnkPortStatus_state 2 5
  ((s.setFld Fld.schCtxReport_enable 3 1).onSch (fun h =>
    { h with groups := ⟨[(0, { Group.idle with role := .mixed, armed := true })]⟩, models := ⟨[(0, wModel)]⟩,
             customers := ⟨[(9, { Customer.blank with balance := 10000 })]⟩ })).onTlr (fun t => { t with granules := [(3, 0)] })
/-- What its evaluations leave. -/
def wPlanU : State := (wPlan.settleGroups.accrueWait.boostEval [wCand]).wakeSessions
/-- The step formed. -/
def wPlanR : State × Forming :=
  (wPlanU.planOrder wPlanU.stepTokens wPlanU.chunkMax ([wCand].filter (fun c => (wPlanU.sess c.sess).any (wPlanU.mayEnter 0 c)))).foldl
    (fun (a : State × Forming) c => a.1.considerSess wModel (wPlanU.group 0).role a.2 c.1 c.2)
    (wPlanU, { sessions := [], tokens := 0, fill := 0, time := 0, goal := 2 ^ 32, stop := false })
/-- A model descriptor at 0 of hub SRAM with its form table at 64. -/
def wModelMem : State :=
  wUp.putBytes (keyHub 0) (natLe 8 (1 + 64 * 2 ^ 10) ++ natLe 8 64 ++ natLe 8 0x77 ++ natLe 8 2 ++ natLe 32 0)

/-! ### Tables and collections -/

/-- A grammar of one state for the vocabulary 0x77, but for its digest (Table 6-1). -/
def wGramHead : List Byte :=
  [0x4B, 0x43, 0x4C, 0x45, 0x41, 0x52, 0, 0] ++ natLe 2 1 ++ [3, 0] ++ natLe 4 2 ++ natLe 8 0x99 ++ natLe 8 0x77 ++ natLe 4 1 ++ natLe 4 1 ++ natLe 2 1 ++
    natLe 6 0 ++ natLe 8 0x228 ++ natLe 8 0x200 ++ natLe 8 0x208 ++ natLe 8 0x210 ++ natLe 8 0x220 ++ natLe 104 0
/-- Its classes, transition, state, mask and bitmap. -/
def wGramBody : List Byte := natLe 256 0 ++ natLe 40 0
/-- The whole table. -/
def wGramBytes : List Byte := wGramHead ++ Config.shake256 (wGramHead ++ wGramBody) 64 ++ wGramBody
/-- Bytes as they lie in memory from a key. -/
def wCells : Nat → List Byte → List Host.Cell
  | _, [] => []
  | key, b :: bs => (key, b) :: wCells (key + 1) bs
/-- Reading them back. -/
theorem readBytes_skip (x : Nat) (v : Byte) (m : List Host.Cell) : ∀ (n k : Nat), x < k → readBytes ((x, v) :: m) k n = readBytes m k n
  | 0, _, _ => rfl
  | n + 1, k, h => by
    have h1 := readBytes_skip x v m n (k + 1) (by omega)
    have h2 : x ≠ k := by omega
    simp only [readBytes, memRead, if_neg h2, h1]
theorem readBytes_cells : ∀ (bs : List Byte) (key : Nat), readBytes (wCells key bs) key bs.length = bs
  | [], _ => rfl
  | b :: bs, key => by
    show memRead ((key, b) :: wCells (key + 1) bs) key :: readBytes ((key, b) :: wCells (key + 1) bs) (key + 1) bs.length = b :: bs
    rw [readBytes_skip _ _ _ _ _ (Nat.lt_succ_self key), readBytes_cells bs (key + 1)]
    simp [memRead]
theorem readBytes_take (m : List Host.Cell) : ∀ (n k j : Nat), readBytes m k n = (readBytes m k (n + j)).take n
  | 0, _, _ => by simp [readBytes]
  | n + 1, k, j => by
    rw [show n + 1 + j = (n + j) + 1 by omega]
    simp only [readBytes, List.take_succ_cons]
    rw [← readBytes_take m n (k + 1) j]
theorem readMem_cells {u : State} {key : Nat} {bs : List Byte} (n : Nat) (hn : n ≤ bs.length)
    (h : u.readCws (cwsOf key n) = (u, .ok)) (hm : u.mem = wCells key bs) : u.readMem key n = (u, .ok, bs.take n) := by
  unfold State.readMem
  simp only [h, if_true, State.bytesAt, hm]
  rw [readBytes_take _ n key (bs.length - n), show n + (bs.length - n) = bs.length by omega, readBytes_cells]
/-- Reads find no codeword in error. -/
theorem readCws_clean {u : State} (hp : u.poison = []) (hb : u.badSyms = .empty) : ∀ l, u.readCws l = (u, .ok)
  | [] => rfl
  | c :: cs => by
    have h : u.readCw c = (u, .ok) := by simp [State.readCw, hp, hb, Tbl.lookD, Tbl.look, Tbl.empty, rowsLook]
    simp only [State.readCws, h, if_true, readCws_clean hp hb cs]
/-- The table lies at 0x1000 of hub SRAM, its vocabulary loaded. -/
def wTblState : State := { wCtx with txt := ⟨⟨[(1, wVoc)]⟩, .empty⟩, mem := wCells (keyHub 0x1000) wGramBytes }
set_option maxRecDepth 20000 in
theorem wTbl_head : wTblState.sweepTables.readMem (keyHub (0x1000 : Word).toNat) 256 = (wTblState.sweepTables, .ok, wGramBytes.take 256) :=
  readMem_cells (bs := wGramBytes) 256 (by decide +kernel) (readCws_clean rfl rfl _) rfl
set_option maxRecDepth 20000 in
theorem wTbl_whole : wTblState.sweepTables.readMem (keyHub (0x1000 : Word).toNat) (max 0x228 256) = (wTblState.sweepTables, .ok, wGramBytes) :=
  readMem_cells (bs := wGramBytes) 0x228 (by decide +kernel) (readCws_clean rfl rfl _) rfl
set_option maxRecDepth 20000 in
theorem wTbl_check : wTblState.sweepTables.tableCheck .firmware true 0x228 ⟨wGramBytes.take (max 0x228 256), false⟩ = (0, 0) := by
  show wTblState.sweepTables.tableCheck .firmware true 0x228 ⟨wGramBytes, false⟩ = (0, 0)
  unfold State.tableCheck
  rw [if_neg (by decide +kernel), if_neg (by decide +kernel), if_neg (by decide +kernel), if_neg (fun h => h rfl), if_neg (by decide +kernel),
    if_neg (by decide +kernel), if_neg (by decide +kernel)]
  exact congrArg _ (by decide +kernel)
/-- A creation descriptor of a collection of context 3: inner product, FP32, 8 dimensions, one partition (Table 7-2). -/
def wCollDesc : List Byte :=
  natLe 8 (3 + 8 * 2 ^ 14) ++ natLe 8 1 ++ natLe 8 0 ++ natLe 8 0 ++ natLe 8 100 ++ natLe 8 0 ++ natLe 8 0 ++ natLe 8 65536
/-- It lies at 0x1000 of hub SRAM, the context's first granule mapped. -/
def wCollState : State := (wCtx.putBytes (keyHub 0x1000) wCollDesc).onTlr (fun t => { t with granules := [(3, 0)] })
/-- Collection 2, in a state with a flash pool with room. -/
def wVcoll (k : Coll) : State :=
  ((((((wCtx.wr .flsAdv 0 1000).setFld Fld.flsSbA_free 0 10).setFld Fld.vsrCfg_foldEntries 0 1).onVsr (fun v => { v with colls := ⟨[(2, k)]⟩ })).onTlr (fun t =>
    { t with granules := [(3, 0)] })).onBoot (fun b => { b with flashUp := true })).wr .pwrBudget 0 0x100000
/-- A query of it for one result. -/
def wVsearch : VSearch :=
  { rcpt := ⟨7, 5, 9⟩, hub := 0, ctx := 3, coll := 2, q := ⟨false, false, false, 1, 1, 0, 1, 0, 0, 0, 0, [0, 0], 0x40⟩, startedAt := 0, executing := true,
    epoch := 1, ver := 0, entries := [], tombs := [], lost := [], order := [], probed := 1, added := 0, waiting := 0, full := [], cands := [],
    maxPages := 3, assay := false }
/-- It stands on hub 0, with the passes given. -/
def wVq (x : VSearch) (l : List VPass) : State :=
  (((wVcoll wColl).setClerk 7 (wCl.setSlot 5 (wSlot false))).setFld Fld.flsChStatus_state 0 1).onVsr (fun v =>
    { v with searches := ⟨[(4, x)]⟩, passes := ⟨[(0, l)]⟩ })
/-- An entry of the collection. -/
def wVent : VEntry := ⟨1, 0, 0, 0, 0, 1, 0, freshPart 0⟩

/-! ### Flash -/

/-- Channels 0 and 1 in service, two planes of three bits, ten blocks, four pages; ten superblocks, two of them in SLC mode; extent 9 of 64
units. -/
def wFls : State :=
  ((((((((((((wCtx.setFld Fld.flsGcCfg_foldHigh 0 40).setFld Fld.flsGcCfg_foldLow 0 30).setFld Fld.flsChStatus_state 0 1).setFld Fld.flsChStatus_state 1 1).wr .flsChParam 0 (BitVec.ofNat 64 (2 + 3 * 2 ^ 4 + 10 * 2 ^ 8 + 4 * 2 ^ 25))).wr
    .flsChParam 1 (BitVec.ofNat 64 (2 + 3 * 2 ^ 4 + 10 * 2 ^ 8 + 4 * 2 ^ 25))).wr .flsSbTotal 0 (BitVec.ofNat 64 (10 + 2 * 2 ^ 32))).wr .flsAdv 0 1000).wr .flsAdv0 0 1000).wr
    .pwrBudget 0 0x10000000).setFld Fld.flsSbA_free 0 10).onBoot (fun b => { b with flashUp := true, done := [5] })).onFls (fun f =>
    { f with slcFormat := 2, extents := ⟨[(9, ⟨some 3, false, [], 100, 64, none⟩)]⟩, nextExtent := 10, nextUnit := 200 })
/-- What the devices of channel 2 answer. -/
def wNand : NandAnswer := ⟨1, true, true, true, 2, 3, 10, 4, 16384, 2048, true, true, 5, 0, 0x4000000⟩
/-- An entry of superblock 3 on channel 0. -/
def wEnt : MapEnt := ⟨false, false, false, 0, 3, 0⟩
/-- A full superblock of the Vault. -/
def wSbFull : Sb := { st := .full, slc := false, used := 1, valid := 1, wear := 0, reads := 0, closedAt := 0, held := [9], chans := [0, 1] }
/-- Unit 100 lies in superblock 3 or elsewhere; superblock 3 is full. -/
def wFlU (e : MapEnt) (b : Sb) : State :=
  (wFls.wr .flsMapped 0 1).onFls (fun f => { f with map := ⟨[(100, e)]⟩, data := ⟨[(100, [0x5A])]⟩, sbs := ⟨[(3, b)]⟩ })
/-- A write of one unit under way. -/
def wFlW : FlashWr := ⟨4, .request 0x77, 9, 1, [[0x5A]], false, 1, [none]⟩

/-! ### Statements -/

/-- Member 2 as given, controller 4 in the domain, context 3 with its first granule, frame 7 of stack 5 and others free. -/
def wJobs (x : StmJob) : State :=
  let s := (wCtx.onStm (fun t => { t with jobs := ⟨[(2, x)]⟩ })).onTlr (fun t => { t with granules := [(3, 0)] })
  let s := s.onDfb (fun d => { d with map := { d.map with members := ⟨[(0, wMember), (4, wMember)]⟩ } })
  (List.range 24).foldl (fun (s : State) m => (s.wr .ssnPgFree m 10).wr .ssnPgTotal m 20) s
/-- A member with a frame for each slot. -/
def wJob1 : StmJob := { wJob with pagesA := [(5, 7)], pagesB := [(5, 8)] }
/-- A shard of one byte. -/
def wShard1 : Shard := { wShard with bytes := 1 }
/-- Its Statement of step 9 with header, the member commit record or none. -/
def wStm1 (done : Bool) (m : Option Nat) : Statement := { wStmOpen with shards := [{ wShard1 with copied := if done then [0] else [] }], header := done, mcr := m }
/-- It is open in slot A. -/
def wJobO (done : Bool) (m : Option Nat) : StmJob := { wJob1 with openSlot := some 0, slotA := some (wStm1 done m) }
/-- It is committed. -/
def wJobC : StmJob := { wJob1 with slotA := some (wStm1 true (some 0)), record := some ⟨9, 0, false, false, [], 0, 1⟩ }
/-- This controller coordinates it. -/
def wJobSelf (x : StmJob) : StmJob := { x with desc := { x.desc with coord := 0 } }
/-- A job descriptor of context 3: one member, the peer and coordinator controller 4, tag 0x56, slots of one page (Table 10-1). -/
def wJobBytes : List Byte := natLe 8 (3 + 4 * 2 ^ 30 + 4 * 2 ^ 41) ++ natLe 8 0x56 ++ natLe 8 65536 ++ natLe 40 0
/-- It lies at 0x1000 of hub SRAM. -/
def wJobNew : State := (wJobs wJob1).putBytes (keyHub 0x1000) wJobBytes
/-- Member 2 with step 9 to flush, in a state with a flash pool with room. -/
def wFlushJob : State :=
  (((((wJobs { wJobC with flushing := some 9 }).wr .flsAdv 0 1000).setFld Fld.flsSbA_free 0 10).onBoot (fun b => { b with flashUp := true })).wr
    .pwrBudget 0 0x100000)
/-- The two units of its one page. -/
def wFlushData : List (List Byte) :=
  [takeAt (wFlushJob.slotPage { wJobC with flushing := some 9 } 0 0) 0 unitBytes, takeAt (wFlushJob.slotPage { wJobC with flushing := some 9 } 0 0) unitBytes unitBytes]

/-! ### Node memory -/

/-- Node region 6 of 16 granules at offset 0, readable and writable by every agent, as given. -/
def wNregion : Region :=
  { gen := 1, ctx := 3, temp := 0, hostPark := false, readM := 1023, writeM := 1023, base := 0, granules := 16, stks := [5], phase := none, dying := false }
/-- A window with that region; head 0 and the agent of node port 1 in service. -/
def wNmcR (r : Region) : State :=
  (((wCtx.setFld Fld.nmcAgentStatus_state 0 1).setFld Fld.nmcAgentStatus_state 3 1).onNmc (fun m => { m with window := 1024, regions := ⟨[(6, r)]⟩ }))
/-- The same with the region in DRAM, WARM. -/
def wNmc : State := wNmcR wNregion
/-- Head 0 holds line 1 exclusive, a recall under way. -/
def wNmcHeld (a : Nat) : State :=
  wNmc.onNmc (fun m => { m with dir := ⟨[(1, ⟨.excl, [], a, true, 0⟩)]⟩, recalls := ⟨[((1, a), ⟨true, 0, 0, false⟩)]⟩ })
/-- Headers of MRD, MWR, MAT and RCA of tag 0x55 (Table 11-4); the address is 64. -/
def wMrd : Word := BitVec.ofNat 64 (0x41 + 0x55 * 2 ^ 8 + 6 * 2 ^ 24)
/-- MWR. -/
def wMwr : Word := BitVec.ofNat 64 (0x42 + 0x55 * 2 ^ 8 + 6 * 2 ^ 24)
/-- MAT, an addition of 8 bytes. -/
def wMat : Word := BitVec.ofNat 64 (0x43 + 0x55 * 2 ^ 8 + 3 * 2 ^ 24)
/-- RCA with data. -/
def wRca : Word := BitVec.ofNat 64 (0x46 + 6 * 2 ^ 24 + 2 ^ 27)
/-- A region descriptor of context 3, one granule (Table 11-1). -/
def wRegionBytes : List Byte := natLe 8 (3 + 2 ^ 10) ++ natLe 8 1 ++ natLe 16 0
/-- It lies at 0x1000 of hub SRAM. -/
def wRegionNew : State := wNmc.putBytes (keyHub 0x1000) wRegionBytes
/-- Region 6 is COLD and has idled, with a flash pool with room. -/
def wNmcCold : State :=
  { wFls with now := 10000000000000 }.onNmc (fun m => { m with window := 1024, regions := ⟨[(6, { wNregion with temp := 2, hostPark := true })]⟩ })
    |>.setFld Fld.nmcCfg_coldEn 0 1
/-- Granule 2 of it is parked in extent 9. -/
def wNmcParked : State :=
  wFls.onNmc (fun m => { m with window := 1024, regions := ⟨[(6, wNregion)]⟩, parked := ⟨[((6, 2), 9)]⟩ })

/-! ### The domain -/

/-- Domain region 6 of one granule with a protection, of tenant 0x77. -/
def wDomR (p : Nat) : DomRegion := ⟨0x77, 0, 1, p, none, 0, none, 0, 0, 1, 0⟩
/-- A member of a domain of controllers 0 and 4, the first of them this one, that follows controller 4; its region has its frame backed. -/
def wDom (p : Nat) : State :=
  ((((wCtx.onDfb (fun d => { d with
    map := { d.map with epoch := 3, members := ⟨[(0, wMember), (4, wMember)]⟩, regions := ⟨[(6, wDomR p)]⟩, founder := 0, paths := ⟨[((0, 4), 1)]⟩ }
    share := 16, frames := [0] })).setFld Fld.dfbStatus_state 0 2).setFld Fld.dfbStatus_leaderValid 0 1).setFld Fld.dfbStatus_leader 0 4).wr .secCtxTenant 3 0x77
/-- The same as the leader. -/
def wLead : State := (wDom 0).onDfb (fun d => { d with leading := true })
/-- A controller alone. -/
def wAlone : State := ((wDom 0).setFld Fld.dfbStatus_state 0 0).onDfb (fun d => { d with map := { d.map with members := .empty, regions := .empty } })
/-- A request of controller 4 for the line at 64. -/
def wDhdr : DHdr := ⟨4, 3, 0, 9, false, 3, 0x77, 64⟩
/-- A clerk's load under way to controller 4. -/
def wDreq : DomReq :=
  { clerk := 7, runAt := 0, pc := 0, addr := 0x40, kind := 0, body := .load, size := 3, op := 0, off := 64, tenant := 0x77, moved := 0, sentTo := some 4,
    port := 8, sentAt := 0, tries := 0, resent := false, heldAt := none, behind := false, waitEpoch := 0 }
/-- It is open as serial 9, every home being controller 4. -/
def wDreqs (r : DomReq) : State :=
  { (wDom 0).onDfb (fun d => { d with reqs := ⟨[(9, r)]⟩, map := { d.map with founder := 4 } }) with now := 1000000000000 }
/-- A domain region descriptor of tenant 0x77, one granule (Table 12-2). -/
def wDregBytes : List Byte := natLe 8 0x77 ++ natLe 8 1 ++ natLe 16 0
/-- It lies at 0x1000 of hub SRAM; each member contributes 1 GiB. -/
def wDregNew : State :=
  (((wDom 0).onDfb (fun d => { d with map := { d.map with members := ⟨[(0, ⟨.member, false, 1, 1⟩), (4, ⟨.member, false, 1, 1⟩)]⟩, grantCfg := 100 } })).setFld
    Fld.dfbStatus_quorum 0 1).putBytes (keyHub 0x1000) wDregBytes
/-- A grant of two pages to controller 4. -/
def wGrant : T4Grant := ⟨4, 0, 2, 1, none, false⟩
/-- It stands, this member having frames. -/
def wLends (g : T4Grant) : State :=
  (List.range 24).foldl (fun (s : State) m => (s.wr .ssnPgFree m 10).wr .ssnPgTotal m 20)
    ((wDom 0).onDfb (fun d => { d with lent := [g], grantCtr := 2, map := { d.map with grantCfg := 0xFFFFFF } }))
/-- A T1 past its high mark. -/
def wLendsFull : State := (List.range 24).foldl (fun (s : State) m => s.wr .ssnPgAlloc m 20) (wLends wGrant)
/-- A PARKED session whose piece controller 4 holds. -/
def wSessAway : Session := { wSess with st := .parked, kvKept := true, kvTier := 4, t4Peer := some 4, parked := [⟨0, 0, 0, 0⟩] }
/-- Its room is borrowed. -/
def wBorrow : State := (wLends wGrant).onDfb (fun d => { d with lent := [], borrowed := [⟨4, 5, 1, 3, none, false⟩] })
    |>.onSsn (fun t => { t with sessions := ⟨[(5, wSessAway)]⟩ })

/-- Port `p` in a state of Table 13-2, enabled, with bring-up at its step. -/
def wLnk (p st : Nat) : State :=
  (({ wUp with boot := { wUp.boot with done := [5, 11] } }).setFld Fld.lnkPortStatus_state p st).setFld Fld.lnkPortCfg_enable p 1

/-! ### Contexts, keys and attestation -/

/-- An install descriptor: tenant 0x99, the FREEZE right, image floor 7, one control key and one image key of zeros (Table 14-2). -/
def wInstHead : List Byte :=
  [0x4B, 0x43, 0x4F, 0x4E, 0x54, 0x45, 0x58, 0x54] ++ natLe 8 0x99 ++ natLe 4 1 ++ natLe 4 7 ++ [0, 1, 1, 0] ++ natLe 36 0
/-- A ciphertext. -/
def wCt : List Byte := List.replicate 1568 0
/-- Key confirmation of its secret. -/
def wConfirm : List Byte := Config.shake256 (Config.kemDecap wCt ++ labelConfirm) 32
/-- The whole descriptor. -/
def wInst : List Byte := wInstHead ++ wCt ++ wConfirm ++ List.replicate (0x4000 - 0x680) 0
/-- It lies at 0x1000 of hub SRAM; connection 9 of port 0 is the operator's; service is open. -/
def wInstState : State :=
  { (wUp.setFld Fld.glbStatus_service 0 1).onSec (fun x => { x with conns := ⟨[((0, 9), ⟨some .operator⟩)]⟩ }) with
    mem := wCells (keyHub 0x1000) wInst }
theorem wInst_len : wInst.length = 0x4000 := by
  simp only [wInst, wInstHead, wCt, wConfirm, Config.shake256, List.length_append, List.length_replicate, List.length_map, List.length_range]
  decide +kernel
theorem wInst_read : wInstState.bytesAt (keyHub (0x1000 : Word).toNat) 0x4000 = wInst := by
  have h := readBytes_cells wInst (keyHub (0x1000 : Word).toNat)
  rw [wInst_len] at h
  exact h
set_option maxRecDepth 40000 in
theorem wInst_ct : takeAt wInst 0x40 1568 = wCt := by decide +kernel
set_option maxRecDepth 40000 in
theorem wInst_form : installForm wInst = true := by decide +kernel
set_option maxRecDepth 40000 in
theorem wInst_confirm : takeAt wInst 0x660 32 = wConfirm := rfl
set_option maxRecDepth 40000 in
theorem wInst_index : wInstState.installIndex (installRec wInst) = some 0 := by decide +kernel
set_option maxRecDepth 40000 in
theorem wInst_tenant : (decide ((installRec wInst).tenant = 0) || (List.range 64).any (fun k => decide (k ≠ 0) &&
    decide (wInstState.ctxState k ≠ 0) && decide (wInstState.rd .secCtxTenant k = (installRec wInst).tenant))) = false := by decide +kernel
theorem wInst_secret : Config.shake256 ((installRec wInst).secret.getD [] ++ labelConfirm) 32 = takeAt wInst 0x660 32 := by
  show Config.shake256 (Config.kemDecap (takeAt wInst 0x40 1568) ++ labelConfirm) 32 = takeAt wInst 0x660 32
  rw [wInst_ct, wInst_confirm]; rfl
set_option maxRecDepth 40000 in
theorem wInst_quiet : wInstState.quietFree 0 (installRec wInst) = true := by decide +kernel
theorem wInst_check : wInstState.installCheck (.sinil 0 9) wInst = 0 := by
  have h2 : wInstState.isOperator (.sinil 0 9) = true := rfl
  have h7 : wInstState.mramQuorum = true := by decide +kernel
  have h4 := wInst_tenant
  simp only [State.installCheck, wInst_form, wInst_index, wInst_secret, wInst_quiet, h2, h7, Bool.not_true, Bool.false_eq_true, if_false, ne_eq,
    not_true, decide_not]
  rw [if_neg]
  simpa using h4
/-- A job-key block for context 3, slot 5 (R339). -/
def wJobKey : List Byte := [3, 5] ++ natLe 14 0 ++ wCt ++ wConfirm
set_option maxRecDepth 40000 in
theorem wJobKey_ct : takeAt wJobKey 16 1568 = wCt := by decide +kernel
set_option maxRecDepth 40000 in
theorem wJobKey_tag : takeAt wJobKey 1584 32 = wConfirm := rfl
theorem wJobKey_confirm : Config.shake256 (Config.kemDecap (takeAt wJobKey 16 1568) ++ labelConfirm) 32 = takeAt wJobKey 1584 32 := by
  rw [wJobKey_ct, wJobKey_tag]; rfl
/-- Context 3 at a step of its Sweep. -/
def wSweepCtx (step : Nat) (discard : Bool) : Ctx := ⟨⟨1, 2, discard, 0x77, 1, 0, [], [], 0, 0, 0, 0, some []⟩, step, .empty, .empty, []⟩
/-- The controller with it SWEEPING. -/
def wSweep (step : Nat) (discard : Bool) : State :=
  ((wUp.wr .secCtxState 3 0x6).wr .secCtxTenant 3 0x77).onSec (fun x => { x with ctxs := x.ctxs.put 3 (wSweepCtx step discard) })
/-- A context with one control key. -/
def wBindCtx : Ctx := ⟨⟨1, 1, false, 0x77, 1, 0, [[7]], [], 0, 0, 0, 0, some []⟩, 0, .empty, .empty, []⟩
/-- It is RESIDENT and service is open. -/
def wBindable : State := (wCtx.setFld Fld.glbStatus_service 0 1).onSec (fun x => { x with ctxs := ⟨[(3, wBindCtx)]⟩ })
/-- The DOE responder as given. -/
def wSpdm (x : Spdm) : State := wUp.setSpdm .doe x
/-- Context 3's TDI in a state, bound to a selective stream of head 1. -/
def wTdi (k : Nat) : State := (wCtx.setFld Fld.secCtxState_tdi 3 k).onSec (fun x => { x with ide := ⟨[((1, 5), ⟨true, some 3, false⟩)]⟩ })
/-- Sinil port 1 UP with TIME in force, IEEE 1588 enabled. -/
def wPtp : State := ((wLnk 21 5).setFld Fld.lnkPortStatus_features 21 3).setFld Fld.timPtpCfg_enable 0 1

/-! ### Bring-up -/

/-- All four hubs in service, bring-up at the steps given, a firmware source being tried. -/
def wBoot (done : List Nat) (k : Option Nat) : State := { wUp with boot := { wUp.boot with done := done, trying := k } }
/-- Hub 2 out of service, its return under way. -/
def wReturning : State :=
  (((wUp.onArch (fun a => { a with hubs := a.hubs.put 2 .out })).onBoot (fun b => { b with returning := [2] })).setFld Fld.flsChStatus_state 16 1)

/-! ### Whole-machine statements -/

/-- A frozen module with ordinary commands waiting. -/
def wFrozen : State :=
  { wCtx with frz := { wCtx.frz with frozen := true }, pending := [.patrolScrub 0, .hubHeartbeatMiss 1, .trainTimeout 3] }
/-- Memory with two bytes listed. -/
def wSafe : State := wUp.putBytes 0x40 [1, 2]

/-! ### An image that every check accepts -/

/-- Its header up to DIGEST: ISA 3.0, context 3, one entry, 8 bytes of code, a signature of 3,309 bytes (Table 2-1). -/
def wSignHead : List Byte :=
  [0x4B, 0x45, 0x41, 0x47, 0x4F, 0x4E, 0, 0] ++ [3, 0, 1, 0] ++ natLe 4 0 ++ [3, 0, 0, 0] ++ natLe 4 0 ++ natLe 8 0x10 ++ natLe 4 8 ++ natLe 4 0 ++
  natLe 8 0 ++ [1, 0, 1, 0] ++ natLe 4 3309 ++ natLe 8 0 ++ natLe 128 0
/-- Its code. -/
def wSignCode : List Byte := natLe 8 0
/-- Its digest. -/
def wSignDigest : List Byte := Config.shake256 (wSignHead ++ wSignCode) 64
/-- What is signed. -/
def wSignBody : List Byte := wSignHead ++ wSignDigest ++ wSignCode
/-- The signature under the key [7]. -/
def wSignSig : List Byte := Config.mlDsa65Sign [7] wSignBody 0
/-- The whole image, to be loaded into slot 5. -/
def wSignLoad : ImgLoad := ⟨5, wSignBody ++ wSignSig, .firmware⟩
/-- Context 3 has that image-signing key, and the image is being verified. -/
def wSignState : State :=
  (wCtx.onSec (fun x => { x with ctxs := ⟨[(3, ⟨⟨1, 1, false, 0x77, 1, 0, [], [[7]], 0, 0, 0, 0, some []⟩, 0, .empty, .empty, []⟩)]⟩ })).onTlr
    (fun t => { t with loads := [wSignLoad] })
set_option maxRecDepth 40000 in
theorem wSign_len : wSignBody.length = 0x108 := by decide +kernel
set_option maxRecDepth 40000 in
theorem wSign_form : imageForm wSignLoad.bytes = true := by decide +kernel
set_option maxRecDepth 40000 in
theorem wSign_size : (decide (1048576 < imageLen wSignLoad.bytes) || decide (leAt wSignLoad.bytes 0x20 4 % 8 ≠ 0)) = false := by decide +kernel
set_option maxRecDepth 40000 in
theorem wSign_signed : imageSigned wSignLoad.bytes = 0x108 := by decide +kernel
set_option maxRecDepth 40000 in
theorem wSign_take : wSignLoad.bytes.take 0x108 = wSignBody := List.take_left' wSign_len
set_option maxRecDepth 40000 in
theorem wSign_drop : wSignLoad.bytes.drop 0x108 = wSignSig := List.drop_left' wSign_len
set_option maxRecDepth 40000 in
theorem wSign_head : wSignLoad.bytes.take 0xC0 = wSignHead := by decide +kernel
set_option maxRecDepth 40000 in
theorem wSign_code : wSignBody.drop 0x100 = wSignCode := by decide +kernel
set_option maxRecDepth 40000 in
theorem wSign_digest : takeAt wSignLoad.bytes 0xC0 64 = wSignDigest := rfl
set_option maxRecDepth 40000 in
theorem wSign_verifies : Config.mlDsa65Verify [7] wSignBody wSignSig = true := decide_eq_true ⟨0, by norm_num, rfl⟩
set_option maxRecDepth 40000 in
theorem wSign_check : wSignState.imageCheck wSignLoad = 0 := by
  have h3 : isaAccepted wSignLoad.bytes = true := by decide +kernel
  have h4 : (wSignState.resident (leAt wSignLoad.bytes 0x10 1 % 64) && wSignState.actsFor wSignLoad.requester (leAt wSignLoad.bytes 0x10 1 % 64)) = true := by
    decide +kernel
  have hk : wSignState.imageKey (leAt wSignLoad.bytes 0x10 1 % 64) (leAt wSignLoad.bytes 0x11 1 % 4) = some [7] := by decide +kernel
  have h5 : Config.shake256 (wSignHead ++ wSignCode) 64 = wSignDigest := rfl
  have h7 : ¬(leAt wSignLoad.bytes 0x14 4 < (wSignState.rd .secCtxFloor (leAt wSignLoad.bytes 0x10 1 % 64)).toNat) := by decide +kernel
  have h8 : wSignState.tlr.images.has wSignLoad.slot = false := by decide +kernel
  have h9 : ¬(33554432 < wSignState.imageBytes + imageLen wSignLoad.bytes) := by decide +kernel
  have h1 := wSign_size
  simp only [State.imageCheck, wSign_signed, wSign_take, wSign_drop, wSign_head, wSign_code, wSign_digest, wSign_form, h3, h4, hk, h5, h8, wSign_verifies,
    Bool.not_true, Bool.false_eq_true, if_false, ne_eq, not_true, if_neg h7, if_neg h9]
  rw [if_neg]
  simpa using h1

/-! ### The statements’ hypotheses are met -/

/-- Each clause of `IdleStepPassesOneNanosecond` has a state and operands that meet its hypotheses. -/
theorem test_witness_idle_step_passes_one_nanosecond :
    (∃ (s : State), s.pending = [] ∧ s.Live) ∧
    (∃ (s : State), s.pending = [] ∧ s.frz.frozen = true) :=
  ⟨⟨wUp, by decide +kernel, by decide +kernel⟩,
   ⟨{ wCtx with frz := { wCtx.frz with frozen := true } }, by decide +kernel, by decide +kernel⟩⟩

/-- Each clause of `FrozenModuleHoldsStill` has a state and operands that meet its hypotheses. -/
theorem test_witness_frozen_module_holds_still :
    (∃ (c : Instr) (s : State), s.frz.frozen = true ∧ actsFrozen c = false) ∧
    (∃ (n : Nat) (s : State), s.frz.frozen = true ∧ (s.pending.all (fun c => !(actsFrozen c)) = true) ∧ s.pending.length ≤ n) :=
  ⟨⟨.budgetRecompute 5200, wFrozen, by decide +kernel, by decide +kernel⟩,
   ⟨9, wFrozen, by decide +kernel, by decide +kernel, by decide +kernel⟩⟩

/-- Each clause of `MemoryStaysCanonical` has a state and operands that meet its hypotheses. -/
theorem test_witness_memory_stays_canonical :
    (∃ (s : State) (t : State), s.safe ∧ step s = .next t) :=
  ⟨wSafe, wSafe.tick, by decide +kernel, rfl⟩

/-- Each clause of `TagFailureRetriesThenRekeys` has a state and operands that meet its hypotheses. -/
theorem test_witness_tag_failure_retries_then_rekeys :
    (∃ (p : Nat) (h : FrameHdr) (s : State), s.Live ∧ (s.portSt p = 5 ∧ (s.port p).tagFails.contains (h.queue, h.msg, h.offset) = false)) ∧
    (∃ (p : Nat) (h : FrameHdr) (s : State), s.Live ∧ (s.portSt p = 5 ∧ (s.port p).tagFails.contains (h.queue, h.msg, h.offset) = true)) ∧
    (∃ (p : Nat) (lanes : Nat) (s : State), s.Live ∧ (s.portSt p = 6 ∧ (s.port p).rekeys = true) ∧ ((portWidths p).contains lanes = true ∧ s.minLanes p ≤ lanes ∧ s.now ≤ (s.port p).since + 5000000)) :=
  ⟨⟨3, ⟨4, true, true, 2, 7, 0, 3, 0, 0⟩, wLnk 3 5, by decide +kernel, by decide +kernel⟩,
   ⟨3, ⟨4, true, true, 2, 7, 0, 3, 0, 0⟩, (wLnk 3 5).updPort 3 (fun x => { x with tagFails := [(4, 7, 0)] }), by decide +kernel, by decide +kernel⟩,
   ⟨3, 8, (wLnk 3 6).updPort 3 (fun x => { x with rekeys := true }), by decide +kernel, by decide +kernel, by decide +kernel⟩⟩

/-- Each clause of `AgedBankIsReportedAndStillCounts` has a state and operands that meet its hypotheses. -/
theorem test_witness_aged_bank_is_reported_and_still_counts :
    (∃ (c : Nat) (esr : Nat) (s : State), s.Live ∧ (s.pwr.measuring = true ∧ c < 2 ^ 32 ∧ esr < 2 ^ 16)) ∧
    (∃ (s : State), s.Live ∧ s.pwr.measured = true) :=
  ⟨⟨900, 60000, wUp.onPwr (fun p => { p with measuring := true, vbank := 5200 }), by decide +kernel, by decide +kernel⟩,
   ⟨(wUp.onPwr (fun p => { p with measured := true })).wr .pwrBank 0 (BitVec.ofNat 64 (900 + 60000 * 2 ^ 32)), by decide +kernel, by decide +kernel⟩⟩

/-- Each clause of `HubsAndStacksFail` has a state and operands that meet its hypotheses. -/
theorem test_witness_hubs_and_stacks_fail :
    (∃ (m : Nat) (s : State), s.Live ∧ s.stackUp m = true ∧ s.arch.stackLinksDown.contains m = false) ∧
    (∃ (a : Nat) (b : Nat) (s : State), s.Live ∧ a < b ∧ (s.hubUp a = true ∧ s.hubUp b = true) ∧ s.arch.linksDown = []) ∧
    (∃ (a : Nat) (b : Nat) (s : State) (k : Nat × Nat) (v : Option Nat), s.Live ∧ a < b ∧ (s.hubUp a = true ∧ s.hubUp b = true) ∧ s.arch.linksDown = [(k, v)] ∧ (k ≠ (a, b) ∧ k.1 = a)) ∧
    (∃ (h : Nat) (s : State), s.Live ∧ s.hubUp h = true) ∧
    (∃ (h : Nat) (s : State), s.Live ∧ h < 4 ∧ s.arch.hubs.lookD h .held = .declared) ∧
    (∃ (m : Nat) (s : State), s.Live ∧ s.stackUp m = true) ∧
    (∃ (key : Nat) (s : State), s.Live ∧ s.poison.contains (cwOf key) = false ∧ s.badSyms.lookD (cwOf key) 0 ≤ 1) ∧
    (∃ (m : Nat) (layer : Nat) (bank : Nat) (s : State), s.Live ∧ s.stackUp m = true ∧ (s.repair m).rows.lookD (layer, bank) 0 < 16) ∧
    (∃ (m : Nat) (s : State), s.Live ∧ s.stackUp m = true ∧ (s.repair m).lanes < 16) ∧
    (∃ (m : Nat) (s : State), s.Live ∧ s.stackUp m = true ∧ 16 ≤ (s.repair m).lanes) ∧
    (∃ (m : Nat) (layer : Nat) (s : State), s.Live ∧ s.stackUp m = true ∧ (s.repair m).layers.contains layer = false) :=
  ⟨⟨5, wUp, by decide +kernel, by decide +kernel, by decide +kernel⟩,
   ⟨0, 3, wUp, by decide +kernel, by decide +kernel, by decide +kernel, by decide +kernel⟩,
   ⟨0, 3, wLinkDown, (0, 2), some 1, by decide +kernel, by decide +kernel, by decide +kernel, by decide +kernel, by decide +kernel⟩,
   ⟨2, wUp, by decide +kernel, by decide +kernel⟩,
   ⟨2, wDeclared, by decide +kernel, by decide +kernel, by decide +kernel⟩,
   ⟨5, wUp, by decide +kernel, by decide +kernel⟩,
   ⟨0x40, wUp, by decide +kernel, by decide +kernel, by decide +kernel⟩,
   ⟨5, 2, 3, wUp, by decide +kernel, by decide +kernel, by decide +kernel⟩,
   ⟨5, wUp, by decide +kernel, by decide +kernel, by decide +kernel⟩,
   ⟨5, wLanesUsed, by decide +kernel, by decide +kernel, by decide +kernel⟩,
   ⟨5, 2, wUp, by decide +kernel, by decide +kernel, by decide +kernel⟩⟩

/-- Each clause of `CornersAndVoltages` has a state and operands that meet its hypotheses. -/
theorem test_witness_corners_and_voltages :
    (∃ (n : Nat) (v : Nat) (s : State), s.Live ∧ n < 466 ∧ s.paceUp n = true ∧ v < 2 ^ 48) ∧
    (∃ (n : Nat) (s : State), s.Live ∧ n < 466 ∧ s.paceUp n = false) ∧
    (∃ (tC : Nat) (s : State), s.Live ∧ 105 < tC) ∧
    (∃ (mv : Nat) (tC : List Nat) (s : State), s.Live ∧ (620 ≤ mv ∧ mv < 65536) ∧ (∀ x ∈ tC, x < 100) ∧ s.arch.standby = false) ∧
    (∃ (tC : Nat) (s : State), 115 ≤ tC ∧ s.pwrSt ≤ 1) ∧
    (∃ (tC : Nat) (s : State), 115 ≤ tC ∧ s.pwrSt = 2) ∧
    (∃ (mv : Nat) (s : State), s.Live ∧ mv < 620 ∧ s.arch.standby = false) ∧
    (∃ (mv : Nat) (s : State), mv < 500 ∧ s.pwrSt ≠ 2) ∧
    (∃ (mv : Nat) (s : State), s.Live ∧ s.quiet = true ∧ s.pwrSt = 0 ∧ (550 ≤ mv ∧ mv ≤ 850)) ∧
    (∃ (mv : Nat) (s : State), s.Live ∧ s.arch.standby = true ∧ (620 ≤ mv ∧ mv ≤ 850)) :=
  ⟨⟨3, 100, wUp, by decide +kernel, by decide +kernel, by decide +kernel, by decide +kernel⟩,
   ⟨3, State.reset, by decide +kernel, by decide +kernel, by decide +kernel⟩,
   ⟨106, wUp, by decide +kernel, by decide +kernel⟩,
   ⟨700, [90, 80], wUp, by decide +kernel, by decide +kernel, by decide +kernel, by decide +kernel⟩,
   ⟨115, wUp, by decide +kernel, by decide +kernel⟩,
   ⟨115, wFlushing, by decide +kernel, by decide +kernel⟩,
   ⟨600, wUp, by decide +kernel, by decide +kernel, by decide +kernel⟩,
   ⟨480, wUp, by decide +kernel, by decide +kernel⟩,
   ⟨560, wUp, by decide +kernel, by decide +kernel, by decide +kernel, by decide +kernel⟩,
   ⟨640, wStandby, by decide +kernel, by decide +kernel, by decide +kernel⟩⟩

/-- Each clause of `ImagesLoadAndUnload` has a state and operands that meet its hypotheses. -/
theorem test_witness_images_load_and_unload :
    (∃ (rq : Requester) (s : State), WriteOpen s rq .tlrImgLoad 0) ∧
    (∃ (s : State) (l : ImgLoad) (rest : List ImgLoad), s.Live ∧ s.tlr.loads = l :: rest ∧ s.imageCheck l = 0) ∧
    (∃ (s : State) (l : ImgLoad) (rest : List ImgLoad), s.Live ∧ s.tlr.loads = l :: rest ∧ s.imageCheck l ≠ 0) ∧
    (∃ (rq : Requester) (v : Word) (s : State) (img : Image), WriteOpen s rq .tlrImgUnload 0 ∧ s.tlr.images.look (bits v.toNat 0 6) = some img ∧ s.actsFor rq img.ctx = true) :=
  ⟨⟨.firmware, wUp, by decide +kernel⟩,
   ⟨wSignState, wSignLoad, [], by decide +kernel, rfl, wSign_check⟩,
   ⟨wLoading, ⟨2, [], .firmware⟩, [], by decide +kernel, by decide +kernel, by decide +kernel⟩,
   ⟨.firmware, 0, wClerk wLi, wImg [wLi], by decide +kernel, by decide +kernel, by decide +kernel⟩⟩

/-- Each clause of `RunsStartAndEnd` has a state and operands that meet its hypotheses. -/
theorem test_witness_runs_start_and_end :
    (∃ (rq : Requester) (v : Word) (s : State) (r : RunReq) (img : Image) (c : Nat), WriteOpen s rq .tlrRunStart 0 ∧ low6 v = 0 ∧ r = runReqOf (s.bytesAt (keyHub v.toNat) 64) rq ∧ s.tlr.images.look r.slot = some img ∧ s.actsFor rq img.ctx = true ∧ r.entry < img.entryCount ∧ r.hub < 4 ∧ s.hubUp r.hub = true ∧ bits (leAt (s.bytesAt (keyHub v.toNat) 64) 0 8) 15 17 = 0 ∧ img.draining = false ∧ s.resident img.ctx = true ∧ 0 < s.freeClerks img.ctx r.hub ∧ s.firstClerk img.ctx r.hub = some c) ∧
    (∃ (rq : Requester) (tag : Word) (s : State) (c : Nat) (r : Run), WriteOpen s rq .tlrRunCancel 0 ∧ (s.tlr.clerks.keysIf (fun _ cl => match cl.run with | some r => (decide (r.tag = tag) && s.actsFor rq r.ctx) && (decide (cl.st = .ready) || decide (cl.st = .waiting)) | none => false) = [c]) ∧ (s.clerk c).run = some r ∧ r.tag = tag ∧ s.tlr.queues.rows = []) ∧
    (∃ (rq : Requester) (tag : Word) (s : State), WriteOpen s rq .tlrRunCancel 0 ∧ (s.anyRun (fun t n => decide (t = tag) && s.actsFor rq n) = false)) ∧
    (∃ (c : Nat) (s : State) (r : Run) (rec : RunRec), s.Live ∧ (s.clerk c).st = .draining ∧ (s.clerk c).run = some r ∧ r.ending = some rec ∧ (s.clerk c).busySlots.isEmpty = true ∧ s.hubUp (hubOfClerk c) = true ∧ s.runQueue (hubOfClerk c) = []) ∧
    (∃ (c : Nat) (t0 : Nat) (s : State) (r : Run) (img : Image), s.Live ∧ (s.clerk c).run = some r ∧ r.deadline = some t0 ∧ t0 ≤ s.now ∧ ((s.clerk c).st = .ready ∨ (s.clerk c).st = .waiting) ∧ s.tlr.images.look r.slot = some img) ∧
    (∃ (c : Nat) (t0 : Nat) (s : State) (r : Run), s.Live ∧ (s.clerk c).run = some r ∧ r.grace = some t0 ∧ t0 ≤ s.now ∧ ((s.clerk c).st = .ready ∨ (s.clerk c).st = .waiting)) :=
  ⟨⟨.firmware, 0, wClerk wLi, runReqOf ((wClerk wLi).bytesAt 0 64) .firmware, wImg [wLi], 0, by decide +kernel, by decide +kernel, by decide +kernel, by decide +kernel, by decide +kernel, by decide +kernel, by decide +kernel, by decide +kernel, by decide +kernel, by decide +kernel, by decide +kernel, by decide +kernel, by decide +kernel⟩,
   ⟨.firmware, 0xABCD, wClerk wLi, 7, wRun, by decide +kernel, by decide +kernel, by decide +kernel, by decide +kernel, by decide +kernel⟩,
   ⟨.firmware, 0xABCE, wClerk wLi, by decide +kernel, by decide +kernel⟩,
   ⟨7, wDrained, { wRun with ending := some wRec }, wRec, by decide +kernel, by decide +kernel, by decide +kernel, by decide +kernel, by decide +kernel, by decide +kernel, by decide +kernel⟩,
   ⟨7, 0, wWith wCtx { wCl with run := some { wRun with deadline := some 0 } } wLi, { wRun with deadline := some 0 }, wImg [wLi], by decide +kernel, by decide +kernel, by decide +kernel, by decide +kernel, by decide +kernel, by decide +kernel⟩,
   ⟨7, 0, wWith wCtx { wCl with handler := true, run := some { wRun with grace := some 0 } } wLi, { wRun with grace := some 0 }, by decide +kernel, by decide +kernel, by decide +kernel, by decide +kernel, by decide +kernel⟩⟩

/-- Each clause of `CompletionsReachTheirSlot` has a state and operands that meet its hypotheses. -/
theorem test_witness_completions_reach_their_slot :
    (∃ (c : Nat) (k : Nat) (s : State) (w0 : Word) (w1 : Word), s.Live ∧ ((s.clerk c).slot k).result = some (w0, w1) ∧ ((s.clerk c).slot k).occupied = true ∧ ((s.clerk c).slot k).complete = false ∧ ((s.clerk c).slot k).cancel = none ∧ ((s.clerk c).st = .ready ∨ ((s.clerk c).st = .waiting ∧ (s.clerk c).waitFor = some (.receipt k)))) ∧
    (∃ (c : Nat) (k : Nat) (s : State) (w0 : Word) (w1 : Word), s.Live ∧ ((s.clerk c).slot k).result = some (w0, w1) ∧ ((s.clerk c).slot k).occupied = true ∧ ((s.clerk c).slot k).complete = false ∧ ((s.clerk c).slot k).cancel = none ∧ (s.clerk c).st = .draining ∧ ((s.clerk c).slot k).openH = none) ∧
    (∃ (c : Nat) (k : Nat) (cause : Nat) (s : State), s.Live ∧ ((s.clerk c).slot k).cancel = some cause ∧ ((s.clerk c).slot k).occupied = true ∧ ((s.clerk c).slot k).complete = false ∧ ((s.clerk c).slot k).result = none ∧ ((s.clerk c).slot k).op = .attnMerge ∧ (s.clerk c).st = .ready) ∧
    (∃ (c : Nat) (k : Nat) (s : State), s.Live ∧ ((s.clerk c).slot k).complete = true) :=
  ⟨⟨7, 5, wWith wCtx (wCl.setSlot 5 { wSlot false with result := some (1, 2) }) wLi, 1, 2, by decide +kernel, by decide +kernel, by decide +kernel, by decide +kernel, by decide +kernel, by decide +kernel⟩,
   ⟨7, 5, wWith wCtx { wCl.setSlot 5 { wSlot false with result := some (1, 2) } with st := .draining } wLi, 1, 2, by decide +kernel, by decide +kernel, by decide +kernel, by decide +kernel, by decide +kernel, by decide +kernel, by decide +kernel⟩,
   ⟨7, 5, 1, wWith wCtx (wCl.setSlot 5 { wSlot false with cancel := some 1, op := .attnMerge }) wLi, by decide +kernel, by decide +kernel, by decide +kernel, by decide +kernel, by decide +kernel, by decide +kernel, by decide +kernel⟩,
   ⟨7, 5, wWith wCtx (wCl.setSlot 5 (wSlot true)) wLi, by decide +kernel, by decide +kernel⟩⟩

/-- Each clause of `SessionPlacementEvents` has a state and operands that meet its hypotheses. -/
theorem test_witness_session_placement_events :
    (∃ (i : Nat) (t0 : Nat) (s : State), s.Live ∧ s.ssn.freedAt.look i = some t0 ∧ t0 + 1000000000 ≤ s.now) ∧
    (∃ (m : Nat) (n : Nat) (i : Nat) (s : State) (x : Session), s.Live ∧ s.ssn.dirLost.contains m = true ∧ s.nextStack m = some n ∧ s.sess i = some x ∧ (x.dirA = none ∧ i % 24 = m)) ∧
    (∃ (i : Nat) (n : Nat) (s : State) (x : Session), s.Live ∧ s.sess i = some x ∧ x.pbWriting.2 = 0 ∧ (n = if x.st = .active ∨ x.st = .reviving then x.passbook.length / pbEntries * pbEntries else x.passbook.length) ∧ x.pbFlash < n) ∧
    (∃ (i : Nat) (s : State) (x : Session), s.Live ∧ s.sess i = some x ∧ ((x.pbA = none ∧ x.pbB.isSome = true) ∨ (x.pbA.isSome = true ∧ x.pbB = none))) ∧
    (∃ (i : Nat) (s : State) (x : Session) (p : Placing) (m : MoveOp), s.Live ∧ s.sess i = some x ∧ (x.placing = some p ∧ p.wait = 0) ∧ s.attnBusy i = false ∧ (x.op = some m ∧ m.op = 1) ∧ (((s.clerk m.clerk).slot m.slot).occupied = true ∧ ((s.clerk m.clerk).slot m.slot).serial = m.serial)) ∧
    (∃ (i : Nat) (layer : Nat) (remote : List (List Byte)) (s : State) (x : Session) (data : List (List Byte)), s.Live ∧ s.sess i = some x ∧ x.st = .reviving ∧ (x.layer layer).resident = false ∧ (x.parked.filter (fun q => decide (q.layerOf = layer)) ≠ []) ∧ layer < s.firstAbsent x + max 1 (s.fld Fld.ssnReviveCfg_ahead) ∧ (x.kvTier ≠ 4 ∨ remote.length = (x.parked.filter (fun q => decide (q.layerOf = layer))).length) ∧ (s.layerData x (x.parked.filter (fun q => decide (q.layerOf = layer))) remote = some data)) ∧
    (∃ (i : Nat) (s : State) (x : Session) (m : MoveOp), s.Live ∧ s.sess i = some x ∧ (x.st = .moving ∧ x.req = none) ∧ (x.op = some m ∧ m.op = 3 ∧ m.flag = false) ∧ (((s.clerk m.clerk).slot m.slot).occupied = true ∧ ((s.clerk m.clerk).slot m.slot).serial = m.serial)) ∧
    (∃ (i : Nat) (st : Nat) (s : State) (x : Session) (m : MoveOp), s.Live ∧ s.sess i = some x ∧ x.st = .moving ∧ (x.op = some m ∧ m.op = 3) ∧ st ≠ 0 ∧ (((s.clerk m.clerk).slot m.slot).occupied = true ∧ ((s.clerk m.clerk).slot m.slot).serial = m.serial)) ∧
    (∃ (i : Nat) (s : State) (x : Session), s.Live ∧ (s.pastHigh 0 = true ∧ s.belowLow = false) ∧ s.ssn.sessions.rows = [(i, x)] ∧ (x.st = .parked ∧ x.pinned = false ∧ x.pages ≠ []) ∧ (∀ q ∈ x.pages, q.use = .clean)) ∧
    (∃ (i : Nat) (l : Nat) (t0 : Nat) (s : State) (x : Session), s.Live ∧ s.sess i = some x ∧ x.heldSince = some (l, t0) ∧ (x.layer l).resident = false ∧ t0 + min 1000 (s.fld Fld.ssnReviveCfg_holdUs) * 1000 ≤ s.now) ∧
    (∃ (i : Nat) (pages : List (Nat × Nat × List Byte)) (s : State) (x : Session) (r : Rebuild), s.Live ∧ s.sess i = some x ∧ (x.rebuild = some r ∧ x.st = .rebuilding ∧ x.recompute = none) ∧ (∀ p ∈ r.fetch, pages.any (fun q => decide (q.1 = p.1) && decide (q.2.1 = p.2)) = true) ∧ ((s.addPages i (r.fetch.map (fun p => (0, p.1, p.2))) .live).2 = true)) ∧
    (∃ (i : Nat) (copy : SsnCopy) (s : State), s.Live ∧ s.resident copy.ctx = true ∧ s.newIndex = .index i ∧ (((s.createSession i copy.ctx).addPages i (copy.pieces.map (fun p => (p.1, p.2.1, p.2.2.1))) .live).2 = true) ∧ s.cfOn = false) ∧
    (∃ (copy : SsnCopy) (s : State), s.Live ∧ s.resident copy.ctx = false) ∧
    (∃ (s : State), s.Live) ∧
    (∃ (peer : Nat) (layer : Nat) (page : Nat) (ident : Word) (s : State), s.Live ∧ (s.ssn.cf.lookD (peer, ident) ⟨.empty, .empty, .empty⟩).kv.has (layer, page) = true) :=
  ⟨⟨5, 0, { wUp.onSsn (fun x => { x with freedAt := ⟨[(5, 0)]⟩ }) with now := 1000000000 }, by decide +kernel, by decide +kernel, by decide +kernel⟩,
   ⟨5, 6, 5, (wSsn { wSess with dirA := none }).onSsn (fun t => { t with dirLost := [5] }), { wSess with dirA := none }, by decide +kernel, by decide +kernel, by decide +kernel, by decide +kernel, by decide +kernel⟩,
   ⟨5, 1, wSsn { wSess with st := .parked, passbook := [⟨1, 0, false⟩] }, { wSess with st := .parked, passbook := [⟨1, 0, false⟩] }, by decide +kernel, by decide +kernel, by decide +kernel, by decide +kernel, by decide +kernel⟩,
   ⟨5, wSsn { wSess with pbA := none }, { wSess with pbA := none }, by decide +kernel, by decide +kernel, by decide +kernel⟩,
   ⟨5, wSsnR wSessParking, wSessParking, ⟨0xFF, 0, none, none⟩, ⟨7, 5, 9, 1, .active, 0xFF, false⟩, by decide +kernel, by decide +kernel, by decide +kernel, by decide +kernel, by decide +kernel, by decide +kernel⟩,
   ⟨5, 0, [natLe 64 1], wSsn wSessStream, wSessStream, [takeAt (natLe 64 1) 0 65536], by decide +kernel, by decide +kernel, by decide +kernel, by decide +kernel, by decide +kernel, by decide +kernel, by decide +kernel, rfl⟩,
   ⟨5, wSsnR wSessMoving, wSessMoving, ⟨7, 5, 9, 3, .parked, 4, false⟩, by decide +kernel, by decide +kernel, by decide +kernel, by decide +kernel, by decide +kernel⟩,
   ⟨5, 2, wSsnR wSessMoving, wSessMoving, ⟨7, 5, 9, 3, .parked, 4, false⟩, by decide +kernel, by decide +kernel, by decide +kernel, by decide +kernel, by decide +kernel, by decide +kernel⟩,
   ⟨5, wSsnFull, wSessClean, by decide +kernel, by decide +kernel, by decide +kernel, by decide +kernel, by decide +kernel⟩,
   ⟨5, 0, 0, { wSsn wSessHeld with now := 1000000 }, wSessHeld, by decide +kernel, by decide +kernel, by decide +kernel, by decide +kernel, by decide +kernel⟩,
   ⟨5, [], wSsn wSessRebuild, wSessRebuild, ⟨.parked, some 0, []⟩, by decide +kernel, by decide +kernel, by decide +kernel, by decide +kernel, by decide +kernel⟩,
   ⟨0, wCopy, wCtx, by decide +kernel, by decide +kernel, by decide +kernel, by decide +kernel, by decide +kernel⟩,
   ⟨wCopy, wUp, by decide +kernel, by decide +kernel⟩,
   ⟨wUp, by decide +kernel⟩,
   ⟨4, 0, 2, 0x55, wUp.onSsn (fun t => { t with cf := ⟨[((4, 0x55), ⟨.empty, ⟨[((0, 2), [])]⟩, .empty⟩)]⟩ }), by decide +kernel, by decide +kernel⟩⟩

/-- Each clause of `PhaseSwitching` has a state and operands that meet its hypotheses. -/
theorem test_witness_phase_switching :
    (∃ (rq : Requester) (v : Word) (s : State), WriteOpen s rq .ssnPhase 0 ∧ (s.isModule rq = true ∨ s.actsFor rq (bits v.toNat 0 6) = true) ∧ s.phaseOn = true) ∧
    (∃ (rq : Requester) (v : Word) (s : State) (p : Phase), WriteOpen s rq .ssnPhase 0 ∧ (s.isModule rq = true ∨ s.actsFor rq (bits v.toNat 0 6) = true) ∧ s.phaseOn = false ∧ p = { ctx := bits v.toNat 0 6, keepGib := bits v.toNat 32 32, deadline := s.now + bits v.toNat 8 24 * 1000000, written := 0, pbOnly := 0 } ∧ s.pgSum .ssnPgTotal < p.keepPages + s.pinnedPages (2 ^ 24)) ∧
    (∃ (rq : Requester) (v : Word) (s : State) (p : Phase), WriteOpen s rq .ssnPhase 0 ∧ (s.isModule rq = true ∨ s.actsFor rq (bits v.toNat 0 6) = true) ∧ s.phaseOn = false ∧ p = { ctx := bits v.toNat 0 6, keepGib := bits v.toNat 32 32, deadline := s.now + bits v.toNat 8 24 * 1000000, written := 0, pbOnly := 0 } ∧ p.keepPages + s.pinnedPages (2 ^ 24) ≤ s.pgSum .ssnPgTotal) ∧
    (∃ (s : State) (p : Phase), s.Live ∧ s.ssn.phase = some p ∧ p.deadline ≤ s.now ∧ s.phaseOn = true) ∧
    (∃ (s : State) (p : Phase), s.Live ∧ s.ssn.phase = some p ∧ s.phaseOn = true ∧ (s.ssn.sessions.any (fun i x => decide (x.ctx = p.ctx) && (decide (x.st = .active) || decide (x.st = .reviving) || s.inStep i)) = false) ∧ s.phaseFits p = true ∧ p.keepPages ≤ s.pgSum .ssnPgFree) :=
  ⟨⟨.firmware, 3, wPhase, by decide +kernel, by decide +kernel, by decide +kernel⟩,
   ⟨.firmware, 0x100000003, wCtx, ⟨3, 1, 0, 0, 0⟩, by decide +kernel, by decide +kernel, by decide +kernel, by decide +kernel, by decide +kernel⟩,
   ⟨.firmware, 3, wCtx, ⟨3, 0, 0, 0, 0⟩, by decide +kernel, by decide +kernel, by decide +kernel, by decide +kernel, by decide +kernel⟩,
   ⟨wPhase, ⟨3, 0, 0, 0, 0⟩, by decide +kernel, by decide +kernel, by decide +kernel, by decide +kernel⟩,
   ⟨wPhase, ⟨3, 0, 0, 0, 0⟩, by decide +kernel, by decide +kernel, by decide +kernel, by decide +kernel, by decide +kernel, by decide +kernel⟩⟩

/-- Each clause of `AttentionEvents` has a state and operands that meet its hypotheses. -/
theorem test_witness_attention_events :
    (∃ (p : Nat) (gk : Nat) (b : Nat) (msg : List Byte) (s : State) (u : State) (md : Model) (k : KernelOp), s.Live ∧ ((parseMsg msg).ty = 0x21 ∧ leAt msg 0 1 ≠ 0x23) ∧ (s.groupOf p).bind s.groupModel = some md ∧ s.kernelOn p (parseMsg msg).step = some (gk, k) ∧ s.msgRefused (s.stepOn p (parseMsg msg).step) true md (parseMsg msg) = false ∧ (up64 (32 + 8 * (parseMsg msg).nseq) + (parseMsg msg).payload ≤ msg.length ∧ msg.length ≤ k.room) ∧ ((s.onSch (fun t => { t with kernels := t.kernels.del gk })).writePriv k.clerk k.ctx k.buf msg = some (u, .ok, b)) ∧ (((s.clerk k.clerk).slot k.slot).occupied = true ∧ ((s.clerk k.clerk).slot k.slot).serial = k.serial)) ∧
    (∃ (p : Nat) (n : Nat) (a : Nat) (b : Nat) (msg : List Byte) (s : State) (u : State) (md : Model) (st : Status), s.Live ∧ ((parseMsg msg).ty = 0x23 ∧ leAt msg 0 1 ≠ 0x21) ∧ (s.groupOf p).bind s.groupModel = some md ∧ s.msgRefused (s.stepOn p (parseMsg msg).step) (s.kernelOn p (parseMsg msg).step).isSome md (parseMsg msg) = false ∧ up64 (32 + 8 * (parseMsg msg).nseq) + (parseMsg msg).payload ≤ msg.length ∧ s.writePriv noClerk n a msg = some (u, st, b)) ∧
    (∃ (p : Nat) (gk : Nat) (b : Nat) (msg : List Byte) (s : State) (u : State) (k : KernelOp), s.Live ∧ ((parseMsg msg).ty = 0x13 ∧ (parseMsg msg).nseq = 0) ∧ s.kernelOn p (parseMsg msg).step = some (gk, k) ∧ msg.length ≤ k.room ∧ ((s.onSch (fun t => { t with kernels := t.kernels.del gk })).writePriv k.clerk k.ctx k.buf msg = some (u, .ok, b)) ∧ (((s.clerk k.clerk).slot k.slot).occupied = true ∧ ((s.clerk k.clerk).slot k.slot).serial = k.serial)) ∧
    (∃ (m : Nat) (s : State) (d : PgDesc) (rest : List PgDesc), s.Live ∧ s.stackUp m = true ∧ s.fld Fld.kvaEngStatus_state m ≠ 2 ∧ (s.engine m).queue = d :: rest) ∧
    (∃ (m : Nat) (s : State) (d : PgDesc) (rest : List PgDesc), s.Live ∧ s.stackUp m = true ∧ s.fld Fld.kvaEngStatus_state m ≠ 2 ∧ (s.engine m).queue = d :: rest) ∧
    (∃ (k : Nat) (m : Nat) (s : State) (y : MergeSlot), s.Live ∧ s.kva.merges.look k = some y ∧ (y.expect.contains m = true ∧ y.arrived.contains m = false) ∧ ((s.engine m).queue.any (fun d => decide (d.pslot = k)) = false) ∧ y.arrived.length + 1 < y.expect.length) ∧
    (∃ (op : Nat) (s : State) (o : AttnOp), s.Live ∧ s.kva.ops.look op = some o ∧ (o.kvu = false ∧ o.partials = 0 ∧ o.firstSent = true) ∧ (∀ e ∈ o.entries, e.status.isSome = true) ∧ (((s.clerk o.clerk).slot o.slot).occupied = true ∧ ((s.clerk o.clerk).slot o.slot).serial = o.serial)) :=
  ⟨⟨2, 1, 0, wAtqMsg, wKernelOut, wKernelIn wAtqMsg, wModelA, wKernelOp, by decide +kernel, by decide +kernel, by decide +kernel, by decide +kernel, by decide +kernel, by decide +kernel, by decide +kernel, by decide +kernel⟩,
   ⟨2, 3, 0x40, 0, wKvuMsg, wKernelOut, wKvuIn, wModelA, .ok, by decide +kernel, by decide +kernel, by decide +kernel, by decide +kernel, by decide +kernel, by decide +kernel⟩,
   ⟨2, 1, 0, wLdnMsg, wKernelOut, wKernelIn wLdnMsg, wKernelOp, by decide +kernel, by decide +kernel, by decide +kernel, by decide +kernel, by decide +kernel, by decide +kernel⟩,
   ⟨5, wEngine, wPgDesc, [], by decide +kernel, by decide +kernel, by decide +kernel, by decide +kernel⟩,
   ⟨5, wEngine, wPgDesc, [], by decide +kernel, by decide +kernel, by decide +kernel, by decide +kernel⟩,
   ⟨1, 5, wUp.onKva (fun k => { k with merges := ⟨[(1, ⟨0, 0, none, [5, 6], []⟩)]⟩ }), ⟨0, 0, none, [5, 6], []⟩, by decide +kernel, by decide +kernel, by decide +kernel, by decide +kernel, by decide +kernel⟩,
   ⟨1, wAttnOps, wAttnOp, by decide +kernel, by decide +kernel, by decide +kernel, by decide +kernel, by decide +kernel⟩⟩

/-- Each clause of `StepPlannerEvents` has a state and operands that meet its hypotheses. -/
theorem test_witness_step_planner_events :
    (∃ (g : Nat) (base : Nat) (watts : Nat) (half : Bool) (cands : List StepCand) (s : State) (u : State) (v : State) (m : Model) (f : Forming), s.Live ∧ g < 8 ∧ u = (s.settleGroups.accrueWait.boostEval cands).wakeSessions ∧ ((u.group g).role = .decode ∨ (u.group g).role = .prefill ∨ (u.group g).role = .mixed) ∧ ((if half then (u.group g).stepB else (u.group g).stepA) = none) ∧ (half = false ∨ u.fld Fld.schStepCfg_halves ≠ 0) ∧ u.plannerOpen = true ∧ u.groupModel g = some m ∧ u.rampOk g watts = true ∧ ((u.planOrder u.stepTokens u.chunkMax (cands.filter (fun c => (u.sess c.sess).any (u.mayEnter g c)))).foldl (fun (a : State × Forming) c => a.1.considerSess m (u.group g).role a.2 c.1 c.2) (u, { sessions := [], tokens := 0, fill := 0, time := base, goal := 2 ^ 32, stop := false }) = (v, f)) ∧ f.sessions ≠ []) ∧
    (∃ (p : Nat) (k : Nat) (msg : List Byte) (s : State) (t0 : Step) (md : Model), s.Live ∧ (s.stepOn p (parseMsg msg).step = some t0 ∧ s.sch.steps.look t0.no = some t0) ∧ (s.groupOf p).bind s.groupModel = some md ∧ (k = ((s.groupPorts t0.group).takeWhile (fun q => decide (q ≠ p))).length) ∧ ((parseMsg msg).ty = 0x14 ∧ (parseMsg msg).layer = k % 256 ∧ t0.layer = s.lastPart t0 ∧ t0.textDone = false) ∧ (t0.lgt.any (fun g => decide (g.1 = k)) = false) ∧ (t0.live.filter (fun e => e.2.wantLogits) ≠ []) ∧ (∀ e ∈ t0.live.filter (fun e => e.2.wantLogits), (parseMsg msg).entries.any (fun f => decide (f.1 = e.1)) = true) ∧ (∀ f ∈ (parseMsg msg).entries, ((t0.live.filter (fun e => e.2.wantLogits)).map (·.1)).contains f.1 = true ∧ f.2.1 = 1) ∧ up64 (32 + 8 * (parseMsg msg).nseq) + (parseMsg msg).nseq * up64 (2 * shardWidth md.vocabSize (s.groupPorts t0.group).length k) ≤ msg.length ∧ t0.lgt.length + 1 < (s.groupPorts t0.group).length) ∧
    (∃ (p : Nat) (msg : List Byte) (s : State) (t0 : Step) (md : Model) (e : Nat × Nat × Nat) (q : StepSess) (x : Session), s.Live ∧ s.stepOn p (parseMsg msg).step = some t0 ∧ (s.groupOf p).bind s.groupModel = some md ∧ ((parseMsg msg).ty = 0x15 ∧ s.groupLead t0.group = some p ∧ t0.textDone = false) ∧ (parseMsg msg).entries = [e] ∧ t0.sessions[e.1]? = some q ∧ (q.status = some 0x0070 ∧ q.displacedAt = some (parseMsg msg).layer ∧ q.new = e.2.1) ∧ up64 (32 + 8 * (parseMsg msg).nseq) + 2 * e.2.1 * md.dModel ≤ msg.length ∧ s.sess q.sess = some x) ∧
    (∃ (g : Nat) (half : Bool) (s : State) (t0 : Step), s.Live ∧ g < 8 ∧ (s.group g).role ≠ .external ∧ ((if half then (s.group g).stepB else (s.group g).stepA).bind s.sch.steps.look = some t0) ∧ s.stepWaits t0 = true ∧ (t0.sentAt + s.layerLimit g (t0.live.map (fun p => p.2.new)).sum ≤ s.now)) ∧
    (∃ (g : Nat) (k : Nat) (half : Bool) (s : State) (t0 : Step), s.Live ∧ g < 8 ∧ ((if half then (s.group g).stepB else (s.group g).stepA) = some k) ∧ (s.sch.steps.look k = some t0 ∧ t0.no = k) ∧ s.stepReady t0 = true) ∧
    (∃ (n : Nat) (p : Nat) (s : State) (r : Report), s.Live ∧ (s.fld Fld.schCtxReport_enable n ≠ 0 ∧ s.ctxState n ≠ 2) ∧ (s.sch.reports.find? (fun r => decide (r.ctx = n)) = some r) ∧ p = 20 + s.fld Fld.schCtxReport_port n ∧ s.portSt p = 5) ∧
    (∃ (model : Nat) (dp : Nat) (dd : Nat) (g : Nat) (n : Nat) (p : Nat) (s : State) (u : State) (gs : List Nat), s.Live ∧ u = s.settleGroups ∧ (gs = (List.range 8).filter (fun g => u.groupOn g && decide (u.fld Fld.schGroupCfg_model g = model) && (decide ((u.group g).role = .decode) || decide ((u.group g).role = .prefill) || decide ((u.group g).role = .switching)))) ∧ (n = gs.length ∧ 2 ≤ n) ∧ (p = (gs.filter (fun g => decide ((u.group g).role = .prefill))).length) ∧ (100 * p + 50 + u.fld Fld.schRoleCfg_hyst) * (dp + dd) < 100 * n * dp ∧ (∀ k ∈ gs, (u.group k).above + 1 < max 1 (u.fld Fld.schRoleCfg_confirm)) ∧ g ∈ gs) ∧
    (∃ (s : State) (k : Nat) (x : Customer), s.Live ∧ s.sch.customers.look k = some x) :=
  ⟨⟨0, 0, 0, false, [wCand], wPlan, wPlanU, wPlanR.1, wModel, wPlanR.2, by decide +kernel, by decide +kernel, rfl, by decide +kernel, by decide +kernel, by decide +kernel, by decide +kernel, by decide +kernel, by decide +kernel, rfl, by decide +kernel⟩,
   ⟨2, 0, wLgtMsg, wStepState, wStep, wModel, by decide +kernel, by decide +kernel, by decide +kernel, by decide +kernel, by decide +kernel, by decide +kernel, by decide +kernel, by decide +kernel, by decide +kernel, by decide +kernel, by decide +kernel⟩,
   ⟨2, wHsvMsg, wHsvState, wHsvStep, wModel, (0, 1, 0), { wPart with status := some 0x0070, displacedAt := some 0 }, wSess, by decide +kernel, by decide +kernel, by decide +kernel, by decide +kernel, by decide +kernel, by decide +kernel, by decide +kernel, by decide +kernel, by decide +kernel⟩,
   ⟨0, false, { wStepState with now := 2000000 }, wStep, by decide +kernel, by decide +kernel, by decide +kernel, by decide +kernel, by decide +kernel, by decide +kernel⟩,
   ⟨0, 5, false, wDoneState, { wStep with sessions := [] }, by decide +kernel, by decide +kernel, by decide +kernel, by decide +kernel, by decide +kernel⟩,
   ⟨3, 20, wReportState, wReport, by decide +kernel, by decide +kernel, by decide +kernel, by decide +kernel, by decide +kernel⟩,
   ⟨0, 10, 0, 0, 2, 0, wRoles, wRoles.settleGroups, [0, 1], by decide +kernel, rfl, by decide +kernel, by decide +kernel, by decide +kernel, by decide +kernel, by decide +kernel, by decide +kernel⟩,
   ⟨wLedger wLi, 9, { Customer.blank with dirty := true }, by decide +kernel, by decide +kernel⟩⟩

/-- Each clause of `PlannerRegisters` has a state and operands that meet its hypotheses. -/
theorem test_witness_planner_registers :
    (∃ (rq : Requester) (v : Word) (s : State) (i : Nat), WriteOpen s rq .schModelReg 0 ∧ s.isModule rq = true ∧ low6 v = 0 ∧ s.modelOk v.toNat = true ∧ lowestFree s.sch.models.has 0 1024 = some i) ∧
    (∃ (rq : Requester) (v : Word) (s : State), WriteOpen s rq .schModelReg 0 ∧ s.isModule rq = true ∧ low6 v = 0 ∧ s.modelOk v.toNat = false) ∧
    (∃ (rq : Requester) (v : Word) (s : State), WriteOpen s rq .schModelUnreg 0 ∧ s.isModule rq = true ∧ (s.ssn.sessions.any (fun _ x => decide (x.model = bits v.toNat 0 10) && decide (x.reservedLen ≠ 0)) = false)) ∧
    (∃ (rq : Requester) (g : Nat) (s : State), WindowOpen s rq ∧ s.regReach .schGroupCfg g = true ∧ s.isModule rq = true ∧ g < 8 ∧ (s.group g).role = .off) ∧
    (∃ (rq : Requester) (n : Nat) (s : State), WindowOpen s rq ∧ s.regReach .schCtxReport n = true ∧ (s.isModule rq = true ∨ s.actsFor rq n = true) ∧ n < 64) :=
  ⟨⟨.firmware, 0, wModelMem, 0, by decide +kernel, by decide +kernel, by decide +kernel, by decide +kernel, by decide +kernel⟩,
   ⟨.firmware, 0, wUp, by decide +kernel, by decide +kernel, by decide +kernel, by decide +kernel⟩,
   ⟨.firmware, 0, wUp.onSch (fun t => { t with models := ⟨[(0, wModel)]⟩ }), by decide +kernel, by decide +kernel, by decide +kernel⟩,
   ⟨.firmware, 0, wUp, by decide +kernel, by decide +kernel, by decide +kernel, by decide +kernel, by decide +kernel⟩,
   ⟨.firmware, 3, wCtx, by decide +kernel, by decide +kernel, by decide +kernel, by decide +kernel⟩⟩

/-- Each clause of `LedgerInstructions` has a state and operands that meet its hypotheses. -/
theorem test_witness_ledger_instructions :
    (∃ (c : Nat) (n : Nat) (s : State) (ix : Ix), (IssuesOn s c ix (fun ix => isSub 0x40 0 ix || isSub 0x40 1 ix) n [6] rtCharge) ∧ s.ledgerRoom (hObj (ix.cl.h (wH ix.w))).toNat = true ∧ ix.ra.toNat < 2 ^ 62 ∧ (ix.ra.toNat ≤ ((s.cust (hObj (ix.cl.h (wH ix.w))).toNat).refillTo s.nodeNs).available ∨ wSub ix.w = 1)) ∧
    (∃ (c : Nat) (n : Nat) (s : State) (ix : Ix), (IssuesOn s c ix (fun ix => isSub 0x40 0 ix || isSub 0x40 1 ix) n [6] rtCharge) ∧ s.ledgerRoom (hObj (ix.cl.h (wH ix.w))).toNat = true ∧ ix.ra.toNat < 2 ^ 62 ∧ ((s.cust (hObj (ix.cl.h (wH ix.w))).toNat).refillTo s.nodeNs).available < ix.ra.toNat ∧ wSub ix.w = 0) ∧
    (∃ (c : Nat) (n : Nat) (s : State) (ix : Ix), IssuesOn s c ix (isSub 0x41 0) n [6] rtCharge ∧ s.ledgerRoom (hObj (ix.cl.h (wH ix.w))).toNat = true ∧ ix.ra.toNat < 2 ^ 62) ∧
    (∃ (c : Nat) (n : Nat) (s : State) (ix : Ix), IssuesOn s c ix (isSub 0x42 0) n [6] rtCharge ∧ s.ledgerRoom (hObj (ix.cl.h (wH ix.w))).toNat = true) :=
  ⟨⟨7, 63, wLedger (wCharge 1), wIxLedger (wCharge 1), by decide +kernel, by decide +kernel, by decide +kernel, by decide +kernel⟩,
   ⟨7, 63, wLedger (wCharge 0), wIxLedger (wCharge 0), by decide +kernel, by decide +kernel, by decide +kernel, by decide +kernel, by decide +kernel⟩,
   ⟨7, 63, wLedger wCredit, wIxLedger wCredit, by decide +kernel, by decide +kernel, by decide +kernel⟩,
   ⟨7, 63, wLedger wRent, wIxLedger wRent, by decide +kernel, by decide +kernel⟩⟩

/-- Each clause of `TextStateInstructions` has a state and operands that meet its hypotheses. -/
theorem test_witness_text_state_instructions :
    (∃ (c : Nat) (n : Nat) (k : Nat) (s : State) (ix : Ix) (x : Session) (g : Table) (m : Model), IssuesOn s c ix (isSub 0x31 0) n [1] rtCompute ∧ s.checkHandle ix.run.ctx (ix.cl.h (wH2 ix.w)) [10] rtCompute = none ∧ s.sess ix.sessIx = some x ∧ x.req = none ∧ tableNamed s.txt.grams (hObj (ix.cl.h (wH2 ix.w))) = some (k, g) ∧ s.modelOf x = some m ∧ g.unloading = false ∧ leAt g.data 0x18 8 = m.vocab.toNat) ∧
    (∃ (c : Nat) (n : Nat) (s : State) (ix : Ix) (x : Session), IssuesOn s c ix (isSub 0x31 1) n [1] rtCompute ∧ s.sess ix.sessIx = some x ∧ x.req = none) ∧
    (∃ (c : Nat) (n : Nat) (s : State) (ix : Ix) (x : Session) (voc : Table), IssuesOn s c ix (isSub 0x31 3) n [1] rtCompute ∧ s.sess ix.sessIx = some x ∧ x.req = none ∧ s.vocabFor x = some voc ∧ s.tokenOk voc x.text ix.rb.toNat = true) ∧
    (∃ (c : Nat) (n : Nat) (s : State) (ix : Ix) (x : Session) (b : List Byte), IssuesOn s c ix (isSub 0x32 0) n [1] rtCompute ∧ s.sess ix.sessIx = some x ∧ x.req = none ∧ s.privMapped c ix.run.ctx ix.ra.toNat 64 = true ∧ (s.issued ix .text [wH ix.w] n).readPriv c ix.run.ctx ix.ra.toNat 64 = some (s.issued ix .text [wH ix.w] n, .ok, 0, b) ∧ bits (leAt b 0x18 8) 45 10 = 0 ∧ samplerOk ((samplerOf x.text b []).recount x.passbook) = true) ∧
    (∃ (c : Nat) (n : Nat) (s : State) (ix : Ix) (x : Session), IssuesOn s c ix (isSub 0x33 0) n [1] rtCompute ∧ s.sess ix.sessIx = some x ∧ x.req = none ∧ wImm24 ix.w % 32 = 0) ∧
    (∃ (c : Nat) (n : Nat) (s : State) (ix : Ix) (x : Session), (IssuesOn s c ix (fun ix => isSub 0x31 1 ix || isSub 0x31 3 ix || isSub 0x32 0 ix || isSub 0x33 0 ix) n [1] rtCompute) ∧ s.sess ix.sessIx = some x ∧ x.req.isSome = true) :=
  ⟨⟨7, 63, 1, wText wClearBind, wIxText wClearBind, wSess, wGram, wModel, by decide +kernel, by decide +kernel, by decide +kernel, by decide +kernel, by decide +kernel, by decide +kernel, by decide +kernel, by decide +kernel⟩,
   ⟨7, 63, wText wClearUnbind, wIxText wClearUnbind, wSess, by decide +kernel, by decide +kernel, by decide +kernel⟩,
   ⟨7, 63, wText wClearAdvance, wIxText wClearAdvance, wSess, wVoc, by decide +kernel, by decide +kernel, by decide +kernel, by decide +kernel, by decide +kernel⟩,
   ⟨7, 63, wText wSampleConfig, wIxText wSampleConfig, wSess, wSampler, by decide +kernel, by decide +kernel, by decide +kernel, by decide +kernel, by decide +kernel, by decide +kernel, by decide +kernel⟩,
   ⟨7, 63, wText wChangeConfig, wIxText wChangeConfig, wSess, by decide +kernel, by decide +kernel, by decide +kernel, by decide +kernel⟩,
   ⟨7, 63, wTextOpen wClearUnbind, wIxText wClearUnbind, wSessOpen, by decide +kernel, by decide +kernel, by decide +kernel⟩⟩

/-- Each clause of `TextConversionInstructions` has a state and operands that meet its hypotheses. -/
theorem test_witness_text_conversion_instructions :
    (∃ (c : Nat) (n : Nat) (s : State) (ix : Ix) (k : Nat) (v : Table), IssuesOn s c ix (isSub 0x30 0) n [9] rtCompute ∧ tableNamed s.txt.vocabs (hObj (ix.cl.h (wH ix.w))) = some (k, v) ∧ mintBad v ix.desc = false ∧ (mintDesc ix.desc).len = 0 ∧ (mintDesc ix.desc).stream = 0 ∧ s.privMapped c ix.run.ctx (mintDesc ix.desc).output (4 * (mintDesc ix.desc).max) = true) ∧
    (∃ (c : Nat) (n : Nat) (s : State) (u : State) (ix : Ix) (x : Session) (voc : Table) (b : Nat), IssuesOn s c ix (isSub 0x31 2) n [1] rtCompute ∧ s.sess ix.sessIx = some x ∧ s.vocabFor x = some voc ∧ s.privMapped c ix.run.ctx ix.ra.toNat ((voc.vocabSize + 511) / 512 * 64) = true ∧ (((s.issued ix .text [wH ix.w] n).unitServe 4 (hubOfClerk c) ix.run.ctx).writePriv c ix.run.ctx ix.ra.toNat ((List.range ((voc.vocabSize + 511) / 512 * 64)).map (fun b => BitVec.ofNat 8 (((List.range 8).filter (fun j => s.tokenOk voc x.text (8 * b + j))).map (fun j => 2 ^ j)).sum)) = some (u, .ok, b))) ∧
    (∃ (c : Nat) (n : Nat) (s : State) (ix : Ix) (x : Session) (voc : Table) (b : List Byte), IssuesOn s c ix (isSub 0x32 1) n [1] rtCompute ∧ s.sess ix.sessIx = some x ∧ s.vocabFor x = some voc ∧ s.privMapped c ix.run.ctx ix.ra.toNat (2 * voc.vocabSize) = true ∧ (s.issued ix .text [wH ix.w] n).readPriv c ix.run.ctx ix.ra.toNat (2 * voc.vocabSize) = some (s.issued ix .text [wH ix.w] n, .ok, 0, b)) ∧
    (∃ (c : Nat) (n : Nat) (s : State) (u : State) (ix : Ix) (k : Nat) (v : Table) (b : List Byte) (a : Nat), IssuesOn s c ix (isSub 0x33 1) n [9] rtCompute ∧ tableNamed s.txt.vocabs (hObj (ix.cl.h (wH ix.w))) = some (k, v) ∧ (dbits ix.desc 96 32 = 0 ∧ dbits ix.desc 225 287 = 0 ∧ dbits ix.desc 64 32 = 1 ∧ 72 ≤ dbits ix.desc 192 32) ∧ (s.privMapped c ix.run.ctx (dbits ix.desc 0 64) 4 = true ∧ s.privMapped c ix.run.ctx (dbits ix.desc 128 64) (dbits ix.desc 192 32) = true) ∧ (s.issued ix .text [wH ix.w] n).readPriv c ix.run.ctx (dbits ix.desc 0 64) 4 = some (s.issued ix .text [wH ix.w] n, .ok, 0, b) ∧ (changeText v (decide (dbits ix.desc 224 1 = 1)) [leAt b 0 4 % 2 ^ 20]).length ≤ 64 ∧ ((s.issued ix .text [wH ix.w] n).unitServe 4 (hubOfClerk c) ix.run.ctx).writePriv c ix.run.ctx (dbits ix.desc 128 64) (natLe 8 (changeText v (decide (dbits ix.desc 224 1 = 1)) [leAt b 0 4 % 2 ^ 20]).length ++ changeText v (decide (dbits ix.desc 224 1 = 1)) [leAt b 0 4 % 2 ^ 20]) = some (u, .ok, a)) :=
  ⟨⟨7, 63, wText wMint, wIxText wMint, 1, wVoc, by decide +kernel, by decide +kernel, by decide +kernel, by decide +kernel, by decide +kernel, by decide +kernel⟩,
   ⟨7, 63, wText wClearMask, wMaskWritten, wIxText wClearMask, wSess, wVoc, 0, by decide +kernel, by decide +kernel, by decide +kernel, by decide +kernel, by decide +kernel⟩,
   ⟨7, 63, wText wSampleProbe, wIxText wSampleProbe, wSess, wVoc, wLogits, by decide +kernel, by decide +kernel, by decide +kernel, by decide +kernel, by decide +kernel⟩,
   ⟨7, 63, wText wChangeText, wTextWritten, wIxText wChangeText, 1, wVoc, wToks, 0, by decide +kernel, by decide +kernel, by decide +kernel, by decide +kernel, by decide +kernel, by decide +kernel, by decide +kernel⟩⟩

/-- Each clause of `TablesAndCollections` has a state and operands that meet its hypotheses. -/
theorem test_witness_tables_and_collections :
    (∃ (rq : Requester) (v : Word) (s : State) (u1 : State) (u2 : State) (hd : List Byte) (bs : List Byte) (clear : Bool) (size : Nat) (k : Nat), WriteOpen s rq .txtTblLoad 0 ∧ low6 v = 0 ∧ s.sweepTables.readMem (keyHub v.toNat) 256 = (u1, .ok, hd) ∧ (clear = isClear hd ∧ size = leAt hd (if clear then 0x30 else 0x38) 8 ∧ size ≤ (if clear then 64 else 96) * 2 ^ 20) ∧ u1.readMem (keyHub v.toNat) (max size 256) = (u2, .ok, bs) ∧ u2.tableCheck rq clear size ⟨bs.take (max size 256), false⟩ = (0, k)) ∧
    (∃ (rq : Requester) (v : Word) (s : State) (x : Table) (d : Txt), WriteOpen s rq .txtTblUnload 0 ∧ ((if bit v.toNat 4 then s.txt.grams else s.txt.vocabs).look (bits v.toNat 0 4) = some x) ∧ s.actsFor rq x.ctx = true ∧ (d = if bit v.toNat 4 then { s.txt with grams := s.txt.grams.upd (bits v.toNat 0 4) (fun y => { y with unloading := true }) }
      else { s.txt with vocabs := s.txt.vocabs.upd (bits v.toNat 0 4) (fun y => { y with unloading := true }) })) ∧
    (∃ (rq : Requester) (v : Word) (s : State) (k : Coll) (i : Nat), WriteOpen s rq .vsrCollCreate 0 ∧ low6 v = 0 ∧ collForm (s.bytesAt (keyHub v.toNat) 64) = true ∧ k = collOf (s.vsr.gens.lookD i 1) (s.bytesAt (keyHub v.toNat) 64) ∧ (s.resident k.ctx && s.actsFor rq k.ctx) = true ∧ lowestFree s.vsr.colls.has 0 1024 = some i ∧ ((s.vsr.colls.rows.map (fun r => if r.2.dropping then 0 else r.2.maxVectors)).sum + k.maxVectors ≤ 16000000000) ∧ (s.grMapped k.ctx k.centroids.toNat (2 * k.npart * k.dim) && s.grMapped k.ctx k.work.toNat k.workBytes) = true) ∧
    (∃ (rq : Requester) (v : Word) (s : State) (k : Coll) (g : Nat), WriteOpen s rq .vsrCollDrop 0 ∧ s.vsr.colls.look (bits v.toNat 0 10) = some k ∧ (s.actsFor rq k.ctx = true ∧ k.dropping = false) ∧ (g = if k.gen + 1 < 2 ^ 48 then k.gen + 1 else 1)) ∧
    (∃ (i : Nat) (s : State) (k : Coll), s.Live ∧ s.vsr.colls.look i = some k ∧ (k.dropping = true ∧ s.fls.jbufs.any (fun _ b => b.1.any (fun r => k.gone.contains r.unit)) = false)) ∧
    (∃ (rq : Requester) (v : Word) (s : State), WindowOpen s rq ∧ (s.regReach .vsrCfg 0 = true ∧ s.isModule rq = true) ∧ (bit v.toNat 0 = false ∨ s.vsr.colls.any (fun _ k => !k.dropping) = false)) ∧
    (∃ (rq : Requester) (v : Word) (s : State), WindowOpen s rq ∧ (s.regReach .vsrCfg 0 = true ∧ s.isModule rq = true) ∧ (bit v.toNat 0 = true ∧ s.vsr.colls.any (fun _ k => !k.dropping) = true)) ∧
    (∃ (i : Nat) (s : State) (k : Coll), s.Live ∧ s.vsr.colls.look i = some k ∧ (k.dropping = false ∧ k.fold = none) ∧ k.foldDue (s.fld Fld.vsrCfg_foldEntries) = true) ∧
    (∃ (ch : Nat) (s : State) (p : VPass) (l : List VPass) (x : VSearch) (k : Coll), s.Live ∧ s.vsr.passes.look ch = some (p :: l) ∧ (s.hubUp (hubOfChannel ch) = true ∧ s.chanSt ch = 1) ∧ s.vsr.searches.look p.op = some x ∧ s.vsr.colls.look x.coll = some k ∧ 1 < x.waiting) ∧
    (∃ (op : Nat) (n : Nat) (b : Nat) (s : State) (u : State) (x : VSearch) (k : Coll) (cs : List (Nat × Nat × MapEnt)) (best : List (F32 × Nat)) (recs : List (List Byte)) (sl : Slot), s.Live ∧ s.vsr.searches.look op = some x ∧ (x.assay = true ∧ s.hubUp x.hub = true) ∧ s.vsr.colls.look x.coll = some k ∧ (cs = (x.cands.flatMap (fun c => (k.slotCws c.ent.slot).filterMap (fun w => s.logPlace k w))).eraseDups) ∧ (cs.any s.cwRebuilding = false ∧ cs.all (fun q => !s.unitAway q.2.2 && !q.2.2.lost) = true) ∧ (best = (x.cands.map (fun c => (exactScore k.metric x.q.query (k.decodeVec ((k.log.lookD c.ent.slot []).drop 32)), c.ent.key))).mergeSort
      (fun a b => !(rankBefore (scoreRank k.metric b.1, b.2) (scoreRank k.metric a.1, a.2)))) ∧ (n = (List.range 32).foldl (fun a ch => max a (cs.filter (fun q => decide (s.cwChan q = ch))).length) 0) ∧ (recs = (best.take x.q.k).map (fun r => resultRec r.2 r.1 0 false)) ∧ s.writePriv x.rcpt.clerk x.ctx x.q.output.toNat recs.flatten = some (u, .ok, b) ∧ ((s.clerk x.rcpt.clerk).slot x.rcpt.slot = sl ∧ sl.occupied = true ∧ sl.serial = x.rcpt.serial)) ∧
    (∃ (i : Nat) (p : Nat) (g : Nat) (s : State) (k : Coll), s.Live ∧ s.vsr.colls.look i = some k ∧ (k.dropping = false ∧ k.lost.contains (p, g) = true ∧ s.boot.flashUp = true) ∧ (s.putUnits (.vecData i) (s.collWrites i [] [(p, g)])).2 ≠ []) :=
  ⟨⟨.firmware, 0x1000, wTblState, wTblState.sweepTables, wTblState.sweepTables, wGramBytes.take 256, wGramBytes, true, 0x228, 0, by decide +kernel, by decide +kernel, wTbl_head, by decide +kernel, wTbl_whole, wTbl_check⟩,
   ⟨.firmware, 1, { wCtx with txt := ⟨⟨[(1, wVoc)]⟩, .empty⟩ }, wVoc, ⟨⟨[(1, { wVoc with unloading := true })]⟩, .empty⟩, by decide +kernel, by decide +kernel, by decide +kernel, by decide +kernel⟩,
   ⟨.firmware, 0x1000, wCollState, collOf 1 wCollDesc, 0, by decide +kernel, by decide +kernel, by decide +kernel, by decide +kernel, by decide +kernel, by decide +kernel, by decide +kernel, by decide +kernel⟩,
   ⟨.firmware, 2, wVcoll wColl, wColl, 2, by decide +kernel, by decide +kernel, by decide +kernel, by decide +kernel⟩,
   ⟨2, wVcoll { wColl with dropping := true }, { wColl with dropping := true }, by decide +kernel, by decide +kernel, by decide +kernel⟩,
   ⟨.firmware, 1, wUp, by decide +kernel, by decide +kernel, by decide +kernel⟩,
   ⟨.firmware, 1, wVcoll wColl, by decide +kernel, by decide +kernel, by decide +kernel⟩,
   ⟨2, wVcoll { wColl with entries := [wVent] }, { wColl with entries := [wVent] }, by decide +kernel, by decide +kernel, by decide +kernel, by decide +kernel⟩,
   ⟨0, wVq { wVsearch with waiting := 2 } [⟨4, [], none⟩], ⟨4, [], none⟩, [], { wVsearch with waiting := 2 }, wColl, by decide +kernel, by decide +kernel, by decide +kernel, by decide +kernel, by decide +kernel, by decide +kernel⟩,
   ⟨4, 0, 0, wVq { wVsearch with assay := true } [], ((wVq { wVsearch with assay := true } []).writePriv 7 3 0x40 []).map (·.1) |>.getD wUp, { wVsearch with assay := true }, wColl, [], [], [], wSlot false, by decide +kernel, by decide +kernel, by decide +kernel, by decide +kernel, by decide +kernel, by decide +kernel, by decide +kernel, by decide +kernel, by decide +kernel, rfl, by decide +kernel⟩,
   ⟨2, freshPart 0, 0, (wVcoll { wColl with lost := [(freshPart 0, 0)], pages := ⟨[((freshPart 0, 0), 9)]⟩ }).onFls (fun f => { f with extents := ⟨[(9, ⟨none, true, [], 0, 64, none⟩)]⟩ }), { wColl with lost := [(freshPart 0, 0)], pages := ⟨[((freshPart 0, 0), 9)]⟩ }, by decide +kernel, by decide +kernel, by decide +kernel, by decide +kernel⟩⟩

/-- Each clause of `AluInstructionsWriteTheirRegister` has a state and operands that meet its hypotheses. -/
theorem test_witness_alu_instructions_write_their_register :
    (∃ (c : Nat) (s : State) (ix : Ix), Issues s c ix (isMajor 0x01)) ∧
    (∃ (c : Nat) (s : State) (ix : Ix), Issues s c ix (isMajor 0x02)) ∧
    (∃ (c : Nat) (s : State) (ix : Ix), Issues s c ix (isMajor 0x03)) ∧
    (∃ (c : Nat) (s : State) (ix : Ix), Issues s c ix (isMajor 0x04)) :=
  ⟨⟨7, wClerk wAlu, wIx wAlu, ⟨by decide +kernel, by decide +kernel, by decide +kernel, by decide +kernel⟩⟩,
   ⟨7, wClerk wAlui, wIx wAlui, ⟨by decide +kernel, by decide +kernel, by decide +kernel, by decide +kernel⟩⟩,
   ⟨7, wClerk wLi, wIx wLi, ⟨by decide +kernel, by decide +kernel, by decide +kernel, by decide +kernel⟩⟩,
   ⟨7, wClerk wLih, wIx wLih, ⟨by decide +kernel, by decide +kernel, by decide +kernel, by decide +kernel⟩⟩⟩

/-- Each clause of `CompareAndPredicateInstructions` has a state and operands that meet its hypotheses. -/
theorem test_witness_compare_and_predicate_instructions :
    (∃ (c : Nat) (s : State) (ix : Ix), Issues s c ix (isMajor 0x05)) ∧
    (∃ (c : Nat) (s : State) (ix : Ix), Issues s c ix (isMajor 0x06)) ∧
    (∃ (c : Nat) (s : State) (ix : Ix), Issues s c ix (isMajor 0x07)) ∧
    (∃ (ix : Ix), ((isMajor 0x05 ix = true ∧ 7 ≤ wFnRR ix.w) ∨ (isMajor 0x06 ix = true ∧ 7 ≤ wFnRI ix.w) ∨ (isMajor 0x07 ix = true ∧ 4 ≤ wFnRR ix.w))) ∧
    (∃ (c : Nat) (s : State) (ix : Ix), s.issuer c = some ix ∧ ix.legal = false) :=
  ⟨⟨7, wClerk wCmp, wIx wCmp, ⟨by decide +kernel, by decide +kernel, by decide +kernel, by decide +kernel⟩⟩,
   ⟨7, wClerk wCmpi, wIx wCmpi, ⟨by decide +kernel, by decide +kernel, by decide +kernel, by decide +kernel⟩⟩,
   ⟨7, wClerk wPlog, wIx wPlog, ⟨by decide +kernel, by decide +kernel, by decide +kernel, by decide +kernel⟩⟩,
   ⟨wIx wCmpBad, by decide +kernel⟩,
   ⟨7, wClerk wCmpBad, wIx wCmpBad, by decide +kernel, by decide +kernel⟩⟩

/-- Each clause of `BranchesJumpAndLink` has a state and operands that meet its hypotheses. -/
theorem test_witness_branches_jump_and_link :
    (∃ (c : Nat) (s : State) (ix : Ix), Issues s c ix (isMajor 0x08)) ∧
    (∃ (c : Nat) (s : State) (ix : Ix), Issues s c ix (isMajor 0x09)) ∧
    (∃ (ix : Ix), isMajor 0x08 ix = true ∧ wRA ix.w ≠ 0) ∧
    (∃ (c : Nat) (s : State) (ix : Ix), s.issuer c = some ix ∧ ix.legal = true ∧ isMajor 0x08 ix = true ∧ ix.guard = false) :=
  ⟨⟨7, wClerk wBr, wIx wBr, ⟨by decide +kernel, by decide +kernel, by decide +kernel, by decide +kernel⟩⟩,
   ⟨7, wClerk wJr, wIx wJr, ⟨by decide +kernel, by decide +kernel, by decide +kernel, by decide +kernel⟩⟩,
   ⟨wIx wBrBad, by decide +kernel, by decide +kernel⟩,
   ⟨7, wClerk wBrNot, wIx wBrNot, by decide +kernel, by decide +kernel, by decide +kernel, by decide +kernel⟩⟩

/-- Each clause of `DescriptorWordInstructions` has a state and operands that meet its hypotheses. -/
theorem test_witness_descriptor_word_instructions :
    (∃ (c : Nat) (s : State) (ix : Ix), Issues s c ix (isMajor 0x0A) ∧ ix.img.compat = false) ∧
    (∃ (c : Nat) (s : State) (ix : Ix), Issues s c ix (isMajor 0x0B) ∧ ix.img.compat = false) :=
  ⟨⟨7, wClerk wDins, wIx wDins, ⟨by decide +kernel, by decide +kernel, by decide +kernel, by decide +kernel⟩, by decide +kernel⟩,
   ⟨7, wClerk wDext, wIx wDext, ⟨by decide +kernel, by decide +kernel, by decide +kernel, by decide +kernel⟩, by decide +kernel⟩⟩

/-- Each clause of `FencesAndTraps` has a state and operands that meet its hypotheses. -/
theorem test_witness_fences_and_traps :
    (∃ (c : Nat) (s : State) (ix : Ix), Issues s c ix (isFence 0)) ∧
    (∃ (c : Nat) (s : State) (ix : Ix), Issues s c ix (isFence 1)) ∧
    (∃ (c : Nat) (s : State) (ix : Ix), Issues s c ix (isFence 2)) ∧
    (∃ (c : Nat) (s : State) (ix : Ix), Issues s c ix (isMajor 0x70) ∧ wCode ix.w = 0) ∧
    (∃ (c : Nat) (s : State) (ix : Ix), Issues s c ix (isMajor 0x70) ∧ wCode ix.w ≠ 0) ∧
    (∃ (c : Nat) (s : State) (ix : Ix), Issues s c ix (isMajor 0x71) ∧ ix.img.wantsFreeze = true ∧ s.freezeRight ix.run.ctx = true ∧ s.pwrSt ≤ 1 ∧ s.frz.deferred = none) :=
  ⟨⟨7, wClerk (wFence 0), wIx (wFence 0), ⟨by decide +kernel, by decide +kernel, by decide +kernel, by decide +kernel⟩⟩,
   ⟨7, wClerk (wFence 1), wIx (wFence 1), ⟨by decide +kernel, by decide +kernel, by decide +kernel, by decide +kernel⟩⟩,
   ⟨7, wClerk (wFence 2), wIx (wFence 2), ⟨by decide +kernel, by decide +kernel, by decide +kernel, by decide +kernel⟩⟩,
   ⟨7, wClerk (wTrap 0), wIx (wTrap 0), ⟨by decide +kernel, by decide +kernel, by decide +kernel, by decide +kernel⟩, by decide +kernel⟩,
   ⟨7, wClerk (wTrap 5), wIx (wTrap 5), ⟨by decide +kernel, by decide +kernel, by decide +kernel, by decide +kernel⟩, by decide +kernel⟩,
   ⟨7, wClerkFrz, wIxFrz, ⟨by decide +kernel, by decide +kernel, by decide +kernel, by decide +kernel⟩, by decide +kernel, by decide +kernel, by decide +kernel, by decide +kernel⟩⟩

/-- Each clause of `LoadsStoresAndAtomics` has a state and operands that meet its hypotheses. -/
theorem test_witness_loads_stores_and_atomics :
    (∃ (c : Nat) (s : State) (ix : Ix) (key : Nat), Issues s c ix (isMajor 0x48) ∧ ix.w.getLsbD 27 = false ∧ PrivateAccess s ix key ∧ s.CleanAt key ix.memBytes) ∧
    (∃ (c : Nat) (s : State) (ix : Ix) (key : Nat), Issues s c ix (isMajor 0x49) ∧ PrivateAccess s ix key ∧ (s.protectedAt key).isEmpty = true ∧ s.CleanAt key (ix.cl.regBytes ix.img.compat (wSize ix.w) (wRB ix.w)).length ∧ Memory.wf s.mem = true) ∧
    (∃ (c : Nat) (s : State) (ix : Ix) (key : Nat), Issues s c ix (isMajor 0x4A) ∧ PrivateAccess s ix key ∧ (s.protectedAt key).isEmpty = true ∧ s.CleanAt key ix.memBytes ∧ Memory.wf s.mem = true) ∧
    (∃ (c : Nat) (s : State) (ix : Ix), Issues s c ix (isMajor 0x48) ∧ ix.w.getLsbD 27 = true ∧ ix.addr.toNat + ix.memBytes ≤ ix.img.rodata.length ∧ ix.addr.toNat % ix.memBytes = 0) :=
  ⟨⟨7, wClerkMem wLd, wIxMem wLd, keyPriv 3 64, ⟨by decide +kernel, by decide +kernel, by decide +kernel, by decide +kernel⟩, by decide +kernel, ⟨64, by decide +kernel⟩, (by unfold State.CleanAt; decide +kernel)⟩,
   ⟨7, wClerkMem wSt, wIxMem wSt, keyPriv 3 64, ⟨by decide +kernel, by decide +kernel, by decide +kernel, by decide +kernel⟩, ⟨64, by decide +kernel⟩, by decide +kernel, (by unfold State.CleanAt; decide +kernel), by decide +kernel⟩,
   ⟨7, wClerkMem wAmo, wIxMem wAmo, keyPriv 3 64, ⟨by decide +kernel, by decide +kernel, by decide +kernel, by decide +kernel⟩, ⟨64, by decide +kernel⟩, by decide +kernel, (by unfold State.CleanAt; decide +kernel), by decide +kernel⟩,
   ⟨7, wClerkMem wLdRo, wIxMem wLdRo, ⟨by decide +kernel, by decide +kernel, by decide +kernel, by decide +kernel⟩, by decide +kernel, by decide +kernel, by decide +kernel⟩⟩

/-- Each clause of `WaitingAndSignals` has a state and operands that meet its hypotheses. -/
theorem test_witness_waiting_and_signals :
    (∃ (c : Nat) (s : State) (ix : Ix) (k : Nat), Issues s c ix (isMajor 0x60) ∧ s.ownTag c (ix.cl.s (wRA ix.w)) = some k ∧ (ix.cl.slot k).complete = true ∧ (ix.cl.slot k).openH = none) ∧
    (∃ (c : Nat) (s : State) (ix : Ix) (k : Nat), Issues s c ix (isMajor 0x60) ∧ s.ownTag c (ix.cl.s (wRA ix.w)) = some k ∧ (ix.cl.slot k).complete = false) ∧
    (∃ (c : Nat) (s : State) (ix : Ix), Issues s c ix (isMajor 0x60) ∧ s.ownTag c (ix.cl.s (wRA ix.w)) = none) ∧
    (∃ (c : Nat) (k : Nat) (t0 : Nat) (s : State) (r : Run) (img : Image), s.Live ∧ (s.clerk c).waitFor = some (.receipt k) ∧ (s.clerk c).run = some r ∧ s.tlr.images.look r.slot = some img ∧ (s.clerk c).st = .waiting ∧ ((s.clerk c).slot k).complete = false ∧ (s.clerk c).waitUntil = some t0 ∧ t0 ≤ s.now) ∧
    (∃ (c : Nat) (s : State) (ix : Ix) (g : Signal), Issues s c ix (isMajor 0x61) ∧ s.checkSignal ix (wH ix.w) rtWrite = none ∧ s.tlr.signals.look (sigIndex (hObj (ix.cl.h (wH ix.w)))) = some g ∧ g.waiters = []) ∧
    (∃ (c : Nat) (s : State) (ix : Ix), Issues s c ix (isMajor 0x62) ∧ wUseH ix.w = false) ∧
    (∃ (c : Nat) (s : State) (ix : Ix) (g : Signal), Issues s c ix (isMajor 0x62) ∧ wUseH ix.w = true ∧ s.checkSignal ix (wHw ix.w) rtRead = none ∧ s.tlr.signals.look (sigIndex (hObj (ix.cl.h (wHw ix.w)))) = some g ∧ g.waiters = []) ∧
    (∃ (c : Nat) (i : Nat) (t0 : Nat) (s : State), s.Live ∧ (s.clerk c).waitFor = some (.signal i) ∧ (s.clerk c).st = .waiting ∧ (s.clerk c).waitUntil = some t0 ∧ t0 ≤ s.now) :=
  ⟨⟨7, wClerkRcpt wWait true, wIxRcpt wWait true, 5, ⟨by decide +kernel, by decide +kernel, by decide +kernel, by decide +kernel⟩, by decide +kernel, by decide +kernel, by decide +kernel⟩,
   ⟨7, wClerkRcpt wWait false, wIxRcpt wWait false, 5, ⟨by decide +kernel, by decide +kernel, by decide +kernel, by decide +kernel⟩, by decide +kernel, by decide +kernel⟩,
   ⟨7, wClerk wWait, wIx wWait, ⟨by decide +kernel, by decide +kernel, by decide +kernel, by decide +kernel⟩, by decide +kernel⟩,
   ⟨7, 5, 0, wClerkWaits, wRun, wImg [wWait], by decide +kernel, by decide +kernel, by decide +kernel, by decide +kernel, by decide +kernel, by decide +kernel, by decide +kernel, by decide +kernel⟩,
   ⟨7, wClerkSig wSignal, wIxSig wSignal, wSig 3, ⟨by decide +kernel, by decide +kernel, by decide +kernel, by decide +kernel⟩, by decide +kernel, by decide +kernel, by decide +kernel⟩,
   ⟨7, wClerk wYield0, wIx wYield0, ⟨by decide +kernel, by decide +kernel, by decide +kernel, by decide +kernel⟩, by decide +kernel⟩,
   ⟨7, wClerkSig wYield1, wIxSig wYield1, wSig 3, ⟨by decide +kernel, by decide +kernel, by decide +kernel, by decide +kernel⟩, by decide +kernel, by decide +kernel, by decide +kernel, by decide +kernel⟩,
   ⟨7, 4, 0, wClerkYields, by decide +kernel, by decide +kernel, by decide +kernel, by decide +kernel, by decide +kernel⟩⟩

/-- Each clause of `HandlesOpenBindDrop` has a state and operands that meet its hypotheses. -/
theorem test_witness_handles_open_bind_drop :
    (∃ (c : Nat) (n : Nat) (i : Nat) (s : State) (ix : Ix), IssuesLong s c ix (isMajor 0x10) n ∧ wImm24 ix.w % 16 = 11 ∧ sigGen ix.ra = 0 ∧ sigCtx ix.ra = ix.run.ctx ∧ s.resident ix.run.ctx = true ∧ ix.cl.h (wH ix.w) = 0 ∧ (lowestFree (fun k => match s.tlr.signals.look k with | some g => g.live | none => false) 0 4096 = some i)) ∧
    (∃ (c : Nat) (s : State) (ix : Ix), Issues s c ix (isMajor 0x11) ∧ s.checkHandle ix.run.ctx (ix.cl.h (wH2 ix.w)) [1, 2, 3, 4, 5, 6, 7, 8, 9, 10, 11] rtGrant = none ∧ wImm24 ix.w % 256 ≠ 0) ∧
    (∃ (c : Nat) (s : State) (ix : Ix), Issues s c ix (isMajor 0x12) ∧ ix.cl.busySlots = []) :=
  ⟨⟨7, 63, 0, wClerkOpen, wIxOpen, ⟨⟨by decide +kernel, by decide +kernel, by decide +kernel, by decide +kernel⟩, by decide +kernel⟩, by decide +kernel, by decide +kernel, by decide +kernel, by decide +kernel, by decide +kernel, by decide +kernel⟩,
   ⟨7, wClerkSig wBind, wIxSig wBind, ⟨by decide +kernel, by decide +kernel, by decide +kernel, by decide +kernel⟩, by decide +kernel, by decide +kernel⟩,
   ⟨7, wClerkSig wDrop, wIxSig wDrop, ⟨by decide +kernel, by decide +kernel, by decide +kernel, by decide +kernel⟩, by decide +kernel⟩⟩

/-- Each clause of `SessionInstructions` has a state and operands that meet its hypotheses. -/
theorem test_witness_session_instructions :
    (∃ (c : Nat) (n : Nat) (s : State) (ix : Ix) (x : Session), IssuesOn s c ix (isSub 0x18 0) n [1] rtMove ∧ mvBad ix.desc 1 = false ∧ dbits ix.desc 6 1 = 0 ∧ s.sess ix.sessIx = some x ∧ (x.st = .active ∧ x.op = none ∧ x.placing = none) ∧ (dbits ix.desc 7 1 = 1 ∨ x.kvBytes = 0) ∧ dbits ix.desc 8 1 = 0) ∧
    (∃ (c : Nat) (n : Nat) (s : State) (ix : Ix) (x : Session), IssuesOn s c ix (isSub 0x18 0) n [1] rtMove ∧ mvBad ix.desc 1 = false ∧ dbits ix.desc 6 1 = 1 ∧ hasRights (hRights (ix.cl.h (wH ix.w))) rtDelete = true ∧ s.sess ix.sessIx = some x ∧ (x.req = none ∧ x.op = none ∧ x.placing = none)) ∧
    (∃ (c : Nat) (n : Nat) (s : State) (ix : Ix) (x : Session), IssuesOn s c ix (isSub 0x19 0) n [1] rtMove ∧ mvBad ix.desc 2 = false ∧ s.sess ix.sessIx = some x ∧ x.st = .active) ∧
    (∃ (c : Nat) (n : Nat) (s : State) (ix : Ix) (x : Session), IssuesOn s c ix (isSub 0x19 0) n [1] rtMove ∧ mvBad ix.desc 2 = false ∧ s.sess ix.sessIx = some x ∧ (x.st = .parked ∧ x.op = none ∧ x.placing = none) ∧ (x.kvKept = false ∧ x.recompute.isSome = true)) ∧
    (∃ (c : Nat) (n : Nat) (s : State) (ix : Ix) (x : Session) (m : Member), IssuesOn s c ix (isSub 0x1A 0) n [1] rtMove ∧ mvBad ix.desc 3 = false ∧ s.sess ix.sessIx = some x ∧ ((x.st = .active ∨ x.st = .parked) ∧ x.op = none ∧ x.placing = none) ∧ s.dmap.members.look (dbits ix.desc 128 5) = some m ∧ (m.small = false ∨ x.kvFmt ≠ 2) ∧ (x.pages = [] ∧ x.parked = [])) ∧
    (∃ (c : Nat) (n : Nat) (s : State) (ix : Ix) (x : Session), (IssuesOn s c ix (fun ix => isSub 0x1B 0 ix && decide (mvOp ix.desc ≠ 5)) n [1] rtMove) ∧ mvBad ix.desc 4 = false ∧ (dbits ix.desc 11 3 = 0 ∨ (2 ≤ dbits ix.desc 11 3 ∧ dbits ix.desc 11 3 ≤ 4)) ∧ s.sess ix.sessIx = some x ∧ ((x.st = .active ∨ x.st = .reviving) ∧ x.placing = none) ∧ (dbits ix.desc 11 3 ≠ 0 ∨ (s.pinnedPages ix.sessIx + x.kvBytes / 65536) * 100 ≤ s.pgSum .ssnPgTotal * s.fld Fld.ssnPlaceCfg_pinPct)) ∧
    (∃ (c : Nat) (n : Nat) (s : State) (ix : Ix) (x : Session), (IssuesOn s c ix (fun ix => isSub 0x1B 0 ix && decide (mvOp ix.desc = 5)) n [1] rtMove) ∧ mvBad ix.desc 5 = false ∧ s.sess ix.sessIx = some x) ∧
    (∃ (c : Nat) (s : State) (ix : Ix) (x : Session), Issues s c ix (isSub 0x1C 0) ∧ s.checkHandle ix.run.ctx (ix.cl.h (wH ix.w)) [1] rtMove = none ∧ s.sess ix.sessIx = some x ∧ x.st ≠ .parked) :=
  ⟨⟨7, 63, wMove 1 wPark, wIxMove 1 wPark, wSess, by decide +kernel, by decide +kernel, by decide +kernel, by decide +kernel, by decide +kernel, by decide +kernel, by decide +kernel⟩,
   ⟨7, 63, wMove 0x41 wPark, wIxMove 0x41 wPark, wSess, by decide +kernel, by decide +kernel, by decide +kernel, by decide +kernel, by decide +kernel, by decide +kernel⟩,
   ⟨7, 63, wMove 2 wRevive, wIxMove 2 wRevive, wSess, by decide +kernel, by decide +kernel, by decide +kernel, by decide +kernel⟩,
   ⟨7, 63, wMoveOn wSessCut 2 wRevive, wIxMove 2 wRevive, wSessCut, by decide +kernel, by decide +kernel, by decide +kernel, by decide +kernel, by decide +kernel⟩,
   ⟨7, 63, wMove (3 + 4 * 2 ^ 128) wMoveW, wIxMove (3 + 4 * 2 ^ 128) wMoveW, wSess, wMember, by decide +kernel, by decide +kernel, by decide +kernel, by decide +kernel, by decide +kernel, by decide +kernel, by decide +kernel⟩,
   ⟨7, 63, wMove 4 wPin, wIxMove 4 wPin, wSess, by decide +kernel, by decide +kernel, by decide +kernel, by decide +kernel, by decide +kernel, by decide +kernel⟩,
   ⟨7, 63, wMove 5 wPin, wIxMove 5 wPin, wSess, by decide +kernel, by decide +kernel, by decide +kernel⟩,
   ⟨7, wMove 6 wHint, wIxMove 6 wHint, wSess, by decide +kernel, by decide +kernel, by decide +kernel, by decide +kernel⟩⟩

/-- Each clause of `RequestsAndAttention` has a state and operands that meet its hypotheses. -/
theorem test_witness_requests_and_attention :
    (∃ (c : Nat) (n : Nat) (g : Nat) (s : State) (u : State) (ix : Ix) (row : RecvMsg) (bytes : List Byte) (md : Model) (f : LayerForm), IssuesOn s c ix (isSub 0x20 0) n [8] rtCompute ∧ (u = (s.onTlr (fun t => { t with opCtr := s.tlr.opCtr + 1 })).issued ix (.attn (s.tlr.opCtr + 1)) [wH ix.w] n) ∧ s.kva.inbox.look (ix.run.ctx, dbits ix.desc 0 64) = some row ∧ (dbits ix.desc 192 320 = 0 ∧ dbits ix.desc 128 64 = 0) ∧ s.privMapped c ix.run.ctx (dbits ix.desc 0 64) row.bytes = true ∧ u.readPriv c ix.run.ctx (dbits ix.desc 0 64) row.bytes = some (u, .ok, 0, bytes) ∧ (s.groupOf row.port = some g ∧ s.groupModel g = some md ∧ s.groupLead g = some row.port ∧ row.port = (hObj (ix.cl.h (wH ix.w))).toNat) ∧ (parseMsg bytes).step = dbits ix.desc 64 64 ∧ s.msgRefused (s.stepOn row.port (parseMsg bytes).step) (decide ((s.group g).role = .external)) md (parseMsg bytes) = false ∧ md.forms[(parseMsg bytes).layer]? = some f ∧ (ix.img.compat = false ∨ row.kvu = true ∨ (f.kind ≠ 1 ∧ f.sparseB = 0))) ∧
    (∃ (c : Nat) (n : Nat) (s : State) (u : State) (ix : Ix) (a : List Byte) (b : List Byte) (k : Nat), IssuesLong s c ix (isSub 0x21 0) n ∧ (dbits ix.desc 229 283 = 0 ∧ dbits ix.desc 192 32 = 1 ∧ dbits ix.desc 228 1 = 0) ∧ (s.privMapped c ix.run.ctx (dbits ix.desc 0 64) (8 + 64 * (dbits ix.desc 224 4 + 1)) = true ∧ s.privMapped c ix.run.ctx (dbits ix.desc 64 64) (8 + 64 * (dbits ix.desc 224 4 + 1)) = true ∧ s.privMapped c ix.run.ctx (dbits ix.desc 128 64) (8 + 64 * (dbits ix.desc 224 4 + 1)) = true) ∧ (s.issued ix .attnMerge [] n).readPriv c ix.run.ctx (dbits ix.desc 0 64) (8 + 64 * (dbits ix.desc 224 4 + 1)) = some (s.issued ix .attnMerge [] n, .ok, 0, a) ∧ (s.issued ix .attnMerge [] n).readPriv c ix.run.ctx (dbits ix.desc 64 64) (8 + 64 * (dbits ix.desc 224 4 + 1)) = some (s.issued ix .attnMerge [] n, .ok, 0, b) ∧ (s.issued ix .attnMerge [] n).writePriv c ix.run.ctx (dbits ix.desc 128 64) (mergeRecord (16 * (dbits ix.desc 224 4 + 1)) (takeAt a 0 (8 + 64 * (dbits ix.desc 224 4 + 1))) (takeAt b 0 (8 + 64 * (dbits ix.desc 224 4 + 1)))) = some (u, .ok, k)) ∧
    (∃ (c : Nat) (n : Nat) (stepUs : Nat) (rate : Nat) (finUs : Nat) (s : State) (ix : Ix) (x : Session) (m : Model) (voc : Table), (IssuesOn s c ix (fun ix => reqWord ix (fun op => decide (op ≠ 2))) n [1] rtCompute) ∧ (dbits ix.desc 0 4 = 1 ∧ dbits ix.desc 4 28 = 0 ∧ dbits ix.desc 322 190 = 0 ∧ dbits ix.desc 320 2 % 2 = 0) ∧ s.ledgerRoom (dbits ix.desc 208 16) = true ∧ s.resident ix.run.ctx = true ∧ dbits ix.desc 288 32 ≤ 4194304 ∧ (dbits ix.desc 288 32 = 0 ∨ s.privMapped c ix.run.ctx (dbits ix.desc 224 64) (4 * dbits ix.desc 288 32) = true) ∧ s.sess ix.sessIx = some x ∧ (x.req = none ∧ x.st ≠ .parking ∧ x.st ≠ .moving) ∧ (s.sch.models.look (dbits ix.desc 192 16) = some m ∧ s.vocabOf m = some voc ∧ m.unreg = false) ∧ (voc.ctx = ix.run.ctx ∧ (s.cust (dbits ix.desc 208 16)).bound.getD ix.run.ctx = ix.run.ctx) ∧ 0 < ((s.cust (dbits ix.desc 208 16)).refillTo s.nodeNs).available ∧ s.admitCheck ix.sessIx (dbits ix.desc 192 16) (dbits ix.desc 288 32) (dbits ix.desc 32 32) stepUs rate finUs = none) ∧
    (∃ (c : Nat) (n : Nat) (s : State) (ix : Ix) (x : Session), (IssuesOn s c ix (fun ix => reqWord ix (fun op => decide (op = 2))) n [1] rtCompute) ∧ (dbits ix.desc 4 28 = 0 ∧ dbits ix.desc 322 190 = 0) ∧ s.sess ix.sessIx = some x ∧ x.req = none) ∧
    (∃ (c : Nat) (n : Nat) (s : State) (ix : Ix) (x : Session) (q : ReqBlk), (IssuesOn s c ix (fun ix => reqWord ix (fun op => decide (op = 2))) n [1] rtCompute) ∧ (dbits ix.desc 4 28 = 0 ∧ dbits ix.desc 322 190 = 0) ∧ s.sess ix.sessIx = some x ∧ x.req = some q ∧ s.inStep ix.sessIx = true) ∧
    (∃ (c : Nat) (n : Nat) (g : Nat) (s : State) (u : State) (ix : Ix) (tables : List Byte), IssuesOn s c ix (isSub 0x28 1) n [8] rtCompute ∧ (u = (s.onTlr (fun t => { t with opCtr := s.tlr.opCtr + 1 })).issued ix (.kernel (s.tlr.opCtr + 1)) [wH ix.w] n) ∧ s.groupOfLead (hObj (ix.cl.h (wH ix.w))).toNat = some g ∧ ((s.group g).role = .external ∧ (s.group g).extCtx = ix.run.ctx) ∧ kernelDescOk ix.desc g = true ∧ (s.privMapped c ix.run.ctx ix.ra.toNat (dbits ix.desc 160 32) = true ∧ s.privMapped c ix.run.ctx ix.rb.toNat (wImm24 ix.w * 64) = true) ∧ u.readPriv c ix.run.ctx ix.ra.toNat (dbits ix.desc 160 32) = some (u, .ok, 0, tables)) :=
  ⟨⟨7, 63, 0, wAttn, (wAttn.onTlr (fun t => { t with opCtr := 1 })).issued wIxAttn (.attn 1) [2] 63, wIxAttn, wRow, wMsg, wModelA, wForm, by decide +kernel, by decide +kernel, by decide +kernel, by decide +kernel, by decide +kernel, by decide +kernel, by decide +kernel, by decide +kernel, by decide +kernel, by decide +kernel, by decide +kernel⟩,
   ⟨7, 63, wMerge, wMerged, wIxMerge, natLe 72 0, natLe 72 0, 0, by decide +kernel, by decide +kernel, by decide +kernel, by decide +kernel, by decide +kernel, by decide +kernel⟩,
   ⟨7, 63, 10, 1, 10, wReqS wSess 1, wIxReq 1, wSess, wModel, wVoc, by decide +kernel, by decide +kernel, by decide +kernel, by decide +kernel, by decide +kernel, by decide +kernel, by decide +kernel, by decide +kernel, by decide +kernel, by decide +kernel, by decide +kernel, by decide +kernel⟩,
   ⟨7, 63, wReqS wSess 2, wIxReq 2, wSess, by decide +kernel, by decide +kernel, by decide +kernel, by decide +kernel⟩,
   ⟨7, 63, wReqStep, wIxReq 2, wSessOpen, wReq, by decide +kernel, by decide +kernel, by decide +kernel, by decide +kernel, by decide +kernel⟩,
   ⟨7, 63, 0, wKernel, (wKernel.onTlr (fun t => { t with opCtr := 1 })).issued wIxKernel (.kernel 1) [2] 63, wIxKernel, natLe 64 0, by decide +kernel, by decide +kernel, by decide +kernel, by decide +kernel, by decide +kernel, by decide +kernel, by decide +kernel⟩⟩

/-- Each clause of `VectorInstructions` has a state and operands that meet its hypotheses. -/
theorem test_witness_vector_instructions :
    (∃ (c : Nat) (n : Nat) (s : State) (ix : Ix) (k : Coll) (bs : List Byte), IssuesOn s c ix (isSub 0x38 0) n [2] rtRead ∧ s.vsr.colls.look (bits (hObj (ix.cl.h (wH ix.w))).toNat 48 10) = some k ∧ searchForm ix.desc (decide (s.fld Fld.vsrCfg_testMode = 1)) = true ∧ s.privMapped c ix.run.ctx (dbits ix.desc 384 64) (16 * dbits ix.desc 16 13) = true ∧ (s.issued ix (.search 0) [wH ix.w] n).readPriv c ix.run.ctx (dbits ix.desc 320 64) (4 * k.dim) = some (s.issued ix (.search 0) [wH ix.w] n, .ok, 0, bs) ∧ (∀ j, j < k.dim → fFinite (f32At bs j) = true) ∧ (s.vsr.searches.countIf (fun _ x => decide (x.hub = hubOfClerk c) && !x.executing) < 4096)) ∧
    (∃ (c : Nat) (n : Nat) (s : State) (ix : Ix) (k : Coll) (keys : List Byte), IssuesOn s c ix (isSub 0x3A 0) n [2] (rtWrite + rtDelete) ∧ s.vsr.colls.look (bits (hObj (ix.cl.h (wH ix.w))).toNat 48 10) = some k ∧ vwriteForm ix.desc 2 = true ∧ (s.issued ix (.vwrite 0 0) [wH ix.w] n).readPriv c ix.run.ctx (dbits ix.desc 64 64) (8 * dbits ix.desc 32 32) = some (s.issued ix (.vwrite 0 0) [wH ix.w] n, .ok, 0, keys) ∧ k.workUsed k.allPages (k.tombs.length + dbits ix.desc 32 32) ≤ k.workBytes ∧ s.boot.flashUp = true ∧ s.fls.extents.size + k.newExts [] [] < 16777216 ∧ s.dirtRoom (16 * dbits ix.desc 32 32) = true) ∧
    (∃ (c : Nat) (n : Nat) (s : State) (u : State) (ix : Ix) (k : Coll) (new : Coll) (keys : List Byte) (vecs : List Byte) (tags : List Byte) (attrs : List Byte), IssuesOn s c ix (isSub 0x39 0) n [2] rtWrite ∧ u = s.issued ix (.vwrite 0 0) [wH ix.w] n ∧ s.vsr.colls.look (bits (hObj (ix.cl.h (wH ix.w))).toNat 48 10) = some k ∧ (vwriteForm ix.desc 1 = true ∧ dbits ix.desc 32 32 = 1) ∧ (u.readPriv c ix.run.ctx (dbits ix.desc 64 64) 8 = some (u, .ok, 0, keys) ∧ u.readPriv c ix.run.ctx (dbits ix.desc 128 64) (k.dim * elemBytes k.elem) = some (u, .ok, 0, vecs) ∧ u.readPriv c ix.run.ctx (dbits ix.desc 192 64) 8 = some (u, .ok, 0, tags) ∧ u.readPriv c ix.run.ctx (dbits ix.desc 256 64) 4 = some (u, .ok, 0, attrs)) ∧ (k.decodeVec (takeAt vecs 0 (k.dim * elemBytes k.elem))).all fFinite = true ∧ new = k.withInserts 1 (bit (dbits ix.desc 4 1) 0) keys tags attrs [takeAt vecs 0 (k.dim * elemBytes k.elem)] (s.freeLogSlots (bits (hObj (ix.cl.h (wH ix.w))).toNat 48 10) k 1) ∧ ({ new with epoch := new.epoch + 1 } : Coll).visible.length ≤ k.maxVectors ∧ k.workUsed new.allPages new.tombs.length ≤ k.workBytes ∧ (s.boot.flashUp = true ∧ s.pool = 0) ∧ s.poolFull (s.newUnits k (k.touched (s.freeLogSlots (bits (hObj (ix.cl.h (wH ix.w))).toNat 48 10) k 1)) (new.changedPages k)) = false ∧ s.fls.extents.size + k.newExts (k.touched (s.freeLogSlots (bits (hObj (ix.cl.h (wH ix.w))).toNat 48 10) k 1)) (new.changedPages k) < 16777216 ∧ (s.dirtRoom (16 * ((new.tombs.drop k.tombs.length).length + ((new.changedPages k).filter (fun p => !(k.pages.has p))).length)) = true)) :=
  ⟨⟨7, 63, wVec wSearch 1, wIxVec wSearch 1, wColl, natLe 8 0, by decide +kernel, by decide +kernel, by decide +kernel, by decide +kernel, by decide +kernel, by decide +kernel, by decide +kernel⟩,
   ⟨7, 63, wVec wVdelete 2, wIxVec wVdelete 2, wColl, natLe 8 0, by decide +kernel, by decide +kernel, by decide +kernel, by decide +kernel, by decide +kernel, by decide +kernel, by decide +kernel, by decide +kernel⟩,
   ⟨7, 63, wVec wVinsert 1, (wVec wVinsert 1).issued (wIxVec wVinsert 1) (.vwrite 0 0) [2] 63, wIxVec wVinsert 1, wColl, wCollNew, natLe 8 0, natLe 8 0, natLe 8 0, natLe 4 0, by decide +kernel, by decide +kernel, by decide +kernel, by decide +kernel, ⟨by decide +kernel, by decide +kernel, by decide +kernel, by decide +kernel⟩, by decide +kernel, rfl, by decide +kernel, by decide +kernel, by decide +kernel, by decide +kernel, by decide +kernel, by decide +kernel⟩⟩

/-- Each clause of `EscrowAndStatementInstructions` has a state and operands that meet its hypotheses. -/
theorem test_witness_escrow_and_statement_instructions :
    (∃ (c : Nat) (n : Nat) (s : State) (ix : Ix) (r : DomRegion), IssuesOn s c ix (isMajor 0x50) n [5] rtPublish ∧ (s.domSt ≠ 4 ∧ s.dfb.leading = false ∧ s.fld Fld.dfbStatus_leaderValid = 1) ∧ s.dmap.regions.look (bits (hObj (ix.cl.h (wH ix.w))).toNat 48 14) = some r ∧ (∀ y ∈ s.dfb.esc, y.key ≠ s.tlr.opCtr + 1) ∧ (escEval r .acq s.self s.dmap.epoch).2.2 = true) ∧
    (∃ (c : Nat) (n : Nat) (s : State) (ix : Ix) (r : DomRegion), IssuesOn s c ix (isMajor 0x51) n [5] rtPublish ∧ (s.domSt ≠ 4 ∧ s.dfb.leading = false ∧ s.fld Fld.dfbStatus_leaderValid = 1) ∧ s.dmap.regions.look (bits (hObj (ix.cl.h (wH ix.w))).toNat 48 14) = some r ∧ (∀ y ∈ s.dfb.esc, y.key ≠ s.tlr.opCtr + 1) ∧ s.storesOut c = false ∧ (escEval r (.pub ix.ra.toNat) s.self s.dmap.epoch).2.2 = true) ∧
    (∃ (c : Nat) (n : Nat) (s : State) (ix : Ix) (r : DomRegion), IssuesOn s c ix (isMajor 0x52) n [5] rtPublish ∧ (s.domSt ≠ 4 ∧ s.dfb.leading = false ∧ s.fld Fld.dfbStatus_leaderValid = 1) ∧ s.dmap.regions.look (bits (hObj (ix.cl.h (wH ix.w))).toNat 48 14) = some r ∧ (∀ y ∈ s.dfb.esc, y.key ≠ s.tlr.opCtr + 1) ∧ (escEval r .rel s.self s.dmap.epoch).2.2 = true) ∧
    (∃ (c : Nat) (n : Nat) (s : State) (ix : Ix) (r : DomRegion), IssuesOn s c ix (isMajor 0x50) n [5] rtPublish ∧ (s.domSt ≠ 4 ∧ s.dfb.leading = false ∧ s.fld Fld.dfbStatus_leaderValid = 1) ∧ s.dmap.regions.look (bits (hObj (ix.cl.h (wH ix.w))).toNat 48 14) = some r ∧ (∀ y ∈ s.dfb.esc, y.key ≠ s.tlr.opCtr + 1) ∧ r.owner = some s.self) ∧
    (∃ (c : Nat) (n : Nat) (s : State) (ix : Ix) (x : StmJob) (told : Bool), IssuesOn s c ix (isMajor 0x58) n [7] rtWrite ∧ s.stm.jobs.look (jobIndex (ix.cl.h (wH ix.w))) = some x ∧ (x.openSlot = none ∧ x.begin = none) ∧ (x.record.map (·.step)).getD 0 < ix.ra.toNat ∧ (x.slotA.isSome = true ∨ x.slotB.isSome = true ∨ x.record.isSome = true ∨ s.coordAgrees x told = true) ∧ x.flushHolds x.nextSlot = false) ∧
    (∃ (c : Nat) (n : Nat) (s : State) (ix : Ix) (x : StmJob) (v : Statement) (h : Shard), IssuesOn s c ix (isMajor 0x59) n [7] rtWrite ∧ s.stm.jobs.look (jobIndex (ix.cl.h (wH ix.w))) = some x ∧ (x.openStm = some v ∧ x.commit = none) ∧ shardOf ix.desc x.desc.slotBytes = some h ∧ (h.space = 0 ∧ s.privMapped c ix.run.ctx h.off h.bytes = true) ∧ (∀ a ∈ v.shards, a.id ≠ h.id ∧ a.meets h = false) ∧ ((v.shards.map (fun a => a.count)).sum + h.count ≤ x.desc.pages ∧ v.shards.length < 4096) ∧ (∀ r ∈ s.stm.jobs.rows, r.2.adds = [])) ∧
    (∃ (c : Nat) (n : Nat) (s : State) (ix : Ix) (x : StmJob) (v : Statement), IssuesOn s c ix (isMajor 0x5A) n [7] rtWrite ∧ s.stm.jobs.look (jobIndex (ix.cl.h (wH ix.w))) = some x ∧ (x.openStm = some v ∧ x.commit = none ∧ x.adds = []) ∧ v.shards ≠ [] ∧ v.counts.2 < v.counts.1) ∧
    (∃ (c : Nat) (n : Nat) (s : State) (ix : Ix) (x : StmJob) (v : Statement), IssuesOn s c ix (isMajor 0x5A) n [7] rtWrite ∧ s.stm.jobs.look (jobIndex (ix.cl.h (wH ix.w))) = some x ∧ (x.openStm = some v ∧ x.commit = none ∧ x.adds = []) ∧ v.shards ≠ [] ∧ (v.counts.1 ≤ v.counts.2 ∧ v.header = false) ∧ (x.cfLost = false ∧ x.desc.coord ≠ s.self)) :=
  ⟨⟨7, 63, wEsc none wEscAcq, wIxEsc wEscAcq, wRegion none, by decide +kernel, by decide +kernel, by decide +kernel, by decide +kernel, by decide +kernel⟩,
   ⟨7, 63, wEsc (some 0) wEscPub, wIxEsc wEscPub, wRegion (some 0), by decide +kernel, by decide +kernel, by decide +kernel, by decide +kernel, by decide +kernel, by decide +kernel⟩,
   ⟨7, 63, wEsc (some 0) wEscRel, wIxEsc wEscRel, wRegion (some 0), by decide +kernel, by decide +kernel, by decide +kernel, by decide +kernel, by decide +kernel⟩,
   ⟨7, 63, wEsc (some 0) wEscAcq, wIxEsc wEscAcq, wRegion (some 0), by decide +kernel, by decide +kernel, by decide +kernel, by decide +kernel, by decide +kernel⟩,
   ⟨7, 63, wStm wJob 0, wIxStm 0, wJob, true, by decide +kernel, by decide +kernel, by decide +kernel, by decide +kernel, by decide +kernel, by decide +kernel⟩,
   ⟨7, 63, wStm wJobOpen 1, wIxStm 1, wJobOpen, wStmOpen, wShard, by decide +kernel, by decide +kernel, by decide +kernel, by decide +kernel, by decide +kernel, by decide +kernel, by decide +kernel, by decide +kernel⟩,
   ⟨7, 63, wStm wJobShard 2, wIxStm 2, wJobShard, wStmShard false, by decide +kernel, by decide +kernel, by decide +kernel, by decide +kernel, by decide +kernel⟩,
   ⟨7, 63, wStm wJobCopied 2, wIxStm 2, wJobCopied, wStmShard true, by decide +kernel, by decide +kernel, by decide +kernel, by decide +kernel, by decide +kernel, by decide +kernel⟩⟩

/-- Each clause of `FlashChannelsAndWrites` has a state and operands that meet its hypotheses. -/
theorem test_witness_flash_channels_and_writes :
    (∃ (ch : Nat) (a : NandAnswer) (s : State), s.Live ∧ (ch < 32 ∧ s.boot.done.contains 5 = true ∧ s.chanSt ch = 0 ∧ s.hubUp (hubOfChannel ch) = true ∧ s.boot.chanOut.contains ch = false) ∧ s.negReason ch a = 0) ∧
    (∃ (ch : Nat) (a : NandAnswer) (s : State), s.Live ∧ (ch < 32 ∧ s.boot.done.contains 5 = true ∧ s.chanSt ch = 0 ∧ s.hubUp (hubOfChannel ch) = true ∧ s.boot.chanOut.contains ch = false) ∧ s.negReason ch a ≠ 0) ∧
    (∃ (x : Nat) (first : Nat) (data : List (List Byte)) (s : State) (e : Extent) (us : List Nat) (n : Nat), s.Live ∧ s.fls.extents.look x = some e ∧ (s.boot.flashUp = true ∧ data ≠ [] ∧ first + data.length ≤ e.units) ∧ (us = (List.range data.length).map (fun i => e.base + first + i)) ∧ (n = (us.filter (fun u => !(s.fls.map.has u))).length) ∧ (s.pool = 0 ∧ s.poolFull n = false)) ∧
    (∃ (id : Nat) (u : Nat) (tag : Word) (s : State) (v : State) (w : FlashWr) (e : Extent) (d : List Byte) (y : MapEnt), s.Live ∧ (s.fls.writes.find? (fun w => decide (w.id = id)) = some w) ∧ (s.fls.held && !w.till) = false ∧ (w.owner = .request tag ∧ w.till = false ∧ w.data = [d] ∧ s.fls.extents.look w.extent = some e) ∧ (u = e.base + w.first ∧ w.seen = [s.fls.map.look u]) ∧ (v = s.onFls (fun f => { f with writes := f.writes.filter (fun x => decide (x.id ≠ id)) })) ∧ (v.placeUnit false w.extent e.spread e.chan (v.stripeGroup e.owner)).2 = some y) ∧
    (∃ (h : Nat) (s : State) (b : List JRec × Nat), s.Live ∧ s.fls.jbufs.look h = some b ∧ (b.1 ≠ [] ∧ (65536 ≤ b.1.length ∨ b.2 + 1000000 ≤ s.now ∨ s.fld Fld.pwrStatus_state = 1))) ∧
    (∃ (s : State), s.Live ∧ (2 ^ 32 ≤ s.fls.journalBytes ∧ s.fls.held = false)) ∧
    (∃ (u : Nat) (s : State) (e : MapEnt), s.Live ∧ (s.fls.held = false ∧ s.fls.map.look u = some e) ∧ (s.unitAway e = false ∧ e.lost = false)) ∧
    (∃ (u : Nat) (s : State) (e : MapEnt), s.Live ∧ (s.fls.held = false ∧ s.fls.map.look u = some e) ∧ (s.unitAway e = false ∧ e.lost = false ∧ s.rowAway e = false)) ∧
    (∃ (s : State), s.Live) ∧
    (∃ (rq : Requester) (v : Word) (s : State) (e : Extent), WriteOpen s rq .flsSdisc 0 ∧ s.fls.extents.look (bits v.toNat 0 24) = some e ∧ bit v.toNat 24 = false ∧ (e.owner.map (s.actsFor rq)).getD (decide (rq = .firmware)) = true) :=
  ⟨⟨2, wNand, wFls, by decide +kernel, by decide +kernel, by decide +kernel⟩,
   ⟨2, { wNand with onfi51 := false }, wFls, by decide +kernel, by decide +kernel, by decide +kernel⟩,
   ⟨9, 1, [[0x5A]], wFls, ⟨some 3, false, [], 100, 64, none⟩, [101], 1, by decide +kernel, by decide +kernel, by decide +kernel, by decide +kernel, by decide +kernel, by decide +kernel⟩,
   ⟨4, 101, 0x77, wFls.onFls (fun f => { f with writes := [wFlW] }), (wFls.onFls (fun f => { f with writes := [wFlW] })).onFls (fun f => { f with writes := [] }), wFlW, ⟨some 3, false, [], 100, 64, none⟩, [0x5A], ⟨false, false, false, 1, 2, 0⟩, by decide +kernel, by decide +kernel, by decide +kernel, by decide +kernel, by decide +kernel, by decide +kernel, by decide +kernel⟩,
   ⟨0, { wFls.onFls (fun f => { f with jbufs := ⟨[(0, [⟨100, none, []⟩], 0)]⟩ }) with now := 1000000 }, ([⟨100, none, []⟩], 0), by decide +kernel, by decide +kernel, by decide +kernel⟩,
   ⟨wFls.onFls (fun f => { f with journalBytes := 4294967296 }), by decide +kernel, by decide +kernel⟩,
   ⟨100, wFlU wEnt wSbFull, wEnt, by decide +kernel, by decide +kernel, by decide +kernel⟩,
   ⟨100, wFlU wEnt wSbFull, wEnt, by decide +kernel, by decide +kernel, by decide +kernel⟩,
   ⟨wFlU wEnt wSbFull, by decide +kernel⟩,
   ⟨.firmware, 9, wFlU wEnt wSbFull, ⟨some 3, false, [], 100, 64, none⟩, by decide +kernel, by decide +kernel, by decide +kernel, by decide +kernel⟩⟩

/-- Each clause of `FlashFailuresAndHousekeeping` has a state and operands that meet its hypotheses. -/
theorem test_witness_flash_failures_and_housekeeping :
    (∃ (ch : Nat) (lun : Nat) (s : State), s.Live ∧ (s.chanSt ch = 1 ∧ lun < 32) ∧ bit (s.fld Fld.flsChStatus_lunFailed ch) lun = false ∧ (s.fls.rebuild.filter (fun r => decide (r.2.1 = lun) && decide (r.1 ≠ ch)) = [])) ∧
    (∃ (ch : Nat) (lun : Nat) (us : List Nat) (s : State), s.Live ∧ s.fls.held = false ∧ (s.fls.rebuild.find? (fun r => decide (r.1 = ch) && decide (r.2.1 = lun)) = some (ch, lun, us))) ∧
    (∃ (i : Nat) (b : Sb) (s : State) (u : State), s.Live ∧ (s.pool ≠ 2 ∧ s.eraseHeld = false ∧ s.foldHigh * s.tillCap < s.tillValid * 100) ∧ ¬ (s.tillValid * 100 < s.fld Fld.flsGcCfg_foldLow * s.tillCap) ∧ (u = (s.onFls (fun f => { f with folding := true })).setFld Fld.flsPoolStatus_folding 0 1) ∧ (leastSb (fun b => b.closedAt) (u.fullSbs true) = some (i, b)) ∧ (((u.unitsIn i).foldl (fun s u => s.relocate u false) u).unitsIn i = [])) ∧
    (∃ (i : Nat) (b : Sb) (s : State), s.Live ∧ (s.pool ≠ 2 ∧ s.eraseHeld = false ∧ s.sbFree ≤ s.gcLow) ∧ (leastSb (fun b => b.valid) (s.fullSbs false) = some (i, b)) ∧ (((s.unitsIn i).foldl (fun s u => s.relocate u false) s).unitsIn i = [])) ∧
    (∃ (i : Nat) (j : Nat) (b : Sb) (w : Sb) (s : State), s.Live ∧ (s.pool ≠ 2 ∧ s.eraseHeld = false) ∧ (leastSb (fun b => b.wear) (s.fullSbs false) = some (i, b)) ∧ s.mostWorn = some (j, w) ∧ (b.wear + s.fld Fld.flsGcCfg_wlGap * 10 * 1000 < w.wear ∧ w.slc = false ∧ i ≠ j)) ∧
    (∃ (i : Nat) (s : State), s.Live ∧ s.eraseHeld = false ∧ ((if (s.sb i).slc then s.fld Fld.flsRefreshCfg_readLimitSlc else s.fld Fld.flsRefreshCfg_readLimitNative) * 1000 ≤ (s.sb i).reads) ∧ (((s.unitsIn i).foldl (fun u k => u.relocate k (s.sb i).slc) s).unitsIn i = [])) ∧
    (∃ (i : Nat) (s : State), s.Live ∧ (s.eraseHeld = false ∧ (s.sb i).st = .full) ∧ (((s.unitsIn i).foldl (fun u k => u.relocate k (s.sb i).slc) s).unitsIn i = [])) ∧
    (∃ (ch : Nat) (p : Nat) (s : State), s.Live ∧ 0 < s.fls.reserve.lookD (ch, p) 0) ∧
    (∃ (ch : Nat) (p : Nat) (sb : Nat) (s : State), s.Live ∧ (s.fls.reserve.lookD (ch, p) 0 = 0 ∧ (s.sb sb).st ≠ .retired)) :=
  ⟨⟨0, 0, wFlU wEnt wSbFull, by decide +kernel, by decide +kernel, by decide +kernel, by decide +kernel⟩,
   ⟨0, 0, [100], (wFlU wEnt wSbFull).onFls (fun f => { f with rebuild := [(0, 0, [100])] }), by decide +kernel, by decide +kernel, by decide +kernel⟩,
   ⟨3, { wSbFull with slc := true }, wFlU { wEnt with till := true } { wSbFull with slc := true }, ((wFlU { wEnt with till := true } { wSbFull with slc := true }).onFls (fun f => { f with folding := true })).setFld Fld.flsPoolStatus_folding 0 1, by decide +kernel, by decide +kernel, by decide +kernel, by decide +kernel, by decide +kernel, by decide +kernel⟩,
   ⟨3, wSbFull, (wFlU wEnt wSbFull).setFld Fld.flsSbA_free 0 0, by decide +kernel, by decide +kernel, by decide +kernel, by decide +kernel⟩,
   ⟨3, 5, wSbFull, { wSbFull with st := .free, used := 0, valid := 0, wear := 2000001, held := [], chans := [] }, ((wFlU wEnt wSbFull).setFld Fld.flsGcCfg_wlGap 0 200).onFls (fun f => { f with sbs := ⟨[(3, wSbFull), (5, { wSbFull with st := .free, used := 0, valid := 0, wear := 2000001, held := [], chans := [] })]⟩ }), by decide +kernel, by decide +kernel, by decide +kernel, by decide +kernel, by decide +kernel⟩,
   ⟨3, wFlU wEnt { wSbFull with reads := 100000000 }, by decide +kernel, by decide +kernel, by decide +kernel, by decide +kernel⟩,
   ⟨3, wFlU wEnt wSbFull, by decide +kernel, by decide +kernel, by decide +kernel⟩,
   ⟨0, 1, (wFlU wEnt wSbFull).onFls (fun f => { f with reserve := ⟨[((0, 1), 2)]⟩ }), by decide +kernel, by decide +kernel⟩,
   ⟨0, 1, 3, wFlU wEnt wSbFull, by decide +kernel, by decide +kernel⟩⟩

/-- Each clause of `StatementMembersAndCommit` has a state and operands that meet its hypotheses. -/
theorem test_witness_statement_members_and_commit :
    (∃ (rq : Requester) (v : Word) (s : State) (d : JobDesc) (j : Nat) (fs : List (Nat × Nat)), WriteOpen s rq .stmJobCreate 0 ∧ low6 v = 0 ∧ (jobForm (s.bytesAt (keyHub v.toNat) 64) = true ∧ d = jobDescOf (s.bytesAt (keyHub v.toNat) 64)) ∧ (s.resident d.ctx && s.actsFor rq d.ctx) = true ∧ lowestFree s.stm.jobs.has 0 16 = some j ∧ (s.pastHigh (2 * d.pages) = false ∧ (s.takeSlots d.ctx j d).2 = some fs) ∧ (s.dmap.members.has d.peer = true ∧ d.peer ≠ s.self ∧ s.dfb.leading = false)) ∧
    (∃ (rq : Requester) (v : Word) (s : State) (x : StmJob) (j : Nat), WriteOpen s rq .stmJobDelete 0 ∧ (j = bits v.toNat 0 4 ∧ s.stm.jobs.look j = some x ∧ s.jobAllowed rq j = true) ∧ s.dfb.leading = false) ∧
    (∃ (rq : Requester) (j : Nat) (v : Word) (s : State) (x : StmJob), WindowOpen s rq ∧ (j < 16 ∧ s.regReach .stmJobPeer j = true ∧ s.jobAllowed rq j = true ∧ s.stm.jobs.look j = some x) ∧ (bits v.toNat 0 5 ≠ s.self ∧ s.dmap.members.has (bits v.toNat 0 5) = true ∧ s.dfb.leading = false)) ∧
    (∃ (j : Nat) (h : Nat) (k : Nat) (slot : Nat) (s : State) (x : StmJob) (v : Statement) (sh : Shard), s.Live ∧ s.stm.jobs.look j = some x ∧ (x.openStm = some v ∧ x.openSlot = some slot ∧ x.commit = none) ∧ (v.nextPage = some (h, k) ∧ v.shards[h]? = some sh) ∧ ((x.slotPages slot)[sh.first + k]?).isSome = true) ∧
    (∃ (page : Nat) (j : Nat) (h : Nat) (k : Nat) (slot : Nat) (s : State) (x : StmJob) (v : Statement) (sh : Shard), s.Live ∧ s.stm.holds.has page = true ∧ s.protectedAt page = [(j, h, k)] ∧ s.stm.jobs.look j = some x ∧ (x.openStm = some v ∧ x.openSlot = some slot ∧ x.commit = none) ∧ (v.shards[h]? = some sh ∧ ((x.slotPages slot)[sh.first + k]?).isSome = true)) ∧
    (∃ (peer : Nat) (rank : Nat) (tag : Word) (s : State) (c : CfStore), s.Live ∧ s.stm.stores.look (peer, tag, rank) = some c) ∧
    (∃ (peer : Nat) (rank : Nat) (tag : Word) (ok : Bool) (s : State), s.Live ∧ (ok = false ∨ s.stm.stores.look (peer, tag, rank) = none)) ∧
    (∃ (j : Nat) (seq : Nat) (k : Nat) (s : State) (x : StmJob), s.Live ∧ s.stm.jobs.look j = some x ∧ (x.openSlot = some k ∧ x.cfLost = false ∧ x.refusals.lookD seq 0 + 1 < 3)) ∧
    (∃ (j : Nat) (seq : Nat) (k : Nat) (s : State) (x : StmJob), s.Live ∧ s.stm.jobs.look j = some x ∧ (x.openSlot = some k ∧ x.cfLost = false ∧ 3 ≤ x.refusals.lookD seq 0 + 1 ∧ x.commit = none)) ∧
    (∃ (j : Nat) (s : State) (x : StmJob) (v : Statement), s.Live ∧ s.stm.jobs.look j = some x ∧ (x.openStm = some v ∧ x.cfLost = false ∧ x.desc.coord ≠ s.self) ∧ (v.header = true ∧ v.mcr = none)) ∧
    (∃ (tag : Word) (rank : Nat) (s : State) (d : JobDesc), s.Live ∧ (s.coordinates tag = some d ∧ rank < d.members)) ∧
    (∃ (tag : Word) (rank : Nat) (s : State) (d : JobDesc), s.Live ∧ (s.coordinates tag = some d ∧ rank < d.members)) ∧
    (∃ (j : Nat) (step : Nat) (k : Nat) (s : State) (x : StmJob) (v : Statement), s.Live ∧ s.stm.jobs.look j = some x ∧ (x.openStm = some v ∧ x.openSlot = some k) ∧ (v.step = step ∧ v.mcr.isSome = true)) ∧
    (∃ (peer : Nat) (rank : Nat) (n : Nat) (tag : Word) (s : State) (m : Member) (fs : List (Nat × Nat)), s.Live ∧ s.dmap.members.look s.self = some m ∧ (n ≠ 0 ∧ m.st ≠ .leaving ∧ s.stm.stores.has (peer, tag, rank) = false ∧ s.pastHigh (2 * (n / 65536)) = false) ∧ (s.allocMany 64 rank 254 (2 * (n / 65536)) .alloc).2 = some fs) ∧
    (∃ (peer : Nat) (rank : Nat) (tag : Word) (s : State) (r : (Nat × Word × Nat) × CfStore), s.Live ∧ s.ssn.cf.look (peer, tag) = none ∧ (s.stm.stores.rows.find? (fun r => decide (r.1.2.1 = tag) && decide (r.1.2.2 = rank)) = some r)) :=
  ⟨⟨.firmware, 0x1000, wJobNew, jobDescOf wJobBytes, 0, (wJobNew.takeSlots 3 0 (jobDescOf wJobBytes)).2.getD [], by decide +kernel, by decide +kernel, by decide +kernel, by decide +kernel, by decide +kernel, by decide +kernel, by decide +kernel⟩,
   ⟨.firmware, 2, wJobs wJob1, wJob1, 2, by decide +kernel, by decide +kernel, by decide +kernel⟩,
   ⟨.firmware, 2, 4, wJobs wJob1, wJob1, by decide +kernel, by decide +kernel, by decide +kernel⟩,
   ⟨2, 0, 0, 0, wJobs (wJobO false none), wJobO false none, wStm1 false none, { wShard1 with copied := [] }, by decide +kernel, by decide +kernel, by decide +kernel, by decide +kernel, by decide +kernel⟩,
   ⟨keyPriv 3 0, 2, 0, 0, 0, (wJobs (wJobO false none)).onStm (fun t => { t with holds := ⟨[(keyPriv 3 0, [(.clerk 7, 0)])]⟩ }), wJobO false none, wStm1 false none, { wShard1 with copied := [] }, by decide +kernel, by decide +kernel, by decide +kernel, by decide +kernel, by decide +kernel, by decide +kernel⟩,
   ⟨4, 1, 0x55, (wJobs wJob1).onStm (fun t => { t with stores := ⟨[((4, 0x55, 1), ⟨[], .empty, none⟩)]⟩ }), ⟨[], .empty, none⟩, by decide +kernel, by decide +kernel⟩,
   ⟨4, 1, 0x55, true, wJobs wJob1, by decide +kernel, by decide +kernel⟩,
   ⟨2, 0, 0, wJobs (wJobO false none), wJobO false none, by decide +kernel, by decide +kernel, by decide +kernel⟩,
   ⟨2, 0, 0, wJobs { wJobO false none with refusals := ⟨[(0, 2)]⟩ }, { wJobO false none with refusals := ⟨[(0, 2)]⟩ }, by decide +kernel, by decide +kernel, by decide +kernel⟩,
   ⟨2, wJobs (wJobO true none), wJobO true none, wStm1 true none, by decide +kernel, by decide +kernel, by decide +kernel, by decide +kernel⟩,
   ⟨0x55, 0, wJobs (wJobSelf wJob1), (wJobSelf wJob1).desc, by decide +kernel, by decide +kernel⟩,
   ⟨0x55, 0, wJobs (wJobSelf wJob1), (wJobSelf wJob1).desc, by decide +kernel, by decide +kernel⟩,
   ⟨2, 9, 0, wJobs (wJobO true (some 0)), wJobO true (some 0), wStm1 true (some 0), by decide +kernel, by decide +kernel, by decide +kernel, by decide +kernel⟩,
   ⟨4, 1, 65536, 0x55, wJobs wJob1, wMember, ((wJobs wJob1).allocMany 64 1 254 2 .alloc).2.getD [], by decide +kernel, by decide +kernel, by decide +kernel, by decide +kernel⟩,
   ⟨4, 1, 0x55, (wJobs wJob1).onStm (fun t => { t with stores := ⟨[((4, 0x55, 1), ⟨[], ⟨[((0, 0), [9])]⟩, none⟩)]⟩ }), ((4, 0x55, 1), ⟨[], ⟨[((0, 0), [9])]⟩, none⟩), by decide +kernel, by decide +kernel, by decide +kernel⟩⟩

/-- Each clause of `StatementFlushRestoreAndTakeover` has a state and operands that meet its hypotheses. -/
theorem test_witness_statement_flush_restore_and_takeover :
    (∃ (j : Nat) (k : Nat) (step : Nat) (s : State) (u : State) (x : StmJob) (v : Statement) (data : List (List Byte)) (es : List Nat), s.Live ∧ s.stm.jobs.look j = some x ∧ (x.flushing = some step ∧ x.slotOf step = some (k, v) ∧ x.flashNew = none) ∧ (data = (v.shards.filter (fun h => !h.ref)).flatMap (fun h => (List.range h.count).flatMap (fun i =>
      [takeAt (s.slotPage x k (h.first + i)) 0 unitBytes, takeAt (s.slotPage x k (h.first + i)) unitBytes unitBytes]))) ∧ (s.flushParts j (chunks 1048576 data.length data) = (u, some es) ∧ es ≠ [])) ∧
    (∃ (tag : Word) (rank : Nat) (step : Nat) (j : Nat) (s : State) (x : StmJob) (v : Statement) (es : List Nat), s.Live ∧ (s.coordinates tag = none ∧ s.localMember tag rank = some (j, x) ∧ s.stm.jobs.look j = some x) ∧ (x.flashNew = some (v, es, 0) ∧ v.step = step)) ∧
    (∃ (rq : Requester) (v : Word) (j : Nat) (k : Nat) (s : State) (x : StmJob) (r : JobRec) (w : Statement), WriteOpen s rq .stmRestore 0 ∧ (j = bits v.toNat 0 4 ∧ bit v.toNat 4 = false ∧ s.jobAllowed rq j = true ∧ s.stm.jobs.look j = some x) ∧ (x.record = some r ∧ x.slotOf r.step = some (k, w)) ∧ (s.failedPages x k w = [] ∧ w.poisoned = [] ∧ s.restorable x w = true)) ∧
    (∃ (j : Nat) (step : Nat) (l : List (List Byte)) (s : State) (u : State), s.Live ∧ s.stm.jobs.has j = true ∧ s.restoreFrom j step l = (u, 0)) ∧
    (∃ (desc : List Byte) (peer : Nat) (step : Nat) (j : Nat) (l : List ShardSpec) (s : State) (u : State) (d : JobDesc) (fs : List (Nat × Nat)) (x : StmJob) (w : Statement), s.Live ∧ lowestFree s.stm.jobs.has 0 16 = some j ∧ (jobForm desc = true ∧ d = { jobDescOf desc with peer := peer } ∧ s.resident d.ctx = true ∧ s.pastHigh (2 * d.pages) = false) ∧ (s.takeSlots d.ctx j d).2 = some fs ∧ (u = (s.takeSlots d.ctx j d).1.addJob j d fs ∧ u.stm.jobs.look j = some x ∧ s.dfb.leading = false) ∧ (w = ⟨step, s.nodeNs, takeoverShards l 0, true, some s.nodeNs, List.range ((takeoverShards l 0).map (fun h => h.count)).sum⟩) ∧ u.restorable x w = true) :=
  ⟨⟨2, 0, 9, wFlushJob, (wFlushJob.flushParts 2 (chunks 1048576 2 wFlushData)).1, { wJobC with flushing := some 9 }, wStm1 true (some 0), wFlushData, [0], by decide +kernel, by decide +kernel, by decide +kernel, rfl, ⟨rfl, by decide +kernel⟩⟩,
   ⟨0x55, 0, 9, 2, wJobs { wJobC with flashNew := some (wStm1 true (some 0), [9], 0) }, { wJobC with flashNew := some (wStm1 true (some 0), [9], 0) }, wStm1 true (some 0), [9], by decide +kernel, by decide +kernel, by decide +kernel⟩,
   ⟨.firmware, 2, 2, 0, wJobs wJobC, wJobC, ⟨9, 0, false, false, [], 0, 1⟩, wStm1 true (some 0), by decide +kernel, by decide +kernel, by decide +kernel, by decide +kernel⟩,
   ⟨2, 9, [], wJobs wJobC, ((wJobs wJobC).restoreFrom 2 9 []).1, by decide +kernel, by decide +kernel, by decide +kernel⟩,
   ⟨wJobBytes, 4, 9, 0, [], wJobNew, (wJobNew.takeSlots 3 0 (jobDescOf wJobBytes)).1.addJob 0 (jobDescOf wJobBytes) ((wJobNew.takeSlots 3 0 (jobDescOf wJobBytes)).2.getD []), jobDescOf wJobBytes, (wJobNew.takeSlots 3 0 (jobDescOf wJobBytes)).2.getD [], StmJob.fresh 1 (jobDescOf wJobBytes) (((wJobNew.takeSlots 3 0 (jobDescOf wJobBytes)).2.getD []).take 1) (((wJobNew.takeSlots 3 0 (jobDescOf wJobBytes)).2.getD []).drop 1), ⟨9, wJobNew.nodeNs, [], true, some wJobNew.nodeNs, []⟩, by decide +kernel, by decide +kernel, by decide +kernel, by decide +kernel, by decide +kernel, by decide +kernel, by decide +kernel⟩⟩

/-- Each clause of `NodeRegionsAndGranules` has a state and operands that meet its hypotheses. -/
theorem test_witness_node_regions_and_granules :
    (∃ (rq : Requester) (v : Word) (s : State) (w0 : Nat) (w1 : Nat) (i : Nat) (b : Nat), WriteOpen s rq .nmcRegionCreate 0 ∧ low6 v = 0 ∧ (w0 = leAt (s.bytesAt (keyHub v.toNat) 32) 0 8 ∧ w1 = leAt (s.bytesAt (keyHub v.toNat) 32) 8 8) ∧ (regionForm w0 w1 = true ∧ allZero (takeAt (s.bytesAt (keyHub v.toNat) 32) 16 16) = true) ∧ (s.resident (bits w0 0 6) && s.actsFor rq (bits w0 0 6)) = true ∧ (lowestFree s.nmc.regions.has 0 4096 = some i ∧ s.freeGranules 0 s.nmc.window (bits w1 0 32) = some b)) ∧
    (∃ (rq : Requester) (v : Word) (s : State) (i : Nat) (r : Region), WriteOpen s rq .nmcRegionDelete 0 ∧ (i = bits v.toNat 0 12 ∧ s.nmc.regions.look i = some r ∧ s.actsFor rq r.ctx = true) ∧ (s.regionLines r = [] ∧ s.nmc.faults.any (fun k _ => decide (k.1 = i)) = false)) ∧
    (∃ (rq : Requester) (v : Word) (s : State) (i : Nat) (r : Region), WriteOpen s rq .nmcRegionTemp 0 ∧ (i = bits v.toNat 0 12 ∧ s.nmc.regions.look i = some r ∧ s.actsFor rq r.ctx = true) ∧ bits v.toNat 12 2 ≠ 3) ∧
    (∃ (a : Nat) (s : State) (q : NReq), s.Live ∧ (s.nmc.held.look a = some [q] ∧ s.covers a q = true) ∧ (s.nmcAllowed q = false ∧ s.nmc.ordered = [] ∧ q.ordered = false ∧ s.stm.jobs.any (fun _ x => !x.adds.isEmpty) = false) ∧ (q.src = .host a 7 ∧ q.op = .read 0)) ∧
    (∃ (a : Nat) (tag : Nat) (s : State) (q : NReq), s.Live ∧ (s.nmc.held.look a = some [q] ∧ s.covers a q = true) ∧ (s.nmc.ordered = [] ∧ q.ordered = false ∧ s.stm.jobs.any (fun _ x => !x.adds.isEmpty) = false) ∧ (q.src = .host a tag ∧ q.op = .read 0 ∧ s.lineFree q)) ∧
    (∃ (x : AgentLoad) (s : State), s.Live ∧ x.agent < 10) ∧
    (∃ (i : Nat) (g : Nat) (e : Nat) (s : State) (u : State) (r : Region) (id : Nat), s.Live ∧ s.nmc.regions.look i = some r ∧ s.coldReady i g r = true ∧ s.newExtent (some r.ctx) 2 false none = (u, some e) ∧ (u.flashPut (.granule i g) e 0 [u.bytesAt (keyNode ((r.base + g) * 65536)) 32768, u.bytesAt (keyNode ((r.base + g) * 65536) + 32768) 32768]
      false).2 = .queued id) ∧
    (∃ (i : Nat) (g : Nat) (x : Nat) (s : State) (r : Region) (e : Extent), s.Live ∧ (s.nmc.regions.look i = some r ∧ s.nmc.parked.look (i, g) = some x ∧ s.fls.extents.look x = some e) ∧ (s.nmc.faults.lookD (i, g) [] = [] ∧ r.temp ≠ 2 ∧ s.nmc.ordered = [] ∧ s.stm.jobs.any (fun _ x => !x.adds.isEmpty) = false) ∧ ((s.unitRead e.base).1 = 0 ∧ (s.unitRead (e.base + 1)).1 = 0)) ∧
    (∃ (l : Nat) (a : Nat) (s : State) (r : Recall), s.Live ∧ s.nmc.recalls.look (l, a) = some r ∧ r.sentAt + max 10 (s.fld Fld.nmcAgentCfg_tmoUs a) * 1000 ≤ s.now ∧ r.resent = false) ∧
    (∃ (l : Nat) (a : Nat) (s : State) (r : Recall), s.Live ∧ s.nmc.recalls.look (l, a) = some r ∧ r.sentAt + max 10 (s.fld Fld.nmcAgentCfg_tmoUs a) * 1000 ≤ s.now ∧ r.resent = true) ∧
    (∃ (a : Nat) (s : State), s.Live ∧ (a < 10 ∧ s.agentSt a = 1) ∧ (s.nmc.recalls.any (fun k _ => decide (k.2 = a)) = false ∧ s.nmc.ordered = [] ∧ s.stm.jobs.any (fun _ x => !x.adds.isEmpty) = false)) ∧
    (∃ (h : Nat) (a : Nat) (l : Nat) (s : State) (e : DirEnt), s.Live ∧ (s.nmc.sweeps = ⟨[(a, [h])]⟩ ∧ s.hubUp h = true) ∧ (s.nmc.dir.look l = some e ∧ e.st = .px ∧ e.rcl = false ∧ s.lineHub l = h)) ∧
    (∃ (a : Nat) (s : State), s.Live ∧ (a < 2 ∧ s.hostUp = true ∧ s.agentSt a ≠ 1 ∧ s.nmc.sweeps.has a = false)) :=
  ⟨⟨.firmware, 0x1000, wRegionNew, 3 + 2 ^ 10, 1, 0, 16, by decide +kernel, by decide +kernel, by decide +kernel, by decide +kernel, by decide +kernel, by decide +kernel⟩,
   ⟨.firmware, 6, wNmc, 6, wNregion, by decide +kernel, by decide +kernel, by decide +kernel⟩,
   ⟨.firmware, 6 + 2 ^ 13 + 2 ^ 14, wNmc, 6, wNregion, by decide +kernel, by decide +kernel, by decide +kernel⟩,
   ⟨0, wNmc.onNmc (fun m => { m with held := ⟨[(0, [⟨.host 0 7, .read 0, 0x200000, 4, false⟩])]⟩ }), ⟨.host 0 7, .read 0, 0x200000, 4, false⟩, by decide +kernel, by decide +kernel, by decide +kernel, by decide +kernel⟩,
   ⟨0, 7, wNmc.onNmc (fun m => { m with held := ⟨[(0, [⟨.host 0 7, .read 0, 64, 4, false⟩])]⟩ }), ⟨.host 0 7, .read 0, 64, 4, false⟩, by decide +kernel, by decide +kernel, by decide +kernel, ⟨rfl, rfl, by unfold State.lineFree; exact ⟨by decide +kernel, by decide +kernel, by decide +kernel, by decide +kernel, by decide +kernel, by unfold State.CleanAt; decide +kernel⟩⟩⟩,
   ⟨⟨0, 5, 10, false⟩, wNmc, by decide +kernel, by decide +kernel⟩,
   ⟨6, 2, 10, wNmcCold, (wNmcCold.newExtent (some 3) 2 false none).1, { wNregion with temp := 2, hostPark := true }, 0, by decide +kernel, by decide +kernel, by decide +kernel, rfl, by decide +kernel⟩,
   ⟨6, 2, 9, wNmcParked, wNregion, ⟨some 3, false, [], 100, 64, none⟩, by decide +kernel, by decide +kernel, by decide +kernel, by decide +kernel⟩,
   ⟨1, 0, { wNmcHeld 0 with now := 100000000 }, ⟨true, 0, 0, false⟩, by decide +kernel, by decide +kernel, by decide +kernel, by decide +kernel⟩,
   ⟨1, 0, { (wNmcHeld 0).onNmc (fun m => { m with recalls := ⟨[((1, 0), ⟨true, 0, 0, true⟩)]⟩ }) with now := 100000000 }, ⟨true, 0, 0, true⟩, by decide +kernel, by decide +kernel, by decide +kernel, by decide +kernel⟩,
   ⟨3, wNmc, by decide +kernel, by decide +kernel, by decide +kernel⟩,
   ⟨0, 3, 1, wNmc.onNmc (fun m => { m with sweeps := ⟨[(3, [0])]⟩, dir := ⟨[(1, ⟨.px, [], 3, false, 0⟩)]⟩ }), ⟨.px, [], 3, false, 0⟩, by decide +kernel, by decide +kernel, by decide +kernel⟩,
   ⟨1, wNmc, by decide +kernel, by decide +kernel⟩⟩

/-- Each clause of `NodeMemoryRequests` has a state and operands that meet its hypotheses. -/
theorem test_witness_node_memory_requests :
    (∃ (a : Nat) (tag : Nat) (off : Nat) (m : Meta0) (s : State) (q : NReq), s.Live ∧ (a < 2 ∧ s.agentSt a = 1) ∧ q = ⟨.host a tag, .read (metaHold m), off / 64 * 64, s.nmc.serial, false⟩ ∧ s.ingressOpen a q ∧ s.lineFree q) ∧
    (∃ (a : Nat) (tag : Nat) (off : Nat) (mask : Nat) (m : Meta0) (data : List Byte) (s : State) (q : NReq), s.Live ∧ (a < 2 ∧ s.agentSt a = 1) ∧ q = ⟨.host a tag, .write mask data (decide (m = .inv)), off / 64 * 64, s.nmc.serial, false⟩ ∧ s.ingressOpen a q ∧ s.lineFree q) ∧
    (∃ (a : Nat) (l : Nat) (s : State) (r : Recall) (e : DirEnt), s.Live ∧ (s.nmc.recalls.look (l, a) = some r ∧ s.nmc.recalls.any (fun k _ => decide (k.1 = l) && decide (k.2 ≠ a)) = false) ∧ (s.nmc.dir.look l = some e ∧ e.st = .excl ∧ e.owner = a) ∧ (s.nmc.waiting.lookD l [] = [] ∧ s.nmc.ordered = [] ∧ s.stm.jobs.any (fun _ x => !x.adds.isEmpty) = false) ∧ ((s.regionAt (l * 64)).isSome = true ∧ s.nmc.regions.any (fun _ r => r.dying) = false)) ∧
    (∃ (p : Nat) (w0 : Word) (w1 : Word) (s : State) (l : Nat) (r : Recall) (e : DirEnt), s.Live ∧ (p < 8 ∧ bits w0.toNat 0 8 = 0x46 ∧ l = mhAddr w1 / 64) ∧ (s.nmc.recalls.look (l, p + 2) = some r ∧ s.nmc.recalls.any (fun k _ => decide (k.1 = l) && decide (k.2 ≠ p + 2)) = false) ∧ (s.nmc.dir.look l = some e ∧ e.st = .excl ∧ e.owner = p + 2) ∧ (s.nmc.waiting.lookD l [] = [] ∧ s.nmc.ordered = [] ∧ s.stm.jobs.any (fun _ x => !x.adds.isEmpty) = false) ∧ ((s.regionAt (l * 64)).isSome = true ∧ s.nmc.regions.any (fun _ r => r.dying) = false)) ∧
    (∃ (p : Nat) (w0 : Word) (w1 : Word) (s : State), s.Live ∧ s.portTakes p 0x41 w0 w1 ∧ s.ingressOpen (p + 2) (s.portReqOf p w0 w1 (.read (mhOp w0))) ∧ s.lineFree (s.portReqOf p w0 w1 (.read (mhOp w0)))) ∧
    (∃ (p : Nat) (w0 : Word) (w1 : Word) (mask : Word) (data : List Byte) (s : State), s.Live ∧ s.portTakes p 0x42 w0 w1 ∧ s.ingressOpen (p + 2) (s.portReqOf p w0 w1 (.write mask.toNat data (bit w0.toNat 48))) ∧ s.lineFree (s.portReqOf p w0 w1 (.write mask.toNat data (bit w0.toNat 48)))) ∧
    (∃ (p : Nat) (w0 : Word) (w1 : Word) (x : Nat) (y : Nat) (n : Nat) (old : Nat) (s : State), s.Live ∧ s.portTakes p 0x43 w0 w1 ∧ s.ingressOpen (p + 2) (s.portReqOf p w0 w1 (.atomic (mhSize w0) (mhOp w0) x y)) ∧ s.lineFree (s.portReqOf p w0 w1 (.atomic (mhSize w0) (mhOp w0) x y)) ∧ (n = sizeBytes (mhSize w0) ∧ old = s.numAt (keyNode (mhAddr w1)) n)) :=
  ⟨⟨0, 7, 70, .any, wNmc, ⟨.host 0 7, .read 2, 64, 0, false⟩, by decide +kernel, by decide +kernel, by decide +kernel, ⟨by decide +kernel, by decide +kernel, by decide +kernel, by decide +kernel, by decide +kernel⟩, ⟨by decide +kernel, by decide +kernel, by decide +kernel, by decide +kernel, by decide +kernel, by unfold State.CleanAt; decide +kernel⟩⟩,
   ⟨0, 7, 70, 5, .inv, [1, 2, 3], wNmc, ⟨.host 0 7, .write 5 [1, 2, 3] true, 64, 0, false⟩, by decide +kernel, by decide +kernel, by decide +kernel, ⟨by decide +kernel, by decide +kernel, by decide +kernel, by decide +kernel, by decide +kernel⟩, ⟨by decide +kernel, by decide +kernel, by decide +kernel, by decide +kernel, by decide +kernel, by unfold State.CleanAt; decide +kernel⟩⟩,
   ⟨0, 1, wNmcHeld 0, ⟨true, 0, 0, false⟩, ⟨.excl, [], 0, true, 0⟩, by decide +kernel, by decide +kernel, by decide +kernel, by decide +kernel, by decide +kernel⟩,
   ⟨1, wRca, 64, wNmcHeld 3, 1, ⟨true, 0, 0, false⟩, ⟨.excl, [], 3, true, 0⟩, by decide +kernel, by decide +kernel, by decide +kernel, by decide +kernel, by decide +kernel, by decide +kernel⟩,
   ⟨1, wMrd, 64, wNmc, by decide +kernel, ⟨by decide +kernel, by decide +kernel, by decide +kernel, by decide +kernel, by decide +kernel, by decide +kernel⟩, ⟨by decide +kernel, by decide +kernel, by decide +kernel, by decide +kernel, by decide +kernel⟩, ⟨by decide +kernel, by decide +kernel, by decide +kernel, by decide +kernel, by decide +kernel, by unfold State.CleanAt; decide +kernel⟩⟩,
   ⟨1, wMwr, 64, 5, [1, 2, 3], wNmc, by decide +kernel, ⟨by decide +kernel, by decide +kernel, by decide +kernel, by decide +kernel, by decide +kernel, by decide +kernel⟩, ⟨by decide +kernel, by decide +kernel, by decide +kernel, by decide +kernel, by decide +kernel⟩, ⟨by decide +kernel, by decide +kernel, by decide +kernel, by decide +kernel, by decide +kernel, by unfold State.CleanAt; decide +kernel⟩⟩,
   ⟨1, wMat, 64, 5, 0, 8, 0, wNmc, by decide +kernel, ⟨by decide +kernel, by decide +kernel, by decide +kernel, by decide +kernel, by decide +kernel, by decide +kernel⟩, ⟨by decide +kernel, by decide +kernel, by decide +kernel, by decide +kernel, by decide +kernel⟩, ⟨by decide +kernel, by decide +kernel, by decide +kernel, by decide +kernel, by decide +kernel, by unfold State.CleanAt; decide +kernel⟩, by decide +kernel⟩⟩

/-- Each clause of `DomainMapAndLeases` has a state and operands that meet its hypotheses. -/
theorem test_witness_domain_map_and_leases :
    (∃ (s : State), s.Live ∧ s.dfb.leading = true) ∧
    (∃ (e : Nat) (l : List Nat) (c : MapChange) (s : State), s.Live ∧ (s.dfb.log.look e = some c ∧ s.dfb.leading = true) ∧ (e = max s.dfb.committed s.dmap.epoch + 1 ∧ s.dmap.majority (s.self :: l) = true)) ∧
    (∃ (s : State), s.Live ∧ s.domSt ≠ 0) ∧
    (∃ (s : State), s.Live ∧ (s.dmap.voters.contains s.self = true ∧ s.dfb.leading = false)) ∧
    (∃ (s : State), s.Live ∧ s.dfb.leading = true ∧ (s.dmap.majority (s.dmap.voters.filter (fun v => decide (v = s.self) ||
      (s.dfb.answeredAt.look v).any (fun t => decide (s.now ≤ t + s.dmap.leaseMs * 1000000)))) = true)) ∧
    (∃ (s : State), s.Live ∧ s.dfb.leading = true ∧ (s.dmap.majority (s.dmap.voters.filter (fun v => decide (v = s.self) ||
      (s.dfb.answeredAt.look v).any (fun t => decide (s.now ≤ t + s.dmap.leaseMs * 1000000)))) = false)) ∧
    (∃ (s : State), s.Live ∧ s.dmap.members.has s.self = true) ∧
    (∃ (m : Nat) (s : State), s.Live ∧ (s.dfb.leading = true ∧ s.dmap.members.has m = true)) ∧
    (∃ (s : State), s.Live ∧ (s.domUp = true ∧ s.dfb.leaseUntil ≤ s.now)) ∧
    (∃ (m : Nat) (l : List Assign) (s : State), s.Live ∧ (s.dfb.leading = true ∧ m ≠ s.self ∧ s.dmap.members.has m = true ∧ s.dfb.heardAt.lookD m 0 + s.dmap.suspectMs * 1000000 ≤ s.now) ∧ (s.leaderMap.members.has m = true ∧ ({ s.leaderMap with members := s.leaderMap.members.del m } : DomMap).assignsOk l = true)) ∧
    (∃ (l : List (Nat × Nat)) (s : State), s.Live ∧ (s.dmap.voters.contains s.self = true ∧ s.dfb.leading = false ∧ s.dfb.lastBeat + s.dmap.electMs * 1000000 ≤ s.now) ∧ (s.dmap.majority (s.self :: l.map (·.1)) = true ∧ l.all (fun a => decide (a.2 ≤ s.logLen)) = true)) ∧
    (∃ (s : State), s.Live ∧ s.dmap.voters.contains s.self = true) ∧
    (∃ (n : Nat) (t0 : Nat) (r : DomReq) (s : State), s.Live ∧ (s.dfb.reqs.look n = some r ∧ r.heldAt = some t0) ∧ t0 + s.dmap.isolateMs * 1000000 ≤ s.now) ∧
    (∃ (rq : Requester) (v : Word) (w1 : Word) (i : Nat) (g : Nat) (s : State), WriteOpen s rq .dfbRegionCreate 0 ∧ low6 v = 0 ∧ (s.domCreateCheck rq (s.bytesAt (keyHub v.toNat) 32) = 0 ∧ s.Follows) ∧ (w1.toNat = leAt (s.bytesAt (keyHub v.toNat) 32) 8 8 ∧ g = bits w1.toNat 0 32 ∧ lowestFree s.dmap.regions.has 0 16384 = some i)) ∧
    (∃ (rq : Requester) (v : Word) (r : DomRegion) (s : State), WriteOpen s rq .dfbRegionDelete 0 ∧ (s.dmap.regions.look (bits v.toNat 0 14) = some r ∧ s.Follows) ∧ ((List.range 64).any (fun n => s.resident n && s.actsFor rq n && decide (s.rd .secCtxTenant n = r.tenant)) = true)) ∧
    (∃ (rq : Requester) (v : Word) (s : State), WriteOpen s rq .dfbJoin 0 ∧ (s.isModule rq = true ∧ s.domSt = 0 ∧ s.fld Fld.dfbCfg_domainEn = 1 ∧ bits v.toNat 5 5 ≠ bits v.toNat 0 5)) ∧
    (∃ (rq : Requester) (v : Word) (s : State), WriteOpen s rq .dfbJoin 0 ∧ (s.isModule rq = true ∧ s.domSt = 0 ∧ s.fld Fld.dfbCfg_domainEn = 1 ∧ bits v.toNat 5 5 = bits v.toNat 0 5)) ∧
    (∃ (rq : Requester) (v : Word) (s : State), WriteOpen s rq .dfbLeave 0 ∧ (s.isModule rq = true ∧ bit v.toNat 0 = true ∧ s.domSt = 2 ∧ s.Follows)) ∧
    (∃ (rq : Requester) (s : State), WindowOpen s rq ∧ (s.regReach .dfbMapCfg 0 = true ∧ s.isModule rq = true ∧ s.domSt ≠ 0 ∧ s.Follows)) ∧
    (∃ (rq : Requester) (v : Word) (w : Word) (s : State), WindowOpen s rq ∧ (s.regReach .dfbGrantCfg 0 = true ∧ s.isModule rq = true ∧ s.domSt = 0 ∧ w = v &&& BitVec.ofNat 64 Reg.dfbGrantCfg.spec.mask)) ∧
    (∃ (k : Nat) (s : State), s.Live ∧ (k < 4096 ∧ (s.dmap.bucket k).st = 1 ∧ s.Follows)) ∧
    (∃ (k : Nat) (s : State), s.Live ∧ (k < 4096 ∧ (s.dmap.bucket k).noneLost = true ∧ s.dmap.home k = s.self ∧ s.domUp = true ∧ s.Follows)) :=
  ⟨⟨wLead, by decide +kernel, by decide +kernel⟩,
   ⟨4, [4], .params 5 6, wLead.onDfb (fun d => { d with log := ⟨[(4, .params 5 6)]⟩ }), by decide +kernel, by decide +kernel, by decide +kernel⟩,
   ⟨wDom 0, by decide +kernel, by decide +kernel⟩,
   ⟨wDom 0, by decide +kernel, by decide +kernel⟩,
   ⟨wLead.onDfb (fun d => { d with answeredAt := ⟨[(4, 0)]⟩ }), by decide +kernel, by decide +kernel, by decide +kernel⟩,
   ⟨wLead, by decide +kernel, by decide +kernel, by decide +kernel⟩,
   ⟨wDom 0, by decide +kernel, by decide +kernel⟩,
   ⟨4, wLead, by decide +kernel, by decide +kernel⟩,
   ⟨wDom 0, by decide +kernel, by decide +kernel⟩,
   ⟨4, [], { wLead with now := 1000000000 }, by decide +kernel, by decide +kernel, by decide +kernel⟩,
   ⟨[(4, 3)], { wDom 0 with now := 1000000000 }, by decide +kernel, by decide +kernel, by decide +kernel⟩,
   ⟨wDom 0, by decide +kernel, by decide +kernel⟩,
   ⟨9, 0, { wDreq with heldAt := some 0 }, wDreqs { wDreq with heldAt := some 0 }, by decide +kernel, by decide +kernel, by decide +kernel⟩,
   ⟨.firmware, 0x1000, 1, 0, 1, wDregNew, by decide +kernel, by decide +kernel, by decide +kernel, by decide +kernel⟩,
   ⟨.firmware, 6, wDomR 0, wDom 0, by decide +kernel, by decide +kernel, by decide +kernel⟩,
   ⟨.firmware, 3 + 4 * 32, wAlone.setFld Fld.dfbCfg_domainEn 0 1, by decide +kernel, by decide +kernel⟩,
   ⟨.firmware, 3 + 3 * 32, wAlone.setFld Fld.dfbCfg_domainEn 0 1, by decide +kernel, by decide +kernel⟩,
   ⟨.firmware, 1, wDom 0, by decide +kernel, by decide +kernel⟩,
   ⟨.firmware, wDom 0, by decide +kernel, by decide +kernel⟩,
   ⟨.firmware, 5, 5, wAlone, by decide +kernel, by decide +kernel⟩,
   ⟨7, (wDom 0).onDfb (fun d => { d with map := { d.map with buckets := ⟨[(7, ⟨4, 4, 4, 1, 0, false⟩)]⟩ } }), by decide +kernel, by decide +kernel⟩,
   ⟨7, (wDom 0).onDfb (fun d => { d with map := { d.map with buckets := ⟨[(7, ⟨0, 4, 4, 2, 0, true⟩)]⟩ } }), by decide +kernel, by decide +kernel⟩⟩

/-- Each clause of `DomainRequestsAndLentRoom` has a state and operands that meet its hypotheses. -/
theorem test_witness_domain_requests_and_lent_room :
    (∃ (h : DHdr) (r : DomRegion) (k : Nat) (s : State), s.Live ∧ s.domHere h r k) ∧
    (∃ (h : DHdr) (r : DomRegion) (k : Nat) (s : State), s.Live ∧ s.domHere h r k ∧ s.domAlone h r k) ∧
    (∃ (h : DHdr) (n : Nat) (old : Nat) (r : DomRegion) (k : Nat) (s : State), s.Live ∧ s.domHere h r k ∧ s.domAlone h r k ∧ (n = sizeBytes h.size ∧ h.addr % n = 0 ∧ n ≤ 16 ∧ old = s.numAt (keyDom h.addr) n)) ∧
    (∃ (h : DHdr) (r : DomRegion) (k : Nat) (s : State), s.Live ∧ s.domHere h r k) ∧
    (∃ (n : Nat) (st : Nat) (r : DomReq) (s : State), s.Live ∧ (s.dfb.reqs.look n = some r ∧ s.dfb.answers = []) ∧ (st ≠ 0x0020 ∨ 4 ≤ r.moved)) ∧
    (∃ (n : Nat) (r : DomReq) (x : Run) (ix : Ix) (s : State), s.Live ∧ (s.dfb.reqs.look n = some r ∧ s.dfb.answers = [] ∧ s.dfb.reqs.size = 1) ∧ ((s.clerk r.clerk).run = some x ∧ x.startedAt = r.runAt ∧ x.ending = none ∧ r.kind = 0) ∧ ((s.clerk r.clerk).stall = some (.domain n) ∧ (s.setClerk r.clerk { s.clerk r.clerk with stall := none }).stalledIx r.clerk = some ix) ∧ (wSize ix.w = 3 ∧ ix.memBytes = 8 ∧ ix.c = r.clerk ∧ wRD ix.w ≠ 0)) ∧
    (∃ (h : DHdr) (mask : Nat) (i : Nat) (r : DomRegion) (s : State), s.Live ∧ (s.domUp = true ∧ s.dmap.regionAt h.addr = some (i, r) ∧ r.protect = 1) ∧ ((s.dmap.bucket (domPlace 1 h.addr).2).st ≠ 1 ∧ mask % 2 ^ 64 ≠ 0)) ∧
    (∃ (h : DHdr) (i : Nat) (k : Nat) (p : List Byte) (r : DomRegion) (s : State), s.Live ∧ (s.domUp = true ∧ s.dmap.regionAt h.addr = some (i, r) ∧ r.protect = 2) ∧ ((s.dmap.bucket (domPlace 2 h.addr).2).st ≠ 1 ∧ k = keyDomCopy (parityOff (h.addr / 64 * 64)) ∧ p = s.bytesAt k 64)) ∧
    (∃ (m : Nat) (c : Nat) (n : Nat) (w : HomeWait) (s : State), s.Live ∧ (s.dfb.homeWait.look (c, n) = some w ∧ w.waitFor = [m] ∧ c ≠ s.self ∧ s.dfb.answers = []) ∧ w.status ≠ 0x0020) ∧
    (∃ (m : Nat) (c : Nat) (n : Nat) (w : HomeWait) (s : State), s.Live ∧ (s.dfb.homeWait.look (c, n) = some w ∧ w.waitFor.filter (fun i => decide (i ≠ m)) ≠ [])) ∧
    (∃ (n : Nat) (r : DomReq) (s : State), s.Live ∧ (s.dfb.reqs.look n = some r ∧ r.sentTo.isSome = true ∧ r.heldAt = none ∧ r.sentAt + s.dmap.reqTmoUs * 1000 ≤ s.now) ∧ (r.tries = 0 ∧ s.dfb.answers = [] ∧ s.domUp = true ∧ (List.range 4096).all (fun k => decide (s.dmap.home k ≠ s.self)) = true)) ∧
    (∃ (n : Nat) (r : DomReq) (s : State), s.Live ∧ (s.dfb.reqs.look n = some r ∧ r.sentTo.isSome = true ∧ r.heldAt = none ∧ r.sentAt + s.dmap.reqTmoUs * 1000 ≤ s.now) ∧ r.tries ≠ 0) ∧
    (∃ (p : Nat) (s : State), s.Live ∧ s.lendsRoom p = true) ∧
    (∃ (p : Nat) (s : State), s.Live ∧ (s.domUp = true ∧ s.lendsRoom p = false)) ∧
    (∃ (p : Nat) (w : Word) (l : List (List Byte)) (fs : List (Nat × Nat)) (s : State), s.Live ∧ (s.domUp = true ∧ s.t4Piece p w = none) ∧ (((s.dfb.pieces.filter (fun x => decide (x.peer = p))).map (fun x => x.frames.length)).sum + l.length ≤
      ((s.dfb.lent.filter (fun g => decide (g.peer = p) && g.revokedAt.isNone)).map (·.pages)).sum) ∧ (s.allocMany 64 (w.toNat % 2 ^ 24) 253 l.length .alloc).2 = some fs) ∧
    (∃ (p : Nat) (w : Word) (x : T4Piece) (s : State), s.Live ∧ (s.domUp = true ∧ s.t4Piece p w = some x)) ∧
    (∃ (g : T4Grant) (s : State), s.Live ∧ (s.domUp = true ∧ s.pastHigh 0 = true) ∧ ((s.dfb.lent.reverse).find? (fun g => g.revokedAt.isNone) = some g)) ∧
    (∃ (p : Nat) (t0 : Nat) (g : T4Grant) (s : State), s.Live ∧ (g ∈ s.dfb.lent ∧ g.peer = p ∧ g.late = false ∧ g.revokedAt = some t0 ∧ t0 + s.dmap.reclaimMs * 1000000 ≤ s.now) ∧ (s.dfb.pieces.any (fun x => decide (x.peer = p)) = true)) ∧
    (∃ (p : Nat) (o : Nat) (g : T4Grant) (x : Session) (s : State) (u : State) (v : State), s.Live ∧ (s.dfb.borrowed.find? (fun g => decide (g.peer = p) && decide (g.order = o) && g.revokedAt.isNone) = some g) ∧ (u = s.onDfb (fun d => { d with borrowed := d.borrowed.map (fun x => if x.peer = p && x.order = o then { x with revokedAt := some s.now } else x) })) ∧ (u.sess g.sess = some x ∧ x.atPeer = true ∧ x.preRevive = false ∧ x.st = .parked ∧ x.op = none ∧ x.placing = none) ∧ u.startStream g.sess = (v, true)) :=
  ⟨⟨wDhdr, wDomR 1, 0, wDom 1, by decide +kernel, ⟨by decide +kernel, by decide +kernel, by decide +kernel, by decide +kernel, by decide +kernel, by decide +kernel, by decide +kernel, by decide +kernel, by decide +kernel, by unfold State.CleanAt; decide +kernel, by decide +kernel, by decide +kernel⟩⟩,
   ⟨wDhdr, wDomR 1, 0, wDom 1, by decide +kernel, ⟨by decide +kernel, by decide +kernel, by decide +kernel, by decide +kernel, by decide +kernel, by decide +kernel, by decide +kernel, by decide +kernel, by decide +kernel, by unfold State.CleanAt; decide +kernel, by decide +kernel, by decide +kernel⟩, ⟨by decide +kernel, by decide +kernel, by decide +kernel, by decide +kernel⟩⟩,
   ⟨wDhdr, 8, 0, wDomR 1, 0, wDom 1, by decide +kernel, ⟨by decide +kernel, by decide +kernel, by decide +kernel, by decide +kernel, by decide +kernel, by decide +kernel, by decide +kernel, by decide +kernel, by decide +kernel, by unfold State.CleanAt; decide +kernel, by decide +kernel, by decide +kernel⟩, ⟨by decide +kernel, by decide +kernel, by decide +kernel, by decide +kernel⟩, by decide +kernel⟩,
   ⟨wDhdr, wDomR 1, 0, wDom 1, by decide +kernel, ⟨by decide +kernel, by decide +kernel, by decide +kernel, by decide +kernel, by decide +kernel, by decide +kernel, by decide +kernel, by decide +kernel, by decide +kernel, by unfold State.CleanAt; decide +kernel, by decide +kernel, by decide +kernel⟩⟩,
   ⟨9, 0, wDreq, wDreqs wDreq, by decide +kernel, by decide +kernel, by decide +kernel⟩,
   ⟨9, { wDreq with off := 0 }, wRun, ⟨7, { wCl with stall := none }, wRun, wImg [wLd], wLd⟩, ((wWith wCtx { wCl with stall := some (.domain 9) } wLd).onDfb (fun y => { y with reqs := ⟨[(9, { wDreq with off := 0 })]⟩ })), by decide +kernel, by decide +kernel, by decide +kernel, by decide +kernel, by decide +kernel⟩,
   ⟨wDhdr, 1, 6, wDomR 1, wDom 1, by decide +kernel, by decide +kernel, by decide +kernel⟩,
   ⟨wDhdr, 6, keyDomCopy (parityOff 64), natLe 64 0, wDomR 2, wDom 2, by decide +kernel, by decide +kernel, by decide +kernel⟩,
   ⟨4, 3, 9, ⟨[4], 0, [1]⟩, (wDom 1).onDfb (fun d => { d with homeWait := ⟨[((3, 9), ⟨[4], 0, [1]⟩)]⟩ }), by decide +kernel, by decide +kernel, by decide +kernel⟩,
   ⟨4, 3, 9, ⟨[4, 5], 0, [1]⟩, (wDom 1).onDfb (fun d => { d with homeWait := ⟨[((3, 9), ⟨[4, 5], 0, [1]⟩)]⟩ }), by decide +kernel, by decide +kernel⟩,
   ⟨9, wDreq, wDreqs wDreq, by decide +kernel, by decide +kernel, by decide +kernel⟩,
   ⟨9, { wDreq with tries := 1 }, wDreqs { wDreq with tries := 1 }, by decide +kernel, by decide +kernel, by decide +kernel⟩,
   ⟨4, wLends wGrant, by decide +kernel, by decide +kernel⟩,
   ⟨5, wLends wGrant, by decide +kernel, by decide +kernel⟩,
   ⟨4, 0x99, [], [], wLends wGrant, by decide +kernel, by decide +kernel, by decide +kernel, by decide +kernel⟩,
   ⟨4, 0x99, ⟨4, 0x99, []⟩, (wLends wGrant).onDfb (fun d => { d with pieces := [⟨4, 0x99, []⟩] }), by decide +kernel, by decide +kernel⟩,
   ⟨wGrant, wLendsFull, by decide +kernel, by decide +kernel, by decide +kernel⟩,
   ⟨4, 0, { wGrant with revokedAt := some 0 }, { (wLends { wGrant with revokedAt := some 0 }).onDfb (fun d => { d with pieces := [⟨4, 0x99, []⟩] }) with now := 1000000000000 }, by decide +kernel, by decide +kernel, by decide +kernel⟩,
   ⟨4, 3, ⟨4, 5, 1, 3, none, false⟩, wSessAway, wBorrow, wBorrow.onDfb (fun d => { d with borrowed := [⟨4, 5, 1, 3, some 0, false⟩] }), ((wBorrow.onDfb (fun d => { d with borrowed := [⟨4, 5, 1, 3, some 0, false⟩] })).startStream 5).1, by decide +kernel, by decide +kernel, by decide +kernel, by decide +kernel, by decide +kernel⟩⟩

/-- Each clause of `LinkNegotiation` has a state and operands that meet its hypotheses. -/
theorem test_witness_link_negotiation :
    (∃ (p : Nat) (s : State), s.Live ∧ (s.portSt p = 0 ∧ s.portEnabled p = true ∧ s.portPowered p = true ∧ (s.port p).retryAt = none)) ∧
    (∃ (p : Nat) (w : Nat) (r : Nat) (widths : List Nat) (rates : List Nat) (s : State), s.Live ∧ (s.portSt p = 1 ∧ s.minLanes p ≤ w) ∧ (bestMode (widths.filter (fun w => (portWidths p).contains w)) (rates.filter (fun r => decide (r = 1) || (decide (r = 0) && decide (s.fld Fld.lnkPortCfg_maxRate p = 0)))) = some (w, r))) ∧
    (∃ (p : Nat) (w : Nat) (r : Nat) (widths : List Nat) (rates : List Nat) (s : State), s.Live ∧ (s.portSt p = 1 ∧ w < s.minLanes p) ∧ (bestMode (widths.filter (fun w => (portWidths p).contains w)) (rates.filter (fun r => decide (r = 1) || (decide (r = 0) && decide (s.fld Fld.lnkPortCfg_maxRate p = 0)))) = some (w, r))) ∧
    (∃ (p : Nat) (s : State), s.Live ∧ (s.portSt p = 1 ∧ (s.port p).since + 20000000 ≤ s.now)) ∧
    (∃ (p : Nat) (at_ : Nat) (s : State), s.Live ∧ ((s.port p).retryAt = some at_ ∧ at_ ≤ s.now) ∧ (s.portSt p = 0 ∧ s.portEnabled p = true ∧ s.portPowered p = true)) ∧
    (∃ (p : Nat) (lo : Nat) (hi : Nat) (ver : Nat) (suite : Nat) (w0 : Word) (w1 : Word) (s : State), s.Live ∧ (s.portSt p = 2 ∧ bits w0.toNat 0 2 = portKind p) ∧ (lo = bits w0.toNat 8 8 * 256 + bits w0.toNat 16 8 ∧ hi = bits w0.toNat 24 8 * 256 + bits w0.toNat 32 8) ∧ (ver = min hi (portVersions p).2 ∧ lo ≤ ver ∧ (portVersions p).1 ≤ ver) ∧ (p < 8 → bit (bits w0.toNat 40 2) (s.fld Fld.lnkPortCfg_reach p) = true) ∧ s.suiteFor p (bits w1.toNat 16 16) = some suite) ∧
    (∃ (p : Nat) (w0 : Word) (s : State), s.Live ∧ (s.portSt p = 2 ∧ bits w0.toNat 0 2 ≠ portKind p)) ∧
    (∃ (p : Nat) (ok : Bool) (s : State), s.Live ∧ s.portSt p = 3 ∧ (s.suite p = 0 ∨ (ok = true ∧ s.xmssSign.2 = true ∧ (s.port p).rekeys = false))) ∧
    (∃ (p : Nat) (ok : Bool) (s : State), s.Live ∧ (s.portSt p = 3 ∧ s.suite p ≠ 0) ∧ (ok = false ∨ s.xmssSign.2 = false)) ∧
    (∃ (p : Nat) (s : State), s.Live ∧ s.portSt p = 4) ∧
    (∃ (p : Nat) (lost : Bool) (s : State), s.Live ∧ s.portSt p = 5 ∧ (lost = true ∨ 16 ≤ ((s.port p).badAt.filter (fun u => decide (s.now < u + 1000000))).length)) ∧
    (∃ (p : Nat) (lanes : Nat) (s : State), s.Live ∧ (s.portSt p = 6 ∧ (s.port p).rekeys = false) ∧ ((portWidths p).contains lanes = true ∧ s.minLanes p ≤ lanes ∧ s.now ≤ (s.port p).since + 5000000)) ∧
    (∃ (p : Nat) (s : State), s.Live ∧ s.portSt p = 6) ∧
    (∃ (p : Nat) (s : State), s.Live ∧ (p < 22 ∧ s.portSt p = 7 ∧ (s.port p).handled = false)) ∧
    (∃ (p : Nat) (s : State), s.Live ∧ (8 ≤ p ∧ p < 20 ∧ s.portSt p = 7 ∧ (s.port p).handled = false) ∧ (s.Follows ∧ s.domUp = true) ∧ (s.dmap.paths.any (fun k v => decide (k.1 = s.self) && bit v (p - 8)) = true)) ∧
    (∃ (p : Nat) (s : State), s.Live ∧ (20 ≤ p ∧ p < 22 ∧ s.portSt p = 7 ∧ (s.port p).handled = false) ∧ s.failover p = false) ∧
    (∃ (rq : Requester) (p : Nat) (v : Word) (s : State), WindowOpen s rq ∧ (p < 22 ∧ s.regReach .lnkPortCfg p = true ∧ s.isModule rq = true) ∧ bit v.toNat 0 = true) ∧
    (∃ (rq : Requester) (p : Nat) (v : Word) (s : State), WindowOpen s rq ∧ (p < 22 ∧ s.regReach .lnkPortCfg p = true ∧ s.isModule rq = true) ∧ (bit v.toNat 0 = false ∧ s.portSt p ≠ 0)) :=
  ⟨⟨3, wLnk 3 0, by decide +kernel, by decide +kernel⟩,
   ⟨3, 16, 0, [8, 16], [0, 1], wLnk 3 1, by decide +kernel, by decide +kernel, by decide +kernel⟩,
   ⟨3, 8, 0, [8], [0, 1], (wLnk 3 1).setFld Fld.lnkPortCfg_minLanes 3 9, by decide +kernel, by decide +kernel, by decide +kernel⟩,
   ⟨3, { wLnk 3 1 with now := 20000000 }, by decide +kernel, by decide +kernel⟩,
   ⟨3, 0, (wLnk 3 0).updPort 3 (fun x => { x with retryAt := some 0 }), by decide +kernel, by decide +kernel, by decide +kernel⟩,
   ⟨3, 0x200, 0x201, 0x201, 1, BitVec.ofNat 64 (1 + 2 * 2 ^ 8 + 2 * 2 ^ 24 + 2 ^ 32 + 3 * 2 ^ 40), BitVec.ofNat 64 (9 + 3 * 2 ^ 16), wLnk 3 2, by decide +kernel, by decide +kernel, by decide +kernel, by decide +kernel, by decide +kernel, by decide +kernel⟩,
   ⟨3, 2, wLnk 3 2, by decide +kernel, by decide +kernel⟩,
   ⟨3, true, (wLnk 3 3).setFld Fld.lnkPortStatus_suite 3 1, by decide +kernel, by decide +kernel, by decide +kernel⟩,
   ⟨3, false, (wLnk 3 3).setFld Fld.lnkPortStatus_suite 3 1, by decide +kernel, by decide +kernel, by decide +kernel⟩,
   ⟨3, wLnk 3 4, by decide +kernel, by decide +kernel⟩,
   ⟨3, false, (wLnk 3 5).updPort 3 (fun x => { x with badAt := List.replicate 16 0 }), by decide +kernel, by decide +kernel, by decide +kernel⟩,
   ⟨3, 8, (wLnk 3 6).updPort 3 (fun x => { x with retryBuf := [⟨1, 0, true, true, false⟩] }), by decide +kernel, by decide +kernel, by decide +kernel⟩,
   ⟨3, wLnk 3 6, by decide +kernel, by decide +kernel⟩,
   ⟨3, wLnk 3 7, by decide +kernel, by decide +kernel⟩,
   ⟨9, ((wDom 0).setFld Fld.lnkPortStatus_state 9 7).onDfb (fun d => { d with map := { d.map with paths := ⟨[((0, 4), 2)]⟩ } }), by decide +kernel, by decide +kernel, ⟨⟨by decide +kernel, by decide +kernel⟩, by decide +kernel⟩, by decide +kernel⟩,
   ⟨21, wLnk 21 7, by decide +kernel, by decide +kernel, by decide +kernel⟩,
   ⟨.firmware, 3, 0x11, wLnk 3 5, ⟨by decide +kernel, by decide +kernel⟩, by decide +kernel, by decide +kernel⟩,
   ⟨.firmware, 3, 0x10, wLnk 3 5, ⟨by decide +kernel, by decide +kernel⟩, by decide +kernel, by decide +kernel⟩⟩

/-- Each clause of `LinkCellsAndRetry` has a state and operands that meet its hypotheses. -/
theorem test_witness_link_cells_and_retry :
    (∃ (p : Nat) (ctl : CellCtl) (s : State), s.Live ∧ (ctl.ctrl = false ∧ ctl.seq = (s.port p).seqRx % 8192 ∧ (s.port p).unacked < 31)) ∧
    (∃ (p : Nat) (ctl : CellCtl) (s : State), s.Live ∧ (ctl.ctrl = false ∧ ctl.seq = (s.port p).seqRx % 8192 ∧ 31 ≤ (s.port p).unacked)) ∧
    (∃ (p : Nat) (ctl : CellCtl) (s : State), s.Live ∧ (ctl.ctrl = true ∨ ctl.seq ≠ (s.port p).seqRx % 8192)) ∧
    (∃ (p : Nat) (at_ : Nat) (s : State), s.Live ∧ ((s.port p).unackedAt = some at_ ∧ at_ + 500 ≤ s.now)) ∧
    (∃ (s : State), s.Live) ∧
    (∃ (p : Nat) (seq : Nat) (pre : List CellCtl) (post : List CellCtl) (c : CellCtl) (s : State), s.Live ∧ (s.port p).retryBuf = pre ++ c :: post ∧ (c.seq = seq ∧ pre.any (fun x => decide (x.seq = seq)) = false)) ∧
    (∃ (p : Nat) (seq : Nat) (pre : List CellCtl) (post : List CellCtl) (c : CellCtl) (s : State), s.Live ∧ (s.port p).retryBuf = pre ++ c :: post ∧ (c.seq = seq ∧ pre.any (fun x => decide (x.seq = seq)) = false)) ∧
    (∃ (p : Nat) (q : Nat) (n : Nat) (s : State), s.Live ∧ ((s.port p).freed.lookD q 0 = n ∧ 0 < n) ∧ (64 ≤ n ∨ (s.port p).freedAt.lookD q 0 + 1000 ≤ s.now)) ∧
    (∃ (q : Nat) (s : State), s.Live ∧ q < 16) ∧
    (∃ (p : Nat) (s : State), s.Live ∧ (s.portSt p = 5 ∧ s.suite p = 1 ∧ (s.port p).rekeying = false) ∧ (2 ^ 40 - 2 ^ 32 ≤ (s.rd .lnkPortCounter p).toNat ∨ (s.port p).epochAt + s.rekeyS * 1000000000 ≤ s.now)) ∧
    (∃ (p : Nat) (epoch : Nat) (s : State), s.Live ∧ (s.portSt p = 5 ∧ s.suite p = 1 ∧ epoch = s.rxEpoch p + 1 ∧ epoch < 2 ^ 32)) ∧
    (∃ (p : Nat) (epoch : Nat) (s : State), s.Live ∧ (s.portSt p = 5 ∧ s.suite p = 1 ∧ epoch = s.txEpoch p + 1 ∧ epoch < 2 ^ 32 ∧ (s.port p).rekeying = true)) ∧
    (∃ (p : Nat) (c : CellCtl) (rest : List CellCtl) (s : State), s.Live ∧ (s.portSt p = 5 ∧ (s.port p).resend = c :: rest)) ∧
    (∃ (p : Nat) (q : Nat) (moved : Bool) (f : Frame) (rest : List Frame) (s : State), s.Live ∧ (s.portSt p = 5 ∧ (s.port p).resend = [] ∧ (s.port p).retryBuf.length < 4096) ∧ (s.suite p = 0 ∨ (s.rd .lnkPortCounter p).toNat < 2 ^ 40) ∧ (s.growCredit p).pickQueue p = some (q, moved) ∧ (s.port p).queues.lookD q [] = f :: rest) ∧
    (∃ (s : State), s.Live) :=
  ⟨⟨3, ⟨0, 4, true, true, false⟩, wLnk 3 5, by decide +kernel, by decide +kernel⟩,
   ⟨3, ⟨8191, 4, true, true, false⟩, (wLnk 3 5).updPort 3 (fun x => { x with seqRx := 8191, unacked := 31, unackedAt := some 0 }), by decide +kernel, by decide +kernel⟩,
   ⟨3, ⟨1, 4, true, true, false⟩, wLnk 3 5, by decide +kernel, by decide +kernel⟩,
   ⟨3, 0, ({ wLnk 3 5 with now := 500 }).updPort 3 (fun x => { x with seqRx := 4, unacked := 4, unackedAt := some 0 }), by decide +kernel, by decide +kernel⟩,
   ⟨(wLnk 3 5).wr .lnkPortErr 3 0xFFFF00000007, by decide +kernel⟩,
   ⟨3, 5, [⟨4, 0, true, true, false⟩], [⟨6, 0, true, true, false⟩], ⟨5, 0, true, true, false⟩, (wLnk 3 5).updPort 3 (fun x => { x with retryBuf := [⟨4, 0, true, true, false⟩, ⟨5, 0, true, true, false⟩, ⟨6, 0, true, true, false⟩] }), by decide +kernel, by decide +kernel, by decide +kernel⟩,
   ⟨3, 5, [⟨4, 0, true, true, false⟩], [⟨6, 0, true, true, false⟩], ⟨5, 0, true, true, false⟩, (wLnk 3 5).updPort 3 (fun x => { x with retryBuf := [⟨4, 0, true, true, false⟩, ⟨5, 0, true, true, false⟩, ⟨6, 0, true, true, false⟩] }), by decide +kernel, by decide +kernel, by decide +kernel⟩,
   ⟨3, 4, 64, (wLnk 3 5).updPort 3 (fun x => { x with freed := ⟨[(4, 64)]⟩, freedAt := ⟨[(4, 0)]⟩ }), by decide +kernel, by decide +kernel, by decide +kernel⟩,
   ⟨15, wLnk 3 5, by decide +kernel, by decide +kernel⟩,
   ⟨3, (((wLnk 3 5).setFld Fld.lnkPortStatus_suite 3 1).wr .lnkPortCounter 3 (BitVec.ofNat 64 (2 ^ 40 - 2 ^ 32))), by decide +kernel, by decide +kernel, by decide +kernel⟩,
   ⟨3, 8, (((wLnk 3 5).setFld Fld.lnkPortStatus_suite 3 1).setEpochs 3 5 7), by decide +kernel, by decide +kernel⟩,
   ⟨3, 6, (((wLnk 3 5).setFld Fld.lnkPortStatus_suite 3 1).setEpochs 3 5 7).updPort 3 (fun x => { x with rekeying := true }), by decide +kernel, by decide +kernel⟩,
   ⟨3, ⟨4, 0, true, true, false⟩, [], (wLnk 3 5).updPort 3 (fun x => { x with resend := [⟨4, 0, true, true, false⟩] }), by decide +kernel, by decide +kernel⟩,
   ⟨3, 0, false, ⟨⟨0, true, true, 9, 0, 0, 0, 0, 0⟩, 1, 0⟩, [], (wLnk 3 5).updPort 3 (fun x => { x with avail := ⟨[(0, 4)]⟩, queues := ⟨[(0, [⟨⟨0, true, true, 9, 0, 0, 0, 0, 0⟩, 1, 0⟩])]⟩ }), by decide +kernel, by decide +kernel, by decide +kernel, by decide +kernel, by decide +kernel⟩,
   ⟨wLnk 3 5, by decide +kernel⟩⟩

/-- Each clause of `LinkFramesGatesAndTelemetry` has a state and operands that meet its hypotheses. -/
theorem test_witness_link_frames_gates_and_telemetry :
    (∃ (p : Nat) (h : FrameHdr) (payload : List Byte) (before : List Byte) (s : State), s.Live ∧ (p < 20 ∧ s.portSt p = 5 ∧ h.queue < 16 ∧ payload.length = h.len ∧ 1 ≤ h.len ∧ h.len ≤ 4432) ∧ (s.authOk p h = true ∧ h.last = true) ∧ ((h.first = true ∧ before = []) ∨ (h.first = false ∧ (s.port p).rx.look (h.queue, h.conn) = some ⟨h.msg, h.conn, before, false⟩))) ∧
    (∃ (p : Nat) (h : FrameHdr) (payload : List Byte) (s : State), s.Live ∧ (s.portSt p = 5 ∧ h.queue < 16 ∧ payload.length = h.len ∧ 1 ≤ h.len ∧ h.len ≤ 4432) ∧ s.authOk p h = false) ∧
    (∃ (p : Nat) (seq : Nat) (h : FrameHdr) (s : State), s.Live ∧ (s.portSt p = 5 ∧ (s.port p).tagFails.contains (h.queue, h.msg, h.offset) = false) ∧ seq = ((s.port p).seqRx + 8192 - frameCells h.len) % 8192) ∧
    (∃ (p : Nat) (h : FrameHdr) (s : State), s.Live ∧ (s.portSt p = 5 ∧ (s.port p).tagFails.contains (h.queue, h.msg, h.offset) = true)) ∧
    (∃ (rq : Requester) (v : Word) (kind : Nat) (port : Nat) (q : Nat) (cust : Nat) (s : State), WindowOpen s rq ∧ (s.regReach .lnkHistSel 0 = true ∧ s.isModule rq = true) ∧ (bits v.toNat 0 3 = kind ∧ kind < 4 ∧ bits v.toNat 3 5 = port ∧ port < 22 ∧ bits v.toNat 8 4 = q ∧ bits v.toNat 12 16 = cust)) ∧
    (∃ (rq : Requester) (p : Nat) (v : Word) (s : State), WindowOpen s rq ∧ (p < 22 ∧ s.regReach .lnkGateCfg p = true ∧ s.isModule rq = true) ∧ (bit v.toNat 9 = true ∧ gatesValid ((s.rwWrite .lnkGateCfg p v).shadowGates p) = true)) ∧
    (∃ (rq : Requester) (p : Nat) (v : Word) (s : State), WindowOpen s rq ∧ (p < 22 ∧ s.regReach .lnkGateCfg p = true ∧ s.isModule rq = true) ∧ (bit v.toNat 9 = true ∧ gatesValid ((s.rwWrite .lnkGateCfg p v).shadowGates p) = false)) ∧
    (∃ (p : Nat) (g : List (Nat × Nat)) (s : State), s.Live ∧ ((s.port p).swap = some g ∧ gatesValid g = true)) :=
  ⟨⟨3, ⟨4, false, true, 2, 7, 3, 0, 0, 0⟩, [8, 9], [1, 2, 3], (wLnk 3 5).updPort 3 (fun x => { x with rx := ⟨[((4, 0), ⟨7, 0, [1, 2, 3], false⟩)]⟩ }), by decide +kernel, by decide +kernel, by decide +kernel, by decide +kernel⟩,
   ⟨3, ⟨4, true, true, 2, 7, 0, 3, 0, 0⟩, [8, 9], ((wLnk 3 5).setFld Fld.lnkPortStatus_suite 3 1).updPort 3 (fun x => { x with lastCtr := ⟨[(0, 3)]⟩ }), by decide +kernel, by decide +kernel, by decide +kernel⟩,
   ⟨3, 8191, ⟨4, true, true, 2, 7, 0, 3, 0, 0⟩, wLnk 3 5, by decide +kernel, by decide +kernel, by decide +kernel⟩,
   ⟨3, ⟨4, true, true, 2, 7, 0, 3, 0, 0⟩, (wLnk 3 5).updPort 3 (fun x => { x with tagFails := [(4, 7, 0)] }), by decide +kernel, by decide +kernel⟩,
   ⟨.firmware, BitVec.ofNat 64 (1 + 3 * 8 + 4 * 256 + 2 ^ 28), 1, 3, 4, 0, (wLnk 3 5).onLnk (fun l => { l with delay := ⟨[((3, 4), [5, 6, 7])]⟩ }), ⟨by decide +kernel, by decide +kernel⟩, by decide +kernel, by decide +kernel⟩,
   ⟨.firmware, 3, BitVec.ofNat 64 (2 ^ 9), (wLnk 3 5).setFld Fld.lnkGateEnt_duration 768 10000, ⟨by decide +kernel, by decide +kernel⟩, by decide +kernel, by decide +kernel⟩,
   ⟨.firmware, 3, BitVec.ofNat 64 (2 ^ 9), (wLnk 3 5).setFld Fld.lnkGateEnt_duration 768 9999, ⟨by decide +kernel, by decide +kernel⟩, by decide +kernel, by decide +kernel⟩,
   ⟨3, [(1, 10000)], (wLnk 3 5).updPort 3 (fun x => { x with swap := some [(1, 10000)] }), by decide +kernel, by decide +kernel⟩⟩

/-- Each clause of `ContextsKeysAndFloors` has a state and operands that meet its hypotheses. -/
theorem test_witness_contexts_keys_and_floors :
    (∃ (rq : Requester) (v : Word) (s : State) (d : List Byte) (n : Nat), WriteOpen s rq .secCtxInstall 0 ∧ (low6 v = 0 ∧ s.fld Fld.glbStatus_service ≠ 0) ∧ d = s.bytesAt (keyHub v.toNat) 0x4000 ∧ s.installCheck rq d = 0 ∧ (s.installIndex (installRec d) = some n ∧ s.ctx n = none ∧ (installRec d).flags < 8)) ∧
    (∃ (rq : Requester) (v : Word) (s : State) (d : List Byte) (c : Nat), WriteOpen s rq .secCtxInstall 0 ∧ (low6 v = 0 ∧ s.fld Fld.glbStatus_service ≠ 0) ∧ d = s.bytesAt (keyHub v.toNat) 0x4000 ∧ (s.installCheck rq d = c ∧ c ≠ 0)) ∧
    (∃ (rq : Requester) (v : Word) (n : Nat) (c : Ctx) (s : State), WriteOpen s rq .secCtxRetire 0 ∧ (bit v.toNat 6 = false ∧ bits v.toNat 0 6 = n ∧ (s.actsFor rq n || s.isOperator rq) = true) ∧ (s.ctx n = some c ∧ s.ctxState n = 1 ∧ s.holdsObjects n = false)) ∧
    (∃ (rq : Requester) (v : Word) (n : Nat) (c : Ctx) (s : State), WriteOpen s rq .secCtxRetire 0 ∧ (bit v.toNat 6 = false ∧ bits v.toNat 0 6 = n ∧ (s.actsFor rq n || s.isOperator rq) = true) ∧ (s.ctx n = some c ∧ s.ctxState n = 1 ∧ s.holdsObjects n = true)) ∧
    (∃ (rq : Requester) (v : Word) (n : Nat) (c : Ctx) (s : State), WriteOpen s rq .secCtxRetire 0 ∧ (bit v.toNat 6 = true ∧ bits v.toNat 0 6 = n ∧ (s.actsFor rq n || s.isOperator rq) = true) ∧ (s.ctx n = some c ∧ (s.ctxState n = 1 ∨ s.ctxState n = 3))) ∧
    (∃ (n : Nat) (c : Ctx) (s : State), s.Live ∧ (s.ctx n = some c ∧ s.ctxState n = 2 ∧ s.flushing = false ∧ c.sweepStep = 1)) ∧
    (∃ (n : Nat) (c : Ctx) (s : State), s.Live ∧ (s.ctx n = some c ∧ s.ctxState n = 2 ∧ s.flushing = false ∧ c.sweepStep = 6 ∧ c.record.discard = false)) ∧
    (∃ (n : Nat) (c : Ctx) (s : State), s.Live ∧ (s.ctx n = some c ∧ s.ctxState n = 2 ∧ s.flushing = false ∧ c.sweepStep = 6 ∧ c.record.discard = true) ∧ (s.ctxExtents n = [] ∧ s.fls.sdisc = [])) ∧
    (∃ (rq : Requester) (v : Word) (s : State), WriteOpen s rq .secOwner 0 ∧ (low6 v = 0 ∧ (s.fld Fld.secStatus_owned = 0 ∨ s.isOperator rq = true))) ∧
    (∃ (rq : Requester) (v : Word) (n : Nat) (k : Nat) (c : Ctx) (d : List Byte) (s : State), WriteOpen s rq .secJobkey 0 ∧ (d = s.bytesAt (keyHub v.toNat) 1616 ∧ low6 v = 0 ∧ leAt d 0 1 = n ∧ leAt d 1 1 = k) ∧ (n < 64 ∧ k < 16 ∧ s.actsFor rq n = true ∧ s.ctx n = some c ∧ s.resident n = true) ∧ allZero (takeAt d 2 14) = true ∧ Config.shake256 (Config.kemDecap (takeAt d 16 1568) ++ labelConfirm) 32 = takeAt d 1584 32) ∧
    (∃ (rq : Requester) (v : Word) (s : State), WriteOpen s rq .secFwCommit 0 ∧ (s.isModule rq = true ∧ bit v.toNat 0 = true ∧ s.mramQuorum = true)) ∧
    (∃ (rq : Requester) (v : Word) (s : State), WriteOpen s rq .secFwCommit 0 ∧ (s.isModule rq = true ∧ bit v.toNat 1 = true ∧ s.mramQuorum = true)) ∧
    (∃ (rq : Requester) (n : Nat) (f : Nat) (v : Word) (s : State), WindowOpen s rq ∧ (n < 64 ∧ s.regReach .secCtxFloor n = true ∧ (s.actsFor rq n || s.isOperator rq) = true ∧ f = v.toNat % 2 ^ 32) ∧ ((s.rd .secCtxFloor n).toNat < f ∧ s.mramQuorum = true ∧ s.ctxState n ≠ 0)) ∧
    (∃ (rq : Requester) (n : Nat) (v : Word) (s : State), WindowOpen s rq ∧ (n < 64 ∧ s.regReach .secCtxFloor n = true ∧ (s.actsFor rq n || s.isOperator rq) = true) ∧ v.toNat % 2 ^ 32 ≤ (s.rd .secCtxFloor n).toNat) ∧
    (∃ (port : Nat) (conn : Nat) (n : Nat) (key : List Byte) (sig : List Byte) (c : Ctx) (s : State), s.Live ∧ (s.fld Fld.glbStatus_service = 1 ∧ s.ctx n = some c ∧ s.resident n = true) ∧ (c.record.control.contains key = true ∧ ((s.sec.conns.look (port, conn)).bind (·.bound)) = none) ∧ Config.mlDsa65Verify key (s.freshBytes 32 ++ natLe 4 conn) sig = true) ∧
    (∃ (n : Nat) (s : State), s.Live ∧ (s.resident n = false ∨ s.fld Fld.glbStatus_service ≠ 1)) :=
  ⟨⟨.sinil 0 9, 0x1000, wInstState, wInst, 0, ⟨⟨by decide +kernel, by decide +kernel⟩, by decide +kernel, by decide +kernel⟩, by decide +kernel, wInst_read.symm, wInst_check, ⟨by decide +kernel, by decide +kernel, by decide +kernel⟩⟩,
   ⟨.firmware, 0x2000, wUp.setFld Fld.glbStatus_service 0 1, (wUp.setFld Fld.glbStatus_service 0 1).bytesAt (keyHub 0x2000) 0x4000, 1, ⟨⟨by decide +kernel, by decide +kernel⟩, by decide +kernel, by decide +kernel⟩, by decide +kernel, rfl, by decide +kernel⟩,
   ⟨.firmware, 3, 3, (wCtx.ctx 3).getD ⟨⟨0, 0, false, 0, 0, 0, [], [], 0, 0, 0, 0, none⟩, 0, .empty, .empty, []⟩, wCtx, ⟨⟨by decide +kernel, by decide +kernel⟩, by decide +kernel, by decide +kernel⟩, by decide +kernel, by decide +kernel⟩,
   ⟨.firmware, 3, 3, ((wJobs wJob1).ctx 3).getD ⟨⟨0, 0, false, 0, 0, 0, [], [], 0, 0, 0, 0, none⟩, 0, .empty, .empty, []⟩, wJobs wJob1, ⟨⟨by decide +kernel, by decide +kernel⟩, by decide +kernel, by decide +kernel⟩, by decide +kernel, by decide +kernel⟩,
   ⟨.firmware, 0x43, 3, ((wJobs wJob1).ctx 3).getD ⟨⟨0, 0, false, 0, 0, 0, [], [], 0, 0, 0, 0, none⟩, 0, .empty, .empty, []⟩, wJobs wJob1, ⟨⟨by decide +kernel, by decide +kernel⟩, by decide +kernel, by decide +kernel⟩, by decide +kernel, by decide +kernel⟩,
   ⟨3, wSweepCtx 1 false, (wSweep 1 false).onSec (fun x => { x with conns := ⟨[((1, 9), ⟨some (.ctx 3)⟩)]⟩ }), by decide +kernel, by decide +kernel⟩,
   ⟨3, wSweepCtx 6 false, wSweep 6 false, by decide +kernel, by decide +kernel⟩,
   ⟨3, wSweepCtx 6 true, wSweep 6 true, by decide +kernel, by decide +kernel, by decide +kernel⟩,
   ⟨.firmware, 0x1000, wUp, ⟨⟨by decide +kernel, by decide +kernel⟩, by decide +kernel, by decide +kernel⟩, by decide +kernel⟩,
   ⟨.firmware, 0x1000, 3, 5, (wCtx.ctx 3).getD ⟨⟨0, 0, false, 0, 0, 0, [], [], 0, 0, 0, 0, none⟩, 0, .empty, .empty, []⟩, wJobKey, { wCtx with mem := wCells (keyHub 0x1000) wJobKey }, ⟨⟨by decide +kernel, by decide +kernel⟩, by decide +kernel, by decide +kernel⟩, ⟨(readBytes_cells wJobKey _).symm, by decide +kernel, by decide +kernel, by decide +kernel⟩, by decide +kernel, by decide +kernel, wJobKey_confirm⟩,
   ⟨.firmware, 1, ((wUp.setFld Fld.secFw_svn 0 9).setFld Fld.secFw_fwFloor 0 4).setFld Fld.glbStatus_trial 0 1, ⟨⟨by decide +kernel, by decide +kernel⟩, by decide +kernel, by decide +kernel⟩, by decide +kernel⟩,
   ⟨.firmware, 2, ((wUp.setFld Fld.secFw_keyIndex 0 1).setFld Fld.secFw_keyFloor 0 2).setFld Fld.glbStatus_trial 0 1, ⟨⟨by decide +kernel, by decide +kernel⟩, by decide +kernel, by decide +kernel⟩, by decide +kernel⟩,
   ⟨.firmware, 3, 9, 9, wCtx, ⟨by decide +kernel, by decide +kernel⟩, by decide +kernel, by decide +kernel⟩,
   ⟨.firmware, 3, 0, wCtx, ⟨by decide +kernel, by decide +kernel⟩, by decide +kernel, by decide +kernel⟩,
   ⟨1, 9, 3, [7], Config.mlDsa65Sign [7] (wBindable.freshBytes 32 ++ natLe 4 9) 0, wBindCtx, wBindable, by decide +kernel, by decide +kernel, by decide +kernel, decide_eq_true ⟨0, by norm_num, rfl⟩⟩,
   ⟨4, wCtx, by decide +kernel, by decide +kernel⟩⟩

/-- Each clause of `AttestationRequests` has a state and operands that meet its hypotheses. -/
theorem test_witness_attestation_requests :
    (∃ (p : SpdmPath) (s : State), s.Live ∧ s.spdmOpen p = true) ∧
    (∃ (p : SpdmPath) (minor : Nat) (s : State), s.Live ∧ (s.spdmOpen p = true ∧ (s.spdm p).minor.isSome = true ∧ (minor = 2 ∨ minor = 3))) ∧
    (∃ (p : SpdmPath) (s : State), s.Live ∧ (s.spdmOpen p = true ∧ (s.spdm p).caps = true)) ∧
    (∃ (p : SpdmPath) (a : Bool) (h : Bool) (d : Bool) (e : Bool) (s : State), s.Live ∧ (s.spdmOpen p = true ∧ (a && h && d && e) = false)) ∧
    (∃ (p : SpdmPath) (s : State), s.Live ∧ (s.spdmOpen p = true ∧ (s.spdm p).ready = true)) ∧
    (∃ (p : SpdmPath) (s : State), s.Live ∧ (s.spdmOpen p = true ∧ (s.spdm p).ready = true)) ∧
    (∃ (p : SpdmPath) (s : State), s.Live ∧ (s.spdmOpen p = true ∧ (s.spdm p).ready = true ∧ s.mramQuorum = true ∧ s.sec.next < 2 ^ 40)) ∧
    (∃ (p : SpdmPath) (i : Nat) (s : State), s.Live ∧ (s.spdmOpen p = true ∧ (s.spdm p).ready = true ∧ 1 ≤ i ∧ i ≤ 5)) ∧
    (∃ (p : SpdmPath) (s : State), s.Live ∧ (s.spdmOpen p = true ∧ (s.spdm p).ready = true ∧ s.mramQuorum = true ∧ s.sec.next < 2 ^ 40)) ∧
    (∃ (p : SpdmPath) (s : State), s.Live ∧ (s.spdmOpen p = true ∧ (s.spdm p).ready = true ∧ (s.spdm p).sessions.length < 4 ∧ s.mramQuorum = true ∧ s.sec.next < 2 ^ 40)) ∧
    (∃ (p : SpdmPath) (s : State), s.Live ∧ (s.spdmOpen p = true ∧ 4 ≤ (s.spdm p).sessions.length)) ∧
    (∃ (p : SpdmPath) (sid : Nat) (s : State), s.Live ∧ (s.spdmOpen p = true ∧ (s.spdm p).has sid false = true)) ∧
    (∃ (p : SpdmPath) (sid : Nat) (s : State), s.Live ∧ (s.spdmOpen p = true ∧ (s.spdm p).has sid false = true)) ∧
    (∃ (p : SpdmPath) (sid : Nat) (op : Nat) (s : State), s.Live ∧ (s.spdmOpen p = true ∧ (s.spdm p).has sid true = true ∧ (op = 1 ∨ op = 2))) ∧
    (∃ (p : SpdmPath) (sid : Nat) (s : State), s.Live ∧ (s.spdmOpen p = true ∧ (s.spdm p).has sid true = true)) ∧
    (∃ (p : SpdmPath) (sid : Nat) (s : State), s.Live ∧ (s.spdmOpen p = true ∧ (s.spdm p).has sid true = true)) :=
  ⟨⟨.doe, wUp, by decide +kernel, by decide +kernel⟩,
   ⟨.doe, 2, wSpdm ⟨some 3, false, false, [], 1⟩, by decide +kernel, by decide +kernel⟩,
   ⟨.doe, wSpdm ⟨some 3, true, false, [], 1⟩, by decide +kernel, by decide +kernel⟩,
   ⟨.doe, true, false, true, true, wSpdm ⟨some 3, true, false, [], 1⟩, by decide +kernel, by decide +kernel⟩,
   ⟨.doe, wSpdm ⟨some 3, true, true, [], 1⟩, by decide +kernel, by decide +kernel⟩,
   ⟨.doe, wSpdm ⟨some 3, true, true, [], 1⟩, by decide +kernel, by decide +kernel⟩,
   ⟨.doe, wSpdm ⟨some 3, true, true, [], 1⟩, by decide +kernel, by decide +kernel⟩,
   ⟨.doe, 3, wSpdm ⟨some 3, true, true, [], 1⟩, by decide +kernel, by decide +kernel⟩,
   ⟨.doe, wSpdm ⟨some 3, true, true, [], 1⟩, by decide +kernel, by decide +kernel⟩,
   ⟨.doe, wSpdm ⟨some 3, true, true, [(1, true, 0)], 2⟩, by decide +kernel, by decide +kernel⟩,
   ⟨.doe, wSpdm ⟨some 3, true, true, [(1, true, 0), (2, true, 0), (3, true, 0), (4, true, 0)], 5⟩, by decide +kernel, by decide +kernel⟩,
   ⟨.doe, 1, wSpdm ⟨some 3, true, true, [(1, false, 0)], 2⟩, by decide +kernel, by decide +kernel⟩,
   ⟨.doe, 1, wSpdm ⟨some 3, true, true, [(1, false, 0)], 2⟩, by decide +kernel, by decide +kernel⟩,
   ⟨.doe, 1, 2, wSpdm ⟨some 3, true, true, [(1, true, 0)], 2⟩, by decide +kernel, by decide +kernel⟩,
   ⟨.doe, 1, wSpdm ⟨some 3, true, true, [(1, true, 0)], 2⟩, by decide +kernel, by decide +kernel⟩,
   ⟨.doe, 1, wSpdm ⟨some 3, true, true, [(1, true, 0)], 2⟩, by decide +kernel, by decide +kernel⟩⟩

/-- Each clause of `HostInterfaceIsolation` has a state and operands that meet its hypotheses. -/
theorem test_witness_host_interface_isolation :
    (∃ (p : SpdmPath) (sid : Nat) (head : Nat) (selective : Bool) (s : State), s.Live ∧ (s.spdmOpen p = true ∧ (s.spdm p).has sid true = true ∧ head < 2 ∧ s.sec.headsInsecure.contains head = false) ∧ (s.ideCount head selective < (if selective = true then 8 else 1))) ∧
    (∃ (head : Nat) (stream : Nat) (n : Nat) (x : IdeStream) (s : State), s.Live ∧ s.sec.ide.look (head, stream) = some x ∧ (x.tdi = some n ∧ (s.fld Fld.secCtxState_tdi n = 1 ∨ s.fld Fld.secCtxState_tdi n = 2))) ∧
    (∃ (n : Nat) (s : State), s.Live ∧ (s.resident n = true ∧ s.fld Fld.secCtxState_tdi n = 0)) ∧
    (∃ (n : Nat) (s : State), s.Live ∧ (s.resident n = false ∨ s.fld Fld.secCtxState_tdi n ≠ 0)) ∧
    (∃ (n : Nat) (s : State), s.Live ∧ (s.fld Fld.secCtxState_tdi n = 1 ∧ s.sec.ide.any (fun _ y => y.selective && decide (y.tdi = some n) && !y.insecure) = true)) ∧
    (∃ (n : Nat) (s : State), s.Live ∧ n < 64) ∧
    (∃ (n : Nat) (vf : Option Nat) (s : State), (s.fld Fld.secCtxState_conf n = 1 ∧ (vf ≠ some n ∨ s.fld Fld.secCtxState_tdi n ≠ 2))) :=
  ⟨⟨.doe, 1, 1, true, wSpdm ⟨some 3, true, true, [(1, true, 0)], 2⟩, by decide +kernel, by decide +kernel, by decide +kernel⟩,
   ⟨1, 5, 3, ⟨true, some 3, false⟩, wTdi 2, by decide +kernel, by decide +kernel, by decide +kernel⟩,
   ⟨3, wTdi 0, by decide +kernel, by decide +kernel⟩,
   ⟨3, wTdi 2, by decide +kernel, by decide +kernel⟩,
   ⟨3, wTdi 1, by decide +kernel, by decide +kernel⟩,
   ⟨3, wTdi 2, by decide +kernel, by decide +kernel⟩,
   ⟨3, none, (wTdi 2).setFld Fld.secCtxState_conf 3 1, by decide +kernel⟩⟩

/-- Each clause of `SupplyAndFlush` has a state and operands that meet its hypotheses. -/
theorem test_witness_supply_and_flush :
    (∃ (s : State), s.pwrSt = 0) ∧
    (∃ (s : State), s.pwrSt ≠ 0) ∧
    (∃ (s : State), s.pwrSt ≤ 1) ∧
    (∃ (s : State), (s.pwrSt = 1 ∧ (s.pwr.holdRack && s.pwr.rackFault) = false)) ∧
    (∃ (s : State), s.pwrSt = 3) ∧
    (∃ (s : State), (s.pwrSt ≠ 2 ∨ s.frz.frozen = true)) ∧
    (∃ (s : State), s.Live ∧ s.pwrSt = 2) ∧
    (∃ (s : State), (s.pwrSt = 2 ∧ s.pwr.pendingReset = none ∧ s.pwr.recovered = false)) ∧
    (∃ (s : State), (s.pwrSt = 2 ∧ s.pwr.pendingReset = none ∧ s.pwr.recovered = true)) ∧
    (∃ (s : State), (s.pwrSt = 2 ∧ s.fld Fld.pwrHoldCfg_fullEn 0 = 1 ∧ s.pwr.cut = false)) ∧
    (∃ (s : State), s.Live ∧ (s.pwrSt = 4 ∧ s.frz.deferred = none) ∧ (s.pwr.portsBefore.all (fun p => s.portBack p) = true)) ∧
    (∃ (a : PsuAnswer) (s : State), s.Live ∧ (s.fld Fld.pwrPmbusCfg_enable 0 = 1 ∧ a.statusInput % 256 = 0) ∧ s.pwrSt ≠ 1) ∧
    (∃ (a : PsuAnswer) (s : State), s.Live ∧ (s.fld Fld.pwrPmbusCfg_enable 0 = 1 ∧ a.statusInput % 256 ≠ 0) ∧ (s.fld Fld.pwrHoldCfg_pmbusHold 0 = 1 ∧ s.pwrSt = 0)) ∧
    (∃ (tC : List Nat) (s : State), (s.arch.heldThermal = true ∧ tC.all (fun u => decide (u < 95)) = true)) :=
  ⟨⟨wUp, by decide +kernel⟩,
   ⟨wFlushing, by decide +kernel⟩,
   ⟨wLnk 3 5, by decide +kernel⟩,
   ⟨wUp.setFld Fld.pwrStatus_state 0 1, by decide +kernel⟩,
   ⟨wUp.setFld Fld.pwrStatus_state 0 3, by decide +kernel⟩,
   ⟨wCtx, by decide +kernel⟩,
   ⟨wFlushing, by decide +kernel, by decide +kernel⟩,
   ⟨wFlushing, by decide +kernel⟩,
   ⟨wFlushing.onPwr (fun p => { p with recovered := true }), by decide +kernel⟩,
   ⟨wFlushing.setFld Fld.pwrHoldCfg_fullEn 0 1, by decide +kernel⟩,
   ⟨(wLnk 3 5).setFld Fld.pwrStatus_state 0 4 |>.onPwr (fun p => { p with portsBefore := [3] }), by decide +kernel, by decide +kernel, by decide +kernel⟩,
   ⟨⟨4800, 9, 3, 0⟩, wUp.setFld Fld.pwrPmbusCfg_enable 0 1, by decide +kernel, by decide +kernel, by decide +kernel⟩,
   ⟨⟨4800, 9, 3, 1⟩, (wUp.setFld Fld.pwrPmbusCfg_enable 0 1).setFld Fld.pwrHoldCfg_pmbusHold 0 1, by decide +kernel, by decide +kernel, by decide +kernel⟩,
   ⟨[94, 30], wUp.onArch (fun a => { a with heldThermal := true }), by decide +kernel⟩⟩

/-- Each clause of `HoldUpBank` has a state and operands that meet its hypotheses. -/
theorem test_witness_hold_up_bank :
    (∃ (ca : Nat) (tc : Nat) (s : State), s.Live ∧ (s.pwr.measuring = false ∧ s.bankDue tc = true ∧ s.bankReady ca = true)) ∧
    (∃ (ca : Nat) (tc : Nat) (s : State), s.Live ∧ (s.pwr.measuring = false ∧ s.bankDue tc = true ∧ s.bankReady ca = false)) ∧
    (∃ (rq : Requester) (v : Word) (s : State), WriteOpen s rq .pwrTest 0 ∧ (s.isModule rq = true ∧ bit v.toNat 0 = true)) ∧
    (∃ (ca : Nat) (s : State), s.Live ∧ (s.pwr.measuring = false ∧ s.pwr.asked = true ∧ s.bankReady ca = true)) ∧
    (∃ (ca : Nat) (s : State), s.Live ∧ (s.pwr.measuring = false ∧ s.pwr.asked = true ∧ s.bankReady ca = false)) ∧
    (∃ (cMf : Nat) (esr : Nat) (s : State), s.Live ∧ (s.pwr.measuring = true ∧ cMf < 2 ^ 32 ∧ esr < 2 ^ 16)) ∧
    (∃ (s : State), s.Live) :=
  ⟨⟨1000, 25, wUp, by decide +kernel, by decide +kernel⟩,
   ⟨999, 25, wUp, by decide +kernel, by decide +kernel⟩,
   ⟨.firmware, 1, wUp, ⟨⟨by decide +kernel, by decide +kernel⟩, by decide +kernel, by decide +kernel⟩, by decide +kernel⟩,
   ⟨1000, wUp.onPwr (fun p => { p with asked := true }), by decide +kernel, by decide +kernel⟩,
   ⟨9, wUp.onPwr (fun p => { p with asked := true, retries := 5 }), by decide +kernel, by decide +kernel⟩,
   ⟨900, 60000, wUp.onPwr (fun p => { p with measuring := true, vbank := 5200 }), by decide +kernel, by decide +kernel⟩,
   ⟨wUp, by decide +kernel⟩⟩

/-- Each clause of `FreezeAndReadout` has a state and operands that meet its hypotheses. -/
theorem test_witness_freeze_and_readout :
    (∃ (s : State), s.Live ∧ (s.pwrSt ≤ 1 ∧ s.frz.deferred = none)) ∧
    (∃ (s : State), s.Live ∧ (2 ≤ s.pwrSt ∧ s.frz.deferred = none)) ∧
    (∃ (rq : Requester) (v : Word) (s : State), s.Live ∧ (s.isModule rq = true ∧ bit v.toNat 0 = true) ∧ (s.pwrSt ≤ 1 ∧ s.frz.deferred = none)) ∧
    (∃ (s : State), s.Live ∧ (s.pwrSt ≤ 1 ∧ s.frz.deferred = none)) ∧
    (∃ (s : State), (s.frz.frozen = true ∧ s.frz.pinLow = false)) ∧
    (∃ (s : State), (s.frz.frozen = false ∨ s.frz.pinLow = true)) ∧
    (∃ (s : State), s.frz.frozen = true) ∧
    (∃ (s : State), s.frz.frozen = true) ∧
    (∃ (tap : Nat), tap < 4) ∧
    (∃ (tap : Nat), tap < 4) ∧
    (∃ (tap : Nat), tap < 4) ∧
    (∃ (tap : Nat) (code : Nat), (tap < 4 ∧ code < 256) ∧ [0x00, 0x01, 0x02, 0x04, 0x05, 0x20, 0x21].contains code = false) :=
  ⟨⟨wCtx, by decide +kernel, by decide +kernel⟩,
   ⟨wFlushing, by decide +kernel, by decide +kernel⟩,
   ⟨.firmware, 1, wCtx, by decide +kernel, by decide +kernel, by decide +kernel⟩,
   ⟨wCtx, by decide +kernel, by decide +kernel⟩,
   ⟨{ wCtx with frz := { wCtx.frz with frozen := true } }, by decide +kernel⟩,
   ⟨wCtx, by decide +kernel⟩,
   ⟨{ wCtx with frz := { wCtx.frz with frozen := true } }, by decide +kernel⟩,
   ⟨{ wCtx with frz := { wCtx.frz with frozen := true } }, by decide +kernel⟩,
   ⟨3, by decide +kernel⟩,
   ⟨3, by decide +kernel⟩,
   ⟨3, by decide +kernel⟩,
   ⟨3, 255, by decide +kernel, by decide +kernel⟩⟩

/-- Each clause of `TimekeepingAndTimeMessages` has a state and operands that meet its hypotheses. -/
theorem test_witness_timekeeping_and_time_messages :
    (∃ (off : Int) (s : State), s.Live ∧ (1000000 < off ∧ s.noneResident = true ∧ s.fld Fld.timCfg_stepEn 0 = 1)) ∧
    (∃ (off : Int) (s : State), s.Live ∧ (off ≤ 1000000 ∨ s.noneResident = false ∨ s.fld Fld.timCfg_stepEn 0 = 0)) ∧
    (∃ (s : State), s.Live ∧ (s.fld Fld.timCfg_ppsEn 0 = 1 ∧ s.nodeNs % 1000000000 ≤ 2 ∧ s.tim.pps < s.nodeNs / 1000000000)) ∧
    (∃ (p : Nat) (s : State), s.Live ∧ (p < 8 ∧ s.portSt p = 5 ∧ bit (s.fld Fld.lnkPortStatus_features p) 3 = true)) ∧
    (∃ (s : State), s.Live ∧ s.hostUp = true) ∧
    (∃ (off : Int) (s : State), s.Live ∧ (s.domUp = true ∧ s.fld Fld.timStatus_masterValid 0 = 1 ∧ s.fld Fld.timStatus_master 0 ≠ s.self ∧ off ≤ 1000000)) ∧
    (∃ (q : Nat) (s : State), s.Live ∧ s.ptpOn q = true) ∧
    (∃ (q : Nat) (s : State), s.Live ∧ (s.ptpOn q = true ∧ s.ptpState q = 6)) ∧
    (∃ (q : Nat) (s : State), s.Live ∧ (s.ptpOn q = true ∧ s.ptpState q = 6 ∧ s.slavePort = none)) ∧
    (∃ (e : Nat) (s : State), s.Live ∧ 1000 < e) :=
  ⟨⟨1000001, wUp.setFld Fld.timCfg_stepEn 0 1, by decide +kernel, by decide +kernel⟩,
   ⟨-20, wCtx, by decide +kernel, by decide +kernel⟩,
   ⟨{ wUp.setFld Fld.timCfg_ppsEn 0 1 with now := 1000000002 }, by decide +kernel, by decide +kernel⟩,
   ⟨7, (wLnk 7 5).setFld Fld.lnkPortStatus_features 7 8, by decide +kernel, by decide +kernel⟩,
   ⟨wUp, by decide +kernel, by decide +kernel⟩,
   ⟨50, ((wDom 0).setFld Fld.timStatus_masterValid 0 1).setFld Fld.timStatus_master 0 4, by decide +kernel, by decide +kernel⟩,
   ⟨1, wPtp, by decide +kernel, by decide +kernel⟩,
   ⟨1, wPtp, by decide +kernel, by decide +kernel⟩,
   ⟨1, wPtp, by decide +kernel, by decide +kernel⟩,
   ⟨1001, wUp.setFld Fld.timStatus_timeValid 0 1, by decide +kernel, by decide +kernel⟩⟩

/-- Each clause of `BringUpToService` has a state and operands that meet its hypotheses. -/
theorem test_witness_bring_up_to_service :
    (∃ (rom : List Nat) (s : State), s.Live ∧ (s.boot.done = [] ∧ s.arch.heldThermal = false) ∧ (rom.contains 0 = true ∨ rom.contains 2 = true)) ∧
    (∃ (i : FwImage) (k : Nat) (s : State), s.Live ∧ (s.boot.trying = some k ∧ s.boot.done.contains 4 = false ∧ i.svn < 65536) ∧ (k < 2 ∨ s.portSt (18 + k) = 5) ∧ s.fwOk i = true) ∧
    (∃ (i : FwImage) (k : Nat) (s : State), s.Live ∧ (s.boot.trying = some k ∧ s.boot.done.contains 4 = false) ∧ (k < 2 ∨ s.portSt (18 + k) = 5) ∧ s.fwOk i = false) ∧
    (∃ (k : Nat) (s : State), s.Live ∧ (s.boot.trying = some k ∧ 2 ≤ k ∧ s.boot.lastData + 1000000000 ≤ s.now)) ∧
    (∃ (s : State), s.Live ∧ (s.boot.trying = none ∧ s.boot.done.contains 3 = true ∧ s.boot.done.contains 4 = false ∧ s.boot.lastData + 10000000000 ≤ s.now) ∧ (s.hubUp 0 = true ∧ s.boot.failed.contains 0 = true ∧ s.boot.failed.contains 1 = true)) ∧
    (∃ (s : State), s.Live ∧ (s.boot.done.contains 6 = true ∧ s.boot.done.contains 9 = false ∧ s.channelsDone = true)) ∧
    (∃ (s : State), s.Live ∧ (s.boot.done.contains 10 = true ∧ s.boot.done.contains 11 = false)) ∧
    (∃ (s : State), s.Live ∧ (s.boot.done.contains 10 = true ∧ s.boot.done.contains 11 = false)) ∧
    (∃ (s : State), s.Live ∧ (s.mayServe = true ∧ s.fld Fld.glbStatus_service 0 = 0)) :=
  ⟨⟨[0, 1, 2, 3], State.reset, by decide +kernel, by decide +kernel, by decide +kernel⟩,
   ⟨⟨1, 9, true, true, 0, 0x55⟩, 0, wBoot [1, 2, 3] (some 0), by decide +kernel, by decide +kernel, by decide +kernel, by decide +kernel⟩,
   ⟨⟨1, 9, true, false, 0, 0x55⟩, 0, wBoot [1, 2, 3] (some 0), by decide +kernel, by decide +kernel, by decide +kernel, by decide +kernel⟩,
   ⟨3, { wBoot [1, 2, 3] (some 3) with now := 1000000000 }, by decide +kernel, by decide +kernel⟩,
   ⟨{ (wBoot [1, 2, 3] none).onBoot (fun b => { b with failed := [3, 2, 1, 0] }) with now := 10000000000 }, by decide +kernel, by decide +kernel, by decide +kernel⟩,
   ⟨(List.range 32).foldl (fun s c => s.setFld Fld.flsChStatus_state c 2) (wBoot [1, 2, 3, 4, 5, 6] none), by decide +kernel, by decide +kernel⟩,
   ⟨wBoot [10] none, by decide +kernel, by decide +kernel⟩,
   ⟨wBoot [10] none, by decide +kernel, by decide +kernel⟩,
   ⟨((wBoot [12] none).wr .pwrBudget 0 (BitVec.ofNat 64 (2 ^ 26))).mramWrite (fun m => { m with ctxRecs := ⟨[(3, (wSweepCtx 1 true).record)]⟩ }), by decide +kernel, by decide +kernel⟩⟩

/-- Each clause of `ResetsReturnAndRestart` has a state and operands that meet its hypotheses. -/
theorem test_witness_resets_return_and_restart :
    (∃ (rq : Requester) (v : Word) (s : State), s.Live ∧ (Fld.glbReset_kind.get v = 1 ∧ s.isModule rq = true ∧ s.pwrSt ≠ 2 ∧ s.pwrSt ≠ 3)) ∧
    (∃ (rq : Requester) (v : Word) (s : State), s.Live ∧ (Fld.glbReset_kind.get v = 1 ∧ s.isModule rq = true ∧ s.pwrSt = 2)) ∧
    (∃ (rq : Requester) (v : Word) (h : Nat) (s : State), s.Live ∧ (Fld.glbReset_kind.get v = 2 ∧ Fld.glbReset_target.get v = h ∧ s.isModule rq = true ∧ s.pwrSt ≠ 2 ∧ s.pwrSt ≠ 3 ∧ h < 4) ∧ (2 ≤ (s.hubsUp.filter (fun k => decide (k ≠ h))).length)) ∧
    (∃ (rq : Requester) (v : Word) (h : Nat) (s : State), s.Live ∧ (Fld.glbReset_kind.get v = 2 ∧ Fld.glbReset_target.get v = h ∧ s.isModule rq = true ∧ s.pwrSt ≠ 3 ∧ h < 4) ∧ ((s.hubsUp.filter (fun k => decide (k ≠ h))).length < 2)) ∧
    (∃ (rq : Requester) (v : Word) (m : Nat) (s : State), WriteOpen s rq .glbReset 0 ∧ (Fld.glbReset_kind.get v = 3 ∧ Fld.glbReset_target.get v = m ∧ m < 24 ∧ s.isModule rq = true)) ∧
    (∃ (h : Nat) (s : State), s.Live ∧ (s.boot.returning.contains h = true ∧ h < 4 ∧ s.hubUp h = false)) ∧
    (∃ (h : Nat) (s : State), s.Live ∧ (s.boot.returning.contains h = true ∧ h < 4 ∧ s.hubUp h = false)) ∧
    (∃ (rq : Requester) (v : Word) (i : FwImage) (s : State), WriteOpen s rq .glbFwActivate 0 ∧ (s.isModule rq = true ∧ bits v.toNat 2 4 = 0 ∧ bits v.toNat 0 2 ≠ 3) ∧ (s.fwOk i = true ∧ i.handoverFrom ≤ s.fld Fld.secFw_svn 0 ∧ 7 ≤ s.dmap.leaseMs ∧ s.boot.restart = none)) ∧
    (∃ (rq : Requester) (v : Word) (i : FwImage) (s : State), WriteOpen s rq .glbFwActivate 0 ∧ (s.isModule rq = true ∧ bits v.toNat 2 4 = 0 ∧ bits v.toNat 0 2 ≠ 3) ∧ (s.fwOk i = false ∨ s.dmap.leaseMs < 7)) ∧
    (∃ (i : FwImage) (src : Nat) (s : State), s.Live ∧ (s.boot.restart = some (i, src) ∧ s.sch.steps.rows = [] ∧ i.svn < 65536 ∧ i.keyIndex < 4)) :=
  ⟨⟨.firmware, 1, wCtx, by decide +kernel, by decide +kernel⟩,
   ⟨.firmware, 1, wFlushing, by decide +kernel, by decide +kernel⟩,
   ⟨.firmware, 0x22, 2, wUp, by decide +kernel, by decide +kernel, by decide +kernel⟩,
   ⟨.firmware, 0x22, 2, State.reset, by decide +kernel, by decide +kernel, by decide +kernel⟩,
   ⟨.firmware, 0x53, 5, wLanesUsed, ⟨⟨by decide +kernel, by decide +kernel⟩, by decide +kernel, by decide +kernel⟩, by decide +kernel⟩,
   ⟨2, wReturning, by decide +kernel, by decide +kernel⟩,
   ⟨2, wReturning, by decide +kernel, by decide +kernel⟩,
   ⟨.firmware, 0x1001, ⟨1, 9, true, true, 0, 0x55⟩, wUp.onDfb (fun d => { d with map := { d.map with mapCfg := 50 } }), ⟨⟨by decide +kernel, by decide +kernel⟩, by decide +kernel, by decide +kernel⟩, by decide +kernel, by decide +kernel⟩,
   ⟨.firmware, 0x1001, ⟨1, 9, false, true, 0, 0x55⟩, wUp, ⟨⟨by decide +kernel, by decide +kernel⟩, by decide +kernel, by decide +kernel⟩, by decide +kernel, by decide +kernel⟩,
   ⟨⟨1, 9, true, true, 0, 0x55⟩, 1, wUp.onBoot (fun b => { b with restart := some (⟨1, 9, true, true, 0, 0x55⟩, 1) }), by decide +kernel, by decide +kernel⟩⟩

/-- Each clause of `ReadToClearRegisters` has a state and operands that meet its hypotheses. -/
theorem test_witness_read_to_clear_registers :
    (∃ (rq : Requester) (m : Nat) (s : State), m < 24 ∧ WindowOpen s rq ∧ s.regReach .kvaEngErr m = true ∧ s.mayRead rq .kvaEngErr m = true) ∧
    (∃ (rq : Requester) (ch : Nat) (s : State), ch < 32 ∧ WindowOpen s rq ∧ s.regReach .flsChErr ch = true ∧ s.mayRead rq .flsChErr ch = true) ∧
    (∃ (rq : Requester) (s : State), WindowOpen s rq ∧ s.mayRead rq .stmStallMax 0 = true) ∧
    (∃ (rq : Requester) (s : State), WindowOpen s rq ∧ s.mayRead rq .nmcRecallMax 0 = true) ∧
    (∃ (rq : Requester) (p : Nat) (s : State), p < 22 ∧ WindowOpen s rq ∧ s.regReach .lnkPortErr p = true ∧ s.mayRead rq .lnkPortErr p = true) ∧
    (∃ (rq : Requester) (s : State), WindowOpen s rq ∧ s.mayRead rq .pwrDirtyMax 0 = true) ∧
    (∃ (rq : Requester) (s : State), WindowOpen s rq ∧ s.mayRead rq .glbAccessErr 0 = true) ∧
    (∃ (rq : Requester) (s : State), WindowOpen s rq ∧ s.mayRead rq .dbgTraceDropped 0 = true) :=
  ⟨⟨.firmware, 23, wUp, by decide +kernel, ⟨by decide +kernel, by decide +kernel⟩, by decide +kernel, by decide +kernel⟩,
   ⟨.firmware, 31, wUp, by decide +kernel, ⟨by decide +kernel, by decide +kernel⟩, by decide +kernel, by decide +kernel⟩,
   ⟨.firmware, wUp, ⟨by decide +kernel, by decide +kernel⟩, by decide +kernel⟩,
   ⟨.firmware, wUp, ⟨by decide +kernel, by decide +kernel⟩, by decide +kernel⟩,
   ⟨.firmware, 21, wUp, by decide +kernel, ⟨by decide +kernel, by decide +kernel⟩, by decide +kernel, by decide +kernel⟩,
   ⟨.firmware, wUp, ⟨by decide +kernel, by decide +kernel⟩, by decide +kernel⟩,
   ⟨.firmware, wUp, ⟨by decide +kernel, by decide +kernel⟩, by decide +kernel⟩,
   ⟨.firmware, wUp, ⟨by decide +kernel, by decide +kernel⟩, by decide +kernel⟩⟩

/-- Each clause of `EventRegistersWriteOneToClear` has a state and operands that meet its hypotheses. -/
theorem test_witness_event_registers_write_one_to_clear :
    (∃ (rq : Requester) (s : State), WindowOpen s rq ∧ s.isModule rq = true) ∧
    (∃ (rq : Requester) (s : State), WindowOpen s rq ∧ s.isModule rq = true) ∧
    (∃ (rq : Requester) (s : State), WindowOpen s rq ∧ s.isModule rq = true) ∧
    (∃ (rq : Requester) (s : State), WindowOpen s rq ∧ s.isModule rq = true) ∧
    (∃ (rq : Requester) (s : State), WindowOpen s rq ∧ s.isModule rq = true) ∧
    (∃ (rq : Requester) (s : State), WindowOpen s rq ∧ s.isModule rq = true) ∧
    (∃ (rq : Requester) (s : State), WindowOpen s rq ∧ s.isModule rq = true) ∧
    (∃ (rq : Requester) (s : State), WindowOpen s rq ∧ s.isModule rq = true) ∧
    (∃ (rq : Requester) (s : State), WindowOpen s rq ∧ s.isModule rq = true) ∧
    (∃ (rq : Requester) (s : State), WindowOpen s rq ∧ s.isModule rq = true) ∧
    (∃ (rq : Requester) (s : State), WindowOpen s rq ∧ s.isModule rq = true) ∧
    (∃ (rq : Requester) (s : State), WindowOpen s rq ∧ s.isModule rq = true) ∧
    (∃ (rq : Requester) (s : State), WindowOpen s rq ∧ s.isModule rq = true) ∧
    (∃ (rq : Requester) (s : State), WindowOpen s rq ∧ s.isModule rq = true) ∧
    (∃ (rq : Requester) (s : State), WindowOpen s rq ∧ s.isModule rq = true) ∧
    (∃ (rq : Requester) (s : State), WindowOpen s rq ∧ s.isModule rq = true) :=
  ⟨⟨.firmware, wUp, ⟨by decide +kernel, by decide +kernel⟩, by decide +kernel⟩,
   ⟨.firmware, wUp, ⟨by decide +kernel, by decide +kernel⟩, by decide +kernel⟩,
   ⟨.firmware, wUp, ⟨by decide +kernel, by decide +kernel⟩, by decide +kernel⟩,
   ⟨.firmware, wUp, ⟨by decide +kernel, by decide +kernel⟩, by decide +kernel⟩,
   ⟨.firmware, wUp, ⟨by decide +kernel, by decide +kernel⟩, by decide +kernel⟩,
   ⟨.firmware, wUp, ⟨by decide +kernel, by decide +kernel⟩, by decide +kernel⟩,
   ⟨.firmware, wUp, ⟨by decide +kernel, by decide +kernel⟩, by decide +kernel⟩,
   ⟨.firmware, wUp, ⟨by decide +kernel, by decide +kernel⟩, by decide +kernel⟩,
   ⟨.firmware, wUp, ⟨by decide +kernel, by decide +kernel⟩, by decide +kernel⟩,
   ⟨.firmware, wUp, ⟨by decide +kernel, by decide +kernel⟩, by decide +kernel⟩,
   ⟨.firmware, wUp, ⟨by decide +kernel, by decide +kernel⟩, by decide +kernel⟩,
   ⟨.firmware, wUp, ⟨by decide +kernel, by decide +kernel⟩, by decide +kernel⟩,
   ⟨.firmware, wUp, ⟨by decide +kernel, by decide +kernel⟩, by decide +kernel⟩,
   ⟨.firmware, wUp, ⟨by decide +kernel, by decide +kernel⟩, by decide +kernel⟩,
   ⟨.firmware, wUp, ⟨by decide +kernel, by decide +kernel⟩, by decide +kernel⟩,
   ⟨.firmware, wUp, ⟨by decide +kernel, by decide +kernel⟩, by decide +kernel⟩⟩

/-- Each clause of `RegisterWindowAndNotices` has a state and operands that meet its hypotheses. -/
theorem test_witness_register_window_and_notices :
    (∃ (rq : Requester) (off : Nat) (i : Nat) (r : Reg) (s : State), WindowOpen s rq ∧ (off % 8 = 0 ∧ regAtOffset off = some (r, i) ∧ r.spec.access = .rw) ∧ (s.regReach r i = true ∧ s.isModule rq = true ∧ r.ownRow = false) ∧ [Reg.schCustData, .pwrHoldCfg, .pwrBankLimit, .pwrChgCfg, .timCfg, .flsGcCfg].contains r = false) ∧
    (∃ (rq : Requester) (off : Nat) (w : Nat) (s : State), WindowOpen s rq ∧ ((regAtOffset (off / 8 * 8)).isSome = true ∧ (w ≠ 8 ∨ off % 8 ≠ 0))) ∧
    (∃ (rq : Requester) (off : Nat) (s : State), WindowOpen s rq ∧ regAtOffset (off / 8 * 8) = none) ∧
    (∃ (rq : Requester) (off : Nat) (i : Nat) (r : Reg) (s : State), WindowOpen s rq ∧ (off % 8 = 0 ∧ regAtOffset off = some (r, i)) ∧ (s.regReach r i = true ∧ s.mayRead rq r i = false)) ∧
    (∃ (rq : Requester) (off : Nat) (w : Nat) (i : Nat) (r : Reg) (s : State), WindowOpen s rq ∧ ((w = 1 ∨ w = 2 ∨ w = 4 ∨ w = 8) ∧ off % w = 0 ∧ regAtOffset (off / 8 * 8) = some (r, i)) ∧ (s.regReach r i = true ∧ s.mayRead rq r i = true ∧ r.spec.access = .rw)) ∧
    (∃ (rq : Requester) (s : State), WindowOpen s rq ∧ s.isModule rq = true) ∧
    (∃ (b : Nat) (s : State), s.Live ∧ (s.latches.contains b = true ∧ s.noticeDue b = true)) :=
  ⟨⟨.firmware, Reg.offset .glbEvtCfg 0, 0, .glbEvtCfg, wUp, ⟨by decide +kernel, by decide +kernel⟩, by decide +kernel, by decide +kernel, by decide +kernel⟩,
   ⟨.firmware, Reg.offset .glbEvtCfg 0, 4, wUp, ⟨by decide +kernel, by decide +kernel⟩, by decide +kernel⟩,
   ⟨.firmware, 0x3FFFF8, wUp, ⟨by decide +kernel, by decide +kernel⟩, by decide +kernel⟩,
   ⟨.host 0 none, Reg.offset .glbEvtCfg 0, 0, .glbEvtCfg, wUp, ⟨by decide +kernel, by decide +kernel⟩, by decide +kernel, by decide +kernel⟩,
   ⟨.firmware, Reg.offset .glbEvtCfg 0 + 4, 4, 0, .glbEvtCfg, wUp, ⟨by decide +kernel, by decide +kernel⟩, by decide +kernel, by decide +kernel⟩,
   ⟨.firmware, { wUp with now := 77 }, ⟨by decide +kernel, by decide +kernel⟩, by decide +kernel⟩,
   ⟨12, { wUp.setFld Fld.glbEvtCfg_msixEn 0 1 with latches := [12, 3] }, by decide +kernel, by decide +kernel⟩⟩


/-! ### What each check of well-formedness refuses -/

theorem test_wf_accepts : Instr.wf (.registerWrite (.host 1 (some 63)) (.read 0x40 8)) = true := by decide
theorem test_wf_clerk : Instr.wf (.runDrainDone 4096) = false := by decide
theorem test_wf_hub : Instr.wf (.hubHeartbeatMiss 4) = false := by decide
theorem test_wf_stack : Instr.wf (.stackTakenOffline 24) = false := by decide
theorem test_wf_layer : Instr.wf (.layerRetire 0 16 []) = false := by decide
theorem test_wf_nodePort : Instr.wf (.mrd 8 0 0) = false := by decide
theorem test_wf_port : Instr.wf (.portSignalDetect 22) = false := by decide
theorem test_wf_sinil : Instr.wf (.sinilBind 19 0 .operator []) = false := by decide
theorem test_wf_bind : Instr.wf (.sinilBind 20 0 (.ctx 64) []) = false := by decide
theorem test_wf_chan : Instr.wf (.weighPass 32) = false := by decide
theorem test_wf_lun : Instr.wf (.lunFailed 0 32) = false := by decide
theorem test_wf_ctx : Instr.wf (.contextSweep 64) = false := by decide
theorem test_wf_sess : Instr.wf (.indexReuseHoldEnd (2 ^ 24)) = false := by decide
theorem test_wf_slot : Instr.wf (.operationComplete 0 64 .own) = false := by decide
theorem test_wf_agent : Instr.wf (.agentFailed 10) = false := by decide
theorem test_wf_member : Instr.wf (.heartbeatAnswer 32) = false := by decide
theorem test_wf_group : Instr.wf (.groupTimeout 8 false) = false := by decide
theorem test_wf_region : Instr.wf (.coldGranulePark 4096 0) = false := by decide
theorem test_wf_granule : Instr.wf (.granuleFaultIn 0 (2 ^ 30)) = false := by decide
theorem test_wf_coll : Instr.wf (.collIndexFree 1024) = false := by decide
theorem test_wf_bucket : Instr.wf (.bucketCutover 4096) = false := by decide
theorem test_wf_job : Instr.wf (.backgroundCopy 16) = false := by decide
theorem test_wf_model : Instr.wf (.roleEval 1024 0 0 []) = false := by decide
theorem test_wf_pace : Instr.wf (.paceSample 466 0) = false := by decide
theorem test_wf_block : Instr.wf (.eventNotice 16) = false := by decide
theorem test_wf_queue : Instr.wf (.creditReturn 0 16) = false := by decide
theorem test_wf_seq : Instr.wf (.cellAck 0 8192) = false := by decide
theorem test_wf_bit : Instr.wf (.announceInterval 2) = false := by decide
theorem test_wf_byte : Instr.wf (.bypass 0 256) = false := by decide
theorem test_wf_u16 : Instr.wf (.timNowRead .firmware 65536) = false := by decide
theorem test_wf_u32 : Instr.wf (.getVersion (.sinil 20 (2 ^ 32))) = false := by decide
theorem test_wf_mask : Instr.wf (.cxlMemWrite 0 0 0 .any (2 ^ 64) (List.replicate 64 0)) = false := by decide
theorem test_wf_wide : Instr.wf (.mat 0 0 0 (2 ^ 128) 0) = false := by decide
theorem test_wf_bytes : Instr.wf (.shapeDigest 0 0 (List.replicate 31 0)) = false := by decide
theorem test_wf_four : Instr.wf (.cornerRecovered 800 [60, 60, 60]) = false := by decide
theorem test_wf_requester : Instr.wf (.runCancel (.host 2 none) 0) = false := by decide
theorem test_wf_link : Instr.wf (.linkHandshakeTimeout (.d2d 2 1)) = false := by decide
theorem test_wf_path : Instr.wf (.getDigests (.sinil 7 0)) = false := by decide
theorem test_wf_hdr : Instr.wf (.dld ⟨32, 3, 0, 0, false, 0, 0, 0⟩) = false := by decide
theorem test_wf_frame : Instr.wf (.frameTagFail 0 ⟨0, true, true, 4433, 0, 0, 0, 0, 0⟩) = false := by decide
theorem test_wf_cell : Instr.wf (.cellReceive 0 ⟨8192, 0, true, true, false⟩) = false := by decide
theorem test_wf_access : Instr.wf (.registerWrite .firmware (.write 0 0 0)) = false := by decide
theorem test_wf_nand : Instr.wf (.channelNegotiate 0 ⟨0, true, true, true, 4, 3, 2048, 1536, 16384, 2048, true, true, 16, 0, 0⟩) = false := by decide
theorem test_wf_image : Instr.wf (.firmwareFetch (some ⟨4, 1, true, true, 0, 0⟩)) = false := by decide
theorem test_wf_unit : Instr.wf (.selfTest [.stack 0, .port 22]) = false := by decide
theorem test_wf_load : Instr.wf (.loadLevelUpdate [⟨0, 101, 0, false⟩]) = false := by decide
theorem test_wf_psu : Instr.wf (.psuPoll (some ⟨0, 0, 0, 256⟩)) = false := by decide
theorem test_wf_assign : Instr.wf (.suspectExpiry 0 [⟨4096, 0, 0, 0⟩]) = false := by decide
theorem test_wf_change : Instr.wf (.mapChangePropose (.pathGone 0 12)) = false := by decide
theorem test_wf_body : Instr.wf (.dfw ⟨0, 3, 0, 0, false, 0, 0, 0⟩ (.store 0 (List.replicate 63 0))) = false := by decide
theorem test_wf_owner : Instr.wf (.flashWrite (.park (2 ^ 24)) 0 0 [] false) = false := by decide
theorem test_wf_copy : Instr.wf (.moveCopyArrival 0 0 ⟨3, 3, 0, 0, 0, true, [], [], []⟩) = false := by decide
theorem test_wf_shard : Instr.wf (.takeover [] 0 0 (List.replicate 32 0) [⟨0, 3, false, 0, 0⟩] []) = false := by decide

/-! ### The spec's own figures -/

/-- A layer of the example model: 64 query heads, 8 KV heads and head dimension 128; HQ and HKV are stored less one, DH in units of 16 less one. -/
def wExForm : LayerForm :=
  { kind := 0, trim := false, softcapEn := false, hq := 63, hkv := 7, dh := 7, dv := 7, window := 0, sinks := 0, sparseB := 0, localBlocks := 0,
    sparseMin := 0, scale := 0, softcap := 0, kScale := 0, vScale := 0, resvBad := false }

/-- Table 4-2: bytes and tokens per page in BF16, FP8 and KV4. -/
theorem test_table_4_2 : [0, 1, 2].map (fun f => (bpt wExForm f, tpp wExForm f)) = [(4096, 16), (2048, 32), (1152, 56)] := by decide
/-- The example of R90: amax 3.0 gives E 125 and T 183; 3.0 encodes as 7 and −1.0 as −2. -/
theorem test_kv4_example :
    (kv4Scale (fOfBf16 0x4040), kv4Code (fOfBf16 0x4040) 125 183, kv4Code (fOfBf16 0xBF80) 125 183) = ((125, 183), 0x7, 0xE) := by
  decide +kernel
/-- FP8 saturates at 448 (R89): 0x7E; 1.0 is 0x38. -/
theorem test_fp8 : (fp8Of (fOfBf16 0x4640), fp8Of fOne) = (0x7E, 0x38) := by decide +kernel

/-- 32 channels in service at 3,600 MT/s, a 20 F bank of 12 mΩ, 150 W of array, V_MIN 35 V and a margin of 80 %. -/
def wBank : State :=
  let s := (List.range 32).foldl (fun (s : State) ch => (s.wr .flsChStatus ch (BitVec.ofNat 64 (1 + 5 * 4 + 32 * 64))).wr .flsChTime ch
    (BitVec.ofNat 64 (150 * 2 ^ 48))) wUp
  let s := s.wr .flsChParam 0 (BitVec.ofNat 64 4)
  let s := s.wr .pwrBank 0 (BitVec.ofNat 64 (20000 + 120 * 2 ^ 32))
  { s with pwr := { s.pwr with measured := true, vbank := 5200 } }

/-- The sizing example after R360: B is 1,846.8 GB. -/
theorem test_bank_sizing : (decide (1846750000000 ≤ wBank.budgetAt 5200) && decide (wBank.budgetAt 5200 < 1846850000000)) = true := by
  decide +kernel
end Sys2Proof.Machine
end

namespace Sys2Proof.Machine

/-! ### The queue's front command (log 1) -/

/-- Settles O1: the front of the queue selects the second case of `step`, and the rest replaces the queue. -/
theorem stepRunsFrontCommand : Obligations.StepRunsFrontCommand := by
  unfold Obligations.StepRunsFrontCommand
  intro c rest s
  rfl

/-! ### A flush at 115 °C performs a write that waits for a recall (R18, R286, R364)

FLUSH takes the node ports DOWN (R364), and the agent behind a port taken out of service is declared failed (R286): its recalls complete at
once, and the requests that wait for them go on. A host's write among them is then performed, so the flush does not leave memory as it was. -/

/-- The agent of node port 0 holds line 0 of the node window exclusive (R278); the port is UP, host head 0 is in service, and both may
write the region. -/
def portHoldsLine : State :=
  let up := State.reset.onArch (fun a => { a with hubs := ⟨[(0, .inService), (1, .inService), (2, .inService), (3, .inService)]⟩ })
  let s := ((up.setFld Fld.lnkPortStatus_state 0 5).setFld Fld.nmcAgentStatus_state 0 1).setFld Fld.nmcAgentStatus_state 2 1
  s.onNmc (fun m => { m with
    window := 1024
    regions := ⟨[(0, { gen := 1, ctx := 3, temp := 0, hostPark := false, readM := 5, writeM := 5, base := 0, granules := 1, stks := [0],
                       phase := none, dying := false })]⟩
    dir := ⟨[(0, ⟨.excl, [], 2, false, 0⟩)]⟩ })

/-- A line of bytes 0xAB. -/
def abLine : List Byte := List.replicate 64 0xAB

/-- Head 0's write of the whole line has recalled it from the port's agent and waits (R279). -/
def hostWriteWaits : State := portHoldsLine.arrive 0 (.host 0 7) (.write (2 ^ 64 - 1) abLine true) 0 false

/-- `CXL_MEM_WRITE` leads from the held line to the waiting write. -/
theorem cxlMemWrite_portHoldsLine :
    exec (.cxlMemWrite 0 7 0 .inv (2 ^ 64 - 1) abLine) portHoldsLine = .next hostWriteWaits := by
  have hopen : (0 < 2 && portHoldsLine.agentSt 0 = 1 && !portHoldsLine.frz.frozen) = true := by decide +kernel
  change Host.Outcome.next (if _ then _ else _) = _
  exact congrArg _ (if_pos hopen)

theorem hostWriteWaits_pwrSt : hostWriteWaits.pwrSt = 0 := by decide +kernel

theorem hostWriteWaits_mem : hostWriteWaits.mem = [] := by decide +kernel

/-- What a junction at 115 °C makes of the state in `NORMAL` or `HOLD`. -/
theorem exec_junction115_of_pwrSt_le_one {h tC : Nat} {s : State} (htC : 115 ≤ tC) (hp : s.pwrSt ≤ 1) :
    exec (.junction115 h tC) s = .next ((s.onPwr (fun p => { p with pendingReset := some .thermal })).enterFlush false) := by
  change execJunction115 h tC s = _
  rw [execJunction115, if_neg (by omega), if_pos hp]

/-- The flush performs the waiting write: the line's first byte is the host's. -/
theorem enterFlush_performs_waiting_write :
    memRead ((hostWriteWaits.onPwr (fun p => { p with pendingReset := some .thermal })).enterFlush false).mem (keyNode 0) = 0xAB := by
  decide +kernel

/-- Refutes O11: its clause for a junction at 115 °C in `NORMAL` or `HOLD` says that memory stays, but where a host's write waits for a
recall of a node-port agent (`hostWriteWaits`), FLUSH fails that agent and the write is performed: byte 0 of the node window, 0 before,
reads 0xAB. -/
theorem not_cornersAndVoltages : ¬ Obligations.CornersAndVoltages := by
  unfold Obligations.CornersAndVoltages
  rintro ⟨-, -, -, -, hjunction, -⟩
  have hpwr : hostWriteWaits.pwrSt ≤ 1 := by rw [hostWriteWaits_pwrSt]; omega
  obtain ⟨t, hexec, -, -, hmem⟩ := hjunction 0 115 hostWriteWaits le_rfl hpwr
  rw [exec_junction115_of_pwrSt_le_one le_rfl hpwr, Host.Outcome.next.injEq] at hexec
  have hwritten : memRead t.mem (keyNode 0) = 0xAB := hexec ▸ enterFlush_performs_waiting_write
  rw [hmem, hostWriteWaits_mem] at hwritten
  exact absurd hwritten (by decide)

end Sys2Proof.Machine

namespace Sys2Proof.Machine

/-! ### The containment of a hub performs a write that waits for a recall (R11, R286)

A failed hub takes its ports out of service (R11), and the agent behind such a port is declared failed, as in the flush above: node port 0 is
on hub 0, so the containment of hub 0 performs the waiting write and memory is not as it was. -/

/-- The waiting write of `hostWriteWaits`, with hub 0 declared failed. -/
def writeWaitsHubDeclared : State := hostWriteWaits.onArch (fun a => { a with hubs := a.hubs.put 0 .declared })

theorem writeWaitsHubDeclared_mem : writeWaitsHubDeclared.mem = [] := hostWriteWaits_mem

theorem writeWaitsHubDeclared_live : writeWaitsHubDeclared.Live := by decide +kernel

theorem writeWaitsHubDeclared_declared : writeWaitsHubDeclared.arch.hubs.lookD 0 .held = .declared := by decide +kernel

/-- What the containment of a declared hub makes of a module that is not frozen. -/
theorem exec_hubDeclaredFailed {h : Nat} {s : State} (hlive : s.Live) (hh : h < 4) (hd : s.arch.hubs.lookD h .held = .declared) :
    exec (.hubDeclaredFailed h) s = .next (s.failHub h) := by
  have hcond : (h < 4 && decide (s.arch.hubs.lookD h .held = .declared)) = true := by simp [hh, hd]
  change execHubDeclaredFailed h s = _
  rw [execHubDeclaredFailed, if_pos hcond, State.whenLive, hlive]
  rfl

/-- The containment performs the waiting write: the line's first byte is the host's. -/
theorem failHub_performs_waiting_write : memRead (writeWaitsHubDeclared.failHub 0).mem (keyNode 0) = 0xAB := by
  decide +kernel

/-- Refutes O10: its clause for the containment of a declared hub says that memory stays, but where a host's write waits for a recall of the
agent behind a port of that hub (`writeWaitsHubDeclared`), the agent is failed with the port and the write is performed: byte 0 of the
node window, 0 before, reads 0xAB. -/
theorem not_hubsAndStacksFail : ¬ Obligations.HubsAndStacksFail := by
  unfold Obligations.HubsAndStacksFail
  rintro ⟨-, -, -, -, hcontain, -⟩
  have hlive := writeWaitsHubDeclared_live
  have hdecl := writeWaitsHubDeclared_declared
  obtain ⟨t, hexec, -, -, hmem⟩ := hcontain 0 writeWaitsHubDeclared hlive (by omega) hdecl
  rw [exec_hubDeclaredFailed hlive (by omega) hdecl, Host.Outcome.next.injEq] at hexec
  have hwritten : memRead t.mem (keyNode 0) = 0xAB := hexec ▸ failHub_performs_waiting_write
  rw [hmem, writeWaitsHubDeclared_mem] at hwritten
  exact absurd hwritten (by decide)

end Sys2Proof.Machine

namespace Sys2Proof.Machine

/-! ### Memory stays canonical through every step (R20 to R22, R206, R207, R268, R276, R292, R293)

Two operations write memory: `State.putBytes` and `State.zeroRange`; both keep the canonical form of log 4, and `State.reset` starts with it.
Every other function of the model reaches memory through them, so each has one lemma, in the order of the model's files: `f_mem` where the
function leaves memory as it was, `f_safe` where it may write. A composition, a branch or a loop keeps what its parts keep: a proof splits
into the function's branches and is given the lemmas about the functions it calls. Where a function is one update of another field its
`f_mem` is proved `by rfl` and not by the term `rfl`, so that `simp` uses it as a rewrite rule where it discharges a side condition. -/

/-- A state with the memory of a safe one is safe. -/
theorem State.safe_of_mem {s t : State} (h : t.mem = s.mem) (hs : s.safe) : t.safe := by
  rw [State.safe, h]
  exact hs

theorem State.ite_safe {p : Prop} [Decidable p] {s t : State} (hs : s.safe) (ht : t.safe) : (if p then s else t).safe := by
  split <;> assumption

/-- `State.safe` under a name of its own that is no abbreviation: the kernel compares two such statements by their states, where it would
otherwise evaluate the states. Loops over large blocks are proved with it. -/
def State.Canonical (s : State) : Prop := s.safe

theorem State.Canonical.ite {p : Prop} [Decidable p] {s t : State} (hs : s.safe) (ht : t.safe) : (if p then s else t).Canonical :=
  State.ite_safe hs ht

theorem State.Canonical.option {o : Option Nat} {s : State} {f : Nat → State} (hs : s.Canonical) (hf : ∀ a, (f a).Canonical) :
    (match o with | none => s | some a => f a).Canonical := by
  cases o with
  | none => exact hs
  | some a => exact hf a

/-- Stated for a pair written out, so that the kernel never unfolds the other component. -/
theorem State.pair_safe {α : Type} {s : State} (a : α) (h : s.safe) : (s, a).1.safe := h

@[simp] theorem State.ite_mem (p : Prop) [Decidable p] (s t : State) : (if p then s else t).mem = if p then s.mem else t.mem :=
  apply_ite State.mem p s t

@[simp] theorem State.ite_fst {α : Type} (p : Prop) [Decidable p] (a b : State × α) : (if p then a else b).1 = if p then a.1 else b.1 :=
  apply_ite Prod.fst p a b

/-! #### Loops -/

theorem foldl_inv {α β : Type} {P : β → Prop} {f : β → α → β} (hf : ∀ b x, P b → P (f b x)) {b : β} (hb : P b) (l : List α) :
    P (l.foldl f b) := by
  induction l generalizing b with
  | nil => exact hb
  | cons x l ih => exact ih (hf b x hb)

theorem State.foldl_safe {α : Type} {f : State → α → State} (hf : ∀ s x, s.safe → (f s x).safe) (l : List α) (s : State) (h : s.safe) :
    (l.foldl f s).safe :=
  foldl_inv hf h l

theorem State.foldl_fst_safe {α β : Type} {f : State × β → α → State × β} (hf : ∀ a x, a.1.safe → (f a x).1.safe) (l : List α)
    (a : State × β) (h : a.1.safe) : (l.foldl f a).1.safe :=
  foldl_inv (P := fun a : State × β => a.1.safe) hf h l

@[simp] theorem State.foldl_mem {α : Type} {f : State → α → State} (hf : ∀ s x, (f s x).mem = s.mem) (l : List α) (s : State) :
    (l.foldl f s).mem = s.mem :=
  foldl_inv (P := fun t => t.mem = s.mem) (fun t x ht => (hf t x).trans ht) rfl l

theorem State.foldl_fst_mem {α β : Type} {f : State × β → α → State × β} (hf : ∀ a x, (f a x).1.mem = a.1.mem) (l : List α)
    (a : State × β) : (l.foldl f a).1.mem = a.1.mem :=
  foldl_inv (P := fun b : State × β => b.1.mem = a.1.mem) (fun b x hb => (hf b x).trans hb) rfl l

/-! #### Operations that may have no result -/

/-- Where an operation has a result, its state is safe. -/
def OptSafe {α : Type} (r : Option (State × α)) : Prop := ∀ x, r = some x → x.1.safe

theorem OptSafe.some {α : Type} {s : State} {a : α} (h : s.safe) : OptSafe (Option.some (s, a)) := by
  rintro x ⟨⟩
  exact h

theorem OptSafe.none {α : Type} : OptSafe (Option.none : Option (State × α)) := by
  rintro x ⟨⟩

/-! ### Registers, signals and sessions -/

theorem State.putBytes_safe (s : State) (key : Nat) (bs : List Byte) (hsafe : s.safe) : (s.putBytes key bs).safe :=
  State.putBytes_wf s key bs hsafe

@[simp] theorem State.updSignal_mem (s : State) (i : Nat) (f : Signal → Signal) : (s.updSignal i f).mem = s.mem := by
  unfold State.updSignal
  grind [State.onTlr_mem]

@[simp] theorem State.updSession_mem (s : State) (i : Nat) (f : Session → Session) : (s.updSession i f).mem = s.mem := by
  unfold State.updSession
  grind [State.onSsn_mem]

/-! ### Job members (R253 to R259, R221, R266) -/

@[simp] theorem State.updJob_mem (s : State) (j : Nat) (f : StmJob → StmJob) : (s.updJob j f).mem = s.mem := by
  unfold State.updJob
  grind [State.onStm_mem]

@[simp] theorem State.publishJob_mem (s : State) (j : Nat) : (s.publishJob j).mem = s.mem := by
  unfold State.publishJob
  split <;> simp

@[simp] theorem State.dropStatement_mem (s : State) (j : Nat) : (s.dropStatement j).mem = s.mem := by
  unfold State.dropStatement
  grind [State.publishJob_mem, State.updJob_mem]

@[simp] theorem State.dropOpened_mem (s : State) (c startedAt : Nat) : (s.dropOpened c startedAt).mem = s.mem := by simp [State.dropOpened]

/-! ### Clerks (R35 to R56) -/

@[simp] theorem State.releaseHandle_mem (s : State) (h : Handle) : (s.releaseHandle h).mem = s.mem := by
  unfold State.releaseHandle
  grind [State.updSession_mem, State.updSignal_mem]

@[simp] theorem State.holdHandle_mem (s : State) (h : Handle) : (s.holdHandle h).mem = s.mem := by
  unfold State.holdHandle
  grind [State.updSession_mem, State.updSignal_mem]

@[simp] theorem State.setHandle_mem (s : State) (c i : Nat) (h : Handle) : (s.setHandle c i h).mem = s.mem := by simp [State.setHandle]

@[simp] theorem State.consumeSlot_mem (s : State) (c k : Nat) : (s.consumeSlot c k).mem = s.mem := by rfl

@[simp] theorem State.freeUnheldSignal_mem (s : State) (h : Handle) : (s.freeUnheldSignal h).mem = s.mem := by
  unfold State.freeUnheldSignal
  grind [State.updSession_mem, State.updSignal_mem]

@[simp] theorem State.orphanSlot_mem (s : State) (c k : Nat) : (s.orphanSlot c k).mem = s.mem := by
  unfold State.orphanSlot
  grind [State.consumeSlot_mem, State.count_mem, State.freeUnheldSignal_mem, State.setClerk_mem]

@[simp] theorem State.completeSlot_mem (s : State) (c k : Nat) (w0 w1 : Word) : (s.completeSlot c k w0 w1).mem = s.mem := by
  unfold State.completeSlot
  grind [State.orphanSlot_mem, State.setClerk_mem]

@[simp] theorem State.postResult_mem (s : State) (c k serial : Nat) (w0 w1 : Word) : (s.postResult c k serial w0 w1).mem = s.mem := by
  simp [State.postResult]

@[simp] theorem State.postCancel_mem (s : State) (c k cause : Nat) : (s.postCancel c k cause).mem = s.mem := by simp [State.postCancel]

@[simp] theorem State.trapRecord_mem (s : State) (c : Nat) (cls : TrapClass) (code : Nat) (pc : Word) (addr : Word) :
    (s.trapRecord c cls code pc addr).mem = s.mem := by
  rfl

@[simp] theorem State.trace_mem (s : State) (hub source ctx : Nat) (ctxValid : Bool) (inst value : Nat) :
    (s.trace hub source ctx ctxValid inst value).mem = s.mem := by
  simp [State.trace]

@[simp] theorem serveSignal_mem (ix fuel : Nat) (s : State) : (serveSignal ix fuel s).mem = s.mem := by
  induction fuel generalizing s with
  | zero => rfl
  | succ fuel ih =>
    unfold serveSignal
    grind [State.setClerk_mem, State.updSignal_mem]

@[simp] theorem State.leaveSignals_mem (s : State) (c : Nat) : (s.leaveSignals c).mem = s.mem := by
  unfold State.leaveSignals
  grind [State.updSignal_mem, serveSignal_mem]

@[simp] theorem State.endRun_mem (s : State) (c : Nat) (rec : RunRec) : (s.endRun c rec).mem = s.mem := by
  unfold State.endRun
  grind [State.dropOpened_mem, State.leaveSignals_mem, State.orphanSlot_mem, State.postCancel_mem, State.setClerk_mem, State.setHandle_mem,
    State.foldl_mem]

@[simp] theorem State.trap_mem (s : State) (c : Nat) (cls : TrapClass) (code : Nat) (pc addr : Word) :
    (s.trap c cls code pc addr).mem = s.mem := by
  unfold State.trap
  grind [State.endRun_mem, State.setClerk_mem, State.trace_mem, State.trapRecord_mem]

@[simp] theorem State.advance_mem (s : State) (c : Nat) : (s.advance c).mem = s.mem := by rfl

theorem State.onWord_safe (s : State) (c : Nat) (p : Ix → Bool) (k : Ix → State) (h : s.safe) (hk : ∀ ix, (k ix).safe) :
    (s.onWord c p k).safe := by
  unfold State.onWord
  grind [State.advance_mem]

@[simp] theorem State.retire_mem (s : State) (c : Nat) (cl : Clerk) : (s.retire c cl).mem = s.mem := by rfl

/-! ### Register accesses (R332, R333, R398) -/

@[simp] theorem State.countAccess_mem (s : State) (off cause : Nat) : (s.countAccess off cause).mem = s.mem := by simp [State.countAccess]

@[simp] theorem State.discardAccess_mem (s : State) (rq : Requester) (off cause : Nat) : (s.discardAccess rq off cause).mem = s.mem := by
  simp [State.discardAccess]

theorem State.woWrite_safe (s : State) (rq : Requester) (r : Reg) (i : Nat) (allowed : Bool) (low : Nat) (k : State → State) (h : s.safe)
    (hk : (k s).safe) :
    (s.woWrite rq r i allowed low k).safe := by
  unfold State.woWrite
  grind [State.discardAccess_mem]

@[simp] theorem State.rwWrite_mem (s : State) (r : Reg) (i : Nat) (v : Word) : (s.rwWrite r i v).mem = s.mem := by rfl

theorem State.cfgWrite_safe (s : State) (rq : Requester) (r : Reg) (i : Nat) (allowed : Bool) (k : State → State) (h : s.safe)
    (hk : (k s).safe) :
    (s.cfgWrite rq r i allowed k).safe := by
  unfold State.cfgWrite
  grind [State.discardAccess_mem]

@[simp] theorem State.retryAfter_mem (s : State) (n k : Nat) (ladder : List Nat) (t : Nat) : (s.retryAfter n k ladder t).1.mem = s.mem := by
  unfold State.retryAfter
  split <;> simp

@[simp] theorem State.unitServe_mem (s : State) (ty inst ctx : Nat) : (s.unitServe ty inst ctx).mem = s.mem := by
  unfold State.unitServe
  split <;> simp

/-! ### Memory under its codes (R20 to R22) -/

@[simp] theorem State.poisonLine_mem (s : State) (cw : Nat) : (s.poisonLine cw).mem = s.mem := by rfl

theorem State.scramble_safe (s : State) (cw : Nat) (hsafe : s.safe) : (s.scramble cw).safe := by
  unfold State.scramble
  grind [State.bump_mem, State.putBytes_safe]

theorem State.readCw_safe (s : State) (cw : Nat) (hsafe : s.safe) : (s.readCw cw).1.safe := by
  unfold State.readCw
  grind [State.bump_mem, State.poisonLine_mem, State.scramble_safe]

theorem State.readCws_safe (s : State) (l : List Nat) (h : s.safe) : (s.readCws l).1.safe := by
  induction l generalizing s with
  | nil => exact h
  | cons c l ih =>
    unfold State.readCws
    grind [State.readCw_safe]

theorem State.readMem_safe (s : State) (key n : Nat) (hsafe : s.safe) : (s.readMem key n).1.safe := by
  unfold State.readMem
  grind [State.readCws_safe]

@[simp] theorem State.mendCw_mem (s : State) (cw : Nat) : (s.mendCw cw).mem = s.mem := by rfl

theorem State.writeMem_safe (s : State) (key : Nat) (bs : List Byte) (hsafe : s.safe) : (s.writeMem key bs).1.safe := by
  unfold State.writeMem
  grind [State.mendCw_mem, State.putBytes_safe, State.readCws_safe, State.foldl_safe, State.foldl_mem]

theorem State.zeroRange_safe (s : State) (lo hi : Nat) (hsafe : s.safe) : (s.zeroRange lo hi).safe := State.zeroRange_wf s lo hi hsafe

/-! ### The data part of LD, ST and AMO (R206) -/

@[simp] theorem State.memTrap_mem (s : State) (ix : Ix) (stack : Bool) (st : Status) : (s.memTrap ix stack st).mem = s.mem := by
  simp [State.memTrap]

theorem State.clerkMem_safe (s : State) (ix : Ix) (key : Nat) (stack : Bool) (hsafe : s.safe) : (s.clerkMem ix key stack).safe := by
  unfold State.clerkMem
  grind [State.memTrap_mem, State.readMem_safe, State.retire_mem, State.writeMem_safe]

theorem State.wakeMem_safe (s : State) (c key : Nat) (hsafe : s.safe) : (s.wakeMem c key).safe := by
  unfold State.wakeMem
  grind [State.clerkMem_safe, State.setClerk_mem]

/-! ### Node, fabric and Sinil ports -/

@[simp] theorem State.setPort_mem (s : State) (p : Nat) (x : Port) : (s.setPort p x).mem = s.mem := by rfl

@[simp] theorem State.updPort_mem (s : State) (p : Nat) (f : Port → Port) : (s.updPort p f).mem = s.mem := by
  unfold State.updPort
  grind [State.setPort_mem]

@[simp] theorem State.portTo_mem (s : State) (p st : Nat) : (s.portTo p st).mem = s.mem := by
  unfold State.portTo
  grind [State.setFld_mem, State.trace_mem, State.updPort_mem]

@[simp] theorem State.refusePort_mem (s : State) (p reason : Nat) : (s.refusePort p reason).mem = s.mem := by
  unfold State.refusePort
  grind [State.portTo_mem, State.raise_mem, State.setFld_mem, State.updPort_mem]

@[simp] theorem State.toRetrain_mem (s : State) (p : Nat) (rekeys : Bool) : (s.toRetrain p rekeys).mem = s.mem := by
  unfold State.toRetrain
  grind [State.portTo_mem, State.updPort_mem]

@[simp] theorem State.dropFrames_mem (s : State) (p : Nat) : (s.dropFrames p).mem = s.mem := by
  unfold State.dropFrames
  grind [State.updPort_mem, State.wr_mem, State.foldl_mem]

@[simp] theorem State.portDown_mem (s : State) (p : Nat) : (s.portDown p).mem = s.mem := by
  unfold State.portDown
  grind [State.dropFrames_mem, State.portTo_mem, State.updPort_mem]

@[simp] theorem State.setEpochs_mem (s : State) (p tx rx : Nat) : (s.setEpochs p tx rx).mem = s.mem := by rfl

@[simp] theorem State.freshKeys_mem (s : State) (p : Nat) : (s.freshKeys p).mem = s.mem := by rfl

@[simp] theorem State.rekeyPort_mem (s : State) (p : Nat) : (s.rekeyPort p).mem = s.mem := by
  unfold State.rekeyPort
  grind [State.send_mem, State.updPort_mem]

@[simp] theorem State.sendAck_mem (s : State) (p : Nat) : (s.sendAck p).mem = s.mem := by rfl

@[simp] theorem State.enqueue_mem (s : State) (p cls conn n : Nat) : (s.enqueue p cls conn n).mem = s.mem := by simp [State.enqueue]

@[simp] theorem State.sendOn_mem (s : State) (p cls conn n : Nat) (o : Out) : (s.sendOn p cls conn n o).mem = s.mem := by
  simp [State.sendOn]

@[simp] theorem State.growCredit_mem (s : State) (p : Nat) : (s.growCredit p).mem = s.mem := by
  unfold State.growCredit
  grind [State.updPort_mem, State.wr_mem, State.foldl_mem]

@[simp] theorem State.sendCell_mem (s : State) (p q : Nat) (moved : Bool) : (s.sendCell p q moved).mem = s.mem := by
  unfold State.sendCell
  split <;> simp

@[simp] theorem State.sampleDepth_mem (s : State) (p q : Nat) : (s.sampleDepth p q).mem = s.mem := by rfl

@[simp] theorem State.gateRefuse_mem (s : State) (p : Nat) : (s.gateRefuse p).mem = s.mem := by simp [State.gateRefuse]

@[simp] theorem State.countAuthFail_mem (s : State) (p : Nat) : (s.countAuthFail p).mem = s.mem := by rfl

@[simp] theorem State.freeRx_mem (s : State) (p q len : Nat) : (s.freeRx p q len).mem = s.mem := by rfl

@[simp] theorem State.police_mem (s : State) (p conn len : Nat) : (s.police p conn len).1.mem = s.mem := by
  unfold State.police
  (repeat' split) <;> simp

@[simp] theorem State.takePayload_mem (s : State) (p : Nat) (h : FrameHdr) (payload : List Byte) :
    (s.takePayload p h payload).mem = s.mem := by
  unfold State.takePayload
  grind [State.send_mem, State.updPort_mem]

/-! ### Contexts, keys and MRAM (R329 to R352) -/

@[simp] theorem State.mramWrite_mem (s : State) (f : Mram → Mram) : (s.mramWrite f).mem = s.mem := by
  unfold State.mramWrite
  grind [State.onSec_mem, State.foldl_mem]

@[simp] theorem State.refreshId_mem (s : State) : s.refreshId.mem = s.mem := by rfl

@[simp] theorem State.xmssSign_mem (s : State) : s.xmssSign.1.mem = s.mem := by
  unfold State.xmssSign
  grind [State.mramWrite_mem, State.onSec_mem, State.raise_mem, State.refreshId_mem, State.wr_mem]

@[simp] theorem State.publishCtx_mem (s : State) (n : Nat) (r : CtxRec) : (s.publishCtx n r).mem = s.mem := by rfl

@[simp] theorem State.saveCtx_mem (s : State) (n : Nat) (c : Ctx) : (s.saveCtx n c).mem = s.mem := by
  unfold State.saveCtx
  grind [State.mramWrite_mem, State.onSec_mem, State.publishCtx_mem]

@[simp] theorem State.freeCtx_mem (s : State) (n : Nat) : (s.freeCtx n).mem = s.mem := by
  unfold State.freeCtx
  grind [State.mramWrite_mem, State.onSec_mem, State.wr_mem]

@[simp] theorem State.ctxStatus_mem (s : State) (index reason st : Nat) : (s.ctxStatus index reason st).mem = s.mem := by rfl

@[simp] theorem State.endTrial_mem (s : State) : s.endTrial.mem = s.mem := by
  unfold State.endTrial
  grind [State.mramWrite_mem, State.raise_mem, State.setFld_mem]

@[simp] theorem State.setSpdm_mem (s : State) (t : SpdmPath) (x : Spdm) : (s.setSpdm t x).mem = s.mem := by rfl

@[simp] theorem State.spdmError_mem (s : State) (t : SpdmPath) : (s.spdmError t).mem = s.mem := by rfl

theorem State.spdmReq_safe (s : State) (t : SpdmPath) (ready : Spdm → Bool) (k : Spdm → State → State) (h : s.safe)
    (hk : (k (s.spdm t) s).safe) :
    (s.spdmReq t ready k).safe := by
  unfold State.spdmReq
  grind [State.spdmError_mem]

@[simp] theorem State.tdiError_mem (s : State) (n : Nat) : (s.tdiError n).mem = s.mem := by simp [State.tdiError]

/-! ### The flash pool -/

@[simp] theorem State.setSb_mem (s : State) (i : Nat) (x : Sb) : (s.setSb i x).mem = s.mem := by
  unfold State.setSb
  grind [State.onFls_mem, State.setFld_mem, State.wr_mem]

@[simp] theorem State.refreshUrgent_mem (s : State) : s.refreshUrgent.mem = s.mem := by simp [State.refreshUrgent]

@[simp] theorem State.flsFormat_mem (s : State) : s.flsFormat.mem = s.mem := by
  unfold State.flsFormat
  grind [State.onFls_mem, State.wr_mem]

@[simp] theorem State.setDirty_mem (s : State) (src : DirtySrc) (n : Nat) : (s.setDirty src n).mem = s.mem := by simp [State.setDirty]

@[simp] theorem State.addDirty_mem (s : State) (src : DirtySrc) (n : Nat) : (s.addDirty src n).mem = s.mem := by simp [State.addDirty]

@[simp] theorem State.refreshBudget_mem (s : State) : s.refreshBudget.mem = s.mem := by simp [State.refreshBudget]

@[simp] theorem State.setEntry_mem (s : State) (u : Nat) (e : Option MapEnt) : (s.setEntry u e).mem = s.mem := by
  unfold State.setEntry
  grind [State.onFls_mem, State.setSb_mem, State.wr_mem]

@[simp] theorem State.journal_mem (s : State) (h : Nat) (r : JRec) : (s.journal h r).mem = s.mem := by simp [State.journal]

@[simp] theorem State.journalled_mem (s : State) (n : Nat) : (s.journalled n).mem = s.mem := by rfl

@[simp] theorem State.placeUnit_mem (s : State) (slc : Bool) (x : Nat) (spread : Bool) (chan : Option Nat) (chans : List Nat) :
    (s.placeUnit slc x spread chan chans).1.mem = s.mem := by
  unfold State.placeUnit
  (repeat' split) <;> simp

@[simp] theorem State.newExtent_mem (s : State) (owner : Option Nat) (n : Nat) (spread : Bool) (chan : Option Nat) :
    (s.newExtent owner n spread chan).1.mem = s.mem := by
  simp [State.newExtent]

@[simp] theorem State.poolTo_mem (s : State) (st : Nat) : (s.poolTo st).mem = s.mem := by simp [State.poolTo]

@[simp] theorem State.closePool_mem (s : State) : s.closePool.mem = s.mem := by simp [State.closePool]

@[simp] theorem State.reopenPool_mem (s : State) : s.reopenPool.mem = s.mem := by simp [State.reopenPool]

@[simp] theorem State.shrinkAdv_mem (s : State) (n : Nat) : (s.shrinkAdv n).mem = s.mem := by simp [State.shrinkAdv]

@[simp] theorem State.flashPut_mem (s : State) (own : FlashOwner) (x first : Nat) (data : List (List Byte)) (till : Bool) :
    (s.flashPut own x first data till).1.mem = s.mem := by
  unfold State.flashPut
  split <;> simp

@[simp] theorem State.programWrite_mem (s : State) (w : FlashWr) (e : Extent) : (s.programWrite w e).mem = s.mem := by
  unfold State.programWrite
  grind [State.count_mem, State.journalled_mem, State.onFls_mem, State.placeUnit_mem, State.raise_mem, State.setEntry_mem, State.foldl_mem]

@[simp] theorem State.flashProgramDone_mem (s : State) (id : Nat) : (s.flashProgramDone id).1.mem = s.mem := by
  unfold State.flashProgramDone
  grind [State.onFls_mem, State.programWrite_mem, State.refreshUrgent_mem, State.send_mem]

@[simp] theorem State.journalOut_mem (s : State) (h : Nat) : (s.journalOut h).mem = s.mem := by
  unfold State.journalOut
  split <;> simp

@[simp] theorem State.checkpoint_mem (s : State) : s.checkpoint.mem = s.mem := by simp [State.checkpoint]

@[simp] theorem State.publishLost_mem (s : State) : s.publishLost.mem = s.mem := by rfl

@[simp] theorem State.loseSketch_mem (s : State) (u : Nat) : (s.loseSketch u).mem = s.mem := by
  unfold State.loseSketch
  (repeat' split) <;> simp

@[simp] theorem State.loseUnit_mem (s : State) (u : Nat) : (s.loseUnit u).mem = s.mem := by
  unfold State.loseUnit
  split <;> simp

@[simp] theorem State.relocate_mem (s : State) (u : Nat) (slc : Bool) : (s.relocate u slc).mem = s.mem := by
  unfold State.relocate
  grind [State.journalled_mem, State.placeUnit_mem, State.setEntry_mem]

@[simp] theorem State.eraseSb_mem (s : State) (i : Nat) : (s.eraseSb i).mem = s.mem := by simp [State.eraseSb]

@[simp] theorem State.refreshSb_mem (s : State) (i : Nat) (slc : Bool) : (s.refreshSb i slc).mem = s.mem := by simp [State.refreshSb]

@[simp] theorem State.countRebuild_mem (s : State) : s.countRebuild.mem = s.mem := by rfl

@[simp] theorem State.recordFolded_mem (s : State) (us : List Nat) : (s.recordFolded us).mem = s.mem := by rfl

@[simp] theorem State.publishReserve_mem (s : State) (ch : Nat) : (s.publishReserve ch).mem = s.mem := by rfl

@[simp] theorem State.discardUnits_mem (s : State) (us : List Nat) : (s.discardUnits us).mem = s.mem := by
  unfold State.discardUnits
  grind [State.journal_mem, State.onFls_mem, State.reopenPool_mem, State.setEntry_mem, State.foldl_mem]

@[simp] theorem State.finishSdisc_mem (s : State) : s.finishSdisc.mem = s.mem := by simp [State.finishSdisc]

@[simp] theorem State.secureDiscard_mem (s : State) (xs : List Nat) : (s.secureDiscard xs).mem = s.mem := by
  unfold State.secureDiscard
  grind [State.checkpoint_mem, State.discardUnits_mem, State.finishSdisc_mem, State.onFls_mem, State.send_mem, State.wr_mem,
    State.foldl_mem]

/-! ### The KV page pool (R68, R79, R80) -/

@[simp] theorem State.pgMoveN_mem (s : State) (m : Nat) (a b : PgCount) (n : Nat) : (s.pgMoveN m a b n).mem = s.mem := by
  simp [State.pgMoveN]

@[simp] theorem State.pgMove_mem (s : State) (m : Nat) (a b : PgCount) : (s.pgMove m a b).mem = s.mem := by simp [State.pgMove]

theorem State.takeFrame_safe (s : State) (m : Nat) (c : PgCount) (hsafe : s.safe) : (s.takeFrame m c).1.safe := by
  unfold State.takeFrame
  grind [State.onSsn_mem, State.pgMove_mem, State.raise_mem, State.zeroRange_safe]

/-- By the function's equation, for every argument at once: the kernel compares the two functions without evaluating either. -/
theorem State.allocPage_eq : State.allocPage = fun s ctx i l b c =>
    match s.pickStack ctx i l b with
    | none => (s, none)
    | some m => let r := s.takeFrame m c; (r.1, some r.2) := by
  rfl

/-- What holds where no stack has room, and where a stack gives a frame, holds of what a placement answers. -/
theorem State.allocPage_induction {P : State × Option (Nat × Nat) → Prop} (s : State) (ctx i l b : Nat) (c : PgCount) (hnone : P (s, none))
    (hsome : ∀ m, P ((s.takeFrame m c).1, some (s.takeFrame m c).2)) : P (s.allocPage ctx i l b c) := by
  rw [State.allocPage_eq]
  beta_reduce
  cases s.pickStack ctx i l b with
  | none => exact hnone
  | some m => exact hsome m

theorem State.allocPage_safe (s : State) (ctx i l b : Nat) (c : PgCount) (hsafe : s.safe) : (s.allocPage ctx i l b c).1.safe := by
  refine State.allocPage_induction (P := fun r => r.1.safe) s ctx i l b c ?_ fun m => ?_
  · exact State.pair_safe _ hsafe
  · exact State.pair_safe _ (State.takeFrame_safe s m c hsafe)

@[simp] theorem State.freeFrame_mem (s : State) (m f : Nat) (c : PgCount) : (s.freeFrame m f c).mem = s.mem := by simp [State.freeFrame]

theorem State.allocMany_safe (s : State) (ctx i l n : Nat) (c : PgCount) (hsafe : s.safe) : (s.allocMany ctx i l n c).1.safe := by
  unfold State.allocMany
  extract_lets r
  have hr : r.1.safe := by
    refine State.foldl_fst_safe (fun a b ha => ?_) _ _ hsafe
    have hp := State.allocPage_safe a.1 ctx i l b c ha
    cases a.2.1 with
    | none => exact ha
    | some got =>
      generalize a.1.allocPage ctx i l b c = p at hp ⊢
      obtain ⟨t, page⟩ := p
      cases page with
      | none => exact State.pair_safe _ hp
      | some f => exact State.pair_safe _ hp
  clear_value r
  cases r.2.1 with
  | none => exact State.pair_safe _ (by simpa [State.safe] using hr)
  | some l => exact State.pair_safe _ hr

@[simp] theorem State.handOver_mem (s : State) (n : Nat) : (s.handOver n).mem = s.mem := by
  unfold State.handOver
  grind [State.onSsn_mem, State.wr_mem, State.foldl_mem, State.foldl_fst_mem]

@[simp] theorem State.handBack_mem (s : State) (n : Nat) : (s.handBack n).mem = s.mem := by simp [State.handBack]

@[simp] theorem State.markPages_mem (s : State) (i : Nat) (p : KvPage → Bool) (u : PgUse) : (s.markPages i p u).mem = s.mem := by
  unfold State.markPages
  grind [State.pgMove_mem, State.updSession_mem, State.foldl_mem]

@[simp] theorem State.dropPages_mem (s : State) (i : Nat) (p : KvPage → Bool) : (s.dropPages i p).mem = s.mem := by
  unfold State.dropPages
  grind [State.freeFrame_mem, State.updSession_mem, State.foldl_mem]

theorem State.addPage_safe (s : State) (i kind layer b : Nat) (u : PgUse) (hsafe : s.safe) : (s.addPage i kind layer b u).1.safe := by
  unfold State.addPage
  grind [State.takeFrame_safe, State.updSession_mem]

theorem State.addPages_safe (s : State) (i : Nat) (ps : List (Nat × Nat × Nat)) (u : PgUse) (hsafe : s.safe) :
    (s.addPages i ps u).1.safe := by
  induction ps generalizing s with
  | nil => exact hsafe
  | cons p l ih =>
    unfold State.addPages
    have hp := State.addPage_safe s i p.1 p.2.1 p.2.2 u hsafe
    dsimp only
    split
    · split
      · exact ih _ hp
      · simpa [State.safe] using ih _ hp
    · exact hp

/-! ### Which memory an offset names (R41, R42, R63, R424) -/

@[simp] theorem State.sendCfPage_mem (s : State) (j page : Nat) (data : List Byte) : (s.sendCfPage j page data).mem = s.mem := by
  unfold State.sendCfPage
  split <;> simp

theorem State.copyPage_safe (s : State) (j h k : Nat) (hsafe : s.safe) : (s.copyPage j h k).safe := by
  unfold State.copyPage
  split
  · exact hsafe
  · split
    · split
      · exact hsafe
      · split
        · exact hsafe
        · split
          · exact hsafe
          · rename_i sh _ _ p m f _
            extract_lets r data s' sh' bad v' s'' s3
            have hr : r.1.safe := by
              grind [State.readMem_safe]
            have hw : s'.safe := State.writeMem_safe _ _ _ hr
            have h3 : s3.safe := by simpa [s3, s'', State.safe] using hw
            split
            · exact h3
            · simpa [State.safe] using h3
    · exact hsafe

theorem State.copyFirst_safe (s : State) (key n : Nat) (hsafe : s.safe) : (s.copyFirst key n).safe := by
  unfold State.copyFirst
  extract_lets ps
  exact State.ite_safe hsafe
    (State.foldl_safe (fun t p ht => State.copyPage_safe t _ _ _ ht) ps _ (State.safe_of_mem (State.count_mem s _ _ _) hsafe))

theorem State.readPriv_safe (s : State) (c n a len : Nat) (h : s.safe) : OptSafe (s.readPriv c n a len) := by
  unfold State.readPriv
  refine foldl_inv (fun r x hr => ?_) (OptSafe.some h) _
  grind [State.readMem_safe, OptSafe]

theorem State.writePriv_safe (s : State) (c n a : Nat) (bs : List Byte) (h : s.safe) : OptSafe (s.writePriv c n a bs) := by
  unfold State.writePriv
  split
  · refine foldl_inv (fun r x hr => ?_) (OptSafe.some h) _
    grind [State.writeMem_safe, State.copyFirst_safe, OptSafe]
  · exact OptSafe.none

/-! ### The node shared window (R268 to R291) -/

@[simp] theorem State.regionStatus_mem (s : State) (st reason ix : Nat) : (s.regionStatus st reason ix).mem = s.mem := by rfl

theorem State.addRegion_safe (s : State) (i : Nat) (r : Region) (hsafe : s.safe) : (s.addRegion i r).safe := by
  unfold State.addRegion
  grind [State.onNmc_mem, State.wr_mem, State.zeroRange_safe]

@[simp] theorem State.countXfer_mem (s : State) (a rd wr : Nat) : (s.countXfer a rd wr).mem = s.mem := by rfl

@[simp] theorem State.mrs_mem (s : State) (p tag hold status : Nat) (data : List Byte) : (s.mrs p tag hold status data).mem = s.mem := by
  simp [State.mrs]

@[simp] theorem State.nmcRefuse_mem (s : State) (q : NReq) : (s.nmcRefuse q).mem = s.mem := by
  unfold State.nmcRefuse
  grind [State.mrs_mem, State.raise_mem, State.send_mem, State.setClerk_mem, State.trap_mem]

theorem State.writeMasked_safe (s : State) (key mask : Nat) (data : List Byte) (hsafe : s.safe) : (s.writeMasked key mask data).1.safe := by
  unfold State.writeMasked
  grind [State.putBytes_safe, State.readCw_safe, State.writeMem_safe]

@[simp] theorem State.setDir_mem (s : State) (line : Nat) (e : DirEnt) : (s.setDir line e).mem = s.mem := by rfl

@[simp] theorem State.sendRecall_mem (s : State) (line a : Nat) (downgrade : Bool) : (s.sendRecall line a downgrade).mem = s.mem := by
  simp [State.sendRecall]

@[simp] theorem State.recallFrom_mem (s : State) (line : Nat) (as_ : List Nat) (downgrade : Bool) :
    (s.recallFrom line as_ downgrade).mem = s.mem := by
  simp [State.recallFrom]

@[simp] theorem State.park_mem (s : State) (line : Nat) (q : NReq) : (s.park line q).mem = s.mem := by rfl

@[simp] theorem State.dirAfter_mem (s : State) (q : NReq) (granted : Bool) : (s.dirAfter q granted).mem = s.mem := by
  unfold State.dirAfter
  grind [State.onNmc_mem, State.setDir_mem]

@[simp] theorem State.holdWrite_mem (s : State) (page : Nat) (w : HoldWho) : (s.holdWrite page w).mem = s.mem := by rfl

theorem State.nmcDo_safe (s : State) (q : NReq) (hsafe : s.safe) : (s.nmcDo q).safe := by
  unfold State.nmcDo
  grind [State.countXfer_mem, State.dirAfter_mem, State.mrs_mem, State.readMem_safe, State.send_mem, State.wakeMem_safe,
    State.writeMasked_safe, State.writeMem_safe]

theorem State.nmcPerform_safe (s : State) (q : NReq) (hsafe : s.safe) : (s.nmcPerform q).safe := by
  unfold State.nmcPerform
  grind [State.holdWrite_mem, State.nmcDo_safe]

@[simp] theorem State.resolvePx_mem (s : State) (line : Nat) : (s.resolvePx line).mem = s.mem := by
  unfold State.resolvePx
  split <;> simp

@[simp] theorem State.touch_mem (s : State) (off : Nat) : (s.touch off).mem = s.mem := by
  unfold State.touch
  split <;> simp

theorem State.nmcServe_safe (s : State) (q : NReq) (hsafe : s.safe) : (s.nmcServe q).safe := by
  unfold State.nmcServe
  split
  · exact State.safe_of_mem (State.nmcRefuse_mem s q) hsafe
  · extract_lets t gran line u
    have ht : t.safe := State.safe_of_mem (State.touch_mem s q.off) hsafe
    clear_value t gran
    split
    · exact ht
    · split
      · exact State.safe_of_mem (State.onNmc_mem t _) ht
      · split
        · exact State.safe_of_mem (State.park_mem t _ q) ht
        · have hu : u.safe := State.safe_of_mem (State.resolvePx_mem t line) ht
          split
          · exact State.nmcPerform_safe u q hu
          · simpa [State.safe] using hu
          · grind [State.park_mem, State.recallFrom_mem, State.raise_mem]

@[simp] theorem State.endRegion_mem (s : State) (i : Nat) : (s.endRegion i).mem = s.mem := by
  unfold State.endRegion
  split <;> simp

@[simp] theorem State.endRegions_mem (s : State) : s.endRegions.mem = s.mem := by simp [State.endRegions]

theorem State.dirResume_safe (s : State) (line : Nat) (hsafe : s.safe) : (s.dirResume line).safe := by
  unfold State.dirResume
  grind [State.endRegions_mem, State.nmcServe_safe, State.onNmc_mem, State.setDir_mem, State.foldl_safe, State.foldl_mem]

theorem State.deleteRegion_safe (s : State) (i : Nat) (hsafe : s.safe) : (s.deleteRegion i).safe := by
  unfold State.deleteRegion
  grind [State.endRegion_mem, State.nmcServe_safe, State.onNmc_mem, State.recallFrom_mem, State.foldl_safe, State.foldl_mem]

@[simp] theorem State.takeBucket_mem (s : State) (a : Nat) (q : NReq) : (s.takeBucket a q).mem = s.mem := by rfl

theorem State.takeIn_safe (s : State) (q : NReq) (hsafe : s.safe) : (s.takeIn q).safe := by
  unfold State.takeIn
  grind [State.nmcServe_safe, State.onNmc_mem]

theorem drainOrdered_safe (fuel : Nat) (s : State) (h : s.safe) : (drainOrdered fuel s).safe := by
  induction fuel generalizing s with
  | zero => exact h
  | succ fuel ih =>
    unfold drainOrdered
    grind [State.onNmc_mem, State.nmcServe_safe]

@[simp] theorem State.addShard_mem (s : State) (j : Nat) (r : Rcpt) (h : Shard) : (s.addShard j r h).mem = s.mem := by
  unfold State.addShard
  grind [State.postResult_mem, State.publishJob_mem, State.updJob_mem]

@[simp] theorem State.settleAdds_mem (s : State) : s.settleAdds.mem = s.mem := by
  unfold State.settleAdds
  grind [State.addShard_mem, State.recallFrom_mem, State.resolvePx_mem, State.foldl_mem]

theorem State.settleNmc_safe (s : State) (hsafe : s.safe) : s.settleNmc.safe := by
  unfold State.settleNmc
  grind [State.settleAdds_mem, drainOrdered_safe]

theorem State.arrive_safe (s : State) (a : Nat) (src : NSrc) (op : NOp) (off : Nat) (ordered : Bool) (hsafe : s.safe) :
    (s.arrive a src op off ordered).safe := by
  unfold State.arrive
  grind [State.onNmc_mem, State.setFld_mem, State.settleNmc_safe, State.takeBucket_mem, State.takeIn_safe]

theorem State.answerRecall_safe (s : State) (line a : Nat) (data : Option (List Byte)) (keep : Bool) (hsafe : s.safe) :
    (s.answerRecall line a data keep).safe := by
  unfold State.answerRecall
  grind [State.dirResume_safe, State.onNmc_mem, State.setDir_mem, State.settleNmc_safe, State.wr_mem, State.writeMem_safe]

theorem State.portReq_safe (s : State) (p ty : Nat) (w0 w1 : Word) (op : NOp) (hsafe : s.safe) : (s.portReq p ty w0 w1 op).safe := by
  unfold State.portReq
  grind [State.arrive_safe, State.onNmc_mem, State.sendOn_mem]

theorem State.clerkNode_safe (s : State) (ix : Ix) (off : Nat) (hsafe : s.safe) : (s.clerkNode ix off).safe := by
  unfold State.clerkNode
  grind [State.nmcServe_safe, State.onNmc_mem, State.setClerk_mem, State.settleNmc_safe]

theorem State.failAgent_safe (s : State) (a : Nat) (hsafe : s.safe) : (s.failAgent a).safe := by
  unfold State.failAgent
  grind [State.count_mem, State.dirResume_safe, State.onNmc_mem, State.raise_mem, State.setFld_mem, State.settleNmc_safe, State.foldl_safe,
    State.foldl_mem]

theorem State.granuleParked_safe (s : State) (region g extent : Nat) (hsafe : s.safe) : (s.granuleParked region g extent).safe := by
  unfold State.granuleParked
  grind [State.onNmc_mem, State.zeroRange_safe]

/-! ### The domain fabric (R292 to R305) -/

@[simp] theorem State.publishDfb_mem (s : State) : s.publishDfb.mem = s.mem := by
  unfold State.publishDfb
  grind [State.setFld_mem, State.wr_mem, State.foldl_mem]

@[simp] theorem State.appendLog_mem (s : State) (c : MapChange) : (s.appendLog c).mem = s.mem := by rfl

@[simp] theorem State.escDone_mem (s : State) (key status word1 : Nat) : (s.escDone key status word1).mem = s.mem := by
  unfold State.escDone
  split <;> simp

@[simp] theorem State.leaderTake_mem (s : State) (c : MapChange) : (s.leaderTake c).mem = s.mem := by
  unfold State.leaderTake
  grind [State.appendLog_mem, State.escDone_mem, State.send_mem]

@[simp] theorem State.propose_mem (s : State) (c : MapChange) : (s.propose c).mem = s.mem := by simp [State.propose]

@[simp] theorem State.escGo_mem (s : State) (x : EscWait) : (s.escGo x).mem = s.mem := by
  unfold State.escGo
  grind [State.escDone_mem, State.leaderTake_mem, State.onDfb_mem, State.propose_mem]

@[simp] theorem State.storesDone_mem (s : State) (c : Nat) : (s.storesDone c).mem = s.mem := by simp [State.storesDone]

@[simp] theorem State.domClerk_mem (s : State) (serial : Nat) (r : DomReq) (status : Nat) (data : List Byte) :
    (s.domClerk serial r status data).mem = s.mem := by
  unfold State.domClerk
  grind [State.leaveSignals_mem, State.retire_mem, State.setClerk_mem, State.trap_mem]

@[simp] theorem State.domAnswer_mem (s : State) (requester serial status : Nat) (data : List Byte) :
    (s.domAnswer requester serial status data).mem = s.mem := by
  simp [State.domAnswer]

@[simp] theorem State.backFrame_mem (s : State) (off : Nat) : (s.backFrame off).1.mem = s.mem := by simp [State.backFrame]

theorem State.rebuildLine_safe (s : State) (key line : Nat) (hsafe : s.safe) : (s.rebuildLine key line).safe := by
  unfold State.rebuildLine
  grind [State.onDfb_mem, State.scramble_safe]

@[simp] theorem State.homeUpdates_mem (s : State) (h : DHdr) (r : DomRegion) (k mask : Nat) (old new : List Byte) (res : List Byte) :
    (s.homeUpdates h r k mask old new res).mem = s.mem := by
  simp [State.homeUpdates]

theorem State.homeDo_safe (s : State) (h : DHdr) (b : DBody) (k : Nat) (r : DomRegion) (hsafe : s.safe) : (s.homeDo h b k r).safe := by
  unfold State.homeDo
  grind [State.backFrame_mem, State.domAnswer_mem, State.homeUpdates_mem, State.onDfb_mem, State.readMem_safe, State.rebuildLine_safe,
    State.writeMasked_safe, State.writeMem_safe]

theorem State.homeServe_safe (s : State) (h : DHdr) (b : DBody) (hsafe : s.safe) : (s.homeServe h b).safe := by
  unfold State.homeServe
  grind [State.count_mem, State.domAnswer_mem, State.homeDo_safe, State.sendOn_mem]

theorem State.homeTake_safe (s : State) (h : DHdr) (b : DBody) (hsafe : s.safe) : (s.homeTake h b).safe := by
  unfold State.homeTake
  grind [State.homeServe_safe, State.onDfb_mem]

theorem State.domSend_safe (s : State) (serial : Nat) (hsafe : s.safe) : (s.domSend serial).safe := by
  unfold State.domSend
  grind [State.homeTake_safe, State.onDfb_mem, State.sendOn_mem]

theorem State.domResend_safe (s : State) (serial : Nat) (hsafe : s.safe) : (s.domResend serial).safe := by
  unfold State.domResend
  grind [State.count_mem, State.domSend_safe, State.onDfb_mem]

theorem State.domFinish_safe (s : State) (serial status : Nat) (data : List Byte) (hsafe : s.safe) :
    (s.domFinish serial status data).safe := by
  unfold State.domFinish
  grind [State.domClerk_mem, State.domSend_safe, State.onDfb_mem, State.storesDone_mem, State.foldl_safe, State.foldl_mem]

theorem State.domReply_safe (s : State) (serial epoch status : Nat) (data : List Byte) (hsafe : s.safe) :
    (s.domReply serial epoch status data).safe := by
  unfold State.domReply
  grind [State.domFinish_safe, State.domSend_safe, State.onDfb_mem]

theorem drainAnswers_safe (fuel : Nat) (s : State) (h : s.safe) : (drainAnswers fuel s).safe := by
  induction fuel generalizing s with
  | zero => exact h
  | succ fuel ih =>
    unfold drainAnswers
    grind [State.onDfb_mem, State.domReply_safe]

theorem State.settleDom_safe (s : State) (hsafe : s.safe) : s.settleDom.safe := by
  unfold State.settleDom
  grind [drainAnswers_safe]

theorem State.domIssue_safe (s : State) (ix : Ix) (kind off : Nat) (tenant : Word) (hsafe : s.safe) :
    (s.domIssue ix kind off tenant).safe := by
  unfold State.domIssue
  grind [State.domSend_safe, State.onDfb_mem, State.retire_mem, State.setClerk_mem, State.settleDom_safe]

theorem State.releaseHeld_safe (s : State) (hsafe : s.safe) : s.releaseHeld.safe := by
  unfold State.releaseHeld
  grind [State.domResend_safe, State.domSend_safe, State.escGo_mem, State.onDfb_mem, State.settleDom_safe, State.foldl_safe,
    State.foldl_mem]

@[simp] theorem State.domRegionStatus_mem (s : State) (st reason ix : Nat) : (s.domRegionStatus st reason ix).mem = s.mem := by rfl

theorem State.promoteCopies_safe (s : State) (k : Nat) (hsafe : s.safe) : (s.promoteCopies k).safe := by
  unfold State.promoteCopies
  grind [State.putBytes_safe, State.foldl_safe, State.foldl_mem]

theorem State.writeVersion_safe (s : State) (i : Nat) (hsafe : s.safe) : (s.writeVersion i).safe := by
  unfold State.writeVersion
  grind [State.backFrame_mem, State.writeMem_safe]

theorem State.afterRemoval_safe (s : State) (old : DomMap) (hsafe : s.safe) : (s.afterRemoval old).safe := by
  unfold State.afterRemoval
  grind [State.onDfb_mem, State.promoteCopies_safe, State.raise_mem, State.foldl_safe, State.foldl_mem]

theorem State.adoptMap_safe (s : State) (epoch : Nat) (c : MapChange) (hsafe : s.safe) : (s.adoptMap epoch c).safe := by
  unfold State.adoptMap
  extract_lets old new s1 changed away mine s2 s3 s4 s5 s6 s7 ready s8 s9 es s10
  clear_value changed
  have h2 : s2.safe := hsafe
  have h4 : s4.safe := by
    cases c with
    | remove i assign =>
      have h3 : s3.safe := State.safe_of_mem (State.raise_mem s2 _) h2
      refine State.foldl_safe (fun s n hs => State.domResend_safe s n hs) _ _ ?_
      refine State.foldl_safe (fun s r hs =>
        State.safe_of_mem ((State.domAnswer_mem _ _ _ _ _).trans (State.onDfb_mem s _)) hs) _ _ ?_
      refine State.safe_of_mem (State.onDfb_mem _ _) (State.afterRemoval_safe _ old ?_)
      exact State.ite_safe (State.safe_of_mem (State.raise_mem s3 _) h3) h3
    | regionCreate i r issuer =>
      exact State.writeVersion_safe _ i (State.ite_safe (State.safe_of_mem (State.domRegionStatus_mem _ _ _ _) h2) h2)
    | regionDelete i =>
      dsimp only [s4]
      cases old.regions.look i with
      | none => exact h2
      | some r => exact State.zeroRange_safe _ _ _ (State.zeroRange_safe _ _ _ h2)
    | escrow i op issuer key =>
      have hv := State.writeVersion_safe s2 i h2
      refine State.ite_safe ?_ hv
      cases new.escDone.look (issuer, key) with
      | none => exact hv
      | some v => exact State.safe_of_mem (State.escDone_mem _ _ _ _) hv
    | copied k => exact h2
    | _ => exact h2
  clear_value s4
  have h5 : s5.safe := State.safe_of_mem (State.publishDfb_mem s4) h4
  have h6 : s6.safe := State.ite_safe h5 (State.safe_of_mem (State.setFld_mem s5 _ _ _) h5)
  have h7 : s7.safe := State.ite_safe (State.safe_of_mem (State.raise_mem s6 _) h6) h6
  have h8 : s8.safe := State.safe_of_mem (State.onDfb_mem s7 _) h7
  have h9 : s9.safe := State.foldl_safe (fun s x hs => State.homeTake_safe s x.1 x.2 hs) _ _ h8
  have h10 : s10.safe := State.foldl_safe (fun s x hs => by grind [State.escDone_mem]) _ _ h9
  split
  · exact State.releaseHeld_safe s10 h10
  · exact h10

/-! ### Scalar and system instructions (R202 to R205, R207, R222) -/

@[simp] theorem doAlu_mem (ix : Ix) (s : State) : (doAlu ix s).mem = s.mem := by rfl

@[simp] theorem doAlui_mem (ix : Ix) (s : State) : (doAlui ix s).mem = s.mem := by rfl

@[simp] theorem doLi_mem (ix : Ix) (s : State) : (doLi ix s).mem = s.mem := by rfl

@[simp] theorem doLih_mem (ix : Ix) (s : State) : (doLih ix s).mem = s.mem := by rfl

@[simp] theorem doCmp_mem (ix : Ix) (s : State) : (doCmp ix s).mem = s.mem := by rfl

@[simp] theorem doCmpi_mem (ix : Ix) (s : State) : (doCmpi ix s).mem = s.mem := by rfl

@[simp] theorem doPlog_mem (ix : Ix) (s : State) : (doPlog ix s).mem = s.mem := by rfl

@[simp] theorem doBr_mem (ix : Ix) (s : State) : (doBr ix s).mem = s.mem := by rfl

@[simp] theorem doJr_mem (ix : Ix) (s : State) : (doJr ix s).mem = s.mem := by rfl

@[simp] theorem doDins_mem (ix : Ix) (s : State) : (doDins ix s).mem = s.mem := by rfl

@[simp] theorem doDext_mem (ix : Ix) (s : State) : (doDext ix s).mem = s.mem := by rfl

@[simp] theorem doSignal_mem (ix : Ix) (s : State) : (doSignal ix s).mem = s.mem := by
  unfold doSignal
  grind [State.retire_mem, State.trap_mem, State.updSignal_mem, serveSignal_mem]

@[simp] theorem doYield_mem (ix : Ix) (s : State) : (doYield ix s).mem = s.mem := by
  unfold doYield
  grind [State.retire_mem, State.setClerk_mem, State.trap_mem, State.updSignal_mem, serveSignal_mem]

@[simp] theorem doConsume_mem (ix : Ix) (k : Nat) (s : State) : (doConsume ix k s).mem = s.mem := by
  unfold doConsume
  grind [State.consumeSlot_mem, State.setClerk_mem, State.setHandle_mem]

@[simp] theorem doWait_mem (ix : Ix) (s : State) : (doWait ix s).mem = s.mem := by
  unfold doWait
  split <;> simp

/-! ### Long instructions at issue (R209) -/

@[simp] theorem State.doneNow_mem (s : State) (o : Op) (st : Status) (aux : Nat) (w1 : Word) : (s.doneNow o st aux w1).mem = s.mem := by
  simp [State.doneNow]

@[simp] theorem State.deny_mem (s : State) (o : Op) (reason : Nat) : (s.deny o reason).mem = s.mem := by simp [State.deny]

@[simp] theorem State.finishR_mem (s : State) (r : Rcpt) (st : Status) (aux : Nat) (w1 : Word) : (s.finishR r st aux w1).mem = s.mem := by
  simp [State.finishR]

@[simp] theorem State.finish_mem (s : State) (o : Op) (st : Status) (aux : Nat) (w1 : Word) : (s.finish o st aux w1).mem = s.mem := by
  simp [State.finish]

@[simp] theorem State.abortR_mem (s : State) (r : Rcpt) (cause : Nat) : (s.abortR r cause).mem = s.mem := by simp [State.abortR]

@[simp] theorem State.failMem_mem (s : State) (o : Op) (st : Status) (addr : Nat) : (s.failMem o st addr).mem = s.mem := by
  simp [State.failMem]

theorem State.issueLong_safe (s : State) (ix : Ix) (kind : OpKind) (hs : List Nat) (k : Op → State → State) (h : s.safe)
    (hk : ∀ o t, t.safe → (k o t).safe) :
    (s.issueLong ix kind hs k).safe := by
  unfold State.issueLong
  grind [State.trap_mem, State.bump_mem, State.setClerk_mem, State.count_mem]

theorem State.issueH_safe (s : State) (ix : Ix) (kind : OpKind) (tys : List Nat) (need : Nat) (k : Op → Handle → State → State)
    (h : s.safe) (hk : ∀ o x t, t.safe → (k o x t).safe) :
    (s.issueH ix kind tys need k).safe := by
  unfold State.issueH
  refine State.issueLong_safe s ix kind _ _ h fun o t ht => ?_
  grind [State.deny_mem]

theorem State.opRead_safe (s : State) (o : Op) (a len : Nat) (k : List Byte → State → State) (h : s.safe)
    (hk : ∀ bs t, t.safe → (k bs t).safe) :
    (s.opRead o a len k).safe := by
  unfold State.opRead
  grind [State.abortR_mem, State.failMem_mem, State.readPriv_safe, OptSafe]

theorem State.opWrite_safe (s : State) (o : Op) (a : Nat) (bs : List Byte) (k : State → State) (h : s.safe)
    (hk : ∀ t, t.safe → (k t).safe) :
    (s.opWrite o a bs k).safe := by
  unfold State.opWrite
  grind [State.abortR_mem, State.failMem_mem, State.writePriv_safe, OptSafe]

/-! ### The Ledger (R136 to R139, R219) -/

@[simp] theorem State.updCust_mem (s : State) (c : Nat) (f : Customer → Customer) : (s.updCust c f).mem = s.mem := by
  unfold State.updCust
  grind [State.addDirty_mem, State.onSch_mem]

@[simp] theorem State.chargeRent_mem (s : State) (c : Nat) : (s.chargeRent c).mem = s.mem := by
  unfold State.chargeRent
  grind [State.raise_mem, State.updCust_mem]

@[simp] theorem State.setRent_mem (s : State) (c : Nat) (v : Word) : (s.setRent c v).mem = s.mem := by
  unfold State.setRent
  grind [State.chargeRent_mem, State.updCust_mem]

theorem withRoom_safe (wait : State) (f : Op → Handle → State → State) (o : Op) (x : Handle) (s : State) (hw : wait.safe)
    (hf : (f o x s).safe) :
    (withRoom wait f o x s).safe := by
  unfold withRoom
  grind

@[simp] theorem doCharge_mem (force : Bool) (o : Op) (h : Handle) (s : State) : (doCharge force o h s).mem = s.mem := by
  unfold doCharge
  grind [State.deny_mem, State.finish_mem, State.updCust_mem]

@[simp] theorem doCredit_mem (o : Op) (h : Handle) (s : State) : (doCredit o h s).mem = s.mem := by
  unfold doCredit
  grind [State.deny_mem, State.finish_mem, State.updCust_mem]

@[simp] theorem doRent_mem (o : Op) (h : Handle) (s : State) : (doRent o h s).mem = s.mem := by simp [doRent]

/-! ### The session store (R58 to R85) -/

@[simp] theorem State.takeT0_mem (s : State) (i : Nat) : (s.takeT0 i).1.mem = s.mem := by
  unfold State.takeT0
  grind [State.updSession_mem, State.foldl_mem]

theorem State.createSession_safe (s : State) (i ctx : Nat) (hsafe : s.safe) : (s.createSession i ctx).safe := by
  unfold State.createSession
  grind [State.onSsn_mem, State.zeroRange_safe]

@[simp] theorem State.appendPb_mem (s : State) (i : Nat) (es : List PbEntry) (step : Nat) : (s.appendPb i es step).mem = s.mem := by
  unfold State.appendPb
  grind [State.addDirty_mem, State.onSsn_mem, State.raise_mem, State.send_mem, State.updSession_mem, State.foldl_mem]

@[simp] theorem State.endRequest_mem (s : State) (i code : Nat) (st : Status) (aux : Nat) (w1 : Word) :
    (s.endRequest i code st aux w1).mem = s.mem := by
  unfold State.endRequest
  grind [State.finishR_mem, State.onSch_mem, State.updCust_mem, State.updSession_mem]

@[simp] theorem State.dropExtent_mem (s : State) (e : Nat) : (s.dropExtent e).mem = s.mem := by
  unfold State.dropExtent
  split <;> simp

@[simp] theorem State.leaveStep_mem (s : State) (i status : Nat) : (s.leaveStep i status).mem = s.mem := by
  unfold State.leaveStep
  grind [State.dropPages_mem, State.onSch_mem, State.updCust_mem, State.updSession_mem, State.foldl_mem]

@[simp] theorem State.sweepTables_mem (s : State) : s.sweepTables.mem = s.mem := by
  unfold State.sweepTables
  grind [State.onSch_mem, State.wr_mem, State.foldl_mem]

theorem State.freeSession_safe (s : State) (i : Nat) (hsafe : s.safe) : (s.freeSession i).safe := by
  unfold State.freeSession
  grind [State.dropExtent_mem, State.dropPages_mem, State.leaveStep_mem, State.onDfb_mem, State.onSsn_mem, State.setDirty_mem,
    State.sweepTables_mem, State.zeroRange_safe, State.foldl_safe, State.foldl_mem]

theorem State.loseSession_safe (s : State) (i : Nat) (hsafe : s.safe) : (s.loseSession i).safe := by
  unfold State.loseSession
  grind [State.abortR_mem, State.endRequest_mem, State.freeSession_safe, State.raise_mem]

theorem State.pageData_safe (s : State) (ps : List KvPage) (hsafe : s.safe) : (s.pageData ps).1.safe := by
  unfold State.pageData
  refine State.foldl_fst_safe (fun a q ha => ?_) _ _ hsafe
  have hr := State.readMem_safe a.1 q.key 65536 ha
  cases a.2 with
  | none => exact ha
  | some l => exact State.pair_safe _ hr

theorem State.allPieces_safe (s : State) (x : Session) (hsafe : s.safe) : (s.allPieces x).1.safe := by
  unfold State.allPieces
  grind [State.pageData_safe, State.foldl_safe, State.foldl_mem]

theorem State.startPlace_safe (s : State) (i t : Nat) (hsafe : s.safe) : (s.startPlace i t).1.safe := by
  unfold State.startPlace
  split
  · exact hsafe
  · rename_i x _
    dsimp only
    split
    · simpa [State.safe] using hsafe
    · have hl := State.allPieces_safe (s.chargeRent x.customer) x (by simpa [State.safe] using hsafe)
      split
      · exact hl
      · split
        · split <;> simpa [State.safe] using hl
        · split
          · simpa [State.safe] using hl
          · split <;> simpa [State.safe] using hl

@[simp] theorem State.undoPlace_mem (s : State) (i : Nat) : (s.undoPlace i).mem = s.mem := by
  unfold State.undoPlace
  grind [State.dropExtent_mem, State.markPages_mem, State.updSession_mem]

@[simp] theorem State.dropGrant_mem (s : State) (i : Nat) : (s.dropGrant i).mem = s.mem := by rfl

@[simp] theorem State.addGrant_mem (s : State) (i peer pages : Nat) : (s.addGrant i peer pages).mem = s.mem := by rfl

@[simp] theorem State.commitPlace_mem (s : State) (i : Nat) : (s.commitPlace i).mem = s.mem := by
  unfold State.commitPlace
  split
  · rfl
  · split
    · rfl
    · dsimp only
      split
      · grind [State.updSession_mem, State.dropGrant_mem, State.markPages_mem, State.dropExtent_mem, State.chargeRent_mem]
      · grind [State.updSession_mem, State.dropGrant_mem, State.dropPages_mem, State.dropExtent_mem, State.chargeRent_mem]
      · simp only [State.updSession_mem, State.ite_mem, State.dropPages_mem, State.markPages_mem]
        (repeat' split) <;> simp

@[simp] theorem State.becomeLive_mem (s : State) (i : Nat) : (s.becomeLive i).mem = s.mem := by
  unfold State.becomeLive
  grind [State.dropExtent_mem, State.dropGrant_mem, State.markPages_mem, State.updSession_mem]

theorem State.startStream_safe (s : State) (i : Nat) (hsafe : s.safe) : (s.startStream i).1.safe := by
  unfold State.startStream
  grind [State.addPages_safe, State.send_mem, State.updSession_mem]

theorem State.startRevive_safe (s : State) (i : Nat) (hsafe : s.safe) : (s.startRevive i).1.safe := by
  unfold State.startRevive
  grind [State.becomeLive_mem, State.chargeRent_mem, State.startStream_safe, State.updSession_mem]

@[simp] theorem State.cancelRevive_mem (s : State) (i : Nat) : (s.cancelRevive i).mem = s.mem := by
  unfold State.cancelRevive
  grind [State.dropPages_mem, State.markPages_mem, State.updSession_mem]

theorem State.mirrorKv_safe (s : State) (i : Nat) (hsafe : s.safe) : (s.mirrorKv i).safe := by
  unfold State.mirrorKv
  split
  · exact hsafe
  · split
    · exact hsafe
    · refine State.safe_of_mem (State.updSession_mem _ i _) (foldl_inv (P := State.Canonical) (fun t q ht => ?_) hsafe _)
      have hr := State.readMem_safe t q.key 65536 ht
      exact State.Canonical.ite (State.safe_of_mem ((State.updSession_mem _ i _).trans (State.send_mem _ _)) hr) hr

@[simp] theorem State.losePages_mem (s : State) (i : Nat) (lost : KvPage → Bool) : (s.losePages i lost).mem = s.mem := by
  unfold State.losePages
  grind [State.abortR_mem, State.dropPages_mem, State.leaveStep_mem, State.send_mem, State.undoPlace_mem, State.updSession_mem,
    State.foldl_mem]

theorem State.losePb_safe (s : State) (i : Nat) (a b : Bool) (hsafe : s.safe) : (s.losePb i a b).safe := by
  unfold State.losePb
  grind [State.loseSession_safe, State.onSsn_mem, State.raise_mem, State.updSession_mem]

theorem State.loseParked_safe (s : State) (i : Nat) (hsafe : s.safe) : (s.loseParked i).safe := by
  unfold State.loseParked
  grind [State.dropGrant_mem, State.dropPages_mem, State.losePages_mem, State.startStream_safe, State.updSession_mem]

/-! ### Commands of the session store -/

@[simp] theorem State.dropMove_mem (s : State) (i : Nat) : (s.dropMove i).mem = s.mem := by
  unfold State.dropMove
  grind [State.abortR_mem, State.updSession_mem]

@[simp] theorem State.giveWay_mem (s : State) (i : Nat) : (s.giveWay i).mem = s.mem := by
  unfold State.giveWay
  grind [State.dropPages_mem, State.undoPlace_mem, State.updSession_mem]

theorem State.finishDiscard_safe (s : State) (i : Nat) (hsafe : s.safe) : (s.finishDiscard i).safe := by
  unfold State.finishDiscard
  grind [State.endRequest_mem, State.finishR_mem, State.freeSession_safe]

theorem State.discardSession_safe (s : State) (o : Op) (i : Nat) (x : Session) (hsafe : s.safe) : (s.discardSession o i x).safe := by
  unfold State.discardSession
  grind [State.dropMove_mem, State.finishDiscard_safe, State.updSession_mem]

theorem State.beginPlace_safe (s : State) (o : Op) (i : Nat) (m : MoveOp) (st : SsnSt) (t : Nat) (hsafe : s.safe) :
    (s.beginPlace o i m st t).safe := by
  unfold State.beginPlace
  grind [State.abortR_mem, State.finish_mem, State.losePages_mem, State.raise_mem, State.startPlace_safe, State.startStream_safe,
    State.updSession_mem]

theorem doPark_safe (o : Op) (h : Handle) (s : State) (hsafe : s.safe) : (doPark o h s).safe := by
  unfold doPark
  extract_lets d i t u
  split
  · exact State.safe_of_mem (State.deny_mem s o 3) hsafe
  · split
    · exact State.safe_of_mem (State.deny_mem s o 2) hsafe
    · split
      · exact State.ite_safe (State.discardSession_safe s o i _ hsafe) (State.safe_of_mem (State.deny_mem s o 2) hsafe)
      · split
        · exact State.safe_of_mem (State.deny_mem s o 2) hsafe
        · have ht : t.safe := by simpa [State.safe, t] using hsafe
          split
          · exact ht
          · have hu : u.safe := State.mirrorKv_safe t i ht
            split
            · simpa [State.safe] using hu
            · exact State.beginPlace_safe u o i _ _ _ hu

@[simp] theorem State.phaseStatus_mem (s : State) (st : Nat) : (s.phaseStatus st).mem = s.mem := by
  unfold State.phaseStatus
  split <;> simp

@[simp] theorem State.phaseWrote_mem (s : State) (x : Session) (t : Nat) : (s.phaseWrote x t).mem = s.mem := by
  unfold State.phaseWrote
  split <;> simp

theorem doRevive_safe (o : Op) (h : Handle) (s : State) (hsafe : s.safe) : (doRevive o h s).safe := by
  unfold doRevive
  dsimp only
  (repeat' split) <;> grind [State.deny_mem, State.finish_mem, State.giveWay_mem, State.startRevive_safe, State.updSession_mem]

theorem State.layerResident_safe (s : State) (i layer : Nat) (ps : List PkPage) (data : List (List Byte)) (u : PgUse) (hsafe : s.safe) :
    (s.layerResident i layer ps data u).safe := by
  unfold State.layerResident
  grind [State.markPages_mem, State.updSession_mem, State.writeMem_safe, State.foldl_safe, State.foldl_mem]

@[simp] theorem State.reviveProgress_mem (s : State) (i : Nat) : (s.reviveProgress i).mem = s.mem := by
  unfold State.reviveProgress
  grind [State.becomeLive_mem, State.finishR_mem, State.updSession_mem]

theorem State.sendMove_safe (s : State) (i dest : Nat) (r : Rcpt) (hsafe : s.safe) : (s.sendMove i dest r).safe := by
  unfold State.sendMove
  grind [State.abortR_mem, State.allPieces_safe, State.losePages_mem, State.send_mem]

theorem State.preReady_safe (s : State) (i : Nat) (hsafe : s.safe) : (s.preReady i).safe := by
  unfold State.preReady
  grind [State.abortR_mem, State.finishR_mem, State.losePages_mem, State.raise_mem, State.sendMove_safe, State.startPlace_safe,
    State.updSession_mem]

theorem doMove_safe (o : Op) (h : Handle) (s : State) (hsafe : s.safe) : (doMove o h s).safe := by
  unfold doMove
  dsimp only
  (repeat' split) <;> grind [State.abortR_mem, State.allPieces_safe, State.deny_mem, State.finish_mem, State.giveWay_mem,
    State.losePages_mem, State.sendMove_safe, State.startStream_safe, State.updSession_mem]

theorem doPin_safe (o : Op) (h : Handle) (s : State) (hsafe : s.safe) : (doPin o h s).safe := by
  unfold doPin
  grind [State.beginPlace_safe, State.deny_mem, State.finish_mem, State.giveWay_mem, State.startStream_safe, State.updSession_mem]

@[simp] theorem doUnpin_mem (o : Op) (h : Handle) (s : State) : (doUnpin o h s).mem = s.mem := by
  unfold doUnpin
  grind [State.deny_mem, State.finish_mem, State.updSession_mem]

theorem State.maybePreRevive_safe (s : State) (i : Nat) (hsafe : s.safe) : (s.maybePreRevive i).safe := by
  unfold State.maybePreRevive
  grind [State.startStream_safe, State.updSession_mem]

theorem doHint_safe (ix : Ix) (s : State) (hsafe : s.safe) : (doHint ix s).safe := by
  unfold doHint
  grind [State.maybePreRevive_safe, State.retire_mem, State.trap_mem, State.updSession_mem]

@[simp] theorem State.pbExtents_mem (s : State) (i : Nat) (x : Session) : (s.pbExtents i x).1.mem = s.mem := by
  unfold State.pbExtents
  grind [State.newExtent_mem, State.updSession_mem, State.foldl_mem, State.foldl_fst_mem]

@[simp] theorem State.pbWrite_mem (s : State) (i : Nat) (all : Bool) : (s.pbWrite i all).mem = s.mem := by
  unfold State.pbWrite
  grind [State.flashPut_mem, State.pbExtents_mem, State.raise_mem, State.updSession_mem, State.foldl_mem, State.foldl_fst_mem]

@[simp] theorem State.pbProgrammed_mem (s : State) (i : Nat) : (s.pbProgrammed i).mem = s.mem := by
  unfold State.pbProgrammed
  grind [State.setDirty_mem, State.updSession_mem]

@[simp] theorem State.parkProgrammed_mem (s : State) (i : Nat) : (s.parkProgrammed i).mem = s.mem := by rfl

@[simp] theorem State.dropClean_mem (s : State) (i : Nat) : (s.dropClean i).mem = s.mem := by
  unfold State.dropClean
  grind [State.dropPages_mem, State.updSession_mem]

@[simp] theorem State.phasePark_mem (s : State) (i : Nat) : (s.phasePark i).mem = s.mem := by
  unfold State.phasePark
  grind [State.cancelRevive_mem, State.chargeRent_mem, State.dropMove_mem, State.updSession_mem]

theorem State.phaseAdvance_safe (s : State) (hsafe : s.safe) : s.phaseAdvance.safe := by
  unfold State.phaseAdvance
  grind [State.dropClean_mem, State.losePages_mem, State.phasePark_mem, State.startPlace_safe, State.foldl_safe, State.foldl_mem]

theorem State.phaseForce_safe (s : State) (hsafe : s.safe) : s.phaseForce.safe := by
  unfold State.phaseForce
  grind [State.commitPlace_mem, State.onSsn_mem, State.phaseStatus_mem, State.startPlace_safe, State.undoPlace_mem, State.foldl_safe,
    State.foldl_mem]

/-! ### Steps in flight (R119 to R130) -/

@[simp] theorem State.setGroup_mem (s : State) (g : Nat) (x : Group) : (s.setGroup g x).mem = s.mem := by rfl

@[simp] theorem State.publishGroup_mem (s : State) (g : Nat) : (s.publishGroup g).mem = s.mem := by rfl

@[simp] theorem State.updStep_mem (s : State) (n : Nat) (f : Step → Step) : (s.updStep n f).mem = s.mem := by
  unfold State.updStep
  grind [State.onSch_mem]

@[simp] theorem State.sendGroup_mem (s : State) (g n : Nat) (o : Out) : (s.sendGroup g n o).mem = s.mem := by simp [State.sendGroup]

@[simp] theorem State.sendPart_mem (s : State) (n k : Nat) : (s.sendPart n k).mem = s.mem := by
  unfold State.sendPart
  split <;> grind [State.sendGroup_mem, State.updStep_mem, State.foldl_mem]

@[simp] theorem State.settlePages_mem (s : State) (i l : Nat) : (s.settlePages i l).mem = s.mem := by
  unfold State.settlePages
  grind [State.dropPages_mem, State.markPages_mem, State.updSession_mem]

@[simp] theorem State.unwrite_mem (s : State) (i l : Nat) : (s.unwrite i l).mem = s.mem := by rfl

theorem State.finishCancels_safe (s : State) (i : Nat) (hsafe : s.safe) : (s.finishCancels i).safe := by
  unfold State.finishCancels
  grind [State.finishDiscard_safe, State.finishR_mem, State.foldl_safe, State.foldl_mem]

@[simp] theorem State.displace_mem (s : State) (n k l status : Nat) : (s.displace n k l status).mem = s.mem := by
  unfold State.displace
  grind [State.settlePages_mem, State.unwrite_mem, State.updCust_mem, State.updSession_mem, State.updStep_mem]

theorem State.boundary_safe (s : State) (n l : Nat) (hsafe : s.safe) : (s.boundary n l).safe := by
  unfold State.boundary
  grind [State.displace_mem, State.endRequest_mem, State.finishCancels_safe, State.updStep_mem, State.foldl_safe, State.foldl_mem]

theorem State.nextPart_safe (s : State) (n k : Nat) (hsafe : s.safe) : (s.nextPart n k).safe := by
  unfold State.nextPart
  grind [State.boundary_safe, State.sendPart_mem, State.updStep_mem]

@[simp] theorem State.cutStep_mem (s : State) (n l : Nat) : (s.cutStep n l).mem = s.mem := by
  unfold State.cutStep
  grind [State.displace_mem, State.foldl_mem, State.foldl_fst_mem]

/-! ### Attention messages (R103, R104) -/

@[simp] theorem State.refuseMsg_mem (s : State) (p : Nat) (m : AttnMsg) : (s.refuseMsg p m).mem = s.mem := by simp [State.refuseMsg]

theorem State.kernelAnswer_safe (s : State) (p n : Nat) (k : KernelOp) (msg : List Byte) (hsafe : s.safe) :
    (s.kernelAnswer p n k msg).safe := by
  unfold State.kernelAnswer
  grind [State.abortR_mem, State.finishR_mem, State.onKva_mem, State.onSch_mem, State.writePriv_safe, OptSafe]

theorem State.attnArrive_safe (s : State) (p n a : Nat) (msg : List Byte) (hsafe : s.safe) : (s.attnArrive p n a msg).safe := by
  unfold State.attnArrive
  (repeat' split) <;> grind [State.cutStep_mem, State.kernelAnswer_safe, State.onKva_mem, State.refuseMsg_mem, State.updStep_mem,
    State.writePriv_safe, OptSafe]

/-! ### Attention beside memory (R95 to R102) -/

@[simp] theorem State.setEngine_mem (s : State) (m : Nat) (e : Engine) : (s.setEngine m e).mem = s.mem := by rfl

@[simp] theorem State.updAttn_mem (s : State) (n : Nat) (f : AttnOp → AttnOp) : (s.updAttn n f).mem = s.mem := by
  unfold State.updAttn
  grind [State.onKva_mem]

@[simp] theorem State.enqueueDesc_mem (s : State) (ds : List PgDesc) : (s.enqueueDesc ds).mem = s.mem := by simp [State.enqueueDesc]

@[simp] theorem State.emit_mem (s : State) (op entry : Nat) (digest : Option (Nat × Nat × Nat × Nat)) (ds : List PgDesc) :
    (s.emit op entry digest ds).mem = s.mem := by
  unfold State.emit
  grind [State.enqueueDesc_mem, State.onKva_mem, State.updAttn_mem]

@[simp] theorem State.walkSoftmax_mem (s : State) (op k : Nat) (o : AttnOp) (e : AttnEntry) (i : Nat) (x : Session) (f : LayerForm) :
    (s.walkSoftmax op k o e i x f).mem = s.mem := by
  unfold State.walkSoftmax
  grind [State.count_mem, State.emit_mem, State.raise_mem, State.updSession_mem, State.foldl_mem]

@[simp] theorem State.walkRecurrent_mem (s : State) (op k : Nat) (o : AttnOp) (e : AttnEntry) (i : Nat) (x : Session) (f : LayerForm) :
    (s.walkRecurrent op k o e i x f).mem = s.mem := by
  unfold State.walkRecurrent
  grind [State.emit_mem, State.updSession_mem, State.foldl_mem]

@[simp] theorem State.walkEntry_mem (s : State) (op k : Nat) : (s.walkEntry op k).mem = s.mem := by
  unfold State.walkEntry
  (repeat' split) <;> grind [State.updAttn_mem, State.walkRecurrent_mem, State.walkSoftmax_mem]

@[simp] theorem State.closeEntry_mem (s : State) (op k : Nat) : (s.closeEntry op k).mem = s.mem := by
  unfold State.closeEntry
  split <;> grind [State.bump_mem, State.updAttn_mem]

@[simp] theorem State.sendAtr_mem (s : State) (o : AttnOp) (flags : Nat) (es : List AttnEntry) : (s.sendAtr o flags es).mem = s.mem := by
  simp [State.sendAtr]

theorem State.finishAttn_safe (s : State) (op : Nat) (o : AttnOp) (hsafe : s.safe) : (s.finishAttn op o).safe := by
  unfold State.finishAttn
  grind [State.count_mem, State.finishR_mem, State.onKva_mem, State.writePriv_safe, OptSafe]

theorem State.writePartials_safe (s : State) (o : AttnOp) (f : LayerForm) (h : s.safe) : OptSafe (s.writePartials o f) := by
  unfold State.writePartials
  refine foldl_inv (P := fun a : Option (State × Status × Nat) × Nat => OptSafe a.1) (fun a e ha => ?_) (OptSafe.some h) _
  grind [State.writePriv_safe, State.bump_mem, OptSafe]

theorem State.progress_safe (s : State) (op : Nat) (hsafe : s.safe) : (s.progress op).safe := by
  unfold State.progress
  split <;> grind [State.abortR_mem, State.finishAttn_safe, State.finishR_mem, State.nextPart_safe, State.onKva_mem, State.sendAtr_mem,
    State.updAttn_mem, State.writePartials_safe, OptSafe]

@[simp] theorem State.refuseAttn_mem (s : State) (o : Op) (p reason : Nat) (m : AttnMsg) : (s.refuseAttn o p reason m).mem = s.mem := by
  simp [State.refuseAttn]

theorem State.beginAttn_safe (s : State) (o : Op) (row : RecvMsg) (g : Nat) (md : Model) (f : LayerForm) (bytes : List Byte)
    (hsafe : s.safe) :
    (s.beginAttn o row g md f bytes).safe := by
  unfold State.beginAttn
  grind [State.boundary_safe, State.closeEntry_mem, State.onKva_mem, State.progress_safe, State.updSession_mem, State.walkEntry_mem,
    State.foldl_safe, State.foldl_mem]

theorem doAttn_safe (o : Op) (h : Handle) (s : State) (hsafe : s.safe) : (doAttn o h s).safe := by
  unfold doAttn
  extract_lets d a
  split
  · exact State.safe_of_mem (State.deny_mem s o 2) hsafe
  · split
    · exact State.safe_of_mem (State.deny_mem s o 2) hsafe
    · refine State.opRead_safe s o a _ _ hsafe fun bytes t ht => ?_
      dsimp only
      (repeat' split) <;> grind [State.refuseAttn_mem, State.deny_mem, State.beginAttn_safe]

@[simp] theorem State.bankFor_mem (s : State) (m ctx : Nat) : (s.bankFor m ctx).mem = s.mem := by simp [State.bankFor]

theorem State.readParts_safe (s : State) (ps : List (Nat × Nat)) (hsafe : s.safe) : (s.readParts ps).1.safe := by
  unfold State.readParts
  grind [State.readCw_safe, State.foldl_safe, State.foldl_mem, State.foldl_fst_safe]

@[simp] theorem State.attnFail_mem (s : State) (m : Nat) (d : PgDesc) (slot : Option MergeSlot) (st : Status) (cw : Nat) :
    (s.attnFail m d slot st cw).mem = s.mem := by
  unfold State.attnFail
  (repeat' split) <;> grind [State.countSat_mem, State.count_mem, State.displace_mem, State.losePages_mem, State.raise_mem,
    State.updAttn_mem, State.wr_mem]

theorem State.writeRecords_safe (s : State) (m : Nat) (d : PgDesc) (f : LayerForm) (hsafe : s.safe) : (s.writeRecords m d f).safe := by
  unfold State.writeRecords
  grind [State.countSat_mem, State.writeMem_safe]

theorem State.updateHead_safe (s : State) (d : PgDesc) (f : LayerForm) (x : Session) (hsafe : s.safe) : (s.updateHead d f x).safe := by
  unfold State.updateHead
  grind [State.bump_mem, State.writeMem_safe, State.foldl_safe, State.foldl_mem]

theorem State.slotDone_safe (s : State) (n : Nat) (hsafe : s.safe) : (s.slotDone n).safe := by
  unfold State.slotDone
  grind [State.closeEntry_mem, State.onKva_mem, State.progress_safe, State.updAttn_mem]

theorem State.runDesc_safe (s : State) (m : Nat) (d : PgDesc) (hsafe : s.safe) : (s.runDesc m d).safe := by
  unfold State.runDesc
  dsimp only
  (repeat' split) <;> grind [State.attnFail_mem, State.countSat_mem, State.count_mem, State.raise_mem, State.readParts_safe,
    State.setEngine_mem, State.updAttn_mem, State.updateHead_safe, State.wr_mem, State.writeRecords_safe]

@[simp] theorem State.sramFail_mem (s : State) (d : PgDesc) : (s.sramFail d).mem = s.mem := by
  unfold State.sramFail
  split <;> grind [State.displace_mem, State.onKva_mem, State.updAttn_mem]

theorem State.writeDigest_safe (s : State) (i gen layer blk : Nat) (hsafe : s.safe) : (s.writeDigest i gen layer blk).safe := by
  unfold State.writeDigest
  split <;> grind [State.updSession_mem, State.writeMem_safe]

theorem doAttnMerge_safe (o : Op) (s : State) (hsafe : s.safe) : (doAttnMerge o s).safe := by
  unfold doAttnMerge
  grind [State.deny_mem, State.finish_mem, State.opRead_safe, State.opWrite_safe]

/-! ### The text path (R146 to R173, R218) -/

@[simp] theorem State.countSample_mem (s : State) (r : Sample) : (s.countSample r).mem = s.mem := by simp [State.countSample]

@[simp] theorem State.tblStatus_mem (s : State) (clear : Bool) (slot reason st : Nat) : (s.tblStatus clear slot reason st).mem = s.mem := by
  rfl

theorem doMint_safe (o : Op) (h : Handle) (s : State) (hsafe : s.safe) : (doMint o h s).safe := by
  unfold doMint
  split <;> grind [State.count_mem, State.deny_mem, State.finish_mem, State.opRead_safe, State.opWrite_safe, State.raise_mem,
    State.unitServe_mem]

theorem State.onText_safe (s : State) (o : Op) (x : Handle) (write : Bool) (k : Nat → Session → State) (h : s.safe)
    (hk : ∀ i y, (k i y).safe) :
    (s.onText o x write k).safe := by
  unfold State.onText
  grind [State.deny_mem]

@[simp] theorem State.setText_mem (s : State) (i : Nat) (t : TextSt) : (s.setText i t).mem = s.mem := by rfl

theorem doClearBind_safe (o : Op) (h : Handle) (s : State) (hsafe : s.safe) : (doClearBind o h s).safe := by
  unfold doClearBind
  grind [State.deny_mem, State.finish_mem, State.onText_safe, State.setText_mem]

theorem doClearUnbind_safe (o : Op) (h : Handle) (s : State) (hsafe : s.safe) : (doClearUnbind o h s).safe := by
  unfold doClearUnbind
  grind [State.finish_mem, State.onText_safe, State.setText_mem, State.sweepTables_mem]

theorem doClearMask_safe (o : Op) (h : Handle) (s : State) (hsafe : s.safe) : (doClearMask o h s).safe := by
  unfold doClearMask
  grind [State.deny_mem, State.finish_mem, State.onText_safe, State.opWrite_safe, State.unitServe_mem]

theorem doClearAdvance_safe (o : Op) (h : Handle) (s : State) (hsafe : s.safe) : (doClearAdvance o h s).safe := by
  unfold doClearAdvance
  grind [State.deny_mem, State.finish_mem, State.onText_safe, State.setText_mem]

theorem doSampleConfig_safe (o : Op) (h : Handle) (s : State) (hsafe : s.safe) : (doSampleConfig o h s).safe := by
  unfold doSampleConfig
  grind [State.deny_mem, State.finish_mem, State.onText_safe, State.opRead_safe, State.setText_mem]

theorem doSampleProbe_safe (o : Op) (h : Handle) (s : State) (hsafe : s.safe) : (doSampleProbe o h s).safe := by
  unfold doSampleProbe
  grind [State.bump_mem, State.countSample_mem, State.deny_mem, State.finish_mem, State.onText_safe, State.opRead_safe, State.unitServe_mem]

theorem doChangeConfig_safe (o : Op) (h : Handle) (s : State) (hsafe : s.safe) : (doChangeConfig o h s).safe := by
  unfold doChangeConfig
  grind [State.deny_mem, State.finish_mem, State.onText_safe, State.opRead_safe, State.setText_mem]

theorem doChangeText_safe (o : Op) (h : Handle) (s : State) (hsafe : s.safe) : (doChangeText o h s).safe := by
  unfold doChangeText
  grind [State.deny_mem, State.finish_mem, State.opRead_safe, State.opWrite_safe, State.unitServe_mem]

/-! ### Models, groups and the end of a step -/

@[simp] theorem State.modelStatus_mem (s : State) (index reason st : Nat) : (s.modelStatus index reason st).mem = s.mem := by rfl

@[simp] theorem State.makeReports_mem (s : State) (t : Step) (first : List Nat) : (s.makeReports t first).mem = s.mem := by rfl

theorem State.unmapPhase_safe (s : State) (g : Nat) (hsafe : s.safe) : (s.unmapPhase g).safe := by
  unfold State.unmapPhase
  grind [State.deleteRegion_safe, State.onNmc_mem, State.setGroup_mem]

theorem State.mapPhase_safe (s : State) (g : Nat) (hsafe : s.safe) : (s.mapPhase g).safe := by
  unfold State.mapPhase
  grind [State.addRegion_safe, State.onNmc_mem, State.setGroup_mem]

theorem State.switchDone_safe (s : State) (g : Nat) (hsafe : s.safe) : (s.switchDone g).safe := by
  unfold State.switchDone
  grind [State.mapPhase_safe, State.publishGroup_mem, State.raise_mem, State.setGroup_mem]

theorem State.switchTo_safe (s : State) (g : Nat) (r : Role) (hsafe : s.safe) : (s.switchTo g r).safe := by
  unfold State.switchTo
  grind [State.setGroup_mem, State.switchDone_safe, State.unmapPhase_safe]

theorem State.endStep_safe (s : State) (t : Step) (hsafe : s.safe) : (s.endStep t).safe := by
  unfold State.endStep
  grind [State.count_mem, State.onSch_mem, State.phaseAdvance_safe, State.setGroup_mem, State.switchDone_safe]

theorem State.abortAttn_safe (s : State) (n : Nat) (hsafe : s.safe) : (s.abortAttn n).safe := by
  unfold State.abortAttn
  grind [State.progress_safe, State.updAttn_mem, State.foldl_safe, State.foldl_mem]

theorem State.abortStep_safe (s : State) (n : Nat) (hsafe : s.safe) : (s.abortStep n).safe := by
  unfold State.abortStep
  grind [State.abortAttn_safe, State.displace_mem, State.endRequest_mem, State.endStep_safe, State.finishCancels_safe,
    State.makeReports_mem, State.updStep_mem, State.foldl_safe, State.foldl_mem]

@[simp] theorem State.abortKernels_mem (s : State) (p : KernelOp → Bool) : (s.abortKernels p).mem = s.mem := by
  unfold State.abortKernels
  grind [State.abortR_mem, State.onSch_mem, State.foldl_mem]

theorem State.groupOff_safe (s : State) (g : Nat) (hsafe : s.safe) : (s.groupOff g).safe := by
  unfold State.groupOff
  grind [State.abortKernels_mem, State.abortStep_safe, State.publishGroup_mem, State.setGroup_mem, State.unmapPhase_safe, State.foldl_safe,
    State.foldl_mem]

theorem State.settleGroups_safe (s : State) (hsafe : s.safe) : s.settleGroups.safe := by
  unfold State.settleGroups
  grind [State.groupOff_safe, State.publishGroup_mem, State.setGroup_mem, State.foldl_safe, State.foldl_mem]

@[simp] theorem State.ledgerWrite_mem (s : State) : s.ledgerWrite.mem = s.mem := by
  unfold State.ledgerWrite
  grind [State.flashPut_mem, State.newExtent_mem, State.onSch_mem, State.foldl_mem]

@[simp] theorem State.ledgerProgrammed_mem (s : State) : s.ledgerProgrammed.mem = s.mem := by simp [State.ledgerProgrammed]

/-! ### Requests (R121 to R123, R142, R217) -/

@[simp] theorem State.rebindKv_mem (s : State) (i : Nat) : (s.rebindKv i).mem = s.mem := by
  unfold State.rebindKv
  grind [State.dropExtent_mem, State.dropPages_mem, State.updSession_mem]

theorem State.acceptReq_safe (s : State) (o : Op) (i : Nat) (m : Model) (hsafe : s.safe) : (s.acceptReq o i m).safe := by
  unfold State.acceptReq
  grind [State.bump_mem, State.rebindKv_mem, State.startRevive_safe, State.updSession_mem]

theorem State.submit_safe (s : State) (o : Op) (i : Nat) (stepUs pageRate finishUs : Nat) (hsafe : s.safe) :
    (s.submit o i stepUs pageRate finishUs).safe := by
  unfold State.submit
  dsimp only
  (repeat' split) <;> grind [State.acceptReq_safe, State.deny_mem, State.doneNow_mem, State.raise_mem, State.retryAfter_mem,
    State.updCust_mem]

theorem doCancel_safe (o : Op) (h : Handle) (s : State) (hsafe : s.safe) : (doCancel o h s).safe := by
  unfold doCancel
  grind [State.deny_mem, State.doneNow_mem, State.endRequest_mem, State.finishCancels_safe, State.updSession_mem]

theorem doKernel_safe (n : Nat) (o : Op) (h : Handle) (s : State) (hsafe : s.safe) : (doKernel n o h s).safe := by
  unfold doKernel
  grind [State.deny_mem, State.onSch_mem, State.opRead_safe, State.sendGroup_mem]

/-! ### Forming a step -/

@[simp] theorem State.accrueWait_mem (s : State) : s.accrueWait.mem = s.mem := by
  unfold State.accrueWait
  grind [State.updCust_mem, State.updSession_mem, State.foldl_mem]

@[simp] theorem State.boostEval_mem (s : State) (cands : List StepCand) : (s.boostEval cands).mem = s.mem := by
  unfold State.boostEval
  grind [State.updSession_mem, State.foldl_mem]

@[simp] theorem State.reportGate_mem (s : State) (i : Nat) (x : Session) : (s.reportGate i x).1.mem = s.mem := by
  unfold State.reportGate
  grind [State.raise_mem, State.updSession_mem]

theorem State.wakeSessions_safe (s : State) (hsafe : s.safe) : s.wakeSessions.safe := by
  unfold State.wakeSessions
  refine State.foldl_safe (fun t r ht => ?_) _ s hsafe
  extract_lets x u
  have hu : u.safe := State.ite_safe (State.startRevive_safe t r.1 ht) ht
  clear_value u
  split
  · exact hu
  · grind [State.updSession_mem, State.finishR_mem]

theorem State.enterStep_safe (s : State) (m : Model) (i : Nat) (cls n : Nat) (boosted : Bool) (hsafe : s.safe) :
    (s.enterStep m i cls n boosted).1.safe := by
  unfold State.enterStep
  split <;> grind [State.addPages_safe, State.dropPages_mem, State.endRequest_mem, State.raise_mem, State.takeT0_mem, State.updCust_mem,
    State.updSession_mem]

theorem State.considerSess_safe (s : State) (m : Model) (role : Role) (f : Forming) (cls : Nat) (c : StepCand) (hsafe : s.safe) :
    (s.considerSess m role f cls c).1.safe := by
  unfold State.considerSess
  split
  · exact hsafe
  · split
    · exact hsafe
    · extract_lets p left n0 resumed n1 n2 rc full pick
      clear_value pick
      split
      · exact hsafe
      · split
        · exact State.finishCancels_safe _ _ (State.safe_of_mem (State.endRequest_mem s _ _ _ _ _) hsafe)
        · split
          · exact hsafe
          · split
            · exact hsafe
            · grind [State.reportGate_mem, State.enterStep_safe]

theorem State.considerAll_safe (m : Model) (role : Role) (order : List (Nat × StepCand)) (a : State × Forming) (ha : a.1.safe) :
    (order.foldl (fun (a : State × Forming) c => a.1.considerSess m role a.2 c.1 c.2) a).1.safe :=
  State.foldl_fst_safe (fun b c hb => State.considerSess_safe b.1 m role b.2 c.1 c.2 hb) order a ha

@[simp] theorem State.notePower_mem (s : State) (watts : Nat) : (s.notePower watts).mem = s.mem := by rfl

@[simp] theorem State.startStep_mem (s : State) (g : Nat) (half : Bool) (f : Forming) : (s.startStep g half f).mem = s.mem := by
  simp [State.startStep]

/-! ### The end of a step -/

@[simp] theorem State.textSlot_mem (s : State) (n k ports : Nat) : (s.textSlot n k ports).mem = s.mem := by
  unfold State.textSlot
  (repeat' split) <;> grind [State.bump_mem, State.countSample_mem, State.count_mem, State.raise_mem, State.unitServe_mem,
    State.updStep_mem]

@[simp] theorem State.hsvCheck_mem (s : State) (t : Step) : (s.hsvCheck t).mem = s.mem := by
  unfold State.hsvCheck
  grind [State.raise_mem, State.unwrite_mem, State.updSession_mem, State.foldl_mem]

@[simp] theorem State.trimLayer_mem (s : State) (i l : Nat) (f : LayerForm) (fmt len : Nat) : (s.trimLayer i l f fmt len).mem = s.mem := by
  unfold State.trimLayer
  grind [State.dropPages_mem]

@[simp] theorem State.buildDigests_mem (s : State) (i l : Nat) (f : LayerForm) (old new : Nat) :
    (s.buildDigests i l f old new).mem = s.mem := by
  unfold State.buildDigests
  grind [State.emit_mem, State.foldl_mem]

theorem State.commitKv_safe (s : State) (i pos new : Nat) (hsafe : s.safe) : (s.commitKv i pos new).safe := by
  unfold State.commitKv
  split <;> grind [State.buildDigests_mem, State.mirrorKv_safe, State.settlePages_mem, State.trimLayer_mem, State.updSession_mem,
    State.foldl_safe, State.foldl_mem]

@[simp] theorem State.timeToken_mem (s : State) (q : ReqBlk) : (s.timeToken q).mem = s.mem := by simp [State.timeToken]

theorem State.commitSlot_safe (s : State) (n k : Nat) (hsafe : s.safe) : (s.commitSlot n k).safe := by
  unfold State.commitSlot
  split <;> grind [State.appendPb_mem, State.commitKv_safe, State.endRequest_mem, State.finishCancels_safe, State.timeToken_mem,
    State.updCust_mem, State.updSession_mem, State.updStep_mem, State.foldl_safe, State.foldl_mem]

/-! ### Images and runs (R24 to R35) -/

@[simp] theorem State.imgStatus_mem (s : State) (st slot reason : Nat) : (s.imgStatus st slot reason).mem = s.mem := by rfl

@[simp] theorem State.sweepImage_mem (s : State) (k : Nat) : (s.sweepImage k).mem = s.mem := by
  unfold State.sweepImage
  split <;> simp

@[simp] theorem State.drainImage_mem (s : State) (k : Nat) : (s.drainImage k).mem = s.mem := by simp [State.drainImage]

@[simp] theorem State.keepRecord_mem (s : State) (rq : Requester) (h : Nat) (rec : RunRec) : (s.keepRecord rq h rec).mem = s.mem := by rfl

@[simp] theorem State.refuseRun_mem (s : State) (r : RunReq) (st : Status) (aux : Nat) : (s.refuseRun r st aux).mem = s.mem := by rfl

theorem State.beginRun_safe (s : State) (c : Nat) (r : RunReq) (hsafe : s.safe) : (s.beginRun c r).safe := by
  unfold State.beginRun
  grind [State.setClerk_mem, State.unitServe_mem, State.zeroRange_safe]

theorem State.dispatchRun_safe (s : State) (n : Nat) (r : RunReq) (again : Bool) (hsafe : s.safe) : (s.dispatchRun n r again).safe := by
  unfold State.dispatchRun
  extract_lets pref here hub h q x
  split
  · exact State.beginRun_safe s _ r hsafe
  · split
    · simpa [State.safe, x] using hsafe
    · exact State.safe_of_mem (State.onTlr_mem s _) hsafe

@[simp] theorem State.cancelRuns_mem (s : State) (p : Word → Nat → Bool) : (s.cancelRuns p).mem = s.mem := by
  unfold State.cancelRuns
  grind [State.endRun_mem, State.keepRecord_mem, State.onTlr_mem, State.sweepImage_mem, State.foldl_mem]

theorem State.dequeueRun_safe (s : State) (h c : Nat) (hsafe : s.safe) : (s.dequeueRun h c).safe := by
  unfold State.dequeueRun
  grind [State.beginRun_safe, State.onTlr_mem]

/-! ### OPEN, BIND and DROP (R38 to R40, R211, R212) -/

@[simp] theorem State.mapBlob_mem (s : State) (i n : Nat) : (s.mapBlob i n).1.mem = s.mem := by
  unfold State.mapBlob
  grind [State.updSession_mem]

@[simp] theorem State.openSession_mem (s : State) (i n rights : Nat) (o : Word) : (s.openSession i n rights o).1.mem = s.mem := by
  simp [State.openSession]

theorem State.openNewSession_safe (s : State) (n req : Nat) (o : Word) (hsafe : s.safe) : (s.openNewSession n req o).1.safe := by
  unfold State.openNewSession
  grind [State.createSession_safe, State.openSession_mem, State.retryAfter_mem, State.updSession_mem]

@[simp] theorem State.openNewSignal_mem (s : State) (n req : Nat) (o : Word) : (s.openNewSignal n req o).1.mem = s.mem := by
  unfold State.openNewSignal
  grind [State.onTlr_mem]

@[simp] theorem State.openOld_mem (s : State) (n ty req : Nat) (o : Word) : (s.openOld n ty req o).1.mem = s.mem := by
  unfold State.openOld
  grind [State.openSession_mem, State.updCust_mem]

theorem State.openAny_safe (s : State) (n ty req : Nat) (o : Word) (hsafe : s.safe) : (s.openAny n ty req o).1.safe := by
  unfold State.openAny
  grind [State.openNewSession_safe, State.openNewSignal_mem, State.openOld_mem]

theorem doOpen_safe (o : Op) (s : State) (hsafe : s.safe) : (doOpen o s).safe := by
  unfold doOpen
  grind [State.deny_mem, State.finish_mem, State.openAny_safe, State.setClerk_mem, State.setHandle_mem]

@[simp] theorem doBind_mem (ix : Ix) (s : State) : (doBind ix s).mem = s.mem := by
  unfold doBind
  grind [State.advance_mem, State.setHandle_mem, State.trap_mem]

@[simp] theorem doDrop_mem (ix : Ix) (s : State) : (doDrop ix s).mem = s.mem := by simp [doDrop]

/-! ### LD, ST, AMO and the fences (R41 to R43, R206, R207, R220) -/

@[simp] theorem State.addrTrap_mem (s : State) (ix : Ix) : (s.addrTrap ix).mem = s.mem := by simp [State.addrTrap]

@[simp] theorem doLoadRo_mem (ix : Ix) (s : State) : (doLoadRo ix s).mem = s.mem := by simp [doLoadRo]

theorem State.privAccess_safe (s : State) (ix : Ix) (key : Nat) (stack : Bool) (hsafe : s.safe) : (s.privAccess ix key stack).safe := by
  unfold State.privAccess
  grind [State.clerkMem_safe, State.holdWrite_mem, State.setClerk_mem]

theorem doMem_safe (ix : Ix) (s : State) (hsafe : s.safe) : (doMem ix s).safe := by
  unfold doMem
  grind [State.addrTrap_mem, State.clerkNode_safe, State.domIssue_safe, State.privAccess_safe, State.trap_mem]

theorem doLd_safe (ix : Ix) (s : State) (hsafe : s.safe) : (doLd ix s).safe := by
  unfold doLd
  grind [doLoadRo_mem, doMem_safe]

@[simp] theorem doEscrow_mem (key : Nat) (op : EscOp) (fence : Bool) (o : Op) (h : Handle) (s : State) :
    (doEscrow key op fence o h s).mem = s.mem := by
  simp [doEscrow]

theorem State.issueEscrow_safe (s : State) (ix : Ix) (op : EscOp) (fence : Bool) (hsafe : s.safe) : (s.issueEscrow ix op fence).safe := by
  unfold State.issueEscrow
  grind [State.issueH_safe, State.onTlr_mem, doEscrow_mem]

/-! ### Statements and Counterfoils -/

@[simp] theorem State.jobStatus_mem (s : State) (ix reason st : Nat) : (s.jobStatus ix reason st).mem = s.mem := by rfl

theorem State.takeSlots_safe (s : State) (ctx j : Nat) (d : JobDesc) (hsafe : s.safe) : (s.takeSlots ctx j d).1.safe := by
  unfold State.takeSlots
  grind [State.allocMany_safe]

@[simp] theorem State.addJob_mem (s : State) (j : Nat) (d : JobDesc) (fs : List (Nat × Nat)) : (s.addJob j d fs).mem = s.mem := by
  simp [State.addJob]

@[simp] theorem State.abortStatement_mem (s : State) (j : Nat) : (s.abortStatement j).mem = s.mem := by
  unfold State.abortStatement
  grind [State.abortR_mem, State.publishJob_mem, State.updJob_mem, State.foldl_mem]

@[simp] theorem State.deleteJob_mem (s : State) (j : Nat) : (s.deleteJob j).mem = s.mem := by
  unfold State.deleteJob
  split <;> simp

@[simp] theorem State.coordNotice_mem (s : State) (d own : JobDesc) (n : StmNotice) : (s.coordNotice d own n).mem = s.mem := by
  unfold State.coordNotice
  grind [State.onStm_mem, State.raise_mem]

@[simp] theorem State.sendNotice_mem (s : State) (x : StmJob) (v : Statement) : (s.sendNotice x v).mem = s.mem := by
  simp [State.sendNotice]

@[simp] theorem State.openStatement_mem (s : State) (j k step : Nat) (r : Rcpt) : (s.openStatement j k step r).mem = s.mem := by
  unfold State.openStatement
  grind [State.finishR_mem, State.publishJob_mem, State.updJob_mem]

@[simp] theorem State.resumeBegin_mem (s : State) (j : Nat) : (s.resumeBegin j).mem = s.mem := by
  unfold State.resumeBegin
  (repeat' split) <;> simp

@[simp] theorem State.endFlush_mem (s : State) (j : Nat) : (s.endFlush j).mem = s.mem := by
  unfold State.endFlush
  grind [State.publishJob_mem, State.resumeBegin_mem, State.updJob_mem]

@[simp] theorem State.applyFlash_mem (s : State) (j step : Nat) : (s.applyFlash j step).mem = s.mem := by
  unfold State.applyFlash
  grind [State.dropExtent_mem, State.updJob_mem, State.wr_mem, State.foldl_mem]

@[simp] theorem State.coordFlash_mem (s : State) (d : JobDesc) (rank step : Nat) : (s.coordFlash d rank step).mem = s.mem := by
  unfold State.coordFlash
  grind [State.applyFlash_mem, State.onStm_mem, State.send_mem, State.foldl_mem]

@[simp] theorem State.flashCommitted_mem (s : State) (j : Nat) : (s.flashCommitted j).mem = s.mem := by
  unfold State.flashCommitted
  (repeat' split) <;> simp

@[simp] theorem State.stmProgrammed_mem (s : State) (j : Nat) : (s.stmProgrammed j).mem = s.mem := by
  unfold State.stmProgrammed
  grind [State.flashCommitted_mem, State.updJob_mem]

@[simp] theorem State.flushParts_mem (s : State) (j : Nat) (parts : List (List (List Byte))) : (s.flushParts j parts).1.mem = s.mem := by
  unfold State.flushParts
  refine State.foldl_fst_mem (fun a p => ?_) _ _
  split
  · rfl
  · extract_lets e
    have he : e.1.mem = a.1.mem := State.newExtent_mem a.1 _ _ _ _
    split
    · simpa using he
    · extract_lets w
      split <;> simpa [w] using he

@[simp] theorem State.applyShape_mem (s : State) (j step : Nat) (shape : List Byte) : (s.applyShape j step shape).mem = s.mem := by
  unfold State.applyShape
  grind [State.finishR_mem, State.publishJob_mem, State.raise_mem, State.send_mem, State.updJob_mem, State.wr_mem, State.foldl_mem]

@[simp] theorem State.coordCommit_mem (s : State) (d : JobDesc) (rank step : Nat) (part : List Byte) :
    (s.coordCommit d rank step part).mem = s.mem := by
  unfold State.coordCommit
  grind [State.applyShape_mem, State.onStm_mem, State.send_mem, State.foldl_mem]

@[simp] theorem State.memberCommit_mem (s : State) (j : Nat) (refs : List (Nat × Nat × Nat)) : (s.memberCommit j refs).mem = s.mem := by
  unfold State.memberCommit
  grind [State.coordCommit_mem, State.sendCfPage_mem, State.send_mem, State.updJob_mem, State.foldl_mem]

@[simp] theorem State.stmAdvance_mem (s : State) (j : Nat) : (s.stmAdvance j).mem = s.mem := by
  unfold State.stmAdvance
  split <;> grind [State.memberCommit_mem, State.sendNotice_mem, State.updJob_mem]

@[simp] theorem State.loseCfPeer_mem (s : State) (j : Nat) : (s.loseCfPeer j).mem = s.mem := by
  unfold State.loseCfPeer
  grind [State.raise_mem, State.stmAdvance_mem, State.updJob_mem]

@[simp] theorem doStmtBegin_mem (told : Bool) (o : Op) (h : Handle) (s : State) : (doStmtBegin told o h s).mem = s.mem := by
  unfold doStmtBegin
  grind [State.deny_mem, State.openStatement_mem, State.raise_mem, State.updJob_mem]

@[simp] theorem doStmtAdd_mem (o : Op) (h : Handle) (s : State) : (doStmtAdd o h s).mem = s.mem := by
  unfold doStmtAdd
  extract_lets j
  split
  · exact State.deny_mem s o 2
  · split
    · exact State.deny_mem s o 2
    · extract_lets all
      clear_value all
      split
      · exact State.deny_mem s o 2
      · simp only [State.ite_mem, State.finish_mem, State.settleAdds_mem, State.updJob_mem, ite_self]

@[simp] theorem doStmtCommit_mem (o : Op) (h : Handle) (s : State) : (doStmtCommit o h s).mem = s.mem := by
  unfold doStmtCommit
  grind [State.deny_mem, State.stmAdvance_mem, State.updJob_mem]

theorem State.releaseHeldWrite_safe (s : State) (page : Nat) (w : HoldWho) (hsafe : s.safe) : (s.releaseHeldWrite page w).safe := by
  unfold State.releaseHeldWrite
  split <;> grind [State.nmcServe_safe, State.setClerk_mem, State.wakeMem_safe]

theorem State.releasePage_safe (s : State) (page : Nat) (hsafe : s.safe) : (s.releasePage page).safe := by
  unfold State.releasePage
  grind [State.onStm_mem, State.releaseHeldWrite_safe, State.settleNmc_safe, State.wr_mem, State.foldl_safe, State.foldl_mem]

@[simp] theorem State.restoreStatus_mem (s : State) (step reason st : Nat) : (s.restoreStatus step reason st).mem = s.mem := by rfl

theorem State.Canonical.writeMem {s : State} (hs : s.Canonical) (key : Nat) (bs : List Byte) : (s.writeMem key bs).1.Canonical :=
  State.writeMem_safe s key bs hs

theorem State.copyBack_safe (s : State) (x : StmJob) (v : Statement) (page : Nat → List Byte) (hsafe : s.safe) :
    (s.copyBack x v page).safe := by
  unfold State.copyBack
  refine foldl_inv (P := State.Canonical) (fun t h ht => foldl_inv (P := State.Canonical) (fun u k hu => ?_) ht _) hsafe _
  exact State.Canonical.option hu fun key => State.Canonical.writeMem (State.copyFirst_safe u key _ hu) _ _

theorem State.restoreFrom_safe (s : State) (j step : Nat) (remote : List (List Byte)) (hsafe : s.safe) :
    (s.restoreFrom j step remote).1.safe := by
  unfold State.restoreFrom
  grind [State.abortStatement_mem, State.copyBack_safe, State.raise_mem, State.updJob_mem]

theorem State.restoreFlash_safe (s : State) (j : Nat) (remote : List (List Byte)) (hsafe : s.safe) : (s.restoreFlash j remote).1.safe := by
  unfold State.restoreFlash
  grind [State.abortStatement_mem, State.copyBack_safe]

theorem State.rollbackTo_safe (s : State) (j step : Nat) (remote : List (List Byte)) (hsafe : s.safe) :
    (s.rollbackTo j step remote).safe := by
  unfold State.rollbackTo
  grind [State.publishJob_mem, State.raise_mem, State.restoreFrom_safe, State.restoreStatus_mem, State.updJob_mem, State.wr_mem]

theorem State.coordLost_safe (s : State) (tag : Word) (c : Nat) (hsafe : s.safe) : (s.coordLost tag c).safe := by
  unfold State.coordLost
  dsimp only
  (repeat' split) <;> grind [State.onStm_mem, State.restoreStatus_mem, State.rollbackTo_safe, State.send_mem, State.foldl_safe,
    State.foldl_mem]

theorem State.stmControllerLost_safe (s : State) (c : Nat) (hsafe : s.safe) : (s.stmControllerLost c).safe := by
  unfold State.stmControllerLost
  grind [State.coordCommit_mem, State.coordLost_safe, State.loseCfPeer_mem, State.sendNotice_mem, State.send_mem, State.updJob_mem,
    State.foldl_safe, State.foldl_mem]

/-! ### Lent DRAM (R66, R306) -/

@[simp] theorem State.dropPiece_mem (s : State) (p : T4Piece) : (s.dropPiece p).mem = s.mem := by simp [State.dropPiece]

/-! ### Vector search -/

@[simp] theorem State.updColl_mem (s : State) (i : Nat) (f : Coll → Coll) : (s.updColl i f).mem = s.mem := by
  unfold State.updColl
  grind [State.onVsr_mem]

@[simp] theorem State.publishVec_mem (s : State) : s.publishVec.mem = s.mem := by rfl

@[simp] theorem State.collStatus_mem (s : State) (ix reason st : Nat) : (s.collStatus ix reason st).mem = s.mem := by rfl

@[simp] theorem State.searchDone_mem (s : State) (r : Rcpt) (st : Status) (aux : Nat) (w1 : Word) :
    (s.searchDone r st aux w1).mem = s.mem := by
  simp [State.searchDone]

@[simp] theorem State.freeStale_mem (s : State) (i : Nat) : (s.freeStale i).mem = s.mem := by
  unfold State.freeStale
  grind [State.dropExtent_mem, State.updColl_mem, State.foldl_mem]

@[simp] theorem State.queuePasses_mem (s : State) (op : Nat) (byChan : List (Nat × List (Nat × Nat))) (after : Option (F32 × Nat)) :
    (s.queuePasses op byChan after).mem = s.mem := by
  rfl

@[simp] theorem State.scan_mem (s : State) (op : Nat) (k : Coll) (x : VSearch) (ps : List Nat) : (s.scan op k x ps).mem = s.mem := by
  simp [State.scan]

@[simp] theorem State.startQuery_mem (s : State) (op : Nat) : (s.startQuery op).mem = s.mem := by
  unfold State.startQuery
  (repeat' split) <;> simp

@[simp] theorem State.nextQuery_mem (s : State) (h : Nat) : (s.nextQuery h).mem = s.mem := by
  unfold State.nextQuery
  (repeat' split) <;> simp

@[simp] theorem State.endQuery_mem (s : State) (op : Nat) : (s.endQuery op).mem = s.mem := by
  unfold State.endQuery
  split <;> simp

theorem doSearch_safe (o : Op) (h : Handle) (s : State) (hsafe : s.safe) : (doSearch o h s).safe := by
  unfold doSearch
  grind [State.count_mem, State.deny_mem, State.doneNow_mem, State.nextQuery_mem, State.onVsr_mem, State.raise_mem, State.readPriv_safe,
    State.retryAfter_mem, State.searchDone_mem, State.setClerk_mem, OptSafe]

theorem State.deliver_safe (s : State) (op : Nat) (x : VSearch) (recs : List (List Byte)) (degraded : Bool) (w1 : Nat) (hsafe : s.safe) :
    (s.deliver op x recs degraded w1).safe := by
  unfold State.deliver
  grind [State.count_mem, State.endQuery_mem, State.raise_mem, State.searchDone_mem, State.writePriv_safe, OptSafe]

theorem State.roundEnd_safe (s : State) (op : Nat) (hsafe : s.safe) : (s.roundEnd op).safe := by
  unfold State.roundEnd
  grind [State.deliver_safe, State.onVsr_mem, State.queuePasses_mem, State.scan_mem, State.foldl_safe, State.foldl_mem]

theorem State.roundsEnd_safe (s : State) (op fuel : Nat) (h : s.safe) : (s.roundsEnd op fuel).safe := by
  induction fuel generalizing s with
  | zero => exact h
  | succ fuel ih =>
    unfold State.roundsEnd
    grind [State.roundEnd_safe]

/-! ### Writes of vector collections -/

@[simp] theorem State.putUnits_mem (s : State) (own : FlashOwner) (l : List UnitWr) : (s.putUnits own l).1.mem = s.mem := by
  unfold State.putUnits
  grind [State.flashPut_mem, State.foldl_mem, State.foldl_fst_mem]

@[simp] theorem State.growColl_mem (s : State) (i : Nat) (us : List Nat) (pgs : List (Nat × Nat)) : (s.growColl i us pgs).mem = s.mem := by
  unfold State.growColl
  grind [State.newExtent_mem, State.updColl_mem, State.foldl_mem]

@[simp] theorem State.journalColl_mem (s : State) (i : Nat) (bs : List Byte) : (s.journalColl i bs).1.mem = s.mem := by
  unfold State.journalColl
  split <;> simp

@[simp] theorem State.vwriteDone_mem (s : State) (i : Nat) : (s.vwriteDone i).mem = s.mem := by
  unfold State.vwriteDone
  grind [State.finishR_mem, State.setDirty_mem, State.updColl_mem, State.foldl_mem]

@[simp] theorem State.vecProgrammed_mem (s : State) (i id : Nat) : (s.vecProgrammed i id).mem = s.mem := by
  unfold State.vecProgrammed
  grind [State.updColl_mem, State.vwriteDone_mem]

@[simp] theorem State.vwriteExec_mem (s : State) (o : Op) (i : Nat) (new : Coll) (count jbytes : Nat) (us : List Nat)
    (pgs : List (Nat × Nat)) (jdata : List Byte) :
    (s.vwriteExec o i new count jbytes us pgs jdata).mem = s.mem := by
  unfold State.vwriteExec
  grind [State.addDirty_mem, State.growColl_mem, State.journalColl_mem, State.onVsr_mem, State.publishVec_mem, State.putUnits_mem,
    State.setClerk_mem, State.updColl_mem, State.vwriteDone_mem]

theorem State.vwriteTry_safe (s wait : State) (o : Op) (i : Nat) (k new : Coll) (count : Nat) (slots : List Nat) (insert : Bool)
    (hs : s.safe) (hw : wait.safe) :
    (s.vwriteTry wait o i k new count slots insert).safe := by
  unfold State.vwriteTry
  extract_lets us pgs fresh tombs jbytes t
  have ht : t.safe := State.ite_safe (State.safe_of_mem (State.closePool_mem s) hs) hs
  split
  · exact State.safe_of_mem (State.finish_mem s o _ _ _) hs
  · split
    · split <;> exact State.safe_of_mem (State.finish_mem s o _ _ _) hs
    · refine State.ite_safe (State.safe_of_mem (State.abortR_mem s _ _) hs) ?_
      refine State.ite_safe (State.safe_of_mem (State.finish_mem s o _ _ _) hs) ?_
      refine State.ite_safe (State.safe_of_mem (State.finish_mem t o _ _ _) ht) ?_
      exact State.ite_safe hw (State.safe_of_mem (State.vwriteExec_mem t o _ _ _ _ _ _ _) ht)

theorem doVinsert_safe (wait : State) (o : Op) (x : Handle) (s : State) (hw : wait.safe) (hs : s.safe) : (doVinsert wait o x s).safe := by
  unfold doVinsert
  dsimp only
  (repeat' split) <;> grind [State.deny_mem, State.opRead_safe, State.vwriteTry_safe]

theorem doVdelete_safe (wait : State) (o : Op) (x : Handle) (s : State) (hw : wait.safe) (hs : s.safe) : (doVdelete wait o x s).safe := by
  unfold doVdelete
  grind [State.deny_mem, State.opRead_safe, State.vwriteTry_safe]

@[simp] theorem State.endFold_mem (s : State) (i : Nat) (k : Coll) (f : VFold) : (s.endFold i k f).mem = s.mem := by
  unfold State.endFold
  grind [State.freeStale_mem, State.growColl_mem, State.journalColl_mem, State.publishVec_mem, State.putUnits_mem, State.raise_mem,
    State.updColl_mem]

@[simp] theorem State.dropColl_mem (s : State) (i : Nat) : (s.dropColl i).mem = s.mem := by
  unfold State.dropColl
  grind [State.abortR_mem, State.dropExtent_mem, State.endQuery_mem, State.onVsr_mem, State.publishLost_mem, State.publishVec_mem,
    State.searchDone_mem, State.setDirty_mem, State.updColl_mem, State.foldl_mem]

/-! ### Programmed flash writes (R234) and map changes -/

theorem State.programDone_safe (s : State) (id : Nat) (hsafe : s.safe) : (s.programDone id).safe := by
  unfold State.programDone
  grind [State.flashProgramDone_mem, State.granuleParked_safe, State.ledgerProgrammed_mem, State.parkProgrammed_mem,
    State.pbProgrammed_mem, State.setDirty_mem, State.stmProgrammed_mem, State.vecProgrammed_mem]

theorem State.peerLost_safe (s : State) (c : Nat) (hsafe : s.safe) : (s.peerLost c).safe := by
  unfold State.peerLost
  extract_lets ids u v w
  have hu : u.safe := by
    refine State.foldl_safe (fun t i ht => ?_) _ s hsafe
    split
    · exact ht
    · rename_i x _
      extract_lets a b c' d
      have ha : a.safe := by
        dsimp only [a]
        split <;> grind [State.updSession_mem, State.abortR_mem]
      clear_value a
      have hb : b.safe := by
        dsimp only [b]
        grind [State.loseParked_safe, State.dropGrant_mem, State.updSession_mem]
      clear_value b
      have hc : c'.safe := State.safe_of_mem (State.updSession_mem b i _) hb
      grind [State.losePb_safe, State.updSession_mem]
  have hv : v.safe := State.safe_of_mem (State.foldl_mem (fun t p => State.dropPiece_mem t p) _ u) hu
  exact State.stmControllerLost_safe w c (State.safe_of_mem (State.onDfb_mem v _) hv)

@[simp] theorem State.publishMaster_mem (s : State) : s.publishMaster.mem = s.mem := by
  unfold State.publishMaster
  split <;> simp

@[simp] theorem State.completeCut_mem (s : State) : s.completeCut.mem = s.mem := by
  unfold State.completeCut
  grind [State.addDirty_mem, State.onBoot_mem, State.setFld_mem, State.updSession_mem, State.foldl_mem]

/-! ### Completion and cancellation (R48, R49, R75) -/

theorem State.cancelMove_mem (s : State) (r : Rcpt) (i : Nat) (t : State) (ht : s.cancelMove r i = some t) : t.mem = s.mem := by
  unfold State.cancelMove at ht
  grind [State.cancelRevive_mem, State.dropPages_mem, State.undoPlace_mem, State.updSession_mem]

@[simp] theorem State.cancelAttn_mem (s : State) (n : Nat) : (s.cancelAttn n).mem = s.mem := by rfl

theorem State.cancelSubmit_safe (s : State) (r : Rcpt) (i : Nat) (hsafe : s.safe) : (s.cancelSubmit r i).safe := by
  unfold State.cancelSubmit
  grind [State.endRequest_mem, State.finishCancels_safe, State.updSession_mem]

theorem State.cancelOp_safe (s : State) (r : Rcpt) (k : OpKind) (h : s.safe) (t : State) (ht : s.cancelOp r k = some t) : t.safe := by
  unfold State.cancelOp at ht
  grind [State.cancelMove_mem, State.cancelAttn_mem, State.cancelSubmit_safe, State.onSch_mem, State.count_mem, State.endQuery_mem,
    State.onDfb_mem, State.updJob_mem]

@[simp] theorem State.ownArrives_mem (s : State) (c k : Nat) : (s.ownArrives c k).mem = s.mem := by
  unfold State.ownArrives
  grind [State.completeSlot_mem, State.raise_mem, State.setClerk_mem]

theorem State.cancelArrives_safe (s : State) (c k : Nat) (hsafe : s.safe) : (s.cancelArrives c k).safe := by
  unfold State.cancelArrives
  grind [State.cancelOp_safe, State.completeSlot_mem]

/-! ### The loss of a port (R286, R312) -/

@[simp] theorem State.loseConns_mem (s : State) (p : Nat) : (s.loseConns p).mem = s.mem := by
  unfold State.loseConns
  grind [State.onSec_mem, State.send_mem, State.foldl_mem]

theorem State.portLost_safe (s : State) (p : Nat) (hsafe : s.safe) : (s.portLost p).safe := by
  unfold State.portLost
  grind [State.dropFrames_mem, State.failAgent_safe, State.groupOff_safe, State.loseConns_mem, State.propose_mem]

theorem State.portOff_safe (s : State) (p : Nat) (hsafe : s.safe) : (s.portOff p).safe := by
  unfold State.portOff
  grind [State.portDown_mem, State.portLost_safe]

/-! ### Flush and reset (R365, R387 to R390) -/

theorem State.programTill_safe (s : State) (hsafe : s.safe) : s.programTill.safe := by
  unfold State.programTill
  grind [State.programDone_safe, State.foldl_safe, State.foldl_mem]

@[simp] theorem State.allPbFlash_mem (s : State) : s.allPbFlash.mem = s.mem := by rfl

theorem State.flushTier1_safe (s : State) (hsafe : s.safe) : s.flushTier1.safe := by
  unfold State.flushTier1
  grind [State.allPbFlash_mem, State.journalOut_mem, State.ledgerWrite_mem, State.onPwr_mem, State.pbWrite_mem, State.programTill_safe,
    State.setDirty_mem, State.foldl_safe, State.foldl_mem]

theorem State.flushCopy_safe (s : State) (i : Nat) (hsafe : s.safe) : (s.flushCopy i).safe := by
  unfold State.flushCopy
  dsimp only
  (repeat' split) <;> grind [State.allPieces_safe, State.dropExtent_mem, State.flashPut_mem, State.newExtent_mem, State.onPwr_mem,
    State.programDone_safe]

theorem State.flushAll_safe (s : State) (hsafe : s.safe) : s.flushAll.safe := by
  unfold State.flushAll
  grind [State.flushCopy_safe, State.flushTier1_safe, State.foldl_safe, State.foldl_mem]

theorem State.doReset_safe (s : State) (clean thermal : Bool) : (s.doReset clean thermal).safe :=
  reset_mem_wf

/-! ### Freeze (R222, R375 to R381) -/

@[simp] theorem State.frzStatus_mem (s : State) (st cause : Nat) : (s.frzStatus st cause).mem = s.mem := by rfl

@[simp] theorem State.freezeNow_mem (s : State) (cause clerk code : Nat) : (s.freezeNow cause clerk code).mem = s.mem := by
  simp [State.freezeNow]

@[simp] theorem State.requestFreeze_mem (s : State) (cause clerk code : Nat) : (s.requestFreeze cause clerk code).mem = s.mem := by
  simp [State.requestFreeze]

theorem State.retrainAll_safe (s : State) (hsafe : s.safe) : s.retrainAll.safe := by
  unfold State.retrainAll
  grind [State.dropFrames_mem, State.portDown_mem, State.portLost_safe, State.portTo_mem, State.foldl_safe, State.foldl_mem]

@[simp] theorem State.erasesResume_mem (s : State) : s.erasesResume.mem = s.mem := by simp [State.erasesResume]

theorem State.thaw_safe (s : State) (elapsedNs : Nat) (hsafe : s.safe) : (s.thaw elapsedNs).safe := by
  unfold State.thaw
  grind [State.erasesResume_mem, State.frzStatus_mem, State.onFrz_mem, State.onTlr_mem, State.raise_mem, State.retrainAll_safe,
    State.setFld_mem]

@[simp] theorem State.tapTo_mem (s : State) (tap code : Nat) (v : Word) : (s.tapTo tap code v).mem = s.mem := by simp [State.tapTo]

/-! ### Power and the flush (R354 to R368) -/

@[simp] theorem State.pwrTo_mem (s : State) (st : Nat) : (s.pwrTo st).mem = s.mem := by simp [State.pwrTo]

@[simp] theorem State.huEn_mem (s : State) (on : Bool) : (s.huEn on).mem = s.mem := by rfl

@[simp] theorem State.coreMv_mem (s : State) (mv : Nat) : (s.coreMv mv).mem = s.mem := by rfl

@[simp] theorem State.coreFree_mem (s : State) : s.coreFree.mem = s.mem := by rfl

@[simp] theorem State.enterHold_mem (s : State) (rack : Bool) : (s.enterHold rack).mem = s.mem := by simp [State.enterHold]

@[simp] theorem State.leaveHold_mem (s : State) : s.leaveHold.mem = s.mem := by simp [State.leaveHold]

theorem State.enterFlush_safe (s : State) (onFail : Bool) (hsafe : s.safe) : (s.enterFlush onFail).safe := by
  unfold State.enterFlush
  grind [State.abortStep_safe, State.coreMv_mem, State.huEn_mem, State.onFls_mem, State.onPwr_mem, State.portOff_safe, State.pwrTo_mem,
    State.raise_mem, State.setFld_mem, State.thaw_safe, State.foldl_safe, State.foldl_mem]

@[simp] theorem State.askRejoin_mem (s : State) : s.askRejoin.mem = s.mem := by
  unfold State.askRejoin
  (repeat' split) <;> simp

@[simp] theorem State.enterResuming_mem (s : State) : s.enterResuming.mem = s.mem := by simp [State.enterResuming]

@[simp] theorem State.resumed_mem (s : State) : s.resumed.mem = s.mem := by
  unfold State.resumed
  grind [State.dropExtent_mem, State.erasesResume_mem, State.freezeNow_mem, State.journalOut_mem, State.onPwr_mem, State.pwrTo_mem,
    State.raise_mem, State.foldl_mem]

theorem State.flushTier2_safe (s : State) (l : List Nat) (hsafe : s.safe) : (s.flushTier2 l).safe := by
  unfold State.flushTier2
  grind [State.flushCopy_safe, State.onPwr_mem, State.foldl_safe, State.foldl_mem]

theorem State.moduleFlush_safe (s : State) (hsafe : s.safe) : s.moduleFlush.safe := by
  unfold State.moduleFlush
  grind [State.dropExtent_mem, State.flushAll_safe, State.onPwr_mem, State.foldl_safe, State.foldl_mem]

theorem State.moduleReset_safe (s : State) (thermal : Bool) (hsafe : s.safe) : (s.moduleReset thermal).safe := by
  unfold State.moduleReset
  grind [State.doReset_safe, State.moduleFlush_safe, State.onPwr_mem]

@[simp] theorem State.cornerExceeded_mem (s : State) : s.cornerExceeded.mem = s.mem := by simp [State.cornerExceeded]

@[simp] theorem State.rackClear_mem (s : State) : s.rackClear.mem = s.mem := by
  unfold State.rackClear
  grind [State.leaveHold_mem, State.onPwr_mem]

@[simp] theorem State.bankAt_mem (s : State) (v : Nat) : (s.bankAt v).mem = s.mem := by rfl

@[simp] theorem State.bankHours_mem (s : State) : s.bankHours.mem = s.mem := by simp [State.bankHours]

@[simp] theorem State.bankStart_mem (s : State) : s.bankStart.mem = s.mem := by rfl

/-! ### The timebase (R370 to R374) -/

@[simp] theorem State.revalidate_mem (s : State) : s.revalidate.mem = s.mem := by simp [State.revalidate]

@[simp] theorem State.settleRef_mem (s : State) : s.settleRef.mem = s.mem := by simp [State.settleRef]

@[simp] theorem State.setOffset_mem (s : State) (off : Int) : (s.setOffset off).mem = s.mem := by rfl

@[simp] theorem State.discipline_mem (s : State) (off : Int) : (s.discipline off).mem = s.mem := by simp [State.discipline]

@[simp] theorem State.slewTick_mem (s : State) : s.slewTick.mem = s.mem := by simp [State.slewTick]

@[simp] theorem State.ptpRoles_mem (s : State) : s.ptpRoles.mem = s.mem := by simp [State.ptpRoles]

@[simp] theorem State.drainTrace_mem (s : State) : s.drainTrace.mem = s.mem := by
  unfold State.drainTrace
  grind [State.sendOn_mem, State.foldl_mem]

@[simp] theorem State.tick_mem (s : State) : s.tick.mem = s.mem := by simp [State.tick]

/-! ### Failed links, hubs and stacks (R7 to R12, R23) -/

@[simp] theorem State.poisonRange_mem (s : State) (lo hi : Nat) : (s.poisonRange lo hi).mem = s.mem := by simp [State.poisonRange]

theorem State.abortEntries_safe (s : State) (i : Nat) (hsafe : s.safe) : (s.abortEntries i).safe := by
  unfold State.abortEntries
  grind [State.onKva_mem, State.progress_safe, State.updAttn_mem, State.foldl_safe, State.foldl_mem]

theorem State.sessLosesKv_safe (s : State) (m i : Nat) (hsafe : s.safe) : (s.sessLosesKv m i).safe := by
  unfold State.sessLosesKv
  grind [State.abortEntries_safe, State.abortR_mem, State.dropClean_mem, State.dropPages_mem, State.losePages_mem, State.updSession_mem]

theorem State.sessLosesPb_safe (s : State) (m i : Nat) (hsafe : s.safe) : (s.sessLosesPb m i).safe := by
  unfold State.sessLosesPb
  grind [State.losePb_safe, State.loseSession_safe, State.onSsn_mem, State.updSession_mem]

@[simp] theorem State.storesLose_mem (s : State) (m : Nat) : (s.storesLose m).mem = s.mem := by simp [State.storesLose]

theorem State.loseStack_safe (s : State) (m : Nat) (hsafe : s.safe) : (s.loseStack m).safe := by
  unfold State.loseStack
  grind [State.onKva_mem, State.onSsn_mem, State.raise_mem, State.sessLosesKv_safe, State.sessLosesPb_safe, State.setEngine_mem,
    State.setFld_mem, State.storesLose_mem, State.wr_mem, State.foldl_safe, State.foldl_mem]

@[simp] theorem State.setRepair_mem (s : State) (m : Nat) (r : StackRep) : (s.setRepair m r).mem = s.mem := by
  unfold State.setRepair
  grind [State.mramWrite_mem, State.onArch_mem]

theorem State.takeOffline_safe (s : State) (m : Nat) (hsafe : s.safe) : (s.takeOffline m).safe := by
  unfold State.takeOffline
  grind [State.loseStack_safe, State.onArch_mem, State.poisonRange_mem, State.foldl_safe, State.foldl_mem]

@[simp] theorem State.retireFrame_mem (s : State) (m f : Nat) : (s.retireFrame m f).mem = s.mem := by simp [State.retireFrame]

theorem State.framesLose_safe (s : State) (m : Nat) (frames : List Nat) (hsafe : s.safe) : (s.framesLose m frames).safe := by
  unfold State.framesLose
  grind [State.abortEntries_safe, State.dropClean_mem, State.losePages_mem, State.onStm_mem, State.foldl_safe, State.foldl_mem]

@[simp] theorem State.publishHubs_mem (s : State) : s.publishHubs.mem = s.mem := by rfl

@[simp] theorem State.declareHub_mem (s : State) (h : Nat) : (s.declareHub h).mem = s.mem := by simp [State.declareHub]

@[simp] theorem State.loseClerk_mem (s : State) (c : Nat) : (s.loseClerk c).mem = s.mem := by
  unfold State.loseClerk
  grind [State.count_mem, State.dropOpened_mem, State.keepRecord_mem, State.leaveSignals_mem, State.setClerk_mem, State.setHandle_mem,
    State.sweepImage_mem, State.foldl_mem]

@[simp] theorem State.dropClerkWork_mem (s : State) (h : Nat) : (s.dropClerkWork h).mem = s.mem := by simp [State.dropClerkWork]

@[simp] theorem State.abortDependents_mem (s : State) (h : Nat) : (s.abortDependents h).mem = s.mem := by simp [State.abortDependents]

theorem State.redispatch_safe (s : State) (h : Nat) (hsafe : s.safe) : (s.redispatch h).safe := by
  unfold State.redispatch
  grind [State.dispatchRun_safe, State.keepRecord_mem, State.onTlr_mem, State.raise_mem, State.sweepImage_mem, State.foldl_safe,
    State.foldl_mem]

theorem State.dirLoses_safe (s : State) (h : Nat) (hsafe : s.safe) : (s.dirLoses h).safe := by
  unfold State.dirLoses
  grind [State.dirResume_safe, State.endRegions_mem, State.onNmc_mem, State.settleNmc_safe, State.foldl_safe, State.foldl_mem]

@[simp] theorem State.moveRegHub_mem (s : State) : s.moveRegHub.mem = s.mem := by
  unfold State.moveRegHub
  (repeat' split) <;> simp

theorem State.failHub_safe (s : State) (h : Nat) (hsafe : s.safe) : (s.failHub h).safe := by
  unfold State.failHub
  (repeat' split) <;> grind [State.abortDependents_mem, State.dirLoses_safe, State.dropClerkWork_mem, State.failAgent_safe,
    State.loseClerk_mem, State.loseStack_safe, State.moveRegHub_mem, State.onArch_mem, State.onSch_mem, State.poisonRange_mem,
    State.portOff_safe, State.publishHubs_mem, State.raise_mem, State.redispatch_safe, State.refreshBudget_mem, State.settleGroups_safe,
    State.settleRef_mem, State.updPort_mem, State.foldl_safe, State.foldl_mem]

/-! ### Bring-up and replay (R383 to R394) -/

@[simp] theorem State.trySource_mem (s : State) : s.trySource.mem = s.mem := by
  unfold State.trySource
  split <;> simp

theorem State.sourceFailed_safe (s : State) (k : Nat) (hsafe : s.safe) : (s.sourceFailed k).safe := by
  unfold State.sourceFailed
  grind [State.onBoot_mem, State.portOff_safe, State.trySource_mem]

@[simp] theorem State.fwRuns_mem (s : State) (i : FwImage) : (s.fwRuns i).mem = s.mem := by rfl

@[simp] theorem State.startStacks_mem (s : State) : s.startStacks.mem = s.mem := by
  unfold State.startStacks
  grind [State.setFld_mem, State.foldl_mem]

@[simp] theorem State.openPool_mem (s : State) (m base : Nat) : (s.openPool m base).mem = s.mem := by rfl

@[simp] theorem State.divideDram_mem (s : State) : s.divideDram.mem = s.mem := by simp [State.divideDram]

@[simp] theorem State.recountFlash_mem (s : State) (kept : Word × Word × Word × Nat) : (s.recountFlash kept).mem = s.mem := by
  simp [State.recountFlash]

@[simp] theorem State.restoreSessions_mem (s : State) (x : Saved) : (s.restoreSessions x).mem = s.mem := by rfl

@[simp] theorem State.restoreColls_mem (s : State) (x : Saved) : (s.restoreColls x).mem = s.mem := by
  unfold State.restoreColls
  grind [State.onVsr_mem, State.publishVec_mem, State.wr_mem, State.foldl_mem]

theorem State.restoreJobs_safe (s : State) (x : Saved) (hsafe : s.safe) : (s.restoreJobs x).safe := by
  unfold State.restoreJobs
  refine State.foldl_safe (fun t r ht => ?_) _ _ (State.safe_of_mem (State.onStm_mem s _) hsafe)
  have hp := State.takeSlots_safe t r.2.desc.ctx r.1 r.2.desc ht
  dsimp only
  generalize t.takeSlots r.2.desc.ctx r.1 r.2.desc = p at hp ⊢
  split
  · exact hp
  · split <;> split <;> simpa [State.safe] using hp

theorem State.readBack_safe (s : State) (hsafe : s.safe) : s.readBack.safe := by
  unfold State.readBack
  grind [State.onBoot_mem, State.onDfb_mem, State.onSch_mem, State.publishDfb_mem, State.restoreColls_mem, State.restoreJobs_safe,
    State.restoreSessions_mem, State.setFld_mem]

theorem State.bringFlash_safe (s : State) (lost : Bool) (hsafe : s.safe) : (s.bringFlash lost).safe := by
  unfold State.bringFlash
  grind [State.erasesResume_mem, State.flsFormat_mem, State.onBoot_mem, State.poolTo_mem, State.raise_mem, State.readBack_safe,
    State.recountFlash_mem, State.wr_mem]

theorem State.hubOut_safe (s : State) (h : Nat) (hsafe : s.safe) : (s.hubOut h).safe := by
  unfold State.hubOut
  grind [State.loseStack_safe, State.moveRegHub_mem, State.onArch_mem, State.publishHubs_mem, State.refreshId_mem, State.settleRef_mem,
    State.foldl_safe, State.foldl_mem]

theorem State.unitOut_safe (s : State) (u : FailedUnit) (hsafe : s.safe) : (s.unitOut u).safe := by
  unfold State.unitOut
  grind [State.hubOut_safe, State.loseStack_safe, State.onArch_mem, State.onBoot_mem, State.portOff_safe, State.setFld_mem]

@[simp] theorem State.askDomain_mem (s : State) : s.askDomain.mem = s.mem := by
  unfold State.askDomain
  split <;> simp

@[simp] theorem State.restoreCtx_mem (s : State) (n : Nat) (r : CtxRec) (floor : Nat) : (s.restoreCtx n r floor).mem = s.mem := by
  simp [State.restoreCtx]

@[simp] theorem State.bootStatus_mem (s : State) : s.bootStatus.mem = s.mem := by rfl

theorem State.resetHub_safe (s : State) (h : Nat) (hsafe : s.safe) : (s.resetHub h).safe := by
  unfold State.resetHub
  grind [State.failHub_safe, State.onBoot_mem]

theorem State.returnStacks_safe (s : State) (h : Nat) (hsafe : s.safe) : (s.returnStacks h).safe := by
  unfold State.returnStacks
  grind [State.onArch_mem, State.openPool_mem, State.setFld_mem, State.zeroRange_safe, State.foldl_safe, State.foldl_mem]

/-! ### The register window (R395 to R402) -/

@[simp] theorem State.readEffect_mem (s : State) (r : Reg) (i frac : Nat) : (s.readEffect r i frac).mem = s.mem := by
  simp [State.readEffect]

@[simp] theorem State.regRead_mem (s : State) (rq : Requester) (r : Reg) (i lo width frac : Nat) :
    (s.regRead rq r i lo width frac).mem = s.mem := by
  simp [State.regRead]

theorem State.evtWrite_safe (s : State) (rq : Requester) (r : Reg) (v : Word) (hsafe : s.safe) : (s.evtWrite rq r v).safe := by
  unfold State.evtWrite
  grind [State.cfgWrite_safe, State.w1c_mem]

@[simp] theorem State.afterWrite_mem (s : State) (r : Reg) : (s.afterWrite r).mem = s.mem := by
  unfold State.afterWrite
  grind [State.mramWrite_mem, State.refreshBudget_mem, State.refreshUrgent_mem, State.settleRef_mem]

@[simp] theorem State.custWrite_mem (s : State) (w : Nat) (v : Word) : (s.custWrite w v).mem = s.mem := by
  unfold State.custWrite
  grind [State.setRent_mem, State.updCust_mem]

@[simp] theorem State.regStore_mem (s : State) (rq : Requester) (r : Reg) (i : Nat) (v : Word) : (s.regStore rq r i v).mem = s.mem := by
  unfold State.regStore
  (repeat' split) <;> simp

theorem State.regWrite_safe (s : State) (rq : Requester) (r : Reg) (i : Nat) (v : Word) (hsafe : s.safe) : (s.regWrite rq r i v).safe := by
  unfold State.regWrite
  grind [State.cfgWrite_safe, State.regStore_mem]

@[simp] theorem State.notice_mem (s : State) (b : Nat) : (s.notice b).mem = s.mem := by
  unfold State.notice
  grind [State.sendOn_mem, State.send_mem]

/-! ### Retirement and the context Sweep (R329, R336, R337) -/

@[simp] theorem State.beginSweep_mem (s : State) (n : Nat) (c : Ctx) (discard : Bool) : (s.beginSweep n c discard).mem = s.mem := by
  simp [State.beginSweep]

theorem State.retireCtx_safe (s : State) (rq : Requester) (n : Nat) (discard : Bool) (hsafe : s.safe) : (s.retire_ rq n discard).safe := by
  unfold State.retire_
  grind [State.beginSweep_mem, State.ctxStatus_mem, State.discardAccess_mem, State.woWrite_safe]

@[simp] theorem State.sweepTo_mem (s : State) (n k : Nat) : (s.sweepTo n k).mem = s.mem := by rfl

@[simp] theorem State.dropConnFrames_mem (s : State) (p conn : Nat) : (s.dropConnFrames p conn).mem = s.mem := by
  unfold State.dropConnFrames
  grind [State.updPort_mem, State.wr_mem, State.foldl_mem]

@[simp] theorem State.sweepStop_mem (s : State) (n : Nat) : (s.sweepStop n).mem = s.mem := by simp [State.sweepStop]

theorem State.sweepRuns_safe (s : State) (n : Nat) (hsafe : s.safe) : (s.sweepRuns n).safe := by
  unfold State.sweepRuns
  grind [State.cancelRuns_mem, State.endRequest_mem, State.finishCancels_safe, State.updSession_mem, State.foldl_safe, State.foldl_mem]

theorem State.sweepFree_safe (s : State) (i : Nat) (hsafe : s.safe) : (s.sweepFree i).safe := by
  unfold State.sweepFree
  grind [State.dropMove_mem, State.endRequest_mem, State.freeSession_safe]

theorem State.sweepPark_safe (s : State) (i : Nat) (hsafe : s.safe) : (s.sweepPark i).safe := by
  unfold State.sweepPark
  split
  · exact hsafe
  · refine State.ite_safe hsafe ?_
    split
    case h_1 => exact State.safe_of_mem (State.cancelRevive_mem s i) hsafe
    case h_2 => exact State.safe_of_mem ((State.commitPlace_mem _ i).trans (State.updSession_mem s i _)) hsafe
    case h_5 => exact hsafe
    -- an active and a parked session take the same way
    all_goals
      extract_lets t r
      have ht : t.safe := State.safe_of_mem ((State.pbWrite_mem _ i true).trans (State.updSession_mem s i _)) hsafe
      clear_value t
      have hr : r.1.safe := State.startStream_safe t i ht
      clear_value r
      refine State.ite_safe (State.ite_safe (State.safe_of_mem (State.updSession_mem _ i _) hr) ht) ?_
      refine State.ite_safe (State.safe_of_mem (State.dropClean_mem t i) ht) (State.ite_safe ht ?_)
      split
      · exact ht
      · rename_i n _
        have hp := State.startPlace_safe t i n ht
        dsimp only
        split
        · exact hp
        · exact State.safe_of_mem (State.raise_mem _ _) hp
        · exact State.safe_of_mem (State.losePages_mem _ i _) hp

theorem State.sweepSessions_safe (s : State) (n : Nat) (discard : Bool) (hsafe : s.safe) : (s.sweepSessions n discard).safe := by
  unfold State.sweepSessions
  grind [State.sweepFree_safe, State.sweepPark_safe, State.foldl_safe, State.foldl_mem]

@[simp] theorem State.sweepEscrow_mem (s : State) (n : Nat) : (s.sweepEscrow n).mem = s.mem := by simp [State.sweepEscrow]

theorem State.sweepObjects_safe (s : State) (n : Nat) (hsafe : s.safe) : (s.sweepObjects n).safe := by
  unfold State.sweepObjects
  grind [State.deleteJob_mem, State.deleteRegion_safe, State.drainImage_mem, State.dropColl_mem, State.onTlr_mem, State.sweepEscrow_mem,
    State.sweepTables_mem, State.zeroRange_safe, State.foldl_safe, State.foldl_mem]

theorem State.sweepClerk_safe (s : State) (c : Nat) (hsafe : s.safe) : (s.sweepClerk c).safe := by
  unfold State.sweepClerk
  grind [State.setClerk_mem, State.zeroRange_safe]

theorem State.sweepUnits_safe (s : State) (n : Nat) (hsafe : s.safe) : (s.sweepUnits n).safe := by
  unfold State.sweepUnits
  grind [State.count_mem, State.onKva_mem, State.onSch_mem, State.onSec_mem, State.sweepClerk_safe, State.trace_mem, State.wr_mem,
    State.foldl_safe, State.foldl_mem]

@[simp] theorem State.sweepDone_mem (s : State) (n : Nat) : (s.sweepDone n).mem = s.mem := by simp [State.sweepDone]

@[simp] theorem State.sweepFlash_mem (s : State) (n : Nat) (c : Ctx) : (s.sweepFlash n c).mem = s.mem := by simp [State.sweepFlash]

/-! ### Commands -/

/-- The state a command answers, if it answers one, is safe. -/
def AnsSafe (a : Ans) : Prop := ∀ t, a = .next t → t.safe

theorem AnsSafe.next {t : State} (h : t.safe) : AnsSafe (.next t) := by
  rintro u ⟨⟩
  exact h

theorem AnsSafe.whenLive {s t : State} (hs : s.safe) (ht : t.safe) : AnsSafe (s.whenLive t) :=
  AnsSafe.next (State.ite_safe hs ht)

theorem AnsSafe.onWord {s : State} {c : Nat} {p : Ix → Bool} {k : Ix → State} (hs : s.safe) (hk : ∀ ix, (k ix).safe) :
    AnsSafe (.next (s.onWord c p k)) :=
  AnsSafe.next (State.onWord_safe s c p k hs hk)

section
variable {s : State} (hsafe : s.safe)
include hsafe

/-! #### Commands: node, fabric and Sinil ports -/

theorem execPortSignalDetect_safe (p : Nat) : AnsSafe (execPortSignalDetect p s) :=
  AnsSafe.whenLive hsafe (State.safe_of_mem (by simp) hsafe)

theorem execLaneLock_safe (p : Nat) (widths rates : List Nat) (propNs : Nat) : AnsSafe (execLaneLock p widths rates propNs s) := by
  unfold execLaneLock
  refine AnsSafe.whenLive hsafe ?_
  grind [State.portTo_mem, State.refusePort_mem, State.setFld_mem, State.updPort_mem]

theorem execTrainTimeout_safe (p : Nat) : AnsSafe (execTrainTimeout p s) := AnsSafe.whenLive hsafe (State.safe_of_mem (by simp) hsafe)

theorem execTrainRetry_safe (p : Nat) : AnsSafe (execTrainRetry p s) := by
  unfold execTrainRetry
  refine AnsSafe.whenLive hsafe ?_
  grind [State.portTo_mem, State.updPort_mem]

theorem execCapabilityBlock_safe (p : Nat) (w0 w1 : Word) : AnsSafe (execCapabilityBlock p w0 w1 s) := by
  unfold execCapabilityBlock
  refine AnsSafe.whenLive hsafe ?_
  grind [State.portTo_mem, State.raise_mem, State.refusePort_mem, State.send_mem, State.setFld_mem]

theorem execCreditAdvert_safe (p : Nat) (cells : List Nat) : AnsSafe (execCreditAdvert p cells s) :=
  AnsSafe.whenLive hsafe (State.safe_of_mem (by simp) hsafe)

theorem execCreditReturn_safe (p q : Nat) : AnsSafe (execCreditReturn p q s) := AnsSafe.whenLive hsafe (State.safe_of_mem (by simp) hsafe)

theorem execCreditReturnArrival_safe (p q n : Nat) : AnsSafe (execCreditReturnArrival p q n s) :=
  AnsSafe.whenLive hsafe (State.safe_of_mem (by simp) hsafe)

theorem execRetrainTrigger_safe (p : Nat) (laneLost : Bool) : AnsSafe (execRetrainTrigger p laneLost s) :=
  AnsSafe.whenLive hsafe (State.safe_of_mem (by simp) hsafe)

theorem execRetrainEnd_safe (p : Nat) (ok : Bool) (lanes : Nat) : AnsSafe (execRetrainEnd p ok lanes s) :=
  AnsSafe.whenLive hsafe (State.safe_of_mem (by simp) hsafe)

theorem execRekeyStart_safe (p : Nat) : AnsSafe (execRekeyStart p s) := AnsSafe.whenLive hsafe (State.safe_of_mem (by simp) hsafe)

theorem execRekeyFrame_safe (p epoch : Nat) (answer : Bool) : AnsSafe (execRekeyFrame p epoch answer s) := by
  unfold execRekeyFrame
  refine AnsSafe.whenLive hsafe ?_
  grind [State.send_mem, State.setEpochs_mem, State.updPort_mem, State.wr_mem]

theorem execCellReceive_safe (p : Nat) (ctl : CellCtl) : AnsSafe (execCellReceive p ctl s) :=
  AnsSafe.whenLive hsafe (State.safe_of_mem (by simp) hsafe)

theorem execAckTimer_safe (p : Nat) : AnsSafe (execAckTimer p s) := by
  unfold execAckTimer
  refine AnsSafe.whenLive hsafe ?_
  grind [State.sendAck_mem]

theorem execCodewordUncorrectable_safe (p seq : Nat) : AnsSafe (execCodewordUncorrectable p seq s) :=
  AnsSafe.whenLive hsafe (State.safe_of_mem (by simp) hsafe)

theorem execRetryRequest_safe (p seq : Nat) : AnsSafe (execRetryRequest p seq s) :=
  AnsSafe.whenLive hsafe (State.safe_of_mem (by simp) hsafe)

theorem execCellAck_safe (p seq : Nat) : AnsSafe (execCellAck p seq s) := AnsSafe.whenLive hsafe (State.safe_of_mem (by simp) hsafe)

theorem execCellBoundaryService_safe (p : Nat) : AnsSafe (execCellBoundaryService p s) := by
  unfold execCellBoundaryService
  refine AnsSafe.whenLive hsafe ?_
  grind [State.growCredit_mem, State.raise_mem, State.sendCell_mem, State.send_mem, State.updPort_mem]

theorem execQueueDepthSample_safe : AnsSafe (execQueueDepthSample s) := AnsSafe.whenLive hsafe (State.safe_of_mem (by simp) hsafe)

theorem execHistSelWrite_safe (rq : Requester) (v : Word) : AnsSafe (execHistSelWrite rq v s) := by
  unfold execHistSelWrite
  apply AnsSafe.next
  grind [State.cfgWrite_safe, State.onLnk_mem, State.rwWrite_mem, State.wr_mem, State.foldl_safe, State.foldl_mem]

theorem execGateSwapRequest_safe (rq : Requester) (p : Nat) (v : Word) : AnsSafe (execGateSwapRequest rq p v s) := by
  unfold execGateSwapRequest
  apply AnsSafe.next
  grind [State.cfgWrite_safe, State.gateRefuse_mem, State.rwWrite_mem, State.updPort_mem]

theorem execGateSwap_safe (p : Nat) : AnsSafe (execGateSwap p s) := by
  unfold execGateSwap
  refine AnsSafe.whenLive hsafe ?_
  grind [State.gateRefuse_mem, State.setFld_mem, State.updPort_mem, State.wr_mem]

theorem execFrameReceive_safe (p : Nat) (h : FrameHdr) (payload : List Byte) : AnsSafe (execFrameReceive p h payload s) :=
  AnsSafe.whenLive hsafe (State.safe_of_mem (by simp) hsafe)

theorem execFrameTagFail_safe (p : Nat) (h : FrameHdr) : AnsSafe (execFrameTagFail p h s) :=
  AnsSafe.whenLive hsafe (State.safe_of_mem (by simp) hsafe)

/-! #### Commands: contexts, keys and MRAM (R329 to R352) -/

theorem execKeysDone_safe (p : Nat) (ok : Bool) : AnsSafe (execKeysDone p ok s) :=
  AnsSafe.whenLive hsafe (State.safe_of_mem (by simp) hsafe)

theorem execCtxInstall_safe (rq : Requester) (v : Word) : AnsSafe (execCtxInstall rq v s) :=
  AnsSafe.next (State.woWrite_safe s _ _ _ _ _ _ hsafe (State.safe_of_mem (by simp) hsafe))

theorem execCtxFloorWrite_safe (rq : Requester) (n : Nat) (v : Word) : AnsSafe (execCtxFloorWrite rq n v s) := by
  unfold execCtxFloorWrite
  apply AnsSafe.next
  grind [State.cfgWrite_safe, State.mramWrite_mem, State.wr_mem]

theorem execOwnerKeyWrite_safe (rq : Requester) (v : Word) : AnsSafe (execOwnerKeyWrite rq v s) :=
  AnsSafe.next (State.woWrite_safe s _ _ _ _ _ _ hsafe (State.safe_of_mem (by simp) hsafe))

theorem execJobkeyLoad_safe (rq : Requester) (v : Word) : AnsSafe (execJobkeyLoad rq v s) := by
  unfold execJobkeyLoad
  apply AnsSafe.next
  grind [State.onSec_mem, State.woWrite_safe, State.wr_mem]

theorem execFwFloorCommit_safe (rq : Requester) (v : Word) : AnsSafe (execFwFloorCommit rq v s) :=
  AnsSafe.next (State.woWrite_safe s _ _ _ _ _ _ hsafe (State.safe_of_mem (by simp) hsafe))

theorem execKeyFloorCommit_safe (rq : Requester) (v : Word) : AnsSafe (execKeyFloorCommit rq v s) :=
  AnsSafe.next (State.woWrite_safe s _ _ _ _ _ _ hsafe (State.safe_of_mem (by simp) hsafe))

theorem execSinilBind_safe (port conn : Nat) (tgt : BindTo) (sig : List Byte) : AnsSafe (execSinilBind port conn tgt sig s) :=
  AnsSafe.whenLive hsafe (State.safe_of_mem (by simp) hsafe)

theorem execGetVersion_safe (t : SpdmPath) : AnsSafe (execGetVersion t s) :=
  AnsSafe.whenLive hsafe (State.spdmReq_safe s _ _ _ hsafe (State.safe_of_mem (by simp) hsafe))

theorem execGetCapabilities_safe (t : SpdmPath) (minor : Nat) : AnsSafe (execGetCapabilities t minor s) :=
  AnsSafe.whenLive hsafe (State.spdmReq_safe s _ _ _ hsafe (State.safe_of_mem (by simp) hsafe))

theorem execNegotiateAlgorithms_safe (t : SpdmPath) (extAsym hash dhe aead : Bool) :
    AnsSafe (execNegotiateAlgorithms t extAsym hash dhe aead s) :=
  AnsSafe.whenLive hsafe (State.spdmReq_safe s _ _ _ hsafe (State.safe_of_mem (by simp) hsafe))

theorem execGetDigests_safe (t : SpdmPath) : AnsSafe (execGetDigests t s) :=
  AnsSafe.whenLive hsafe (State.spdmReq_safe s _ _ _ hsafe (State.safe_of_mem (by simp) hsafe))

theorem execGetCertificate_safe (t : SpdmPath) (slot offset len : Nat) : AnsSafe (execGetCertificate t slot offset len s) :=
  AnsSafe.whenLive hsafe (State.spdmReq_safe s _ _ _ hsafe (State.safe_of_mem (by simp) hsafe))

theorem execChallenge_safe (t : SpdmPath) (slot : Nat) (nonce : List Byte) : AnsSafe (execChallenge t slot nonce s) :=
  AnsSafe.whenLive hsafe (State.spdmReq_safe s _ _ _ hsafe (State.safe_of_mem (by simp) hsafe))

theorem execGetMeasurements_safe (t : SpdmPath) (index : Nat) (signed : Bool) : AnsSafe (execGetMeasurements t index signed s) :=
  AnsSafe.whenLive hsafe (State.spdmReq_safe s _ _ _ hsafe (State.safe_of_mem (by simp) hsafe))

theorem execKeyExchange_safe (t : SpdmPath) (reqId : Nat) : AnsSafe (execKeyExchange t reqId s) :=
  AnsSafe.whenLive hsafe (State.spdmReq_safe s _ _ _ hsafe (State.safe_of_mem (by simp) hsafe))

theorem execFinish_safe (t : SpdmPath) (sid : Nat) (ok : Bool) : AnsSafe (execFinish t sid ok s) :=
  AnsSafe.whenLive hsafe (State.spdmReq_safe s _ _ _ hsafe (State.safe_of_mem (by simp) hsafe))

theorem execKeyUpdate_safe (t : SpdmPath) (sid op : Nat) : AnsSafe (execKeyUpdate t sid op s) :=
  AnsSafe.whenLive hsafe (State.spdmReq_safe s _ _ _ hsafe (State.safe_of_mem (by simp) hsafe))

theorem execHeartbeat_safe (t : SpdmPath) (sid : Nat) : AnsSafe (execHeartbeat t sid s) :=
  AnsSafe.whenLive hsafe (State.spdmReq_safe s _ _ _ hsafe (State.safe_of_mem (by simp) hsafe))

theorem execEndSession_safe (t : SpdmPath) (sid : Nat) : AnsSafe (execEndSession t sid s) :=
  AnsSafe.whenLive hsafe (State.spdmReq_safe s _ _ _ hsafe (State.safe_of_mem (by simp) hsafe))

theorem execIdeKm_safe (t : SpdmPath) (sid head stream : Nat) (selective : Bool) (tdi : Option Nat) :
    AnsSafe (execIdeKm t sid head stream selective tdi s) :=
  AnsSafe.whenLive hsafe (State.spdmReq_safe s _ _ _ hsafe (State.safe_of_mem (by simp) hsafe))

theorem execIdeIntegrityFail_safe (head stream : Nat) : AnsSafe (execIdeIntegrityFail head stream s) := by
  unfold execIdeIntegrityFail
  refine AnsSafe.whenLive hsafe ?_
  grind [State.onSec_mem, State.tdiError_mem, State.foldl_safe, State.foldl_mem]

theorem execLockInterfaceRequest_safe (n : Nat) : AnsSafe (execLockInterfaceRequest n s) :=
  AnsSafe.whenLive hsafe (State.safe_of_mem (by simp) hsafe)

theorem execStartInterfaceRequest_safe (n : Nat) : AnsSafe (execStartInterfaceRequest n s) :=
  AnsSafe.whenLive hsafe (State.safe_of_mem (by simp) hsafe)

theorem execStopInterfaceRequest_safe (n : Nat) : AnsSafe (execStopInterfaceRequest n s) :=
  AnsSafe.whenLive hsafe (State.safe_of_mem (by simp) hsafe)

/-! #### Commands: the flash pool -/

theorem execChannelNegotiate_safe (ch : Nat) (a : NandAnswer) : AnsSafe (execChannelNegotiate ch a s) :=
  AnsSafe.whenLive hsafe (State.safe_of_mem (by simp) hsafe)

theorem execFlashWrite_safe (own : FlashOwner) (extent first : Nat) (data : List (List Byte)) (till : Bool) :
    AnsSafe (execFlashWrite own extent first data till s) := by
  unfold execFlashWrite
  refine AnsSafe.whenLive hsafe ?_
  grind [State.flashPut_mem, State.send_mem]

theorem execJournalBufferWrite_safe (h : Nat) : AnsSafe (execJournalBufferWrite h s) := by
  unfold execJournalBufferWrite
  refine AnsSafe.whenLive hsafe ?_
  grind [State.journalOut_mem]

theorem execMapCheckpoint_safe : AnsSafe (execMapCheckpoint s) := AnsSafe.whenLive hsafe (State.safe_of_mem (by simp) hsafe)

theorem execFlashRead_safe (unit : Nat) (d : Decode) : AnsSafe (execFlashRead unit d s) := by
  unfold execFlashRead
  refine AnsSafe.whenLive hsafe ?_
  grind [State.countSat_mem, State.count_mem, State.loseUnit_mem, State.refreshSb_mem, State.relocate_mem, State.send_mem, State.setSb_mem]

theorem execLunFailed_safe (ch lun : Nat) : AnsSafe (execLunFailed ch lun s) := AnsSafe.whenLive hsafe (State.safe_of_mem (by simp) hsafe)

theorem execLunRebuild_safe (ch lun : Nat) : AnsSafe (execLunRebuild ch lun s) := by
  unfold execLunRebuild
  refine AnsSafe.whenLive hsafe ?_
  grind [State.countRebuild_mem, State.onFls_mem, State.relocate_mem, State.reopenPool_mem, State.shrinkAdv_mem, State.foldl_safe,
    State.foldl_mem]

theorem execTillFold_safe : AnsSafe (execTillFold s) := by
  unfold execTillFold
  refine AnsSafe.whenLive hsafe ?_
  grind [State.eraseSb_mem, State.onFls_mem, State.recordFolded_mem, State.relocate_mem, State.setFld_mem, State.foldl_safe,
    State.foldl_mem]

theorem execGarbageCollection_safe : AnsSafe (execGarbageCollection s) := by
  unfold execGarbageCollection
  refine AnsSafe.whenLive hsafe ?_
  grind [State.refreshSb_mem, State.reopenPool_mem]

theorem execWearLevel_safe : AnsSafe (execWearLevel s) := by
  unfold execWearLevel
  refine AnsSafe.whenLive hsafe ?_
  grind [State.count_mem, State.eraseSb_mem, State.journalled_mem, State.setEntry_mem, State.setSb_mem, State.foldl_safe, State.foldl_mem]

theorem execReadDisturbRefresh_safe (sb : Nat) : AnsSafe (execReadDisturbRefresh sb s) :=
  AnsSafe.whenLive hsafe (State.safe_of_mem (by simp) hsafe)

theorem execRetentionScan_safe (weak : List Nat) : AnsSafe (execRetentionScan weak s) :=
  AnsSafe.whenLive hsafe (State.safe_of_mem (by simp) hsafe)

theorem execBlockReplace_safe (ch plane sb : Nat) (erase : Bool) : AnsSafe (execBlockReplace ch plane sb erase s) :=
  AnsSafe.whenLive hsafe (State.safe_of_mem (by simp) hsafe)

theorem execOrdinaryDiscard_safe (first n : Nat) : AnsSafe (execOrdinaryDiscard first n s) :=
  AnsSafe.whenLive hsafe (State.safe_of_mem (by simp) hsafe)

theorem execSecureDiscard_safe (rq : Requester) (v : Word) : AnsSafe (execSecureDiscard rq v s) :=
  AnsSafe.next (State.woWrite_safe s _ _ _ _ _ _ hsafe (State.safe_of_mem (by simp) hsafe))

/-! #### Commands: the node shared window (R268 to R291) -/

theorem execRegionCreate_safe (rq : Requester) (v : Word) : AnsSafe (execRegionCreate rq v s) := by
  unfold execRegionCreate
  apply AnsSafe.next
  grind [State.addRegion_safe, State.raise_mem, State.regionStatus_mem, State.woWrite_safe]

theorem execRegionDelete_safe (rq : Requester) (v : Word) : AnsSafe (execRegionDelete rq v s) := by
  unfold execRegionDelete
  apply AnsSafe.next
  grind [State.deleteRegion_safe, State.woWrite_safe]

theorem execRegionTemp_safe (rq : Requester) (v : Word) : AnsSafe (execRegionTemp rq v s) :=
  AnsSafe.next (State.woWrite_safe s _ _ _ _ _ _ hsafe (State.safe_of_mem (by simp) hsafe))

theorem execIngressHoldRelease_safe (a : Nat) : AnsSafe (execIngressHoldRelease a s) := by
  unfold execIngressHoldRelease
  refine AnsSafe.whenLive hsafe ?_
  grind [State.onNmc_mem, State.setFld_mem, State.settleNmc_safe, State.takeBucket_mem, State.takeIn_safe]

theorem execCxlMemRead_safe (head tag off : Nat) (m : Meta0) : AnsSafe (execCxlMemRead head tag off m s) :=
  AnsSafe.next (State.ite_safe (State.arrive_safe s _ _ _ _ _ hsafe) hsafe)

theorem execCxlMemWrite_safe (head tag off : Nat) (m : Meta0) (mask : Nat) (data : List Byte) :
    AnsSafe (execCxlMemWrite head tag off m mask data s) :=
  AnsSafe.next (State.ite_safe (State.arrive_safe s _ _ _ _ _ hsafe) hsafe)

theorem execBirsp_safe (head line : Nat) (shared : Bool) (wb : Option (List Byte)) : AnsSafe (execBirsp head line shared wb s) :=
  AnsSafe.next (State.ite_safe hsafe (State.answerRecall_safe s _ _ _ _ hsafe))

theorem execMrd_safe (p : Nat) (w0 w1 : Word) : AnsSafe (execMrd p w0 w1 s) :=
  AnsSafe.whenLive hsafe (State.portReq_safe s _ _ _ _ _ hsafe)

theorem execMwr_safe (p : Nat) (w0 w1 mask : Word) (data : List Byte) : AnsSafe (execMwr p w0 w1 mask data s) :=
  AnsSafe.whenLive hsafe (State.portReq_safe s _ _ _ _ _ hsafe)

theorem execMat_safe (p : Nat) (w0 w1 : Word) (operand cmp : Nat) : AnsSafe (execMat p w0 w1 operand cmp s) :=
  AnsSafe.whenLive hsafe (State.portReq_safe s _ _ _ _ _ hsafe)

theorem execRca_safe (p : Nat) (w0 w1 : Word) (data : List Byte) : AnsSafe (execRca p w0 w1 data s) :=
  AnsSafe.next (State.ite_safe (State.answerRecall_safe s _ _ _ _ hsafe) hsafe)

theorem execAgentFailed_safe (a : Nat) : AnsSafe (execAgentFailed a s) :=
  AnsSafe.whenLive hsafe (State.ite_safe (State.failAgent_safe s _ hsafe) hsafe)

theorem execRecallTimeout_safe (line a : Nat) : AnsSafe (execRecallTimeout line a s) := by
  unfold execRecallTimeout
  refine AnsSafe.whenLive hsafe ?_
  grind [State.count_mem, State.failAgent_safe, State.onNmc_mem, State.raise_mem, State.sendOn_mem, State.send_mem]

theorem execDirectorySweep_safe (h : Nat) : AnsSafe (execDirectorySweep h s) := AnsSafe.whenLive hsafe (State.safe_of_mem (by simp) hsafe)

theorem execHostHeadRetrained_safe (head : Nat) : AnsSafe (execHostHeadRetrained head s) :=
  AnsSafe.whenLive hsafe (State.safe_of_mem (by simp) hsafe)

theorem execLoadLevelUpdate_safe (samples : List AgentLoad) : AnsSafe (execLoadLevelUpdate samples s) :=
  AnsSafe.whenLive hsafe (State.safe_of_mem (by simp) hsafe)

theorem execColdGranulePark_safe (region g : Nat) : AnsSafe (execColdGranulePark region g s) := by
  unfold execColdGranulePark
  refine AnsSafe.whenLive hsafe ?_
  grind [State.flashPut_mem, State.newExtent_mem]

theorem execGranuleFaultIn_safe (region g : Nat) : AnsSafe (execGranuleFaultIn region g s) := by
  unfold execGranuleFaultIn
  refine AnsSafe.whenLive hsafe ?_
  (repeat' split) <;> grind [State.discardUnits_mem, State.nmcServe_safe, State.onFls_mem, State.onNmc_mem, State.poisonLine_mem,
    State.putBytes_safe, State.settleNmc_safe, State.touch_mem, State.foldl_safe, State.foldl_mem]

/-! #### Commands: the domain fabric (R292 to R305) -/

theorem execMapChangePropose_safe (c : MapChange) : AnsSafe (execMapChangePropose c s) := AnsSafe.next (State.safe_of_mem (by simp) hsafe)

theorem execMapCommit_safe (epoch : Nat) (holders : List Nat) : AnsSafe (execMapCommit epoch holders s) := by
  unfold execMapCommit
  refine AnsSafe.whenLive hsafe ?_
  grind [State.addDirty_mem, State.onDfb_mem, State.send_mem]

theorem execLogEntryAppend_safe (leader epoch : Nat) (c : MapChange) : AnsSafe (execLogEntryAppend leader epoch c s) :=
  AnsSafe.next (State.safe_of_mem (by simp) hsafe)

theorem execDld_safe (h : DHdr) : AnsSafe (execDld h s) :=
  AnsSafe.next (State.ite_safe hsafe (State.settleDom_safe _ (State.homeTake_safe s _ _ hsafe)))

theorem execDst_safe (h : DHdr) (mask : Nat) (data : List Byte) : AnsSafe (execDst h mask data s) :=
  AnsSafe.next (State.ite_safe hsafe (State.settleDom_safe _ (State.homeTake_safe s _ _ hsafe)))

theorem execDat_safe (h : DHdr) (operand cmp : Nat) : AnsSafe (execDat h operand cmp s) :=
  AnsSafe.next (State.ite_safe hsafe (State.settleDom_safe _ (State.homeTake_safe s _ _ hsafe)))

theorem execDfw_safe (h : DHdr) (body : DBody) : AnsSafe (execDfw h body s) :=
  AnsSafe.next (State.ite_safe hsafe (State.settleDom_safe _ (State.homeTake_safe s _ _ hsafe)))

theorem execDrs_safe (serial epoch status : Nat) (data : List Byte) : AnsSafe (execDrs serial epoch status data s) :=
  AnsSafe.next (State.ite_safe hsafe (State.settleDom_safe _ (State.domReply_safe s _ _ _ _ hsafe)))

theorem execDup_safe (h : DHdr) (sender mask : Nat) (line : List Byte) (old : List Byte) : AnsSafe (execDup h sender mask line old s) := by
  unfold execDup
  apply AnsSafe.next
  grind [State.onDfb_mem, State.putBytes_safe, State.send_mem, State.writeMasked_safe, State.writeMem_safe]

theorem execDua_safe (holder requester serial : Nat) : AnsSafe (execDua holder requester serial s) := by
  unfold execDua
  apply AnsSafe.next
  grind [State.domAnswer_mem, State.onDfb_mem, State.settleDom_safe]

theorem execDomainReqTimeout_safe (serial : Nat) : AnsSafe (execDomainReqTimeout serial s) := by
  unfold execDomainReqTimeout
  apply AnsSafe.next
  grind [State.domResend_safe, State.onDfb_mem, State.settleDom_safe]

theorem execLeaderHeartbeat_safe : AnsSafe (execLeaderHeartbeat s) := by
  unfold execLeaderHeartbeat
  apply AnsSafe.next
  grind [State.onDfb_mem, State.raise_mem, State.send_mem, State.setFld_mem, State.foldl_safe, State.foldl_mem]

theorem execHeartbeatAnswer_safe (m : Nat) : AnsSafe (execHeartbeatAnswer m s) := AnsSafe.next (State.safe_of_mem (by simp) hsafe)

theorem execHeartbeatReceive_safe (leader epoch : Nat) : AnsSafe (execHeartbeatReceive leader epoch s) := by
  unfold execHeartbeatReceive
  apply AnsSafe.next
  grind [State.onDfb_mem, State.releaseHeld_safe, State.send_mem, State.setFld_mem]

theorem execLeaseExpiry_safe : AnsSafe (execLeaseExpiry s) := AnsSafe.next (State.safe_of_mem (by simp) hsafe)

theorem execSuspectExpiry_safe (m : Nat) (assign : List Assign) : AnsSafe (execSuspectExpiry m assign s) :=
  AnsSafe.next (State.safe_of_mem (by simp) hsafe)

theorem execElectionTimeout_safe (answers : List (Nat × Nat)) : AnsSafe (execElectionTimeout answers s) :=
  AnsSafe.next (State.safe_of_mem (by simp) hsafe)

theorem execVoteRequest_safe (candidate logLen : Nat) : AnsSafe (execVoteRequest candidate logLen s) :=
  AnsSafe.next (State.safe_of_mem (by simp) hsafe)

theorem execIsolateTimeout_safe : AnsSafe (execIsolateTimeout s) := by
  unfold execIsolateTimeout
  apply AnsSafe.next
  grind [State.domFinish_safe, State.escDone_mem, State.settleDom_safe, State.foldl_safe, State.foldl_mem]

theorem execDfbRegionCreate_safe (rq : Requester) (v : Word) : AnsSafe (execDfbRegionCreate rq v s) :=
  AnsSafe.next (State.woWrite_safe s _ _ _ _ _ _ hsafe (State.safe_of_mem (by simp) hsafe))

theorem execDfbRegionDelete_safe (rq : Requester) (v : Word) : AnsSafe (execDfbRegionDelete rq v s) :=
  AnsSafe.next (State.woWrite_safe s _ _ _ _ _ _ hsafe (State.safe_of_mem (by simp) hsafe))

theorem execMapCfgWrite_safe (rq : Requester) (grant : Bool) (v : Word) : AnsSafe (execMapCfgWrite rq grant v s) :=
  AnsSafe.next (State.cfgWrite_safe s _ _ _ _ _ hsafe (State.safe_of_mem (by simp) hsafe))

theorem execDfbJoin_safe (rq : Requester) (v : Word) (refused : Bool) : AnsSafe (execDfbJoin rq v refused s) :=
  AnsSafe.next (State.woWrite_safe s _ _ _ _ _ _ hsafe (State.safe_of_mem (by simp) hsafe))

theorem execDfbLeave_safe (rq : Requester) (v : Word) : AnsSafe (execDfbLeave rq v s) :=
  AnsSafe.next (State.woWrite_safe s _ _ _ _ _ _ hsafe (State.safe_of_mem (by simp) hsafe))

theorem execBucketCutover_safe (bucket : Nat) : AnsSafe (execBucketCutover bucket s) := AnsSafe.next (State.safe_of_mem (by simp) hsafe)

theorem execNonePoisonBacking_safe (bucket : Nat) : AnsSafe (execNonePoisonBacking bucket s) :=
  AnsSafe.next (State.safe_of_mem (by simp) hsafe)

/-! #### Commands: scalar and system instructions (R202 to R205, R207, R222) -/

theorem execAlu_safe (c : Nat) : AnsSafe (execAlu c s) := AnsSafe.onWord hsafe fun ix => State.safe_of_mem (by simp) hsafe

theorem execAlui_safe (c : Nat) : AnsSafe (execAlui c s) := AnsSafe.onWord hsafe fun ix => State.safe_of_mem (by simp) hsafe

theorem execLi_safe (c : Nat) : AnsSafe (execLi c s) := AnsSafe.onWord hsafe fun ix => State.safe_of_mem (by simp) hsafe

theorem execLih_safe (c : Nat) : AnsSafe (execLih c s) := AnsSafe.onWord hsafe fun ix => State.safe_of_mem (by simp) hsafe

theorem execCmp_safe (c : Nat) : AnsSafe (execCmp c s) := AnsSafe.onWord hsafe fun ix => State.safe_of_mem (by simp) hsafe

theorem execCmpi_safe (c : Nat) : AnsSafe (execCmpi c s) := AnsSafe.onWord hsafe fun ix => State.safe_of_mem (by simp) hsafe

theorem execPlog_safe (c : Nat) : AnsSafe (execPlog c s) := AnsSafe.onWord hsafe fun ix => State.safe_of_mem (by simp) hsafe

theorem execBr_safe (c : Nat) : AnsSafe (execBr c s) := AnsSafe.onWord hsafe fun ix => State.safe_of_mem (by simp) hsafe

theorem execJr_safe (c : Nat) : AnsSafe (execJr c s) := AnsSafe.onWord hsafe fun ix => State.safe_of_mem (by simp) hsafe

theorem execDins_safe (c : Nat) : AnsSafe (execDins c s) := AnsSafe.onWord hsafe fun ix => State.safe_of_mem (by simp) hsafe

theorem execDext_safe (c : Nat) : AnsSafe (execDext c s) := AnsSafe.onWord hsafe fun ix => State.safe_of_mem (by simp) hsafe

theorem execUndefinedEncoding_safe (c : Nat) : AnsSafe (execUndefinedEncoding c s) := by
  unfold execUndefinedEncoding
  refine AnsSafe.whenLive hsafe ?_
  grind [State.trap_mem]

theorem execTrapExit_safe (c : Nat) : AnsSafe (execTrapExit c s) := AnsSafe.onWord hsafe fun ix => State.safe_of_mem (by simp) hsafe

theorem execBrk_safe (c : Nat) : AnsSafe (execBrk c s) := AnsSafe.onWord hsafe fun ix => State.safe_of_mem (by simp) hsafe

theorem execSignal_safe (c : Nat) : AnsSafe (execSignal c s) := AnsSafe.onWord hsafe fun ix => State.safe_of_mem (by simp) hsafe

theorem execYield_safe (c : Nat) : AnsSafe (execYield c s) := AnsSafe.onWord hsafe fun ix => State.safe_of_mem (by simp) hsafe

theorem execYieldTimeout_safe (c : Nat) : AnsSafe (execYieldTimeout c s) := by
  unfold execYieldTimeout
  refine AnsSafe.whenLive hsafe ?_
  grind [State.leaveSignals_mem, State.setClerk_mem]

theorem execWait_safe (c : Nat) : AnsSafe (execWait c s) := AnsSafe.onWord hsafe fun ix => State.safe_of_mem (by simp) hsafe

theorem execWaitTimeout_safe (c : Nat) : AnsSafe (execWaitTimeout c s) := by
  unfold execWaitTimeout
  refine AnsSafe.whenLive hsafe ?_
  grind [State.setClerk_mem]

theorem execRunTimeLimit_safe (c : Nat) : AnsSafe (execRunTimeLimit c s) := by
  unfold execRunTimeLimit
  refine AnsSafe.whenLive hsafe ?_
  grind [State.leaveSignals_mem, State.trap_mem]

theorem execHandlerGraceExpiry_safe (c : Nat) : AnsSafe (execHandlerGraceExpiry c s) := by
  unfold execHandlerGraceExpiry
  refine AnsSafe.whenLive hsafe ?_
  grind [State.endRun_mem]

/-! #### Commands: the Ledger (R136 to R139, R219) -/

theorem execCharge_safe (c : Nat) : AnsSafe (execCharge c s) := by
  exact AnsSafe.onWord hsafe fun ix => State.issueH_safe s ix _ _ _ _ hsafe fun o x t ht =>
      withRoom_safe s _ o x t hsafe (State.safe_of_mem (doCharge_mem _ o x t) ht)

theorem execCredit_safe (c : Nat) : AnsSafe (execCredit c s) := by
  exact AnsSafe.onWord hsafe fun ix => State.issueH_safe s ix _ _ _ _ hsafe fun o x t ht =>
      withRoom_safe s _ o x t hsafe (State.safe_of_mem (doCredit_mem o x t) ht)

theorem execRent_safe (c : Nat) : AnsSafe (execRent c s) := by
  exact AnsSafe.onWord hsafe fun ix => State.issueH_safe s ix _ _ _ _ hsafe fun o x t ht =>
      withRoom_safe s _ o x t hsafe (State.safe_of_mem (doRent_mem o x t) ht)

/-! #### Commands: PARK, REVIVE, MOVE, PIN and HINT -/

theorem execPark_safe (c : Nat) : AnsSafe (execPark c s) := AnsSafe.onWord hsafe fun ix => State.issueH_safe s ix _ _ _ _ hsafe doPark_safe

theorem execParkCommit_safe (i : Nat) : AnsSafe (execParkCommit i s) := by
  unfold execParkCommit
  apply AnsSafe.next
  (repeat' split) <;> grind [State.commitPlace_mem, State.finishR_mem, State.phaseWrote_mem, State.updSession_mem]

theorem execRevive_safe (c : Nat) : AnsSafe (execRevive c s) :=
  AnsSafe.onWord hsafe fun ix => State.issueH_safe s ix _ _ _ _ hsafe doRevive_safe

theorem execReviveLayerResident_safe (i layer : Nat) (remote : List (List Byte)) : AnsSafe (execReviveLayerResident i layer remote s) := by
  unfold execReviveLayerResident
  apply AnsSafe.next
  (repeat' split) <;> grind [State.layerResident_safe, State.losePages_mem, State.preReady_safe, State.reviveProgress_mem]

theorem execMove_safe (c : Nat) : AnsSafe (execMove c s) := AnsSafe.onWord hsafe fun ix => State.issueH_safe s ix _ _ _ _ hsafe doMove_safe

theorem execMoveDestinationAnswer_safe (i status aux : Nat) (w1 : Word) : AnsSafe (execMoveDestinationAnswer i status aux w1 s) := by
  unfold execMoveDestinationAnswer
  apply AnsSafe.next
  grind [State.endRequest_mem, State.finishR_mem, State.freeSession_safe, State.postResult_mem, State.updSession_mem]

theorem execMoveCopyArrival_safe (src : Nat) (ident : Word) (copy : SsnCopy) : AnsSafe (execMoveCopyArrival src ident copy s) := by
  unfold execMoveCopyArrival
  apply AnsSafe.next
  split <;> grind [State.addPages_safe, State.appendPb_mem, State.createSession_safe, State.onSsn_mem, State.putBytes_safe,
    State.retryAfter_mem, State.send_mem, State.updSession_mem, State.foldl_safe, State.foldl_mem]

theorem execPin_safe (c : Nat) : AnsSafe (execPin c s) := AnsSafe.onWord hsafe fun ix => State.issueH_safe s ix _ _ _ _ hsafe doPin_safe

theorem execUnpin_safe (c : Nat) : AnsSafe (execUnpin c s) :=
  AnsSafe.onWord hsafe fun ix => State.issueH_safe s ix _ _ _ _ hsafe fun o x t ht => State.safe_of_mem (by simp) ht

theorem execHint_safe (c : Nat) : AnsSafe (execHint c s) := AnsSafe.onWord hsafe fun ix => doHint_safe ix s hsafe

theorem execIndexReuseHoldEnd_safe (i : Nat) : AnsSafe (execIndexReuseHoldEnd i s) := by
  refine AnsSafe.whenLive hsafe ?_
  cases s.ssn.freedAt.look i with
  | none => exact hsafe
  | some t => exact State.ite_safe (State.safe_of_mem (State.onSsn_mem s _) hsafe) hsafe

theorem execDirRebuild_safe (m : Nat) : AnsSafe (execDirRebuild m s) := by
  unfold execDirRebuild
  apply AnsSafe.next
  grind [State.onSsn_mem, State.raise_mem]

theorem execPassbookFlashWrite_safe (i : Nat) : AnsSafe (execPassbookFlashWrite i s) :=
  AnsSafe.whenLive hsafe (State.safe_of_mem (by simp) hsafe)

theorem execPassbookCopyRebuild_safe (i : Nat) : AnsSafe (execPassbookCopyRebuild i s) := by
  unfold execPassbookCopyRebuild
  apply AnsSafe.next
  grind [State.updSession_mem]

theorem execT1Reclaim_safe : AnsSafe (execT1Reclaim s) := by
  refine AnsSafe.next (State.ite_safe hsafe ?_)
  extract_lets clean t parked
  have ht : t.safe := State.foldl_safe (fun u r hu => State.ite_safe hu (State.safe_of_mem (State.dropClean_mem u _) hu)) clean s hsafe
  clear_value t parked
  refine State.foldl_safe (fun u r hu => State.ite_safe hu ?_) parked t ht
  split
  · exact hu
  · rename_i t' _
    have hp := State.startPlace_safe u r.1 t' hu
    dsimp only
    split
    · exact State.safe_of_mem (State.losePages_mem _ _ _) hp
    · exact hp

theorem execSessionRebuildDone_safe (i : Nat) (pages : List (Nat × Nat × List Byte)) : AnsSafe (execSessionRebuildDone i pages s) := by
  refine AnsSafe.next (State.ite_safe hsafe ?_)
  split
  · exact hsafe
  · split
    · exact hsafe
    · rename_i x _ r _
      have hadd := State.addPages_safe s i (r.fetch.map (fun p => (0, p.1, p.2))) .live hsafe
      refine State.ite_safe hsafe (State.safe_of_mem (State.updSession_mem _ _ _) ?_)
      split
      · exact hadd
      · refine State.foldl_safe (fun t p ht => ?_) _ _ hadd
        split
        · exact State.writeMem_safe t _ _ ht
        · exact ht

theorem execSessionCounterfoilPage_safe (peer : Nat) (ident : Word) (kv : Bool) (layer page : Nat) (data : List Byte) :
    AnsSafe (execSessionCounterfoilPage peer ident kv layer page data s) := by
  refine AnsSafe.next (State.ite_safe hsafe ?_)
  refine State.ite_safe (State.ite_safe (State.safe_of_mem (State.onSsn_mem s _) hsafe) ?_) (State.safe_of_mem (State.onSsn_mem s _) hsafe)
  have halloc := State.allocPage_safe s (ssnCtx ident) (ssnIndex ident) layer page .alloc hsafe
  generalize s.allocPage (ssnCtx ident) (ssnIndex ident) layer page .alloc = r at halloc ⊢
  obtain ⟨t, place⟩ := r
  cases place with
  | none => exact halloc
  | some f => exact State.safe_of_mem (State.onSsn_mem t _) halloc

theorem execPhaseSwitch_safe (rq : Requester) (v : Word) : AnsSafe (execPhaseSwitch rq v s) := by
  refine AnsSafe.next (State.woWrite_safe s _ _ _ _ _ _ hsafe ?_)
  refine State.ite_safe (State.safe_of_mem (State.raise_mem s _) hsafe) ?_
  extract_lets p t u
  have ht : t.safe := State.safe_of_mem (State.onSsn_mem s _) hsafe
  clear_value t
  have hp : (t.phaseStatus 3).safe := State.safe_of_mem (State.phaseStatus_mem t 3) ht
  have hu : u.safe := State.phaseAdvance_safe _ (State.safe_of_mem (State.phaseStatus_mem t 1) ht)
  clear_value u
  exact State.ite_safe (State.safe_of_mem (State.onSsn_mem _ _) hp) (State.ite_safe (State.phaseForce_safe u hu) hu)

theorem execPhaseTimeLimit_safe : AnsSafe (execPhaseTimeLimit s) := by
  unfold execPhaseTimeLimit
  apply AnsSafe.next
  grind [State.phaseAdvance_safe, State.phaseForce_safe]

/-! #### Commands: attention messages (R103, R104) -/

theorem execAtq_safe (p ctx addr : Nat) (msg : List Byte) : AnsSafe (execAtq p ctx addr msg s) :=
  AnsSafe.whenLive hsafe (State.ite_safe hsafe (State.attnArrive_safe s _ _ _ _ hsafe))

theorem execKvu_safe (p ctx addr : Nat) (msg : List Byte) : AnsSafe (execKvu p ctx addr msg s) :=
  AnsSafe.whenLive hsafe (State.ite_safe hsafe (State.attnArrive_safe s _ _ _ _ hsafe))

theorem execLdn_safe (p : Nat) (msg : List Byte) : AnsSafe (execLdn p msg s) := by
  unfold execLdn
  apply AnsSafe.next
  grind [State.kernelAnswer_safe, State.nextPart_safe, State.updStep_mem]

/-! #### Commands: attention beside memory (R95 to R102) -/

theorem execAttn_safe (c : Nat) : AnsSafe (execAttn c s) := by
  exact AnsSafe.onWord hsafe fun ix => State.issueH_safe _ ix _ _ _ _
      (State.safe_of_mem (State.onTlr_mem s _) hsafe) doAttn_safe

theorem execEngineDescriptorExec_safe (m : Nat) (meets : EngineMeets) : AnsSafe (execEngineDescriptorExec m meets s) := by
  unfold execEngineDescriptorExec
  apply AnsSafe.next
  grind [State.bankFor_mem, State.count_mem, State.raise_mem, State.runDesc_safe, State.setEngine_mem, State.setFld_mem,
    State.slotDone_safe, State.sramFail_mem]

theorem execPartialMerge_safe (pslot stack : Nat) : AnsSafe (execPartialMerge pslot stack s) := by
  unfold execPartialMerge
  apply AnsSafe.next
  grind [State.onKva_mem, State.slotDone_safe, State.writeDigest_safe]

theorem execAtrSupplement_safe (op : Nat) : AnsSafe (execAtrSupplement op s) := by
  refine AnsSafe.next (State.ite_safe hsafe ?_)
  split
  · exact hsafe
  · refine State.progress_safe _ op (State.safe_of_mem (State.foldl_mem (fun t k => ?_) _ s) hsafe)
    grind [State.updAttn_mem, State.updSession_mem, State.walkEntry_mem, State.closeEntry_mem, State.displace_mem]

theorem execReviveHoldExpiry_safe (i : Nat) : AnsSafe (execReviveHoldExpiry i s) := by
  unfold execReviveHoldExpiry
  apply AnsSafe.next
  (repeat' split) <;> grind [State.displace_mem, State.raise_mem, State.updAttn_mem, State.updSession_mem, State.foldl_safe,
    State.foldl_mem]

theorem execAttnMerge_safe (c : Nat) : AnsSafe (execAttnMerge c s) :=
  AnsSafe.onWord hsafe fun ix => State.issueLong_safe s ix _ _ _ hsafe doAttnMerge_safe

/-! #### Commands: the text path (R146 to R173, R218) -/

theorem execTblLoad_safe (rq : Requester) (v : Word) : AnsSafe (execTblLoad rq v s) := by
  unfold execTblLoad
  apply AnsSafe.next
  grind [State.raise_mem, State.readMem_safe, State.sweepTables_mem, State.tblStatus_mem, State.woWrite_safe, State.wr_mem]

theorem execTblUnload_safe (rq : Requester) (v : Word) : AnsSafe (execTblUnload rq v s) :=
  AnsSafe.next (State.woWrite_safe s _ _ _ _ _ _ hsafe (State.safe_of_mem (by simp) hsafe))

theorem execMint_safe (c : Nat) : AnsSafe (execMint c s) := AnsSafe.onWord hsafe fun ix => State.issueH_safe s ix _ _ _ _ hsafe doMint_safe

theorem execClearBind_safe (c : Nat) : AnsSafe (execClearBind c s) :=
  AnsSafe.onWord hsafe fun ix => State.issueH_safe s ix _ _ _ _ hsafe doClearBind_safe

theorem execClearUnbind_safe (c : Nat) : AnsSafe (execClearUnbind c s) :=
  AnsSafe.onWord hsafe fun ix => State.issueH_safe s ix _ _ _ _ hsafe doClearUnbind_safe

theorem execClearMask_safe (c : Nat) : AnsSafe (execClearMask c s) :=
  AnsSafe.onWord hsafe fun ix => State.issueH_safe s ix _ _ _ _ hsafe doClearMask_safe

theorem execClearAdvance_safe (c : Nat) : AnsSafe (execClearAdvance c s) :=
  AnsSafe.onWord hsafe fun ix => State.issueH_safe s ix _ _ _ _ hsafe doClearAdvance_safe

theorem execSampleConfig_safe (c : Nat) : AnsSafe (execSampleConfig c s) :=
  AnsSafe.onWord hsafe fun ix => State.issueH_safe s ix _ _ _ _ hsafe doSampleConfig_safe

theorem execSampleProbe_safe (c : Nat) : AnsSafe (execSampleProbe c s) :=
  AnsSafe.onWord hsafe fun ix => State.issueH_safe s ix _ _ _ _ hsafe doSampleProbe_safe

theorem execChangeConfig_safe (c : Nat) : AnsSafe (execChangeConfig c s) :=
  AnsSafe.onWord hsafe fun ix => State.issueH_safe s ix _ _ _ _ hsafe doChangeConfig_safe

theorem execChangeText_safe (c : Nat) : AnsSafe (execChangeText c s) :=
  AnsSafe.onWord hsafe fun ix => State.issueH_safe s ix _ _ _ _ hsafe doChangeText_safe

/-! #### Commands: models, groups and the end of a step -/

theorem execModelReg_safe (rq : Requester) (v : Word) : AnsSafe (execModelReg rq v s) := by
  unfold execModelReg
  apply AnsSafe.next
  grind [State.modelStatus_mem, State.onSch_mem, State.woWrite_safe]

theorem execModelUnreg_safe (rq : Requester) (v : Word) : AnsSafe (execModelUnreg rq v s) :=
  AnsSafe.next (State.woWrite_safe s _ _ _ _ _ _ hsafe (State.safe_of_mem (by simp) hsafe))

theorem execGroupCfgWrite_safe (rq : Requester) (g : Nat) (v : Word) : AnsSafe (execGroupCfgWrite rq g v s) := by
  refine AnsSafe.next (State.ite_safe hsafe (State.cfgWrite_safe s _ _ _ _ _ hsafe ?_))
  extract_lets oldRole oldModel oldPorts t clash u x moved v w y
  have ht : t.safe := State.safe_of_mem (State.rwWrite_mem s _ _ _) hsafe
  have hu : u.safe := by
    dsimp only [u]
    grind [State.setFld_mem, State.raise_mem]
  clear_value u
  have hv : v.safe := State.ite_safe (State.groupOff_safe u g hu) hu
  have hy : y.safe := State.settleGroups_safe _ (State.safe_of_mem (State.setGroup_mem v g _) hv)
  grind [State.setGroup_mem, State.groupOff_safe, State.switchTo_safe, State.switchDone_safe]

theorem execGroupTimeout_safe (g : Nat) (half : Bool) : AnsSafe (execGroupTimeout g half s) := by
  unfold execGroupTimeout
  apply AnsSafe.next
  grind [State.abortKernels_mem, State.groupOff_safe, State.raise_mem, State.setGroup_mem]

theorem execRoleEval_safe (model dp dd : Nat) (backlog : List (Nat × Nat)) : AnsSafe (execRoleEval model dp dd backlog s) := by
  unfold execRoleEval
  apply AnsSafe.next
  split <;> grind [State.setGroup_mem, State.settleGroups_safe, State.switchTo_safe, State.foldl_safe, State.foldl_mem]

theorem execLedgerTick_safe : AnsSafe (execLedgerTick s) := AnsSafe.whenLive hsafe (State.safe_of_mem (by simp) hsafe)

theorem execCtxReportWrite_safe (rq : Requester) (n : Nat) (v : Word) : AnsSafe (execCtxReportWrite rq n v s) := by
  unfold execCtxReportWrite
  apply AnsSafe.next
  grind [State.cfgWrite_safe, State.rwWrite_mem]

theorem execPhaseDone_safe : AnsSafe (execPhaseDone s) := by
  unfold execPhaseDone
  apply AnsSafe.next
  grind [State.handOver_mem, State.onSsn_mem, State.phaseStatus_mem, State.setGroup_mem, State.switchTo_safe, State.foldl_safe,
    State.foldl_mem]

/-! #### Commands: requests (R121 to R123, R142, R217) -/

theorem execSubmit_safe (c stepUs pageRate finishUs : Nat) : AnsSafe (execSubmit c stepUs pageRate finishUs s) := by
  unfold execSubmit
  apply AnsSafe.next
  grind [State.deny_mem, State.issueH_safe, State.onWord_safe, State.submit_safe]

theorem execCancel_safe (c : Nat) : AnsSafe (execCancel c s) :=
  AnsSafe.onWord hsafe fun ix => State.issueH_safe s ix _ _ _ _ hsafe doCancel_safe

theorem execDispatchKernel_safe (c : Nat) : AnsSafe (execDispatchKernel c s) := by
  exact AnsSafe.onWord hsafe fun ix => State.issueH_safe _ ix _ _ _ _
      (State.safe_of_mem (State.onTlr_mem s _) hsafe) (doKernel_safe _)

/-! #### Commands: forming a step -/

theorem execStepForm_safe (g : Nat) (half : Bool) (baseNs watts : Nat) (cands : List StepCand) :
    AnsSafe (execStepForm g half baseNs watts cands s) := by
  refine AnsSafe.next (State.ite_safe hsafe ?_)
  dsimp only
  have hwake : (s.settleGroups.accrueWait.boostEval cands).wakeSessions.safe :=
    State.wakeSessions_safe _ (State.safe_of_mem (by simp) (State.settleGroups_safe s hsafe))
  generalize (s.settleGroups.accrueWait.boostEval cands).wakeSessions = t at hwake ⊢
  refine State.ite_safe hwake ?_
  split
  · exact hwake
  · rename_i m _
    have hform := fun order f => State.considerAll_safe m (t.group g).role order (t, f) hwake
    refine State.ite_safe hwake (State.ite_safe (State.safe_of_mem (by simp) hwake) (State.ite_safe (hform _ _) ?_))
    simp only [State.safe, State.startStep_mem, State.notePower_mem]
    exact hform _ _

/-! #### Commands: the end of a step -/

theorem execLgt_safe (p : Nat) (msg : List Byte) : AnsSafe (execLgt p msg s) := by
  refine AnsSafe.next (State.ite_safe hsafe ?_)
  dsimp only
  split
  · refine State.ite_safe hsafe (State.ite_safe (State.safe_of_mem (State.updStep_mem s _ _) hsafe) ?_)
    refine State.safe_of_mem ?_ hsafe
    simp
  · exact hsafe

theorem execHsv_safe (p : Nat) (msg : List Byte) : AnsSafe (execHsv p msg s) := by
  refine AnsSafe.next (State.ite_safe hsafe ?_)
  dsimp only
  split
  · refine State.ite_safe hsafe (State.safe_of_mem (State.foldl_fst_mem (fun a e => ?_) _ _) hsafe)
    grind [State.updSession_mem]
  · exact hsafe

theorem execStepCommit_safe (g : Nat) (half : Bool) : AnsSafe (execStepCommit g half s) := by
  unfold execStepCommit
  apply AnsSafe.next
  grind [State.accrueWait_mem, State.commitSlot_safe, State.endStep_safe, State.hsvCheck_mem, State.makeReports_mem, State.onSch_mem,
    State.foldl_safe, State.foldl_mem]

theorem execStepReportSend_safe (n : Nat) : AnsSafe (execStepReportSend n s) := by
  unfold execStepReportSend
  apply AnsSafe.next
  grind [State.onSch_mem, State.sendOn_mem]

/-! #### Commands: images and runs (R24 to R35) -/

theorem execImgLoad_safe (rq : Requester) (v : Word) : AnsSafe (execImgLoad rq v s) :=
  AnsSafe.next (State.woWrite_safe s _ _ _ _ _ _ hsafe (State.safe_of_mem (by simp) hsafe))

theorem execImgVerifyDone_safe : AnsSafe (execImgVerifyDone s) := by
  unfold execImgVerifyDone
  apply AnsSafe.next
  grind [State.imgStatus_mem, State.onTlr_mem, State.raise_mem, State.send_mem, State.wr_mem]

theorem execImgUnload_safe (rq : Requester) (v : Word) : AnsSafe (execImgUnload rq v s) :=
  AnsSafe.next (State.woWrite_safe s _ _ _ _ _ _ hsafe (State.safe_of_mem (by simp) hsafe))

theorem execRunStart_safe (rq : Requester) (v : Word) : AnsSafe (execRunStart rq v s) := by
  unfold execRunStart
  apply AnsSafe.next
  grind [State.dispatchRun_safe, State.refuseRun_mem, State.woWrite_safe]

theorem execRunCancel_safe (rq : Requester) (tag : Word) : AnsSafe (execRunCancel rq tag s) :=
  AnsSafe.next (State.woWrite_safe s _ _ _ _ _ _ hsafe (State.safe_of_mem (by simp) hsafe))

theorem execRunDrainDone_safe (c : Nat) : AnsSafe (execRunDrainDone c s) := by
  unfold execRunDrainDone
  apply AnsSafe.next
  grind [State.dequeueRun_safe, State.keepRecord_mem, State.onTlr_mem, State.setClerk_mem, State.sweepImage_mem]

/-! #### Commands: OPEN, BIND and DROP (R38 to R40, R211, R212) -/

theorem execOpenObj_safe (c : Nat) : AnsSafe (execOpenObj c s) :=
  AnsSafe.onWord hsafe fun ix => State.issueLong_safe s ix _ _ _ hsafe doOpen_safe

theorem execBind_safe (c : Nat) : AnsSafe (execBind c s) := AnsSafe.onWord hsafe fun ix => State.safe_of_mem (by simp) hsafe

theorem execDrop_safe (c : Nat) : AnsSafe (execDrop c s) := AnsSafe.onWord hsafe fun ix => State.safe_of_mem (by simp) hsafe

/-! #### Commands: LD, ST, AMO and the fences (R41 to R43, R206, R207, R220) -/

theorem execLd_safe (c : Nat) : AnsSafe (execLd c s) := AnsSafe.onWord hsafe fun ix => doLd_safe ix s hsafe

theorem execSt_safe (c : Nat) : AnsSafe (execSt c s) := AnsSafe.onWord hsafe fun ix => doMem_safe ix s hsafe

theorem execAmo_safe (c : Nat) : AnsSafe (execAmo c s) := AnsSafe.onWord hsafe fun ix => doMem_safe ix s hsafe

theorem execFenceM_safe (c : Nat) : AnsSafe (execFenceM c s) := AnsSafe.onWord hsafe fun ix => State.safe_of_mem (by simp) hsafe

theorem execFenceN_safe (c : Nat) : AnsSafe (execFenceN c s) := AnsSafe.onWord hsafe fun ix => State.safe_of_mem (by simp) hsafe

theorem execFenceD_safe (c : Nat) : AnsSafe (execFenceD c s) := AnsSafe.onWord hsafe fun ix => State.safe_of_mem (by simp) hsafe

theorem execEscAcq_safe (c : Nat) : AnsSafe (execEscAcq c s) := AnsSafe.onWord hsafe fun ix => State.issueEscrow_safe s ix _ _ hsafe

theorem execEscPub_safe (c : Nat) : AnsSafe (execEscPub c s) := AnsSafe.onWord hsafe fun ix => State.issueEscrow_safe s ix _ _ hsafe

theorem execEscRel_safe (c : Nat) : AnsSafe (execEscRel c s) := AnsSafe.onWord hsafe fun ix => State.issueEscrow_safe s ix _ _ hsafe

/-! #### Commands: statements and Counterfoils -/

theorem execJobCreate_safe (rq : Requester) (v : Word) (granted : Bool) : AnsSafe (execJobCreate rq v granted s) := by
  refine AnsSafe.next (State.woWrite_safe s _ _ _ _ _ _ hsafe ?_)
  extract_lets bs d refuse
  have hrefuse : ∀ t k, t.safe → (refuse t k).safe := fun t k ht => State.safe_of_mem (State.jobStatus_mem t _ _ _) ht
  clear_value refuse
  refine State.ite_safe (hrefuse s _ hsafe) (State.ite_safe (hrefuse s _ hsafe) ?_)
  split
  · exact hrefuse s _ hsafe
  · rename_i j _
    refine State.ite_safe (hrefuse s _ hsafe) ?_
    have hr := State.takeSlots_safe s d.ctx j d hsafe
    generalize s.takeSlots d.ctx j d = r at hr ⊢
    dsimp only
    split
    · exact hrefuse r.1 _ hr
    · grind [State.send_mem, State.addJob_mem, State.jobStatus_mem, State.foldl_mem, State.freeFrame_mem]

theorem execJobDelete_safe (rq : Requester) (v : Word) : AnsSafe (execJobDelete rq v s) :=
  AnsSafe.next (State.woWrite_safe s _ _ _ _ _ _ hsafe (State.safe_of_mem (by simp) hsafe))

theorem execMemberNoticeArrival_safe (tag : Word) (rank step controller : Nat) (desc : List Byte)
    (shards : List (Nat × Nat × Bool × List Byte)) :
    AnsSafe (execMemberNoticeArrival tag rank step controller desc shards s) := by
  unfold execMemberNoticeArrival
  apply AnsSafe.next
  grind [State.coordNotice_mem]

theorem execFlashCommitNotice_safe (tag : Word) (rank step : Nat) : AnsSafe (execFlashCommitNotice tag rank step s) := by
  unfold execFlashCommitNotice
  apply AnsSafe.next
  grind [State.applyFlash_mem, State.coordFlash_mem]

theorem execStatementFlush_safe (j : Nat) : AnsSafe (execStatementFlush j s) := by
  unfold execStatementFlush
  apply AnsSafe.next
  split <;> grind [State.dropExtent_mem, State.endFlush_mem, State.flashCommitted_mem, State.flushParts_mem, State.raise_mem,
    State.updJob_mem, State.foldl_safe, State.foldl_mem]

theorem execShapeDigest_safe (j step : Nat) (shape : List Byte) : AnsSafe (execShapeDigest j step shape s) :=
  AnsSafe.next (State.safe_of_mem (by simp) hsafe)

theorem execCommitNotice_safe (tag : Word) (rank step : Nat) (part : List Byte) : AnsSafe (execCommitNotice tag rank step part s) := by
  unfold execCommitNotice
  apply AnsSafe.next
  grind [State.coordCommit_mem]

theorem execCfAck_safe (j : Nat) (refs : List (Nat × Nat × Nat)) : AnsSafe (execCfAck j refs s) := by
  unfold execCfAck
  apply AnsSafe.next
  split <;> grind [State.memberCommit_mem]

theorem execCfPageRefusal_safe (j seq : Nat) : AnsSafe (execCfPageRefusal j seq s) := by
  unfold execCfPageRefusal
  apply AnsSafe.next
  grind [State.loseCfPeer_mem, State.raise_mem, State.sendCfPage_mem, State.updJob_mem]

theorem execStmtBegin_safe (c : Nat) (coordSame : Bool) : AnsSafe (execStmtBegin c coordSame s) :=
  AnsSafe.onWord hsafe fun ix => State.issueH_safe s ix _ _ _ _ hsafe fun o x t ht => State.safe_of_mem (by simp) ht

theorem execStmtAdd_safe (c : Nat) : AnsSafe (execStmtAdd c s) :=
  AnsSafe.onWord hsafe fun ix => State.issueH_safe s ix _ _ _ _ hsafe fun o x t ht => State.safe_of_mem (by simp) ht

theorem execStmtCommit_safe (c : Nat) : AnsSafe (execStmtCommit c s) :=
  AnsSafe.onWord hsafe fun ix => State.issueH_safe s ix _ _ _ _ hsafe fun o x t ht => State.safe_of_mem (by simp) ht

theorem execCopyBeforeWrite_safe (page : Nat) : AnsSafe (execCopyBeforeWrite page s) := by
  unfold execCopyBeforeWrite
  apply AnsSafe.next
  grind [State.copyPage_safe, State.releasePage_safe, State.stmAdvance_mem, State.foldl_safe, State.foldl_mem]

theorem execBackgroundCopy_safe (j : Nat) : AnsSafe (execBackgroundCopy j s) := by
  unfold execBackgroundCopy
  apply AnsSafe.next
  split <;> grind [State.copyPage_safe, State.releasePage_safe, State.stmAdvance_mem]

theorem execCounterfoilSlotRequest_safe (peer : Nat) (tag : Word) (rank slotBytes : Nat) :
    AnsSafe (execCounterfoilSlotRequest peer tag rank slotBytes s) := by
  unfold execCounterfoilSlotRequest
  apply AnsSafe.next
  grind [State.allocMany_safe, State.freeFrame_mem, State.onStm_mem, State.send_mem, State.foldl_safe, State.foldl_mem]

theorem execCfPage_safe (peer : Nat) (tag : Word) (rank slot seq : Nat) (data : List Byte) (tagOk : Bool) :
    AnsSafe (execCfPage peer tag rank slot seq data tagOk s) := by
  unfold execCfPage
  apply AnsSafe.next
  grind [State.onStm_mem, State.send_mem]

theorem execCounterfoilFetch_safe (peer : Nat) (tag : Word) (rank slot : Nat) : AnsSafe (execCounterfoilFetch peer tag rank slot s) := by
  unfold execCounterfoilFetch
  apply AnsSafe.next
  (repeat' split) <;> grind [State.send_mem]

theorem execJobPeerWrite_safe (rq : Requester) (j : Nat) (v : Word) (granted : Bool) : AnsSafe (execJobPeerWrite rq j v granted s) := by
  refine AnsSafe.next (State.ite_safe hsafe (State.cfgWrite_safe s _ _ _ _ _ hsafe (State.safe_of_mem ?_ hsafe)))
  dsimp only
  split
  · rfl
  · simp only [State.ite_mem]
    split
    · rfl
    · split
      · simp
      · split
        · simp
        · rw [State.send_mem, State.foldl_mem (fun t i => State.send_mem t _)]
          simp

theorem execRestore_safe (rq : Requester) (v : Word) (others : RestoreAnswer) (remote : List (List Byte)) :
    AnsSafe (execRestore rq v others remote s) := by
  unfold execRestore
  apply AnsSafe.next
  grind [State.restoreFlash_safe, State.restoreFrom_safe, State.restoreStatus_mem, State.woWrite_safe]

theorem execRollback_safe (j step : Nat) (remote : List (List Byte)) : AnsSafe (execRollback j step remote s) :=
  AnsSafe.next (State.ite_safe hsafe (State.rollbackTo_safe s _ _ _ hsafe))

theorem execTakeover_safe (desc : List Byte) (peer step : Nat) (shape : List Byte) (shards : List ShardSpec) (data : List (List Byte)) :
    AnsSafe (execTakeover desc peer step shape shards data s) := by
  unfold execTakeover
  apply AnsSafe.next
  split <;> grind [State.addJob_mem, State.copyBack_safe, State.deleteJob_mem, State.publishJob_mem, State.raise_mem, State.takeSlots_safe,
    State.updJob_mem, State.wr_mem]

/-! #### Commands: lent DRAM (R66, R306) -/

theorem execT4RoomRequest_safe (peer pages : Nat) : AnsSafe (execT4RoomRequest peer pages s) :=
  AnsSafe.next (State.safe_of_mem (by simp) hsafe)

theorem execT4PieceStore_safe (peer : Nat) (ident : Word) (pages : List (List Byte)) : AnsSafe (execT4PieceStore peer ident pages s) := by
  unfold execT4PieceStore
  apply AnsSafe.next
  grind [State.allocMany_safe, State.dropPiece_mem, State.onDfb_mem, State.send_mem, State.writeMem_safe, State.foldl_safe, State.foldl_mem]

theorem execT4Fetch_safe (peer : Nat) (ident : Word) : AnsSafe (execT4Fetch peer ident s) := by
  refine AnsSafe.next (State.ite_safe hsafe ?_)
  split
  · exact State.safe_of_mem (State.send_mem s _) hsafe
  · rename_i p _
    refine State.safe_of_mem ((State.send_mem _ _).trans (State.dropPiece_mem _ p)) ?_
    exact State.foldl_fst_safe (fun a f ha => State.pair_safe _ (State.readMem_safe a.1 _ _ ha)) _ (s, []) hsafe

theorem execT4Revoke_safe : AnsSafe (execT4Revoke s) := by
  unfold execT4Revoke
  apply AnsSafe.next
  grind [State.onDfb_mem, State.send_mem]

theorem execReclaimDeadline_safe (peer : Nat) : AnsSafe (execReclaimDeadline peer s) := AnsSafe.next (State.safe_of_mem (by simp) hsafe)

theorem execT4RevocationNotice_safe (peer order : Nat) : AnsSafe (execT4RevocationNotice peer order s) := by
  unfold execT4RevocationNotice
  apply AnsSafe.next
  grind [State.onDfb_mem, State.startStream_safe, State.updSession_mem]

/-! #### Commands: vector search -/

theorem execCollCreate_safe (rq : Requester) (v : Word) : AnsSafe (execCollCreate rq v s) := by
  unfold execCollCreate
  apply AnsSafe.next
  grind [State.collStatus_mem, State.onVsr_mem, State.raise_mem, State.woWrite_safe, State.wr_mem]

theorem execVsrCfgWrite_safe (rq : Requester) (v : Word) : AnsSafe (execVsrCfgWrite rq v s) :=
  AnsSafe.next (State.cfgWrite_safe s _ _ _ _ _ hsafe (State.safe_of_mem (by simp) hsafe))

theorem execSearch_safe (c : Nat) : AnsSafe (execSearch c s) :=
  AnsSafe.onWord hsafe fun ix => State.issueH_safe s ix _ _ _ _ hsafe doSearch_safe

theorem execWeighPass_safe (ch : Nat) : AnsSafe (execWeighPass ch s) := by
  unfold execWeighPass
  apply AnsSafe.next
  split <;> grind [State.onVsr_mem, State.roundsEnd_safe, State.unitServe_mem]

theorem execAssay_safe (op : Nat) : AnsSafe (execAssay op s) := by
  unfold execAssay
  apply AnsSafe.next
  dsimp only
  (repeat' split) <;> grind [State.deliver_safe, State.endQuery_mem, State.roundsEnd_safe, State.searchDone_mem, State.unitServe_mem,
    State.foldl_safe, State.foldl_mem]

/-! #### Commands: writes of vector collections -/

theorem execVinsert_safe (c : Nat) : AnsSafe (execVinsert c s) :=
  AnsSafe.onWord hsafe fun ix => State.issueH_safe s ix _ _ _ _ hsafe fun o x t ht => doVinsert_safe s o x t hsafe ht

theorem execVdelete_safe (c : Nat) : AnsSafe (execVdelete c s) :=
  AnsSafe.onWord hsafe fun ix => State.issueH_safe s ix _ _ _ _ hsafe fun o x t ht => doVdelete_safe s o x t hsafe ht

theorem execVectorFold_safe (coll endUs : Nat) : AnsSafe (execVectorFold coll endUs s) := by
  unfold execVectorFold
  apply AnsSafe.next
  grind [State.endFold_mem, State.updColl_mem]

theorem execSketchRebuild_safe (coll part page : Nat) : AnsSafe (execSketchRebuild coll part page s) := by
  unfold execSketchRebuild
  apply AnsSafe.next
  grind [State.publishLost_mem, State.putUnits_mem, State.updColl_mem]

theorem execCollDrop_safe (rq : Requester) (v : Word) : AnsSafe (execCollDrop rq v s) :=
  AnsSafe.next (State.woWrite_safe s _ _ _ _ _ _ hsafe (State.safe_of_mem (by simp) hsafe))

theorem execCollIndexFree_safe (coll : Nat) : AnsSafe (execCollIndexFree coll s) := by
  unfold execCollIndexFree
  refine AnsSafe.whenLive hsafe ?_
  grind [State.onVsr_mem, State.wr_mem]

/-! #### Commands: programmed flash writes (R234) and map changes -/

theorem execFlashProgramDone_safe (id : Nat) : AnsSafe (execFlashProgramDone id s) :=
  AnsSafe.whenLive hsafe (State.programDone_safe s _ hsafe)

theorem execMapAdopt_safe (epoch : Nat) (c : MapChange) : AnsSafe (execMapAdopt epoch c s) := by
  unfold execMapAdopt
  apply AnsSafe.next
  grind [State.adoptMap_safe, State.completeCut_mem, State.peerLost_safe, State.publishMaster_mem, State.foldl_safe, State.foldl_mem]

/-! #### Commands: completion and cancellation (R48, R49, R75) -/

theorem execOperationComplete_safe (c slot : Nat) (src : CompSrc) : AnsSafe (execOperationComplete c slot src s) := by
  unfold execOperationComplete
  apply AnsSafe.next
  grind [State.cancelArrives_safe, State.ownArrives_mem]

/-! #### Commands: the loss of a port (R286, R312) -/

theorem execPortFailed_safe (p : Nat) : AnsSafe (execPortFailed p s) := by
  unfold execPortFailed
  refine AnsSafe.whenLive hsafe ?_
  grind [State.portLost_safe, State.updPort_mem]

theorem execPortCfgWrite_safe (rq : Requester) (p : Nat) (v : Word) : AnsSafe (execPortCfgWrite rq p v s) := by
  unfold execPortCfgWrite
  apply AnsSafe.next
  grind [State.cfgWrite_safe, State.portOff_safe, State.rwWrite_mem, State.updPort_mem]

/-! #### Commands: freeze (R222, R375 to R381) -/

theorem execFreezePin_safe (low : Bool) : AnsSafe (execFreezePin low s) := AnsSafe.next (State.safe_of_mem (by simp) hsafe)

theorem execDbgFreeze_safe (rq : Requester) (v : Word) : AnsSafe (execDbgFreeze rq v s) := AnsSafe.next (State.safe_of_mem (by simp) hsafe)

theorem execFreeze_safe (c : Nat) : AnsSafe (execFreeze c s) := AnsSafe.onWord hsafe fun ix => State.safe_of_mem (by simp) hsafe

theorem execFrzCtrlFreeze_safe : AnsSafe (execFrzCtrlFreeze s) := AnsSafe.next (State.safe_of_mem (by simp) hsafe)

theorem execFrzCtrlRelease_safe (elapsedNs : Nat) : AnsSafe (execFrzCtrlRelease elapsedNs s) := by
  unfold execFrzCtrlRelease
  apply AnsSafe.next
  grind [State.onFrz_mem, State.thaw_safe]

theorem execFrzCtrlSelect_safe (v : Word) : AnsSafe (execFrzCtrlSelect v s) := AnsSafe.next (State.safe_of_mem (by simp) hsafe)

theorem execFrzCtrlReadout_safe : AnsSafe (execFrzCtrlReadout s) := by
  unfold execFrzCtrlReadout
  apply AnsSafe.next
  grind [State.frzStatus_mem, State.onFrz_mem, State.send_mem]

theorem execFrzRead_safe (n : Nat) : AnsSafe (execFrzRead n s) := by
  unfold execFrzRead
  apply AnsSafe.next
  grind [State.onFrz_mem, State.send_mem]

theorem execExtest_safe (tap : Nat) : AnsSafe (execExtest tap s) := AnsSafe.next (State.safe_of_mem (by simp) hsafe)

theorem execIdcode_safe (tap : Nat) : AnsSafe (execIdcode tap s) := AnsSafe.next (State.safe_of_mem (by simp) hsafe)

theorem execSamplePreload_safe (tap : Nat) : AnsSafe (execSamplePreload tap s) := AnsSafe.next (State.safe_of_mem (by simp) hsafe)

theorem execClamp_safe (tap : Nat) : AnsSafe (execClamp tap s) := AnsSafe.next (State.safe_of_mem (by simp) hsafe)

theorem execHighz_safe (tap : Nat) : AnsSafe (execHighz tap s) := AnsSafe.next (State.safe_of_mem (by simp) hsafe)

theorem execBypass_safe (tap code : Nat) : AnsSafe (execBypass tap code s) := AnsSafe.next (State.safe_of_mem (by simp) hsafe)

/-! #### Commands: power and the flush (R354 to R368) -/

theorem execVsupWarning_safe (rackFault : Bool) : AnsSafe (execVsupWarning rackFault s) := AnsSafe.next (State.safe_of_mem (by simp) hsafe)

theorem execVsupPowerFail_safe : AnsSafe (execVsupPowerFail s) :=
  AnsSafe.next (State.ite_safe (State.enterFlush_safe s _ hsafe) (State.safe_of_mem (State.onPwr_mem s _) hsafe))

theorem execVsupRecovery_safe : AnsSafe (execVsupRecovery s) := AnsSafe.next (State.safe_of_mem (by simp) hsafe)

theorem execOvervoltage_safe : AnsSafe (execOvervoltage s) := AnsSafe.next (State.safe_of_mem (by simp) hsafe)

theorem execTier2Cut_safe (written : List Nat) : AnsSafe (execTier2Cut written s) := by
  unfold execTier2Cut
  apply AnsSafe.next
  grind [State.flushTier1_safe, State.flushTier2_safe, State.raise_mem]

theorem execResumingDone_safe : AnsSafe (execResumingDone s) := AnsSafe.whenLive hsafe (State.safe_of_mem (by simp) hsafe)

omit hsafe in
theorem execVinReset_safe : AnsSafe (execVinReset s) := AnsSafe.next (State.doReset_safe s _ _)

theorem execResetPin_safe : AnsSafe (execResetPin s) :=
  AnsSafe.next (State.ite_safe (State.doReset_safe s _ _) (State.moduleReset_safe s _ hsafe))

theorem execGlbResetModule_safe (rq : Requester) (v : Word) : AnsSafe (execGlbResetModule rq v s) := by
  unfold execGlbResetModule
  apply AnsSafe.next
  grind [State.discardAccess_mem, State.moduleReset_safe]

theorem execJunction115_safe (_h tC : Nat) : AnsSafe (execJunction115 _h tC s) := by
  unfold execJunction115
  apply AnsSafe.next
  grind [State.enterFlush_safe, State.onPwr_mem]

theorem execThermalResetRelease_safe (tC : List Nat) : AnsSafe (execThermalResetRelease tC s) :=
  AnsSafe.next (State.safe_of_mem (by simp) hsafe)

theorem execCoreSupervisorReset_safe (mv : Nat) : AnsSafe (execCoreSupervisorReset mv s) := by
  unfold execCoreSupervisorReset
  apply AnsSafe.next
  grind [State.doReset_safe, State.onPwr_mem]

theorem execJunctionAbove105_safe (_h tC : Nat) : AnsSafe (execJunctionAbove105 _h tC s) :=
  AnsSafe.whenLive hsafe (State.safe_of_mem (by simp) hsafe)

theorem execCoreVoltageLow_safe (mv : Nat) : AnsSafe (execCoreVoltageLow mv s) :=
  AnsSafe.whenLive hsafe (State.safe_of_mem (by simp) hsafe)

theorem execCornerRecovered_safe (mv : Nat) (tC : List Nat) : AnsSafe (execCornerRecovered mv tC s) :=
  AnsSafe.whenLive hsafe (State.safe_of_mem (by simp) hsafe)

theorem execStandbyEntry_safe (mv : Nat) : AnsSafe (execStandbyEntry mv s) := AnsSafe.whenLive hsafe (State.safe_of_mem (by simp) hsafe)

theorem execStandbyExit_safe (mv : Nat) : AnsSafe (execStandbyExit mv s) := AnsSafe.whenLive hsafe (State.safe_of_mem (by simp) hsafe)

theorem execPaceSample_safe (n value : Nat) : AnsSafe (execPaceSample n value s) :=
  AnsSafe.whenLive hsafe (State.safe_of_mem (by simp) hsafe)

theorem execPsuPoll_safe (ans : Option PsuAnswer) : AnsSafe (execPsuPoll ans s) := by
  unfold execPsuPoll
  refine AnsSafe.whenLive hsafe ?_
  grind [State.enterHold_mem, State.onPwr_mem, State.rackClear_mem, State.raise_mem, State.send_mem, State.wr_mem]

theorem execBudgetRecompute_safe (vbankCv : Nat) : AnsSafe (execBudgetRecompute vbankCv s) :=
  AnsSafe.whenLive hsafe (State.safe_of_mem (by simp) hsafe)

theorem execBankMeasure_safe (currentCa tempC : Nat) : AnsSafe (execBankMeasure currentCa tempC s) :=
  AnsSafe.whenLive hsafe (State.safe_of_mem (by simp) hsafe)

theorem execBankTestWrite_safe (rq : Requester) (v : Word) : AnsSafe (execBankTestWrite rq v s) :=
  AnsSafe.next (State.woWrite_safe s _ _ _ _ _ _ hsafe (State.safe_of_mem (by simp) hsafe))

theorem execBankMeasureRetry_safe (currentCa _tempC : Nat) : AnsSafe (execBankMeasureRetry currentCa _tempC s) :=
  AnsSafe.whenLive hsafe (State.safe_of_mem (by simp) hsafe)

theorem execBankMeasurementEnd_safe (cMf esr tempC : Nat) : AnsSafe (execBankMeasurementEnd cMf esr tempC s) := by
  unfold execBankMeasurementEnd
  refine AnsSafe.whenLive hsafe ?_
  grind [State.bankAt_mem, State.huEn_mem, State.onPwr_mem, State.raise_mem, State.refreshBudget_mem, State.wr_mem]

/-! #### Commands: the timebase (R370 to R374) -/

theorem execReferenceChange_safe (lockA lockB : Bool) : AnsSafe (execReferenceChange lockA lockB s) :=
  AnsSafe.next (State.safe_of_mem (by simp) hsafe)

theorem execOffsetDiscipline_safe (off : Int) : AnsSafe (execOffsetDiscipline off s) :=
  AnsSafe.whenLive hsafe (State.safe_of_mem (by simp) hsafe)

theorem execPpsSecond_safe : AnsSafe (execPpsSecond s) := AnsSafe.whenLive hsafe (State.safe_of_mem (by simp) hsafe)

theorem execNodeTimeFrame_safe (p : Nat) : AnsSafe (execNodeTimeFrame p s) := AnsSafe.whenLive hsafe (State.safe_of_mem (by simp) hsafe)

theorem execPtmRequest_safe : AnsSafe (execPtmRequest s) := AnsSafe.whenLive hsafe (State.safe_of_mem (by simp) hsafe)

theorem execTimeErrorLimit_safe (errNs : Nat) : AnsSafe (execTimeErrorLimit errNs s) :=
  AnsSafe.whenLive hsafe (State.safe_of_mem (by simp) hsafe)

theorem execDomainTimeExchange_safe (offset : Int) : AnsSafe (execDomainTimeExchange offset s) :=
  AnsSafe.whenLive hsafe (State.safe_of_mem (by simp) hsafe)

theorem execPtpMessage_safe (port : Nat) (m : PtpMsg) : AnsSafe (execPtpMessage port m s) := by
  unfold execPtpMessage
  apply AnsSafe.next
  grind [State.discipline_mem, State.onTim_mem, State.ptpRoles_mem, State.send_mem, State.setFld_mem]

theorem execAnnounceInterval_safe (port : Nat) : AnsSafe (execAnnounceInterval port s) :=
  AnsSafe.whenLive hsafe (State.safe_of_mem (by simp) hsafe)

/-! #### Commands: failed links, hubs and stacks (R7 to R12, R23) -/

theorem execStackTakenOffline_safe (m : Nat) : AnsSafe (execStackTakenOffline m s) := by
  unfold execStackTakenOffline
  refine AnsSafe.whenLive hsafe ?_
  grind [State.setRepair_mem, State.takeOffline_safe]

theorem execPatrolScrub_safe (key : Nat) : AnsSafe (execPatrolScrub key s) :=
  AnsSafe.whenLive hsafe (State.ite_safe (State.safe_of_mem (State.mendCw_mem s _) hsafe) (State.readCw_safe s _ hsafe))

theorem execRowSpareCopy_safe (m layer bank : Nat) (frames : List Nat) : AnsSafe (execRowSpareCopy m layer bank frames s) :=
  AnsSafe.whenLive hsafe (State.safe_of_mem (by simp) hsafe)

theorem execTsvLaneRemap_safe (m : Nat) : AnsSafe (execTsvLaneRemap m s) := by
  unfold execTsvLaneRemap
  refine AnsSafe.whenLive hsafe ?_
  grind [State.setRepair_mem, State.takeOffline_safe]

theorem execLayerRetire_safe (m layer : Nat) (frames : List Nat) : AnsSafe (execLayerRetire m layer frames s) := by
  unfold execLayerRetire
  refine AnsSafe.whenLive hsafe ?_
  grind [State.framesLose_safe, State.retireFrame_mem, State.setRepair_mem, State.takeOffline_safe, State.foldl_safe, State.foldl_mem]

theorem execLinkHandshakeTimeout_safe (l : LinkId) : AnsSafe (execLinkHandshakeTimeout l s) := by
  unfold execLinkHandshakeTimeout
  refine AnsSafe.whenLive hsafe ?_
  grind [State.declareHub_mem, State.onArch_mem, State.send_mem, State.foldl_safe, State.foldl_mem]

theorem execHubHeartbeatMiss_safe (h : Nat) : AnsSafe (execHubHeartbeatMiss h s) :=
  AnsSafe.whenLive hsafe (State.safe_of_mem (by simp) hsafe)

theorem execHubDeclaredFailed_safe (h : Nat) : AnsSafe (execHubDeclaredFailed h s) :=
  AnsSafe.whenLive hsafe (State.ite_safe (State.failHub_safe s _ hsafe) hsafe)

/-! #### Commands: bring-up and replay (R383 to R394) -/

theorem execPowerOnBringup_safe (romPass pufOk : List Nat) : AnsSafe (execPowerOnBringup romPass pufOk s) := by
  unfold execPowerOnBringup
  apply AnsSafe.next
  grind [State.coreMv_mem, State.mramWrite_mem, State.onArch_mem, State.onBoot_mem, State.onPwr_mem, State.onSch_mem, State.onSec_mem,
    State.publishHubs_mem, State.refreshId_mem, State.setFld_mem, State.settleRef_mem, State.trySource_mem, State.wr_mem]

theorem execFirmwareFetch_safe (img : Option FwImage) : AnsSafe (execFirmwareFetch img s) := by
  unfold execFirmwareFetch
  refine AnsSafe.whenLive hsafe ?_
  grind [State.fwRuns_mem, State.onBoot_mem, State.portOff_safe, State.raise_mem, State.sourceFailed_safe, State.startStacks_mem]

theorem execBootSourceSilence_safe : AnsSafe (execBootSourceSilence s) := by
  unfold execBootSourceSilence
  refine AnsSafe.whenLive hsafe ?_
  grind [State.sourceFailed_safe]

theorem execSinilBootRetry_safe : AnsSafe (execSinilBootRetry s) := AnsSafe.whenLive hsafe (State.safe_of_mem (by simp) hsafe)

theorem execMapReplay_safe (lost : Bool) : AnsSafe (execMapReplay lost s) := by
  unfold execMapReplay
  refine AnsSafe.whenLive hsafe ?_
  grind [State.bringFlash_safe, State.divideDram_mem, State.onBoot_mem, State.refreshBudget_mem]

theorem execSelfTest_safe (failed : List FailedUnit) : AnsSafe (execSelfTest failed s) := by
  unfold execSelfTest
  refine AnsSafe.whenLive hsafe ?_
  grind [State.askDomain_mem, State.onBoot_mem, State.raise_mem, State.refreshBudget_mem, State.unitOut_safe, State.foldl_safe,
    State.foldl_mem]

theorem execServiceOpen_safe : AnsSafe (execServiceOpen s) := by
  unfold execServiceOpen
  refine AnsSafe.whenLive hsafe ?_
  grind [State.bootStatus_mem, State.restoreCtx_mem, State.setFld_mem, State.foldl_safe, State.foldl_mem]

theorem execGlbResetHub_safe (rq : Requester) (v : Word) : AnsSafe (execGlbResetHub rq v s) := by
  unfold execGlbResetHub
  apply AnsSafe.next
  grind [State.discardAccess_mem, State.onPwr_mem, State.resetHub_safe]

theorem execFlushDone_safe (tier1Us tier2Ms : Nat) : AnsSafe (execFlushDone tier1Us tier2Ms s) := by
  unfold execFlushDone
  apply AnsSafe.next
  grind [State.doReset_safe, State.enterResuming_mem, State.flushTier1_safe, State.flushTier2_safe, State.onPwr_mem, State.pwrTo_mem,
    State.raise_mem, State.resetHub_safe, State.wr_mem]

theorem execGlbResetClearRepair_safe (rq : Requester) (v : Word) : AnsSafe (execGlbResetClearRepair rq v s) := by
  unfold execGlbResetClearRepair
  apply AnsSafe.next
  grind [State.discardAccess_mem, State.mramWrite_mem, State.onArch_mem, State.woWrite_safe]

theorem execHubReturn_safe (h : Nat) (romOk seedOk : Bool) (failed : List FailedUnit) :
    AnsSafe (execHubReturn h romOk seedOk failed s) := by
  unfold execHubReturn
  refine AnsSafe.whenLive hsafe ?_
  grind [State.mramWrite_mem, State.onArch_mem, State.onBoot_mem, State.onTlr_mem, State.publishHubs_mem, State.raise_mem,
    State.refreshBudget_mem, State.refreshId_mem, State.returnStacks_safe, State.setFld_mem, State.settleGroups_safe, State.settleRef_mem,
    State.sweepTables_mem, State.unitOut_safe, State.foldl_safe, State.foldl_mem]

theorem execFwActivate_safe (rq : Requester) (v : Word) (img : FwImage) : AnsSafe (execFwActivate rq v img s) :=
  AnsSafe.next (State.woWrite_safe s _ _ _ _ _ _ hsafe (State.safe_of_mem (by simp) hsafe))

theorem execLiveRestartPause_safe : AnsSafe (execLiveRestartPause s) := by
  unfold execLiveRestartPause
  refine AnsSafe.whenLive hsafe ?_
  grind [State.fwRuns_mem, State.mramWrite_mem, State.onBoot_mem, State.raise_mem, State.setFld_mem]

/-! #### Commands: the register window (R395 to R402) -/

theorem execTimNowRead_safe (rq : Requester) (frac : Nat) : AnsSafe (execTimNowRead rq frac s) :=
  AnsSafe.next (State.safe_of_mem (by simp) hsafe)

theorem execKvaEngErrRead_safe (rq : Requester) (m : Nat) : AnsSafe (execKvaEngErrRead rq m s) :=
  AnsSafe.next (State.safe_of_mem (by simp) hsafe)

theorem execFlsChErrRead_safe (rq : Requester) (ch : Nat) : AnsSafe (execFlsChErrRead rq ch s) :=
  AnsSafe.next (State.safe_of_mem (by simp) hsafe)

theorem execStmStallMaxRead_safe (rq : Requester) : AnsSafe (execStmStallMaxRead rq s) := AnsSafe.next (State.safe_of_mem (by simp) hsafe)

theorem execNmcRecallMaxRead_safe (rq : Requester) : AnsSafe (execNmcRecallMaxRead rq s) :=
  AnsSafe.next (State.safe_of_mem (by simp) hsafe)

theorem execLnkPortErrRead_safe (rq : Requester) (p : Nat) : AnsSafe (execLnkPortErrRead rq p s) :=
  AnsSafe.next (State.safe_of_mem (by simp) hsafe)

theorem execPwrDirtyMaxRead_safe (rq : Requester) : AnsSafe (execPwrDirtyMaxRead rq s) := AnsSafe.next (State.safe_of_mem (by simp) hsafe)

theorem execGlbAccessErrRead_safe (rq : Requester) : AnsSafe (execGlbAccessErrRead rq s) :=
  AnsSafe.next (State.safe_of_mem (by simp) hsafe)

theorem execDbgTraceDroppedRead_safe (rq : Requester) : AnsSafe (execDbgTraceDroppedRead rq s) :=
  AnsSafe.next (State.safe_of_mem (by simp) hsafe)

theorem execTlrEvtWrite_safe (rq : Requester) (v : Word) : AnsSafe (execTlrEvtWrite rq v s) :=
  AnsSafe.next (State.evtWrite_safe s _ _ _ hsafe)

theorem execSsnEvtWrite_safe (rq : Requester) (v : Word) : AnsSafe (execSsnEvtWrite rq v s) :=
  AnsSafe.next (State.evtWrite_safe s _ _ _ hsafe)

theorem execKvaEvtWrite_safe (rq : Requester) (v : Word) : AnsSafe (execKvaEvtWrite rq v s) :=
  AnsSafe.next (State.evtWrite_safe s _ _ _ hsafe)

theorem execSchEvtWrite_safe (rq : Requester) (v : Word) : AnsSafe (execSchEvtWrite rq v s) :=
  AnsSafe.next (State.evtWrite_safe s _ _ _ hsafe)

theorem execTxtEvtWrite_safe (rq : Requester) (v : Word) : AnsSafe (execTxtEvtWrite rq v s) :=
  AnsSafe.next (State.evtWrite_safe s _ _ _ hsafe)

theorem execVsrEvtWrite_safe (rq : Requester) (v : Word) : AnsSafe (execVsrEvtWrite rq v s) :=
  AnsSafe.next (State.evtWrite_safe s _ _ _ hsafe)

theorem execFlsEvtWrite_safe (rq : Requester) (v : Word) : AnsSafe (execFlsEvtWrite rq v s) :=
  AnsSafe.next (State.evtWrite_safe s _ _ _ hsafe)

theorem execStmEvtWrite_safe (rq : Requester) (v : Word) : AnsSafe (execStmEvtWrite rq v s) :=
  AnsSafe.next (State.evtWrite_safe s _ _ _ hsafe)

theorem execNmcEvtWrite_safe (rq : Requester) (v : Word) : AnsSafe (execNmcEvtWrite rq v s) :=
  AnsSafe.next (State.evtWrite_safe s _ _ _ hsafe)

theorem execDfbEvtWrite_safe (rq : Requester) (v : Word) : AnsSafe (execDfbEvtWrite rq v s) :=
  AnsSafe.next (State.evtWrite_safe s _ _ _ hsafe)

theorem execLnkEvtWrite_safe (rq : Requester) (v : Word) : AnsSafe (execLnkEvtWrite rq v s) :=
  AnsSafe.next (State.evtWrite_safe s _ _ _ hsafe)

theorem execSecEvtWrite_safe (rq : Requester) (v : Word) : AnsSafe (execSecEvtWrite rq v s) :=
  AnsSafe.next (State.evtWrite_safe s _ _ _ hsafe)

theorem execPwrEvtWrite_safe (rq : Requester) (v : Word) : AnsSafe (execPwrEvtWrite rq v s) :=
  AnsSafe.next (State.evtWrite_safe s _ _ _ hsafe)

theorem execGlbEvtWrite_safe (rq : Requester) (v : Word) : AnsSafe (execGlbEvtWrite rq v s) :=
  AnsSafe.next (State.evtWrite_safe s _ _ _ hsafe)

theorem execTimEvtWrite_safe (rq : Requester) (v : Word) : AnsSafe (execTimEvtWrite rq v s) :=
  AnsSafe.next (State.evtWrite_safe s _ _ _ hsafe)

theorem execDbgEvtWrite_safe (rq : Requester) (v : Word) : AnsSafe (execDbgEvtWrite rq v s) :=
  AnsSafe.next (State.evtWrite_safe s _ _ _ hsafe)

theorem execRegisterWrite_safe (rq : Requester) (acc : RegAcc) : AnsSafe (execRegisterWrite rq acc s) := by
  unfold execRegisterWrite
  apply AnsSafe.next
  grind [State.discardAccess_mem, State.regRead_mem, State.regWrite_safe]

theorem execEventNotice_safe (b : Nat) : AnsSafe (execEventNotice b s) := AnsSafe.whenLive hsafe (State.safe_of_mem (by simp) hsafe)

/-! #### Commands: retirement and the context Sweep (R329, R336, R337) -/

theorem execCtxRetire_safe (rq : Requester) (v : Word) : AnsSafe (execCtxRetire rq v s) :=
  AnsSafe.next (State.ite_safe hsafe (State.retireCtx_safe s _ _ _ hsafe))

theorem execCtxRetireDiscard_safe (rq : Requester) (v : Word) : AnsSafe (execCtxRetireDiscard rq v s) :=
  AnsSafe.next (State.ite_safe (State.retireCtx_safe s _ _ _ hsafe) hsafe)

theorem execContextSweep_safe (n : Nat) : AnsSafe (execContextSweep n s) := by
  unfold execContextSweep
  refine AnsSafe.whenLive hsafe ?_
  grind [State.sweepFlash_mem, State.sweepObjects_safe, State.sweepRuns_safe, State.sweepSessions_safe, State.sweepStop_mem,
    State.sweepTo_mem, State.sweepUnits_safe]

end

/-! ### Every command, every step -/

theorem exec_safe (c : Instr) (s : State) (hsafe : s.safe) : AnsSafe (exec c s) := by
  cases c with
  | linkHandshakeTimeout l => exact execLinkHandshakeTimeout_safe hsafe l
  | hubHeartbeatMiss h => exact execHubHeartbeatMiss_safe hsafe h
  | hubDeclaredFailed h => exact execHubDeclaredFailed_safe hsafe h
  | stackTakenOffline m => exact execStackTakenOffline_safe hsafe m
  | patrolScrub key => exact execPatrolScrub_safe hsafe key
  | rowSpareCopy m layer bank frames => exact execRowSpareCopy_safe hsafe m layer bank frames
  | tsvLaneRemap m => exact execTsvLaneRemap_safe hsafe m
  | layerRetire m layer frames => exact execLayerRetire_safe hsafe m layer frames
  | paceSample n value => exact execPaceSample_safe hsafe n value
  | junctionAbove105 h tC => exact execJunctionAbove105_safe hsafe h tC
  | cornerRecovered mv tC => exact execCornerRecovered_safe hsafe mv tC
  | junction115 h tC => exact execJunction115_safe hsafe h tC
  | coreVoltageLow mv => exact execCoreVoltageLow_safe hsafe mv
  | coreSupervisorReset mv => exact execCoreSupervisorReset_safe hsafe mv
  | standbyEntry mv => exact execStandbyEntry_safe hsafe mv
  | standbyExit mv => exact execStandbyExit_safe hsafe mv
  | imgLoad rq v => exact execImgLoad_safe hsafe rq v
  | imgVerifyDone => exact execImgVerifyDone_safe hsafe
  | imgUnload rq v => exact execImgUnload_safe hsafe rq v
  | runStart rq v => exact execRunStart_safe hsafe rq v
  | runCancel rq tag => exact execRunCancel_safe hsafe rq tag
  | runDrainDone c => exact execRunDrainDone_safe hsafe c
  | operationComplete c slot src => exact execOperationComplete_safe hsafe c slot src
  | runTimeLimit c => exact execRunTimeLimit_safe hsafe c
  | handlerGraceExpiry c => exact execHandlerGraceExpiry_safe hsafe c
  | alu c => exact execAlu_safe hsafe c
  | alui c => exact execAlui_safe hsafe c
  | li c => exact execLi_safe hsafe c
  | lih c => exact execLih_safe hsafe c
  | cmp c => exact execCmp_safe hsafe c
  | cmpi c => exact execCmpi_safe hsafe c
  | plog c => exact execPlog_safe hsafe c
  | br c => exact execBr_safe hsafe c
  | jr c => exact execJr_safe hsafe c
  | dins c => exact execDins_safe hsafe c
  | dext c => exact execDext_safe hsafe c
  | openObj c => exact execOpenObj_safe hsafe c
  | bind c => exact execBind_safe hsafe c
  | drop c => exact execDrop_safe hsafe c
  | park c => exact execPark_safe hsafe c
  | revive c => exact execRevive_safe hsafe c
  | move c => exact execMove_safe hsafe c
  | pin c => exact execPin_safe hsafe c
  | unpin c => exact execUnpin_safe hsafe c
  | hint c => exact execHint_safe hsafe c
  | attn c => exact execAttn_safe hsafe c
  | attnMerge c => exact execAttnMerge_safe hsafe c
  | submit c stepUs pageRate finishUs => exact execSubmit_safe hsafe c stepUs pageRate finishUs
  | cancel c => exact execCancel_safe hsafe c
  | dispatchKernel c => exact execDispatchKernel_safe hsafe c
  | mint c => exact execMint_safe hsafe c
  | clearBind c => exact execClearBind_safe hsafe c
  | clearUnbind c => exact execClearUnbind_safe hsafe c
  | clearMask c => exact execClearMask_safe hsafe c
  | clearAdvance c => exact execClearAdvance_safe hsafe c
  | sampleConfig c => exact execSampleConfig_safe hsafe c
  | sampleProbe c => exact execSampleProbe_safe hsafe c
  | changeConfig c => exact execChangeConfig_safe hsafe c
  | changeText c => exact execChangeText_safe hsafe c
  | search c => exact execSearch_safe hsafe c
  | vinsert c => exact execVinsert_safe hsafe c
  | vdelete c => exact execVdelete_safe hsafe c
  | charge c => exact execCharge_safe hsafe c
  | credit c => exact execCredit_safe hsafe c
  | rent c => exact execRent_safe hsafe c
  | escAcq c => exact execEscAcq_safe hsafe c
  | escPub c => exact execEscPub_safe hsafe c
  | escRel c => exact execEscRel_safe hsafe c
  | stmtBegin c coordSame => exact execStmtBegin_safe hsafe c coordSame
  | stmtAdd c => exact execStmtAdd_safe hsafe c
  | stmtCommit c => exact execStmtCommit_safe hsafe c
  | ld c => exact execLd_safe hsafe c
  | st c => exact execSt_safe hsafe c
  | amo c => exact execAmo_safe hsafe c
  | fenceM c => exact execFenceM_safe hsafe c
  | fenceN c => exact execFenceN_safe hsafe c
  | fenceD c => exact execFenceD_safe hsafe c
  | wait c => exact execWait_safe hsafe c
  | waitTimeout c => exact execWaitTimeout_safe hsafe c
  | signal c => exact execSignal_safe hsafe c
  | yield c => exact execYield_safe hsafe c
  | yieldTimeout c => exact execYieldTimeout_safe hsafe c
  | trapExit c => exact execTrapExit_safe hsafe c
  | brk c => exact execBrk_safe hsafe c
  | freeze c => exact execFreeze_safe hsafe c
  | indexReuseHoldEnd idx => exact execIndexReuseHoldEnd_safe hsafe idx
  | dirRebuild m => exact execDirRebuild_safe hsafe m
  | passbookFlashWrite idx => exact execPassbookFlashWrite_safe hsafe idx
  | passbookCopyRebuild idx => exact execPassbookCopyRebuild_safe hsafe idx
  | parkCommit idx => exact execParkCommit_safe hsafe idx
  | reviveLayerResident idx layer remote => exact execReviveLayerResident_safe hsafe idx layer remote
  | moveDestinationAnswer idx status aux w1 => exact execMoveDestinationAnswer_safe hsafe idx status aux w1
  | t1Reclaim => exact execT1Reclaim_safe hsafe
  | reviveHoldExpiry idx => exact execReviveHoldExpiry_safe hsafe idx
  | phaseSwitch rq v => exact execPhaseSwitch_safe hsafe rq v
  | phaseTimeLimit => exact execPhaseTimeLimit_safe hsafe
  | phaseDone => exact execPhaseDone_safe hsafe
  | sessionRebuildDone idx pages => exact execSessionRebuildDone_safe hsafe idx pages
  | atq p ctx addr msg => exact execAtq_safe hsafe p ctx addr msg
  | kvu p ctx addr msg => exact execKvu_safe hsafe p ctx addr msg
  | ldn p msg => exact execLdn_safe hsafe p msg
  | lgt p msg => exact execLgt_safe hsafe p msg
  | hsv p msg => exact execHsv_safe hsafe p msg
  | engineDescriptorExec m meets => exact execEngineDescriptorExec_safe hsafe m meets
  | partialMerge pslot stack => exact execPartialMerge_safe hsafe pslot stack
  | atrSupplement op => exact execAtrSupplement_safe hsafe op
  | modelReg rq v => exact execModelReg_safe hsafe rq v
  | modelUnreg rq v => exact execModelUnreg_safe hsafe rq v
  | groupCfgWrite rq g v => exact execGroupCfgWrite_safe hsafe rq g v
  | stepForm g half baseNs watts cands => exact execStepForm_safe hsafe g half baseNs watts cands
  | groupTimeout g half => exact execGroupTimeout_safe hsafe g half
  | stepCommit g half => exact execStepCommit_safe hsafe g half
  | stepReportSend n => exact execStepReportSend_safe hsafe n
  | roleEval model dp dd backlog => exact execRoleEval_safe hsafe model dp dd backlog
  | ledgerTick => exact execLedgerTick_safe hsafe
  | ctxReportWrite rq n v => exact execCtxReportWrite_safe hsafe rq n v
  | tblLoad rq v => exact execTblLoad_safe hsafe rq v
  | tblUnload rq v => exact execTblUnload_safe hsafe rq v
  | collCreate rq v => exact execCollCreate_safe hsafe rq v
  | collDrop rq v => exact execCollDrop_safe hsafe rq v
  | collIndexFree coll => exact execCollIndexFree_safe hsafe coll
  | vsrCfgWrite rq v => exact execVsrCfgWrite_safe hsafe rq v
  | vectorFold coll endUs => exact execVectorFold_safe hsafe coll endUs
  | weighPass ch => exact execWeighPass_safe hsafe ch
  | assay op => exact execAssay_safe hsafe op
  | sketchRebuild coll part page => exact execSketchRebuild_safe hsafe coll part page
  | channelNegotiate ch a => exact execChannelNegotiate_safe hsafe ch a
  | flashWrite own extent first data till => exact execFlashWrite_safe hsafe own extent first data till
  | flashProgramDone id => exact execFlashProgramDone_safe hsafe id
  | journalBufferWrite h => exact execJournalBufferWrite_safe hsafe h
  | mapCheckpoint => exact execMapCheckpoint_safe hsafe
  | flashRead unit d => exact execFlashRead_safe hsafe unit d
  | lunFailed ch lun => exact execLunFailed_safe hsafe ch lun
  | lunRebuild ch lun => exact execLunRebuild_safe hsafe ch lun
  | tillFold => exact execTillFold_safe hsafe
  | garbageCollection => exact execGarbageCollection_safe hsafe
  | wearLevel => exact execWearLevel_safe hsafe
  | readDisturbRefresh sb => exact execReadDisturbRefresh_safe hsafe sb
  | retentionScan weak => exact execRetentionScan_safe hsafe weak
  | blockReplace ch plane sb erase => exact execBlockReplace_safe hsafe ch plane sb erase
  | ordinaryDiscard first n => exact execOrdinaryDiscard_safe hsafe first n
  | secureDiscard rq v => exact execSecureDiscard_safe hsafe rq v
  | jobCreate rq v granted => exact execJobCreate_safe hsafe rq v granted
  | jobDelete rq v => exact execJobDelete_safe hsafe rq v
  | restore rq v others remote => exact execRestore_safe hsafe rq v others remote
  | jobPeerWrite rq job v granted => exact execJobPeerWrite_safe hsafe rq job v granted
  | backgroundCopy job => exact execBackgroundCopy_safe hsafe job
  | copyBeforeWrite page => exact execCopyBeforeWrite_safe hsafe page
  | cfPage peer tag rank slot seq data tagOk => exact execCfPage_safe hsafe peer tag rank slot seq data tagOk
  | cfPageRefusal job seq => exact execCfPageRefusal_safe hsafe job seq
  | cfAck job refs => exact execCfAck_safe hsafe job refs
  | commitNotice tag rank step part => exact execCommitNotice_safe hsafe tag rank step part
  | shapeDigest job step shape => exact execShapeDigest_safe hsafe job step shape
  | statementFlush job => exact execStatementFlush_safe hsafe job
  | flashCommitNotice tag rank step => exact execFlashCommitNotice_safe hsafe tag rank step
  | rollback job step remote => exact execRollback_safe hsafe job step remote
  | takeover desc peer step shape shards data => exact execTakeover_safe hsafe desc peer step shape shards data
  | regionCreate rq v => exact execRegionCreate_safe hsafe rq v
  | regionDelete rq v => exact execRegionDelete_safe hsafe rq v
  | regionTemp rq v => exact execRegionTemp_safe hsafe rq v
  | cxlMemRead head tag off m => exact execCxlMemRead_safe hsafe head tag off m
  | cxlMemWrite head tag off m mask data => exact execCxlMemWrite_safe hsafe head tag off m mask data
  | birsp head line shared wb => exact execBirsp_safe hsafe head line shared wb
  | mrd p w0 w1 => exact execMrd_safe hsafe p w0 w1
  | mwr p w0 w1 mask data => exact execMwr_safe hsafe p w0 w1 mask data
  | mat p w0 w1 operand cmp => exact execMat_safe hsafe p w0 w1 operand cmp
  | rca p w0 w1 data => exact execRca_safe hsafe p w0 w1 data
  | recallTimeout line a => exact execRecallTimeout_safe hsafe line a
  | agentFailed a => exact execAgentFailed_safe hsafe a
  | directorySweep h => exact execDirectorySweep_safe hsafe h
  | loadLevelUpdate samples => exact execLoadLevelUpdate_safe hsafe samples
  | coldGranulePark region g => exact execColdGranulePark_safe hsafe region g
  | granuleFaultIn region g => exact execGranuleFaultIn_safe hsafe region g
  | mapChangePropose c => exact execMapChangePropose_safe hsafe c
  | mapCommit epoch holders => exact execMapCommit_safe hsafe epoch holders
  | mapAdopt epoch c => exact execMapAdopt_safe hsafe epoch c
  | leaderHeartbeat => exact execLeaderHeartbeat_safe hsafe
  | heartbeatReceive leader epoch => exact execHeartbeatReceive_safe hsafe leader epoch
  | leaseExpiry => exact execLeaseExpiry_safe hsafe
  | suspectExpiry m assign => exact execSuspectExpiry_safe hsafe m assign
  | electionTimeout answers => exact execElectionTimeout_safe hsafe answers
  | isolateTimeout => exact execIsolateTimeout_safe hsafe
  | dfbRegionCreate rq v => exact execDfbRegionCreate_safe hsafe rq v
  | dfbRegionDelete rq v => exact execDfbRegionDelete_safe hsafe rq v
  | dfbJoin rq v refused => exact execDfbJoin_safe hsafe rq v refused
  | dfbLeave rq v => exact execDfbLeave_safe hsafe rq v
  | mapCfgWrite rq grant v => exact execMapCfgWrite_safe hsafe rq grant v
  | dld h => exact execDld_safe hsafe h
  | dst h mask data => exact execDst_safe hsafe h mask data
  | dat h operand cmp => exact execDat_safe hsafe h operand cmp
  | drs serial epoch status data => exact execDrs_safe hsafe serial epoch status data
  | dfw h body => exact execDfw_safe hsafe h body
  | dup h sender mask line old => exact execDup_safe hsafe h sender mask line old
  | dua holder requester serial => exact execDua_safe hsafe holder requester serial
  | domainReqTimeout serial => exact execDomainReqTimeout_safe hsafe serial
  | bucketCutover bucket => exact execBucketCutover_safe hsafe bucket
  | nonePoisonBacking bucket => exact execNonePoisonBacking_safe hsafe bucket
  | t4Revoke => exact execT4Revoke_safe hsafe
  | reclaimDeadline peer => exact execReclaimDeadline_safe hsafe peer
  | portSignalDetect p => exact execPortSignalDetect_safe hsafe p
  | laneLock p widths rates propNs => exact execLaneLock_safe hsafe p widths rates propNs
  | trainTimeout p => exact execTrainTimeout_safe hsafe p
  | trainRetry p => exact execTrainRetry_safe hsafe p
  | capabilityBlock p w0 w1 => exact execCapabilityBlock_safe hsafe p w0 w1
  | keysDone p ok => exact execKeysDone_safe hsafe p ok
  | creditAdvert p cells => exact execCreditAdvert_safe hsafe p cells
  | retrainTrigger p laneLost => exact execRetrainTrigger_safe hsafe p laneLost
  | retrainEnd p ok lanes => exact execRetrainEnd_safe hsafe p ok lanes
  | portFailed p => exact execPortFailed_safe hsafe p
  | portCfgWrite rq p v => exact execPortCfgWrite_safe hsafe rq p v
  | codewordUncorrectable p seq => exact execCodewordUncorrectable_safe hsafe p seq
  | retryRequest p seq => exact execRetryRequest_safe hsafe p seq
  | ackTimer p => exact execAckTimer_safe hsafe p
  | cellAck p seq => exact execCellAck_safe hsafe p seq
  | creditReturn p q => exact execCreditReturn_safe hsafe p q
  | frameReceive p h payload => exact execFrameReceive_safe hsafe p h payload
  | frameTagFail p h => exact execFrameTagFail_safe hsafe p h
  | rekeyStart p => exact execRekeyStart_safe hsafe p
  | rekeyFrame p epoch answer => exact execRekeyFrame_safe hsafe p epoch answer
  | histSelWrite rq v => exact execHistSelWrite_safe hsafe rq v
  | gateSwapRequest rq p v => exact execGateSwapRequest_safe hsafe rq p v
  | gateSwap p => exact execGateSwap_safe hsafe p
  | ctxInstall rq v => exact execCtxInstall_safe hsafe rq v
  | ctxRetire rq v => exact execCtxRetire_safe hsafe rq v
  | ctxRetireDiscard rq v => exact execCtxRetireDiscard_safe hsafe rq v
  | contextSweep n => exact execContextSweep_safe hsafe n
  | ownerKeyWrite rq v => exact execOwnerKeyWrite_safe hsafe rq v
  | jobkeyLoad rq v => exact execJobkeyLoad_safe hsafe rq v
  | fwFloorCommit rq v => exact execFwFloorCommit_safe hsafe rq v
  | keyFloorCommit rq v => exact execKeyFloorCommit_safe hsafe rq v
  | ctxFloorWrite rq n v => exact execCtxFloorWrite_safe hsafe rq n v
  | sinilBind port conn tgt sig => exact execSinilBind_safe hsafe port conn tgt sig
  | getVersion t => exact execGetVersion_safe hsafe t
  | getCapabilities t minor => exact execGetCapabilities_safe hsafe t minor
  | negotiateAlgorithms t extAsym hash dhe aead => exact execNegotiateAlgorithms_safe hsafe t extAsym hash dhe aead
  | getDigests t => exact execGetDigests_safe hsafe t
  | getCertificate t slot offset len => exact execGetCertificate_safe hsafe t slot offset len
  | challenge t slot nonce => exact execChallenge_safe hsafe t slot nonce
  | getMeasurements t index signed => exact execGetMeasurements_safe hsafe t index signed
  | keyExchange t reqId => exact execKeyExchange_safe hsafe t reqId
  | finish t sid ok => exact execFinish_safe hsafe t sid ok
  | keyUpdate t sid op => exact execKeyUpdate_safe hsafe t sid op
  | heartbeat t sid => exact execHeartbeat_safe hsafe t sid
  | endSession t sid => exact execEndSession_safe hsafe t sid
  | ideKm t sid head stream selective tdi => exact execIdeKm_safe hsafe t sid head stream selective tdi
  | ideIntegrityFail head stream => exact execIdeIntegrityFail_safe hsafe head stream
  | lockInterfaceRequest n => exact execLockInterfaceRequest_safe hsafe n
  | startInterfaceRequest n => exact execStartInterfaceRequest_safe hsafe n
  | stopInterfaceRequest n => exact execStopInterfaceRequest_safe hsafe n
  | vsupWarning rackFault => exact execVsupWarning_safe hsafe rackFault
  | vsupPowerFail => exact execVsupPowerFail_safe hsafe
  | vsupRecovery => exact execVsupRecovery_safe hsafe
  | vinReset => exact execVinReset_safe
  | overvoltage => exact execOvervoltage_safe hsafe
  | flushDone tier1Us tier2Ms => exact execFlushDone_safe hsafe tier1Us tier2Ms
  | tier2Cut written => exact execTier2Cut_safe hsafe written
  | resumingDone => exact execResumingDone_safe hsafe
  | psuPoll ans => exact execPsuPoll_safe hsafe ans
  | bankMeasure currentCa tempC => exact execBankMeasure_safe hsafe currentCa tempC
  | bankTestWrite rq v => exact execBankTestWrite_safe hsafe rq v
  | bankMeasureRetry currentCa tempC => exact execBankMeasureRetry_safe hsafe currentCa tempC
  | budgetRecompute vbankCv => exact execBudgetRecompute_safe hsafe vbankCv
  | freezePin low => exact execFreezePin_safe hsafe low
  | dbgFreeze rq v => exact execDbgFreeze_safe hsafe rq v
  | frzCtrlFreeze => exact execFrzCtrlFreeze_safe hsafe
  | frzCtrlRelease elapsedNs => exact execFrzCtrlRelease_safe hsafe elapsedNs
  | frzCtrlSelect v => exact execFrzCtrlSelect_safe hsafe v
  | frzCtrlReadout => exact execFrzCtrlReadout_safe hsafe
  | frzRead n => exact execFrzRead_safe hsafe n
  | extest tap => exact execExtest_safe hsafe tap
  | idcode tap => exact execIdcode_safe hsafe tap
  | samplePreload tap => exact execSamplePreload_safe hsafe tap
  | clamp tap => exact execClamp_safe hsafe tap
  | highz tap => exact execHighz_safe hsafe tap
  | bypass tap code => exact execBypass_safe hsafe tap code
  | referenceChange lockA lockB => exact execReferenceChange_safe hsafe lockA lockB
  | offsetDiscipline off => exact execOffsetDiscipline_safe hsafe off
  | ppsSecond => exact execPpsSecond_safe hsafe
  | nodeTimeFrame p => exact execNodeTimeFrame_safe hsafe p
  | ptmRequest => exact execPtmRequest_safe hsafe
  | domainTimeExchange offset => exact execDomainTimeExchange_safe hsafe offset
  | ptpMessage port m => exact execPtpMessage_safe hsafe port m
  | powerOnBringup romPass pufOk => exact execPowerOnBringup_safe hsafe romPass pufOk
  | firmwareFetch img => exact execFirmwareFetch_safe hsafe img
  | bootSourceSilence => exact execBootSourceSilence_safe hsafe
  | sinilBootRetry => exact execSinilBootRetry_safe hsafe
  | mapReplay lost => exact execMapReplay_safe hsafe lost
  | selfTest failed => exact execSelfTest_safe hsafe failed
  | serviceOpen => exact execServiceOpen_safe hsafe
  | resetPin => exact execResetPin_safe hsafe
  | glbResetModule rq v => exact execGlbResetModule_safe hsafe rq v
  | glbResetHub rq v => exact execGlbResetHub_safe hsafe rq v
  | glbResetClearRepair rq v => exact execGlbResetClearRepair_safe hsafe rq v
  | hubReturn h romOk seedOk failed => exact execHubReturn_safe hsafe h romOk seedOk failed
  | fwActivate rq v img => exact execFwActivate_safe hsafe rq v img
  | liveRestartPause => exact execLiveRestartPause_safe hsafe
  | eventNotice b => exact execEventNotice_safe hsafe b
  | timNowRead rq frac => exact execTimNowRead_safe hsafe rq frac
  | kvaEngErrRead rq m => exact execKvaEngErrRead_safe hsafe rq m
  | flsChErrRead rq ch => exact execFlsChErrRead_safe hsafe rq ch
  | stmStallMaxRead rq => exact execStmStallMaxRead_safe hsafe rq
  | nmcRecallMaxRead rq => exact execNmcRecallMaxRead_safe hsafe rq
  | lnkPortErrRead rq p => exact execLnkPortErrRead_safe hsafe rq p
  | pwrDirtyMaxRead rq => exact execPwrDirtyMaxRead_safe hsafe rq
  | glbAccessErrRead rq => exact execGlbAccessErrRead_safe hsafe rq
  | dbgTraceDroppedRead rq => exact execDbgTraceDroppedRead_safe hsafe rq
  | tlrEvtWrite rq v => exact execTlrEvtWrite_safe hsafe rq v
  | ssnEvtWrite rq v => exact execSsnEvtWrite_safe hsafe rq v
  | kvaEvtWrite rq v => exact execKvaEvtWrite_safe hsafe rq v
  | schEvtWrite rq v => exact execSchEvtWrite_safe hsafe rq v
  | txtEvtWrite rq v => exact execTxtEvtWrite_safe hsafe rq v
  | vsrEvtWrite rq v => exact execVsrEvtWrite_safe hsafe rq v
  | flsEvtWrite rq v => exact execFlsEvtWrite_safe hsafe rq v
  | stmEvtWrite rq v => exact execStmEvtWrite_safe hsafe rq v
  | nmcEvtWrite rq v => exact execNmcEvtWrite_safe hsafe rq v
  | dfbEvtWrite rq v => exact execDfbEvtWrite_safe hsafe rq v
  | lnkEvtWrite rq v => exact execLnkEvtWrite_safe hsafe rq v
  | secEvtWrite rq v => exact execSecEvtWrite_safe hsafe rq v
  | pwrEvtWrite rq v => exact execPwrEvtWrite_safe hsafe rq v
  | glbEvtWrite rq v => exact execGlbEvtWrite_safe hsafe rq v
  | timEvtWrite rq v => exact execTimEvtWrite_safe hsafe rq v
  | dbgEvtWrite rq v => exact execDbgEvtWrite_safe hsafe rq v
  | registerWrite rq acc => exact execRegisterWrite_safe hsafe rq acc
  | undefinedEncoding c => exact execUndefinedEncoding_safe hsafe c
  | thermalResetRelease tC => exact execThermalResetRelease_safe hsafe tC
  | cellReceive p ctl => exact execCellReceive_safe hsafe p ctl
  | creditReturnArrival p q n => exact execCreditReturnArrival_safe hsafe p q n
  | cellBoundaryService p => exact execCellBoundaryService_safe hsafe p
  | queueDepthSample => exact execQueueDepthSample_safe hsafe
  | timeErrorLimit errNs => exact execTimeErrorLimit_safe hsafe errNs
  | bankMeasurementEnd cMf esr tempC => exact execBankMeasurementEnd_safe hsafe cMf esr tempC
  | hostHeadRetrained head => exact execHostHeadRetrained_safe hsafe head
  | ingressHoldRelease a => exact execIngressHoldRelease_safe hsafe a
  | announceInterval port => exact execAnnounceInterval_safe hsafe port
  | moveCopyArrival src ident copy => exact execMoveCopyArrival_safe hsafe src ident copy
  | t4RoomRequest peer pages => exact execT4RoomRequest_safe hsafe peer pages
  | t4PieceStore peer ident pages => exact execT4PieceStore_safe hsafe peer ident pages
  | t4Fetch peer ident => exact execT4Fetch_safe hsafe peer ident
  | t4RevocationNotice peer order => exact execT4RevocationNotice_safe hsafe peer order
  | counterfoilSlotRequest peer tag rank slotBytes => exact execCounterfoilSlotRequest_safe hsafe peer tag rank slotBytes
  | sessionCounterfoilPage peer ident kv layer page data => exact execSessionCounterfoilPage_safe hsafe peer ident kv layer page data
  | counterfoilFetch peer tag rank slot => exact execCounterfoilFetch_safe hsafe peer tag rank slot
  | memberNoticeArrival tag rank step controller desc shards => exact execMemberNoticeArrival_safe hsafe tag rank step controller desc shards
  | voteRequest candidate logLen => exact execVoteRequest_safe hsafe candidate logLen
  | logEntryAppend leader epoch c => exact execLogEntryAppend_safe hsafe leader epoch c
  | heartbeatAnswer m => exact execHeartbeatAnswer_safe hsafe m

/-- Settles O7: an empty queue lets a nanosecond pass, which leaves memory as it is, and a command in front of the queue keeps its form. -/
theorem memoryStaysCanonical : Obligations.MemoryStaysCanonical := by
  unfold Obligations.MemoryStaysCanonical
  intro s t hsafe hstep
  rw [step] at hstep
  split at hstep
  · obtain rfl : s.tick = t := Host.Outcome.next.inj hstep
    exact State.safe_of_mem s.tick_mem hsafe
  · rename_i c rest _
    exact exec_safe c { s with pending := rest } hsafe t hstep

end Sys2Proof.Machine

namespace Sys2Proof.Machine

/-! ### Commands that arrive as a write of the register window, and event bits (R396, R400, R407) -/

/-- A write that the window lets through does its work. -/
theorem State.woWrite_of_writeOpen {s : State} {rq : Requester} {r : Reg} {i : Nat} (h : WriteOpen s rq r i) (k : State → State) :
    s.woWrite rq r i true 0 k = k s := by
  obtain ⟨⟨hlive, hup⟩, hreach, hflush⟩ := h
  simp [State.woWrite, hlive, hup, hreach, hflush]

/-- Where one register alone has been put, every other is kept. -/
theorem RegsKept.of_put {s t : State} {r : Reg} {i : Nat} {v : Word} (h : t.regs = s.regs.put (r, i) v) : RegsKept [(r, i)] s t := by
  intro q j hne
  simp [State.rd, h, Tbl.look_put_ne _ v (List.mem_singleton.not.mp hne)]

/-- Raising an event changes registers and latches, and nothing else. -/
theorem State.raise_eq (s : State) (e : Evt) : s.raise e = { s with regs := (s.raise e).regs, latches := (s.raise e).latches } := by
  unfold State.raise
  dsimp only
  split <;> rfl

@[simp] theorem State.rd_send (s : State) (o : Out) (r : Reg) (i : Nat) : (s.send o).rd r i = s.rd r i := rfl

/-! ### Images (R26, R29, Table 2-15) -/

@[simp] theorem State.imgStatus_tlr (s : State) (st slot reason : Nat) : (s.imgStatus st slot reason).tlr = s.tlr := rfl
@[simp] theorem State.imgStatus_out (s : State) (st slot reason : Nat) : (s.imgStatus st slot reason).out = s.out := rfl

@[simp] theorem State.rd_imgStatus (s : State) (st slot reason : Nat) :
    (s.imgStatus st slot reason).rd .tlrImgStatus 0 = BitVec.ofNat 64 (st + slot % 64 * 4 + reason * 256) :=
  State.rd_wr_same ..

theorem State.rd_imgStatus_ne (s : State) (st slot reason : Nat) {r : Reg} (i : Nat) (h : r ≠ .tlrImgStatus) :
    (s.imgStatus st slot reason).rd r i = s.rd r i :=
  State.rd_wr_ne _ _ (by simp [h])

theorem exec_imgLoad {rq : Requester} {s : State} (v : Word) (h : WriteOpen s rq .tlrImgLoad 0) :
    exec (.imgLoad rq v) s =
      .next ((s.onTlr fun t => { t with loads := t.loads ++ [⟨bits v.toNat 0 6, s.stagedImage (v.toNat - bits v.toNat 0 6), rq⟩] }).imgStatus
        1 (bits v.toNat 0 6) 0) := by
  change execImgLoad rq v s = _
  rw [execImgLoad, State.woWrite_of_writeOpen h]

/-- Where all the checks pass, the image stands in its slot (R26). -/
theorem exec_imgVerifyDone_accepts {s : State} {l : ImgLoad} {rest : List ImgLoad} (hlive : s.Live) (hl : s.tlr.loads = l :: rest)
    (hc : s.imageCheck l = 0) :
    exec .imgVerifyDone s =
      .next ((((((s.onTlr fun t => { t with loads := rest }).onTlr fun t => { t with images := t.images.put l.slot (s.imageOf l) }).wr
        .tlrImgSlot l.slot (s.imageOf l).ident).imgStatus 2 l.slot 0).raise Evt.tlr_loadDone).send
          (.loadAnswer l.requester l.slot Status.ok.code)) := by
  change execImgVerifyDone s = _
  simp [execImgVerifyDone, hlive, hl, hc]

/-- Where a check fails, its number is recorded (R26). -/
theorem exec_imgVerifyDone_refuses {s : State} {l : ImgLoad} {rest : List ImgLoad} (hlive : s.Live) (hl : s.tlr.loads = l :: rest)
    (hc : s.imageCheck l ≠ 0) :
    exec .imgVerifyDone s =
      .next ((((s.onTlr fun t => { t with loads := rest }).imgStatus 3 l.slot (s.imageCheck l)).raise Evt.tlr_loadRefused).send
        (.loadAnswer l.requester l.slot (if s.imageCheck l = 9 then Status.noSpace.code else Status.denied.code))) := by
  change execImgVerifyDone s = _
  simp [execImgVerifyDone, hlive, hl, hc]

theorem exec_imgUnload {rq : Requester} {v : Word} {s : State} {img : Image} (h : WriteOpen s rq .tlrImgUnload 0)
    (hi : s.tlr.images.look (bits v.toNat 0 6) = some img) (ha : s.actsFor rq img.ctx = true) :
    exec (.imgUnload rq v) s = .next (s.drainImage (bits v.toNat 0 6)) := by
  change execImgUnload rq v s = _
  simp only [execImgUnload, hi, ha, State.woWrite_of_writeOpen h]

/-- A sweep of an image slot leaves everything as it is, or frees the slot and clears its register (R29). -/
theorem State.sweepImage_cases (s : State) (k : Nat) :
    s.sweepImage k = s ∨ s.sweepImage k = (s.onTlr fun t => { t with images := t.images.del k }).wr .tlrImgSlot k 0 := by
  unfold State.sweepImage
  split
  · exact .inl rfl
  · dsimp only
    split
    · exact .inr rfl
    · exact .inl rfl

/-- Settles O12: a load changes the list of loads and TLR_IMG_STATUS; the end of a verification puts the image or records the failed check;
an unload marks the slot and sweeps it, which leaves it draining or free. -/
theorem imagesLoadAndUnload : Obligations.ImagesLoadAndUnload := by
  unfold Obligations.ImagesLoadAndUnload
  refine ⟨?load, ?accept, ?refuse, ?unload⟩
  case load =>
    intro rq v s hopen
    have hslot : bits v.toNat 0 6 % 64 = bits v.toNat 0 6 := Nat.mod_mod _ _
    refine ⟨_, exec_imgLoad v hopen, rfl, ?_, RegsKept.of_put rfl, rfl⟩
    rw [State.rd_imgStatus, hslot]
    rfl
  case accept =>
    intro s l rest hlive hl hc
    refine ⟨_, exec_imgVerifyDone_accepts hlive hl hc, ?_, ?_, fun k hk => ?_, ?_, ?_, ?_, ?_⟩
    · simp
    · simp
    · simp [Tbl.look_put_ne _ _ hk]
    · rw [State.rd_send, State.rd_raise_ne _ _ (by simp [Evt.tlr_loadDone]), State.rd_imgStatus_ne _ _ _ _ _ (by simp), State.rd_wr_same]
    · rw [State.rd_send, State.rd_raise_ne _ _ (by simp [Evt.tlr_loadDone]), State.rd_imgStatus]
      rfl
    · simp [Status.code]
    · simp
  case refuse =>
    intro s l rest hlive hl hc
    refine ⟨_, exec_imgVerifyDone_refuses hlive hl hc, ?_, ?_, ?_, ?_, ?_⟩
    · simp
    · simp
    · rw [State.rd_send, State.rd_raise_ne _ _ (by simp [Evt.tlr_loadRefused]), State.rd_imgStatus]
    · simp [Status.code]
    · simp
  case unload =>
    intro rq v s img hopen hi ha
    have hdrain : (s.tlr.images.upd (bits v.toNat 0 6) fun i => { i with draining := true }).look (bits v.toNat 0 6) =
        some { img with draining := true } := by rw [Tbl.look_upd_same, hi]; rfl
    refine ⟨_, exec_imgUnload hopen hi ha, ?_⟩
    rw [State.drainImage]
    rcases State.sweepImage_cases (s.onTlr fun t => { t with images := t.images.upd (bits v.toNat 0 6) fun i => { i with draining := true } })
      (bits v.toNat 0 6) with hkept | hfreed
    · rw [hkept]
      refine ⟨fun i h => ?_, fun k hk => Tbl.look_upd_ne _ _ hk, fun _ _ _ => rfl, rfl⟩
      exact (Option.some.inj (hdrain.symm.trans h)).symm
    · rw [hfreed]
      refine ⟨fun i h => ?_, fun k hk => ?_, RegsKept.of_put rfl, rfl⟩
      · simp at h
      · exact (Tbl.look_del_ne _ hk).trans (Tbl.look_upd_ne _ _ hk)

end Sys2Proof.Machine

namespace Sys2Proof.Machine

/-! ### Completions of Receipt slots (R35, R46 to R49) -/

@[simp] theorem Clerk.slot_setSlot_same (cl : Clerk) (k : Nat) (sl : Slot) : (cl.setSlot k sl).slot k = sl := Tbl.lookD_put_same ..

theorem Clerk.slot_setSlot_ne (cl : Clerk) {j k : Nat} (sl : Slot) (h : j ≠ k) : (cl.setSlot k sl).slot j = cl.slot j :=
  Tbl.lookD_put_ne _ _ _ h

/-- The clerk whose slot `k` is complete with these words. -/
def Clerk.completed (cl : Clerk) (k : Nat) (w0 w1 : Word) : Clerk :=
  cl.setSlot k { cl.slot k with complete := true, word0 := w0, word1 := w1, result := none, cancel := none }

/-- The clerk whose slot `k` has been consumed. -/
def Clerk.consumed (cl : Clerk) (k : Nat) : Clerk :=
  cl.setSlot k { cl.slot k with occupied := false, complete := false, openH := none, via := [], result := none, cancel := none }

theorem State.receiptHolds_completed {t : State} {c k : Nat} {w0 w1 : Word} {cl : Clerk} (h : (t.clerk c).slots = (cl.completed k w0 w1).slots) :
    t.receiptHolds c k w0 w1 := by
  have hslot : (t.clerk c).slot k = { cl.slot k with complete := true, word0 := w0, word1 := w1, result := none, cancel := none } := by
    rw [Clerk.slot, h]
    exact Clerk.slot_setSlot_same cl k _
  exact ⟨congrArg Slot.complete hslot, congrArg Slot.word0 hslot, congrArg Slot.word1 hslot⟩

/-- On a READY clerk a completion changes the slot alone. -/
theorem State.completeSlot_ready {s : State} {c : Nat} (k : Nat) (w0 w1 : Word) (h : (s.clerk c).st = .ready) :
    s.completeSlot c k w0 w1 = s.setClerk c ((s.clerk c).completed k w0 w1) := by
  simp [State.completeSlot, h, Clerk.completed]

/-- A clerk that waits for the slot is woken (R35, R46). -/
theorem State.completeSlot_wakes {s : State} {c k : Nat} (w0 w1 : Word) (h : (s.clerk c).st = .waiting)
    (hw : (s.clerk c).waitFor = some (.receipt k)) :
    s.completeSlot c k w0 w1 =
      s.setClerk c { (s.clerk c).completed k w0 w1 with st := .ready, waitFor := none, waitUntil := none } := by
  simp [State.completeSlot, h, hw, Clerk.completed]

/-- A DRAINING clerk's Receipt is consumed for it (R49). -/
theorem State.completeSlot_draining {s : State} {c : Nat} (k : Nat) (w0 w1 : Word) (h : (s.clerk c).st = .draining) :
    s.completeSlot c k w0 w1 = (s.setClerk c ((s.clerk c).completed k w0 w1)).orphanSlot c k := by
  simp [State.completeSlot, h, Clerk.completed]

@[simp] theorem State.rd_freeUnheldSignal (s : State) (h : Handle) (r : Reg) (i : Nat) : (s.freeUnheldSignal h).rd r i = s.rd r i := by
  unfold State.freeUnheldSignal
  split
  · rfl
  · split <;> rfl

/-- A Receipt consumed for a draining clerk frees its slot and counts in ORPHANS (R49). -/
theorem State.orphanSlot_clerk (s : State) (c k : Nat) :
    (s.orphanSlot c k).clerk c =
      { (s.clerk c).consumed k with run := (s.clerk c).run.map (fun r => { r with orphans := r.orphans + 1 }) } := by
  have hconsumed : ((s.consumeSlot c k).count .tlrClkOrphan c 1).clerk c = (s.clerk c).consumed k :=
    State.clerk_setClerk_same s c _
  unfold State.orphanSlot
  dsimp only
  split
  · rw [State.freeUnheldSignal_clerk, State.clerk_setClerk_same, hconsumed]
    rfl
  · rw [State.clerk_setClerk_same, hconsumed]
    rfl

/-- A Receipt consumed for a draining clerk is counted in the two counters of R49. -/
theorem State.rd_orphanSlot (s : State) (c k : Nat) (r : Reg) (i : Nat) :
    (s.orphanSlot c k).rd r i = ((s.count .tlrClkRcptCon c 1).count .tlrClkOrphan c 1).rd r i := by
  unfold State.orphanSlot
  dsimp only
  split
  · rw [State.rd_freeUnheldSignal]
    rfl
  · rfl

theorem exec_operationComplete_own {s : State} (c k : Nat) (hlive : s.Live) :
    exec (.operationComplete c k .own) s = .next (s.ownArrives c k) := by
  change execOperationComplete c k .own s = _
  simp [execOperationComplete, hlive]

theorem exec_operationComplete_cancel {s : State} (c k : Nat) (hlive : s.Live) :
    exec (.operationComplete c k .cancel) s = .next (s.cancelArrives c k) := by
  change execOperationComplete c k .cancel s = _
  simp [execOperationComplete, hlive]

/-- The operation's own result is the first completion of an occupied, incomplete slot without a cancellation (R48). -/
theorem State.ownArrives_completes {s : State} {c k : Nat} {w0 w1 : Word} (hres : ((s.clerk c).slot k).result = some (w0, w1))
    (hocc : ((s.clerk c).slot k).occupied = true) (hinc : ((s.clerk c).slot k).complete = false)
    (hcan : ((s.clerk c).slot k).cancel = none) : s.ownArrives c k = s.completeSlot c k w0 w1 := by
  simp [State.ownArrives, hres, hocc, hinc, hcan]

/-- An own result that reaches a complete slot is discarded (R48). -/
theorem State.ownArrives_of_complete {s : State} {c k : Nat} (h : ((s.clerk c).slot k).complete = true) :
    s.ownArrives c k = s ∨ s.ownArrives c k = s.setClerk c ((s.clerk c).setSlot k { (s.clerk c).slot k with result := none }) := by
  unfold State.ownArrives
  dsimp only
  split
  · exact .inl rfl
  · split
    · exact .inl rfl
    · exact .inr rfl

/-- A cancellation that reaches a complete slot is discarded (R48). -/
theorem State.cancelArrives_of_complete {s : State} {c k : Nat} (h : ((s.clerk c).slot k).complete = true) : s.cancelArrives c k = s := by
  unfold State.cancelArrives
  dsimp only
  split
  · rfl
  · simp [h]

/-- A cancellation ends a partial merge of ATTN_MERGE, which has no state of its own to undo, with ABORTED and its cause (R49). -/
theorem State.cancelArrives_attnMerge {s : State} {c k cause : Nat} (hcan : ((s.clerk c).slot k).cancel = some cause)
    (hocc : ((s.clerk c).slot k).occupied = true) (hinc : ((s.clerk c).slot k).complete = false)
    (hres : ((s.clerk c).slot k).result = none) (hop : ((s.clerk c).slot k).op = .attnMerge) :
    s.cancelArrives c k = s.completeSlot c k (word0 .aborted cause) 0 := by
  simp [State.cancelArrives, hcan, hocc, hinc, hres, hop, State.cancelOp]

/-- Settles O14: each arrival is the completion of its slot, which on a clerk that is not draining changes that slot and wakes the clerk,
and on a draining one consumes the Receipt; a complete slot discards what arrives. -/
theorem completionsReachTheirSlot : Obligations.CompletionsReachTheirSlot := by
  unfold Obligations.CompletionsReachTheirSlot
  refine ⟨?own, ?draining, ?cancelled, ?complete⟩
  case own =>
    intro c k s w0 w1 hlive hres hocc hinc hcan hst
    refine ⟨_, exec_operationComplete_own c k hlive, ?_⟩
    rw [State.ownArrives_completes hres hocc hinc hcan]
    have hother : ∀ j, j ≠ k → ((s.clerk c).completed k w0 w1).slot j = (s.clerk c).slot j :=
      fun j hj => Clerk.slot_setSlot_ne _ _ hj
    rcases hst with hready | ⟨hwaiting, hfor⟩
    · rw [State.completeSlot_ready k w0 w1 hready]
      refine ⟨State.receiptHolds_completed (by rw [State.clerk_setClerk_same]), ?_, fun j hj => ?_,
        fun d hd => State.clerk_setClerk_ne _ _ hd, rfl⟩
      · rw [State.clerk_setClerk_same]
        exact hready
      · rw [State.clerk_setClerk_same]
        exact hother j hj
    · rw [State.completeSlot_wakes w0 w1 hwaiting hfor]
      refine ⟨State.receiptHolds_completed (cl := s.clerk c) (by rw [State.clerk_setClerk_same]), ?_, fun j hj => ?_,
        fun d hd => State.clerk_setClerk_ne _ _ hd, rfl⟩
      · rw [State.clerk_setClerk_same]
      · rw [State.clerk_setClerk_same]
        exact hother j hj
  case draining =>
    intro c k s w0 w1 hlive hres hocc hinc hcan hst _
    refine ⟨_, exec_operationComplete_own c k hlive, ?_⟩
    rw [State.ownArrives_completes hres hocc hinc hcan, State.completeSlot_draining k w0 w1 hst]
    simp only [State.orphanSlot_clerk, State.clerk_setClerk_same, State.rd_orphanSlot]
    refine ⟨?_, ?_, ?_, ?_⟩
    · exact congrArg Slot.occupied (Clerk.slot_setSlot_same ..)
    · simp [Clerk.completed, Clerk.setSlot, Function.comp_def]
    · rw [State.rd_count, State.count, State.rd_wr_ne _ _ (by simp)]
      rfl
    · rw [State.count, State.rd_wr_ne _ _ (by simp), State.rd_count]
      rfl
  case cancelled =>
    intro c k cause s hlive hcan hocc hinc hres hop hready
    refine ⟨_, exec_operationComplete_cancel c k hlive, ?_⟩
    rw [State.cancelArrives_attnMerge hcan hocc hinc hres hop, State.completeSlot_ready k _ _ hready]
    exact ⟨State.receiptHolds_completed (by rw [State.clerk_setClerk_same]), rfl⟩
  case complete =>
    intro c k s src hlive hcomplete
    cases src with
    | own =>
      refine ⟨_, exec_operationComplete_own c k hlive, ?_⟩
      rcases State.ownArrives_of_complete hcomplete with hkept | hdiscarded
      · rw [hkept]
        exact ⟨rfl, rfl, hcomplete, rfl⟩
      · rw [hdiscarded, State.clerk_setClerk_same, Clerk.slot_setSlot_same]
        exact ⟨rfl, rfl, hcomplete, rfl⟩
    | cancel =>
      refine ⟨_, exec_operationComplete_cancel c k hlive, ?_⟩
      rw [State.cancelArrives_of_complete hcomplete]
      exact ⟨rfl, rfl, hcomplete, rfl⟩

end Sys2Proof.Machine

namespace Sys2Proof.Machine

/-! ### The queues of waiting runs, which the end of a run leaves alone -/

/-- A hub has nobody waiting where no queue has a row. -/
theorem State.runQueue_of_rows_nil {s : State} (h : s.tlr.queues.rows = []) (hub : Nat) : s.runQueue hub = [] := by
  simp [State.runQueue, Tbl.lookD, Tbl.look, h, rowsLook]

theorem State.foldl_queues {α : Type} {f : State → α → State} (hf : ∀ s x, (f s x).tlr.queues = s.tlr.queues) (l : List α) (s : State) :
    (l.foldl f s).tlr.queues = s.tlr.queues :=
  foldl_inv (P := fun t => t.tlr.queues = s.tlr.queues) (fun t x ht => (hf t x).trans ht) rfl l

theorem State.setClerk_queues (s : State) (c : Nat) (cl : Clerk) : (s.setClerk c cl).tlr.queues = s.tlr.queues := rfl

theorem State.holdHandle_queues (s : State) (h : Handle) : (s.holdHandle h).tlr.queues = s.tlr.queues := by
  unfold State.holdHandle
  split
  · rfl
  · split <;> rfl

theorem State.releaseHandle_queues (s : State) (h : Handle) : (s.releaseHandle h).tlr.queues = s.tlr.queues := by
  unfold State.releaseHandle
  split
  · rfl
  · split <;> rfl

theorem State.setHandle_queues (s : State) (c i : Nat) (h : Handle) : (s.setHandle c i h).tlr.queues = s.tlr.queues :=
  (State.releaseHandle_queues _ _).trans (s.holdHandle_queues h)

theorem serveSignal_queues (ix fuel : Nat) (s : State) : (serveSignal ix fuel s).tlr.queues = s.tlr.queues := by
  induction fuel generalizing s with
  | zero => rfl
  | succ fuel ih =>
    unfold serveSignal
    split
    · rfl
    · split
      · rfl
      · split
        · rfl
        · exact ih _

theorem State.leaveSignals_queues (s : State) (c : Nat) : (s.leaveSignals c).tlr.queues = s.tlr.queues := by
  unfold State.leaveSignals
  split
  · exact serveSignal_queues ..
  · rfl

theorem State.publishJob_tlr (s : State) (j : Nat) : (s.publishJob j).tlr = s.tlr := by
  unfold State.publishJob
  split <;> rfl

theorem State.dropStatement_tlr (s : State) (j : Nat) : (s.dropStatement j).tlr = s.tlr := by
  unfold State.dropStatement
  split
  · rfl
  · dsimp only
    split
    · split
      · rfl
      · exact State.publishJob_tlr ..
    · split
      · rfl
      · exact State.publishJob_tlr ..

theorem State.dropOpened_queues (s : State) (c startedAt : Nat) : (s.dropOpened c startedAt).tlr.queues = s.tlr.queues :=
  State.foldl_queues (fun s j => congrArg Tlr.queues (s.dropStatement_tlr j)) _ s

theorem State.freeUnheldSignal_queues (s : State) (h : Handle) : (s.freeUnheldSignal h).tlr.queues = s.tlr.queues := by
  unfold State.freeUnheldSignal
  split
  · rfl
  · split <;> rfl

theorem State.orphanSlot_queues (s : State) (c k : Nat) : (s.orphanSlot c k).tlr.queues = s.tlr.queues := by
  unfold State.orphanSlot
  dsimp only
  split
  · exact State.freeUnheldSignal_queues ..
  · rfl

theorem State.postCancel_queues (s : State) (c k cause : Nat) : (s.postCancel c k cause).tlr.queues = s.tlr.queues := by
  unfold State.postCancel
  dsimp only
  split <;> rfl

/-- The end of a run leaves the queues of waiting runs alone. -/
theorem State.endRun_queues (s : State) (c : Nat) (rec : RunRec) : (s.endRun c rec).tlr.queues = s.tlr.queues := by
  unfold State.endRun
  dsimp only
  split
  · rfl
  · refine (State.foldl_queues (fun t k => ?_) _ _).trans ?_
    · split
      · exact State.orphanSlot_queues ..
      · exact State.postCancel_queues ..
    · rw [State.setClerk_queues, State.dropOpened_queues, State.leaveSignals_queues]
      refine State.foldl_queues (fun t i => ?_) _ s
      split
      · rfl
      · exact State.setHandle_queues ..

/-! ### The start of a run (R31, R35, R37, Table 2-2) -/

theorem startRegs_arg (c : Nat) (r : RunReq) {i : Nat} (hi : i < 6) : (startRegs c r).lookD (i + 1) 0 = r.args.getD i 0 := by
  interval_cases i <;> simp [startRegs, Tbl.lookD, Tbl.look, rowsLook, List.range_succ]

theorem startRegs_tag (c : Nat) (r : RunReq) : (startRegs c r).lookD 7 0 = r.tag := rfl

theorem startRegs_top (c : Nat) (r : RunReq) : (startRegs c r).lookD 31 0 = BitVec.ofNat 64 (stackOf c + 65536) := rfl

theorem startRegs_other (c : Nat) (r : RunReq) {i : Nat} (h8 : 8 ≤ i) (h31 : i ≠ 31) : (startRegs c r).lookD i 0 = 0 := by
  have hlook : (startRegs c r).look i = none := by
    have hne : ∀ j < 8, j ≠ i := by omega
    simp [Tbl.look, startRegs, rowsLook, List.range_succ, hne, h31.symm]
  rw [Tbl.lookD, hlook]
  rfl

theorem State.clerk_of_tlr {s t : State} (h : t.tlr = s.tlr) (c : Nat) : t.clerk c = s.clerk c := by
  rw [State.clerk, h]
  rfl

theorem State.unitServe_tlr (s : State) (ty inst ctx : Nat) : (s.unitServe ty inst ctx).tlr = s.tlr := by
  unfold State.unitServe
  split
  · rfl
  · split
    · rfl
    · exact (State.trace_kept ..).2.1

theorem State.ite_zeroRange_tlr (p : Prop) [Decidable p] (s : State) (lo hi : Nat) : (if p then s.zeroRange lo hi else s).tlr = s.tlr := by
  split <;> rfl

/-- The clerk on which a run starts (R37). -/
theorem State.beginRun_clerk {s : State} (c : Nat) {r : RunReq} {img : Image} (hi : s.tlr.images.look r.slot = some img) :
    ((s.beginRun c r).clerk c).st = .ready ∧ ((s.beginRun c r).clerk c).pc = BitVec.ofNat 64 (img.entries.getD r.entry 0) ∧
    ((s.beginRun c r).clerk c).sreg = startRegs c r ∧ ((s.beginRun c r).clerk c).hreg = .empty ∧
    ((s.beginRun c r).clerk c).preg = .empty ∧
    ((s.beginRun c r).clerk c).run.map (fun x => (x.slot, x.ctx, x.entry, x.prio, x.tag)) =
      some (r.slot, img.ctx, r.entry, r.prio, r.tag) := by
  unfold State.beginRun
  simp only [hi]
  rw [State.clerk_setClerk_same]
  exact ⟨rfl, rfl, rfl, rfl, rfl, rfl⟩

/-- The start of a run leaves the other clerks alone. -/
theorem State.beginRun_other (s : State) {c d : Nat} (r : RunReq) (h : d ≠ c) : (s.beginRun c r).clerk d = s.clerk d := by
  unfold State.beginRun
  split
  · rfl
  · dsimp only
    rw [State.clerk_setClerk_ne _ _ h]
    exact State.clerk_of_tlr ((State.ite_zeroRange_tlr ..).trans (State.unitServe_tlr ..)) d

/-- A request whose preferred hub has a FREE clerk starts there (R31). -/
theorem State.dispatchRun_preferred {s : State} {n c : Nat} {r : RunReq} (hhub : r.hub < 4) (hup : s.hubUp r.hub = true)
    (hfree : 0 < s.freeClerks n r.hub) (hc : s.firstClerk n r.hub = some c) : s.dispatchRun n r false = s.beginRun c r := by
  simp [State.dispatchRun, hhub, hup, hfree, hc]

theorem exec_runStart_dispatches {rq : Requester} {v : Word} {s : State} {r : RunReq} {img : Image} (hopen : WriteOpen s rq .tlrRunStart 0)
    (hlow : low6 v = 0) (hr : r = runReqOf (s.bytesAt (keyHub v.toNat) 64) rq) (hi : s.tlr.images.look r.slot = some img)
    (ha : s.actsFor rq img.ctx = true) (hentry : r.entry < img.entryCount) (hhub : r.hub < 4)
    (hzero : bits (leAt (s.bytesAt (keyHub v.toNat) 64) 0 8) 15 17 = 0) (hdrain : img.draining = false)
    (hres : s.resident img.ctx = true) : exec (.runStart rq v) s = .next (s.dispatchRun img.ctx r false) := by
  have hwhole : ¬ img.entryCount ≤ r.entry := by omega
  have hpref : ¬ 4 < r.hub := by omega
  change execRunStart rq v s = _
  simp only [execRunStart, ← hr, hi, ha, hlow, Bool.true_or, State.woWrite_of_writeOpen hopen]
  simp [hwhole, hpref, hzero, hdrain, hres]

/-! ### The end of a run (R34, R49 to R51, R56) -/

theorem Draining.ending {c : Nat} {s t : State} {tag : Word} {e : Option RunRec} (h : Draining c (some (tag, e)) s t) :
    (t.clerk c).run.map (fun r => r.ending) = some e := by
  have hmap := congrArg (Option.map Prod.snd) h.2.1
  rwa [Option.map_map] at hmap

/-- The clerk has a run under way that satisfies a predicate over tag and context (R34). -/
def Clerk.cancellable (p : Word → Nat → Bool) (cl : Clerk) : Bool :=
  match cl.run with
  | some r => p r.tag r.ctx && (decide (cl.st = .ready) || decide (cl.st = .waiting))
  | none => false

theorem Clerk.cancellable_run {p : Word → Nat → Bool} {cl : Clerk} (h : cl.cancellable p = true) :
    ∃ r, cl.run = some r ∧ p r.tag r.ctx = true := by
  unfold Clerk.cancellable at h
  split at h
  · rename_i r hrun
    exact ⟨r, hrun, (Bool.and_eq_true_iff.mp h).1⟩
  · cases h

theorem Tbl.exists_row_of_keysIf_cons {α β : Type} {t : Tbl α β} {p : α → β → Bool} {k : α} {l : List α} (h : t.keysIf p = k :: l) :
    ∃ v, (k, v) ∈ t.rows ∧ p k v = true := by
  have hmem : k ∈ t.keysIf p := by rw [h]; exact List.mem_cons_self
  obtain ⟨⟨a, v⟩, hrow, rfl⟩ := List.mem_map.mp hmem
  exact ⟨v, List.mem_filter.mp hrow⟩

theorem State.anyRun_of_row {s : State} {p : Word → Nat → Bool} {c : Nat} {cl : Clerk} (hrow : (c, cl) ∈ s.tlr.clerks.rows)
    (hp : cl.cancellable p = true) : s.anyRun p = true := by
  obtain ⟨r, hrun, hr⟩ := Clerk.cancellable_run hp
  refine Bool.or_eq_true_iff.mpr (.inl (List.any_eq_true.mpr ⟨(c, cl), hrow, ?_⟩))
  simp only [hrun]
  exact hr

/-- Where one run under way satisfies the predicate and none waits, it ends with CAUSE 3 (R34). -/
theorem State.cancelRuns_one {s : State} {p : Word → Nat → Bool} {c : Nat} {r : Run}
    (hkeys : s.tlr.clerks.keysIf (fun _ cl => cl.cancellable p) = [c]) (hrun : (s.clerk c).run = some r) (hq : s.tlr.queues.rows = []) :
    s.cancelRuns p = s.endRun c ⟨r.tag, 0, 3, 0, 0, 0, 0⟩ := by
  unfold State.cancelRuns
  generalize hl : Tbl.keysIf s.tlr.clerks _ = l
  obtain rfl : l = [c] := hl.symm.trans hkeys
  simp only [List.foldl_cons, List.foldl_nil, hrun]
  refine List.foldl_fixed' (fun h => ?_) _
  have hnone : (s.endRun c ⟨r.tag, 0, 3, 0, 0, 0, 0⟩).runQueue h = [] :=
    State.runQueue_of_rows_nil (by rw [State.endRun_queues, hq]) h
  simp only [hnone, List.filter_nil, List.isEmpty_nil, if_true]

theorem exec_runCancel_one {rq : Requester} {tag : Word} {s : State} {c : Nat} {r : Run} (hopen : WriteOpen s rq .tlrRunCancel 0)
    (hkeys : s.tlr.clerks.keysIf (fun _ cl => cl.cancellable fun t n => decide (t = tag) && s.actsFor rq n) = [c])
    (hrun : (s.clerk c).run = some r) (htag : r.tag = tag) (hq : s.tlr.queues.rows = []) :
    exec (.runCancel rq tag) s = .next (s.endRun c ⟨tag, 0, 3, 0, 0, 0, 0⟩) := by
  obtain ⟨cl, hrow, hcl⟩ := Tbl.exists_row_of_keysIf_cons hkeys
  change execRunCancel rq tag s = _
  simp only [execRunCancel, State.woWrite_of_writeOpen hopen]
  rw [if_pos (State.anyRun_of_row hrow hcl), State.cancelRuns_one hkeys hrun hq, htag]

theorem exec_runCancel_nomatch {rq : Requester} {tag : Word} {s : State} (hopen : WriteOpen s rq .tlrRunCancel 0)
    (hnone : s.anyRun (fun t n => decide (t = tag) && s.actsFor rq n) = false) :
    exec (.runCancel rq tag) s = .next (s.raise Evt.tlr_cancelNomatch) := by
  change execRunCancel rq tag s = _
  simp [execRunCancel, State.woWrite_of_writeOpen hopen, hnone]

theorem exec_runTimeLimit {s : State} {c t0 : Nat} {r : Run} (hlive : s.Live) (hrun : (s.clerk c).run = some r)
    (hd : r.deadline = some t0) (ht : t0 ≤ s.now) (hst : (s.clerk c).st = .ready ∨ (s.clerk c).st = .waiting) :
    exec (.runTimeLimit c) s = .next ((s.leaveSignals c).trap c .watchdog 0 (s.clerk c).pc 0) := by
  change execRunTimeLimit c s = _
  simp [execRunTimeLimit, State.whenLive_eq, hlive, hrun, hd, ht, hst]

theorem exec_handlerGraceExpiry {s : State} {c t0 : Nat} {r : Run} (hlive : s.Live) (hrun : (s.clerk c).run = some r)
    (hg : r.grace = some t0) (ht : t0 ≤ s.now) (hst : (s.clerk c).st = .ready ∨ (s.clerk c).st = .waiting) :
    exec (.handlerGraceExpiry c) s = .next (s.endRun c ⟨r.tag, 0, 2, 10, 0, 0, (s.clerk c).pc⟩) := by
  change execHandlerGraceExpiry c s = _
  simp [execHandlerGraceExpiry, State.whenLive_eq, hlive, hrun, hg, ht, hst]

/-! ### A drained clerk (R29, R31, R50, R51) -/

/-- The sweep of an image slot changes the images and registers alone. -/
theorem State.sweepImage_frame (s : State) (k : Nat) :
    ∃ images regs, s.sweepImage k = { s with regs := regs, tlr := { s.tlr with images := images } } := by
  rcases s.sweepImage_cases k with h | h
  · exact ⟨_, _, h⟩
  · exact ⟨_, _, h⟩

theorem State.sweepImage_clerk (s : State) (k c : Nat) : (s.sweepImage k).clerk c = s.clerk c := by
  obtain ⟨images, regs, h⟩ := s.sweepImage_frame k
  exact (congrArg (State.clerk · c) h).trans rfl

theorem State.sweepImage_out (s : State) (k : Nat) : (s.sweepImage k).out = s.out := by
  obtain ⟨images, regs, h⟩ := s.sweepImage_frame k
  exact (congrArg State.out h).trans rfl

theorem State.sweepImage_runRecs (s : State) (k : Nat) : (s.sweepImage k).tlr.runRecs = s.tlr.runRecs := by
  obtain ⟨images, regs, h⟩ := s.sweepImage_frame k
  exact (congrArg (·.tlr.runRecs) h).trans rfl

theorem State.sweepImage_runQueue (s : State) (k h : Nat) : (s.sweepImage k).runQueue h = s.runQueue h := by
  obtain ⟨images, regs, hs⟩ := s.sweepImage_frame k
  exact (congrArg (State.runQueue · h) hs).trans rfl

theorem State.keepRecord_clerk (s : State) (rq : Requester) (h : Nat) (rec : RunRec) (c : Nat) :
    (s.keepRecord rq h rec).clerk c = s.clerk c := rfl

theorem State.keepRecord_out (s : State) (rq : Requester) (h : Nat) (rec : RunRec) :
    (s.keepRecord rq h rec).out = s.out ++ [.runRecord rq rec] := rfl

theorem State.keepRecord_runRecs (s : State) (rq : Requester) (h : Nat) (rec : RunRec) :
    (s.keepRecord rq h rec).tlr.runRecs = s.tlr.runRecs.put h rec := rfl

theorem State.keepRecord_runQueue (s : State) (rq : Requester) (hub : Nat) (rec : RunRec) (h : Nat) :
    (s.keepRecord rq hub rec).runQueue h = s.runQueue h := rfl

/-- The state with the duration of a run that ends now on hub `h` noted (R32). -/
def State.noteDuration (s : State) (h startedAt : Nat) : State :=
  let old := (s.tlr.durations.lookD h []).filter (fun p => decide (s.now ≤ p.1 + 10000000))
  s.onTlr fun t => { t with durations := t.durations.put h (old ++ [(s.now, s.now - startedAt)]) }

theorem State.noteDuration_clerk (s : State) (h startedAt c : Nat) : (s.noteDuration h startedAt).clerk c = s.clerk c := rfl

theorem State.noteDuration_out (s : State) (h startedAt : Nat) : (s.noteDuration h startedAt).out = s.out := rfl

theorem State.noteDuration_mem (s : State) (h startedAt : Nat) : (s.noteDuration h startedAt).mem = s.mem := rfl

theorem State.noteDuration_runRecs (s : State) (h startedAt : Nat) : (s.noteDuration h startedAt).tlr.runRecs = s.tlr.runRecs := rfl

theorem State.noteDuration_runQueue (s : State) (hub startedAt h : Nat) : (s.noteDuration hub startedAt).runQueue h = s.runQueue h := rfl

theorem State.setClerk_runQueue (s : State) (c : Nat) (cl : Clerk) (h : Nat) : (s.setClerk c cl).runQueue h = s.runQueue h := rfl

/-- The clerk that has given up its run. -/
def Clerk.freed (cl : Clerk) : Clerk := { cl with st := .free, run := none, handler := false }

theorem State.dequeueRun_of_empty {s : State} {h : Nat} (c : Nat) (hq : s.runQueue h = []) : s.dequeueRun h c = s := by
  simp [State.dequeueRun, hq]

/-- A drained clerk whose hub has nobody waiting: the clerk is FREE, the record is sent and kept, the run's duration is noted and its image
swept. -/
theorem exec_runDrainDone {s : State} {c : Nat} {r : Run} {rec : RunRec} (hlive : s.Live) (hst : (s.clerk c).st = .draining)
    (hrun : (s.clerk c).run = some r) (hend : r.ending = some rec) (hslots : (s.clerk c).busySlots.isEmpty = true)
    (hup : s.hubUp (hubOfClerk c) = true) (hq : s.runQueue (hubOfClerk c) = []) :
    exec (.runDrainDone c) s =
      .next ((((s.setClerk c (s.clerk c).freed).keepRecord r.requester (hubOfClerk c) { rec with orphans := r.orphans }).noteDuration
        (hubOfClerk c) r.startedAt).sweepImage r.slot) := by
  have hempty : ((((s.setClerk c (s.clerk c).freed).keepRecord r.requester (hubOfClerk c) { rec with orphans := r.orphans }).noteDuration
      (hubOfClerk c) r.startedAt).sweepImage r.slot).runQueue (hubOfClerk c) = [] := by
    rw [State.sweepImage_runQueue, State.noteDuration_runQueue, State.keepRecord_runQueue, State.setClerk_runQueue, hq]
  change execRunDrainDone c s = _
  simp only [execRunDrainDone, hrun, hend, hst, hslots, hup, hlive, decide_true, Bool.and_self, Bool.not_false, if_true]
  exact congrArg _ (State.dequeueRun_of_empty c hempty)

/-- Settles O13: a start is placed on the first free clerk of the preferred hub; a cancellation, a time limit that the trap entry does not take
and the handler's grace end the run, which drains; a drained clerk is freed and its record sent. -/
theorem runsStartAndEnd : Obligations.RunsStartAndEnd := by
  unfold Obligations.RunsStartAndEnd
  refine ⟨?start, ?cancel, ?unmatched, ?drained, ?limit, ?grace⟩
  case start =>
    intro rq v s r img c hopen hlow hr hi ha hentry hhub hup hzero hdrain hres hfree hc
    have hexec := exec_runStart_dispatches hopen hlow hr hi ha hentry hhub hzero hdrain hres
    rw [State.dispatchRun_preferred hhub hup hfree hc] at hexec
    obtain ⟨hst, hpc, hsreg, hhreg, hpreg, hrun⟩ := State.beginRun_clerk c hi
    refine ⟨_, hexec, hst, hpc, fun i h6 => ?_, ?_, ?_, fun i h8 h31 => ?_, fun i => ?_, fun i => ?_, hrun, fun d hd => s.beginRun_other r hd⟩
    · rw [Clerk.s, hsreg, startRegs_arg c r h6, if_neg (by omega)]
    · rw [Clerk.s, hsreg, startRegs_tag, if_neg (by omega)]
    · rw [Clerk.s, hsreg, startRegs_top, if_neg (by omega)]
    · rw [Clerk.s, hsreg, startRegs_other c r h8 h31, ite_self]
    · rw [Clerk.h, hhreg]
      rfl
    · rw [Clerk.p, hpreg, Tbl.lookD_empty]
      by_cases hi0 : i = 0 <;> simp [hi0]
  case cancel =>
    intro rq tag s c r hopen hkeys hrun htag hq
    have hdraining := s.endRun_draining c ⟨tag, 0, 3, 0, 0, 0, 0⟩ r hrun
    exact ⟨_, exec_runCancel_one hopen hkeys hrun htag hq, hdraining.1, hdraining.ending⟩
  case unmatched =>
    intro rq tag s hopen hnone
    exact ⟨_, exec_runCancel_nomatch hopen hnone, State.rd_raise_same .., RegsKept.of_put (State.raise_regs ..), State.raise_eq ..⟩
  case drained =>
    intro c s r rec hlive hst hrun hend hslots hup hq
    refine ⟨_, exec_runDrainDone hlive hst hrun hend hslots hup hq, ?_, ?_, ?_, ?_, fun e he => ?_, ?_⟩
    · rw [State.sweepImage_clerk, State.noteDuration_clerk, State.keepRecord_clerk, State.clerk_setClerk_same, Clerk.freed]
    · rw [State.sweepImage_clerk, State.noteDuration_clerk, State.keepRecord_clerk, State.clerk_setClerk_same, Clerk.freed]
    · rw [State.sweepImage_out, State.noteDuration_out, State.keepRecord_out, State.setClerk_out]
    · rw [State.sweepImage_runRecs, State.noteDuration_runRecs, State.keepRecord_runRecs, Tbl.look_put_same]
    · rw [State.sweepImage_clerk, State.noteDuration_clerk, State.keepRecord_clerk, State.clerk_setClerk_ne _ _ he]
    · rw [State.sweepImage_mem, State.noteDuration_mem, State.keepRecord_mem, State.setClerk_mem]
  case limit =>
    intro c t0 s r img hlive hrun hd ht hst hi
    obtain ⟨hruns, -, -, himages, -⟩ := s.leaveSignals_kept c
    have hrun' := (hruns c).1.trans hrun
    have hi' : (s.leaveSignals c).tlr.images.look r.slot = some img := by rw [himages, hi]
    have hrecord := ((s.leaveSignals c).trapRecord_rd c .watchdog 0 (s.clerk c).pc 0).1
    refine ⟨_, exec_runTimeLimit hlive hrun hd ht hst, ?_⟩
    beta_reduce
    by_cases hentry : img.trapEntry = true ∧ (s.clerk c).handler = false
    · rw [if_pos hentry]
      obtain ⟨hready, hhandler, hpc, hs1, -, -, -, htrap, -⟩ := (s.leaveSignals c).trap_enters c .watchdog 0 (s.clerk c).pc 0 r img hrun' hi'
        (by rw [(hruns c).2, hentry.1, hentry.2]; rfl)
      exact ⟨(htrap c).trans hrecord, hready, hhandler, hpc, hs1⟩
    · rw [if_neg hentry]
      have hdraining := (s.leaveSignals c).trap_ends c .watchdog 0 (s.clerk c).pc 0 r img hrun' hi'
        (by rw [(hruns c).2]; simpa [TrapClass.entryTakes] using hentry)
      exact ⟨(hdraining.2.2.1 c).trans hrecord, hdraining.1, hdraining.ending⟩
  case grace =>
    intro c t0 s r hlive hrun hg ht hst
    have hdraining := s.endRun_draining c ⟨r.tag, 0, 2, 10, 0, 0, (s.clerk c).pc⟩ r hrun
    exact ⟨_, exec_handlerGraceExpiry hlive hrun hg ht hst, hdraining.1, hdraining.2.1⟩

end Sys2Proof.Machine

namespace Sys2Proof.Machine

/-! ### The planner's registers (R118, R119, R141, R397) -/

/-- A write of an RW register that the window lets through takes its effect (R396, R400). -/
theorem State.cfgWrite_of_windowOpen {s : State} {rq : Requester} {r : Reg} {i : Nat} (h : WindowOpen s rq) (hreach : s.regReach r i = true)
    (k : State → State) : s.cfgWrite rq r i true k = k s := by
  obtain ⟨hlive, hup⟩ := h
  simp [State.cfgWrite, hlive, hup, hreach]

/-- A field whose bits are all writable reads the value written (R397). -/
theorem State.fld_rwWrite_same (s : State) (f : Fld) (i : Nat) (v : Word)
    (h : ∀ k, k < f.width → (BitVec.ofNat 64 f.reg.spec.mask).getLsbD (f.lo + k) = true) : (s.rwWrite f.reg i v).fld f i = f.get v := by
  apply Nat.eq_of_testBit_eq
  intro k
  simp only [State.fld, State.rwWrite, State.rd_wr_same, Fld.get_testBit, BitVec.testBit_toNat]
  by_cases hk : k < f.width
  · simp [h k hk]
  · simp [hk]

/-! #### Models (R118) -/

theorem State.rd_modelStatus (s : State) (index reason st : Nat) :
    (s.modelStatus index reason st).rd .schModelStatus 0 = BitVec.ofNat 64 (index % 1024 + reason * 2 ^ 16 + st * 2 ^ 24) :=
  State.rd_wr_same ..

theorem exec_modelReg_takes {rq : Requester} {v : Word} {s : State} {i : Nat} (hopen : WriteOpen s rq .schModelReg 0)
    (hmodule : s.isModule rq = true) (hlow : low6 v = 0) (hok : s.modelOk v.toNat = true) (hfree : lowestFree s.sch.models.has 0 1024 = some i) :
    exec (.modelReg rq v) s =
      .next ((s.onSch fun t => { t with models := t.models.put i (s.modelAt v.toNat) }).modelStatus i 0 2) := by
  change execModelReg rq v s = _
  simp [execModelReg, hmodule, hlow, State.woWrite_of_writeOpen hopen, hok, hfree]

theorem exec_modelReg_refuses {rq : Requester} {v : Word} {s : State} (hopen : WriteOpen s rq .schModelReg 0)
    (hmodule : s.isModule rq = true) (hlow : low6 v = 0) (hbad : s.modelOk v.toNat = false) :
    exec (.modelReg rq v) s = .next (s.modelStatus 0 2 3) := by
  change execModelReg rq v s = _
  simp [execModelReg, hmodule, hlow, State.woWrite_of_writeOpen hopen, hbad]

theorem exec_modelUnreg {rq : Requester} {v : Word} {s : State} (hopen : WriteOpen s rq .schModelUnreg 0) (hmodule : s.isModule rq = true) :
    exec (.modelUnreg rq v) s =
      .next (s.onSch fun t => { t with models := t.models.upd (bits v.toNat 0 10) fun m => { m with unreg := true } }).sweepTables := by
  change execModelUnreg rq v s = _
  rw [execModelUnreg, hmodule, State.woWrite_of_writeOpen hopen]

/-- A loop whose steps keep a part of the state keeps it. -/
theorem foldl_kept {σ α γ : Type} (part : σ → γ) {f : σ → α → σ} (hf : ∀ s x, part (f s x) = part s) (l : List α) (s : σ) :
    part (l.foldl f s) = part s :=
  foldl_inv (P := fun t => part t = part s) (fun t x ht => (hf t x).trans ht) rfl l

/-- A sweep of the tables keeps the sessions (R118, R146). -/
@[simp] theorem State.sweepTables_ssn (s : State) : s.sweepTables.ssn = s.ssn := by
  unfold State.sweepTables
  extract_lets named t ident vgone ggone u w kib
  have hu : u.ssn = t.ssn := foldl_kept State.ssn (fun _ _ => by rfl) vgone t
  have hw : w.ssn = u.ssn := foldl_kept State.ssn (fun _ _ => by rfl) ggone u
  exact Eq.trans (foldl_kept State.ssn (fun _ _ => by rfl) w.hubsUp w) (hw.trans hu)

/-- Of the planner's state a sweep changes the models alone: it frees the unregistered ones that no bound session names (R118). -/
theorem State.sweepTables_sch (s : State) :
    s.sweepTables.sch = { s.sch with models := s.sch.models.keep (fun k m =>
      !m.unreg || s.ssn.sessions.any (fun _ x => decide (x.model = k) && decide (x.reservedLen ≠ 0))) } := by
  unfold State.sweepTables
  extract_lets named t ident vgone ggone u w kib
  have hu : u.sch = t.sch := foldl_kept State.sch (fun _ _ => by rfl) vgone t
  have hw : w.sch = u.sch := foldl_kept State.sch (fun _ _ => by rfl) ggone u
  exact Eq.trans (foldl_kept State.sch (fun _ _ => by rfl) w.hubsUp w) (hw.trans hu)

/-- Filtering rows makes no row. -/
theorem rowsLook_filter_of_none {α β : Type} [DecidableEq α] {l : List (α × β)} {k : α} (h : rowsLook l k = none) (p : α × β → Bool) :
    rowsLook (l.filter p) k = none := by
  induction l with
  | nil => rfl
  | cons q l ih =>
    obtain ⟨a, b⟩ := q
    have hne : a ≠ k := fun e => by simp [rowsLook, e] at h
    have hrest : rowsLook l k = none := by simpa [rowsLook, hne] using h
    by_cases hp : p (a, b) = true
    · simp [hp, rowsLook, hne, ih hrest]
    · simp [hp, ih hrest]

/-- A row updated to what a filter drops is gone from the filtered table. -/
theorem Tbl.look_keep_upd_of_dropped {α β : Type} [DecidableEq α] (t : Tbl α β) (k : α) {f : β → β} {p : α → β → Bool}
    (h : ∀ v, p k (f v) = false) : ((t.upd k f).keep p).look k = none := by
  unfold Tbl.upd
  split
  · next hnone => exact rowsLook_filter_of_none hnone _
  · next v _ =>
    have hrest : rowsLook ((t.del k).rows.filter fun r => p r.1 r.2) k = none := rowsLook_filter_of_none (t.look_del_same k) _
    simp [Tbl.look, Tbl.keep, Tbl.put, h v, hrest]

/-! #### Groups (R119, Table 5-6) -/

@[simp] theorem State.group_setGroup_same (s : State) (g : Nat) (x : Group) : (s.setGroup g x).group g = x := Tbl.lookD_put_same ..

theorem State.group_setGroup_ne (s : State) {g k : Nat} (x : Group) (h : k ≠ g) : (s.setGroup g x).group k = s.group k :=
  Tbl.lookD_put_ne _ _ _ h

/-- What a write of zero to `SCH_GROUP_CFG` of group `g` leaves in the registers: declared times of zero keep ENABLE at 0 (R119). -/
def State.groupCfgZeroed (s : State) (g : Nat) : State :=
  let u := s.rwWrite .schGroupCfg g 0
  if u.rd .schGroupTime g = 0 then u.setFld Fld.schGroupCfg_enable g 0 else u

theorem State.groupCfgZeroed_eq (s : State) (g : Nat) : s.groupCfgZeroed g = { s with regs := (s.groupCfgZeroed g).regs } := by
  unfold State.groupCfgZeroed
  dsimp only
  split <;> rfl

theorem State.groupCfgZeroed_enable (s : State) (g : Nat) : (s.groupCfgZeroed g).fld Fld.schGroupCfg_enable g = 0 := by
  unfold State.groupCfgZeroed
  dsimp only
  split
  · exact State.fld_setFld_same _ _ _ _ (by decide)
  · exact State.fld_rwWrite_same s Fld.schGroupCfg_enable g 0 (by decide)

theorem State.rwWrite_zero_groupCfg_ports (s : State) (g : Nat) : (s.rwWrite .schGroupCfg g 0).fld Fld.schGroupCfg_ports g = 0 :=
  State.fld_rwWrite_same s Fld.schGroupCfg_ports g 0 (by decide)

theorem State.groupCfgZeroed_ports (s : State) (g : Nat) : (s.groupCfgZeroed g).fld Fld.schGroupCfg_ports g = 0 := by
  unfold State.groupCfgZeroed
  dsimp only
  split
  · rw [State.fld_setFld_other _ _ _ _ _ _ (by decide) (.inr (by decide)), State.rwWrite_zero_groupCfg_ports]
  · exact s.rwWrite_zero_groupCfg_ports g

theorem State.groupCfgZeroed_group (s : State) (g k : Nat) : (s.groupCfgZeroed g).group k = s.group k := by
  rw [s.groupCfgZeroed_eq g]
  rfl

/-- Without a port a group clashes with no other, and without ENABLE a group that is OFF stays so (R119). -/
theorem exec_groupCfgWrite_zero {rq : Requester} {g : Nat} {s : State} (hopen : WindowOpen s rq) (hreach : s.regReach .schGroupCfg g = true)
    (hmodule : s.isModule rq = true) (hg : g < 8) (hoff : (s.group g).role = .off) :
    exec (.groupCfgWrite rq g 0) s = .next ((s.groupCfgZeroed g).setGroup g { s.group g with armed := false }) := by
  have hdisabled : (s.groupCfgZeroed g).groupOn g = false := by simp [State.groupOn, s.groupCfgZeroed_enable g]
  change execGroupCfgWrite rq g 0 s = _
  rw [execGroupCfgWrite, if_neg (by omega), hmodule, State.cfgWrite_of_windowOpen hopen hreach]
  extract_lets oldRole oldModel oldPorts u clash w x moved
  have hports : u.fld Fld.schGroupCfg_ports g = 0 := s.rwWrite_zero_groupCfg_ports g
  have hclash : clash = false := by simp [clash, hports, bit]
  have hw : w = s.groupCfgZeroed g := by
    dsimp only [w]
    rw [hclash]
    rfl
  have hx : x = s.group g := by
    dsimp only [x]
    rw [hw, s.groupCfgZeroed_group g g]
  rw [hw, hx, hdisabled, Bool.not_false, if_pos rfl, if_pos hoff]

/-! #### Report connections (R141) -/

theorem exec_ctxReportWrite {rq : Requester} {n : Nat} {s : State} (v : Word) (hopen : WindowOpen s rq) (hreach : s.regReach .schCtxReport n = true)
    (hallowed : s.isModule rq = true ∨ s.actsFor rq n = true) (hn : n < 64) :
    exec (.ctxReportWrite rq n v) s = .next (s.rwWrite .schCtxReport n v) := by
  change execCtxReportWrite rq n v s = _
  rw [execCtxReportWrite, if_neg (by omega), Bool.or_eq_true_iff.mpr hallowed, State.cfgWrite_of_windowOpen hopen hreach]

/-- Settles O19: each write that the window lets through has the one effect its equation gives; an unregistered model that no bound session
names falls to the sweep of the tables, and a group's configuration of zero clashes with no other group's ports. -/
theorem plannerRegisters : Obligations.PlannerRegisters := by
  unfold Obligations.PlannerRegisters
  refine ⟨?registers, ?refuses, ?unregisters, ?disables, ?reports⟩
  case registers =>
    intro rq v s i hopen hmodule hlow hok hfree
    refine ⟨_, exec_modelReg_takes hopen hmodule hlow hok hfree, rfl, ?_, RegsKept.of_put rfl, rfl⟩
    rw [State.rd_modelStatus, Nat.zero_mul, Nat.add_zero]
  case refuses =>
    intro rq v s hopen hmodule hlow hbad
    refine ⟨_, exec_modelReg_refuses hopen hmodule hlow hbad, ?_, RegsKept.of_put rfl, rfl⟩
    rw [State.rd_modelStatus, Nat.zero_mod, Nat.zero_add]
  case unregisters =>
    intro rq v s hopen hmodule hunnamed
    refine ⟨_, exec_modelUnreg hopen hmodule, ?_, State.sweepTables_mem _, State.sweepTables_ssn _⟩
    rw [State.sweepTables_sch]
    exact Tbl.look_keep_upd_of_dropped _ _ fun _ => by simpa using hunnamed
  case disables =>
    intro rq g s hopen hreach hmodule hg hoff
    refine ⟨_, exec_groupCfgWrite_zero hopen hreach hmodule hg hoff, s.groupCfgZeroed_enable g, s.groupCfgZeroed_ports g,
      State.group_setGroup_same .., fun k hk => ?_, ?_⟩
    · rw [State.group_setGroup_ne _ _ hk, State.groupCfgZeroed_group]
    · rw [State.setGroup_mem, s.groupCfgZeroed_eq g]
  case reports =>
    intro rq n v s hopen hreach hallowed hn
    exact ⟨_, exec_ctxReportWrite v hopen hreach hallowed hn, State.rd_wr_same .., RegsKept.of_put rfl, rfl⟩

end Sys2Proof.Machine

namespace Sys2Proof.Machine

/-! ### The issue of an instruction (R37, R45) -/

/-- A command that issues a word has the effect of that word where its guard holds. -/
theorem Completes.of_issues {i : Instr} {s : State} {c : Nat} {ix : Ix} {p : Ix → Bool} {k : Ix → State} {P : State → Prop}
    (hexec : exec i s = .next (s.onWord c p k)) (h : Issues s c ix p) (hP : P (k ix)) : Completes i s P :=
  ⟨k ix, by rw [hexec, State.onWord_issues h], hP⟩

/-! ### Scalar registers and predicates (R37) -/

theorem Clerk.s_setS (cl : Clerk) (rd : Nat) (v : Word) (i : Nat) : (cl.setS rd v).s i = if i = rd ∧ rd ≠ 0 then v else cl.s i := by
  by_cases hrd : rd = 0
  · simp [Clerk.setS, hrd]
  · by_cases hi : i = rd
    · simp [Clerk.setS, Clerk.s, hrd, hi]
    · simp [Clerk.setS, Clerk.s, hrd, hi, Tbl.lookD_put_ne]

/-- A write of a scalar register changes no other field of the clerk. -/
theorem Clerk.setS_eq (cl : Clerk) (rd : Nat) (v : Word) : cl.setS rd v = { cl with sreg := (cl.setS rd v).sreg } := by
  unfold Clerk.setS
  split <;> rfl

theorem Clerk.p_setP (cl : Clerk) (pd : Nat) (b : Bool) (i : Nat) : (cl.setP pd b).p i = if i = pd ∧ pd ≠ 0 then b else cl.p i := by
  by_cases hpd : pd = 0
  · simp [Clerk.setP, hpd]
  · by_cases hi : i = pd
    · simp [Clerk.setP, Clerk.p, hpd, hi]
    · simp [Clerk.setP, Clerk.p, hpd, hi, Tbl.lookD_put_ne]

/-- A write of a predicate changes no other field of the clerk. -/
theorem Clerk.setP_eq (cl : Clerk) (pd : Nat) (b : Bool) : cl.setP pd b = { cl with preg := (cl.setP pd b).preg } := by
  unfold Clerk.setP
  split <;> rfl

theorem Clerk.s_setP (cl : Clerk) (pd : Nat) (b : Bool) (i : Nat) : (cl.setP pd b).s i = cl.s i := by rw [Clerk.setP_eq]; rfl

theorem Clerk.p_setS (cl : Clerk) (rd : Nat) (v : Word) (i : Nat) : (cl.setS rd v).p i = cl.p i := by rw [Clerk.setS_eq]; rfl

theorem Clerk.pc_setS (cl : Clerk) (rd : Nat) (v : Word) : (cl.setS rd v).pc = cl.pc := by rw [Clerk.setS_eq]

theorem Clerk.pc_setP (cl : Clerk) (pd : Nat) (b : Bool) : (cl.setP pd b).pc = cl.pc := by rw [Clerk.setP_eq]

/-- A write of scalar register `rl` with a jump to `pc` changes nothing else (R204). -/
theorem State.jumped_setClerk {s : State} {c : Nat} {ix : Ix} (h : s.issuer c = some ix) (rl : Nat) (pc : Word) :
    Jumped c ix rl pc s (s.setClerk ix.c { ix.cl.setS rl (ix.cl.pc + 8) with pc := pc }) := by
  obtain ⟨rfl, -⟩ := State.issuer_eq h
  refine ⟨fun i => ?_, ?_, fun d hd => State.clerk_setClerk_ne _ _ hd, rfl⟩ <;> rw [State.clerk_setClerk_same]
  · exact Clerk.s_setS ..
  · rw [Clerk.setS_eq]

/-- A scalar instruction that writes one scalar register changes nothing else but the pc (R202). -/
theorem State.scalarWritten_retire {s : State} {c : Nat} {ix : Ix} (h : s.issuer c = some ix) (rd : Nat) (v : Word) :
    ScalarWritten c ix rd v s (s.retire ix.c (ix.cl.setS rd v)) := by
  obtain ⟨rfl, -⟩ := State.issuer_eq h
  unfold State.retire
  refine ⟨fun i => ?_, ?_, fun d hd => State.clerk_setClerk_ne _ _ hd, rfl⟩ <;> rw [State.clerk_setClerk_same]
  · exact Clerk.s_setS ..
  · rw [Clerk.setS_eq]

/-- A scalar instruction that writes one predicate changes nothing else but the pc (R203). -/
theorem State.predWritten_retire {s : State} {c : Nat} {ix : Ix} (h : s.issuer c = some ix) (pd : Nat) (b : Bool) :
    PredWritten c ix pd b s (s.retire ix.c (ix.cl.setP pd b)) := by
  obtain ⟨rfl, -⟩ := State.issuer_eq h
  unfold State.retire
  refine ⟨fun i => ?_, ?_, fun d hd => State.clerk_setClerk_ne _ _ hd, rfl⟩ <;> rw [State.clerk_setClerk_same]
  · exact Clerk.p_setP ..
  · rw [Clerk.setP_eq]

/-- Settles O24: each word writes its result to one scalar register of its own clerk and retires. -/
theorem aluInstructionsWriteTheirRegister : Obligations.AluInstructionsWriteTheirRegister := by
  unfold Obligations.AluInstructionsWriteTheirRegister
  refine ⟨?alu, ?alui, ?li, ?lih⟩
  case alu => exact fun c s ix h => .of_issues rfl h (State.scalarWritten_retire h.1 ..)
  case alui => exact fun c s ix h => .of_issues rfl h (State.scalarWritten_retire h.1 ..)
  case li => exact fun c s ix h => .of_issues rfl h (State.scalarWritten_retire h.1 ..)
  case lih => exact fun c s ix h => .of_issues rfl h (State.scalarWritten_retire h.1 ..)

/-! ### Words that are not defined (R198, R203, R204) -/

theorem isMajor_iff {m : Nat} {ix : Ix} : isMajor m ix = true ↔ wMajor ix.w = m := decide_eq_true_iff

theorem Ix.legal_eq_false {ix : Ix} (h : legalWord ix.w = false) : ix.legal = false := by rw [Ix.legal, h, Bool.false_and]

/-- FN of CMP names one of seven relations (R203). -/
theorem legalWord_cmp_of_fn {v : Word} (hm : wMajor v = 0x05) (hf : 7 ≤ wFnRR v) : legalWord v = false := by
  have hfn : ¬ wFnRR v ≤ 6 := by omega
  simp [legalWord, hm, hfn]

/-- FN of CMPI names one of seven relations (R203). -/
theorem legalWord_cmpi_of_fn {v : Word} (hm : wMajor v = 0x06) (hf : 7 ≤ wFnRI v) : legalWord v = false := by
  have hfn : ¬ wFnRI v ≤ 6 := by omega
  simp [legalWord, hm, hfn]

/-- FN of PLOG names one of four functions (R203). -/
theorem legalWord_plog_of_fn {v : Word} (hm : wMajor v = 0x07) (hf : 4 ≤ wFnRR v) : legalWord v = false := by
  have hfn : ¬ wFnRR v ≤ 3 := by omega
  simp [legalWord, hm, hfn]

/-- RA of BR is s0 (R204). -/
theorem legalWord_br_of_ra {v : Word} (hm : wMajor v = 0x08) (hra : wRA v ≠ 0) : legalWord v = false := by
  simp [legalWord, hm, hra]

/-- A trap of an issuing clerk that the trap entry does not take ends its run with CAUSE 1, and the trap record holds it (R55, R56). -/
theorem State.trap_runEnds {s : State} {c : Nat} {ix : Ix} (h : s.issuer c = some ix) (cls : TrapClass) (code : Nat) (pc addr : Word)
    (hn : (cls.entryTakes && ix.img.trapEntry && !ix.cl.handler) = false) (hw : cls ≠ .watchdog) :
    RunEnds c ix 1 cls.code (code % 2 ^ 16) 0 pc (s.trap c cls code pc addr) ∧
    TrapRecorded c cls.code code pc (if cls.hasAddr then addr else 0) (s.trap c cls code pc addr) := by
  obtain ⟨-, hcl, hrun, himg, -⟩ := State.issuer_eq h
  obtain ⟨hst, hend, htrap, haddr⟩ := s.trap_ends c cls code pc addr _ _ hrun himg (hcl ▸ hn)
  obtain ⟨hrec, hrecAddr⟩ := s.trapRecord_rd c cls code pc addr
  rw [if_neg hw] at hend
  exact ⟨⟨hst, hend⟩, (htrap c).trans hrec, (haddr c).trans hrecAddr⟩

theorem exec_undefinedEncoding {s : State} {c : Nat} {ix : Ix} (h : s.issuer c = some ix) (hbad : ix.legal = false) :
    exec (.undefinedEncoding c) s = .next (s.trap c .illegal 0 ix.cl.pc 0) := by
  obtain ⟨-, -, -, -, -, -, hlive, -⟩ := State.issuer_eq h
  change execUndefinedEncoding c s = _
  simp [execUndefinedEncoding, State.whenLive_eq, h, hbad, hlive]

/-- Settles O25: each word writes its result to one predicate of its own clerk and retires; a word whose FN names no function fails the check
of its format, and the ILLEGAL trap, which no trap entry takes, ends the run. -/
theorem compareAndPredicateInstructions : Obligations.CompareAndPredicateInstructions := by
  unfold Obligations.CompareAndPredicateInstructions
  refine ⟨?cmp, ?cmpi, ?plog, ?relations, ?functions, ?undefined, ?traps⟩
  case cmp => exact fun c s ix h => .of_issues rfl h (State.predWritten_retire h.1 ..)
  case cmpi => exact fun c s ix h => .of_issues rfl h (State.predWritten_retire h.1 ..)
  case plog => exact fun c s ix h => .of_issues rfl h (State.predWritten_retire h.1 ..)
  case relations => exact fun a b => ⟨rfl, rfl, rfl, rfl, rfl, rfl, rfl⟩
  case functions => exact fun a b => ⟨rfl, rfl, rfl, rfl⟩
  case undefined =>
    rintro ix (⟨hm, hf⟩ | ⟨hm, hf⟩ | ⟨hm, hf⟩)
    · exact Ix.legal_eq_false (legalWord_cmp_of_fn (isMajor_iff.mp hm) hf)
    · exact Ix.legal_eq_false (legalWord_cmpi_of_fn (isMajor_iff.mp hm) hf)
    · exact Ix.legal_eq_false (legalWord_plog_of_fn (isMajor_iff.mp hm) hf)
  case traps => exact fun c s ix h hbad => ⟨_, exec_undefinedEncoding h hbad, State.trap_runEnds h .illegal 0 ix.cl.pc 0 rfl (by decide)⟩

/-- A clerk that issues an instruction and goes on with the next word. -/
theorem State.advance_issuer {s : State} {c : Nat} {ix : Ix} (h : s.issuer c = some ix) :
    s.advance c = s.setClerk c { ix.cl with pc := ix.cl.pc + 8 } := by
  obtain ⟨-, hcl, -⟩ := State.issuer_eq h
  rw [hcl]
  rfl

/-- A word that issues with a false guard only moves the pc (R37). -/
theorem State.onWord_guardFalse {s : State} {c : Nat} {ix : Ix} {p : Ix → Bool} (k : Ix → State) (h : s.issuer c = some ix)
    (hlegal : ix.legal = true) (hp : p ix = true) (hg : ix.guard = false) :
    s.onWord c p k = s.setClerk c { ix.cl with pc := ix.cl.pc + 8 } := by
  rw [State.onWord_skips k h hlegal hp hg, State.advance_issuer h]

/-- Settles O26: both jumps write the link and the pc of their own clerk; a BR word with RA set fails the check of its format; a false guard
skips the word. -/
theorem branchesJumpAndLink : Obligations.BranchesJumpAndLink := by
  unfold Obligations.BranchesJumpAndLink
  refine ⟨?br, ?jr, ?undefined, ?skipped⟩
  case br => exact fun c s ix h => .of_issues rfl h (State.jumped_setClerk h.1 ..)
  case jr => exact fun c s ix h => .of_issues rfl h (State.jumped_setClerk h.1 ..)
  case undefined => exact fun ix hm hra => Ix.legal_eq_false (legalWord_br_of_ra (isMajor_iff.mp hm) hra)
  case skipped => exact fun c s ix h hlegal hm hg => ⟨_, congrArg Host.Outcome.next (State.onWord_guardFalse _ h hlegal hm hg), rfl⟩

/-! ### Descriptor words (R205) -/

theorem wWordIx_lt (v : Word) : wWordIx v < 8 := Nat.mod_lt _ (by decide)

/-- A 64-bit word of a descriptor register after one is replaced. -/
theorem descWord_descSet (d : Desc) {i k : Nat} (v : Word) (hi : i < 8) (hk : k < 8) :
    descWord (descSet d i v) k = if k = i then v else descWord d k := by
  apply BitVec.eq_of_getLsbD_eq
  intro j hj
  have hlt : 64 * k + j < 512 := by omega
  rw [apply_ite (BitVec.getLsbD · j)]
  simp only [descWord, descSet, BitVec.getLsbD_extractLsb', BitVec.getLsbD_or, BitVec.getLsbD_and, BitVec.getLsbD_not,
    BitVec.getLsbD_shiftLeft, BitVec.getLsbD_setWidth, BitVec.getLsbD_allOnes, hj, hlt]
  rcases Nat.lt_trichotomy k i with hki | rfl | hki
  · have hbelow : 64 * k + j < 64 * i := by omega
    simp [hbelow, hki.ne]
  · have hj' : j < 512 := by omega
    simp [hj, hlt, hj']
  · have hnot : ¬ 64 * k + j < 64 * i := by omega
    have habove : ¬ 64 * k + j - 64 * i < 64 := by omega
    simp [hnot, habove, hki.ne', BitVec.getLsbD_of_ge v _ (Nat.le_of_not_lt habove)]

/-- Settles O27: DINS replaces one 64-bit word of one descriptor register of its own clerk, and DEXT writes one to a scalar register. -/
theorem descriptorWordInstructions : Obligations.DescriptorWordInstructions := by
  unfold Obligations.DescriptorWordInstructions
  refine ⟨?dins, ?dext⟩
  case dins =>
    intro c s ix h hnative
    refine .of_issues rfl h ?_
    obtain ⟨rfl, -⟩ := State.issuer_eq h.1
    unfold doDins State.retire
    refine ⟨fun i k hk => ?_, ?_, fun d hd => State.clerk_setClerk_ne _ _ hd, rfl⟩ <;> rw [State.clerk_setClerk_same]
    rw [hnative]
    by_cases hi : i = wDreg ix.w
    · subst hi
      have hreg := descWord_descSet (ix.cl.d false (wDreg ix.w)) (ix.cl.s (wRD ix.w)) (wWordIx_lt ix.w) hk
      simpa [Clerk.d, descWord] using hreg
    · simp [Clerk.d, hi, Tbl.lookD_put_ne]
  case dext =>
    intro c s ix h hnative
    refine .of_issues rfl h ?_
    unfold doDext
    rw [hnative]
    exact State.scalarWritten_retire h.1 ..

end Sys2Proof.Machine

namespace Sys2Proof.Machine

/-! ### Fences, TRAP and FREEZE (R207, R222) -/

/-- A word that satisfies one test and another. -/
theorem Issues.and {s : State} {c : Nat} {ix : Ix} {p q : Ix → Bool} (h : Issues s c ix p) (hq : q ix = true) :
    Issues s c ix (fun ix => p ix && q ix) := by
  obtain ⟨hix, hlegal, hp, hg⟩ := h
  exact ⟨hix, hlegal, by simp [hp, hq], hg⟩

/-- A run that ends by itself drains with the record given (R50). -/
theorem State.endRun_runEnds {s : State} {c : Nat} {ix : Ix} (h : s.issuer c = some ix) (cause cls code : Nat) (exit pc : Word) :
    RunEnds c ix cause cls code exit pc (s.endRun c ⟨ix.run.tag, exit, cause, cls, code, 0, pc⟩) := by
  obtain ⟨-, -, hrun, -⟩ := State.issuer_eq h
  obtain ⟨hst, hend, -⟩ := s.endRun_draining c ⟨ix.run.tag, exit, cause, cls, code, 0, pc⟩ ix.run hrun
  exact ⟨hst, hend⟩

/-- A trap of an issuing clerk that the trap entry takes starts the handler, and the trap record holds it (R55, R56). -/
theorem State.trap_handlerStarts {s : State} {c : Nat} {ix : Ix} (h : s.issuer c = some ix) (cls : TrapClass) (code : Nat) (pc addr : Word)
    (hn : (cls.entryTakes && ix.img.trapEntry && !ix.cl.handler) = true) :
    HandlerStarts c ix cls.code code pc (if cls.hasAddr then addr else 0) (s.trap c cls code pc addr) ∧
    TrapRecorded c cls.code code pc (if cls.hasAddr then addr else 0) (s.trap c cls code pc addr) := by
  obtain ⟨-, hcl, hrun, himg, -⟩ := State.issuer_eq h
  obtain ⟨hst, hhandler, hpc, h1, h2, h3, h4, htrap, haddr⟩ := s.trap_enters c cls code pc addr _ _ hrun himg (hcl ▸ hn)
  obtain ⟨hrec, hrecAddr⟩ := s.trapRecord_rd c cls code pc addr
  exact ⟨⟨hst, hhandler, hpc, h1, h2, h3, h4⟩, (htrap c).trans hrec, (haddr c).trans hrecAddr⟩

/-- A freeze that nothing defers takes effect at once (R375, R376). -/
theorem State.requestFreeze_now {s : State} (cause clerk code : Nat) (hlive : s.frz.frozen = false) (hdef : s.frz.deferred = none)
    (hpwr : s.pwrSt ≤ 1) : s.requestFreeze cause clerk code = s.freezeNow cause clerk code := by
  have hrunning : ¬ 2 ≤ s.pwrSt := by omega
  simp [State.requestFreeze, hlive, hdef, hrunning]

/-- Registers, latches and the Keagon side aside, a freeze records itself and draws free values. -/
theorem State.freezeNow_frz (s : State) (cause clerk code : Nat) :
    (s.freezeNow cause clerk code).frz.frozen = true ∧ (s.freezeNow cause clerk code).frz.cause = cause ∧
    (s.freezeNow cause clerk code).frz.clerk = clerk ∧ (s.freezeNow cause clerk code).frz.code = code := ⟨rfl, rfl, rfl, rfl⟩

/-- A clerk as a freeze holds it (R375). -/
def Clerk.held (cl : Clerk) : Clerk := if cl.st = .lost then cl else { cl with kept := cl.st, st := .frozen }

/-- A freeze holds a clerk that is not lost as FROZEN, with the state it was in (R375). -/
theorem State.freezeNow_clerk {s : State} {c : Nat} {cl : Clerk} (cause clerk code : Nat) (h : s.tlr.clerks.look c = some cl) (hst : cl.st ≠ .lost) :
    (s.freezeNow cause clerk code).clerk c = { cl with kept := cl.st, st := .frozen } := by
  unfold State.freezeNow
  extract_lets n t u v w
  have ht : t.tlr = s.tlr := State.raise_tlr ..
  have hu : u.tlr = s.tlr := by
    rw [← ht]
    show (if _ then _ else _ : State).tlr = _
    split
    · exact State.raise_tlr ..
    · rfl
  have hw : w.tlr.clerks = s.tlr.clerks.mapVals fun _ => Clerk.held := congrArg (fun x : Tlr => x.clerks.mapVals fun _ => Clerk.held) hu
  show w.tlr.clerks.lookD c Clerk.idle = _
  rw [hw, Tbl.lookD, Tbl.look_mapVals, h]
  simp [Clerk.held, hst]

/-- Settles O28: the fences and FREEZE move the pc of their own clerk, FENCE.D only without outstanding stores; TRAP ends the run, or raises
BREAK, which the trap entry takes where the image has one and no handler runs. -/
theorem fencesAndTraps : Obligations.FencesAndTraps := by
  unfold Obligations.FencesAndTraps
  refine ⟨?fenceM, ?fenceN, ?fenceD, ?trapExit, ?brk, ?freeze⟩
  case fenceM => exact fun c s ix h => .of_issues rfl h rfl
  case fenceN =>
    intro c s ix h
    refine .of_issues rfl h ?_
    obtain ⟨rfl, -⟩ := State.issuer_eq h.1
    exact State.advance_issuer h.1
  case fenceD =>
    intro c s ix h
    refine .of_issues rfl h ?_
    split <;> rfl
  case trapExit => exact fun c s ix h hcode => .of_issues rfl (h.and (decide_eq_true hcode)) (State.endRun_runEnds h.1 ..)
  case brk =>
    intro c s ix h hcode
    refine .of_issues rfl (h.and (decide_eq_true hcode)) ?_
    by_cases hentry : ix.img.trapEntry = true ∧ ix.cl.handler = false
    · rw [if_pos hentry]
      obtain ⟨hstarts, hrec⟩ := State.trap_handlerStarts h.1 .brk (wCode ix.w) ix.cl.pc 0 (by simp [TrapClass.entryTakes, hentry])
      exact ⟨hrec, hstarts⟩
    · rw [if_neg hentry]
      obtain ⟨hends, hrec⟩ := State.trap_runEnds h.1 .brk (wCode ix.w) ix.cl.pc 0
        (by simpa [TrapClass.entryTakes] using hentry) (by decide)
      exact ⟨hrec, hends⟩
  case freeze =>
    intro c s ix h hwants hright hpwr hdef
    refine .of_issues rfl h ?_
    obtain ⟨-, hcl, -, -, -, hready, hlive, -⟩ := State.issuer_eq h.1
    have hst : ix.cl.st = .ready := hcl ▸ hready
    simp only [hwants, hright, Bool.and_self, if_true, State.advance_issuer h.1]
    rw [State.requestFreeze_now (s := s.setClerk c _) 3 c (wCode ix.w) hlive hdef hpwr]
    obtain ⟨hfrozen, hcause, hclerk, hcode⟩ := State.freezeNow_frz (s.setClerk c { ix.cl with pc := ix.cl.pc + 8 }) 3 c (wCode ix.w)
    refine ⟨hfrozen, hcause, hclerk, hcode, ?_, ?_⟩
    · rw [State.freezeNow_clerk 3 c (wCode ix.w) (Tbl.look_put_same ..) (by simp [hst]), hst]
    · rw [State.freezeNow_mem]
      rfl

end Sys2Proof.Machine

namespace Sys2Proof.Machine

/-! ### Loads, stores and atomics (R41, R42, R206) -/

theorem natLe_length (n v : Nat) : (natLe n v).length = n := by
  induction n generalizing v with
  | zero => rfl
  | succ n ih => rw [natLe, List.length_cons, ih]

/-- The number in the `n` bytes of a number is that number modulo their width. -/
theorem leNat_natLe (n v : Nat) : leNat (natLe n v) = v % 2 ^ (8 * n) := by
  induction n generalizing v with
  | zero => simp [natLe, leNat, Nat.mod_one]
  | succ n ih =>
    have hpow : 2 ^ (8 * (n + 1)) = 256 * 2 ^ (8 * n) := by rw [Nat.mul_succ, Nat.pow_add, Nat.mul_comm]
    rw [natLe, leNat, ih, BitVec.toNat_ofNat, hpow, Nat.mod_mul]

/-- The bytes just written are read. -/
theorem readBytes_writeBytes (bs : List Byte) : ∀ (m : List Host.Cell) (a : Nat), Memory.wf m = true →
    readBytes (writeBytes m a bs) a bs.length = bs := by
  induction bs with
  | nil => intro m a _; rfl
  | cons b bs ih =>
    intro m a h
    have hwf := memWrite_wf m a b h
    rw [List.length_cons, readBytes, writeBytes, ih _ _ hwf, memRead_writeBytes_outside _ _ _ _ hwf (.inl (Nat.lt_succ_self a)),
      memRead_memWrite m a b a h, if_pos rfl]

/-- A write to clean memory: the bytes stand there, the others stay, and nothing but memory and the records of its failures changes. -/
theorem State.writeMem_written {s : State} {key : Nat} {bs : List Byte} (h : s.CleanAt key bs.length) (hwf : Memory.wf s.mem = true) :
    (s.writeMem key bs).1.bytesAt key bs.length = bs ∧ BytesKept key bs.length s (s.writeMem key bs).1 := by
  obtain ⟨-, hmem, -⟩ := State.writeMem_clean h
  refine ⟨?_, fun k hk => ?_⟩
  · rw [State.bytesAt, hmem, readBytes_writeBytes bs s.mem key hwf]
  · rw [hmem, memRead_writeBytes_outside s.mem key bs k hwf hk]

/-- What a store or an atomic leaves of the state once its clerk retires. -/
theorem State.writeMem_retire {s : State} {key : Nat} {bs : List Byte} (h : s.CleanAt key bs.length) (c : Nat) (cl : Clerk) :
    ((s.writeMem key bs).1.retire c cl).clerk c = { cl with pc := cl.pc + 8 } ∧
    (∀ d, d ≠ c → ((s.writeMem key bs).1.retire c cl).clerk d = s.clerk d) ∧
    (s.writeMem key bs).1.retire c cl =
      { s with mem := ((s.writeMem key bs).1.retire c cl).mem, badSyms := ((s.writeMem key bs).1.retire c cl).badSyms,
               poison := ((s.writeMem key bs).1.retire c cl).poison,
               tlr := { s.tlr with clerks := ((s.writeMem key bs).1.retire c cl).tlr.clerks } } := by
  obtain ⟨-, -, hrest⟩ := State.writeMem_clean h
  have htlr : (s.writeMem key bs).1.tlr = s.tlr := (congrArg State.tlr hrest).trans rfl
  refine ⟨State.clerk_setClerk_same .., fun d hd => ?_, ?_⟩
  · rw [State.retire, State.clerk_setClerk_ne _ _ hd, State.clerk_of_tlr htlr]
  · rw [hrest]
    rfl

/-- An access of private memory that meets no protected page is made at once (R260). -/
theorem State.privAccess_unprotected {s : State} {ix : Ix} {key : Nat} (stack : Bool)
    (h : wMajor ix.w = 0x48 ∨ (s.protectedAt key).isEmpty = true) : s.privAccess ix key stack = s.clerkMem ix key stack := by
  rcases h with h | h <;> simp [State.privAccess, h]

/-- An access that reaches a private granule or the clerk's own stack passes the checks of R42. -/
theorem doMem_private {s : State} {ix : Ix} {key : Nat} (h : PrivateAccess s ix key)
    (hprot : wMajor ix.w = 0x48 ∨ (s.protectedAt key).isEmpty = true) : ∃ stack, doMem ix s = s.clerkMem ix key stack := by
  obtain ⟨off, hspace, hbase, halign, ⟨hgranule, hkey, hlast⟩ | ⟨hstacks, hown, hkey⟩⟩ := h
  · obtain ⟨last, hlast⟩ := Option.isSome_iff_exists.mp hlast
    refine ⟨false, ?_⟩
    rw [← State.privAccess_unprotected false hprot]
    simp [doMem, hspace, hbase, halign, hgranule, hkey, hlast]
  · refine ⟨true, ?_⟩
    rw [← State.privAccess_unprotected true hprot]
    simp [doMem, hspace, hbase, halign, hstacks, hown, hkey]

/-- A load from clean memory writes its destination (R206). -/
theorem State.clerkMem_load {s : State} {ix : Ix} {key : Nat} (stack : Bool) (hm : wMajor ix.w = 0x48) (h : s.CleanAt key ix.memBytes) :
    s.clerkMem ix key stack =
      s.retire ix.c (ix.cl.setRegBytes (wSize ix.w) (wRD ix.w) (ix.w.getLsbD 26) (s.bytesAt key ix.memBytes)) := by
  simp [State.clerkMem, hm, State.readMem_clean h]

/-- A store to clean memory writes the register's bytes (R206). -/
theorem State.clerkMem_store {s : State} {ix : Ix} {key : Nat} (stack : Bool) (hm : wMajor ix.w = 0x49)
    (h : s.CleanAt key (ix.cl.regBytes ix.img.compat (wSize ix.w) (wRB ix.w)).length) :
    s.clerkMem ix key stack = (s.writeMem key (ix.cl.regBytes ix.img.compat (wSize ix.w) (wRB ix.w))).1.retire ix.c ix.cl := by
  obtain ⟨hok, -⟩ := State.writeMem_clean h
  simp [State.clerkMem, hm, hok]

/-- The value an AMO that finds memory as in `s` writes. -/
def Ix.amoValue (ix : Ix) (s : State) (key : Nat) : Nat :=
  amoNew (wf ix.w 26 2) ix.memBytes (s.numAt key ix.memBytes) (leNat (ix.cl.regBytes false (wSize ix.w) (wRB ix.w)))
    (leNat (ix.cl.regBytes false (wSize ix.w) (wRC ix.w)))

/-- An atomic on clean memory writes its value there and returns the old one (R206). -/
theorem State.clerkMem_atomic {s : State} {ix : Ix} {key : Nat} (stack : Bool) (hm : wMajor ix.w = 0x4A) (h : s.CleanAt key ix.memBytes) :
    s.clerkMem ix key stack = (s.writeMem key (natLe ix.memBytes (ix.amoValue s key))).1.retire ix.c
      (ix.cl.setRegBytes (wSize ix.w) (wRD ix.w) false (s.bytesAt key ix.memBytes)) := by
  obtain ⟨hok, -⟩ := State.writeMem_clean (bs := natLe ix.memBytes (ix.amoValue s key)) (by rwa [natLe_length])
  have hok' := hok
  rw [Ix.amoValue, State.numAt] at hok'
  simp [State.clerkMem, hm, State.readMem_clean h, hok', Ix.amoValue, State.numAt]

theorem Clerk.pc_setRegBytes (cl : Clerk) (size r : Nat) (sx : Bool) (bs : List Byte) : (cl.setRegBytes size r sx bs).pc = cl.pc := by
  unfold Clerk.setRegBytes
  dsimp only
  split <;> simp [Clerk.pc_setS]

/-- Settles O29: each access passes the checks of its space and is made on clean memory, so that a load changes its destination alone, and a
store and an atomic the bytes named and the clerk. -/
theorem loadsStoresAndAtomics : Obligations.LoadsStoresAndAtomics := by
  unfold Obligations.LoadsStoresAndAtomics
  refine ⟨?load, ?store, ?atomic, ?readOnly⟩
  case load =>
    intro c s ix key h hro hpriv hclean
    have hm := isMajor_iff.mp h.2.2.1
    obtain ⟨stack, hmem⟩ := doMem_private hpriv (.inl hm)
    refine .of_issues rfl h ?_
    obtain ⟨rfl, -⟩ := State.issuer_eq h.1
    rw [doLd, hro, if_neg Bool.false_ne_true, hmem, State.clerkMem_load stack hm hclean, State.retire, Clerk.pc_setRegBytes]
  case store =>
    intro c s ix key h hpriv hprot hclean hwf
    obtain ⟨stack, hmem⟩ := doMem_private hpriv (.inr hprot)
    refine .of_issues rfl h ?_
    obtain ⟨rfl, -⟩ := State.issuer_eq h.1
    rw [hmem, State.clerkMem_store stack (isMajor_iff.mp h.2.2.1) hclean]
    obtain ⟨hbytes, hkept⟩ := State.writeMem_written hclean hwf
    exact ⟨hbytes, hkept, State.writeMem_retire hclean ..⟩
  case atomic =>
    intro c s ix key h hpriv hprot hclean hwf
    obtain ⟨stack, hmem⟩ := doMem_private hpriv (.inr hprot)
    refine .of_issues rfl h ?_
    obtain ⟨rfl, -⟩ := State.issuer_eq h.1
    rw [hmem, State.clerkMem_atomic stack (isMajor_iff.mp h.2.2.1) hclean]
    have hlen := natLe_length ix.memBytes (ix.amoValue s key)
    have hclean' : s.CleanAt key (natLe ix.memBytes (ix.amoValue s key)).length := by rwa [hlen]
    obtain ⟨hbytes, hkept⟩ := State.writeMem_written hclean' hwf
    obtain ⟨hclerk, hrest⟩ := State.writeMem_retire hclean' ix.c
      (ix.cl.setRegBytes (wSize ix.w) (wRD ix.w) false (s.bytesAt key ix.memBytes))
    rw [Clerk.pc_setRegBytes] at hclerk
    rw [hlen] at hbytes hkept
    refine ⟨?_, hkept, hclerk, hrest⟩
    change leNat ((s.writeMem key (natLe ix.memBytes (ix.amoValue s key))).1.bytesAt key ix.memBytes) % _ = ix.amoValue s key % _
    rw [hbytes, leNat_natLe, Nat.mod_mod]
  case readOnly =>
    intro c s ix h hro hin halign
    refine .of_issues rfl h ?_
    obtain ⟨rfl, -⟩ := State.issuer_eq h.1
    have hpast : ¬ ix.img.rodata.length < ix.addr.toNat + ix.memBytes := by omega
    simp [doLd, hro, doLoadRo, hpast, halign, State.retire, Clerk.pc_setRegBytes]

end Sys2Proof.Machine

namespace Sys2Proof.Machine

/-! ### WAIT, SIGNAL and YIELD (R46, R47, R213, R214) -/

theorem State.consumeSlot_clerk (s : State) (c k : Nat) : (s.consumeSlot c k).clerk c = (s.clerk c).consumed k :=
  State.clerk_setClerk_same s c _

theorem State.consumeSlot_other (s : State) {c d : Nat} (k : Nat) (h : d ≠ c) : (s.consumeSlot c k).clerk d = s.clerk d :=
  State.clerk_setClerk_ne s _ h

theorem State.consumeSlot_regs (s : State) (c k : Nat) :
    (s.consumeSlot c k).regs = s.regs.put (.tlrClkRcptCon, c) (s.rd .tlrClkRcptCon c + 1) := rfl

/-- The clerk that has read a complete slot into its registers and goes on. -/
def Clerk.received (cl : Clerk) (w : Word) (k : Nat) : Clerk :=
  let cl' := ((cl.setS (wRD w) (cl.slot k).word0).setS (wRB w) (cl.slot k).word1).setP (wPDw w) true
  { cl' with pc := cl'.pc + 8, waitUntil := none }

/-- WAIT consumes a complete Receipt that brings no handle (R214). -/
theorem doWait_consumes {ix : Ix} {s : State} {k : Nat} (htag : s.ownTag ix.c (ix.cl.s (wRA ix.w)) = some k)
    (hcomplete : (ix.cl.slot k).complete = true) (hopen : (ix.cl.slot k).openH = none) :
    doWait ix s = (s.setClerk ix.c (ix.cl.received ix.w k)).consumeSlot ix.c k := by
  simp [doWait, htag, hcomplete, doConsume, hopen, Clerk.received]

/-- The words of the slot stand in the registers of the clerk that has read it, s[RE] written last (R214). -/
theorem Clerk.received_s (cl : Clerk) (w : Word) (k i : Nat) : ((cl.received w k).consumed k).s i =
    if i = wRB w ∧ wRB w ≠ 0 then (cl.slot k).word1 else if i = wRD w ∧ wRD w ≠ 0 then (cl.slot k).word0 else cl.s i := by
  change ((Clerk.setS _ _ _).setP _ _).s i = _
  rw [Clerk.s_setP, Clerk.s_setS, Clerk.s_setS]

theorem Clerk.received_p (cl : Clerk) (w : Word) (k i : Nat) : ((cl.received w k).consumed k).p i =
    if i = wPDw w ∧ wPDw w ≠ 0 then true else cl.p i := by
  change (Clerk.setP _ _ _).p i = _
  rw [Clerk.p_setP, Clerk.p_setS, Clerk.p_setS]

theorem Clerk.received_pc (cl : Clerk) (w : Word) (k : Nat) : ((cl.received w k).consumed k).pc = cl.pc + 8 := by
  change (Clerk.setP _ _ _).pc + 8 = _
  rw [Clerk.pc_setP, Clerk.pc_setS, Clerk.pc_setS]

/-- WAIT on an incomplete Receipt makes the clerk wait for it (R214). -/
theorem doWait_waits {ix : Ix} {s : State} {k : Nat} (htag : s.ownTag ix.c (ix.cl.s (wRA ix.w)) = some k)
    (hincomplete : (ix.cl.slot k).complete = false) :
    doWait ix s = s.setClerk ix.c { ix.cl with st := .waiting, waitFor := some (.receipt k), waitUntil := s.timeoutAt (wTimeout ix.w) } := by
  simp [doWait, htag, hincomplete]

/-- WAIT on a tag that is not the clerk's raises RECEIPT (R214). -/
theorem doWait_traps {ix : Ix} {s : State} (htag : s.ownTag ix.c (ix.cl.s (wRA ix.w)) = none) :
    doWait ix s = s.trap ix.c .receipt 0 ix.cl.pc 0 := by
  simp [doWait, htag]

theorem State.timedOut_of_le {s : State} {cl : Clerk} {t0 : Nat} (h : cl.waitUntil = some t0) (ht : t0 ≤ s.now) : s.timedOut cl = true := by
  simp [State.timedOut, h, ht]

/-- The clerk whose WAIT or YIELD, with its predicate in `pd`, has timed out (R213, R214). -/
def Clerk.gaveUp (cl : Clerk) (pd : Nat) : Clerk :=
  { cl.setP pd false with st := .ready, waitFor := none, waitUntil := none, pc := (cl.setP pd false).pc + 8 }

theorem exec_waitTimeout {s : State} {c k t0 : Nat} {r : Run} {img : Image} (hlive : s.Live) (hfor : (s.clerk c).waitFor = some (.receipt k))
    (hrun : (s.clerk c).run = some r) (himg : s.tlr.images.look r.slot = some img) (hst : (s.clerk c).st = .waiting)
    (hinc : ((s.clerk c).slot k).complete = false) (huntil : (s.clerk c).waitUntil = some t0) (ht : t0 ≤ s.now) :
    exec (.waitTimeout c) s = .next (s.setClerk c ((s.clerk c).gaveUp (wPDw (img.wordAt (s.clerk c).pc)))) := by
  change execWaitTimeout c s = _
  simp [execWaitTimeout, State.whenLive_eq, hlive, hfor, hrun, himg, hst, hinc, State.timedOut_of_le huntil ht, Clerk.gaveUp]

theorem State.look_updSignal_same {s : State} {i : Nat} {g : Signal} (f : Signal → Signal) (h : s.tlr.signals.look i = some g) :
    (s.updSignal i f).tlr.signals.look i = some (f g) := by
  change (s.tlr.signals.upd i f).look i = _
  rw [Tbl.look_upd_same, h]
  rfl

theorem State.look_updSignal_ne (s : State) {i j : Nat} (f : Signal → Signal) (h : j ≠ i) :
    (s.updSignal i f).tlr.signals.look j = s.tlr.signals.look j := Tbl.look_upd_ne _ f h

/-- A signal nobody waits for is left alone by its service. -/
theorem serveSignal_of_no_waiters {s : State} {i : Nat} {g : Signal} (fuel : Nat) (h : s.tlr.signals.look i = some g) (hw : g.waiters = []) :
    serveSignal i fuel s = s := by
  cases fuel with
  | zero => rfl
  | succ fuel => simp [serveSignal, h, hw]

/-- A waiter that asks for more than the count stays (R213). -/
theorem serveSignal_of_short {s : State} {i c amount pd : Nat} {g : Signal} {rest : List (Nat × Nat × Nat)} (fuel : Nat)
    (h : s.tlr.signals.look i = some g) (hw : g.waiters = (c, amount, pd) :: rest) (hshort : g.count < amount) : serveSignal i fuel s = s := by
  cases fuel with
  | zero => rfl
  | succ fuel => simp [serveSignal, h, hw, hshort]

/-- The clerk whose YIELD has taken its amount (R213). -/
def Clerk.served (cl : Clerk) (pd : Nat) : Clerk :=
  { cl.setP pd true with st := .ready, waitFor := none, waitUntil := none, pc := (cl.setP pd true).pc + 8 }

/-- The only waiter of a signal that has its amount is served (R213). -/
theorem serveSignal_one {s : State} {i c amount pd : Nat} {g : Signal} (fuel : Nat) (h : s.tlr.signals.look i = some g)
    (hw : g.waiters = [(c, amount, pd)]) (henough : amount ≤ g.count) :
    serveSignal i (fuel + 1) s =
      (s.setClerk c ((s.clerk c).served pd)).updSignal i fun g => { g with count := g.count - amount, waiters := [] } := by
  have hnot : ¬ g.count < amount := by omega
  rw [serveSignal]
  simp only [h, hw, hnot, if_false]
  exact serveSignal_of_no_waiters fuel (State.look_updSignal_same (s := s.setClerk c _) _ h) rfl

theorem State.updSignal_clerk (s : State) (i : Nat) (f : Signal → Signal) (c : Nat) : (s.updSignal i f).clerk c = s.clerk c := rfl

/-- The signal that the handle register in field `H` names. -/
def Ix.signal (ix : Ix) (i : Nat) : Nat := sigIndex (hObj (ix.cl.h i))

/-- SIGNAL on a signal without waiters adds to its count and retires (R213). -/
theorem doSignal_counts {ix : Ix} {s : State} {g : Signal} (hcheck : s.checkSignal ix (wH ix.w) rtWrite = none)
    (hg : s.tlr.signals.look (ix.signal (wH ix.w)) = some g) (hw : g.waiters = []) :
    doSignal ix s = (s.updSignal (ix.signal (wH ix.w)) fun g =>
      { g with count := min (g.count + (ix.cl.s (wLRA ix.w)).toNat) (2 ^ 64 - 1) }).retire ix.c ix.cl := by
  simp only [doSignal, hcheck]
  exact serveSignal_of_no_waiters (g := { g with count := min (g.count + (ix.cl.s (wLRA ix.w)).toNat) (2 ^ 64 - 1) }) 4096
    (State.look_updSignal_same _ hg) hw

/-- The clerk that waits in the queue of signal `i`. -/
def Clerk.queuedOn (cl : Clerk) (i : Nat) (until_ : Option Nat) : Clerk :=
  { cl with st := .waiting, waitFor := some (.signal i), waitUntil := until_ }

/-- The state in which a YIELD on a signal has joined its queue, before the queue is served (R213). -/
def State.joined (s : State) (ix : Ix) : State :=
  (s.updSignal (ix.signal (wHw ix.w)) fun g => { g with waiters := g.waiters ++ [(ix.c, (ix.cl.s (wRA ix.w)).toNat, wPDw ix.w)] }).setClerk ix.c
    (ix.cl.queuedOn (ix.signal (wHw ix.w)) (s.timeoutAt (wTimeout ix.w)))

theorem doYield_joins {ix : Ix} {s : State} (huse : wUseH ix.w = true) (hcheck : s.checkSignal ix (wHw ix.w) rtRead = none) :
    doYield ix s = serveSignal (ix.signal (wHw ix.w)) 4096 (s.joined ix) := by
  simp only [doYield, huse, if_true, hcheck]
  rfl

theorem State.joined_signal {s : State} {ix : Ix} {g : Signal} (hg : s.tlr.signals.look (ix.signal (wHw ix.w)) = some g) (hw : g.waiters = []) :
    (s.joined ix).tlr.signals.look (ix.signal (wHw ix.w)) =
      some { g with waiters := [(ix.c, (ix.cl.s (wRA ix.w)).toNat, wPDw ix.w)] } := by
  refine (State.look_updSignal_same _ hg).trans ?_
  rw [hw]
  rfl

theorem State.joined_clerk (s : State) (ix : Ix) :
    (s.joined ix).clerk ix.c = ix.cl.queuedOn (ix.signal (wHw ix.w)) (s.timeoutAt (wTimeout ix.w)) := State.clerk_setClerk_same ..

/-- A clerk that gives up its WAIT or YIELD has its predicate cleared and is otherwise as before, READY at the next word. -/
theorem Clerk.gaveUp_eq (cl : Clerk) (pd : Nat) :
    cl.gaveUp pd = { cl with preg := (cl.gaveUp pd).preg, st := .ready, waitFor := none, waitUntil := none, pc := cl.pc + 8 } := by
  unfold Clerk.gaveUp
  rw [Clerk.setP_eq]

theorem Clerk.gaveUp_p (cl : Clerk) (pd i : Nat) : (cl.gaveUp pd).p i = if i = pd ∧ pd ≠ 0 then false else cl.p i := Clerk.p_setP ..

theorem Clerk.served_p (cl : Clerk) (pd : Nat) : (cl.served pd).p pd = true := by
  change (cl.setP pd true).p pd = true
  rw [Clerk.p_setP]
  by_cases h : pd = 0
  · simp [h, Clerk.p]
  · simp [h]

theorem Clerk.served_pc (cl : Clerk) (pd : Nat) : (cl.served pd).pc = cl.pc + 8 := congrArg (· + 8) (Clerk.pc_setP ..)

/-- The predicate of the YIELD with which clerk `c` stands in the queue of signal `i`; p0 where it does not. -/
def State.waiterPred (s : State) (i c : Nat) : Nat :=
  match s.tlr.signals.look i with
  | none => 0
  | some g => match g.waiters.find? (fun w => decide (w.1 = c)) with
    | none => 0
    | some w => w.2.2

theorem State.waiterPred_of_one {s : State} {i c a pd : Nat} {g : Signal} (h : s.tlr.signals.look i = some g) (hw : g.waiters = [(c, a, pd)]) :
    s.waiterPred i c = pd := by
  simp [State.waiterPred, h, hw]

theorem exec_yieldTimeout {s : State} {c i t0 : Nat} (hlive : s.Live) (hfor : (s.clerk c).waitFor = some (.signal i))
    (hst : (s.clerk c).st = .waiting) (huntil : (s.clerk c).waitUntil = some t0) (ht : t0 ≤ s.now) :
    exec (.yieldTimeout c) s = .next ((s.leaveSignals c).setClerk c ((s.clerk c).gaveUp (s.waiterPred i c))) := by
  change execYieldTimeout c s = _
  simp [execYieldTimeout, State.whenLive_eq, hlive, hfor, hst, State.timedOut_of_le huntil ht]
  rfl

/-- The only waiter that leaves a signal's queue leaves the count as it is (R213). -/
theorem State.leaveSignals_one {s : State} {c i a pd : Nat} {g : Signal} (hfor : (s.clerk c).waitFor = some (.signal i))
    (hg : s.tlr.signals.look i = some g) (hw : g.waiters = [(c, a, pd)]) :
    (s.leaveSignals c).tlr.signals.look i = some { g with waiters := [] } := by
  have hleft := State.look_updSignal_same (fun g => { g with waiters := g.waiters.filter fun w => decide (w.1 ≠ c) }) hg
  have hempty : g.waiters.filter (fun w => decide (w.1 ≠ c)) = [] := by simp [hw]
  simp only [hempty] at hleft
  simp only [State.leaveSignals, hfor]
  rw [serveSignal_of_no_waiters 4096 hleft rfl, hleft]

/-- Settles O30: WAIT consumes, waits or traps by the slot its tag names; a timeout gives up the predicate alone; SIGNAL and YIELD change the
count and the queue of one signal and their own clerk. -/
theorem waitingAndSignals : Obligations.WaitingAndSignals := by
  unfold Obligations.WaitingAndSignals
  refine ⟨?consumes, ?waits, ?traps, ?waitTimeout, ?signal, ?yield, ?yieldOn, ?yieldTimeout⟩
  case consumes =>
    intro c s ix k h htag hcomplete hopen
    refine .of_issues rfl h ?_
    obtain ⟨rfl, -⟩ := State.issuer_eq h.1
    rw [doWait_consumes htag hcomplete hopen]
    have hclerk : ((s.setClerk ix.c (ix.cl.received ix.w k)).consumeSlot ix.c k).clerk ix.c = (ix.cl.received ix.w k).consumed k := by
      rw [State.consumeSlot_clerk, State.clerk_setClerk_same]
    rw [hclerk]
    refine ⟨Clerk.received_s _ _ _, Clerk.received_p _ _ _, Clerk.received_pc _ _ _, ?_, ?_, ?_, rfl, fun d hd => ?_⟩
    · exact congrArg Slot.occupied (Clerk.slot_setSlot_same ..)
    · exact State.rd_count ..
    · exact RegsKept.of_put (State.consumeSlot_regs ..)
    · rw [State.consumeSlot_other _ k hd, State.clerk_setClerk_ne _ _ hd]
  case waits =>
    intro c s ix k h htag hinc
    refine .of_issues rfl h ?_
    obtain ⟨rfl, -⟩ := State.issuer_eq h.1
    exact doWait_waits htag hinc
  case traps =>
    intro c s ix h htag
    refine .of_issues rfl h ?_
    have hix := h.1
    obtain ⟨rfl, -⟩ := State.issuer_eq hix
    rw [doWait_traps htag]
    exact State.trap_runEnds hix .receipt 0 ix.cl.pc 0 rfl (by decide)
  case waitTimeout =>
    intro c k t0 s r img hlive hfor hrun himg hst hinc huntil ht
    refine ⟨_, exec_waitTimeout hlive hfor hrun himg hst hinc huntil ht, fun i => ?_, ?_, fun d hd => State.clerk_setClerk_ne _ _ hd, rfl⟩ <;>
      rw [State.clerk_setClerk_same]
    · rw [Clerk.gaveUp_p]
      exact if_congr (and_congr_right fun hi => by rw [hi]) rfl rfl
    · exact Clerk.gaveUp_eq ..
  case signal =>
    intro c s ix g h hcheck hg hw
    refine .of_issues rfl h ?_
    obtain ⟨rfl, -⟩ := State.issuer_eq h.1
    rw [doSignal_counts hcheck hg hw]
    exact ⟨State.look_updSignal_same _ hg, fun j hj => State.look_updSignal_ne _ _ hj, State.clerk_setClerk_same ..,
      fun d hd => State.clerk_setClerk_ne _ _ hd, rfl⟩
  case yield =>
    intro c s ix h huse
    refine .of_issues rfl h ?_
    obtain ⟨rfl, -⟩ := State.issuer_eq h.1
    simp [doYield, huse, State.retire]
  case yieldOn =>
    intro c s ix g h huse hcheck hg hw
    refine .of_issues rfl h ?_
    obtain ⟨rfl, -⟩ := State.issuer_eq h.1
    rw [doYield_joins huse hcheck]
    have hjoined := State.joined_signal hg hw
    split
    next henough =>
      rw [serveSignal_one 4095 hjoined rfl henough, State.joined_clerk, State.updSignal_clerk, State.clerk_setClerk_same]
      refine ⟨?_, Clerk.served_p _ _, rfl, Clerk.served_pc _ _⟩
      rw [hw]
      exact (State.look_updSignal_same (s := (s.joined ix).setClerk _ _) _ hjoined).trans rfl
    next hshort =>
      rw [serveSignal_of_short 4096 hjoined rfl (Nat.lt_of_not_le hshort)]
      exact ⟨hjoined, State.joined_clerk s ix⟩
  case yieldTimeout =>
    intro c i t0 s hlive hfor hst huntil ht
    refine ⟨_, exec_yieldTimeout hlive hfor hst huntil ht, ?_⟩
    dsimp only
    rw [State.clerk_setClerk_same]
    refine ⟨rfl, ?_, rfl, fun k => Clerk.s_setP .., fun g a pd hg hw => ⟨?_, State.leaveSignals_one hfor hg hw⟩⟩
    · rw [Clerk.gaveUp_eq]
    · rw [State.waiterPred_of_one hg hw, Clerk.gaveUp_p]
      by_cases hpd : pd = 0
      · simp [hpd, Clerk.p]
      · simp [hpd]

end Sys2Proof.Machine

namespace Sys2Proof.Machine

/-! ### Which operations of the session store leave the clerks alone -/

theorem State.setDirty_tlr (s : State) (src : DirtySrc) (n : Nat) : (s.setDirty src n).tlr = s.tlr := by
  unfold State.setDirty
  extract_lets t d u v
  have hv : v.tlr = s.tlr := by
    unfold v
    split <;> rfl
  split <;> exact hv

theorem State.updCust_tlr (s : State) (c : Nat) (f : Customer → Customer) : (s.updCust c f).tlr = s.tlr := by
  unfold State.updCust
  dsimp only
  split
  · rfl
  · exact s.setDirty_tlr ..

theorem State.chargeRent_tlr (s : State) (c : Nat) : (s.chargeRent c).tlr = s.tlr := by
  unfold State.chargeRent
  dsimp only
  split
  · exact (State.raise_tlr ..).trans (s.updCust_tlr ..)
  · exact s.updCust_tlr ..

theorem State.setDirty_ssn (s : State) (src : DirtySrc) (n : Nat) : (s.setDirty src n).ssn = s.ssn := by
  unfold State.setDirty
  extract_lets t d u v
  have hv : v.ssn = s.ssn := by
    unfold v
    split <;> rfl
  split <;> exact hv

theorem State.updCust_ssn (s : State) (c : Nat) (f : Customer → Customer) : (s.updCust c f).ssn = s.ssn := by
  unfold State.updCust
  dsimp only
  split
  · rfl
  · exact s.setDirty_ssn ..

/-- Rent is charged to the customer's record, not to its sessions (R139). -/
theorem State.chargeRent_ssn (s : State) (c : Nat) : (s.chargeRent c).ssn = s.ssn := by
  unfold State.chargeRent
  dsimp only
  split
  · exact (State.raise_ssn ..).trans (s.updCust_ssn ..)
  · exact s.updCust_ssn ..

theorem State.pgMoveN_tlr (s : State) (m : Nat) (a b : PgCount) (n : Nat) : (s.pgMoveN m a b n).tlr = s.tlr := by
  unfold State.pgMoveN
  split <;> rfl

theorem State.freeFrame_tlr (s : State) (m f : Nat) (c : PgCount) : (s.freeFrame m f c).tlr = s.tlr := by
  unfold State.freeFrame
  split
  · split <;> rfl
  · exact State.pgMoveN_tlr ..

theorem State.dropPages_tlr (s : State) (i : Nat) (p : KvPage → Bool) : (s.dropPages i p).tlr = s.tlr := by
  unfold State.dropPages
  split
  · rfl
  · refine foldl_kept State.tlr (fun t q => ?_) _ s
    split
    · exact t.freeFrame_tlr ..
    · rfl

theorem State.setSb_tlr (s : State) (i : Nat) (x : Sb) : (s.setSb i x).tlr = s.tlr := by
  unfold State.setSb
  grind [State.onFls_tlr, State.setFld_tlr, State.wr_tlr]

theorem State.setEntry_tlr (s : State) (u : Nat) (e : Option MapEnt) : (s.setEntry u e).tlr = s.tlr := by
  unfold State.setEntry
  grind [State.onFls_tlr, State.setSb_tlr, State.wr_tlr]

theorem State.reopenPool_tlr (s : State) : s.reopenPool.tlr = s.tlr := by
  unfold State.reopenPool
  split
  · exact (State.trace_kept ..).2.1
  · rfl

theorem State.discardUnits_tlr (s : State) (us : List Nat) : (s.discardUnits us).tlr = s.tlr := by
  unfold State.discardUnits
  refine (State.reopenPool_tlr _).trans (foldl_kept State.tlr (fun t u => ?_) us s)
  dsimp only
  split
  · rfl
  · exact (State.setDirty_tlr ..).trans (t.setEntry_tlr u none)

theorem State.dropExtent_tlr (s : State) (e : Nat) : (s.dropExtent e).tlr = s.tlr := by
  unfold State.dropExtent
  split
  · rfl
  · exact s.discardUnits_tlr _

theorem State.leaveStep_tlr (s : State) (i status : Nat) : (s.leaveStep i status).tlr = s.tlr := by
  unfold State.leaveStep
  extract_lets mine t u v
  split
  · rfl
  · exact (t.dropPages_tlr ..).trans (foldl_kept State.tlr (fun r e => r.updCust_tlr ..) mine s)

theorem State.sweepTables_tlr (s : State) : s.sweepTables.tlr = s.tlr := by
  unfold State.sweepTables
  extract_lets named t ident vgone ggone u w kib
  have hu : u.tlr = t.tlr := foldl_kept State.tlr (fun _ _ => by rfl) vgone t
  have hw : w.tlr = u.tlr := foldl_kept State.tlr (fun _ _ => by rfl) ggone u
  exact Eq.trans (foldl_kept State.tlr (fun _ _ => by rfl) w.hubsUp w) (hw.trans hu)

/-- A session freed is gone from the store (R59). -/
theorem State.freeSession_sess (s : State) (i : Nat) : (s.freeSession i).sess i = none := by
  unfold State.freeSession
  split
  · assumption
  · dsimp only
    rw [State.sess, State.sweepTables_ssn]
    exact Tbl.look_del_same ..

/-- A session freed leaves the clerks alone. -/
theorem State.freeSession_tlr (s : State) (i : Nat) : (s.freeSession i).tlr = s.tlr := by
  unfold State.freeSession
  split
  · rfl
  · rename_i x hx
    extract_lets t u v w g
    have ht : t.tlr = s.tlr := (State.dropPages_tlr ..).trans (s.leaveStep_tlr ..)
    have hu : u.tlr = t.tlr := foldl_kept State.tlr (fun r e => r.dropExtent_tlr e) _ t
    have hv : v.tlr = u.tlr := u.setDirty_tlr ..
    have hw : w.tlr = v.tlr := State.onDfb_tlr ..
    exact (State.sweepTables_tlr _).trans ((State.onSsn_tlr ..).trans (hw.trans (hv.trans (hu.trans ht))))

/-! ### Long instructions through a handle (R209) -/

theorem State.issued_slot (s : State) (ix : Ix) (kind : OpKind) (hs : List Nat) (n : Nat) :
    ((s.issued ix kind hs n).clerk ix.c).slot n =
      { serial := ix.nextSerial n, occupied := true, complete := false, word0 := 0, word1 := 0, openH := none, via := ix.insts hs,
        op := kind, result := none, cancel := none } := by
  rw [State.issued]
  change ((State.setClerk _ _ _).clerk ix.c).slot n = _
  rw [State.clerk_setClerk_same]
  change (Clerk.setS _ _ _).slot n = _
  rw [Clerk.setS_eq]
  exact Clerk.slot_setSlot_same ..

theorem State.issued_fld (s : State) (ix : Ix) (kind : OpKind) (hs : List Nat) (n : Nat) {f : Fld} (i : Nat) (h : f.reg ≠ .tlrClkRcptIss) :
    (s.issued ix kind hs n).fld f i = s.fld f i := congrArg f.get (s.issued_rd ix kind hs n i h)

/-- Issue leaves the controller's number and the names of sessions alone. -/
theorem State.issued_self (s : State) (ix : Ix) (kind : OpKind) (hs : List Nat) (n : Nat) : (s.issued ix kind hs n).self = s.self :=
  s.issued_fld ix kind hs n 0 (by decide)

theorem State.issued_identOf (s : State) (ix : Ix) (kind : OpKind) (hs : List Nat) (n i : Nat) (x : Session) :
    (s.issued ix kind hs n).identOf i x = s.identOf i x := by
  rw [State.identOf, State.issued_self]
  rfl

/-- Where the clerks are those of the issued state, the Receipt is taken and holds no result yet. -/
theorem State.taken_of_tlr {s t : State} {c n : Nat} {ix : Ix} {kind : OpKind} {hs : List Nat} (hix : s.issuer c = some ix)
    (h : t.tlr = (s.issued ix kind hs n).tlr) : ReceiptTaken c ix n t ∧ t.slotResult c n = none := by
  obtain ⟨rfl, -⟩ := State.issuer_eq hix
  have hclerk : t.clerk ix.c = (s.issued ix kind hs n).clerk ix.c := State.clerk_of_tlr h ix.c
  obtain ⟨⟨hocc, hser, htag, hpc⟩, -⟩ := s.issued_clerk ix kind hs n
  rw [ReceiptTaken, State.slotResult, hclerk]
  exact ⟨⟨hocc, hser, htag, hpc⟩, congrArg Slot.result (s.issued_slot ix kind hs n)⟩

/-- Where the clerks are those of the issued state, the operation's result reaches the slot of the Receipt taken. -/
theorem State.finish_of_tlr {s t : State} {c n : Nat} {ix : Ix} {kind : OpKind} {hs : List Nat} (st : Status) (aux : Nat) (w1 : Word)
    (hix : s.issuer c = some ix) (h : t.tlr = (s.issued ix kind hs n).tlr) :
    ReceiptTaken c ix n (t.finish (ix.op c n) st aux w1) ∧ (t.finish (ix.op c n) st aux w1).slotResult c n = some (word0 st aux, w1) :=
  State.finish_taken st aux w1 rfl rfl rfl (State.taken_of_tlr hix h).1

/-- The same, before what else the operation leaves. -/
theorem State.finish_of_tlr_and {s t : State} {c n : Nat} {ix : Ix} {kind : OpKind} {hs : List Nat} {st : Status} {aux : Nat} {w1 : Word}
    {P : Prop} (hix : s.issuer c = some ix) (h : t.tlr = (s.issued ix kind hs n).tlr) (hP : P) :
    ReceiptTaken c ix n (t.finish (ix.op c n) st aux w1) ∧ (t.finish (ix.op c n) st aux w1).slotResult c n = some (word0 st aux, w1) ∧ P := by
  obtain ⟨htaken, hres⟩ := State.finish_of_tlr st aux w1 hix h
  exact ⟨htaken, hres, hP⟩

/-- A result posted changes the clerk of its Receipt alone. -/
theorem State.finish_eq (s : State) (o : Op) (st : Status) (aux : Nat) (w1 : Word) :
    s.finish o st aux w1 = { s with tlr := (s.finish o st aux w1).tlr } := by
  unfold State.finish State.finishR State.postResult
  dsimp only
  split <;> rfl

theorem State.finish_sess (s : State) (o : Op) (st : Status) (aux : Nat) (w1 : Word) (i : Nat) :
    (s.finish o st aux w1).sess i = s.sess i := by
  rw [State.finish_eq]
  rfl

/-- A long instruction whose handle passes the check of R39 has the effect of its operation on the state after issue, whatever kind of work
its Receipt stands for. -/
theorem Completes.of_issuesOn {i : Instr} {s : State} {c n : Nat} {ix : Ix} {p : Ix → Bool} {tys : List Nat} {need : Nat} {kind : Ix → OpKind}
    {k : Op → Handle → State → State} {P : State → Prop} (h : IssuesOn s c ix p n tys need)
    (hexec : exec i s = .next (s.onWord c p fun ix => s.issueH ix (kind ix) tys need k))
    (hP : ∀ kind, P (k (ix.op c n) (ix.cl.h (wH ix.w)) (s.issued ix kind [wH ix.w] n))) : Completes i s P := by
  refine .of_issues hexec h.1.1 ?_
  rw [State.issueH_eq _ _ h]
  exact hP (kind ix)

end Sys2Proof.Machine

namespace Sys2Proof.Machine

/-! ### PARK, REVIVE, MOVE, PIN, UNPIN and HINT (R71 to R73, R76, R210) -/

theorem State.sess_updSession_same {s : State} {i : Nat} {x : Session} (f : Session → Session) (h : s.sess i = some x) :
    (s.updSession i f).sess i = some (f x) := by
  change (s.ssn.sessions.upd i f).look i = _
  rw [Tbl.look_upd_same]
  exact congrArg (Option.map f) h

theorem State.updSession_tlr (s : State) (i : Nat) (f : Session → Session) : (s.updSession i f).tlr = s.tlr := rfl

theorem State.sess_chargeRent (s : State) (c i : Nat) : (s.chargeRent c).sess i = s.sess i :=
  congrArg (fun t : Ssn => t.sessions.look i) (s.chargeRent_ssn c)

/-- Only a PARKED session has a movement of the engine's own that gives way (Table 3-7). -/
theorem State.giveWay_of_not_parked {s : State} {i : Nat} {x : Session} (h : s.sess i = some x) (hst : x.st ≠ .parked) : s.giveWay i = s := by
  simp [State.giveWay, h, hst]

/-- Without CFOIL_KV no page of the session goes to the Counterfoil. -/
theorem State.mirrorKv_off {s : State} {i : Nat} {x : Session} (h : s.sess i = some x) (hoff : x.cfoilKv = false) : s.mirrorKv i = s := by
  simp [State.mirrorKv, h, hoff]

/-- A placement to the Passbook alone starts at once (R76). -/
theorem State.beginPlace_passbook {s : State} {i : Nat} {x : Session} (o : Op) (m : MoveOp) (st : SsnSt) (h : s.sess i = some x) :
    s.beginPlace o i m st 0xFF =
      ((s.chargeRent x.customer).updSession i fun x => { x with placing := some ⟨0xFF, 0, none, none⟩ }).updSession i
        fun x => { x with st := st, op := some m } := by
  simp [State.beginPlace, State.startPlace, h]

/-- The session store as a PARK of session `i` to the Passbook alone leaves it. -/
def State.parkedToPassbook (s : State) (o : Op) (i : Nat) (x : Session) : State :=
  (((s.updSession i fun y => y.hints o.ix.desc).chargeRent x.customer).updSession i fun x =>
    { x with placing := some ⟨0xFF, 0, none, none⟩ }).updSession i fun x => { x with st := .parking, op := some (o.move 1 .active 0xFF false) }

theorem State.parkedToPassbook_tlr (s : State) (o : Op) (i : Nat) (x : Session) : (s.parkedToPassbook o i x).tlr = s.tlr :=
  State.chargeRent_tlr ..

theorem State.parkedToPassbook_sess {s : State} {i : Nat} {x : Session} (o : Op) (h : s.sess i = some x) :
    (s.parkedToPassbook o i x).sess i = some { x.hints o.ix.desc with
      placing := some ⟨0xFF, 0, none, none⟩, st := .parking, op := some (o.move 1 .active 0xFF false) } := by
  have hhints := State.sess_updSession_same (fun y => y.hints o.ix.desc) h
  exact State.sess_updSession_same _ (State.sess_updSession_same _ ((State.sess_chargeRent ..).trans hhints))

theorem doPark_passbook {o : Op} {h : Handle} {s : State} {x : Session} (hx : s.sess (ssnIndex (hObj h)) = some x)
    (hok : mvBad o.ix.desc 1 = false) (hkeep : dbits o.ix.desc 6 1 = 0) (hst : x.st = .active) (hop : x.op = none)
    (hpb : dbits o.ix.desc 7 1 = 1 ∨ x.kvBytes = 0) (hcf : dbits o.ix.desc 8 1 = 0) :
    doPark o h s = s.parkedToPassbook o (ssnIndex (hObj h)) x := by
  have hhints := State.sess_updSession_same (fun y => y.hints o.ix.desc) hx
  have hmirror := State.mirrorKv_off hhints (by simp [Session.hints, hcf])
  have hst' : (x.hints o.ix.desc).st = .active := hst
  have htarget : (s.updSession (ssnIndex (hObj h)) fun y => y.hints o.ix.desc).parkTarget (x.hints o.ix.desc)
      (decide (dbits o.ix.desc 7 1 = 1)) = some 0xFF := by
    have hbytes : (x.hints o.ix.desc).kvBytes = x.kvBytes := rfl
    rcases hpb with hpb | hpb <;> simp [State.parkTarget, hbytes, hpb]
  have hgive : s.giveWay (ssnIndex (hObj h)) = s := State.giveWay_of_not_parked hx (by simp [hst])
  simp only [doPark, hx, hok, hkeep, hst, hop, hgive, hhints, hmirror, htarget, hst', State.beginPlace_passbook _ _ _ hhints]
  rfl

theorem State.dropMove_of_none {s : State} {i : Nat} {x : Session} (h : s.sess i = some x) (hop : x.op = none) : s.dropMove i = s := by
  simp [State.dropMove, h, hop]

theorem State.endRequest_of_none {s : State} {i : Nat} {x : Session} (code : Nat) (st : Status) (aux : Nat) (w1 : Word) (h : s.sess i = some x)
    (hreq : x.req = none) : s.endRequest i code st aux w1 = s := by
  simp [State.endRequest, h, hreq]

/-- The state in which a PARK with DISCARD has freed session `i` (R72). -/
def State.discarded (s : State) (o : Op) (i : Nat) (x : Session) : State :=
  (s.updSession i fun y => { y with op := some (o.move 1 x.st 0 true) }).freeSession i

theorem State.discarded_tlr (s : State) (o : Op) (i : Nat) (x : Session) : (s.discarded o i x).tlr = s.tlr := State.freeSession_tlr ..

theorem State.discarded_sess (s : State) (o : Op) (i : Nat) (x : Session) : (s.discarded o i x).sess i = none := State.freeSession_sess ..

theorem doPark_discards {o : Op} {h : Handle} {s : State} {x : Session} (hx : s.sess (ssnIndex (hObj h)) = some x)
    (hok : mvBad o.ix.desc 1 = false) (hdiscard : dbits o.ix.desc 6 1 = 1) (hright : hasRights (hRights h) rtDelete = true)
    (hreq : x.req = none) (hop : x.op = none) : doPark o h s = (s.discarded o (ssnIndex (hObj h)) x).finish o .ok 0 0 := by
  have hmoved := State.sess_updSession_same (fun y => { y with op := some (o.move 1 x.st 0 true) }) hx
  have hended := State.endRequest_of_none 8 .aborted 5 0 hmoved hreq
  simp only [doPark, hx, hok, hdiscard, hright, State.discardSession, State.dropMove_of_none hx hop, hreq, State.finishDiscard, hmoved]
  simp only [Option.isSome_none, Bool.false_and, if_true, Bool.false_eq_true, if_false, Option.bind_some, hended]
  rfl

theorem doRevive_active {o : Op} {h : Handle} {s : State} {x : Session} (hx : s.sess (ssnIndex (hObj h)) = some x)
    (hok : mvBad o.ix.desc 2 = false) (hst : x.st = .active) :
    doRevive o h s = (s.updSession (ssnIndex (hObj h)) fun y => y.hints o.ix.desc).finish o .ok (s.layersRes x) 0 := by
  simp [doRevive, hx, hok, hst]

/-- A revive of a session whose KV is to be recomputed needs no room (R72). -/
theorem State.startRevive_recomputes {s : State} {i : Nat} {x : Session} (h : s.sess i = some x) (hkv : x.kvKept = false)
    (hre : x.recompute.isSome = true) :
    s.startRevive i = ((s.chargeRent x.customer).updSession i fun x => { x with st := .reviving }, true) := by
  simp [State.startRevive, h, hkv, hre]

/-- The state as a REVIVE of session `i`, whose KV is to be recomputed, leaves it. -/
def State.revivedByRecompute (s : State) (o : Op) (i : Nat) (x : Session) : State :=
  (((s.updSession i fun y => y.hints o.ix.desc).chargeRent x.customer).updSession i fun x => { x with st := .reviving }).updSession i fun y =>
    { y with op := some (o.move 2 .parked 0 (dbits o.ix.desc 9 1 = 1)) }

theorem State.revivedByRecompute_tlr (s : State) (o : Op) (i : Nat) (x : Session) : (s.revivedByRecompute o i x).tlr = s.tlr :=
  State.chargeRent_tlr ..

theorem State.revivedByRecompute_sess {s : State} {i : Nat} {x : Session} (o : Op) (h : s.sess i = some x) :
    (s.revivedByRecompute o i x).sess i = some { x.hints o.ix.desc with
      st := .reviving, op := some (o.move 2 .parked 0 (dbits o.ix.desc 9 1 = 1)) } := by
  have hhints := State.sess_updSession_same (fun y => y.hints o.ix.desc) h
  exact State.sess_updSession_same _ (State.sess_updSession_same _ ((State.sess_chargeRent ..).trans hhints))

theorem doRevive_recomputes {o : Op} {h : Handle} {s : State} {x : Session} (hx : s.sess (ssnIndex (hObj h)) = some x)
    (hok : mvBad o.ix.desc 2 = false) (hst : x.st = .parked) (hop : x.op = none) (hpl : x.placing = none) (hkv : x.kvKept = false)
    (hre : x.recompute.isSome = true) : doRevive o h s = s.revivedByRecompute o (ssnIndex (hObj h)) x := by
  have hhints := State.sess_updSession_same (fun y => y.hints o.ix.desc) hx
  have hstart := State.startRevive_recomputes hhints hkv hre
  have hreviving := State.sess_updSession_same (fun x => { x with st := .reviving })
    ((State.sess_chargeRent (s.updSession (ssnIndex (hObj h)) fun y => y.hints o.ix.desc) x.customer _).trans hhints)
  simp only [doRevive, hx, hok, hst, hop, hpl, Option.isSome_none, Bool.false_eq_true, if_false, hstart, Bool.not_true]
  rw [show (x.hints o.ix.desc).customer = x.customer from rfl, hreviving]
  rfl

/-- A session without pages keeps none when some are dropped. -/
theorem State.dropPages_of_none {s : State} {i : Nat} {x : Session} (p : KvPage → Bool) (h : s.sess i = some x) (hpages : x.pages = []) :
    s.dropPages i p = s.updSession i fun x => { x with pages := x.pages.filter fun q => !p q } := by
  simp only [State.dropPages, h, hpages, List.foldl_nil]

/-- A session with no placement under way and no pages gives way without a change outside the session store, and keeps its name. -/
theorem State.giveWay_of_no_pages {s : State} {i : Nat} {x : Session} (h : s.sess i = some x) (hpl : x.placing = none) (hpages : x.pages = []) :
    ∃ y ssn, s.giveWay i = { s with ssn := ssn } ∧ (s.giveWay i).sess i = some y ∧ y.pages = [] ∧ y.parked = x.parked ∧ y.ctx = x.ctx ∧
      y.gen = x.gen := by
  unfold State.giveWay
  simp only [h, hpl, Option.isSome_none, Bool.false_eq_true, if_false]
  split
  · exact ⟨x, s.ssn, rfl, h, hpages, rfl, rfl, rfl⟩
  · split
    · rw [State.dropPages_of_none _ h hpages]
      have hdropped := State.sess_updSession_same (fun y => { y with pages := y.pages.filter fun q => !decide (q.use = .transit) }) h
      exact ⟨_, _, rfl, State.sess_updSession_same _ hdropped, by simp [hpages], rfl, rfl, rfl⟩
    · exact ⟨x, s.ssn, rfl, h, hpages, rfl, rfl, rfl⟩

/-- A session without pages and pieces has nothing to send with it. -/
theorem State.allPieces_of_none (s : State) {x : Session} (hpages : x.pages = []) (hparked : x.parked = []) : s.allPieces x = (s, some []) := by
  simp [State.allPieces, State.pageData, hpages, hparked]

/-- The session as a MOVE that has begun leaves it. -/
def Session.movedBy (x : Session) (o : Op) (prev : SsnSt) : Session :=
  { x.hints o.ix.desc with st := .moving, op := some (o.move 3 prev (dbits o.ix.desc 128 5) (dbits o.ix.desc 10 1 = 1)) }

/-- A session without pages and pieces goes to its destination as it stands (R72). -/
theorem State.sendMove_of_none {s : State} {i : Nat} {x : Session} (dest : Nat) (r : Rcpt) (h : s.sess i = some x) (hpages : x.pages = [])
    (hparked : x.parked = []) : s.sendMove i dest r = s.send (.sessMove dest (s.identOf i x) (s.copyOf i x [])) := by
  simp only [State.sendMove, h, State.allPieces_of_none s hpages hparked]

/-- MOVE of a session without pages and pieces: it is MOVING, and goes to its destination (R72). -/
theorem doMove_empty {o : Op} {h : Handle} {s : State} {x : Session} {m : Member} (hx : s.sess (ssnIndex (hObj h)) = some x)
    (hok : mvBad o.ix.desc 3 = false) (hst : x.st = .active ∨ x.st = .parked) (hop : x.op = none) (hpl : x.placing = none)
    (hm : s.dmap.members.look (dbits o.ix.desc 128 5) = some m) (hfmt : m.small = false ∨ x.kvFmt ≠ 2) (hpages : x.pages = [])
    (hparked : x.parked = []) :
    (∃ y : Session, (doMove o h s).sess (ssnIndex (hObj h)) = some (y.movedBy o x.st)) ∧
      (∃ k, (doMove o h s).out = s.out ++ [.sessMove (dbits o.ix.desc 128 5) (s.identOf (ssnIndex (hObj h)) x) k]) ∧
      (doMove o h s).tlr = s.tlr ∧ (doMove o h s).mem = s.mem := by
  obtain ⟨y, ssn, hgive, hgiven, hypages, hyparked, hyctx, hygen⟩ := State.giveWay_of_no_pages hx hpl hpages
  have hpeer : x.atPeer = false := by simp [Session.atPeer, hparked]
  have hsmall : (m.small && decide (x.kvFmt = 2)) = false := by
    rcases hfmt with hfmt | hfmt <;> simp [hfmt]
  have hst' : (!(decide (x.st = .active) || decide (x.st = .parked))) = false := by
    rcases hst with hst | hst <;> simp [hst]
  have hmoving := State.sess_updSession_same (fun y => y.movedBy o x.st) hgiven
  have hmove : doMove o h s = ((s.giveWay (ssnIndex (hObj h))).updSession (ssnIndex (hObj h)) fun y => y.movedBy o x.st).sendMove
      (ssnIndex (hObj h)) (dbits o.ix.desc 128 5) o.r := by
    simp only [doMove, hx, hok, hst', hop, hm, hsmall, hpeer, State.allPieces_of_none _ hpages hparked]
    rfl
  rw [hmove, State.sendMove_of_none _ _ hmoving hypages (hyparked.trans hparked)]
  have hname : s.identOf (ssnIndex (hObj h)) x = ssnIdent s.self y.ctx (ssnIndex (hObj h)) y.gen := by rw [State.identOf, hyctx, hygen]
  refine ⟨⟨y, hmoving⟩, ?_, ?_, ?_⟩ <;> rw [hgive]
  · rw [hname]
    exact ⟨_, rfl⟩
  · rfl
  · rfl

theorem doPin_pins {o : Op} {h : Handle} {s : State} {x : Session} (hx : s.sess (ssnIndex (hObj h)) = some x)
    (hok : mvBad o.ix.desc 4 = false) (htier : dbits o.ix.desc 11 3 = 0 ∨ (2 ≤ dbits o.ix.desc 11 3 ∧ dbits o.ix.desc 11 3 ≤ 4))
    (hst : x.st = .active ∨ x.st = .reviving)
    (hroom : dbits o.ix.desc 11 3 ≠ 0 ∨
      (s.pinnedPages (ssnIndex (hObj h)) + x.kvBytes / 65536) * 100 ≤ s.pgSum .ssnPgTotal * s.fld Fld.ssnPlaceCfg_pinPct) :
    doPin o h s = (s.updSession (ssnIndex (hObj h)) fun y =>
      { y.hints o.ix.desc with pinned := true, pinTier := dbits o.ix.desc 11 3 }).finish o .ok 0 0 := by
  have htier' : (decide (dbits o.ix.desc 11 3 = 1) || decide (4 < dbits o.ix.desc 11 3)) = false := by
    simp only [Bool.or_eq_false_iff, decide_eq_false_iff_not]
    omega
  have hroom' : (decide (dbits o.ix.desc 11 3 = 0) && decide (s.pgSum .ssnPgTotal * s.fld Fld.ssnPlaceCfg_pinPct <
      (s.pinnedPages (ssnIndex (hObj h)) + x.kvBytes / 65536) * 100)) = false := by
    simp only [Bool.and_eq_false_iff, decide_eq_false_iff_not]
    omega
  rw [Bool.or_eq_false_iff] at htier'
  rcases hst with hst | hst <;> simp only [doPin, hx, hok, htier', hst, hroom', Bool.or_false, Bool.false_eq_true, if_false] <;> rfl

theorem doUnpin_unpins {o : Op} {h : Handle} {s : State} (hok : mvBad o.ix.desc 5 = false) :
    doUnpin o h s = (s.updSession (ssnIndex (hObj h)) fun y =>
      { y.hints o.ix.desc with pinned := false, pinTier := 0 }).finish o .ok 0 0 := by
  simp only [doUnpin, hok, Bool.false_eq_true, if_false]

/-- The pages other sessions have pinned, and the limit on them, are the same after issue. -/
theorem State.issued_pinLimit (s : State) (ix : Ix) (kind : OpKind) (hs : List Nat) (n : Nat) :
    (s.issued ix kind hs n).pgSum .ssnPgTotal * (s.issued ix kind hs n).fld Fld.ssnPlaceCfg_pinPct =
      s.pgSum .ssnPgTotal * s.fld Fld.ssnPlaceCfg_pinPct := by
  have htotal : (s.issued ix kind hs n).pgSum .ssnPgTotal = s.pgSum .ssnPgTotal := by
    simp only [State.pgSum, State.pg, s.issued_rd ix kind hs n _ (show Reg.ssnPgTotal ≠ .tlrClkRcptIss by decide)]
  rw [htotal, s.issued_fld ix kind hs n _ (by decide)]

/-- No pre-revive starts for a session that is not parked (R72). -/
theorem State.maybePreRevive_of_not_parked {s : State} {i : Nat} {x : Session} (h : s.sess i = some x) (hst : x.st ≠ .parked) :
    s.maybePreRevive i = s := by
  simp [State.maybePreRevive, h, hst]

/-- HINT writes the directory entry of a session that is not parked and retires (R71). -/
theorem doHint_writes {ix : Ix} {s : State} {x : Session} (hcheck : s.checkHandle ix.run.ctx (ix.cl.h (wH ix.w)) [1] rtMove = none)
    (hx : s.sess ix.sessIx = some x) (hst : x.st ≠ .parked) :
    doHint ix s = (s.updSession ix.sessIx fun y =>
      { y with cls := dbits ix.desc 4 2, expWait := dbits ix.desc 32 32, expResume := dbits ix.desc 64 64 }).retire ix.c ix.cl := by
  simp only [doHint, hcheck]
  exact State.maybePreRevive_of_not_parked (x := { x with cls := dbits ix.desc 4 2, expWait := dbits ix.desc 32 32, expResume := dbits ix.desc 64 64 })
    (State.sess_updSession_same _ hx) hst

/-- Settles O32: each operation is the equation of its case on the state after issue, whose session is still the one named; what it changes lies
outside the clerks, so that the Receipt taken stands and holds the result posted, if any. -/
theorem sessionInstructions : Obligations.SessionInstructions := by
  unfold Obligations.SessionInstructions
  refine ⟨?park, ?discard, ?reviveActive, ?reviveParked, ?move, ?pin, ?unpin, ?hint⟩
  case park =>
    rintro c n s ix x h hok hkeep hx ⟨hst, hop, hpl⟩ hpb hcf
    refine .of_issuesOn h rfl fun kind => ?_
    rw [doPark_passbook (o := ix.op c n) (s := s.issued ix kind [wH ix.w] n) hx hok hkeep hst hop hpb hcf]
    obtain ⟨htaken, hnone⟩ := State.taken_of_tlr h.1.1.1 ((s.issued ix kind [wH ix.w] n).parkedToPassbook_tlr (ix.op c n) ix.sessIx x)
    have hparked := State.parkedToPassbook_sess (s := s.issued ix kind [wH ix.w] n) (ix.op c n) hx
    have hcfoil : decide (dbits ix.desc 8 1 = 1) = false := by simp [hcf]
    refine ⟨htaken, hnone, congrArg (Option.map _) hparked, (congrArg (Option.map _) hparked).trans ?_⟩
    rw [← hcfoil]
    rfl
  case discard =>
    rintro c n s ix x h hok hdiscard hright hx ⟨hreq, hop, -⟩
    refine .of_issuesOn h rfl fun kind => ?_
    rw [doPark_discards (o := ix.op c n) (s := s.issued ix kind [wH ix.w] n) hx hok hdiscard hright hreq hop]
    obtain ⟨htaken, hres⟩ := State.finish_of_tlr .ok 0 0 h.1.1.1 (State.discarded_tlr (s.issued ix kind [wH ix.w] n) (ix.op c n) ix.sessIx x)
    exact ⟨htaken, (State.finish_sess ..).trans (State.discarded_sess ..), hres⟩
  case reviveActive =>
    intro c n s ix x h hok hx hst
    refine .of_issuesOn h rfl fun kind => ?_
    rw [doRevive_active (o := ix.op c n) (s := s.issued ix kind [wH ix.w] n) hx hok hst]
    exact State.finish_of_tlr_and h.1.1.1 (State.updSession_tlr ..)
      ⟨(State.finish_sess ..).trans (State.sess_updSession_same _ hx), State.finish_mem ..⟩
  case reviveParked =>
    rintro c n s ix x h hok hx ⟨hst, hop, hpl⟩ ⟨hkv, hre⟩
    refine .of_issuesOn h rfl fun kind => ?_
    rw [doRevive_recomputes (o := ix.op c n) (s := s.issued ix kind [wH ix.w] n) hx hok hst hop hpl hkv hre]
    obtain ⟨htaken, hnone⟩ := State.taken_of_tlr h.1.1.1 ((s.issued ix kind [wH ix.w] n).revivedByRecompute_tlr (ix.op c n) ix.sessIx x)
    exact ⟨htaken, hnone, congrArg (Option.map _) (State.revivedByRecompute_sess (s := s.issued ix kind [wH ix.w] n) (ix.op c n) hx)⟩
  case move =>
    rintro c n s ix x m h hok hx ⟨hst, hop, hpl⟩ hm hfmt ⟨hpages, hparked⟩
    refine .of_issuesOn h rfl fun kind => ?_
    obtain ⟨⟨y, hy⟩, ⟨k, hout⟩, htlr, hmem⟩ :=
      doMove_empty (o := ix.op c n) (s := s.issued ix kind [wH ix.w] n) hx hok hst hop hpl hm hfmt hpages hparked
    rw [State.issued_identOf] at hout
    exact ⟨(State.taken_of_tlr h.1.1.1 htlr).1, congrArg (Option.map _) hy, ⟨k, hout⟩, hmem⟩
  case pin =>
    rintro c n s ix x h hok htier hx ⟨hst, -⟩ hroom
    refine .of_issuesOn h rfl fun kind => ?_
    rw [doPin_pins (o := ix.op c n) (s := s.issued ix kind [wH ix.w] n) hx hok htier hst (by rw [State.issued_pinLimit]; exact hroom)]
    exact State.finish_of_tlr_and h.1.1.1 (State.updSession_tlr ..)
      ⟨(State.finish_sess ..).trans (State.sess_updSession_same _ hx), State.finish_mem ..⟩
  case unpin =>
    intro c n s ix x h hok hx
    refine .of_issuesOn h rfl fun kind => ?_
    rw [doUnpin_unpins (o := ix.op c n) (s := s.issued ix kind [wH ix.w] n) hok]
    exact State.finish_of_tlr_and h.1.1.1 (State.updSession_tlr ..)
      ⟨(State.finish_sess ..).trans (State.sess_updSession_same _ hx), State.finish_mem ..⟩
  case hint =>
    intro c s ix x h hcheck hx hst
    refine .of_issues rfl h ?_
    obtain ⟨rfl, -⟩ := State.issuer_eq h.1
    rw [doHint_writes hcheck hx hst]
    exact ⟨State.clerk_setClerk_same .., State.sess_updSession_same _ hx, fun d hd => State.clerk_setClerk_ne _ _ hd, rfl⟩

end Sys2Proof.Machine

namespace Sys2Proof.Machine

/-! ### ESC.ACQ, ESC.PUB and ESC.REL (R220, R304, R305) -/

/-- Of operations with keys of their own, a change by key reaches the one added. -/
theorem escMap_append {l : List EscWait} {x : EscWait} (f : EscWait → EscWait) (h : ∀ y ∈ l, y.key ≠ x.key) :
    (l ++ [x]).map (fun y => if y.key = x.key then f y else y) = l ++ [f x] := by
  have hkept : l.map (fun y => if y.key = x.key then f y else y) = l := (List.map_congr_left fun y hy => if_neg (h y hy)).trans l.map_id
  rw [List.map_append, hkept, List.map_singleton, if_pos rfl]

/-- An Escrow operation of `o` on the region of `h`, not fencing and not held, as it waits for the leader's answer. -/
def Op.escWait (o : Op) (h : Handle) (op : EscOp) (key : Nat) (sent : Bool) : EscWait :=
  ⟨o.r.clerk, o.r.slot, o.r.serial, bits (hObj h).toNat 48 14, op, false, none, key, sent⟩

/-- The state with an Escrow operation more. -/
def State.addEsc (s : State) (x : EscWait) : State := s.onDfb fun d => { d with esc := d.esc ++ [x] }

/-- What an Escrow operation on the region of `h` does once it is marked as sent: a change goes to the leader, and any other is answered
(R304, R305). -/
def State.escSettle (s : State) (o : Op) (h : Handle) (op : EscOp) (key : Nat) (r : DomRegion) : State :=
  let v := escEval r op s.self s.dmap.epoch
  if v.2.2 then (s.addEsc (o.escWait h op key true)).propose (.escrow (bits (hObj h).toNat 48 14) op s.self key)
  else (s.addEsc (o.escWait h op key true)).escDone key v.1 v.2.1

/-- The operation just added is the one that is marked as sent. -/
theorem State.addEsc_marked {s : State} {o : Op} {h : Handle} {op : EscOp} {key : Nat} (hkey : ∀ y ∈ s.dfb.esc, y.key ≠ key) :
    (s.addEsc (o.escWait h op key false)).onDfb (fun d => { d with esc := d.esc.map fun y =>
      if y.key = (o.escWait h op key false).key then { y with fencing := false, heldAt := none, sent := true } else y }) =
      s.addEsc (o.escWait h op key true) :=
  congrArg (fun l => s.onDfb fun d => { d with esc := l }) (escMap_append (x := o.escWait h op key false) _ hkey)

/-- An Escrow operation of a member of a domain that does not lead it and finds the region (R305). -/
theorem State.escGo_settles {s : State} {o : Op} {h : Handle} {op : EscOp} {key : Nat} {r : DomRegion} (hst : s.domSt ≠ 4)
    (hlead : s.dfb.leading = false) (hr : s.dmap.regions.look (bits (hObj h).toNat 48 14) = some r) (hkey : ∀ y ∈ s.dfb.esc, y.key ≠ key) :
    (s.addEsc (o.escWait h op key false)).escGo (o.escWait h op key false) = s.escSettle o h op key r := by
  have hst' : (s.addEsc (o.escWait h op key false)).domSt ≠ 4 := hst
  have hlead' : (s.addEsc (o.escWait h op key true)).dfb.leading = false := hlead
  have hr' : (s.addEsc (o.escWait h op key true)).dmap.regions.look (o.escWait h op key false).region = some r := hr
  rw [State.escGo, if_neg hst', State.addEsc_marked hkey]
  simp only [hlead', Bool.false_eq_true, if_false, hr']
  rfl

/-- An Escrow instruction without stores to wait for goes on at once. -/
theorem doEscrow_settles {o : Op} {h : Handle} {s : State} {key : Nat} {op : EscOp} {fence : Bool} {r : DomRegion} (hst : s.domSt ≠ 4)
    (hlead : s.dfb.leading = false) (hr : s.dmap.regions.look (bits (hObj h).toNat 48 14) = some r) (hkey : ∀ y ∈ s.dfb.esc, y.key ≠ key)
    (hfence : (fence && s.storesOut o.r.clerk) = false) : doEscrow key op fence o h s = s.escSettle o h op key r := by
  rw [← State.escGo_settles hst hlead hr hkey]
  simp only [doEscrow, hfence]
  rfl

/-- A change of a region's Escrow by a member that does not lead goes to the leader (R305). -/
theorem State.escSettle_sends {s : State} {o : Op} {h : Handle} {op : EscOp} {key : Nat} {r : DomRegion} (hlead : s.dfb.leading = false)
    (hvalid : s.fld Fld.dfbStatus_leaderValid = 1) (hchange : (escEval r op s.self s.dmap.epoch).2.2 = true) :
    s.escSettle o h op key r =
      (s.addEsc (o.escWait h op key true)).send (.propose (.escrow (bits (hObj h).toNat 48 14) op s.self key)) := by
  have hlead' : (s.addEsc (o.escWait h op key true)).dfb.leading = false := hlead
  have hvalid' : (s.addEsc (o.escWait h op key true)).fld Fld.dfbStatus_leaderValid = 1 := hvalid
  simp only [State.escSettle, hchange, if_true, State.propose, hlead', Bool.false_eq_true, if_false, hvalid']

/-- An answer to the operation just added takes it off the list again (R305). -/
theorem State.escDone_added {s : State} {o : Op} {h : Handle} {op : EscOp} {key : Nat} (w : Nat) (hkey : ∀ y ∈ s.dfb.esc, y.key ≠ key) :
    (s.addEsc (o.escWait h op key true)).escDone key 0 w = s.finish o .ok 0 (BitVec.ofNat 64 w) := by
  have hnone : s.dfb.esc.find? (fun x => decide (x.key = key)) = none :=
    List.find?_eq_none.mpr fun y hy => by simpa using hkey y hy
  have hfind : (s.dfb.esc ++ [o.escWait h op key true]).find? (fun x => decide (x.key = key)) = some (o.escWait h op key true) := by
    rw [List.find?_append, hnone]
    simp [Op.escWait]
  have hall : s.dfb.esc.filter (fun y => decide (y.key ≠ key)) = s.dfb.esc :=
    List.filter_eq_self.mpr fun y hy => by simpa using hkey y hy
  have hrest : (s.dfb.esc ++ [o.escWait h op key true]).filter (fun y => decide (y.key ≠ key)) = s.dfb.esc := by
    rw [List.filter_append, hall]
    simp [Op.escWait]
  have hback : (s.addEsc (o.escWait h op key true)).onDfb (fun d => { d with esc := d.esc.filter fun y => decide (y.key ≠ key) }) = s :=
    congrArg (fun l => s.onDfb fun d => { d with esc := l }) hrest
  have hfind' : (s.addEsc (o.escWait h op key true)).dfb.esc.find? (fun x => decide (x.key = key)) = some (o.escWait h op key true) := hfind
  simp only [State.escDone, hfind', hback]
  rfl

/-- ESC.ACQ of the owner changes nothing (Table 12-10). -/
theorem escEval_acq_owner {r : DomRegion} {i : Nat} (epoch : Nat) (h : r.owner = some i) : escEval r .acq i epoch = (0, r.version, false) := by
  simp [escEval, h]

/-- The state with the next operation number taken. -/
def State.nextOp (s : State) : State := s.onTlr fun t => { t with opCtr := s.tlr.opCtr + 1 }

/-- An Escrow instruction whose handle passes goes on with its operation under a number of its own. -/
theorem State.issueEscrow_eq {s : State} {c n : Nat} {ix : Ix} {p : Ix → Bool} (op : EscOp) (fence : Bool)
    (h : IssuesOn s c ix p n [5] rtPublish) :
    ∃ kind, s.issueEscrow ix op fence =
      doEscrow (s.tlr.opCtr + 1) op fence (ix.op c n) (ix.cl.h (wH ix.w)) (s.nextOp.issued ix kind [wH ix.w] n) :=
  ⟨_, State.issueH_eq (s := s.nextOp) _ _ h⟩

/-- An Escrow operation of `ix` on clerk `c` has been proposed to the leader and waits for its answer. -/
def EscrowProposed (c n : Nat) (ix : Ix) (op : EscOp) (s t : State) : Prop :=
  ReceiptTaken c ix n t ∧ t.slotResult c n = none ∧
    t.out = s.out ++ [.propose (.escrow (bits (hObj (ix.cl.h (wH ix.w))).toNat 48 14) op s.self (s.tlr.opCtr + 1))] ∧
    t.dfb = { s.dfb with esc := s.dfb.esc ++
      [⟨c, n, ix.nextSerial n, bits (hObj (ix.cl.h (wH ix.w))).toNat 48 14, op, false, none, s.tlr.opCtr + 1, true⟩] } ∧ t.mem = s.mem

/-- An Escrow instruction that changes its region puts the operation to the leader. -/
theorem State.issueEscrow_proposes {s : State} {c n : Nat} {ix : Ix} {p : Ix → Bool} {op : EscOp} {fence : Bool} {r : DomRegion}
    (h : IssuesOn s c ix p n [5] rtPublish) (hst : s.domSt ≠ 4 ∧ s.dfb.leading = false ∧ s.fld Fld.dfbStatus_leaderValid = 1)
    (hr : s.dmap.regions.look (bits (hObj (ix.cl.h (wH ix.w))).toNat 48 14) = some r) (hkey : ∀ y ∈ s.dfb.esc, y.key ≠ s.tlr.opCtr + 1)
    (hfence : (fence && s.storesOut c) = false) (hchange : (escEval r op s.self s.dmap.epoch).2.2 = true) :
    EscrowProposed c n ix op s (s.issueEscrow ix op fence) := by
  obtain ⟨hdom, hlead, hvalid⟩ := hst
  obtain ⟨kind, heq⟩ := State.issueEscrow_eq op fence h
  have hself := s.nextOp.issued_self ix kind [wH ix.w] n
  have hdom' : (s.nextOp.issued ix kind [wH ix.w] n).domSt ≠ 4 := by
    rw [State.domSt, s.nextOp.issued_fld ix kind [wH ix.w] n 0 (by decide)]
    exact hdom
  have hvalid' : (s.nextOp.issued ix kind [wH ix.w] n).fld Fld.dfbStatus_leaderValid = 1 := by
    rw [s.nextOp.issued_fld ix kind [wH ix.w] n 0 (by decide)]
    exact hvalid
  have hchange' : (escEval r op (s.nextOp.issued ix kind [wH ix.w] n).self (s.nextOp.issued ix kind [wH ix.w] n).dmap.epoch).2.2 = true := by
    rw [hself]
    exact hchange
  rw [heq, doEscrow_settles hdom' hlead hr hkey hfence, State.escSettle_sends (s := s.nextOp.issued ix kind [wH ix.w] n) hlead hvalid' hchange', hself]
  obtain ⟨htaken, hnone⟩ := State.taken_of_tlr (s := s.nextOp) (t := s.nextOp.issued ix kind [wH ix.w] n) h.1.1.1 rfl
  exact ⟨htaken, hnone, rfl, rfl, rfl⟩

end Sys2Proof.Machine

namespace Sys2Proof.Machine

/-- An ESC.ACQ of the owner is answered at once with the region's version. -/
theorem State.issueEscrow_acq_owner {s : State} {c n : Nat} {ix : Ix} {p : Ix → Bool} {r : DomRegion} (h : IssuesOn s c ix p n [5] rtPublish)
    (hdom : s.domSt ≠ 4) (hlead : s.dfb.leading = false) (hr : s.dmap.regions.look (bits (hObj (ix.cl.h (wH ix.w))).toNat 48 14) = some r)
    (hkey : ∀ y ∈ s.dfb.esc, y.key ≠ s.tlr.opCtr + 1) (hown : r.owner = some s.self) :
    ∃ kind, s.issueEscrow ix .acq false =
      (s.nextOp.issued ix kind [wH ix.w] n).finish (ix.op c n) .ok 0 (BitVec.ofNat 64 r.version) := by
  obtain ⟨kind, heq⟩ := State.issueEscrow_eq .acq false h
  have hdom' : (s.nextOp.issued ix kind [wH ix.w] n).domSt ≠ 4 := by
    rw [State.domSt, s.nextOp.issued_fld ix kind [wH ix.w] n 0 (by decide)]
    exact hdom
  have hown' : r.owner = some (s.nextOp.issued ix kind [wH ix.w] n).self := hown.trans (congrArg some (s.nextOp.issued_self ix kind _ n).symm)
  refine ⟨kind, ?_⟩
  rw [heq, doEscrow_settles hdom' hlead hr hkey rfl, State.escSettle, escEval_acq_owner _ hown']
  exact State.escDone_added r.version hkey

/-! ### Members of a job and their Statements (R256 to R261) -/

theorem State.publishJob_stm (s : State) (j : Nat) : (s.publishJob j).stm = s.stm := by
  unfold State.publishJob
  split <;> rfl

theorem State.finish_stm (s : State) (o : Op) (st : Status) (aux : Nat) (w1 : Word) : (s.finish o st aux w1).stm = s.stm := by
  rw [State.finish_eq]

/-- The member of a job after a change of it. -/
theorem State.look_updJob {s : State} {j : Nat} {x : StmJob} (f : StmJob → StmJob) (h : s.stm.jobs.look j = some x) :
    (s.updJob j f).stm.jobs.look j = some (f x) :=
  (Tbl.look_upd_same ..).trans (congrArg (Option.map f) h)

theorem StmJob.openStm_eq_slot {x : StmJob} {k : Nat} (h : x.openSlot = some k) : x.openStm = x.slot k := by
  unfold StmJob.openStm StmJob.slot
  rw [h]
  cases k <;> rfl

theorem StmJob.slot_setSlot_same (x : StmJob) (k : Nat) (v : Option Statement) : (x.setSlot k v).slot k = v := by
  unfold StmJob.slot StmJob.setSlot
  split <;> rfl

theorem StmJob.setSlot_openSlot (x : StmJob) (k : Nat) (v : Option Statement) : (x.setSlot k v).openSlot = x.openSlot := by
  unfold StmJob.setSlot
  split <;> rfl

/-- A Statement put into the open slot is the open one. -/
theorem StmJob.openStm_setSlot {x : StmJob} {k : Nat} (v : Option Statement) (h : x.openSlot = some k) : (x.setSlot k v).openStm = v :=
  (StmJob.openStm_eq_slot ((x.setSlot_openSlot k v).trans h)).trans (x.slot_setSlot_same k v)

/-- A member with a Statement open has a slot open. -/
theorem StmJob.openSlot_of_openStm {x : StmJob} {v : Statement} (h : x.openStm = some v) : ∃ k, x.openSlot = some k := by
  cases hk : x.openSlot with
  | some k => exact ⟨k, rfl⟩
  | none => simp [StmJob.openStm, hk] at h

/-! ### STMT.BEGIN (R256) -/

/-- STMT.BEGIN of a later step with the slot free opens the Statement. -/
theorem doStmtBegin_opens {o : Op} {h : Handle} {s : State} {x : StmJob} {told : Bool} (hx : s.stm.jobs.look (jobIndex h) = some x)
    (hnone : x.openSlot = none ∧ x.begin = none) (hstep : (x.record.map (·.step)).getD 0 < o.ix.ra.toNat)
    (hfirst : x.slotA.isSome = true ∨ x.slotB.isSome = true ∨ x.record.isSome = true ∨ s.coordAgrees x told = true)
    (hflush : x.flushHolds x.nextSlot = false) :
    doStmtBegin told o h s = s.openStatement (jobIndex h) x.nextSlot o.ix.ra.toNat o.r := by
  obtain ⟨hslot, hbegin⟩ := hnone
  have hagree : (x.slotA.isNone && x.slotB.isNone && x.record.isNone && !(s.coordAgrees x told)) = false := by
    rcases hfirst with h | h | h | h
    · simp [Option.isNone_eq_false_iff.mpr h]
    · simp [Option.isNone_eq_false_iff.mpr h]
    · simp [Option.isNone_eq_false_iff.mpr h]
    · simp [h]
  simp only [doStmtBegin, hx, hslot, hbegin, hagree, hflush, Option.isSome_none, Bool.false_or, Bool.or_false, decide_eq_true_eq, if_false,
    Bool.false_eq_true]
  refine if_neg (Nat.not_le.mpr ?_)
  cases hrec : x.record with
  | none => simpa [hrec] using hstep
  | some r => simpa [hrec] using hstep

/-- The member of job `j` with the Statement a BEGIN of the run `run` opens in slot `k`. -/
def StmJob.opened (x : StmJob) (k step began : Nat) (run : Option (Nat × Nat)) : StmJob :=
  { x.setSlot k (some ⟨step, began, [], false, none, []⟩) with
    openSlot := some k, begin := none, adds := [], commit := none, refusals := .empty, opener := run }

theorem StmJob.opened_openStm (x : StmJob) (k step began : Nat) (run : Option (Nat × Nat)) :
    (x.opened k step began run).openStm = some ⟨step, began, [], false, none, []⟩ :=
  (StmJob.openStm_eq_slot rfl).trans (x.slot_setSlot_same k _)

/-- A Statement is opened in its member's slot, and the BEGIN answered with the slot (R256). -/
theorem State.openStatement_eq (s : State) (j k step : Nat) (o : Op) :
    ∃ began run, s.openStatement j k step o.r =
      ((s.updJob j fun x => x.opened k step began run).publishJob j).finish o .ok 0 (BitVec.ofNat 64 k) := ⟨_, _, rfl⟩

/-- STMT.BEGIN answers OK with its slot; the Statement has the step of the instruction, no shards and no header. -/
theorem stmtBegin_taken {s : State} {c n : Nat} {ix : Ix} {x : StmJob} {kind : OpKind} (k step : Nat) (j : Nat) (hix : s.issuer c = some ix)
    (hx : s.stm.jobs.look j = some x) :
    let t := (s.issued ix kind [wH ix.w] n).openStatement j k step (ix.op c n).r
    ReceiptTaken c ix n t ∧ t.slotResult c n = some (word0 .ok 0, BitVec.ofNat 64 k) ∧
      ((t.stm.jobs.look j).bind (·.openStm)).map (fun v => (v.step, v.shards, v.header)) = some (step, [], false) ∧ t.mem = s.mem := by
  obtain ⟨began, run, heq⟩ := (s.issued ix kind [wH ix.w] n).openStatement_eq j k step (ix.op c n)
  dsimp only
  rw [heq]
  refine State.finish_of_tlr_and hix (State.publishJob_tlr ..) ⟨?_, ?_⟩
  · have hlook := State.look_updJob (s := s.issued ix kind [wH ix.w] n) (fun x => x.opened k step began run) hx
    rw [State.finish_stm, State.publishJob_stm, hlook, Option.bind_some, StmJob.opened_openStm]
    rfl
  · exact (State.finish_mem ..).trans (State.publishJob_mem ..)

/-! ### STMT.ADD (R257) -/

/-- A shard out of node space has no line to recall, and joins its Statement as the waiting ADDs go on. -/
theorem State.settleAdds_single {s : State} {j : Nat} {x : StmJob} {r : Rcpt} {h : Shard} {rest : List (Nat × StmJob)}
    (hrows : s.stm.jobs.rows = (j, x) :: rest) (hadds : x.adds = [(r, h)]) (hspace : h.space = 0) (hrest : ∀ y ∈ rest, y.2.adds = []) :
    s.settleAdds = s.addShard j r h := by
  have hexcl : ∀ u : State, u.shardExcl h = [] := fun u => if_pos hspace
  unfold State.settleAdds
  rw [hrows, List.foldl_cons, hadds]
  simp only [List.foldl_cons, List.foldl_nil, hexcl, List.isEmpty_nil, if_true]
  refine List.foldlRecOn rest _ (motive := (· = s.addShard j r h)) rfl ?_
  rintro _ rfl y hy
  rw [hrest y hy]
  rfl

/-- The rows of a table after a change of one. -/
theorem Tbl.rows_upd {α β : Type} [DecidableEq α] {t : Tbl α β} {k : α} {v : β} (f : β → β) (h : t.look k = some v) :
    (t.upd k f).rows = (k, f v) :: (t.del k).rows := by
  unfold Tbl.upd
  rw [h]
  rfl

/-- What a key finds stands in a row. -/
theorem rowsLook_mem {α β : Type} [DecidableEq α] {l : List (α × β)} {k : α} {v : β} (h : rowsLook l k = some v) : (k, v) ∈ l := by
  induction l with
  | nil => cases h
  | cons p l ih =>
    obtain ⟨a, b⟩ := p
    by_cases hk : a = k
    · rw [rowsLook, if_pos hk, Option.some.injEq] at h
      subst hk h
      exact List.mem_cons_self
    · rw [rowsLook, if_neg hk] at h
      exact List.mem_cons_of_mem _ (ih h)

/-- The member of a job with one ADD that waits. -/
def StmJob.withAdd (x : StmJob) (r : Rcpt) (h : Shard) : StmJob := { x with adds := x.adds ++ [(r, h)] }

/-- STMT.ADD of a shard of private space that fits and meets no other goes on at once where no other ADD waits. -/
theorem doStmtAdd_adds {o : Op} {hd : Handle} {s : State} {x : StmJob} {v : Statement} {h : Shard}
    (hx : s.stm.jobs.look (jobIndex hd) = some x) (hopen : x.openStm = some v ∧ x.commit = none)
    (hshard : shardOf o.ix.desc x.desc.slotBytes = some h) (hspace : h.space = 0) (hmapped : s.opMapped o h.off h.bytes = true)
    (hmeets : ∀ a ∈ v.shards, a.id ≠ h.id ∧ a.meets h = false)
    (hfits : (v.shards.map (fun a => a.count)).sum + h.count ≤ x.desc.pages ∧ v.shards.length < 4096)
    (hadds : ∀ r ∈ s.stm.jobs.rows, r.2.adds = []) :
    doStmtAdd o hd s = (s.updJob (jobIndex hd) fun x => x.withAdd o.r h).addShard (jobIndex hd) o.r h := by
  obtain ⟨hstm, hcommit⟩ := hopen
  obtain ⟨hpages, hlen⟩ := hfits
  have hnil : x.adds = [] := hadds _ (rowsLook_mem hx)
  have hmapped' : s.shardMapped o h = true := by
    rw [State.shardMapped, if_pos hspace]
    exact hmapped
  have hapart : (v.shards.any fun a => decide (a.id = h.id) || a.meets h) = false :=
    List.any_eq_false.mpr fun a ha => by simp [hmeets a ha]
  have hdo : doStmtAdd o hd s = (s.updJob (jobIndex hd) fun x => x.withAdd o.r h).settleAdds := by
    simp only [doStmtAdd, hx, Option.bind_some, hstm, Option.map_some, hshard, hnil, List.map_nil, List.append_nil, hcommit, Option.isSome_none,
      hmapped', Bool.not_true, hapart, Bool.or_self, Bool.false_eq_true, if_false, Nat.not_lt.mpr hpages, Nat.not_le.mpr hlen]
    rfl
  rw [hdo]
  refine State.settleAdds_single (x := x.withAdd o.r h) (Tbl.rows_upd _ hx) ?_ hspace ?_
  · rw [StmJob.withAdd, hnil, List.nil_append]
  · intro y hy
    exact hadds y (List.mem_of_mem_filter hy)

/-- The member of a job as its open Statement takes a shard. -/
def StmJob.addedTo (x : StmJob) (k : Nat) (v : Statement) (r : Rcpt) (h : Shard) : StmJob :=
  { x.setSlot k (some { v with shards := v.shards ++ [h] }) with adds := x.adds.filter (fun a => decide (a.1 ≠ r)) }

/-- The shard that joins the Statement is its last, and the ADD is answered with its bytes (R257). -/
theorem State.addShard_eq {s : State} {j k : Nat} {x : StmJob} {v : Statement} (o : Op) (h : Shard) (hx : s.stm.jobs.look j = some x)
    (hv : x.openStm = some v) (hk : x.openSlot = some k) :
    s.addShard j o.r h = ((s.updJob j fun y => y.addedTo k v o.r { h with first := v.counts.1 }).publishJob j).finish o .ok 0
      (BitVec.ofNat 64 h.bytes) := by
  simp only [State.addShard, hx, Option.bind_some, hv, Option.map_some, hk]
  rfl

/-- STMT.ADD answers OK with the bytes of its shard, which is the last of the Statement's. -/
theorem stmtAdd_taken {s : State} {c n : Nat} {ix : Ix} {kind : OpKind} {hd : Handle} {x : StmJob} {v : Statement} {h : Shard}
    (hix : s.issuer c = some ix) (hx : s.stm.jobs.look (jobIndex hd) = some x) (hopen : x.openStm = some v ∧ x.commit = none)
    (hshard : shardOf ix.desc x.desc.slotBytes = some h) (hspace : h.space = 0 ∧ s.privMapped c ix.run.ctx h.off h.bytes = true)
    (hmeets : ∀ a ∈ v.shards, a.id ≠ h.id ∧ a.meets h = false)
    (hfits : (v.shards.map (fun a => a.count)).sum + h.count ≤ x.desc.pages ∧ v.shards.length < 4096)
    (hadds : ∀ r ∈ s.stm.jobs.rows, r.2.adds = []) :
    let t := doStmtAdd (ix.op c n) hd (s.issued ix kind [wH ix.w] n)
    ReceiptTaken c ix n t ∧ t.slotResult c n = some (word0 .ok 0, BitVec.ofNat 64 h.bytes) ∧
      ((t.stm.jobs.look (jobIndex hd)).bind (·.openStm)).map (·.shards) = some (v.shards ++ [{ h with first := v.counts.1 }]) ∧
      t.mem = s.mem := by
  obtain ⟨hprivate, hmapped⟩ := hspace
  obtain ⟨hstm, -⟩ := id hopen
  obtain ⟨k, hk⟩ := StmJob.openSlot_of_openStm hstm
  obtain ⟨rfl, -⟩ := State.issuer_eq hix
  have hmapped' : (s.issued ix kind [wH ix.w] n).opMapped (ix.op ix.c n) h.off h.bytes = true := hmapped
  have hwith := State.look_updJob (s := s.issued ix kind [wH ix.w] n) (fun x => x.withAdd (ix.op ix.c n).r h) hx
  dsimp only
  rw [doStmtAdd_adds (o := ix.op ix.c n) (s := s.issued ix kind [wH ix.w] n) hx hopen hshard hprivate hmapped' hmeets hfits hadds,
    State.addShard_eq (k := k) (v := v) (ix.op ix.c n) h hwith hstm hk]
  refine State.finish_of_tlr_and hix (State.publishJob_tlr ..) ⟨?_, (State.finish_mem ..).trans (State.publishJob_mem ..)⟩
  rw [State.finish_stm, State.publishJob_stm, State.look_updJob _ hwith, Option.bind_some]
  exact congrArg (Option.map _) (StmJob.openStm_setSlot (x := x.withAdd (ix.op ix.c n).r h) _ hk)

end Sys2Proof.Machine

namespace Sys2Proof.Machine

/-! ### STMT.COMMIT (R261) -/

/-- The member of a job whose COMMIT waits. -/
def StmJob.committing (x : StmJob) (r : Rcpt) : StmJob := { x with commit := some r }

/-- The state in which the COMMIT of `r` waits at job `j`. -/
def State.committing (s : State) (j : Nat) (r : Rcpt) : State := s.updJob j fun x => x.committing r

theorem State.look_committing {s : State} {j : Nat} {x : StmJob} (r : Rcpt) (h : s.stm.jobs.look j = some x) :
    (s.committing j r).stm.jobs.look j = some (x.committing r) := State.look_updJob _ h

/-- STMT.COMMIT of an open Statement with a shard records itself, and the Statement goes on where it can. -/
theorem doStmtCommit_records {o : Op} {hd : Handle} {s : State} {x : StmJob} {v : Statement} (hx : s.stm.jobs.look (jobIndex hd) = some x)
    (hstm : x.openStm = some v) (hcommit : x.commit = none) (hshards : v.shards ≠ []) :
    doStmtCommit o hd s = (s.committing (jobIndex hd) o.r).stmAdvance (jobIndex hd) := by
  have hempty : v.shards.isEmpty = false := List.isEmpty_eq_false_iff.mpr hshards
  simp only [doStmtCommit, hx, Option.bind_some, hstm, Option.map_some, hcommit, Option.isSome_none, hempty, Bool.false_and, Bool.or_self,
    Bool.false_eq_true, if_false]
  rfl

/-- A Statement with pages still to copy does not go on. -/
theorem State.stmAdvance_pending {s : State} {j : Nat} {x : StmJob} {v : Statement} (hx : s.stm.jobs.look j = some x)
    (hstm : x.openStm = some v) (hpages : v.counts.2 < v.counts.1) : s.stmAdvance j = s := by
  obtain ⟨k, hk⟩ := StmJob.openSlot_of_openStm hstm
  simp only [State.stmAdvance, hx, hstm, hk, hpages, decide_true, Bool.or_true, if_true]

/-- The state in which the Statement `v`, open in slot `k` of job `j`, has its header. -/
def State.headed (s : State) (j k : Nat) (v : Statement) : State := s.updJob j fun x => x.setSlot k (some { v with header := true })

theorem State.headed_openStm {s : State} {j k : Nat} {x : StmJob} {v : Statement} (hx : s.stm.jobs.look j = some x) (hk : x.openSlot = some k) :
    ((s.headed j k v).stm.jobs.look j).bind (·.openStm) = some { v with header := true } := by
  rw [State.headed, State.look_updJob _ hx, Option.bind_some, StmJob.openStm_setSlot _ hk]

/-- A Statement with every page copied gets its header, and its notice goes to the coordinator (R261). -/
theorem State.stmAdvance_header {s : State} {j k : Nat} {x : StmJob} {v : Statement} (hx : s.stm.jobs.look j = some x)
    (hstm : x.openStm = some v) (hk : x.openSlot = some k) (hcommit : x.commit.isNone = false) (hadds : x.adds = [])
    (hpages : v.counts.1 ≤ v.counts.2) (hheader : v.header = false) (hlost : x.cfLost = false) (hcoord : x.desc.coord ≠ s.self) :
    s.stmAdvance j = (s.headed j k v).send (.memberNotice x.desc.coord x.desc.tag x.desc.rank v.step v.noticeShards) := by
  have hcoord' : x.desc.coord ≠ (s.headed j k v).self := hcoord
  have hnotice : (s.headed j k v).sendNotice x v =
      (s.headed j k v).send (.memberNotice x.desc.coord x.desc.tag x.desc.rank v.step v.noticeShards) := if_neg hcoord'
  rw [← hnotice]
  simp only [State.stmAdvance, hx, hstm, hk, hcommit, hadds, List.isEmpty_nil, Bool.not_true, Bool.or_self, Nat.not_lt.mpr hpages,
    decide_false, Bool.false_eq_true, if_false, hheader, hlost, Bool.false_and]
  rfl

/-- STMT.COMMIT with pages still to copy takes its Receipt and waits. -/
theorem stmtCommit_pending {s : State} {c n : Nat} {ix : Ix} {kind : OpKind} {hd : Handle} {x : StmJob} {v : Statement}
    (hix : s.issuer c = some ix) (hx : s.stm.jobs.look (jobIndex hd) = some x) (hstm : x.openStm = some v) (hcommit : x.commit = none)
    (hshards : v.shards ≠ []) (hpages : v.counts.2 < v.counts.1) :
    let t := doStmtCommit (ix.op c n) hd (s.issued ix kind [wH ix.w] n)
    ReceiptTaken c ix n t ∧ t.slotResult c n = none ∧
      t.stm.jobs.look (jobIndex hd) = some { x with commit := some ⟨c, n, ix.nextSerial n⟩ } ∧ t.out = s.out ∧ t.mem = s.mem := by
  have hrec := State.look_committing (s := s.issued ix kind [wH ix.w] n) (ix.op c n).r hx
  dsimp only
  rw [doStmtCommit_records (o := ix.op c n) (s := s.issued ix kind [wH ix.w] n) hx hstm hcommit hshards, State.stmAdvance_pending hrec hstm hpages]
  obtain ⟨htaken, hnone⟩ := State.taken_of_tlr (s := s) (kind := kind) (hs := [wH ix.w])
    (t := (s.issued ix kind [wH ix.w] n).committing (jobIndex hd) (ix.op c n).r) hix rfl
  exact ⟨htaken, hnone, hrec, rfl, rfl⟩

/-- STMT.COMMIT with every page copied takes its Receipt, makes the header and sends the notice. -/
theorem stmtCommit_header {s : State} {c n : Nat} {ix : Ix} {kind : OpKind} {hd : Handle} {x : StmJob} {v : Statement}
    (hix : s.issuer c = some ix) (hx : s.stm.jobs.look (jobIndex hd) = some x) (hopen : x.openStm = some v ∧ x.commit = none ∧ x.adds = [])
    (hshards : v.shards ≠ []) (hpages : v.counts.1 ≤ v.counts.2 ∧ v.header = false) (hcoord : x.cfLost = false ∧ x.desc.coord ≠ s.self) :
    let t := doStmtCommit (ix.op c n) hd (s.issued ix kind [wH ix.w] n)
    ReceiptTaken c ix n t ∧ t.slotResult c n = none ∧
      ((t.stm.jobs.look (jobIndex hd)).bind (·.openStm)).map (fun v => (v.step, v.header)) = some (v.step, true) ∧
      t.out = s.out ++ [.memberNotice x.desc.coord x.desc.tag x.desc.rank v.step v.noticeShards] ∧ t.mem = s.mem := by
  obtain ⟨hstm, hcommit, hadds⟩ := hopen
  obtain ⟨hcopied, hheader⟩ := hpages
  obtain ⟨hlost, hself⟩ := hcoord
  obtain ⟨k, hk⟩ := StmJob.openSlot_of_openStm hstm
  have hrec := State.look_committing (s := s.issued ix kind [wH ix.w] n) (ix.op c n).r hx
  have hself' : x.desc.coord ≠ ((s.issued ix kind [wH ix.w] n).committing (jobIndex hd) (ix.op c n).r).self :=
    fun h => hself (h.trans (s.issued_self ix kind [wH ix.w] n))
  dsimp only
  rw [doStmtCommit_records (o := ix.op c n) (s := s.issued ix kind [wH ix.w] n) hx hstm hcommit hshards,
    State.stmAdvance_header hrec hstm hk rfl hadds hcopied hheader hlost hself']
  obtain ⟨htaken, hnone⟩ := State.taken_of_tlr (s := s) (kind := kind) (hs := [wH ix.w])
    (t := (((s.issued ix kind [wH ix.w] n).committing (jobIndex hd) (ix.op c n).r).headed (jobIndex hd) k v).send
      (.memberNotice x.desc.coord x.desc.tag x.desc.rank v.step v.noticeShards)) hix rfl
  exact ⟨htaken, hnone, congrArg (Option.map _) (State.headed_openStm hrec hk), rfl, rfl⟩

/-- Settles O35: an Escrow instruction settles by its evaluation at the region, and a STMT instruction by what its member holds open. -/
theorem escrowAndStatementInstructions : Obligations.EscrowAndStatementInstructions := by
  unfold Obligations.EscrowAndStatementInstructions
  refine ⟨?acq, ?pub, ?rel, ?owner, ?begin, ?add, ?pending, ?header⟩
  case acq =>
    intro c n s ix r h hst hr hkey hchange
    exact .of_issues rfl h.1.1 (State.issueEscrow_proposes h hst hr hkey rfl hchange)
  case pub =>
    intro c n s ix r h hst hr hkey hout hchange
    exact .of_issues rfl h.1.1 (State.issueEscrow_proposes h hst hr hkey hout hchange)
  case rel =>
    intro c n s ix r h hst hr hkey hchange
    exact .of_issues rfl h.1.1 (State.issueEscrow_proposes h hst hr hkey rfl hchange)
  case owner =>
    intro c n s ix r h ⟨hdom, hlead, _⟩ hr hkey hown
    refine .of_issues rfl h.1.1 ?_
    obtain ⟨kind, heq⟩ := State.issueEscrow_acq_owner h hdom hlead hr hkey hown
    rw [heq]
    refine State.finish_of_tlr_and (s := s.nextOp) h.1.1.1 rfl ?_
    rw [State.finish_eq]
    exact ⟨rfl, rfl, rfl⟩
  case begin =>
    intro c n s ix x told h hx hnone hstep hfirst hflush
    refine .of_issuesOn h rfl fun kind => ?_
    have hfirst' : x.slotA.isSome = true ∨ x.slotB.isSome = true ∨ x.record.isSome = true ∨
        (s.issued ix kind [wH ix.w] n).coordAgrees x told = true := by
      rw [State.coordAgrees, State.issued_self]
      exact hfirst
    rw [doStmtBegin_opens (o := ix.op c n) (s := s.issued ix kind [wH ix.w] n) hx hnone hstep hfirst' hflush]
    exact stmtBegin_taken x.nextSlot ix.ra.toNat _ h.1.1.1 hx
  case add =>
    intro c n s ix x v sh h hx hopen hshard hspace hmeets hfits hadds
    exact .of_issuesOn h rfl fun kind => stmtAdd_taken h.1.1.1 hx hopen hshard hspace hmeets hfits hadds
  case pending =>
    intro c n s ix x v h hx ⟨hstm, hcommit, _⟩ hshards hpages
    exact .of_issuesOn h rfl fun kind => stmtCommit_pending h.1.1.1 hx hstm hcommit hshards hpages
  case header =>
    intro c n s ix x v h hx hopen hshards hpages hcoord
    exact .of_issuesOn h rfl fun kind => stmtCommit_header h.1.1.1 hx hopen hshards hpages hcoord

end Sys2Proof.Machine

namespace Sys2Proof.Machine

/-! ### A clocked event of a module that is not frozen -/

theorem Completes.of_live {i : Instr} {s t : State} {P : State → Prop} (hexec : exec i s = s.whenLive t) (hlive : s.Live) (hP : P t) :
    Completes i s P :=
  ⟨t, by rw [hexec, State.whenLive_eq, hlive]; rfl, hP⟩

/-! ### What the flash pool's operations leave of its tables (R234, R241, R243, R245, R246) -/

@[simp] theorem State.ite_fls (p : Prop) [Decidable p] (s t : State) : (if p then s else t).fls = if p then s.fls else t.fls :=
  apply_ite State.fls p s t

@[simp] theorem State.foldl_fls {α : Type} {f : State → α → State} (hf : ∀ s x, (f s x).fls = s.fls) (l : List α) (s : State) :
    (l.foldl f s).fls = s.fls :=
  foldl_inv (P := fun t => t.fls = s.fls) (fun t x ht => (hf t x).trans ht) rfl l

@[simp] theorem State.trace_fls (s : State) (hub source ctx : Nat) (ctxValid : Bool) (inst value : Nat) :
    (s.trace hub source ctx ctxValid inst value).fls = s.fls := by simp [State.trace]

@[simp] theorem State.poolTo_fls (s : State) (st : Nat) : (s.poolTo st).fls = s.fls := by simp [State.poolTo]

@[simp] theorem State.closePool_fls (s : State) : s.closePool.fls = s.fls := by simp [State.closePool]

@[simp] theorem State.reopenPool_fls (s : State) : s.reopenPool.fls = s.fls := by simp [State.reopenPool]

@[simp] theorem State.shrinkAdv_fls (s : State) (n : Nat) : (s.shrinkAdv n).fls = s.fls := by simp [State.shrinkAdv]

@[simp] theorem State.refreshUrgent_fls (s : State) : s.refreshUrgent.fls = s.fls := by simp [State.refreshUrgent]

@[simp] theorem State.countRebuild_fls (s : State) : s.countRebuild.fls = s.fls := rfl

@[simp] theorem State.publishReserve_fls (s : State) (ch : Nat) : (s.publishReserve ch).fls = s.fls := rfl

@[simp] theorem State.journalled_fls (s : State) (n : Nat) :
    (s.journalled n).fls = { s.fls with journalBytes := s.fls.journalBytes + 16 * n } := rfl

/-- A superblock's new state goes to the table; the counts of the states stand in registers (R243). -/
@[simp] theorem State.setSb_fls (s : State) (i : Nat) (x : Sb) : (s.setSb i x).fls = { s.fls with sbs := s.fls.sbs.put i x } := by
  unfold State.setSb
  extract_lets o dec inc s₁ n n' s₂
  have hs₁ : s₁.fls = s.fls := by
    simp only [s₁, inc, dec]
    split
    · rfl
    · cases o.st <;> cases x.st <;> rfl
  have hs₂ : s₂.fls = s.fls := by simp [s₂, hs₁]
  rw [State.onFls_fls, hs₂]

@[simp] theorem State.sb_setSb_same (s : State) (i : Nat) (x : Sb) : (s.setSb i x).sb i = x := by simp [State.sb]

theorem State.sb_setSb_ne (s : State) {i k : Nat} (x : Sb) (h : i ≠ k) : (s.setSb k x).sb i = s.sb i := by
  simp [State.sb, Tbl.lookD_put_ne _ _ _ h, Fls.sbDefault]

theorem State.sb_congr {s t : State} (h : t.fls = s.fls) (i : Nat) : t.sb i = s.sb i := by simp [State.sb, h]

/-- An entry that switches to a place stands there in the map (R234). -/
theorem State.setEntry_some_map (s : State) (u : Nat) (e : MapEnt) : (s.setEntry u (some e)).fls.map = s.fls.map.put u e := by
  unfold State.setEntry
  cases s.fls.map.look u <;> simp

/-- What holds of a state, and stays over a count and over a change of the superblock that takes the unit, holds after a placement. -/
theorem State.placeUnit_induction {P : State → Prop} {s : State} {slc : Bool} (x : Nat) (spread : Bool) (chan : Option Nat) (chans : List Nat)
    (hs : P s) (hcount : ∀ u r i n, P u → P (u.count r i n))
    (hsb : ∀ k, s.openSb slc = some k ∨ s.pickFreeSb slc = some k → ∀ u b, P u → P (u.setSb k b)) :
    P (s.placeUnit slc x spread chan chans).1 := by
  unfold State.placeUnit
  cases hopen : s.openSb slc with
  | some k => exact hcount _ _ _ _ (hcount _ _ _ _ (hsb k (.inl hopen) _ _ hs))
  | none =>
    cases hfree : s.pickFreeSb slc with
    | none => exact hs
    | some k => exact hcount _ _ _ _ (hcount _ _ _ _ (hsb k (.inr hfree) _ _ (hsb k (.inr hfree) _ _ hs)))

/-- What holds of a state, and stays over a placement and over an entry's switch, holds after a relocation. -/
theorem State.relocate_induction {P : State → Prop} {s : State} (u : Nat) (slc : Bool) (hs : P s)
    (hplace : ∀ x spread chan chans, P (s.placeUnit slc x spread chan chans).1)
    (hentry : ∀ t e, P t → P ((t.setEntry u e).journalled 1)) : P (s.relocate u slc) := by
  unfold State.relocate
  split
  · exact hs
  · split
    · exact hs
    · dsimp only
      split
      · exact hplace ..
      · exact hentry _ _ (hplace ..)

/-! ### Superblocks emptied (R237, R241, R242) -/

/-- Superblock `i` holds no unit, and is free with its read counter cleared. -/
def State.Emptied (s : State) (i : Nat) : Prop := s.unitsIn i = [] ∧ (s.sb i).st = .free ∧ (s.sb i).reads = 0

theorem State.Emptied.of_fls {s t : State} {i : Nat} (h : s.Emptied i) (hfls : t.fls = s.fls) : t.Emptied i := by
  rw [State.Emptied, State.unitsIn, State.sb, hfls]
  exact h

theorem State.eraseSb_fls (s : State) (i : Nat) : ∃ b : Sb, b.st = .free ∧ b.reads = 0 ∧ (s.eraseSb i).fls = (s.setSb i b).fls :=
  ⟨_, rfl, rfl, State.refreshUrgent_fls _⟩

/-- An erase of a superblock without units empties it. -/
theorem State.eraseSb_emptied {s : State} {i : Nat} (h : s.unitsIn i = []) : (s.eraseSb i).Emptied i := by
  obtain ⟨b, hfree, hreads, hfls⟩ := s.eraseSb_fls i
  refine State.Emptied.of_fls (s := s.setSb i b) ⟨?_, ?_, ?_⟩ hfls
  · rw [State.unitsIn, State.setSb_fls]
    exact h
  · rw [State.sb_setSb_same, hfree]
  · rw [State.sb_setSb_same, hreads]

/-- A refresh whose units all find a place empties its superblock. -/
theorem State.refreshSb_emptied {s : State} {i : Nat} {slc : Bool}
    (h : ((s.unitsIn i).foldl (fun u k => u.relocate k slc) s).unitsIn i = []) : (s.refreshSb i slc).Emptied i := by
  rw [State.refreshSb, h]
  exact State.eraseSb_emptied h

theorem exec_readDisturbRefresh {i : Nat} {s : State} (hheld : s.eraseHeld = false)
    (hreads : (if (s.sb i).slc then s.fld Fld.flsRefreshCfg_readLimitSlc else s.fld Fld.flsRefreshCfg_readLimitNative) * 1000 ≤
      (s.sb i).reads) : exec (.readDisturbRefresh i) s = s.whenLive (s.refreshSb i (s.sb i).slc) := by
  change execReadDisturbRefresh i s = _
  rw [execReadDisturbRefresh, if_pos (Bool.and_eq_true_iff.mpr ⟨decide_eq_true hreads, by rw [hheld]; rfl⟩)]

theorem exec_retentionScan_singleton {i : Nat} {s : State} (hheld : s.eraseHeld = false) (hfull : (s.sb i).st = .full) :
    exec (.retentionScan [i]) s = s.whenLive (s.refreshSb i (s.sb i).slc) := by
  change execRetentionScan [i] s = _
  simp [execRetentionScan, hheld, hfull]

theorem exec_garbageCollection {i : Nat} {b : Sb} {s : State} (hpool : s.pool ≠ 2) (hheld : s.eraseHeld = false) (hlow : s.sbFree ≤ s.gcLow)
    (hleast : leastSb (fun b => b.valid) (s.fullSbs false) = some (i, b)) :
    exec .garbageCollection s = s.whenLive (s.refreshSb i false).reopenPool := by
  change execGarbageCollection s = _
  simp [execGarbageCollection, hpool, hheld, hlow, hleast]

/-! #### A fold (R237) -/

/-- A fold is under way. -/
def State.foldStarted (s : State) : State := (s.onFls fun f => { f with folding := true }).setFld Fld.flsPoolStatus_folding 0 1

/-- The fold has ended. -/
def State.foldEnded (s : State) : State := (s.onFls fun f => { f with folding := false }).setFld Fld.flsPoolStatus_folding 0 0

theorem State.Emptied.foldEnded {s : State} {i : Nat} (h : s.Emptied i) : s.foldEnded.Emptied i := h

/-- The Till superblock closed first is refreshed to the Vault, and the fold ends where the Till is below FOLD_LOW. -/
theorem exec_tillFold {i : Nat} {b : Sb} {s : State} (hpool : s.pool ≠ 2) (hheld : s.eraseHeld = false)
    (hstart : s.foldHigh * s.tillCap < s.tillValid * 100) (hlow : ¬ s.tillValid * 100 < s.fld Fld.flsGcCfg_foldLow * s.tillCap)
    (hleast : leastSb (fun b => b.closedAt) (s.foldStarted.fullSbs true) = some (i, b)) :
    let t := (s.foldStarted.refreshSb i false).recordFolded (s.foldStarted.unitsIn i)
    exec .tillFold s = s.whenLive (if t.tillValid * 100 < t.fld Fld.flsGcCfg_foldLow * t.tillCap then t.foldEnded else t) := by
  change execTillFold s = _
  have hguard : ¬ (s.pool = 2 || s.eraseHeld || !(s.fls.folding || decide (s.foldHigh * s.tillCap < s.tillValid * 100))) = true := by
    simp [hpool, hheld, hstart]
  unfold execTillFold State.refreshSb State.foldEnded
  rw [State.foldStarted] at hleast ⊢
  dsimp only
  rw [if_neg hguard, if_neg hlow, hleast]

/-! #### Wear levelling (R242) -/

/-- A unit moves to superblock `j`, which takes on the extents `held` of the superblock it left. -/
def State.moveTo (j : Nat) (held : List Nat) (s : State) (u : Nat) : State :=
  match s.fls.map.look u with
  | none => s
  | some e =>
    (((s.setSb j { s.sb j with used := (s.sb j).used + 1, held := held }).count .flsWrNand 0 1).setEntry u
      (some { e with sb := j, slot := (s.sb j).used })).journalled 1

theorem State.moveTo_of_none {s : State} {u : Nat} (j : Nat) (held : List Nat) (h : s.fls.map.look u = none) : s.moveTo j held u = s := by
  rw [State.moveTo, h]

theorem State.moveTo_map_of_some {s : State} {u : Nat} {e : MapEnt} (j : Nat) (held : List Nat) (h : s.fls.map.look u = some e) :
    (s.moveTo j held u).fls.map = s.fls.map.put u { e with sb := j, slot := (s.sb j).used } := by
  rw [State.moveTo, h, State.journalled_fls, State.setEntry_some_map, State.count_fls, State.setSb_fls]

@[simp] theorem State.moveTo_mem (s : State) (j : Nat) (held : List Nat) (u : Nat) : (s.moveTo j held u).mem = s.mem := by
  unfold State.moveTo
  split <;> simp

/-- A key without a row finds nothing. -/
theorem Tbl.notMem_rows_of_look_none {α β : Type} [DecidableEq α] {t : Tbl α β} {k : α} (v : β) (h : t.look k = none) :
    (k, v) ∉ t.rows := by
  obtain ⟨l⟩ := t
  induction l with
  | nil => simp
  | cons p l ih =>
    obtain ⟨a, b⟩ := p
    have hne : a ≠ k := fun e => by simp [Tbl.look, rowsLook, e] at h
    have hrest : (⟨l⟩ : Tbl α β).look k = none := by simpa [Tbl.look, rowsLook, hne] using h
    simpa [Ne.symm hne] using ih hrest

theorem Tbl.mem_rows_put {α β : Type} [DecidableEq α] {t : Tbl α β} {k : α} {v : β} {r : α × β} :
    r ∈ (t.put k v).rows ↔ r = (k, v) ∨ r ∈ t.rows ∧ r.1 ≠ k := by
  simp [Tbl.put, Tbl.del]

/-- A unit that moves leaves no row but the one at its new place. -/
theorem State.mem_rows_moveTo {s : State} {j u : Nat} {held : List Nat} {r : Nat × MapEnt} (h : r ∈ (s.moveTo j held u).fls.map.rows) :
    r.2.sb = j ∨ r ∈ s.fls.map.rows ∧ r.1 ≠ u := by
  cases hu : s.fls.map.look u with
  | none =>
    rw [State.moveTo_of_none j held hu] at h
    exact .inr ⟨h, fun e => Tbl.notMem_rows_of_look_none r.2 hu (e ▸ h)⟩
  | some e =>
    rw [State.moveTo_map_of_some j held hu, Tbl.mem_rows_put] at h
    exact h.imp (fun h => by rw [h]) id

theorem State.mem_rows_foldl_moveTo {j : Nat} {held : List Nat} {r : Nat × MapEnt} (us : List Nat) {s : State}
    (h : r ∈ (us.foldl (State.moveTo j held) s).fls.map.rows) : r.2.sb = j ∨ r ∈ s.fls.map.rows ∧ r.1 ∉ us := by
  induction us generalizing s with
  | nil => exact .inr ⟨h, List.not_mem_nil⟩
  | cons u us ih =>
    obtain hj | ⟨hrow, hnot⟩ := ih h
    · exact .inl hj
    · exact (State.mem_rows_moveTo hrow).imp id fun ⟨hs, hne⟩ => ⟨hs, List.not_mem_cons_of_ne_of_not_mem hne hnot⟩

/-- A unit in the map stays there over moves. -/
theorem State.has_moveTo {s : State} {k : Nat} (j : Nat) (held : List Nat) (u : Nat) (h : s.fls.map.has k = true) :
    (s.moveTo j held u).fls.map.has k = true := by
  cases hu : s.fls.map.look u with
  | none => rwa [State.moveTo_of_none j held hu]
  | some e =>
    rw [State.moveTo_map_of_some j held hu, Tbl.has, Tbl.look_put]
    split
    · rfl
    · exact h

theorem State.mem_unitsIn {s : State} {i u : Nat} : u ∈ s.unitsIn i ↔ ∃ e : MapEnt, (u, e) ∈ s.fls.map.rows ∧ e.sb = i := by
  simp [State.unitsIn, Tbl.keysIf]

/-- The moves of a superblock's units to another leave it empty. -/
theorem State.unitsIn_foldl_moveTo {s : State} {i j : Nat} (held : List Nat) (hij : i ≠ j) :
    ((s.unitsIn i).foldl (State.moveTo j held) s).unitsIn i = [] := by
  refine List.eq_nil_iff_forall_not_mem.mpr fun u hu => ?_
  obtain ⟨e, hrow, hi⟩ := State.mem_unitsIn.mp hu
  obtain hj | ⟨hs, hnot⟩ := State.mem_rows_foldl_moveTo _ hrow
  · exact hij (hi.symm.trans hj)
  · exact hnot (State.mem_unitsIn.mpr ⟨e, hs, hi⟩)

/-- Each unit of the superblock stands in the other after the moves. -/
theorem State.look_foldl_moveTo {s : State} {i j u : Nat} (held : List Nat) (hu : u ∈ s.unitsIn i) :
    (((s.unitsIn i).foldl (State.moveTo j held) s).fls.map.look u).map (·.sb) = some j := by
  obtain ⟨e, hrow, -⟩ := State.mem_unitsIn.mp hu
  have hhas : s.fls.map.has u = true := by
    rw [Tbl.has, Option.isSome_iff_ne_none]
    exact fun hnone => Tbl.notMem_rows_of_look_none e hnone hrow
  have hkept : ((s.unitsIn i).foldl (State.moveTo j held) s).fls.map.has u = true :=
    foldl_inv (P := fun t : State => t.fls.map.has u = true) (fun t k ht => t.has_moveTo j held k ht) hhas _
  obtain ⟨e', he'⟩ := Option.isSome_iff_exists.mp hkept
  obtain hj | ⟨-, hnot⟩ := State.mem_rows_foldl_moveTo _ (rowsLook_mem he')
  · rw [he', Option.map_some, hj]
  · exact absurd hu hnot

/-- The most-worn free superblock `j` is opened on the channels of `b`. -/
def State.openedFor (s : State) (j : Nat) (b w : Sb) : State := s.setSb j { w with st := .opened, chans := b.chans }

theorem State.openedFor_map (s : State) (j : Nat) (b w : Sb) : (s.openedFor j b w).fls.map = s.fls.map := by
  rw [State.openedFor, State.setSb_fls]

theorem exec_wearLevel {i j : Nat} {b w : Sb} {s : State} (hpool : s.pool ≠ 2) (hheld : s.eraseHeld = false)
    (hleast : leastSb (fun b => b.wear) (s.fullSbs false) = some (i, b)) (hworn : s.mostWorn = some (j, w))
    (hgap : b.wear + s.fld Fld.flsGcCfg_wlGap * 10 * 1000 < w.wear) (hslc : w.slc = false) :
    exec .wearLevel s =
      s.whenLive ((((s.openedFor j b w).unitsIn i).foldl (State.moveTo j b.held) (s.openedFor j b w)).eraseSb i) := by
  have hguard : (decide (s.pool ≠ 2) && !s.eraseHeld && decide (b.wear + s.fld Fld.flsGcCfg_wlGap * 10 * 1000 < w.wear) && !w.slc) = true := by
    simp [hpool, hheld, hgap, hslc]
  change execWearLevel s = _
  unfold execWearLevel
  dsimp only
  rw [hleast, hworn]
  dsimp only
  rw [if_pos hguard]
  rfl

/-! ### Event bits (R399) -/

theorem bit_eq_testBit (v i : Nat) : bit v i = v.testBit i := Nat.testBit_eq_decide_div_mod_eq.symm

/-- A raised event's bit reads 1. -/
theorem State.bit_raise_same (s : State) (e : Evt) (h : e.bit < 64) : bit ((s.raise e).rd e.reg 0).toNat e.bit = true := by
  rw [State.rd_raise_same, bit_eq_testBit, BitVec.testBit_toNat, BitVec.getLsbD_or, BitVec.getLsbD_ofNat, Nat.testBit_two_pow_self]
  simp [h]

/-- An event bit that reads 1 stays over another event of its register. -/
theorem State.bit_raise_of_bit {s : State} {e : Evt} {i : Nat} (h : bit (s.rd e.reg 0).toNat i = true) :
    bit ((s.raise e).rd e.reg 0).toNat i = true := by
  rw [bit_eq_testBit, BitVec.testBit_toNat] at h ⊢
  rw [State.rd_raise_same, BitVec.getLsbD_or, h, Bool.true_or]

theorem State.bit_refreshUrgent_of_bit {s : State} {i : Nat} (h : bit (s.rd .flsEvt 0).toNat i = true) :
    bit (s.refreshUrgent.rd .flsEvt 0).toNat i = true := by
  have hset : ∀ x, (s.setFld Fld.flsPoolStatus_gcUrgent 0 x).rd .flsEvt 0 = s.rd .flsEvt 0 := fun x => State.rd_wr_ne _ _ (by decide)
  unfold State.refreshUrgent
  dsimp only
  split
  · exact State.bit_raise_of_bit (e := Evt.fls_gcUrgent) (by rw [← hset 1] at h; exact h)
  · split
    · exact h
    · rwa [hset]

/-! ### Failed LUNs (R240) -/

/-- A clear bit leaves room for it. -/
theorem add_two_pow_lt_of_bit_false {v l n : Nat} (hv : v < 2 ^ n) (hl : l < n) (h : bit v l = false) : v + 2 ^ l < 2 ^ n := by
  obtain ⟨d, rfl⟩ : ∃ d, n = l + (d + 1) := ⟨n - l - 1, by omega⟩
  have hpow : 2 ^ (l + (d + 1)) = 2 ^ l * (2 * 2 ^ d) := by rw [pow_add, pow_succ']
  have heven : v / 2 ^ l % 2 ≠ 1 := of_decide_eq_false h
  have hq : v / 2 ^ l < 2 * 2 ^ d := Nat.div_lt_of_lt_mul (hpow ▸ hv)
  have hq2 : v / 2 ^ l + 2 ≤ 2 * 2 ^ d := by omega
  calc v + 2 ^ l < 2 ^ l * (v / 2 ^ l + 1) + 2 ^ l := by
        have := Nat.lt_mul_div_succ v (Nat.two_pow_pos l); omega
    _ = 2 ^ l * (v / 2 ^ l + 2) := by ring
    _ ≤ 2 ^ l * (2 * 2 ^ d) := Nat.mul_le_mul_left _ hq2
    _ = 2 ^ (l + (d + 1)) := hpow.symm

/-- The units on a LUN follow from the pool, the channels in service, their geometry and the Reserve's share. -/
theorem State.unitsOn_congr {s t : State} (ch lun : Nat) (hfls : t.fls = s.fls) (hst : ∀ c, t.chanSt c = s.chanSt c)
    (hparam : ∀ c, t.rd .flsChParam c = s.rd .flsChParam c) (hcfg : t.rd .flsCfg = s.rd .flsCfg) : t.unitsOn ch lun = s.unitsOn ch lun := by
  have hlead : t.leadChan = s.leadChan := by simp only [State.leadChan, hst]
  have hlun : ∀ i, t.sbLun i = s.sbLun i := fun i => by
    simp only [State.sbLun, State.nBlocks, State.reserveBlocks, State.fld, Fld.flsCfg_reservePct, hlead, hparam, hcfg]
  have hchans : ∀ e, t.unitChans e = s.unitChans e := fun e => by simp only [State.unitChans, State.sb_congr hfls]
  simp only [State.unitsOn, hfls, hlun, hchans]

/-- A LUN's bit is set, with the event. -/
def State.lunMarked (s : State) (ch lun : Nat) : State :=
  (s.setFld Fld.flsChStatus_lunFailed ch (s.fld Fld.flsChStatus_lunFailed ch + 2 ^ lun)).raise Evt.fls_lunFailed

@[simp] theorem State.lunMarked_fls (s : State) (ch lun : Nat) : (s.lunMarked ch lun).fls = s.fls := State.raise_fls _ _

theorem State.rd_lunMarked_ne (s : State) (ch lun : Nat) {q : Reg} (i : Nat) (hstatus : q ≠ .flsChStatus) (hevt : q ≠ .flsEvt) :
    (s.lunMarked ch lun).rd q i = s.rd q i := by
  rw [State.lunMarked, State.rd_raise_ne _ _ (by simp [Evt.fls_lunFailed, hevt])]
  exact State.rd_wr_ne _ _ (by simp [Fld.flsChStatus_lunFailed, hstatus])

theorem State.fld_lunMarked (s : State) (ch lun : Nat) {f : Fld} (i : Nat) (hf : f.reg = .flsChStatus) :
    (s.lunMarked ch lun).fld f i =
      (s.setFld Fld.flsChStatus_lunFailed ch (s.fld Fld.flsChStatus_lunFailed ch + 2 ^ lun)).fld f i := by
  rw [State.lunMarked, State.fld, State.rd_raise_ne _ _ (by simp [Evt.fls_lunFailed, hf])]
  rfl

theorem State.chanSt_lunMarked (s : State) (ch lun c : Nat) : (s.lunMarked ch lun).chanSt c = s.chanSt c := by
  rw [State.chanSt, State.fld_lunMarked _ _ _ _ rfl]
  exact State.fld_setFld_other _ _ _ _ _ _ (by decide) (.inr (.inl (by decide)))

theorem State.fld_lunFailed_lunMarked {s : State} {ch lun : Nat} (hlun : lun < 32)
    (hclear : bit (s.fld Fld.flsChStatus_lunFailed ch) lun = false) :
    (s.lunMarked ch lun).fld Fld.flsChStatus_lunFailed ch = s.fld Fld.flsChStatus_lunFailed ch + 2 ^ lun := by
  have hfits : s.fld Fld.flsChStatus_lunFailed ch < 2 ^ 32 := Nat.mod_lt _ (by decide)
  rw [State.fld_lunMarked _ _ _ _ rfl, State.fld_setFld_same _ _ _ _ (by decide)]
  exact Nat.mod_eq_of_lt (add_two_pow_lt_of_bit_false hfits hlun hclear)

theorem State.unitsOn_lunMarked (s : State) (ch lun : Nat) : (s.lunMarked ch lun).unitsOn ch lun = s.unitsOn ch lun :=
  State.unitsOn_congr ch lun (s.lunMarked_fls ch lun) (s.chanSt_lunMarked ch lun)
    (fun c => s.rd_lunMarked_ne ch lun c (by decide) (by decide)) (s.rd_lunMarked_ne ch lun 0 (by decide) (by decide))

/-- The units of a LUN join those that wait for rebuild. -/
def State.awaitRebuild (s : State) (ch lun : Nat) (us : List Nat) : State :=
  s.onFls fun f => { f with rebuild := f.rebuild ++ [(ch, lun, us)] }

theorem State.rd_countRebuild_ne (s : State) {q : Reg} (i : Nat) (hrebuild : q ≠ .flsRebuild) (hpool : q ≠ .flsPoolStatus) :
    s.countRebuild.rd q i = s.rd q i :=
  (State.rd_wr_ne _ _ (by simp [Fld.flsPoolStatus_rebuilding, hpool])).trans (State.rd_wr_ne _ _ (by simp [hrebuild]))

theorem State.rd_countRebuild_flsRebuild (s : State) :
    s.countRebuild.rd .flsRebuild = BitVec.ofNat 64 ((s.fls.rebuild.map fun r => r.2.2.length).sum) :=
  (State.rd_wr_ne _ _ (by decide)).trans (State.rd_wr_same ..)

theorem State.fld_rebuilding_countRebuild {s : State} (h : s.fls.rebuild ≠ []) : s.countRebuild.fld Fld.flsPoolStatus_rebuilding = 1 := by
  rw [State.countRebuild, if_neg h, State.fld_setFld_same _ _ _ _ (by decide)]
  rfl

/-- A LUN that fails alone of its index loses no unit. -/
theorem exec_lunFailed {ch lun : Nat} {s : State} (hup : s.chanSt ch = 1) (hlun : lun < 32)
    (hclear : bit (s.fld Fld.flsChStatus_lunFailed ch) lun = false)
    (hno : s.fls.rebuild.filter (fun r => decide (r.2.1 = lun) && decide (r.1 ≠ ch)) = []) :
    exec (.lunFailed ch lun) s = s.whenLive ((s.lunMarked ch lun).awaitRebuild ch lun (s.unitsOn ch lun)).countRebuild := by
  have hguard : (decide (s.chanSt ch = 1) && decide (lun < 32) && !(bit (s.fld Fld.flsChStatus_lunFailed ch) lun)) = true := by
    simp [hup, hlun, hclear]
  change execLunFailed ch lun s = _
  rw [← State.unitsOn_lunMarked]
  unfold execLunFailed
  refine congrArg s.whenLive ?_
  rw [if_pos hguard]
  extract_lets s₁ mine twins lost s₂ s₃
  have htwins : twins = [] := by rw [← hno, ← s.lunMarked_fls ch lun]; rfl
  have hlost : lost = [] := by
    simp only [lost, htwins, List.flatMap_nil, List.nil_append, List.filter_eq_nil_iff]
    intro u _
    split <;> simp
  simp only [s₃, s₂, hlost, List.foldl_nil]
  simp [mine, s₁, State.awaitRebuild, State.lunMarked]

/-! ### Rebuild (R240) -/

theorem State.setEntry_rebuild (s : State) (u : Nat) (e : Option MapEnt) : (s.setEntry u e).fls.rebuild = s.fls.rebuild := by
  unfold State.setEntry
  cases s.fls.map.look u <;> cases e <;> simp

theorem State.placeUnit_rebuild (s : State) (slc : Bool) (x : Nat) (spread : Bool) (chan : Option Nat) (chans : List Nat) :
    (s.placeUnit slc x spread chan chans).1.fls.rebuild = s.fls.rebuild :=
  State.placeUnit_induction (P := fun t => t.fls.rebuild = s.fls.rebuild) x spread chan chans rfl (fun _ _ _ _ h => h)
    (fun _ _ _ _ h => by rwa [State.setSb_fls])

theorem State.relocate_rebuild (s : State) (u : Nat) (slc : Bool) : (s.relocate u slc).fls.rebuild = s.fls.rebuild :=
  State.relocate_induction (P := fun t => t.fls.rebuild = s.fls.rebuild) u slc rfl (fun _ _ _ _ => s.placeUnit_rebuild ..)
    (fun t e h => (t.setEntry_rebuild u e).trans h)

/-- The units of a list are relocated, each in the region it is in. -/
def State.relocateAll (s : State) (us : List Nat) : State :=
  us.foldl (fun s u => match s.fls.map.look u with
    | some e => s.relocate u e.till
    | none => s) s

/-- What holds of a state and stays over relocations holds after those of a list. -/
theorem State.relocateAll_induction {P : State → Prop} {s : State} (us : List Nat) (hs : P s)
    (hstep : ∀ t u slc, P t → P (t.relocate u slc)) : P (s.relocateAll us) := by
  refine foldl_inv (fun t u ht => ?_) hs us
  split
  · exact hstep t u _ ht
  · exact ht

theorem State.relocateAll_rebuild (s : State) (us : List Nat) : (s.relocateAll us).fls.rebuild = s.fls.rebuild :=
  State.relocateAll_induction (P := fun t => t.fls.rebuild = s.fls.rebuild) us rfl fun t u slc ht => (t.relocate_rebuild u slc).trans ht

theorem State.relocateAll_mem (s : State) (us : List Nat) : (s.relocateAll us).mem = s.mem :=
  State.relocateAll_induction (P := fun t => t.mem = s.mem) us rfl fun t u slc ht => (t.relocate_mem u slc).trans ht

/-- The row of a LUN is taken off those that wait for rebuild, and its channel out of its stripe groups. -/
def State.dropRebuild (s : State) (ch lun : Nat) : State :=
  s.onFls fun f => { f with
    rebuild := f.rebuild.filter (fun x => !(decide (x.1 = ch) && decide (x.2.1 = lun)))
    sbs := f.sbs.mapVals (fun i b => if s.sbLun i = lun then { b with chans := b.chans.filter (fun c => decide (c ≠ ch)) } else b) }

/-- The rebuild of a failed LUN ends with its row gone, ADV shrunk and the units that still wait counted. -/
theorem exec_lunRebuild {ch lun : Nat} {us : List Nat} {s : State} (hheld : s.fls.held = false)
    (hrow : s.fls.rebuild.find? (fun r => decide (r.1 = ch) && decide (r.2.1 = lun)) = some (ch, lun, us)) :
    ∃ (u : State) (n : Nat), u.fls.rebuild = s.fls.rebuild.filter (fun x => !(decide (x.1 = ch) && decide (x.2.1 = lun))) ∧
      u.mem = s.mem ∧ exec (.lunRebuild ch lun) s = s.whenLive ((u.shrinkAdv n).countRebuild).reopenPool := by
  have hexec : ∃ n, execLunRebuild ch lun s =
      s.whenLive ((((s.relocateAll us).dropRebuild ch lun).shrinkAdv n).countRebuild).reopenPool := by
    unfold execLunRebuild
    rw [hheld, if_neg Bool.false_ne_true, hrow]
    exact ⟨_, rfl⟩
  obtain ⟨n, hexec⟩ := hexec
  have hrebuild : ((s.relocateAll us).dropRebuild ch lun).fls.rebuild =
      s.fls.rebuild.filter (fun x => !(decide (x.1 = ch) && decide (x.2.1 = lun))) := by
    rw [← s.relocateAll_rebuild us]
    rfl
  exact ⟨_, n, hrebuild, s.relocateAll_mem us, hexec⟩

theorem State.rd_trace_ne (s : State) (hub source ctx : Nat) (ctxValid : Bool) (inst value : Nat) {q : Reg} (i : Nat)
    (hdropped : q ≠ .dbgTraceDropped) (hevt : q ≠ Evt.dbg_traceDrop.reg) :
    (s.trace hub source ctx ctxValid inst value).rd q i = s.rd q i := by
  unfold State.trace
  dsimp only
  split
  · split
    · rfl
    · rw [State.rd_raise_ne _ _ (by simp [hevt])]
      exact State.rd_wr_ne _ _ (by simp [hdropped])
  · rfl

theorem State.rd_reopenPool_flsRebuild (s : State) : s.reopenPool.rd .flsRebuild = s.rd .flsRebuild := by
  unfold State.reopenPool
  split
  · rw [State.rd_wr_ne _ _ (by decide), State.poolTo, State.rd_trace_ne _ _ _ _ _ _ _ _ (by decide) (by decide)]
    exact State.rd_wr_ne _ _ (by decide)
  · rfl

/-! ### Block replacement and retirement (R244, R245) -/

/-- A failed block counts as a failed erase or a failed program. -/
def State.countBlockFail (s : State) (ch : Nat) (erase : Bool) : State :=
  if erase then s.countSat Fld.flsChErr_eraseFail ch 1 else s.countSat Fld.flsChErr_progFail ch 1

theorem State.countBlockFail_eq (s : State) (ch : Nat) (erase : Bool) :
    s.countBlockFail ch erase = { s with regs := (s.countBlockFail ch erase).regs } := by
  cases erase <;> rfl

@[simp] theorem State.countBlockFail_fls (s : State) (ch : Nat) (erase : Bool) : (s.countBlockFail ch erase).fls = s.fls := by
  cases erase <;> rfl

/-- A Reserve block of a plane is used up. -/
def State.takeReserve (s : State) (ch plane : Nat) : State :=
  s.onFls fun f => { f with reserve := f.reserve.put (ch, plane) (s.fls.reserve.lookD (ch, plane) 0 - 1) }

theorem exec_blockReplace_reserve {ch plane sb : Nat} {erase : Bool} {s : State} (h : 0 < s.fls.reserve.lookD (ch, plane) 0) :
    exec (.blockReplace ch plane sb erase) s = s.whenLive (((s.countBlockFail ch erase).takeReserve ch plane).publishReserve ch) := by
  have h' : 0 < (s.countBlockFail ch erase).fls.reserve.lookD (ch, plane) 0 := by rwa [State.countBlockFail_fls]
  change execBlockReplace ch plane sb erase s = _
  exact congrArg s.whenLive (if_pos h')

/-- Superblock `i` is retired, in each row the table has of it. -/
def State.SbRetired (s : State) (i : Nat) : Prop := (s.sb i).st = .retired ∧ ∀ b, (i, b) ∈ s.fls.sbs.rows → b.st = .retired

theorem State.SbRetired.of_fls {s t : State} {i : Nat} (h : s.SbRetired i) (hfls : t.fls = s.fls) : t.SbRetired i := by
  rw [State.SbRetired, State.sb, hfls]
  exact h

/-- A superblock set to RETIRED is retired. -/
theorem State.setSb_sbRetired (s : State) (i : Nat) {x : Sb} (hx : x.st = .retired) : (s.setSb i x).SbRetired i := by
  refine ⟨by rwa [State.sb_setSb_same], fun b hb => ?_⟩
  rw [State.setSb_fls, Tbl.mem_rows_put] at hb
  obtain heq | ⟨-, hne⟩ := hb
  · rw [(Prod.mk.inj heq).2, hx]
  · exact absurd rfl hne

/-- It stays so while another superblock changes. -/
theorem State.SbRetired.setSb_ne {s : State} {i k : Nat} (h : s.SbRetired i) (x : Sb) (hk : i ≠ k) : (s.setSb k x).SbRetired i := by
  obtain ⟨hsb, hrows⟩ := h
  refine ⟨by rwa [State.sb_setSb_ne _ _ hk], fun b hb => ?_⟩
  rw [State.setSb_fls, Tbl.mem_rows_put] at hb
  obtain heq | ⟨hrow, -⟩ := hb
  · exact absurd (Prod.mk.inj heq).1 hk
  · exact hrows b hrow

/-- It stays so while VALID of a superblock changes. -/
theorem State.SbRetired.setSb_valid {s : State} {i : Nat} (h : s.SbRetired i) (k n : Nat) :
    (s.setSb k { s.sb k with valid := n }).SbRetired i := by
  by_cases hk : i = k
  · subst hk
    exact s.setSb_sbRetired i h.1
  · exact h.setSb_ne _ hk

theorem State.SbRetired.setEntry {s : State} {i : Nat} (h : s.SbRetired i) (u : Nat) (e : Option MapEnt) : (s.setEntry u e).SbRetired i := by
  unfold State.setEntry
  extract_lets old s₁ s₂
  clear_value old
  have h₁ : s₁.SbRetired i := by
    simp only [s₁]
    split
    · exact h.setSb_valid ..
    · exact h
  have h₂ : s₂.SbRetired i := by
    simp only [s₂]
    split
    · exact h₁.setSb_valid ..
    · exact h₁
  exact h₂

/-- No unit is placed in a retired superblock. -/
theorem State.SbRetired.placeUnit {s : State} {i : Nat} (h : s.SbRetired i) (slc : Bool) (x : Nat) (spread : Bool) (chan : Option Nat)
    (chans : List Nat) : (s.placeUnit slc x spread chan chans).1.SbRetired i := by
  refine State.placeUnit_induction (P := fun t => t.SbRetired i) x spread chan chans h (fun _ _ _ _ h => h) fun k hk u b hu => ?_
  refine hu.setSb_ne b fun hik => ?_
  subst hik
  obtain hopen | hfree := hk
  · obtain ⟨⟨a, b'⟩, hfind, rfl⟩ := Option.map_eq_some_iff.mp hopen
    have hst := List.find?_some hfind
    have := h.2 b' (List.mem_of_find?_eq_some hfind)
    simp [this] at hst
  · have hst := List.find?_some hfree
    simp [h.1] at hst

theorem State.SbRetired.relocate {s : State} {i : Nat} (h : s.SbRetired i) (u : Nat) (slc : Bool) : (s.relocate u slc).SbRetired i :=
  State.relocate_induction (P := fun t => t.SbRetired i) u slc h (fun _ _ _ _ => h.placeUnit ..) (fun _ _ ht => ht.setEntry ..)

/-- Without a Reserve block the superblock is retired, and ADV shrinks with the event. -/
theorem exec_blockReplace_retires {ch plane sb : Nat} {s : State} (erase : Bool) (hnone : s.fls.reserve.lookD (ch, plane) 0 = 0)
    (hsb : (s.sb sb).st ≠ .retired) :
    ∃ (u : State) (n : Nat), u.SbRetired sb ∧ u.mem = s.mem ∧
      exec (.blockReplace ch plane sb erase) s = s.whenLive ((u.shrinkAdv n).raise Evt.fls_sbRetired).refreshUrgent := by
  have hnone' : ¬ 0 < (s.countBlockFail ch erase).fls.reserve.lookD (ch, plane) 0 := by
    rw [State.countBlockFail_fls, hnone]; decide
  have hsb' : ¬ ((s.countBlockFail ch erase).sb sb).st = .retired := by rwa [State.sb_congr (s.countBlockFail_fls ch erase)]
  refine ⟨_, _, ?_, ?_, congrArg s.whenLive ((if_neg hnone').trans (if_neg hsb'))⟩
  · refine State.SbRetired.of_fls ?_ (State.foldl_fls (fun t c => t.publishReserve_fls c) _ _)
    refine foldl_inv (P := fun t : State => t.SbRetired sb) (fun t u ht => ht.relocate u _) ?_ _
    exact State.setSb_sbRetired _ sb rfl
  · simp

/-- Settles O37: a failed LUN's units wait for rebuild, whose end takes its row away; a fold, a collection, a refresh and wear levelling
empty the superblock that their rule names; and a failed block comes out of the Reserve, or retires its superblock. -/
theorem flashFailuresAndHousekeeping : Obligations.FlashFailuresAndHousekeeping := by
  unfold Obligations.FlashFailuresAndHousekeeping
  refine ⟨?failed, ?rebuilt, ?folded, ?collected, ?levelled, ?disturbed, ?weak, ?replaced, ?retired⟩
  case failed =>
    intro ch lun s hlive ⟨hup, hlun⟩ hclear hno
    refine .of_live (exec_lunFailed hup hlun hclear hno) hlive ⟨?_, ?_, ?_, ?_, ?_⟩
    · rw [State.fld, State.rd_countRebuild_ne _ _ (by decide) (by decide)]
      exact State.fld_lunFailed_lunMarked hlun hclear
    · rw [State.rd_countRebuild_ne _ _ (by decide) (by decide)]
      exact State.bit_raise_same _ Evt.fls_lunFailed (by decide)
    · simp [State.awaitRebuild]
    · simp [State.awaitRebuild]
    · exact State.fld_rebuilding_countRebuild (by simp [State.awaitRebuild])
  case rebuilt =>
    intro ch lun us s hlive hheld hrow
    obtain ⟨u, n, hrebuild, hmem, hexec⟩ := exec_lunRebuild hheld hrow
    refine .of_live hexec hlive ⟨?_, ?_, ?_⟩
    · rw [State.reopenPool_fls, State.countRebuild_fls, State.shrinkAdv_fls, hrebuild]
    · rw [State.rd_reopenPool_flsRebuild, State.rd_countRebuild_flsRebuild, State.reopenPool_fls, State.countRebuild_fls]
    · rw [State.reopenPool_mem, State.countRebuild_mem, State.shrinkAdv_mem, hmem]
  case folded =>
    rintro i b s u hlive ⟨hpool, hheld, hstart⟩ hlow rfl hleast hmoved
    have hempty := (State.refreshSb_emptied hmoved).of_fls (t := (s.foldStarted.refreshSb i false).recordFolded (s.foldStarted.unitsIn i)) rfl
    refine .of_live (exec_tillFold hpool hheld hstart hlow hleast) hlive ?_
    split
    · obtain ⟨hunits, hfree, -⟩ := hempty.foldEnded
      exact ⟨hunits, hfree, by simp [State.foldEnded, State.foldStarted]⟩
    · obtain ⟨hunits, hfree, -⟩ := hempty
      exact ⟨hunits, hfree, by simp [State.foldStarted]⟩
  case collected =>
    intro i b s hlive ⟨hpool, hheld, hlow⟩ hleast hmoved
    obtain ⟨hunits, hfree, hreads⟩ := (State.refreshSb_emptied hmoved).of_fls (State.reopenPool_fls _)
    exact .of_live (exec_garbageCollection hpool hheld hlow hleast) hlive ⟨hunits, hfree, hreads, by simp⟩
  case levelled =>
    intro i j b w s hlive ⟨hpool, hheld⟩ hleast hworn ⟨hgap, hslc, hij⟩
    have hunitsIn : (s.openedFor j b w).unitsIn i = s.unitsIn i := by rw [State.unitsIn, State.openedFor_map]; rfl
    obtain ⟨hunits, hfree, -⟩ := State.eraseSb_emptied ((s.openedFor j b w).unitsIn_foldl_moveTo b.held hij)
    refine .of_live (exec_wearLevel hpool hheld hleast hworn hgap hslc) hlive ⟨hunits, fun u hu => ?_, hfree, by simp [State.openedFor]⟩
    obtain ⟨x, -, -, hfls⟩ := State.eraseSb_fls (((s.openedFor j b w).unitsIn i).foldl (State.moveTo j b.held) (s.openedFor j b w)) i
    rw [hfls, State.setSb_fls]
    exact State.look_foldl_moveTo b.held (hunitsIn ▸ hu)
  case disturbed =>
    intro i s hlive hheld hreads hmoved
    obtain ⟨hunits, hfree, hzero⟩ := State.refreshSb_emptied hmoved
    exact .of_live (exec_readDisturbRefresh hheld hreads) hlive ⟨hunits, hfree, hzero, State.refreshSb_mem ..⟩
  case weak =>
    intro i s hlive ⟨hheld, hfull⟩ hmoved
    obtain ⟨hunits, hfree, hzero⟩ := State.refreshSb_emptied hmoved
    exact .of_live (exec_retentionScan_singleton hheld hfull) hlive ⟨hunits, hfree, hzero, State.refreshSb_mem ..⟩
  case replaced =>
    intro ch p sb er s hlive hpos
    refine .of_live (exec_blockReplace_reserve hpos) hlive ⟨?_, fun k hk => ?_, ?_⟩
    · simp [State.takeReserve]
    · simp [State.takeReserve, Tbl.lookD_put_ne _ _ _ hk]
    · rw [State.countBlockFail_eq]
      rfl
  case retired =>
    intro ch p sb er s hlive ⟨hnone, hst⟩
    obtain ⟨u, n, hretired, hmem, hexec⟩ := exec_blockReplace_retires er hnone hst
    have hkept := hretired.of_fls (t := ((u.shrinkAdv n).raise Evt.fls_sbRetired).refreshUrgent) (by simp)
    refine .of_live hexec hlive ⟨hkept.1, State.bit_refreshUrgent_of_bit ?_, by simp [hmem]⟩
    exact State.bit_raise_same _ Evt.fls_sbRetired (by decide)

end Sys2Proof.Machine

namespace Sys2Proof.Machine

/-! ### What leaves the Statement side, the domain side and node time alone -/

/-- The Statement side, the domain side and node time of a state. -/
def State.stmView (s : State) : Stm × Dfb × Nat := (s.stm, s.dfb, s.nodeNs)

theorem State.stm_of_stmView {s t : State} (h : t.stmView = s.stmView) : t.stm = s.stm := congrArg Prod.fst h

theorem State.dfb_of_stmView {s t : State} (h : t.stmView = s.stmView) : t.dfb = s.dfb := congrArg (·.2.1) h

theorem State.nodeNs_of_stmView {s t : State} (h : t.stmView = s.stmView) : t.nodeNs = s.nodeNs := congrArg (·.2.2) h

@[simp] theorem State.wr_stmView (s : State) (r : Reg) (i : Nat) (v : Word) : (s.wr r i v).stmView = s.stmView := rfl

@[simp] theorem State.send_stmView (s : State) (o : Out) : (s.send o).stmView = s.stmView := rfl

@[simp] theorem State.onFls_stmView (s : State) (f : Fls → Fls) : (s.onFls f).stmView = s.stmView := rfl

theorem State.raise_stmView (s : State) (e : Evt) : (s.raise e).stmView = s.stmView := by
  rw [State.raise_eq]
  rfl

theorem State.publishJob_stmView (s : State) (j : Nat) : (s.publishJob j).stmView = s.stmView := by
  unfold State.publishJob
  split <;> rfl

/-! #### The flash pool (R234, R247, R249) -/

theorem State.trace_stmView (s : State) (hub source ctx : Nat) (ctxValid : Bool) (inst value : Nat) :
    (s.trace hub source ctx ctxValid inst value).stmView = s.stmView := by
  unfold State.trace
  dsimp only
  split
  · split
    · rfl
    · exact State.raise_stmView _ _
  · rfl

theorem State.poolTo_stmView (s : State) (st : Nat) : (s.poolTo st).stmView = s.stmView := State.trace_stmView ..

theorem State.closePool_stmView (s : State) : s.closePool.stmView = s.stmView := by
  unfold State.closePool
  split
  · exact (State.raise_stmView _ _).trans (s.poolTo_stmView 1)
  · rfl

theorem State.reopenPool_stmView (s : State) : s.reopenPool.stmView = s.stmView := by
  unfold State.reopenPool
  split
  · exact s.poolTo_stmView 0
  · rfl

theorem State.setDirty_stmView (s : State) (src : DirtySrc) (n : Nat) : (s.setDirty src n).stmView = s.stmView := by
  unfold State.setDirty
  extract_lets t d u v
  have hv : v.stmView = s.stmView := by
    unfold v
    split <;> rfl
  split <;> exact hv

theorem State.journal_stmView (s : State) (h : Nat) (r : JRec) : (s.journal h r).stmView = s.stmView := by
  rw [State.journal, State.addDirty, State.setDirty_stmView, State.onFls_stmView]

theorem State.setSb_stmView (s : State) (i : Nat) (x : Sb) : (s.setSb i x).stmView = s.stmView := by
  unfold State.setSb
  extract_lets o dec inc s₁ n n' s₂
  have hs₁ : s₁.stmView = s.stmView := by
    simp only [s₁, inc, dec]
    split
    · rfl
    · cases o.st <;> cases x.st <;> rfl
  change s₂.stmView = s.stmView
  simp only [s₂]
  split <;> exact hs₁

theorem State.setEntry_stmView (s : State) (u : Nat) (e : Option MapEnt) : (s.setEntry u e).stmView = s.stmView := by
  unfold State.setEntry
  extract_lets old s₁ s₂
  clear_value old
  have hs₁ : s₁.stmView = s.stmView := by
    simp only [s₁]
    split
    · exact State.setSb_stmView ..
    · rfl
  have hs₂ : s₂.stmView = s₁.stmView := by
    simp only [s₂]
    split
    · exact State.setSb_stmView ..
    · rfl
  exact hs₂.trans hs₁

theorem State.discardUnits_stmView (s : State) (us : List Nat) : (s.discardUnits us).stmView = s.stmView := by
  unfold State.discardUnits
  rw [State.reopenPool_stmView]
  refine foldl_kept State.stmView (fun t u => ?_) us s
  dsimp only
  split
  · rfl
  · rw [State.onFls_stmView, State.journal_stmView, State.setEntry_stmView]

theorem State.dropExtent_stmView (s : State) (e : Nat) : (s.dropExtent e).stmView = s.stmView := by
  unfold State.dropExtent
  split
  · rfl
  · exact s.discardUnits_stmView _

theorem State.newExtent_stmView (s : State) (owner : Option Nat) (n : Nat) (spread : Bool) (chan : Option Nat) :
    (s.newExtent owner n spread chan).1.stmView = s.stmView := by
  unfold State.newExtent
  split <;> rfl

theorem State.flashPut_stmView (s : State) (own : FlashOwner) (x first : Nat) (data : List (List Byte)) (till : Bool) :
    (s.flashPut own x first data till).1.stmView = s.stmView := by
  unfold State.flashPut
  split
  · rfl
  · split
    · rfl
    · extract_lets us fresh t n go
      have ht : t.stmView = s.stmView := by
        simp only [t]
        split
        · exact s.closePool_stmView
        · rfl
      clear_value t
      split
      · exact ht
      · split
        · split
          · exact ht
          · exact (State.setDirty_stmView ..).trans ht
        · exact ht

theorem State.flushParts_stmView (s : State) (j : Nat) (parts : List (List (List Byte))) : (s.flushParts j parts).1.stmView = s.stmView := by
  unfold State.flushParts
  refine foldl_kept (fun a : State × Option (List Nat) => a.1.stmView) (fun a p => ?_) parts (s, some [])
  dsimp only
  split
  · rfl
  · rename_i exts _
    have hnew : (a.1.newExtent none p.length false none).1.stmView = a.1.stmView := State.newExtent_stmView ..
    split
    · exact (foldl_kept State.stmView State.dropExtent_stmView ..).trans hnew
    · have hput := (State.flashPut_stmView (a.1.newExtent none p.length false none).1 (.stmt j) ‹_› 0 p false).trans hnew
      split
      · exact hput
      · exact (foldl_kept State.stmView State.dropExtent_stmView ..).trans hput

/-! #### The page pool (R68, R79, R80) -/

theorem State.pgMoveN_stmView (s : State) (m : Nat) (a b : PgCount) (n : Nat) : (s.pgMoveN m a b n).stmView = s.stmView := by
  unfold State.pgMoveN
  split <;> rfl

theorem State.freeFrame_stmView (s : State) (m f : Nat) (c : PgCount) : (s.freeFrame m f c).stmView = s.stmView := by
  unfold State.freeFrame
  split
  · split <;> rfl
  · exact State.pgMoveN_stmView ..

theorem State.takeFrame_stmView (s : State) (m : Nat) (c : PgCount) : (s.takeFrame m c).1.stmView = s.stmView := by
  unfold State.takeFrame
  extract_lets u f high t v
  have hv : v.stmView = s.stmView := State.pgMoveN_stmView ..
  dsimp only
  split
  · exact (State.raise_stmView _ _).trans hv
  · exact hv

theorem State.allocPage_stmView (s : State) (ctx i l b : Nat) (c : PgCount) : (s.allocPage ctx i l b c).1.stmView = s.stmView := by
  refine State.allocPage_induction (P := fun r => r.1.stmView = s.stmView) s ctx i l b c ?_ fun m => ?_
  · rfl
  · dsimp only
    exact s.takeFrame_stmView m c

theorem State.allocMany_stmView (s : State) (ctx i l n : Nat) (c : PgCount) : (s.allocMany ctx i l n c).1.stmView = s.stmView := by
  unfold State.allocMany
  extract_lets r
  have hr : r.1.stmView = s.stmView := by
    refine foldl_kept (fun a : State × Option (List (Nat × Nat)) × List (Nat × Nat) => a.1.stmView) (fun a b => ?_) _ _
    have hp := State.allocPage_stmView a.1 ctx i l b c
    cases a.2.1 with
    | none => rfl
    | some got =>
      generalize a.1.allocPage ctx i l b c = p at hp ⊢
      obtain ⟨t, page⟩ := p
      cases page <;> exact hp
  clear_value r
  cases r.2.1 with
  | none => exact (foldl_kept State.stmView (fun t (f : Nat × Nat) => t.freeFrame_stmView f.1 f.2 c) ..).trans hr
  | some l => exact hr

/-! #### Memory (R22) -/

theorem State.readCw_stmView (s : State) (cw : Nat) : (s.readCw cw).1.stmView = s.stmView := by
  unfold State.readCw
  dsimp only
  (repeat' split) <;> rfl

theorem State.readCws_stmView (s : State) (l : List Nat) : (s.readCws l).1.stmView = s.stmView := by
  induction l generalizing s with
  | nil => rfl
  | cons cw l ih =>
    unfold State.readCws
    dsimp only
    split
    · exact (ih _).trans (s.readCw_stmView cw)
    · exact s.readCw_stmView cw

theorem State.readMem_stmView (s : State) (key n : Nat) : (s.readMem key n).1.stmView = s.stmView := s.readCws_stmView _

theorem State.writeMem_stmView (s : State) (key : Nat) (bs : List Byte) : (s.writeMem key bs).1.stmView = s.stmView := by
  unfold State.writeMem
  extract_lets r
  have hr : r.1.stmView = s.stmView := s.readCws_stmView _
  split
  · exact (foldl_kept State.stmView (fun _ _ => by rfl) (cwsOf key bs.length) r.1).trans hr
  · exact hr

end Sys2Proof.Machine

namespace Sys2Proof.Machine

/-! ### A member that stands while pages are copied (R258, R260, R267) -/

/-- Member `j` is `x`, and node time is `n`. -/
def State.MemberAt (s : State) (j : Nat) (x : StmJob) (n : Nat) : Prop := s.stm.jobs.look j = some x ∧ s.nodeNs = n

theorem State.MemberAt.of_stmView {s t : State} {j n : Nat} {x : StmJob} (hs : s.MemberAt j x n) (h : t.stmView = s.stmView) :
    t.MemberAt j x n := by
  rw [State.MemberAt, State.stm_of_stmView h, State.nodeNs_of_stmView h]
  exact hs

theorem State.MemberAt.updJob_ne {s : State} {j p n : Nat} {x : StmJob} (hs : s.MemberAt j x n) (f : StmJob → StmJob) (hp : j ≠ p) :
    (s.updJob p f).MemberAt j x n :=
  ⟨(Tbl.look_upd_ne _ f hp).trans hs.1, hs.2⟩

theorem State.sendCfPage_stmView (s : State) (j page : Nat) (data : List Byte) : (s.sendCfPage j page data).stmView = s.stmView := by
  unfold State.sendCfPage
  split
  · rfl
  · split <;> rfl

/-- A copied page changes the member whose Statement is open, so one without an open Statement stays as it is (R258). -/
theorem State.MemberAt.copyPage {s : State} {j n : Nat} {x : StmJob} (hs : s.MemberAt j x n) (hidle : x.openStm = none) (p h k : Nat) :
    (s.copyPage p h k).MemberAt j x n := by
  unfold State.copyPage
  split
  · exact hs
  · rename_i y hy
    split
    · rename_i v slot hv _
      have hne : j ≠ p := by
        rintro rfl
        rw [hs.1, Option.some.injEq] at hy
        simp [← hy, hidle] at hv
      split
      · exact hs
      · split
        · exact hs
        · split
          · exact hs
          · extract_lets r data s₁ sh' bad v' s₂ s₃
            have hr : r.1.stmView = s.stmView := by
              simp only [r]
              split
              · exact s.readMem_stmView _ _
              · rfl
            have h₁ : s₁.MemberAt j x n := hs.of_stmView ((State.writeMem_stmView ..).trans hr)
            have h₂ : s₂.MemberAt j x n := (h₁.updJob_ne _ hne).of_stmView (State.publishJob_stmView ..)
            have h₃ : s₃.MemberAt j x n := by
              simp only [s₃]
              split
              · exact h₂
              · exact h₂.of_stmView (State.raise_stmView ..)
            split
            · exact h₃
            · exact h₃.of_stmView (State.sendCfPage_stmView ..)
    · exact hs

theorem State.MemberAt.copyFirst {s : State} {j n : Nat} {x : StmJob} (hs : s.MemberAt j x n) (hidle : x.openStm = none) (key len : Nat) :
    (s.copyFirst key len).MemberAt j x n := by
  unfold State.copyFirst
  extract_lets ps
  split
  · exact hs
  · refine foldl_inv (P := fun t : State => t.MemberAt j x n) (fun t p ht => ht.copyPage hidle p.1 p.2.1 p.2.2) ?_ ps
    exact hs.of_stmView (State.wr_stmView ..)

/-- Pages copied back leave a member without an open Statement as it is. -/
theorem State.MemberAt.copyBack {s : State} {j n : Nat} {x : StmJob} (hs : s.MemberAt j x n) (hidle : x.openStm = none) (y : StmJob)
    (v : Statement) (page : Nat → List Byte) : (s.copyBack y v page).MemberAt j x n := by
  unfold State.copyBack
  refine foldl_inv (P := fun t : State => t.MemberAt j x n) (fun t h ht => ?_) hs _
  refine foldl_inv (P := fun t : State => t.MemberAt j x n) (fun u k hu => ?_) ht _
  split
  · exact hu
  · exact (hu.copyFirst hidle _ _).of_stmView (State.writeMem_stmView ..)

/-! ### A member's registers (R259, R269) -/

theorem State.rd_publishJob_ne (s : State) (j : Nat) {q : Reg} (i : Nat) (hpages : q ≠ .stmJobPages) (hstate : q ≠ .stmJobState) :
    (s.publishJob j).rd q i = s.rd q i := by
  unfold State.publishJob
  split
  · rfl
  · exact (State.rd_wr_ne _ _ (by simp [hstate])).trans (State.rd_wr_ne _ _ (by simp [hpages]))

theorem State.rd_restoreStatus (s : State) (step reason st : Nat) :
    (s.restoreStatus step reason st).rd .stmRestoreStatus 0 = BitVec.ofNat 64 (st + reason * 256 + step % 2 ^ 32 * 2 ^ 32) :=
  State.rd_wr_same ..

theorem State.rd_restoreStatus_ne (s : State) (step reason st : Nat) {q : Reg} (i : Nat) (h : q ≠ .stmRestoreStatus) :
    (s.restoreStatus step reason st).rd q i = s.rd q i :=
  State.rd_wr_ne _ _ (by simp [h])

/-- A member's registers published after an event of the block leave the event set. -/
theorem State.bit_publishJob_raise (s : State) (j : Nat) {e : Evt} (hreg : e.reg = .stmEvt) (hbit : e.bit < 64) :
    bit (((s.raise e).publishJob j).rd .stmEvt 0).toNat e.bit = true := by
  rw [State.rd_publishJob_ne _ _ _ (by decide) (by decide), ← hreg]
  exact s.bit_raise_same e hbit

/-! ### Flushing (R265) -/

/-- The units a flush of the Statement `v` in slot `k` writes: the pages of the shards that the member writes itself, two units each. -/
def State.flushData (s : State) (x : StmJob) (k : Nat) (v : Statement) : List (List Byte) :=
  (v.shards.filter (fun h => !h.ref)).flatMap (fun h => (List.range h.count).flatMap (fun i =>
    [takeAt (s.slotPage x k (h.first + i)) 0 unitBytes, takeAt (s.slotPage x k (h.first + i)) unitBytes unitBytes]))

/-- The member of a job whose Statement `v` goes to the extents `es`. -/
def StmJob.flushingTo (x : StmJob) (v : Statement) (es : List Nat) : StmJob := { x with flashNew := some (v, es, es.length) }

/-- A flush with writes outstanding is not over. -/
theorem State.flashCommitted_pending {s : State} {j n : Nat} {x : StmJob} {v : Statement} {es : List Nat} (hx : s.stm.jobs.look j = some x)
    (hnew : x.flashNew = some (v, es, n)) (hn : n ≠ 0) : s.flashCommitted j = s := by
  obtain ⟨m, rfl⟩ := Nat.exists_eq_succ_of_ne_zero hn
  simp only [State.flashCommitted, hx, hnew]

theorem State.look_flushParts {s u : State} {i j : Nat} {parts : List (List (List Byte))} {r : Option (List Nat)}
    (h : s.flushParts j parts = (u, r)) : u.stm.jobs.look i = s.stm.jobs.look i := by
  have hview := s.flushParts_stmView j parts
  rw [h] at hview
  rw [State.stm_of_stmView hview]

/-- A flush whose parts the pool takes goes on to their extents. -/
theorem exec_statementFlush {j k step : Nat} {s u : State} {x : StmJob} {v : Statement} {es : List Nat} (hlive : s.Live)
    (hx : s.stm.jobs.look j = some x) (hflush : x.flushing = some step) (hslot : x.slotOf step = some (k, v)) (hnew : x.flashNew = none)
    (hparts : s.flushParts j (chunks 1048576 (s.flushData x k v).length (s.flushData x k v)) = (u, some es)) (hes : es ≠ []) :
    exec (.statementFlush j) s = .next (u.updJob j fun y => y.flushingTo v es) := by
  have hu : u.stm.jobs.look j = some x := (State.look_flushParts hparts).trans hx
  have hgo : (u.updJob j fun y => y.flushingTo v es).flashCommitted j = u.updJob j fun y => y.flushingTo v es :=
    State.flashCommitted_pending (State.look_updJob _ hu) rfl (by simpa using hes)
  rw [State.flushData] at hparts
  change execStatementFlush j s = _
  simp only [execStatementFlush, hx, hflush, Option.bind_some, hslot, hnew, hlive, Bool.or_self, Bool.false_eq_true, if_false, List.foldl_nil,
    hparts]
  exact congrArg _ hgo

/-- The member of a job whose flash restore point is the Statement `v` in the extents `es`. -/
def StmJob.flashed (x : StmJob) (v : Statement) (es : List Nat) (time : Nat) : StmJob :=
  { x with
    flashNew := none
    flashCur := some (v, es)
    record := x.record.map (fun r => if r.step = v.step then { r with flash := true, time := time, seq := r.seq + 1 } else r) }

/-- The extents of the member's flash restore point. -/
def StmJob.flashExtents (x : StmJob) : List Nat :=
  match x.flashCur with
  | some c => c.2
  | none => []

/-- A step whose writes are all programmed becomes the flash restore point, the extents of the one before released. -/
theorem State.applyFlash_eq {s : State} {j : Nat} {x : StmJob} {v : Statement} {es : List Nat} (hx : s.stm.jobs.look j = some x)
    (hnew : x.flashNew = some (v, es, 0)) :
    ∃ u : State, u.stm = s.stm ∧
      s.applyFlash j v.step = (u.updJob j fun y => y.flashed v es u.nodeNs).wr .stmJobFlash j (BitVec.ofNat 64 v.step) := by
  refine ⟨_, State.stm_of_stmView (foldl_kept State.stmView State.dropExtent_stmView x.flashExtents s), ?_⟩
  simp only [State.applyFlash, hx, hnew, ne_eq, not_true, if_false]
  rfl

/-- FLASH_COMMIT_NOTICE at a member whose job another controller coordinates. -/
theorem exec_flashCommitNotice {tag : Word} {rank step j : Nat} {s : State} {x : StmJob} (hlive : s.Live) (hno : s.coordinates tag = none)
    (hmember : s.localMember tag rank = some (j, x)) : exec (.flashCommitNotice tag rank step) s = .next (s.applyFlash j step) := by
  change execFlashCommitNotice tag rank step s = _
  simp only [execFlashCommitNotice, hlive, Bool.false_eq_true, if_false, hno, hmember]

/-! ### Restores and rollback (R267, R268) -/

theorem State.slotPage_congr {s t : State} (h : t.mem = s.mem) (x : StmJob) (k i : Nat) : t.slotPage x k i = s.slotPage x k i := by
  simp only [State.slotPage, State.bytesAt, h]

/-- With every slot page readable and the ranges mapped, each page comes back from its slot page. -/
theorem State.restoreFrom_readable {s : State} {j k step : Nat} {x : StmJob} {w : Statement} (l : List (List Byte))
    (hx : s.stm.jobs.look j = some x) (hslot : x.slotOf step = some (k, w)) (hread : s.failedPages x k w = []) (hpoison : w.poisoned = [])
    (hmapped : s.restorable x w = true) :
    s.restoreFrom j step l = ((s.abortStatement j).copyBack x w (fun i => s.slotPage x k i), 0) := by
  simp only [State.restoreFrom, hx, hslot, hread, hpoison, List.nil_append, List.isEmpty_nil, if_true, List.all_nil, Bool.not_true,
    Bool.false_eq_true, if_false, hmapped, List.contains_nil, State.slotPage_congr (s.abortStatement_mem j)]

/-- RESTORE of the last committed Statement, every member of the same shape. -/
theorem exec_restore {rq : Requester} {v : Word} {l : List (List Byte)} {j : Nat} {s u : State} {x : StmJob} {r : JobRec}
    (hopen : WriteOpen s rq .stmRestore 0) (hj : j = bits v.toNat 0 4) (hdram : bit v.toNat 4 = false) (hallowed : s.jobAllowed rq j = true)
    (hx : s.stm.jobs.look j = some x) (hrec : x.record = some r) (hdone : s.restoreFrom j r.step l = (u, 0)) :
    exec (.restore rq v .same l) s = .next (u.restoreStatus r.step 0 2) := by
  subst hj
  change execRestore rq v .same l s = _
  simp [execRestore, hallowed, State.woWrite_of_writeOpen hopen, hx, hdram, hrec, hdone]

/-- A member with the restore point `step` in a job commit record of its own. -/
def StmJob.rolledBack (x : StmJob) (step : Nat) : StmJob :=
  match x.slotOf step with
  | some (k, _) => { x with record := x.record.map (fun y => if y.step = step then y else { y with step := step, slot := k, seq := y.seq + 1 }) }
  | none => x

/-- A rollback whose restore is done names its step and sets its event. -/
theorem exec_rollback {j step : Nat} {l : List (List Byte)} {s u : State} (hlive : s.Live) (hj : s.stm.jobs.has j = true)
    (hdone : s.restoreFrom j step l = (u, 0)) :
    exec (.rollback j step l) s = .next
      (((((u.updJob j fun x => x.rolledBack step).wr .stmJobStep j (BitVec.ofNat 64 step)).restoreStatus step 0 2).raise
        Evt.stm_rollback).publishJob j) := by
  change execRollback j step l s = _
  simp only [execRollback, hlive, hj, Bool.not_true, Bool.or_self, Bool.false_eq_true, if_false, State.rollbackTo, hdone, ne_eq, not_true]
  rfl

/-! ### Takeover (R268) -/

theorem State.propose_stmView {s : State} (c : MapChange) (h : s.dfb.leading = false) : (s.propose c).stmView = s.stmView := by
  unfold State.propose
  rw [h, if_neg Bool.false_ne_true]
  split <;> rfl

/-- A controller that does not lead its domain has a new member as soon as it creates one. -/
theorem State.addJob_memberAt {s : State} (j : Nat) (d : JobDesc) (fs : List (Nat × Nat)) (h : s.dfb.leading = false) :
    ∃ (gen : Nat) (a b : List (Nat × Nat)), (s.addJob j d fs).MemberAt j (StmJob.fresh gen d a b) s.nodeNs := by
  refine ⟨s.stm.gens.lookD j 1, fs.take d.pages, fs.drop d.pages, ?_⟩
  unfold State.addJob
  extract_lets gen s₁ s₂ s₃
  have h₂ : s₂.MemberAt j (StmJob.fresh gen d (fs.take d.pages) (fs.drop d.pages)) s.nodeNs := ⟨Tbl.look_put_same .., rfl⟩
  refine State.MemberAt.of_stmView (s := s₂) h₂ ((State.publishJob_stmView ..).trans ?_)
  simp only [s₃]
  split
  · exact State.propose_stmView _ h
  · rfl

/-- The member of a job that its spare has taken over at the Statement `w`. -/
def StmJob.takenOver (x : StmJob) (w : Statement) (shape : List Byte) (time : Nat) : StmJob :=
  { x with slotA := some w, record := some ⟨w.step, 0, false, false, shape, time, 1⟩ }

/-- The pages are in the ranges of the new member `j`, and its job commit record is written. -/
def State.tookOver (s : State) (j : Nat) (w : Statement) (shape : List Byte) : State :=
  (((s.updJob j fun x => x.takenOver w shape s.nodeNs).wr .stmJobStep j (BitVec.ofNat 64 w.step)).raise Evt.stm_takeoverDone).publishJob j

/-- The Statement a takeover makes of its shards: every page stands in the Counterfoil alone. -/
def takeoverStatement (step time : Nat) (l : List ShardSpec) : Statement :=
  ⟨step, time, takeoverShards l 0, true, some time, List.range ((takeoverShards l 0).map (fun h => h.count)).sum⟩

/-- TAKEOVER of a member that the spare can create. -/
theorem exec_takeover {desc shape : List Byte} {peer step j : Nat} {l : List ShardSpec} {s u : State} {d : JobDesc} {fs : List (Nat × Nat)}
    {x : StmJob} (data : List (List Byte)) (hlive : s.Live) (hfree : lowestFree s.stm.jobs.has 0 16 = some j) (hform : jobForm desc = true)
    (hd : d = { jobDescOf desc with peer := peer }) (hres : s.resident d.ctx = true) (hroom : s.pastHigh (2 * d.pages) = false)
    (hfs : (s.takeSlots d.ctx j d).2 = some fs) (hu : u = (s.takeSlots d.ctx j d).1.addJob j d fs) (hx : u.stm.jobs.look j = some x)
    (hmapped : u.restorable x (takeoverStatement step s.nodeNs l) = true) :
    exec (.takeover desc peer step shape l data) s =
      .next ((u.copyBack x (takeoverStatement step s.nodeNs l) fun i => data.getD i []).tookOver j (takeoverStatement step s.nodeNs l) shape) := by
  subst hd hu
  rw [takeoverStatement] at hmapped
  change execTakeover desc peer step shape l data s = _
  simp only [execTakeover, hfree, hlive, hform, hres, hroom, Bool.not_true, Bool.or_self, Bool.false_eq_true, if_false, hfs, hx, hmapped]
  rfl

/-- A member taken over has its Statement, its job commit record, its step and its event. -/
theorem State.MemberAt.tookOver {s : State} {j n : Nat} {x : StmJob} (hs : s.MemberAt j x n) (w : Statement) (shape : List Byte) :
    (s.tookOver j w shape).stm.jobs.look j = some (x.takenOver w shape n) ∧
      (s.tookOver j w shape).rd .stmJobStep j = BitVec.ofNat 64 w.step ∧
      bit ((s.tookOver j w shape).rd .stmEvt 0).toNat Evt.stm_takeoverDone.bit = true := by
  obtain ⟨hx, rfl⟩ := hs
  refine ⟨?_, ?_, State.bit_publishJob_raise _ j rfl (by decide)⟩
  · rw [State.tookOver, State.publishJob_stm, State.raise_stm, State.wr_stm]
    exact State.look_updJob _ hx
  · rw [State.tookOver, State.rd_publishJob_ne _ _ _ (by decide) (by decide), State.rd_raise_ne _ _ (by simp [Evt.stm_takeoverDone])]
    exact State.rd_wr_same ..

/-- Settles O39: the accepted flush has the extents of its parts outstanding; the notice makes them the flash restore point; a restore copies
the slot pages back; a rollback done names its step; and copying leaves the new member, which has no Statement open, as its spare made it. -/
theorem statementFlushRestoreAndTakeover : Obligations.StatementFlushRestoreAndTakeover := by
  unfold Obligations.StatementFlushRestoreAndTakeover
  refine ⟨?flushed, ?noticed, ?restored, ?rolledBack, ?takenOver⟩
  case flushed =>
    rintro j k step s u x v _ es hlive hx ⟨hflush, hslot, hnew⟩ rfl ⟨hparts, hes⟩
    refine ⟨_, exec_statementFlush hlive hx hflush hslot hnew hparts hes, ?_, rfl, rfl⟩
    rw [State.look_updJob _ ((State.look_flushParts hparts).trans hx)]
    rfl
  case noticed =>
    rintro tag rank _ j s x v es hlive ⟨hno, hmember, hx⟩ ⟨hnew, rfl⟩
    obtain ⟨u, hstm, heq⟩ := State.applyFlash_eq hx hnew
    refine ⟨_, exec_flashCommitNotice hlive hno hmember, ?_, ?_, State.applyFlash_mem ..⟩
    · rw [heq, State.wr_stm, State.look_updJob _ (hstm ▸ hx)]
      rfl
    · rw [heq, State.rd_wr_same]
  case restored =>
    rintro rq v l j k s x r w hopen ⟨hj, hdram, hallowed, hx⟩ ⟨hrec, hslot⟩ ⟨hread, hpoison, hmapped⟩
    exact ⟨_, exec_restore hopen hj hdram hallowed hx hrec (State.restoreFrom_readable l hx hslot hread hpoison hmapped), rfl⟩
  case rolledBack =>
    intro j step l s u hlive hj hdone
    refine ⟨_, exec_rollback hlive hj hdone, ?_, ?_, State.bit_publishJob_raise _ j rfl (by decide), by simp⟩
    · rw [State.rd_publishJob_ne _ _ _ (by decide) (by decide), State.rd_raise_ne _ _ (by simp [Evt.stm_rollback]),
        State.rd_restoreStatus_ne _ _ _ _ _ (by decide), State.rd_wr_same]
    · rw [State.rd_publishJob_ne _ _ _ (by decide) (by decide), State.rd_raise_ne _ _ (by simp [Evt.stm_rollback]), State.rd_restoreStatus,
        Nat.zero_mul, Nat.add_zero]
  case takenOver =>
    rintro desc shape peer step j l data s u d fs x _ hlive hfree ⟨hform, hd, hres, hroom⟩ hfs ⟨hu, hx, hlead⟩ rfl hmapped
    have hview : (s.takeSlots d.ctx j d).1.stmView = s.stmView := State.allocMany_stmView ..
    obtain ⟨gen, a, b, hnew⟩ := State.addJob_memberAt j d fs ((congrArg Dfb.leading (State.dfb_of_stmView hview)).trans hlead)
    rw [← hu, State.nodeNs_of_stmView hview] at hnew
    obtain rfl : StmJob.fresh gen d a b = x := Option.some.inj (hnew.1.symm.trans hx)
    obtain ⟨hmember, hstep, hevt⟩ := (hnew.copyBack rfl (StmJob.fresh gen d a b) (takeoverStatement step s.nodeNs l)
      fun i => data.getD i []).tookOver (takeoverStatement step s.nodeNs l) shape
    exact ⟨_, exec_takeover data hlive hfree hform hd hres hroom hfs hu hx hmapped, congrArg (Option.map _) hmember, hstep, hevt⟩

end Sys2Proof.Machine

namespace Sys2Proof.Machine

/-! ### A host write in a memory that lists its keys out of order (log 4, R22, R275) -/

/-- Node port 0's hold is gone, and memory lists byte 1 of the node window before byte 0, both 1: not the canonical form of log 4. -/
def keysOutOfOrder : State := { portHoldsLine.onNmc (fun m => { m with dir := .empty }) with mem := [(keyNode 1, 1), (keyNode 0, 1)] }

/-- Head 0's write of a line of zeros to line 0. -/
def zeroLineWrite : NReq := ⟨.host 0 7, .write (2 ^ 64 - 1) [] true, 0 / 64 * 64, keysOutOfOrder.nmc.serial, false⟩

theorem keysOutOfOrder_live : keysOutOfOrder.Live := by decide +kernel

theorem keysOutOfOrder_agentSt : keysOutOfOrder.agentSt 0 = 1 := by decide +kernel

theorem keysOutOfOrder_ingressOpen : keysOutOfOrder.ingressOpen 0 zeroLineWrite := by
  unfold State.ingressOpen
  decide +kernel

theorem keysOutOfOrder_lineFree : keysOutOfOrder.lineFree zeroLineWrite := by
  unfold State.lineFree State.CleanAt
  decide +kernel

/-- A host write of a head in service arrives at the window. -/
theorem exec_cxlMemWrite {head : Nat} {s : State} (tag off : Nat) (m : Meta0) (mask : Nat) (data : List Byte) (hhead : head < 2)
    (hst : s.agentSt head = 1) (hlive : s.Live) :
    exec (.cxlMemWrite head tag off m mask data) s =
      .next (s.arrive head (.host head tag) (.write mask data (decide (m = .inv))) (off / 64 * 64) false) := by
  have hopen : (decide (head < 2) && decide (s.agentSt head = 1) && !s.frz.frozen) = true := by simp [hhead, hst, hlive]
  change Host.Outcome.next (if _ then _ else _) = _
  exact congrArg _ (if_pos hopen)

/-- The zero written to byte 0 is not found: the write stops at the first key above it, and the byte's old cell stands behind. -/
theorem arrive_keysOutOfOrder_keeps_byte :
    memRead (keysOutOfOrder.arrive 0 (.host 0 7) (.write (2 ^ 64 - 1) [] true) 0 false).mem (keyNode 0) = 1 := by decide +kernel

/-- Refutes O41: its clause for a host write asks nothing of memory's form, and in a memory that lists its keys out of order
(`keysOutOfOrder`) a line of zeros written to line 0 leaves its byte 0 reading 1. No step leads to such a memory from a canonical one (O7). -/
theorem not_nodeMemoryRequests : ¬ Obligations.NodeMemoryRequests := by
  unfold Obligations.NodeMemoryRequests
  rintro ⟨-, hwrite, -⟩
  obtain ⟨t, hexec, -, hbytes, -⟩ := hwrite 0 7 0 (2 ^ 64 - 1) .inv [] keysOutOfOrder zeroLineWrite keysOutOfOrder_live
    ⟨by omega, keysOutOfOrder_agentSt⟩ rfl keysOutOfOrder_ingressOpen keysOutOfOrder_lineFree
  rw [exec_cxlMemWrite 7 0 .inv _ _ (by omega) keysOutOfOrder_agentSt keysOutOfOrder_live, Host.Outcome.next.injEq] at hexec
  have hkept : memRead t.mem (keyNode 0) = 1 := hexec ▸ arrive_keysOutOfOrder_keeps_byte
  have hzero : memRead t.mem (keyNode 0) = 0 := hbytes 0 (by omega)
  exact absurd (hkept.symm.trans hzero) (by decide)

end Sys2Proof.Machine

namespace Sys2Proof.Machine

/-! ### What leaves the node window alone -/

/-- The node window's side of a state: its tables, the poisoned lines and the agents' status registers. -/
def State.nodeView (s : State) : Nmc × List Nat × (Nat → Word) := (s.nmc, s.poison, fun a => s.rd .nmcAgentStatus a)

theorem State.nmc_of_nodeView {s t : State} (h : t.nodeView = s.nodeView) : t.nmc = s.nmc := congrArg Prod.fst h

theorem State.wr_nodeView (s : State) {r : Reg} (i : Nat) (v : Word) (h : r ≠ .nmcAgentStatus) : (s.wr r i v).nodeView = s.nodeView := by
  have hrd : ∀ a, (s.wr r i v).rd .nmcAgentStatus a = s.rd .nmcAgentStatus a := fun a => State.rd_wr_ne _ _ (by simp [h.symm])
  simp [State.nodeView, hrd]

theorem State.setFld_nodeView (s : State) {f : Fld} (i x : Nat) (h : f.reg ≠ .nmcAgentStatus) : (s.setFld f i x).nodeView = s.nodeView :=
  s.wr_nodeView i _ h

theorem State.raise_nodeView (s : State) {e : Evt} (h : e.reg ≠ .nmcAgentStatus) : (s.raise e).nodeView = s.nodeView := by
  have hrd : ∀ a, (s.raise e).rd .nmcAgentStatus a = s.rd .nmcAgentStatus a := fun a => State.rd_raise_ne _ _ (by simp [h.symm])
  simp [State.nodeView, hrd]

/-! #### The flash pool (R234, R247, R249) -/

theorem State.trace_nodeView (s : State) (hub source ctx : Nat) (ctxValid : Bool) (inst value : Nat) :
    (s.trace hub source ctx ctxValid inst value).nodeView = s.nodeView := by
  unfold State.trace
  dsimp only
  split
  · split
    · rfl
    · rw [State.raise_nodeView _ (by decide), State.countSat, State.setFld_nodeView _ _ _ (by decide)]
  · rfl

theorem State.poolTo_nodeView (s : State) (st : Nat) : (s.poolTo st).nodeView = s.nodeView := by
  rw [State.poolTo, State.trace_nodeView, State.setFld_nodeView _ _ _ (by decide)]

theorem State.closePool_nodeView (s : State) : s.closePool.nodeView = s.nodeView := by
  unfold State.closePool
  split
  · rw [State.raise_nodeView _ (by decide), State.wr_nodeView _ _ _ (by decide), State.poolTo_nodeView]
  · rfl

theorem State.reopenPool_nodeView (s : State) : s.reopenPool.nodeView = s.nodeView := by
  unfold State.reopenPool
  split
  · rw [State.wr_nodeView _ _ _ (by decide), State.poolTo_nodeView]
  · rfl

theorem State.setDirty_nodeView (s : State) (src : DirtySrc) (n : Nat) : (s.setDirty src n).nodeView = s.nodeView := by
  unfold State.setDirty
  extract_lets t d u v
  have hu : u.nodeView = s.nodeView := State.wr_nodeView _ _ _ (by decide)
  have hv : v.nodeView = s.nodeView := by
    unfold v
    split
    · rw [State.setFld_nodeView _ _ _ (by decide), hu]
    · exact hu
  split
  · rw [State.wr_nodeView _ _ _ (by decide), hv]
  · exact hv

theorem State.journal_nodeView (s : State) (h : Nat) (r : JRec) : (s.journal h r).nodeView = s.nodeView := State.setDirty_nodeView ..

theorem State.setSb_nodeView (s : State) (i : Nat) (x : Sb) : (s.setSb i x).nodeView = s.nodeView := by
  unfold State.setSb
  extract_lets o dec inc s₁ n n' s₂
  have hdec : ∀ t st, (dec t st).nodeView = t.nodeView := fun t st => by
    cases st <;> exact State.setFld_nodeView _ _ _ (by decide)
  have hinc : ∀ t st, (inc t st).nodeView = t.nodeView := fun t st => by
    cases st <;> exact State.setFld_nodeView _ _ _ (by decide)
  have hs₁ : s₁.nodeView = s.nodeView := by
    unfold s₁
    split
    · rfl
    · rw [hinc, hdec]
  have hs₂ : s₂.nodeView = s.nodeView := by
    unfold s₂
    split
    · exact hs₁
    · rw [State.wr_nodeView _ _ _ (by decide), hs₁]
  exact hs₂

theorem State.setEntry_nodeView (s : State) (u : Nat) (e : Option MapEnt) : (s.setEntry u e).nodeView = s.nodeView := by
  unfold State.setEntry
  extract_lets old s₁ s₂
  clear_value old
  have hs₁ : s₁.nodeView = s.nodeView := by
    unfold s₁
    split
    · exact State.setSb_nodeView ..
    · rfl
  have hs₂ : s₂.nodeView = s₁.nodeView := by
    unfold s₂
    split
    · exact State.setSb_nodeView ..
    · rfl
  rw [State.wr_nodeView _ _ _ (by decide), State.wr_nodeView _ _ _ (by decide)]
  exact hs₂.trans hs₁

theorem State.discardUnits_nodeView (s : State) (us : List Nat) : (s.discardUnits us).nodeView = s.nodeView := by
  unfold State.discardUnits
  rw [State.reopenPool_nodeView]
  refine foldl_kept State.nodeView (fun t u => ?_) us s
  dsimp only
  split
  · rfl
  · exact (State.journal_nodeView ..).trans (t.setEntry_nodeView u none)

/-! #### The pages handed back (R272) -/

theorem State.handBack_nodeView (s : State) (n : Nat) : (s.handBack n).nodeView = s.nodeView := by
  unfold State.handBack
  refine foldl_kept State.nodeView (fun t p => ?_) (s.ssn.handed.take n) s
  dsimp only
  split
  · rw [State.wr_nodeView _ _ _ (by decide), State.wr_nodeView _ _ _ (by decide)]
    rfl
  · rfl

/-! ### Regions (R270 to R272, R285) -/

/-- The region a descriptor that passes R271 names, at base `b` with index `i` (Table 11-1). -/
def State.regionOf (s : State) (w0 w1 i b : Nat) : Region :=
  { gen := s.regionGen i, ctx := bits w0 0 6, temp := bits w0 6 2, hostPark := bit w0 8, readM := bits w0 10 10, writeM := bits w0 20 10,
    base := b, granules := bits w1 0 32, stks := s.stackSet (bits w0 0 6), phase := none, dying := false }

theorem exec_regionCreate {rq : Requester} {v : Word} {s : State} {w0 w1 i b : Nat} (hopen : WriteOpen s rq .nmcRegionCreate 0)
    (hlow : low6 v = 0) (hw0 : w0 = leAt (s.bytesAt (keyHub v.toNat) 32) 0 8) (hw1 : w1 = leAt (s.bytesAt (keyHub v.toNat) 32) 8 8)
    (hform : regionForm w0 w1 = true) (hzero : allZero (takeAt (s.bytesAt (keyHub v.toNat) 32) 16 16) = true)
    (hctx : (s.resident (bits w0 0 6) && s.actsFor rq (bits w0 0 6)) = true) (hfree : lowestFree s.nmc.regions.has 0 4096 = some i)
    (hbase : s.freeGranules 0 s.nmc.window (bits w1 0 32) = some b) :
    exec (.regionCreate rq v) s =
      .next (((s.addRegion i (s.regionOf w0 w1 i b)).regionStatus 2 0 i).raise Evt.nmc_createDone) := by
  change execRegionCreate rq v s = _
  rw [execRegionCreate, hlow, State.woWrite_of_writeOpen hopen]
  simp only [← hw0, ← hw1, hform, hzero, hctx, hfree, hbase, Bool.not_true, Bool.or_self, Bool.false_eq_true, if_false]
  rfl

/-- A created region stands in the table with its identifier and base published, and its granules are zero (R271). -/
theorem State.addRegion_created (s : State) (i : Nat) (r : Region) :
    (s.addRegion i r).nmc.regions.look i = some r ∧ (s.addRegion i r).rd .nmcRegionId i = regionIdent r.ctx i r.gen ∧
      (s.addRegion i r).rd .nmcRegionBase i = BitVec.ofNat 64 (r.base * 65536) ∧
      ∀ k, memRead (s.addRegion i r).mem k =
        if keyNode (r.base * 65536) ≤ k ∧ k < keyNode (r.base * 65536) + r.granules * 65536 then 0 else memRead s.mem k := by
  refine ⟨Tbl.look_put_same .., ?_, State.rd_wr_same .., fun k => memRead_memZero ..⟩
  rw [State.addRegion, State.rd_wr_ne _ _ (by simp), State.rd_wr_same]

@[simp] theorem State.regionStatus_nmc (s : State) (st reason ix : Nat) : (s.regionStatus st reason ix).nmc = s.nmc := rfl

theorem State.rd_regionStatus (s : State) (st reason ix : Nat) :
    (s.regionStatus st reason ix).rd .nmcRegionStatus 0 = BitVec.ofNat 64 (st * 2 ^ 24 + reason * 2 ^ 16 + ix % 4096) := State.rd_wr_same ..

theorem State.rd_regionStatus_ne (s : State) (st reason ix : Nat) {q : Reg} (i : Nat) (h : q ≠ .nmcRegionStatus) :
    (s.regionStatus st reason ix).rd q i = s.rd q i :=
  State.rd_wr_ne _ _ (by simp [h])

/-- The generation after `g` (R270). -/
def nextGen (g : Nat) : Nat := if g = 2 ^ 46 - 1 then 1 else g + 1

/-- The tables of the window once region `i` of generation `g` has ended (R272). -/
def Nmc.ended (m : Nmc) (i g : Nat) : Nmc :=
  { m with regions := m.regions.del i, gens := m.gens.put i (nextGen g), parked := m.parked.keep (fun k _ => decide (k.1 ≠ i)),
           touched := m.touched.keep (fun k _ => decide (k.1 ≠ i)) }

/-- A region deleted none of whose lines is held ends: its rows go, and last its identifier and its base are cleared (R272). -/
theorem State.endRegion_ends {s : State} {i : Nat} {r : Region} (hr : s.nmc.regions.look i = some r) (hdying : r.dying = true)
    (hlines : s.regionLines r = []) :
    ∃ u : State, s.endRegion i = (u.wr .nmcRegionId i 0).wr .nmcRegionBase i 0 ∧ u.nodeView = (s.nmc.ended i r.gen, s.nodeView.2) := by
  unfold State.endRegion
  split
  next hnone => cases hr.symm.trans hnone
  next r' hr' =>
    obtain rfl : r = r' := Option.some.inj (hr.symm.trans hr')
    rw [if_pos (by rw [hdying, hlines]; rfl)]
    extract_lets g ex us s₁ s₂ s₃ s₄
    have h₁ : s₁.nodeView = s.nodeView := s.discardUnits_nodeView us
    have h₃ : s₃.nodeView = (s₁.nmc.ended i r.gen, s₁.nodeView.2) := rfl
    have h₄ : s₄.nodeView = s₃.nodeView := by
      unfold s₄
      split
      · exact s₃.handBack_nodeView r.granules
      · rfl
    rw [h₃, State.nmc_of_nodeView h₁, h₁] at h₄
    exact ⟨s₄, rfl, h₄⟩

/-- A region that is not deleted, or still has lines held, does not end. -/
theorem State.endRegion_waits {s : State} {i : Nat}
    (h : ∀ r, s.nmc.regions.look i = some r → r.dying = true → s.regionLines r ≠ []) : s.endRegion i = s := by
  unfold State.endRegion
  split
  · rfl
  · rename_i r hr
    refine if_neg fun hcond => ?_
    obtain ⟨hdying, hlines⟩ := (Bool.and_eq_true _ _).mp hcond
    exact h r hr hdying (List.isEmpty_iff.mp hlines)

/-- Deleted while none of its lines is held and none of its granules has an access stalled, a region ends at once (R272). -/
theorem State.deleteRegion_eq {s : State} {i : Nat} {r : Region} (hr : s.nmc.regions.look i = some r) (hlines : s.regionLines r = [])
    (hfaults : s.nmc.faults.any (fun k _ => decide (k.1 = i)) = false) :
    s.deleteRegion i = (s.onNmc fun m => { m with regions := m.regions.put i { r with dying := true },
                                                  faults := m.faults.keep fun k _ => decide (k.1 ≠ i) }).endRegion i := by
  have hqs : s.nmc.faults.rows.filter (fun x => decide (x.1.1 = i)) = [] := List.filter_eq_nil_iff.mpr (List.any_eq_false.mp hfaults)
  unfold State.deleteRegion
  split
  next hnone => cases hr.symm.trans hnone
  next r' hr' =>
    obtain rfl : r = r' := Option.some.inj (hr.symm.trans hr')
    extract_lets s₁ qs s₂ s₃ s₄
    have hqs : qs = [] := by
      unfold qs
      exact congrArg (List.flatMap Prod.snd) hqs
    have hs₃ : s₃ = s₂ := congrArg (List.foldl _ s₂) hqs
    have hs₄ : s₄ = s₃ := by
      unfold s₄
      rw [show s₃.regionLines r = [] by rw [hs₃]; exact hlines]
      rfl
    rw [hs₄, hs₃]
    rfl

/-- The region so deleted is gone, its generation advanced and its identifier and base cleared; the others stand. -/
theorem State.deleteRegion_gone {s : State} {i : Nat} {r : Region} (hr : s.nmc.regions.look i = some r) (hlines : s.regionLines r = [])
    (hfaults : s.nmc.faults.any (fun k _ => decide (k.1 = i)) = false) :
    (s.deleteRegion i).nmc.regions.look i = none ∧ (s.deleteRegion i).nmc.gens.look i = some (nextGen r.gen) ∧
      (s.deleteRegion i).rd .nmcRegionId i = 0 ∧ (s.deleteRegion i).rd .nmcRegionBase i = 0 ∧
      ∀ k, k ≠ i → (s.deleteRegion i).nmc.regions.look k = s.nmc.regions.look k := by
  rw [State.deleteRegion_eq hr hlines hfaults]
  generalize hd : (s.onNmc fun m => { m with regions := m.regions.put i { r with dying := true },
                                             faults := m.faults.keep fun k _ => decide (k.1 ≠ i) }) = d
  have hregions : d.nmc.regions = s.nmc.regions.put i { r with dying := true } := by rw [← hd]; rfl
  have hlinesD : d.regionLines { r with dying := true } = [] := by rw [← hd]; exact hlines
  obtain ⟨u, hends, hview⟩ := State.endRegion_ends (by rw [hregions, Tbl.look_put_same]) rfl hlinesD
  have hnmc : u.nmc = d.nmc.ended i r.gen := congrArg Prod.fst hview
  rw [hends, State.wr_nmc, State.wr_nmc, hnmc, Nmc.ended, hregions]
  refine ⟨Tbl.look_del_same .., Tbl.look_put_same .., ?_, State.rd_wr_same .., fun k hk => ?_⟩
  · rw [State.rd_wr_ne _ _ (by simp), State.rd_wr_same]
  · rw [Tbl.look_del_ne _ hk, Tbl.look_put_ne _ _ hk]

theorem exec_regionDelete {rq : Requester} {v : Word} {s : State} {r : Region} (hopen : WriteOpen s rq .nmcRegionDelete 0)
    (hr : s.nmc.regions.look (bits v.toNat 0 12) = some r) (hacts : s.actsFor rq r.ctx = true) :
    exec (.regionDelete rq v) s = .next (s.deleteRegion (bits v.toNat 0 12)) := by
  change execRegionDelete rq v s = _
  simp only [execRegionDelete, hr, hacts, State.woWrite_of_writeOpen hopen]

theorem exec_regionTemp {rq : Requester} {v : Word} {s : State} {r : Region} (hopen : WriteOpen s rq .nmcRegionTemp 0)
    (hr : s.nmc.regions.look (bits v.toNat 0 12) = some r) (hacts : s.actsFor rq r.ctx = true) (htemp : bits v.toNat 12 2 ≠ 3) :
    exec (.regionTemp rq v) s = .next (s.onNmc fun m => { m with
      regions := m.regions.upd (bits v.toNat 0 12) fun r => { r with temp := bits v.toNat 12 2, hostPark := bit v.toNat 14 } }) := by
  change execRegionTemp rq v s = _
  simp only [execRegionTemp, hr, hacts, State.woWrite_of_writeOpen hopen, htemp, if_false]

/-! ### Requests of the window (R273, R275, R279, R283) -/

/-- No ADD waits in any job member. -/
def State.NoAdds (s : State) : Prop := s.stm.jobs.any (fun _ x => !x.adds.isEmpty) = false

/-- With no ORDERED request and no ADD waiting, nothing goes on (R257, R276). -/
theorem State.settleNmc_idle {s : State} (hordered : s.nmc.ordered = []) (hadds : s.NoAdds) : s.settleNmc = s := by
  have hno : ∀ r ∈ s.stm.jobs.rows, r.2.adds = [] := fun r hr => by simpa using List.any_eq_false.mp hadds r hr
  rw [State.settleNmc, hordered, List.length_nil, drainOrdered, State.settleAdds]
  refine List.foldlRecOn _ _ (motive := (· = s)) rfl ?_
  rintro _ rfl r hr
  rw [hno r hr]
  rfl

theorem State.takeIn_unordered {s : State} {q : NReq} (h : q.ordered = false) : s.takeIn q = s.nmcServe q := by
  unfold State.takeIn
  split
  · simp [h]
  · rfl

theorem State.nmcServe_refused {s : State} {q : NReq} (h : s.nmcAllowed q = false) : s.nmcServe q = s.nmcRefuse q := by
  simp [State.nmcServe, h]

/-- A request that R273 allows lies in a region. -/
theorem State.regionAt_of_nmcAllowed {s : State} {q : NReq} (h : s.nmcAllowed q = true) : ∃ i r, s.regionAt q.off = some (i, r) := by
  unfold State.nmcAllowed at h
  cases hr : s.regionAt q.off with
  | none => cases ha : q.agent <;> simp [hr, ha] at h
  | some r => exact ⟨r.1, r.2, rfl⟩

/-- Touching a granule changes its time of access alone. -/
theorem State.touch_eq (s : State) (off : Nat) : ∃ x, s.touch off = s.onNmc fun m => { m with touched := x } := by
  unfold State.touch
  split
  · exact ⟨_, rfl⟩
  · exact ⟨s.nmc.touched, rfl⟩

/-- A request whose line is free is performed, its granule touched (R279, R285). -/
theorem State.nmcServe_free {s : State} {q : NReq} (h : s.lineFree q) : s.nmcServe q = (s.touch q.off).nmcDo q := by
  obtain ⟨hallowed, hdram, hdir, hway, hprot, -⟩ := h
  obtain ⟨i, r, hr⟩ := State.regionAt_of_nmcAllowed hallowed
  obtain ⟨x, ht⟩ := s.touch_eq q.off
  have hdram : s.nmc.parked.has (i, q.off / 65536 - r.base) = false := by simpa [hr] using hdram
  unfold State.nmcServe
  rw [hallowed, ht]
  generalize hu : (s.onNmc fun m => { m with touched := x }) = u
  have hr : u.regionAt q.off = some (i, r) := hu ▸ hr
  have hdram : u.nmc.parked.has (i, q.off / 65536 - r.base) = false := hu ▸ hdram
  have hdir : u.nmc.dir.look q.line = none := hu ▸ hdir
  have hway : u.evictWay q.line = none := hu ▸ hway
  have hprot : u.protectedAt (keyNode q.off) = [] := hu ▸ hprot
  have hact : u.dirAct q = .go := by simp [State.dirAct, hdir, hway]
  have hpx : u.resolvePx q.line = u := by simp [State.resolvePx, hdir]
  simp [hr, hdram, hdir, hpx, hact, State.nmcPerform, hprot]

/-- A host read with no hold of a clean line answers its bytes and is counted (R275). -/
theorem State.nmcDo_hostRead {s : State} {q : NReq} {a tag : Nat} (hsrc : q.src = .host a tag) (hop : q.op = .read 0)
    (hclean : s.CleanAt (keyNode q.off) 64) :
    s.nmcDo q = (s.countXfer a 64 0).send (.cxlData a tag ((s.countXfer a 64 0).agentLoad a) false (s.bytesAt (keyNode q.off) 64)) := by
  have hafter : s.dirAfter q true = s := by simp [State.dirAfter, NReq.agent, hsrc, hop, NReq.writes]
  simp [State.nmcDo, hsrc, hop, State.readMem_clean hclean, hafter]

/-- A host read with no hold of a free line is answered with the line's bytes. -/
theorem State.nmcServe_hostRead {s : State} {q : NReq} {a tag : Nat} (h : s.lineFree q) (hsrc : q.src = .host a tag) (hop : q.op = .read 0) :
    s.nmcServe q = ((s.touch q.off).countXfer a 64 0).send
      (.cxlData a tag (((s.touch q.off).countXfer a 64 0).agentLoad a) false (s.bytesAt (keyNode q.off) 64)) := by
  obtain ⟨x, ht⟩ := s.touch_eq q.off
  have hclean : (s.touch q.off).CleanAt (keyNode q.off) 64 := by
    obtain ⟨-, -, -, -, -, hclean⟩ := h
    rw [ht]
    exact hclean
  rw [State.nmcServe_free h, State.nmcDo_hostRead hsrc hop hclean, State.bytesAt, State.touch_mem]
  rfl

/-- The request in front of agent `a`'s held ones, and the only one, is let in: its bucket is charged and HELD falls (R283). -/
def State.heldLetIn (s : State) (a : Nat) (q : NReq) : State :=
  ((s.onNmc fun m => { m with held := m.held.del a }).setFld Fld.nmcAgentStatus_held a 0).takeBucket a q

theorem exec_ingressHoldRelease {a : Nat} {s : State} {q : NReq} (hheld : s.nmc.held.look a = some [q]) (hcovers : s.covers a q = true) :
    exec (.ingressHoldRelease a) s = s.whenLive ((s.heldLetIn a q).takeIn q).settleNmc := by
  have hfront : s.nmc.held.lookD a [] = [q] := by rw [Tbl.lookD, hheld]; rfl
  change execIngressHoldRelease a s = _
  simp only [execIngressHoldRelease, hfront, hcovers, if_true, List.isEmpty_nil]
  rfl

theorem State.nmcRefuse_hostRead {s : State} {q : NReq} {a tag hold : Nat} (hsrc : q.src = .host a tag) (hop : q.op = .read hold) :
    s.nmcRefuse q = (s.raise Evt.nmc_accessRefused).send
      (.cxlData a tag ((s.raise Evt.nmc_accessRefused).agentLoad a) true []) := by
  simp [State.nmcRefuse, hsrc, NReq.writes, hop]

/-- What an agent's answer and its queue at ingress read of a state, and what must stay for nothing else to go on. -/
def State.ingressView (s : State) : Tbl Nat (List NReq) × List NReq × Stm × List Out × List Host.Cell × (Nat → Word) :=
  (s.nmc.held, s.nmc.ordered, s.stm, s.out, s.mem, fun a => s.rd .nmcAgentStatus a)

theorem State.raise_ingressView (s : State) {e : Evt} (he : e.reg ≠ .nmcAgentStatus) : (s.raise e).ingressView = s.ingressView := by
  have hrd : ∀ a, (s.raise e).rd .nmcAgentStatus a = s.rd .nmcAgentStatus a := fun a => State.rd_raise_ne _ _ (by simp [he.symm])
  simp [State.ingressView, hrd]

theorem State.countXfer_ingressView (s : State) (a rd wr : Nat) : (s.countXfer a rd wr).ingressView = s.ingressView := by
  have hrd : ∀ b, (s.countXfer a rd wr).rd .nmcAgentStatus b = s.rd .nmcAgentStatus b := fun b => State.rd_wr_ne _ _ (by simp)
  simp only [State.ingressView, hrd]
  rfl

theorem State.touch_ingressView (s : State) (off : Nat) : (s.touch off).ingressView = s.ingressView := by
  obtain ⟨x, hx⟩ := s.touch_eq off
  rw [hx]
  rfl

/-- A held host read is answered once its bucket covers it: its agent is not held any more, the answer carries the agent's load, and memory
stays (R283). -/
theorem completes_ingressHoldRelease_hostRead {a tag : Nat} {s v : State} {q : NReq} {poison : Bool} {data : List Byte} (hlive : s.Live)
    (hheld : s.nmc.held.look a = some [q]) (hcovers : s.covers a q = true) (hordered : s.nmc.ordered = []) (hq : q.ordered = false)
    (hadds : s.NoAdds) (hserve : (s.heldLetIn a q).nmcServe q = v.send (.cxlData a tag (v.agentLoad a) poison data))
    (hv : v.ingressView = (s.heldLetIn a q).ingressView) :
    Completes (.ingressHoldRelease a) s fun t => t.nmc.held.look a = none ∧ t.fld Fld.nmcAgentStatus_held a = 0 ∧
      t.out = s.out ++ [.cxlData a tag (s.agentLoad a) poison data] ∧ t.mem = s.mem := by
  simp only [State.ingressView, Prod.mk.injEq] at hv
  obtain ⟨htable, hord, hstm, hout, hmem, hregs⟩ := hv
  have hfld : ∀ {f : Fld}, f.reg = .nmcAgentStatus → v.fld f a = (s.heldLetIn a q).fld f a := fun {f} hf => by
    rw [State.fld, State.fld, hf]
    exact congrArg f.get (congrFun hregs a)
  have hload : v.agentLoad a = s.agentLoad a := (hfld rfl).trans
    (State.fld_setFld_other _ Fld.nmcAgentStatus_held Fld.nmcAgentStatus_load _ _ _ (by decide) (.inr (by decide)))
  have hidle : (v.send (.cxlData a tag (v.agentLoad a) poison data)).settleNmc = v.send (.cxlData a tag (v.agentLoad a) poison data) :=
    State.settleNmc_idle (hord.trans hordered) (by rw [State.NoAdds, State.send_stm, hstm]; exact hadds)
  refine .of_live (exec_ingressHoldRelease hheld hcovers) hlive ?_
  rw [State.takeIn_unordered hq, hserve, hidle]
  refine ⟨?_, ?_, ?_, hmem⟩
  · rw [State.send_nmc, htable]
    exact Tbl.look_del_same ..
  · exact (hfld rfl).trans (State.fld_setFld_same _ _ _ _ (by decide))
  · rw [State.send_out, hout, hload]
    rfl

/-! ### Load levels (R284) -/

theorem loadLevel_lt (x : AgentLoad) : loadLevel x < 4 := by
  unfold loadLevel
  split
  · omega
  · split
    · omega
    · split <;> omega

theorem exec_loadLevelUpdate {x : AgentLoad} (s : State) (ha : x.agent < 10) :
    exec (.loadLevelUpdate [x]) s = s.whenLive (s.setFld Fld.nmcAgentStatus_load x.agent (loadLevel x)) := by
  change execLoadLevelUpdate [x] s = _
  simp [execLoadLevelUpdate, ha]

/-! ### Cold granules (R285) -/

/-- A write that is queued stands last among the writes (R234, R246, R247). -/
theorem State.flashPut_queued {s : State} {own : FlashOwner} {x first id : Nat} {data : List (List Byte)} {till : Bool}
    (h : (s.flashPut own x first data till).2 = .queued id) :
    ∃ w : FlashWr, (s.flashPut own x first data till).1.fls.writes.getLast? = some w ∧ w.owner = own ∧ w.extent = x := by
  revert h
  unfold State.flashPut
  split
  · rintro ⟨⟩
  · split
    · rintro ⟨⟩
    · extract_lets us fresh t n go
      have hgo : ∀ u, ∃ w : FlashWr, (go u).1.fls.writes.getLast? = some w ∧ w.owner = own ∧ w.extent = x := fun u =>
        ⟨_, List.getLast?_concat .., rfl, rfl⟩
      split
      · exact fun _ => hgo t
      · split
        · split
          · exact fun _ => hgo _
          · rintro ⟨⟩
        · rintro ⟨⟩

theorem State.flashPut_nmc (s : State) (own : FlashOwner) (x first : Nat) (data : List (List Byte)) (till : Bool) :
    (s.flashPut own x first data till).1.nmc = s.nmc := by
  unfold State.flashPut
  split
  · rfl
  · split
    · rfl
    · extract_lets us fresh t n go
      have ht : t.nmc = s.nmc := by
        unfold t
        split
        · exact State.nmc_of_nodeView s.closePool_nodeView
        · rfl
      clear_value t
      split
      · exact ht
      · split
        · split
          · exact ht
          · exact (State.nmc_of_nodeView (State.setDirty_nodeView ..)).trans ht
        · exact ht

theorem State.newExtent_nmc (s : State) (owner : Option Nat) (n : Nat) (spread : Bool) (chan : Option Nat) :
    (s.newExtent owner n spread chan).1.nmc = s.nmc := by
  unfold State.newExtent
  split <;> rfl

/-- A cold granule that is ready, and whose write the pool takes, goes to flash under the new extent. -/
theorem exec_coldGranulePark {i g e id : Nat} {s u : State} {r : Region} (hr : s.nmc.regions.look i = some r) (hready : s.coldReady i g r = true)
    (hnew : s.newExtent (some r.ctx) 2 false none = (u, some e))
    (hput : (u.flashPut (.granule i g) e 0 [u.bytesAt (keyNode ((r.base + g) * 65536)) 32768,
      u.bytesAt (keyNode ((r.base + g) * 65536) + 32768) 32768] false).2 = .queued id) :
    exec (.coldGranulePark i g) s = s.whenLive (u.flashPut (.granule i g) e 0 [u.bytesAt (keyNode ((r.base + g) * 65536)) 32768,
      u.bytesAt (keyNode ((r.base + g) * 65536) + 32768) 32768] false).1 := by
  change execColdGranulePark i g s = _
  simp only [execColdGranulePark, hr, hready, if_true, hnew, hput]

/-! ### Recalls not answered in time (R281) -/

/-- A message that leaves on a port changes the port, its queue depth and what has left. -/
theorem State.sendOn_kept (s : State) (p cls conn n : Nat) (o : Out) :
    (s.sendOn p cls conn n o).nmc = s.nmc ∧ (s.sendOn p cls conn n o).out = s.out ++ [o] ∧
      ∀ q i, q ≠ .lnkQDepth → (s.sendOn p cls conn n o).rd q i = s.rd q i := by
  unfold State.sendOn State.enqueue
  split
  · exact ⟨rfl, rfl, fun q i hq => (State.rd_congr rfl q i).trans (State.rd_wr_ne _ _ (by simp [hq]))⟩
  · exact ⟨rfl, rfl, fun _ _ _ => rfl⟩

/-- Recall `r` of line `l` from agent `a` goes out a second time: counted, with its event, and timed anew (R281). -/
def State.recallAgain (s : State) (l a : Nat) (r : Recall) : State :=
  ((s.count .nmcRecalls 0 1).raise Evt.nmc_recallRetry).onNmc fun m =>
    { m with recalls := m.recalls.put (l, a) { r with sentAt := s.now, resent := true } }

/-- The message of a recall, on the host port or on the strict queue of a node port (R276). -/
def State.sendRecallMsg (s : State) (l a : Nat) (r : Recall) : State :=
  if a < 2 then s.send (.recallMsg a l r.downgrade) else s.sendOn (a - 2) 0 0 16 (.recallMsg a l r.downgrade)

theorem State.sendRecallMsg_kept (s : State) (l a : Nat) (r : Recall) :
    (s.sendRecallMsg l a r).nmc = s.nmc ∧ (s.sendRecallMsg l a r).out = s.out ++ [.recallMsg a l r.downgrade] ∧
      (∀ q i, q ≠ .lnkQDepth → (s.sendRecallMsg l a r).rd q i = s.rd q i) ∧ (s.sendRecallMsg l a r).mem = s.mem := by
  unfold State.sendRecallMsg
  split
  · exact ⟨rfl, rfl, fun _ _ _ => rfl, rfl⟩
  · obtain ⟨hnmc, hout, hrd⟩ := s.sendOn_kept (a - 2) 0 0 16 (.recallMsg a l r.downgrade)
    exact ⟨hnmc, hout, hrd, State.sendOn_mem ..⟩

theorem exec_recallTimeout_first {l a : Nat} {s : State} {r : Recall} (hr : s.nmc.recalls.look (l, a) = some r)
    (hdue : r.sentAt + max 10 (s.fld Fld.nmcAgentCfg_tmoUs a) * 1000 ≤ s.now) (hfirst : r.resent = false) :
    exec (.recallTimeout l a) s = s.whenLive ((s.recallAgain l a r).sendRecallMsg l a r) := by
  change execRecallTimeout l a s = _
  simp only [execRecallTimeout, hr, if_neg (Nat.not_lt.mpr hdue), hfirst, Bool.false_eq_true, if_false, State.raise_now, State.count_now]
  rfl

theorem exec_recallTimeout_second {l a : Nat} {s : State} {r : Recall} (hr : s.nmc.recalls.look (l, a) = some r)
    (hdue : r.sentAt + max 10 (s.fld Fld.nmcAgentCfg_tmoUs a) * 1000 ≤ s.now) (hsecond : r.resent = true) :
    exec (.recallTimeout l a) s = s.whenLive (s.failAgent a) := by
  change execRecallTimeout l a s = _
  simp only [execRecallTimeout, hr, if_neg (Nat.not_lt.mpr hdue), hsecond, if_true]

/-- The second message has left, with its recall marked and its event set. -/
theorem State.recallAgain_sent (s : State) (l a : Nat) (r : Recall) :
    ((s.recallAgain l a r).sendRecallMsg l a r).nmc.recalls.look (l, a) = some { r with sentAt := s.now, resent := true } ∧
      ((s.recallAgain l a r).sendRecallMsg l a r).out = s.out ++ [.recallMsg a l r.downgrade] ∧
      bit (((s.recallAgain l a r).sendRecallMsg l a r).rd .nmcEvt 0).toNat Evt.nmc_recallRetry.bit = true ∧
      ((s.recallAgain l a r).sendRecallMsg l a r).mem = s.mem := by
  obtain ⟨hnmc, hout, hrd, hmem⟩ := (s.recallAgain l a r).sendRecallMsg_kept l a r
  rw [hnmc, hout, hrd _ _ (by decide), hmem]
  refine ⟨Tbl.look_put_same .., ?_, (s.count .nmcRecalls 0 1).bit_raise_same Evt.nmc_recallRetry (by decide), ?_⟩
  · simp [State.recallAgain]
  · simp [State.recallAgain]

/-! ### Failed agents (R286) -/

/-- An entry of the directory once agent `a` has failed: PX where it held the line exclusive, without its sharer bit otherwise. -/
def DirEnt.without (e : DirEnt) (a : Nat) : DirEnt :=
  if e.st = .excl && e.owner = a then { e with st := .px, sharers := [] } else { e with sharers := e.sharers.filter (fun x => decide (x ≠ a)) }

/-- The tables of the window once agent `a` has failed, with the hubs `hubs` to sweep. -/
def Nmc.without (m : Nmc) (a : Nat) (hubs : List Nat) : Nmc :=
  { m with
    dir := (m.dir.mapVals fun _ e => e.without a).keep fun _ e => e.held || e.rcl
    recalls := m.recalls.keep fun k _ => decide (k.2 ≠ a)
    waiting := m.waiting.mapVals fun _ l => notOf a l
    faults := m.faults.mapVals fun _ l => notOf a l
    ordered := notOf a m.ordered
    held := m.held.del a
    buckets := m.buckets.del a
    openTags := m.openTags.filter fun t => decide (t.1 + 2 ≠ a)
    sweeps := m.sweeps.put a hubs }

/-- The agent's state, its event and the count of its lines change. -/
def State.agentDown (s : State) (a : Nat) : State :=
  (((s.setFld Fld.nmcAgentStatus_state a 2).setFld Fld.nmcAgentStatus_held a 0).raise Evt.nmc_agentFailed).count .nmcPoisoned 0
    (s.nmc.dir.keysIf fun _ e => decide (e.st = .excl) && decide (e.owner = a)).length

theorem State.hubsUp_of_arch {s t : State} (h : t.arch = s.arch) : t.hubsUp = s.hubsUp := by
  have hup : t.hubUp = s.hubUp := funext fun k => by rw [State.hubUp, State.hubUp, h]
  rw [State.hubsUp, State.hubsUp, hup]

/-- An agent in service that no recall is in flight to fails, and nothing else goes on. -/
theorem State.failAgent_idle {s : State} {a : Nat} (hst : s.agentSt a = 1)
    (hrecalls : s.nmc.recalls.any (fun k _ => decide (k.2 = a)) = false) (hordered : s.nmc.ordered = []) (hadds : s.NoAdds) :
    s.failAgent a = (s.agentDown a).onNmc fun m => m.without a s.hubsUp := by
  unfold State.failAgent
  rw [if_pos hst]
  extract_lets s₁ px s₂ s₃ ls s₄
  have h₁ : s₁.nmc = s.nmc := by simp [s₁]
  have h₂ : s₂ = s.agentDown a := by
    unfold s₂ px
    rw [h₁]
    rfl
  have hhubs : s₂.hubsUp = s.hubsUp := State.hubsUp_of_arch (by rw [h₂]; simp [State.agentDown])
  have hnmc : s₂.nmc = s.nmc := h₁
  have hls : ls = [] := by
    change (s₂.nmc.recalls.keysIf _).map _ = []
    rw [hnmc, Tbl.keysIf, List.filter_eq_nil_iff.mpr (List.any_eq_false.mp hrecalls), List.map_nil, List.map_nil]
  have h₄ : s₄ = (s.agentDown a).onNmc fun m => m.without a s.hubsUp := by
    unfold s₄ s₃
    rw [hhubs, h₂]
    rfl
  rw [hls, List.foldl_nil, h₄]
  have hord : ((s.agentDown a).nmc.without a s.hubsUp).ordered = [] := by
    rw [← h₂, hnmc]
    exact congrArg (notOf a) hordered
  refine State.settleNmc_idle hord ?_
  rw [State.NoAdds, State.onNmc_stm, State.agentDown, State.count_stm, State.raise_stm]
  exact hadds

/-- A field of a register that holds what it held. -/
theorem State.fld_of_rd {s t : State} {f : Fld} {i : Nat} (h : t.rd f.reg i = s.rd f.reg i) : t.fld f i = s.fld f i := congrArg f.get h

/-- What a failed agent leaves: its state and its event, its lines PX, a sweep of every hub, and none of its requests or tags (R286). -/
theorem State.agentDown_without (s : State) (a : Nat) (hubs : List Nat) :
    ((s.agentDown a).onNmc fun m => m.without a hubs).agentSt a = 2 ∧
      bit (((s.agentDown a).onNmc fun m => m.without a hubs).rd .nmcEvt 0).toNat Evt.nmc_agentFailed.bit = true ∧
      ((s.agentDown a).onNmc fun m => m.without a hubs).nmc = s.nmc.without a hubs ∧
      ((s.agentDown a).onNmc fun m => m.without a hubs).mem = s.mem := by
  refine ⟨?_, ?_, ?_, ?_⟩
  · change (s.agentDown a).fld Fld.nmcAgentStatus_state a = 2
    have hkept : (s.agentDown a).rd .nmcAgentStatus a =
        ((s.setFld Fld.nmcAgentStatus_state a 2).setFld Fld.nmcAgentStatus_held a 0).rd .nmcAgentStatus a :=
      (State.rd_wr_ne _ _ (by simp)).trans (State.rd_raise_ne _ _ (by simp [Evt.nmc_agentFailed]))
    rw [State.fld_of_rd (f := Fld.nmcAgentStatus_state) hkept, State.fld_setFld_other _ _ _ _ _ _ (by decide) (.inr (by decide))]
    exact State.fld_setFld_same _ _ _ _ (by decide)
  · change bit ((s.agentDown a).rd .nmcEvt 0).toNat _ = true
    rw [State.agentDown, State.count, State.rd_wr_ne _ _ (by decide)]
    exact State.bit_raise_same _ Evt.nmc_agentFailed (by decide)
  · simp [State.agentDown]
  · simp [State.agentDown]

/-- What a table keeps of its first row for a key. -/
theorem Tbl.look_keep {α β : Type} [DecidableEq α] {t : Tbl α β} {k : α} {v : β} {p : α → β → Bool} (h : t.look k = some v)
    (hp : p k v = true) :
    (t.keep p).look k = some v := by
  obtain ⟨l⟩ := t
  induction l with
  | nil => cases h
  | cons q l ih =>
    obtain ⟨x, y⟩ := q
    by_cases hx : x = k
    · subst hx
      obtain rfl : y = v := by simpa [Tbl.look, rowsLook] using h
      simp [Tbl.look, Tbl.keep, rowsLook, hp]
    · have h' : (Tbl.mk l).look k = some v := by simpa [Tbl.look, rowsLook, hx] using h
      have hrest := ih h'
      by_cases hq : p x y = true
      · simpa [Tbl.look, Tbl.keep, hq, rowsLook, hx] using hrest
      · simpa [Tbl.look, Tbl.keep, hq] using hrest

/-- A line that the failed agent held exclusive is PX (R286). -/
theorem Nmc.look_without_excl {m : Nmc} {a l : Nat} {e : DirEnt} (hubs : List Nat) (he : m.dir.look l = some e) (hst : e.st = .excl)
    (howner : e.owner = a) : (m.without a hubs).dir.look l = some { e with st := .px, sharers := [] } := by
  have hwithout : e.without a = { e with st := .px, sharers := [] } := by simp [DirEnt.without, hst, howner]
  refine Tbl.look_keep ?_ rfl
  rw [Tbl.look_mapVals, he, Option.map_some, hwithout]

theorem exec_agentFailed {a : Nat} (s : State) (ha : a < 10) : exec (.agentFailed a) s = s.whenLive (s.failAgent a) := by
  change execAgentFailed a s = _
  rw [execAgentFailed, if_pos ha]

/-! ### The sweep (R286) -/

theorem keyNode_line_aligned (l : Nat) : keyNode (l * 64) / 64 * 64 = keyNode (l * 64) := by
  unfold keyNode
  omega

/-- Line `l` has no entry in the directory, and is marked poisoned. -/
def State.LinePoisoned (s : State) (l : Nat) : Prop := s.nmc.dir.look l = none ∧ s.poison.contains (keyNode (l * 64)) = true

/-- A lookup of a PX entry poisons its line and frees it. -/
theorem State.resolvePx_eq {s : State} {l : Nat} {e : DirEnt} (he : s.nmc.dir.look l = some e) (hst : e.st = .px) (hrcl : e.rcl = false) :
    s.resolvePx l = (s.poisonLine (keyNode (l * 64))).onNmc fun m => { m with dir := m.dir.del l } := by
  simp [State.resolvePx, he, hst, hrcl]

/-- A lookup changes nothing, or poisons the line and frees its entry. -/
theorem State.resolvePx_cases (s : State) (l : Nat) :
    s.resolvePx l = s ∨ s.resolvePx l = (s.poisonLine (keyNode (l * 64))).onNmc fun m => { m with dir := m.dir.del l } := by
  unfold State.resolvePx
  split
  · split
    · exact .inr rfl
    · exact .inl rfl
  · exact .inl rfl

theorem State.contains_poisonLine (s : State) {cw k : Nat} (h : cw = k ∨ s.poison.contains k = true) :
    (s.poisonLine cw).poison.contains k = true := by
  unfold State.poisonLine
  dsimp only
  split
  · rcases h with rfl | h <;> assumption
  · rcases h with rfl | h
    · simp
    · simp only [List.contains_cons, h, Bool.or_true]

theorem State.LinePoisoned.resolvePx {s : State} {l : Nat} (h : s.LinePoisoned l) (k : Nat) : (s.resolvePx k).LinePoisoned l := by
  obtain ⟨hlook, hpoison⟩ := h
  rcases s.resolvePx_cases k with heq | heq
  · rw [heq]
    exact ⟨hlook, hpoison⟩
  · rw [heq]
    refine ⟨?_, s.contains_poisonLine (.inr hpoison)⟩
    by_cases hk : l = k
    · subst hk
      exact Tbl.look_del_same ..
    · exact (Tbl.look_del_ne _ hk).trans hlook

/-- A sweep over lines that include `l`, a PX line, poisons it and frees its entry. -/
theorem State.foldl_resolvePx_linePoisoned {l : Nat} {e : DirEnt} (hst : e.st = .px) (hrcl : e.rcl = false) {ls : List Nat} {s : State}
    (hl : l ∈ ls) (he : s.nmc.dir.look l = some e) : (ls.foldl State.resolvePx s).LinePoisoned l := by
  induction ls generalizing s with
  | nil => cases hl
  | cons k ls ih =>
    rw [List.foldl_cons]
    by_cases hk : l = k
    · subst hk
      have hdone : (s.resolvePx l).LinePoisoned l := by
        rw [State.resolvePx_eq he hst hrcl]
        exact ⟨Tbl.look_del_same .., s.contains_poisonLine (.inl rfl)⟩
      exact foldl_inv (P := fun t : State => t.LinePoisoned l) (fun t k ht => ht.resolvePx k) hdone ls
    · refine ih ((List.mem_cons.mp hl).resolve_left hk) ?_
      rcases s.resolvePx_cases k with heq | heq
      · rw [heq, he]
      · rw [heq]
        exact (Tbl.look_del_ne _ hk).trans he

/-- The PX lines of hub `h` (R286). -/
def State.pxLines (s : State) (h : Nat) : List Nat :=
  (s.nmc.dir.keysIf fun _ e => decide (e.st = .px)).filter fun l => decide (s.lineHub l = h)

/-- Hub `h` has made the sweep of the one agent it still owed one, and none is left. -/
def State.lastSwept (s : State) (h : Nat) : State :=
  ((s.pxLines h).foldl State.resolvePx s).onNmc fun m => { m with sweeps := .empty }

/-- A node port that is back takes its agent into service (R286). -/
def State.agentBack (s : State) (a : Nat) : State :=
  if 2 ≤ a && 5 ≤ s.portSt (a - 2) && s.portSt (a - 2) ≤ 6 then s.setFld Fld.nmcAgentStatus_state a 1 else s

theorem State.resolvePx_sweeps (s : State) (l : Nat) : (s.resolvePx l).nmc.sweeps = s.nmc.sweeps := by
  rcases s.resolvePx_cases l with h | h
  · rw [h]
  · rw [h]
    rfl

theorem State.resolvePx_regs (s : State) (l : Nat) : (s.resolvePx l).regs = s.regs := by
  rcases s.resolvePx_cases l with h | h
  · rw [h]
  · rw [h]
    rfl

theorem State.lastSwept_regs (s : State) (h : Nat) : (s.lastSwept h).regs = s.regs := foldl_kept State.regs State.resolvePx_regs (s.pxLines h) s

theorem exec_directorySweep_last {h a : Nat} {s : State} (hsweeps : s.nmc.sweeps = ⟨[(a, [h])]⟩) (hup : s.hubUp h = true) :
    exec (.directorySweep h) s = s.whenLive ((s.lastSwept h).agentBack a).endRegions := by
  have hkept : ((s.pxLines h).foldl State.resolvePx s).nmc.sweeps = ⟨[(a, [h])]⟩ :=
    (foldl_kept (fun t : State => t.nmc.sweeps) State.resolvePx_sweeps (s.pxLines h) s).trans hsweeps
  have hrows : (s.nmc.sweeps.rows.isEmpty || !s.hubUp h) = false := by rw [hsweeps, hup]; rfl
  change execDirectorySweep h s = _
  unfold execDirectorySweep
  rw [hrows, if_neg (by decide)]
  extract_lets px s₁ s₂ ended s₃ s₄
  have h₂ : s₂.nmc = { s₁.nmc with sweeps := ⟨[(a, [])]⟩ } := by
    have hmap : s₁.nmc.sweeps.mapVals (fun _ l => l.filter fun x => decide (x ≠ h)) = ⟨[(a, [])]⟩ := by
      rw [show s₁.nmc.sweeps = _ from hkept]
      simp [Tbl.mapVals]
    exact congrArg (fun x => { s₁.nmc with sweeps := x }) hmap
  have hended : ended = [a] := by
    unfold ended
    rw [h₂]
    rfl
  have h₃ : s₃ = s.lastSwept h := by
    have hkeep : s₂.nmc.sweeps.keep (fun _ l => !(l.all fun x => !(s₂.hubUp x))) = .empty := by
      rw [h₂]
      rfl
    exact congrArg (fun x => s₁.onNmc fun m => { m with sweeps := x }) hkeep
  unfold s₄
  rw [hended, h₃]
  rfl

/-- What a sweep leaves behind: the directory, the sweeps still to make, the poisoned lines and the agents' status registers. -/
def State.sweepView (s : State) : Tbl Nat DirEnt × Tbl Nat (List Nat) × List Nat × (Nat → Word) :=
  (s.nodeView.1.dir, s.nodeView.1.sweeps, s.nodeView.2)

theorem State.endRegion_sweepView (s : State) (i : Nat) : (s.endRegion i).sweepView = s.sweepView := by
  by_cases h : ∃ r, s.nmc.regions.look i = some r ∧ r.dying = true ∧ s.regionLines r = []
  · obtain ⟨r, hr, hdying, hlines⟩ := h
    obtain ⟨u, heq, hu⟩ := State.endRegion_ends hr hdying hlines
    rw [State.sweepView, heq, State.wr_nodeView _ _ _ (by decide), State.wr_nodeView _ _ _ (by decide), hu]
    rfl
  · rw [State.endRegion_waits fun r hr hdying hlines => h ⟨r, hr, hdying, hlines⟩]

theorem State.endRegions_sweepView (s : State) : s.endRegions.sweepView = s.sweepView :=
  foldl_kept State.sweepView State.endRegion_sweepView ..

theorem State.mem_pxLines {s : State} {h l : Nat} {e : DirEnt} (he : s.nmc.dir.look l = some e) (hst : e.st = .px) (hhub : s.lineHub l = h) :
    l ∈ s.pxLines h := by
  have hrow : (l, e) ∈ s.nmc.dir.rows := rowsLook_mem he
  refine List.mem_filter.mpr ⟨List.mem_map.mpr ⟨(l, e), List.mem_filter.mpr ⟨hrow, ?_⟩, rfl⟩, ?_⟩
  · simp [hst]
  · simp [hhub]

theorem State.agentBack_kept (s : State) (a : Nat) : (s.agentBack a).nmc = s.nmc ∧ (s.agentBack a).poison = s.poison := by
  unfold State.agentBack
  split <;> exact ⟨rfl, rfl⟩

theorem State.agentSt_agentBack {s : State} {a : Nat} (ha : 2 ≤ a) (hlo : 5 ≤ s.portSt (a - 2)) (hhi : s.portSt (a - 2) ≤ 6) :
    (s.agentBack a).agentSt a = 1 := by
  have hback : (decide (2 ≤ a) && decide (5 ≤ s.portSt (a - 2)) && decide (s.portSt (a - 2) ≤ 6)) = true := by simp [ha, hlo, hhi]
  rw [State.agentBack, if_pos hback]
  exact State.fld_setFld_same _ _ _ _ (by decide)

/-- After the last sweep no sweep is left, a PX line of the hub is poisoned and has no entry, and a node port that is back has its agent in
service. -/
theorem State.lastSwept_ended {s : State} {h l : Nat} {e : DirEnt} (a : Nat) (he : s.nmc.dir.look l = some e) (hpx : e.st = .px)
    (hrcl : e.rcl = false) (hhub : s.lineHub l = h) :
    ((s.lastSwept h).agentBack a).endRegions.nmc.sweeps.look a = none ∧ ((s.lastSwept h).agentBack a).endRegions.LinePoisoned l ∧
      (2 ≤ a ∧ 5 ≤ s.portSt (a - 2) ∧ s.portSt (a - 2) ≤ 6 → ((s.lastSwept h).agentBack a).endRegions.agentSt a = 1) := by
  obtain ⟨hfreed, hpoison⟩ := State.foldl_resolvePx_linePoisoned hpx hrcl (State.mem_pxLines he hpx hhub) he
  obtain ⟨hnmc, hpoisonKept⟩ := (s.lastSwept h).agentBack_kept a
  have hview := State.endRegions_sweepView ((s.lastSwept h).agentBack a)
  generalize ((s.lastSwept h).agentBack a).endRegions = t at hview ⊢
  simp only [State.sweepView, State.nodeView, Prod.mk.injEq, hnmc, hpoisonKept] at hview
  obtain ⟨hdir, hsweeps, hpois, hregs⟩ := hview
  refine ⟨?_, ⟨?_, ?_⟩, fun ⟨ha, hlo, hhi⟩ => ?_⟩
  · rw [hsweeps]
    rfl
  · rw [hdir]
    exact hfreed
  · rw [hpois]
    exact hpoison
  · have hport : (s.lastSwept h).portSt (a - 2) = s.portSt (a - 2) := State.fld_congr (s.lastSwept_regs h) ..
    have hback := State.agentSt_agentBack (s := s.lastSwept h) ha (hport ▸ hlo) (hport ▸ hhi)
    rw [← hback]
    exact congrArg Fld.nmcAgentStatus_state.get (congrFun hregs a)

/-! ### A head whose link is back (R286) -/

theorem exec_hostHeadRetrained {a : Nat} {s : State} (ha : a < 2) (hup : s.hostUp = true) (hst : s.agentSt a ≠ 1)
    (hswept : s.nmc.sweeps.has a = false) :
    exec (.hostHeadRetrained a) s = s.whenLive ((s.setFld Fld.nmcAgentStatus_state a 1).setFld Fld.nmcAgentStatus_load a 0) := by
  have hcond : (decide (a < 2) && s.hostUp && decide (s.agentSt a ≠ 1) && !(s.nmc.sweeps.has a)) = true := by simp [ha, hup, hst, hswept]
  change execHostHeadRetrained a s = _
  rw [execHostHeadRetrained, if_pos hcond]

/-! ### A granule that comes back (R285) -/

/-- The two units of an extent at unit `base` stand in DRAM at node offset `off` again. -/
def State.unitsBack (s : State) (base off : Nat) : State :=
  (s.putBytes (keyNode off) (s.unitRead base).2).putBytes (keyNode off + 32768) (s.unitRead (base + 1)).2

/-- Granule `g` of region `i`, parked in extent `x` at unit `base`, is in DRAM at node offset `off` again, and the extent is gone. -/
def State.unparked (s : State) (i g x base off : Nat) : State :=
  ((((s.unitsBack base off).discardUnits [base, base + 1]).onFls fun f => { f with extents := f.extents.del x }).onNmc fun m =>
      { m with parked := m.parked.del (i, g), faults := m.faults.del (i, g) }).touch off

/-- What is read of flash does not depend on memory. -/
theorem State.unitRead_putBytes (s : State) (key : Nat) (bs : List Byte) (u : Nat) : (s.putBytes key bs).unitRead u = s.unitRead u := rfl

/-- A parked granule whose region is COLD no more, with both units readable and no access stalled on it, comes back. -/
theorem exec_granuleFaultIn {i g x : Nat} {s : State} {r : Region} {e : Extent} (hr : s.nmc.regions.look i = some r)
    (hparked : s.nmc.parked.look (i, g) = some x) (hext : s.fls.extents.look x = some e) (hfaults : s.nmc.faults.lookD (i, g) [] = [])
    (htemp : r.temp ≠ 2) (hlo : (s.unitRead e.base).1 = 0) (hhi : (s.unitRead (e.base + 1)).1 = 0) :
    exec (.granuleFaultIn i g) s = s.whenLive (s.unparked i g x e.base ((r.base + g) * 65536)).settleNmc := by
  change execGranuleFaultIn i g s = _
  simp only [execGranuleFaultIn, hr, hparked, hfaults, List.isEmpty_nil, htemp, decide_false, Bool.and_false, Bool.false_eq_true, if_false, hext,
    Nat.add_zero, Nat.zero_mul, Nat.one_mul, hlo, if_true, State.unitRead_putBytes, hhi, List.foldl_nil]
  rfl

theorem State.unparked_kept (s : State) (i g x base off : Nat) :
    (s.unparked i g x base off).nmc.parked.look (i, g) = none ∧ (s.unparked i g x base off).fls.extents.look x = none ∧
      (s.unparked i g x base off).nmc.ordered = s.nmc.ordered ∧ (s.unparked i g x base off).stm = s.stm ∧
      (s.unparked i g x base off).mem =
        writeBytes (writeBytes s.mem (keyNode off) (s.unitRead base).2) (keyNode off + 32768) (s.unitRead (base + 1)).2 := by
  have hnmc : ((s.unitsBack base off).discardUnits [base, base + 1]).nmc = s.nmc := State.nmc_of_nodeView (State.discardUnits_nodeView ..)
  have hstm : ((s.unitsBack base off).discardUnits [base, base + 1]).stm = s.stm := State.stm_of_stmView (State.discardUnits_stmView ..)
  have hmem := State.discardUnits_mem (s.unitsBack base off) [base, base + 1]
  generalize hu : (s.unitsBack base off).discardUnits [base, base + 1] = u at hnmc hstm hmem
  obtain ⟨y, hy⟩ := ((u.onFls fun f => { f with extents := f.extents.del x }).onNmc fun m =>
    { m with parked := m.parked.del (i, g), faults := m.faults.del (i, g) }).touch_eq off
  have hordered : u.nmc.ordered = s.nmc.ordered := congrArg Nmc.ordered hnmc
  rw [State.unparked, hu, hy]
  exact ⟨Tbl.look_del_same .., Tbl.look_del_same .., hordered, hstm, hmem⟩

/-- Settles O40: each command is the equation of its case, and what the case changes is read off it; the flash pool and the page pool, which
ending and bringing back a granule go through, leave the window's tables, the poisoned lines and the agents' registers alone. -/
theorem nodeRegionsAndGranules : Obligations.NodeRegionsAndGranules := by
  unfold Obligations.NodeRegionsAndGranules
  refine ⟨?create, ?delete, ?temp, ?refused, ?read, ?load, ?parks, ?faultIn, ?resends, ?fails, ?failed, ?swept, ?retrained⟩
  case create =>
    rintro rq v s w0 w1 i b hopen hlow ⟨hw0, hw1⟩ ⟨hform, hzero⟩ hctx ⟨hfree, hbase⟩
    obtain ⟨hlook, hid, hpub, hmem⟩ := s.addRegion_created i (s.regionOf w0 w1 i b)
    refine ⟨_, exec_regionCreate hopen hlow hw0 hw1 hform hzero hctx hfree hbase, ?_, ?_, ?_, ?_, ?_, fun k => ?_⟩
    · rw [State.raise_nmc, State.regionStatus_nmc]
      exact hlook
    · rw [State.rd_raise_ne _ _ (by simp [Evt.nmc_createDone]), State.rd_regionStatus_ne _ _ _ _ _ (by decide)]
      exact hid
    · rw [State.rd_raise_ne _ _ (by simp [Evt.nmc_createDone]), State.rd_regionStatus_ne _ _ _ _ _ (by decide)]
      exact hpub
    · rw [State.rd_raise_ne _ _ (by simp [Evt.nmc_createDone]), State.rd_regionStatus, Nat.zero_mul, Nat.add_zero]
    · exact State.bit_raise_same _ Evt.nmc_createDone (by decide)
    · rw [State.raise_mem, State.regionStatus_mem]
      exact hmem k
  case delete =>
    rintro rq v s i r hopen ⟨rfl, hr, hacts⟩ ⟨hlines, hfaults⟩
    exact ⟨_, exec_regionDelete hopen hr hacts, State.deleteRegion_gone hr hlines hfaults⟩
  case temp =>
    rintro rq v s i r hopen ⟨rfl, hr, hacts⟩ htemp
    refine ⟨_, exec_regionTemp hopen hr hacts htemp, ?_, fun k hk => Tbl.look_upd_ne _ _ hk, rfl⟩
    exact (Tbl.look_upd_same ..).trans (congrArg (Option.map _) hr)
  case refused =>
    rintro a s q hlive ⟨hheld, hcovers⟩ ⟨hrefused, hordered, hq, hadds⟩ ⟨hsrc, hop⟩
    have hrefused : (s.heldLetIn a q).nmcAllowed q = false := hrefused
    exact completes_ingressHoldRelease_hostRead hlive hheld hcovers hordered hq hadds
      ((State.nmcServe_refused hrefused).trans (State.nmcRefuse_hostRead hsrc hop)) (State.raise_ingressView _ (by decide))
  case read =>
    rintro a tag s q hlive ⟨hheld, hcovers⟩ ⟨hordered, hq, hadds⟩ ⟨hsrc, hop, hfree⟩
    have hfree : (s.heldLetIn a q).lineFree q := hfree
    exact completes_ingressHoldRelease_hostRead hlive hheld hcovers hordered hq hadds (State.nmcServe_hostRead hfree hsrc hop)
      ((State.countXfer_ingressView ..).trans (State.touch_ingressView ..))
  case load =>
    intro x s hlive ha
    refine .of_live (exec_loadLevelUpdate s ha) hlive ⟨?_, RegsKept.of_put rfl, rfl⟩
    exact (State.fld_setFld_same _ _ _ _ (by decide)).trans (Nat.mod_eq_of_lt (loadLevel_lt x))
  case parks =>
    intro i g e s u r id hlive hr hready hnew hput
    obtain ⟨w, hlast, howner, hextent⟩ := State.flashPut_queued hput
    refine .of_live (exec_coldGranulePark hr hready hnew hput) hlive ⟨?_, ?_, ?_⟩
    · rw [hlast, Option.map_some, howner, hextent]
    · rw [State.flashPut_nmc]
      exact (congrArg (State.nmc ∘ Prod.fst) hnew).symm.trans (State.newExtent_nmc ..)
    · rw [State.flashPut_mem]
      exact (congrArg (State.mem ∘ Prod.fst) hnew).symm.trans (State.newExtent_mem ..)
  case faultIn =>
    rintro i g x s r e hlive ⟨hr, hparked, hext⟩ ⟨hfaults, htemp, hordered, hadds⟩ ⟨hlo, hhi⟩
    obtain ⟨hgone, hextgone, hord, hstm, hmem⟩ := s.unparked_kept i g x e.base ((r.base + g) * 65536)
    refine .of_live (exec_granuleFaultIn hr hparked hext hfaults htemp hlo hhi) hlive ?_
    rw [State.settleNmc_idle (hord.trans hordered) (by rw [State.NoAdds, hstm]; exact hadds)]
    exact ⟨hgone, hextgone, hmem⟩
  case resends =>
    intro l a s r hlive hr hdue hfirst
    exact .of_live (exec_recallTimeout_first hr hdue hfirst) hlive (s.recallAgain_sent l a r)
  case fails => exact fun l a s r hlive hr hdue hsecond => .of_live (exec_recallTimeout_second hr hdue hsecond) hlive rfl
  case failed =>
    rintro a s hlive ⟨ha, hst⟩ ⟨hrecalls, hordered, hadds⟩
    obtain ⟨hfailed, hevt, hnmc, hmem⟩ := s.agentDown_without a s.hubsUp
    refine .of_live (exec_agentFailed s ha) hlive ?_
    rw [State.failAgent_idle hst hrecalls hordered hadds, hnmc]
    refine ⟨hfailed, hevt, Tbl.look_put_same .., Tbl.look_del_same .., rfl, fun l e he hexcl howner => ?_, hmem⟩
    rw [Nmc.look_without_excl _ he hexcl howner]
    rfl
  case swept =>
    rintro h a l s e hlive ⟨hsweeps, hup⟩ ⟨he, hpx, hrcl, hhub⟩
    obtain ⟨hnone, ⟨hfreed, hpoison⟩, hback⟩ := State.lastSwept_ended a he hpx hrcl hhub
    refine .of_live (exec_directorySweep_last hsweeps hup) hlive ⟨hnone, hfreed, ?_, hback⟩
    rw [keyNode_line_aligned]
    exact hpoison
  case retrained =>
    rintro a s hlive ⟨ha, hup, hst, hswept⟩
    refine .of_live (exec_hostHeadRetrained ha hup hst hswept) hlive ⟨?_, ?_, ?_, rfl⟩
    · exact (State.fld_setFld_other _ _ Fld.nmcAgentStatus_state _ _ _ (by decide) (.inr (by decide))).trans
        (State.fld_setFld_same _ _ _ _ (by decide))
    · exact State.fld_setFld_same _ _ _ _ (by decide)
    · intro q j hne
      exact (State.rd_wr_ne _ _ (List.mem_singleton.not.mp hne)).trans (State.rd_wr_ne _ _ (List.mem_singleton.not.mp hne))

end Sys2Proof.Machine

namespace Sys2Proof.Machine

/-! ### Ports under the operations of the links (R309, R310) -/

theorem State.port_of_lnk {s t : State} (h : t.lnk = s.lnk) (p : Nat) : t.port p = s.port p := by rw [State.port, h]; rfl

@[simp] theorem State.port_setPort_same (s : State) (p : Nat) (x : Port) : (s.setPort p x).port p = x := Tbl.lookD_put_same ..

@[simp] theorem State.port_updPort_same (s : State) (p : Nat) (f : Port → Port) : (s.updPort p f).port p = f (s.port p) :=
  State.port_setPort_same ..

@[simp] theorem State.port_wr (s : State) (r : Reg) (i : Nat) (v : Word) (p : Nat) : (s.wr r i v).port p = s.port p := rfl
@[simp] theorem State.port_setFld (s : State) (f : Fld) (i x p : Nat) : (s.setFld f i x).port p = s.port p := rfl
@[simp] theorem State.port_count (s : State) (r : Reg) (i n p : Nat) : (s.count r i n).port p = s.port p := rfl
@[simp] theorem State.port_send (s : State) (o : Out) (p : Nat) : (s.send o).port p = s.port p := rfl
@[simp] theorem State.port_raise (s : State) (e : Evt) (p : Nat) : (s.raise e).port p = s.port p := State.port_of_lnk (s.raise_lnk e) p

@[simp] theorem State.updPort_regs (s : State) (p : Nat) (f : Port → Port) : (s.updPort p f).regs = s.regs := rfl
@[simp] theorem State.updPort_now (s : State) (p : Nat) (f : Port → Port) : (s.updPort p f).now = s.now := rfl
@[simp] theorem State.updPort_out (s : State) (p : Nat) (f : Port → Port) : (s.updPort p f).out = s.out := rfl
@[simp] theorem State.rd_updPort (s : State) (p : Nat) (f : Port → Port) (r : Reg) (i : Nat) : (s.updPort p f).rd r i = s.rd r i := rfl

/-- Writes to one register leave every other register alone, whatever the indices. -/
theorem State.rd_wr_reg_ne (s : State) {r q : Reg} (i j : Nat) (v : Word) (h : q ≠ r) : (s.wr r i v).rd q j = s.rd q j :=
  State.rd_wr_ne _ _ (by simp [h])

@[simp] theorem State.trace_out (s : State) (hub source ctx : Nat) (ctxValid : Bool) (inst value : Nat) :
    (s.trace hub source ctx ctxValid inst value).out = s.out := by
  unfold State.trace
  dsimp only
  split
  · split
    · rfl
    · rw [State.raise_out, State.countSat_out]
  · rfl

@[simp] theorem State.trace_lnk (s : State) (hub source ctx : Nat) (ctxValid : Bool) (inst value : Nat) :
    (s.trace hub source ctx ctxValid inst value).lnk = s.lnk := by
  unfold State.trace
  dsimp only
  split
  · split
    · rfl
    · rw [State.raise_lnk, State.countSat_lnk]
  · rfl

@[simp] theorem State.portTo_out (s : State) (p st : Nat) : (s.portTo p st).out = s.out := State.trace_out ..

@[simp] theorem State.port_portTo (s : State) (p st : Nat) : (s.portTo p st).port p = { s.port p with since := s.now } :=
  (State.port_of_lnk (State.trace_lnk ..) p).trans (State.port_updPort_same ..)

/-- Entering a state leaves every register but the port's status and those of tracing (R310, R411). -/
theorem State.rd_portTo_ne (s : State) (p st : Nat) {q : Reg} (i : Nat) (hstatus : q ≠ .lnkPortStatus) (hdropped : q ≠ .dbgTraceDropped)
    (hevt : q ≠ Evt.dbg_traceDrop.reg) : (s.portTo p st).rd q i = s.rd q i :=
  (State.rd_trace_ne _ _ _ _ _ _ _ _ hdropped hevt).trans (State.rd_wr_reg_ne _ _ _ _ hstatus)

/-- A port is in the state it entered. -/
theorem State.portSt_portTo (s : State) (p : Nat) {st : Nat} (h : st < 16) : (s.portTo p st).portSt p = st := by
  have htrace : (s.portTo p st).portSt p = (s.setFld Fld.lnkPortStatus_state p st).portSt p :=
    State.fld_of_rd (State.rd_trace_ne _ _ _ _ _ _ _ _ (by decide) (by decide))
  rw [htrace]
  exact (State.fld_setFld_same _ _ _ _ (by decide)).trans (Nat.mod_eq_of_lt h)

theorem State.port_toRetrain (s : State) (p : Nat) (rekeys : Bool) :
    (s.toRetrain p rekeys).port p = { s.port p with attempts := 0, rekeys := rekeys, since := s.now } := by
  rw [State.toRetrain, State.port_portTo, State.port_updPort_same, State.updPort_now]

/-! ### A frame whose tag fails (R318) -/

/-- A frame from port `p` is discarded: its cells leave the queue's receive use, and it counts as a failed authentication. -/
def State.frameDiscarded (s : State) (p : Nat) (h : FrameHdr) : State :=
  (s.wr .lnkQRxuse (p * 16 + h.queue % 16)
    (BitVec.ofNat 64 ((s.rd .lnkQRxuse (p * 16 + h.queue % 16)).toNat - frameCells h.len))).countAuthFail p

@[simp] theorem State.frameDiscarded_out (s : State) (p : Nat) (h : FrameHdr) : (s.frameDiscarded p h).out = s.out := rfl
@[simp] theorem State.frameDiscarded_mem (s : State) (p : Nat) (h : FrameHdr) : (s.frameDiscarded p h).mem = s.mem := rfl
@[simp] theorem State.port_frameDiscarded (s : State) (p : Nat) (h : FrameHdr) : (s.frameDiscarded p h).port p = s.port p := rfl

theorem State.portSt_frameDiscarded (s : State) (p : Nat) (h : FrameHdr) : (s.frameDiscarded p h).portSt p = s.portSt p :=
  State.fld_of_rd ((State.rd_wr_reg_ne _ _ _ _ (by decide)).trans (State.rd_wr_reg_ne _ _ _ _ (by decide)))

/-- The cells of a discarded frame are asked for again, from the SEQ `seq` of its first one (R315, R318). -/
def State.frameAskedAgain (s : State) (p : Nat) (h : FrameHdr) (seq : Nat) : State :=
  ((s.frameDiscarded p h).updPort p fun x =>
    { x with tagFails := (h.queue, h.msg, h.offset) :: x.tagFails, seqRx := seq, discardTo := some seq }).send (.retryCell p seq)

/-- A frame that failed twice is given up, with AUTH_FAIL and a retrain that leads to KEYS (R318). -/
def State.frameGivenUp (s : State) (p : Nat) (h : FrameHdr) : State :=
  (((s.frameDiscarded p h).updPort p fun x =>
    { x with tagFails := x.tagFails.filter fun t => decide (t ≠ (h.queue, h.msg, h.offset)) }).raise Evt.lnk_authFail).toRetrain p true

theorem exec_frameTagFail_first {p : Nat} {h : FrameHdr} {s : State} (hup : s.portSt p = 5)
    (hfirst : (s.port p).tagFails.contains (h.queue, h.msg, h.offset) = false) :
    exec (.frameTagFail p h) s = s.whenLive (s.frameAskedAgain p h (((s.port p).seqRx + 8192 - frameCells h.len) % 8192)) := by
  change execFrameTagFail p h s = _
  rw [execFrameTagFail, if_pos hup]
  exact congrArg s.whenLive (if_neg (Bool.eq_false_iff.mp hfirst))

theorem exec_frameTagFail_second {p : Nat} {h : FrameHdr} {s : State} (hup : s.portSt p = 5)
    (hsecond : (s.port p).tagFails.contains (h.queue, h.msg, h.offset) = true) :
    exec (.frameTagFail p h) s = s.whenLive (s.frameGivenUp p h) := by
  change execFrameTagFail p h s = _
  rw [execFrameTagFail, if_pos hup]
  exact congrArg s.whenLive (if_pos hsecond)

theorem State.port_frameAskedAgain (s : State) (p : Nat) (h : FrameHdr) (seq : Nat) :
    (s.frameAskedAgain p h seq).port p =
      { s.port p with tagFails := (h.queue, h.msg, h.offset) :: (s.port p).tagFails, seqRx := seq, discardTo := some seq } := by
  rw [State.frameAskedAgain, State.port_send, State.port_updPort_same, State.port_frameDiscarded]

theorem State.portSt_frameAskedAgain (s : State) (p : Nat) (h : FrameHdr) (seq : Nat) : (s.frameAskedAgain p h seq).portSt p = s.portSt p :=
  s.portSt_frameDiscarded p h

theorem State.port_frameGivenUp (s : State) (p : Nat) (h : FrameHdr) :
    (s.frameGivenUp p h).port p =
      { s.port p with tagFails := (s.port p).tagFails.filter fun t => decide (t ≠ (h.queue, h.msg, h.offset)), attempts := 0, rekeys := true,
                      since := s.now } := by
  rw [State.frameGivenUp, State.port_toRetrain, State.port_raise, State.port_updPort_same, State.port_frameDiscarded, State.raise_now,
    State.updPort_now]
  rfl

@[simp] theorem State.frameGivenUp_out (s : State) (p : Nat) (h : FrameHdr) : (s.frameGivenUp p h).out = s.out := by
  simp [State.frameGivenUp, State.toRetrain]

theorem State.portSt_frameGivenUp (s : State) (p : Nat) (h : FrameHdr) : (s.frameGivenUp p h).portSt p = 6 :=
  State.portSt_portTo _ _ (by decide)

theorem State.frameGivenUp_authFail (s : State) (p : Nat) (h : FrameHdr) :
    bit ((s.frameGivenUp p h).rd .lnkEvt 0).toNat Evt.lnk_authFail.bit = true := by
  have hrd : ∀ t : State, (t.toRetrain p true).rd .lnkEvt 0 = t.rd .lnkEvt 0 := fun t =>
    (State.rd_portTo_ne _ _ _ _ (by decide) (by decide) (by decide)).trans (State.rd_updPort ..)
  rw [State.frameGivenUp, hrd]
  exact State.bit_raise_same _ Evt.lnk_authFail (by decide)

/-- An attempt that succeeds in time at an allowed width ends a retrain after a tag failure in KEYS (Table 13-2, R318). -/
theorem exec_retrainEnd_rekeys {p lanes : Nat} {s : State} (hst : s.portSt p = 6) (hrekeys : (s.port p).rekeys = true)
    (hwidth : (portWidths p).contains lanes = true) (hmin : s.minLanes p ≤ lanes) (htime : s.now ≤ (s.port p).since + 5000000) :
    exec (.retrainEnd p true lanes) s =
      s.whenLive ((((s.setFld Fld.lnkPortStatus_lanes p lanes).raise Evt.lnk_retrain).updPort p fun x =>
        { x with resend := x.retryBuf, badAt := [], discardTo := none }).portTo p 3) := by
  change execRetrainEnd p true lanes s = _
  simp only [execRetrainEnd, hst, hwidth, hmin, htime, State.port_updPort_same, State.port_raise, State.port_setFld, hrekeys, Bool.and_self,
    decide_true, if_true]

/-- Settles O8: the first failure is the discarded frame's cells asked for again; the second raises AUTH_FAIL and marks the retrain to lead to
KEYS, which the end of the retrain reads. -/
theorem tagFailureRetriesThenRekeys : Obligations.TagFailureRetriesThenRekeys := by
  unfold Obligations.TagFailureRetriesThenRekeys
  refine ⟨?first, ?second, ?retrained⟩
  case first =>
    rintro p h s hlive ⟨hup, hfirst⟩
    refine .of_live (exec_frameTagFail_first hup hfirst) hlive ⟨rfl, ?_, ?_, (s.portSt_frameAskedAgain p h _).trans hup⟩
    · rw [State.port_frameAskedAgain]
    · rw [State.port_frameAskedAgain, List.contains_cons, beq_self_eq_true, Bool.true_or]
  case second =>
    rintro p h s hlive ⟨hup, hsecond⟩
    refine .of_live (exec_frameTagFail_second hup hsecond) hlive
      ⟨s.portSt_frameGivenUp p h, ?_, s.frameGivenUp_authFail p h, s.frameGivenUp_out p h, ?_⟩
    · rw [State.port_frameGivenUp]
    · rw [State.port_frameGivenUp]
  case retrained =>
    rintro p lanes s hlive ⟨hst, hrekeys⟩ ⟨hwidth, hmin, htime⟩
    exact .of_live (exec_retrainEnd_rekeys hst hrekeys hwidth hmin htime) hlive (State.portSt_portTo _ _ (by decide))

end Sys2Proof.Machine

namespace Sys2Proof.Machine

/-! ### Cells, acknowledgement and retry (R313, R315) -/

/-- The cell that came next on port `p` is accepted into the receive use of queue `q` (R315, R316). -/
def State.cellAccepted (s : State) (p q : Nat) : State :=
  (s.updPort p fun x =>
    { x with seqRx := (x.seqRx + 1) % 8192, discardTo := none, unacked := x.unacked + 1, unackedAt := some (x.unackedAt.getD s.now) }).count
      .lnkQRxuse (p * 16 + q % 16) 1

theorem State.port_cellAccepted (s : State) (p q : Nat) :
    (s.cellAccepted p q).port p =
      { s.port p with seqRx := ((s.port p).seqRx + 1) % 8192, discardTo := none, unacked := (s.port p).unacked + 1,
                      unackedAt := some ((s.port p).unackedAt.getD s.now) } := by
  rw [State.cellAccepted, State.port_count, State.port_updPort_same]

/-- The cell that comes next is accepted, and acknowledged when it is the 32nd (R315). -/
theorem exec_cellReceive_next {p : Nat} {ctl : CellCtl} {s : State} (hdata : ctl.ctrl = false) (hseq : ctl.seq = (s.port p).seqRx % 8192) :
    exec (.cellReceive p ctl) s =
      s.whenLive (if 31 ≤ (s.port p).unacked then (s.cellAccepted p ctl.queue).sendAck p else s.cellAccepted p ctl.queue) := by
  have hcount : ((s.cellAccepted p ctl.queue).port p).unacked = (s.port p).unacked + 1 := by rw [State.port_cellAccepted]
  have hthirty : (32 ≤ ((s.cellAccepted p ctl.queue).port p).unacked) = (31 ≤ (s.port p).unacked) := by rw [hcount, Nat.succ_le_succ_iff]
  change execCellReceive p ctl s = _
  simp only [← hthirty, execCellReceive, hdata, Bool.false_eq_true, if_false, hseq, ne_eq, not_true_eq_false]
  rfl

/-- A control cell, and a cell that is not the next one, are not accepted (R315). -/
theorem exec_cellReceive_ignored {p : Nat} {ctl : CellCtl} {s : State} (h : ctl.ctrl = true ∨ ctl.seq ≠ (s.port p).seqRx % 8192) :
    exec (.cellReceive p ctl) s = s.whenLive s := by
  change execCellReceive p ctl s = _
  dsimp only [execCellReceive]
  by_cases hctrl : ctl.ctrl = true
  · rw [if_pos hctrl]
  · rw [if_neg hctrl, if_pos (h.resolve_left hctrl)]

@[simp] theorem State.sendAck_out (s : State) (p : Nat) : (s.sendAck p).out = s.out ++ [.ackCell p (((s.port p).seqRx + 8191) % 8192)] := rfl

theorem State.port_sendAck (s : State) (p : Nat) :
    (s.sendAck p).port p =
      { s.port p with unacked := 0, unackedAt := none,
                      oldRx := (s.port p).oldRx && ((s.port p).lastCtr.look (s.rxEpoch p)).isNone } := by
  rw [State.sendAck, State.port_updPort_same, State.port_send]

theorem exec_ackTimer_due {p at_ : Nat} {s : State} (hat : (s.port p).unackedAt = some at_) (hdue : at_ + 500 ≤ s.now) :
    exec (.ackTimer p) s = s.whenLive (s.sendAck p) := by
  change execAckTimer p s = _
  simp only [execAckTimer, hat, if_pos hdue]

/-- One more uncorrectable codeword is counted in `LNK_PORT_ERR`, up to 65,535. -/
def codewordCounted (e : Nat) : Nat := bits e 0 32 + min (bits e 32 16 + 1) 65535 * 2 ^ 32 + bits e 48 16 * 2 ^ 48

theorem codewordCounted_fields (e : Nat) :
    bits (BitVec.ofNat 64 (codewordCounted e)).toNat 32 16 = min (bits e 32 16 + 1) 65535 ∧
      bits (BitVec.ofNat 64 (codewordCounted e)).toNat 0 32 = bits e 0 32 := by
  have hframes : bits e 0 32 < 2 ^ 32 := Nat.mod_lt _ (by decide)
  have hauth : bits e 48 16 < 2 ^ 16 := Nat.mod_lt _ (by decide)
  rw [BitVec.toNat_ofNat, codewordCounted]
  generalize bits e 0 32 = a at hframes ⊢
  generalize bits e 48 16 = c at hauth ⊢
  generalize hn : min (bits e 32 16 + 1) 65535 = n
  have hcount : n < 2 ^ 16 := by omega
  rw [bits, bits]
  omega

/-- A codeword that cannot be corrected is counted and asked for again from `seq` (R315). -/
def State.codewordAskedAgain (s : State) (p seq : Nat) : State :=
  ((s.wr .lnkPortErr p (BitVec.ofNat 64 (codewordCounted (s.rd .lnkPortErr p).toNat))).updPort p fun x =>
    { x with discardTo := some seq, badAt := s.now :: x.badAt.take 15 }).send (.retryCell p seq)

theorem exec_codewordUncorrectable (p seq : Nat) (s : State) :
    exec (.codewordUncorrectable p seq) s = s.whenLive (s.codewordAskedAgain p (seq % 8192)) := rfl

/-- What is left of a retry buffer from the first cell with SEQ `seq` on. -/
theorem dropWhile_seq_ne {pre post : List CellCtl} {c : CellCtl} {seq : Nat} (hc : c.seq = seq)
    (hpre : pre.any (fun x => decide (x.seq = seq)) = false) :
    (pre ++ c :: post).dropWhile (fun x => decide (x.seq ≠ seq)) = c :: post := by
  rw [List.dropWhile_append_of_pos, List.dropWhile_cons_of_neg (by simp [hc])]
  intro x hx
  simpa using List.any_eq_false.mp hpre x hx

theorem exec_retryRequest_found {p seq : Nat} {s : State} {c : CellCtl} {post : List CellCtl}
    (h : (s.port p).retryBuf.dropWhile (fun x => decide (x.seq ≠ seq)) = c :: post) :
    exec (.retryRequest p seq) s = s.whenLive ((s.updPort p fun x => { x with resend := c :: post }).count .lnkPortRetry p 1) := by
  change execRetryRequest p seq s = _
  simp only [execRetryRequest, h, List.cons_ne_nil, if_false]

theorem exec_cellAck_found {p seq : Nat} {s : State} {c : CellCtl} {post : List CellCtl} (hc : c.seq = seq)
    (h : (s.port p).retryBuf.dropWhile (fun x => decide (x.seq ≠ seq)) = c :: post) :
    exec (.cellAck p seq) s = s.whenLive (s.setPort p { s.port p with retryBuf := post }) := by
  have hmem : c ∈ (s.port p).retryBuf := (List.dropWhile_sublist _).subset (h ▸ List.mem_cons_self)
  have hany : (s.port p).retryBuf.any (fun x => decide (x.seq = seq)) = true := List.any_eq_true.mpr ⟨c, hmem, decide_eq_true hc⟩
  change execCellAck p seq s = _
  simp only [execCellAck, State.updPort, hany, if_true, h, List.drop_one, List.tail_cons]

/-! ### Credits and rekeying (R316, R319) -/

theorem exec_creditReturn_due {p q n : Nat} {s : State} (hn : (s.port p).freed.lookD q 0 = n) (hpos : 0 < n)
    (hdue : 64 ≤ n ∨ (s.port p).freedAt.lookD q 0 + 1000 ≤ s.now) :
    exec (.creditReturn p q) s =
      s.whenLive ((s.updPort p fun x => { x with freed := x.freed.del q, freedAt := x.freedAt.del q }).send (.creditCell p q n)) := by
  change execCreditReturn p q s = _
  simp only [execCreditReturn, hn, hpos, decide_true, Bool.true_and, Bool.or_eq_true, decide_eq_true_eq, hdue, if_true]

theorem exec_creditReturnArrival (p : Nat) {q : Nat} (n : Nat) (s : State) (hq : q < 16) :
    exec (.creditReturnArrival p q n) s =
      s.whenLive ((s.count .lnkQRet (p * 16 + q) n).updPort p fun x => { x with avail := x.avail.put q (x.avail.lookD q 0 + n) }) := by
  change execCreditReturnArrival p q n s = _
  rw [execCreditReturnArrival, if_pos hq]

theorem exec_rekeyStart_due {p : Nat} {s : State} (hup : s.portSt p = 5) (hsuite : s.suite p = 1) (hidle : (s.port p).rekeying = false)
    (hdue : 2 ^ 40 - 2 ^ 32 ≤ (s.rd .lnkPortCounter p).toNat ∨ (s.port p).epochAt + s.rekeyS * 1000000000 ≤ s.now) :
    exec (.rekeyStart p) s =
      s.whenLive ((s.updPort p fun x => { x with rekeying := true }).send (.rekey p ((s.txEpoch p + 1) % 2 ^ 32) false)) := by
  change execRekeyStart p s = _
  rw [execRekeyStart, if_pos (by simpa using hdue), State.rekeyPort, if_pos (by simp [hup, hsuite, hidle])]

theorem State.epochs_setEpochs (s : State) (p tx rx : Nat) :
    (s.setEpochs p tx rx).txEpoch p = tx % 2 ^ 32 ∧ (s.setEpochs p tx rx).rxEpoch p = rx % 2 ^ 32 := by
  rw [State.txEpoch, State.rxEpoch, State.setEpochs, State.rd_wr_same, BitVec.toNat_ofNat, bits, bits]
  omega

theorem State.txEpoch_of_rd {s t : State} {p : Nat} (h : t.rd .lnkPortKey p = s.rd .lnkPortKey p) : t.txEpoch p = s.txEpoch p := by
  rw [State.txEpoch, h, State.txEpoch]

theorem State.rxEpoch_of_rd {s t : State} {p : Nat} (h : t.rd .lnkPortKey p = s.rd .lnkPortKey p) : t.rxEpoch p = s.rxEpoch p := by
  rw [State.rxEpoch, h, State.rxEpoch]

theorem State.txEpoch_updPort (s : State) (p : Nat) (f : Port → Port) (k : Nat) : (s.updPort p f).txEpoch k = s.txEpoch k :=
  State.txEpoch_of_rd rfl

theorem State.rxEpoch_updPort (s : State) (p : Nat) (f : Port → Port) (k : Nat) : (s.updPort p f).rxEpoch k = s.rxEpoch k :=
  State.rxEpoch_of_rd rfl

theorem State.txEpoch_lt (s : State) (p : Nat) : s.txEpoch p < 2 ^ 32 := Nat.mod_lt _ (by decide)
theorem State.rxEpoch_lt (s : State) (p : Nat) : s.rxEpoch p < 2 ^ 32 := Nat.mod_lt _ (by decide)

/-- The receiver of REKEY installs the next receive key and answers (R319). -/
theorem exec_rekeyFrame_installs {p : Nat} {s : State} (hup : s.portSt p = 5) (hsuite : s.suite p = 1) :
    exec (.rekeyFrame p (s.rxEpoch p + 1) false) s =
      s.whenLive (((s.setEpochs p (s.txEpoch p) (s.rxEpoch p + 1)).updPort p fun x => { x with oldRx := true }).send
        (.rekey p (s.rxEpoch p + 1) true)) := by
  change execRekeyFrame p (s.rxEpoch p + 1) false s = _
  simp only [execRekeyFrame, hup, hsuite, decide_true, Bool.and_self, if_true, Bool.false_eq_true, if_false]

/-- The answer to REKEY lets the sender switch, with COUNTER 0 (R319). -/
theorem exec_rekeyFrame_switches {p : Nat} {s : State} (hup : s.portSt p = 5) (hsuite : s.suite p = 1) (hwaits : (s.port p).rekeying = true) :
    exec (.rekeyFrame p (s.txEpoch p + 1) true) s =
      s.whenLive (((s.setEpochs p (s.txEpoch p + 1) (s.rxEpoch p)).wr .lnkPortCounter p 0).updPort p fun x =>
        { x with rekeying := false, oldTx := true, epochAt := s.now }) := by
  change execRekeyFrame p (s.txEpoch p + 1) true s = _
  simp only [execRekeyFrame, hup, hsuite, hwaits, decide_true, Bool.and_self, if_true]

/-! ### Service at a cell boundary (R315, R322) -/

theorem State.growCredit_out (s : State) (p : Nat) : (s.growCredit p).out = s.out :=
  foldl_kept State.out (fun _ _ => by rfl) _ _

theorem State.rd_growCredit_ne (s : State) (p : Nat) {r : Reg} (i : Nat) (h : r ≠ .lnkQCredit) : (s.growCredit p).rd r i = s.rd r i :=
  foldl_kept (fun t => State.rd t r i) (fun _ _ => State.rd_wr_reg_ne _ _ _ _ h) _ _

/-- Of a port, credits that grow change themselves and when they last grew (R322). -/
theorem State.port_growCredit (s : State) (p : Nat) :
    ∃ credit, (s.growCredit p).port p = { s.port p with credit := credit, creditAt := s.now } :=
  ⟨_, (State.port_of_lnk (foldl_kept State.lnk (fun _ _ => by rfl) _ _) p).trans (State.port_updPort_same ..)⟩

theorem exec_cellBoundaryService_resends {p : Nat} {c : CellCtl} {rest : List CellCtl} {s : State} (hup : s.portSt p = 5)
    (hresend : (s.port p).resend = c :: rest) :
    exec (.cellBoundaryService p) s =
      s.whenLive (((s.growCredit p).updPort p fun x => { x with resend := rest }).send (.cell p c)) := by
  obtain ⟨credit, hport⟩ := s.port_growCredit p
  have hgrown : ((s.growCredit p).port p).resend = c :: rest := by rw [hport]; exact hresend
  change execCellBoundaryService p s = _
  simp only [execCellBoundaryService, hup, if_true, hgrown]

theorem exec_cellBoundaryService_serves {p q : Nat} {moved : Bool} {s : State} (hup : s.portSt p = 5) (hresend : (s.port p).resend = [])
    (hroom : (s.port p).retryBuf.length < 4096) (hcounter : s.suite p = 0 ∨ (s.rd .lnkPortCounter p).toNat < 2 ^ 40)
    (hpick : (s.growCredit p).pickQueue p = some (q, moved)) :
    exec (.cellBoundaryService p) s = s.whenLive ((s.growCredit p).sendCell p q moved) := by
  obtain ⟨credit, hport⟩ := s.port_growCredit p
  have hnone : ((s.growCredit p).port p).resend = [] := by rw [hport]; exact hresend
  have hbuf : ¬ 4096 ≤ ((s.growCredit p).port p).retryBuf.length := by rw [hport]; exact Nat.not_le.mpr hroom
  have hsuite : (s.growCredit p).suite p = s.suite p := State.fld_of_rd (s.rd_growCredit_ne p _ (by decide))
  have hlate : (decide ((s.growCredit p).suite p = 1) && decide (2 ^ 40 ≤ ((s.growCredit p).rd .lnkPortCounter p).toNat)) = false := by
    rw [hsuite, s.rd_growCredit_ne p _ (by decide), Bool.and_eq_false_iff, decide_eq_false_iff_not, decide_eq_false_iff_not]
    omega
  change execCellBoundaryService p s = _
  simp only [execCellBoundaryService, hup, if_true, hnone, if_neg hbuf, hlate, Bool.false_eq_true, if_false, hpick]

/-- The cell in which frame `f` of queue `q` of port `p` goes on (R313). -/
def State.nextCell (s : State) (p q : Nat) (f : Frame) : CellCtl := ⟨(s.port p).seqTx, q, !f.started, decide (f.left = 1), false⟩

/-- What a cell of queue `q` leaves: the cell is on the link and in the retry buffer, the queue has a credit and a cell less, and ISSUED counts;
beside that the port's round-robin place, credits and deficits change (R315, R316, R322). -/
theorem State.sendCell_sent {s : State} {p q : Nat} {f : Frame} {rest : List Frame} (moved : Bool)
    (h : (s.port p).queues.lookD q [] = f :: rest) :
    (s.sendCell p q moved).out = s.out ++ [.cell p (s.nextCell p q f)] ∧ (s.sendCell p q moved).mem = s.mem ∧
      (s.sendCell p q moved).rd .lnkQIss (p * 16 + q) = s.rd .lnkQIss (p * 16 + q) + 1 ∧
      ∃ place credit deficit, (s.sendCell p q moved).port p =
        { s.port p with
          drrQ := place, credit := credit, deficit := deficit
          queues := (s.port p).queues.put q (if f.left ≤ 1 then rest else { f with left := f.left - 1 } :: rest)
          avail := (s.port p).avail.put q ((s.port p).avail.lookD q 0 - 1)
          retryBuf := (s.port p).retryBuf ++ [s.nextCell p q f]
          seqTx := ((s.port p).seqTx + 1) % 8192 } := by
  simp -zeta only [State.sendCell, h]
  extract_lets cells starting x ctl deficits x₁ x₂ fs x₃ s₁ s₂ s₃
  have hx₁ : ∃ place deficit, x₁ = { s.port p with drrQ := place, deficit := deficit } := by
    dsimp only [x₁]
    split <;> exact ⟨_, _, rfl⟩
  have hx₂ : ∃ credit deficit, x₂ = { x₁ with credit := credit, deficit := deficit } := by
    dsimp only [x₂]
    split <;> exact ⟨_, _, rfl⟩
  have hs₂ : s₂.out = s.out ∧ s₂.mem = s.mem ∧ s₂.rd .lnkQIss (p * 16 + q) = s.rd .lnkQIss (p * 16 + q) + 1 ∧ s₂.port p = x₃ := by
    have hs₁ : s₁.rd .lnkQIss (p * 16 + q) = s.rd .lnkQIss (p * 16 + q) + 1 := State.rd_count ..
    dsimp only [s₂]
    split
    · exact ⟨rfl, rfl, (State.rd_wr_reg_ne _ _ _ _ (by decide)).trans hs₁, State.port_setPort_same ..⟩
    · exact ⟨rfl, rfl, hs₁, State.port_setPort_same ..⟩
  have hs₃ : s₃.out = s₂.out ∧ s₃.mem = s₂.mem ∧ s₃.rd .lnkQIss (p * 16 + q) = s₂.rd .lnkQIss (p * 16 + q) ∧ s₃.port p = s₂.port p := by
    dsimp only [s₃]
    split
    · exact ⟨rfl, rfl, State.rd_wr_reg_ne _ _ _ _ (by decide), rfl⟩
    · exact ⟨rfl, rfl, rfl, rfl⟩
  obtain ⟨place, deficit₁, hx₁⟩ := hx₁
  obtain ⟨credit, deficit, hx₂⟩ := hx₂
  obtain ⟨hout₂, hmem₂, hiss₂, hport₂⟩ := hs₂
  obtain ⟨hout, hmem, hiss, hport⟩ := hs₃
  refine ⟨?_, hmem.trans hmem₂, hiss.trans hiss₂, place, credit, deficit, ?_⟩
  · rw [State.send, hout, hout₂]
    rfl
  · rw [State.port_send, hport, hport₂]
    dsimp only [x₃]
    rw [hx₂, hx₁]
    rfl

/-! ### Depth samples (R324) -/

/-- A queue's depth histogram with one more sample. -/
def State.depthSampled (s : State) (k : Nat × Nat) : List Nat :=
  histAdd (s.lnk.depth.lookD k []) (histBin 1024 (s.rd .lnkQDepth (k.1 * 16 + k.2)).toNat)

/-- A sample of some queues changes the depth histograms alone. -/
theorem State.foldl_sampleDepth_eq (s : State) (ks : List (Nat × Nat)) :
    ks.foldl (fun t k => t.sampleDepth k.1 k.2) s =
      { s with lnk := { s.lnk with depth := (ks.foldl (fun t k => t.sampleDepth k.1 k.2) s).lnk.depth } } :=
  foldl_inv (P := fun t : State => t = { s with lnk := { s.lnk with depth := t.lnk.depth } }) (fun t k ht => by rw [ht]; rfl) rfl ks

/-- A sample of distinct queues adds once to each one's histogram. -/
theorem State.look_foldl_sampleDepth (s : State) {ks : List (Nat × Nat)} (hnodup : ks.Nodup) (k : Nat × Nat) :
    (ks.foldl (fun t k => t.sampleDepth k.1 k.2) s).lnk.depth.look k = if k ∈ ks then some (s.depthSampled k) else s.lnk.depth.look k := by
  induction ks generalizing s with
  | nil => rfl
  | cons j ks ih =>
    obtain ⟨hj, hks⟩ := List.nodup_cons.mp hnodup
    rw [List.foldl_cons, ih _ hks]
    have hdepth : (s.sampleDepth j.1 j.2).lnk.depth = s.lnk.depth.put j (s.depthSampled j) := rfl
    by_cases hk : k = j
    · subst hk
      rw [if_neg hj, if_pos List.mem_cons_self, hdepth, Tbl.look_put_same]
    · have hkept : (s.sampleDepth j.1 j.2).depthSampled k = s.depthSampled k := by
        rw [State.depthSampled, hdepth, Tbl.lookD_put_ne _ _ _ hk]
        rfl
      rw [hkept, hdepth, Tbl.look_put_ne _ _ hk]
      simp only [List.mem_cons, hk, false_or]

/-- The queues of the module's ports. -/
def portQueues : List (Nat × Nat) := (List.range 22).product (List.range 16)

theorem portQueues_nodup : portQueues.Nodup := List.nodup_range.product List.nodup_range

theorem mem_portQueues {p q : Nat} (hp : p < 22) (hq : q < 16) : (p, q) ∈ portQueues :=
  List.pair_mem_product.mpr ⟨List.mem_range.mpr hp, List.mem_range.mpr hq⟩

theorem exec_queueDepthSample (s : State) :
    exec .queueDepthSample s = s.whenLive (portQueues.foldl (fun t k => t.sampleDepth k.1 k.2) s) := by
  change execQueueDepthSample s = _
  rw [execQueueDepthSample, portQueues, List.product, List.foldl_flatMap]
  simp only [List.foldl_map]

/-- Settles O45: each command is the equation of its case, and what the case changes is read off it; the scheduler's cell is what `sendCell`
leaves on the state with grown credits, and a depth sample is one pass over distinct queues. -/
theorem linkCellsAndRetry : Obligations.LinkCellsAndRetry := by
  unfold Obligations.LinkCellsAndRetry
  refine ⟨?accepts, ?acks, ?ignores, ?ackTimer, ?codeword, ?retry, ?acked, ?credits, ?creditsBack, ?rekey, ?installs, ?switches, ?resends,
    ?serves, ?sample⟩
  case accepts =>
    rintro p ctl s hlive ⟨hdata, hseq, hfew⟩
    have hexec := exec_cellReceive_next hdata hseq
    rw [if_neg (by omega)] at hexec
    refine .of_live hexec hlive ?_
    rw [State.port_cellAccepted]
    exact ⟨rfl, rfl, rfl, State.rd_count .., RegsKept.of_put rfl, rfl⟩
  case acks =>
    rintro p ctl s hlive ⟨hdata, hseq, hmany⟩
    have hexec := exec_cellReceive_next hdata hseq
    rw [if_pos hmany] at hexec
    refine .of_live hexec hlive ?_
    rw [State.sendAck_out, State.port_sendAck, State.port_cellAccepted]
    refine ⟨?_, rfl, rfl, rfl, rfl⟩
    have hack : (((s.port p).seqRx + 1) % 8192 + 8191) % 8192 = ctl.seq := by omega
    rw [hack]
    rfl
  case ignores =>
    intro p ctl s hlive h
    rw [exec_cellReceive_ignored h, State.whenLive_eq, ite_self]
  case ackTimer =>
    rintro p at_ s hlive ⟨hat, hdue⟩
    refine .of_live (exec_ackTimer_due hat hdue) hlive ?_
    rw [State.port_sendAck]
    exact ⟨rfl, rfl, rfl, rfl⟩
  case codeword =>
    intro p seq s hlive
    obtain ⟨hcodewords, hframes⟩ := codewordCounted_fields (s.rd .lnkPortErr p).toNat
    have hrd : (s.codewordAskedAgain p (seq % 8192)).rd .lnkPortErr p = BitVec.ofNat 64 (codewordCounted (s.rd .lnkPortErr p).toNat) :=
      State.rd_wr_same ..
    refine .of_live (exec_codewordUncorrectable p seq s) hlive ⟨rfl, ?_, ?_, ?_, RegsKept.of_put rfl, rfl⟩
    · rw [hrd, hcodewords]
    · rw [hrd, hframes]
    · rw [State.codewordAskedAgain, State.port_send, State.port_updPort_same]
  case retry =>
    rintro p seq pre post c s hlive hbuf ⟨hc, hpre⟩
    have hfound := hbuf ▸ dropWhile_seq_ne hc hpre
    refine .of_live (exec_retryRequest_found hfound) hlive ⟨?_, State.rd_count .., RegsKept.of_put rfl, rfl⟩
    rw [State.port_count, State.port_updPort_same]
  case acked =>
    rintro p seq pre post c s hlive hbuf ⟨hc, hpre⟩
    have hfound := hbuf ▸ dropWhile_seq_ne hc hpre
    exact .of_live (exec_cellAck_found hc hfound) hlive ⟨State.port_setPort_same .., rfl⟩
  case credits =>
    rintro p q n s hlive ⟨hn, hpos⟩ hdue
    refine .of_live (exec_creditReturn_due hn hpos hdue) hlive ?_
    rw [State.port_send, State.port_updPort_same]
    exact ⟨rfl, congrArg (Option.getD · 0) (Tbl.look_del_same ..), fun k hk => Tbl.look_del_ne _ hk, rfl⟩
  case creditsBack =>
    intro p q n s hlive hq
    refine .of_live (exec_creditReturnArrival p n s hq) hlive ⟨?_, State.rd_count .., RegsKept.of_put rfl, rfl⟩
    rw [State.port_updPort_same]
    exact Tbl.look_put_same ..
  case rekey =>
    rintro p s hlive ⟨hup, hsuite, hidle⟩ hdue
    refine .of_live (exec_rekeyStart_due hup hsuite hidle hdue) hlive ⟨rfl, ?_, rfl⟩
    rw [State.port_send, State.port_updPort_same]
  case installs =>
    rintro p _ s hlive ⟨hup, hsuite, rfl, hlt⟩
    obtain ⟨htx, hrx⟩ := s.epochs_setEpochs p (s.txEpoch p) (s.rxEpoch p + 1)
    refine .of_live (exec_rekeyFrame_installs hup hsuite) hlive
      ⟨hrx.trans (Nat.mod_eq_of_lt hlt), htx.trans (Nat.mod_eq_of_lt (s.txEpoch_lt p)), rfl, ?_, RegsKept.of_put rfl⟩
    rw [State.port_send, State.port_updPort_same]
  case switches =>
    rintro p _ s hlive ⟨hup, hsuite, rfl, hlt, hwaits⟩
    obtain ⟨htx, hrx⟩ := s.epochs_setEpochs p (s.txEpoch p + 1) (s.rxEpoch p)
    have hkey : ((s.setEpochs p (s.txEpoch p + 1) (s.rxEpoch p)).wr .lnkPortCounter p 0).rd .lnkPortKey p =
        (s.setEpochs p (s.txEpoch p + 1) (s.rxEpoch p)).rd .lnkPortKey p := State.rd_wr_reg_ne _ _ _ _ (by decide)
    refine .of_live (exec_rekeyFrame_switches hup hsuite hwaits) hlive
      ⟨?_, ?_, (State.rd_updPort ..).trans (State.rd_wr_same ..), ?_, ?_, rfl⟩
    · rw [State.txEpoch_updPort, State.txEpoch_of_rd hkey, htx, Nat.mod_eq_of_lt hlt]
    · rw [State.rxEpoch_updPort, State.rxEpoch_of_rd hkey, hrx, Nat.mod_eq_of_lt (s.rxEpoch_lt p)]
    · rw [State.port_updPort_same]
    · rw [State.port_updPort_same]
  case resends =>
    rintro p c rest s hlive ⟨hup, hresend⟩
    obtain ⟨credit, hport⟩ := s.port_growCredit p
    refine .of_live (exec_cellBoundaryService_resends hup hresend) hlive ?_
    rw [State.port_send, State.port_updPort_same, hport, State.send_out, State.updPort_out, s.growCredit_out p, State.send_mem,
      State.updPort_mem, s.growCredit_mem p]
    exact ⟨rfl, rfl, rfl, rfl, rfl⟩
  case serves =>
    rintro p q moved f rest s hlive ⟨hup, hresend, hroom⟩ hcounter hpick hqueue
    obtain ⟨credit, hport⟩ := s.port_growCredit p
    have hgrown : ((s.growCredit p).port p).queues.lookD q [] = f :: rest := by rw [hport]; exact hqueue
    have hcell : (s.growCredit p).nextCell p q f = ⟨(s.port p).seqTx, q, !f.started, decide (f.left = 1), false⟩ := by
      rw [State.nextCell, hport]
    obtain ⟨hout, hmem, hiss, place, credit', deficit, hafter⟩ := State.sendCell_sent moved hgrown
    refine .of_live (exec_cellBoundaryService_serves hup hresend hroom hcounter hpick) hlive ?_
    rw [hafter, hout, hmem, hiss, hport, hcell, s.growCredit_out p, s.rd_growCredit_ne p _ (by decide)]
    exact ⟨rfl, rfl, rfl, Tbl.lookD_put_same .., Tbl.lookD_put_same .., rfl, s.growCredit_mem p⟩
  case sample =>
    intro s hlive
    refine .of_live (exec_queueDepthSample s) hlive ⟨fun p q hp hq => ?_, s.foldl_sampleDepth_eq portQueues⟩
    rw [s.look_foldl_sampleDepth portQueues_nodup, if_pos (mem_portQueues hp hq), State.depthSampled]

end Sys2Proof.Machine

namespace Sys2Proof.Machine

/-! ### Frames received (R314, R316 to R318) -/

theorem State.port_freeRx (s : State) (p q len : Nat) :
    (s.freeRx p q len).port p =
      { s.port p with
        freed := (s.port p).freed.put q ((s.port p).freed.lookD q 0 + frameCells len)
        freedAt := (s.port p).freedAt.put q ((s.port p).freedAt.lookD q s.now) } := by
  rw [State.freeRx, State.port_updPort_same, State.port_wr]

theorem State.rd_freeRx_ne (s : State) (p q len : Nat) {r : Reg} (i : Nat) (h : r ≠ .lnkQRxuse) : (s.freeRx p q len).rd r i = s.rd r i :=
  State.rd_wr_reg_ne _ _ _ _ h

theorem State.suite_freeRx (s : State) (p q len : Nat) : (s.freeRx p q len).suite p = s.suite p :=
  State.fld_of_rd (s.rd_freeRx_ne p q len _ (by decide))

/-- Whether a frame authenticates does not depend on its cells having been freed. -/
theorem State.authOk_freeRx (s : State) (p q len : Nat) (h : FrameHdr) : (s.freeRx p q len).authOk p h = s.authOk p h := by
  have hepoch : (s.freeRx p q len).rxEpoch p = s.rxEpoch p := State.rxEpoch_of_rd (s.rd_freeRx_ne p q len _ (by decide))
  rw [State.authOk, s.suite_freeRx, hepoch, s.port_freeRx]
  rfl

/-- A frame's form as the receiver asks for it: an UP port, a queue of the port, and 1 to 4,432 payload bytes as the header says (R314). -/
def State.frameFits (s : State) (p : Nat) (h : FrameHdr) (payload : List Byte) : Prop :=
  s.portSt p = 5 ∧ h.queue < 16 ∧ payload.length = h.len ∧ 1 ≤ h.len ∧ h.len ≤ 4432

/-- A frame has authenticated: its cells are freed, its COUNTER is the last of its epoch under suite 1, and its tag failure is forgotten
(R316 to R318). -/
def State.frameAuthenticated (s : State) (p : Nat) (h : FrameHdr) : State :=
  (s.freeRx p h.queue h.len).updPort p fun x =>
    { x with
      lastCtr := if (s.freeRx p h.queue h.len).suite p = 0 then x.lastCtr else x.lastCtr.put h.epoch h.counter
      tagFails := x.tagFails.filter fun t => decide (t ≠ (h.queue, h.msg, h.offset)) }

theorem State.port_frameAuthenticated (s : State) (p : Nat) (h : FrameHdr) :
    (s.frameAuthenticated p h).port p =
      { s.port p with
        freed := (s.port p).freed.put h.queue ((s.port p).freed.lookD h.queue 0 + frameCells h.len)
        freedAt := (s.port p).freedAt.put h.queue ((s.port p).freedAt.lookD h.queue s.now)
        lastCtr := if s.suite p = 0 then (s.port p).lastCtr else (s.port p).lastCtr.put h.epoch h.counter
        tagFails := (s.port p).tagFails.filter fun t => decide (t ≠ (h.queue, h.msg, h.offset)) } := by
  rw [State.frameAuthenticated, State.port_updPort_same, s.port_freeRx, s.suite_freeRx]

/-- A frame of a node or fabric port that authenticates joins its queue's stream (R314, R317). -/
theorem exec_frameReceive_takes {p : Nat} {h : FrameHdr} {payload : List Byte} {s : State} (hp : p < 20) (hfits : s.frameFits p h payload)
    (hauth : s.authOk p h = true) :
    exec (.frameReceive p h payload) s = s.whenLive ((s.frameAuthenticated p h).takePayload p h payload) := by
  obtain ⟨hup, hqueue, hlen, hmin, hmax⟩ := hfits
  change execFrameReceive p h payload s = _
  simp only [execFrameReceive, hup, hqueue, hlen, hmin, hmax, decide_true, Bool.and_self, if_true, s.authOk_freeRx, hauth, Bool.not_true,
    Bool.false_eq_true, if_false, if_neg (Nat.not_le.mpr hp)]
  rfl

/-- A frame that fails authentication is discarded and counted; its cells are freed (R316, R317). -/
theorem exec_frameReceive_denied {p : Nat} {h : FrameHdr} {payload : List Byte} {s : State} (hfits : s.frameFits p h payload)
    (hauth : s.authOk p h = false) :
    exec (.frameReceive p h payload) s = s.whenLive ((s.freeRx p h.queue h.len).countAuthFail p) := by
  obtain ⟨hup, hqueue, hlen, hmin, hmax⟩ := hfits
  change execFrameReceive p h payload s = _
  simp only [execFrameReceive, hup, hqueue, hlen, hmin, hmax, decide_true, Bool.and_self, if_true, s.authOk_freeRx, hauth, Bool.not_false]

theorem State.port_countAuthFail (s : State) (p k : Nat) : (s.countAuthFail p).port k = s.port k := State.port_setFld ..

theorem State.fld_countAuthFail (s : State) (p : Nat) :
    (s.countAuthFail p).fld Fld.lnkPortErr_authFail p = min (s.fld Fld.lnkPortErr_authFail p + 1) 65535 := by
  rw [State.countAuthFail, State.countSat, State.fld_setFld_same _ _ _ _ (by decide)]
  exact Nat.mod_eq_of_lt (Nat.lt_of_le_of_lt (Nat.min_le_right _ _) (by decide))

/-- The bytes of a message gathered before frame `h`: none before its first frame, else what the stream of its queue holds (R314). -/
def State.gathered (s : State) (p : Nat) (h : FrameHdr) (before : List Byte) : Prop :=
  (h.first = true ∧ before = []) ∨ (h.first = false ∧ (s.port p).rx.look (h.queue, h.conn) = some ⟨h.msg, h.conn, before, false⟩)

/-- The last frame of a message hands on what was gathered with its payload, and ends the stream (R314). -/
theorem State.takePayload_last {s : State} {p : Nat} {h : FrameHdr} {before : List Byte} (payload : List Byte) (hlast : h.last = true)
    (hbefore : s.gathered p h before) :
    s.takePayload p h payload =
      (s.updPort p fun x => { x with rx := x.rx.del (h.queue, h.conn) }).send (.message p h.queue h.conn (before ++ payload)) := by
  have hstream : (if h.first then RxMsg.mk h.msg h.conn [] false
      else (s.port p).rx.lookD (h.queue, h.conn) (RxMsg.mk h.msg h.conn [] true)) = ⟨h.msg, h.conn, before, false⟩ := by
    obtain ⟨hfirst, rfl⟩ | ⟨hfirst, hrx⟩ := hbefore
    · rw [if_pos hfirst]
    · rw [if_neg (Bool.eq_false_iff.mp hfirst), Tbl.lookD, hrx, Option.getD_some]
  simp only [State.takePayload, hstream, hlast, if_true, Bool.false_eq_true, if_false]

/-! ### Histograms (R324) -/

theorem bit_eq_bits (v i : Nat) : bit v i = decide (bits v i 1 = 1) := by rw [bit, bits, pow_one]

/-- The sixteen bins of a histogram stand two by two in the data words (Table 13-16). -/
def State.histShown (s : State) (h : List Nat) : State :=
  (List.range 8).foldl (fun s n => s.wr .lnkHistData n (BitVec.ofNat 64 (h.getD (2 * n) 0 + h.getD (2 * n + 1) 0 * 2 ^ 32))) s

/-- Writing a register at its first indices changes registers alone. -/
theorem State.foldl_wr_range_eq (r : Reg) (v : Nat → Word) (m : Nat) (s : State) :
    (List.range m).foldl (fun t n => t.wr r n (v n)) s =
      { s with regs := ((List.range m).foldl (fun t n => State.wr t r n (v n)) s).regs } :=
  foldl_inv (P := fun t : State => t = { s with regs := t.regs }) (fun t n ht => by rw [ht]; rfl) rfl _

/-- At each of these indices the register then reads what was written there. -/
theorem State.rd_foldl_wr_range (r : Reg) (v : Nat → Word) {m n : Nat} (h : n < m) (s : State) :
    ((List.range m).foldl (fun t n => State.wr t r n (v n)) s).rd r n = v n := by
  induction m with
  | zero => exact absurd h (Nat.not_lt_zero n)
  | succ m ih =>
    rw [List.range_succ, List.foldl_append, List.foldl_cons, List.foldl_nil]
    by_cases hn : n = m
    · subst hn
      exact State.rd_wr_same ..
    · rw [State.rd_wr_ne _ _ (by simp [hn])]
      exact ih (by omega)

theorem State.rd_histShown (s : State) (h : List Nat) {n : Nat} (hn : n < 8) :
    (s.histShown h).rd .lnkHistData n = BitVec.ofNat 64 (h.getD (2 * n) 0 + h.getD (2 * n + 1) 0 * 2 ^ 32) :=
  State.rd_foldl_wr_range .lnkHistData (fun n => BitVec.ofNat 64 (h.getD (2 * n) 0 + h.getD (2 * n + 1) 0 * 2 ^ 32)) hn s

theorem State.rd_histShown_ne (s : State) (h : List Nat) {r : Reg} (i : Nat) (hr : r ≠ .lnkHistData) : (s.histShown h).rd r i = s.rd r i :=
  foldl_kept (fun t => State.rd t r i) (fun _ _ => State.rd_wr_reg_ne _ _ _ _ hr) _ _

theorem State.histShown_eq (s : State) (h : List Nat) : s.histShown h = { s with regs := (s.histShown h).regs } :=
  State.foldl_wr_range_eq .lnkHistData (fun n => BitVec.ofNat 64 (h.getD (2 * n) 0 + h.getD (2 * n + 1) 0 * 2 ^ 32)) 8 s

theorem State.rd_rwWrite_same (s : State) (r : Reg) (i : Nat) (v : Word) : (s.rwWrite r i v).rd r i = s.definedBits r i v :=
  State.rd_wr_same ..

theorem State.rd_onLnk (s : State) (f : Lnk → Lnk) (r : Reg) (i : Nat) : (s.onLnk f).rd r i = s.rd r i := State.rd_congr (s.onLnk_regs f) r i

theorem State.rwWrite_lnk (s : State) (r : Reg) (i : Nat) (v : Word) : (s.rwWrite r i v).lnk = s.lnk := rfl

/-- A write of HIST_SEL that the window lets through shows the chosen histogram, and clears its source with CLEAR. -/
theorem exec_histSelWrite {rq : Requester} {v : Word} {kind port q cust : Nat} {s : State} (hopen : WindowOpen s rq)
    (hreach : s.regReach .lnkHistSel 0 = true) (hmodule : s.isModule rq = true) (hkind : bits v.toNat 0 3 = kind) (hkindLt : kind < 4)
    (hport : bits v.toNat 3 5 = port) (hportLt : port < 22) (hq : bits v.toNat 8 4 = q) (hcust : bits v.toNat 12 16 = cust) :
    exec (.histSelWrite rq v) s =
      .next (if bit v.toNat 28 = true
        then ((s.rwWrite .lnkHistSel 0 v).histShown (s.histOf kind port q cust)).onLnk (fun l => l.clearHist kind port q cust)
        else (s.rwWrite .lnkHistSel 0 v).histShown (s.histOf kind port q cust)) := by
  have hfkind : (s.rwWrite .lnkHistSel 0 v).fld Fld.lnkHistSel_kind = kind := (s.fld_rwWrite_same _ 0 v (by decide)).trans hkind
  have hfport : (s.rwWrite .lnkHistSel 0 v).fld Fld.lnkHistSel_port = port := (s.fld_rwWrite_same _ 0 v (by decide)).trans hport
  have hfq : (s.rwWrite .lnkHistSel 0 v).fld Fld.lnkHistSel_queue = q := (s.fld_rwWrite_same _ 0 v (by decide)).trans hq
  have hfcust : (s.rwWrite .lnkHistSel 0 v).fld Fld.lnkHistSel_customer = cust := (s.fld_rwWrite_same _ 0 v (by decide)).trans hcust
  have hhist : (s.rwWrite .lnkHistSel 0 v).histOf kind port q cust = s.histOf kind port q cust := rfl
  have hclear : ∀ h, ((s.rwWrite .lnkHistSel 0 v).histShown h).fld Fld.lnkHistSel_clear = bits v.toNat 28 1 := fun h =>
    (State.fld_of_rd (State.rd_histShown_ne _ h _ (by decide))).trans (s.fld_rwWrite_same Fld.lnkHistSel_clear 0 v (by decide))
  change execHistSelWrite rq v s = _
  rw [execHistSelWrite, hmodule, State.cfgWrite_of_windowOpen hopen hreach, bit_eq_bits, ← hclear (s.histOf kind port q cust)]
  simp only [hfkind, hfport, hfq, hfcust, if_pos hkindLt, if_pos hportLt, hhist, decide_eq_true_eq]
  rfl

/-! ### Gates (R325) -/

theorem State.shadowGates_of_regs {s t : State} (h : t.regs = s.regs) (p : Nat) : t.shadowGates p = s.shadowGates p := by
  simp only [State.shadowGates, State.fld_congr h]

theorem State.fld_swap_rwWrite (s : State) (p : Nat) (v : Word) (h : bit v.toNat 9 = true) :
    (s.rwWrite .lnkGateCfg p v).fld Fld.lnkGateCfg_swap p = 1 := by
  rw [bit_eq_bits, decide_eq_true_eq] at h
  exact (s.fld_rwWrite_same Fld.lnkGateCfg_swap p v (by decide)).trans h

/-- SWAP with a valid shadow list leaves it waiting for the cycle start. -/
theorem exec_gateSwapRequest_waits {rq : Requester} {p : Nat} {v : Word} {s : State} (hopen : WindowOpen s rq) (hp : p < 22)
    (hreach : s.regReach .lnkGateCfg p = true) (hmodule : s.isModule rq = true) (hswap : bit v.toNat 9 = true)
    (hvalid : gatesValid ((s.rwWrite .lnkGateCfg p v).shadowGates p) = true) :
    exec (.gateSwapRequest rq p v) s =
      .next ((s.rwWrite .lnkGateCfg p v).updPort p fun x => { x with swap := some ((s.rwWrite .lnkGateCfg p v).shadowGates p) }) := by
  change execGateSwapRequest rq p v s = _
  rw [execGateSwapRequest, if_pos hp, hmodule, State.cfgWrite_of_windowOpen hopen hreach]
  simp only [s.fld_swap_rwWrite p v hswap, hvalid, Bool.not_true, Bool.and_false, Bool.false_eq_true, if_false, if_true]

/-- SWAP with an invalid shadow list is refused. -/
theorem exec_gateSwapRequest_refused {rq : Requester} {p : Nat} {v : Word} {s : State} (hopen : WindowOpen s rq) (hp : p < 22)
    (hreach : s.regReach .lnkGateCfg p = true) (hmodule : s.isModule rq = true) (hswap : bit v.toNat 9 = true)
    (hinvalid : gatesValid ((s.rwWrite .lnkGateCfg p v).shadowGates p) = false) :
    exec (.gateSwapRequest rq p v) s = .next ((s.rwWrite .lnkGateCfg p v).gateRefuse p) := by
  change execGateSwapRequest rq p v s = _
  rw [execGateSwapRequest, if_pos hp, hmodule, State.cfgWrite_of_windowOpen hopen hreach]
  simp only [s.fld_swap_rwWrite p v hswap, hinvalid, Bool.not_false, decide_true, Bool.and_self, if_true]

theorem State.port_gateRefuse (s : State) (p : Nat) : (s.gateRefuse p).port p = s.port p := State.port_raise ..

/-- A refused swap sets ERR and GATE_ERR, and SWAP reads 0 again. -/
theorem State.gateRefuse_flags (s : State) (p : Nat) :
    (s.gateRefuse p).fld Fld.lnkGateStatus_err p = 1 ∧ (s.gateRefuse p).fld Fld.lnkGateCfg_swap p = 0 ∧
      bit ((s.gateRefuse p).rd .lnkEvt 0).toNat Evt.lnk_gateErr.bit = true := by
  refine ⟨?_, ?_, State.bit_raise_same _ Evt.lnk_gateErr (by decide)⟩
  · rw [State.gateRefuse, State.fld_of_rd (State.rd_raise_ne _ _ (by simp [Evt.lnk_gateErr, Fld.lnkGateStatus_err])),
      State.fld_setFld_other _ _ Fld.lnkGateStatus_err _ _ _ (by decide) (.inl (by simp [Fld.lnkGateStatus_err, Fld.lnkGateCfg_swap])),
      State.fld_setFld_same _ _ _ _ (by decide)]
    rfl
  · rw [State.gateRefuse, State.fld_of_rd (State.rd_raise_ne _ _ (by simp [Evt.lnk_gateErr, Fld.lnkGateCfg_swap])),
      State.fld_setFld_same _ _ _ _ (by decide), Nat.zero_mod]

/-- The gates `g` become the active list of port `p`: the status shows their cycle without ERR, and SWAP reads 0. -/
def State.gatesSwapped (s : State) (p : Nat) (g : List (Nat × Nat)) : State :=
  ((s.wr .lnkGateStatus p (BitVec.ofNat 64 (((s.rd .lnkGateStatus p).toNat + 1) % 2 + (g.map (·.2)).sum * 4))).setFld
    Fld.lnkGateCfg_swap p 0).updPort p fun x => { x with gates := g, swap := none }

theorem exec_gateSwap_valid {p : Nat} {g : List (Nat × Nat)} {s : State} (hswap : (s.port p).swap = some g) (hvalid : gatesValid g = true) :
    exec (.gateSwap p) s = s.whenLive (s.gatesSwapped p g) := by
  change execGateSwap p s = _
  simp only [execGateSwap, hswap, hvalid, if_true]
  rfl

theorem State.gatesSwapped_flags (s : State) (p : Nat) (g : List (Nat × Nat)) :
    (s.gatesSwapped p g).fld Fld.lnkGateCfg_swap p = 0 ∧ (s.gatesSwapped p g).fld Fld.lnkGateStatus_err p = 0 := by
  constructor
  · exact (State.fld_setFld_same _ _ _ _ (by decide)).trans (Nat.zero_mod _)
  · have hstatus : (s.gatesSwapped p g).rd .lnkGateStatus p =
        BitVec.ofNat 64 (((s.rd .lnkGateStatus p).toNat + 1) % 2 + (g.map (·.2)).sum * 4) :=
      (State.rd_wr_reg_ne _ _ _ _ (by decide)).trans (State.rd_wr_same ..)
    have hget : (s.gatesSwapped p g).fld Fld.lnkGateStatus_err p = bits ((s.gatesSwapped p g).rd .lnkGateStatus p).toNat 1 1 := rfl
    rw [hget, hstatus, BitVec.toNat_ofNat, bits]
    omega

theorem State.gatesSwapped_regsKept (s : State) (p : Nat) (g : List (Nat × Nat)) :
    RegsKept [(.lnkGateCfg, p), (.lnkGateStatus, p)] s (s.gatesSwapped p g) := by
  intro r i hne
  obtain ⟨hcfg, hstatus⟩ : (r, i) ≠ (.lnkGateCfg, p) ∧ (r, i) ≠ (.lnkGateStatus, p) := by
    rwa [List.mem_pair, not_or] at hne
  exact (State.rd_wr_ne _ _ hcfg).trans (State.rd_wr_ne _ _ hstatus)

/-- Settles O46: each command is the equation of its case, and what the case changes is read off it; the tag failures are those of O8. -/
theorem linkFramesGatesAndTelemetry : Obligations.LinkFramesGatesAndTelemetry := by
  unfold Obligations.LinkFramesGatesAndTelemetry
  refine ⟨?message, ?denied, ?firstFail, ?secondFail, ?histSel, ?waits, ?refused, ?swap⟩
  case message =>
    rintro p h payload before s hlive ⟨hp, hfits⟩ ⟨hauth, hlast⟩ hbefore
    have hport := s.port_frameAuthenticated p h
    have hgathered : (s.frameAuthenticated p h).gathered p h before := by rwa [State.gathered, hport]
    have hexec := exec_frameReceive_takes hp hfits hauth
    rw [State.takePayload_last payload hlast hgathered] at hexec
    refine .of_live hexec hlive ?_
    rw [State.port_send, State.port_updPort_same, hport]
    refine ⟨rfl, Tbl.look_del_same .., Tbl.look_put_same .., fun hsuite => ?_, RegsKept.of_put rfl, rfl⟩
    exact (congrArg (Tbl.look · h.epoch) (if_neg hsuite)).trans (Tbl.look_put_same ..)
  case denied =>
    intro p h payload s hlive hfits hauth
    refine .of_live (exec_frameReceive_denied hfits hauth) hlive ⟨rfl, ?_, ?_⟩
    · rw [State.port_countAuthFail, s.port_freeRx]
    · rw [State.fld_countAuthFail, State.fld_of_rd (s.rd_freeRx_ne p h.queue h.len _ (by decide))]
  case firstFail =>
    rintro p _ h s hlive ⟨hup, hfirst⟩ rfl
    refine .of_live (exec_frameTagFail_first hup hfirst) hlive ?_
    rw [State.port_frameAskedAgain, State.portSt_frameAskedAgain]
    exact ⟨rfl, rfl, rfl, hup, rfl⟩
  case secondFail =>
    rintro p h s hlive ⟨hup, hsecond⟩
    refine .of_live (exec_frameTagFail_second hup hsecond) hlive ?_
    rw [State.port_frameGivenUp]
    exact ⟨s.portSt_frameGivenUp p h, rfl, s.frameGivenUp_authFail p h, rfl, s.frameGivenUp_out p h⟩
  case histSel =>
    rintro rq v kind port q cust s hopen ⟨hreach, hmodule⟩ ⟨hkind, hkindLt, hport, hportLt, hq, hcust⟩
    have hdata := fun n (hn : n < 8) => (s.rwWrite .lnkHistSel 0 v).rd_histShown (s.histOf kind port q cust) hn
    have hshown := (s.rwWrite .lnkHistSel 0 v).histShown_eq (s.histOf kind port q cust)
    have hexec := exec_histSelWrite hopen hreach hmodule hkind hkindLt hport hportLt hq hcust
    generalize (s.rwWrite .lnkHistSel 0 v).histShown (s.histOf kind port q cust) = t at hdata hshown hexec
    have hlnk : t.lnk = s.lnk := by rw [hshown, State.rwWrite_lnk]
    by_cases hclear : bit v.toNat 28 = true
    · rw [if_pos hclear] at hexec
      refine ⟨_, hexec, fun n hn => (State.rd_onLnk ..).trans (hdata n hn), ?_, ?_⟩
      · rw [if_pos hclear, State.onLnk_lnk, hlnk]
      · rw [hshown]
        rfl
    · rw [if_neg hclear] at hexec
      refine ⟨_, hexec, hdata, ?_, ?_⟩
      · rw [if_neg hclear, hlnk]
      · rw [hshown]
        rfl
  case waits =>
    rintro rq p v s hopen ⟨hp, hreach, hmodule⟩ ⟨hswap, hvalid⟩
    refine ⟨_, exec_gateSwapRequest_waits hopen hp hreach hmodule hswap hvalid, ?_, ?_, RegsKept.of_put rfl⟩
    · rw [State.port_updPort_same, State.shadowGates_of_regs (State.updPort_regs ..)]
      rfl
    · rw [State.rd_updPort, State.rd_rwWrite_same]
  case refused =>
    rintro rq p v s hopen ⟨hp, hreach, hmodule⟩ ⟨hswap, hinvalid⟩
    exact ⟨_, exec_gateSwapRequest_refused hopen hp hreach hmodule hswap hinvalid, State.port_gateRefuse .., State.gateRefuse_flags ..⟩
  case swap =>
    rintro p g s hlive ⟨hswap, hvalid⟩
    obtain ⟨hread, herr⟩ := s.gatesSwapped_flags p g
    refine .of_live (exec_gateSwap_valid hswap hvalid) hlive ⟨?_, hread, herr, s.gatesSwapped_regsKept p g, rfl⟩
    rw [State.gatesSwapped, State.port_updPort_same, State.port_setFld, State.port_wr]

end Sys2Proof.Machine

namespace Sys2Proof.Machine

/-! ### The records of MRAM (R340) -/

theorem State.mem_hubsUp {s : State} {h : Nat} : h ∈ s.hubsUp ↔ h < 4 ∧ s.hubUp h = true := by
  rw [State.hubsUp, List.mem_filter, List.mem_range]

theorem State.hubsUp_nodup (s : State) : s.hubsUp.Nodup := List.nodup_range.filter _

/-- The MRAMs once `f` has been applied to that of every hub in service. -/
def State.mramsWritten (s : State) (f : Mram → Mram) : Tbl Nat Mram :=
  s.hubsUp.foldl (fun t h => t.put h (f (t.lookD h Mram.blank))) s.sec.mram

/-- Each of the listed rows is changed once where their keys are distinct. -/
theorem Tbl.lookD_foldl_put {α β : Type} [DecidableEq α] (f : β → β) (d : β) {ks : List α} (hnodup : ks.Nodup) (t : Tbl α β) (k : α) :
    (ks.foldl (fun t j => t.put j (f (t.lookD j d))) t).lookD k d = if k ∈ ks then f (t.lookD k d) else t.lookD k d := by
  induction ks generalizing t with
  | nil => rfl
  | cons j ks ih =>
    obtain ⟨hj, hks⟩ := List.nodup_cons.mp hnodup
    rw [List.foldl_cons, ih hks]
    by_cases hk : k = j
    · subst hk
      rw [if_neg hj, if_pos List.mem_cons_self, Tbl.lookD_put_same]
    · rw [Tbl.lookD_put_ne _ _ _ hk]
      simp only [List.mem_cons, hk, false_or]

/-- A record's write changes the MRAMs and nothing else. -/
theorem State.mramWrite_eq (s : State) (f : Mram → Mram) : s.mramWrite f = s.onSec (fun x => { x with mram := s.mramsWritten f }) := by
  have hfold : ∀ (l : List Nat) (t : State),
      l.foldl (fun s h => s.onSec fun x => { x with mram := x.mram.put h (f (x.mram.lookD h Mram.blank)) }) t =
        t.onSec fun x => { x with mram := l.foldl (fun t h => t.put h (f (t.lookD h Mram.blank))) t.sec.mram } := by
    intro l
    induction l with
    | nil => exact fun _ => rfl
    | cons h l ih => exact fun t => ih _
  exact hfold s.hubsUp s

/-- A record is written in the MRAM of every hub in service (R340). -/
theorem State.mram_mramWrite {s : State} {h : Nat} (f : Mram → Mram) (hh : h < 4) (hup : s.hubUp h = true) :
    (s.mramWrite f).mram h = f (s.mram h) := by
  rw [s.mramWrite_eq f]
  exact (Tbl.lookD_foldl_put f _ s.hubsUp_nodup _ h).trans (if_pos (State.mem_hubsUp.mpr ⟨hh, hup⟩))

@[simp] theorem State.rd_mramWrite (s : State) (f : Mram → Mram) (r : Reg) (i : Nat) : (s.mramWrite f).rd r i = s.rd r i := by
  rw [s.mramWrite_eq f]
  rfl

@[simp] theorem State.fld_mramWrite (s : State) (f : Mram → Mram) (g : Fld) (i : Nat) : (s.mramWrite f).fld g i = s.fld g i :=
  State.fld_of_rd (s.rd_mramWrite f _ _)

/-! ### Signatures of the identity (R342) -/

/-- The next leaves have been reserved in MRAM where NEXT has reached the reservation. -/
def State.leavesReserved (s : State) : State :=
  let res := (s.rd .secXmssRes).toNat
  if s.sec.next = res then
    (s.mramWrite fun m => { m with nextRes := res + 1024 }).wr .secXmssRes 0 (BitVec.ofNat 64 ((res + 1024) % 2 ^ 40))
  else s

/-- A leaf has been used: NEXT stands one further, and the identity's state follows. -/
def State.leafUsed (s : State) : State :=
  ((s.onSec fun x => { x with next := s.sec.next + 1 }).wr .secXmssNext 0 (BitVec.ofNat 64 ((s.sec.next + 1) % 2 ^ 40))).refreshId

/-- The events of an identity that runs low or out once `n` leaves are used. -/
def State.leavesWarned (s : State) (n : Nat) : State :=
  let s := if 2 ^ 40 - n < 2 ^ 30 && !(decide (2 ^ 40 - (n - 1) < 2 ^ 30)) then s.raise Evt.sec_idLow else s
  if n = 2 ^ 40 then s.raise Evt.sec_idExhausted else s

theorem State.leavesReserved_eq (s : State) :
    s.leavesReserved = { s with sec := { s.sec with mram := s.leavesReserved.sec.mram }, regs := s.leavesReserved.regs } := by
  unfold State.leavesReserved
  dsimp only
  split
  · rw [s.mramWrite_eq]
    rfl
  · rfl

/-- With a quorum and a leaf left a signature is made. -/
theorem State.xmssSign_signs {s : State} (hquorum : s.mramQuorum = true) (hleaf : s.sec.next < 2 ^ 40) :
    s.xmssSign = (s.leavesReserved.leafUsed.leavesWarned (s.sec.next + 1), true) := by
  have hnext : s.leavesReserved.sec.next = s.sec.next := by rw [s.leavesReserved_eq]
  unfold State.xmssSign
  rw [hquorum, Bool.not_true, if_neg Bool.false_ne_true, if_neg (Nat.not_le.mpr hleaf)]
  exact congrArg (fun n => (s.leavesReserved.leafUsed.leavesWarned (n + 1), true)) hnext

/-- The events of an identity running low or out change `SEC_EVT` and its latch: whatever a raised event of that register keeps, they keep. -/
theorem State.leavesWarned_kept {γ : Type} (part : State → γ) (hpart : ∀ t (e : Evt), e.reg = .secEvt → part (t.raise e) = part t) (s : State)
    (n : Nat) : part (s.leavesWarned n) = part s := by
  unfold State.leavesWarned
  dsimp only
  split <;> split
  · exact (hpart _ _ rfl).trans (hpart _ _ rfl)
  · exact hpart _ _ rfl
  · exact hpart _ _ rfl
  · rfl

theorem State.rd_leafUsed_next (s : State) : (s.leafUsed.rd .secXmssNext 0).toNat = (s.sec.next + 1) % 2 ^ 40 := by
  rw [State.leafUsed, State.refreshId, State.setFld, State.setFld, State.rd_wr_ne _ _ (by decide), State.rd_wr_ne _ _ (by decide),
    State.rd_wr_same, BitVec.toNat_ofNat]
  omega

/-- Where NEXT has reached the reservation, every MRAM then holds one of 1,024 more leaves. -/
theorem State.nextRes_leavesReserved {s : State} (hres : s.sec.next = (s.rd .secXmssRes 0).toNat) {h : Nat} (hh : h < 4)
    (hup : s.hubUp h = true) : (s.leavesReserved.mram h).nextRes = s.sec.next + 1024 := by
  unfold State.leavesReserved
  dsimp only
  rw [if_pos hres]
  exact (congrArg Mram.nextRes (State.mram_mramWrite _ hh hup)).trans (congrArg (· + 1024) hres.symm)

/-- What a signature changes: NEXT rises by one, `SEC_XMSS_NEXT` shows it, and where NEXT had reached the reservation every MRAM holds a new
one. Nothing leaves the controller and the responders stay as they are. -/
theorem State.xmssSign_spec {s : State} (hquorum : s.mramQuorum = true) (hleaf : s.sec.next < 2 ^ 40) :
    s.xmssSign.2 = true ∧ s.xmssSign.1.sec.next = s.sec.next + 1 ∧ s.xmssSign.1.out = s.out ∧ s.xmssSign.1.sec.spdm = s.sec.spdm ∧
      (s.xmssSign.1.rd .secXmssNext 0).toNat = (s.sec.next + 1) % 2 ^ 40 ∧
      (s.sec.next = (s.rd .secXmssRes 0).toNat → ∀ h, h < 4 → s.hubUp h = true → (s.xmssSign.1.mram h).nextRes = s.sec.next + 1024) := by
  have hsec : (s.leavesReserved.leafUsed.leavesWarned (s.sec.next + 1)).sec = { s.leavesReserved.sec with next := s.leavesReserved.sec.next + 1 } :=
    State.leavesWarned_kept State.sec (fun t e _ => t.raise_sec e) _ _
  have hout : (s.leavesReserved.leafUsed.leavesWarned (s.sec.next + 1)).out = s.leavesReserved.out :=
    State.leavesWarned_kept State.out (fun t e _ => t.raise_out e) _ _
  have hreg : (s.leavesReserved.leafUsed.leavesWarned (s.sec.next + 1)).rd .secXmssNext 0 = s.leavesReserved.leafUsed.rd .secXmssNext 0 :=
    State.leavesWarned_kept (State.rd · .secXmssNext 0) (fun t e he => t.rd_raise_ne e (by simp [he])) _ _
  rw [State.xmssSign_signs hquorum hleaf]
  refine ⟨rfl, ?_, ?_, ?_, ?_, fun hres h hh hup => ?_⟩
  · rw [hsec, s.leavesReserved_eq]
  · rw [hout, s.leavesReserved_eq]
  · rw [hsec, s.leavesReserved_eq]
  · rw [hreg, State.rd_leafUsed_next, s.leavesReserved_eq]
  · rw [State.mram, hsec]
    exact State.nextRes_leavesReserved hres hh hup

/-! ### The SPDM responder (R345) -/

@[simp] theorem State.spdm_setSpdm (s : State) (p : SpdmPath) (x : Spdm) : (s.setSpdm p x).spdm p = x := Tbl.lookD_put_same ..

/-- A request that an open transport's responder is ready for. -/
theorem Completes.of_spdmReady {i : Instr} {s : State} {p : SpdmPath} {ready : Spdm → Bool} {k : Spdm → State → State} {P : State → Prop}
    (hexec : exec i s = s.whenLive (s.spdmReq p ready k)) (hlive : s.Live) (hopen : s.spdmOpen p = true) (hready : ready (s.spdm p) = true)
    (hP : P (k (s.spdm p) s)) :
    Completes i s P :=
  .of_live hexec hlive (by rwa [State.spdmReq, if_pos hopen, if_pos hready])

/-- A request that an open transport's responder is not ready for is answered with ERROR. -/
theorem Completes.of_spdmUnready {i : Instr} {s : State} {p : SpdmPath} {ready : Spdm → Bool} {k : Spdm → State → State} {P : State → Prop}
    (hexec : exec i s = s.whenLive (s.spdmReq p ready k)) (hlive : s.Live) (hopen : s.spdmOpen p = true) (hready : ready (s.spdm p) = false)
    (hP : P (s.spdmError p)) :
    Completes i s P :=
  .of_live hexec hlive (by rwa [State.spdmReq, if_pos hopen, if_neg (Bool.eq_false_iff.mp hready)])

/-- A session that FINISH completes is a full one. -/
theorem Spdm.has_full_of_finish {x : Spdm} {sid : Nat} (h : x.has sid false = true) :
    ({ x with sessions := x.sessions.map (fun k => if k.1 = sid then (k.1, true, k.2.2) else k) } : Spdm).has sid true = true := by
  obtain ⟨k, hk, hsid⟩ := List.any_eq_true.mp h
  have hsid : k.1 = sid := by simpa using hsid
  refine List.any_eq_true.mpr ⟨(k.1, true, k.2.2), List.mem_map.mpr ⟨k, hk, if_pos hsid⟩, by simp [hsid]⟩

/-- A session that has been closed is none of the responder's. -/
theorem Spdm.has_of_closed (x : Spdm) (sid : Nat) (full : Bool) :
    ({ x with sessions := x.sessions.filter (fun k => decide (k.1 ≠ sid)) } : Spdm).has sid full = false := by
  refine List.any_eq_false.mpr fun k hk => ?_
  have hne : k.1 ≠ sid := by simpa using (List.mem_filter.mp hk).2
  simp [hne]

/-- Settles O48: each request is the one case of the responder that its hypotheses select, and a signed one adds what a signature does. -/
theorem attestationRequests : Obligations.AttestationRequests := by
  unfold Obligations.AttestationRequests
  refine ⟨?version, ?capabilities, ?algorithms, ?noAlgorithms, ?digests, ?certificate, ?challenge, ?measurement, ?signedMeasurements, ?keyExchange,
    ?fifthSession, ?finish, ?finishFails, ?keyUpdate, ?heartbeat, ?endSession⟩
  case version =>
    intro p s hlive hopen
    exact .of_spdmReady rfl hlive hopen rfl ⟨State.spdm_setSpdm .., rfl, rfl⟩
  case capabilities =>
    rintro p minor s hlive ⟨hopen, hversion, hminor⟩
    exact .of_spdmReady rfl hlive hopen (by simpa [hversion] using hminor) ⟨State.spdm_setSpdm .., rfl⟩
  case algorithms =>
    rintro p s hlive ⟨hopen, hcaps⟩
    exact .of_spdmReady rfl hlive hopen (by simpa using hcaps) ⟨State.spdm_setSpdm .., rfl, rfl⟩
  case noAlgorithms =>
    rintro p a h d e s hlive ⟨hopen, hmissing⟩
    refine .of_spdmUnready rfl hlive hopen ?_ rfl
    simp only [Bool.and_assoc] at hmissing ⊢
    rw [hmissing, Bool.and_false]
  case digests =>
    rintro p s hlive ⟨hopen, hready⟩
    exact .of_spdmReady rfl hlive hopen hready rfl
  case certificate =>
    rintro p offset len s hlive ⟨hopen, hready⟩
    exact .of_spdmReady rfl hlive hopen (by simpa using hready) rfl
  case challenge =>
    rintro p nonce s hlive ⟨hopen, hready, hquorum, hleaf⟩
    obtain ⟨hsigned, hnext, hout, hspdm, hreg, hreserved⟩ := State.xmssSign_spec hquorum hleaf
    refine .of_spdmReady rfl hlive hopen (by simpa using hready) ?_
    dsimp only
    rw [if_pos hsigned]
    exact ⟨hnext, congrArg (· ++ _) hout, hreg, hreserved, hspdm⟩
  case measurement =>
    rintro p i s hlive ⟨hopen, hready, hmin, hmax⟩
    refine .of_spdmReady rfl hlive hopen (by simp [hready, hmin, hmax]) ?_
    dsimp only
    rw [if_neg Bool.false_ne_true, if_neg (by omega)]
    rfl
  case signedMeasurements =>
    rintro p s hlive ⟨hopen, hready, hquorum, hleaf⟩
    obtain ⟨hsigned, hnext, hout, -⟩ := State.xmssSign_spec hquorum hleaf
    refine .of_spdmReady rfl hlive hopen (by simpa using hready) ?_
    dsimp only
    rw [if_pos rfl, if_pos hsigned, if_pos rfl]
    refine ⟨hnext, ?_⟩
    rw [State.send_out, hout]
    simp only [List.flatMap_cons, List.flatMap_nil, List.append_nil, List.append_assoc]
  case keyExchange =>
    rintro p reqId s hlive ⟨hopen, hready, hroom, hquorum, hleaf⟩
    obtain ⟨hsigned, hnext, -⟩ := State.xmssSign_spec hquorum hleaf
    refine .of_spdmReady rfl hlive hopen (by simp [hready, hroom]) ?_
    dsimp only
    rw [if_pos hsigned]
    exact ⟨hnext, State.spdm_setSpdm ..⟩
  case fifthSession =>
    rintro p reqId s hlive ⟨hopen, hfull⟩
    exact .of_spdmUnready rfl hlive hopen (by simp [Nat.not_lt.mpr hfull]) rfl
  case finish =>
    rintro p sid s hlive ⟨hopen, hsession⟩
    refine .of_spdmReady rfl hlive hopen hsession ⟨?_, ?_, rfl⟩
    · exact (congrArg (Spdm.has · sid true) (State.spdm_setSpdm ..)).trans (Spdm.has_full_of_finish hsession)
    · exact (congrArg (List.length ∘ Spdm.sessions) (State.spdm_setSpdm ..)).trans (List.length_map _)
  case finishFails =>
    rintro p sid s hlive ⟨hopen, hsession⟩
    refine .of_spdmReady rfl hlive hopen hsession ⟨?_, rfl⟩
    exact (congrArg (Spdm.has · sid false) (State.spdm_setSpdm ..)).trans (Spdm.has_of_closed ..)
  case keyUpdate =>
    rintro p sid op s hlive ⟨hopen, hsession, hop⟩
    have hrenews : op < 3 := by omega
    have hrange : 1 ≤ op ∧ op ≤ 3 := by omega
    refine .of_spdmReady rfl hlive hopen (by simp [hsession, hrange]) ⟨?_, rfl⟩
    simp only [if_pos hrenews]
    exact congrArg Spdm.sessions (State.spdm_setSpdm ..)
  case heartbeat =>
    rintro p sid s hlive ⟨hopen, hsession⟩
    exact .of_spdmReady rfl hlive hopen hsession rfl
  case endSession =>
    rintro p sid s hlive ⟨hopen, hsession⟩
    refine .of_spdmReady rfl hlive hopen hsession ⟨?_, ?_, rfl⟩
    · exact (congrArg (Spdm.has · sid false) (State.spdm_setSpdm ..)).trans (Spdm.has_of_closed ..)
    · exact congrArg Spdm.sessions (State.spdm_setSpdm ..)

end Sys2Proof.Machine

namespace Sys2Proof.Machine

/-! ### Contexts and their published registers (R329, R331, R340) -/

theorem State.ctxState_of_rd {s t : State} {n : Nat} (h : t.rd .secCtxState n = s.rd .secCtxState n) : t.ctxState n = s.ctxState n :=
  State.fld_of_rd h

theorem State.rd_publishCtx_tenant (s : State) (n : Nat) (r : CtxRec) : (s.publishCtx n r).rd .secCtxTenant n = r.tenant :=
  (State.rd_wr_reg_ne _ _ _ _ (by decide)).trans ((State.rd_wr_reg_ne _ _ _ _ (by decide)).trans (State.rd_wr_same ..))

/-- STATE of the published register is that of the record: every other field lies above it (Table 14-9). -/
theorem State.ctxState_publishCtx (s : State) (n : Nat) {r : CtxRec} (hr : r.state < 4) : (s.publishCtx n r).ctxState n = r.state := by
  have hpublished : (s.publishCtx n r).rd .secCtxState n = _ := (State.rd_wr_reg_ne _ _ _ _ (by decide)).trans (State.rd_wr_same ..)
  rw [State.ctxState, State.fld, show Fld.secCtxState_state.reg = .secCtxState from rfl, hpublished, Fld.get, bits, BitVec.toNat_ofNat,
    show Fld.secCtxState_state.lo = 0 from rfl, show Fld.secCtxState_state.width = 2 from rfl]
  split_ifs <;> omega

/-- The context with its record's next sequence number (R340). -/
def Ctx.saved (c : Ctx) : Ctx := { c with record := { c.record with seq := c.record.seq + 1 } }

theorem State.saveCtx_eq (s : State) (n : Nat) (c : Ctx) :
    s.saveCtx n c =
      ((s.onSec fun x => { x with
        ctxs := x.ctxs.put n c.saved
        mram := s.mramsWritten fun m => { m with ctxRecs := m.ctxRecs.put n c.saved.record } }).publishCtx n c.saved.record) := by
  change ((s.onSec fun x => { x with ctxs := x.ctxs.put n c.saved }).mramWrite _).publishCtx n c.saved.record = _
  rw [State.mramWrite_eq]
  rfl

theorem State.ctx_saveCtx (s : State) (n : Nat) (c : Ctx) : (s.saveCtx n c).ctx n = some c.saved := by
  rw [s.saveCtx_eq]
  exact Tbl.look_put_same ..

theorem State.ctxState_saveCtx (s : State) (n : Nat) {c : Ctx} (hc : c.record.state < 4) : (s.saveCtx n c).ctxState n = c.record.state := by
  rw [s.saveCtx_eq]
  exact State.ctxState_publishCtx _ n (r := c.saved.record) hc

theorem State.rd_saveCtx_tenant (s : State) (n : Nat) (c : Ctx) : (s.saveCtx n c).rd .secCtxTenant n = c.record.tenant :=
  State.rd_publishCtx_tenant ..

@[simp] theorem State.saveCtx_ssn (s : State) (n : Nat) (c : Ctx) : (s.saveCtx n c).ssn = s.ssn := by
  rw [s.saveCtx_eq]
  rfl

theorem State.hubUp_saveCtx (s : State) (n : Nat) (c : Ctx) : (s.saveCtx n c).hubUp = s.hubUp := by
  rw [s.saveCtx_eq]
  rfl

/-- A saved record stands in the MRAM of every hub in service. -/
theorem State.mram_saveCtx {s : State} {h : Nat} (n : Nat) (c : Ctx) (hh : h < 4) (hup : s.hubUp h = true) :
    (s.saveCtx n c).mram h = { s.mram h with ctxRecs := (s.mram h).ctxRecs.put n c.saved.record } :=
  State.mram_mramWrite (s := s.onSec fun x => { x with ctxs := x.ctxs.put n c.saved }) _ hh hup

/-! ### Installs (R330) -/

/-- The context that a record makes of a FREE index. -/
def State.newCtx (s : State) (n : Nat) (r : CtxRec) : Ctx where
  record := { r with seq := 0 }
  sweepStep := 0
  jobEpochs := .empty
  jobKeys := .empty
  tellers := s.newTellers n r

/-- Context `n` has been installed with record `r` on an index that was FREE. -/
def State.installed (s : State) (n : Nat) (r : CtxRec) (floor : Nat) : State :=
  ((((s.saveCtx n (s.newCtx n r)).mramWrite fun m => { m with ctxFloors := m.ctxFloors.put n floor }).wr .secCtxFloor n
      (BitVec.ofNat 64 floor)).ctxStatus n 0 2).raise Evt.sec_installDone

theorem exec_ctxInstall_installs {rq : Requester} {v : Word} {s : State} {n : Nat} (hopen : WriteOpen s rq .secCtxInstall 0)
    (hlow : low6 v = 0) (hservice : s.fld Fld.glbStatus_service ≠ 0) (hcheck : s.installCheck rq (s.bytesAt (keyHub v.toNat) 0x4000) = 0)
    (hindex : s.installIndex (installRec (s.bytesAt (keyHub v.toNat) 0x4000)) = some n) (hfree : s.ctx n = none)
    (hflags : (installRec (s.bytesAt (keyHub v.toNat) 0x4000)).flags < 8) :
    exec (.ctxInstall rq v) s =
      .next (s.installed n (installRec (s.bytesAt (keyHub v.toNat) 0x4000)) (leAt (s.bytesAt (keyHub v.toNat) 0x4000) 0x14 4)) := by
  change execCtxInstall rq v s = _
  rw [execCtxInstall, hlow, State.woWrite_of_writeOpen hopen, if_neg hservice]
  generalize s.bytesAt (keyHub v.toNat) 0x4000 = d at *
  have hnew : bit (installRec d).flags 3 = false := by
    rw [bit_eq_testBit]
    exact Nat.testBit_lt_two_pow hflags
  simp only [hcheck, ne_eq, not_true_eq_false, if_false, hindex, Option.getD_some, hfree, hnew, Bool.false_eq_true, Nat.max_zero]
  rfl

theorem exec_ctxInstall_refused {rq : Requester} {v : Word} {s : State} (hopen : WriteOpen s rq .secCtxInstall 0) (hlow : low6 v = 0)
    (hservice : s.fld Fld.glbStatus_service ≠ 0) (hcheck : s.installCheck rq (s.bytesAt (keyHub v.toNat) 0x4000) ≠ 0) :
    exec (.ctxInstall rq v) s =
      .next ((s.ctxStatus (bits (s.rd .secCtxStatus).toNat 0 6) (s.installCheck rq (s.bytesAt (keyHub v.toNat) 0x4000)) 3).raise
        Evt.sec_installRefused) := by
  change execCtxInstall rq v s = _
  rw [execCtxInstall, hlow, State.woWrite_of_writeOpen hopen, if_neg hservice]
  dsimp only
  rw [if_pos hcheck]

theorem State.installCheck_le (s : State) (rq : Requester) (d : List Byte) : s.installCheck rq d ≤ 7 := by
  unfold State.installCheck
  dsimp only
  split
  · decide
  · split
    · decide
    · split
      · decide
      · split_ifs <;> decide

/-- The registers of an event and of `SEC_CTX_STATUS` are no context's own. -/
theorem State.rd_ctxStatus_raise_ne (s : State) (index reason st : Nat) {e : Evt} (he : e.reg = .secEvt) {q : Reg} (i : Nat)
    (hstatus : q ≠ .secCtxStatus) (hevt : q ≠ .secEvt) : ((s.ctxStatus index reason st).raise e).rd q i = s.rd q i :=
  (State.rd_raise_ne _ _ (by simp [he, hevt])).trans (State.rd_wr_reg_ne _ _ _ _ hstatus)

theorem State.rd_ctxStatus_raise (s : State) (index reason st : Nat) {e : Evt} (he : e.reg = .secEvt) :
    ((s.ctxStatus index reason st).raise e).rd .secCtxStatus 0 = BitVec.ofNat 64 (index % 64 + reason * 2 ^ 8 + st * 2 ^ 16) :=
  (State.rd_raise_ne _ _ (by simp [he])).trans (State.rd_wr_same ..)

theorem State.installed_sec (s : State) (n : Nat) (r : CtxRec) (floor : Nat) :
    (s.installed n r floor).sec =
      ((s.saveCtx n (s.newCtx n r)).mramWrite fun m => { m with ctxFloors := m.ctxFloors.put n floor }).sec :=
  State.raise_sec ..

/-- An installed context is known by its record, published, at no step of a Sweep. -/
theorem State.ctx_installed (s : State) (n : Nat) (r : CtxRec) (floor : Nat) :
    ((s.installed n r floor).ctx n).map (fun c => (c.record, c.sweepStep)) = some ({ r with seq := 1 }, 0) := by
  rw [State.ctx, s.installed_sec, State.mramWrite_eq]
  exact congrArg (Option.map _) (s.ctx_saveCtx n _)

theorem State.rd_installed_ne (s : State) (n : Nat) (r : CtxRec) (floor : Nat) {q : Reg} (i : Nat)
    (h : q ∉ [.secCtxFloor, .secCtxStatus, .secEvt]) :
    (s.installed n r floor).rd q i = (s.saveCtx n (s.newCtx n r)).rd q i := by
  obtain ⟨hfloor, hstatus, hevt⟩ : q ≠ .secCtxFloor ∧ q ≠ .secCtxStatus ∧ q ≠ .secEvt := by simpa using h
  exact (State.rd_ctxStatus_raise_ne _ _ _ _ rfl _ hstatus hevt).trans ((State.rd_wr_reg_ne _ _ _ _ hfloor).trans (State.rd_mramWrite ..))

theorem State.mram_installed {s : State} {h : Nat} (n : Nat) (r : CtxRec) (floor : Nat) (hup : s.hubUp h = true) (hh : h < 4) :
    ((s.installed n r floor).mram h).ctxRecs.look n = some { r with seq := 1 } ∧
      ((s.installed n r floor).mram h).ctxFloors.look n = some floor := by
  rw [State.mram, s.installed_sec]
  rw [← State.mram, State.mram_mramWrite _ hh (by rwa [State.hubUp_saveCtx]), State.mram_saveCtx n _ hh hup]
  exact ⟨Tbl.look_put_same .., Tbl.look_put_same ..⟩

/-! ### Retirement (R329, R336) -/

theorem State.retire_starts {rq : Requester} {n : Nat} {c : Ctx} {discard : Bool} {s : State} (hopen : WriteOpen s rq .secCtxRetire 0)
    (hacts : (s.actsFor rq n || s.isOperator rq) = true) (hc : s.ctx n = some c)
    (hstate : s.ctxState n = 1 ∧ (discard = true ∨ s.holdsObjects n = false) ∨ s.ctxState n = 3 ∧ discard = true) :
    s.retire_ rq n discard = s.beginSweep n c discard := by
  rw [State.retire_, hacts, State.woWrite_of_writeOpen hopen, hc]
  dsimp only
  obtain ⟨hresident, hmay⟩ | ⟨hreserved, rfl⟩ := hstate
  · have hno : ¬ (!discard && s.holdsObjects n) = true := by
      obtain rfl | hnone := hmay
      · exact Bool.false_ne_true
      · rw [hnone, Bool.and_false]
        exact Bool.false_ne_true
    rw [if_pos hresident, if_neg hno]
  · rw [hreserved, if_neg (by decide), if_pos (by decide)]

/-- A RESIDENT context that holds objects is not retired without DISCARD: REASON 8. -/
theorem State.retire_refused {rq : Requester} {n : Nat} {c : Ctx} {s : State} (hopen : WriteOpen s rq .secCtxRetire 0)
    (hacts : (s.actsFor rq n || s.isOperator rq) = true) (hc : s.ctx n = some c) (hresident : s.ctxState n = 1)
    (hholds : s.holdsObjects n = true) : s.retire_ rq n false = s.ctxStatus n 8 3 := by
  rw [State.retire_, hacts, State.woWrite_of_writeOpen hopen, hc]
  dsimp only
  rw [if_pos hresident, hholds, if_pos (by decide)]

theorem exec_ctxRetire {rq : Requester} {v : Word} {s : State} (hkeep : bit v.toNat 6 = false) :
    exec (.ctxRetire rq v) s = .next (s.retire_ rq (bits v.toNat 0 6) false) := by
  change execCtxRetire rq v s = _
  rw [execCtxRetire, hkeep, if_neg Bool.false_ne_true]

theorem exec_ctxRetireDiscard {rq : Requester} {v : Word} {s : State} (hdiscard : bit v.toNat 6 = true) :
    exec (.ctxRetireDiscard rq v) s = .next (s.retire_ rq (bits v.toNat 0 6) true) := by
  change execCtxRetireDiscard rq v s = _
  rw [execCtxRetireDiscard, if_pos hdiscard]

@[simp] theorem State.tdiError_ssn (s : State) (n : Nat) : (s.tdiError n).ssn = s.ssn := by
  unfold State.tdiError
  split
  · rw [State.raise_ssn, State.setFld_ssn]
  · rfl

/-- The context at step 1 of its Sweep. -/
def Ctx.sweeping (c : Ctx) (discard : Bool) : Ctx :=
  { c with record := { c.record with state := 2, discard := discard }, sweepStep := 1 }

theorem State.beginSweep_eq (s : State) (n : Nat) (c : Ctx) (discard : Bool) :
    s.beginSweep n c discard = ((s.tdiError n).saveCtx n (c.sweeping discard)).ctxStatus n 0 1 := rfl

/-- A context that starts to be swept is SWEEPING at step 1, its record kept with DISCARD. -/
theorem State.beginSweep_spec (s : State) (n : Nat) (c : Ctx) (discard : Bool) :
    (s.beginSweep n c discard).ctxState n = 2 ∧ (s.beginSweep n c discard).ctx n = some (c.sweeping discard).saved ∧
      (s.beginSweep n c discard).rd .secCtxStatus 0 = BitVec.ofNat 64 (n % 64 + 1 * 2 ^ 16) ∧
      (s.beginSweep n c discard).ssn = s.ssn ∧ (s.beginSweep n c discard).mem = s.mem := by
  have hmem := s.beginSweep_mem n c discard
  rw [s.beginSweep_eq] at hmem ⊢
  refine ⟨?_, State.ctx_saveCtx .., ?_, ?_, hmem⟩
  · have hstatus : (((s.tdiError n).saveCtx n (c.sweeping discard)).ctxStatus n 0 1).ctxState n = _ :=
      State.ctxState_of_rd (State.rd_wr_reg_ne _ _ _ _ (by decide))
    rw [hstatus, State.ctxState_saveCtx _ n (show 2 < 4 by decide)]
    rfl
  · rw [State.ctxStatus, State.rd_wr_same, Nat.zero_mul, Nat.add_zero]
  · rw [State.ctxStatus, State.wr_ssn, State.saveCtx_ssn, State.tdiError_ssn]

end Sys2Proof.Machine

namespace Sys2Proof.Machine

/-! ### The Sweep's first step (R336, R337) -/

/-- Deleting listed keys leaves no row of theirs and every other row. -/
theorem Tbl.look_foldl_del {α β : Type} [DecidableEq α] (ks : List α) (t : Tbl α β) (k : α) :
    (ks.foldl Tbl.del t).look k = if k ∈ ks then none else t.look k := by
  induction ks generalizing t with
  | nil => rfl
  | cons j ks ih =>
    rw [List.foldl_cons, ih]
    by_cases hk : k = j
    · subst hk
      rw [Tbl.look_del_same, if_pos List.mem_cons_self, ite_self]
    · rw [Tbl.look_del_ne _ hk]
      simp only [List.mem_cons, hk, false_or]

/-- A row left once the keys of all rows that satisfy `p` are deleted does not satisfy it. -/
theorem Tbl.look_foldl_del_keysIf {α β : Type} [DecidableEq α] {t : Tbl α β} {p : α → β → Bool} {k : α} {v : β}
    (h : ((t.keysIf p).foldl Tbl.del t).look k = some v) : p k v = false := by
  rw [Tbl.look_foldl_del] at h
  split at h
  · cases h
  · next hk =>
    by_contra hp
    exact hk (List.mem_map.mpr ⟨(k, v), List.mem_filter.mpr ⟨rowsLook_mem h, by simpa using hp⟩, rfl⟩)

/-- Connection `k` is closed: its frames are dropped, and its partner is told. -/
def State.closeConn (s : State) (k : Nat × Nat) : State :=
  ((s.dropConnFrames k.1 k.2).onSec fun x => { x with conns := x.conns.del k }).send (.connClosed k.1 k.2)

theorem State.sweepStop_eq (s : State) (n : Nat) :
    s.sweepStop n =
      ((((List.range 22).foldl State.rekeyPort s).sec.conns.keysIf fun _ k => decide (k.bound = some (.ctx n))).foldl State.closeConn
        ((List.range 22).foldl State.rekeyPort s)).onSch fun t => { t with reports := t.reports.filter fun r => decide (r.ctx ≠ n) } := rfl

/-- What a step that works on the ports alone keeps of the state. -/
def State.portlessView (s : State) : Sec × Sch × Ssn := (s.sec, s.sch, s.ssn)

theorem State.rekeyPort_portlessView (s : State) (p : Nat) : (s.rekeyPort p).portlessView = s.portlessView := by
  unfold State.rekeyPort
  split <;> rfl

theorem State.dropConnFrames_portlessView (s : State) (p conn : Nat) : (s.dropConnFrames p conn).portlessView = s.portlessView := by
  refine foldl_kept State.portlessView (fun t q => ?_) _ s
  dsimp only
  split <;> rfl

/-- Closing connections deletes their rows; the planner and the sessions stay. -/
theorem State.foldl_closeConn_portlessView (ks : List (Nat × Nat)) (s : State) :
    (ks.foldl State.closeConn s).portlessView = ({ s.sec with conns := ks.foldl Tbl.del s.sec.conns }, s.sch, s.ssn) := by
  induction ks generalizing s with
  | nil => rfl
  | cons k ks ih =>
    obtain ⟨hsec, hsch, hssn⟩ : (s.dropConnFrames k.1 k.2).sec = s.sec ∧ (s.dropConnFrames k.1 k.2).sch = s.sch ∧
        (s.dropConnFrames k.1 k.2).ssn = s.ssn := by
      simpa [State.portlessView] using s.dropConnFrames_portlessView k.1 k.2
    rw [List.foldl_cons, ih]
    simp only [State.closeConn, State.send_sec, State.send_sch, State.send_ssn, State.onSec_sec, State.onSec_sch, State.onSec_ssn, hsec, hsch,
      hssn, List.foldl_cons]

/-- The Sweep's first step closes the context's connections and drops its reports, and changes nothing else of those blocks. -/
theorem State.sweepStop_spec (s : State) (n : Nat) :
    (s.sweepStop n).sec = { s.sec with
      conns := (s.sec.conns.keysIf fun _ k => decide (k.bound = some (.ctx n))).foldl Tbl.del s.sec.conns } ∧
    (s.sweepStop n).sch = { s.sch with reports := s.sch.reports.filter fun r => decide (r.ctx ≠ n) } ∧ (s.sweepStop n).ssn = s.ssn := by
  have hrekeyed := foldl_kept State.portlessView State.rekeyPort_portlessView (List.range 22) s
  rw [s.sweepStop_eq]
  generalize (List.range 22).foldl State.rekeyPort s = t at hrekeyed ⊢
  obtain ⟨hsec, hsch, hssn⟩ : t.sec = s.sec ∧ t.sch = s.sch ∧ t.ssn = s.ssn := by simpa [State.portlessView] using hrekeyed
  have hclosed := State.foldl_closeConn_portlessView (t.sec.conns.keysIf fun _ k => decide (k.bound = some (.ctx n))) t
  rw [hsec, hsch, hssn] at hclosed
  rw [hsec]
  simp only [State.portlessView, Prod.mk.injEq] at hclosed
  obtain ⟨hsec', hsch', hssn'⟩ := hclosed
  rw [State.onSch_sec, State.onSch_sch, State.onSch_ssn, hsec', hsch', hssn']
  exact ⟨rfl, rfl, rfl⟩

theorem State.bound_ne_of_sweepStop {s : State} {n : Nat} {k : Nat × Nat} {conn : Conn} (h : (s.sweepStop n).sec.conns.look k = some conn) :
    conn.bound ≠ some (.ctx n) := by
  obtain ⟨hsec, -⟩ := s.sweepStop_spec n
  rw [hsec] at h
  exact of_decide_eq_false (Tbl.look_foldl_del_keysIf (p := fun _ (x : Conn) => decide (x.bound = some (.ctx n))) h)

theorem exec_contextSweep_stops {n : Nat} {c : Ctx} {s : State} (hc : s.ctx n = some c) (hsweeping : s.ctxState n = 2)
    (hflush : s.flushing = false) (hstep : c.sweepStep = 1) :
    exec (.contextSweep n) s = s.whenLive ((s.sweepStop n).sweepTo n 2) := by
  change execContextSweep n s = _
  simp only [execContextSweep, hc, hsweeping, hflush, hstep, ne_eq, not_true_eq_false, decide_false, Bool.or_self, Bool.false_eq_true, if_false]

/-! ### The Sweep's last step (R329, R331, R336) -/

theorem exec_contextSweep_ends {n : Nat} {c : Ctx} {s : State} (hc : s.ctx n = some c) (hsweeping : s.ctxState n = 2)
    (hflush : s.flushing = false) (hstep : c.sweepStep = 6) :
    exec (.contextSweep n) s = s.whenLive (s.sweepFlash n c) := by
  change execContextSweep n s = _
  simp only [execContextSweep, hc, hsweeping, hflush, hstep, ne_eq, not_true_eq_false, decide_false, Bool.or_self, Bool.false_eq_true, if_false]

/-- The context as it is kept on a RESERVED index. -/
def Ctx.kept (c : Ctx) : Ctx :=
  { c with record := { c.record with state := 3, discard := false, secret := none }, sweepStep := 0 }

theorem State.sweepFlash_keeps {s : State} {n : Nat} {c : Ctx} (hkeep : c.record.discard = false) :
    s.sweepFlash n c = ((s.saveCtx n c.kept).setFld Fld.secCtxState_tdi n 0).sweepDone n := by
  rw [State.sweepFlash, hkeep, if_neg Bool.false_ne_true]
  rfl

theorem State.sweepFlash_frees {s : State} {n : Nat} {c : Ctx} (hdiscard : c.record.discard = true) (hextents : s.ctxExtents n = [])
    (herased : s.fls.sdisc = []) : s.sweepFlash n c = (s.freeCtx n).sweepDone n := by
  rw [State.sweepFlash, if_pos hdiscard, hextents]
  dsimp only
  rw [if_pos List.isEmpty_nil, herased, if_pos List.isEmpty_nil]

@[simp] theorem State.sweepDone_sec (s : State) (n : Nat) : (s.sweepDone n).sec = s.sec := by
  rw [State.sweepDone, State.raise_sec]
  split
  · exact State.wr_sec ..
  · rfl

theorem State.rd_sweepDone_ne (s : State) (n : Nat) {q : Reg} (i : Nat) (hstatus : q ≠ .secCtxStatus) (hevt : q ≠ .secEvt) :
    (s.sweepDone n).rd q i = s.rd q i := by
  rw [State.sweepDone, State.rd_raise_ne _ _ (by simp [Evt.sec_sweepDone, hevt])]
  split
  · exact State.rd_wr_reg_ne _ _ _ _ hstatus
  · rfl

theorem State.bit_sweepDone (s : State) (n : Nat) : bit ((s.sweepDone n).rd .secEvt 0).toNat Evt.sec_sweepDone.bit = true :=
  State.bit_raise_same _ Evt.sec_sweepDone (by decide)

theorem State.mram_wr (s : State) (r : Reg) (i : Nat) (v : Word) (h : Nat) : (s.wr r i v).mram h = s.mram h := rfl

theorem State.freeCtx_eq (s : State) (n : Nat) :
    s.freeCtx n =
      ((((((s.onSec fun x => { x with
        ctxs := x.ctxs.del n
        mram := s.mramsWritten fun m => { m with ctxRecs := m.ctxRecs.del n, ctxFloors := m.ctxFloors.del n } }).wr .secCtxTenant n 0).wr
          .secCtxState n 0).wr .secCtxQuiet n 0).wr .secCtxFloor n 0).wr .secCtxJobkeys n 0) := by
  rw [State.freeCtx, State.mramWrite_eq]
  rfl

/-- A context that leaves its index leaves no record and blank registers. -/
theorem State.freeCtx_spec (s : State) (n : Nat) :
    (s.freeCtx n).ctx n = none ∧ (∀ q ∈ [Reg.secCtxTenant, .secCtxState, .secCtxFloor], (s.freeCtx n).rd q n = 0) ∧
      ∀ h, h < 4 → s.hubUp h = true → ((s.freeCtx n).mram h).ctxRecs.look n = none := by
  refine ⟨?_, ?_, fun h hh hup => ?_⟩
  · rw [s.freeCtx_eq]
    exact Tbl.look_del_same ..
  · intro q hq
    rw [s.freeCtx_eq]
    simp only [List.mem_cons, List.not_mem_nil, or_false] at hq
    obtain rfl | rfl | rfl := hq <;> simp [State.rd_wr_reg_ne]
  · rw [State.freeCtx, State.mram_wr, State.mram_wr, State.mram_wr, State.mram_wr, State.mram_wr,
      State.mram_mramWrite (s := s.onSec fun x => { x with ctxs := x.ctxs.del n }) _ hh hup]
    exact Tbl.look_del_same ..

/-! ### Keys (R332, R339) -/

theorem exec_ownerKeyWrite {rq : Requester} {v : Word} {s : State} (hopen : WriteOpen s rq .secOwner 0) (hlow : low6 v = 0)
    (hmay : s.fld Fld.secStatus_owned = 0 ∨ s.isOperator rq = true) :
    exec (.ownerKeyWrite rq v) s =
      .next ((s.mramWrite fun m => { m with owner := some (s.bytesAt (keyHub v.toNat) 1952) }).setFld Fld.secStatus_owned 0 1) := by
  have hallowed : (decide (s.fld Fld.secStatus_owned = 0) || s.isOperator rq) = true := by simpa using hmay
  change execOwnerKeyWrite rq v s = _
  rw [execOwnerKeyWrite, hallowed, hlow, State.woWrite_of_writeOpen hopen]

/-- A job key is loaded into slot `k` of context `n`, whose epoch rises by one, and `SEC_CTX_JOBKEYS` shows the slot. -/
def State.jobkeyLoaded (s : State) (n k : Nat) (c : Ctx) (secret : List Byte) : State :=
  (s.onSec fun x => { x with ctxs := x.ctxs.put n { c with
    jobEpochs := c.jobEpochs.put k (c.jobEpochs.lookD k 0 + 1)
    jobKeys := c.jobKeys.put k secret } }).wr .secCtxJobkeys n (s.rd .secCtxJobkeys n ||| BitVec.ofNat 64 (2 ^ k))

theorem exec_jobkeyLoad_loads {rq : Requester} {v : Word} {n k : Nat} {c : Ctx} {d : List Byte} {s : State} (hopen : WriteOpen s rq .secJobkey 0)
    (hd : d = s.bytesAt (keyHub v.toNat) 1616) (hlow : low6 v = 0) (hn : leAt d 0 1 = n) (hk : leAt d 1 1 = k) (hctx : n < 64) (hslot : k < 16)
    (hacts : s.actsFor rq n = true) (hc : s.ctx n = some c) (hresident : s.resident n = true) (hzero : allZero (takeAt d 2 14) = true)
    (hconfirm : Config.shake256 (Config.kemDecap (takeAt d 16 1568) ++ labelConfirm) 32 = takeAt d 1584 32) :
    exec (.jobkeyLoad rq v) s = .next (s.jobkeyLoaded n k c (Config.kemDecap (takeAt d 16 1568))) := by
  have hallowed : (decide (n < 64) && s.actsFor rq n) = true := by simp [hctx, hacts]
  change execJobkeyLoad rq v s = _
  unfold execJobkeyLoad
  rw [← hd]
  dsimp only
  rw [hn, hk, hallowed, hlow, State.woWrite_of_writeOpen hopen, hc]
  dsimp only
  rw [if_pos (by simp [hresident, hslot, hzero, hconfirm])]
  rfl

/-- A slot's bit is set in the word that shows the loaded slots. -/
theorem bit_or_two_pow (w : Word) {k : Nat} (hk : k < 64) : bit (w ||| BitVec.ofNat 64 (2 ^ k)).toNat k = true := by
  rw [bit_eq_testBit, BitVec.testBit_toNat, BitVec.getLsbD_or, BitVec.getLsbD_ofNat, Nat.testBit_two_pow_self]
  simp [hk]

/-! ### Floors (R343, R344, R392) -/

theorem exec_fwFloorCommit {rq : Requester} {v : Word} {s : State} (hopen : WriteOpen s rq .secFwCommit 0) (hmodule : s.isModule rq = true)
    (hbit : bit v.toNat 0 = true) (hquorum : s.mramQuorum = true) :
    exec (.fwFloorCommit rq v) s =
      .next ((s.mramWrite fun m => { m with fwFloor := max (s.fld Fld.secFw_fwFloor) (s.fld Fld.secFw_svn) }).setFld Fld.secFw_fwFloor 0
        (max (s.fld Fld.secFw_fwFloor) (s.fld Fld.secFw_svn))).endTrial := by
  change execFwFloorCommit rq v s = _
  rw [execFwFloorCommit, hmodule, State.woWrite_of_writeOpen hopen, hbit, hquorum, if_pos (by decide)]

theorem exec_keyFloorCommit {rq : Requester} {v : Word} {s : State} (hopen : WriteOpen s rq .secFwCommit 0) (hmodule : s.isModule rq = true)
    (hbit : bit v.toNat 1 = true) (hquorum : s.mramQuorum = true) :
    exec (.keyFloorCommit rq v) s =
      .next ((s.mramWrite fun m => { m with keyFloor := max (s.fld Fld.secFw_keyFloor) (s.fld Fld.secFw_keyIndex) }).setFld
        Fld.secFw_keyFloor 0 (max (s.fld Fld.secFw_keyFloor) (s.fld Fld.secFw_keyIndex))).endTrial := by
  change execKeyFloorCommit rq v s = _
  rw [execKeyFloorCommit, hmodule, State.woWrite_of_writeOpen hopen, hbit, hquorum, if_pos (by decide)]

theorem Fld.get_lt (f : Fld) (v : Word) : f.get v < 2 ^ f.width := Nat.mod_lt _ (Nat.two_pow_pos _)

theorem State.fld_lt (s : State) (f : Fld) (i : Nat) : s.fld f i < 2 ^ f.width := f.get_lt _

/-- The running slot has become the preferred one of the boot record (R392). -/
def State.slotPreferred (s : State) : State := s.mramWrite fun m => { m with prefer := if s.boot.slot < 2 then some s.boot.slot else none }

theorem State.endTrial_eq (s : State) :
    s.endTrial = if s.slotPreferred.fld Fld.glbStatus_trial = 1 then
      (s.slotPreferred.setFld Fld.glbStatus_trial 0 0).raise Evt.glb_fwTrialEnd else s.slotPreferred := rfl

theorem State.rd_endTrial_ne (s : State) {q : Reg} (i : Nat) (hstatus : q ≠ .glbStatus) (hevt : q ≠ .glbEvt) :
    s.endTrial.rd q i = s.rd q i := by
  have hpreferred : s.slotPreferred.rd q i = s.rd q i := s.rd_mramWrite _ q i
  rw [s.endTrial_eq]
  split
  · rw [State.rd_raise_ne _ _ (by simp [Evt.glb_fwTrialEnd, hevt])]
    exact (State.rd_wr_reg_ne _ _ _ _ hstatus).trans hpreferred
  · exact hpreferred

theorem State.fld_trial_endTrial (s : State) : s.endTrial.fld Fld.glbStatus_trial = 0 := by
  rw [s.endTrial_eq]
  split
  · rw [State.fld_of_rd (State.rd_raise_ne _ _ (by decide))]
    exact State.fld_setFld_same _ _ _ _ (by decide)
  · next h =>
    have hbit := s.slotPreferred.fld_lt Fld.glbStatus_trial 0
    rw [show Fld.glbStatus_trial.width = 1 from rfl] at hbit
    omega

/-- The end of a trial writes the boot record and leaves the floors of MRAM. -/
theorem State.mram_endTrial {s : State} {h : Nat} (hh : h < 4) (hup : s.hubUp h = true) :
    s.endTrial.mram h = { s.mram h with prefer := if s.boot.slot < 2 then some s.boot.slot else none } := by
  have hsec : s.endTrial.sec = s.slotPreferred.sec := by
    rw [s.endTrial_eq]
    split
    · rw [State.raise_sec, State.setFld_sec]
    · rfl
  rw [State.mram, hsec]
  exact State.mram_mramWrite _ hh hup

/-- A commit of a floor of `SEC_FW`: the field shows the new floor, the other floor's field is kept, no trial is left, memory is kept, and each
MRAM holds what was written. -/
theorem State.floorCommitted_spec (s : State) (w : Mram → Mram) {f g : Fld} (hf : f.reg = .secFw) (hg : g.reg = .secFw)
    (hwidth : f.lo + f.width ≤ 64) (hapart : g.lo + g.width ≤ f.lo ∨ f.lo + f.width ≤ g.lo) {x : Nat} (hx : x < 2 ^ f.width) :
    let t := ((s.mramWrite w).setFld f 0 x).endTrial
    t.fld f = x ∧ t.fld g = s.fld g ∧ t.fld Fld.glbStatus_trial = 0 ∧ t.mem = s.mem ∧
      ∀ h, h < 4 → s.hubUp h = true → t.mram h = { w (s.mram h) with prefer := if s.boot.slot < 2 then some s.boot.slot else none } := by
  have hboot : ((s.mramWrite w).setFld f 0 x).boot = s.boot := by
    rw [s.mramWrite_eq]
    rfl
  have hup' : ((s.mramWrite w).setFld f 0 x).hubUp = s.hubUp := by
    rw [s.mramWrite_eq]
    rfl
  refine ⟨?_, ?_, State.fld_trial_endTrial _, ?_, fun h hh hup => ?_⟩
  · rw [State.fld_of_rd (State.rd_endTrial_ne _ _ (by simp [hf]) (by simp [hf])), State.fld_setFld_same _ _ _ _ hwidth, Nat.mod_eq_of_lt hx]
  · rw [State.fld_of_rd (State.rd_endTrial_ne _ _ (by simp [hg]) (by simp [hg])), State.fld_setFld_other _ _ _ _ _ _ hwidth (.inr hapart),
      State.fld_mramWrite]
  · rw [State.endTrial_mem, State.setFld_mem, State.mramWrite_mem]
  · rw [State.mram_endTrial hh (by rwa [hup']), hboot]
    exact congrArg (fun m : Mram => { m with prefer := if s.boot.slot < 2 then some s.boot.slot else none }) (State.mram_mramWrite w hh hup)

theorem exec_ctxFloorWrite {rq : Requester} {n : Nat} {v : Word} {s : State} (hopen : WindowOpen s rq) (hn : n < 64)
    (hreach : s.regReach .secCtxFloor n = true) (hacts : (s.actsFor rq n || s.isOperator rq) = true) :
    exec (.ctxFloorWrite rq n v) s =
      .next (if (s.rd .secCtxFloor n).toNat < v.toNat % 2 ^ 32 && s.mramQuorum && s.ctxState n ≠ 0 then
        (s.mramWrite fun m => { m with ctxFloors := m.ctxFloors.put n (v.toNat % 2 ^ 32) }).wr .secCtxFloor n
          (BitVec.ofNat 64 (v.toNat % 2 ^ 32))
      else s) := by
  change execCtxFloorWrite rq n v s = _
  rw [execCtxFloorWrite, if_pos hn, hacts, State.cfgWrite_of_windowOpen hopen hreach]

/-! ### Bindings of Sinil connections (R332) -/

/-- Connection `(port, conn)` has been bound to context `n` (R332). -/
def State.connBound (s : State) (port conn n : Nat) : State :=
  (s.bump.onSec fun x => { x with conns := x.conns.put (port, conn) { bound := some (.ctx n) } }).send (.bindAnswer port conn true)

theorem exec_sinilBind_binds {port conn n : Nat} {key sig : List Byte} {c : Ctx} {s : State} (hservice : s.fld Fld.glbStatus_service = 1)
    (hc : s.ctx n = some c) (hresident : s.resident n = true) (hkey : c.record.control.contains key = true)
    (hfree : ((s.sec.conns.look (port, conn)).bind (·.bound)) = none)
    (hverify : Config.mlDsa65Verify key (s.freshBytes 32 ++ natLe 4 conn) sig = true) :
    exec (.sinilBind port conn (.ctx n) sig) s = s.whenLive (s.connBound port conn n) := by
  have hsigned : c.record.control.any (fun k => Config.mlDsa65Verify k (s.freshBytes 32 ++ natLe 4 conn) sig) = true :=
    List.any_eq_true.mpr ⟨key, List.contains_iff_mem.mp hkey, hverify⟩
  have hc' : s.bump.ctx n = some c := hc
  have hserved : (s.bump.resident n && decide (s.bump.fld Fld.glbStatus_service = 1)) = true := by
    change (s.resident n && decide (s.fld Fld.glbStatus_service = 1)) = true
    simp [hresident, hservice]
  change execSinilBind port conn (.ctx n) sig s = _
  unfold execSinilBind
  dsimp only
  obtain hnew | ⟨k, hk, hunbound⟩ : s.bump.sec.conns.look (port, conn) = none ∨
      ∃ k, s.bump.sec.conns.look (port, conn) = some k ∧ k.bound.isNone = true := by
    change s.sec.conns.look (port, conn) = none ∨ ∃ k, s.sec.conns.look (port, conn) = some k ∧ k.bound.isNone = true
    cases hlook : s.sec.conns.look (port, conn) with
    | none => exact .inl rfl
    | some k =>
      rw [hlook] at hfree
      exact .inr ⟨k, rfl, Option.isNone_iff_eq_none.mpr hfree⟩
  · simp only [hnew, hc', if_pos hserved, hsigned, Bool.and_self, if_true]
    rfl
  · simp only [hk, hunbound, hc', if_pos hserved, hsigned, Bool.and_self, if_true]
    rfl

theorem exec_sinilBind_refuses {port conn n : Nat} {sig : List Byte} {s : State}
    (hnot : s.resident n = false ∨ s.fld Fld.glbStatus_service ≠ 1) :
    exec (.sinilBind port conn (.ctx n) sig) s = s.whenLive (s.bump.send (.bindAnswer port conn false)) := by
  have hclosed : ¬ (s.bump.resident n && decide (s.bump.fld Fld.glbStatus_service = 1)) = true := by
    change ¬ (s.resident n && decide (s.fld Fld.glbStatus_service = 1)) = true
    obtain h | h := hnot <;> simp [h]
  change execSinilBind port conn (.ctx n) sig s = _
  unfold execSinilBind
  dsimp only
  cases hc : s.bump.ctx n with
  | none => simp only [List.any_nil, Bool.and_false, Bool.false_eq_true, if_false]
  | some c => simp only [if_neg hclosed, List.any_nil, Bool.and_false, Bool.false_eq_true, if_false]

end Sys2Proof.Machine

namespace Sys2Proof.Machine

/-- Settles O47: each command is the one equation that its hypotheses select, and what the state it answers holds is read off that state's lemmas. -/
theorem contextsKeysAndFloors : Obligations.ContextsKeysAndFloors := by
  unfold Obligations.ContextsKeysAndFloors
  refine ⟨?install, ?installRefused, ?retire, ?retireRefused, ?retireDiscard, ?sweepStops, ?sweepKeeps, ?sweepFrees, ?ownerKey, ?jobkey, ?fwFloor,
    ?keyFloor, ?floorRaised, ?floorIgnored, ?binds, ?bindRefused⟩
  case install =>
    rintro rq v s _ n hopen ⟨hlow, hservice⟩ rfl hcheck ⟨hindex, hfree, hflags⟩
    refine ⟨_, exec_ctxInstall_installs hopen hlow hservice hcheck hindex hfree hflags, ?_, ?_, State.ctx_installed ..,
      fun h hup hh => State.mram_installed _ _ _ hup hh, ?_, ?_, State.bit_raise_same _ Evt.sec_installDone (by decide)⟩
    · rw [State.ctxState_of_rd (State.rd_installed_ne _ _ _ _ _ (by decide))]
      exact State.ctxState_saveCtx _ n (show 1 < 4 by decide)
    · rw [State.rd_installed_ne _ _ _ _ _ (by decide)]
      exact State.rd_saveCtx_tenant ..
    · exact (State.rd_ctxStatus_raise_ne _ _ _ _ rfl _ (by decide) (by decide)).trans (State.rd_wr_same ..)
    · rw [State.installed, State.rd_ctxStatus_raise _ _ _ _ rfl, Nat.zero_mul, Nat.add_zero]
  case installRefused =>
    rintro rq v s _ _ hopen ⟨hlow, hservice⟩ rfl ⟨rfl, hcheck⟩
    have hle := s.installCheck_le rq (s.bytesAt (keyHub v.toNat) 0x4000)
    refine ⟨_, exec_ctxInstall_refused hopen hlow hservice hcheck, State.raise_sec .., ?_, ?_,
      State.bit_raise_same _ Evt.sec_installRefused (by decide), fun r i hne => ?_⟩
    · rw [State.rd_ctxStatus_raise _ _ _ _ rfl, BitVec.toNat_ofNat, bits]
      omega
    · rw [State.rd_ctxStatus_raise _ _ _ _ rfl, BitVec.toNat_ofNat, bits]
      omega
    · obtain ⟨hstatus, hevt⟩ : (r, i) ≠ (.secCtxStatus, 0) ∧ (r, i) ≠ (.secEvt, 0) := by rwa [List.mem_pair, not_or] at hne
      exact (State.rd_raise_ne _ _ hevt).trans (State.rd_wr_ne _ _ hstatus)
  case retire =>
    rintro rq v _ c s hopen ⟨hkeep, rfl, hacts⟩ ⟨hc, hresident, hnone⟩
    obtain ⟨hstate, hctx, hstatus, hssn, hmem⟩ := s.beginSweep_spec (bits v.toNat 0 6) c false
    have hexec := exec_ctxRetire (rq := rq) (s := s) hkeep
    rw [State.retire_starts hopen hacts hc (.inl ⟨hresident, .inr hnone⟩)] at hexec
    exact ⟨_, hexec, hstate, congrArg (Option.map _) hctx, hstatus, hssn, hmem⟩
  case retireRefused =>
    rintro rq v _ c s hopen ⟨hkeep, rfl, hacts⟩ ⟨hc, hresident, hholds⟩
    have hindex : bits v.toNat 0 6 % 64 = bits v.toNat 0 6 := Nat.mod_eq_of_lt (Nat.mod_lt _ (by decide))
    have hexec := exec_ctxRetire (rq := rq) (s := s) hkeep
    rw [State.retire_refused hopen hacts hc hresident hholds, State.ctxStatus, hindex] at hexec
    exact ⟨_, hexec, rfl⟩
  case retireDiscard =>
    rintro rq v _ c s hopen ⟨hdiscard, rfl, hacts⟩ ⟨hc, hstate⟩
    obtain ⟨hsweeping, hctx, hstatus, hssn, hmem⟩ := s.beginSweep_spec (bits v.toNat 0 6) c true
    have hexec := exec_ctxRetireDiscard (rq := rq) (s := s) hdiscard
    rw [State.retire_starts hopen hacts hc (hstate.imp (⟨·, .inl rfl⟩) (⟨·, rfl⟩))] at hexec
    exact ⟨_, hexec, hsweeping, congrArg (Option.map _) hctx, hstatus, hssn, hmem⟩
  case sweepStops =>
    rintro n c s hlive ⟨hc, hsweeping, hflush, hstep⟩
    obtain ⟨hsec, hsch, hssn⟩ := s.sweepStop_spec n
    refine .of_live (exec_contextSweep_stops hc hsweeping hflush hstep) hlive ⟨?_, fun p k hbound => ?_, congrArg Sch.reports hsch, hssn,
      (State.sweepTo_mem ..).trans (State.sweepStop_mem ..)⟩
    · have hkept : (s.sweepStop n).sec.ctxs.look n = some c := by rw [hsec]; exact hc
      rw [State.ctx, State.sweepTo, State.onSec_sec, Tbl.look_upd_same, hkept]
      rfl
    · change ((s.sweepStop n).sec.conns.look (p, k)).bind (·.bound) = some (.ctx n) at hbound
      obtain ⟨conn, hlook, hconn⟩ := Option.bind_eq_some_iff.mp hbound
      exact State.bound_ne_of_sweepStop hlook hconn
  case sweepKeeps =>
    rintro n c s hlive ⟨hc, hsweeping, hflush, hstep, hkeep⟩
    have hmem := s.sweepFlash_mem n c
    refine .of_live (exec_contextSweep_ends hc hsweeping hflush hstep) hlive ?_
    rw [State.sweepFlash_keeps hkeep] at hmem ⊢
    refine ⟨?_, ?_, ?_, ?_, State.bit_sweepDone .., hmem⟩
    · rw [State.ctxState_of_rd (State.rd_sweepDone_ne _ _ _ (by decide) (by decide)), State.ctxState,
        State.fld_setFld_other _ _ _ _ _ _ (by decide) (.inr (by decide))]
      exact State.ctxState_saveCtx _ n (show 3 < 4 by decide)
    · rw [State.ctx, State.sweepDone_sec, State.setFld_sec, ← State.ctx, State.ctx_saveCtx]
      rfl
    · rw [State.rd_sweepDone_ne _ _ _ (by decide) (by decide)]
      exact (State.rd_wr_reg_ne _ _ _ _ (by decide)).trans (State.rd_saveCtx_tenant ..)
    · rw [State.fld_of_rd (State.rd_sweepDone_ne _ _ _ (by decide) (by decide))]
      exact State.fld_setFld_same _ _ _ _ (by decide)
  case sweepFrees =>
    rintro n c s hlive ⟨hc, hsweeping, hflush, hstep, hdiscard⟩ ⟨hextents, herased⟩
    obtain ⟨hctx, hblank, hmram⟩ := s.freeCtx_spec n
    refine .of_live (exec_contextSweep_ends hc hsweeping hflush hstep) hlive ?_
    rw [State.sweepFlash_frees hdiscard hextents herased]
    refine ⟨?_, ?_, ?_, ?_, fun h hh hup => ?_, State.bit_sweepDone ..⟩
    · rw [State.ctxState_of_rd (State.rd_sweepDone_ne _ _ _ (by decide) (by decide)), State.ctxState, State.fld]
      exact (congrArg _ (hblank .secCtxState (by decide))).trans rfl
    · rw [State.ctx, State.sweepDone_sec]
      exact hctx
    · exact (State.rd_sweepDone_ne _ _ _ (by decide) (by decide)).trans (hblank .secCtxTenant (by decide))
    · exact (State.rd_sweepDone_ne _ _ _ (by decide) (by decide)).trans (hblank .secCtxFloor (by decide))
    · rw [State.mram, State.sweepDone_sec]
      exact hmram h hh hup
  case ownerKey =>
    rintro rq v s hopen ⟨hlow, hmay⟩
    refine ⟨_, exec_ownerKeyWrite hopen hlow hmay, State.fld_setFld_same _ _ _ _ (by decide), fun h hh hup => ?_, ?_, ?_⟩
    · exact congrArg Mram.owner (State.mram_mramWrite _ hh hup)
    · rw [State.mramWrite_eq]
      exact RegsKept.of_put rfl
    · rw [State.mramWrite_eq]
      rfl
  case jobkey =>
    rintro rq v n k c d s hopen ⟨hd, hlow, hn, hk⟩ ⟨hctx, hslot, hacts, hc, hresident⟩ hzero hconfirm
    refine ⟨_, exec_jobkeyLoad_loads hopen hd hlow hn hk hctx hslot hacts hc hresident hzero hconfirm, ?_, ?_, RegsKept.of_put rfl, rfl⟩
    · rw [State.ctx, State.jobkeyLoaded, State.wr_sec, State.onSec_sec, Tbl.look_put_same, Option.map_some, Tbl.look_put_same, Tbl.look_put_same]
    · rw [State.jobkeyLoaded, State.rd_wr_same]
      exact bit_or_two_pow _ (Nat.lt_trans hslot (by decide))
  case fwFloor =>
    rintro rq v s hopen ⟨hmodule, hbit, hquorum⟩
    obtain ⟨hfloor, hkey, htrial, hmem, hmram⟩ := s.floorCommitted_spec
      (fun m => { m with fwFloor := max (s.fld Fld.secFw_fwFloor) (s.fld Fld.secFw_svn) }) (f := Fld.secFw_fwFloor) (g := Fld.secFw_keyFloor)
      rfl rfl (by decide) (by decide) (Nat.max_lt.mpr ⟨s.fld_lt Fld.secFw_fwFloor 0, s.fld_lt Fld.secFw_svn 0⟩)
    exact ⟨_, exec_fwFloorCommit hopen hmodule hbit hquorum, hfloor, fun h hh hup => congrArg Mram.fwFloor (hmram h hh hup), hkey, htrial, hmem⟩
  case keyFloor =>
    rintro rq v s hopen ⟨hmodule, hbit, hquorum⟩
    obtain ⟨hfloor, hfw, htrial, hmem, hmram⟩ := s.floorCommitted_spec
      (fun m => { m with keyFloor := max (s.fld Fld.secFw_keyFloor) (s.fld Fld.secFw_keyIndex) }) (f := Fld.secFw_keyFloor) (g := Fld.secFw_fwFloor)
      rfl rfl (by decide) (by decide) (Nat.max_lt.mpr ⟨s.fld_lt Fld.secFw_keyFloor 0, s.fld_lt Fld.secFw_keyIndex 0⟩)
    exact ⟨_, exec_keyFloorCommit hopen hmodule hbit hquorum, hfloor, fun h hh hup => congrArg Mram.keyFloor (hmram h hh hup), hfw, htrial, hmem⟩
  case floorRaised =>
    rintro rq n _ v s hopen ⟨hn, hreach, hacts, rfl⟩ ⟨hraise, hquorum, hstate⟩
    have hexec := exec_ctxFloorWrite (v := v) hopen hn hreach hacts
    rw [decide_eq_true hraise, hquorum, decide_eq_true hstate, if_pos (by decide)] at hexec
    refine ⟨_, hexec, State.rd_wr_same .., fun h hh hup => ?_, ?_, ?_⟩
    · rw [State.mram_wr, State.mram_mramWrite _ hh hup]
      exact Tbl.look_put_same ..
    · rw [State.mramWrite_eq]
      exact RegsKept.of_put rfl
    · rw [State.mramWrite_eq]
      rfl
  case floorIgnored =>
    rintro rq n v s hopen ⟨hn, hreach, hacts⟩ hlower
    have hexec := exec_ctxFloorWrite (v := v) hopen hn hreach hacts
    rw [decide_eq_false (Nat.not_lt.mpr hlower), Bool.false_and, Bool.false_and, if_neg Bool.false_ne_true] at hexec
    exact ⟨_, hexec, rfl⟩
  case binds =>
    rintro port conn n key sig c s hlive ⟨hservice, hc, hresident⟩ ⟨hkey, hfree⟩ hverify
    have hbound : (s.connBound port conn n).sec.conns.look (port, conn) = some ⟨some (.ctx n)⟩ := Tbl.look_put_same ..
    refine .of_live (exec_sinilBind_binds hservice hc hresident hkey hfree hverify) hlive ⟨?_, ?_, rfl, rfl⟩
    · rw [hbound, Option.bind_some]
    · rw [State.actsFor, hbound]
      exact decide_eq_true rfl
  case bindRefused =>
    rintro port conn n sig s hlive hnot
    exact .of_live (exec_sinilBind_refuses hnot) hlive ⟨rfl, rfl, rfl⟩

end Sys2Proof.Machine

namespace Sys2Proof.Machine

/-! ### A frozen module (R375, R400)

Every clocked domain but the power supervisors', the pins', JTAG's and the references' is gated, and the register window is not reachable. A
command meets that gate in one of few places: a clocked event in `State.whenLive`, an instruction where its clerk would issue, an access of the
register window in `State.woWrite`, `State.cfgWrite` or `State.regRead`. One lemma for each place; then each command is sent to its own. -/

section frozen

variable {s : State}

theorem State.whenLive_of_frozen (h : s.frz.frozen = true) (t : State) : s.whenLive t = .next s := by
  rw [State.whenLive_eq, h]
  rfl

/-- A gate that is one test of several. -/
theorem State.next_ite_of_true {b : Bool} (hb : b = true) (t : State) : (.next (if b then s else t) : Ans) = .next s := by
  rw [if_pos hb]

theorem State.next_ite_of_false {b : Bool} (hb : b = false) (t : State) : (.next (if b then t else s) : Ans) = .next s := by
  rw [hb]
  rfl

theorem State.issuer_of_frozen (h : s.frz.frozen = true) (c : Nat) : s.issuer c = none := by
  unfold State.issuer
  simp [h]

theorem State.onWord_of_frozen (h : s.frz.frozen = true) (c : Nat) (p : Ix → Bool) (k : Ix → State) : s.onWord c p k = s := by
  rw [State.onWord, State.issuer_of_frozen h]

theorem State.woWrite_of_frozen (h : s.frz.frozen = true) (rq : Requester) (r : Reg) (i : Nat) (allowed : Bool) (low : Nat)
    (k : State → State) : s.woWrite rq r i allowed low k = s := by
  rw [State.woWrite, h]
  rfl

theorem State.cfgWrite_of_frozen (h : s.frz.frozen = true) (rq : Requester) (r : Reg) (i : Nat) (allowed : Bool) (k : State → State) :
    s.cfgWrite rq r i allowed k = s := by
  rw [State.cfgWrite, h]
  rfl

theorem State.regRead_of_frozen (h : s.frz.frozen = true) (rq : Requester) (r : Reg) (i lo width frac : Nat) :
    s.regRead rq r i lo width frac = s := by
  rw [State.regRead, h]
  rfl

theorem ite_eq_of_left {p : Prop} [Decidable p] {t : State} (h : t = s) : (if p then t else s) = s := by
  rw [h, ite_self]

theorem ite_eq_of_right {p : Prop} [Decidable p] {t : State} (h : t = s) : (if p then s else t) = s := by
  rw [h, ite_self]

theorem exec_of_frozen {c : Instr} (h : s.frz.frozen = true) (hc : actsFrozen c = false) : exec c s = .next s := by
  cases c
  case junction115 | coreSupervisorReset | vsupWarning | vsupPowerFail | vsupRecovery | vinReset | overvoltage | flushDone | tier2Cut |
      freezePin | frzCtrlFreeze | frzCtrlRelease | frzCtrlSelect | frzCtrlReadout | frzRead | extest | idcode | samplePreload | clamp |
      highz | bypass | referenceChange | resetPin | thermalResetRelease =>
    exact nomatch (show true = false from hc)
  -- Instructions.
  case alu | alui | li | lih | cmp | cmpi | plog | br | jr | dins | dext | openObj | bind | drop | park | revive | move | pin | unpin | hint |
      attn | attnMerge | submit | cancel | dispatchKernel | mint | clearBind | clearUnbind | clearMask | clearAdvance | sampleConfig |
      sampleProbe | changeConfig | changeText | search | vinsert | vdelete | charge | credit | rent | escAcq | escPub | escRel | stmtBegin |
      stmtAdd | stmtCommit | ld | st | amo | fenceM | fenceN | fenceD | wait | signal | yield | trapExit | brk | freeze =>
    exact congrArg Host.Outcome.next (State.onWord_of_frozen h ..)
  -- Clocked events.
  case linkHandshakeTimeout | hubHeartbeatMiss | hubDeclaredFailed | stackTakenOffline | patrolScrub | rowSpareCopy | tsvLaneRemap |
      layerRetire | paceSample | junctionAbove105 | cornerRecovered | coreVoltageLow | standbyEntry | standbyExit | runTimeLimit |
      handlerGraceExpiry | waitTimeout | yieldTimeout | indexReuseHoldEnd | passbookFlashWrite | atq | kvu | ledgerTick | collIndexFree |
      channelNegotiate | flashWrite | flashProgramDone | journalBufferWrite | mapCheckpoint | flashRead | lunFailed | lunRebuild | tillFold |
      garbageCollection | wearLevel | readDisturbRefresh | retentionScan | blockReplace | ordinaryDiscard | mrd | mwr | mat |
      recallTimeout | agentFailed | directorySweep | loadLevelUpdate | coldGranulePark | granuleFaultIn | mapCommit | portSignalDetect |
      laneLock | trainTimeout | trainRetry | capabilityBlock | keysDone | creditAdvert | retrainTrigger | retrainEnd | portFailed |
      codewordUncorrectable | retryRequest | ackTimer | cellAck | creditReturn | frameReceive | frameTagFail | rekeyStart | rekeyFrame |
      gateSwap | contextSweep | sinilBind | getVersion | getCapabilities | negotiateAlgorithms | getDigests | getCertificate | challenge |
      getMeasurements | keyExchange | finish | keyUpdate | heartbeat | endSession | ideKm | ideIntegrityFail | lockInterfaceRequest |
      startInterfaceRequest | stopInterfaceRequest | resumingDone | psuPoll | bankMeasure | bankMeasureRetry | budgetRecompute |
      offsetDiscipline | ppsSecond | nodeTimeFrame | ptmRequest | domainTimeExchange | ptpMessage | firmwareFetch | bootSourceSilence |
      sinilBootRetry | mapReplay | selfTest | serviceOpen | hubReturn | liveRestartPause | eventNotice | undefinedEncoding | cellReceive |
      creditReturnArrival | cellBoundaryService | queueDepthSample | timeErrorLimit | bankMeasurementEnd | hostHeadRetrained |
      ingressHoldRelease | announceInterval | imgVerifyDone | operationComplete | passbookCopyRebuild | parkCommit | reviveLayerResident |
      moveDestinationAnswer | reviveHoldExpiry | sessionRebuildDone | ldn | lgt | hsv | partialMerge | atrSupplement | roleEval |
      shapeDigest | flashCommitNotice | birsp | isolateTimeout | dld | dst | dat | drs | dfw | dua | dbgFreeze | moveCopyArrival |
      t4RevocationNotice | sessionCounterfoilPage | counterfoilFetch | counterfoilSlotRequest =>
    exact State.whenLive_of_frozen h _
  -- Writes and reads of the register window.
  case imgLoad | imgUnload | runStart | runCancel | phaseSwitch | modelReg | modelUnreg | tblLoad | tblUnload | collCreate | collDrop |
      secureDiscard | jobCreate | jobDelete | restore | regionCreate | regionDelete | regionTemp | dfbRegionCreate | dfbRegionDelete |
      dfbJoin | dfbLeave | ctxInstall | ownerKeyWrite | jobkeyLoad | fwFloorCommit | keyFloorCommit | bankTestWrite | fwActivate =>
    exact congrArg Host.Outcome.next (State.woWrite_of_frozen h ..)
  case vsrCfgWrite | mapCfgWrite | histSelWrite | tlrEvtWrite | ssnEvtWrite | kvaEvtWrite | schEvtWrite | txtEvtWrite | vsrEvtWrite |
      flsEvtWrite | stmEvtWrite | nmcEvtWrite | dfbEvtWrite | lnkEvtWrite | secEvtWrite | pwrEvtWrite | glbEvtWrite | timEvtWrite |
      dbgEvtWrite =>
    exact congrArg Host.Outcome.next (State.cfgWrite_of_frozen h ..)
  case timNowRead | stmStallMaxRead | nmcRecallMaxRead | pwrDirtyMaxRead | glbAccessErrRead | dbgTraceDroppedRead =>
    exact congrArg Host.Outcome.next (State.regRead_of_frozen h ..)
  -- Events whose gate is one test of several.
  case dirRebuild | t1Reclaim | engineDescriptorExec | stepForm | groupTimeout | stepCommit | stepReportSend | copyBeforeWrite | rollback |
      dup | t4Revoke | glbResetModule | registerWrite | t4RoomRequest | t4PieceStore | t4Fetch | reclaimDeadline | powerOnBringup | glbResetHub |
      mapAdopt =>
    exact State.next_ite_of_true (by simp [h]) _
  case cxlMemRead | cxlMemWrite | rca | mapChangePropose | leaderHeartbeat | heartbeatReceive | leaseExpiry | suspectExpiry |
      electionTimeout | bucketCutover | voteRequest | logEntryAppend | heartbeatAnswer | nonePoisonBacking =>
    exact State.next_ite_of_false (by simp [h]) _
  case kvaEngErrRead | flsChErrRead | lnkPortErrRead =>
    exact congrArg Host.Outcome.next (ite_eq_of_left (State.regRead_of_frozen h ..))
  case portCfgWrite | gateSwapRequest | ctxFloorWrite =>
    exact congrArg Host.Outcome.next (ite_eq_of_left (State.cfgWrite_of_frozen h ..))
  case groupCfgWrite | ctxReportWrite | jobPeerWrite =>
    exact congrArg Host.Outcome.next (ite_eq_of_right (State.cfgWrite_of_frozen h ..))
  case ctxRetire | glbResetClearRepair =>
    exact congrArg Host.Outcome.next (ite_eq_of_right (State.woWrite_of_frozen h ..))
  case ctxRetireDiscard =>
    exact congrArg Host.Outcome.next (ite_eq_of_left (State.woWrite_of_frozen h ..))
  -- Events that first look their object up, and meet the gate where it is there.
  case runDrainDone | phaseTimeLimit | phaseDone | vectorFold | weighPass | assay | sketchRebuild | backgroundCopy | cfPage | cfPageRefusal |
      cfAck | commitNotice | statementFlush | takeover | domainReqTimeout | memberNoticeArrival =>
    delta exec
    simp only [execRunDrainDone, execPhaseTimeLimit, execPhaseDone, execVectorFold, execWeighPass, execAssay, execSketchRebuild,
      execBackgroundCopy, execCfPage, execCfPageRefusal, execCfAck, execCommitNotice, execStatementFlush, execTakeover, execDomainReqTimeout,
      execMemberNoticeArrival, h, Bool.not_true, Bool.and_false, Bool.false_eq_true, if_false, Bool.true_or, Bool.or_true, if_true]
    (repeat' split) <;> rfl

theorem State.tick_of_frozen (h : s.frz.frozen = true) : s.tick = s := by
  rw [State.tick, if_pos h]

end frozen

theorem core_run_of_step {s t : State} (n : Nat) (h : step s = .next t) : Sys2Proof.core.run (n + 1) s = Sys2Proof.core.run n t := by
  have hstep : Sys2Proof.core.step s = .next t := h
  simp only [Host.Core.run, hstep]

/-- Steps over a queue of ordinary commands only take them off it. -/
theorem run_of_frozen (n : Nat) (s : State) (h : s.frz.frozen = true) (hc : (s.pending.all (fun c => !(actsFrozen c))) = true)
    (hn : s.pending.length ≤ n) : Sys2Proof.core.run n s = .next { s with pending := [] } := by
  induction n generalizing s with
  | zero =>
    have hp : s.pending = [] := List.eq_nil_of_length_eq_zero (Nat.le_zero.mp hn)
    change Host.Outcome.next s = _
    rw [← hp]
    rfl
  | succ n ih =>
    cases hp : s.pending with
    | nil =>
      have hstep : step s = .next s := by rw [step, hp, State.tick_of_frozen h]
      rw [core_run_of_step n hstep, ih s h hc (by simp [hp])]
    | cons c rest =>
      rw [hp, List.all_cons, Bool.and_eq_true, Bool.not_eq_true'] at hc
      have hstep : step s = .next { s with pending := rest } := by
        rw [step, hp]
        exact exec_of_frozen h hc.1
      rw [core_run_of_step n hstep]
      exact ih { s with pending := rest } h hc.2 (Nat.le_of_succ_le_succ (by simpa [hp] using hn))

/-- Settles O6: each ordinary command is stopped by its gate, and so the queue drains by induction on the number of steps. -/
theorem frozenModuleHoldsStill : Obligations.FrozenModuleHoldsStill := by
  unfold Obligations.FrozenModuleHoldsStill
  exact ⟨fun _ _ h hc => exec_of_frozen h hc, run_of_frozen⟩

/-! ### A nanosecond without a command (R371, R411; log 1) -/

/-- What idling leaves alone, but for run time, which is told apart. -/
def State.idleView (s : State) : List Instr × Nat × List Host.Cell × Tlr × Ssn × Fls := (s.pending, s.now, s.mem, s.tlr, s.ssn, s.fls)

theorem State.slewTick_idleView (s : State) : s.slewTick.idleView = s.idleView := by
  unfold State.slewTick
  dsimp only
  (repeat' split) <;> rfl

theorem State.sendOn_idleView (s : State) (p cls conn n : Nat) (o : Out) : (s.sendOn p cls conn n o).idleView = s.idleView := by
  unfold State.sendOn State.enqueue
  split <;> rfl

theorem State.drainTrace_idleView (s : State) : s.drainTrace.idleView = s.idleView := by
  unfold State.drainTrace
  dsimp only
  split
  · rfl
  · refine foldl_kept State.idleView (fun t h => ?_) (List.range 4) s
    split
    · rfl
    · exact State.sendOn_idleView ..

/-- Settles O2: slewing and the trace frames that leave touch neither the queue nor what R371 and R375 hold. -/
theorem idleStepPassesOneNanosecond : Obligations.IdleStepPassesOneNanosecond := by
  unfold Obligations.IdleStepPassesOneNanosecond
  refine ⟨fun s hp hlive => ?_, fun s hp h => ?_⟩
  · have hview : s.tick.idleView = { s with now := s.now + 1 }.idleView := by
      rw [State.tick, if_neg (by simp [hlive]), State.drainTrace_idleView, State.slewTick_idleView]
    simp only [State.idleView, Prod.mk.injEq] at hview
    obtain ⟨hpending, hnow, hmem, htlr, hssn, hfls⟩ := hview
    exact ⟨s.tick, by rw [step, hp], hnow, hmem, htlr, hssn, hfls, hpending.trans hp⟩
  · rw [step, hp, State.tick_of_frozen h]

end Sys2Proof.Machine

namespace Sys2Proof.Machine

/-! ### Changes of registers and latches only (R395, R407) -/

theorem RegsKept.refl (l : List (Reg × Nat)) (s : State) : RegsKept l s s := fun _ _ _ => rfl

theorem RegsKept.trans {l : List (Reg × Nat)} {s t u : State} (h : RegsKept l s t) (k : RegsKept l t u) : RegsKept l s u :=
  fun r i hri => (k r i hri).trans (h r i hri)

theorem RegsKept.mono {l m : List (Reg × Nat)} {s t : State} (h : RegsKept l s t) (hl : ∀ p ∈ l, p ∈ m) : RegsKept m s t :=
  fun r i hri => h r i fun hl' => hri (hl _ hl')

theorem RegsKept.wr {l : List (Reg × Nat)} {s t : State} (h : RegsKept l s t) {r : Reg} {i : Nat} (v : Word) (hr : (r, i) ∈ l) :
    RegsKept l s (t.wr r i v) :=
  h.trans fun _ _ hq => State.rd_wr_ne _ _ fun e => hq (e ▸ hr)

theorem RegsKept.setFld {l : List (Reg × Nat)} {s t : State} (h : RegsKept l s t) {f : Fld} {i : Nat} (x : Nat) (hf : (f.reg, i) ∈ l) :
    RegsKept l s (t.setFld f i x) :=
  h.wr _ hf

theorem RegsKept.raise {l : List (Reg × Nat)} {s t : State} (h : RegsKept l s t) {e : Evt} (he : (e.reg, 0) ∈ l) :
    RegsKept l s (t.raise e) :=
  h.trans fun _ _ hq => State.rd_raise_ne _ _ fun e' => hq (e' ▸ he)

theorem RegsKept.ite {l : List (Reg × Nat)} {s t u : State} {p : Prop} [Decidable p] (ht : RegsKept l s t) (hu : RegsKept l s u) :
    RegsKept l s (if p then t else u) := by
  split <;> assumption

theorem RegsKept.fld {l : List (Reg × Nat)} {s t : State} (h : RegsKept l s t) (f : Fld) (i : Nat) (hf : (f.reg, i) ∉ l) : t.fld f i = s.fld f i :=
  State.fld_of_rd (h _ _ hf)

/-- `t` is `s` but for registers and latches. -/
def RegsOnly (s t : State) : Prop := t = { s with regs := t.regs, latches := t.latches }

theorem RegsOnly.refl (s : State) : RegsOnly s s := rfl

theorem RegsOnly.trans {s t u : State} (h : RegsOnly s t) (k : RegsOnly t u) : RegsOnly s u := by
  rw [RegsOnly, h] at k
  exact k

theorem RegsOnly.wr {s t : State} (h : RegsOnly s t) (r : Reg) (i : Nat) (v : Word) : RegsOnly s (t.wr r i v) := h.trans rfl

theorem RegsOnly.setFld {s t : State} (h : RegsOnly s t) (f : Fld) (i x : Nat) : RegsOnly s (t.setFld f i x) := h.trans rfl

theorem RegsOnly.raise {s t : State} (h : RegsOnly s t) (e : Evt) : RegsOnly s (t.raise e) := h.trans (State.raise_eq t e ▸ rfl)

theorem RegsOnly.ite {s t u : State} {p : Prop} [Decidable p] (ht : RegsOnly s t) (hu : RegsOnly s u) : RegsOnly s (if p then t else u) := by
  split <;> assumption

theorem RegsOnly.part {γ : Type} (part : State → γ) {s t : State} (h : RegsOnly s t)
    (hpart : ∀ (l : Tbl (Reg × Nat) Word) (k : List Nat), part { s with regs := l, latches := k } = part s) : part t = part s := by
  rw [RegsOnly] at h
  rw [h, hpart]

/-! ### The flush budget (R357 to R359) -/

/-- The registers that a recomputation of the budget writes. -/
abbrev budgetRegs : List (Reg × Nat) := [(.pwrBudget, 0), (.pwrStatus, 0), (.pwrEvt, 0)]

theorem State.slcRate_congr {s t : State} (harch : t.arch = s.arch) (h : RegsKept budgetRegs s t) : t.slcRate = s.slcRate := by
  have hst : ∀ c, t.fld Fld.flsChStatus_state c = s.fld Fld.flsChStatus_state c := fun c => h.fld _ c (by simp [Fld.flsChStatus_state])
  have hup : t.chansUp = s.chansUp := by
    simp only [State.chansUp, State.chanSt, State.hubUp, harch, hst]
    rfl
  have hplanes : t.nPlanes = s.nPlanes := by
    rw [State.nPlanes, h _ _ (by simp), State.leadChan]
    simp only [State.chanSt, hst]
    rfl
  have hrate : ∀ c, t.chanRate c = s.chanRate c := fun c => by
    rw [State.chanRate, h .flsChTime c (by simp), h.fld Fld.flsChStatus_rate c (by simp [Fld.flsChStatus_rate]),
      h.fld Fld.flsChStatus_luns c (by simp [Fld.flsChStatus_luns]), hplanes]
    rfl
  simp only [State.slcRate, hup, hrate]

theorem State.bankCE_congr {s t : State} (hmeasured : t.pwr.measured = s.pwr.measured) (hbank : t.rd .pwrBank 0 = s.rd .pwrBank 0)
    (hlimit : t.rd .pwrBankLimit 0 = s.rd .pwrBankLimit 0) : t.bankCE = s.bankCE := by
  rw [State.bankCE, hmeasured, hbank, State.fld_of_rd (f := Fld.pwrBank_esr) hbank, State.fld_of_rd (f := Fld.pwrBankLimit_cMin) hlimit,
    State.fld_of_rd (f := Fld.pwrBankLimit_esrMax) hlimit]
  rfl

/-- The budget does not depend on the registers that publish it. -/
theorem State.budgetAt_congr {s t : State} (harch : t.arch = s.arch) (hpwr : t.pwr = s.pwr) (h : RegsKept budgetRegs s t) (b : Nat) :
    t.budgetAt b = s.budgetAt b := by
  rw [State.budgetAt, State.slcRate_congr harch h, State.bankCE_congr (congrArg Pwr.measured hpwr) (h _ _ (by simp)) (h _ _ (by simp)),
    h.fld Fld.pwrHoldCfg_arrayW 0 (by decide),
    h.fld Fld.pwrHoldCfg_vMin 0 (by decide), h.fld Fld.pwrHoldCfg_marginPct 0 (by decide)]
  rfl

/-! An event that is raised where a condition holds. -/

theorem State.rd_setFld_ne (s : State) (f : Fld) {i : Nat} (x : Nat) {q : Reg} {j : Nat} (h : (q, j) ≠ (f.reg, i)) :
    (s.setFld f i x).rd q j = s.rd q j :=
  State.rd_wr_ne _ _ h

theorem State.rd_raiseIf_ne (s : State) (p : Prop) [Decidable p] (e : Evt) {q : Reg} {j : Nat} (h : (q, j) ≠ (e.reg, 0)) :
    (if p then s.raise e else s).rd q j = s.rd q j := by
  split
  · exact State.rd_raise_ne _ _ h
  · rfl

theorem State.fld_raiseIf_ne (s : State) (p : Prop) [Decidable p] (e : Evt) {f : Fld} {i : Nat} (h : (f.reg, i) ≠ (e.reg, 0)) :
    (if p then s.raise e else s).fld f i = s.fld f i :=
  State.fld_of_rd (State.rd_raiseIf_ne s p e h)

theorem State.bit_raiseIf_of_bit {s : State} (e : Evt) (p : Prop) [Decidable p] {i : Nat} (h : bit (s.rd e.reg 0).toNat i = true) :
    bit ((if p then s.raise e else s).rd e.reg 0).toNat i = true := by
  split
  · exact State.bit_raise_of_bit h
  · exact h

theorem b2n_decide_eq_one {p : Prop} [Decidable p] : b2n (decide p) % 2 ^ 1 = 1 ↔ p := by
  by_cases h : p <;> simp [b2n, h]

/-- What a recomputation publishes: B, BANK_LOW below 64 MiB and DEFICIT while D is above B, in registers and latches alone. -/
theorem State.refreshBudget_spec (s : State) :
    RegsKept budgetRegs s s.refreshBudget ∧ RegsOnly s s.refreshBudget ∧
      s.refreshBudget.rd .pwrBudget 0 = BitVec.ofNat 64 (s.budgetAt s.pwr.vbank) ∧
      (s.refreshBudget.fld Fld.pwrStatus_bankLow 0 = 1 ↔ s.budgetAt s.pwr.vbank < 2 ^ 26) ∧
      (s.refreshBudget.fld Fld.pwrStatus_deficit 0 = 1 ↔ s.budgetAt s.pwr.vbank < s.dirtyTotal) ∧
      s.refreshBudget.fld Fld.pwrStatus_huEn 0 = s.fld Fld.pwrStatus_huEn 0 ∧
      ∀ i, bit (s.rd .pwrEvt 0).toNat i = true → bit (s.refreshBudget.rd .pwrEvt 0).toNat i = true := by
  unfold State.refreshBudget
  extract_lets b t low u v ovr w
  have hkeptT : RegsKept budgetRegs s t := .wr (.refl _ s) _ (by decide)
  have hkeptU : RegsKept budgetRegs s u := .ite (.raise hkeptT (by decide)) hkeptT
  have hkeptV : RegsKept budgetRegs s v := .setFld hkeptU _ (by decide)
  have hkeptW : RegsKept budgetRegs s w := .ite (.raise hkeptV (by decide)) hkeptV
  have honlyT : RegsOnly s t := .wr (.refl s) ..
  have honlyU : RegsOnly s u := .ite (.raise honlyT _) honlyT
  have honlyV : RegsOnly s v := .setFld honlyU ..
  have honlyW : RegsOnly s w := .ite (.raise honlyV _) honlyV
  have hovr : ovr = decide (b < s.dirtyTotal) := congrArg (fun n => decide (b < n)) (honlyV.part State.dirtyTotal fun _ _ => rfl)
  refine ⟨.setFld hkeptW _ (by decide), .setFld honlyW .., ?budget, ?low, ?deficit, ?huEn, fun i hi => ?event⟩
  case budget =>
    rw [State.rd_setFld_ne _ _ _ (by decide), State.rd_raiseIf_ne _ _ _ (by decide), State.rd_setFld_ne _ _ _ (by decide),
      State.rd_raiseIf_ne _ _ _ (by decide)]
    exact State.rd_wr_same ..
  case low =>
    rw [State.fld_setFld_other _ _ _ _ _ _ (by decide) (by decide), State.fld_raiseIf_ne _ _ _ (by decide),
      State.fld_setFld_same _ _ _ _ (by decide)]
    exact b2n_decide_eq_one
  case deficit =>
    rw [State.fld_setFld_same _ _ _ _ (by decide), hovr]
    exact b2n_decide_eq_one
  case huEn =>
    rw [State.fld_setFld_other _ _ _ _ _ _ (by decide) (by decide), State.fld_raiseIf_ne _ _ _ (by decide),
      State.fld_setFld_other _ _ _ _ _ _ (by decide) (by decide), State.fld_raiseIf_ne _ _ _ (by decide)]
    exact State.fld_of_rd (State.rd_wr_ne _ _ (by decide))
  case event =>
    rw [State.rd_setFld_ne _ _ _ (by decide)]
    refine State.bit_raiseIf_of_bit Evt.pwr_deficit _ ?_
    rw [State.rd_setFld_ne _ _ _ (by decide)]
    refine State.bit_raiseIf_of_bit Evt.pwr_bankLow _ ?_
    rwa [State.rd_wr_ne _ _ (by decide)]

/-! ### The hold-up bank (R355 to R357) -/

/-- The bank's voltage and the charger's state are published; the rest of the power state stays (R354). -/
theorem State.bankAt_spec (s : State) (v : Nat) :
    RegsKept [(.pwrVolts, 0), (.pwrStatus, 0)] s (s.bankAt v) ∧
      s.bankAt v = { s with pwr := { s.pwr with vbank := v }, regs := (s.bankAt v).regs } ∧
      (s.bankAt v).fld Fld.pwrVolts_vbank 0 = v % 2 ^ 16 ∧ (s.bankAt v).fld Fld.pwrStatus_huEn 0 = s.fld Fld.pwrStatus_huEn 0 := by
  refine ⟨?_, rfl, ?_, ?_⟩
  · exact .setFld (.setFld (s := s) (t := s.onPwr fun p => { p with vbank := v }) (fun _ _ _ => rfl) _ (by decide)) _ (by decide)
  · rw [State.bankAt, State.fld_setFld_other _ _ _ _ _ _ (by decide) (by decide)]
    exact State.fld_setFld_same _ Fld.pwrVolts_vbank _ _ (by decide)
  · rw [State.bankAt, State.fld_setFld_other _ _ _ _ _ _ (by decide) (by decide), State.fld_setFld_other _ _ _ _ _ _ (by decide) (by decide)]
    rfl

theorem State.bankHours_spec (s : State) :
    RegsKept [(.pwrBank, 0)] s s.bankHours ∧ s.bankHours = { s with regs := s.bankHours.regs } ∧ s.bankHours.bankCE = s.bankCE := by
  unfold State.bankHours
  split
  · generalize min 65535 ((s.now - s.pwr.measuredAt) / 3600000000000) = n
    refine ⟨.setFld (.refl _ s) _ (by decide), rfl, ?_⟩
    have hfld : ∀ f : Fld, (f.reg, 0) ≠ (Reg.pwrBank, 0) ∨ f.lo + f.width ≤ 48 ∨ 64 ≤ f.lo →
        (s.setFld ⟨.pwrBank, 48, 16⟩ 0 n).fld f 0 = s.fld f 0 :=
      fun f hf => State.fld_setFld_other s ⟨.pwrBank, 48, 16⟩ f 0 0 n (by decide) hf
    have hce := hfld ⟨.pwrBank, 0, 32⟩ (by decide)
    change (if s.pwr.measured then ((s.setFld ⟨.pwrBank, 48, 16⟩ 0 n).fld ⟨.pwrBank, 0, 32⟩ 0, _) else _) = _
    rw [hce, hfld Fld.pwrBank_esr (by decide), hfld Fld.pwrBankLimit_cMin (by decide), hfld Fld.pwrBankLimit_esrMax (by decide)]
    rfl
  · exact ⟨.refl _ s, rfl, rfl⟩

/-- The bank as a measurement leaves it: C and ESR published, HU_EN low, the voltage 1.0 V lower (R356). -/
def State.bankTaken (s : State) (cMf esr tempC : Nat) : State :=
  (((s.onPwr fun p => { p with measuring := false, measured := true, measuredAt := s.now, lastTemp := tempC, retries := 0 }).huEn false).wr
    .pwrBank 0 (BitVec.ofNat 64 (cMf % 2 ^ 32 + esr % 2 ^ 16 * 2 ^ 32))).bankAt (s.pwr.vbank - 100)

/-- BANK_AGED set where a limit is passed (R357). -/
def State.bankJudged (s : State) (cMf esr : Nat) : State :=
  if decide (cMf % 2 ^ 32 < s.fld Fld.pwrBankLimit_cMin) || decide (s.fld Fld.pwrBankLimit_esrMax < esr % 2 ^ 16)
    then s.raise Evt.pwr_bankAged else s

theorem exec_bankMeasurementEnd {s : State} (cMf esr tempC : Nat) (h : s.pwr.measuring = true) :
    exec (.bankMeasurementEnd cMf esr tempC) s = s.whenLive ((s.bankTaken cMf esr tempC).bankJudged cMf esr).refreshBudget := by
  change execBankMeasurementEnd cMf esr tempC s = _
  rw [execBankMeasurementEnd, if_pos h]
  rfl

theorem State.bankTaken_spec (s : State) (cMf esr tempC : Nat) :
    RegsKept [(.pwrVolts, 0), (.pwrStatus, 0), (.pwrBank, 0)] s (s.bankTaken cMf esr tempC) ∧
      s.bankTaken cMf esr tempC = { s with
        pwr := { s.pwr with measuring := false, measured := true, measuredAt := s.now, lastTemp := tempC, retries := 0, vbank := s.pwr.vbank - 100 }
        regs := (s.bankTaken cMf esr tempC).regs } ∧
      (s.bankTaken cMf esr tempC).rd .pwrBank 0 = BitVec.ofNat 64 (cMf % 2 ^ 32 + esr % 2 ^ 16 * 2 ^ 32) ∧
      (s.bankTaken cMf esr tempC).fld Fld.pwrStatus_huEn 0 = 0 := by
  unfold State.bankTaken
  generalize hu : ((s.onPwr fun p => { p with measuring := false, measured := true, measuredAt := s.now, lastTemp := tempC, retries := 0 }).huEn
    false).wr .pwrBank 0 (BitVec.ofNat 64 (cMf % 2 ^ 32 + esr % 2 ^ 16 * 2 ^ 32)) = u
  obtain ⟨hkept, honly, -, hhu⟩ := u.bankAt_spec (s.pwr.vbank - 100)
  refine ⟨?_, ?_, ?_, ?_⟩
  · have hu' : RegsKept [(.pwrStatus, 0), (.pwrBank, 0)] s u := hu ▸ .wr (.setFld (fun _ _ _ => rfl) _ (by decide)) _ (by decide)
    exact (hu'.mono (by decide)).trans (hkept.mono (by decide))
  · rw [honly, ← hu]
    rfl
  · rw [hkept .pwrBank 0 (by decide), ← hu]
    exact State.rd_wr_same ..
  · rw [hhu, ← hu, State.fld_of_rd (State.rd_wr_ne _ _ (by decide))]
    exact State.fld_setFld_same _ Fld.pwrStatus_huEn _ _ (by decide)

/-- The ends of a measurement (R356, R357). -/
theorem completes_bankMeasurementEnd {s : State} {cMf esr : Nat} (tempC : Nat) (hlive : s.Live)
    (h : s.pwr.measuring = true ∧ cMf < 2 ^ 32 ∧ esr < 2 ^ 16) :
    Completes (.bankMeasurementEnd cMf esr tempC) s fun t =>
      t.rd .pwrBank 0 = BitVec.ofNat 64 (cMf + esr * 2 ^ 32) ∧ t.fld Fld.pwrStatus_huEn 0 = 0 ∧
        t.pwr = { s.pwr with
          measuring := false, measured := true, measuredAt := s.now, lastTemp := tempC, retries := 0, vbank := s.pwr.vbank - 100 } ∧
        (cMf < s.fld Fld.pwrBankLimit_cMin 0 ∨ s.fld Fld.pwrBankLimit_esrMax 0 < esr → bit (t.rd .pwrEvt 0).toNat Evt.pwr_bankAged.bit = true) ∧
        t.bankCE = (cMf, esr) ∧ t.rd .pwrBudget 0 = BitVec.ofNat 64 (t.budgetAt t.pwr.vbank) := by
  obtain ⟨hmeasuring, hc, hesr⟩ := h
  refine .of_live (exec_bankMeasurementEnd cMf esr tempC hmeasuring) hlive ?_
  obtain ⟨hkept, honly, hbank, hhu⟩ := s.bankTaken_spec cMf esr tempC
  rw [Nat.mod_eq_of_lt hc, Nat.mod_eq_of_lt hesr] at hbank
  generalize s.bankTaken cMf esr tempC = u at hkept honly hbank hhu ⊢
  have hpwr := congrArg State.pwr honly
  have hjudged : RegsKept [(.pwrEvt, 0)] u (u.bankJudged cMf esr) := .ite (.raise (.refl _ u) (by decide)) (.refl _ u)
  have honlyJudged : RegsOnly u (u.bankJudged cMf esr) := .ite (.raise (.refl u) _) (.refl u)
  have haged : cMf < s.fld Fld.pwrBankLimit_cMin 0 ∨ s.fld Fld.pwrBankLimit_esrMax 0 < esr →
      bit ((u.bankJudged cMf esr).rd .pwrEvt 0).toNat Evt.pwr_bankAged.bit = true := fun hlimit => by
    have hset : (decide (cMf % 2 ^ 32 < u.fld Fld.pwrBankLimit_cMin) || decide (u.fld Fld.pwrBankLimit_esrMax < esr % 2 ^ 16)) = true := by
      rw [hkept.fld _ _ (by decide), hkept.fld _ _ (by decide), Nat.mod_eq_of_lt hc, Nat.mod_eq_of_lt hesr, Bool.or_eq_true, decide_eq_true_iff,
        decide_eq_true_iff]
      exact hlimit
    rw [State.bankJudged, if_pos hset]
    exact State.bit_raise_same u Evt.pwr_bankAged (by decide)
  generalize u.bankJudged cMf esr = v at hjudged honlyJudged haged ⊢
  obtain ⟨hkeptB, honlyB, hbudget, -, -, hhuB, hevtB⟩ := v.refreshBudget_spec
  have hall : RegsKept budgetRegs u v.refreshBudget := (hjudged.mono (by decide)).trans hkeptB
  have hallOnly := honlyJudged.trans honlyB
  have hpwrB : v.refreshBudget.pwr = u.pwr := hallOnly.part State.pwr fun _ _ => rfl
  have hbankB : v.refreshBudget.rd .pwrBank 0 = BitVec.ofNat 64 (cMf + esr * 2 ^ 32) := (hall _ _ (by decide)).trans hbank
  refine ⟨hbankB, ?_, hpwrB.trans hpwr, fun hlimit => hevtB _ (haged hlimit), ?_, ?_⟩
  · rw [hhuB, hjudged.fld _ _ (by decide), hhu]
  · have hmeasured : v.refreshBudget.pwr.measured = true := by rw [hpwrB, hpwr]
    rw [State.bankCE, if_pos hmeasured, State.fld, Fld.get, show Fld.pwrBank_esr.reg = .pwrBank from rfl, hbankB, BitVec.toNat_ofNat,
      Nat.mod_eq_of_lt (by omega)]
    refine Prod.ext ?_ ?_
    · change (cMf + esr * 2 ^ 32) / 2 ^ 0 % 2 ^ 32 = cMf
      omega
    · change (cMf + esr * 2 ^ 32) / 2 ^ 32 % 2 ^ 16 = esr
      omega
  · have hpwrV : v.refreshBudget.pwr = v.pwr := honlyB.part State.pwr fun _ _ => rfl
    rw [hbudget, State.budgetAt_congr (honlyB.part State.arch fun _ _ => rfl) hpwrV hkeptB, hpwrV]

/-- What a recomputation of the budget leaves (R358, R359). -/
theorem completes_budgetRecompute {s : State} (v : Nat) (hlive : s.Live) :
    Completes (.budgetRecompute v) s fun t =>
      t.pwr.vbank = v % 65536 ∧ t.fld Fld.pwrVolts_vbank 0 = v % 65536 ∧ t.rd .pwrBudget 0 = BitVec.ofNat 64 (t.budgetAt (v % 65536)) ∧
        (t.fld Fld.pwrStatus_bankLow 0 = 1 ↔ t.budgetAt (v % 65536) < 2 ^ 26) ∧
        (t.fld Fld.pwrStatus_deficit 0 = 1 ↔ t.budgetAt (v % 65536) < s.dirtyTotal) ∧ t.mem = s.mem ∧ t.fls = s.fls ∧ t.bankCE = s.bankCE ∧
        t.pwr.measured = s.pwr.measured := by
  refine .of_live (t := ((s.bankAt (v % 65536)).bankHours).refreshBudget) rfl hlive ?_
  obtain ⟨hkeptA, honlyA, hvoltsA, -⟩ := s.bankAt_spec (v % 65536)
  have hmeasuredA : (s.bankAt (v % 65536)).pwr.measured = s.pwr.measured := rfl
  have hceA : (s.bankAt (v % 65536)).bankCE = s.bankCE :=
    State.bankCE_congr hmeasuredA (hkeptA _ _ (by decide)) (hkeptA _ _ (by decide))
  generalize s.bankAt (v % 65536) = a at hkeptA honlyA hvoltsA hceA ⊢
  obtain ⟨hkeptH, honlyH, hceH⟩ := a.bankHours_spec
  generalize a.bankHours = u at hkeptH honlyH hceH ⊢
  obtain ⟨hkeptB, honlyB, hbudget, hlow, hdeficit, -, -⟩ := u.refreshBudget_spec
  have hpwr : u.refreshBudget.pwr = { s.pwr with vbank := v % 65536 } := by
    rw [honlyB.part State.pwr fun _ _ => rfl, congrArg State.pwr honlyH, congrArg State.pwr honlyA]
  have hpwrU : u.pwr = u.refreshBudget.pwr := (honlyB.part State.pwr fun _ _ => rfl).symm
  have hdirty : u.dirtyTotal = s.dirtyTotal := by rw [State.dirtyTotal, hpwrU, hpwr]; rfl
  have hat : ∀ b, u.budgetAt b = u.refreshBudget.budgetAt b := fun b =>
    (State.budgetAt_congr (honlyB.part State.arch fun _ _ => rfl) hpwrU.symm hkeptB b).symm
  have hvbank : u.pwr.vbank = v % 65536 := by rw [hpwrU, hpwr]
  rw [hat, hvbank] at hbudget hlow hdeficit
  rw [hdirty] at hdeficit
  refine ⟨by rw [hpwr], ?_, hbudget, hlow, hdeficit, ?_, ?_, ?_, by rw [hpwr]⟩
  · rw [hkeptB.fld _ _ (by decide), hkeptH.fld _ _ (by decide), hvoltsA]
    exact Nat.mod_mod ..
  · rw [honlyB.part State.mem fun _ _ => rfl, congrArg State.mem honlyH, congrArg State.mem honlyA]
  · rw [honlyB.part State.fls fun _ _ => rfl, congrArg State.fls honlyH, congrArg State.fls honlyA]
  · rw [State.bankCE_congr (congrArg Pwr.measured hpwrU.symm) (hkeptB _ _ (by decide)) (hkeptB _ _ (by decide)), hceH, hceA]

/-- Settles O9: a measurement's end and a recomputation both publish the budget of the C and ESR that `PWR_BANK` then holds. -/
theorem agedBankIsReportedAndStillCounts : Obligations.AgedBankIsReportedAndStillCounts := by
  unfold Obligations.AgedBankIsReportedAndStillCounts
  refine ⟨fun c esr tc s hlive h => ?_, fun v s hlive hmeasured => ?_⟩
  · obtain ⟨t, hexec, -, -, -, haged, hce, hbudget⟩ := completes_bankMeasurementEnd tc hlive h
    exact ⟨t, hexec, haged, hce, hbudget⟩
  · obtain ⟨t, hexec, hvbank, -, hbudget, -, -, -, -, hce, -⟩ := completes_budgetRecompute v hlive
    rw [← hvbank] at hbudget
    refine ⟨t, hexec, hce, ?_, hbudget⟩
    rw [hce, State.bankCE, if_pos hmeasured]

/-! #### When a measurement starts (R356) -/

/-- HU_EN rises and the charger stops, and nothing else of `PWR_STATUS` moves. -/
theorem State.bankStart_spec (s : State) :
    RegsKept [(.pwrStatus, 0)] s s.bankStart ∧ s.bankStart.fld Fld.pwrStatus_huEn 0 = 1 ∧ s.bankStart.fld Fld.pwrStatus_charging 0 = 0 ∧
      s.bankStart.pwrSt = s.pwrSt := by
  have hhu : s.bankStart.fld Fld.pwrStatus_huEn 0 = ((s.huEn true).setFld Fld.pwrStatus_charging 0 0).fld Fld.pwrStatus_huEn 0 := rfl
  have hcharging : s.bankStart.fld Fld.pwrStatus_charging 0 = ((s.huEn true).setFld Fld.pwrStatus_charging 0 0).fld Fld.pwrStatus_charging 0 := rfl
  have hst : s.bankStart.pwrSt = ((s.huEn true).setFld Fld.pwrStatus_charging 0 0).fld Fld.pwrStatus_state 0 := rfl
  refine ⟨?_, ?_, ?_, ?_⟩
  · exact RegsKept.setFld (RegsKept.setFld (.refl _ s) _ (by decide)) _ (by decide)
  · rw [hhu, State.fld_setFld_other _ _ _ _ _ _ (by decide) (by decide)]
    exact State.fld_setFld_same _ Fld.pwrStatus_huEn _ _ (by decide)
  · rw [hcharging]
    exact State.fld_setFld_same _ Fld.pwrStatus_charging _ _ (by decide)
  · rw [hst, State.fld_setFld_other _ _ _ _ _ _ (by decide) (by decide), State.huEn,
      State.fld_setFld_other _ _ _ _ _ _ (by decide) (by decide)]
    rfl

theorem exec_bankMeasure_due {s : State} (ca : Nat) {tc : Nat} (h : s.pwr.measuring = false) (hdue : s.bankDue tc = true) :
    exec (.bankMeasure ca tc) s = s.whenLive (if s.bankReady ca then s.bankStart else s.onPwr fun p => { p with asked := true, retries := 0 }) := by
  change execBankMeasure ca tc s = _
  rw [execBankMeasure, if_neg (by simp [h, hdue])]

/-- A retry that fails (R356). -/
def State.bankRetried (s : State) : State :=
  let t := s.onPwr fun p => { p with retries := s.pwr.retries + 1 }
  if s.pwr.retries + 1 = 6 then t.raise Evt.pwr_bankTestLate else t

theorem exec_bankMeasureRetry_asked {s : State} (ca tc : Nat) (h : s.pwr.measuring = false) (hasked : s.pwr.asked = true) :
    exec (.bankMeasureRetry ca tc) s = s.whenLive (if s.bankReady ca then s.bankStart else s.bankRetried) := by
  change execBankMeasureRetry ca tc s = _
  rw [execBankMeasureRetry, if_neg (by simp [h, hasked])]
  rfl

/-- Settles O51: a measurement starts, waits, ends, and the budget follows, each by the equation of its command. -/
theorem holdUpBank : Obligations.HoldUpBank := by
  unfold Obligations.HoldUpBank
  refine ⟨?starts, ?putOff, ?asked, ?retryStarts, ?retryFails, ?ends, ?budget⟩
  case starts =>
    rintro ca tc s hlive ⟨hidle, hdue, hready⟩
    obtain ⟨hkept, hhu, hcharging, hst⟩ := s.bankStart_spec
    refine .of_live (exec_bankMeasure_due ca hidle hdue) hlive ?_
    rw [hready]
    exact ⟨rfl, rfl, hhu, hcharging, hst, hkept, rfl⟩
  case putOff =>
    rintro ca tc s hlive ⟨hidle, hdue, hready⟩
    refine .of_live (exec_bankMeasure_due ca hidle hdue) hlive ?_
    rw [hready]
    rfl
  case asked =>
    rintro rq v s hopen ⟨hmodule, hbit⟩
    refine ⟨_, rfl, ?_⟩
    rw [hmodule, State.woWrite_of_writeOpen hopen]
    exact if_pos hbit
  case retryStarts =>
    rintro ca tc s hlive ⟨hidle, hasked, hready⟩
    obtain ⟨-, hhu, -⟩ := s.bankStart_spec
    refine .of_live (exec_bankMeasureRetry_asked ca tc hidle hasked) hlive ?_
    rw [hready]
    exact ⟨rfl, rfl, hhu⟩
  case retryFails =>
    rintro ca tc s hlive ⟨hidle, hasked, hready⟩
    refine .of_live (exec_bankMeasureRetry_asked ca tc hidle hasked) hlive ?_
    rw [hready, if_neg Bool.false_ne_true, State.bankRetried]
    refine ⟨?_, fun hlast => ?_, ?_⟩
    · split
      · exact State.raise_pwr ..
      · rfl
    · rw [if_pos (by omega)]
      exact State.bit_raise_same _ Evt.pwr_bankTestLate (by decide)
    · exact .ite (RegsKept.raise (t := s.onPwr fun p => { p with retries := s.pwr.retries + 1 }) (fun _ _ _ => rfl) (by decide)) (fun _ _ _ => rfl)
  case ends =>
    rintro cMf esr tc s hlive h
    obtain ⟨t, hexec, hbank, hhu, hpwr, haged, -⟩ := completes_bankMeasurementEnd tc hlive h
    exact ⟨t, hexec, hbank, hhu, by rw [hpwr], by rw [hpwr], by rw [hpwr], by rw [hpwr], haged⟩
  case budget =>
    rintro v s hlive
    obtain ⟨t, hexec, hvbank, hvolts, hbudget, hlow, hdeficit, hmem, hfls, -⟩ := completes_budgetRecompute v hlive
    exact ⟨t, hexec, hvbank, hvolts, hbudget, hlow, hdeficit, hmem, hfls⟩

end Sys2Proof.Machine

namespace Sys2Proof.Machine

/-! ### References (R12, R370) -/

theorem State.revalidate_spec (s : State) :
    s.revalidate.tim = s.tim ∧ s.revalidate.fld Fld.timStatus_source 0 = s.fld Fld.timStatus_source 0 ∧
      s.revalidate.rd .timEvt 0 = s.rd .timEvt 0 := by
  unfold State.revalidate
  split
  · exact ⟨rfl, State.fld_setFld_other _ _ _ _ _ _ (by decide) (by decide), State.rd_setFld_ne _ _ _ (by decide)⟩
  · exact ⟨rfl, rfl, rfl⟩

/-- The source is the one Table 17-8 picks; REF_LOST is set where the reference in use went, HOLDOVER where none is left (R12, R370). -/
theorem State.settleRef_spec (s : State) :
    s.settleRef.tim = s.tim ∧ s.settleRef.fld Fld.timStatus_source 0 = s.pickSource % 4 ∧
      ((s.fld Fld.timStatus_source 0 = 0 ∧ s.refA = false ∧ s.pickSource ≠ 0 ∨
          s.fld Fld.timStatus_source 0 = 1 ∧ s.refB = false ∧ s.pickSource ≠ 1) →
        bit (s.settleRef.rd .timEvt 0).toNat Evt.tim_refLost.bit = true) ∧
      (s.pickSource = 2 ∧ s.fld Fld.timStatus_source 0 ≠ 2 → bit (s.settleRef.rd .timEvt 0).toNat Evt.tim_holdover.bit = true) := by
  unfold State.settleRef
  extract_lets old new u v w
  obtain ⟨htim, hsource, hevt⟩ :=
    (w.onArch fun a => { a with timebaseHub := if w.refA then some 0 else if w.refB then some 3 else none }).revalidate_spec
  rw [htim, hsource, hevt]
  change w.tim = s.tim ∧ w.fld Fld.timStatus_source 0 = _ ∧ (_ → bit (w.rd Evt.tim_refLost.reg 0).toNat _ = true) ∧
    (_ → bit (w.rd Evt.tim_holdover.reg 0).toNat _ = true)
  have honlyV : RegsOnly s v := .ite (.raise (.setFld (.refl s) ..) _) (.setFld (.refl s) ..)
  have honlyW : RegsOnly s w := .ite (.raise honlyV _) honlyV
  refine ⟨honlyW.part State.tim fun _ _ => rfl, ?_, fun hlost => ?_, fun hholds => ?_⟩
  · rw [State.fld_raiseIf_ne _ _ _ (by decide), State.fld_raiseIf_ne _ _ _ (by decide)]
    exact State.fld_setFld_same _ _ _ _ (by decide)
  · refine State.bit_raiseIf_of_bit Evt.tim_holdover _ ?_
    have hset : (old = 0 && !u.refA && new ≠ 0) || (old = 1 && !u.refB && new ≠ 1) := by
      change (old = 0 && !s.refA && new ≠ 0) || (old = 1 && !s.refB && new ≠ 1)
      simpa [and_assoc] using hlost
    change bit ((if _ then _ else _ : State).rd _ _).toNat _ = true
    rw [if_pos hset]
    exact State.bit_raise_same u Evt.tim_refLost (by decide)
  · have hset : (new = 2 && old ≠ 2) = true := by simpa using hholds
    change bit ((if _ then _ else _ : State).rd _ _).toNat _ = true
    rw [if_pos hset]
    exact State.bit_raise_same v Evt.tim_holdover (by decide)

theorem State.pickSource_of_refA {s : State} (ha : s.refA = true) (hpref : s.fld Fld.timCfg_refPref 0 = 0 ∨ s.refB = false) : s.pickSource = 0 := by
  have hother : (s.fld Fld.timCfg_refPref 0 = 1 && s.refB) = false := by
    rcases hpref with h | h <;> simp [h]
  rw [State.pickSource, hother, if_neg Bool.false_ne_true, if_pos ha]

theorem State.pickSource_of_refB {s : State} (hb : s.refB = true) (hpref : s.fld Fld.timCfg_refPref 0 = 1 ∨ s.refA = false) : s.pickSource = 1 := by
  rw [State.pickSource, hb]
  rcases hpref with h | h <;> simp [h]

theorem State.pickSource_of_none {s : State} (ha : s.refA = false) (hb : s.refB = false) (hsource : s.fld Fld.timStatus_source 0 ≠ 3) :
    s.pickSource = 2 := by
  simp [State.pickSource, ha, hb, hsource]

/-! ### Discipline (R371) -/

/-- An offset to slew stands in `TIM_OFFSET`, and SLEWING says whether there is one. -/
theorem State.setOffset_spec (s : State) (off : Int) :
    (s.setOffset off).rd .timOffset 0 = BitVec.ofInt 64 off ∧ ((s.setOffset off).fld Fld.timStatus_slewing 0 = 1 ↔ off ≠ 0) ∧
      RegsKept [(.timOffset, 0), (.timStatus, 0)] s (s.setOffset off) ∧ s.setOffset off = { s with regs := (s.setOffset off).regs } := by
  unfold State.setOffset
  refine ⟨?_, ?_, .setFld (.wr (.refl _ s) _ (by decide)) _ (by decide), rfl⟩
  · rw [State.rd_setFld_ne _ _ _ (by decide)]
    exact State.rd_wr_same ..
  · rw [State.fld_setFld_same _ _ _ _ (by decide)]
    exact b2n_decide_eq_one

theorem State.discipline_slews {s : State} {off : Int} (h : off ≤ 1000000 ∨ s.noneResident = false ∨ s.fld Fld.timCfg_stepEn 0 = 0) :
    s.discipline off = s.setOffset off := by
  rw [State.discipline, if_neg]
  simp only [Bool.and_eq_true, decide_eq_true_iff]
  rintro ⟨⟨habove, hnone⟩, hstep⟩
  rcases h with h | h | h
  · omega
  · rw [h] at hnone
    contradiction
  · omega

/-! ### IEEE 1588 (R374) -/

/-- The registers that a choice of roles writes. -/
abbrev ptpRegs : List (Reg × Nat) := [(.timPtpStatus, 0), (.timStatus, 0), (.timEvt, 0)]

section
variable {s t : State} (htim : t.tim = s.tim) (hregs : RegsKept ptpRegs s t)
include hregs

theorem State.ptpOn_congr (q : Nat) : t.ptpOn q = s.ptpOn q := by
  rw [State.ptpOn, State.portSt, hregs.fld Fld.timPtpCfg_enable 0 (by decide), hregs.fld _ (20 + q) (by simp [Fld.lnkPortStatus_state]),
    hregs.fld _ (20 + q) (by simp [Fld.lnkPortStatus_features])]
  rfl

theorem State.ownClock_congr : t.ownClock = s.ownClock := by
  rw [State.ownClock, hregs.fld _ 0 (by decide), hregs.fld _ 0 (by decide)]
  rfl

include htim

theorem State.heard_congr : t.heard = s.heard := by
  funext q
  rw [State.heard, State.ptpOn_congr hregs, htim]
  rfl

theorem State.slavePort_congr : t.slavePort = s.slavePort := by
  rw [State.slavePort, State.heard_congr htim hregs, State.ownClock_congr hregs, hregs _ _ (by decide)]
  rfl

theorem State.ptpState_congr (q : Nat) : t.ptpState q = s.ptpState q := by
  rw [State.ptpState, State.ptpOn_congr hregs, State.slavePort_congr htim hregs, State.heard_congr htim hregs]
  rfl

end

theorem State.ptpState_lt (s : State) (q : Nat) : s.ptpState q < 16 := by
  unfold State.ptpState
  repeat' split
  all_goals omega

/-- clockClass of the slave's grandmaster, or of the own clock. -/
def State.ptpClass (s : State) : Nat :=
  match s.slavePort.bind s.heard with
  | some a => a.1.2.1
  | none => s.ownClock.2.1

theorem State.ptpRoles_spec (s : State) :
    RegsOnly s s.ptpRoles ∧ RegsKept ptpRegs s s.ptpRoles ∧ s.ptpRoles.fld Fld.timStatus_clockClass 0 = s.ptpClass % 256 ∧
      bits (s.ptpRoles.rd .timPtpStatus 0).toNat 0 4 = s.ptpState 0 ∧ bits (s.ptpRoles.rd .timPtpStatus 0).toNat 4 4 = s.ptpState 1 := by
  have hstatus : s.ptpRoles.rd .timPtpStatus 0 = BitVec.ofNat 64
      (s.ptpState 0 + s.ptpState 1 * 2 ^ 4 + s.ptpClass % 256 * 2 ^ 8 + bits (s.rd .timPtpStatus).toNat 16 32 * 2 ^ 16) := by
    unfold State.ptpRoles
    rw [State.rd_setFld_ne _ _ _ (by decide), State.rd_raiseIf_ne _ _ _ (by decide), State.rd_setFld_ne _ _ _ (by decide)]
    exact State.rd_wr_same ..
  refine ⟨?_, ?_, ?_, ?_, ?_⟩
  · exact .setFld (.ite (.raise (.setFld (.wr (.refl s) ..) ..) _) (.setFld (.wr (.refl s) ..) ..)) ..
  · have hpub : ∀ (v : Word) (n : Nat), RegsKept ptpRegs s ((s.wr .timPtpStatus 0 v).setFld Fld.timStatus_clockClass 0 n) :=
      fun v n => .setFld (.wr (.refl _ s) v (by decide)) n (by decide)
    exact .setFld (.ite (.raise (hpub _ _) (by decide)) (hpub _ _)) _ (by decide)
  · unfold State.ptpRoles
    rw [State.fld_setFld_other _ _ _ _ _ _ (by decide) (by decide), State.fld_raiseIf_ne _ _ _ (by decide),
      State.fld_setFld_same _ _ _ _ (by decide)]
    exact Nat.mod_mod ..
  all_goals
    have h0 := s.ptpState_lt 0
    have h1 := s.ptpState_lt 1
    have hold : bits (s.rd .timPtpStatus).toNat 16 32 < 2 ^ 32 := Nat.mod_lt _ (by decide)
    rw [hstatus, BitVec.toNat_ofNat, bits]
    omega

theorem exec_ptpMessage (q : Nat) (m : PtpMsg) (s : State) : exec (.ptpMessage q m) s = execPtpMessage q m s := rfl

/-! ### The error of node time (R372) -/

/-- `TIME_ERROR_LIMIT` past ±1 µs: TIME_VALID falls. -/
def State.timeInvalid (s : State) : State :=
  if s.fld Fld.timStatus_timeValid 0 = 1 then (s.setFld Fld.timStatus_timeValid 0 0).raise Evt.tim_validDrop else s

theorem exec_timeErrorLimit_past {e : Nat} (s : State) (h : 1000 < e) :
    exec (.timeErrorLimit e) s = s.whenLive (s.setFld Fld.timStatus_errorNs 0 (min e 65535)).timeInvalid := by
  change execTimeErrorLimit e s = _
  rw [execTimeErrorLimit, if_pos h]
  rfl

theorem State.timeInvalid_spec (s : State) :
    RegsKept [(.timStatus, 0), (.timEvt, 0)] s s.timeInvalid ∧ s.timeInvalid.fld Fld.timStatus_timeValid 0 = 0 ∧
      s.timeInvalid.fld Fld.timStatus_errorNs 0 = s.fld Fld.timStatus_errorNs 0 ∧
      (s.fld Fld.timStatus_timeValid 0 = 1 → bit (s.timeInvalid.rd .timEvt 0).toNat Evt.tim_validDrop.bit = true) := by
  unfold State.timeInvalid
  split
  next =>
    refine ⟨.raise (.setFld (.refl _ s) _ (by decide)) (by decide), ?_, ?_, fun _ => State.bit_raise_same _ Evt.tim_validDrop (by decide)⟩
    · rw [State.fld_of_rd (State.rd_raise_ne _ _ (by decide)), State.fld_setFld_same _ _ _ _ (by decide)]
      rfl
    · rw [State.fld_of_rd (State.rd_raise_ne _ _ (by decide)), State.fld_setFld_other _ _ _ _ _ _ (by decide) (by decide)]
  next hinvalid =>
    have hbound : s.fld Fld.timStatus_timeValid 0 < 2 := s.fld_lt _ _
    exact ⟨.refl _ s, by omega, rfl, fun h => absurd h hinvalid⟩

/-- Settles O53: each message by what it does to the registers of the timebase. -/
theorem timekeepingAndTimeMessages : Obligations.TimekeepingAndTimeMessages := by
  unfold Obligations.TimekeepingAndTimeMessages
  refine ⟨?reference, ?steps, ?slews, ?pps, ?frame, ?ptm, ?domain, ?announce, ?delay, ?interval, ?limit⟩
  case reference =>
    rintro a b s
    obtain ⟨htim, hsource, hlost, hholds⟩ := (s.onTim fun t => { t with lockA := a, lockB := b }).settleRef_spec
    generalize hu : (s.onTim fun t => { t with lockA := a, lockB := b }) = u at htim hsource hlost hholds
    have hrefA : u.refA = (a && s.hubUp 0) := hu ▸ rfl
    have hrefB : u.refB = (b && s.hubUp 3) := hu ▸ rfl
    have hfld : ∀ f, u.fld f 0 = s.fld f 0 := fun f => hu ▸ rfl
    refine ⟨u.settleRef, hu ▸ rfl, htim.trans (hu ▸ rfl), fun ha hhub hpref => ?_, fun hb hhub hpref => ?_, fun ha hb hold => ?_⟩
    · rw [hsource, State.pickSource_of_refA (by simp [hrefA, ha, hhub]) (by simpa [hfld, hrefB] using hpref.imp_right fun h => by simp [h])]
    · rw [hsource, State.pickSource_of_refB (by simp [hrefB, hb, hhub]) (by simpa [hfld, hrefA] using hpref.imp_right fun h => by simp [h])]
    · have hnoA : u.refA = false := by simp [hrefA, ha]
      have hnoB : u.refB = false := by simp [hrefB, hb]
      rw [← hfld] at hold
      have hpick := State.pickSource_of_none hnoA hnoB (by omega)
      refine ⟨by rw [hsource, hpick], hholds ⟨hpick, by omega⟩, hlost ?_⟩
      obtain h | h : u.fld Fld.timStatus_source 0 = 0 ∨ u.fld Fld.timStatus_source 0 = 1 := by omega
      · exact .inl ⟨h, hnoA, by omega⟩
      · exact .inr ⟨h, hnoB, by omega⟩
  case steps =>
    rintro off s hlive ⟨habove, hnone, hstep⟩
    have hsteps : s.discipline off = ((s.onTim fun t => { t with nodeOff := t.nodeOff + off }).setOffset 0).raise Evt.tim_step := by
      rw [State.discipline, if_pos (by simp [habove, hnone, hstep])]
    refine .of_live (t := s.discipline off) rfl hlive ?_
    obtain ⟨hoff, -⟩ := (s.onTim fun t => { t with nodeOff := t.nodeOff + off }).setOffset_spec 0
    rw [hsteps, State.raise_tim, State.raise_mem, State.rd_raise_ne _ _ (by decide), State.fld_of_rd (State.rd_raise_ne _ _ (by decide))]
    refine ⟨rfl, hoff, ?_, State.bit_raise_same _ Evt.tim_step (by decide), rfl⟩
    rw [State.setOffset, State.fld_setFld_same _ _ _ _ (by decide)]
    rfl
  case slews =>
    rintro off s hlive hslews
    refine .of_live (t := s.discipline off) rfl hlive ?_
    obtain ⟨hoff, hslewing, hkept, honly⟩ := s.setOffset_spec off
    rw [State.discipline_slews hslews]
    exact ⟨rfl, hoff, hslewing, hkept, honly⟩
  case pps =>
    rintro s hlive ⟨hen, hnear, hnew⟩
    refine .of_live rfl hlive ?_
    rw [if_pos (by simp [hen, hnear, hnew])]
    rfl
  case frame =>
    rintro p s hlive ⟨hp, hst, hfeature⟩
    refine .of_live rfl hlive ?_
    rw [if_pos (by simp [hp, hst, hfeature])]
    rfl
  case ptm =>
    rintro s hlive hup
    refine .of_live rfl hlive ?_
    rw [if_pos hup]
    rfl
  case domain =>
    rintro off s hlive ⟨hup, hvalid, hmaster, hsmall⟩
    have hexec : exec (.domainTimeExchange off) s = s.whenLive
        (((s.send (.domainTime s.nodeTime)).setFld Fld.timStatus_domainLocked 0 (b2n (decide (off.natAbs ≤ 50)))).discipline off) := by
      change execDomainTimeExchange off s = _
      rw [execDomainTimeExchange, hup, if_neg (by decide), if_neg (by omega), if_neg hmaster]
    refine .of_live hexec hlive ?_
    rw [State.discipline_slews (.inl hsmall)]
    obtain ⟨hoff, -, hkept, -⟩ :=
      ((s.send (.domainTime s.nodeTime)).setFld Fld.timStatus_domainLocked 0 (b2n (decide (off.natAbs ≤ 50)))).setOffset_spec off
    refine ⟨rfl, rfl, hoff, ?_, .trans (.setFld (fun _ _ _ => rfl) _ (by decide)) hkept⟩
    rw [State.setOffset, State.fld_setFld_other _ _ _ _ _ _ (by decide) (by decide), State.fld_of_rd (State.rd_wr_ne _ _ (by decide)),
      State.fld_setFld_same _ _ _ _ (by decide)]
    exact b2n_decide_eq_one
  case announce =>
    rintro q cls p1 p2 tr s hlive hon
    have hexec : exec (.ptpMessage q (.announce (s.fld Fld.timPtpCfg_domain 0) cls p1 p2 tr)) s =
        s.whenLive (s.onTim fun t => { t with announce := t.announce.put q (p1, cls, p2, tr) }).ptpRoles := by
      simp only [exec_ptpMessage, execPtpMessage, hon, Bool.not_true, Bool.false_eq_true, if_false, if_true]
    refine .of_live hexec hlive ?_
    obtain ⟨honly, hkept, -, h0, h1⟩ := (s.onTim fun t => { t with announce := t.announce.put q (p1, cls, p2, tr) }).ptpRoles_spec
    have htim := honly.part State.tim fun _ _ => rfl
    rw [State.ptpState_congr htim hkept, State.ptpState_congr htim hkept, htim]
    exact ⟨Tbl.look_put_same .., fun k hk => Tbl.look_put_ne _ _ hk, h0, h1, honly.part State.out fun _ _ => rfl,
      honly.part State.mem fun _ _ => rfl⟩
  case delay =>
    rintro q s hlive ⟨hon, hmaster⟩
    have hexec : exec (.ptpMessage q (.delayReq (s.fld Fld.timPtpCfg_domain 0))) s = s.whenLive (s.send (.ptp q 3 s.nodeTime 0 0 0)) := by
      simp [exec_ptpMessage, execPtpMessage, hon, hmaster]
    exact .of_live hexec hlive rfl
  case interval =>
    rintro q s hlive ⟨hon, hmaster, hnoSlave⟩
    obtain ⟨honly, hkept, hclass, -⟩ := s.ptpRoles_spec
    have htim := honly.part State.tim fun _ _ => rfl
    have hslave := (State.slavePort_congr htim hkept).trans hnoSlave
    have hexec : exec (.announceInterval q) s = s.whenLive (s.ptpRoles.sendAll
        [.ptp q 0 s.ptpRoles.nodeTime s.ptpRoles.ownClock.1 s.ptpRoles.ownClock.2.1 s.ptpRoles.ownClock.2.2, .ptp q 1 s.ptpRoles.nodeTime 0 0 0,
          .ptp q 2 s.ptpRoles.nodeTime 0 0 0]) := by
      change execAnnounceInterval q s = _
      simp only [execAnnounceInterval, State.ptpOn_congr hkept, State.ptpState_congr htim hkept, hon, hmaster, hslave, decide_true, Bool.and_self,
        if_true, Option.bind_none]
    refine .of_live hexec hlive ?_
    rw [State.ownClock_congr hkept, honly.part State.nodeTime fun _ _ => rfl]
    refine ⟨congrArg (· ++ _) (honly.part State.out fun _ _ => rfl), htim, hclass.trans ?_, honly.part State.mem fun _ _ => rfl⟩
    rw [State.ptpClass, hnoSlave]
    rfl
  case limit =>
    rintro e s hlive he
    obtain ⟨hkept, hvalid, herror, hevt⟩ := (s.setFld Fld.timStatus_errorNs 0 (min e 65535)).timeInvalid_spec
    refine .of_live (exec_timeErrorLimit_past s he) hlive ⟨hvalid, ?_, fun h => hevt ?_, .trans (.setFld (.refl _ s) _ (by decide)) hkept⟩
    · rw [herror, State.fld_setFld_same _ _ _ _ (by decide)]
      exact Nat.mod_eq_of_lt (by change _ < 65536; omega)
    · rw [State.fld_setFld_other _ _ _ _ _ _ (by decide) (by decide), h]

end Sys2Proof.Machine

namespace Sys2Proof.Machine

/-! ### What the supply and the resets act on (R361 to R367, R390)

Steps end, Passbooks are written and NAND operations are programmed while a flush goes on: none of that moves the power state, the freeze, the
waiting commands or a port. `State.supplyView` is what has to stay; each function of the model that a flush or a reset runs has one lemma, in
the order of the model's files. -/

/-- Registers of which the supply, the flush or a reset reads or writes a part. -/
def Reg.ofSupply : Reg → Bool
  | .pwrStatus | .pwrEvt | .pwrHoldCfg | .glbCore | .lnkPortStatus => true
  | _ => false

/-- What the supply, the flush and the resets act on: but for the dirty bytes and the flags of `PWR_STATUS` that follow them. -/
structure SupplyView where
  pending : List Instr
  frz : Frz
  held : Bool
  pwr : Pwr
  st : Nat
  huEn : Nat
  evt : Word
  holdCfg : Word
  core : Word
  ports : Nat → Word

def State.supplyView (s : State) : SupplyView where
  pending := s.pending
  frz := s.frz
  held := s.fls.held
  pwr := { s.pwr with dirty := .empty }
  st := s.pwrSt
  huEn := s.fld Fld.pwrStatus_huEn 0
  evt := s.rd .pwrEvt 0
  holdCfg := s.rd .pwrHoldCfg 0
  core := s.rd .glbCore 0
  ports := fun p => s.rd .lnkPortStatus p

theorem State.supplyView_of_rd {s t : State} (hpending : t.pending = s.pending) (hfrz : t.frz = s.frz) (hheld : t.fls.held = s.fls.held)
    (hpwr : { t.pwr with dirty := .empty } = { s.pwr with dirty := .empty }) (hst : t.pwrSt = s.pwrSt)
    (hhu : t.fld Fld.pwrStatus_huEn 0 = s.fld Fld.pwrStatus_huEn 0)
    (hrd : ∀ r i, Reg.ofSupply r = true → r ≠ .pwrStatus → t.rd r i = s.rd r i) : t.supplyView = s.supplyView := by
  simp only [State.supplyView, hpending, hfrz, hheld, hpwr, hst, hhu, hrd .pwrEvt 0 rfl (by decide), hrd .pwrHoldCfg 0 rfl (by decide),
    hrd .glbCore 0 rfl (by decide), funext fun p => hrd .lnkPortStatus p rfl (by decide)]

theorem State.wr_supplyView (s : State) {r : Reg} (i : Nat) (v : Word) (h : Reg.ofSupply r = false) : (s.wr r i v).supplyView = s.supplyView := by
  have hrd : ∀ q j, Reg.ofSupply q = true → (s.wr r i v).rd q j = s.rd q j := fun q j hq => State.rd_wr_ne _ _ (by grind)
  exact State.supplyView_of_rd rfl rfl rfl rfl (State.fld_of_rd (hrd .pwrStatus 0 rfl)) (State.fld_of_rd (hrd .pwrStatus 0 rfl))
    fun q j hq _ => hrd q j hq

theorem State.setFld_supplyView (s : State) {f : Fld} (i x : Nat) (h : Reg.ofSupply f.reg = false) :
    (s.setFld f i x).supplyView = s.supplyView :=
  State.wr_supplyView _ _ _ h

theorem State.count_supplyView (s : State) {r : Reg} (i n : Nat) (h : Reg.ofSupply r = false) : (s.count r i n).supplyView = s.supplyView :=
  State.wr_supplyView _ _ _ h

theorem State.countSat_supplyView (s : State) {f : Fld} (i n : Nat) (h : Reg.ofSupply f.reg = false) :
    (s.countSat f i n).supplyView = s.supplyView :=
  State.wr_supplyView _ _ _ h

theorem State.raise_supplyView (s : State) {e : Evt} (h : Reg.ofSupply e.reg = false) : (s.raise e).supplyView = s.supplyView := by
  have hrd : ∀ q j, Reg.ofSupply q = true → (s.raise e).rd q j = s.rd q j := fun q j hq => State.rd_raise_ne _ _ (by grind)
  exact State.supplyView_of_rd (by simp) (by simp) (by simp) (by simp) (State.fld_of_rd (hrd .pwrStatus 0 rfl))
    (State.fld_of_rd (hrd .pwrStatus 0 rfl)) fun q j hq _ => hrd q j hq

theorem State.send_supplyView (s : State) (o : Out) : (s.send o).supplyView = s.supplyView := rfl
theorem State.bump_supplyView (s : State) : s.bump.supplyView = s.supplyView := rfl
theorem State.putBytes_supplyView (s : State) (k : Nat) (bs : List Byte) : (s.putBytes k bs).supplyView = s.supplyView := rfl
theorem State.setClerk_supplyView (s : State) (c : Nat) (cl : Clerk) : (s.setClerk c cl).supplyView = s.supplyView := rfl
theorem State.onTlr_supplyView (s : State) (f : Tlr → Tlr) : (s.onTlr f).supplyView = s.supplyView := rfl
theorem State.onSsn_supplyView (s : State) (f : Ssn → Ssn) : (s.onSsn f).supplyView = s.supplyView := rfl
theorem State.onKva_supplyView (s : State) (f : Kva → Kva) : (s.onKva f).supplyView = s.supplyView := rfl
theorem State.onSch_supplyView (s : State) (f : Sch → Sch) : (s.onSch f).supplyView = s.supplyView := rfl
theorem State.onSec_supplyView (s : State) (f : Sec → Sec) : (s.onSec f).supplyView = s.supplyView := rfl
theorem State.onNmc_supplyView (s : State) (f : Nmc → Nmc) : (s.onNmc f).supplyView = s.supplyView := rfl
theorem State.onDfb_supplyView (s : State) (f : Dfb → Dfb) : (s.onDfb f).supplyView = s.supplyView := rfl
theorem State.onStm_supplyView (s : State) (f : Stm → Stm) : (s.onStm f).supplyView = s.supplyView := rfl
theorem State.onVsr_supplyView (s : State) (f : Vsr → Vsr) : (s.onVsr f).supplyView = s.supplyView := rfl

theorem State.onFls_supplyView (s : State) {f : Fls → Fls} (h : (f s.fls).held = s.fls.held) : (s.onFls f).supplyView = s.supplyView := by
  rw [State.supplyView, State.onFls, h]
  rfl

theorem State.foldl_supplyView {α : Type} {f : State → α → State} (hf : ∀ s x, (f s x).supplyView = s.supplyView) (l : List α) (s : State) :
    (l.foldl f s).supplyView = s.supplyView :=
  foldl_kept State.supplyView hf l s

theorem PgCount.reg_ofSupply (c : PgCount) : Reg.ofSupply c.reg = false := by
  cases c <;> rfl

theorem State.pair_supplyView {α : Type} {s t : State} (x : α) (h : t.supplyView = s.supplyView) : (t, x).1.supplyView = s.supplyView := h

/-- An operation that may have no result, and keeps the view where it has one. -/
def OptView {α : Type} (s : State) (r : Option (State × α)) : Prop := ∀ x, r = some x → x.1.supplyView = s.supplyView

theorem OptView.some {α : Type} {s t : State} {a : α} (h : t.supplyView = s.supplyView) : OptView s (Option.some (t, a)) := by
  rintro x ⟨⟩
  exact h

theorem OptView.none {α : Type} {s : State} : OptView s (Option.none : Option (State × α)) := by
  rintro x ⟨⟩

theorem State.onPwr_dirty_supplyView (s : State) (d : Tbl DirtySrc Nat) : (s.onPwr fun p => { p with dirty := d }).supplyView = s.supplyView := rfl

theorem State.setDirty_supplyView (s : State) (src : DirtySrc) (n : Nat) : (s.setDirty src n).supplyView = s.supplyView := by
  unfold State.setDirty
  extract_lets u d v w
  have hu : u.supplyView = s.supplyView := rfl
  have hv : v.supplyView = u.supplyView := State.wr_supplyView _ _ _ rfl
  have hw : w.supplyView = v.supplyView := by
    simp only [w]
    split
    · refine State.supplyView_of_rd rfl rfl rfl rfl ?_ ?_ fun r i _ hr => State.rd_wr_ne _ _ (by simp [Fld.pwrStatus_deficit, hr])
      all_goals exact State.fld_setFld_other _ _ _ _ _ _ (by decide) (by decide)
    · rfl
  split
  · rw [State.wr_supplyView _ _ _ rfl, hw, hv, hu]
  · rw [hw, hv, hu]

/-! #### Registers, signals and sessions -/

theorem State.updSignal_supplyView (s : State) (i : Nat) (f : Signal → Signal) : (s.updSignal i f).supplyView = s.supplyView := by
  unfold State.updSignal
  grind [State.onTlr_supplyView]

theorem State.updSession_supplyView (s : State) (i : Nat) (f : Session → Session) : (s.updSession i f).supplyView = s.supplyView := by
  unfold State.updSession
  grind [State.onSsn_supplyView]

/-! #### Job members (R253 to R259, R221, R266) -/

theorem State.updJob_supplyView (s : State) (j : Nat) (f : StmJob → StmJob) : (s.updJob j f).supplyView = s.supplyView := by
  unfold State.updJob
  grind [State.onStm_supplyView]

theorem State.publishJob_supplyView (s : State) (j : Nat) : (s.publishJob j).supplyView = s.supplyView := by
  unfold State.publishJob
  grind [State.wr_supplyView, Reg.ofSupply]

theorem State.dropStatement_supplyView (s : State) (j : Nat) : (s.dropStatement j).supplyView = s.supplyView := by
  unfold State.dropStatement
  grind [State.publishJob_supplyView, State.updJob_supplyView]

theorem State.dropOpened_supplyView (s : State) (c startedAt : Nat) : (s.dropOpened c startedAt).supplyView = s.supplyView := by
  unfold State.dropOpened
  grind [State.dropStatement_supplyView, State.foldl_supplyView]

/-! #### Clerks (R35 to R56) -/

theorem State.releaseHandle_supplyView (s : State) (h : Handle) : (s.releaseHandle h).supplyView = s.supplyView := by
  unfold State.releaseHandle
  grind [State.updSession_supplyView, State.updSignal_supplyView]

theorem State.holdHandle_supplyView (s : State) (h : Handle) : (s.holdHandle h).supplyView = s.supplyView := by
  unfold State.holdHandle
  grind [State.updSession_supplyView, State.updSignal_supplyView]

theorem State.setHandle_supplyView (s : State) (c i : Nat) (h : Handle) : (s.setHandle c i h).supplyView = s.supplyView := by
  unfold State.setHandle
  extract_lets old t n cl u
  have hu : u.supplyView = t.supplyView := State.setClerk_supplyView ..
  exact hu.trans ((State.releaseHandle_supplyView ..).trans (State.holdHandle_supplyView ..))

theorem State.consumeSlot_supplyView (s : State) (c k : Nat) : (s.consumeSlot c k).supplyView = s.supplyView := by
  unfold State.consumeSlot
  grind [State.setClerk_supplyView, State.count_supplyView, Reg.ofSupply]

theorem State.freeUnheldSignal_supplyView (s : State) (h : Handle) : (s.freeUnheldSignal h).supplyView = s.supplyView := by
  unfold State.freeUnheldSignal
  grind [State.updSession_supplyView, State.updSignal_supplyView]

theorem State.orphanSlot_supplyView (s : State) (c k : Nat) : (s.orphanSlot c k).supplyView = s.supplyView := by
  unfold State.orphanSlot
  grind [State.consumeSlot_supplyView, State.freeUnheldSignal_supplyView, State.setClerk_supplyView, State.count_supplyView, Reg.ofSupply]

theorem State.postResult_supplyView (s : State) (c k serial : Nat) (w0 w1 : Word) :
    (s.postResult c k serial w0 w1).supplyView = s.supplyView := by
  unfold State.postResult
  grind [State.setClerk_supplyView]

theorem State.postCancel_supplyView (s : State) (c k cause : Nat) : (s.postCancel c k cause).supplyView = s.supplyView := by
  unfold State.postCancel
  grind [State.setClerk_supplyView]

theorem State.trapRecord_supplyView (s : State) (c : Nat) (cls : TrapClass) (code : Nat) (pc : Word) (addr : Word) :
    (s.trapRecord c cls code pc addr).supplyView = s.supplyView := by
  unfold State.trapRecord
  grind [State.wr_supplyView, Reg.ofSupply]

theorem State.trace_supplyView (s : State) (hub source ctx : Nat) (ctxValid : Bool) (inst value : Nat) :
    (s.trace hub source ctx ctxValid inst value).supplyView = s.supplyView := by
  unfold State.trace
  extract_lets cfg ring
  split
  · split
    · rfl
    · exact (State.raise_supplyView _ rfl).trans (State.countSat_supplyView _ _ _ rfl)
  · rfl

theorem serveSignal_supplyView (ix fuel : Nat) (s : State) : (serveSignal ix fuel s).supplyView = s.supplyView := by
  induction fuel generalizing s with
  | zero => rfl
  | succ fuel ih =>
    unfold serveSignal
    grind [State.updSignal_supplyView, State.setClerk_supplyView]

theorem State.leaveSignals_supplyView (s : State) (c : Nat) : (s.leaveSignals c).supplyView = s.supplyView := by
  unfold State.leaveSignals
  grind [State.updSignal_supplyView, serveSignal_supplyView]

theorem State.endRun_supplyView (s : State) (c : Nat) (rec : RunRec) : (s.endRun c rec).supplyView = s.supplyView := by
  unfold State.endRun
  grind [State.dropOpened_supplyView, State.leaveSignals_supplyView, State.orphanSlot_supplyView, State.postCancel_supplyView,
    State.setHandle_supplyView, State.setClerk_supplyView, State.foldl_supplyView]

theorem State.trap_supplyView (s : State) (c : Nat) (cls : TrapClass) (code : Nat) (pc addr : Word) :
    (s.trap c cls code pc addr).supplyView = s.supplyView := by
  unfold State.trap
  grind [State.endRun_supplyView, State.trace_supplyView, State.trapRecord_supplyView, State.setClerk_supplyView]

theorem State.retire_supplyView (s : State) (c : Nat) (cl : Clerk) : (s.retire c cl).supplyView = s.supplyView := by rfl

/-! #### Memory under its codes (R20 to R22) -/

theorem State.poisonLine_supplyView (s : State) (cw : Nat) : (s.poisonLine cw).supplyView = s.supplyView := by rfl

theorem State.scramble_supplyView (s : State) (cw : Nat) : (s.scramble cw).supplyView = s.supplyView := by
  unfold State.scramble
  grind [State.bump_supplyView, State.putBytes_supplyView]

theorem State.readCw_supplyView (s : State) (cw : Nat) : (s.readCw cw).1.supplyView = s.supplyView := by
  unfold State.readCw
  grind [State.poisonLine_supplyView, State.scramble_supplyView, State.bump_supplyView]

theorem State.readCws_supplyView (s : State) (l : List Nat) : (s.readCws l).1.supplyView = s.supplyView := by
  induction l generalizing s with
  | nil => rfl
  | cons c l ih =>
    unfold State.readCws
    grind [State.readCw_supplyView]

theorem State.readMem_supplyView (s : State) (key n : Nat) : (s.readMem key n).1.supplyView = s.supplyView := by
  unfold State.readMem
  grind [State.readCws_supplyView]

theorem State.mendCw_supplyView (s : State) (cw : Nat) : (s.mendCw cw).supplyView = s.supplyView := by rfl

theorem State.writeMem_supplyView (s : State) (key : Nat) (bs : List Byte) : (s.writeMem key bs).1.supplyView = s.supplyView := by
  unfold State.writeMem
  grind [State.mendCw_supplyView, State.readCws_supplyView, State.putBytes_supplyView, State.foldl_supplyView]

theorem State.zeroRange_supplyView (s : State) (lo hi : Nat) : (s.zeroRange lo hi).supplyView = s.supplyView := rfl

/-! #### The data part of LD, ST and AMO (R206) -/

theorem State.memTrap_supplyView (s : State) (ix : Ix) (stack : Bool) (st : Status) : (s.memTrap ix stack st).supplyView = s.supplyView := by
  unfold State.memTrap
  grind [State.trap_supplyView]

theorem State.clerkMem_supplyView (s : State) (ix : Ix) (key : Nat) (stack : Bool) : (s.clerkMem ix key stack).supplyView = s.supplyView := by
  unfold State.clerkMem
  grind [State.memTrap_supplyView, State.readMem_supplyView, State.retire_supplyView, State.writeMem_supplyView]

theorem State.wakeMem_supplyView (s : State) (c key : Nat) : (s.wakeMem c key).supplyView = s.supplyView := by
  unfold State.wakeMem
  grind [State.clerkMem_supplyView, State.setClerk_supplyView]

/-! #### Node, fabric and Sinil ports -/

theorem State.setPort_supplyView (s : State) (p : Nat) (x : Port) : (s.setPort p x).supplyView = s.supplyView := by rfl

theorem State.updPort_supplyView (s : State) (p : Nat) (f : Port → Port) : (s.updPort p f).supplyView = s.supplyView := by
  unfold State.updPort
  grind [State.setPort_supplyView]

theorem State.dropFrames_supplyView (s : State) (p : Nat) : (s.dropFrames p).supplyView = s.supplyView := by
  unfold State.dropFrames
  grind [State.updPort_supplyView, State.wr_supplyView, State.foldl_supplyView, Reg.ofSupply]

theorem State.enqueue_supplyView (s : State) (p cls conn n : Nat) : (s.enqueue p cls conn n).supplyView = s.supplyView := by
  unfold State.enqueue
  grind [State.setPort_supplyView, State.count_supplyView, Reg.ofSupply]

theorem State.sendOn_supplyView (s : State) (p cls conn n : Nat) (o : Out) : (s.sendOn p cls conn n o).supplyView = s.supplyView := by
  unfold State.sendOn
  grind [State.enqueue_supplyView, State.send_supplyView]

/-! #### The flash pool -/

theorem State.setSb_supplyView (s : State) (i : Nat) (x : Sb) : (s.setSb i x).supplyView = s.supplyView := by
  unfold State.setSb
  grind [State.onFls_supplyView, State.wr_supplyView, State.setFld_supplyView, Reg.ofSupply, Fld.flsSbA_free, Fld.flsSbA_full,
    Fld.flsSbB_open, Fld.flsSbB_retired]

theorem State.refreshUrgent_supplyView (s : State) : s.refreshUrgent.supplyView = s.supplyView := by
  unfold State.refreshUrgent
  grind [State.setFld_supplyView, State.raise_supplyView, Reg.ofSupply, Evt.fls_gcUrgent, Fld.flsPoolStatus_gcUrgent]

theorem State.addDirty_supplyView (s : State) (src : DirtySrc) (n : Nat) : (s.addDirty src n).supplyView = s.supplyView := by
  unfold State.addDirty
  grind [State.setDirty_supplyView]

theorem State.setEntry_supplyView (s : State) (u : Nat) (e : Option MapEnt) : (s.setEntry u e).supplyView = s.supplyView := by
  unfold State.setEntry
  grind [State.setSb_supplyView, State.onFls_supplyView, State.wr_supplyView, Reg.ofSupply]

theorem State.journal_supplyView (s : State) (h : Nat) (r : JRec) : (s.journal h r).supplyView = s.supplyView := by
  unfold State.journal
  grind [State.addDirty_supplyView, State.onFls_supplyView]

theorem State.journalled_supplyView (s : State) (n : Nat) : (s.journalled n).supplyView = s.supplyView := by rfl

theorem State.placeUnit_supplyView (s : State) (slc : Bool) (x : Nat) (spread : Bool) (chan : Option Nat) (chans : List Nat) :
    (s.placeUnit slc x spread chan chans).1.supplyView = s.supplyView := by
  unfold State.placeUnit
  grind [State.setSb_supplyView, State.count_supplyView, Reg.ofSupply]

theorem State.newExtent_supplyView (s : State) (owner : Option Nat) (n : Nat) (spread : Bool) (chan : Option Nat) :
    (s.newExtent owner n spread chan).1.supplyView = s.supplyView := by
  unfold State.newExtent
  grind [State.onFls_supplyView, State.bump_supplyView]

theorem State.poolTo_supplyView (s : State) (st : Nat) : (s.poolTo st).supplyView = s.supplyView := by
  unfold State.poolTo
  grind [State.trace_supplyView, State.setFld_supplyView, Reg.ofSupply, Fld.flsPoolStatus_state]

theorem State.closePool_supplyView (s : State) : s.closePool.supplyView = s.supplyView := by
  unfold State.closePool
  grind [State.poolTo_supplyView, State.wr_supplyView, State.raise_supplyView, Reg.ofSupply, Evt.fls_poolClosed]

theorem State.reopenPool_supplyView (s : State) : s.reopenPool.supplyView = s.supplyView := by
  unfold State.reopenPool
  grind [State.poolTo_supplyView, State.wr_supplyView, Reg.ofSupply]

theorem State.flashPut_supplyView (s : State) (own : FlashOwner) (x first : Nat) (data : List (List Byte)) (till : Bool) :
    (s.flashPut own x first data till).1.supplyView = s.supplyView := by
  unfold State.flashPut
  grind [State.addDirty_supplyView, State.closePool_supplyView, State.onFls_supplyView, State.wr_supplyView, Reg.ofSupply]

theorem State.programWrite_supplyView (s : State) (w : FlashWr) (e : Extent) : (s.programWrite w e).supplyView = s.supplyView := by
  unfold State.programWrite
  grind [State.journalled_supplyView, State.placeUnit_supplyView, State.setEntry_supplyView, State.onFls_supplyView,
    State.count_supplyView, State.raise_supplyView, State.foldl_supplyView, Reg.ofSupply, Evt.fls_tillSpill]

theorem State.flashProgramDone_supplyView (s : State) (id : Nat) : (s.flashProgramDone id).1.supplyView = s.supplyView := by
  unfold State.flashProgramDone
  grind [State.programWrite_supplyView, State.refreshUrgent_supplyView, State.onFls_supplyView, State.send_supplyView]

theorem State.journalOut_supplyView (s : State) (h : Nat) : (s.journalOut h).supplyView = s.supplyView := by
  unfold State.journalOut
  grind [State.journalled_supplyView, State.onFls_supplyView, State.setDirty_supplyView]

theorem State.relocate_supplyView (s : State) (u : Nat) (slc : Bool) : (s.relocate u slc).supplyView = s.supplyView := by
  unfold State.relocate
  grind [State.journalled_supplyView, State.placeUnit_supplyView, State.setEntry_supplyView]

theorem State.eraseSb_supplyView (s : State) (i : Nat) : (s.eraseSb i).supplyView = s.supplyView := by
  unfold State.eraseSb
  grind [State.refreshUrgent_supplyView, State.setSb_supplyView]

theorem State.refreshSb_supplyView (s : State) (i : Nat) (slc : Bool) : (s.refreshSb i slc).supplyView = s.supplyView := by
  unfold State.refreshSb
  grind [State.eraseSb_supplyView, State.relocate_supplyView, State.foldl_supplyView]

theorem State.discardUnits_supplyView (s : State) (us : List Nat) : (s.discardUnits us).supplyView = s.supplyView := by
  unfold State.discardUnits
  grind [State.journal_supplyView, State.reopenPool_supplyView, State.setEntry_supplyView, State.onFls_supplyView, State.foldl_supplyView]

theorem State.finishSdisc_supplyView (s : State) : s.finishSdisc.supplyView = s.supplyView := by
  unfold State.finishSdisc
  grind [State.refreshSb_supplyView, State.onFls_supplyView, State.wr_supplyView, State.raise_supplyView, State.foldl_supplyView,
    Reg.ofSupply, Evt.fls_sdiscDone]

/-! #### The KV page pool (R68, R79, R80) -/

theorem State.pgMoveN_supplyView (s : State) (m : Nat) (a b : PgCount) (n : Nat) : (s.pgMoveN m a b n).supplyView = s.supplyView := by
  unfold State.pgMoveN
  grind [State.wr_supplyView, PgCount.reg_ofSupply]

theorem State.pgMove_supplyView (s : State) (m : Nat) (a b : PgCount) : (s.pgMove m a b).supplyView = s.supplyView := by
  unfold State.pgMove
  grind [State.pgMoveN_supplyView]

theorem State.freeFrame_supplyView (s : State) (m f : Nat) (c : PgCount) : (s.freeFrame m f c).supplyView = s.supplyView := by
  unfold State.freeFrame
  grind [State.pgMove_supplyView, State.onSsn_supplyView, State.wr_supplyView, Reg.ofSupply, PgCount.reg_ofSupply]

theorem State.handBack_supplyView (s : State) (n : Nat) : (s.handBack n).supplyView = s.supplyView := by
  unfold State.handBack
  grind [State.onSsn_supplyView, State.wr_supplyView, State.foldl_supplyView, Reg.ofSupply]

theorem State.markPages_supplyView (s : State) (i : Nat) (p : KvPage → Bool) (u : PgUse) : (s.markPages i p u).supplyView = s.supplyView := by
  unfold State.markPages
  grind [State.pgMove_supplyView, State.updSession_supplyView, State.foldl_supplyView]

theorem State.dropPages_supplyView (s : State) (i : Nat) (p : KvPage → Bool) : (s.dropPages i p).supplyView = s.supplyView := by
  unfold State.dropPages
  grind [State.freeFrame_supplyView, State.updSession_supplyView, State.foldl_supplyView]

/-! #### Which memory an offset names (R41, R42, R63, R424) -/

theorem State.sendCfPage_supplyView (s : State) (j page : Nat) (data : List Byte) : (s.sendCfPage j page data).supplyView = s.supplyView := by
  unfold State.sendCfPage
  grind [State.send_supplyView]

theorem State.copyPage_supplyView (s : State) (j h k : Nat) : (s.copyPage j h k).supplyView = s.supplyView := by
  have hread := fun key => s.readMem_supplyView key 65536
  unfold State.copyPage
  generalize s.readMem = read at hread ⊢
  split
  · rfl
  · split
    · split
      · rfl
      · split
        · rfl
        · split
          · rfl
          · extract_lets r data t sh' bad v' u w
            have hr : r.1.supplyView = s.supplyView := by
              simp only [r]
              split
              · exact hread _
              · rfl
            have ht : t.supplyView = s.supplyView := (State.writeMem_supplyView ..).trans hr
            clear_value t data
            have hu : u.supplyView = s.supplyView := (State.publishJob_supplyView ..).trans ((State.updJob_supplyView ..).trans ht)
            have hw : w.supplyView = s.supplyView := by
              simp only [w]
              split
              · exact hu
              · exact (State.raise_supplyView _ rfl).trans hu
            split
            · exact hw
            · exact (State.sendCfPage_supplyView ..).trans hw
    · rfl

theorem State.copyFirst_supplyView (s : State) (key n : Nat) : (s.copyFirst key n).supplyView = s.supplyView := by
  unfold State.copyFirst
  extract_lets ps
  split
  · rfl
  · rw [State.foldl_supplyView fun t p => by exact t.copyPage_supplyView .., State.count_supplyView _ _ _ rfl]

theorem State.writePriv_supplyView (s : State) (c n a : Nat) (bs : List Byte) : OptView s (s.writePriv c n a bs) := by
  unfold State.writePriv
  split
  · refine foldl_inv (P := OptView s) (fun r x hr => ?_) (OptView.some rfl) _
    grind [State.writeMem_supplyView, State.copyFirst_supplyView, OptView]
  · exact OptView.none

/-! #### The node shared window (R268 to R291) -/

theorem State.addRegion_supplyView (s : State) (i : Nat) (r : Region) : (s.addRegion i r).supplyView = s.supplyView := by
  unfold State.addRegion
  grind [State.zeroRange_supplyView, State.onNmc_supplyView, State.wr_supplyView, Reg.ofSupply]

theorem State.countXfer_supplyView (s : State) (a rd wr : Nat) : (s.countXfer a rd wr).supplyView = s.supplyView := by
  unfold State.countXfer
  grind [State.onNmc_supplyView, State.wr_supplyView, Reg.ofSupply]

theorem State.mrs_supplyView (s : State) (p tag hold status : Nat) (data : List Byte) :
    (s.mrs p tag hold status data).supplyView = s.supplyView := by
  unfold State.mrs
  grind [State.sendOn_supplyView, State.onNmc_supplyView]

theorem State.nmcRefuse_supplyView (s : State) (q : NReq) : (s.nmcRefuse q).supplyView = s.supplyView := by
  unfold State.nmcRefuse
  grind [State.mrs_supplyView, State.trap_supplyView, State.send_supplyView, State.setClerk_supplyView, State.raise_supplyView,
    Reg.ofSupply, Evt.nmc_accessRefused]

theorem State.writeMasked_supplyView (s : State) (key mask : Nat) (data : List Byte) :
    (s.writeMasked key mask data).1.supplyView = s.supplyView := by
  unfold State.writeMasked
  grind [State.readCw_supplyView, State.writeMem_supplyView, State.putBytes_supplyView]

theorem State.setDir_supplyView (s : State) (line : Nat) (e : DirEnt) : (s.setDir line e).supplyView = s.supplyView := by rfl

theorem State.sendRecall_supplyView (s : State) (line a : Nat) (downgrade : Bool) :
    (s.sendRecall line a downgrade).supplyView = s.supplyView := by
  unfold State.sendRecall
  grind [State.sendOn_supplyView, State.onNmc_supplyView, State.send_supplyView, State.count_supplyView, Reg.ofSupply]

theorem State.recallFrom_supplyView (s : State) (line : Nat) (as_ : List Nat) (downgrade : Bool) :
    (s.recallFrom line as_ downgrade).supplyView = s.supplyView := by
  unfold State.recallFrom
  grind [State.sendRecall_supplyView, State.onNmc_supplyView, State.foldl_supplyView]

theorem State.park_supplyView (s : State) (line : Nat) (q : NReq) : (s.park line q).supplyView = s.supplyView := by rfl

theorem State.dirAfter_supplyView (s : State) (q : NReq) (granted : Bool) : (s.dirAfter q granted).supplyView = s.supplyView := by
  unfold State.dirAfter
  grind [State.setDir_supplyView, State.onNmc_supplyView]

theorem State.holdWrite_supplyView (s : State) (page : Nat) (w : HoldWho) : (s.holdWrite page w).supplyView = s.supplyView := by
  unfold State.holdWrite
  grind [State.onStm_supplyView, State.count_supplyView, Reg.ofSupply]

theorem State.nmcDo_supplyView (s : State) (q : NReq) : (s.nmcDo q).supplyView = s.supplyView := by
  unfold State.nmcDo
  grind [State.countXfer_supplyView, State.dirAfter_supplyView, State.mrs_supplyView, State.readMem_supplyView, State.wakeMem_supplyView,
    State.writeMasked_supplyView, State.writeMem_supplyView, State.send_supplyView]

theorem State.nmcPerform_supplyView (s : State) (q : NReq) : (s.nmcPerform q).supplyView = s.supplyView := by
  unfold State.nmcPerform
  grind [State.holdWrite_supplyView, State.nmcDo_supplyView]

theorem State.resolvePx_supplyView (s : State) (line : Nat) : (s.resolvePx line).supplyView = s.supplyView := by
  unfold State.resolvePx
  grind [State.poisonLine_supplyView, State.onNmc_supplyView]

theorem State.touch_supplyView (s : State) (off : Nat) : (s.touch off).supplyView = s.supplyView := by
  unfold State.touch
  grind [State.onNmc_supplyView]

theorem State.nmcServe_supplyView (s : State) (q : NReq) : (s.nmcServe q).supplyView = s.supplyView := by
  unfold State.nmcServe
  split
  · exact State.nmcRefuse_supplyView ..
  · extract_lets t gran line u
    have ht : t.supplyView = s.supplyView := State.touch_supplyView ..
    have hu : u.supplyView = s.supplyView := (State.resolvePx_supplyView ..).trans ht
    clear_value t gran u
    split
    · exact ht
    · split
      · exact (State.onNmc_supplyView ..).trans ht
      · split
        · exact (State.park_supplyView ..).trans ht
        · split
          · exact (State.nmcPerform_supplyView ..).trans hu
          · exact (State.park_supplyView ..).trans ((State.recallFrom_supplyView ..).trans hu)
          · extract_lets w
            have hw : w.supplyView = s.supplyView := (State.park_supplyView ..).trans hu
            split
            · exact hw
            · split
              · exact hw
              · exact (State.raise_supplyView _ rfl).trans ((State.recallFrom_supplyView ..).trans hw)

theorem State.endRegion_supplyView (s : State) (i : Nat) : (s.endRegion i).supplyView = s.supplyView := by
  unfold State.endRegion
  grind [State.discardUnits_supplyView, State.handBack_supplyView, State.onSch_supplyView, State.onNmc_supplyView, State.onFls_supplyView,
    State.wr_supplyView, Reg.ofSupply]

theorem State.endRegions_supplyView (s : State) : s.endRegions.supplyView = s.supplyView := by
  unfold State.endRegions
  grind [State.endRegion_supplyView, State.foldl_supplyView]

theorem State.dirResume_supplyView (s : State) (line : Nat) : (s.dirResume line).supplyView = s.supplyView := by
  unfold State.dirResume
  grind [State.endRegions_supplyView, State.nmcServe_supplyView, State.setDir_supplyView, State.onNmc_supplyView, State.foldl_supplyView]

theorem State.deleteRegion_supplyView (s : State) (i : Nat) : (s.deleteRegion i).supplyView = s.supplyView := by
  unfold State.deleteRegion
  grind [State.endRegion_supplyView, State.nmcServe_supplyView, State.recallFrom_supplyView, State.onNmc_supplyView, State.foldl_supplyView]

theorem drainOrdered_supplyView (fuel : Nat) (s : State) : (drainOrdered fuel s).supplyView = s.supplyView := by
  induction fuel generalizing s with
  | zero => rfl
  | succ fuel ih =>
    unfold drainOrdered
    grind [State.nmcServe_supplyView, State.onNmc_supplyView]

theorem State.addShard_supplyView (s : State) (j : Nat) (r : Rcpt) (h : Shard) : (s.addShard j r h).supplyView = s.supplyView := by
  unfold State.addShard
  grind [State.postResult_supplyView, State.publishJob_supplyView, State.updJob_supplyView]

theorem State.settleAdds_supplyView (s : State) : s.settleAdds.supplyView = s.supplyView := by
  unfold State.settleAdds
  grind [State.addShard_supplyView, State.recallFrom_supplyView, State.resolvePx_supplyView, State.foldl_supplyView]

theorem State.settleNmc_supplyView (s : State) : s.settleNmc.supplyView = s.supplyView := by
  unfold State.settleNmc
  grind [State.settleAdds_supplyView, drainOrdered_supplyView]

theorem State.failAgent_supplyView (s : State) (a : Nat) : (s.failAgent a).supplyView = s.supplyView := by
  unfold State.failAgent
  grind [State.dirResume_supplyView, State.settleNmc_supplyView, State.onNmc_supplyView, State.count_supplyView, State.setFld_supplyView,
    State.raise_supplyView, State.foldl_supplyView, Reg.ofSupply, Evt.nmc_agentFailed, Fld.nmcAgentStatus_held, Fld.nmcAgentStatus_state]

theorem State.granuleParked_supplyView (s : State) (region g extent : Nat) : (s.granuleParked region g extent).supplyView = s.supplyView := by
  unfold State.granuleParked
  grind [State.zeroRange_supplyView, State.onNmc_supplyView]

/-! #### The domain fabric (R292 to R305) -/

theorem State.appendLog_supplyView (s : State) (c : MapChange) : (s.appendLog c).supplyView = s.supplyView := by rfl

theorem State.escDone_supplyView (s : State) (key status word1 : Nat) : (s.escDone key status word1).supplyView = s.supplyView := by
  unfold State.escDone
  grind [State.postResult_supplyView, State.onDfb_supplyView]

theorem State.leaderTake_supplyView (s : State) (c : MapChange) : (s.leaderTake c).supplyView = s.supplyView := by
  unfold State.leaderTake
  grind [State.appendLog_supplyView, State.escDone_supplyView, State.send_supplyView]

theorem State.propose_supplyView (s : State) (c : MapChange) : (s.propose c).supplyView = s.supplyView := by
  unfold State.propose
  grind [State.leaderTake_supplyView, State.send_supplyView]

/-! #### Long instructions at issue (R209) -/

theorem State.finishR_supplyView (s : State) (r : Rcpt) (st : Status) (aux : Nat) (w1 : Word) :
    (s.finishR r st aux w1).supplyView = s.supplyView := by
  unfold State.finishR
  grind [State.postResult_supplyView]

theorem State.abortR_supplyView (s : State) (r : Rcpt) (cause : Nat) : (s.abortR r cause).supplyView = s.supplyView := by
  unfold State.abortR
  grind [State.finishR_supplyView]

/-! #### The Ledger (R136 to R139, R219) -/

theorem State.updCust_supplyView (s : State) (c : Nat) (f : Customer → Customer) : (s.updCust c f).supplyView = s.supplyView := by
  unfold State.updCust
  grind [State.addDirty_supplyView, State.onSch_supplyView]

theorem State.chargeRent_supplyView (s : State) (c : Nat) : (s.chargeRent c).supplyView = s.supplyView := by
  unfold State.chargeRent
  grind [State.updCust_supplyView, State.raise_supplyView, Reg.ofSupply, Evt.sch_rentDebt]

/-! #### The session store (R58 to R85) -/

theorem State.endRequest_supplyView (s : State) (i code : Nat) (st : Status) (aux : Nat) (w1 : Word) :
    (s.endRequest i code st aux w1).supplyView = s.supplyView := by
  unfold State.endRequest
  grind [State.finishR_supplyView, State.updCust_supplyView, State.updSession_supplyView, State.onSch_supplyView]

theorem State.dropExtent_supplyView (s : State) (e : Nat) : (s.dropExtent e).supplyView = s.supplyView := by
  unfold State.dropExtent
  grind [State.discardUnits_supplyView, State.onFls_supplyView]

theorem State.leaveStep_supplyView (s : State) (i status : Nat) : (s.leaveStep i status).supplyView = s.supplyView := by
  unfold State.leaveStep
  grind [State.dropPages_supplyView, State.updCust_supplyView, State.updSession_supplyView, State.onSch_supplyView, State.foldl_supplyView]

theorem State.sweepTables_supplyView (s : State) : s.sweepTables.supplyView = s.supplyView := by
  unfold State.sweepTables
  extract_lets named t ident vgone ggone u v kib
  have hu : u.supplyView = t.supplyView := foldl_kept State.supplyView (fun w k => by exact State.wr_supplyView _ _ _ rfl) ..
  have hv : v.supplyView = u.supplyView := foldl_kept State.supplyView (fun w k => by exact State.wr_supplyView _ _ _ rfl) ..
  exact (foldl_kept State.supplyView (fun _ _ => State.wr_supplyView _ _ _ rfl) ..).trans (hv.trans hu)

theorem State.freeSession_supplyView (s : State) (i : Nat) : (s.freeSession i).supplyView = s.supplyView := by
  unfold State.freeSession
  grind [State.dropExtent_supplyView, State.dropPages_supplyView, State.leaveStep_supplyView, State.sweepTables_supplyView,
    State.zeroRange_supplyView, State.onSsn_supplyView, State.onDfb_supplyView, State.setDirty_supplyView, State.foldl_supplyView]

theorem State.pageData_supplyView (s : State) (ps : List KvPage) : (s.pageData ps).1.supplyView = s.supplyView := by
  unfold State.pageData
  refine foldl_kept (fun a : State × Option (List (List Byte)) => a.1.supplyView) (fun a q => ?_) ps (s, some [])
  have hr := a.1.readMem_supplyView q.key 65536
  cases a.2 with
  | none => rfl
  | some l => exact State.pair_supplyView _ hr

theorem State.allPieces_supplyView (s : State) (x : Session) : (s.allPieces x).1.supplyView = s.supplyView := by
  unfold State.allPieces
  grind [State.pageData_supplyView]

theorem State.startPlace_supplyView (s : State) (i t : Nat) : (s.startPlace i t).1.supplyView = s.supplyView := by
  unfold State.startPlace
  split
  · rfl
  next x _ =>
    extract_lets t set r
    have ht : t.supplyView = s.supplyView := State.chargeRent_supplyView ..
    have hset : ∀ u p, (set u p).supplyView = u.supplyView := fun _ _ => State.updSession_supplyView ..
    have hr : r.1.supplyView = t.supplyView := State.allPieces_supplyView ..
    clear_value t set r
    grind [State.markPages_supplyView, State.send_supplyView, State.bump_supplyView, State.newExtent_supplyView, State.flashPut_supplyView,
      State.dropExtent_supplyView]

theorem State.undoPlace_supplyView (s : State) (i : Nat) : (s.undoPlace i).supplyView = s.supplyView := by
  unfold State.undoPlace
  grind [State.dropExtent_supplyView, State.markPages_supplyView, State.updSession_supplyView]

theorem State.dropGrant_supplyView (s : State) (i : Nat) : (s.dropGrant i).supplyView = s.supplyView := by rfl

theorem State.addGrant_supplyView (s : State) (i peer pages : Nat) : (s.addGrant i peer pages).supplyView = s.supplyView := by rfl

theorem State.commitPlace_supplyView (s : State) (i : Nat) : (s.commitPlace i).supplyView = s.supplyView := by
  unfold State.commitPlace
  split
  · rfl
  · split
    · rfl
    · extract_lets t dropOld pieces
      have ht : t.supplyView = s.supplyView := State.chargeRent_supplyView ..
      have hdrop : ∀ u, (dropOld u).supplyView = u.supplyView := by
        grind [State.dropExtent_supplyView]
      clear_value t dropOld
      split
      all_goals grind [State.updSession_supplyView, State.dropGrant_supplyView, State.addGrant_supplyView, State.markPages_supplyView,
        State.dropPages_supplyView]

theorem State.cancelRevive_supplyView (s : State) (i : Nat) : (s.cancelRevive i).supplyView = s.supplyView := by
  unfold State.cancelRevive
  grind [State.dropPages_supplyView, State.markPages_supplyView, State.updSession_supplyView]

theorem State.losePages_supplyView (s : State) (i : Nat) (lost : KvPage → Bool) : (s.losePages i lost).supplyView = s.supplyView := by
  unfold State.losePages
  grind [State.abortR_supplyView, State.dropPages_supplyView, State.leaveStep_supplyView, State.undoPlace_supplyView,
    State.updSession_supplyView, State.send_supplyView]

/-! #### Commands of the session store -/

theorem State.dropMove_supplyView (s : State) (i : Nat) : (s.dropMove i).supplyView = s.supplyView := by
  unfold State.dropMove
  grind [State.abortR_supplyView, State.updSession_supplyView]

theorem State.finishDiscard_supplyView (s : State) (i : Nat) : (s.finishDiscard i).supplyView = s.supplyView := by
  unfold State.finishDiscard
  grind [State.endRequest_supplyView, State.finishR_supplyView, State.freeSession_supplyView]

theorem State.pbExtents_supplyView (s : State) (i : Nat) (x : Session) : (s.pbExtents i x).1.supplyView = s.supplyView := by
  unfold State.pbExtents
  extract_lets chans r
  have hr : r.1.supplyView = s.supplyView := by
    refine foldl_kept (fun a : State × List Nat => a.1.supplyView) (fun a c => ?_) chans (s, [])
    grind [State.newExtent_supplyView]
  clear_value r
  grind [State.updSession_supplyView]

theorem State.pbWrite_supplyView (s : State) (i : Nat) (all : Bool) : (s.pbWrite i all).supplyView = s.supplyView := by
  unfold State.pbWrite
  split
  · rfl
  · extract_lets upTo r first pages data w one t
    have hw : w.1.supplyView = r.1.supplyView := by
      refine foldl_kept (fun a : State × Nat => a.1.supplyView) (fun a e => ?_) r.2 (r.1, 0)
      grind [State.flashPut_supplyView]
    have hr : r.1.supplyView = s.supplyView := State.pbExtents_supplyView ..
    clear_value r w
    grind [State.updSession_supplyView, State.raise_supplyView, Reg.ofSupply, Evt.ssn_pbSingle]

theorem State.pbProgrammed_supplyView (s : State) (i : Nat) : (s.pbProgrammed i).supplyView = s.supplyView := by
  unfold State.pbProgrammed
  grind [State.updSession_supplyView, State.setDirty_supplyView]

theorem State.parkProgrammed_supplyView (s : State) (i : Nat) : (s.parkProgrammed i).supplyView = s.supplyView := by rfl

theorem State.dropClean_supplyView (s : State) (i : Nat) : (s.dropClean i).supplyView = s.supplyView := by
  unfold State.dropClean
  grind [State.dropPages_supplyView, State.updSession_supplyView]

theorem State.phasePark_supplyView (s : State) (i : Nat) : (s.phasePark i).supplyView = s.supplyView := by
  unfold State.phasePark
  grind [State.cancelRevive_supplyView, State.chargeRent_supplyView, State.dropMove_supplyView, State.updSession_supplyView]

theorem State.phaseAdvance_supplyView (s : State) : s.phaseAdvance.supplyView = s.supplyView := by
  unfold State.phaseAdvance
  grind [State.dropClean_supplyView, State.losePages_supplyView, State.phasePark_supplyView, State.startPlace_supplyView,
    State.foldl_supplyView]

/-! #### Steps in flight (R119 to R130) -/

theorem State.setGroup_supplyView (s : State) (g : Nat) (x : Group) : (s.setGroup g x).supplyView = s.supplyView := by rfl

theorem State.publishGroup_supplyView (s : State) (g : Nat) : (s.publishGroup g).supplyView = s.supplyView := by
  unfold State.publishGroup
  grind [State.wr_supplyView, Reg.ofSupply]

theorem State.updStep_supplyView (s : State) (n : Nat) (f : Step → Step) : (s.updStep n f).supplyView = s.supplyView := by
  unfold State.updStep
  grind [State.onSch_supplyView]

theorem State.sendGroup_supplyView (s : State) (g n : Nat) (o : Out) : (s.sendGroup g n o).supplyView = s.supplyView := by
  unfold State.sendGroup
  grind [State.enqueue_supplyView, State.send_supplyView, State.foldl_supplyView]

theorem State.sendPart_supplyView (s : State) (n k : Nat) : (s.sendPart n k).supplyView = s.supplyView := by
  unfold State.sendPart
  grind [State.sendGroup_supplyView, State.updStep_supplyView, State.foldl_supplyView]

theorem State.settlePages_supplyView (s : State) (i l : Nat) : (s.settlePages i l).supplyView = s.supplyView := by
  unfold State.settlePages
  grind [State.dropPages_supplyView, State.markPages_supplyView, State.updSession_supplyView]

theorem State.unwrite_supplyView (s : State) (i l : Nat) : (s.unwrite i l).supplyView = s.supplyView := by rfl

theorem State.finishCancels_supplyView (s : State) (i : Nat) : (s.finishCancels i).supplyView = s.supplyView := by
  unfold State.finishCancels
  grind [State.finishDiscard_supplyView, State.finishR_supplyView, State.foldl_supplyView]

theorem State.displace_supplyView (s : State) (n k l status : Nat) : (s.displace n k l status).supplyView = s.supplyView := by
  unfold State.displace
  grind [State.settlePages_supplyView, State.unwrite_supplyView, State.updCust_supplyView, State.updSession_supplyView,
    State.updStep_supplyView]

theorem State.boundary_supplyView (s : State) (n l : Nat) : (s.boundary n l).supplyView = s.supplyView := by
  unfold State.boundary
  grind [State.displace_supplyView, State.endRequest_supplyView, State.finishCancels_supplyView, State.updStep_supplyView,
    State.foldl_supplyView]

theorem State.nextPart_supplyView (s : State) (n k : Nat) : (s.nextPart n k).supplyView = s.supplyView := by
  unfold State.nextPart
  grind [State.boundary_supplyView, State.sendPart_supplyView, State.updStep_supplyView]

/-! #### Attention beside memory (R95 to R102) -/

theorem State.updAttn_supplyView (s : State) (n : Nat) (f : AttnOp → AttnOp) : (s.updAttn n f).supplyView = s.supplyView := by
  unfold State.updAttn
  grind [State.onKva_supplyView]

theorem State.sendAtr_supplyView (s : State) (o : AttnOp) (flags : Nat) (es : List AttnEntry) :
    (s.sendAtr o flags es).supplyView = s.supplyView := by
  unfold State.sendAtr
  grind [State.sendOn_supplyView]

theorem State.finishAttn_supplyView (s : State) (op : Nat) (o : AttnOp) : (s.finishAttn op o).supplyView = s.supplyView := by
  have hpriv := s.writePriv_supplyView o.clerk o.ctx o.addr (s.atrBytes o)
  unfold State.finishAttn
  grind [State.finishR_supplyView, State.onKva_supplyView, State.count_supplyView, Reg.ofSupply, OptView]

theorem State.writePartials_supplyView (s : State) (o : AttnOp) (f : LayerForm) : OptView s (s.writePartials o f) := by
  unfold State.writePartials
  refine foldl_inv (P := fun a : Option (State × Status × Nat) × Nat => OptView s a.1) (fun a e ha => ?_) (OptView.some rfl) _
  grind [State.writePriv_supplyView, State.bump_supplyView, OptView]

theorem State.progress_supplyView (s : State) (op : Nat) : (s.progress op).supplyView = s.supplyView := by
  unfold State.progress
  split
  · rfl
  next o _ =>
    have hpart := fun f => s.writePartials_supplyView o f
    grind [State.abortR_supplyView, State.finishAttn_supplyView, State.finishR_supplyView, State.nextPart_supplyView,
      State.onKva_supplyView, State.sendAtr_supplyView, State.updAttn_supplyView, OptView]

/-! #### Models, groups and the end of a step -/

theorem State.makeReports_supplyView (s : State) (t : Step) (first : List Nat) : (s.makeReports t first).supplyView = s.supplyView := by rfl

theorem State.unmapPhase_supplyView (s : State) (g : Nat) : (s.unmapPhase g).supplyView = s.supplyView := by
  unfold State.unmapPhase
  grind [State.deleteRegion_supplyView, State.setGroup_supplyView, State.onNmc_supplyView]

theorem State.mapPhase_supplyView (s : State) (g : Nat) : (s.mapPhase g).supplyView = s.supplyView := by
  unfold State.mapPhase
  grind [State.addRegion_supplyView, State.setGroup_supplyView, State.onNmc_supplyView]

theorem State.switchDone_supplyView (s : State) (g : Nat) : (s.switchDone g).supplyView = s.supplyView := by
  unfold State.switchDone
  grind [State.mapPhase_supplyView, State.publishGroup_supplyView, State.setGroup_supplyView, State.raise_supplyView, Reg.ofSupply,
    Evt.sch_roleChange]

theorem State.endStep_supplyView (s : State) (t : Step) : (s.endStep t).supplyView = s.supplyView := by
  unfold State.endStep
  grind [State.phaseAdvance_supplyView, State.setGroup_supplyView, State.switchDone_supplyView, State.onSch_supplyView,
    State.count_supplyView, Reg.ofSupply]

theorem State.abortAttn_supplyView (s : State) (n : Nat) : (s.abortAttn n).supplyView = s.supplyView := by
  unfold State.abortAttn
  grind [State.progress_supplyView, State.updAttn_supplyView, State.foldl_supplyView]

theorem State.abortStep_supplyView (s : State) (n : Nat) : (s.abortStep n).supplyView = s.supplyView := by
  unfold State.abortStep
  grind [State.abortAttn_supplyView, State.displace_supplyView, State.endRequest_supplyView, State.endStep_supplyView,
    State.finishCancels_supplyView, State.makeReports_supplyView, State.updStep_supplyView, State.foldl_supplyView]

theorem State.abortKernels_supplyView (s : State) (p : KernelOp → Bool) : (s.abortKernels p).supplyView = s.supplyView := by
  unfold State.abortKernels
  grind [State.abortR_supplyView, State.onSch_supplyView, State.foldl_supplyView]

theorem State.groupOff_supplyView (s : State) (g : Nat) : (s.groupOff g).supplyView = s.supplyView := by
  unfold State.groupOff
  grind [State.abortKernels_supplyView, State.abortStep_supplyView, State.publishGroup_supplyView, State.setGroup_supplyView,
    State.unmapPhase_supplyView, State.foldl_supplyView]

theorem State.ledgerWrite_supplyView (s : State) : s.ledgerWrite.supplyView = s.supplyView := by
  unfold State.ledgerWrite
  grind [State.flashPut_supplyView, State.newExtent_supplyView, State.onSch_supplyView, State.foldl_supplyView]

theorem State.ledgerProgrammed_supplyView (s : State) : s.ledgerProgrammed.supplyView = s.supplyView := by
  unfold State.ledgerProgrammed
  grind [State.setDirty_supplyView]

/-! #### Statements and Counterfoils -/

theorem State.openStatement_supplyView (s : State) (j k step : Nat) (r : Rcpt) : (s.openStatement j k step r).supplyView = s.supplyView := by
  unfold State.openStatement
  grind [State.finishR_supplyView, State.publishJob_supplyView, State.updJob_supplyView]

theorem State.resumeBegin_supplyView (s : State) (j : Nat) : (s.resumeBegin j).supplyView = s.supplyView := by
  unfold State.resumeBegin
  grind [State.openStatement_supplyView]

theorem State.endFlush_supplyView (s : State) (j : Nat) : (s.endFlush j).supplyView = s.supplyView := by
  unfold State.endFlush
  grind [State.publishJob_supplyView, State.resumeBegin_supplyView, State.updJob_supplyView]

theorem State.applyFlash_supplyView (s : State) (j step : Nat) : (s.applyFlash j step).supplyView = s.supplyView := by
  unfold State.applyFlash
  grind [State.dropExtent_supplyView, State.updJob_supplyView, State.wr_supplyView, State.foldl_supplyView, Reg.ofSupply]

theorem State.coordFlash_supplyView (s : State) (d : JobDesc) (rank step : Nat) : (s.coordFlash d rank step).supplyView = s.supplyView := by
  unfold State.coordFlash
  grind [State.applyFlash_supplyView, State.onStm_supplyView, State.send_supplyView, State.foldl_supplyView]

theorem State.flashCommitted_supplyView (s : State) (j : Nat) : (s.flashCommitted j).supplyView = s.supplyView := by
  unfold State.flashCommitted
  grind [State.coordFlash_supplyView, State.endFlush_supplyView, State.send_supplyView]

theorem State.stmProgrammed_supplyView (s : State) (j : Nat) : (s.stmProgrammed j).supplyView = s.supplyView := by
  unfold State.stmProgrammed
  grind [State.flashCommitted_supplyView, State.updJob_supplyView]

/-! #### Vector search -/

theorem State.updColl_supplyView (s : State) (i : Nat) (f : Coll → Coll) : (s.updColl i f).supplyView = s.supplyView := by
  unfold State.updColl
  grind [State.onVsr_supplyView]

/-! #### Writes of vector collections -/

theorem State.vwriteDone_supplyView (s : State) (i : Nat) : (s.vwriteDone i).supplyView = s.supplyView := by
  unfold State.vwriteDone
  grind [State.finishR_supplyView, State.updColl_supplyView, State.setDirty_supplyView, State.foldl_supplyView]

theorem State.vecProgrammed_supplyView (s : State) (i id : Nat) : (s.vecProgrammed i id).supplyView = s.supplyView := by
  unfold State.vecProgrammed
  grind [State.updColl_supplyView, State.vwriteDone_supplyView]

/-! #### Programmed flash writes (R234) and map changes -/

theorem State.programDone_supplyView (s : State) (id : Nat) : (s.programDone id).supplyView = s.supplyView := by
  unfold State.programDone
  grind [State.flashProgramDone_supplyView, State.granuleParked_supplyView, State.ledgerProgrammed_supplyView,
    State.parkProgrammed_supplyView, State.pbProgrammed_supplyView, State.stmProgrammed_supplyView, State.vecProgrammed_supplyView,
    State.setDirty_supplyView]

/-! #### The loss of a port (R286, R312) -/

theorem State.loseConns_supplyView (s : State) (p : Nat) : (s.loseConns p).supplyView = s.supplyView := by
  unfold State.loseConns
  grind [State.onSec_supplyView, State.send_supplyView, State.foldl_supplyView]

theorem State.portLost_supplyView (s : State) (p : Nat) : (s.portLost p).supplyView = s.supplyView := by
  unfold State.portLost
  grind [State.dropFrames_supplyView, State.failAgent_supplyView, State.groupOff_supplyView, State.loseConns_supplyView,
    State.propose_supplyView]

/-! #### Flush and reset (R365, R387 to R390) -/

theorem State.programTill_supplyView (s : State) : s.programTill.supplyView = s.supplyView := by
  unfold State.programTill
  grind [State.programDone_supplyView, State.foldl_supplyView]

theorem State.allPbFlash_supplyView (s : State) : s.allPbFlash.supplyView = s.supplyView := by rfl

theorem State.flushTier1_supplyView (s : State) : s.flushTier1.supplyView = s.supplyView := by
  rw [State.flushTier1, State.setDirty_supplyView, State.onPwr_dirty_supplyView, State.allPbFlash_supplyView,
    State.foldl_supplyView State.journalOut_supplyView, State.programTill_supplyView, State.ledgerWrite_supplyView,
    State.foldl_supplyView fun t i => t.pbWrite_supplyView i true, State.programTill_supplyView]

/-! #### Freeze (R222, R375 to R381) -/

theorem State.frzStatus_supplyView (s : State) (st cause : Nat) : (s.frzStatus st cause).supplyView = s.supplyView := by
  unfold State.frzStatus
  grind [State.setFld_supplyView, Reg.ofSupply, Fld.dbgFrzStatus_cause]

theorem State.erasesResume_supplyView (s : State) : s.erasesResume.supplyView = s.supplyView := by
  unfold State.erasesResume
  grind [State.finishSdisc_supplyView]

/-! #### Power and the flush (R354 to R368) -/

theorem State.askRejoin_supplyView (s : State) : s.askRejoin.supplyView = s.supplyView := by
  unfold State.askRejoin
  grind [State.onDfb_supplyView, State.send_supplyView, State.setFld_supplyView, Reg.ofSupply, Fld.dfbStatus_leaderValid,
    Fld.dfbStatus_quorum, Fld.dfbStatus_state]

/-! ### How the view moves (Table 15-3) -/

theorem State.setFld_pwrStatus_supplyView (s : State) {f : Fld} (x : Nat) (hreg : f.reg = .pwrStatus) :
    (s.setFld f 0 x).supplyView =
      { s.supplyView with st := (s.setFld f 0 x).pwrSt, huEn := (s.setFld f 0 x).fld Fld.pwrStatus_huEn 0 } := by
  have hrd : ∀ r i, r ≠ .pwrStatus → (s.setFld f 0 x).rd r i = s.rd r i := fun r i hr => State.rd_setFld_ne _ _ _ (by simp [hreg, hr])
  simp only [State.supplyView, hrd .pwrEvt 0 (by decide), hrd .pwrHoldCfg 0 (by decide), hrd .glbCore 0 (by decide),
    hrd .lnkPortStatus _ (by decide)]
  rfl

theorem State.pwrTo_supplyView (s : State) {st : Nat} (h : st < 8) : (s.pwrTo st).supplyView = { s.supplyView with st := st } := by
  have hst : (s.setFld Fld.pwrStatus_state 0 st).pwrSt = st := (State.fld_setFld_same _ _ _ _ (by decide)).trans (Nat.mod_eq_of_lt h)
  have hhu : (s.setFld Fld.pwrStatus_state 0 st).fld Fld.pwrStatus_huEn 0 = s.fld Fld.pwrStatus_huEn 0 :=
    State.fld_setFld_other _ _ _ _ _ _ (by decide) (by decide)
  rw [State.pwrTo, State.trace_supplyView, State.setFld_pwrStatus_supplyView _ _ rfl, hst, hhu]
  rfl

theorem State.huEn_supplyView (s : State) (on : Bool) : (s.huEn on).supplyView = { s.supplyView with huEn := b2n on } := by
  have hst : (s.huEn on).pwrSt = s.pwrSt := State.fld_setFld_other _ _ _ _ _ _ (by decide) (by decide)
  have hhu : (s.huEn on).fld Fld.pwrStatus_huEn 0 = b2n on := (State.fld_setFld_same _ _ _ _ (by decide)).trans (by cases on <;> rfl)
  rw [State.huEn] at hst hhu ⊢
  rw [State.setFld_pwrStatus_supplyView _ _ rfl, hst, hhu]
  rfl

theorem State.setFld_charging_supplyView (s : State) (x : Nat) : (s.setFld Fld.pwrStatus_charging 0 x).supplyView = s.supplyView := by
  rw [State.setFld_pwrStatus_supplyView _ _ rfl, State.pwrSt, State.fld_setFld_other _ _ _ _ _ _ (by decide) (by decide),
    State.fld_setFld_other _ _ _ _ _ _ (by decide) (by decide)]
  rfl

theorem State.coreMv_supplyView (s : State) (mv : Nat) : (s.coreMv mv).supplyView = { s.supplyView with core := (s.coreMv mv).rd .glbCore 0 } := by
  have hrd : ∀ r i, r ≠ .glbCore → (s.coreMv mv).rd r i = s.rd r i := fun r i hr => State.rd_setFld_ne _ _ _ (by simp [hr])
  have hstatus := hrd .pwrStatus 0 (by decide)
  simp only [State.supplyView, State.pwrSt, hrd .pwrEvt 0 (by decide), hrd .pwrHoldCfg 0 (by decide), hrd .lnkPortStatus _ (by decide),
    State.fld_of_rd (f := Fld.pwrStatus_state) hstatus, State.fld_of_rd (f := Fld.pwrStatus_huEn) hstatus]
  rfl

theorem State.bits_glbCore_coreMv (s : State) (mv : Nat) : bits ((s.coreMv mv).rd .glbCore 0).toNat 0 16 = mv % 65536 :=
  State.fld_setFld_same s ⟨.glbCore, 0, 16⟩ 0 mv (by decide)

theorem State.raise_pwrEvt_supplyView (s : State) {e : Evt} (he : e.reg = .pwrEvt) :
    (s.raise e).supplyView = { s.supplyView with evt := (s.raise e).rd .pwrEvt 0 } := by
  have hrd : ∀ r i, r ≠ .pwrEvt → (s.raise e).rd r i = s.rd r i := fun r i hr => State.rd_raise_ne _ _ (by simp [he, hr])
  have hstatus := hrd .pwrStatus 0 (by decide)
  simp only [State.supplyView, State.pwrSt, hrd .glbCore 0 (by decide), hrd .pwrHoldCfg 0 (by decide), hrd .lnkPortStatus _ (by decide),
    State.fld_of_rd (f := Fld.pwrStatus_state) hstatus, State.fld_of_rd (f := Fld.pwrStatus_huEn) hstatus,
    State.raise_pending, State.raise_frz, State.raise_fls, State.raise_pwr]

theorem State.onPwr_supplyView (s : State) {f : Pwr → Pwr} (h : ∀ p, { f p with dirty := .empty } = f { p with dirty := .empty }) :
    (s.onPwr f).supplyView = { s.supplyView with pwr := f s.supplyView.pwr } := by
  rw [State.supplyView, State.onPwr, h]
  rfl

theorem State.onFls_held_supplyView (s : State) (b : Bool) :
    (s.onFls fun f => { f with held := b }).supplyView = { s.supplyView with held := b } := rfl

/-! ### Ports and recovery copies, which a flush and the training of ports move -/

/-- The view without ports and recovery copies. -/
def SupplyView.apart (v : SupplyView) : SupplyView := { v with ports := fun _ => 0, pwr := { v.pwr with copies := [] } }

theorem State.portTo_apart (s : State) (p st : Nat) : (s.portTo p st).supplyView.apart = s.supplyView.apart := by
  have hrd : ∀ r i, r ≠ .lnkPortStatus → (s.setFld Fld.lnkPortStatus_state p st).rd r i = s.rd r i := fun r i hr =>
    State.rd_setFld_ne _ _ _ (by simp [Fld.lnkPortStatus_state, hr])
  have hstatus := hrd .pwrStatus 0 (by decide)
  rw [State.portTo, State.trace_supplyView, State.updPort_supplyView]
  simp only [SupplyView.apart, State.supplyView, State.pwrSt, hrd .glbCore 0 (by decide), hrd .pwrHoldCfg 0 (by decide), hrd .pwrEvt 0 (by decide),
    State.fld_of_rd (f := Fld.pwrStatus_state) hstatus, State.fld_of_rd (f := Fld.pwrStatus_huEn) hstatus]
  rfl

theorem State.portDown_apart (s : State) (p : Nat) : (s.portDown p).supplyView.apart = s.supplyView.apart := by
  rw [State.portDown, State.portTo_apart, State.updPort_supplyView, State.dropFrames_supplyView]

theorem State.portOff_apart (s : State) (p : Nat) : (s.portOff p).supplyView.apart = s.supplyView.apart := by
  unfold State.portOff
  split
  · rfl
  · rw [State.portDown_apart]
    split
    · rfl
    · rw [State.portLost_supplyView]

theorem State.retrainAll_apart (s : State) : s.retrainAll.supplyView.apart = s.supplyView.apart := by
  unfold State.retrainAll
  refine foldl_kept (fun t : State => t.supplyView.apart) (fun t p => ?_) _ s
  dsimp only
  split
  · rfl
  · generalize hu : (if 8 ≤ p && p < 20 then t.dropFrames p else t.portLost p) = u
    have hview : u.supplyView = t.supplyView := by
      rw [← hu]
      split
      · exact State.dropFrames_supplyView ..
      · exact State.portLost_supplyView ..
    split
    · rw [State.portTo_apart, State.portDown_apart, hview]
    · rw [State.portDown_apart, hview]

/-- A port that goes DOWN is DOWN, and no other port's state moves. -/
theorem State.portSt_portOff (s : State) (p q : Nat) : (s.portOff p).portSt q = if q = p then 0 else s.portSt q := by
  have hview : ∀ {t u : State}, t.supplyView = u.supplyView → t.portSt q = u.portSt q := fun h =>
    State.fld_of_rd (congrFun (congrArg SupplyView.ports h) q)
  have hdown : ∀ t : State, (t.portDown p).portSt q = if q = p then 0 else t.portSt q := fun t => by
    split
    next h =>
      rw [h]
      exact State.portSt_portTo _ _ (by decide)
    next h =>
      have hto : ∀ u : State, (u.portTo p 0).portSt q = u.portSt q := fun u => by
        rw [State.portTo, hview (State.trace_supplyView ..), hview (State.updPort_supplyView ..)]
        exact State.fld_setFld_other _ _ _ _ _ _ (by decide) (.inl (by simp [h]))
      rw [State.portDown, hto, hview (State.updPort_supplyView ..), hview (State.dropFrames_supplyView ..)]
  unfold State.portOff
  split
  next h =>
    split
    next hq => rw [hq, h]
    next => rfl
  next h =>
    rw [hdown]
    split
    · rfl
    · split
      · rfl
      · exact hview (State.portLost_supplyView ..)

theorem State.portSt_foldl_portOff (l : List Nat) (s : State) (q : Nat) :
    (l.foldl (fun (s : State) p => s.portOff p) s).portSt q = if q ∈ l then 0 else s.portSt q := by
  induction l generalizing s with
  | nil => rfl
  | cons p l ih =>
    rw [List.foldl_cons, ih, State.portSt_portOff]
    simp only [List.mem_cons]
    split <;> split <;> simp_all

/-! ### The flush (R364, R365) -/

theorem State.thaw_apart (s : State) (n : Nat) :
    (s.thaw n).supplyView.apart = { s.supplyView.apart with frz := { s.frz with frozen := false } } := by
  unfold State.thaw
  extract_lets t tim u v w
  have ht : t.supplyView = { s.supplyView with frz := { s.frz with frozen := false } } := State.frzStatus_supplyView ..
  have hu : u.supplyView = t.supplyView := rfl
  have hv : v.supplyView = u.supplyView := by
    simp only [v]
    split
    · exact State.setFld_supplyView _ _ _ rfl
    · rfl
  have hw : w.supplyView = v.supplyView := rfl
  rw [State.erasesResume_supplyView, State.retrainAll_apart, State.raise_supplyView _ rfl, hw, hv, hu, ht]
  rfl

/-- What FLUSH begins with (R364). -/
theorem State.enterFlush_spec (s : State) (onFail : Bool) :
    let t := s.enterFlush onFail
    t.pwrSt = 2 ∧ t.fld Fld.pwrStatus_huEn 0 = 1 ∧ bits (t.rd .glbCore 0).toNat 0 16 = 620 ∧ t.fls.held = true ∧ t.frz.frozen = false ∧
      t.pwr.cut = false ∧ bit (t.rd .pwrEvt 0).toNat Evt.pwr_powerFail.bit = true ∧ ∀ p, p < 20 → t.portSt p = 0 := by
  unfold State.enterFlush
  extract_lets a before b c d e t
  have ha : a.frz.frozen = false := by
    simp only [a]
    split
    · exact congrArg (fun v : SupplyView => v.frz.frozen) (s.thaw_apart 0)
    next h => simpa using h
  have hd : d.supplyView = c.supplyView := foldl_kept State.supplyView State.abortStep_supplyView ..
  have he : e.supplyView = { c.supplyView with held := true, st := 2, evt := e.rd .pwrEvt 0 } := by
    rw [State.raise_pwrEvt_supplyView _ rfl, State.pwrTo_supplyView _ (by decide), State.onFls_held_supplyView, hd]
  have hc : c.supplyView = { b.supplyView with huEn := 1, core := c.rd .glbCore 0 } := by
    rw [State.coreMv_supplyView, State.setFld_charging_supplyView, State.huEn_supplyView]
    rfl
  have hall : t.supplyView.apart = e.supplyView.apart :=
    foldl_kept (fun t : State => t.supplyView.apart) State.portOff_apart ..
  have hcore : bits (c.rd .glbCore 0).toNat 0 16 = 620 := State.bits_glbCore_coreMv _ 620
  have hevt : bit (e.rd .pwrEvt 0).toNat Evt.pwr_powerFail.bit = true := State.bit_raise_same _ Evt.pwr_powerFail (by decide)
  rw [he, hc] at hall
  refine ⟨congrArg SupplyView.st hall, congrArg SupplyView.huEn hall, ?_, congrArg SupplyView.held hall, ?_,
    congrArg (fun v : SupplyView => v.pwr.cut) hall, ?_, fun p hp => ?_⟩
  · rw [← hcore]
    exact congrArg (fun v : SupplyView => bits v.core.toNat 0 16) hall
  · rw [← ha]
    exact congrArg (fun v : SupplyView => v.frz.frozen) hall
  · rw [← hevt]
    exact congrArg (fun v : SupplyView => bit v.evt.toNat Evt.pwr_powerFail.bit) hall
  · exact (State.portSt_foldl_portOff ..).trans (if_pos (List.mem_range.2 hp))

/-! ### Steps and clerks go on while journals are written and secure discards end (R363) -/

theorem State.setDirty_sch (s : State) (src : DirtySrc) (n : Nat) : (s.setDirty src n).sch = s.sch := by
  unfold State.setDirty
  grind [State.onPwr_sch, State.wr_sch, State.setFld_sch]

theorem State.journalOut_work (s : State) (h : Nat) : ((s.journalOut h).sch, (s.journalOut h).tlr) = (s.sch, s.tlr) := by
  unfold State.journalOut
  split
  · rfl
  next b _ =>
    exact Prod.ext (State.setDirty_sch ..) (State.setDirty_tlr ..)

theorem State.setSb_sch (s : State) (i : Nat) (x : Sb) : (s.setSb i x).sch = s.sch := by
  unfold State.setSb
  grind [State.onFls_sch, State.setFld_sch, State.wr_sch]

theorem State.setEntry_sch (s : State) (u : Nat) (e : Option MapEnt) : (s.setEntry u e).sch = s.sch := by
  unfold State.setEntry
  grind [State.onFls_sch, State.setSb_sch, State.wr_sch]

theorem State.placeUnit_sch (s : State) (slc : Bool) (x : Nat) (spread : Bool) (chan : Option Nat) (chans : List Nat) :
    (s.placeUnit slc x spread chan chans).1.sch = s.sch := by
  unfold State.placeUnit
  grind [State.setSb_sch, State.count_sch]

theorem State.relocate_sch (s : State) (u : Nat) (slc : Bool) : (s.relocate u slc).sch = s.sch := by
  unfold State.relocate
  grind [State.placeUnit_sch, State.setEntry_sch, State.onFls_sch, State.journalled]

theorem State.eraseSb_sch (s : State) (i : Nat) : (s.eraseSb i).sch = s.sch := by
  unfold State.eraseSb State.refreshUrgent
  grind [State.setSb_sch, State.raise_sch, State.setFld_sch]

theorem State.refreshSb_sch (s : State) (i : Nat) (slc : Bool) : (s.refreshSb i slc).sch = s.sch := by
  unfold State.refreshSb
  extract_lets us t
  have ht : t.sch = s.sch := foldl_kept State.sch (fun _ _ => State.relocate_sch ..) ..
  split
  · exact (State.eraseSb_sch ..).trans ht
  · exact ht

theorem State.finishSdisc_sch (s : State) : s.finishSdisc.sch = s.sch := by
  unfold State.finishSdisc
  extract_lets sbs t
  have ht : t.sch = s.sch := foldl_kept State.sch (fun _ _ => State.refreshSb_sch ..) ..
  split
  · rfl
  · exact (State.raise_sch ..).trans ht

theorem State.erasesResume_sch (s : State) : s.erasesResume.sch = s.sch := by
  unfold State.erasesResume
  split
  · rfl
  · exact s.finishSdisc_sch

/-! ### HOLD and RESUMING (R363, R367) -/

theorem State.trace_eq (s : State) (hub source ctx : Nat) (ctxValid : Bool) (inst value : Nat) :
    let t := s.trace hub source ctx ctxValid inst value
    t = { s with traceRings := t.traceRings, regs := t.regs, latches := t.latches } := by
  unfold State.trace
  extract_lets cfg ring u
  simp only [u]
  split
  · split
    · rfl
    · rw [State.raise_eq]
      rfl
  · rfl

theorem State.pwrTo_eq (s : State) (st : Nat) :
    s.pwrTo st = { s with traceRings := (s.pwrTo st).traceRings, regs := (s.pwrTo st).regs, latches := (s.pwrTo st).latches } :=
  State.trace_eq ..

theorem State.pwrTo_sch (s : State) (st : Nat) : (s.pwrTo st).sch = s.sch := by
  rw [State.pwrTo_eq]

theorem State.pwrTo_tlr (s : State) (st : Nat) : (s.pwrTo st).tlr = s.tlr := by
  rw [State.pwrTo_eq]

theorem State.pwrTo_pwr (s : State) (st : Nat) : (s.pwrTo st).pwr = s.pwr := by
  rw [State.pwrTo_eq]

/-- What HOLD begins with (R363): the state, its event, and journals written out, which leaves steps and clerks. -/
theorem State.enterHold_spec (s : State) (rack : Bool) :
    (s.enterHold rack).supplyView =
      { s.supplyView with st := 1, evt := ((s.pwrTo 1).raise Evt.pwr_hold).rd .pwrEvt 0, pwr := { s.supplyView.pwr with holdRack := rack } } ∧
      (s.enterHold rack).sch = s.sch ∧ (s.enterHold rack).tlr = s.tlr := by
  unfold State.enterHold
  extract_lets t
  have ht : t.supplyView =
      { s.supplyView with st := 1, evt := ((s.pwrTo 1).raise Evt.pwr_hold).rd .pwrEvt 0, pwr := { s.supplyView.pwr with holdRack := rack } } := by
    rw [State.onPwr_supplyView _ fun _ => rfl, State.raise_pwrEvt_supplyView _ rfl, State.pwrTo_supplyView _ (by decide)]
  have hwork : (t.sch, t.tlr) = (s.sch, s.tlr) :=
    Prod.ext ((State.raise_sch ..).trans (s.pwrTo_sch 1)) ((State.raise_tlr ..).trans (s.pwrTo_tlr 1))
  split
  · exact ⟨ht, Prod.mk.inj hwork⟩
  · refine ⟨(foldl_kept State.supplyView State.journalOut_supplyView ..).trans ht, ?_⟩
    exact Prod.mk.inj ((foldl_kept (fun t : State => (t.sch, t.tlr)) State.journalOut_work ..).trans hwork)

theorem State.leaveHold_spec (s : State) :
    s.leaveHold.supplyView =
      { s.supplyView with st := 0, evt := ((s.pwrTo 0).raise Evt.pwr_dip).rd .pwrEvt 0, pwr := { s.supplyView.pwr with holdRack := false } } ∧
      s.leaveHold.sch = s.sch := by
  unfold State.leaveHold
  refine ⟨?_, ?_⟩
  · rw [State.erasesResume_supplyView, State.onPwr_supplyView _ fun _ => rfl, State.raise_pwrEvt_supplyView _ rfl,
      State.pwrTo_supplyView _ (by decide)]
  · rw [State.erasesResume_sch, State.onPwr_sch, State.raise_sch, State.pwrTo_sch]

theorem State.enterResuming_spec (s : State) :
    s.enterResuming.pwrSt = 4 ∧ s.enterResuming.fld Fld.pwrStatus_huEn 0 = 0 ∧ s.enterResuming.fls.held = false ∧
      s.enterResuming.pwr.recovered = s.pwr.recovered ∧ 620 ≤ bits (s.enterResuming.rd .glbCore 0).toNat 0 16 ∧
      bits (s.enterResuming.rd .glbCore 0).toNat 0 16 ≤ 850 := by
  unfold State.enterResuming
  extract_lets t u
  have ht : t.supplyView = { s.supplyView with held := false, huEn := 0, st := 4, core := t.rd .glbCore 0 } := by
    simp only [t]
    rw [State.coreFree, State.coreMv_supplyView, State.bump_supplyView, State.pwrTo_supplyView _ (by decide), State.huEn_supplyView,
      State.onFls_held_supplyView]
    rfl
  have hu : u.supplyView.apart = t.supplyView.apart := by
    refine foldl_kept (fun t : State => t.supplyView.apart) (fun t p => ?_) _ t
    split
    · exact State.portTo_apart ..
    · rfl
  rw [← u.askRejoin_supplyView, ht] at hu
  have hcore : ∃ x, bits (t.rd .glbCore 0).toNat 0 16 = (620 + x % 231) % 65536 := ⟨_, State.bits_glbCore_coreMv ..⟩
  obtain ⟨x, hx⟩ := hcore
  have hbits : bits (u.askRejoin.rd .glbCore 0).toNat 0 16 = (620 + x % 231) % 65536 :=
    (congrArg (fun v : SupplyView => bits v.core.toNat 0 16) hu).trans hx
  refine ⟨congrArg SupplyView.st hu, congrArg SupplyView.huEn hu, congrArg SupplyView.held hu,
    congrArg (fun v : SupplyView => v.pwr.recovered) hu, ?_, ?_⟩
  all_goals omega

theorem State.resumed_spec {s : State} (h : s.frz.deferred = none) :
    s.resumed.pwrSt = 0 ∧ s.resumed.pwr.copies = [] ∧ s.resumed.pwr.portsBefore = [] ∧
      bit (s.resumed.rd .pwrEvt 0).toNat Evt.pwr_resumed.bit = true := by
  unfold State.resumed
  extract_lets t u v
  have hu : u.supplyView = s.supplyView :=
    (foldl_kept State.supplyView State.journalOut_supplyView ..).trans (foldl_kept State.supplyView (fun _ _ => State.dropExtent_supplyView ..) ..)
  have hv : ∃ e : Word, bit e.toNat Evt.pwr_resumed.bit = true ∧
      v.supplyView = { s.supplyView with pwr := { s.supplyView.pwr with copies := [], portsBefore := [] }, st := 0, evt := e } := by
    refine ⟨_, State.bit_raise_same ((u.onPwr fun p => { p with copies := [], portsBefore := [] }).pwrTo 0) Evt.pwr_resumed (by decide), ?_⟩
    rw [State.erasesResume_supplyView, State.raise_pwrEvt_supplyView _ rfl, State.pwrTo_supplyView _ (by decide),
      State.onPwr_supplyView _ fun _ => rfl, hu]
    rfl
  obtain ⟨e, hevt, hview⟩ := hv
  have hdeferred : v.frz.deferred = none := (congrArg (fun v : SupplyView => v.frz.deferred) hview).trans h
  rw [hdeferred]
  exact ⟨congrArg SupplyView.st hview, congrArg (fun v : SupplyView => v.pwr.copies) hview,
    congrArg (fun v : SupplyView => v.pwr.portsBefore) hview,
    (congrArg (fun v : SupplyView => bit v.evt.toNat Evt.pwr_resumed.bit) hview).trans hevt⟩

/-! ### The end of the flush and the resets (R365, R366, R390) -/

theorem State.flushCopy_apart (s : State) (i : Nat) : (s.flushCopy i).supplyView.apart = s.supplyView.apart := by
  unfold State.flushCopy
  split
  · rfl
  · extract_lets r
    have hr : r.1.supplyView = s.supplyView := State.allPieces_supplyView ..
    clear_value r
    split
    · rw [hr]
    · extract_lets e data
      have he : e.1.supplyView = s.supplyView := (State.newExtent_supplyView ..).trans hr
      clear_value e
      split
      · rw [he]
      · extract_lets w
        have hw : w.1.supplyView = s.supplyView := (State.flashPut_supplyView ..).trans he
        clear_value w
        split
        · rw [State.onPwr_supplyView _ fun _ => rfl, State.programDone_supplyView, hw]
          rfl
        · rw [State.dropExtent_supplyView, hw]

theorem State.foldl_flushCopy_apart (l : List Nat) (s : State) :
    (l.foldl (fun (s : State) i => s.flushCopy i) s).supplyView.apart = s.supplyView.apart :=
  foldl_kept (fun t : State => t.supplyView.apart) State.flushCopy_apart l s

theorem State.flushTier2_apart (s : State) (l : List Nat) :
    (s.flushTier2 l).supplyView.apart = { s.supplyView.apart with pwr := { s.supplyView.apart.pwr with cut := true } } := by
  rw [State.flushTier2, State.onPwr_supplyView _ fun _ => rfl, ← State.foldl_flushCopy_apart l s]
  rfl

theorem State.moduleFlush_apart (s : State) : s.moduleFlush.supplyView.apart = s.supplyView.apart := by
  unfold State.moduleFlush State.flushAll
  extract_lets t u
  have ht : t.supplyView = s.supplyView := foldl_kept State.supplyView (fun _ _ => State.dropExtent_supplyView ..) ..
  have hu : u.supplyView.apart = s.supplyView.apart := by
    simp only [u]
    rw [State.flushTier1_supplyView, State.onPwr_supplyView _ fun _ => rfl, ht]
    rfl
  split
  · rw [State.foldl_flushCopy_apart, hu]
  · exact hu

/-- The state when `FLUSH_DONE` has published its times. -/
def State.flushed (s : State) (tier1Us tier2Ms : Nat) : State :=
  let t := s.flushTier1
  let u := if t.fld Fld.pwrHoldCfg_fullEn = 1 && !t.pwr.cut then t.flushTier2 t.tier2Sessions else t
  (u.wr .pwrFlushLast 0 (BitVec.ofNat 64 (tier1Us % 2 ^ 32 + tier2Ms % 2 ^ 32 * 2 ^ 32))).raise Evt.pwr_flushDone

theorem State.dirtyTotal_flushTier1 (s : State) : s.flushTier1.dirtyTotal = 0 := by
  have hdirty : ∀ t : State, (t.setDirty .passbook 0).pwr.dirty = t.pwr.dirty.put .passbook 0 := fun t => by
    unfold State.setDirty
    extract_lets u d v w
    have hw : w.pwr = u.pwr := by
      simp only [w]
      split <;> rfl
    split <;> exact congrArg Pwr.dirty hw
  rw [State.flushTier1, State.dirtyTotal, hdirty]
  rfl

theorem State.flushed_spec (s : State) (u m : Nat) :
    let t := s.flushed u m
    t.pwr.pendingReset = s.pwr.pendingReset ∧ t.pwr.recovered = s.pwr.recovered ∧
      t.rd .pwrFlushLast 0 = BitVec.ofNat 64 (u % 2 ^ 32 + m % 2 ^ 32 * 2 ^ 32) ∧ bit (t.rd .pwrEvt 0).toNat Evt.pwr_flushDone.bit = true ∧
      (s.fld Fld.pwrHoldCfg_fullEn 0 = 0 → t.dirtyTotal = 0) := by
  unfold State.flushed
  extract_lets t v w
  have ht : t.supplyView = s.supplyView := s.flushTier1_supplyView
  have hpwr : w.pwr = v.pwr := State.raise_pwr ..
  have hv : v.supplyView.pwr.pendingReset = s.supplyView.pwr.pendingReset ∧ v.supplyView.pwr.recovered = s.supplyView.pwr.recovered := by
    rw [← ht]
    simp only [v]
    split
    · have htier2 := t.flushTier2_apart t.tier2Sessions
      have hpending := congrArg (fun v : SupplyView => v.pwr.pendingReset) htier2
      have hrecovered := congrArg (fun v : SupplyView => v.pwr.recovered) htier2
      exact ⟨hpending, hrecovered⟩
    · exact ⟨rfl, rfl⟩
  obtain ⟨hpending, hrecovered⟩ := hv
  refine ⟨?_, ?_, ?_, State.bit_raise_same _ Evt.pwr_flushDone (by decide), fun hfull => ?_⟩
  · rw [hpwr]
    exact hpending
  · rw [hpwr]
    exact hrecovered
  · exact (State.rd_raise_ne _ _ (by decide)).trans (State.rd_wr_same ..)
  · have hfullT : t.fld Fld.pwrHoldCfg_fullEn 0 = 0 := (State.fld_of_rd (f := Fld.pwrHoldCfg_fullEn) (congrArg SupplyView.holdCfg ht)).trans hfull
    have hvt : v = t := if_neg (by simp [hfullT])
    rw [State.dirtyTotal, hpwr, hvt]
    exact s.dirtyTotal_flushTier1

theorem exec_flushDone {s : State} (u m : Nat) (hst : s.pwrSt = 2) (hnone : s.pwr.pendingReset = none) :
    exec (.flushDone u m) s = .next (if s.pwr.recovered then (s.flushed u m).enterResuming else (s.flushed u m).pwrTo 3) := by
  obtain ⟨hpending, hrecovered, -⟩ := s.flushed_spec u m
  rw [hnone] at hpending
  change execFlushDone u m s = _
  unfold execFlushDone
  rw [if_pos hst]
  extract_lets t v w on
  have hnoReset : w.pwr.pendingReset = none := hpending
  have hon : on w = if s.pwr.recovered then (s.flushed u m).enterResuming else (s.flushed u m).pwrTo 3 := by
    rw [← hrecovered]
    rfl
  rw [hnoReset, ← hon]

/-- What a reset keeps (R390): waiting commands, the pins of the freeze, MRAM and the windows, which recovery copies do not touch. -/
theorem State.doReset_spec (s : State) (clean thermal : Bool) :
    let t := s.doReset clean thermal
    t.mem = State.reset.mem ∧ t.boot.done = [] ∧ t.arch.hubs = State.reset.arch.hubs ∧ t.frz.frozen = false ∧ t.tlr = State.reset.tlr ∧
      t.ssn = State.reset.ssn ∧ t.pending = s.pending ∧ t.frz.pinLow = s.frz.pinLow ∧ t.frz.ir = s.frz.ir ∧
      (∀ r i, r ≠ .nmcWindow → r ≠ .ssnKvPool → r ≠ .dfbCfg → t.rd r i = State.reset.rd r i) ∧
      (s.pwr.copies = [] → t.sec.mram = s.sec.mram ∧ t.rd .nmcWindow 0 = s.rd .nmcWindow 0 ∧ t.rd .ssnKvPool 0 = s.rd .ssnKvPool 0 ∧
        t.rd .dfbCfg 0 = s.rd .dfbCfg 0) := by
  unfold State.doReset
  extract_lets u r arch sec tim frz boot t
  have hu : u.supplyView = s.supplyView := by
    simp only [u]
    split
    · exact foldl_kept State.supplyView (fun _ _ => (State.commitPlace_supplyView ..).trans (State.updSession_supplyView ..)) ..
    · exact foldl_kept State.supplyView (fun _ _ => State.dropExtent_supplyView ..) ..
  refine ⟨rfl, rfl, rfl, rfl, rfl, rfl, congrArg SupplyView.pending hu, congrArg (fun v : SupplyView => v.frz.pinLow) hu,
    congrArg (fun v : SupplyView => v.frz.ir) hu, fun q i hw hk hd => ?_, fun hcopies => ?_⟩
  · have hregs : t.regs.look (q, i) = State.reset.regs.look (q, i) := by
      simp only [t, List.foldl_cons, List.foldl_nil]
      rw [Tbl.look_put_ne _ _ (by simp [hd]), Tbl.look_put_ne _ _ (by simp [hk]), Tbl.look_put_ne _ _ (by simp [hw])]
    simp only [State.rd, hregs]
  · have hus : u = s := by
      simp only [u, hcopies, List.foldl_nil, ite_self]
    have hregs : t.regs = ((State.reset.regs.put (.nmcWindow, 0) (u.rd .nmcWindow)).put (.ssnKvPool, 0) (u.rd .ssnKvPool)).put
        (.dfbCfg, 0) (u.rd .dfbCfg) := rfl
    have hmram := congrArg (fun v : State => v.sec.mram) hus
    refine ⟨hmram, ?_, ?_, ?_⟩
    all_goals
      rw [State.rd, hregs, hus]
      simp [Tbl.look_put]

/-- A module reset outside FLUSH keeps the waiting commands and the pins of the freeze (R377, R390). -/
theorem State.moduleReset_spec {s : State} (h : s.pwrSt ≠ 2) :
    ∃ u : State, s.moduleReset false = u.doReset true false ∧ u.pending = s.pending ∧ u.frz = s.frz := by
  rw [State.moduleReset, if_neg h]
  split
  · exact ⟨s, rfl, rfl, rfl⟩
  · exact ⟨s.moduleFlush, rfl, congrArg SupplyView.pending s.moduleFlush_apart, congrArg SupplyView.frz s.moduleFlush_apart⟩

/-! ### The rack supply (R368) -/

/-- The state in which a poll's answer is acted on. -/
def State.psuPolled (s : State) (a : PsuAnswer) : State :=
  ((s.send (.pmbusPoll ((s.rd .pwrPmbusCfg).toNat % 128))).onPwr fun p => { p with pollMiss := 0 }).wr .pwrPsu 0
    (BitVec.ofNat 64 (a.pout % 2 ^ 16 + a.statusWord % 2 ^ 16 * 2 ^ 16 + a.vin % 2 ^ 16 * 2 ^ 32))

theorem State.psuPolled_kept (s : State) (a : PsuAnswer) : RegsKept [(.pwrPsu, 0)] s (s.psuPolled a) :=
  .wr (fun _ _ _ => rfl) _ (by decide)

theorem State.rd_psuPolled (s : State) (a : PsuAnswer) :
    (s.psuPolled a).rd .pwrPsu 0 = BitVec.ofNat 64 (a.pout % 2 ^ 16 + a.statusWord % 2 ^ 16 * 2 ^ 16 + a.vin % 2 ^ 16 * 2 ^ 32) :=
  State.rd_wr_same ..

/-- The supply, with its fault recorded. -/
def State.psuFaulted (s : State) : State := (s.raise Evt.pwr_psuFault).onPwr fun p => { p with rackFault := true }

theorem exec_psuPoll_answered {s : State} (a : PsuAnswer) (h : s.fld Fld.pwrPmbusCfg_enable 0 = 1) :
    exec (.psuPoll (some a)) s = s.whenLive (if a.statusInput % 256 ≠ 0 then
      (if (s.psuPolled a).psuFaulted.fld Fld.pwrHoldCfg_pmbusHold = 1 && (s.psuPolled a).psuFaulted.pwrSt = 0
        then (s.psuPolled a).psuFaulted.enterHold true else (s.psuPolled a).psuFaulted)
      else (s.psuPolled a).rackClear) := by
  change execPsuPoll (some a) s = _
  rw [execPsuPoll, if_neg (by simp [h])]
  rfl

theorem State.psuFaulted_supplyView (s : State) :
    s.psuFaulted.supplyView =
      { s.supplyView with evt := (s.raise Evt.pwr_psuFault).rd .pwrEvt 0, pwr := { s.supplyView.pwr with rackFault := true } } := by
  rw [State.psuFaulted, State.onPwr_supplyView _ fun _ => rfl, State.raise_pwrEvt_supplyView _ rfl]

/-- Settles O50: each command by what it leaves of the view. -/
theorem supplyAndFlush : Obligations.SupplyAndFlush := by
  unfold Obligations.SupplyAndFlush
  refine ⟨?warning, ?warned, ?powerFail, ?holdEnds, ?darkEnds, ?vinReset, ?resetPin, ?resetPinInFlush, ?overvoltage, ?flushDone,
    ?flushDoneRecovered, ?tier2Cut, ?resumingDone, ?poll, ?pollFault, ?thermalRelease⟩
  case warning =>
    rintro s hst
    obtain ⟨hview, hsch, htlr⟩ := (s.onPwr fun p => { p with recovered := false }).enterHold_spec false
    refine ⟨_, congrArg Host.Outcome.next ((if_neg Bool.false_ne_true).trans (if_pos hst)), congrArg SupplyView.st hview, ?_,
      congrArg (fun v : SupplyView => v.pwr.holdRack) hview, congrArg (fun v : SupplyView => v.pwr.recovered) hview, congrArg Sch.steps hsch,
      congrArg Tlr.clerks htlr⟩
    have hevt := congrArg (fun v : SupplyView => bit v.evt.toNat Evt.pwr_hold.bit) hview
    exact hevt.trans (State.bit_raise_same _ Evt.pwr_hold (by decide))
  case warned =>
    rintro s hst
    exact ⟨_, congrArg Host.Outcome.next ((if_neg Bool.false_ne_true).trans (if_neg hst)), rfl⟩
  case powerFail =>
    rintro s hst
    obtain ⟨h2, hhu, hcore, hheld, hfrozen, hcut, hevt, hports⟩ := s.enterFlush_spec true
    exact ⟨_, congrArg Host.Outcome.next (if_pos hst), h2, hhu, hcore, hheld, hfrozen, hcut, hevt, hports⟩
  case holdEnds =>
    rintro s ⟨hst, hrack⟩
    obtain ⟨hview, hsch⟩ := (s.onPwr fun p => { p with recovered := true }).leaveHold_spec
    have hevt := congrArg (fun v : SupplyView => bit v.evt.toNat Evt.pwr_dip.bit) hview
    refine ⟨_, congrArg Host.Outcome.next ((if_pos hst).trans (if_neg ?_)), congrArg SupplyView.st hview,
      hevt.trans (State.bit_raise_same _ Evt.pwr_dip (by decide)), congrArg (fun v : SupplyView => v.pwr.recovered) hview, congrArg Sch.steps hsch⟩
    exact Bool.eq_false_iff.1 hrack
  case darkEnds =>
    rintro s hst
    obtain ⟨h4, hhu, hheld, hrecovered, hlo, hhi⟩ := (s.onPwr fun p => { p with recovered := true }).enterResuming_spec
    have hexec : exec .vsupRecovery s = .next (s.onPwr fun p => { p with recovered := true }).enterResuming := by
      have hdark : (s.onPwr fun p => { p with recovered := true }).pwrSt = 3 := hst
      change execVsupRecovery s = _
      rw [execVsupRecovery, if_neg (by omega), if_pos hdark]
    exact ⟨_, hexec, h4, hhu, hheld, hrecovered, hlo, hhi⟩
  case vinReset =>
    rintro s
    obtain ⟨hmem, hboot, hhubs, hfrozen, htlr, hssn, hpending, -, -, hregs, hmram⟩ :=
      s.doReset_spec (decide (s.pwrSt = 3) || (decide (s.pwrSt = 2) && s.pwr.cut)) false
    exact ⟨_, rfl, hmem, hboot, hhubs, hfrozen, htlr, hssn, hpending, hregs, hmram⟩
  case resetPin =>
    rintro s h
    have hreset : ∃ u : State, ∃ clean, exec .resetPin s = .next (u.doReset clean false) ∧ u.pending = s.pending ∧ u.frz = s.frz := by
      by_cases hfrozen : s.frz.frozen = true
      · exact ⟨s, false, congrArg Host.Outcome.next (if_pos hfrozen), rfl, rfl⟩
      · obtain ⟨u, hu, hpending, hfrz⟩ := State.moduleReset_spec (h.resolve_right hfrozen)
        exact ⟨u, true, congrArg Host.Outcome.next ((if_neg hfrozen).trans hu), hpending, hfrz⟩
    obtain ⟨u, clean, hexec, hpendingU, hfrz⟩ := hreset
    obtain ⟨hmem, hboot, hhubs, hfrozen, htlr, hssn, hpending, hpin, hir, -⟩ := u.doReset_spec clean false
    rw [hpendingU] at hpending
    rw [hfrz] at hpin hir
    exact ⟨_, hexec, hmem, hboot, hhubs, hfrozen, htlr, hssn, hpending, hpin, hir⟩
  case resetPinInFlush =>
    rintro s hlive hst
    exact ⟨_, congrArg Host.Outcome.next ((if_neg (by simp [hlive.symm])).trans (if_pos hst)), rfl⟩
  case overvoltage =>
    rintro s
    exact ⟨_, rfl, State.bit_raise_same _ Evt.pwr_overvolt (by decide), .raise (.refl _ s) (by decide), RegsOnly.raise (.refl s) _⟩
  case flushDone =>
    rintro u m s ⟨hst, hnone, hrecovered⟩
    obtain ⟨-, -, hlast, hevt, hdirty⟩ := s.flushed_spec u m
    have hview := (s.flushed u m).pwrTo_supplyView (st := 3) (by decide)
    have hkeeps := congrArg (fun v : SupplyView => bit v.evt.toNat Evt.pwr_flushDone.bit) hview
    refine ⟨(s.flushed u m).pwrTo 3, by rw [exec_flushDone u m hst hnone, hrecovered]; rfl, congrArg SupplyView.st hview, ?_, hkeeps.trans hevt,
      fun hfull => ?_⟩
    · rw [State.pwrTo, State.rd_trace_ne _ _ _ _ _ _ _ _ (by decide) (by decide), State.rd_setFld_ne _ _ _ (by decide), hlast]
    · rw [State.dirtyTotal, State.pwrTo_pwr]
      exact hdirty hfull
  case flushDoneRecovered =>
    rintro u m s ⟨hst, hnone, hrecovered⟩
    obtain ⟨h4, hhu, hheld, -⟩ := (s.flushed u m).enterResuming_spec
    exact ⟨_, by rw [exec_flushDone u m hst hnone, hrecovered]; rfl, h4, hhu, hheld⟩
  case tier2Cut =>
    rintro written s ⟨hst, hfull, hcut⟩
    generalize hl : s.flushTier1.tier2Sessions.filter written.contains = l
    have hexec : exec (.tier2Cut written) s = .next ((s.flushTier1.flushTier2 l).raise Evt.pwr_tier2Cut) := by
      rw [← hl]
      exact congrArg Host.Outcome.next (if_pos (by simp [hst, hfull, hcut]))
    have hview := s.flushTier1.flushTier2_apart l
    rw [State.flushTier1_supplyView] at hview
    have hstT := congrArg SupplyView.st hview
    refine ⟨_, hexec, ?_, ?_, State.bit_raise_same _ Evt.pwr_tier2Cut (by decide)⟩
    · rw [State.pwrSt, State.fld_of_rd (State.rd_raise_ne _ _ (by decide))]
      exact hstT.trans hst
    · rw [State.raise_pwr]
      rfl
  case resumingDone =>
    rintro s hlive ⟨hst, hnone⟩ hback
    exact .of_live (congrArg s.whenLive (if_pos (by simp [hst, hback]))) hlive (State.resumed_spec hnone)
  case poll =>
    rintro a s hlive ⟨hen, hok⟩ hst
    have hpolled : (s.psuPolled a).pwrSt = s.pwrSt := (s.psuPolled_kept a).fld _ _ (by decide)
    have hclear : (s.psuPolled a).rackClear = (s.psuPolled a).onPwr fun p => { p with rackFault := false } := by
      have hst' : ((s.psuPolled a).onPwr fun p => { p with rackFault := false }).pwrSt ≠ 1 := hpolled ▸ hst
      rw [State.rackClear, if_neg (by simp [hst'])]
    have hexec := exec_psuPoll_answered a hen
    rw [if_neg (by simp [hok]), hclear] at hexec
    exact .of_live hexec hlive ⟨s.rd_psuPolled a, rfl, rfl, rfl, hpolled, s.psuPolled_kept a⟩
  case pollFault =>
    rintro a s hlive ⟨hen, hfault⟩ ⟨hcfg, hst⟩
    have hfaulted := (s.psuPolled a).psuFaulted_supplyView
    have hstF : (s.psuPolled a).psuFaulted.pwrSt = 0 := (congrArg SupplyView.st hfaulted).trans (((s.psuPolled_kept a).fld _ _ (by decide)).trans hst)
    have hcfgF : (s.psuPolled a).psuFaulted.fld Fld.pwrHoldCfg_pmbusHold = 1 :=
      (State.fld_of_rd (f := Fld.pwrHoldCfg_pmbusHold) (congrArg SupplyView.holdCfg hfaulted)).trans
        (((s.psuPolled_kept a).fld _ _ (by decide)).trans hcfg)
    have hexec := exec_psuPoll_answered a hen
    rw [if_pos hfault, if_pos (by simp [hstF, hcfgF])] at hexec
    obtain ⟨hview, -, -⟩ := (s.psuPolled a).psuFaulted.enterHold_spec true
    have hrack := congrArg (fun v : SupplyView => v.pwr.rackFault) hview
    have hevt := congrArg (fun v : SupplyView => v.evt) hview
    have hpsu : bit ((s.psuPolled a).psuFaulted.rd .pwrEvt 0).toNat Evt.pwr_psuFault.bit = true :=
      State.bit_raise_same (s.psuPolled a) Evt.pwr_psuFault (by decide)
    have hrdTo : ((s.psuPolled a).psuFaulted.pwrTo 1).rd .pwrEvt 0 = (s.psuPolled a).psuFaulted.rd .pwrEvt 0 :=
      congrArg SupplyView.evt ((s.psuPolled a).psuFaulted.pwrTo_supplyView (st := 1) (by decide))
    refine .of_live hexec hlive ⟨congrArg SupplyView.st hview, congrArg (fun v : SupplyView => v.pwr.holdRack) hview, hrack, ?_, ?_⟩
    · have hkept := State.bit_raise_of_bit (e := Evt.pwr_hold) (hrdTo ▸ hpsu)
      exact (congrArg (fun w : Word => bit w.toNat Evt.pwr_psuFault.bit) hevt).trans hkept
    · exact (congrArg (fun w : Word => bit w.toNat Evt.pwr_hold.bit) hevt).trans (State.bit_raise_same _ Evt.pwr_hold (by decide))
  case thermalRelease =>
    rintro tC s ⟨hheld, hcool⟩
    exact ⟨_, congrArg Host.Outcome.next (if_pos (by simp only [hheld, hcool, Bool.and_self])), rfl⟩

end Sys2Proof.Machine

namespace Sys2Proof.Machine

/-! ### Words, and commands that the spec refuses (log 92, log 93) -/

/-- Settles O4: the decoder of words has no row to answer with. -/
theorem noWordSpellsACommand : Obligations.NoWordSpellsACommand := by
  unfold Obligations.NoWordSpellsACommand
  exact fun _ _ _ => ⟨rfl, rfl⟩

/-- Every command's meaning is written as one next state, its refusals within it (R396, R55). -/
theorem exec_next (c : Instr) (s : State) : ∃ t, exec c s = .next t := by
  cases c <;> exact ⟨_, rfl⟩

theorem State.goesOn_all (s : State) : s.goesOn := by
  unfold State.goesOn step
  split
  · exact ⟨_, rfl⟩
  · exact exec_next ..

/-- Settles O5: each command has a next state, and a step is a command or a nanosecond. -/
theorem everyCommandGoesOn : Obligations.EveryCommandGoesOn := by
  unfold Obligations.EveryCommandGoesOn
  exact ⟨exec_next, State.goesOn_all⟩

end Sys2Proof.Machine

namespace Sys2Proof.Machine

/-! ### Read-to-clear and write-one-to-clear registers (R399) -/

theorem narrow_whole (v : Word) : narrow v 0 8 = v := by
  rw [narrow, Nat.mul_zero, pow_zero, Nat.div_one, Nat.mod_eq_of_lt v.isLt, BitVec.ofNat_toNat, BitVec.setWidth_eq]

/-- A read-to-clear register is no register whose value is computed at the read. -/
theorem State.view_of_rc {r : Reg} (h : r.spec.access = .rc) (s : State) (i : Nat) : s.view r i = s.rd r i := by
  unfold State.view
  split
  case h_17 => rw [if_neg (by simp [h])]
  all_goals exact absurd h (by decide)

theorem State.regRead_of_rc {rq : Requester} {r : Reg} {i : Nat} {s : State} (hrc : r.spec.access = .rc) (hopen : WindowOpen s rq)
    (hreach : s.regReach r i = true) (hmay : s.mayRead rq r i = true) : ReadAndCleared rq r i s (s.regRead rq r i 0 8 0) := by
  obtain ⟨hlive, hup⟩ := hopen
  have hread : s.regRead rq r i 0 8 0 = ((s.wr r i 0).bump).send (.regAnswer rq false (s.rd r i)) := by
    simp [State.regRead, State.readEffect, hlive, hup, hreach, hmay, hrc, State.view_of_rc hrc, narrow_whole]
  rw [hread]
  exact ⟨rfl, State.rd_wr_same .., .of_put rfl, rfl⟩

/-- A read of one of an array's registers names an index the array has. -/
theorem completes_arrayRead {c : Instr} {rq : Requester} {r : Reg} {i n : Nat} {s : State}
    (hexec : exec c s = .next (if i < n then s.regRead rq r i 0 8 0 else s)) (hi : i < n) (hrc : r.spec.access = .rc)
    (hopen : WindowOpen s rq) (hreach : s.regReach r i = true) (hmay : s.mayRead rq r i = true) :
    Completes c s (ReadAndCleared rq r i s) :=
  ⟨_, hexec.trans (congrArg _ (if_pos hi)), State.regRead_of_rc hrc hopen hreach hmay⟩

/-- Settles O56: each row is the read of its register, which the window lets through. -/
theorem readToClearRegisters : Obligations.ReadToClearRegisters := by
  unfold Obligations.ReadToClearRegisters
  refine ⟨fun _ _ _ hm => completes_arrayRead rfl hm rfl, fun _ _ _ hch => completes_arrayRead rfl hch rfl, ?_, ?_,
    fun _ _ _ hp => completes_arrayRead rfl hp rfl, ?_, ?_, ?_⟩
  all_goals exact fun _ _ hopen hmay => ⟨_, rfl, State.regRead_of_rc rfl hopen rfl hmay⟩

theorem State.evtWrite_clears {rq : Requester} {r : Reg} {s : State} (hopen : WindowOpen s rq) (hmodule : s.isModule rq = true)
    (hreach : s.regReach r 0 = true) (v : Word) : BitsCleared r v s (s.evtWrite rq r v) := by
  rw [State.evtWrite, hmodule, State.cfgWrite_of_windowOpen hopen hreach]
  exact ⟨State.rd_w1c .., .of_put rfl, rfl⟩

/-- Settles O57: each row is the write of its event register, which belongs to no hub. -/
theorem eventRegistersWriteOneToClear : Obligations.EventRegistersWriteOneToClear := by
  unfold Obligations.EventRegistersWriteOneToClear
  refine ⟨?_, ?_, ?_, ?_, ?_, ?_, ?_, ?_, ?_, ?_, ?_, ?_, ?_, ?_, ?_, ?_⟩
  all_goals exact fun _ v _ hopen hmodule => ⟨_, rfl, State.evtWrite_clears hopen hmodule rfl v⟩

end Sys2Proof.Machine

namespace Sys2Proof.Machine

/-! ### What the bring-up and the return of a hub set (Table 16-1, R390, R393)

A hub that fails takes its sessions, clerks, steps and agents with it, and a flash pool that is replayed brings sessions and Statements back:
none of that moves the hubs in service, the record of the boot, the division of stack DRAM or the state of a flash channel.
`State.bringView` is what has to stay; each function of the model that such a command runs has one lemma, in the order of the model's
files. -/

/-- Registers that hold what the bring-up set. -/
def Reg.ofBringup : Reg → Bool
  | .flsChStatus | .secFw | .secEvt => true
  | _ => false

/-- What the bring-up, the self-test and the return of a hub set. -/
structure BringView where
  hubs : Tbl Nat HubSt
  stacksOff : List Nat
  boot : Boot
  window : Nat
  share : Nat
  regs : Reg → Nat → Word

def State.bringView (s : State) : BringView where
  hubs := s.arch.hubs
  stacksOff := s.arch.stacksOff
  boot := s.boot
  window := s.nmc.window
  share := s.dfb.share
  regs := fun r i => if Reg.ofBringup r then s.rd r i else 0

/-- The view without the list of stacks out of service. -/
def BringView.hubsAlone (v : BringView) : BringView := { v with stacksOff := [] }

theorem State.bringView_of_rd {s t : State} (harch : t.arch = s.arch) (hboot : t.boot = s.boot) (hnmc : t.nmc = s.nmc) (hdfb : t.dfb = s.dfb)
    (hrd : ∀ r i, Reg.ofBringup r = true → t.rd r i = s.rd r i) : t.bringView = s.bringView := by
  have hregs : t.bringView.regs = s.bringView.regs := funext₂ fun r i => ite_congr rfl (hrd r i) fun _ => rfl
  rw [State.bringView, harch, hboot, hnmc, hdfb]
  exact congrArg (BringView.mk _ _ _ _ _) hregs

theorem State.rd_of_bringView {s t : State} (h : t.bringView.regs = s.bringView.regs) {r : Reg} (i : Nat) (hr : Reg.ofBringup r = true) :
    t.rd r i = s.rd r i := by
  have hri := congrFun₂ h r i
  simpa only [State.bringView, hr, if_true] using hri

/-! #### The state's own operations -/

theorem State.wr_bringView (s : State) {r : Reg} (i : Nat) (v : Word) (h : Reg.ofBringup r = false) : (s.wr r i v).bringView = s.bringView :=
  State.bringView_of_rd rfl rfl rfl rfl fun _ _ hq => State.rd_wr_ne _ _ (by grind)

theorem State.setFld_bringView (s : State) {f : Fld} (i x : Nat) (h : Reg.ofBringup f.reg = false) : (s.setFld f i x).bringView = s.bringView :=
  State.wr_bringView _ _ _ h

theorem State.count_bringView (s : State) {r : Reg} (i n : Nat) (h : Reg.ofBringup r = false) : (s.count r i n).bringView = s.bringView :=
  State.wr_bringView _ _ _ h

theorem State.countSat_bringView (s : State) {f : Fld} (i n : Nat) (h : Reg.ofBringup f.reg = false) :
    (s.countSat f i n).bringView = s.bringView :=
  State.wr_bringView _ _ _ h

theorem State.raise_bringView (s : State) {e : Evt} (h : Reg.ofBringup e.reg = false) : (s.raise e).bringView = s.bringView :=
  State.bringView_of_rd (by simp) (by simp) (by simp) (by simp) fun _ _ hq => State.rd_raise_ne _ _ (by grind)

theorem State.send_bringView (s : State) (o : Out) : (s.send o).bringView = s.bringView := rfl
theorem State.bump_bringView (s : State) : s.bump.bringView = s.bringView := rfl
theorem State.putBytes_bringView (s : State) (k : Nat) (bs : List Byte) : (s.putBytes k bs).bringView = s.bringView := rfl
theorem State.setClerk_bringView (s : State) (c : Nat) (cl : Clerk) : (s.setClerk c cl).bringView = s.bringView := rfl
theorem State.onTlr_bringView (s : State) (f : Tlr → Tlr) : (s.onTlr f).bringView = s.bringView := rfl
theorem State.onSsn_bringView (s : State) (f : Ssn → Ssn) : (s.onSsn f).bringView = s.bringView := rfl
theorem State.onKva_bringView (s : State) (f : Kva → Kva) : (s.onKva f).bringView = s.bringView := rfl
theorem State.onSch_bringView (s : State) (f : Sch → Sch) : (s.onSch f).bringView = s.bringView := rfl
theorem State.onSec_bringView (s : State) (f : Sec → Sec) : (s.onSec f).bringView = s.bringView := rfl
theorem State.onPwr_bringView (s : State) (f : Pwr → Pwr) : (s.onPwr f).bringView = s.bringView := rfl
theorem State.onFls_bringView (s : State) (f : Fls → Fls) : (s.onFls f).bringView = s.bringView := rfl
theorem State.onStm_bringView (s : State) (f : Stm → Stm) : (s.onStm f).bringView = s.bringView := rfl
theorem State.onVsr_bringView (s : State) (f : Vsr → Vsr) : (s.onVsr f).bringView = s.bringView := rfl
theorem State.onBoot_bringView (s : State) (f : Boot → Boot) : (s.onBoot f).bringView = { s.bringView with boot := f s.boot } := rfl

theorem State.onNmc_bringView (s : State) {f : Nmc → Nmc} (h : (f s.nmc).window = s.nmc.window) : (s.onNmc f).bringView = s.bringView := by
  rw [State.bringView, State.onNmc, h]
  rfl

theorem State.onDfb_bringView (s : State) {f : Dfb → Dfb} (h : (f s.dfb).share = s.dfb.share) : (s.onDfb f).bringView = s.bringView := by
  rw [State.bringView, State.onDfb, h]
  rfl

theorem State.foldl_bringView {α : Type} {f : State → α → State} (hf : ∀ s x, (f s x).bringView = s.bringView) (l : List α) (s : State) :
    (l.foldl f s).bringView = s.bringView :=
  foldl_kept State.bringView hf l s

theorem PgCount.reg_ofBringup (c : PgCount) : Reg.ofBringup c.reg = false := by
  cases c <;> rfl

theorem State.pair_bringView {α : Type} {s t : State} (x : α) (h : t.bringView = s.bringView) : (t, x).1.bringView = s.bringView := h

/-- An operation that may have no result, and keeps the view where it has one. -/
def OptBring {α : Type} (s : State) (r : Option (State × α)) : Prop := ∀ x, r = some x → x.1.bringView = s.bringView

theorem OptBring.some {α : Type} {s t : State} {a : α} (h : t.bringView = s.bringView) : OptBring s (Option.some (t, a)) := by
  rintro x ⟨⟩
  exact h

theorem OptBring.none {α : Type} {s : State} : OptBring s (Option.none : Option (State × α)) := by
  rintro x ⟨⟩

/-! #### Clerks, Receipts and traps -/

theorem State.updSignal_bringView (s : State) (i : Nat) (f : Signal → Signal) : (s.updSignal i f).bringView = s.bringView := by
  unfold State.updSignal
  grind [State.onTlr_bringView]

theorem State.updSession_bringView (s : State) (i : Nat) (f : Session → Session) : (s.updSession i f).bringView = s.bringView := by
  unfold State.updSession
  grind [State.onSsn_bringView]

theorem State.updJob_bringView (s : State) (j : Nat) (f : StmJob → StmJob) : (s.updJob j f).bringView = s.bringView := by
  unfold State.updJob
  grind [State.onStm_bringView]

theorem State.publishJob_bringView (s : State) (j : Nat) : (s.publishJob j).bringView = s.bringView := by
  unfold State.publishJob
  grind [State.wr_bringView, Reg.ofBringup]

theorem State.dropStatement_bringView (s : State) (j : Nat) : (s.dropStatement j).bringView = s.bringView := by
  unfold State.dropStatement
  grind [State.publishJob_bringView, State.updJob_bringView]

theorem State.dropOpened_bringView (s : State) (c startedAt : Nat) : (s.dropOpened c startedAt).bringView = s.bringView := by
  unfold State.dropOpened
  grind [State.dropStatement_bringView, State.foldl_bringView]

theorem State.releaseHandle_bringView (s : State) (h : Handle) : (s.releaseHandle h).bringView = s.bringView := by
  unfold State.releaseHandle
  grind [State.updSession_bringView, State.updSignal_bringView]

theorem State.holdHandle_bringView (s : State) (h : Handle) : (s.holdHandle h).bringView = s.bringView := by
  unfold State.holdHandle
  grind [State.updSession_bringView, State.updSignal_bringView]

theorem State.setHandle_bringView (s : State) (c i : Nat) (h : Handle) : (s.setHandle c i h).bringView = s.bringView := by
  unfold State.setHandle
  extract_lets old t n cl u
  have hu : u.bringView = t.bringView := State.setClerk_bringView ..
  exact hu.trans ((State.releaseHandle_bringView ..).trans (State.holdHandle_bringView ..))

theorem State.consumeSlot_bringView (s : State) (c k : Nat) : (s.consumeSlot c k).bringView = s.bringView := by
  unfold State.consumeSlot
  grind [State.setClerk_bringView, State.count_bringView, Reg.ofBringup]

theorem State.freeUnheldSignal_bringView (s : State) (h : Handle) : (s.freeUnheldSignal h).bringView = s.bringView := by
  unfold State.freeUnheldSignal
  grind [State.updSession_bringView, State.updSignal_bringView]

theorem State.orphanSlot_bringView (s : State) (c k : Nat) : (s.orphanSlot c k).bringView = s.bringView := by
  unfold State.orphanSlot
  grind [State.consumeSlot_bringView, State.freeUnheldSignal_bringView, State.setClerk_bringView, State.count_bringView, Reg.ofBringup]

theorem State.postResult_bringView (s : State) (c k serial : Nat) (w0 w1 : Word) :
    (s.postResult c k serial w0 w1).bringView = s.bringView := by
  unfold State.postResult
  grind [State.setClerk_bringView]

theorem State.postCancel_bringView (s : State) (c k cause : Nat) : (s.postCancel c k cause).bringView = s.bringView := by
  unfold State.postCancel
  grind [State.setClerk_bringView]

theorem State.trapRecord_bringView (s : State) (c : Nat) (cls : TrapClass) (code : Nat) (pc : Word) (addr : Word) :
    (s.trapRecord c cls code pc addr).bringView = s.bringView := by
  unfold State.trapRecord
  grind [State.wr_bringView, Reg.ofBringup]

theorem State.trace_bringView (s : State) (hub source ctx : Nat) (ctxValid : Bool) (inst value : Nat) :
    (s.trace hub source ctx ctxValid inst value).bringView = s.bringView := by
  unfold State.trace
  extract_lets cfg ring
  split
  · split
    · rfl
    · exact (State.raise_bringView _ rfl).trans (State.countSat_bringView _ _ _ rfl)
  · rfl

theorem serveSignal_bringView (ix fuel : Nat) (s : State) : (serveSignal ix fuel s).bringView = s.bringView := by
  induction fuel generalizing s with
  | zero => rfl
  | succ fuel ih =>
    unfold serveSignal
    grind [State.updSignal_bringView, State.setClerk_bringView]

theorem State.leaveSignals_bringView (s : State) (c : Nat) : (s.leaveSignals c).bringView = s.bringView := by
  unfold State.leaveSignals
  grind [State.updSignal_bringView, serveSignal_bringView]

theorem State.endRun_bringView (s : State) (c : Nat) (rec : RunRec) : (s.endRun c rec).bringView = s.bringView := by
  unfold State.endRun
  grind [State.dropOpened_bringView, State.leaveSignals_bringView, State.orphanSlot_bringView, State.postCancel_bringView,
    State.setHandle_bringView, State.setClerk_bringView, State.foldl_bringView]

theorem State.trap_bringView (s : State) (c : Nat) (cls : TrapClass) (code : Nat) (pc addr : Word) :
    (s.trap c cls code pc addr).bringView = s.bringView := by
  unfold State.trap
  grind [State.endRun_bringView, State.trace_bringView, State.trapRecord_bringView, State.setClerk_bringView]

theorem State.retire_bringView (s : State) (c : Nat) (cl : Clerk) : (s.retire c cl).bringView = s.bringView := by rfl

theorem State.retryAfter_bringView (s : State) (n k : Nat) (ladder : List Nat) (t : Nat) :
    (s.retryAfter n k ladder t).1.bringView = s.bringView := by
  unfold State.retryAfter
  grind [State.onSec_bringView]

theorem State.unitServe_bringView (s : State) (ty inst ctx : Nat) : (s.unitServe ty inst ctx).bringView = s.bringView := by
  unfold State.unitServe
  grind [State.trace_bringView, State.onSec_bringView, State.count_bringView, Reg.ofBringup]

/-! #### Memory -/

theorem State.poisonLine_bringView (s : State) (cw : Nat) : (s.poisonLine cw).bringView = s.bringView := by rfl

theorem State.scramble_bringView (s : State) (cw : Nat) : (s.scramble cw).bringView = s.bringView := by
  unfold State.scramble
  grind [State.bump_bringView, State.putBytes_bringView]

theorem State.readCw_bringView (s : State) (cw : Nat) : (s.readCw cw).1.bringView = s.bringView := by
  unfold State.readCw
  grind [State.poisonLine_bringView, State.scramble_bringView, State.bump_bringView]

theorem State.readCws_bringView (s : State) (l : List Nat) : (s.readCws l).1.bringView = s.bringView := by
  induction l generalizing s with
  | nil => rfl
  | cons c l ih =>
    unfold State.readCws
    grind [State.readCw_bringView]

theorem State.readMem_bringView (s : State) (key n : Nat) : (s.readMem key n).1.bringView = s.bringView := by
  unfold State.readMem
  grind [State.readCws_bringView]

theorem State.mendCw_bringView (s : State) (cw : Nat) : (s.mendCw cw).bringView = s.bringView := by rfl

theorem State.writeMem_bringView (s : State) (key : Nat) (bs : List Byte) : (s.writeMem key bs).1.bringView = s.bringView := by
  unfold State.writeMem
  grind [State.mendCw_bringView, State.readCws_bringView, State.putBytes_bringView, State.foldl_bringView]

theorem State.zeroRange_bringView (s : State) (lo hi : Nat) : (s.zeroRange lo hi).bringView = s.bringView := rfl

theorem State.memTrap_bringView (s : State) (ix : Ix) (stack : Bool) (st : Status) : (s.memTrap ix stack st).bringView = s.bringView := by
  unfold State.memTrap
  grind [State.trap_bringView]

theorem State.clerkMem_bringView (s : State) (ix : Ix) (key : Nat) (stack : Bool) : (s.clerkMem ix key stack).bringView = s.bringView := by
  unfold State.clerkMem
  grind [State.memTrap_bringView, State.readMem_bringView, State.retire_bringView, State.writeMem_bringView]

theorem State.wakeMem_bringView (s : State) (c key : Nat) : (s.wakeMem c key).bringView = s.bringView := by
  unfold State.wakeMem
  grind [State.clerkMem_bringView, State.setClerk_bringView]

/-! #### Ports -/

theorem State.setPort_bringView (s : State) (p : Nat) (x : Port) : (s.setPort p x).bringView = s.bringView := by rfl

theorem State.updPort_bringView (s : State) (p : Nat) (f : Port → Port) : (s.updPort p f).bringView = s.bringView := by
  unfold State.updPort
  grind [State.setPort_bringView]

theorem State.portTo_bringView (s : State) (p st : Nat) : (s.portTo p st).bringView = s.bringView := by
  rw [State.portTo, State.trace_bringView, State.updPort_bringView, State.setFld_bringView _ _ _ rfl]

theorem State.dropFrames_bringView (s : State) (p : Nat) : (s.dropFrames p).bringView = s.bringView := by
  unfold State.dropFrames
  grind [State.updPort_bringView, State.wr_bringView, State.foldl_bringView, Reg.ofBringup]

theorem State.portDown_bringView (s : State) (p : Nat) : (s.portDown p).bringView = s.bringView := by
  rw [State.portDown, State.portTo_bringView, State.updPort_bringView, State.dropFrames_bringView]

theorem State.enqueue_bringView (s : State) (p cls conn n : Nat) : (s.enqueue p cls conn n).bringView = s.bringView := by
  unfold State.enqueue
  grind [State.setPort_bringView, State.count_bringView, Reg.ofBringup]

theorem State.sendOn_bringView (s : State) (p cls conn n : Nat) (o : Out) : (s.sendOn p cls conn n o).bringView = s.bringView := by
  unfold State.sendOn
  grind [State.enqueue_bringView, State.send_bringView]

/-! #### The flash pool -/

theorem State.setSb_bringView (s : State) (i : Nat) (x : Sb) : (s.setSb i x).bringView = s.bringView := by
  unfold State.setSb
  grind [State.onFls_bringView, State.wr_bringView, State.setFld_bringView, Reg.ofBringup, Fld.flsSbA_free, Fld.flsSbA_full,
    Fld.flsSbB_open, Fld.flsSbB_retired]

theorem State.refreshUrgent_bringView (s : State) : s.refreshUrgent.bringView = s.bringView := by
  unfold State.refreshUrgent
  grind [State.setFld_bringView, State.raise_bringView, Reg.ofBringup, Evt.fls_gcUrgent, Fld.flsPoolStatus_gcUrgent]

theorem State.flsFormat_bringView (s : State) : s.flsFormat.bringView = s.bringView := by
  unfold State.flsFormat
  grind [State.wr_bringView, State.onFls_bringView, Reg.ofBringup]

theorem State.setDirty_bringView (s : State) (src : DirtySrc) (n : Nat) : (s.setDirty src n).bringView = s.bringView := by
  unfold State.setDirty
  grind [State.onPwr_bringView, State.wr_bringView, State.setFld_bringView, Reg.ofBringup, Fld.pwrStatus_deficit]

theorem State.addDirty_bringView (s : State) (src : DirtySrc) (n : Nat) : (s.addDirty src n).bringView = s.bringView := by
  unfold State.addDirty
  grind [State.setDirty_bringView]

theorem State.refreshBudget_bringView (s : State) : s.refreshBudget.bringView = s.bringView := by
  obtain ⟨hkept, honly, -⟩ := s.refreshBudget_spec
  exact State.bringView_of_rd (honly.part State.arch fun _ _ => rfl) (honly.part State.boot fun _ _ => rfl)
    (honly.part State.nmc fun _ _ => rfl) (honly.part State.dfb fun _ _ => rfl) fun r i hr => hkept r i (by grind [Reg.ofBringup])

theorem State.setEntry_bringView (s : State) (u : Nat) (e : Option MapEnt) : (s.setEntry u e).bringView = s.bringView := by
  unfold State.setEntry
  grind [State.setSb_bringView, State.onFls_bringView, State.wr_bringView, Reg.ofBringup]

theorem State.journal_bringView (s : State) (h : Nat) (r : JRec) : (s.journal h r).bringView = s.bringView := by
  unfold State.journal
  grind [State.addDirty_bringView, State.onFls_bringView]

theorem State.journalled_bringView (s : State) (n : Nat) : (s.journalled n).bringView = s.bringView := by rfl

theorem State.placeUnit_bringView (s : State) (slc : Bool) (x : Nat) (spread : Bool) (chan : Option Nat) (chans : List Nat) :
    (s.placeUnit slc x spread chan chans).1.bringView = s.bringView := by
  unfold State.placeUnit
  grind [State.setSb_bringView, State.count_bringView, Reg.ofBringup]

theorem State.newExtent_bringView (s : State) (owner : Option Nat) (n : Nat) (spread : Bool) (chan : Option Nat) :
    (s.newExtent owner n spread chan).1.bringView = s.bringView := by
  unfold State.newExtent
  grind [State.onFls_bringView, State.bump_bringView]

theorem State.poolTo_bringView (s : State) (st : Nat) : (s.poolTo st).bringView = s.bringView := by
  unfold State.poolTo
  grind [State.trace_bringView, State.setFld_bringView, Reg.ofBringup, Fld.flsPoolStatus_state]

theorem State.closePool_bringView (s : State) : s.closePool.bringView = s.bringView := by
  unfold State.closePool
  grind [State.poolTo_bringView, State.wr_bringView, State.raise_bringView, Reg.ofBringup, Evt.fls_poolClosed]

theorem State.reopenPool_bringView (s : State) : s.reopenPool.bringView = s.bringView := by
  unfold State.reopenPool
  grind [State.poolTo_bringView, State.wr_bringView, Reg.ofBringup]

theorem State.flashPut_bringView (s : State) (own : FlashOwner) (x first : Nat) (data : List (List Byte)) (till : Bool) :
    (s.flashPut own x first data till).1.bringView = s.bringView := by
  unfold State.flashPut
  grind [State.addDirty_bringView, State.closePool_bringView, State.onFls_bringView, State.wr_bringView, Reg.ofBringup]

theorem State.relocate_bringView (s : State) (u : Nat) (slc : Bool) : (s.relocate u slc).bringView = s.bringView := by
  unfold State.relocate
  grind [State.journalled_bringView, State.placeUnit_bringView, State.setEntry_bringView]

theorem State.eraseSb_bringView (s : State) (i : Nat) : (s.eraseSb i).bringView = s.bringView := by
  unfold State.eraseSb
  grind [State.refreshUrgent_bringView, State.setSb_bringView]

theorem State.refreshSb_bringView (s : State) (i : Nat) (slc : Bool) : (s.refreshSb i slc).bringView = s.bringView := by
  unfold State.refreshSb
  grind [State.eraseSb_bringView, State.relocate_bringView, State.foldl_bringView]

theorem State.discardUnits_bringView (s : State) (us : List Nat) : (s.discardUnits us).bringView = s.bringView := by
  unfold State.discardUnits
  grind [State.journal_bringView, State.reopenPool_bringView, State.setEntry_bringView, State.onFls_bringView, State.foldl_bringView]

theorem State.finishSdisc_bringView (s : State) : s.finishSdisc.bringView = s.bringView := by
  unfold State.finishSdisc
  grind [State.refreshSb_bringView, State.onFls_bringView, State.wr_bringView, State.raise_bringView, State.foldl_bringView,
    Reg.ofBringup, Evt.fls_sdiscDone]

/-! #### Pages of sessions -/

theorem State.pgMoveN_bringView (s : State) (m : Nat) (a b : PgCount) (n : Nat) : (s.pgMoveN m a b n).bringView = s.bringView := by
  unfold State.pgMoveN
  grind [State.wr_bringView, PgCount.reg_ofBringup]

theorem State.pgMove_bringView (s : State) (m : Nat) (a b : PgCount) : (s.pgMove m a b).bringView = s.bringView := by
  unfold State.pgMove
  grind [State.pgMoveN_bringView]

theorem State.takeFrame_bringView (s : State) (m : Nat) (c : PgCount) : (s.takeFrame m c).1.bringView = s.bringView := by
  unfold State.takeFrame
  grind [State.pgMove_bringView, State.zeroRange_bringView, State.onSsn_bringView, State.raise_bringView, Reg.ofBringup, Evt.ssn_t1High]

theorem State.allocPage_bringView (s : State) (ctx i l b : Nat) (c : PgCount) : (s.allocPage ctx i l b c).1.bringView = s.bringView :=
  State.allocPage_induction (P := fun r => r.1.bringView = s.bringView) s ctx i l b c (State.pair_bringView none rfl)
    fun m => State.pair_bringView _ (s.takeFrame_bringView m c)

theorem State.freeFrame_bringView (s : State) (m f : Nat) (c : PgCount) : (s.freeFrame m f c).bringView = s.bringView := by
  unfold State.freeFrame
  grind [State.pgMove_bringView, State.onSsn_bringView, State.wr_bringView, Reg.ofBringup, PgCount.reg_ofBringup]

theorem State.allocMany_bringView (s : State) (ctx i l n : Nat) (c : PgCount) : (s.allocMany ctx i l n c).1.bringView = s.bringView := by
  unfold State.allocMany
  extract_lets r
  have hr : r.1.bringView = s.bringView := by
    refine foldl_kept (fun a : State × Option (List (Nat × Nat)) × List (Nat × Nat) => a.1.bringView) (fun a b => ?_) _ _
    have hp := a.1.allocPage_bringView ctx i l b c
    cases a.2.1 with
    | none => rfl
    | some got =>
      generalize a.1.allocPage ctx i l b c = p at hp ⊢
      obtain ⟨t, page⟩ := p
      cases page <;> exact State.pair_bringView _ hp
  clear_value r
  cases r.2.1 with
  | none => exact State.pair_bringView _ ((State.foldl_bringView (fun t f => by exact t.freeFrame_bringView ..) ..).trans hr)
  | some l => exact State.pair_bringView _ hr

theorem State.handBack_bringView (s : State) (n : Nat) : (s.handBack n).bringView = s.bringView := by
  unfold State.handBack
  grind [State.onSsn_bringView, State.wr_bringView, State.foldl_bringView, Reg.ofBringup]

theorem State.markPages_bringView (s : State) (i : Nat) (p : KvPage → Bool) (u : PgUse) : (s.markPages i p u).bringView = s.bringView := by
  unfold State.markPages
  grind [State.pgMove_bringView, State.updSession_bringView, State.foldl_bringView]

theorem State.dropPages_bringView (s : State) (i : Nat) (p : KvPage → Bool) : (s.dropPages i p).bringView = s.bringView := by
  unfold State.dropPages
  grind [State.freeFrame_bringView, State.updSession_bringView, State.foldl_bringView]

theorem State.sendCfPage_bringView (s : State) (j page : Nat) (data : List Byte) : (s.sendCfPage j page data).bringView = s.bringView := by
  unfold State.sendCfPage
  grind [State.send_bringView]

theorem State.copyPage_bringView (s : State) (j h k : Nat) : (s.copyPage j h k).bringView = s.bringView := by
  have hread := fun key => s.readMem_bringView key 65536
  unfold State.copyPage
  generalize s.readMem = read at hread ⊢
  split
  · rfl
  · split
    · split
      · rfl
      · split
        · rfl
        · split
          · rfl
          · extract_lets r data t sh' bad v' u w
            have hr : r.1.bringView = s.bringView := by
              simp only [r]
              split
              · exact hread _
              · rfl
            have ht : t.bringView = s.bringView := (State.writeMem_bringView ..).trans hr
            clear_value t data
            have hu : u.bringView = s.bringView := (State.publishJob_bringView ..).trans ((State.updJob_bringView ..).trans ht)
            have hw : w.bringView = s.bringView := by
              simp only [w]
              split
              · exact hu
              · exact (State.raise_bringView _ rfl).trans hu
            split
            · exact hw
            · exact (State.sendCfPage_bringView ..).trans hw
    · rfl

/-! #### Private memory and node regions -/

theorem State.copyFirst_bringView (s : State) (key n : Nat) : (s.copyFirst key n).bringView = s.bringView := by
  unfold State.copyFirst
  extract_lets ps
  split
  · rfl
  · rw [State.foldl_bringView fun t p => by exact t.copyPage_bringView .., State.count_bringView _ _ _ rfl]

theorem State.writePriv_bringView (s : State) (c n a : Nat) (bs : List Byte) : OptBring s (s.writePriv c n a bs) := by
  unfold State.writePriv
  split
  · refine foldl_inv (P := OptBring s) (fun r x hr => ?_) (OptBring.some rfl) _
    grind [State.writeMem_bringView, State.copyFirst_bringView, OptBring]
  · exact OptBring.none

theorem State.addRegion_bringView (s : State) (i : Nat) (r : Region) : (s.addRegion i r).bringView = s.bringView := by
  unfold State.addRegion
  grind [State.zeroRange_bringView, State.onNmc_bringView, State.wr_bringView, Reg.ofBringup]

theorem State.countXfer_bringView (s : State) (a rd wr : Nat) : (s.countXfer a rd wr).bringView = s.bringView := by
  unfold State.countXfer
  grind [State.onNmc_bringView, State.wr_bringView, Reg.ofBringup]

/-! #### Node memory and its directory -/

theorem State.mrs_bringView (s : State) (p tag hold status : Nat) (data : List Byte) :
    (s.mrs p tag hold status data).bringView = s.bringView := by
  unfold State.mrs
  grind [State.sendOn_bringView, State.onNmc_bringView]

theorem State.nmcRefuse_bringView (s : State) (q : NReq) : (s.nmcRefuse q).bringView = s.bringView := by
  unfold State.nmcRefuse
  grind [State.mrs_bringView, State.trap_bringView, State.send_bringView, State.setClerk_bringView, State.raise_bringView,
    Reg.ofBringup, Evt.nmc_accessRefused]

theorem State.writeMasked_bringView (s : State) (key mask : Nat) (data : List Byte) :
    (s.writeMasked key mask data).1.bringView = s.bringView := by
  unfold State.writeMasked
  grind [State.readCw_bringView, State.writeMem_bringView, State.putBytes_bringView]

theorem State.setDir_bringView (s : State) (line : Nat) (e : DirEnt) : (s.setDir line e).bringView = s.bringView := by rfl

theorem State.sendRecall_bringView (s : State) (line a : Nat) (downgrade : Bool) :
    (s.sendRecall line a downgrade).bringView = s.bringView := by
  unfold State.sendRecall
  grind [State.sendOn_bringView, State.onNmc_bringView, State.send_bringView, State.count_bringView, Reg.ofBringup]

theorem State.recallFrom_bringView (s : State) (line : Nat) (as_ : List Nat) (downgrade : Bool) :
    (s.recallFrom line as_ downgrade).bringView = s.bringView := by
  unfold State.recallFrom
  grind [State.sendRecall_bringView, State.onNmc_bringView, State.foldl_bringView]

theorem State.park_bringView (s : State) (line : Nat) (q : NReq) : (s.park line q).bringView = s.bringView := by rfl

theorem State.dirAfter_bringView (s : State) (q : NReq) (granted : Bool) : (s.dirAfter q granted).bringView = s.bringView := by
  unfold State.dirAfter
  grind [State.setDir_bringView, State.onNmc_bringView]

theorem State.holdWrite_bringView (s : State) (page : Nat) (w : HoldWho) : (s.holdWrite page w).bringView = s.bringView := by
  unfold State.holdWrite
  grind [State.onStm_bringView, State.count_bringView, Reg.ofBringup]

theorem State.nmcDo_bringView (s : State) (q : NReq) : (s.nmcDo q).bringView = s.bringView := by
  unfold State.nmcDo
  grind [State.countXfer_bringView, State.dirAfter_bringView, State.mrs_bringView, State.readMem_bringView, State.wakeMem_bringView,
    State.writeMasked_bringView, State.writeMem_bringView, State.send_bringView]

theorem State.nmcPerform_bringView (s : State) (q : NReq) : (s.nmcPerform q).bringView = s.bringView := by
  unfold State.nmcPerform
  grind [State.holdWrite_bringView, State.nmcDo_bringView]

theorem State.resolvePx_bringView (s : State) (line : Nat) : (s.resolvePx line).bringView = s.bringView := by
  unfold State.resolvePx
  grind [State.poisonLine_bringView, State.onNmc_bringView]

theorem State.touch_bringView (s : State) (off : Nat) : (s.touch off).bringView = s.bringView := by
  unfold State.touch
  grind [State.onNmc_bringView]

theorem State.nmcServe_bringView (s : State) (q : NReq) : (s.nmcServe q).bringView = s.bringView := by
  unfold State.nmcServe
  split
  · exact State.nmcRefuse_bringView ..
  · extract_lets t gran line u
    have ht : t.bringView = s.bringView := State.touch_bringView ..
    have hu : u.bringView = s.bringView := (State.resolvePx_bringView ..).trans ht
    clear_value t gran u
    split
    · exact ht
    · split
      · exact (State.onNmc_bringView _ rfl).trans ht
      · split
        · exact (State.park_bringView ..).trans ht
        · split
          · exact (State.nmcPerform_bringView ..).trans hu
          · exact (State.park_bringView ..).trans ((State.recallFrom_bringView ..).trans hu)
          · extract_lets w
            have hw : w.bringView = s.bringView := (State.park_bringView ..).trans hu
            split
            · exact hw
            · split
              · exact hw
              · exact (State.raise_bringView _ rfl).trans ((State.recallFrom_bringView ..).trans hw)

theorem State.endRegion_bringView (s : State) (i : Nat) : (s.endRegion i).bringView = s.bringView := by
  unfold State.endRegion
  grind [State.discardUnits_bringView, State.handBack_bringView, State.onSch_bringView, State.onNmc_bringView, State.onFls_bringView,
    State.wr_bringView, Reg.ofBringup]

theorem State.endRegions_bringView (s : State) : s.endRegions.bringView = s.bringView := by
  unfold State.endRegions
  grind [State.endRegion_bringView, State.foldl_bringView]

theorem State.dirResume_bringView (s : State) (line : Nat) : (s.dirResume line).bringView = s.bringView := by
  unfold State.dirResume
  grind [State.endRegions_bringView, State.nmcServe_bringView, State.setDir_bringView, State.onNmc_bringView, State.foldl_bringView]

theorem State.deleteRegion_bringView (s : State) (i : Nat) : (s.deleteRegion i).bringView = s.bringView := by
  unfold State.deleteRegion
  grind [State.endRegion_bringView, State.nmcServe_bringView, State.recallFrom_bringView, State.onNmc_bringView, State.foldl_bringView]

theorem drainOrdered_bringView (fuel : Nat) (s : State) : (drainOrdered fuel s).bringView = s.bringView := by
  induction fuel generalizing s with
  | zero => rfl
  | succ fuel ih =>
    unfold drainOrdered
    grind [State.nmcServe_bringView, State.onNmc_bringView]

theorem State.addShard_bringView (s : State) (j : Nat) (r : Rcpt) (h : Shard) : (s.addShard j r h).bringView = s.bringView := by
  unfold State.addShard
  grind [State.postResult_bringView, State.publishJob_bringView, State.updJob_bringView]

theorem State.settleAdds_bringView (s : State) : s.settleAdds.bringView = s.bringView := by
  unfold State.settleAdds
  grind [State.addShard_bringView, State.recallFrom_bringView, State.resolvePx_bringView, State.foldl_bringView]

theorem State.settleNmc_bringView (s : State) : s.settleNmc.bringView = s.bringView := by
  unfold State.settleNmc
  grind [State.settleAdds_bringView, drainOrdered_bringView]

theorem State.failAgent_bringView (s : State) (a : Nat) : (s.failAgent a).bringView = s.bringView := by
  unfold State.failAgent
  grind [State.dirResume_bringView, State.settleNmc_bringView, State.onNmc_bringView, State.count_bringView, State.setFld_bringView,
    State.raise_bringView, State.foldl_bringView, Reg.ofBringup, Evt.nmc_agentFailed, Fld.nmcAgentStatus_held, Fld.nmcAgentStatus_state]

/-! #### The domain -/

theorem State.publishDfb_bringView (s : State) : s.publishDfb.bringView = s.bringView := by
  unfold State.publishDfb
  grind [State.wr_bringView, State.setFld_bringView, Reg.ofBringup, Fld.dfbStatus_v2Domain, Fld.dfbStatus_voter]

theorem State.appendLog_bringView (s : State) (c : MapChange) : (s.appendLog c).bringView = s.bringView := by rfl

theorem State.escDone_bringView (s : State) (key status word1 : Nat) : (s.escDone key status word1).bringView = s.bringView := by
  unfold State.escDone
  grind [State.postResult_bringView, State.onDfb_bringView]

theorem State.leaderTake_bringView (s : State) (c : MapChange) : (s.leaderTake c).bringView = s.bringView := by
  unfold State.leaderTake
  grind [State.appendLog_bringView, State.escDone_bringView, State.send_bringView]

theorem State.propose_bringView (s : State) (c : MapChange) : (s.propose c).bringView = s.bringView := by
  unfold State.propose
  grind [State.leaderTake_bringView, State.send_bringView]

/-! #### Receipts, customers and requests that end -/

theorem State.finishR_bringView (s : State) (r : Rcpt) (st : Status) (aux : Nat) (w1 : Word) :
    (s.finishR r st aux w1).bringView = s.bringView := by
  unfold State.finishR
  grind [State.postResult_bringView]

theorem State.abortR_bringView (s : State) (r : Rcpt) (cause : Nat) : (s.abortR r cause).bringView = s.bringView := by
  unfold State.abortR
  grind [State.finishR_bringView]

theorem State.updCust_bringView (s : State) (c : Nat) (f : Customer → Customer) : (s.updCust c f).bringView = s.bringView := by
  unfold State.updCust
  grind [State.addDirty_bringView, State.onSch_bringView]

theorem State.chargeRent_bringView (s : State) (c : Nat) : (s.chargeRent c).bringView = s.bringView := by
  unfold State.chargeRent
  grind [State.updCust_bringView, State.raise_bringView, Reg.ofBringup, Evt.sch_rentDebt]

theorem State.endRequest_bringView (s : State) (i code : Nat) (st : Status) (aux : Nat) (w1 : Word) :
    (s.endRequest i code st aux w1).bringView = s.bringView := by
  unfold State.endRequest
  grind [State.finishR_bringView, State.updCust_bringView, State.updSession_bringView, State.onSch_bringView]

/-! #### Sessions that are dropped, placed or parked -/

theorem State.dropExtent_bringView (s : State) (e : Nat) : (s.dropExtent e).bringView = s.bringView := by
  unfold State.dropExtent
  grind [State.discardUnits_bringView, State.onFls_bringView]

theorem State.leaveStep_bringView (s : State) (i status : Nat) : (s.leaveStep i status).bringView = s.bringView := by
  unfold State.leaveStep
  grind [State.dropPages_bringView, State.updCust_bringView, State.updSession_bringView, State.onSch_bringView, State.foldl_bringView]

theorem State.sweepTables_bringView (s : State) : s.sweepTables.bringView = s.bringView := by
  unfold State.sweepTables
  extract_lets named t ident vgone ggone u v kib
  have hu : u.bringView = t.bringView := foldl_kept State.bringView (fun w k => by exact State.wr_bringView _ _ _ rfl) ..
  have hv : v.bringView = u.bringView := foldl_kept State.bringView (fun w k => by exact State.wr_bringView _ _ _ rfl) ..
  exact (foldl_kept State.bringView (fun _ _ => State.wr_bringView _ _ _ rfl) ..).trans (hv.trans hu)

theorem State.freeSession_bringView (s : State) (i : Nat) : (s.freeSession i).bringView = s.bringView := by
  unfold State.freeSession
  grind [State.dropExtent_bringView, State.dropPages_bringView, State.leaveStep_bringView, State.sweepTables_bringView,
    State.zeroRange_bringView, State.onSsn_bringView, State.onDfb_bringView, State.setDirty_bringView, State.foldl_bringView]

theorem State.loseSession_bringView (s : State) (i : Nat) : (s.loseSession i).bringView = s.bringView := by
  unfold State.loseSession
  grind [State.abortR_bringView, State.endRequest_bringView, State.freeSession_bringView, State.raise_bringView, Reg.ofBringup,
    Evt.ssn_sessionLost]

theorem State.pageData_bringView (s : State) (ps : List KvPage) : (s.pageData ps).1.bringView = s.bringView := by
  unfold State.pageData
  refine foldl_kept (fun a : State × Option (List (List Byte)) => a.1.bringView) (fun a q => ?_) ps (s, some [])
  have hr := a.1.readMem_bringView q.key 65536
  cases a.2 with
  | none => rfl
  | some l => exact State.pair_bringView _ hr

theorem State.allPieces_bringView (s : State) (x : Session) : (s.allPieces x).1.bringView = s.bringView := by
  unfold State.allPieces
  grind [State.pageData_bringView]

theorem State.startPlace_bringView (s : State) (i t : Nat) : (s.startPlace i t).1.bringView = s.bringView := by
  unfold State.startPlace
  split
  · rfl
  next x _ =>
    extract_lets t set r
    have ht : t.bringView = s.bringView := State.chargeRent_bringView ..
    have hset : ∀ u p, (set u p).bringView = u.bringView := fun _ _ => State.updSession_bringView ..
    have hr : r.1.bringView = t.bringView := State.allPieces_bringView ..
    clear_value t set r
    grind [State.markPages_bringView, State.send_bringView, State.bump_bringView, State.newExtent_bringView, State.flashPut_bringView,
      State.dropExtent_bringView]

theorem State.undoPlace_bringView (s : State) (i : Nat) : (s.undoPlace i).bringView = s.bringView := by
  unfold State.undoPlace
  grind [State.dropExtent_bringView, State.markPages_bringView, State.updSession_bringView]

theorem State.cancelRevive_bringView (s : State) (i : Nat) : (s.cancelRevive i).bringView = s.bringView := by
  unfold State.cancelRevive
  grind [State.dropPages_bringView, State.markPages_bringView, State.updSession_bringView]

theorem State.losePages_bringView (s : State) (i : Nat) (lost : KvPage → Bool) : (s.losePages i lost).bringView = s.bringView := by
  unfold State.losePages
  grind [State.abortR_bringView, State.dropPages_bringView, State.leaveStep_bringView, State.undoPlace_bringView,
    State.updSession_bringView, State.send_bringView]

theorem State.losePb_bringView (s : State) (i : Nat) (a b : Bool) : (s.losePb i a b).bringView = s.bringView := by
  unfold State.losePb
  grind [State.loseSession_bringView, State.onSsn_bringView, State.updSession_bringView, State.raise_bringView, Reg.ofBringup,
    Evt.ssn_pbSingle]

theorem State.dropMove_bringView (s : State) (i : Nat) : (s.dropMove i).bringView = s.bringView := by
  unfold State.dropMove
  grind [State.abortR_bringView, State.updSession_bringView]

theorem State.finishDiscard_bringView (s : State) (i : Nat) : (s.finishDiscard i).bringView = s.bringView := by
  unfold State.finishDiscard
  grind [State.endRequest_bringView, State.finishR_bringView, State.freeSession_bringView]

theorem State.dropClean_bringView (s : State) (i : Nat) : (s.dropClean i).bringView = s.bringView := by
  unfold State.dropClean
  grind [State.dropPages_bringView, State.updSession_bringView]

theorem State.phasePark_bringView (s : State) (i : Nat) : (s.phasePark i).bringView = s.bringView := by
  unfold State.phasePark
  grind [State.cancelRevive_bringView, State.chargeRent_bringView, State.dropMove_bringView, State.updSession_bringView]

theorem State.phaseAdvance_bringView (s : State) : s.phaseAdvance.bringView = s.bringView := by
  unfold State.phaseAdvance
  grind [State.dropClean_bringView, State.losePages_bringView, State.phasePark_bringView, State.startPlace_bringView,
    State.foldl_bringView]

/-! #### Groups and steps -/

theorem State.setGroup_bringView (s : State) (g : Nat) (x : Group) : (s.setGroup g x).bringView = s.bringView := by rfl

theorem State.publishGroup_bringView (s : State) (g : Nat) : (s.publishGroup g).bringView = s.bringView := by
  unfold State.publishGroup
  grind [State.wr_bringView, Reg.ofBringup]

theorem State.updStep_bringView (s : State) (n : Nat) (f : Step → Step) : (s.updStep n f).bringView = s.bringView := by
  unfold State.updStep
  grind [State.onSch_bringView]

theorem State.sendGroup_bringView (s : State) (g n : Nat) (o : Out) : (s.sendGroup g n o).bringView = s.bringView := by
  unfold State.sendGroup
  grind [State.enqueue_bringView, State.send_bringView, State.foldl_bringView]

theorem State.sendPart_bringView (s : State) (n k : Nat) : (s.sendPart n k).bringView = s.bringView := by
  unfold State.sendPart
  grind [State.sendGroup_bringView, State.updStep_bringView, State.foldl_bringView]

theorem State.settlePages_bringView (s : State) (i l : Nat) : (s.settlePages i l).bringView = s.bringView := by
  unfold State.settlePages
  grind [State.dropPages_bringView, State.markPages_bringView, State.updSession_bringView]

theorem State.unwrite_bringView (s : State) (i l : Nat) : (s.unwrite i l).bringView = s.bringView := by rfl

theorem State.finishCancels_bringView (s : State) (i : Nat) : (s.finishCancels i).bringView = s.bringView := by
  unfold State.finishCancels
  grind [State.finishDiscard_bringView, State.finishR_bringView, State.foldl_bringView]

theorem State.displace_bringView (s : State) (n k l status : Nat) : (s.displace n k l status).bringView = s.bringView := by
  unfold State.displace
  grind [State.settlePages_bringView, State.unwrite_bringView, State.updCust_bringView, State.updSession_bringView,
    State.updStep_bringView]

theorem State.boundary_bringView (s : State) (n l : Nat) : (s.boundary n l).bringView = s.bringView := by
  unfold State.boundary
  grind [State.displace_bringView, State.endRequest_bringView, State.finishCancels_bringView, State.updStep_bringView,
    State.foldl_bringView]

theorem State.nextPart_bringView (s : State) (n k : Nat) : (s.nextPart n k).bringView = s.bringView := by
  unfold State.nextPart
  grind [State.boundary_bringView, State.sendPart_bringView, State.updStep_bringView]

/-! #### Engines and kernels -/

theorem State.setEngine_bringView (s : State) (m : Nat) (e : Engine) : (s.setEngine m e).bringView = s.bringView := by
  unfold State.setEngine
  grind [State.onKva_bringView, State.setFld_bringView, Reg.ofBringup, Fld.kvaEngStatus_queue, Fld.kvaEngStatus_bank]

theorem State.updAttn_bringView (s : State) (n : Nat) (f : AttnOp → AttnOp) : (s.updAttn n f).bringView = s.bringView := by
  unfold State.updAttn
  grind [State.onKva_bringView]

theorem State.sendAtr_bringView (s : State) (o : AttnOp) (flags : Nat) (es : List AttnEntry) :
    (s.sendAtr o flags es).bringView = s.bringView := by
  unfold State.sendAtr
  grind [State.sendOn_bringView]

theorem State.finishAttn_bringView (s : State) (op : Nat) (o : AttnOp) : (s.finishAttn op o).bringView = s.bringView := by
  have hpriv := s.writePriv_bringView o.clerk o.ctx o.addr (s.atrBytes o)
  unfold State.finishAttn
  grind [State.finishR_bringView, State.onKva_bringView, State.count_bringView, Reg.ofBringup, OptBring]

theorem State.writePartials_bringView (s : State) (o : AttnOp) (f : LayerForm) : OptBring s (s.writePartials o f) := by
  unfold State.writePartials
  refine foldl_inv (P := fun a : Option (State × Status × Nat) × Nat => OptBring s a.1) (fun a e ha => ?_) (OptBring.some rfl) _
  grind [State.writePriv_bringView, State.bump_bringView, OptBring]

theorem State.progress_bringView (s : State) (op : Nat) : (s.progress op).bringView = s.bringView := by
  unfold State.progress
  split
  · rfl
  next o _ =>
    have hpart := fun f => s.writePartials_bringView o f
    grind [State.abortR_bringView, State.finishAttn_bringView, State.finishR_bringView, State.nextPart_bringView,
      State.onKva_bringView, State.sendAtr_bringView, State.updAttn_bringView, OptBring]

theorem State.makeReports_bringView (s : State) (t : Step) (first : List Nat) : (s.makeReports t first).bringView = s.bringView := by rfl

theorem State.unmapPhase_bringView (s : State) (g : Nat) : (s.unmapPhase g).bringView = s.bringView := by
  unfold State.unmapPhase
  grind [State.deleteRegion_bringView, State.setGroup_bringView, State.onNmc_bringView]

theorem State.mapPhase_bringView (s : State) (g : Nat) : (s.mapPhase g).bringView = s.bringView := by
  unfold State.mapPhase
  grind [State.addRegion_bringView, State.setGroup_bringView, State.onNmc_bringView]

theorem State.switchDone_bringView (s : State) (g : Nat) : (s.switchDone g).bringView = s.bringView := by
  unfold State.switchDone
  grind [State.mapPhase_bringView, State.publishGroup_bringView, State.setGroup_bringView, State.raise_bringView, Reg.ofBringup,
    Evt.sch_roleChange]

theorem State.endStep_bringView (s : State) (t : Step) : (s.endStep t).bringView = s.bringView := by
  unfold State.endStep
  grind [State.phaseAdvance_bringView, State.setGroup_bringView, State.switchDone_bringView, State.onSch_bringView,
    State.count_bringView, Reg.ofBringup]

theorem State.abortAttn_bringView (s : State) (n : Nat) : (s.abortAttn n).bringView = s.bringView := by
  unfold State.abortAttn
  grind [State.progress_bringView, State.updAttn_bringView, State.foldl_bringView]

theorem State.abortStep_bringView (s : State) (n : Nat) : (s.abortStep n).bringView = s.bringView := by
  unfold State.abortStep
  grind [State.abortAttn_bringView, State.displace_bringView, State.endRequest_bringView, State.endStep_bringView,
    State.finishCancels_bringView, State.makeReports_bringView, State.updStep_bringView, State.foldl_bringView]

theorem State.abortKernels_bringView (s : State) (p : KernelOp → Bool) : (s.abortKernels p).bringView = s.bringView := by
  unfold State.abortKernels
  grind [State.abortR_bringView, State.onSch_bringView, State.foldl_bringView]

theorem State.groupOff_bringView (s : State) (g : Nat) : (s.groupOff g).bringView = s.bringView := by
  unfold State.groupOff
  grind [State.abortKernels_bringView, State.abortStep_bringView, State.publishGroup_bringView, State.setGroup_bringView,
    State.unmapPhase_bringView, State.foldl_bringView]

theorem State.settleGroups_bringView (s : State) : s.settleGroups.bringView = s.bringView := by
  unfold State.settleGroups
  grind [State.groupOff_bringView, State.publishGroup_bringView, State.setGroup_bringView, State.foldl_bringView]

/-! #### Sweeps and runs -/

theorem State.sweepImage_bringView (s : State) (k : Nat) : (s.sweepImage k).bringView = s.bringView := by
  unfold State.sweepImage
  grind [State.onTlr_bringView, State.wr_bringView, Reg.ofBringup]

theorem State.keepRecord_bringView (s : State) (rq : Requester) (h : Nat) (rec : RunRec) : (s.keepRecord rq h rec).bringView = s.bringView := by
  unfold State.keepRecord
  grind [State.onTlr_bringView, State.send_bringView, State.wr_bringView, Reg.ofBringup]

theorem State.refuseRun_bringView (s : State) (r : RunReq) (st : Status) (aux : Nat) : (s.refuseRun r st aux).bringView = s.bringView :=
  State.keepRecord_bringView ..

theorem State.beginRun_bringView (s : State) (c : Nat) (r : RunReq) : (s.beginRun c r).bringView = s.bringView := by
  unfold State.beginRun
  grind [State.setClerk_bringView, State.unitServe_bringView, State.zeroRange_bringView]

theorem State.dispatchRun_bringView (s : State) (n : Nat) (r : RunReq) (again : Bool) : (s.dispatchRun n r again).bringView = s.bringView := by
  unfold State.dispatchRun
  extract_lets pref here hub
  split
  · exact State.beginRun_bringView ..
  · split
    · rw [State.refuseRun_bringView, State.raise_bringView _ rfl]
      exact State.retryAfter_bringView ..
    · rfl

theorem State.takeSlots_bringView (s : State) (ctx j : Nat) (d : JobDesc) : (s.takeSlots ctx j d).1.bringView = s.bringView :=
  State.allocMany_bringView ..

/-! #### Searches -/

theorem State.dropPiece_bringView (s : State) (p : T4Piece) : (s.dropPiece p).bringView = s.bringView := by
  unfold State.dropPiece
  grind [State.freeFrame_bringView, State.onDfb_bringView, State.foldl_bringView]

theorem State.updColl_bringView (s : State) (i : Nat) (f : Coll → Coll) : (s.updColl i f).bringView = s.bringView := by
  unfold State.updColl
  grind [State.onVsr_bringView]

theorem State.publishVec_bringView (s : State) : s.publishVec.bringView = s.bringView := State.wr_bringView _ _ _ rfl

theorem State.searchDone_bringView (s : State) (r : Rcpt) (st : Status) (aux : Nat) (w1 : Word) :
    (s.searchDone r st aux w1).bringView = s.bringView := by
  unfold State.searchDone
  grind [State.finishR_bringView, State.count_bringView, Reg.ofBringup]

theorem State.freeStale_bringView (s : State) (i : Nat) : (s.freeStale i).bringView = s.bringView := by
  unfold State.freeStale
  grind [State.dropExtent_bringView, State.updColl_bringView, State.foldl_bringView]

theorem State.queuePasses_bringView (s : State) (op : Nat) (byChan : List (Nat × List (Nat × Nat))) (after : Option (F32 × Nat)) :
    (s.queuePasses op byChan after).bringView = s.bringView := rfl

theorem State.scan_bringView (s : State) (op : Nat) (k : Coll) (x : VSearch) (ps : List Nat) : (s.scan op k x ps).bringView = s.bringView := by
  unfold State.scan
  grind [State.onVsr_bringView, State.queuePasses_bringView, State.searchDone_bringView]

theorem State.startQuery_bringView (s : State) (op : Nat) : (s.startQuery op).bringView = s.bringView := by
  unfold State.startQuery
  grind [State.onVsr_bringView, State.scan_bringView, State.searchDone_bringView]

theorem State.nextQuery_bringView (s : State) (h : Nat) : (s.nextQuery h).bringView = s.bringView := by
  unfold State.nextQuery
  grind [State.startQuery_bringView]

theorem State.endQuery_bringView (s : State) (op : Nat) : (s.endQuery op).bringView = s.bringView := by
  unfold State.endQuery
  grind [State.freeStale_bringView, State.nextQuery_bringView, State.onVsr_bringView]

/-! #### Connections, ports and the reference that are lost -/

theorem State.cancelAttn_bringView (s : State) (n : Nat) : (s.cancelAttn n).bringView = s.bringView := rfl

theorem State.loseConns_bringView (s : State) (p : Nat) : (s.loseConns p).bringView = s.bringView := by
  unfold State.loseConns
  grind [State.onSec_bringView, State.send_bringView, State.foldl_bringView]

theorem State.portLost_bringView (s : State) (p : Nat) : (s.portLost p).bringView = s.bringView := by
  unfold State.portLost
  grind [State.dropFrames_bringView, State.failAgent_bringView, State.groupOff_bringView, State.loseConns_bringView,
    State.propose_bringView]

theorem State.portOff_bringView (s : State) (p : Nat) : (s.portOff p).bringView = s.bringView := by
  unfold State.portOff
  grind [State.portDown_bringView, State.portLost_bringView]

theorem State.erasesResume_bringView (s : State) : s.erasesResume.bringView = s.bringView := by
  unfold State.erasesResume
  grind [State.finishSdisc_bringView]

theorem State.revalidate_bringView (s : State) : s.revalidate.bringView = s.bringView := by
  unfold State.revalidate
  grind [State.setFld_bringView, Reg.ofBringup, Fld.timStatus_timeValid]

theorem State.settleRef_bringView (s : State) : s.settleRef.bringView = s.bringView := by
  unfold State.settleRef
  extract_lets old new t u v
  have ht : t.bringView = s.bringView := State.setFld_bringView _ _ _ rfl
  have hu : u.bringView = t.bringView := by grind [State.raise_bringView, Reg.ofBringup, Evt.tim_refLost]
  have hv : v.bringView = u.bringView := by grind [State.raise_bringView, Reg.ofBringup, Evt.tim_holdover]
  rw [State.revalidate_bringView, ← ht, ← hu, ← hv]
  rfl

/-! #### Stacks and hubs that fail -/

theorem State.poisonRange_bringView (s : State) (lo hi : Nat) : (s.poisonRange lo hi).bringView = s.bringView := by
  unfold State.poisonRange
  grind [State.poisonLine_bringView, State.foldl_bringView]

theorem State.abortEntries_bringView (s : State) (i : Nat) : (s.abortEntries i).bringView = s.bringView := by
  unfold State.abortEntries
  grind [State.progress_bringView, State.updAttn_bringView, State.onKva_bringView, State.foldl_bringView]

theorem State.sessLosesKv_bringView (s : State) (m i : Nat) : (s.sessLosesKv m i).bringView = s.bringView := by
  unfold State.sessLosesKv
  grind [State.abortEntries_bringView, State.abortR_bringView, State.dropClean_bringView, State.dropPages_bringView,
    State.losePages_bringView, State.updSession_bringView]

theorem State.sessLosesPb_bringView (s : State) (m i : Nat) : (s.sessLosesPb m i).bringView = s.bringView := by
  unfold State.sessLosesPb
  grind [State.losePb_bringView, State.loseSession_bringView, State.onSsn_bringView, State.updSession_bringView]

theorem State.storesLose_bringView (s : State) (m : Nat) : (s.storesLose m).bringView = s.bringView := by
  unfold State.storesLose
  grind [State.dropPiece_bringView, State.onSsn_bringView, State.onStm_bringView, State.foldl_bringView]

theorem State.loseStack_bringView (s : State) (m : Nat) : (s.loseStack m).bringView = s.bringView := by
  unfold State.loseStack
  grind [State.sessLosesKv_bringView, State.sessLosesPb_bringView, State.storesLose_bringView, State.setEngine_bringView,
    State.onKva_bringView, State.onSsn_bringView, State.wr_bringView, State.setFld_bringView, State.raise_bringView,
    State.foldl_bringView, Reg.ofBringup, Evt.glb_stackOffline, Fld.kvaEngStatus_state]

theorem State.publishHubs_bringView (s : State) : s.publishHubs.bringView = s.bringView := State.setFld_bringView _ _ _ rfl

theorem State.loseClerk_bringView (s : State) (c : Nat) : (s.loseClerk c).bringView = s.bringView := by
  unfold State.loseClerk
  grind [State.dropOpened_bringView, State.keepRecord_bringView, State.leaveSignals_bringView, State.setClerk_bringView,
    State.setHandle_bringView, State.sweepImage_bringView, State.count_bringView, State.foldl_bringView, Reg.ofBringup]

theorem State.dropClerkWork_bringView (s : State) (h : Nat) : (s.dropClerkWork h).bringView = s.bringView := by
  unfold State.dropClerkWork
  grind [State.cancelAttn_bringView, State.endQuery_bringView, State.onDfb_bringView, State.onStm_bringView, State.foldl_bringView]

theorem State.abortDependents_bringView (s : State) (h : Nat) : (s.abortDependents h).bringView = s.bringView := by
  unfold State.abortDependents
  grind [State.abortR_bringView, State.cancelAttn_bringView, State.endQuery_bringView, State.searchDone_bringView, State.foldl_bringView]

theorem State.redispatch_bringView (s : State) (h : Nat) : (s.redispatch h).bringView = s.bringView := by
  unfold State.redispatch
  grind [State.dispatchRun_bringView, State.keepRecord_bringView, State.sweepImage_bringView, State.onTlr_bringView,
    State.raise_bringView, State.foldl_bringView, Reg.ofBringup, Evt.tlr_runqRedispatch]

theorem State.dirLoses_bringView (s : State) (h : Nat) : (s.dirLoses h).bringView = s.bringView := by
  unfold State.dirLoses
  grind [State.dirResume_bringView, State.endRegions_bringView, State.settleNmc_bringView, State.onNmc_bringView, State.foldl_bringView]

theorem State.moveRegHub_bringView (s : State) : s.moveRegHub.bringView = s.bringView := by
  unfold State.moveRegHub
  grind [State.setFld_bringView, Reg.ofBringup, Fld.glbStatus_regHub]

theorem State.failHub_bringView (s : State) (h : Nat) :
    (s.failHub h).bringView = { s.bringView with hubs := s.arch.hubs.put h .failed } := by
  unfold State.failHub
  extract_lets live ms gone t u v w lost any x y z z' a b c d
  have ht : t.bringView = { s.bringView with hubs := s.arch.hubs.put h .failed } := State.publishHubs_bringView _
  rw [← ht]
  clear_value t
  grind [State.raise_bringView, State.moveRegHub_bringView, State.loseStack_bringView, State.poisonRange_bringView,
    State.dropClerkWork_bringView, State.loseClerk_bringView, State.abortDependents_bringView, State.redispatch_bringView,
    State.updPort_bringView, State.portOff_bringView, State.failAgent_bringView, State.dirLoses_bringView, State.onSch_bringView,
    State.settleRef_bringView, State.settleGroups_bringView, State.refreshBudget_bringView, State.foldl_bringView, Reg.ofBringup,
    Evt.glb_hubFailed, Evt.tlr_rcptLost]

/-! #### The pools, the flash and the stacks that come up -/

theorem State.openPool_bringView (s : State) (m base : Nat) : (s.openPool m base).bringView = s.bringView := by
  unfold State.openPool
  grind [State.onSsn_bringView, State.wr_bringView, Reg.ofBringup]

theorem State.divideDram_bringView (s : State) :
    s.divideDram.bringView =
      { s.bringView with window := min 1024 (bits (s.rd .nmcWindow).toNat 0 11) * 16384, share := s.shareFrames } := by
  unfold State.divideDram
  extract_lets win share t base
  rw [State.wr_bringView _ _ _ rfl, State.foldl_bringView fun u m => u.openPool_bringView m base]
  rfl

theorem State.recountFlash_bringView (s : State) (kept : Word × Word × Word × Nat) : (s.recountFlash kept).bringView = s.bringView := by
  unfold State.recountFlash
  grind [State.refreshUrgent_bringView, State.onFls_bringView, State.wr_bringView, State.setFld_bringView, Reg.ofBringup,
    Fld.flsPoolStatus_advPermille, Fld.flsPoolStatus_state]

theorem State.restoreSessions_bringView (s : State) (x : Saved) : (s.restoreSessions x).bringView = s.bringView := rfl

theorem State.restoreColls_bringView (s : State) (x : Saved) : (s.restoreColls x).bringView = s.bringView := by
  unfold State.restoreColls
  grind [State.publishVec_bringView, State.onVsr_bringView, State.wr_bringView, State.foldl_bringView, Reg.ofBringup]

theorem State.restoreJobs_bringView (s : State) (x : Saved) : (s.restoreJobs x).bringView = s.bringView := by
  unfold State.restoreJobs
  refine (State.foldl_bringView (fun t r => ?_) _ _).trans (State.onStm_bringView ..)
  extract_lets d p
  have hp : p.1.bringView = t.bringView := State.takeSlots_bringView ..
  clear_value p
  split
  · exact hp
  · rw [State.publishJob_bringView, ← hp]
    grind [State.onStm_bringView, State.wr_bringView, Reg.ofBringup]

theorem State.readBack_bringView (s : State) : s.readBack.bringView = { s.bringView with boot := { s.boot with saved := none } } := by
  unfold State.readBack
  split
  next hnone =>
    have hboot : { s.boot with saved := none } = s.boot := by rw [← hnone]
    rw [hboot]
    rfl
  next x _ =>
    extract_lets t u others v map w y
    have hu : u.bringView = s.bringView := by
      rw [State.onSch_bringView, State.restoreJobs_bringView, State.restoreColls_bringView, State.restoreSessions_bringView]
    have hw : w.bringView = u.bringView := by
      grind [State.publishDfb_bringView, State.onDfb_bringView, State.setFld_bringView, Reg.ofBringup, Fld.dfbStatus_self]
    have hy : y.bringView = s.bringView := (State.setFld_bringView _ _ _ rfl).trans (hw.trans hu)
    rw [State.onBoot_bringView, hy, show y.boot = s.boot from congrArg BringView.boot hy]

theorem State.bringFlash_bringView (s : State) (lost : Bool) :
    (s.bringFlash lost).bringView = { s.bringView with boot := { s.boot with flashUp := true, saved := none } } := by
  unfold State.bringFlash
  extract_lets t u v w
  have ht : t.bringView = s.bringView := by
    grind [State.recountFlash_bringView, State.flsFormat_bringView]
  have hu : u.bringView = s.bringView := by
    grind [State.poolTo_bringView, State.raise_bringView, Reg.ofBringup, Evt.fls_readOnly]
  have hw : w.bringView = { s.bringView with boot := { s.boot with flashUp := true, saved := none } } := by
    rw [State.readBack_bringView, State.onBoot_bringView, hu]
    change { s.bringView with boot := { u.boot with flashUp := true, saved := none } } = _
    rw [show u.boot = s.boot from congrArg BringView.boot hu]
  rw [← hw]
  grind [State.erasesResume_bringView, State.wr_bringView, Reg.ofBringup]

/-- A hub's return takes its stacks off the list of those out of service. -/
theorem State.returnStacks_bringView (s : State) (h : Nat) : (s.returnStacks h).bringView.hubsAlone = s.bringView.hubsAlone := by
  unfold State.returnStacks
  refine foldl_kept (fun t : State => t.bringView.hubsAlone) (fun t m => ?_) _ s
  extract_lets u v
  have hv : v.bringView = u.bringView := foldl_kept State.bringView (fun w p => by exact w.zeroRange_bringView ..) _ u
  rw [State.setFld_bringView _ _ _ rfl, State.openPool_bringView, hv]
  rfl

end Sys2Proof.Machine

namespace Sys2Proof.Machine

/-! ### Accesses that are discarded, and resets (R390, R394, R396) -/

/-- A discarded access is answered DENIED and counted, and changes nothing else (R396). -/
theorem State.discardAccess_spec (s : State) (rq : Requester) (off cause : Nat) : Discarded rq off cause s (s.discardAccess rq off cause) := by
  have honly : RegsOnly s (s.countAccess off cause) := .raise (.wr (.refl s) ..) _
  have hkept : RegsKept [(.glbAccessErr, 0), (.glbEvt, 0)] s (s.countAccess off cause) :=
    .raise (.wr (.refl _ s) _ (by decide)) (by decide)
  have hout : (s.countAccess off cause).out = s.out := honly.part State.out fun _ _ => rfl
  have hword : (s.countAccess off cause).rd .glbAccessErr 0 =
      BitVec.ofNat 64 (min ((s.rd .glbAccessErr 0).toNat % 2 ^ 32 + 1) (2 ^ 32 - 1) + off % 2 ^ 30 * 2 ^ 32 + cause % 4 * 2 ^ 62) := by
    rw [State.countAccess, State.rd_raise_ne _ _ (by decide), State.rd_wr_same, bits, pow_zero, Nat.div_one]
  refine ⟨congrArg (· ++ _) hout, ?_, hkept, ?_⟩
  · change ((s.countAccess off cause).rd .glbAccessErr 0).toNat = _
    rw [hword, BitVec.toNat_ofNat]
    exact Nat.mod_eq_of_lt (by omega)
  · change (s.countAccess off cause).send _ =
      { s with regs := (s.countAccess off cause).regs, latches := (s.countAccess off cause).latches, out := (s.countAccess off cause).out ++ _ }
    rw [hout]
    exact congrArg (fun t : State => t.send _) honly

theorem State.hubUp_failHub (s : State) (h : Nat) : (s.failHub h).hubUp h = false := by
  have hhubs : (s.failHub h).arch.hubs = s.arch.hubs.put h .failed := congrArg BringView.hubs (s.failHub_bringView h)
  rw [State.hubUp, hhubs, Tbl.lookD_put_same]
  rfl

/-- A hub that is reset is out of service, and its return has begun (R390, R393). -/
theorem State.resetHub_spec (s : State) (h : Nat) : (s.resetHub h).hubUp h = false ∧ (s.resetHub h).boot.returning.contains h = true := by
  refine ⟨?_, ?_⟩
  · change (if _ then _ else _ : State).hubUp h = false
    split
    · exact s.hubUp_failHub h
    next hup => simp_all
  · change (unionNat _ [h]).contains h = true
    simp [unionNat, em]

theorem exec_glbResetModule {rq : Requester} {v : Word} {s : State} (hlive : s.Live) (hkind : Fld.glbReset_kind.get v = 1)
    (hmodule : s.isModule rq = true) (hst : s.pwrSt ≠ 3) : exec (.glbResetModule rq v) s = .next (s.moduleReset false) := by
  change execGlbResetModule rq v s = _
  rw [execGlbResetModule, if_neg (by simp [hlive, hkind]), if_neg (by simp [hmodule]), if_neg hst]

/-- KIND 2, by which a hub is reset, refused, or noted until the flush ends (R390). -/
theorem exec_glbResetHub {rq : Requester} {v : Word} {h : Nat} {s : State} (hlive : s.Live) (hkind : Fld.glbReset_kind.get v = 2)
    (htarget : Fld.glbReset_target.get v = h) (hmodule : s.isModule rq = true) (hst : s.pwrSt ≠ 3) (hh : h < 4) :
    exec (.glbResetHub rq v) s = .next (
      if (s.hubsUp.filter fun k => decide (k ≠ h)).length < 2 then s.discardAccess rq (Reg.offset .glbReset 0) 3
      else if s.pwrSt = 2 then s.onPwr fun p => { p with pendingReset := some (.hub h) }
      else s.resetHub h) := by
  change execGlbResetHub rq v s = _
  rw [execGlbResetHub, htarget, if_neg (by simp [hlive, hkind]), if_neg (by simp [hmodule])]
  simp [hst, Nat.not_le.mpr hh]

/-- Stack `m` has no repair record, in the registers of repair and in any MRAM (R394). -/
def State.repairCleared (s : State) (m : Nat) : State :=
  (s.onArch fun a => { a with repairs := a.repairs.del m }).mramWrite fun x => { x with repairs := x.repairs.del m }

theorem exec_glbResetClearRepair {rq : Requester} {v : Word} {m : Nat} {s : State} (hopen : WriteOpen s rq .glbReset 0)
    (hkind : Fld.glbReset_kind.get v = 3) (htarget : Fld.glbReset_target.get v = m) (hm : m < 24) (hmodule : s.isModule rq = true) :
    exec (.glbResetClearRepair rq v) s = .next (s.repairCleared m) := by
  change execGlbResetClearRepair rq v s = _
  rw [execGlbResetClearRepair, htarget, if_neg (by simp [hkind]), hmodule, State.woWrite_of_writeOpen hopen, if_neg (by omega)]
  rfl

theorem State.repairCleared_spec (s : State) (m : Nat) :
    (s.repairCleared m).arch.repairs = s.arch.repairs.del m ∧ (s.repairCleared m).regs = s.regs ∧ (s.repairCleared m).mem = s.mem ∧
      ∀ h, h < 4 → s.hubUp h = true → ((s.repairCleared m).mram h).repairs.look m = none := by
  refine ⟨?_, ?_, ?_, fun h hh hup => ?_⟩
  · rw [State.repairCleared, State.mramWrite_eq]
    rfl
  · rw [State.repairCleared, State.mramWrite_eq]
    rfl
  · rw [State.repairCleared, State.mramWrite_eq]
    rfl
  · rw [State.repairCleared, State.mram_mramWrite (s := s.onArch fun a => { a with repairs := a.repairs.del m }) _ hh hup]
    exact Tbl.look_del_same ..

/-! ### A hub's return (R393) -/

/-- A loop that changes a part of the state at one index alone changes it as that index's step does. -/
theorem foldl_at {σ α γ : Type} (part : σ → γ) {f : σ → α → σ} {n : α} (hf : ∀ s k, k ≠ n → part (f s k) = part s) {l : List α}
    (hnodup : l.Nodup) (hn : n ∈ l) (s : σ) : ∃ u, part u = part s ∧ part (l.foldl f s) = part (f u n) := by
  obtain ⟨a, b, rfl⟩ := List.append_of_mem hn
  have hkept : ∀ (l : List α), n ∉ l → ∀ t, part (l.foldl f t) = part t := fun l hl t =>
    List.foldlRecOn l f (motive := fun u => part u = part t) rfl fun u hu k hk => (hf u k fun e => hl (e ▸ hk)).trans hu
  obtain ⟨-, hb, hab⟩ := List.nodup_append.mp hnodup
  refine ⟨a.foldl f s, hkept a (fun ha => hab n ha n List.mem_cons_self rfl) s, ?_⟩
  rw [List.foldl_append, List.foldl_cons, hkept b (List.nodup_cons.mp hb).1]

theorem State.mramWrite_bringView (s : State) (f : Mram → Mram) : (s.mramWrite f).bringView = s.bringView := by
  rw [State.mramWrite_eq]
  rfl

theorem State.refreshId_bringView (s : State) : s.refreshId.bringView = s.bringView :=
  (State.setFld_bringView _ _ _ rfl).trans (State.setFld_bringView _ _ _ rfl)

/-- Hub `h` is back in service: its seed, its links, the MRAM copies, its clerks and units. -/
def State.hubBack (s : State) (h : Nat) (seedOk : Bool) : State :=
  let s := s.onBoot fun b => { b with returning := b.returning.filter fun k => decide (k ≠ h) }
  let s := if seedOk then s else s.setFld Fld.secStatus_pufFallback 0 1
  let s := s.onArch fun a => { a with
    hubs := a.hubs.put h .inService, linksDown := a.linksDown.filter fun l => decide (l.1.1 ≠ h) && decide (l.1.2 ≠ h) }
  let s := ((s.mramWrite fun _ => s.mergedMram).refreshId).publishHubs
  let s := s.onTlr fun t => { t with clerks := t.clerks.keep fun c _ => decide (hubOfClerk c ≠ h) }
  s.onBoot fun b => { b with
    textOut := b.textOut.filter fun k => decide (k ≠ h), portOut := b.portOut.filter fun p => decide (hubOfPort p ≠ h) }

/-- The channels of hub `h` that are UP are negotiated again. -/
def State.chansAfresh (s : State) (h : Nat) : State :=
  (List.range 32).foldl (fun (s : State) c =>
    if hubOfChannel c = h && s.chanSt c = 1 then s.setFld Fld.flsChStatus_state c 0 else s) s

/-- A hub has returned with nothing that its self-test finds. -/
def State.hubReturned (s : State) (h : Nat) (seedOk : Bool) : State :=
  (((((s.hubBack h seedOk).returnStacks h).chansAfresh h).sweepTables.settleRef).settleGroups).refreshBudget

theorem exec_hubReturn_passes {h : Nat} (seedOk : Bool) {s : State} (hreturning : s.boot.returning.contains h = true) (hh : h < 4)
    (hup : s.hubUp h = false) : exec (.hubReturn h true seedOk []) s = s.whenLive (s.hubReturned h seedOk) := by
  change s.whenLive (if _ then _ else _) = _
  rw [if_neg (by simp [List.contains_iff_mem.mp hreturning, hh, hup])]
  simp only [Bool.not_true, Bool.false_eq_true, if_false, List.foldl_nil, List.isEmpty_nil, if_true]
  rfl

theorem exec_hubReturn_fails {h : Nat} (seedOk : Bool) (failed : List FailedUnit) {s : State} (hreturning : s.boot.returning.contains h = true)
    (hh : h < 4) (hup : s.hubUp h = false) :
    exec (.hubReturn h false seedOk failed) s =
      s.whenLive ((s.onBoot fun b => { b with returning := b.returning.filter fun k => decide (k ≠ h) }).onArch fun a =>
        { a with hubs := a.hubs.put h .out }) := by
  change s.whenLive (if _ then _ else _) = _
  rw [if_neg (by simp [List.contains_iff_mem.mp hreturning, hh, hup])]
  rfl

theorem State.hubBack_bringView (s : State) (h : Nat) (seedOk : Bool) :
    (s.hubBack h seedOk).bringView = { s.bringView with
      hubs := s.arch.hubs.put h .inService
      boot := { s.boot with
        returning := s.boot.returning.filter fun k => decide (k ≠ h)
        textOut := s.boot.textOut.filter fun k => decide (k ≠ h)
        portOut := s.boot.portOut.filter fun p => decide (hubOfPort p ≠ h) } } := by
  unfold State.hubBack
  extract_lets t u v w x
  have hu : u.bringView = t.bringView := by
    grind [State.setFld_bringView, Reg.ofBringup, Fld.secStatus_pufFallback]
  have hw : w.bringView = v.bringView := by
    rw [State.publishHubs_bringView, State.refreshId_bringView, State.mramWrite_bringView]
  have hv : v.bringView = { t.bringView with hubs := s.arch.hubs.put h .inService } := by
    rw [← hu, show s.arch.hubs = u.arch.hubs from (congrArg BringView.hubs hu).symm]
    rfl
  rw [State.onBoot_bringView, State.onTlr_bringView, hw, hv, show x.boot = t.boot from congrArg BringView.boot (hw.trans hv)]
  rfl

/-- Channels aside, a hub's return keeps what its beginning has set. -/
theorem State.chansAfresh_apart (s : State) (h : Nat) :
    ((s.chansAfresh h).bringView.hubs, (s.chansAfresh h).bringView.boot) = (s.bringView.hubs, s.bringView.boot) := by
  refine foldl_kept (fun t : State => (t.bringView.hubs, t.bringView.boot)) (fun t c => ?_) _ s
  split <;> rfl

theorem State.chanSt_chansAfresh (s : State) {h c : Nat} (hc : c < 32) (hhub : hubOfChannel c = h) (hst : s.chanSt c = 1) :
    (s.chansAfresh h).chanSt c = 0 := by
  obtain ⟨u, hu, hfold⟩ := foldl_at (fun t : State => t.chanSt c)
    (f := fun (s : State) c => if hubOfChannel c = h && s.chanSt c = 1 then s.setFld Fld.flsChStatus_state c 0 else s) (n := c)
    (fun t k hk => by
      split
      · exact State.fld_setFld_other _ _ _ _ _ _ (by decide) (.inl (by simp [Ne.symm hk]))
      · rfl)
    List.nodup_range (List.mem_range.mpr hc) s
  refine hfold.trans ?_
  rw [if_pos (by simp [hhub, hu.trans hst])]
  exact State.fld_setFld_same _ _ _ _ (by decide)

/-- The budget that a recomputation leaves is the one of the state it leaves (R358). -/
theorem State.rd_refreshBudget (s : State) :
    s.refreshBudget.rd .pwrBudget 0 = BitVec.ofNat 64 (s.refreshBudget.budgetAt s.refreshBudget.pwr.vbank) := by
  obtain ⟨hkept, honly, hbudget, -⟩ := s.refreshBudget_spec
  have harch : s.refreshBudget.arch = s.arch := honly.part State.arch fun _ _ => rfl
  have hpwr : s.refreshBudget.pwr = s.pwr := honly.part State.pwr fun _ _ => rfl
  rw [hbudget, State.budgetAt_congr harch hpwr hkept, hpwr]

theorem State.hubReturned_spec (s : State) (h : Nat) (seedOk : Bool) :
    let t := s.hubReturned h seedOk
    t.hubUp h = true ∧ t.boot.returning.contains h = false ∧
      (∀ c, c < 32 → hubOfChannel c = h → s.chanSt c = 1 → t.chanSt c = 0) ∧ t.rd .pwrBudget 0 = BitVec.ofNat 64 (t.budgetAt t.pwr.vbank) := by
  intro t
  have hback := s.hubBack_bringView h seedOk
  have hstacks := (s.hubBack h seedOk).returnStacks_bringView h
  generalize hu : (s.hubBack h seedOk).returnStacks h = u at hstacks
  have hend : t.bringView = (u.chansAfresh h).bringView := by
    simp only [t, State.hubReturned, hu]
    rw [State.refreshBudget_bringView, State.settleGroups_bringView, State.settleRef_bringView, State.sweepTables_bringView]
  rw [hback] at hstacks
  obtain ⟨hhubs, hboot⟩ := Prod.mk.inj (u.chansAfresh_apart h)
  have hubs : t.arch.hubs = s.arch.hubs.put h .inService :=
    (congrArg BringView.hubs hend).trans (hhubs.trans (congrArg BringView.hubs hstacks))
  have hreturning : u.boot.returning = s.boot.returning.filter fun k => decide (k ≠ h) :=
    congrArg (fun v : BringView => v.boot.returning) hstacks
  have hregs : u.bringView.regs = s.bringView.regs := by
    have hcopied := congrArg BringView.regs hstacks
    exact hcopied
  have boot : t.boot = u.boot := (congrArg BringView.boot hend).trans hboot
  refine ⟨?_, ?_, fun c hc hhub hst => ?_, State.rd_refreshBudget _⟩
  · rw [State.hubUp, hubs, Tbl.lookD_put_same]
    rfl
  · rw [boot, hreturning]
    simp
  · have hus : u.chanSt c = s.chanSt c := State.fld_of_rd (State.rd_of_bringView hregs c rfl)
    have htu : t.chanSt c = (u.chansAfresh h).chanSt c := State.fld_of_rd (State.rd_of_bringView (congrArg BringView.regs hend) c rfl)
    rw [htu, State.chanSt_chansAfresh u hc hhub (hus.trans hst)]

/-! ### A live restart (R343, R391, R392) -/

theorem exec_fwActivate {rq : Requester} {v : Word} (i : FwImage) {s : State} (hopen : WriteOpen s rq .glbFwActivate 0)
    (hmodule : s.isModule rq = true) (hlow : bits v.toNat 2 4 = 0) (hsrc : bits v.toNat 0 2 ≠ 3) :
    exec (.fwActivate rq v i) s = .next (
      if !(s.fwOk i) || s.fld Fld.secFw_svn < i.handoverFrom || s.dmap.leaseMs < 7 || s.boot.restart.isSome then s.raise Evt.sec_fwRefused
      else (s.onBoot fun b => { b with restart := some (i, bits v.toNat 0 2) }).setFld Fld.glbStatus_restart 0 1) := by
  change execFwActivate rq v i s = _
  rw [execFwActivate, hmodule, hlow, State.woWrite_of_writeOpen hopen, if_neg hsrc]

/-- The slot that ran is named in the boot record, unless it was on trial itself. -/
def State.slotKept (s : State) : State := if s.fld Fld.glbStatus_trial = 1 then s else s.slotPreferred

/-- The trial of the image that runs has begun. -/
def State.onTrial (s : State) : State :=
  ((s.setFld Fld.glbStatus_trial 0 1).setFld Fld.glbStatus_restart 0 0).raise Evt.glb_restartDone

/-- Image `i` of slot `src` runs on trial. -/
def State.restarted (s : State) (i : FwImage) (src : Nat) : State :=
  ((s.slotKept.fwRuns i).onBoot fun b => { b with slot := src, restart := none }).onTrial

theorem exec_liveRestartPause {i : FwImage} {src : Nat} {s : State} (hrestart : s.boot.restart = some (i, src)) (hsteps : s.sch.steps.rows = []) :
    exec .liveRestartPause s = s.whenLive (s.restarted i src) := by
  change execLiveRestartPause s = _
  rw [execLiveRestartPause, hrestart]
  simp only [hsteps, List.isEmpty_nil, Bool.not_true, Bool.false_eq_true, if_false]
  rfl

@[simp] theorem State.fwRuns_boot (s : State) (i : FwImage) : (s.fwRuns i).boot = { s.boot with digest := i.digest } := rfl
@[simp] theorem State.fwRuns_sec (s : State) (i : FwImage) : (s.fwRuns i).sec = s.sec := rfl
@[simp] theorem State.fwRuns_arch (s : State) (i : FwImage) : (s.fwRuns i).arch = s.arch := rfl

/-- An image that runs shows its key and its version. -/
theorem State.fwRuns_spec (s : State) (i : FwImage) (hsvn : i.svn < 65536) (hkey : i.keyIndex < 4) :
    RegsKept [(.secFw, 0)] s (s.fwRuns i) ∧ (s.fwRuns i).fld Fld.secFw_svn 0 = i.svn ∧ (s.fwRuns i).fld Fld.secFw_keyIndex 0 = i.keyIndex := by
  let u := (s.setFld Fld.secFw_keyIndex 0 i.keyIndex).setFld Fld.secFw_svn 0 i.svn
  have hrd : ∀ r j, (s.fwRuns i).rd r j = u.rd r j := State.rd_congr (State.onBoot_regs u _)
  have hkept : RegsKept [(.secFw, 0)] s u := .setFld (.setFld (.refl _ s) _ (by decide)) _ (by decide)
  refine ⟨fun r j hr => (hrd r j).trans (hkept r j hr), ?_, ?_⟩
  · rw [State.fld_of_rd (hrd ..), State.fld_setFld_same _ _ _ _ (by decide)]
    exact Nat.mod_eq_of_lt hsvn
  · rw [State.fld_of_rd (hrd ..), State.fld_setFld_other _ _ _ _ _ _ (by decide) (by decide), State.fld_setFld_same _ _ _ _ (by decide)]
    exact Nat.mod_eq_of_lt hkey

theorem State.slotKept_kept (s : State) : s.slotKept.boot = s.boot ∧ s.slotKept.mem = s.mem := by
  unfold State.slotKept State.slotPreferred
  split
  · exact ⟨rfl, rfl⟩
  · rw [State.mramWrite_eq]
    exact ⟨rfl, rfl⟩

theorem State.onTrial_spec (s : State) :
    RegsOnly s s.onTrial ∧ RegsKept [(.glbStatus, 0), (.glbEvt, 0)] s s.onTrial ∧ s.onTrial.fld Fld.glbStatus_trial 0 = 1 ∧
      s.onTrial.fld Fld.glbStatus_restart 0 = 0 ∧ bit (s.onTrial.rd .glbEvt 0).toNat Evt.glb_restartDone.bit = true := by
  unfold State.onTrial
  have hstatus : ∀ u : State, (u.raise Evt.glb_restartDone).rd .glbStatus 0 = u.rd .glbStatus 0 := fun u => State.rd_raise_ne _ _ (by decide)
  refine ⟨.raise (.setFld (.setFld (.refl s) ..) ..) _, .raise (.setFld (.setFld (.refl _ s) _ (by decide)) _ (by decide)) (by decide), ?_, ?_,
    State.bit_raise_same _ Evt.glb_restartDone (by decide)⟩
  · rw [State.fld_of_rd (f := Fld.glbStatus_trial) (hstatus _), State.fld_setFld_other _ _ _ _ _ _ (by decide) (by decide)]
    exact State.fld_setFld_same _ _ _ _ (by decide)
  · rw [State.fld_of_rd (f := Fld.glbStatus_restart) (hstatus _)]
    exact State.fld_setFld_same _ _ _ _ (by decide)

theorem State.restarted_spec (s : State) {i : FwImage} (src : Nat) (hsvn : i.svn < 65536) (hkey : i.keyIndex < 4) :
    (s.restarted i src).boot = { s.boot with digest := i.digest, slot := src, restart := none } ∧
      (s.restarted i src).fld Fld.secFw_svn 0 = i.svn ∧ (s.restarted i src).fld Fld.secFw_keyIndex 0 = i.keyIndex ∧
      (s.restarted i src).mem = s.mem ∧ (s.restarted i src).sec = s.slotKept.sec := by
  obtain ⟨hboot, hmem⟩ := s.slotKept_kept
  obtain ⟨-, hfw, hindex⟩ := s.slotKept.fwRuns_spec i hsvn hkey
  unfold State.restarted
  generalize hu : (s.slotKept.fwRuns i).onBoot (fun b => { b with slot := src, restart := none }) = u
  obtain ⟨honly, hkept, -⟩ := u.onTrial_spec
  have hrd : u.onTrial.rd .secFw 0 = (s.slotKept.fwRuns i).rd .secFw 0 := by
    rw [hkept _ _ (by decide), ← hu]
    exact State.rd_congr (State.onBoot_regs ..) ..
  refine ⟨(honly.part State.boot fun _ _ => rfl).trans ?_, (State.fld_of_rd (f := Fld.secFw_svn) hrd).trans hfw,
    (State.fld_of_rd (f := Fld.secFw_keyIndex) hrd).trans hindex, (honly.part State.mem fun _ _ => rfl).trans ?_,
    (honly.part State.sec fun _ _ => rfl).trans ?_⟩
  all_goals simp [← hu, hboot, hmem]

/-- Settles O55: each command is the equation of its case; what a hub that fails or returns takes with it is outside the view of the bring-up. -/
theorem resetsReturnAndRestart : Obligations.ResetsReturnAndRestart := by
  unfold Obligations.ResetsReturnAndRestart
  refine ⟨?resetModule, ?resetWaits, ?resetHub, ?refuseHub, ?clearRepair, ?romFails, ?hubReturns, ?restarts, ?fwRefused, ?onTrial⟩
  case resetModule =>
    rintro rq v s hlive ⟨hkind, hmodule, hst, hdark⟩
    obtain ⟨u, hreset, hpending, -⟩ := State.moduleReset_spec hst
    obtain ⟨hmem, hboot, hhubs, -, htlr, hssn, hkept, -, -, hregs, -⟩ := u.doReset_spec true false
    exact ⟨_, (exec_glbResetModule hlive hkind hmodule hdark).trans (congrArg _ hreset), hmem, hboot, hhubs, htlr, hssn,
      hkept.trans hpending, hregs⟩
  case resetWaits =>
    rintro rq v s hlive ⟨hkind, hmodule, hst⟩
    exact ⟨_, (exec_glbResetModule hlive hkind hmodule (by simp [hst])).trans (congrArg _ (if_pos hst)), rfl⟩
  case resetHub =>
    rintro rq v h s hlive ⟨hkind, htarget, hmodule, hst, hdark, hh⟩ htwo
    refine ⟨_, (exec_glbResetHub hlive hkind htarget hmodule hdark hh).trans ?_, s.resetHub_spec h⟩
    rw [if_neg (by omega), if_neg hst]
  case refuseHub =>
    rintro rq v h s hlive ⟨hkind, htarget, hmodule, hdark, hh⟩ hone
    refine ⟨_, (exec_glbResetHub hlive hkind htarget hmodule hdark hh).trans ?_, s.discardAccess_spec rq _ 3⟩
    rw [if_pos hone]
  case clearRepair =>
    rintro rq v m s hopen ⟨hkind, htarget, hm, hmodule⟩
    obtain ⟨hrepairs, hregs, hmem, hmram⟩ := s.repairCleared_spec m
    refine ⟨_, exec_glbResetClearRepair hopen hkind htarget hm hmodule, ?_, fun k hk => ?_, hmram, hregs, hmem⟩
    · rw [hrepairs, Tbl.look_del_same]
    · rw [hrepairs, Tbl.look_del_ne _ hk]
  case romFails =>
    rintro h seedOk failed s hlive ⟨hreturning, hh, hup⟩
    refine .of_live (exec_hubReturn_fails seedOk failed hreturning hh hup) hlive ⟨?_, ?_, rfl, rfl⟩
    · exact decide_eq_false (by simp [State.onArch])
    · simp
  case hubReturns =>
    rintro h seedOk s hlive ⟨hreturning, hh, hup⟩
    exact .of_live (exec_hubReturn_passes seedOk hreturning hh hup) hlive (s.hubReturned_spec h seedOk)
  case restarts =>
    rintro rq v i s hopen ⟨hmodule, hlow, hsrc⟩ ⟨hok, hhandover, hlease, hnone⟩
    refine ⟨_, (exec_fwActivate i hopen hmodule hlow hsrc).trans (congrArg _ (if_neg ?_)), rfl,
      State.fld_setFld_same _ _ _ _ (by decide), ?_, rfl⟩
    · simp [hok, hnone, Nat.not_lt.mpr hhandover, Nat.not_lt.mpr hlease]
    · exact .setFld (s := s) (t := s.onBoot _) (fun _ _ _ => rfl) _ (by decide)
  case fwRefused =>
    rintro rq v i s hopen ⟨hmodule, hlow, hsrc⟩ hrefused
    refine ⟨_, (exec_fwActivate i hopen hmodule hlow hsrc).trans (congrArg _ (if_pos ?_)), State.raise_boot .., ?_, .raise (.refl _ s) (by decide),
      State.raise_mem ..⟩
    · rcases hrefused with h | h <;> simp [h]
    · exact State.bit_raise_same s Evt.sec_fwRefused (by decide)
  case onTrial =>
    rintro i src s hlive ⟨hrestart, hsteps, hsvn, hkey⟩
    obtain ⟨hboot, hfw, hindex, hmem, hsec⟩ := s.restarted_spec src hsvn hkey
    obtain ⟨-, -, htrial, hover, hdone⟩ := ((s.slotKept.fwRuns i).onBoot fun b => { b with slot := src, restart := none }).onTrial_spec
    refine .of_live (exec_liveRestartPause hrestart hsteps) hlive ⟨hboot, hfw, hindex, htrial, hover, hdone, fun hno hslot h hh hup => ?_, hmem⟩
    have hkept : s.slotKept = s.slotPreferred := if_neg (by simp [hno])
    rw [State.mram, hsec, hkept]
    exact (congrArg Mram.prefer (State.mram_mramWrite _ hh hup)).trans (if_pos hslot)

end Sys2Proof.Machine

namespace Sys2Proof.Machine

/-! ### Power-on (steps 1 to 3 of Table 16-1, R340, R342, R384) -/

theorem State.revalidate_kept (s : State) : RegsKept [(.timStatus, 0)] s s.revalidate ∧ s.revalidate.sec = s.sec := by
  unfold State.revalidate
  split
  · exact ⟨.setFld (.refl _ s) _ (by decide), rfl⟩
  · exact ⟨.refl _ s, rfl⟩

/-- A choice of the reference moves its registers and the timebase's hub alone. -/
theorem State.settleRef_kept (s : State) : RegsKept [(.timStatus, 0), (.timEvt, 0)] s s.settleRef ∧ s.settleRef.sec = s.sec := by
  unfold State.settleRef
  extract_lets old new u v w
  have hkept : RegsKept [(.timStatus, 0), (.timEvt, 0)] s w := by
    have hu : RegsKept [(.timStatus, 0), (.timEvt, 0)] s u := .setFld (.refl _ s) _ (by decide)
    have hv : RegsKept [(.timStatus, 0), (.timEvt, 0)] s v := .ite (.raise hu (by decide)) hu
    exact .ite (.raise hv (by decide)) hv
  have honly : RegsOnly s w := by
    have hu : RegsOnly s u := .setFld (.refl s) ..
    have hv : RegsOnly s v := .ite (.raise hu _) hu
    exact .ite (.raise hv _) hv
  have hsec : w.sec = s.sec := honly.part State.sec fun _ _ => rfl
  obtain ⟨hvalid, hvalidSec⟩ :=
    (w.onArch fun a => { a with timebaseHub := if w.refA then some 0 else if w.refB then some 3 else none }).revalidate_kept
  exact ⟨(show RegsKept _ s (w.onArch _) from hkept).trans (hvalid.mono (by simp)), hvalidSec.trans hsec⟩

theorem State.hubUp_of_hubs {s t : State} (h : t.arch.hubs = s.arch.hubs) : t.hubUp = s.hubUp := funext fun k => by
  rw [State.hubUp, State.hubUp, h]

theorem State.hubsUp_of_hubs {s t : State} (h : t.arch.hubs = s.arch.hubs) : t.hubsUp = s.hubsUp := by
  rw [State.hubsUp, State.hubsUp, State.hubUp_of_hubs h]

/-- The core voltage is 0.70 V and the hubs that pass the ROM's check are in service. -/
def State.hubsStarted (s : State) (rom : List Nat) : State :=
  ((s.onPwr fun p => { p with recovered := true, chargerOn := true }).coreMv 700).onArch fun a =>
    { a with hubs := ⟨(List.range 4).map fun h => (h, if rom.contains h then HubSt.inService else .out)⟩ }

/-- The records of MRAM `m` stand in every hub in service, and the repair records say which stacks stay out. -/
def State.recordsMerged (s : State) (m : Mram) (seedsOk : Bool) : State :=
  let s := (s.setFld Fld.pwrChgCfg_chgSetCv 0 m.chgSetCv).mramWrite fun _ => m
  let s := s.onArch fun a => { a with
    repairs := m.repairs, stacksOff := (List.range 24).filter fun k => (m.repairs.lookD k StackRep.none).out }
  if seedsOk then s else s.setFld Fld.secStatus_pufFallback 0 1

/-- Leaf indices from `next` on are reserved, 1,024 with a quorum (R342). -/
def State.leavesTaken (s : State) (next : Nat) : State :=
  let res := if s.mramQuorum then next + 1024 else next
  let s := (s.mramWrite fun x => { x with nextRes := res }).onSec fun x => { x with next := next }
  (s.wr .secXmssNext 0 (BitVec.ofNat 64 (next % 2 ^ 40))).wr .secXmssRes 0 (BitVec.ofNat 64 (res % 2 ^ 40))

/-- The identity and the floors of the boot are published. -/
def State.floorsPublished (s : State) (m : Mram) : State :=
  let s := (s.refreshId).setFld Fld.secStatus_owned 0 (b2n m.owner.isSome)
  ((s.setFld Fld.secFw_romVer 0 Config.romVersion).setFld Fld.secFw_keyFloor 0 m.keyFloor).setFld Fld.secFw_fwFloor 0 m.fwFloor

/-- The hubs in service and the boot hub are published. -/
def State.bootHubPublished (s : State) : State :=
  let boot := (s.bootHub).getD 0
  ((s.publishHubs).setFld Fld.glbStatus_bootHub 0 boot).setFld Fld.glbStatus_regHub 0 boot

/-- The reference and the planner's hub are chosen. -/
def State.clocksChosen (s : State) : State :=
  let s := (s.setFld Fld.timStatus_source 0 3).settleRef
  s.onSch fun t => { t with plannerOnQ2 := !(s.hubUp 0) && s.hubUp 2 }

/-- What steps 1 to 3 publish: identity and floors, the boot hub, the reference and the planner's hub. -/
def State.startPublished (s : State) (m : Mram) : State :=
  (s.floorsPublished m).bootHubPublished.clocksChosen

/-- The module after steps 1 to 3. -/
def State.poweredOn (s : State) (rom puf : List Nat) : State :=
  let t := s.hubsStarted rom
  let m := t.mergedMram
  ((((t.recordsMerged m (rom.all puf.contains)).leavesTaken m.nextRes).startPublished m).onBoot fun b =>
    { b with done := [1, 2, 3], failed := [] }).trySource

theorem exec_powerOnBringup {rom : List Nat} (puf : List Nat) {s : State} (hlive : s.Live) (hdone : s.boot.done = [])
    (hheld : s.arch.heldThermal = false) (hrom : rom.contains 0 = true ∨ rom.contains 2 = true) :
    exec (.powerOnBringup rom puf) s = .next (s.poweredOn rom puf) := by
  change execPowerOnBringup rom puf s = _
  rw [execPowerOnBringup, if_neg (by simp [hdone, hheld, hlive]), if_neg (by rcases hrom with h | h <;> simp_all)]
  rfl

theorem State.hubUp_hubsStarted (s : State) (rom : List Nat) {h : Nat} (hh : h < 4) : (s.hubsStarted rom).hubUp h = rom.contains h := by
  have hlook : (s.hubsStarted rom).arch.hubs.lookD h .held = if rom.contains h then HubSt.inService else .out := by
    match h, hh with
    | 0, _ => rfl
    | 1, _ => rfl
    | 2, _ => rfl
    | 3, _ => rfl
  rw [State.hubUp, hlook]
  cases rom.contains h <;> rfl

theorem State.recordsMerged_spec (s : State) (m : Mram) (seedsOk : Bool) :
    (s.recordsMerged m seedsOk).arch.hubs = s.arch.hubs ∧ RegsKept [(.pwrChgCfg, 0), (.secStatus, 0)] s (s.recordsMerged m seedsOk) := by
  unfold State.recordsMerged
  rw [State.mramWrite_eq]
  refine ⟨?_, ?_⟩
  · cases seedsOk <;> rfl
  · have hset : RegsKept [(.pwrChgCfg, 0), (.secStatus, 0)] s (s.setFld Fld.pwrChgCfg_chgSetCv 0 m.chgSetCv) :=
      .setFld (.refl _ s) _ (by decide)
    exact .ite hset (.setFld hset _ (by decide))

theorem State.leavesTaken_spec (s : State) (next : Nat) :
    (s.leavesTaken next).arch = s.arch ∧ (s.leavesTaken next).sec.next = next ∧
      RegsKept [(.secXmssNext, 0), (.secXmssRes, 0)] s (s.leavesTaken next) ∧
      (s.mramQuorum = true → (s.leavesTaken next).rd .secXmssRes 0 = BitVec.ofNat 64 ((next + 1024) % 2 ^ 40) ∧
        ∀ h, h < 4 → s.hubUp h = true → ((s.leavesTaken next).mram h).nextRes = next + 1024) := by
  refine ⟨?_, rfl, ?_, fun hquorum => ⟨?_, fun h hh hup => ?_⟩⟩
  · rw [State.leavesTaken, State.mramWrite_eq]
    rfl
  · refine .wr (.wr (t := State.onSec _ _) (fun r i _ => ?_) _ (by decide)) _ (by decide)
    exact s.rd_mramWrite _ r i
  · rw [State.leavesTaken, hquorum]
    exact State.rd_wr_same ..
  · rw [State.leavesTaken, hquorum]
    exact congrArg Mram.nextRes (State.mram_mramWrite _ hh hup)

/-- The registers that steps 1 to 3 publish into. -/
abbrev startPublishedRegs : List (Reg × Nat) := [(.secStatus, 0), (.secFw, 0), (.glbStatus, 0), (.timStatus, 0), (.timEvt, 0)]

theorem State.refreshId_kept (s : State) : RegsKept [(.secStatus, 0)] s s.refreshId :=
  .setFld (.setFld (.refl _ s) _ (by decide)) _ (by decide)

theorem State.publishHubs_kept (s : State) : RegsKept [(.glbStatus, 0)] s s.publishHubs :=
  .setFld (.refl _ s) _ (by decide)

theorem State.floorsPublished_spec (s : State) (m : Mram) :
    RegsKept [(.secStatus, 0), (.secFw, 0)] s (s.floorsPublished m) ∧ RegsOnly s (s.floorsPublished m) := by
  unfold State.floorsPublished
  extract_lets u
  have hu : RegsKept [(.secStatus, 0), (.secFw, 0)] s u := .setFld (s.refreshId_kept.mono (by decide)) _ (by decide)
  have honly : RegsOnly s u := .setFld (.setFld (.setFld (.refl s) ..) ..) ..
  exact ⟨.setFld (.setFld (.setFld hu _ (by decide)) _ (by decide)) _ (by decide), .setFld (.setFld (.setFld honly ..) ..) ..⟩

theorem State.bootHubPublished_spec (s : State) (hup : s.hubUp 0 = true ∨ s.hubUp 2 = true) :
    RegsKept [(.glbStatus, 0)] s s.bootHubPublished ∧ RegsOnly s s.bootHubPublished ∧
      s.bootHubPublished.fld Fld.glbStatus_bootHub 0 = (if s.hubUp 0 = true then 0 else 2) ∧
      s.bootHubPublished.fld Fld.glbStatus_service 0 = s.fld Fld.glbStatus_service 0 := by
  refine ⟨.setFld (.setFld s.publishHubs_kept _ (by decide)) _ (by decide), .setFld (.setFld (.setFld (.refl s) ..) ..) .., ?_, ?_⟩
  · rw [State.bootHubPublished, State.fld_setFld_other _ _ _ _ _ _ (by decide) (by decide),
      State.fld_setFld_same _ _ _ _ (by decide)]
    change (([0, 2].find? s.hubUp).getD 0) % 4 = _
    cases h0 : s.hubUp 0
    · simp [h0, hup.resolve_left (by simp [h0])]
    · simp [h0]
  · rw [State.bootHubPublished, State.fld_setFld_other _ _ _ _ _ _ (by decide) (by decide),
      State.fld_setFld_other _ _ _ _ _ _ (by decide) (by decide), State.publishHubs,
      State.fld_setFld_other _ _ _ _ _ _ (by decide) (by decide)]

theorem State.clocksChosen_spec (s : State) :
    RegsKept [(.timStatus, 0), (.timEvt, 0)] s s.clocksChosen ∧ s.clocksChosen.sec = s.sec ∧ s.clocksChosen.arch.hubs = s.arch.hubs := by
  obtain ⟨hkept, hsec⟩ := (s.setFld Fld.timStatus_source 0 3).settleRef_kept
  have hview := (s.setFld Fld.timStatus_source 0 3).settleRef_bringView
  refine ⟨?_, hsec, ?_⟩
  · exact (RegsKept.setFld (.refl _ s) _ (by decide)).trans hkept
  · exact congrArg BringView.hubs hview

theorem State.startPublished_spec (s : State) (m : Mram) (hup : s.hubUp 0 = true ∨ s.hubUp 2 = true) :
    (s.startPublished m).arch.hubs = s.arch.hubs ∧ (s.startPublished m).sec = s.sec ∧
      RegsKept startPublishedRegs s (s.startPublished m) ∧
      (s.startPublished m).fld Fld.glbStatus_bootHub 0 = (if s.hubUp 0 = true then 0 else 2) ∧
      (s.startPublished m).fld Fld.glbStatus_service 0 = s.fld Fld.glbStatus_service 0 := by
  obtain ⟨hfloors, hfloorsOnly⟩ := s.floorsPublished_spec m
  have harch : (s.floorsPublished m).arch = s.arch := hfloorsOnly.part State.arch fun _ _ => rfl
  have hhub : (s.floorsPublished m).hubUp = s.hubUp := State.hubUp_of_hubs (by rw [harch])
  obtain ⟨hboot, hbootOnly, hnamed, hservice⟩ := (s.floorsPublished m).bootHubPublished_spec (by rwa [hhub])
  obtain ⟨hclocks, hsec, hhubs⟩ := (s.floorsPublished m).bootHubPublished.clocksChosen_spec
  have hstatus := hclocks .glbStatus 0 (by decide)
  refine ⟨?_, ?_, ?_, ?_, ?_⟩
  · rw [State.startPublished, hhubs, hbootOnly.part State.arch fun _ _ => rfl, harch]
  · rw [State.startPublished, hsec, hbootOnly.part State.sec fun _ _ => rfl, hfloorsOnly.part State.sec fun _ _ => rfl]
  · exact ((hfloors.mono (by decide)).trans (hboot.mono (by decide))).trans (hclocks.mono (by decide))
  · rw [State.startPublished, State.fld_of_rd (f := Fld.glbStatus_bootHub) hstatus, hnamed, hhub]
  · rw [State.startPublished, State.fld_of_rd (f := Fld.glbStatus_service) hstatus, hservice]
    exact State.fld_of_rd (hfloors _ _ (by decide))

/-! ### Firmware sources (steps 4 to 6 of Table 16-1, R343, R384) -/

/-- The source to be tried next: the first one that has not failed. -/
def State.nextSource (s : State) : Option Nat := s.sources.find? fun k => !(s.boot.failed.contains k)

/-- The port in boot mode while a source is tried: Sinil sources have one. -/
def bootPortsFor (source : Option Nat) : List Nat :=
  match source with
  | none => []
  | some k => if k < 2 then [] else [18 + k]

/-- A source's trial changes the record of the boot and what is sent. -/
theorem State.trySource_eq (s : State) :
    s.trySource = { s with
      boot := { s.boot with trying := s.nextSource, lastData := s.now, bootPorts := bootPortsFor s.nextSource }
      out := s.out ++ (bootPortsFor s.nextSource).map Out.boot } := by
  unfold State.trySource
  change (match s.nextSource with | none => _ | some k => _ : State) = _
  cases s.nextSource with
  | none => simp [bootPortsFor, State.onBoot]
  | some k =>
    dsimp only
    split
    next hk => simp [bootPortsFor, State.onBoot, hk]
    next hk => simp [bootPortsFor, State.onBoot, State.send, hk]

theorem State.trySource_parts (s : State) :
    s.trySource.regs = s.regs ∧ s.trySource.arch = s.arch ∧ s.trySource.sec = s.sec ∧ s.trySource.boot.done = s.boot.done := by
  rw [s.trySource_eq]
  exact ⟨rfl, rfl, rfl, rfl⟩

/-- A source that failed is not tried again at once. -/
theorem State.nextSource_ne {s : State} {k : Nat} (h : k ∈ s.boot.failed) : s.nextSource ≠ some k := fun hk => by
  have hfresh := List.find?_some hk
  simp [h] at hfresh

/-- A failed source leaves the registers of the bring-up and what has been done. -/
theorem State.sourceFailed_spec (s : State) (k : Nat) :
    (s.sourceFailed k).bringView.regs = s.bringView.regs ∧ (s.sourceFailed k).boot.done = s.boot.done ∧
      (s.sourceFailed k).boot.failed = k :: s.boot.failed ∧ (s.sourceFailed k).boot.digest = s.boot.digest ∧
      (s.sourceFailed k).boot.trying ≠ some k := by
  unfold State.sourceFailed
  extract_lets u
  generalize hw : (if 2 ≤ k then u.portOff (18 + k) else u) = w
  have hview : w.bringView = { s.bringView with boot := { s.boot with failed := k :: s.boot.failed, bootPorts := [] } } := by
    rw [← hw]
    split
    · exact State.portOff_bringView ..
    · rfl
  have hboot : w.boot = { s.boot with failed := k :: s.boot.failed, bootPorts := [] } := congrArg BringView.boot hview
  have hfailed : k ∈ w.boot.failed := by simp [hboot]
  have hregs : w.bringView.regs = s.bringView.regs := by rw [hview]
  rw [w.trySource_eq]
  exact ⟨hregs, by rw [hboot], by rw [hboot], by rw [hboot], State.nextSource_ne hfailed⟩

/-! ### The module after power-on -/

theorem State.poweredOn_spec {rom : List Nat} (puf : List Nat) (s : State) (hrom : rom.contains 0 = true ∨ rom.contains 2 = true) :
    let t := s.poweredOn rom puf
    t.boot.done = [1, 2, 3] ∧ (∀ h, h < 4 → t.hubUp h = rom.contains h) ∧ bits (t.rd .glbCore 0).toNat 0 16 = 700 ∧
      t.fld Fld.glbStatus_bootHub 0 = (if rom.contains 0 = true then 0 else 2) ∧
      t.fld Fld.glbStatus_service 0 = s.fld Fld.glbStatus_service 0 ∧
      (2 ≤ t.hubsUp.length → (t.rd .secXmssRes 0).toNat = (t.sec.next + 1024) % 2 ^ 40 ∧
        ∀ h, h < 4 → t.hubUp h = true → (t.mram h).nextRes = t.sec.next + 1024) := by
  intro t
  have hstart : ∀ h, h < 4 → (s.hubsStarted rom).hubUp h = rom.contains h := fun h hh => s.hubUp_hubsStarted rom hh
  have hcore : bits ((s.hubsStarted rom).rd .glbCore 0).toNat 0 16 = 700 := State.bits_glbCore_coreMv _ 700
  have hstarted : RegsKept [(.glbCore, 0)] s (s.hubsStarted rom) := .of_put rfl
  simp only [t, State.poweredOn]
  generalize s.hubsStarted rom = a at hstart hcore hstarted ⊢
  obtain ⟨hhubs, hmerged⟩ := a.recordsMerged_spec a.mergedMram (rom.all puf.contains)
  generalize a.recordsMerged a.mergedMram (rom.all puf.contains) = b at hhubs hmerged ⊢
  obtain ⟨harch, hnext, htaken, hquorum⟩ := b.leavesTaken_spec a.mergedMram.nextRes
  generalize b.leavesTaken a.mergedMram.nextRes = c at harch hnext htaken hquorum ⊢
  have hup : c.hubUp = a.hubUp := State.hubUp_of_hubs (by rw [harch, hhubs])
  obtain ⟨hubs, hsec, hkept, hboot, hservice⟩ :=
    c.startPublished_spec a.mergedMram (by rwa [hup, hstart 0 (by decide), hstart 2 (by decide)])
  generalize c.startPublished a.mergedMram = d at hubs hsec hkept hboot hservice ⊢
  obtain ⟨hregs, hfinalArch, hfinalSec, hdone⟩ := (d.onBoot fun b => { b with done := [1, 2, 3], failed := [] }).trySource_parts
  generalize (d.onBoot fun b => { b with done := [1, 2, 3], failed := [] }).trySource = e at hregs hfinalArch hfinalSec hdone ⊢
  have hrd : ∀ r i, e.rd r i = d.rd r i := State.rd_congr hregs
  have hfinal : e.hubUp = a.hubUp := (State.hubUp_of_hubs (congrArg Arch.hubs hfinalArch)).trans ((State.hubUp_of_hubs hubs).trans hup)
  have hnextSec : e.sec.next = a.mergedMram.nextRes := by rw [hfinalSec, State.onBoot_sec, hsec, hnext]
  refine ⟨hdone, fun h hh => ?_, ?_, ?_, ?_, fun htwo => ?_⟩
  · rw [hfinal, hstart h hh]
  · rw [hrd, hkept _ _ (by decide), htaken _ _ (by decide), hmerged _ _ (by decide), hcore]
  · rw [State.fld_of_rd (f := Fld.glbStatus_bootHub) (hrd _ _), hboot, hup, hstart 0 (by decide)]
  · rw [State.fld_of_rd (f := Fld.glbStatus_service) (hrd _ _), hservice]
    exact State.fld_of_rd ((htaken _ _ (by decide)).trans ((hmerged _ _ (by decide)).trans (hstarted _ _ (by decide))))
  · have hbup : b.hubUp = a.hubUp := State.hubUp_of_hubs hhubs
    have hlist : e.hubsUp = b.hubsUp := by rw [State.hubsUp, State.hubsUp, hfinal, hbup]
    obtain ⟨hres, hmram⟩ := hquorum (decide_eq_true (hlist ▸ htwo))
    refine ⟨?_, fun h hh hhup => ?_⟩
    · rw [hrd, hkept _ _ (by decide), hres, hnextSec, BitVec.toNat_ofNat]
      exact Nat.mod_eq_of_lt (by omega)
    · rw [State.mram, hfinalSec, State.onBoot_sec, hsec, hnext]
      exact hmram h hh (by rw [hbup, ← hfinal, hhup])

/-! ### A firmware image is fetched (steps 4 to 6 of Table 16-1, R343, R384) -/

theorem State.startStacks_spec (s : State) :
    RegsOnly s s.startStacks ∧ s.startStacks.rd .secFw 0 = s.rd .secFw 0 ∧
      ∀ m, s.stackUp m = true → s.startStacks.fld Fld.kvaEngStatus_state m = 1 := by
  refine ⟨?_, ?_, fun m hup => ?_⟩
  · exact foldl_inv (P := RegsOnly s) (fun _ _ h => h.setFld ..) (.refl s) _
  · exact foldl_kept (fun t : State => t.rd .secFw 0) (fun t m => State.rd_setFld_ne _ _ _ (by simp [Fld.kvaEngStatus_state])) _ s
  · have hm : m ∈ s.stacksUp := List.mem_filter.mpr ⟨List.mem_range.mpr (by simp_all [State.stackUp]), hup⟩
    obtain ⟨u, -, hfold⟩ := foldl_at (fun t : State => t.fld Fld.kvaEngStatus_state m)
      (f := fun (s : State) m => s.setFld Fld.kvaEngStatus_state m 1) (n := m)
      (fun t k hk => State.fld_setFld_other _ _ _ _ _ _ (by decide) (.inl (by simp [Ne.symm hk])))
      (List.nodup_range.filter _) hm s
    exact hfold.trans (State.fld_setFld_same _ _ _ _ (by decide))

/-- The image of source `k` has been taken, and its port leaves boot mode. -/
def State.imageTaken (s : State) (k : Nat) : State :=
  let s := s.onBoot fun b => { b with trying := none, source := k, slot := k, bootPorts := [], done := b.done ++ [4, 5, 6] }
  if 2 ≤ k then s.portOff (18 + k) else s

theorem exec_firmwareFetch {i : FwImage} {k : Nat} {s : State} (htrying : s.boot.trying = some k) (hdone : s.boot.done.contains 4 = false)
    (hport : k < 2 ∨ s.portSt (18 + k) = 5) :
    exec (.firmwareFetch (some i)) s = s.whenLive (
      if s.fwOk i then ((s.imageTaken k).fwRuns i).startStacks else (s.raise Evt.sec_fwRefused).sourceFailed k) := by
  change execFirmwareFetch (some i) s = _
  have hready : ¬(2 ≤ k ∧ s.portSt (18 + k) ≠ 5) := by omega
  rw [execFirmwareFetch, htrying]
  simp only [hdone, Bool.false_eq_true, if_false, Bool.and_eq_true, decide_eq_true_eq, hready]
  cases s.fwOk i <;> rfl

theorem State.imageTaken_bringView (s : State) (k : Nat) :
    (s.imageTaken k).bringView = { s.bringView with
      boot := { s.boot with trying := none, source := k, slot := k, bootPorts := [], done := s.boot.done ++ [4, 5, 6] } } := by
  unfold State.imageTaken
  extract_lets u
  split
  · exact State.portOff_bringView ..
  · rfl

theorem State.imageRuns_spec (s : State) (k : Nat) {i : FwImage} (hsvn : i.svn < 65536) (hok : s.fwOk i = true) :
    let t := ((s.imageTaken k).fwRuns i).startStacks
    t.boot.done = s.boot.done ++ [4, 5, 6] ∧ t.boot.trying = none ∧ t.boot.source = k ∧ t.boot.digest = i.digest ∧
      t.fld Fld.secFw_svn 0 = i.svn ∧ t.fld Fld.secFw_keyIndex 0 = i.keyIndex ∧
      ∀ m, s.stackUp m = true → t.fld Fld.kvaEngStatus_state m = 1 := by
  intro t
  have hview := s.imageTaken_bringView k
  have hkey : i.keyIndex < 4 := by simp_all [State.fwOk]
  obtain ⟨-, hfw, hindex⟩ := (s.imageTaken k).fwRuns_spec i hsvn hkey
  obtain ⟨honly, hrd, hstarted⟩ := ((s.imageTaken k).fwRuns i).startStacks_spec
  have hboot : t.boot = { s.boot with
      trying := none, source := k, slot := k, bootPorts := [], done := s.boot.done ++ [4, 5, 6], digest := i.digest } := by
    have htaken : (s.imageTaken k).boot = _ := congrArg BringView.boot hview
    rw [show t.boot = _ from honly.part State.boot fun _ _ => rfl, State.fwRuns_boot, htaken]
  refine ⟨by rw [hboot], by rw [hboot], by rw [hboot], by rw [hboot], (State.fld_of_rd (f := Fld.secFw_svn) hrd).trans hfw,
    (State.fld_of_rd (f := Fld.secFw_keyIndex) hrd).trans hindex, fun m hup => hstarted m ?_⟩
  have hhubs : (s.imageTaken k).arch.hubs = s.arch.hubs := congrArg BringView.hubs hview
  have hoff : (s.imageTaken k).arch.stacksOff = s.arch.stacksOff := congrArg BringView.stacksOff hview
  rw [State.stackUp, State.fwRuns_arch, State.hubUp_of_hubs (s := s) (by rw [State.fwRuns_arch, hhubs]), hoff]
  exact hup

theorem State.imageRefused_spec (s : State) (k : Nat) :
    let t := (s.raise Evt.sec_fwRefused).sourceFailed k
    t.boot.done = s.boot.done ∧ t.boot.failed = k :: s.boot.failed ∧ t.boot.digest = s.boot.digest ∧
      t.fld Fld.secFw_svn 0 = s.fld Fld.secFw_svn 0 ∧ bit (t.rd .secEvt 0).toNat Evt.sec_fwRefused.bit = true := by
  intro t
  obtain ⟨hregs, hdone, hfailed, hdigest, -⟩ := (s.raise Evt.sec_fwRefused).sourceFailed_spec k
  have hboot : (s.raise Evt.sec_fwRefused).boot = s.boot := State.raise_boot ..
  refine ⟨by rw [hdone, hboot], by rw [hfailed, hboot], by rw [hdigest, hboot], ?_, ?_⟩
  · refine State.fld_of_rd (f := Fld.secFw_svn) ((State.rd_of_bringView hregs 0 rfl).trans ?_)
    exact State.rd_raise_ne _ _ (by decide)
  · rw [State.rd_of_bringView hregs 0 rfl]
    exact State.bit_raise_same s Evt.sec_fwRefused (by decide)

/-- With hub 0 in service the two slots come first, and the first Sinil port after them. -/
theorem State.sources_eq_of_hubUp (s : State) (hup : s.hubUp 0 = true) :
    ∃ a rest, a < 2 ∧ s.sources = a :: (1 - a) :: 2 :: rest := by
  unfold State.sources
  extract_lets a
  have ha : a < 2 := by
    simp only [a]
    split <;> exact Nat.mod_lt _ (by decide)
  have hhub : ∀ k, k < 3 → sourceHub k = 0 := fun k hk => if_neg (by omega)
  refine ⟨a, [3].filter fun k => s.hubUp (sourceHub k), ha, ?_⟩
  rw [List.filter_cons_of_pos, List.filter_cons_of_pos, List.filter_cons_of_pos]
  all_goals rwa [hhub _ (by omega)]

/-- With every slot failed and hub 0 in service the first Sinil port is tried again (R384). -/
theorem State.sinilRetry_spec (s : State) (hup : s.hubUp 0 = true) (h0 : s.boot.failed.contains 0 = true) (h1 : s.boot.failed.contains 1 = true) :
    let t := (s.onBoot fun b => { b with failed := b.failed.filter fun k => decide (k < 2) }).trySource
    t.boot = { s.boot with failed := s.boot.failed.filter (fun k => decide (k < 2)), trying := some 2, lastData := s.now, bootPorts := [20] } ∧
      t = { s with boot := t.boot, out := s.out ++ [.boot 20] } := by
  intro t
  have hnext : (s.onBoot fun b => { b with failed := b.failed.filter fun k => decide (k < 2) }).nextSource = some 2 := by
    obtain ⟨a, rest, ha, hsources⟩ := (s.onBoot fun b => { b with failed := b.failed.filter fun k => decide (k < 2) }).sources_eq_of_hubUp hup
    have hfailed : ∀ k, k < 2 → (s.boot.failed.filter fun k => decide (k < 2)).contains k = true := fun k hk => by
      obtain rfl | rfl : k = 0 ∨ k = 1 := by omega
      · simpa using h0
      · simpa using h1
    have hfresh : (s.boot.failed.filter fun k => decide (k < 2)).contains 2 = false := by simp
    rw [State.nextSource, hsources]
    simp only [State.onBoot, List.find?_cons, hfailed a ha, hfailed (1 - a) (by omega), hfresh, Bool.not_true, Bool.not_false]
  simp only [t]
  rw [State.trySource_eq, hnext]
  exact ⟨rfl, rfl⟩

/-! ### Replay, self-test (steps 7 to 12 of Table 16-1, R386 to R389) -/

/-- What the replay does once the channels are settled. -/
def State.mapReplayed (s : State) (lost : Bool) : State :=
  let s := s.divideDram.refreshBudget
  let s := if s.hubsUp.length = 4 && decide (2 ≤ s.chansUp.length) then s.bringFlash lost else s
  (s.onBoot fun b => { b with done := b.done ++ [7, 8, 9, 10] }).refreshBudget

theorem exec_mapReplay (lost : Bool) {s : State} (h6 : s.boot.done.contains 6 = true) (h9 : s.boot.done.contains 9 = false)
    (hchans : s.channelsDone = true) : exec (.mapReplay lost) s = s.whenLive (s.mapReplayed lost) := by
  change execMapReplay lost s = _
  rw [execMapReplay, if_pos (by rw [h6, h9, hchans]; rfl)]
  rfl

theorem State.divideDram_sessions (s : State) : s.divideDram.ssn.sessions = s.ssn.sessions := by
  unfold State.divideDram
  extract_lets win share t base
  exact foldl_kept (fun u : State => u.ssn.sessions) (fun u m => by rfl) _ t

/-- The division of stack DRAM leaves the hubs and channels in service and the sessions. -/
theorem State.dramDivided_spec (s : State) :
    let t := s.divideDram.refreshBudget
    t.bringView = { s.bringView with window := min 1024 (bits (s.rd .nmcWindow).toNat 0 11) * 16384, share := s.shareFrames } ∧
      t.hubsUp = s.hubsUp ∧ t.chansUp = s.chansUp ∧ t.ssn.sessions = s.ssn.sessions := by
  intro t
  have hview : t.bringView = _ := (State.refreshBudget_bringView _).trans s.divideDram_bringView
  obtain ⟨-, honly, -⟩ := s.divideDram.refreshBudget_spec
  have hssn : t.ssn = s.divideDram.ssn := honly.part State.ssn fun _ _ => rfl
  have hregs : t.bringView.regs = s.bringView.regs := by rw [hview]
  have hhubs : t.arch.hubs = s.arch.hubs := congrArg BringView.hubs hview
  have hst : ∀ c, t.chanSt c = s.chanSt c := fun c => State.fld_of_rd (State.rd_of_bringView hregs c rfl)
  refine ⟨hview, State.hubsUp_of_hubs hhubs, ?_, by rw [hssn, State.divideDram_sessions]⟩
  simp only [State.chansUp, hst, State.hubUp_of_hubs hhubs]

theorem State.mapReplayed_spec (s : State) (lost : Bool) :
    let t := s.mapReplayed lost
    t.boot.done = s.boot.done ++ [7, 8, 9, 10] ∧ t.nmc.window = min 1024 (bits (s.rd .nmcWindow 0).toNat 0 11) * 16384 ∧
      t.dfb.share = s.shareFrames ∧ t.rd .pwrBudget 0 = BitVec.ofNat 64 (t.budgetAt t.pwr.vbank) ∧
      (s.hubsUp.length < 4 ∨ s.chansUp.length < 2 → t.boot.flashUp = s.boot.flashUp ∧ t.ssn.sessions = s.ssn.sessions) := by
  intro t
  obtain ⟨hview, hhubs, hchans, hsessions⟩ := s.dramDivided_spec
  simp only [t, State.mapReplayed]
  generalize s.divideDram.refreshBudget = u at hview hhubs hchans hsessions ⊢
  have hboot : u.boot = s.boot := congrArg BringView.boot hview
  have hwindow : u.nmc.window = _ := congrArg BringView.window hview
  have hshare : u.dfb.share = s.shareFrames := congrArg BringView.share hview
  generalize hv : (if u.hubsUp.length = 4 && decide (2 ≤ u.chansUp.length) then u.bringFlash lost else u) = v
  have hflash : v.boot.done = u.boot.done ∧ v.nmc.window = u.nmc.window ∧ v.dfb.share = u.dfb.share := by
    rw [← hv]
    split
    · have hflash := u.bringFlash_bringView lost
      exact ⟨congrArg (fun w : BringView => w.boot.done) hflash, congrArg BringView.window hflash, congrArg BringView.share hflash⟩
    · exact ⟨rfl, rfl, rfl⟩
  obtain ⟨hdone, hsameWindow, hsameShare⟩ := hflash
  obtain ⟨-, honly, -⟩ := (v.onBoot fun b => { b with done := b.done ++ [7, 8, 9, 10] }).refreshBudget_spec
  have hlast := (v.onBoot fun b => { b with done := b.done ++ [7, 8, 9, 10] }).rd_refreshBudget
  generalize (v.onBoot fun b => { b with done := b.done ++ [7, 8, 9, 10] }).refreshBudget = w at honly hlast ⊢
  have hwboot : w.boot = { v.boot with done := v.boot.done ++ [7, 8, 9, 10] } := honly.part State.boot fun _ _ => rfl
  have hwnmc : w.nmc = v.nmc := honly.part State.nmc fun _ _ => rfl
  have hwdfb : w.dfb = v.dfb := honly.part State.dfb fun _ _ => rfl
  have hwssn : w.ssn = v.ssn := honly.part State.ssn fun _ _ => rfl
  refine ⟨?_, ?_, ?_, hlast, fun hfew => ?_⟩
  · rw [hwboot, hdone, hboot]
  · rw [hwnmc, hsameWindow, hwindow]
  · rw [hwdfb, hsameShare, hshare]
  · have hsame : v = u := by
      rw [← hv, if_neg]
      simp only [hhubs, hchans, Bool.and_eq_true, decide_eq_true_eq]
      omega
    rw [hwboot, hwssn, hsame, hsessions, hboot]
    exact ⟨rfl, rfl⟩

/-- What the self-test records once the failed units are out of service. -/
def State.selfTested (s : State) : State := ((s.onBoot fun b => { b with done := b.done ++ [11, 12] }).refreshBudget).askDomain

/-- The self-test found a unit that failed. -/
def State.faultFound (s : State) : State := (s.onBoot fun b => { b with fault := true }).raise Evt.glb_selftestFail

theorem exec_selfTest (failed : List FailedUnit) {s : State} (h10 : s.boot.done.contains 10 = true) (h11 : s.boot.done.contains 11 = false) :
    exec (.selfTest failed) s = s.whenLive
      (if failed.isEmpty then failed.foldl State.unitOut s else (failed.foldl State.unitOut s).faultFound).selfTested := by
  change execSelfTest failed s = _
  rw [execSelfTest, if_pos (by rw [h10, h11]; rfl)]
  rfl

/-- The register of the domain's state is not one the budget is computed from. -/
theorem State.budgetAt_wr_dfbStatus (s : State) (i : Nat) (v : Word) (b : Nat) : (s.wr .dfbStatus i v).budgetAt b = s.budgetAt b := by
  have hrd : ∀ r j, r ≠ .dfbStatus → (s.wr .dfbStatus i v).rd r j = s.rd r j := fun r j hr => State.rd_wr_reg_ne _ _ _ _ hr
  have hup : (s.wr .dfbStatus i v).hubUp = s.hubUp := rfl
  simp only [State.budgetAt, State.slcRate, State.chanRate, State.nPlanes, State.bankCE, State.leadChan, State.chansUp, State.chanSt,
    State.fld, hup]
  simp (disch := decide) only [hrd]
  rfl

/-- A module that asks to join its domain changes the state of its domain's registers alone. -/
theorem State.askDomain_spec (s : State) :
    RegsKept [(.dfbStatus, 0)] s s.askDomain ∧ (∀ b, s.askDomain.budgetAt b = s.budgetAt b) ∧
      s.askDomain = { s with regs := s.askDomain.regs, out := s.askDomain.out } := by
  unfold State.askDomain
  split
  · exact ⟨.refl _ s, fun _ => rfl, rfl⟩
  · split
    · exact ⟨.refl _ s, fun _ => rfl, rfl⟩
    · exact ⟨(show RegsKept [(.dfbStatus, 0)] s (s.setFld Fld.dfbStatus_state 0 1) from .setFld (.refl _ s) _ (by decide)),
        fun b => s.budgetAt_wr_dfbStatus 0 _ b, rfl⟩

theorem State.selfTested_spec (s : State) :
    s.selfTested.boot = { s.boot with done := s.boot.done ++ [11, 12] } ∧ s.selfTested.arch = s.arch ∧ s.selfTested.mem = s.mem ∧
      s.selfTested.rd .pwrBudget 0 = BitVec.ofNat 64 (s.selfTested.budgetAt s.selfTested.pwr.vbank) ∧
      RegsKept (budgetRegs ++ [(.dfbStatus, 0)]) s s.selfTested := by
  unfold State.selfTested
  obtain ⟨hkept, honly, -⟩ := (s.onBoot fun b => { b with done := b.done ++ [11, 12] }).refreshBudget_spec
  have hbudget := (s.onBoot fun b => { b with done := b.done ++ [11, 12] }).rd_refreshBudget
  generalize (s.onBoot fun b => { b with done := b.done ++ [11, 12] }).refreshBudget = u at hkept honly hbudget ⊢
  have hstart : RegsKept budgetRegs s u := hkept
  obtain ⟨hasked, hsame, heq⟩ := u.askDomain_spec
  generalize u.askDomain = t at hasked hsame heq ⊢
  have hboot : t.boot = u.boot := by rw [heq]
  have harch : t.arch = u.arch := by rw [heq]
  have hmem : t.mem = u.mem := by rw [heq]
  have hpwr : t.pwr = u.pwr := by rw [heq]
  refine ⟨?_, ?_, ?_, ?_, ?_⟩
  · rw [hboot]
    exact honly.part State.boot fun _ _ => rfl
  · rw [harch]
    exact honly.part State.arch fun _ _ => rfl
  · rw [hmem]
    exact honly.part State.mem fun _ _ => rfl
  · rw [hasked _ _ (by decide), hbudget, hpwr, hsame]
  · exact (hstart.mono (by simp)).trans (hasked.mono (by simp))

/-- A channel that fails the self-test is FAILED and recorded, with the fault of the boot. -/
theorem State.channelFails_spec (s : State) (c : Nat) :
    let t := (s.unitOut (.channel c)).faultFound.selfTested
    t.boot.done = s.boot.done ++ [11, 12] ∧ t.boot.fault = true ∧ t.boot.chanOut.contains c = true ∧ t.chanSt c = 3 ∧
      bit (t.rd .glbEvt 0).toNat Evt.glb_selftestFail.bit = true := by
  intro t
  obtain ⟨hboot, -, -, -, hkept⟩ := (s.unitOut (.channel c)).faultFound.selfTested_spec
  have hfault : (s.unitOut (.channel c)).faultFound.boot = { s.boot with chanOut := unionNat s.boot.chanOut [c], fault := true } :=
    State.raise_boot ..
  refine ⟨by rw [hboot, hfault], by rw [hboot, hfault], ?_, ?_, ?_⟩
  · rw [hboot, hfault]
    simp [unionNat, em]
  · have hfld : (s.unitOut (.channel c)).chanSt c = 3 := State.fld_setFld_same _ _ _ _ (by decide)
    rw [← hfld]
    exact State.fld_of_rd ((hkept .flsChStatus _ (by simp)).trans (State.rd_raise_ne _ _ (by simp [Evt.glb_selftestFail])))
  · rw [hkept _ _ (by decide)]
    exact State.bit_raise_same _ Evt.glb_selftestFail (by decide)

/-! ### Service opens (R331, R389) -/

/-- Context `n` is back where the MRAM records it. -/
def State.ctxRestored (m : Mram) (s : State) (n : Nat) : State :=
  match m.ctxRecs.look n with
  | some r => s.restoreCtx n r (m.ctxFloors.lookD n 0)
  | none => s

/-- Each context that the MRAM records is back. -/
def State.ctxsRestored (s : State) (m : Mram) : State := (List.range 64).foldl (State.ctxRestored m) s

theorem exec_serviceOpen {s : State} (hmay : s.mayServe = true) (hservice : s.fld Fld.glbStatus_service 0 = 0) :
    exec .serviceOpen s = s.whenLive ((s.bootStatus.ctxsRestored s.mergedMram).setFld Fld.glbStatus_service 0 1) := by
  change execServiceOpen s = _
  rw [execServiceOpen, if_pos (by rw [hmay, hservice]; rfl)]
  rfl

/-- What service shows of context `n`: its registers and what it was restored with. -/
def State.ctxShown (s : State) (n : Nat) : Nat × Word × Option (CtxRec × Nat × Tbl Nat (List Byte)) :=
  (s.ctxState n, s.rd .secCtxTenant n, (s.ctx n).map fun c => (c.record, c.sweepStep, c.jobKeys))

theorem State.ctxShown_congr {s t : State} {n : Nat} (hstate : t.rd .secCtxState n = s.rd .secCtxState n)
    (htenant : t.rd .secCtxTenant n = s.rd .secCtxTenant n) (hctx : t.ctx n = s.ctx n) : t.ctxShown n = s.ctxShown n := by
  rw [State.ctxShown, State.ctxShown, State.ctxState_of_rd hstate, htenant, hctx]

/-- The context that record `r` brings back: a RESERVED one holds no Tellers. -/
def State.restoredCtx (s : State) (n : Nat) (r : CtxRec) : Ctx where
  record := r
  sweepStep := if r.state = 2 then 3 else 0
  jobEpochs := .empty
  jobKeys := .empty
  tellers := if r.state = 3 then [] else s.newTellers n r

/-- Context `n` is in the table and published, with its floor. -/
def State.ctxBack (s : State) (n : Nat) (r : CtxRec) (floor : Nat) : State :=
  ((s.onSec fun x => { x with ctxs := x.ctxs.put n (s.restoredCtx n r) }).publishCtx n r).wr .secCtxFloor n (BitVec.ofNat 64 floor)

theorem State.restoreCtx_eq (s : State) (n : Nat) (r : CtxRec) (floor : Nat) :
    s.restoreCtx n r floor =
      if r.state = 0 then s else if r.state = 2 then (s.ctxBack n r floor).ctxStatus n 0 1 else s.ctxBack n r floor := by
  unfold State.restoreCtx State.ctxBack State.restoredCtx
  by_cases h3 : r.state = 3 <;> simp only [h3, if_true, if_false]

theorem State.restoreCtx_regs (s : State) (k : Nat) (r : CtxRec) (floor : Nat) :
    RegsKept [(.secCtxTenant, k), (.secCtxState, k), (.secCtxQuiet, k), (.secCtxFloor, k), (.secCtxStatus, 0)] s (s.restoreCtx k r floor) := by
  rw [State.restoreCtx_eq]
  have hback : RegsKept [(.secCtxTenant, k), (.secCtxState, k), (.secCtxQuiet, k), (.secCtxFloor, k), (.secCtxStatus, 0)] s
      (s.ctxBack k r floor) := by
    refine .wr (.wr (.wr (.wr (t := s.onSec _) (fun q i _ => State.rd_congr (State.onSec_regs ..) q i) _ ?_) _ ?_) _ ?_) _ ?_ <;> simp
  exact .ite (.refl _ s) (.ite (.wr hback _ (by simp)) hback)

/-- The restoration of another context leaves what is shown of this one. -/
theorem State.ctxShown_restoreCtx_ne (s : State) {k n : Nat} (r : CtxRec) (floor : Nat) (hk : k ≠ n) :
    (s.restoreCtx k r floor).ctxShown n = s.ctxShown n := by
  have hkept := s.restoreCtx_regs k r floor
  refine State.ctxShown_congr (hkept _ _ (by simp [hk.symm])) (hkept _ _ (by simp [hk.symm])) ?_
  have hback : (s.ctxBack k r floor).ctx n = s.ctx n := Tbl.look_put_ne _ _ hk.symm
  rw [State.restoreCtx_eq]
  split_ifs
  · rfl
  · exact hback
  · exact hback

theorem State.ctxShown_restoreCtx (s : State) (n : Nat) {r : CtxRec} (floor : Nat) (hr : r.state = 1 ∨ r.state = 2 ∨ r.state = 3) :
    (s.restoreCtx n r floor).ctxShown n = (r.state, r.tenant, some (r, (if r.state = 2 then 3 else 0), .empty)) := by
  have hback : (s.ctxBack n r floor).ctxShown n = (r.state, r.tenant, some (r, (if r.state = 2 then 3 else 0), .empty)) := by
    let u := s.onSec fun x => { x with ctxs := x.ctxs.put n (s.restoredCtx n r) }
    have hctx : (s.ctxBack n r floor).ctx n = some (s.restoredCtx n r) := Tbl.look_put_same ..
    have hstate : (s.ctxBack n r floor).ctxState n = (u.publishCtx n r).ctxState n :=
      State.ctxState_of_rd (State.rd_wr_reg_ne _ _ _ _ (by decide))
    have htenant : (s.ctxBack n r floor).rd .secCtxTenant n = (u.publishCtx n r).rd .secCtxTenant n := State.rd_wr_reg_ne _ _ _ _ (by decide)
    rw [State.ctxShown, hstate, htenant, hctx, State.ctxState_publishCtx u n (by omega), State.rd_publishCtx_tenant]
    rfl
  rw [State.restoreCtx_eq, if_neg (by omega), ← hback]
  split
  · exact State.ctxShown_congr (State.rd_wr_reg_ne _ _ _ _ (by decide)) (State.rd_wr_reg_ne _ _ _ _ (by decide)) rfl
  · rfl

theorem State.restoreCtx_fls (s : State) (n : Nat) (r : CtxRec) (floor : Nat) : (s.restoreCtx n r floor).fls = s.fls := by
  rw [State.restoreCtx_eq]
  split_ifs <;> rfl

/-- The restorations leave the memory, the flash and the boot's report. -/
theorem State.ctxsRestored_kept (s : State) (m : Mram) :
    (s.ctxsRestored m).mem = s.mem ∧ (s.ctxsRestored m).fls = s.fls ∧ (s.ctxsRestored m).rd .glbBootStatus 0 = s.rd .glbBootStatus 0 := by
  refine foldl_inv (P := fun t : State => t.mem = s.mem ∧ t.fls = s.fls ∧ t.rd .glbBootStatus 0 = s.rd .glbBootStatus 0)
    (fun t n ⟨hmem, hfls, hrd⟩ => ?_) ⟨rfl, rfl, rfl⟩ _
  unfold State.ctxRestored
  split
  next r _ =>
    exact ⟨(State.restoreCtx_mem ..).trans hmem, (State.restoreCtx_fls ..).trans hfls, (t.restoreCtx_regs n r _ _ _ (by simp)).trans hrd⟩
  · exact ⟨hmem, hfls, hrd⟩

theorem State.ctxShown_ctxsRestored (s : State) {m : Mram} {n : Nat} {r : CtxRec} (hn : n < 64) (hlook : m.ctxRecs.look n = some r)
    (hr : r.state = 1 ∨ r.state = 2 ∨ r.state = 3) :
    (s.ctxsRestored m).ctxShown n = (r.state, r.tenant, some (r, (if r.state = 2 then 3 else 0), .empty)) := by
  obtain ⟨u, -, hfold⟩ := foldl_at (fun t : State => t.ctxShown n) (f := State.ctxRestored m) (n := n)
    (fun t k hk => by
      unfold State.ctxRestored
      split
      · exact t.ctxShown_restoreCtx_ne _ _ hk
      · rfl)
    List.nodup_range (List.mem_range.mpr hn) s
  rw [State.ctxRestored, hlook] at hfold
  exact hfold.trans (u.ctxShown_restoreCtx n _ hr)

theorem State.serviceOpened_spec (s : State) :
    let t := (s.bootStatus.ctxsRestored s.mergedMram).setFld Fld.glbStatus_service 0 1
    t.fld Fld.glbStatus_service 0 = 1 ∧
      (∀ n r, n < 64 → s.mergedMram.ctxRecs.look n = some r → (r.state = 1 ∨ r.state = 2 ∨ r.state = 3) →
        t.ctxState n = r.state ∧ t.rd .secCtxTenant n = r.tenant ∧
          ((t.ctx n).map fun c => (c.record, c.sweepStep, c.jobKeys)) = some (r, (if r.state = 2 then 3 else 0), .empty)) ∧
      t.rd .glbBootStatus 0 = s.bootStatus.rd .glbBootStatus 0 ∧ t.mem = s.mem ∧ t.fls = s.fls := by
  intro t
  obtain ⟨hmem, hfls, hreport⟩ := s.bootStatus.ctxsRestored_kept s.mergedMram
  have hrd : ∀ q i, q ≠ .glbStatus → t.rd q i = (s.bootStatus.ctxsRestored s.mergedMram).rd q i := fun q i hq =>
    State.rd_setFld_ne _ _ _ (by simp [hq, Fld.glbStatus_service])
  refine ⟨State.fld_setFld_same _ _ _ _ (by decide), fun n r hn hlook hr => ?_, (hrd _ _ (by decide)).trans hreport, hmem, hfls⟩
  have hshown : t.ctxShown n = _ := (State.ctxShown_congr (hrd _ _ (by decide)) (hrd _ _ (by decide)) rfl).trans
    (s.bootStatus.ctxShown_ctxsRestored hn hlook hr)
  simpa only [State.ctxShown, Prod.mk.injEq] using hshown

/-- Settles O54: each command is the composition of its steps, and each step's lemma says which parts it leaves. -/
theorem bringUpToService : Obligations.BringUpToService := by
  unfold Obligations.BringUpToService
  refine ⟨?powerOn, ?imageRuns, ?imageRefused, ?silence, ?retry, ?replay, ?selfTest, ?channelFails, ?service⟩
  case powerOn =>
    rintro rom puf s hlive ⟨hdone, hheld⟩ hrom
    exact ⟨_, exec_powerOnBringup puf hlive hdone hheld hrom, s.poweredOn_spec puf hrom⟩
  case imageRuns =>
    rintro i k s hlive ⟨htrying, hdone, hsvn⟩ hport hok
    refine .of_live (exec_firmwareFetch htrying hdone hport) hlive ?_
    rw [if_pos hok]
    exact s.imageRuns_spec k hsvn hok
  case imageRefused =>
    rintro i k s hlive ⟨htrying, hdone⟩ hport hrefused
    refine .of_live (exec_firmwareFetch htrying hdone hport) hlive ?_
    rw [if_neg (by simp [hrefused])]
    exact s.imageRefused_spec k
  case silence =>
    rintro k s hlive ⟨htrying, hsinil, hsilent⟩
    obtain ⟨-, hdone, hfailed, -, hnext⟩ := s.sourceFailed_spec k
    refine .of_live (t := s.sourceFailed k) ?_ hlive ⟨hfailed, hdone, hnext⟩
    change execBootSourceSilence s = _
    rw [execBootSourceSilence, htrying]
    simp [hsinil, hsilent]
  case retry =>
    rintro s hlive ⟨htrying, h3, h4, htime⟩ ⟨hup, h0, h1⟩
    refine .of_live ?_ hlive (s.sinilRetry_spec hup h0 h1)
    change execSinilBootRetry s = _
    rw [execSinilBootRetry, if_pos (by simp only [htrying, h3, h4, htime]; rfl)]
  case replay =>
    rintro lost s hlive ⟨h6, h9, hchans⟩
    exact .of_live (exec_mapReplay lost h6 h9 hchans) hlive (s.mapReplayed_spec lost)
  case selfTest =>
    rintro s hlive ⟨h10, h11⟩
    obtain ⟨hboot, harch, hmem, hbudget, -⟩ := s.selfTested_spec
    exact .of_live (exec_selfTest [] h10 h11) hlive ⟨hboot, harch, hbudget, hmem⟩
  case channelFails =>
    rintro c s hlive ⟨h10, h11⟩
    exact .of_live (exec_selfTest [.channel c] h10 h11) hlive (s.channelFails_spec c)
  case service =>
    rintro s hlive ⟨hmay, hservice⟩
    exact .of_live (exec_serviceOpen hmay hservice) hlive s.serviceOpened_spec

end Sys2Proof.Machine
